-- ==== Sys2Proof/Word.lean ====
section
/-!
DEFINITION. The words the device holds: a register is 32 bits wide and a quantity of 64 bits takes two
registers (R3); memory, registers and queues are little-endian (spec/00_scope.md, Notation).
-/

namespace Sys2Proof

/-- One octet. -/
abbrev Byte := BitVec 8

/-- One register (R3). -/
abbrev Word := BitVec 32

/-- A 64-bit quantity: a counter, a queue word, a network time. -/
abbrev Word64 := BitVec 64

/-- The 64-bit quantity of a low and a high half (R3). -/
def Word64.ofHalves (lo hi : Word) : Word64 := hi ++ lo

/-- The low half, at the lower offset (R3). -/
def Word64.low (w : Word64) : Word := w.setWidth 32

/-- The high half, at offset +4 (R3). -/
def Word64.high (w : Word64) : Word := (w >>> 32).setWidth 32

end Sys2Proof
end

