-- ==== Sys2Proof/Syntax.lean ====
section
/-!
DEFINITION. The commands of the block: one constructor per row of the command table. A command carries who sends
it and what it sends, and the outside facts that decide its outcome (a measurement, a decoded octet, a verdict).
-/

namespace Sys2Proof

/-- An initiator of bus transactions (R69), with the number LEDG_REFUSE_ST.INIT gives it. -/
inductive Init where
  | steward
  | linkCore (n : BitVec 1)
  | appCore (c : BitVec 2)
  | debug
  deriving DecidableEq, Repr

/-- The number of an initiator (LEDG_REFUSE_ST.INIT, R460). -/
def Init.num : Init → Nat
  | .steward => 0
  | .linkCore n => 1 + n.toNat
  | .appCore c => 3 + c.toNat
  | .debug => 7

/-- A front end (R74). -/
inductive Fe where
  | a
  | b
  deriving DecidableEq, Repr

/-- 0 for front end A, 1 for B. -/
def Fe.num : Fe → Nat
  | .a => 0
  | .b => 1

/-- A read-modify-write operation of the RISC-V A extension (R439). -/
inductive AmoOp where
  | swap | add | xor | and | or | min | max | minu | maxu
  deriving DecidableEq, Repr

/-- The kinds of memory access of R446; `size` is the base-2 logarithm of its octets. -/
inductive MemOp where
  | load (size : BitVec 2)
  | store (size : BitVec 2) (data : Word64)
  /-- load-reserved and store-conditional; `wide` for 64 bits -/
  | lr (wide : Bool)
  | sc (wide : Bool) (data : Word64)
  | amo (wide : Bool) (op : AmoOp) (data : Word64)
  /-- an instruction fetch of 2 or 4 octets -/
  | fetch (wide : Bool)
  deriving DecidableEq, Repr

/-- What error correction finds in the words an access reads; of an uncorrectable word, the bits that are wrong. -/
inductive EccSeen where
  | clean
  | corrected
  | uncorrectable (wrong : Word64)
  deriving DecidableEq, Repr

/-- What a lane measures of a frame (R274): RSSI and EVM in 0.25 dB, FOFS in Hz, all signed. -/
structure Quality where
  rssiQ : BitVec 16
  evmQ : BitVec 16
  fofs : BitVec 32
  deriving DecidableEq, Repr

/-- Who a transmission is for: a frame job, or the acknowledgement of the front end it names. -/
inductive Sender where
  | job (room : BitVec 6) (slot : BitVec 2)
  | ack (fe : Fe)
  deriving DecidableEq, Repr

/-- A channel energy reading (R275): ED in 0.25 dBm, signed. -/
structure EdReading where
  edQ : BitVec 16
  blanked : Bool
  deriving DecidableEq, Repr

/-- What an assessment finds at its decision tick (R322): the readings wholly inside its window, and whether one of
them has not reached the link controller. -/
structure Decision where
  who : Sender
  readings : List EdReading
  late : Bool
  deriving DecidableEq, Repr

/-- Why the regulator did not acknowledge (R590, R592): the limit passed, a status read with bit 15 (STATUS_WORD and
STATUS_VOUT), or a transfer failed after its repeats. -/
inductive RegFail where
  | timeout
  | status (word : BitVec 16) (vout : BitVec 8)
  | nak
  | pec
  deriving DecidableEq, Repr

/-- Where a recovery message comes from (R575). -/
inductive RecSource where
  | host | uart0 | radio
  deriving DecidableEq, Repr

/-- The number of a source as the UPD block holds it: 1 host port, 2 UART0, 3 radio. -/
def RecSource.num : RecSource → Nat
  | .host => 1
  | .uart0 => 2
  | .radio => 3

/-- The commands, one constructor per row of spec/opcode_table.json. -/
inductive Instr where
  /-- REGISTER_WRITE (R4) -/
  | registerWrite (i : Init) (addr : Nat) (data : Word)
  /-- MEMORY_ACCESS (R446) -/
  | memoryAccess (i : Init) (op : MemOp) (addr : Nat) (parityOk : Bool) (ecc : EccSeen)
  /-- COUNTER_LOW_READ (R6) -/
  | counterLowRead (i : Init) (addr : Nat) (live : Word64) (air : Word64)
  /-- SNAPSHOT_CAPTURE (R68) -/
  | snapshotCapture (i : Init) (addr : Nat)
  /-- STAGED_LOW_WRITE (R71) -/
  | stagedLowWrite (i : Init) (addr : Nat) (data : Word)
  /-- HIGH_HALF_COMMIT (R71) -/
  | highHalfCommit (i : Init) (addr : Nat) (data : Word)
  /-- READ_TO_CLEAR (R73) -/
  | readToClear (i : Init) (addr : Nat)
  /-- LANTERN_WRITE_EFFECT (R59) -/
  | lanternWriteEffect (addr : Nat)
  /-- EVENT_SOURCE_RAISE (R60) -/
  | eventSourceRaise (event : BitVec 10)
  /-- INTERRUPT_TAKEN (R457) -/
  | interruptTaken (core : Fin 7)
  /-- EVT_CLAIM (R457) -/
  | evtClaim (i : Init)
  /-- EVT_DONE (R457) -/
  | evtDone (i : Init) (data : Word)
  /-- FE_CMD_TARGET (R92) -/
  | feCmdTarget (i : Init) (fe : Fe) (data : Word) (temp : BitVec 16)
  /-- FE_CMD_CAL (R100) -/
  | feCmdCal (i : Init) (fe : Fe)
  /-- FE_CTRL_WRITE (R95) -/
  | feCtrlWrite (i : Init) (fe : Fe) (data : Word)
  /-- FE_CENTRE_WRITE (R98) -/
  | feCentreWrite (i : Init) (fe : Fe) (data : Word)
  /-- FE_TRANSITION_DONE (R90) -/
  | feTransitionDone (fe : Fe) (temp : BitVec 16) (rxt0 : Word64)
  /-- CALIBRATION_SET_END (R136) -/
  | calibrationSetEnd (fe : Fe) (temp : BitVec 16) (fail : BitVec 5) (band : BitVec 6) (irr : Word) (dc : Word) (lol : Word) (bw : Word)
  /-- FE_LOCK_LOST (R101) -/
  | feLockLost (fe : Fe)
  /-- FE_LOCK_FAIL (R101) -/
  | feLockFail (fe : Fe)
  /-- FE_XREF_FAIL (R102) -/
  | feXrefFail
  /-- DIE_TEMP_SAMPLE (R134) -/
  | dieTempSample (fe : Fe) (temp : BitVec 16)
  /-- FE_TUNE_WRITE (R106) -/
  | feTuneWrite (i : Init) (fe : Fe) (data : Word)
  /-- FE_MISMATCH_MEASURE (R107) -/
  | feMismatchMeasure (fe : Fe) (mag : BitVec 8) (phase : BitVec 6) (fwd : BitVec 8) (strong : Bool)
  /-- RADIO_RECLAIM (R113) -/
  | radioReclaim (i : Init)
  /-- LIC_TABLE_WRITE (R147) -/
  | licTableWrite (i : Init) (offset : BitVec 9) (data : Word)
  /-- LIC_CHECK (R147) -/
  | licCheck (i : Init) (key : BitVec 16)
  /-- LIC_BURN (R148) -/
  | licBurn (i : Init) (key : BitVec 16) (check : Bool)
  /-- LIC_BURN_DONE (R148) -/
  | licBurnDone (readBack : Bool)
  /-- BIN_SAMPLE_WRITE (R57) -/
  | binSampleWrite (lane : BitVec 8) (index : BitVec 48) (fill : Fin 65) (peakQ : BitVec 16) (edQ : BitVec 16)
  /-- GAIN_EVALUATION (R175) -/
  | gainEvaluation (fe : Fe) (m : BitVec 44) (peakQ : BitVec 16) (meanQ : BitVec 16)
  /-- GAIN_CHANGE (R176) -/
  | gainChange (fe : Fe)
  /-- CHZ_CTRL_WRITE (R180) -/
  | chzCtrlWrite (i : Init) (fe : Fe) (data : Word) (period : BitVec 48)
  /-- OVERLOAD_DETECT (R181) -/
  | overloadDetect (fe : Fe) (start : BitVec 48)
  /-- OVERLOAD_DROP (R181) -/
  | overloadDrop (fe : Fe) (period : BitVec 48)
  /-- OVERLOAD_EPISODE_END (R183) -/
  | overloadEpisodeEnd (fe : Fe) (period : BitVec 48)
  /-- OVL_HOLD_END (R185) -/
  | ovlHoldEnd (fe : Fe) (period : BitVec 48)
  /-- FAB_ACTIVATE (R221) -/
  | fabActivate (i : Init) (key : BitVec 16) (slot : BitVec 1)
  /-- FAB_CHECK (R227) -/
  | fabCheck (i : Init) (key : BitVec 16) (slot : BitVec 1)
  /-- FAB_RELOAD (R227) -/
  | fabReload (i : Init) (key : BitVec 16) (domain : BitVec 5)
  /-- PLAN_CHECK_DONE (R217) -/
  | planCheckDone
  /-- PLAN_SWITCH (R223) -/
  | planSwitch
  /-- DOMAIN_LOAD_DONE (R225) -/
  | domainLoadDone
  /-- SCRUB_TILE_READ (R228) -/
  | scrubTileRead (upset : Bool)
  /-- LANE_START (R250) -/
  | laneStart (i : Init) (lane : BitVec 8) (key : BitVec 16)
  /-- LANE_STOP (R250) -/
  | laneStop (i : Init) (lane : BitVec 8) (key : BitVec 16)
  /-- LANE_TUNE_GO (R259) -/
  | laneTuneGo (i : Init) (lane : BitVec 8) (data : Word)
  /-- LANE_TUNE_APPLY (R261) -/
  | laneTuneApply (lane : BitVec 8) (index : BitVec 48)
  /-- LANE_MOVE (R281) -/
  | laneMove (i : Init) (lane : BitVec 8) (key : BitVec 16) (dest : BitVec 8)
  /-- LANE_MOVE_EFFECTIVE (R282) -/
  | laneMoveEffective (lane : BitVec 8)
  /-- LANE_DRAIN_RELEASE (R283) -/
  | laneDrainRelease (lane : BitVec 8) (index : BitVec 48)
  /-- PREAMBLE_DETECTION (R263) -/
  | preambleDetection (lane : BitVec 8) (index : BitVec 48)
  /-- SFD_FOUND (R262) -/
  | sfdFound (lane : BitVec 8) (index : BitVec 48) (frac : BitVec 12) (coded : Bool) (mseQ : BitVec 16)
  /-- SFD_TIMEOUT (R264) -/
  | sfdTimeout (lane : BitVec 8)
  /-- PHR_DECODED (R265) -/
  | phrDecoded (lane : BitVec 8) (index : BitVec 48) (len : BitVec 11) (fcs2 : Bool) (mcs : BitVec 3) (hcsOk : Bool)
  /-- MODE_SWITCH_PPDU (R267) -/
  | modeSwitchPpdu (lane : BitVec 8) (phy : BitVec 8) (hQ : BitVec 8)
  /-- FRAME_END (R269) -/
  | frameEnd (lane : BitVec 8) (index : BitVec 48) (fcsOk : Bool) (sat : Bool) (qual : Quality)
  /-- LANE_TIMEOUT (R264) -/
  | laneTimeout (lane : BitVec 8)
  /-- RESYNC_COLLISION (R268) -/
  | resyncCollision (lane : BitVec 8) (index : BitVec 48)
  /-- LANE_VERDICT (R270) -/
  | laneVerdict (lane : BitVec 8) (octets : List Byte) (intact : Bool) (now : Word64)
  /-- SURVEY_BLOCK_END (R276) -/
  | surveyBlockEnd (fe : Fe) (block : BitVec 40) (means : List Int)
  /-- CANCELLER_TRAINING_END (R297) -/
  | cancellerTrainingEnd (fe : Fe) (deep : Bool)
  /-- FDX_MEASUREMENT (R299) -/
  | fdxMeasurement (fe : Fe) (iso : BitVec 8) (cancel : BitVec 8)
  /-- GAIN_CAP_RETURN (R301) -/
  | gainCapReturn (fe : Fe) (period : BitVec 48)
  /-- JOB_POST (R316) -/
  | jobPost (i : Init) (room : BitVec 6) (data : Word) (now : Word64)
  /-- JOB_CANCEL (R317) -/
  | jobCancel (i : Init) (room : BitVec 6) (key : BitVec 16) (slot : BitVec 2)
  /-- JOB_PREPARATION (R319) -/
  | jobPreparation (room : BitVec 6) (slot : BitVec 2) (agrees : Bool)
  /-- JOB_FILL_TICK (R320) -/
  | jobFillTick (room : BitVec 6) (slot : BitVec 2)
  /-- CCA_DECISION (R322) -/
  | ccaDecision (fe : Fe) (found : List Decision)
  /-- TX_TRANSITION_START (R321) -/
  | txTransitionStart (who : Sender) (tick : Word64) (temp : BitVec 16) (vpa : BitVec 12)
  /-- TX_RAMP_UP (R321) -/
  | txRampUp (fe : Fe) (tick : Word64) (fill : Nat)
  /-- UNDERRUN (R27) -/
  | underrun (fe : Fe)
  /-- TX_FRAME_END (R336) -/
  | txFrameEnd (fe : Fe) (tick : Word64) (radiated : Word64) (temp : BitVec 16)
  /-- NO_ACK (R325) -/
  | noAck (room : BitVec 6) (slot : BitVec 2)
  /-- RX_WIN_CLOSE (R329) -/
  | rxWinClose (room : BitVec 6) (slot : BitVec 2)
  /-- ACK_CUT (R328) -/
  | ackCut (fe : Fe) (late : Bool)
  /-- ACK_TRANSMIT (R326) -/
  | ackTransmit (fe : Fe)
  /-- LAST_GASP_STORE (R338) -/
  | lastGaspStore (slot : BitVec 2) (agrees : Bool)
  /-- DUTY_BUCKET_ADVANCE (R335) -/
  | dutyBucketAdvance (group : BitVec 4)
  /-- NBR_INSERT (R343) -/
  | nbrInsert (i : Init) (index : BitVec 12)
  /-- NBR_DELETE (R343) -/
  | nbrDelete (i : Init) (index : BitVec 12)
  /-- NBR_READ (R343) -/
  | nbrRead (i : Init) (index : BitVec 12)
  /-- NBR_LOOKUP (R343) -/
  | nbrLookup (i : Init) (index : BitVec 12)
  /-- QUEUE_POP (R354) -/
  | queuePop (i : Init) (queue : Fin 320) (ecc : EccSeen)
  /-- QUEUE_PUSH (R357) -/
  | queuePush (i : Init) (queue : Fin 320) (data : Word64)
  /-- QUEUE_DROP (R356) -/
  | queueDrop (i : Init) (queue : Fin 320) (key : BitVec 16)
  /-- QUEUE_FLUSH (R356) -/
  | queueFlush (i : Init) (queue : Fin 320) (key : BitVec 16)
  /-- QC_FLUSH (R364) -/
  | qcFlush (i : Init) (key : BitVec 16) (queue : BitVec 9)
  /-- KNK_EN_WRITE (R366) -/
  | knkEnWrite (i : Init) (data : Word)
  /-- KNK_CONFIG_WRITE (R376) -/
  | knkConfigWrite (i : Init) (isWord : Bool) (data : Word)
  /-- KNK_LISTEN_START (R366) -/
  | knkListenStart
  /-- KNK_PREAMBLE_DETECT (R372) -/
  | knkPreambleDetect
  /-- KNK_WORD_MATCH (R372) -/
  | knkWordMatch
  /-- KNK_WORD_TIMEOUT (R372) -/
  | knkWordTimeout
  /-- KNK_END_OF_PATTERN (R373) -/
  | knkEndOfPattern (target : BitVec 16) (crc : BitVec 8) (level : BitVec 8) (now : Nat)
  /-- PPS_IN_EDGE (R385) -/
  | ppsInEdge (edge : Word64) (nt : Word64)
  /-- PPS_LOST (R385) -/
  | ppsLost
  /-- TIME_MEAS (R386) -/
  | timeMeas (i : Init) (data : Word) (now : Word64)
  /-- TIME_SET (R390) -/
  | timeSet (i : Init) (data : Word) (now : Word64)
  /-- MESH_LOST (R386) -/
  | meshLost
  /-- TIME_SEC (R393) -/
  | timeSec (sec : Word64) (tick : Word64) (f10 : BitVec 24)
  /-- PPS_PULSE_END (R393) -/
  | ppsPulseEnd
  /-- REF_ESTIMATE_UPDATE (R395) -/
  | refEstimateUpdate (n : BitVec 32) (mean : Int)
  /-- IM_ARM (R401) -/
  | imArm (i : Init) (data : Word) (now : Word64)
  /-- IM_CANCEL (R401) -/
  | imCancel (i : Init) (data : Word) (now : Word64)
  /-- IM_EDGE (R401) -/
  | imEdge (src : BitVec 7) (falling : Bool) (at_ : Word64)
  /-- IM_WINDOW_EXPIRE (R402) -/
  | imWindowExpire
  /-- TIMER_ENABLE (R409) -/
  | timerEnable (i : Init) (timer : Fin 20) (data : Word) (count : Word64)
  /-- TIMER_ZERO (R409) -/
  | timerZero (i : Init) (timer : Fin 20) (key : BitVec 16)
  /-- TIMER_CMP_COMMIT (R411) -/
  | timerCmpCommit (i : Init) (timer : Fin 20) (data : Word)
  /-- TIMER_RELOAD_COMMIT (R414) -/
  | timerReloadCommit (i : Init) (timer : Fin 20) (data : Word)
  /-- TIMER_CMP_EFFECT (R411) -/
  | timerCmpEffect (timer : Fin 20) (count : Word64)
  /-- TIMER_WRAP (R408) -/
  | timerWrap (timer : Fin 20) (count : Word64)
  /-- TIMER_MATCH (R410) -/
  | timerMatch (timer : Fin 20) (count : Word64)
  /-- TIMER_CAPTURE (R416) -/
  | timerCapture (timer : Fin 20) (count : Word64) (falling : Bool)
  /-- CAL_SECOND (R420) -/
  | calSecond
  /-- CAL_OSC_STOP (R423) -/
  | calOscStop
  /-- CAL_SET (R424) -/
  | calSet (i : Init) (key : BitVec 16) (sync : Bool)
  /-- CAL_SYNC (R425) -/
  | calSync (i : Init) (key : BitVec 16)
  /-- CAL_SYNC_APPLY (R425) -/
  | calSyncApply (snt : Word64)
  /-- PWR_ON_SET (R433) -/
  | pwrOnSet (i : Init) (data : Word)
  /-- PWR_ON_CLR (R433) -/
  | pwrOnClr (i : Init) (data : Word)
  /-- LEDG_COMMIT (R445) -/
  | ledgCommit (i : Init) (key : BitVec 16) (room : BitVec 6)
  /-- LEDG_SUSPEND (R451) -/
  | ledgSuspend (i : Init) (key : BitVec 16) (room : BitVec 6)
  /-- LEDG_RESUME (R449) -/
  | ledgResume (i : Init) (key : BitVec 16) (room : BitVec 6)
  /-- LEDG_RESET (R452) -/
  | ledgReset (i : Init) (key : BitVec 16) (room : BitVec 6)
  /-- LEDG_SWITCH (R443) -/
  | ledgSwitch (i : Init) (key : BitVec 16) (core : BitVec 2) (room : BitVec 6)
  /-- LEDG_PARK (R443) -/
  | ledgPark (i : Init) (key : BitVec 16) (core : BitVec 2)
  /-- LEDG_REMOVE (R449) -/
  | ledgRemove (i : Init) (key : BitVec 16) (room : BitVec 6)
  /-- LEDG_WAYS_WRITE (R442) -/
  | ledgWaysWrite (i : Init) (core : BitVec 2) (high : Bool) (data : Word)
  /-- WDOG_KICK (R453) -/
  | wdogKick (i : Init) (room : BitVec 6) (key : BitVec 16)
  /-- ROOM_WDOG (R454) -/
  | roomWdog (room : BitVec 6)
  /-- PH_LOCK_READ (R466) -/
  | phLockRead (i : Init) (chan : BitVec 6)
  /-- PH_RELEASE (R467) -/
  | phRelease (i : Init) (chan : BitVec 6)
  /-- PH_FORCE (R467) -/
  | phForce (i : Init) (key : BitVec 16) (chan : BitVec 6)
  /-- PH_SEND (R469) -/
  | phSend (i : Init) (chan : BitVec 6) (data : Word)
  /-- PH_SEND_END (R472) -/
  | phSendEnd (i : Init) (chan : BitVec 6) (data : Word)
  /-- PH_RECV (R470) -/
  | phRecv (i : Init) (chan : BitVec 6)
  /-- PH_RET_WRITE (R473) -/
  | phRetWrite (i : Init) (chan : BitVec 6) (data : Word)
  /-- CIP_START (R481) -/
  | cipStart (i : Init) (ctx : Fin 65) (key : BitVec 16) (first : Bool) (last : Bool) (abort : Bool) (clear : Bool)
  /-- CIP_ABORT (R490) -/
  | cipAbort (i : Init) (ctx : Fin 65) (key : BitVec 16) (clear : Bool)
  /-- CIP_CLEAR (R490) -/
  | cipClear (i : Init) (ctx : Fin 65) (key : BitVec 16)
  /-- CIP_OPERATION_DONE (R487) -/
  | cipOperationDone (ctx : Fin 65)
  /-- CIP_LOCK_READ (R498) -/
  | cipLockRead (i : Init)
  /-- CIP_LOCK_RELEASE (R501) -/
  | cipLockRelease (i : Init)
  /-- CIP_CFORCE (R501) -/
  | cipCforce (i : Init) (key : BitVec 16)
  /-- CIP_LOCK_EXPIRED (R500) -/
  | cipLockExpired
  /-- ENROLL (R511) -/
  | enroll (i : Init) (key : BitVec 16)
  /-- ROTATE (R511) -/
  | rotate (i : Init) (key : BitVec 16)
  /-- RNG_STARTUP_DONE (R513) -/
  | rngStartupDone
  /-- RNG_BLOCK_RELEASE (R513) -/
  | rngBlockRelease (raw : BitVec 512)
  /-- RNG_TEST_FAIL (R514) -/
  | rngTestFail (rct : Bool) (rawBit : Word64)
  /-- RNG_RESTART (R514) -/
  | rngRestart (i : Init) (key : BitVec 16)
  /-- RNG_DATA_READ (R516) -/
  | rngDataRead (i : Init)
  /-- KP_LOAD (R523) -/
  | kpLoad (i : Init) (room : BitVec 6) (key : BitVec 16) (cls : BitVec 2) (sel : BitVec 2) (klen : BitVec 2)
  /-- KP_DERIVE (R523) -/
  | kpDerive (i : Init) (room : BitVec 6) (key : BitVec 16) (cls : BitVec 2) (sel : BitVec 2) (klen : BitVec 2)
  /-- KP_UNWRAP (R523) -/
  | kpUnwrap (i : Init) (room : BitVec 6) (key : BitVec 16) (cls : BitVec 2) (sel : BitVec 2) (klen : BitVec 2)
  /-- KP_UNLOAD (R523) -/
  | kpUnload (i : Init) (room : BitVec 6) (key : BitVec 16) (cls : BitVec 2) (sel : BitVec 2) (klen : BitVec 2)
  /-- KP_DELETE (R523) -/
  | kpDelete (i : Init) (room : BitVec 6) (key : BitVec 16) (cls : BitVec 2) (sel : BitVec 2) (klen : BitVec 2)
  /-- KP_FIND (R523) -/
  | kpFind (i : Init) (room : BitVec 6) (key : BitVec 16) (cls : BitVec 2) (sel : BitVec 2) (klen : BitVec 2)
  /-- KP_COMMAND_DONE (R523) -/
  | kpCommandDone (room : BitVec 6) (slot : BitVec 7) (entry : BitVec 9) (bad : Bool)
  /-- SHELF_COMPACTION (R525) -/
  | shelfCompaction (due : Bool)
  /-- PK_VERIFY (R526) -/
  | pkVerify (i : Init) (key : BitVec 16)
  /-- PK_ECDH (R526) -/
  | pkEcdh (i : Init) (key : BitVec 16)
  /-- PK_DONE (R526) -/
  | pkDone (slot : BitVec 7) (entry : BitVec 9)
  /-- TAMPER_TRIP (R529) -/
  | tamperTrip (src : BitVec 3)
  /-- VAULT_ERASE_DONE (R530) -/
  | vaultEraseDone
  /-- FLASH_PROGRAM (R549) -/
  | flashProgram (i : Init) (port : BitVec 6) (key : BitVec 16)
  /-- FLASH_ERASE (R550) -/
  | flashErase (i : Init) (port : BitVec 6) (key : BitVec 16)
  /-- FLASH_PROGRAM_DONE (R549) -/
  | flashProgramDone (bank : BitVec 1) (readBack : BitVec 256)
  /-- FLASH_ERASE_DONE (R550) -/
  | flashEraseDone (bank : BitVec 1) (blank : Bool)
  /-- FLASH_SUSPEND (R551) -/
  | flashSuspend (i : Init) (key : BitVec 16) (bank : BitVec 1)
  /-- FLASH_RESUME (R551) -/
  | flashResume (i : Init) (key : BitVec 16) (bank : BitVec 1)
  /-- FLASH_AUTO_RESUME (R552) -/
  | flashAutoResume (bank : BitVec 1)
  /-- FLC_CFG_WRITE (R544) -/
  | flcCfgWrite (i : Init) (data : Word)
  /-- UPD_HEADER (R562) -/
  | updHeader (i : Init) (key : BitVec 16)
  /-- UPD_LOAD (R566) -/
  | updLoad (i : Init) (key : BitVec 16)
  /-- UPD_FINISH (R566) -/
  | updFinish (i : Init) (key : BitVec 16)
  /-- UPD_ACTIVATE (R567) -/
  | updActivate (i : Init) (key : BitVec 16)
  /-- UPD_ABORT (R566) -/
  | updAbort (i : Init) (key : BitVec 16)
  /-- UPD_CHECK (R571) -/
  | updCheck (i : Init) (key : BitVec 16) (room : BitVec 6)
  /-- FLOOR_CLR (R564) -/
  | floorClr (i : Init) (key : BitVec 16) (room : BitVec 6)
  /-- RECOVER (R573) -/
  | recover (i : Init) (key : BitVec 16)
  /-- UPD_HEADER_CHECKED (R562) -/
  | updHeaderChecked
  /-- UPD_WRITE_DONE (R567) -/
  | updWriteDone (ok : Bool)
  /-- HOUSE_RESTART (R569) -/
  | houseRestart
  /-- HOUSE_REWRITE_DONE (R569) -/
  | houseRewriteDone (ok : Bool)
  /-- RECOVERY_INFO (R576) -/
  | recoveryInfo (src : RecSource)
  /-- RECOVERY_HEADER (R576) -/
  | recoveryHeader (src : RecSource) (header : List (BitVec 8))
  /-- RECOVERY_DATA (R576) -/
  | recoveryData (src : RecSource) (offset : Word) (octets : List (BitVec 8))
  /-- RECOVERY_COMMIT (R576) -/
  | recoveryCommit (src : RecSource) (ok : Bool)
  /-- RECOVERY_ABORT (R576) -/
  | recoveryAbort (src : RecSource)
  /-- RECOVERY_RESTART (R576) -/
  | recoveryRestart (src : RecSource)
  /-- RECOVERY_SESSION_TIMEOUT (R576) -/
  | recoverySessionTimeout
  /-- RECOVERY_AUTO_RESTART (R576) -/
  | recoveryAutoRestart
  /-- PWR_MODE_WRITE (R582) -/
  | pwrModeWrite (i : Init) (data : Word)
  /-- ENTRY_WFI (R582) -/
  | entryWfi
  /-- PARTICIPANT_ANSWER (R583) -/
  | participantAnswer (participant : Fin 12)
  /-- PWR_LCACK_WRITE (R583) -/
  | pwrLcackWrite (i : Init) (data : Word)
  /-- HANDSHAKE_TIMEOUT (R583) -/
  | handshakeTimeout
  /-- MODE_REACHED (R586) -/
  | modeReached (nt : Word64) (air : Word64)
  /-- WAKE (R595) -/
  | wake (src : BitVec 3) (event : BitVec 10)
  /-- MODE_EXIT (R587) -/
  | modeExit (lfCycles : Nat)
  /-- HALL_START_RETRY (R589) -/
  | hallStartRetry (voutMode : Option (BitVec 8))
  /-- PWR_GATE_WRITE (R580) -/
  | pwrGateWrite (i : Init) (data : Word)
  /-- VCORE_ACK (R591) -/
  | vcoreAck
  /-- VCORE_FAIL (R592) -/
  | vcoreFail (why : RegFail)
  /-- VCORE_DOWN_HOLD (R593) -/
  | vcoreDownHold
  /-- PMB_ALERT (R594) -/
  | pmbAlert (status : BitVec 16) (vout : BitVec 8)
  /-- SUP_ZERO_CROSSING (R605) -/
  | supZeroCrossing (chan : BitVec 2) (nt : Word64) (freq : BitVec 24)
  /-- SUP_RMS_REFRESH (R608) -/
  | supRmsRefresh (chan : BitVec 2) (rms : BitVec 24) (nt : Word64) (sample : Nat) (above : Bool) (dist : Bool) (lost : Bool)
  /-- SUP_FAST_OUTAGE (R609) -/
  | supFastOutage (chan : BitVec 2) (nt : Word64) (flag : Bool)
  /-- SUP_DISTURB_END (R604) -/
  | supDisturbEnd (chan : BitVec 2)
  /-- SUP_OVERRUN (R603) -/
  | supOverrun
  /-- SUP_RECORD_POP (R624) -/
  | supRecordPop (i : Init)
  /-- LG_ATTEMPT (R617) -/
  | lgAttempt (nt : Word64) (tick : Word64) (vhold : BitVec 11) (temp : BitVec 16) (vpa : BitVec 12)
  /-- LG_CCA (R617) -/
  | lgCca (level : BitVec 16)
  /-- LG_CUT (R618) -/
  | lgCut
  /-- LG_FRAME_END (R618) -/
  | lgFrameEnd (tick : Word64) (radiated : Word64) (temp : BitVec 16)
  /-- LG_ACK_WINDOW (R619) -/
  | lgAckWindow (level : BitVec 16)
  /-- HOST_RESYNC (R629) -/
  | hostResync (octets : List (BitVec 8))
  /-- HOST_MSG (R629) -/
  | hostMsg (octets : List (BitVec 8))
  /-- HOST_PING (R629) -/
  | hostPing (octets : List (BitVec 8))
  /-- READ_FRAME (R627) -/
  | readFrame
  /-- REREAD (R627) -/
  | reread
  /-- READ_STATUS (R630) -/
  | readStatus
  /-- HOST_SESSION_EXPIRE (R631) -/
  | hostSessionExpire
  /-- HOST_IN_HDR_READ (R633) -/
  | hostInHdrRead (i : Init)
  /-- HOST_IN_DATA_READ (R633) -/
  | hostInDataRead (i : Init)
  /-- HOST_OUT_DATA_WRITE (R634) -/
  | hostOutDataWrite (i : Init) (data : Word)
  /-- HOST_OUT_COMMIT (R634) -/
  | hostOutCommit (i : Init) (data : Word)
  /-- HOST_OUT_DISCARD (R634) -/
  | hostOutDiscard (i : Init) (data : Word)
  /-- UART_CHAR_RECEIVED (R636) -/
  | uartCharReceived (u : BitVec 1) (char : BitVec 8) (par : Bool) (frm : Bool) (brk : Bool)
  /-- UART_CHAR_SENT (R635) -/
  | uartCharSent (u : BitVec 1)
  /-- UART_DATA_WRITE (R636) -/
  | uartDataWrite (i : Init) (u : BitVec 1) (data : Word)
  /-- UART_DATA_READ (R635) -/
  | uartDataRead (i : Init) (u : BitVec 1)
  /-- UART_OWN_WRITE (R637) -/
  | uartOwnWrite (i : Init) (data : Word)
  /-- I2C_START (R639) -/
  | i2cStart (u : BitVec 1)
  /-- I2C_WRITE (R639) -/
  | i2cWrite (u : BitVec 1)
  /-- I2C_READ (R639) -/
  | i2cRead (u : BitVec 1) (data : BitVec 8)
  /-- I2C_STOP (R639) -/
  | i2cStop (u : BitVec 1)
  /-- I2C_NACK (R640) -/
  | i2cNack (u : BitVec 1)
  /-- I2C_ARB_LOST (R640) -/
  | i2cArbLost (u : BitVec 1)
  /-- I2C_SCL_TIMEOUT (R640) -/
  | i2cSclTimeout (u : BitVec 1)
  /-- I2C_RX_READ (R651) -/
  | i2cRxRead (i : Init) (u : BitVec 1)
  /-- I2C_OWN_WRITE (R640) -/
  | i2cOwnWrite (i : Init) (data : Word)
  /-- GPIO_OWN_WRITE (R642) -/
  | gpioOwnWrite (i : Init) (j : BitVec 3) (data : Word)
  /-- GPIO_SET (R643) -/
  | gpioSet (i : Init) (bank : BitVec 2) (data : Word)
  /-- GPIO_CLR (R643) -/
  | gpioClr (i : Init) (bank : BitVec 2) (data : Word)
  /-- GPIO_EDGE (R643) -/
  | gpioEdge (pin : BitVec 6) (level : Bool)
  /-- GPIO_HOLD_RELEASE (R644) -/
  | gpioHoldRelease (i : Init) (data : Word)
  /-- DBGCHAL_CAPTURE (R647) -/
  | dbgchalCapture
  /-- DBGCHAL_UPDATE (R648) -/
  | dbgchalUpdate (scope : Word) (r : BitVec 256) (sig : BitVec 256)
  /-- DBG_CHECK_DONE (R648) -/
  | dbgCheckDone
  /-- DBG_DENY_HOLDOFF_END (R648) -/
  | dbgDenyHoldoffEnd
  /-- DBG_LOCK (R648) -/
  | dbgLock (i : Init) (key : BitVec 16)
  /-- DMI_ACCESS (R646) -/
  | dmiAccess (op : BitVec 2) (addr : BitVec 7) (data : Word)
  /-- VBAT_POWER_ON (R657) -/
  | vbatPowerOn (voutMode : Option (BitVec 8))
  /-- BROWNOUT (R654) -/
  | brownout (voutMode : Option (BitVec 8))
  /-- SYS_RST_PIN (R654) -/
  | sysRstPin (low : Bool)
  /-- RST_CMD_HALL (R654) -/
  | rstCmdHall (i : Init) (key : BitVec 16)
  /-- LF_FIRST_EDGE (R658) -/
  | lfFirstEdge
  /-- LF_START_TIMEOUT (R658) -/
  | lfStartTimeout
  /-- HALL_RELEASE (R660) -/
  | hallRelease (nt : Word64) (air : Word64) (lfCycles : Nat)
  /-- ROM_START (R662) -/
  | romStart
  /-- PORTER_START (R663) -/
  | porterStart
  /-- CK_REF_RUNNING (R395) -/
  | ckRefRunning
  /-- CK_LF_RESUME (R423) -/
  | ckLfResume
  /-- MODE_SWITCH_TIMEOUT (R267) -/
  | modeSwitchTimeout (lane : BitVec 8)
  /-- SUP_OVER_RANGE (R604) -/
  | supOverRange (chan : BitVec 2) (negative : Bool)
  /-- SHELF_CLEARING_DONE (R531) -/
  | shelfClearingDone
  /-- MARK_PROGRAMMED (R524) -/
  | markProgrammed (slot : BitVec 7) (ok : Bool)
  /-- SHELF_COMPACTION_DONE (R525) -/
  | shelfCompactionDone
  /-- MINIMUM_RUN_END (R551) -/
  | minimumRunEnd (bank : BitVec 1)
  /-- JTAG_IR_UPDATE (R645) -/
  | jtagIrUpdate (code : BitVec 5) (tapReset : Bool)
  deriving DecidableEq, Repr

end Sys2Proof
end

