-- ==== Sys2Proof/Decode.lean ====
section
/-!
DEFINITION. The reading of a command from a word. The command table gives no row any bits: the commands are named, not
encoded, so no word spells one.
-/

namespace Sys2Proof

/-- The command that the `nbits` bits of `w` spell: none, since the table gives no row bits. -/
def decodeTableWord (_nbits _w : Nat) : Option Instr := none

end Sys2Proof
end

