-- ==== Sys2Proof/Machine/Bits.lean ====
section
/-!
DEFINITION. Bit fields, sign extension and byte order: the helpers every register and every format uses.
A field value is a number; a two's complement field is read with `signedOf`.
-/

namespace Sys2Proof.Machine

/-- Bits `lo` to `lo + w − 1` of a register, as a number. -/
def bitsOf (x : Word) (lo w : Nat) : Nat := (x.toNat >>> lo) % 2 ^ w

/-- The mask of a field of `w` bits at `lo`. -/
def fieldMask (lo w : Nat) : Word := BitVec.ofNat 32 ((2 ^ w - 1) <<< lo)

/-- The register with the field of `w` bits at `lo` replaced by `v` (its low `w` bits). -/
def bitsPut (x : Word) (lo w v : Nat) : Word :=
  (x &&& ~~~ fieldMask lo w) ||| BitVec.ofNat 32 ((v % 2 ^ w) <<< lo)

/-- Bit `i` of a register. -/
def bitOf (x : Word) (i : Nat) : Bool := x.getLsbD i

/-- The number of a two's complement field of `w` bits. -/
def signedOf (w v : Nat) : Int := if v < 2 ^ (w - 1) then (v : Int) else (v : Int) - (2 ^ w : Nat)

/-- The two's complement field of `w` bits that holds `i`. -/
def fieldOfInt (w : Nat) (i : Int) : Nat := (i % (2 ^ w : Nat)).toNat

/-- Add in a saturating counter whose largest value is `top`. -/
def satAdd (top v k : Nat) : Nat := min top (v + k)

/-- `n` octets of a number, the least significant first (little-endian). -/
def leBytes : Nat → Nat → List Byte
  | 0, _ => []
  | n + 1, v => BitVec.ofNat 8 (v % 256) :: leBytes n (v / 256)

/-- The number whose octets, the least significant first, are given (little-endian). -/
def ofLeBytes : List Byte → Nat
  | [] => 0
  | b :: r => b.toNat + 256 * ofLeBytes r

/-- `n` octets of a number, the most significant first (big-endian). -/
def beBytes (n v : Nat) : List Byte := (leBytes n v).reverse

/-- The number whose octets, the most significant first, are given (big-endian). -/
def ofBeBytes (l : List Byte) : Nat := ofLeBytes l.reverse

/-- A truth as a field value. -/
def ofBool (b : Bool) : Nat := if b then 1 else 0

/-- Rounded division of integers, halves away from zero. -/
def roundDiv (a : Int) (b : Nat) : Int :=
  if a ≥ 0 then (2 * a + b) / (2 * b) else -((2 * (-a) + b) / (2 * b))

/-- Limit an integer to a range. -/
def clampInt (lo hi x : Int) : Int := max lo (min hi x)

end Sys2Proof.Machine
end

