-- ==== Sys2Proof/Machine/Crc.lean ====
section
/-!
DEFINITION. The cyclic redundancy checks the spec names, bit by bit: CRC-32C (R279), and the octet-wide reflected
and direct forms other formats use.
-/

namespace Sys2Proof.Machine

/-- `n` steps of a reflected CRC of polynomial `poly` (already reflected). -/
def crcReflStep (poly : Nat) : Nat → Nat → Nat
  | 0, c => c
  | n + 1, c => crcReflStep poly n (if c % 2 = 1 then (c / 2) ^^^ poly else c / 2)

/-- A reflected CRC over octets from a register value. -/
def crcRefl (poly : Nat) (init : Nat) (l : List Byte) : Nat :=
  l.foldl (fun c b => crcReflStep poly 8 (c ^^^ b.toNat)) init

/-- CRC-32C: polynomial 0x1EDC6F41, initial value and final XOR all ones, reflected (R279). -/
def crc32c (l : List Byte) : Nat := crcRefl 0x82F63B78 0xFFFFFFFF l ^^^ 0xFFFFFFFF

/-- `n` steps of a direct CRC of `w` bits. -/
def crcDirStep (w poly : Nat) : Nat → Nat → Nat
  | 0, c => c
  | n + 1, c =>
    crcDirStep w poly n (if c.testBit (w - 1) then (c * 2 % 2 ^ w) ^^^ poly else c * 2 % 2 ^ w)

/-- A direct CRC of `w` bits (8 or more) over octets from a register value. -/
def crcDir (w poly init : Nat) (l : List Byte) : Nat :=
  l.foldl (fun c b => crcDirStep w poly 8 (c ^^^ (b.toNat * 2 ^ (w - 8)))) init

end Sys2Proof.Machine
end

