-- ==== Sys2Proof/Config.lean ====
section
/-!
DEFINITION. What one unit fixes, and the free values: constants without a body, so that no proof can lean on a
value the spec leaves open. A free value that differs each time is applied to a counter of the state.
-/

namespace Sys2Proof

/-- FE_ID.REV: the silicon stepping (R116). -/
opaque Config.stepping : BitVec 8

/-- UNIT_ID0–3, set at the factory (R534). -/
opaque Config.unitId : Nat → Word

/-- An octet of the ROM, which the spec does not print (R40, R436). -/
opaque Config.romByte : Nat → Byte

/-- The n-th free number: a value that the spec leaves open and that may differ each time. -/
opaque Config.freeNat : Nat → Nat

/-- The n-th free octet. -/
opaque Config.freeByte : Nat → Byte

/-- P0 at trim point `k` of front end 0 or 1, in micro-dBm: the factory trim (R142). -/
opaque Config.paTrim : Nat → Nat → Int

/-- A lane's floor in 0.5 dBm from its PHY code and its bins' unrounded floors in 0.001 dBm: the weights of its
channel filter are not printed (R277). -/
opaque Config.laneFloor : Nat → List Int → Int

/-- The ephemeral private key an ECDH draws from an output block: the drawing is not printed (R526). -/
opaque Config.ephemeral : List Byte → Nat

/-- Octet `k` of the key an ECDH makes, from the peer's key, the own private key, the root, the label and the
measurement: how the shared secret enters R519 is not printed (R526). -/
opaque Config.sharedKey : (peer own : Nat) → (root label meas : List Byte) → (k : Nat) → Byte

/-- The modulation index × 64 that SUN FSK frames are sent with, by PHY code: the spec states none for transmission
(R150, R255). -/
opaque Config.txIndex : Nat → Nat

/-- The SHA-256 of the Quohar Porter key, which the ROM holds and the spec does not print (R563). -/
opaque Config.porterKey : List Byte

end Sys2Proof
end

