-- ==== Sys2Proof/Machine/RegMap.lean ====
section
/-!
DEFINITION. The register map: every register of the spec's register tables with its address, its reset value and
the access code of each bit (R3, R4), and every field with its place. A register array is one row with a stride.
-/

namespace Sys2Proof.Machine

/-- A field of a register: the register's offset from its page or block, the field's lowest bit and its width. -/
structure Fld where
  off : Nat
  lo : Nat
  w : Nat
  deriving DecidableEq, Repr

/-- A register or an array of like registers: the address of element `i` is `base + stride * i`. The masks give
the bits of each access code of R4; every other bit is RO, RL or reserved. -/
structure RegRow where
  name : String
  base : Nat
  stride : Nat
  count : Nat
  /-- the reset value of element `i` -/
  reset : Nat → Nat
  rw : Nat
  w1c : Nat
  w1s : Nat
  rc : Nat
  wo : Nat

/-- The element of the row that stands at the address. -/
def RegRow.index (r : RegRow) (a : Nat) : Option Nat :=
  if a < r.base then none
  else if r.stride = 0 then if a = r.base then some 0 else none
  else if (a - r.base) % r.stride = 0 ∧ (a - r.base) / r.stride < r.count then some ((a - r.base) / r.stride)
  else none

namespace Reg


/-! ### FEA and FEB: front end, calibration, licence and duplex registers (R115, R156, R303) -/

def FE_CTRL.MEAS_EN : Fld := ⟨4, 7, 1⟩
def FE_CTRL.AUTO_TUNE : Fld := ⟨4, 5, 1⟩
def FE_CTRL.EXTPA_EN : Fld := ⟨4, 4, 1⟩
def FE_CTRL.WIDTH : Fld := ⟨4, 2, 2⟩
def FE_CTRL.ARR : Fld := ⟨4, 0, 2⟩
def FE_CMD.CAL : Fld := ⟨8, 3, 1⟩
def FE_CMD.TARGET : Fld := ⟨8, 0, 3⟩
def FE_STAT.ARMED : Fld := ⟨0xC, 16, 1⟩
def FE_STAT.OWNER : Fld := ⟨0xC, 15, 1⟩
def FE_STAT.TR_TX : Fld := ⟨0xC, 14, 1⟩
def FE_STAT.CAL_PEND : Fld := ⟨0xC, 13, 1⟩
def FE_STAT.LOCK : Fld := ⟨0xC, 12, 1⟩
def FE_STAT.XREF_RUN : Fld := ⟨0xC, 11, 1⟩
def FE_STAT.PEND_TARGET : Fld := ⟨0xC, 8, 3⟩
def FE_STAT.PEND : Fld := ⟨0xC, 7, 1⟩
def FE_STAT.TARGET : Fld := ⟨0xC, 4, 3⟩
def FE_STAT.BUSY : Fld := ⟨0xC, 3, 1⟩
def FE_STAT.STATE : Fld := ⟨0xC, 0, 3⟩
def FE_SYN.LOST_CNT : Fld := ⟨0x14, 8, 8⟩
def FE_SYN.LOCK : Fld := ⟨0x14, 6, 1⟩
def FE_SYN.VCO_BAND : Fld := ⟨0x14, 0, 6⟩
def FE_SIDX_LO.SIDX_LO : Fld := ⟨0x18, 0, 32⟩
def FE_SIDX_HI.SIDX_HI : Fld := ⟨0x1C, 0, 16⟩
def FE_RXT0_LO.RXT0_LO : Fld := ⟨0x20, 0, 32⟩
def FE_RXT0_HI.RXT0_HI : Fld := ⟨0x24, 0, 32⟩
def FE_CTLMAP.DUPLEX : Fld := ⟨0x28, 20, 4⟩
def FE_CTLMAP.TX : Fld := ⟨0x28, 16, 4⟩
def FE_CTLMAP.RX : Fld := ⟨0x28, 12, 4⟩
def FE_CTLMAP.SYNTH : Fld := ⟨0x28, 8, 4⟩
def FE_CTLMAP.STANDBY : Fld := ⟨0x28, 4, 4⟩
def FE_CTLMAP.SLEEP : Fld := ⟨0x28, 0, 4⟩
def FE_EXTPA.GAIN : Fld := ⟨0x30, 18, 8⟩
def FE_EXTPA.BIAS_ON : Fld := ⟨0x30, 10, 8⟩
def FE_EXTPA.EN_LEAD : Fld := ⟨0x30, 0, 10⟩
def FE_TUNE.PENDING : Fld := ⟨0x34, 17, 1⟩
def FE_TUNE.C_SH2 : Fld := ⟨0x34, 11, 6⟩
def FE_TUNE.C_SH1 : Fld := ⟨0x34, 5, 6⟩
def FE_TUNE.C_SER : Fld := ⟨0x34, 0, 5⟩
def FE_TUNE_CFG.ALARM_N : Fld := ⟨0x38, 24, 4⟩
def FE_TUNE_CFG.TARGET : Fld := ⟨0x38, 16, 8⟩
def FE_TUNE_CFG.PROT_TH : Fld := ⟨0x38, 8, 8⟩
def FE_TUNE_CFG.ALARM_TH : Fld := ⟨0x38, 0, 8⟩
def FE_MISMATCH.SEQ : Fld := ⟨0x3C, 24, 8⟩
def FE_MISMATCH.FWD_QDBM : Fld := ⟨0x3C, 16, 8⟩
def FE_MISMATCH.VALID : Fld := ⟨0x3C, 14, 1⟩
def FE_MISMATCH.GAMMA_PH : Fld := ⟨0x3C, 8, 6⟩
def FE_MISMATCH.GAMMA_MAG : Fld := ⟨0x3C, 0, 8⟩
def FE_ERR.RECL_REF : Fld := ⟨0x40, 9, 1⟩
def FE_ERR.XREF_FAIL : Fld := ⟨0x40, 8, 1⟩
def FE_ERR.PROT : Fld := ⟨0x40, 7, 1⟩
def FE_ERR.TUNE_ALARM : Fld := ⟨0x40, 6, 1⟩
def FE_ERR.LOCK_FAIL : Fld := ⟨0x40, 5, 1⟩
def FE_ERR.LOCK_LOST : Fld := ⟨0x40, 4, 1⟩
def FE_ERR.OWNER : Fld := ⟨0x40, 3, 1⟩
def FE_ERR.BUSY : Fld := ⟨0x40, 2, 1⟩
def FE_ERR.RANGE : Fld := ⟨0x40, 1, 1⟩
def FE_ERR.CMD : Fld := ⟨0x40, 0, 1⟩
def FE_OWNER.RECLAIM : Fld := ⟨0x44, 8, 1⟩
def FE_OWNER.ORIGIN : Fld := ⟨0x44, 3, 1⟩
def FE_OWNER.SEQ : Fld := ⟨0x44, 1, 2⟩
def FE_OWNER.OWNER : Fld := ⟨0x44, 0, 1⟩
def FE_ID.PART : Fld := ⟨0, 16, 16⟩
def FE_ID.REV : Fld := ⟨0, 8, 8⟩
def FE_ID.UNIT : Fld := ⟨0, 0, 8⟩
def FE_CENTRE.CENTRE_HZ : Fld := ⟨0x10, 0, 32⟩
def FE_PA.LAST_QDBM : Fld := ⟨0x2C, 8, 8⟩
def FE_PA.MAX_QDBM : Fld := ⟨0x2C, 0, 8⟩
def CAL_CFG.TEMP_NOW : Fld := ⟨0x80, 16, 16⟩
def CAL_CFG.TEMP_DELTA : Fld := ⟨0x80, 0, 8⟩
def CAL_STAT.TEMP_AT_CAL : Fld := ⟨0x84, 16, 16⟩
def CAL_STAT.FAIL : Fld := ⟨0x84, 8, 5⟩
def CAL_STAT.DONE : Fld := ⟨0x84, 0, 5⟩
def CAL_IRR.IRR_DB : Fld := ⟨0x88, 16, 8⟩
def CAL_IRR.PH_CORR : Fld := ⟨0x88, 8, 8⟩
def CAL_IRR.AMP_CORR : Fld := ⟨0x88, 0, 8⟩
def CAL_DC.Q_OFS : Fld := ⟨0x8C, 16, 16⟩
def CAL_DC.I_OFS : Fld := ⟨0x8C, 0, 16⟩
def CAL_LOL.LOL_DBC : Fld := ⟨0x90, 16, 8⟩
def CAL_LOL.Q_TRIM : Fld := ⟨0x90, 8, 8⟩
def CAL_LOL.I_TRIM : Fld := ⟨0x90, 0, 8⟩
def CAL_BW.BW_ERR : Fld := ⟨0x94, 8, 8⟩
def CAL_BW.RC_CODE : Fld := ⟨0x94, 0, 8⟩
def PA_SENSE.VPA_MV : Fld := ⟨0x98, 16, 12⟩
def PA_SENSE.TEMP : Fld := ⟨0x98, 0, 16⟩
def PA_DRIVE.HEAD : Fld := ⟨0x9C, 9, 1⟩
def PA_DRIVE.LIC : Fld := ⟨0x9C, 8, 1⟩
def PA_DRIVE.DRIVE : Fld := ⟨0x9C, 0, 8⟩
def LIC_STAT.BURN_ERR : Fld := ⟨0xC0, 24, 4⟩
def LIC_STAT.STAGE_OK : Fld := ⟨0xC0, 16, 1⟩
def LIC_STAT.N_ENTRIES : Fld := ⟨0xC0, 8, 8⟩
def LIC_STAT.STATE : Fld := ⟨0xC0, 0, 3⟩
def LIC_CMD.KEY : Fld := ⟨0xC4, 16, 16⟩
def LIC_CMD.CHECK : Fld := ⟨0xC4, 1, 1⟩
def LIC_CMD.BURN : Fld := ⟨0xC4, 0, 1⟩
def FDX_CFG.EN : Fld := ⟨0x100, 8, 1⟩
def FDX_CFG.ISO : Fld := ⟨0x100, 0, 8⟩
def FDX_STAT.GCAP : Fld := ⟨0x104, 8, 5⟩
def FDX_STAT.WIDE : Fld := ⟨0x104, 4, 1⟩
def FDX_STAT.BLANKING : Fld := ⟨0x104, 3, 1⟩
def FDX_STAT.TRAINING : Fld := ⟨0x104, 2, 1⟩
def FDX_STAT.MODE : Fld := ⟨0x104, 0, 2⟩
def FDX_MEAS.SEQ : Fld := ⟨0x108, 24, 8⟩
def FDX_MEAS.VALID : Fld := ⟨0x108, 16, 1⟩
def FDX_MEAS.CANCEL : Fld := ⟨0x108, 8, 8⟩
def FDX_MEAS.ISO_MEAS : Fld := ⟨0x108, 0, 8⟩
def FDX_BLK_FIRST_LO.FIRST_LO : Fld := ⟨0x10C, 0, 32⟩
def FDX_BLK_FIRST_HI.FIRST_HI : Fld := ⟨0x110, 0, 16⟩
def FDX_BLK_LAST_LO.LAST_LO : Fld := ⟨0x114, 0, 32⟩
def FDX_BLK_LAST_HI.LAST_HI : Fld := ⟨0x118, 0, 16⟩
def FDX_ERR.CONV_FAIL : Fld := ⟨0x11C, 2, 1⟩
def FDX_ERR.ISO_LOW : Fld := ⟨0x11C, 1, 1⟩
def FDX_ERR.NO_CANCEL : Fld := ⟨0x11C, 0, 1⟩

/-! ### CHZ (R187, R278) -/

def CHZ_CTRL.OVL_DROP : Fld := ⟨0, 9, 1⟩
def CHZ_CTRL.MODE : Fld := ⟨0, 8, 1⟩
def CHZ_CTRL.MGAIN : Fld := ⟨0, 0, 5⟩
def CHZ_GAIN_CFG.OVL_HOLD : Fld := ⟨4, 24, 8⟩
def CHZ_GAIN_CFG.MAX_UP : Fld := ⟨4, 20, 4⟩
def CHZ_GAIN_CFG.HYST : Fld := ⟨4, 16, 4⟩
def CHZ_GAIN_CFG.TARGET : Fld := ⟨4, 8, 5⟩
def CHZ_GAIN_CFG.START : Fld := ⟨4, 0, 5⟩
def CHZ_GAIN_STAT.MIDFRAME : Fld := ⟨8, 16, 9⟩
def CHZ_GAIN_STAT.CAUSE : Fld := ⟨8, 12, 2⟩
def CHZ_GAIN_STAT.PEND : Fld := ⟨8, 11, 1⟩
def CHZ_GAIN_STAT.PEND_CODE : Fld := ⟨8, 6, 5⟩
def CHZ_GAIN_STAT.GAIN : Fld := ⟨8, 0, 5⟩
def CHZ_GCHG_LO.GCHG_LO : Fld := ⟨0xC, 0, 32⟩
def CHZ_GCHG_HI.GCHG_HI : Fld := ⟨0x10, 0, 16⟩
def CHZ_LEVEL.MEAN_Q : Fld := ⟨0x14, 16, 16⟩
def CHZ_LEVEL.PEAK_Q : Fld := ⟨0x14, 0, 16⟩
def CHZ_OVL_STAT.CLEAN_VALID : Fld := ⟨0x18, 26, 1⟩
def CHZ_OVL_STAT.HOLD : Fld := ⟨0x18, 25, 1⟩
def CHZ_OVL_STAT.ACTIVE : Fld := ⟨0x18, 24, 1⟩
def CHZ_OVL_STAT.DROP_CNT : Fld := ⟨0x18, 16, 8⟩
def CHZ_OVL_STAT.OVL_CNT : Fld := ⟨0x18, 0, 16⟩
def CHZ_OVLS_LO.OVLS_LO : Fld := ⟨0x1C, 0, 32⟩
def CHZ_OVLS_HI.OVLS_HI : Fld := ⟨0x20, 0, 16⟩
def CHZ_OVLC_LO.OVLC_LO : Fld := ⟨0x24, 0, 32⟩
def CHZ_OVLC_HI.OVLC_HI : Fld := ⟨0x28, 0, 16⟩
def CHZ_WIN.FORCED_CNT : Fld := ⟨0x2C, 16, 16⟩
def CHZ_WIN.BUDGET : Fld := ⟨0x2C, 0, 9⟩
def CHZ_LAGC.DECAY : Fld := ⟨0x30, 8, 4⟩
def CHZ_LAGC.TARGET : Fld := ⟨0x30, 0, 8⟩
def CHZ_ERR.RANGE : Fld := ⟨0x34, 0, 1⟩
def LANE_GAIN.FROZEN : Fld := ⟨0x800, 25, 1⟩
def LANE_GAIN.NOW : Fld := ⟨0x800, 16, 9⟩
def LANE_GAIN.MGAIN : Fld := ⟨0x800, 0, 9⟩
def SURVEY.VALID : Fld := ⟨0x1000, 24, 1⟩
def SURVEY.AGE : Fld := ⟨0x1000, 16, 8⟩
def SURVEY.FLOOR_H : Fld := ⟨0x1000, 0, 16⟩

/-! ### LINK and its job ports (R341) -/

def LINK_CTRL.HOUSE_Q : Fld := ⟨0, 8, 8⟩
def LINK_CTRL.LEARN : Fld := ⟨0, 5, 1⟩
def LINK_CTRL.PROMISC : Fld := ⟨0, 4, 1⟩
def LINK_CTRL.ACK_UNKNOWN : Fld := ⟨0, 3, 1⟩
def LINK_CTRL.ACK_EN : Fld := ⟨0, 0, 1⟩
def LINK_ADDR.PAN_ID : Fld := ⟨4, 16, 16⟩
def LINK_ADDR.SHORT : Fld := ⟨4, 0, 16⟩
def LINK_EXT_LO.EXT_LO : Fld := ⟨8, 0, 32⟩
def LINK_EXT_HI.EXT_HI : Fld := ⟨0xC, 0, 32⟩
def LINK_ACK_CFG.TC_EN : Fld := ⟨0x10, 17, 1⟩
def LINK_ACK_CFG.FP_EN : Fld := ⟨0x10, 16, 1⟩
def LINK_ACK_CFG.ACK_PRE : Fld := ⟨0x10, 8, 8⟩
def LINK_ACK_CFG.PWR_QDBM : Fld := ⟨0x10, 0, 8⟩
def LINK_OUI.OUI : Fld := ⟨0x14, 8, 24⟩
def LINK_OUI.SUBTYPE : Fld := ⟨0x14, 0, 8⟩
def LINK_GUARD.WIDENING : Fld := ⟨0x18, 16, 1⟩
def LINK_GUARD.ACK_G : Fld := ⟨0x18, 0, 16⟩
def LINK_PREP.LEAD : Fld := ⟨0x1C, 0, 20⟩
def NBR_CMD.OP : Fld := ⟨0x20, 28, 4⟩
def NBR_CMD.INDEX : Fld := ⟨0x20, 16, 12⟩
def NBR_D0.EXT_LO : Fld := ⟨0x24, 0, 32⟩
def NBR_D1.EXT_HI : Fld := ⟨0x28, 0, 32⟩
def NBR_D2.PAN_ID : Fld := ⟨0x2C, 16, 16⟩
def NBR_D2.SHORT : Fld := ⟨0x2C, 0, 16⟩
def NBR_STAT.RESULT : Fld := ⟨0x30, 29, 3⟩
def NBR_STAT.FULL : Fld := ⟨0x30, 28, 1⟩
def NBR_STAT.FOUND : Fld := ⟨0x30, 16, 12⟩
def NBR_STAT.COUNT : Fld := ⟨0x30, 0, 13⟩
def LINK_CNT1.DEST_DROP : Fld := ⟨0x34, 24, 8⟩
def LINK_CNT1.SEC_DROP : Fld := ⟨0x34, 16, 8⟩
def LINK_CNT1.NOQ : Fld := ⟨0x34, 8, 8⟩
def LINK_CNT1.INTEG : Fld := ⟨0x34, 0, 8⟩
def LINK_CNT2.ACK_SENT : Fld := ⟨0x38, 24, 8⟩
def LINK_CNT2.ACK_MISS : Fld := ⟨0x38, 16, 8⟩
def LINK_CNT2.ACK_STRAY : Fld := ⟨0x38, 8, 8⟩
def LINK_CNT2.UNFILT : Fld := ⟨0x38, 0, 8⟩
def LINK_TXFEC.INTLV : Fld := ⟨0x3C, 1, 1⟩
def LINK_TXFEC.SCHEME : Fld := ⟨0x3C, 0, 1⟩
def LINK_ERR.DUTY_FRESH : Fld := ⟨0x40, 2, 1⟩
def LINK_ERR.INTEG : Fld := ⟨0x40, 1, 1⟩
def LINK_ERR.RANGE : Fld := ⟨0x40, 0, 1⟩
def LINK_NOTE.UNDERRUN : Fld := ⟨0x44, 7, 1⟩
def LINK_NOTE.DUTY_LOW : Fld := ⟨0x44, 6, 1⟩
def LINK_NOTE.HOUSE : Fld := ⟨0x44, 5, 1⟩
def LINK_NOTE.SEC_FAIL : Fld := ⟨0x44, 4, 1⟩
def LINK_NOTE.ACK_MISS : Fld := ⟨0x44, 3, 1⟩
def LINK_NOTE.REF_BLOCK : Fld := ⟨0x44, 2, 1⟩
def LINK_NOTE.LIC : Fld := ⟨0x44, 1, 1⟩
def LINK_NOTE.NBR_FULL : Fld := ⟨0x44, 0, 1⟩
def DUTY_G.RSV : Fld := ⟨0x80, 16, 16⟩
def DUTY_G.USED : Fld := ⟨0x80, 0, 16⟩
def LINK_KEYMAP.V : Fld := ⟨0x400, 7, 1⟩
def LINK_KEYMAP.SLOT : Fld := ⟨0x400, 0, 7⟩
def JOB_W0.DATA : Fld := ⟨0, 0, 32⟩
def JOB_W1.DATA : Fld := ⟨4, 0, 32⟩
def JOB_W2.DATA : Fld := ⟨8, 0, 32⟩
def JOB_W3.DATA : Fld := ⟨0xC, 0, 32⟩
def JOB_W4.DATA : Fld := ⟨0x10, 0, 32⟩
def JOB_W5.DATA : Fld := ⟨0x14, 0, 32⟩
def JOB_W6.DATA : Fld := ⟨0x18, 0, 32⟩
def JOB_W7.DATA : Fld := ⟨0x1C, 0, 32⟩
def JOB_POST.KEY : Fld := ⟨0x20, 16, 16⟩
def JOB_POST.GO : Fld := ⟨0x20, 8, 1⟩
def JOB_POST.CANCEL : Fld := ⟨0x20, 4, 1⟩
def JOB_POST.SLOT : Fld := ⟨0x20, 0, 2⟩
def PORT_CSMA.UNIT : Fld := ⟨0x24, 16, 16⟩
def PORT_CSMA.MAX_NB : Fld := ⟨0x24, 12, 4⟩
def PORT_CSMA.MAX_BE : Fld := ⟨0x24, 8, 4⟩
def PORT_CSMA.MIN_BE : Fld := ⟨0x24, 4, 4⟩
def PORT_ERR.RANGE : Fld := ⟨0x28, 3, 1⟩
def PORT_ERR.LATE : Fld := ⟨0x28, 2, 1⟩
def PORT_ERR.BUSY : Fld := ⟨0x28, 1, 1⟩
def PORT_ERR.KEY : Fld := ⟨0x28, 0, 1⟩
def JOB_RES.TAG : Fld := ⟨0x40, 16, 16⟩
def JOB_RES.WIDE : Fld := ⟨0x40, 15, 1⟩
def JOB_RES.ATTEMPTS : Fld := ⟨0x40, 11, 4⟩
def JOB_RES.STATE : Fld := ⟨0x40, 8, 2⟩
def JOB_RES.CODE : Fld := ⟨0x40, 0, 6⟩
def JOB_TXT_LO.TXT_LO : Fld := ⟨0x44, 0, 32⟩
def JOB_TXT_HI.TXT_HI : Fld := ⟨0x48, 0, 32⟩
def JOB_INFO.ACK_V : Fld := ⟨0x4C, 31, 1⟩
def JOB_INFO.PEND : Fld := ⟨0x4C, 30, 1⟩
def JOB_INFO.TC_V : Fld := ⟨0x4C, 29, 1⟩
def JOB_INFO.TC : Fld := ⟨0x4C, 16, 13⟩
def JOB_INFO.ACK_RSSI : Fld := ⟨0x4C, 0, 16⟩

/-! ### Queue windows (R363) -/

def QUE_WPTR.PTR : Fld := ⟨0x14, 0, 17⟩
def QUE_RPTR.PTR : Fld := ⟨0x18, 0, 17⟩
def QUE_CMD.KEY : Fld := ⟨0x20, 16, 16⟩
def QUE_CMD.FLUSH : Fld := ⟨0x20, 1, 1⟩
def QUE_CMD.DROP : Fld := ⟨0x20, 0, 1⟩
def QUE_CFG.NOTE_EN : Fld := ⟨0x24, 0, 1⟩
def QUE_DROPS.NOCREDIT : Fld := ⟨0x28, 16, 16⟩
def QUE_DROPS.DISCARD : Fld := ⟨0x28, 0, 16⟩
def QUE_ERR.CMD : Fld := ⟨0x2C, 5, 1⟩
def QUE_ERR.NOCREDIT : Fld := ⟨0x2C, 4, 1⟩
def QUE_ERR.FORMAT : Fld := ⟨0x2C, 3, 1⟩
def QUE_ERR.ABANDON : Fld := ⟨0x2C, 2, 1⟩
def QUE_ERR.ORPHAN : Fld := ⟨0x2C, 1, 1⟩
def QUE_ERR.DIR : Fld := ⟨0x2C, 0, 1⟩
def QUE_STAT.DIR : Fld := ⟨0x10, 31, 1⟩
def QUE_STAT.OPEN : Fld := ⟨0x10, 30, 1⟩
def QUE_STAT.LOG2 : Fld := ⟨0x10, 24, 5⟩
def QUE_STAT.PKTS : Fld := ⟨0x10, 0, 16⟩
def QUE_CREDIT.FREE : Fld := ⟨0x1C, 0, 17⟩

/-! ### QUE control (R364) -/

def QC_ECC.UNCORR : Fld := ⟨0, 16, 16⟩
def QC_ECC.CORR : Fld := ⟨0, 0, 16⟩
def QC_ECC_ADDR.WORD : Fld := ⟨4, 0, 18⟩
def QC_FLUSH.KEY : Fld := ⟨8, 16, 16⟩
def QC_FLUSH.QUEUE : Fld := ⟨8, 0, 9⟩
def QC_RING.V : Fld := ⟨0x400, 31, 1⟩
def QC_RING.LOG2 : Fld := ⟨0x400, 24, 5⟩
def QC_RING.BASE : Fld := ⟨0x400, 0, 18⟩

/-! ### TIME and the interval meter (R404) -/

def TIME_CFG.SLEW_TC : Fld := ⟨0, 24, 8⟩
def TIME_CFG.LOOP_K : Fld := ⟨0, 20, 4⟩
def TIME_CFG.FTUNE_EN : Fld := ⟨0, 4, 1⟩
def TIME_CFG.PPS_EDGE : Fld := ⟨0, 2, 1⟩
def TIME_CFG.SRC : Fld := ⟨0, 0, 2⟩
def TIME_LIMITS.FREE_LIMIT : Fld := ⟨4, 16, 16⟩
def TIME_LIMITS.LOCK_TH : Fld := ⟨4, 0, 8⟩
def TIME_SRCCFG.LF_STAB : Fld := ⟨8, 24, 8⟩
def TIME_SRCCFG.PPS_ACC : Fld := ⟨8, 16, 8⟩
def TIME_SRCCFG.MESH_ACC : Fld := ⟨8, 8, 8⟩
def TIME_SRCCFG.MESH_TMO : Fld := ⟨8, 0, 8⟩
def TIME_PPS_DLY.DLY : Fld := ⟨0xC, 0, 16⟩
def TIME_NT_LO.NT_LO : Fld := ⟨0x10, 0, 32⟩
def TIME_NT_HI.NT_HI : Fld := ⟨0x14, 0, 32⟩
def TIME_NTAIR_LO.AIR_LO : Fld := ⟨0x18, 0, 32⟩
def TIME_NTAIR_HI.AIR_HI : Fld := ⟨0x1C, 0, 32⟩
def TIME_AIR_LO.AIR_LO : Fld := ⟨0x20, 0, 32⟩
def TIME_AIR_HI.AIR_HI : Fld := ⟨0x24, 0, 32⟩
def TIME_QUAL.RESUMED : Fld := ⟨0x28, 11, 1⟩
def TIME_QUAL.LF_CAL : Fld := ⟨0x28, 10, 1⟩
def TIME_QUAL.STEP_PEND : Fld := ⟨0x28, 9, 1⟩
def TIME_QUAL.SLEWING : Fld := ⟨0x28, 8, 1⟩
def TIME_QUAL.SRC_V : Fld := ⟨0x28, 6, 2⟩
def TIME_QUAL.STATE : Fld := ⟨0x28, 0, 2⟩
def TIME_ERR.ERR : Fld := ⟨0x2C, 0, 32⟩
def TIME_OFS.OFS : Fld := ⟨0x30, 0, 32⟩
def TIME_FREQ.FREQ : Fld := ⟨0x34, 0, 32⟩
def TIME_MEAS_OFS.OFS : Fld := ⟨0x38, 0, 32⟩
def TIME_MEAS_AT_LO.AT_LO : Fld := ⟨0x3C, 0, 32⟩
def TIME_MEAS_AT_HI.AT_HI : Fld := ⟨0x40, 0, 32⟩
def TIME_SET_LO.SET_LO : Fld := ⟨0x44, 0, 32⟩
def TIME_SET_HI.SET_HI : Fld := ⟨0x48, 0, 32⟩
def TIME_CMD.KEY : Fld := ⟨0x4C, 16, 16⟩
def TIME_CMD.SET : Fld := ⟨0x4C, 1, 1⟩
def TIME_CMD.MEAS : Fld := ⟨0x4C, 0, 1⟩
def REF_STAT.EST : Fld := ⟨0x50, 16, 16⟩
def REF_STAT.BLOCK : Fld := ⟨0x50, 15, 1⟩
def REF_STAT.STATE : Fld := ⟨0x50, 10, 2⟩
def REF_STAT.BASIS : Fld := ⟨0x50, 8, 2⟩
def REF_STAT.UPD : Fld := ⟨0x50, 0, 8⟩
def REF_STAB.LF_OFS : Fld := ⟨0x54, 16, 16⟩
def REF_STAB.STAB : Fld := ⟨0x54, 0, 16⟩
def TIME_PPS.WIDTH : Fld := ⟨0x58, 8, 6⟩
def TIME_PPS.OUT_MIN : Fld := ⟨0x58, 4, 2⟩
def TIME_PPS.IN_EN : Fld := ⟨0x58, 1, 1⟩
def TIME_PPS.OUT_EN : Fld := ⟨0x58, 0, 1⟩
def TIME_CNT.STEPS : Fld := ⟨0x5C, 24, 8⟩
def TIME_CNT.SUPPR : Fld := ⟨0x5C, 16, 8⟩
def TIME_CNT.PPS_BAD : Fld := ⟨0x5C, 0, 16⟩
def TIME_ERRF.PPS_BAD : Fld := ⟨0x60, 3, 1⟩
def TIME_ERRF.MEAS_LATE : Fld := ⟨0x60, 2, 1⟩
def TIME_ERRF.CMD : Fld := ⟨0x60, 1, 1⟩
def TIME_ERRF.RANGE : Fld := ⟨0x60, 0, 1⟩
def TIME_NOTE.NOTES : Fld := ⟨0x64, 0, 7⟩
def IM_CMD.KEY : Fld := ⟨0x84, 16, 16⟩
def IM_CMD.CANCEL : Fld := ⟨0x84, 1, 1⟩
def IM_CMD.ARM : Fld := ⟨0x84, 0, 1⟩
def IM_STAT.NO_STOP : Fld := ⟨0x88, 6, 1⟩
def IM_STAT.NO_START : Fld := ⟨0x88, 5, 1⟩
def IM_STAT.ORDER : Fld := ⟨0x88, 4, 1⟩
def IM_STAT.NEAR : Fld := ⟨0x88, 3, 1⟩
def IM_STAT.DONE : Fld := ⟨0x88, 2, 1⟩
def IM_STAT.ARMED : Fld := ⟨0x88, 0, 1⟩
def IM_RES_LO.RES_LO : Fld := ⟨0x8C, 0, 32⟩
def IM_RES_HI.SIGN : Fld := ⟨0x90, 16, 16⟩
def IM_RES_HI.RES_HI : Fld := ⟨0x90, 0, 16⟩
def IM_T0_LO.T0_LO : Fld := ⟨0x94, 0, 32⟩
def IM_T0_HI.T0_HI : Fld := ⟨0x98, 0, 32⟩
def IM_CFG.WINDOW : Fld := ⟨0x80, 16, 16⟩
def IM_CFG.STOP_EDGE : Fld := ⟨0x80, 15, 1⟩
def IM_CFG.STOP_SRC : Fld := ⟨0x80, 8, 7⟩
def IM_CFG.START_EDGE : Fld := ⟨0x80, 7, 1⟩
def IM_CFG.START_SRC : Fld := ⟨0x80, 0, 7⟩

/-! ### TMR pages (R434) -/

def TMR_CTRL.PRESC : Fld := ⟨0, 16, 16⟩
def TMR_CTRL.CAP_SRC : Fld := ⟨0, 8, 7⟩
def TMR_CTRL.CAP_EDGE : Fld := ⟨0, 6, 2⟩
def TMR_CTRL.CAP_EN : Fld := ⟨0, 5, 1⟩
def TMR_CTRL.ONCE : Fld := ⟨0, 4, 1⟩
def TMR_CTRL.CMP_EN : Fld := ⟨0, 3, 1⟩
def TMR_CTRL.CLK_SEL : Fld := ⟨0, 2, 1⟩
def TMR_CTRL.WRAP_IE : Fld := ⟨0, 1, 1⟩
def TMR_CTRL.EN : Fld := ⟨0, 0, 1⟩
def TMR_STAT.RANGE : Fld := ⟨4, 2, 1⟩
def TMR_STAT.BUSY : Fld := ⟨4, 1, 1⟩
def TMR_STAT.PEND : Fld := ⟨4, 0, 1⟩
def TMR_RELOAD_LO.RELOAD_LO : Fld := ⟨8, 0, 32⟩
def TMR_COUNT_HI.COUNT_HI : Fld := ⟨0x14, 0, 32⟩
def TMR_CMP_LO.CMP_LO : Fld := ⟨0x18, 0, 32⟩
def TMR_CMP_HI.CMP_HI : Fld := ⟨0x1C, 0, 32⟩
def TMR_CAP_HI.CAP_HI : Fld := ⟨0x24, 0, 32⟩
def TMR_CMD.KEY : Fld := ⟨0x28, 16, 16⟩
def TMR_CMD.ZERO : Fld := ⟨0x28, 0, 1⟩
def TMR_NOTE.ERR : Fld := ⟨0x2C, 5, 1⟩
def TMR_NOTE.CMP_RANGE : Fld := ⟨0x2C, 4, 1⟩
def TMR_NOTE.CAP_OVR : Fld := ⟨0x2C, 3, 1⟩
def TMR_NOTE.CAP : Fld := ⟨0x2C, 2, 1⟩
def TMR_NOTE.WRAP : Fld := ⟨0x2C, 1, 1⟩
def TMR_NOTE.MATCH : Fld := ⟨0x2C, 0, 1⟩
def TMR_RELOAD_HI.RELOAD_HI : Fld := ⟨0xC, 0, 32⟩
def TMR_COUNT_LO.COUNT_LO : Fld := ⟨0x10, 0, 32⟩
def TMR_CAP_LO.CAP_LO : Fld := ⟨0x20, 0, 32⟩

/-! ### Calendar (R435) -/

def CAL_SEC_LO.SEC_LO : Fld := ⟨0, 0, 32⟩
def CAL_SEC_HI.SUBSEC : Fld := ⟨4, 16, 16⟩
def CAL_SEC_HI.SEC_HI : Fld := ⟨4, 0, 16⟩
def CAL_TIME.HOUR : Fld := ⟨8, 12, 5⟩
def CAL_TIME.MIN : Fld := ⟨8, 6, 6⟩
def CAL_TIME.SEC : Fld := ⟨8, 0, 6⟩
def CAL_DATE.WDAY : Fld := ⟨0xC, 24, 3⟩
def CAL_DATE.YEAR : Fld := ⟨0xC, 16, 8⟩
def CAL_DATE.MONTH : Fld := ⟨0xC, 8, 4⟩
def CAL_DATE.DAY : Fld := ⟨0xC, 0, 5⟩
def CAL_SET_TIME.HOUR : Fld := ⟨0x10, 12, 5⟩
def CAL_SET_TIME.MIN : Fld := ⟨0x10, 6, 6⟩
def CAL_SET_TIME.SEC : Fld := ⟨0x10, 0, 6⟩
def CAL_SET_DATE.YEAR : Fld := ⟨0x14, 16, 8⟩
def CAL_SET_DATE.MONTH : Fld := ⟨0x14, 8, 4⟩
def CAL_SET_DATE.DAY : Fld := ⟨0x14, 0, 5⟩
def CAL_NTOFS_LO.OFS_LO : Fld := ⟨0x18, 0, 32⟩
def CAL_NTOFS_HI.OFS_HI : Fld := ⟨0x1C, 0, 32⟩
def CAL_CMD.KEY : Fld := ⟨0x20, 16, 16⟩
def CAL_CMD.SYNC : Fld := ⟨0x20, 1, 1⟩
def CAL_CMD.SET : Fld := ⟨0x20, 0, 1⟩
def CAL_STAT.SYNC_Q : Fld := ⟨0x24, 5, 2⟩
def CAL_STAT.LF_RUN : Fld := ⟨0x24, 3, 1⟩
def CAL_STAT.SYNCED : Fld := ⟨0x24, 2, 1⟩
def CAL_STAT.END : Fld := ⟨0x24, 1, 1⟩
def CAL_STAT.OSF : Fld := ⟨0x24, 0, 1⟩
def CAL_CFG.TICK_EN : Fld := ⟨0x28, 16, 1⟩
def CAL_CFG.RATE : Fld := ⟨0x28, 8, 8⟩
def CAL_CFG.CLOAD : Fld := ⟨0x28, 0, 5⟩
def PWR_ON.SHUT_OFF : Fld := ⟨0x40, 5, 1⟩
def PWR_ON.WAKE_ON : Fld := ⟨0x40, 4, 1⟩
def PWR_ON.POL : Fld := ⟨0x40, 3, 1⟩
def PWR_ON.CLR : Fld := ⟨0x40, 2, 1⟩
def PWR_ON.SET : Fld := ⟨0x40, 1, 1⟩
def PWR_ON.ON : Fld := ⟨0x40, 0, 1⟩
def CAL_ALM_T.DAY : Fld := ⟨0x2C, 24, 5⟩
def CAL_ALM_T.HOUR : Fld := ⟨0x2C, 16, 5⟩
def CAL_ALM_T.MIN : Fld := ⟨0x2C, 8, 6⟩
def CAL_ALM_T.SEC : Fld := ⟨0x2C, 0, 6⟩
def CAL_ALM_C.PON : Fld := ⟨0x30, 26, 1⟩
def CAL_ALM_C.WAKE : Fld := ⟨0x30, 25, 1⟩
def CAL_ALM_C.EN : Fld := ⟨0x30, 24, 1⟩
def CAL_ALM_C.MASK : Fld := ⟨0x30, 16, 6⟩
def CAL_ALM_C.MONTH : Fld := ⟨0x30, 8, 4⟩
def CAL_ALM_C.WDAY : Fld := ⟨0x30, 0, 3⟩
def CAL_NOTE.NOTIME : Fld := ⟨0x3C, 10, 1⟩
def CAL_NOTE.CMD : Fld := ⟨0x3C, 9, 1⟩
def CAL_NOTE.RANGE : Fld := ⟨0x3C, 8, 1⟩
def CAL_NOTE.TICK : Fld := ⟨0x3C, 4, 1⟩
def CAL_NOTE.OSF : Fld := ⟨0x3C, 3, 1⟩
def CAL_NOTE.END : Fld := ⟨0x3C, 2, 1⟩
def CAL_NOTE.ALM1 : Fld := ⟨0x3C, 1, 1⟩
def CAL_NOTE.ALM0 : Fld := ⟨0x3C, 0, 1⟩

/-! ### Knocker (R379) -/

def KNK_CTRL.LOCK : Fld := ⟨0, 3, 1⟩
def KNK_CTRL.BCAST_EN : Fld := ⟨0, 2, 1⟩
def KNK_CTRL.WAKE_EN : Fld := ⟨0, 1, 1⟩
def KNK_CTRL.EN : Fld := ⟨0, 0, 1⟩
def KNK_FREQ.FREQ_KHZ : Fld := ⟨4, 0, 20⟩
def KNK_WORD.WORD : Fld := ⟨8, 0, 32⟩
def KNK_ADDR.GROUPS : Fld := ⟨0xC, 16, 16⟩
def KNK_ADDR.ADDR : Fld := ⟨0xC, 0, 16⟩
def KNK_CFG.HOLDOFF : Fld := ⟨0x10, 0, 8⟩
def KNK_STAT.TUNE : Fld := ⟨0x14, 8, 7⟩
def KNK_STAT.STATE : Fld := ⟨0x14, 0, 2⟩
def KNK_LAST.SEQ : Fld := ⟨0x18, 24, 8⟩
def KNK_LAST.LEVEL : Fld := ⟨0x18, 16, 8⟩
def KNK_LAST.TARGET : Fld := ⟨0x18, 0, 16⟩
def KNK_CNT0.WORD : Fld := ⟨0x1C, 16, 16⟩
def KNK_CNT0.PRE : Fld := ⟨0x1C, 0, 16⟩
def KNK_CNT1.NOT_ME : Fld := ⟨0x20, 16, 16⟩
def KNK_CNT1.CRC_BAD : Fld := ⟨0x20, 0, 16⟩
def KNK_CNT2.BLANKED : Fld := ⟨0x24, 16, 16⟩
def KNK_CNT2.MATCH : Fld := ⟨0x24, 0, 16⟩
def KNK_ERR.LOCKED : Fld := ⟨0x28, 2, 1⟩
def KNK_ERR.BUSY : Fld := ⟨0x28, 1, 1⟩
def KNK_ERR.RANGE : Fld := ⟨0x28, 0, 1⟩

/-! ### LEDG and the watchdog pages (R460) -/

def LEDG_CMD.KEY : Fld := ⟨0, 16, 16⟩
def LEDG_CMD.OP : Fld := ⟨0, 12, 4⟩
def LEDG_CMD.CORE : Fld := ⟨0, 10, 2⟩
def LEDG_CMD.ROOM : Fld := ⟨0, 0, 6⟩
def LEDG_STAT.BUSY : Fld := ⟨4, 8, 1⟩
def LEDG_STAT.LAST_OP : Fld := ⟨4, 4, 4⟩
def LEDG_STAT.RESULT : Fld := ⟨4, 0, 4⟩
def LEDG_ERR.PARITY : Fld := ⟨8, 3, 1⟩
def LEDG_ERR.CTX : Fld := ⟨8, 2, 1⟩
def LEDG_ERR.CMD : Fld := ⟨8, 1, 1⟩
def LEDG_ERR.RANGE : Fld := ⟨8, 0, 1⟩
def LEDG_REFUSE_ST.CAUSE : Fld := ⟨0xC, 24, 4⟩
def LEDG_REFUSE_ST.KIND : Fld := ⟨0xC, 22, 2⟩
def LEDG_REFUSE_ST.ROOM : Fld := ⟨0xC, 16, 6⟩
def LEDG_REFUSE_ST.INIT : Fld := ⟨0xC, 1, 3⟩
def LEDG_REFUSE_ST.V : Fld := ⟨0xC, 0, 1⟩
def LEDG_REFUSE_ADDR.ADDR : Fld := ⟨0x10, 0, 32⟩
def LEDG_REFUSE_CNT.CNT : Fld := ⟨0x14, 0, 32⟩
def LEDG_CORE.PARKED : Fld := ⟨0x30, 8, 1⟩
def LEDG_CORE.SWITCHING : Fld := ⟨0x30, 7, 1⟩
def LEDG_CORE.ROOM : Fld := ⟨0x30, 0, 6⟩
def LEDG_WAYS_LO.WAYS : Fld := ⟨0x40, 0, 32⟩
def LEDG_WAYS_HI.WAYS : Fld := ⟨0x44, 0, 32⟩
def LEDG_STAGE.DATA : Fld := ⟨0x400, 0, 32⟩
def LEDG_CTX.CTX : Fld := ⟨0x800, 10, 22⟩
def LEDG_ENTRY.ENTRY : Fld := ⟨0x804, 1, 31⟩
def LEDG_RSTAT.ENTRY_V : Fld := ⟨0xC00, 8, 1⟩
def LEDG_RSTAT.SUSP : Fld := ⟨0xC00, 7, 1⟩
def LEDG_RSTAT.CTX_VALID : Fld := ⟨0xC00, 6, 1⟩
def LEDG_RSTAT.RES : Fld := ⟨0xC00, 5, 1⟩
def LEDG_RSTAT.CORE : Fld := ⟨0xC00, 2, 3⟩
def LEDG_RSTAT.RAN : Fld := ⟨0xC00, 1, 1⟩
def WDOG_KICK.KEY : Fld := ⟨0, 16, 16⟩
def WDOG_CFG.ACTION : Fld := ⟨4, 18, 1⟩
def WDOG_CFG.MODE : Fld := ⟨4, 16, 2⟩
def WDOG_CFG.TIMEOUT : Fld := ⟨4, 0, 16⟩
def WDOG_STAT.EXPIRED : Fld := ⟨8, 16, 1⟩
def WDOG_STAT.COUNT : Fld := ⟨8, 0, 16⟩

/-! ### EVT interfaces and routing mirror (R461) -/

def EVT_CLAIM.V : Fld := ⟨0, 31, 1⟩
def EVT_CLAIM.PRIO : Fld := ⟨0, 16, 4⟩
def EVT_CLAIM.EVENT : Fld := ⟨0, 0, 10⟩
def EVT_DONE.EVENT : Fld := ⟨4, 0, 10⟩
def EVT_THRESH.THRESH : Fld := ⟨8, 0, 4⟩
def EVT_LEVEL.DEPTH : Fld := ⟨0xC, 4, 5⟩
def EVT_LEVEL.LEVEL : Fld := ⟨0xC, 0, 4⟩
def EVT_ERR.DONE : Fld := ⟨0x10, 0, 1⟩
def EVT_PEND.PEND : Fld := ⟨0x80, 0, 32⟩
def EVT_ROUTE.PRIO : Fld := ⟨0x1000, 16, 8⟩
def EVT_ROUTE.ROOM : Fld := ⟨0x1000, 8, 8⟩
def EVT_ROUTE.CORES : Fld := ⟨0x1000, 0, 8⟩

/-! ### PH block and channel pages (R475) -/

def PH_FORCE.KEY : Fld := ⟨0, 16, 16⟩
def PH_FORCE.CHAN : Fld := ⟨0, 0, 6⟩
def PH_HELD_LO.HELD : Fld := ⟨4, 0, 32⟩
def PH_HELD_HI.HELD : Fld := ⟨8, 0, 32⟩
def PH_LOCK.RELEASE : Fld := ⟨0, 31, 1⟩
def PH_LOCK.OWNER : Fld := ⟨0, 0, 7⟩
def PH_RET.V : Fld := ⟨4, 6, 1⟩
def PH_RET.CHAN : Fld := ⟨4, 0, 6⟩
def PH_SEND.DATA : Fld := ⟨8, 0, 32⟩
def PH_SEND_END.DATA : Fld := ⟨0xC, 0, 32⟩
def PH_RECV.DATA : Fld := ⟨0x10, 0, 32⟩
def PH_FROM.V : Fld := ⟨0x14, 16, 1⟩
def PH_FROM.GEN : Fld := ⟨0x14, 8, 8⟩
def PH_FROM.END : Fld := ⟨0x14, 7, 1⟩
def PH_FROM.ROOM : Fld := ⟨0x14, 0, 6⟩
def PH_STAT.GEN : Fld := ⟨0x18, 24, 8⟩
def PH_STAT.ROLE : Fld := ⟨0x18, 22, 2⟩
def PH_STAT.HOME : Fld := ⟨0x18, 16, 6⟩
def PH_STAT.HOLDER : Fld := ⟨0x18, 8, 7⟩
def PH_STAT.OUT_CNT : Fld := ⟨0x18, 4, 4⟩
def PH_STAT.IN_CNT : Fld := ⟨0x18, 0, 4⟩
def PH_ERR.RANGE : Fld := ⟨0x1C, 5, 1⟩
def PH_ERR.FLUSHED : Fld := ⟨0x1C, 4, 1⟩
def PH_ERR.STALE : Fld := ⟨0x1C, 2, 1⟩
def PH_ERR.NOT_HOLDER : Fld := ⟨0x1C, 1, 1⟩
def PH_ERR.FULL : Fld := ⟨0x1C, 0, 1⟩

/-! ### Cipher pages and the common context (R502) -/

def CIP_CTRL.TLEN : Fld := ⟨0, 16, 6⟩
def CIP_CTRL.SLOT : Fld := ⟨0, 8, 7⟩
def CIP_CTRL.KSRC : Fld := ⟨0, 7, 1⟩
def CIP_CTRL.KLEN : Fld := ⟨0, 5, 2⟩
def CIP_CTRL.DIR : Fld := ⟨0, 4, 1⟩
def CIP_CTRL.MODE : Fld := ⟨0, 0, 4⟩
def CIP_CMD.KEY : Fld := ⟨4, 16, 16⟩
def CIP_CMD.CLEAR : Fld := ⟨4, 4, 1⟩
def CIP_CMD.ABORT : Fld := ⟨4, 3, 1⟩
def CIP_CMD.LAST : Fld := ⟨4, 2, 1⟩
def CIP_CMD.FIRST : Fld := ⟨4, 1, 1⟩
def CIP_CMD.START : Fld := ⟨4, 0, 1⟩
def CIP_STAT.RESULT : Fld := ⟨8, 8, 4⟩
def CIP_STAT.CHAIN : Fld := ⟨8, 4, 1⟩
def CIP_STAT.STATE : Fld := ⟨8, 0, 2⟩
def CIP_LEN.MLEN : Fld := ⟨0xC, 16, 12⟩
def CIP_LEN.ALEN : Fld := ⟨0xC, 0, 12⟩
def CIP_FCPOS.EN : Fld := ⟨0x10, 31, 1⟩
def CIP_FCPOS.OFS : Fld := ⟨0x10, 0, 11⟩
def CIP_FC.FC : Fld := ⟨0x14, 0, 32⟩
def CIP_IVC_LO.IVC_LO : Fld := ⟨0x18, 0, 32⟩
def CIP_IVC_HI.IVC_HI : Fld := ⟨0x1C, 0, 32⟩
def CIP_NOTE.KEY_SPENT : Fld := ⟨0x80, 3, 1⟩
def CIP_NOTE.LOCK_EXPIRED : Fld := ⟨0x80, 2, 1⟩
def CIP_NOTE.COMMON : Fld := ⟨0x80, 1, 1⟩
def CIP_NOTE.DONE : Fld := ⟨0x80, 0, 1⟩
def CIP_ERR.CHAIN : Fld := ⟨0x84, 2, 1⟩
def CIP_ERR.BUSY : Fld := ⟨0x84, 1, 1⟩
def CIP_ERR.CMD : Fld := ⟨0x84, 0, 1⟩
def CIP_LOCK.RELEASE : Fld := ⟨0xFC, 31, 1⟩
def CIP_LOCK.OWNER : Fld := ⟨0xFC, 0, 7⟩
def CIP_NONCE0.NONCE : Fld := ⟨0x20, 0, 32⟩
def CIP_NONCE1.NONCE : Fld := ⟨0x24, 0, 32⟩
def CIP_NONCE2.NONCE : Fld := ⟨0x28, 0, 32⟩
def CIP_NONCE3.NONCE : Fld := ⟨0x2C, 0, 32⟩
def CIP_KEY0.KEY : Fld := ⟨0x40, 0, 32⟩
def CIP_KEY1.KEY : Fld := ⟨0x44, 0, 32⟩
def CIP_KEY2.KEY : Fld := ⟨0x48, 0, 32⟩
def CIP_KEY3.KEY : Fld := ⟨0x4C, 0, 32⟩
def CIP_KEY4.KEY : Fld := ⟨0x50, 0, 32⟩
def CIP_KEY5.KEY : Fld := ⟨0x54, 0, 32⟩
def CIP_KEY6.KEY : Fld := ⟨0x58, 0, 32⟩
def CIP_KEY7.KEY : Fld := ⟨0x5C, 0, 32⟩
def CIP_TAG0.TAG : Fld := ⟨0x60, 0, 32⟩
def CIP_TAG1.TAG : Fld := ⟨0x64, 0, 32⟩
def CIP_TAG2.TAG : Fld := ⟨0x68, 0, 32⟩
def CIP_TAG3.TAG : Fld := ⟨0x6C, 0, 32⟩
def CIP_TAG4.TAG : Fld := ⟨0x70, 0, 32⟩
def CIP_TAG5.TAG : Fld := ⟨0x74, 0, 32⟩
def CIP_TAG6.TAG : Fld := ⟨0x78, 0, 32⟩
def CIP_TAG7.TAG : Fld := ⟨0x7C, 0, 32⟩

/-! ### CIP control (R508) -/

def CIP_CFG.LOCK_MAX : Fld := ⟨0, 0, 16⟩
def CIP_CSTAT.EXP_CNT : Fld := ⟨4, 24, 8⟩
def CIP_CSTAT.LAST_EXP : Fld := ⟨4, 16, 7⟩
def CIP_CSTAT.HOLDER : Fld := ⟨4, 0, 7⟩
def CIP_CFORCE.KEY : Fld := ⟨8, 16, 16⟩
def CIP_CFORCE.RELEASE : Fld := ⟨8, 0, 1⟩
def CIP_BUSY_LO.PAGES : Fld := ⟨0xC, 0, 32⟩
def CIP_BUSY_HI.PAGES : Fld := ⟨0x10, 0, 32⟩
def CIP_BUSY_X.LINK : Fld := ⟨0x14, 1, 1⟩
def CIP_BUSY_X.COMMON : Fld := ⟨0x14, 0, 1⟩

/-! ### KEY, PK and the key ports (R534) -/

def KEY_LIFE.ROOT_GEN : Fld := ⟨0, 16, 16⟩
def KEY_LIFE.CMD_ERR : Fld := ⟨0, 8, 4⟩
def KEY_LIFE.OWNER_N : Fld := ⟨0, 4, 4⟩
def KEY_LIFE.ROOT_V : Fld := ⟨0, 2, 1⟩
def KEY_LIFE.STATE : Fld := ⟨0, 0, 2⟩
def KEY_STAT.CLEARING : Fld := ⟨4, 25, 1⟩
def KEY_STAT.COMPACT : Fld := ⟨4, 24, 1⟩
def KEY_STAT.ENTRIES : Fld := ⟨4, 8, 10⟩
def KEY_STAT.LIVE : Fld := ⟨4, 0, 8⟩
def KEY_ERR.SHELF_BAD : Fld := ⟨8, 2, 1⟩
def KEY_ERR.MARK_FAIL : Fld := ⟨8, 1, 1⟩
def KEY_ERR.RANGE : Fld := ⟨8, 0, 1⟩
def KEY_LIFE_CMD.KEY : Fld := ⟨0xC, 16, 16⟩
def KEY_LIFE_CMD.OP : Fld := ⟨0xC, 0, 2⟩
def PK_CMD.KEY : Fld := ⟨0x1000, 16, 16⟩
def PK_CMD.OP : Fld := ⟨0x1000, 0, 2⟩
def PK_STAT.DONE : Fld := ⟨0x1004, 8, 1⟩
def PK_STAT.RESULT : Fld := ⟨0x1004, 4, 4⟩
def PK_STAT.BUSY : Fld := ⟨0x1004, 0, 1⟩
def UNIT_ID.ID : Fld := ⟨0x10, 0, 32⟩
def OWNER_PUB.PUB : Fld := ⟨0x100, 0, 32⟩
def OWN_STAGE.STAGE : Fld := ⟨0x200, 0, 32⟩
def KEY_SLOT.V : Fld := ⟨0x400, 31, 1⟩
def KEY_SLOT.SPENT : Fld := ⟨0x400, 30, 1⟩
def KEY_SLOT.KLEN : Fld := ⟨0x400, 28, 2⟩
def KEY_SLOT.CLASS : Fld := ⟨0x400, 24, 1⟩
def KEY_SLOT.OWNER : Fld := ⟨0x400, 16, 6⟩
def KEY_SLOT.ENTRY : Fld := ⟨0x400, 0, 9⟩
def PK_BUF.DATA : Fld := ⟨0x1100, 0, 32⟩
def KP_CMD.KEY : Fld := ⟨0, 16, 16⟩
def KP_CMD.OP : Fld := ⟨0, 12, 4⟩
def KP_CMD.CLASS : Fld := ⟨0, 8, 2⟩
def KP_CMD.SEL : Fld := ⟨0, 6, 2⟩
def KP_CMD.KLEN : Fld := ⟨0, 4, 2⟩
def KP_RES.BREF : Fld := ⟨4, 25, 1⟩
def KP_RES.ENTRY : Fld := ⟨4, 16, 9⟩
def KP_RES.SLOT : Fld := ⟨4, 8, 8⟩
def KP_RES.RESULT : Fld := ⟨4, 4, 4⟩
def KP_RES.STATE : Fld := ⟨4, 0, 2⟩
def KP_ARG.ARG : Fld := ⟨8, 0, 9⟩
def KP_LABEL0.LABEL : Fld := ⟨0x10, 0, 32⟩
def KP_LABEL1.LABEL : Fld := ⟨0x14, 0, 32⟩
def KP_LABEL2.LABEL : Fld := ⟨0x18, 0, 32⟩
def KP_LABEL3.LABEL : Fld := ⟨0x1C, 0, 32⟩
def KP_KEY0.KEY : Fld := ⟨0x20, 0, 32⟩
def KP_KEY1.KEY : Fld := ⟨0x24, 0, 32⟩
def KP_KEY2.KEY : Fld := ⟨0x28, 0, 32⟩
def KP_KEY3.KEY : Fld := ⟨0x2C, 0, 32⟩
def KP_KEY4.KEY : Fld := ⟨0x30, 0, 32⟩
def KP_KEY5.KEY : Fld := ⟨0x34, 0, 32⟩
def KP_KEY6.KEY : Fld := ⟨0x38, 0, 32⟩
def KP_KEY7.KEY : Fld := ⟨0x3C, 0, 32⟩
def KP_ID_LO.ID : Fld := ⟨0x40, 0, 32⟩
def KP_ID_HI.ID : Fld := ⟨0x44, 0, 32⟩
def KP_MEAS_IMG0.MEAS : Fld := ⟨0x60, 0, 32⟩
def KP_MEAS_IMG1.MEAS : Fld := ⟨0x64, 0, 32⟩
def KP_MEAS_IMG2.MEAS : Fld := ⟨0x68, 0, 32⟩
def KP_MEAS_IMG3.MEAS : Fld := ⟨0x6C, 0, 32⟩
def KP_MEAS_IMG4.MEAS : Fld := ⟨0x70, 0, 32⟩
def KP_MEAS_IMG5.MEAS : Fld := ⟨0x74, 0, 32⟩
def KP_MEAS_IMG6.MEAS : Fld := ⟨0x78, 0, 32⟩
def KP_MEAS_IMG7.MEAS : Fld := ⟨0x7C, 0, 32⟩
def KP_MEAS_SGN0.MEAS : Fld := ⟨0x80, 0, 32⟩
def KP_MEAS_SGN1.MEAS : Fld := ⟨0x84, 0, 32⟩
def KP_MEAS_SGN2.MEAS : Fld := ⟨0x88, 0, 32⟩
def KP_MEAS_SGN3.MEAS : Fld := ⟨0x8C, 0, 32⟩
def KP_MEAS_SGN4.MEAS : Fld := ⟨0x90, 0, 32⟩
def KP_MEAS_SGN5.MEAS : Fld := ⟨0x94, 0, 32⟩
def KP_MEAS_SGN6.MEAS : Fld := ⟨0x98, 0, 32⟩
def KP_MEAS_SGN7.MEAS : Fld := ⟨0x9C, 0, 32⟩

/-! ### RNG (R535) -/

def RNG_DATA.V : Fld := ⟨0, 31, 1⟩
def RNG_DATA.DATA : Fld := ⟨0, 0, 16⟩
def RNG_STAT.BLOCKS : Fld := ⟨4, 8, 4⟩
def RNG_STAT.STATE : Fld := ⟨4, 0, 2⟩
def RNG_CMD.KEY : Fld := ⟨8, 16, 16⟩
def RNG_CMD.RESTART : Fld := ⟨8, 0, 1⟩
def RNG_CNT.APT_FAIL : Fld := ⟨0xC, 16, 16⟩
def RNG_CNT.RCT_FAIL : Fld := ⟨0xC, 0, 16⟩

/-! ### Tamper (R536) -/

def TAMP_CFG.LOCK : Fld := ⟨0, 31, 1⟩
def TAMP_CFG.ACT : Fld := ⟨0, 0, 16⟩
def TAMP_LOOP.EN : Fld := ⟨4, 12, 4⟩
def TAMP_LOOP.MISS : Fld := ⟨4, 8, 4⟩
def TAMP_LOOP.PERIOD : Fld := ⟨4, 0, 8⟩
def TAMP_STAT.LAST_SRC : Fld := ⟨8, 16, 4⟩
def TAMP_STAT.LOCKED_W : Fld := ⟨8, 10, 1⟩
def TAMP_STAT.ERASE_PEND : Fld := ⟨8, 9, 1⟩
def TAMP_STAT.ERASING : Fld := ⟨8, 8, 1⟩
def TAMP_STAT.TRIPPED : Fld := ⟨8, 0, 8⟩
def TAMP_TIME_LO.SEC : Fld := ⟨0xC, 0, 32⟩
def TAMP_TIME_HI.SEC : Fld := ⟨0x10, 0, 16⟩

/-! ### FLC and its command ports (R559) -/

def FLC_CFG.WS : Fld := ⟨0, 8, 4⟩
def FLC_CFG.AUTO_SUSP : Fld := ⟨0, 4, 1⟩
def FLC_CFG.CLK : Fld := ⟨0, 2, 2⟩
def FLC_CFG.MODE : Fld := ⟨0, 0, 1⟩
def FLC_STAT.B1_BLOCK : Fld := ⟨4, 22, 10⟩
def FLC_STAT.B0_BLOCK : Fld := ⟨4, 12, 10⟩
def FLC_STAT.B1_STATE : Fld := ⟨4, 10, 2⟩
def FLC_STAT.B0_STATE : Fld := ⟨4, 8, 2⟩
def FLC_STAT.WS_LOW : Fld := ⟨4, 4, 1⟩
def FLC_STAT.WS_EFF : Fld := ⟨4, 0, 4⟩
def FLC_NOTE.WEAR : Fld := ⟨8, 5, 1⟩
def FLC_NOTE.WS_LOW : Fld := ⟨8, 4, 1⟩
def FLC_NOTE.UNCORR : Fld := ⟨8, 3, 1⟩
def FLC_NOTE.CORR : Fld := ⟨8, 2, 1⟩
def FLC_NOTE.DONE1 : Fld := ⟨8, 1, 1⟩
def FLC_NOTE.DONE0 : Fld := ⟨8, 0, 1⟩
def FLC_ERR.STORE : Fld := ⟨0xC, 2, 1⟩
def FLC_ERR.RANGE : Fld := ⟨0xC, 1, 1⟩
def FLC_ERR.CMD : Fld := ⟨0xC, 0, 1⟩
def FLC_ECC.UNCORR : Fld := ⟨0x10, 16, 16⟩
def FLC_ECC.CORR : Fld := ⟨0x10, 0, 16⟩
def FLC_CORR_ADDR.LINE : Fld := ⟨0x14, 5, 27⟩
def FLC_UNC_ADDR.LINE : Fld := ⟨0x18, 5, 27⟩
def FLC_LOCK.PORTER : Fld := ⟨0x1C, 0, 1⟩
def FLC_SUSP.KEY : Fld := ⟨0x20, 16, 16⟩
def FLC_SUSP.BANK : Fld := ⟨0x20, 8, 1⟩
def FLC_SUSP.RESUME : Fld := ⟨0x20, 1, 1⟩
def FLC_SUSP.SUSPEND : Fld := ⟨0x20, 0, 1⟩
def FLC_WEAR.TH : Fld := ⟨0x24, 0, 24⟩
def FLC_WEAR_LAST.BLOCK : Fld := ⟨0x28, 0, 10⟩
def FLC_ECNT.COUNT : Fld := ⟨0x4000, 0, 24⟩
def FP_ADDR.ADDR : Fld := ⟨0, 0, 32⟩
def FP_CMD.KEY : Fld := ⟨0x40, 16, 16⟩
def FP_CMD.OP : Fld := ⟨0x40, 0, 2⟩
def FP_STAT.STG_BAD : Fld := ⟨0x44, 9, 1⟩
def FP_STAT.CMD_ERR : Fld := ⟨0x44, 8, 1⟩
def FP_STAT.RESULT : Fld := ⟨0x44, 4, 4⟩
def FP_STAT.STATE : Fld := ⟨0x44, 0, 2⟩
def FP_DATA0.DATA : Fld := ⟨0x20, 0, 32⟩
def FP_DATA1.DATA : Fld := ⟨0x24, 0, 32⟩
def FP_DATA2.DATA : Fld := ⟨0x28, 0, 32⟩
def FP_DATA3.DATA : Fld := ⟨0x2C, 0, 32⟩
def FP_DATA4.DATA : Fld := ⟨0x30, 0, 32⟩
def FP_DATA5.DATA : Fld := ⟨0x34, 0, 32⟩
def FP_DATA6.DATA : Fld := ⟨0x38, 0, 32⟩
def FP_DATA7.DATA : Fld := ⟨0x3C, 0, 32⟩

/-! ### UPD (R577) -/

def UPD_CMD.KEY : Fld := ⟨0, 16, 16⟩
def UPD_CMD.OP : Fld := ⟨0, 8, 4⟩
def UPD_CMD.ROOM : Fld := ⟨0, 0, 6⟩
def UPD_STAT.REC_REQ : Fld := ⟨4, 22, 1⟩
def UPD_STAT.ROOM : Fld := ⟨4, 16, 6⟩
def UPD_STAT.KIND : Fld := ⟨4, 10, 3⟩
def UPD_STAT.RESULT : Fld := ⟨4, 4, 4⟩
def UPD_STAT.LOCK : Fld := ⟨4, 3, 1⟩
def UPD_STAT.STATE : Fld := ⟨4, 0, 3⟩
def UPD_ERR.BUSY : Fld := ⟨8, 2, 1⟩
def UPD_ERR.RANGE : Fld := ⟨8, 1, 1⟩
def UPD_ERR.CMD : Fld := ⟨8, 0, 1⟩
def UPD_STG_BASE.BASE : Fld := ⟨0xC, 12, 20⟩
def UPD_STG_SIZE.SIZE : Fld := ⟨0x10, 12, 20⟩
def UPD_SRC.SRC : Fld := ⟨0x14, 2, 30⟩
def UPD_LEN.LEN : Fld := ⟨0x18, 0, 24⟩
def UPD_LOADED.LOADED : Fld := ⟨0x1C, 0, 32⟩
def UPD_RFREQ.FREQ_KHZ : Fld := ⟨0x30, 0, 22⟩
def UPD_RCFG.EN : Fld := ⟨0x2C, 8, 1⟩
def UPD_RCFG.PWR_QDBM : Fld := ⟨0x2C, 0, 8⟩
def UPD_FLOOR_PORTER.FLOOR : Fld := ⟨0x20, 0, 32⟩
def UPD_FLOOR_HOUSE.FLOOR : Fld := ⟨0x24, 0, 32⟩
def UPD_FLOOR_PLAN.FLOOR : Fld := ⟨0x28, 0, 32⟩
def UPD_FLOOR_ROOM.FLOOR : Fld := ⟨0x100, 0, 32⟩
def UPD_ROOMST.STATE : Fld := ⟨0x200, 0, 2⟩
def UPD_SIGNER.DIGEST : Fld := ⟨0x400, 0, 32⟩
def UPD_HDR.HDR : Fld := ⟨0x1000, 0, 32⟩

/-! ### PWR (R600) -/

def PWR_MODE.KEY : Fld := ⟨0, 16, 16⟩
def PWR_MODE.TARGET : Fld := ⟨0, 0, 3⟩
def PWR_STAT.ABORT_WHY : Fld := ⟨4, 16, 4⟩
def PWR_STAT.LAST_MODE : Fld := ⟨4, 8, 3⟩
def PWR_STAT.PHASE : Fld := ⟨4, 0, 3⟩
def PWR_HS.ANS : Fld := ⟨8, 0, 24⟩
def PWR_CFG.HS_TMO : Fld := ⟨0xC, 8, 8⟩
def PWR_CFG.LULL_PRIO : Fld := ⟨0xC, 0, 4⟩
def PWR_GATE.MISC : Fld := ⟨0x10, 20, 5⟩
def PWR_GATE.SRAM : Fld := ⟨0x10, 4, 16⟩
def PWR_GATE.CORE : Fld := ⟨0x10, 0, 4⟩
def PWR_VCFG.DOWN_HOLD : Fld := ⟨0x14, 16, 16⟩
def PWR_VCFG.AUTO : Fld := ⟨0x14, 8, 1⟩
def PWR_VCFG.VSET : Fld := ⟨0x14, 0, 5⟩
def PWR_VSTAT.HOLD : Fld := ⟨0x18, 24, 1⟩
def PWR_VSTAT.LOW : Fld := ⟨0x18, 16, 5⟩
def PWR_VSTAT.REQ : Fld := ⟨0x18, 8, 5⟩
def PWR_VSTAT.PEND : Fld := ⟨0x18, 7, 1⟩
def PWR_VSTAT.NOW : Fld := ⟨0x18, 0, 5⟩
def PWR_LCACK.KEY : Fld := ⟨0x1C, 16, 16⟩
def PWR_LCACK.ANS : Fld := ⟨0x1C, 0, 2⟩
def PWR_ERR.PMB_NAK : Fld := ⟨0x20, 4, 1⟩
def PWR_ERR.VMODE : Fld := ⟨0x20, 3, 1⟩
def PWR_ERR.VFAIL : Fld := ⟨0x20, 2, 1⟩
def PWR_ERR.CMD : Fld := ⟨0x20, 1, 1⟩
def PWR_ERR.RANGE : Fld := ⟨0x20, 0, 1⟩
def PWR_NOTE.ALERT : Fld := ⟨0x24, 3, 1⟩
def PWR_NOTE.VSTEP : Fld := ⟨0x24, 2, 1⟩
def PWR_NOTE.WAKE : Fld := ⟨0x24, 1, 1⟩
def PWR_NOTE.ENTRY_ABORT : Fld := ⟨0x24, 0, 1⟩
def PWR_DOM0.ON : Fld := ⟨0x28, 0, 32⟩
def PWR_DOM1.ON : Fld := ⟨0x2C, 0, 32⟩
def PWR_DOM2.ON : Fld := ⟨0x30, 0, 16⟩

/-! ### Wake, PMBus, last gasp and reset registers (R601, R625, R666) -/

def PMB_CFG.TMO : Fld := ⟨0, 20, 12⟩
def PMB_CFG.SETTLE : Fld := ⟨0, 12, 8⟩
def PMB_CFG.ACK : Fld := ⟨0, 10, 1⟩
def PMB_CFG.PEC : Fld := ⟨0, 9, 1⟩
def PMB_CFG.SPEED : Fld := ⟨0, 8, 1⟩
def PMB_CFG.ADDR : Fld := ⟨0, 0, 7⟩
def PMB_STAT.VOUT_N : Fld := ⟨4, 8, 5⟩
def PMB_STAT.BUSY : Fld := ⟨4, 2, 1⟩
def PMB_STAT.PGOOD : Fld := ⟨4, 1, 1⟩
def PMB_STAT.VALID : Fld := ⟨4, 0, 1⟩
def PMB_LAST.STATUS_WORD : Fld := ⟨8, 16, 16⟩
def PMB_LAST.STATUS_VOUT : Fld := ⟨8, 0, 8⟩
def PMB_CNT.NAK : Fld := ⟨0xC, 16, 16⟩
def PMB_CNT.PEC_ERR : Fld := ⟨0xC, 8, 8⟩
def PMB_CNT.FAIL : Fld := ⟨0xC, 0, 8⟩
def WAKE_CFG.SUP_EN : Fld := ⟨0x10, 4, 1⟩
def WAKE_CFG.WK1_EDGE : Fld := ⟨0x10, 3, 1⟩
def WAKE_CFG.WK1_EN : Fld := ⟨0x10, 2, 1⟩
def WAKE_CFG.WK0_EDGE : Fld := ⟨0x10, 1, 1⟩
def WAKE_CFG.WK0_EN : Fld := ⟨0x10, 0, 1⟩
def WAKE_LAST_A.SEQ : Fld := ⟨0x14, 24, 8⟩
def WAKE_LAST_A.EVENT : Fld := ⟨0x14, 10, 10⟩
def WAKE_LAST_A.FAIL : Fld := ⟨0x14, 8, 1⟩
def WAKE_LAST_A.ENTRY : Fld := ⟨0x14, 7, 1⟩
def WAKE_LAST_A.MODE : Fld := ⟨0x14, 4, 3⟩
def WAKE_LAST_A.SRC : Fld := ⟨0x14, 0, 4⟩
def WAKE_LAST_B.SEC : Fld := ⟨0x18, 0, 32⟩
def WAKE_HIST_A.SEQ : Fld := ⟨0x40, 24, 8⟩
def WAKE_HIST_A.EVENT : Fld := ⟨0x40, 10, 10⟩
def WAKE_HIST_A.FAIL : Fld := ⟨0x40, 8, 1⟩
def WAKE_HIST_A.ENTRY : Fld := ⟨0x40, 7, 1⟩
def WAKE_HIST_A.MODE : Fld := ⟨0x40, 4, 3⟩
def WAKE_HIST_A.SRC : Fld := ⟨0x40, 0, 4⟩
def WAKE_HIST_B.SEC : Fld := ⟨0x44, 0, 32⟩
def LG_CFG.REP_GAP : Fld := ⟨0x100, 8, 8⟩
def LG_CFG.REPEAT : Fld := ⟨0x100, 6, 2⟩
def LG_CFG.EN : Fld := ⟨0x100, 5, 1⟩
def LG_CFG.ALL : Fld := ⟨0x100, 4, 1⟩
def LG_CFG.MASK : Fld := ⟨0x100, 0, 4⟩
def LG_VH.VH_TX : Fld := ⟨0x104, 16, 11⟩
def LG_VH.VH_ABORT : Fld := ⟨0x104, 0, 11⟩
def LG_STAT.VH_MV : Fld := ⟨0x108, 16, 11⟩
def LG_STAT.RESULT : Fld := ⟨0x108, 8, 4⟩
def LG_STAT.SENT : Fld := ⟨0x108, 5, 3⟩
def LG_STAT.ACK_E : Fld := ⟨0x108, 4, 1⟩
def LG_STAT.FRAME : Fld := ⟨0x108, 0, 2⟩
def LG_E.EST : Fld := ⟨0x10C, 16, 16⟩
def LG_E.BASIS : Fld := ⟨0x10C, 8, 2⟩
def LG_T_LO.T : Fld := ⟨0x110, 0, 32⟩
def LG_T_HI.T : Fld := ⟨0x114, 0, 32⟩
def LG_SET.DATA : Fld := ⟨0x180, 0, 32⟩
def LG_RING.DATA : Fld := ⟨0x200, 0, 32⟩
def RST_STAT.CNT : Fld := ⟨0x300, 16, 16⟩
def RST_STAT.REC_WHY : Fld := ⟨0x300, 8, 4⟩
def RST_STAT.CAUSE : Fld := ⟨0x300, 0, 4⟩
def RST_SEEN.SEEN : Fld := ⟨0x304, 0, 10⟩
def RST_CMD.KEY : Fld := ⟨0x308, 16, 16⟩
def RST_CMD.HALL : Fld := ⟨0x308, 0, 1⟩
def RST_STAGE.PREV : Fld := ⟨0x30C, 8, 4⟩
def RST_STAGE.STAGE : Fld := ⟨0x30C, 0, 4⟩

/-! ### SUP and its channel pages (R624) -/

def SUP_CTRL.F10_CH : Fld := ⟨0, 12, 2⟩
def SUP_CTRL.HZ60 : Fld := ⟨0, 8, 1⟩
def SUP_CTRL.EN : Fld := ⟨0, 0, 4⟩
def SUP_F10.VALID : Fld := ⟨4, 31, 1⟩
def SUP_F10.F10 : Fld := ⟨4, 0, 24⟩
def SUP_REC0.V : Fld := ⟨0x10, 31, 1⟩
def SUP_REC0.KIND : Fld := ⟨0x10, 28, 3⟩
def SUP_REC0.CH : Fld := ⟨0x10, 26, 2⟩
def SUP_REC0.FLAG : Fld := ⟨0x10, 25, 1⟩
def SUP_REC0.LF_T : Fld := ⟨0x10, 24, 1⟩
def SUP_REC0.EXT : Fld := ⟨0x10, 0, 24⟩
def SUP_REC1.DUR : Fld := ⟨0x14, 0, 32⟩
def SUP_REC2.NT_LO : Fld := ⟨0x18, 0, 32⟩
def SUP_REC3.NT_HI : Fld := ⟨0x1C, 0, 32⟩
def SUP_RECST.LOST : Fld := ⟨0x20, 8, 8⟩
def SUP_RECST.COUNT : Fld := ⟨0x20, 0, 6⟩
def SUP_NOTE.NOTES : Fld := ⟨0x24, 0, 8⟩
def SUP_ERR.OVERRUN : Fld := ⟨0x28, 1, 1⟩
def SUP_ERR.RANGE : Fld := ⟨0x28, 0, 1⟩
def SUP_CFG.FAST_WIN : Fld := ⟨0, 20, 12⟩
def SUP_CFG.RESTORE : Fld := ⟨0, 12, 8⟩
def SUP_CFG.FAST_TH : Fld := ⟨0, 4, 8⟩
def SUP_CFG.FAST_EN : Fld := ⟨0, 1, 1⟩
def SUP_CFG.MODE : Fld := ⟨0, 0, 1⟩
def SUP_NOM.NOM : Fld := ⟨4, 0, 23⟩
def SUP_TH.SWELL : Fld := ⟨8, 24, 8⟩
def SUP_TH.SAG : Fld := ⟨8, 16, 8⟩
def SUP_TH.OUT : Fld := ⟨8, 8, 8⟩
def SUP_TH.HYST : Fld := ⟨8, 0, 8⟩
def SUP_STAT.OUT : Fld := ⟨0xC, 7, 1⟩
def SUP_STAT.SAG : Fld := ⟨0xC, 6, 1⟩
def SUP_STAT.SWELL : Fld := ⟨0xC, 5, 1⟩
def SUP_STAT.DIST : Fld := ⟨0xC, 4, 1⟩
def SUP_STAT.OVR : Fld := ⟨0xC, 3, 1⟩
def SUP_STAT.LOST : Fld := ⟨0xC, 2, 1⟩
def SUP_STAT.LF_T : Fld := ⟨0xC, 1, 1⟩
def SUP_STAT.ZC_V : Fld := ⟨0xC, 0, 1⟩
def SUP_RMS.RMS : Fld := ⟨0x10, 0, 24⟩
def SUP_FREQ.FREQ : Fld := ⟨0x14, 0, 24⟩
def SUP_ZC_LO.ZC_LO : Fld := ⟨0x18, 0, 32⟩
def SUP_ZC_HI.ZC_HI : Fld := ⟨0x1C, 0, 32⟩
def SUP_SAMPLE.OVR : Fld := ⟨0x20, 31, 1⟩
def SUP_SAMPLE.DIST : Fld := ⟨0x20, 30, 1⟩
def SUP_SAMPLE.SAMPLE : Fld := ⟨0x20, 0, 24⟩

/-! ### HOST (R650) -/

def HOST_CTRL.TMO : Fld := ⟨0, 16, 16⟩
def HOST_CTRL.EN : Fld := ⟨0, 0, 1⟩
def HOST_STAT.SESSION : Fld := ⟨4, 16, 16⟩
def HOST_STAT.EXPECT : Fld := ⟨4, 0, 16⟩
def HOST_FILL.LIVE : Fld := ⟨8, 24, 1⟩
def HOST_FILL.OUT_CNT : Fld := ⟨8, 16, 5⟩
def HOST_FILL.IN_CNT : Fld := ⟨8, 8, 5⟩
def HOST_IN_HDR.V : Fld := ⟨0xC, 31, 1⟩
def HOST_IN_HDR.LEN : Fld := ⟨0xC, 16, 11⟩
def HOST_IN_HDR.SEQ : Fld := ⟨0xC, 0, 16⟩
def HOST_IN_DATA.DATA : Fld := ⟨0x10, 0, 32⟩
def HOST_OUT_DATA.DATA : Fld := ⟨0x14, 0, 32⟩
def HOST_OUT_CMD.SESSION : Fld := ⟨0x18, 16, 16⟩
def HOST_OUT_CMD.COMMIT : Fld := ⟨0x18, 15, 1⟩
def HOST_OUT_CMD.DISCARD : Fld := ⟨0x18, 14, 1⟩
def HOST_OUT_CMD.LEN : Fld := ⟨0x18, 0, 9⟩
def HOST_NOTE.REPLACED : Fld := ⟨0x1C, 4, 1⟩
def HOST_NOTE.LOST : Fld := ⟨0x1C, 3, 1⟩
def HOST_NOTE.NEW : Fld := ⟨0x1C, 2, 1⟩
def HOST_NOTE.SPACE : Fld := ⟨0x1C, 1, 1⟩
def HOST_NOTE.MSG : Fld := ⟨0x1C, 0, 1⟩
def HOST_ERR.RANGE : Fld := ⟨0x20, 3, 1⟩
def HOST_ERR.LEN : Fld := ⟨0x20, 2, 1⟩
def HOST_ERR.FULL : Fld := ⟨0x20, 1, 1⟩
def HOST_ERR.STALE : Fld := ⟨0x20, 0, 1⟩

/-! ### UART (R651) -/

def UART_CFG.BRD : Fld := ⟨0, 16, 16⟩
def UART_CFG.FLOW : Fld := ⟨0, 7, 1⟩
def UART_CFG.STOP2 : Fld := ⟨0, 6, 1⟩
def UART_CFG.PAR : Fld := ⟨0, 4, 2⟩
def UART_CFG.DATA7 : Fld := ⟨0, 3, 1⟩
def UART_CFG.SLOW : Fld := ⟨0, 1, 1⟩
def UART_CFG.EN : Fld := ⟨0, 0, 1⟩
def UART_DATA.V : Fld := ⟨4, 31, 1⟩
def UART_DATA.BRK : Fld := ⟨4, 11, 1⟩
def UART_DATA.FRM : Fld := ⟨4, 10, 1⟩
def UART_DATA.PAR : Fld := ⟨4, 9, 1⟩
def UART_DATA.DATA : Fld := ⟨4, 0, 8⟩
def UART_STAT.RX_CNT : Fld := ⟨8, 16, 7⟩
def UART_STAT.TX_CNT : Fld := ⟨8, 8, 7⟩
def UART_STAT.TX_BUSY : Fld := ⟨8, 0, 1⟩
def UART_NOTE.BRK : Fld := ⟨0xC, 5, 1⟩
def UART_NOTE.FRM : Fld := ⟨0xC, 4, 1⟩
def UART_NOTE.PAR : Fld := ⟨0xC, 3, 1⟩
def UART_NOTE.OVR : Fld := ⟨0xC, 2, 1⟩
def UART_NOTE.TX : Fld := ⟨0xC, 1, 1⟩
def UART_NOTE.RX : Fld := ⟨0xC, 0, 1⟩
def UART_TH.RX_TH : Fld := ⟨0x10, 0, 6⟩
def UART_OWN.OWN1 : Fld := ⟨0xF00, 8, 6⟩
def UART_OWN.OWN0 : Fld := ⟨0xF00, 0, 6⟩

/-! ### I2C (R651) -/

def I2C_CFG.DIV : Fld := ⟨0, 16, 12⟩
def I2C_CFG.EN : Fld := ⟨0, 0, 1⟩
def I2C_CMD.NACK : Fld := ⟨4, 10, 1⟩
def I2C_CMD.OP : Fld := ⟨4, 8, 2⟩
def I2C_CMD.DATA : Fld := ⟨4, 0, 8⟩
def I2C_RX.V : Fld := ⟨8, 31, 1⟩
def I2C_RX.DATA : Fld := ⟨8, 0, 8⟩
def I2C_STAT.CMD_CNT : Fld := ⟨0xC, 16, 5⟩
def I2C_STAT.RX_CNT : Fld := ⟨0xC, 8, 5⟩
def I2C_STAT.BUSY : Fld := ⟨0xC, 0, 1⟩
def I2C_NOTE.OVR : Fld := ⟨0x10, 4, 1⟩
def I2C_NOTE.TMO : Fld := ⟨0x10, 3, 1⟩
def I2C_NOTE.ARB : Fld := ⟨0x10, 2, 1⟩
def I2C_NOTE.NACK : Fld := ⟨0x10, 1, 1⟩
def I2C_NOTE.DONE : Fld := ⟨0x10, 0, 1⟩
def I2C_OWN.OWN1 : Fld := ⟨0xF00, 8, 6⟩
def I2C_OWN.OWN0 : Fld := ⟨0xF00, 0, 6⟩

/-! ### GPIO (R652) -/

def GPIO_OWN.OWN : Fld := ⟨0, 0, 32⟩
def GPIO_HOLD.REL_PD77 : Fld := ⟨0x20, 1, 1⟩
def GPIO_HOLD.REL_PD76 : Fld := ⟨0x20, 0, 1⟩
def GPIO_PIN.IRQ : Fld := ⟨0x100, 6, 2⟩
def GPIO_PIN.DRIVE : Fld := ⟨0x100, 5, 1⟩
def GPIO_PIN.PULL : Fld := ⟨0x100, 3, 2⟩
def GPIO_PIN.OD : Fld := ⟨0x100, 2, 1⟩
def GPIO_PIN.DIR : Fld := ⟨0x100, 0, 1⟩
def GPIO_IN.IN : Fld := ⟨0, 0, 16⟩
def GPIO_OUT.OUT : Fld := ⟨4, 0, 16⟩
def GPIO_SET.SET : Fld := ⟨8, 0, 16⟩
def GPIO_CLR.CLR : Fld := ⟨0xC, 0, 16⟩
def GPIO_NOTE.EDGE : Fld := ⟨0x500, 0, 16⟩

/-! ### DBG (R653) -/

def DBG_STAT.SCOPE : Fld := ⟨0, 2, 15⟩
def DBG_STAT.STATE : Fld := ⟨0, 0, 2⟩
def DBG_LOCK.KEY : Fld := ⟨4, 16, 16⟩
def DBG_CONSENT.ALLOW : Fld := ⟨0x100, 0, 1⟩

/-! ### FAB control (R237) -/

def FAB_CTRL.SCRUB_EN : Fld := ⟨0, 0, 1⟩
def FAB_CMD.KEY : Fld := ⟨4, 16, 16⟩
def FAB_CMD.DOMAIN : Fld := ⟨4, 8, 5⟩
def FAB_CMD.SLOT : Fld := ⟨4, 4, 1⟩
def FAB_CMD.RELOAD : Fld := ⟨4, 2, 1⟩
def FAB_CMD.CHECK : Fld := ⟨4, 1, 1⟩
def FAB_CMD.ACTIVATE : Fld := ⟨4, 0, 1⟩
def FAB_PLAN_STAT.TIE : Fld := ⟨8, 24, 1⟩
def FAB_PLAN_STAT.LAST_ERR : Fld := ⟨8, 16, 8⟩
def FAB_PLAN_STAT.ERR_DOMAIN : Fld := ⟨8, 11, 5⟩
def FAB_PLAN_STAT.PHASE : Fld := ⟨8, 8, 3⟩
def FAB_PLAN_STAT.ACTIVE : Fld := ⟨8, 6, 2⟩
def FAB_PLAN_STAT.B_STATE : Fld := ⟨8, 3, 3⟩
def FAB_PLAN_STAT.A_STATE : Fld := ⟨8, 0, 3⟩
def FAB_DOMAINS.MASK : Fld := ⟨0x14, 0, 32⟩
def FAB_FAULT.MASK : Fld := ⟨0x18, 0, 32⟩
def FAB_LIMITS.STEP_MAX : Fld := ⟨0x1C, 19, 13⟩
def FAB_LIMITS.BUDGET : Fld := ⟨0x1C, 10, 9⟩
def FAB_LIMITS.CEIL : Fld := ⟨0x1C, 5, 5⟩
def FAB_LIMITS.FLOOR : Fld := ⟨0x1C, 0, 5⟩
def FAB_SLACK.OVR_LANE : Fld := ⟨0x20, 24, 8⟩
def FAB_SLACK.LAG_LANE : Fld := ⟨0x20, 16, 8⟩
def FAB_SLACK.AT_CEIL : Fld := ⟨0x20, 8, 1⟩
def FAB_SLACK.LOW : Fld := ⟨0x20, 7, 1⟩
def FAB_SLACK.MAX_FILL : Fld := ⟨0x20, 0, 7⟩
def FAB_OVR_CNT.LOST : Fld := ⟨0x24, 0, 32⟩
def FAB_SCRUB.FIX_CNT : Fld := ⟨0x28, 16, 16⟩
def FAB_SCRUB.PASS_CNT : Fld := ⟨0x28, 0, 16⟩
def FAB_SCRUB_LAST.TILE : Fld := ⟨0x2C, 0, 10⟩
def FAB_ERR.SLACK_CEIL : Fld := ⟨0x30, 6, 1⟩
def FAB_ERR.OVERRUN : Fld := ⟨0x30, 5, 1⟩
def FAB_ERR.SCRUB_FIX : Fld := ⟨0x30, 4, 1⟩
def FAB_ERR.DOMAIN_FAULT : Fld := ⟨0x30, 3, 1⟩
def FAB_ERR.LOAD_FAIL : Fld := ⟨0x30, 2, 1⟩
def FAB_ERR.WRITE : Fld := ⟨0x30, 1, 1⟩
def FAB_ERR.CMD : Fld := ⟨0x30, 0, 1⟩
def FAB_FP_LO.FP_LO : Fld := ⟨0x60, 0, 32⟩
def FAB_FP_HI.FP_HI : Fld := ⟨0x64, 0, 32⟩
def FAB_SEQ.SEQ : Fld := ⟨0xC, 0, 32⟩
def FAB_DIGEST.DIGEST : Fld := ⟨0x40, 0, 32⟩

/-! ### Lane pages (R287) -/

def LANE_CTRL.RESYNC_TH : Fld := ⟨4, 8, 4⟩
def LANE_CTRL.FCS2 : Fld := ⟨4, 2, 1⟩
def LANE_CTRL.RESYNC : Fld := ⟨4, 1, 1⟩
def LANE_CTRL.KEEP_BAD : Fld := ⟨4, 0, 1⟩
def LANE_CMD.KEY : Fld := ⟨8, 16, 16⟩
def LANE_CMD.STOP : Fld := ⟨8, 1, 1⟩
def LANE_CMD.START : Fld := ⟨8, 0, 1⟩
def LANE_STAT.PARTNER : Fld := ⟨0xC, 16, 8⟩
def LANE_STAT.EPOCH : Fld := ⟨0xC, 8, 6⟩
def LANE_STAT.MOVE_PEND : Fld := ⟨0xC, 7, 1⟩
def LANE_STAT.TUNE_PEND : Fld := ⟨0xC, 6, 1⟩
def LANE_STAT.MIDFRAME : Fld := ⟨0xC, 5, 1⟩
def LANE_STAT.PHASE : Fld := ⟨0xC, 3, 2⟩
def LANE_STAT.STATE : Fld := ⟨0xC, 0, 3⟩
def LANE_CHAN.QUEUE : Fld := ⟨0x10, 24, 8⟩
def LANE_CHAN.N_BINS : Fld := ⟨0x10, 16, 6⟩
def LANE_CHAN.BIN_FIRST : Fld := ⟨0x10, 0, 10⟩
def LANE_FINE.FINE_HZ : Fld := ⟨0x14, 0, 32⟩
def LANE_TUNE_CH.GO : Fld := ⟨0x18, 31, 1⟩
def LANE_TUNE_CH.FORCE : Fld := ⟨0x18, 30, 1⟩
def LANE_TUNE_CH.NOW : Fld := ⟨0x18, 29, 1⟩
def LANE_TUNE_CH.BIN_FIRST : Fld := ⟨0x18, 0, 10⟩
def LANE_TUNE_FINE.FINE_HZ : Fld := ⟨0x1C, 0, 32⟩
def LANE_TUNE_IDX_LO.IDX_LO : Fld := ⟨0x20, 0, 32⟩
def LANE_TUNE_IDX_HI.IDX_HI : Fld := ⟨0x24, 0, 16⟩
def LANE_MOVE.KEY : Fld := ⟨0x28, 16, 16⟩
def LANE_MOVE.DEST : Fld := ⟨0x28, 0, 8⟩
def LANE_MOVE_IDX_LO.IDX_LO : Fld := ⟨0x2C, 0, 32⟩
def LANE_MOVE_IDX_HI.IDX_HI : Fld := ⟨0x30, 0, 16⟩
def LANE_DET.SFD_TMO : Fld := ⟨0x34, 8, 12⟩
def LANE_DET.DET_TH : Fld := ⟨0x34, 0, 8⟩
def LANE_MODE.MS_EN : Fld := ⟨0x38, 11, 1⟩
def LANE_MODE.INTLV : Fld := ⟨0x38, 10, 1⟩
def LANE_MODE.FEC_SCHEME : Fld := ⟨0x38, 8, 2⟩
def LANE_MODE.H_Q : Fld := ⟨0x38, 0, 8⟩
def LANE_DFE.EN : Fld := ⟨0x3C, 16, 1⟩
def LANE_DFE.BYP_TH : Fld := ⟨0x3C, 8, 8⟩
def LANE_DFE.MU_D : Fld := ⟨0x3C, 4, 4⟩
def LANE_DFE.MU_T : Fld := ⟨0x3C, 0, 4⟩
def LANE_ED.BLANKED : Fld := ⟨0x40, 16, 1⟩
def LANE_ED.ED_Q : Fld := ⟨0x40, 0, 16⟩
def LANE_FLOOR.AGE : Fld := ⟨0x44, 24, 8⟩
def LANE_FLOOR.VALID : Fld := ⟨0x44, 16, 1⟩
def LANE_FLOOR.FLOOR_H : Fld := ⟨0x44, 0, 16⟩
def LAST_ST.LEN : Fld := ⟨0x48, 20, 11⟩
def LAST_ST.DELIV : Fld := ⟨0x48, 18, 1⟩
def LAST_ST.EPOCH : Fld := ⟨0x48, 12, 6⟩
def LAST_ST.MARKS : Fld := ⟨0x48, 4, 8⟩
def LAST_ST.CODE : Fld := ⟨0x48, 0, 4⟩
def LAST_Q.MCS : Fld := ⟨0x4C, 24, 3⟩
def LAST_Q.LQI : Fld := ⟨0x4C, 16, 8⟩
def LAST_Q.RSSI_Q : Fld := ⟨0x4C, 0, 16⟩
def LAST_Q2.MARGIN_Q : Fld := ⟨0x50, 16, 16⟩
def LAST_Q2.EVM_Q : Fld := ⟨0x50, 0, 16⟩
def LAST_FOFS.FOFS : Fld := ⟨0x54, 0, 32⟩
def LAST_SFD_LO.SFD_LO : Fld := ⟨0x58, 0, 32⟩
def LAST_SFD_HI.FRAC : Fld := ⟨0x5C, 16, 12⟩
def LAST_SFD_HI.SFD_HI : Fld := ⟨0x5C, 0, 16⟩
def LANE_CNT0.BAD : Fld := ⟨0x60, 16, 16⟩
def LANE_CNT0.OK : Fld := ⟨0x60, 0, 16⟩
def LANE_CNT1.DUP : Fld := ⟨0x64, 16, 16⟩
def LANE_CNT1.LOSS : Fld := ⟨0x64, 0, 16⟩
def LANE_TMAX.TMAX : Fld := ⟨0x68, 0, 24⟩
def LANE_ERR.RANGE : Fld := ⟨0x6C, 6, 1⟩
def LANE_ERR.MS_UNSUP : Fld := ⟨0x6C, 5, 1⟩
def LANE_ERR.MOVE_CANCEL : Fld := ⟨0x6C, 4, 1⟩
def LANE_ERR.MOVE_REF : Fld := ⟨0x6C, 3, 1⟩
def LANE_ERR.TUNE_LATE : Fld := ⟨0x6C, 2, 1⟩
def LANE_ERR.TUNE_REF : Fld := ⟨0x6C, 1, 1⟩
def LANE_ERR.CMD : Fld := ⟨0x6C, 0, 1⟩
def LANE_NOTE.MOVE_DONE : Fld := ⟨0x70, 2, 1⟩
def LANE_NOTE.MOVE_START : Fld := ⟨0x70, 1, 1⟩
def LANE_NOTE.TUNE_DONE : Fld := ⟨0x70, 0, 1⟩
def LANE_ID.PHY : Fld := ⟨0, 24, 8⟩
def LANE_ID.N_BINS : Fld := ⟨0, 16, 8⟩
def LANE_ID.DOMAIN : Fld := ⟨0, 11, 5⟩
def LANE_ID.FE : Fld := ⟨0, 10, 1⟩
def LANE_ID.FEC : Fld := ⟨0, 9, 1⟩
def LANE_ID.DFE : Fld := ⟨0, 8, 1⟩
def LANE_ID.LANE : Fld := ⟨0, 0, 8⟩

end Reg


/-- FEA and FEB: front end, calibration, licence and duplex registers (R115, R156, R303). -/
def feRows : List RegRow :=
  [
   ⟨"FE_CTRL", 0x40000004, 0x10000, 2, fun _ => 0x8C, 0xBF, 0, 0, 0, 0⟩,
   ⟨"FE_CMD", 0x40000008, 0x10000, 2, fun _ => 0, 0, 0, 0, 0, 0xF⟩,
   ⟨"FE_STAT", 0x4000000C, 0x10000, 2, fun _ => 0x2000, 0, 0, 0, 0, 0⟩,
   ⟨"FE_SYN", 0x40000014, 0x10000, 2, fun _ => 0, 0, 0, 0, 0, 0⟩,
   ⟨"FE_SIDX_LO", 0x40000018, 0x10000, 2, fun _ => 0, 0, 0, 0, 0, 0⟩,
   ⟨"FE_SIDX_HI", 0x4000001C, 0x10000, 2, fun _ => 0, 0, 0, 0, 0, 0⟩,
   ⟨"FE_RXT0_LO", 0x40000020, 0x10000, 2, fun _ => 0, 0, 0, 0, 0, 0⟩,
   ⟨"FE_RXT0_HI", 0x40000024, 0x10000, 2, fun _ => 0, 0, 0, 0, 0, 0⟩,
   ⟨"FE_CTLMAP", 0x40000028, 0x10000, 2, fun _ => 0, 0xFFFFFF, 0, 0, 0, 0⟩,
   ⟨"FE_EXTPA", 0x40000030, 0x10000, 2, fun _ => 0x9A, 0x3FFFFFF, 0, 0, 0, 0⟩,
   ⟨"FE_TUNE", 0x40000034, 0x10000, 2, fun _ => 0x10410, 0x1FFFF, 0, 0, 0, 0⟩,
   ⟨"FE_TUNE_CFG", 0x40000038, 0x10000, 2, fun _ => 0x41A9A55, 0xFFFFFFF, 0, 0, 0, 0⟩,
   ⟨"FE_MISMATCH", 0x4000003C, 0x10000, 2, fun _ => 0, 0, 0, 0, 0, 0⟩,
   ⟨"FE_ERR", 0x40000040, 0x10000, 2, fun _ => 0, 0, 0x3FF, 0, 0, 0⟩,
   ⟨"FE_OWNER", 0x40000044, 0x10000, 2, fun _ => 0, 0, 0, 0, 0, 0x100⟩,
   ⟨"FE_ID", 0x40000000, 0x10000, 2, fun i => Config.stepping.toNat <<< 8 + (0x0A + i) + 0x92560000, 0, 0, 0, 0, 0⟩,
   ⟨"FE_CENTRE", 0x40000010, 0x10000, 2, fun i => (if i = 0 then 868000000 else 2441750000), 0xFFFFFFFF, 0, 0, 0, 0⟩,
   ⟨"FE_PA", 0x4000002C, 0x10000, 2, fun i => (if i = 0 then 0x58 else 0x38), 0xFF, 0, 0, 0, 0⟩,
   ⟨"CAL_CFG", 0x40000080, 0x10000, 2, fun _ => 0xF, 0xFF, 0, 0, 0, 0⟩,
   ⟨"CAL_STAT", 0x40000084, 0x10000, 2, fun _ => 0, 0, 0, 0, 0, 0⟩,
   ⟨"CAL_IRR", 0x40000088, 0x10000, 2, fun _ => 0, 0, 0, 0, 0, 0⟩,
   ⟨"CAL_DC", 0x4000008C, 0x10000, 2, fun _ => 0, 0, 0, 0, 0, 0⟩,
   ⟨"CAL_LOL", 0x40000090, 0x10000, 2, fun _ => 0, 0, 0, 0, 0, 0⟩,
   ⟨"CAL_BW", 0x40000094, 0x10000, 2, fun _ => 0x80, 0, 0, 0, 0, 0⟩,
   ⟨"PA_SENSE", 0x40000098, 0x10000, 2, fun _ => 0, 0, 0, 0, 0, 0⟩,
   ⟨"PA_DRIVE", 0x4000009C, 0x10000, 2, fun _ => 0, 0, 0, 0, 0, 0⟩,
   ⟨"LIC_STAT", 0x400000C0, 0, 1, fun _ => 0, 0, 0, 0, 0, 0⟩,
   ⟨"LIC_CMD", 0x400000C4, 0, 1, fun _ => 0, 0, 0, 0, 0, 0xFFFF0003⟩,
   ⟨"FDX_CFG", 0x40000100, 0x10000, 2, fun _ => 0x119, 0x1FF, 0, 0, 0, 0⟩,
   ⟨"FDX_STAT", 0x40000104, 0x10000, 2, fun _ => 0, 0, 0, 0, 0, 0⟩,
   ⟨"FDX_MEAS", 0x40000108, 0x10000, 2, fun _ => 0, 0, 0, 0, 0, 0⟩,
   ⟨"FDX_BLK_FIRST_LO", 0x4000010C, 0x10000, 2, fun _ => 0, 0, 0, 0, 0, 0⟩,
   ⟨"FDX_BLK_FIRST_HI", 0x40000110, 0x10000, 2, fun _ => 0, 0, 0, 0, 0, 0⟩,
   ⟨"FDX_BLK_LAST_LO", 0x40000114, 0x10000, 2, fun _ => 0, 0, 0, 0, 0, 0⟩,
   ⟨"FDX_BLK_LAST_HI", 0x40000118, 0x10000, 2, fun _ => 0, 0, 0, 0, 0, 0⟩,
   ⟨"FDX_ERR", 0x4000011C, 0x10000, 2, fun _ => 0, 0, 7, 0, 0, 0⟩]

/-- CHZ (R187, R278). -/
def chzRows : List RegRow :=
  [
   ⟨"CHZ_CTRL", 0x40020000, 0x100, 2, fun _ => 0x214, 0x31F, 0, 0, 0, 0⟩,
   ⟨"CHZ_GAIN_CFG", 0x40020004, 0x100, 2, fun _ => 0xA360A14, 0xFFFF1F1F, 0, 0, 0, 0⟩,
   ⟨"CHZ_GAIN_STAT", 0x40020008, 0x100, 2, fun _ => 0x14, 0, 0, 0, 0, 0⟩,
   ⟨"CHZ_GCHG_LO", 0x4002000C, 0x100, 2, fun _ => 0, 0, 0, 0, 0, 0⟩,
   ⟨"CHZ_GCHG_HI", 0x40020010, 0x100, 2, fun _ => 0, 0, 0, 0, 0, 0⟩,
   ⟨"CHZ_LEVEL", 0x40020014, 0x100, 2, fun _ => 0, 0, 0, 0, 0, 0⟩,
   ⟨"CHZ_OVL_STAT", 0x40020018, 0x100, 2, fun _ => 0, 0, 0, 0, 0, 0⟩,
   ⟨"CHZ_OVLS_LO", 0x4002001C, 0x100, 2, fun _ => 0, 0, 0, 0, 0, 0⟩,
   ⟨"CHZ_OVLS_HI", 0x40020020, 0x100, 2, fun _ => 0, 0, 0, 0, 0, 0⟩,
   ⟨"CHZ_OVLC_LO", 0x40020024, 0x100, 2, fun _ => 0, 0, 0, 0, 0, 0⟩,
   ⟨"CHZ_OVLC_HI", 0x40020028, 0x100, 2, fun _ => 0, 0, 0, 0, 0, 0⟩,
   ⟨"CHZ_WIN", 0x4002002C, 0x100, 2, fun _ => 8, 0, 0, 0, 0, 0⟩,
   ⟨"CHZ_LAGC", 0x40020030, 0x100, 2, fun _ => 0x40C, 0xFFF, 0, 0, 0, 0⟩,
   ⟨"CHZ_ERR", 0x40020034, 0x100, 2, fun _ => 0, 0, 1, 0, 0, 0⟩,
   ⟨"LANE_GAIN", 0x40020800, 4, 256, fun _ => 0xF0, 0x1FF, 0, 0, 0, 0⟩,
   ⟨"SURVEY", 0x40021000, 4, 2048, fun _ => 0, 0, 0, 0, 0, 0⟩]

/-- LINK and its job ports (R341). -/
def linkRows : List RegRow :=
  [
   ⟨"LINK_CTRL", 0x40030000, 0, 1, fun _ => 0x29, 0xFF39, 0, 0, 0, 0⟩,
   ⟨"LINK_ADDR", 0x40030004, 0, 1, fun _ => 0xFFFFFFFF, 0xFFFFFFFF, 0, 0, 0, 0⟩,
   ⟨"LINK_EXT_LO", 0x40030008, 0, 1, fun _ => 0, 0xFFFFFFFF, 0, 0, 0, 0⟩,
   ⟨"LINK_EXT_HI", 0x4003000C, 0, 1, fun _ => 0, 0xFFFFFFFF, 0, 0, 0, 0⟩,
   ⟨"LINK_ACK_CFG", 0x40030010, 0, 1, fun _ => 0x20838, 0x3FFFF, 0, 0, 0, 0⟩,
   ⟨"LINK_OUI", 0x40030014, 0, 1, fun _ => 0x50, 0xFFFFFFFF, 0, 0, 0, 0⟩,
   ⟨"LINK_GUARD", 0x40030018, 0, 1, fun _ => 0xF00, 0xFFFF, 0, 0, 0, 0⟩,
   ⟨"LINK_PREP", 0x4003001C, 0, 1, fun _ => 0x4B00, 0xFFFFF, 0, 0, 0, 0⟩,
   ⟨"NBR_CMD", 0x40030020, 0, 1, fun _ => 0, 0, 0, 0, 0, 0xFFFF0000⟩,
   ⟨"NBR_D0", 0x40030024, 0, 1, fun _ => 0, 0xFFFFFFFF, 0, 0, 0, 0⟩,
   ⟨"NBR_D1", 0x40030028, 0, 1, fun _ => 0, 0xFFFFFFFF, 0, 0, 0, 0⟩,
   ⟨"NBR_D2", 0x4003002C, 0, 1, fun _ => 0, 0xFFFFFFFF, 0, 0, 0, 0⟩,
   ⟨"NBR_STAT", 0x40030030, 0, 1, fun _ => 0, 0, 0, 0, 0, 0⟩,
   ⟨"LINK_CNT1", 0x40030034, 0, 1, fun _ => 0, 0, 0, 0, 0xFFFFFFFF, 0⟩,
   ⟨"LINK_CNT2", 0x40030038, 0, 1, fun _ => 0, 0, 0, 0, 0xFFFFFFFF, 0⟩,
   ⟨"LINK_TXFEC", 0x4003003C, 0, 1, fun _ => 2, 3, 0, 0, 0, 0⟩,
   ⟨"LINK_ERR", 0x40030040, 0, 1, fun _ => 0, 0, 7, 0, 0, 0⟩,
   ⟨"LINK_NOTE", 0x40030044, 0, 1, fun _ => 0, 0, 0xFF, 0, 0, 0⟩,
   ⟨"DUTY_G", 0x40030080, 4, 16, fun _ => 0, 0, 0, 0, 0, 0⟩,
   ⟨"LINK_KEYMAP", 0x40030400, 4, 256, fun _ => 0, 0xFF, 0, 0, 0, 0⟩,
   ⟨"JOB_W0", 0x40038000, 0x100, 64, fun _ => 0, 0xFFFFFFFF, 0, 0, 0, 0⟩,
   ⟨"JOB_W1", 0x40038004, 0x100, 64, fun _ => 0, 0xFFFFFFFF, 0, 0, 0, 0⟩,
   ⟨"JOB_W2", 0x40038008, 0x100, 64, fun _ => 0, 0xFFFFFFFF, 0, 0, 0, 0⟩,
   ⟨"JOB_W3", 0x4003800C, 0x100, 64, fun _ => 0, 0xFFFFFFFF, 0, 0, 0, 0⟩,
   ⟨"JOB_W4", 0x40038010, 0x100, 64, fun _ => 0, 0xFFFFFFFF, 0, 0, 0, 0⟩,
   ⟨"JOB_W5", 0x40038014, 0x100, 64, fun _ => 0, 0xFFFFFFFF, 0, 0, 0, 0⟩,
   ⟨"JOB_W6", 0x40038018, 0x100, 64, fun _ => 0, 0xFFFFFFFF, 0, 0, 0, 0⟩,
   ⟨"JOB_W7", 0x4003801C, 0x100, 64, fun _ => 0, 0xFFFFFFFF, 0, 0, 0, 0⟩,
   ⟨"JOB_POST", 0x40038020, 0x100, 64, fun _ => 0, 0, 0, 0, 0, 0xFFFF0113⟩,
   ⟨"PORT_CSMA", 0x40038024, 0x100, 64, fun _ => 0x78004530, 0xFFFFFFF0, 0, 0, 0, 0⟩,
   ⟨"PORT_ERR", 0x40038028, 0x100, 64, fun _ => 0, 0, 0xF, 0, 0, 0⟩,
   ⟨"JOB_RES", 0x40038040, 0x100, 64, fun _ => 0, 0, 0, 0, 0, 0⟩,
   ⟨"JOB_TXT_LO", 0x40038044, 0x100, 64, fun _ => 0, 0, 0, 0, 0, 0⟩,
   ⟨"JOB_TXT_HI", 0x40038048, 0x100, 64, fun _ => 0, 0, 0, 0, 0, 0⟩,
   ⟨"JOB_INFO", 0x4003804C, 0x100, 64, fun _ => 0, 0, 0, 0, 0, 0⟩,
   ⟨"JOB_RES1", 0x40038050, 0x100, 64, fun _ => 0, 0, 0, 0, 0, 0⟩,
   ⟨"JOB_TXT_LO1", 0x40038054, 0x100, 64, fun _ => 0, 0, 0, 0, 0, 0⟩,
   ⟨"JOB_TXT_HI1", 0x40038058, 0x100, 64, fun _ => 0, 0, 0, 0, 0, 0⟩,
   ⟨"JOB_INFO1", 0x4003805C, 0x100, 64, fun _ => 0, 0, 0, 0, 0, 0⟩,
   ⟨"JOB_RES2", 0x40038060, 0x100, 64, fun _ => 0, 0, 0, 0, 0, 0⟩,
   ⟨"JOB_TXT_LO2", 0x40038064, 0x100, 64, fun _ => 0, 0, 0, 0, 0, 0⟩,
   ⟨"JOB_TXT_HI2", 0x40038068, 0x100, 64, fun _ => 0, 0, 0, 0, 0, 0⟩,
   ⟨"JOB_INFO2", 0x4003806C, 0x100, 64, fun _ => 0, 0, 0, 0, 0, 0⟩,
   ⟨"JOB_RES3", 0x40038070, 0x100, 64, fun _ => 0, 0, 0, 0, 0, 0⟩,
   ⟨"JOB_TXT_LO3", 0x40038074, 0x100, 64, fun _ => 0, 0, 0, 0, 0, 0⟩,
   ⟨"JOB_TXT_HI3", 0x40038078, 0x100, 64, fun _ => 0, 0, 0, 0, 0, 0⟩,
   ⟨"JOB_INFO3", 0x4003807C, 0x100, 64, fun _ => 0, 0, 0, 0, 0, 0⟩]

/-- Queue windows (R363). -/
def queRows : List RegRow :=
  [
   ⟨"QUE_WPTR", 0x30000014, 0x1000, 320, fun _ => 0, 0, 0, 0, 0, 0⟩,
   ⟨"QUE_RPTR", 0x30000018, 0x1000, 320, fun _ => 0, 0, 0, 0, 0, 0⟩,
   ⟨"QUE_CMD", 0x30000020, 0x1000, 320, fun _ => 0, 0, 0, 0, 0, 0xFFFF0003⟩,
   ⟨"QUE_CFG", 0x30000024, 0x1000, 320, fun _ => 1, 1, 0, 0, 0, 0⟩,
   ⟨"QUE_DROPS", 0x30000028, 0x1000, 320, fun _ => 0, 0, 0, 0, 0xFFFFFFFF, 0⟩,
   ⟨"QUE_ERR", 0x3000002C, 0x1000, 320, fun _ => 0, 0, 0x3F, 0, 0, 0⟩,
   ⟨"QUE_STAT", 0x30000010, 0x1000, 320, fun _ => 0, 0, 0, 0, 0, 0⟩,
   ⟨"QUE_CREDIT", 0x3000001C, 0x1000, 320, fun _ => 0, 0, 0, 0, 0, 0⟩]

/-- QUE control (R364). -/
def qcRows : List RegRow :=
  [
   ⟨"QC_ECC", 0x40040000, 0, 1, fun _ => 0, 0, 0, 0, 0xFFFFFFFF, 0⟩,
   ⟨"QC_ECC_ADDR", 0x40040004, 0, 1, fun _ => 0, 0, 0, 0, 0, 0⟩,
   ⟨"QC_FLUSH", 0x40040008, 0, 1, fun _ => 0, 0, 0, 0, 0, 0xFFFF01FF⟩,
   ⟨"QC_RING", 0x40040400, 4, 320, fun _ => 0, 0, 0, 0, 0, 0⟩]

/-- TIME and the interval meter (R404). -/
def timeRows : List RegRow :=
  [
   ⟨"TIME_CFG", 0x40050000, 0, 1, fun _ => 0x10300000, 0xFFF00017, 0, 0, 0, 0⟩,
   ⟨"TIME_LIMITS", 0x40050004, 0, 1, fun _ => 0x3E8000A, 0xFFFF00FF, 0, 0, 0, 0⟩,
   ⟨"TIME_SRCCFG", 0x40050008, 0, 1, fun _ => 0x1E0A1478, 0xFFFFFFFF, 0, 0, 0, 0⟩,
   ⟨"TIME_PPS_DLY", 0x4005000C, 0, 1, fun _ => 0, 0xFFFF, 0, 0, 0, 0⟩,
   ⟨"TIME_NT_LO", 0x40050010, 0, 1, fun _ => 0, 0, 0, 0, 0, 0⟩,
   ⟨"TIME_NT_HI", 0x40050014, 0, 1, fun _ => 0, 0, 0, 0, 0, 0⟩,
   ⟨"TIME_NTAIR_LO", 0x40050018, 0, 1, fun _ => 0, 0, 0, 0, 0, 0⟩,
   ⟨"TIME_NTAIR_HI", 0x4005001C, 0, 1, fun _ => 0, 0, 0, 0, 0, 0⟩,
   ⟨"TIME_AIR_LO", 0x40050020, 0, 1, fun _ => 0, 0, 0, 0, 0, 0⟩,
   ⟨"TIME_AIR_HI", 0x40050024, 0, 1, fun _ => 0, 0, 0, 0, 0, 0⟩,
   ⟨"TIME_QUAL", 0x40050028, 0, 1, fun _ => 0, 0, 0, 0, 0, 0⟩,
   ⟨"TIME_ERR", 0x4005002C, 0, 1, fun _ => 0xFFFFFFFF, 0, 0, 0, 0, 0⟩,
   ⟨"TIME_OFS", 0x40050030, 0, 1, fun _ => 0, 0, 0, 0, 0, 0⟩,
   ⟨"TIME_FREQ", 0x40050034, 0, 1, fun _ => 0, 0, 0, 0, 0, 0⟩,
   ⟨"TIME_MEAS_OFS", 0x40050038, 0, 1, fun _ => 0, 0xFFFFFFFF, 0, 0, 0, 0⟩,
   ⟨"TIME_MEAS_AT_LO", 0x4005003C, 0, 1, fun _ => 0, 0xFFFFFFFF, 0, 0, 0, 0⟩,
   ⟨"TIME_MEAS_AT_HI", 0x40050040, 0, 1, fun _ => 0, 0xFFFFFFFF, 0, 0, 0, 0⟩,
   ⟨"TIME_SET_LO", 0x40050044, 0, 1, fun _ => 0, 0xFFFFFFFF, 0, 0, 0, 0⟩,
   ⟨"TIME_SET_HI", 0x40050048, 0, 1, fun _ => 0, 0xFFFFFFFF, 0, 0, 0, 0⟩,
   ⟨"TIME_CMD", 0x4005004C, 0, 1, fun _ => 0, 0, 0, 0, 0, 0xFFFF0003⟩,
   ⟨"REF_STAT", 0x40050050, 0, 1, fun _ => 0, 0, 0, 0, 0, 0⟩,
   ⟨"REF_STAB", 0x40050054, 0, 1, fun _ => 0x64, 0, 0, 0, 0, 0⟩,
   ⟨"TIME_PPS", 0x40050058, 0, 1, fun _ => 0xA12, 0x3F33, 0, 0, 0, 0⟩,
   ⟨"TIME_CNT", 0x4005005C, 0, 1, fun _ => 0, 0, 0, 0, 0xFFFFFFFF, 0⟩,
   ⟨"TIME_ERRF", 0x40050060, 0, 1, fun _ => 0, 0, 0xF, 0, 0, 0⟩,
   ⟨"TIME_NOTE", 0x40050064, 0, 1, fun _ => 0, 0, 0x7F, 0, 0, 0⟩,
   ⟨"IM_CMD", 0x40050084, 0, 1, fun _ => 0, 0, 0, 0, 0, 0xFFFF0003⟩,
   ⟨"IM_STAT", 0x40050088, 0, 1, fun _ => 0, 0, 0, 0, 0, 0⟩,
   ⟨"IM_RES_LO", 0x4005008C, 0, 1, fun _ => 0, 0, 0, 0, 0, 0⟩,
   ⟨"IM_RES_HI", 0x40050090, 0, 1, fun _ => 0, 0, 0, 0, 0, 0⟩,
   ⟨"IM_T0_LO", 0x40050094, 0, 1, fun _ => 0, 0, 0, 0, 0, 0⟩,
   ⟨"IM_T0_HI", 0x40050098, 0, 1, fun _ => 0, 0, 0, 0, 0, 0⟩,
   ⟨"IM_CFG", 0x40050080, 0, 1, fun _ => 0x7D00000, 0xFFFFFFFF, 0, 0, 0, 0⟩]

/-- TMR pages (R434). -/
def tmrRows : List RegRow :=
  [
   ⟨"TMR_CTRL", 0x40060000, 0x100, 20, fun _ => 0x4000, 0xFFFF7FFF, 0, 0, 0, 0⟩,
   ⟨"TMR_STAT", 0x40060004, 0x100, 20, fun _ => 0, 0, 6, 0, 0, 0⟩,
   ⟨"TMR_RELOAD_LO", 0x40060008, 0x100, 20, fun _ => 0xFFFFFFFF, 0xFFFFFFFF, 0, 0, 0, 0⟩,
   ⟨"TMR_COUNT_HI", 0x40060014, 0x100, 20, fun _ => 0, 0, 0, 0, 0, 0⟩,
   ⟨"TMR_CMP_LO", 0x40060018, 0x100, 20, fun _ => 0, 0xFFFFFFFF, 0, 0, 0, 0⟩,
   ⟨"TMR_CMP_HI", 0x4006001C, 0x100, 20, fun _ => 0, 0xFFFFFFFF, 0, 0, 0, 0⟩,
   ⟨"TMR_CAP_HI", 0x40060024, 0x100, 20, fun _ => 0, 0, 0, 0, 0, 0⟩,
   ⟨"TMR_CMD", 0x40060028, 0x100, 20, fun _ => 0, 0, 0, 0, 0, 0xFFFF0001⟩,
   ⟨"TMR_NOTE", 0x4006002C, 0x100, 20, fun _ => 0, 0, 0x3F, 0, 0, 0⟩,
   ⟨"TMR_RELOAD_HI", 0x4006000C, 0x100, 20, fun i => (if i < 16 then 0 else 0xFFFFFFFF), 0xFFFFFFFF, 0, 0, 0, 0⟩,
   ⟨"TMR_COUNT_LO", 0x40060010, 0x100, 20, fun _ => 0, 0, 0, 0, 0, 0⟩,
   ⟨"TMR_CAP_LO", 0x40060020, 0x100, 20, fun _ => 0, 0, 0, 0, 0, 0⟩]

/-- Calendar (R435). -/
def calRows : List RegRow :=
  [
   ⟨"CAL_SEC_LO", 0x70000000, 0, 1, fun _ => 0, 0, 0, 0, 0, 0⟩,
   ⟨"CAL_SEC_HI", 0x70000004, 0, 1, fun _ => 0, 0, 0, 0, 0, 0⟩,
   ⟨"CAL_TIME", 0x70000008, 0, 1, fun _ => 0, 0, 0, 0, 0, 0⟩,
   ⟨"CAL_DATE", 0x7000000C, 0, 1, fun _ => 0x6000101, 0, 0, 0, 0, 0⟩,
   ⟨"CAL_SET_TIME", 0x70000010, 0, 1, fun _ => 0, 0x1FFFF, 0, 0, 0, 0⟩,
   ⟨"CAL_SET_DATE", 0x70000014, 0, 1, fun _ => 0x101, 0xFF0F1F, 0, 0, 0, 0⟩,
   ⟨"CAL_NTOFS_LO", 0x70000018, 0, 1, fun _ => 0, 0xFFFFFFFF, 0, 0, 0, 0⟩,
   ⟨"CAL_NTOFS_HI", 0x7000001C, 0, 1, fun _ => 0, 0xFFFFFFFF, 0, 0, 0, 0⟩,
   ⟨"CAL_CMD", 0x70000020, 0, 1, fun _ => 0, 0, 0, 0, 0, 0xFFFF0003⟩,
   ⟨"CAL_STAT", 0x70000024, 0, 1, fun _ => 1, 0, 0, 0, 0, 0⟩,
   ⟨"CAL_CFG", 0x70000028, 0, 1, fun _ => 0x10, 0x1FF1F, 0, 0, 0, 0⟩,
   ⟨"PWR_ON", 0x70000040, 0, 1, fun _ => 0x11, 0x38, 0, 0, 0, 6⟩,
   ⟨"CAL_ALM_T", 0x7000002C, 8, 2, fun _ => 0x1000000, 0x1F1F3F3F, 0, 0, 0, 0⟩,
   ⟨"CAL_ALM_C", 0x70000030, 8, 2, fun _ => 0x101, 0x73F0F07, 0, 0, 0, 0⟩,
   ⟨"CAL_NOTE", 0x7000003C, 0, 1, fun _ => 8, 0, 0x71F, 0, 0, 0⟩]

/-- Knocker (R379). -/
def knkRows : List RegRow :=
  [
   ⟨"KNK_CTRL", 0x70010000, 0, 1, fun _ => 6, 7, 0, 8, 0, 0⟩,
   ⟨"KNK_FREQ", 0x70010004, 0, 1, fun _ => 0xD3EA0, 0xFFFFF, 0, 0, 0, 0⟩,
   ⟨"KNK_WORD", 0x70010008, 0, 1, fun _ => 0, 0xFFFFFFFF, 0, 0, 0, 0⟩,
   ⟨"KNK_ADDR", 0x7001000C, 0, 1, fun _ => 0xFFFE, 0xFFFFFFFF, 0, 0, 0, 0⟩,
   ⟨"KNK_CFG", 0x70010010, 0, 1, fun _ => 0xA, 0xFF, 0, 0, 0, 0⟩,
   ⟨"KNK_STAT", 0x70010014, 0, 1, fun _ => 0, 0, 0, 0, 0, 0⟩,
   ⟨"KNK_LAST", 0x70010018, 0, 1, fun _ => 0, 0, 0, 0, 0, 0⟩,
   ⟨"KNK_CNT0", 0x7001001C, 0, 1, fun _ => 0, 0, 0, 0, 0xFFFFFFFF, 0⟩,
   ⟨"KNK_CNT1", 0x70010020, 0, 1, fun _ => 0, 0, 0, 0, 0xFFFFFFFF, 0⟩,
   ⟨"KNK_CNT2", 0x70010024, 0, 1, fun _ => 0, 0, 0, 0, 0xFFFFFFFF, 0⟩,
   ⟨"KNK_ERR", 0x70010028, 0, 1, fun _ => 0, 0, 7, 0, 0, 0⟩]

/-- LEDG and the watchdog pages (R460). -/
def ledgRows : List RegRow :=
  [
   ⟨"LEDG_CMD", 0x40070000, 0, 1, fun _ => 0, 0, 0, 0, 0, 0xFFFFFC3F⟩,
   ⟨"LEDG_STAT", 0x40070004, 0, 1, fun _ => 0, 0, 0, 0, 0, 0⟩,
   ⟨"LEDG_ERR", 0x40070008, 0, 1, fun _ => 0, 0, 0xF, 0, 0, 0⟩,
   ⟨"LEDG_REFUSE_ST", 0x4007000C, 0, 1, fun _ => 0, 0, 1, 0, 0, 0⟩,
   ⟨"LEDG_REFUSE_ADDR", 0x40070010, 0, 1, fun _ => 0, 0, 0, 0, 0, 0⟩,
   ⟨"LEDG_REFUSE_CNT", 0x40070014, 0, 1, fun _ => 0, 0, 0, 0, 0xFFFFFFFF, 0⟩,
   ⟨"LEDG_CORE", 0x40070030, 4, 4, fun _ => 0x100, 0, 0, 0, 0, 0⟩,
   ⟨"LEDG_WAYS_LO", 0x40070040, 8, 4, fun _ => 0, 0xFFFFFFFF, 0, 0, 0, 0⟩,
   ⟨"LEDG_WAYS_HI", 0x40070044, 8, 4, fun _ => 0, 0xFFFFFFFF, 0, 0, 0, 0⟩,
   ⟨"LEDG_STAGE", 0x40070400, 4, 72, fun _ => 0, 0xFFFFFFFF, 0, 0, 0, 0⟩,
   ⟨"LEDG_CTX", 0x40070800, 8, 64, fun _ => 0, 0xFFFFFC00, 0, 0, 0, 0⟩,
   ⟨"LEDG_ENTRY", 0x40070804, 8, 64, fun _ => 0, 0xFFFFFFFE, 0, 0, 0, 0⟩,
   ⟨"LEDG_RSTAT", 0x40070C00, 4, 64, fun _ => 0, 0, 0, 0, 0, 0⟩,
   ⟨"WDOG_KICK", 0x40074000, 0x100, 64, fun _ => 0, 0, 0, 0, 0, 0xFFFF0000⟩,
   ⟨"WDOG_CFG", 0x40074004, 0x100, 64, fun _ => 0x400, 0x7FFFF, 0, 0, 0, 0⟩,
   ⟨"WDOG_STAT", 0x40074008, 0x100, 64, fun _ => 0, 0, 0x10000, 0, 0, 0⟩]

/-- EVT interfaces and routing mirror (R461). -/
def evtRows : List RegRow :=
  [
   ⟨"EVT_CLAIM", 0x40080000, 0x100, 7, fun _ => 0, 0, 0, 0, 0, 0⟩,
   ⟨"EVT_DONE", 0x40080004, 0x100, 7, fun _ => 0, 0, 0, 0, 0, 0x3FF⟩,
   ⟨"EVT_THRESH", 0x40080008, 0x100, 7, fun _ => 0, 0xF, 0, 0, 0, 0⟩,
   ⟨"EVT_LEVEL", 0x4008000C, 0x100, 7, fun _ => 0, 0, 0, 0, 0, 0⟩,
   ⟨"EVT_ERR", 0x40080010, 0x100, 7, fun _ => 0, 0, 1, 0, 0, 0⟩,
   ⟨"EVT_ROUTE", 0x40081000, 4, 1024, fun _ => 1, 0, 0, 0, 0, 0⟩]

/-- PH block and channel pages (R475). -/
def phRows : List RegRow :=
  [
   ⟨"PH_FORCE", 0x40090000, 0, 1, fun _ => 0, 0, 0, 0, 0, 0xFFFF003F⟩,
   ⟨"PH_HELD_LO", 0x40090004, 0, 1, fun _ => 0, 0, 0, 0, 0, 0⟩,
   ⟨"PH_HELD_HI", 0x40090008, 0, 1, fun _ => 0, 0, 0, 0, 0, 0⟩,
   ⟨"PH_LOCK", 0x40091000, 0x40, 64, fun _ => 0, 0, 0, 0, 0, 0x80000000⟩,
   ⟨"PH_RET", 0x40091004, 0x40, 64, fun _ => 0, 0x7F, 0, 0, 0, 0⟩,
   ⟨"PH_SEND", 0x40091008, 0x40, 64, fun _ => 0, 0, 0, 0, 0, 0xFFFFFFFF⟩,
   ⟨"PH_SEND_END", 0x4009100C, 0x40, 64, fun _ => 0, 0, 0, 0, 0, 0xFFFFFFFF⟩,
   ⟨"PH_RECV", 0x40091010, 0x40, 64, fun _ => 0, 0, 0, 0, 0, 0⟩,
   ⟨"PH_FROM", 0x40091014, 0x40, 64, fun _ => 0, 0, 0, 0, 0, 0⟩,
   ⟨"PH_STAT", 0x40091018, 0x40, 64, fun _ => 0, 0, 0, 0, 0, 0⟩,
   ⟨"PH_ERR", 0x4009101C, 0x40, 64, fun _ => 0, 0, 0x37, 0, 0, 0⟩]

/-- Cipher pages and the common context (R502). -/
def cipRows : List RegRow :=
  [
   ⟨"CIP_CTRL", 0x60000000, 0x1000, 65, fun _ => 0, 0x3F7FFF, 0, 0, 0, 0⟩,
   ⟨"CIP_CMD", 0x60000004, 0x1000, 65, fun _ => 0, 0, 0, 0, 0, 0xFFFF001F⟩,
   ⟨"CIP_STAT", 0x60000008, 0x1000, 65, fun _ => 0, 0, 0, 0, 0, 0⟩,
   ⟨"CIP_LEN", 0x6000000C, 0x1000, 65, fun _ => 0, 0xFFF0FFF, 0, 0, 0, 0⟩,
   ⟨"CIP_FCPOS", 0x60000010, 0x1000, 65, fun _ => 0, 0x800007FF, 0, 0, 0, 0⟩,
   ⟨"CIP_FC", 0x60000014, 0x1000, 65, fun _ => 0, 0, 0, 0, 0, 0⟩,
   ⟨"CIP_IVC_LO", 0x60000018, 0x1000, 65, fun _ => 0, 0, 0, 0, 0, 0⟩,
   ⟨"CIP_IVC_HI", 0x6000001C, 0x1000, 65, fun _ => 0, 0, 0, 0, 0, 0⟩,
   ⟨"CIP_NOTE", 0x60000080, 0x1000, 65, fun _ => 0, 0, 0xF, 0, 0, 0⟩,
   ⟨"CIP_ERR", 0x60000084, 0x1000, 65, fun _ => 0, 0, 7, 0, 0, 0⟩,
   ⟨"CIP_LOCK", 0x600000FC, 0x1000, 65, fun _ => 0, 0, 0, 0, 0, 0x80000000⟩,
   ⟨"CIP_NONCE0", 0x60000020, 0x1000, 65, fun _ => 0, 0xFFFFFFFF, 0, 0, 0, 0⟩,
   ⟨"CIP_NONCE1", 0x60000024, 0x1000, 65, fun _ => 0, 0xFFFFFFFF, 0, 0, 0, 0⟩,
   ⟨"CIP_NONCE2", 0x60000028, 0x1000, 65, fun _ => 0, 0xFFFFFFFF, 0, 0, 0, 0⟩,
   ⟨"CIP_NONCE3", 0x6000002C, 0x1000, 65, fun _ => 0, 0xFFFFFFFF, 0, 0, 0, 0⟩,
   ⟨"CIP_KEY0", 0x60000040, 0x1000, 65, fun _ => 0, 0, 0, 0, 0, 0xFFFFFFFF⟩,
   ⟨"CIP_KEY1", 0x60000044, 0x1000, 65, fun _ => 0, 0, 0, 0, 0, 0xFFFFFFFF⟩,
   ⟨"CIP_KEY2", 0x60000048, 0x1000, 65, fun _ => 0, 0, 0, 0, 0, 0xFFFFFFFF⟩,
   ⟨"CIP_KEY3", 0x6000004C, 0x1000, 65, fun _ => 0, 0, 0, 0, 0, 0xFFFFFFFF⟩,
   ⟨"CIP_KEY4", 0x60000050, 0x1000, 65, fun _ => 0, 0, 0, 0, 0, 0xFFFFFFFF⟩,
   ⟨"CIP_KEY5", 0x60000054, 0x1000, 65, fun _ => 0, 0, 0, 0, 0, 0xFFFFFFFF⟩,
   ⟨"CIP_KEY6", 0x60000058, 0x1000, 65, fun _ => 0, 0, 0, 0, 0, 0xFFFFFFFF⟩,
   ⟨"CIP_KEY7", 0x6000005C, 0x1000, 65, fun _ => 0, 0, 0, 0, 0, 0xFFFFFFFF⟩,
   ⟨"CIP_TAG0", 0x60000060, 0x1000, 65, fun _ => 0, 0xFFFFFFFF, 0, 0, 0, 0⟩,
   ⟨"CIP_TAG1", 0x60000064, 0x1000, 65, fun _ => 0, 0xFFFFFFFF, 0, 0, 0, 0⟩,
   ⟨"CIP_TAG2", 0x60000068, 0x1000, 65, fun _ => 0, 0xFFFFFFFF, 0, 0, 0, 0⟩,
   ⟨"CIP_TAG3", 0x6000006C, 0x1000, 65, fun _ => 0, 0xFFFFFFFF, 0, 0, 0, 0⟩,
   ⟨"CIP_TAG4", 0x60000070, 0x1000, 65, fun _ => 0, 0xFFFFFFFF, 0, 0, 0, 0⟩,
   ⟨"CIP_TAG5", 0x60000074, 0x1000, 65, fun _ => 0, 0xFFFFFFFF, 0, 0, 0, 0⟩,
   ⟨"CIP_TAG6", 0x60000078, 0x1000, 65, fun _ => 0, 0xFFFFFFFF, 0, 0, 0, 0⟩,
   ⟨"CIP_TAG7", 0x6000007C, 0x1000, 65, fun _ => 0, 0xFFFFFFFF, 0, 0, 0, 0⟩]

/-- CIP control (R508). -/
def cipCtlRows : List RegRow :=
  [
   ⟨"CIP_CFG", 0x400A0000, 0, 1, fun _ => 0xC8, 0xFFFF, 0, 0, 0, 0⟩,
   ⟨"CIP_CSTAT", 0x400A0004, 0, 1, fun _ => 0, 0, 0, 0, 0, 0⟩,
   ⟨"CIP_CFORCE", 0x400A0008, 0, 1, fun _ => 0, 0, 0, 0, 0, 0xFFFF0001⟩,
   ⟨"CIP_BUSY_LO", 0x400A000C, 0, 1, fun _ => 0, 0, 0, 0, 0, 0⟩,
   ⟨"CIP_BUSY_HI", 0x400A0010, 0, 1, fun _ => 0, 0, 0, 0, 0, 0⟩,
   ⟨"CIP_BUSY_X", 0x400A0014, 0, 1, fun _ => 0, 0, 0, 0, 0, 0⟩]

/-- KEY, PK and the key ports (R534). -/
def keyRows : List RegRow :=
  [
   ⟨"KEY_LIFE", 0x400B0000, 0, 1, fun _ => 0, 0, 0, 0, 0, 0⟩,
   ⟨"KEY_STAT", 0x400B0004, 0, 1, fun _ => 0, 0, 0, 0, 0, 0⟩,
   ⟨"KEY_ERR", 0x400B0008, 0, 1, fun _ => 0, 0, 7, 0, 0, 0⟩,
   ⟨"KEY_LIFE_CMD", 0x400B000C, 0, 1, fun _ => 0, 0, 0, 0, 0, 0xFFFF0003⟩,
   ⟨"PK_CMD", 0x400B1000, 0, 1, fun _ => 0, 0, 0, 0, 0, 0xFFFF0003⟩,
   ⟨"PK_STAT", 0x400B1004, 0, 1, fun _ => 0, 0, 0x100, 0, 0, 0⟩,
   ⟨"UNIT_ID", 0x400B0010, 4, 4, fun i => (Config.unitId i).toNat, 0, 0, 0, 0, 0⟩,
   ⟨"OWNER_PUB", 0x400B0100, 4, 16, fun _ => 0, 0, 0, 0, 0, 0⟩,
   ⟨"OWN_STAGE", 0x400B0200, 4, 32, fun _ => 0, 0xFFFFFFFF, 0, 0, 0, 0⟩,
   ⟨"KEY_SLOT", 0x400B0400, 4, 128, fun _ => 0, 0, 0, 0, 0, 0⟩,
   ⟨"PK_BUF", 0x400B1100, 4, 64, fun _ => 0, 0xFFFFFFFF, 0, 0, 0, 0⟩,
   ⟨"KP_CMD", 0x400B8000, 0x100, 64, fun _ => 0, 0, 0, 0, 0, 0xFFFFF3F0⟩,
   ⟨"KP_RES", 0x400B8004, 0x100, 64, fun _ => 0, 0, 0, 0, 0, 0⟩,
   ⟨"KP_ARG", 0x400B8008, 0x100, 64, fun _ => 0, 0x1FF, 0, 0, 0, 0⟩,
   ⟨"KP_LABEL0", 0x400B8010, 0x100, 64, fun _ => 0, 0xFFFFFFFF, 0, 0, 0, 0⟩,
   ⟨"KP_LABEL1", 0x400B8014, 0x100, 64, fun _ => 0, 0xFFFFFFFF, 0, 0, 0, 0⟩,
   ⟨"KP_LABEL2", 0x400B8018, 0x100, 64, fun _ => 0, 0xFFFFFFFF, 0, 0, 0, 0⟩,
   ⟨"KP_LABEL3", 0x400B801C, 0x100, 64, fun _ => 0, 0xFFFFFFFF, 0, 0, 0, 0⟩,
   ⟨"KP_KEY0", 0x400B8020, 0x100, 64, fun _ => 0, 0, 0, 0, 0, 0xFFFFFFFF⟩,
   ⟨"KP_KEY1", 0x400B8024, 0x100, 64, fun _ => 0, 0, 0, 0, 0, 0xFFFFFFFF⟩,
   ⟨"KP_KEY2", 0x400B8028, 0x100, 64, fun _ => 0, 0, 0, 0, 0, 0xFFFFFFFF⟩,
   ⟨"KP_KEY3", 0x400B802C, 0x100, 64, fun _ => 0, 0, 0, 0, 0, 0xFFFFFFFF⟩,
   ⟨"KP_KEY4", 0x400B8030, 0x100, 64, fun _ => 0, 0, 0, 0, 0, 0xFFFFFFFF⟩,
   ⟨"KP_KEY5", 0x400B8034, 0x100, 64, fun _ => 0, 0, 0, 0, 0, 0xFFFFFFFF⟩,
   ⟨"KP_KEY6", 0x400B8038, 0x100, 64, fun _ => 0, 0, 0, 0, 0, 0xFFFFFFFF⟩,
   ⟨"KP_KEY7", 0x400B803C, 0x100, 64, fun _ => 0, 0, 0, 0, 0, 0xFFFFFFFF⟩,
   ⟨"KP_ID_LO", 0x400B8040, 0x100, 64, fun _ => 0, 0xFFFFFFFF, 0, 0, 0, 0⟩,
   ⟨"KP_ID_HI", 0x400B8044, 0x100, 64, fun _ => 0, 0xFFFFFFFF, 0, 0, 0, 0⟩,
   ⟨"KP_MEAS_IMG0", 0x400B8060, 0x100, 64, fun _ => 0, 0, 0, 0, 0, 0⟩,
   ⟨"KP_MEAS_IMG1", 0x400B8064, 0x100, 64, fun _ => 0, 0, 0, 0, 0, 0⟩,
   ⟨"KP_MEAS_IMG2", 0x400B8068, 0x100, 64, fun _ => 0, 0, 0, 0, 0, 0⟩,
   ⟨"KP_MEAS_IMG3", 0x400B806C, 0x100, 64, fun _ => 0, 0, 0, 0, 0, 0⟩,
   ⟨"KP_MEAS_IMG4", 0x400B8070, 0x100, 64, fun _ => 0, 0, 0, 0, 0, 0⟩,
   ⟨"KP_MEAS_IMG5", 0x400B8074, 0x100, 64, fun _ => 0, 0, 0, 0, 0, 0⟩,
   ⟨"KP_MEAS_IMG6", 0x400B8078, 0x100, 64, fun _ => 0, 0, 0, 0, 0, 0⟩,
   ⟨"KP_MEAS_IMG7", 0x400B807C, 0x100, 64, fun _ => 0, 0, 0, 0, 0, 0⟩,
   ⟨"KP_MEAS_SGN0", 0x400B8080, 0x100, 64, fun _ => 0, 0, 0, 0, 0, 0⟩,
   ⟨"KP_MEAS_SGN1", 0x400B8084, 0x100, 64, fun _ => 0, 0, 0, 0, 0, 0⟩,
   ⟨"KP_MEAS_SGN2", 0x400B8088, 0x100, 64, fun _ => 0, 0, 0, 0, 0, 0⟩,
   ⟨"KP_MEAS_SGN3", 0x400B808C, 0x100, 64, fun _ => 0, 0, 0, 0, 0, 0⟩,
   ⟨"KP_MEAS_SGN4", 0x400B8090, 0x100, 64, fun _ => 0, 0, 0, 0, 0, 0⟩,
   ⟨"KP_MEAS_SGN5", 0x400B8094, 0x100, 64, fun _ => 0, 0, 0, 0, 0, 0⟩,
   ⟨"KP_MEAS_SGN6", 0x400B8098, 0x100, 64, fun _ => 0, 0, 0, 0, 0, 0⟩,
   ⟨"KP_MEAS_SGN7", 0x400B809C, 0x100, 64, fun _ => 0, 0, 0, 0, 0, 0⟩]

/-- RNG (R535). -/
def rngRows : List RegRow :=
  [
   ⟨"RNG_DATA", 0x400C0000, 0, 1, fun _ => 0, 0, 0, 0, 0, 0⟩,
   ⟨"RNG_STAT", 0x400C0004, 0, 1, fun _ => 0, 0, 0, 0, 0, 0⟩,
   ⟨"RNG_CMD", 0x400C0008, 0, 1, fun _ => 0, 0, 0, 0, 0, 0xFFFF0001⟩,
   ⟨"RNG_CNT", 0x400C000C, 0, 1, fun _ => 0, 0, 0, 0, 0xFFFFFFFF, 0⟩]

/-- Tamper (R536). -/
def tampRows : List RegRow :=
  [
   ⟨"TAMP_CFG", 0x70020000, 0, 1, fun _ => 0, 0xFFFF, 0, 0x80000000, 0, 0⟩,
   ⟨"TAMP_LOOP", 0x70020004, 0, 1, fun _ => 0x220, 0xFFFF, 0, 0, 0, 0⟩,
   ⟨"TAMP_STAT", 0x70020008, 0, 1, fun _ => 0, 0, 0x4FF, 0, 0, 0⟩,
   ⟨"TAMP_TIME_LO", 0x7002000C, 0, 1, fun _ => 0, 0, 0, 0, 0, 0⟩,
   ⟨"TAMP_TIME_HI", 0x70020010, 0, 1, fun _ => 0, 0, 0, 0, 0, 0⟩]

/-- FLC and its command ports (R559). -/
def flcRows : List RegRow :=
  [
   ⟨"FLC_CFG", 0x400D0000, 0, 1, fun _ => 0x510, 0xF1D, 0, 0, 0, 0⟩,
   ⟨"FLC_STAT", 0x400D0004, 0, 1, fun _ => 8, 0, 0, 0, 0, 0⟩,
   ⟨"FLC_NOTE", 0x400D0008, 0, 1, fun _ => 0, 0, 0x3F, 0, 0, 0⟩,
   ⟨"FLC_ERR", 0x400D000C, 0, 1, fun _ => 0, 0, 7, 0, 0, 0⟩,
   ⟨"FLC_ECC", 0x400D0010, 0, 1, fun _ => 0, 0, 0, 0, 0xFFFFFFFF, 0⟩,
   ⟨"FLC_CORR_ADDR", 0x400D0014, 0, 1, fun _ => 0, 0, 0, 0, 0, 0⟩,
   ⟨"FLC_UNC_ADDR", 0x400D0018, 0, 1, fun _ => 0, 0, 0, 0, 0, 0⟩,
   ⟨"FLC_LOCK", 0x400D001C, 0, 1, fun _ => 0, 0, 0, 1, 0, 0⟩,
   ⟨"FLC_SUSP", 0x400D0020, 0, 1, fun _ => 0, 0, 0, 0, 0, 0xFFFF0103⟩,
   ⟨"FLC_WEAR", 0x400D0024, 0, 1, fun _ => 0x3E8, 0xFFFFFF, 0, 0, 0, 0⟩,
   ⟨"FLC_WEAR_LAST", 0x400D0028, 0, 1, fun _ => 0, 0, 0, 0, 0, 0⟩,
   ⟨"FLC_ECNT", 0x400D4000, 4, 1024, fun _ => 0, 0, 0, 0, 0, 0⟩,
   ⟨"FP_ADDR", 0x400D8000, 0x100, 64, fun _ => 0, 0xFFFFFFFF, 0, 0, 0, 0⟩,
   ⟨"FP_CMD", 0x400D8040, 0x100, 64, fun _ => 0, 0, 0, 0, 0, 0xFFFF0003⟩,
   ⟨"FP_STAT", 0x400D8044, 0x100, 64, fun _ => 0, 0, 0x100, 0, 0, 0⟩,
   ⟨"FP_DATA0", 0x400D8020, 0x100, 64, fun _ => 0xFFFFFFFF, 0xFFFFFFFF, 0, 0, 0, 0⟩,
   ⟨"FP_DATA1", 0x400D8024, 0x100, 64, fun _ => 0xFFFFFFFF, 0xFFFFFFFF, 0, 0, 0, 0⟩,
   ⟨"FP_DATA2", 0x400D8028, 0x100, 64, fun _ => 0xFFFFFFFF, 0xFFFFFFFF, 0, 0, 0, 0⟩,
   ⟨"FP_DATA3", 0x400D802C, 0x100, 64, fun _ => 0xFFFFFFFF, 0xFFFFFFFF, 0, 0, 0, 0⟩,
   ⟨"FP_DATA4", 0x400D8030, 0x100, 64, fun _ => 0xFFFFFFFF, 0xFFFFFFFF, 0, 0, 0, 0⟩,
   ⟨"FP_DATA5", 0x400D8034, 0x100, 64, fun _ => 0xFFFFFFFF, 0xFFFFFFFF, 0, 0, 0, 0⟩,
   ⟨"FP_DATA6", 0x400D8038, 0x100, 64, fun _ => 0xFFFFFFFF, 0xFFFFFFFF, 0, 0, 0, 0⟩,
   ⟨"FP_DATA7", 0x400D803C, 0x100, 64, fun _ => 0xFFFFFFFF, 0xFFFFFFFF, 0, 0, 0, 0⟩]

/-- UPD (R577). -/
def updRows : List RegRow :=
  [
   ⟨"UPD_CMD", 0x400E0000, 0, 1, fun _ => 0, 0, 0, 0, 0, 0xFFFF0F3F⟩,
   ⟨"UPD_STAT", 0x400E0004, 0, 1, fun _ => 0, 0, 0, 0, 0, 0⟩,
   ⟨"UPD_ERR", 0x400E0008, 0, 1, fun _ => 0, 0, 7, 0, 0, 0⟩,
   ⟨"UPD_STG_BASE", 0x400E000C, 0, 1, fun _ => 0, 0xFFFFF000, 0, 0, 0, 0⟩,
   ⟨"UPD_STG_SIZE", 0x400E0010, 0, 1, fun _ => 0, 0xFFFFF000, 0, 0, 0, 0⟩,
   ⟨"UPD_SRC", 0x400E0014, 0, 1, fun _ => 0, 0xFFFFFFFC, 0, 0, 0, 0⟩,
   ⟨"UPD_LEN", 0x400E0018, 0, 1, fun _ => 0, 0xFFFFFF, 0, 0, 0, 0⟩,
   ⟨"UPD_LOADED", 0x400E001C, 0, 1, fun _ => 0, 0, 0, 0, 0, 0⟩,
   ⟨"UPD_RFREQ", 0x400E0030, 0, 1, fun _ => 0, 0x3FFFFF, 0, 0, 0, 0⟩,
   ⟨"UPD_RCFG", 0x400E002C, 0, 1, fun _ => 0x38, 0x1FF, 0, 0, 0, 0⟩,
   ⟨"UPD_FLOOR_PORTER", 0x400E0020, 0, 1, fun _ => 0, 0, 0, 0, 0, 0⟩,
   ⟨"UPD_FLOOR_HOUSE", 0x400E0024, 0, 1, fun _ => 0, 0, 0, 0, 0, 0⟩,
   ⟨"UPD_FLOOR_PLAN", 0x400E0028, 0, 1, fun _ => 0, 0, 0, 0, 0, 0⟩,
   ⟨"UPD_FLOOR_ROOM", 0x400E0100, 4, 64, fun _ => 0, 0, 0, 0, 0, 0⟩,
   ⟨"UPD_ROOMST", 0x400E0200, 4, 64, fun _ => 0, 0, 0, 0, 0, 0⟩,
   ⟨"UPD_SIGNER", 0x400E0400, 4, 512, fun _ => 0, 0xFFFFFFFF, 0, 0, 0, 0⟩,
   ⟨"UPD_HDR", 0x400E1000, 4, 64, fun _ => 0, 0xFFFFFFFF, 0, 0, 0, 0⟩]

/-- PWR (R600). -/
def pwrRows : List RegRow :=
  [
   ⟨"PWR_MODE", 0x400F0000, 0, 1, fun _ => 0, 7, 0, 0, 0, 0xFFFF0000⟩,
   ⟨"PWR_STAT", 0x400F0004, 0, 1, fun _ => 0, 0, 0, 0, 0, 0⟩,
   ⟨"PWR_HS", 0x400F0008, 0, 1, fun _ => 0, 0, 0, 0, 0, 0⟩,
   ⟨"PWR_CFG", 0x400F000C, 0, 1, fun _ => 0x1408, 0xFF0F, 0, 0, 0, 0⟩,
   ⟨"PWR_GATE", 0x400F0010, 0, 1, fun _ => 0, 0x1FFFFFF, 0, 0, 0, 0⟩,
   ⟨"PWR_VCFG", 0x400F0014, 0, 1, fun _ => 0x3E8010A, 0xFFFF011F, 0, 0, 0, 0⟩,
   ⟨"PWR_VSTAT", 0x400F0018, 0, 1, fun _ => 0xA0A0A, 0, 0, 0, 0, 0⟩,
   ⟨"PWR_LCACK", 0x400F001C, 0, 1, fun _ => 0, 3, 0, 0, 0, 0xFFFF0000⟩,
   ⟨"PWR_ERR", 0x400F0020, 0, 1, fun _ => 0, 0, 0x1F, 0, 0, 0⟩,
   ⟨"PWR_NOTE", 0x400F0024, 0, 1, fun _ => 0, 0, 0xF, 0, 0, 0⟩,
   ⟨"PWR_DOM0", 0x400F0028, 0, 1, fun _ => 0xFFFFFFFD, 0, 0, 0, 0, 0⟩,
   ⟨"PWR_DOM1", 0x400F002C, 0, 1, fun _ => 0x3FF, 0, 0, 0, 0, 0⟩,
   ⟨"PWR_DOM2", 0x400F0030, 0, 1, fun _ => 0xFC00, 0, 0, 0, 0, 0⟩]

/-- Wake, PMBus, last gasp and reset registers (R601, R625, R666). -/
def wakeRows : List RegRow :=
  [
   ⟨"PMB_CFG", 0x70030000, 0, 1, fun _ => 0x6428340, 0xFFFFF77F, 0, 0, 0, 0⟩,
   ⟨"PMB_STAT", 0x70030004, 0, 1, fun _ => 0, 0, 0, 0, 0, 0⟩,
   ⟨"PMB_LAST", 0x70030008, 0, 1, fun _ => 0, 0, 0, 0, 0, 0⟩,
   ⟨"PMB_CNT", 0x7003000C, 0, 1, fun _ => 0, 0, 0, 0, 0xFFFFFFFF, 0⟩,
   ⟨"WAKE_CFG", 0x70030010, 0, 1, fun _ => 0x10, 0x1F, 0, 0, 0, 0⟩,
   ⟨"WAKE_LAST_A", 0x70030014, 0, 1, fun _ => 0, 0, 0, 0, 0, 0⟩,
   ⟨"WAKE_LAST_B", 0x70030018, 0, 1, fun _ => 0, 0, 0, 0, 0, 0⟩,
   ⟨"WAKE_HIST_A", 0x70030040, 8, 8, fun _ => 0, 0, 0, 0, 0, 0⟩,
   ⟨"WAKE_HIST_B", 0x70030044, 8, 8, fun _ => 0, 0, 0, 0, 0, 0⟩,
   ⟨"LG_CFG", 0x70030100, 0, 1, fun _ => 0xA01, 0xFFFF, 0, 0, 0, 0⟩,
   ⟨"LG_VH", 0x70030104, 0, 1, fun _ => 0x38401F4, 0x7FF07FF, 0, 0, 0, 0⟩,
   ⟨"LG_STAT", 0x70030108, 0, 1, fun _ => 0, 0, 0, 0, 0, 0⟩,
   ⟨"LG_E", 0x7003010C, 0, 1, fun _ => 0, 0, 0, 0, 0, 0⟩,
   ⟨"LG_T_LO", 0x70030110, 0, 1, fun _ => 0, 0, 0, 0, 0, 0⟩,
   ⟨"LG_T_HI", 0x70030114, 0, 1, fun _ => 0, 0, 0, 0, 0, 0⟩,
   ⟨"LG_SET", 0x70030180, 4, 32, fun _ => 0, 0, 0, 0, 0, 0⟩,
   ⟨"LG_RING", 0x70030200, 4, 64, fun _ => 0, 0, 0, 0, 0, 0⟩,
   ⟨"RST_STAT", 0x70030300, 0, 1, fun _ => 0, 0, 0, 0, 0, 0⟩,
   ⟨"RST_SEEN", 0x70030304, 0, 1, fun _ => 1, 0, 0x3FF, 0, 0, 0⟩,
   ⟨"RST_CMD", 0x70030308, 0, 1, fun _ => 0, 0, 0, 0, 0, 0xFFFF0001⟩,
   ⟨"RST_STAGE", 0x7003030C, 0, 1, fun _ => 0, 0xF, 0, 0, 0, 0⟩]

/-- SUP and its channel pages (R624). -/
def supRows : List RegRow :=
  [
   ⟨"SUP_CTRL", 0x40100000, 0, 1, fun _ => 0, 0x310F, 0, 0, 0, 0⟩,
   ⟨"SUP_F10", 0x40100004, 0, 1, fun _ => 0, 0, 0, 0, 0, 0⟩,
   ⟨"SUP_REC0", 0x40100010, 0, 1, fun _ => 0, 0, 0, 0, 0, 0⟩,
   ⟨"SUP_REC1", 0x40100014, 0, 1, fun _ => 0, 0, 0, 0, 0, 0⟩,
   ⟨"SUP_REC2", 0x40100018, 0, 1, fun _ => 0, 0, 0, 0, 0, 0⟩,
   ⟨"SUP_REC3", 0x4010001C, 0, 1, fun _ => 0, 0, 0, 0, 0, 0⟩,
   ⟨"SUP_RECST", 0x40100020, 0, 1, fun _ => 0, 0, 0, 0, 0xFF00, 0⟩,
   ⟨"SUP_NOTE", 0x40100024, 0, 1, fun _ => 0, 0, 0xFF, 0, 0, 0⟩,
   ⟨"SUP_ERR", 0x40100028, 0, 1, fun _ => 0, 0, 3, 0, 0, 0⟩,
   ⟨"SUP_CFG", 0x40100100, 0x40, 4, fun _ => 0x1400A282, 0xFFFFFFF3, 0, 0, 0, 0⟩,
   ⟨"SUP_NOM", 0x40100104, 0x40, 4, fun _ => 0x400000, 0x7FFFFF, 0, 0, 0, 0⟩,
   ⟨"SUP_TH", 0x40100108, 0x40, 4, fun _ => 0xDCB41404, 0xFFFFFFFF, 0, 0, 0, 0⟩,
   ⟨"SUP_STAT", 0x4010010C, 0x40, 4, fun _ => 0, 0, 0, 0, 0, 0⟩,
   ⟨"SUP_RMS", 0x40100110, 0x40, 4, fun _ => 0, 0, 0, 0, 0, 0⟩,
   ⟨"SUP_FREQ", 0x40100114, 0x40, 4, fun _ => 0, 0, 0, 0, 0, 0⟩,
   ⟨"SUP_ZC_LO", 0x40100118, 0x40, 4, fun _ => 0, 0, 0, 0, 0, 0⟩,
   ⟨"SUP_ZC_HI", 0x4010011C, 0x40, 4, fun _ => 0, 0, 0, 0, 0, 0⟩,
   ⟨"SUP_SAMPLE", 0x40100120, 0x40, 4, fun _ => 0, 0, 0, 0, 0, 0⟩]

/-- HOST (R650). -/
def hostRows : List RegRow :=
  [
   ⟨"HOST_CTRL", 0x40110000, 0, 1, fun _ => 0x1F40000, 0xFFFF0001, 0, 0, 0, 0⟩,
   ⟨"HOST_STAT", 0x40110004, 0, 1, fun _ => 0, 0, 0, 0, 0, 0⟩,
   ⟨"HOST_FILL", 0x40110008, 0, 1, fun _ => 0, 0, 0, 0, 0, 0⟩,
   ⟨"HOST_IN_HDR", 0x4011000C, 0, 1, fun _ => 0, 0, 0, 0, 0, 0⟩,
   ⟨"HOST_IN_DATA", 0x40110010, 0, 1, fun _ => 0, 0, 0, 0, 0, 0⟩,
   ⟨"HOST_OUT_DATA", 0x40110014, 0, 1, fun _ => 0, 0, 0, 0, 0, 0xFFFFFFFF⟩,
   ⟨"HOST_OUT_CMD", 0x40110018, 0, 1, fun _ => 0, 0, 0, 0, 0, 0xFFFFC1FF⟩,
   ⟨"HOST_NOTE", 0x4011001C, 0, 1, fun _ => 0, 0, 0x1F, 0, 0, 0⟩,
   ⟨"HOST_ERR", 0x40110020, 0, 1, fun _ => 0, 0, 0xF, 0, 0, 0⟩]

/-- UART (R651). -/
def uartRows : List RegRow :=
  [
   ⟨"UART_CFG", 0x40120000, 0x100, 2, fun _ => 0x1A0B0000, 0xFFFF00FB, 0, 0, 0, 0⟩,
   ⟨"UART_DATA", 0x40120004, 0x100, 2, fun _ => 0, 0, 0, 0, 0, 0⟩,
   ⟨"UART_STAT", 0x40120008, 0x100, 2, fun _ => 0, 0, 0, 0, 0, 0⟩,
   ⟨"UART_NOTE", 0x4012000C, 0x100, 2, fun _ => 0, 0, 0x3F, 0, 0, 0⟩,
   ⟨"UART_TH", 0x40120010, 0x100, 2, fun _ => 1, 0x3F, 0, 0, 0, 0⟩,
   ⟨"UART_OWN", 0x40120F00, 0, 1, fun _ => 0, 0x3F3F, 0, 0, 0, 0⟩]

/-- I2C (R651). -/
def i2cRows : List RegRow :=
  [
   ⟨"I2C_CFG", 0x40130000, 0x100, 2, fun _ => 0xEF0000, 0xFFF0001, 0, 0, 0, 0⟩,
   ⟨"I2C_CMD", 0x40130004, 0x100, 2, fun _ => 0, 0, 0, 0, 0, 0x7FF⟩,
   ⟨"I2C_RX", 0x40130008, 0x100, 2, fun _ => 0, 0, 0, 0, 0, 0⟩,
   ⟨"I2C_STAT", 0x4013000C, 0x100, 2, fun _ => 0, 0, 0, 0, 0, 0⟩,
   ⟨"I2C_NOTE", 0x40130010, 0x100, 2, fun _ => 0, 0, 0x1F, 0, 0, 0⟩,
   ⟨"I2C_OWN", 0x40130F00, 0, 1, fun _ => 0, 0x3F3F, 0, 0, 0, 0⟩]

/-- GPIO (R652). -/
def gpioRows : List RegRow :=
  [
   ⟨"GPIO_OWN", 0x40140000, 4, 8, fun _ => 0, 0xFFFFFFFF, 0, 0, 0, 0⟩,
   ⟨"GPIO_HOLD", 0x40140020, 0, 1, fun _ => 0, 0, 0, 3, 0, 0⟩,
   ⟨"GPIO_PIN", 0x40140100, 4, 64, fun _ => 0, 0xFD, 0, 0, 0, 0⟩,
   ⟨"GPIO_IN", 0x40140400, 0x10, 4, fun _ => 0, 0, 0, 0, 0, 0⟩,
   ⟨"GPIO_OUT", 0x40140404, 0x10, 4, fun _ => 0, 0xFFFF, 0, 0, 0, 0⟩,
   ⟨"GPIO_SET", 0x40140408, 0x10, 4, fun _ => 0, 0, 0, 0, 0, 0xFFFF⟩,
   ⟨"GPIO_CLR", 0x4014040C, 0x10, 4, fun _ => 0, 0, 0, 0, 0, 0xFFFF⟩,
   ⟨"GPIO_NOTE", 0x40140500, 4, 4, fun _ => 0, 0, 0xFFFF, 0, 0, 0⟩]

/-- DBG (R653). -/
def dbgRows : List RegRow :=
  [
   ⟨"DBG_STAT", 0x40150000, 0, 1, fun _ => 0, 0, 0, 0, 0, 0⟩,
   ⟨"DBG_LOCK", 0x40150004, 0, 1, fun _ => 0, 0, 0, 0, 0, 0xFFFF0000⟩,
   ⟨"DBG_CONSENT", 0x40150100, 4, 64, fun _ => 0, 1, 0, 0, 0, 0⟩]

/-- FAB control (R237). -/
def fabRows : List RegRow :=
  [
   ⟨"FAB_CTRL", 0x40160000, 0, 1, fun _ => 1, 1, 0, 0, 0, 0⟩,
   ⟨"FAB_CMD", 0x40160004, 0, 1, fun _ => 0, 0, 0, 0, 0, 0xFFFF1F17⟩,
   ⟨"FAB_PLAN_STAT", 0x40160008, 0, 1, fun _ => 0, 0, 0, 0, 0, 0⟩,
   ⟨"FAB_DOMAINS", 0x40160014, 0, 1, fun _ => 0, 0, 0, 0, 0, 0⟩,
   ⟨"FAB_FAULT", 0x40160018, 0, 1, fun _ => 0, 0, 0, 0, 0, 0⟩,
   ⟨"FAB_LIMITS", 0x4016001C, 0, 1, fun _ => 0x2000, 0, 0, 0, 0, 0⟩,
   ⟨"FAB_SLACK", 0x40160020, 0, 1, fun _ => 0, 0, 0, 0, 0x7F, 0⟩,
   ⟨"FAB_OVR_CNT", 0x40160024, 0, 1, fun _ => 0, 0, 0, 0, 0, 0⟩,
   ⟨"FAB_SCRUB", 0x40160028, 0, 1, fun _ => 0, 0, 0, 0, 0, 0⟩,
   ⟨"FAB_SCRUB_LAST", 0x4016002C, 0, 1, fun _ => 0, 0, 0, 0, 0, 0⟩,
   ⟨"FAB_ERR", 0x40160030, 0, 1, fun _ => 0, 0, 0x7F, 0, 0, 0⟩,
   ⟨"FAB_FP_LO", 0x40160060, 0, 1, fun _ => 0, 0, 0, 0, 0, 0⟩,
   ⟨"FAB_FP_HI", 0x40160064, 0, 1, fun _ => 0, 0, 0, 0, 0, 0⟩,
   ⟨"FAB_SEQ", 0x4016000C, 4, 2, fun _ => 0, 0, 0, 0, 0, 0⟩,
   ⟨"FAB_DIGEST", 0x40160040, 4, 8, fun _ => 0, 0, 0, 0, 0, 0⟩]

/-- Lane pages (R287). -/
def laneRows : List RegRow :=
  [
   ⟨"LANE_CTRL", 0x50000004, 0x100, 256, fun _ => 0xA00, 0xF07, 0, 0, 0, 0⟩,
   ⟨"LANE_CMD", 0x50000008, 0x100, 256, fun _ => 0, 0, 0, 0, 0, 0xFFFF0003⟩,
   ⟨"LANE_STAT", 0x5000000C, 0x100, 256, fun _ => 0, 0, 0, 0, 0, 0⟩,
   ⟨"LANE_CHAN", 0x50000010, 0x100, 256, fun _ => 0, 0, 0, 0, 0, 0⟩,
   ⟨"LANE_FINE", 0x50000014, 0x100, 256, fun _ => 0, 0, 0, 0, 0, 0⟩,
   ⟨"LANE_TUNE_CH", 0x50000018, 0x100, 256, fun _ => 0, 0x600003FF, 0, 0, 0, 0x80000000⟩,
   ⟨"LANE_TUNE_FINE", 0x5000001C, 0x100, 256, fun _ => 0, 0xFFFFFFFF, 0, 0, 0, 0⟩,
   ⟨"LANE_TUNE_IDX_LO", 0x50000020, 0x100, 256, fun _ => 0, 0xFFFFFFFF, 0, 0, 0, 0⟩,
   ⟨"LANE_TUNE_IDX_HI", 0x50000024, 0x100, 256, fun _ => 0, 0xFFFF, 0, 0, 0, 0⟩,
   ⟨"LANE_MOVE", 0x50000028, 0x100, 256, fun _ => 0, 0, 0, 0, 0, 0xFFFF00FF⟩,
   ⟨"LANE_MOVE_IDX_LO", 0x5000002C, 0x100, 256, fun _ => 0, 0xFFFFFFFF, 0, 0, 0, 0⟩,
   ⟨"LANE_MOVE_IDX_HI", 0x50000030, 0x100, 256, fun _ => 0, 0xFFFF, 0, 0, 0, 0⟩,
   ⟨"LANE_DET", 0x50000034, 0x100, 256, fun _ => 0x8070, 0xFFFFF, 0, 0, 0, 0⟩,
   ⟨"LANE_MODE", 0x50000038, 0x100, 256, fun _ => 0xC00, 0xF00, 0, 0, 0, 0⟩,
   ⟨"LANE_DFE", 0x5000003C, 0x100, 256, fun _ => 0x10896, 0x1FFFF, 0, 0, 0, 0⟩,
   ⟨"LANE_ED", 0x50000040, 0x100, 256, fun _ => 0, 0, 0, 0, 0, 0⟩,
   ⟨"LANE_FLOOR", 0x50000044, 0x100, 256, fun _ => 0, 0, 0, 0, 0, 0⟩,
   ⟨"LAST_ST", 0x50000048, 0x100, 256, fun _ => 0, 0, 0, 0, 0, 0⟩,
   ⟨"LAST_Q", 0x5000004C, 0x100, 256, fun _ => 0, 0, 0, 0, 0, 0⟩,
   ⟨"LAST_Q2", 0x50000050, 0x100, 256, fun _ => 0, 0, 0, 0, 0, 0⟩,
   ⟨"LAST_FOFS", 0x50000054, 0x100, 256, fun _ => 0, 0, 0, 0, 0, 0⟩,
   ⟨"LAST_SFD_LO", 0x50000058, 0x100, 256, fun _ => 0, 0, 0, 0, 0, 0⟩,
   ⟨"LAST_SFD_HI", 0x5000005C, 0x100, 256, fun _ => 0, 0, 0, 0, 0, 0⟩,
   ⟨"LANE_CNT0", 0x50000060, 0x100, 256, fun _ => 0, 0, 0, 0, 0xFFFFFFFF, 0⟩,
   ⟨"LANE_CNT1", 0x50000064, 0x100, 256, fun _ => 0, 0, 0, 0, 0xFFFFFFFF, 0⟩,
   ⟨"LANE_TMAX", 0x50000068, 0x100, 256, fun _ => 0, 0, 0, 0, 0, 0⟩,
   ⟨"LANE_ERR", 0x5000006C, 0x100, 256, fun _ => 0, 0, 0x7F, 0, 0, 0⟩,
   ⟨"LANE_NOTE", 0x50000070, 0x100, 256, fun _ => 0, 0, 7, 0, 0, 0⟩,
   ⟨"LANE_ID", 0x50000000, 0x100, 256, fun i => i, 0, 0, 0, 0, 0⟩]

/-- The rows of the 64 KiB block that holds the address (R40). -/
def blockRows (blk : Nat) : List RegRow :=
  if blk ≤ 0x3013 then queRows
  else match blk with
  | 0x4000 => feRows
  | 0x4001 => feRows
  | 0x4002 => chzRows
  | 0x4003 => linkRows
  | 0x4004 => qcRows
  | 0x4005 => timeRows
  | 0x4006 => tmrRows
  | 0x4007 => ledgRows
  | 0x4008 => evtRows
  | 0x4009 => phRows
  | 0x400A => cipCtlRows
  | 0x400B => keyRows
  | 0x400C => rngRows
  | 0x400D => flcRows
  | 0x400E => updRows
  | 0x400F => pwrRows
  | 0x4010 => supRows
  | 0x4011 => hostRows
  | 0x4012 => uartRows
  | 0x4013 => i2cRows
  | 0x4014 => gpioRows
  | 0x4015 => dbgRows
  | 0x4016 => fabRows
  | 0x5000 => laneRows
  | 0x7000 => calRows
  | 0x7001 => knkRows
  | 0x7002 => tampRows
  | 0x7003 => wakeRows
  | _ => if 0x6000 ≤ blk ∧ blk ≤ 0x6004 then cipRows else []

/-- The row that holds the address, with the element's index; none where no register stands (R42). -/
def rowAt (a : Nat) : Option (RegRow × Nat) :=
  (blockRows (a / 0x10000)).findSome? fun r => (r.index a).map fun i => (r, i)

/-- The reset value of the register at the address; 0 where no register stands. -/
def regReset (a : Nat) : Word :=
  match rowAt a with
  | some (r, i) => BitVec.ofNat 32 (r.reset i)
  | none => 0

end Sys2Proof.Machine
end

