-- ==== Sys2Proof/Machine/Tbl.lean ====
section
/-!
DEFINITION. Sparse tables: a list of (key, entry) pairs whose unlisted keys read as a default. One canonical
form: keys strictly rising and no entry equal to its key's default, so that equal tables are equal lists. The
register file, the memories and every table of like things (lanes, timers, slots) are held this way.
-/

namespace Sys2Proof.Machine

/-- A sparse table from numbers to `α`. -/
abbrev Tbl (α : Type) := List (Nat × α)

/-- What the table holds at `k`: its entry, or the default of `k`. -/
def tget {α : Type} (d : Nat → α) : Tbl α → Nat → α
  | [], k => d k
  | (i, v) :: r, k => if k = i then v else if k < i then d k else tget d r k

/-- The table with `v` listed at `k`. -/
def tput {α : Type} : Tbl α → Nat → α → Tbl α
  | [], k, v => [(k, v)]
  | (i, w) :: r, k, v =>
    if k = i then (k, v) :: r else if k < i then (k, v) :: (i, w) :: r else (i, w) :: tput r k v

/-- The table with nothing listed at `k`. -/
def tdel {α : Type} : Tbl α → Nat → Tbl α
  | [], _ => []
  | (i, w) :: r, k => if k = i then r else if k < i then (i, w) :: r else (i, w) :: tdel r k

/-- Write `v` at `k`, keeping the canonical form: a default is not listed. -/
def tset {α : Type} [DecidableEq α] (d : Nat → α) (t : Tbl α) (k : Nat) (v : α) : Tbl α :=
  if v = d k then tdel t k else tput t k v

/-- Every key of the table lies above `b`. -/
def tabove {α : Type} (b : Nat) (t : Tbl α) : Bool := t.all fun p => decide (b < p.1)

/-- The canonical form: keys strictly rising, and no entry equal to its key's default. -/
def twf {α : Type} [DecidableEq α] (d : Nat → α) : Tbl α → Bool
  | [] => true
  | (i, v) :: r => decide (v ≠ d i) && tabove i r && twf d r

/-- The table with only the keys `p` keeps. -/
def tkeep {α : Type} (p : Nat → Bool) (t : Tbl α) : Tbl α := t.filter fun e => p e.1

end Sys2Proof.Machine
end

