-- ==== Sys2Proof/Machine/State.lean ====
section
/-!
DEFINITION. The machine's state, as plain data, and the state after reset. Every register of the register map has
its one home in `regs`, every memory octet in `mem`; what is neither a register nor an octet of memory stands in
the structures below.
-/

namespace Sys2Proof.Machine


/-! ### The bus: what an initiator holds at its targets (spec/02_handshake_timing.md) -/

/-- What the last bus command answered its initiator (R446, R447). -/
inductive Resp where
  /-- no transaction has been answered yet -/
  | none
  /-- a store was acknowledged -/
  | ack
  /-- a load or fetch returned data -/
  | data (w : Word64)
  /-- the access waits, unserved, and is to be made again (R47, R545, R59) -/
  | wait
  /-- the access was refused, with its cause of R693 -/
  | refused (cause : Nat)
  deriving DecidableEq, Repr

/-- The bus: the last response, and the state each initiator holds at the targets. A table of an initiator's
registers is keyed by `initiator * 2 ^ 32 + address`. -/
structure BusState where
  /-- the last response -/
  resp : Resp := .none
  /-- high halves latched by low-half reads (R6, R69); 0 while nothing is latched (R70) -/
  shadows : Tbl Word := []
  /-- low halves staged by low-half writes (R71); 0 after power-on and after each commit -/
  staged : Tbl Word := []
  /-- captured registers of snapshot groups (R68); none while nothing is captured -/
  captures : Tbl (Option Word) := []
  /-- the one-deep holding register of each lantern register, with the writer, while a write is held (R59) -/
  held : Tbl (Option (Nat × Word)) := []
  deriving DecidableEq, Repr

/-! ### Cores, rooms and events (spec/14_rooms.md) -/

/-- A memory window of a ledger entry (R213). -/
structure Window where
  base : Nat
  size : Nat
  rights : Nat
  deriving DecidableEq, Repr

/-- A ledger entry (R213); its ROOM is its key. -/
structure LedgerEntry where
  timers : Nat
  blocks : Nat
  lanes : BitVec 256
  rxq : BitVec 256
  windows : List Window
  deriving DecidableEq, Repr

/-- The entry of room 0 while no plan is active: every block granted (R220). -/
def LedgerEntry.house : LedgerEntry :=
  { timers := 0, blocks := 0x37FFFFF, lanes := 0, rxq := 0, windows := [] }

/-- The context of a processor: what R444 saves of it, and whether it waits in WFI. The Control and Status
Registers are those of R444, numbered in its order from 0 (mstatus) to 17 (mip). -/
structure CoreCtx where
  pc : Word64 := 0
  x : Tbl Word64 := []
  f : Tbl Word64 := []
  fcsr : Word64 := 0
  csr : Tbl Word64 := []
  /-- 0 U, 1 S, 3 M -/
  priv : Nat := 3
  instret : Word64 := 0
  waiting : Bool := false
  /-- halted by the debug module (R646) -/
  halted : Bool := false
  /-- held in reset or stopped by the Steward's start sequence (R661) -/
  heldInReset : Bool := false
  /-- the address an LR has reserved (R439) -/
  reserved : Option Nat := none
  deriving DecidableEq, Repr

/-- A line of an application core's caches (R440): 64 octets at a line address in a way. -/
structure CacheLine where
  core : Nat
  way : Nat
  /-- the instruction cache, else the data cache -/
  code : Bool
  base : Nat
  dirty : Bool
  bytes : List Byte
  deriving DecidableEq, Repr

/-- What a destination of events holds (R456–R458): destinations 0–2 are the Steward and the link cores, and
destination 3 + r is room r. -/
structure Dest where
  /-- pending events, rising -/
  pend : List Nat := []
  /-- events claimed and not done with their priorities, the latest first -/
  levels : List (Nat × Nat) := []
  thresh : Nat := 0
  /-- EVT_ERR.DONE -/
  errDone : Bool := false
  deriving DecidableEq, Repr

/-- Cores, rooms and events. What a register of LEDG or EVT_ROUTE holds stands in the register file. -/
structure RoomState where
  /-- the ledger in force: an entry per room that has one -/
  ledger : Tbl (Option LedgerEntry) := []
  /-- the processors: 0 the Steward, 1–2 the link cores, 3–6 application cores 0–3 -/
  cores : Tbl CoreCtx := []
  /-- the lines held in the application cores' caches -/
  lines : List CacheLine := []
  /-- what each destination of events holds -/
  dests : Tbl Dest := []
  deriving DecidableEq, Repr

/-! ### Pigeonholes (spec/15_pigeonholes.md) -/

/-- A word waiting in a channel (R469). -/
structure PhWord where
  data : Word
  room : Nat
  gen : Nat
  last : Bool
  deriving DecidableEq, Repr

/-- A pigeonhole channel; its PH_RET and PH_ERR stand in the register file. -/
structure PhChan where
  holder : Option Nat := none
  gen : Nat := 0
  inq : List PhWord := []
  outq : List PhWord := []
  deriving DecidableEq, Repr

/-- What an initiator holds at a channel (R470, R471): PH_FROM and the latched GEN. -/
structure PhLatch where
  from_ : Word := 0
  latched : Option Nat := none
  deriving DecidableEq, Repr

/-- The pigeonholes; latches are keyed by `initiator * 64 + channel`. -/
structure PhState where
  chans : Tbl PhChan := []
  latches : Tbl PhLatch := []
  deriving DecidableEq, Repr

/-! ### The house plan in use (spec/06_house_plan_fabric.md) -/

/-- A lane descriptor (R211); its LANE is its key. -/
structure LaneDesc where
  fe : Nat
  binFirst : Nat
  nBins : Nat
  phy : Nat
  opts : Nat
  domain : Nat
  firstTile : Nat
  nTiles : Nat
  codeTile : Nat
  codeSlot : Nat
  nSlots : Nat
  queue : Nat
  fine : Int
  deriving DecidableEq, Repr

/-- What the plan loader is doing (R221–R230). -/
inductive PlanWork where
  | idle
  /-- a slot is checked; `activate` follows it when the check passes (R217) -/
  | checking (slot : Nat) (activate : Bool)
  /-- VCORE is raised to a plan's floor; `start` is the load at start (R223, R664) -/
  | raising (slot : Nat) (start : Bool)
  /-- the loader waits for the switch instant (R223) -/
  | waitAir (slot : Nat)
  /-- tile domains still to load; `event` fires FAB_PLAN_DONE at the end; `start` keeps epochs (R225, R226) -/
  | loading (left : List Nat) (event start : Bool)
  /-- a scrub mismatch is reloaded (R229) -/
  | scrubReload (left : List Nat)
  deriving DecidableEq, Repr

/-- The plan in use and the loader. FAB_PLAN_STAT, FAB_LIMITS, the digest, the ring table and EVT_ROUTE stand in
the register file. -/
structure PlanState where
  /-- the sequence of the plan in use, kept from its activation (R218) -/
  seq : Nat := 0
  lanes : Tbl (Option LaneDesc) := []
  /-- modulators, cancellers and surveys: FUNC, front end and tile domain (R209) -/
  units : List (Nat × Nat × Nat) := []
  /-- the keep masks of DOZE, LULL and NIGHT (R215) -/
  keep : Tbl Nat := []
  work : PlanWork := .idle
  /-- the tile the scrubber reads next (R228) -/
  scrubAt : Nat := 0
  deriving DecidableEq, Repr


/-! ### Front ends, calibration and the licence table (spec/03_front_ends.md, spec/04_front_end_calibration.md) -/

/-- A front-end transition in progress (R90): the states it leaves and enters, coded as FE_STAT.STATE (R88), and
whether it includes a calibration set (R100). A relock enters SYNTH from SYNTH. -/
structure FeTrans where
  src : Nat
  dst : Nat
  cal : Bool
  deriving DecidableEq, Repr

/-- The automatic tuner search of R110; a setting is C_SER, C_SH1 and C_SH2 as FE_TUNE packs them. -/
structure TuneSearch where
  best : Nat := 0
  bestGamma : Nat := 255
  fails : Nat := 0
  move : Nat := 0
  trying : Bool := false
  deriving DecidableEq, Repr

/-- What a front end holds beside its registers. -/
structure FeState where
  trans : Option FeTrans := none
  /-- reaching FE_STAT.TARGET is still to be announced by FE_STATE (R92) -/
  announce : Bool := false
  /-- a hop is under way: FE_HOP_DONE fires at the next entry to RX (R98) -/
  hop : Bool := false
  /-- a centre stored during a transition waits to be acted on (R98) -/
  centrePend : Bool := false
  /-- lock was lost: SYNTH relocks with calibration (R101) -/
  needRelock : Bool := false
  /-- CAL_PEND was set again during the calibration set in progress (R136) -/
  calAgain : Bool := false
  /-- the state TX was entered from (R91) -/
  txFrom : Nat := 0
  /-- an RX residence is in progress (R12) -/
  residence : Bool := false
  /-- the tuner setting in force, as FE_TUNE packs it (R106) -/
  tuneNow : Nat := 0x10410
  search : TuneSearch := {}
  /-- consecutive valid measurements above ALARM_TH (R108) -/
  alarmRun : Nat := 0
  /-- the transmission is muted (R101, R102, R104, R112) -/
  muted : Bool := false
  /-- a ramp-up has started and its ramp-down has not ended -/
  onAir : Bool := false
  /-- pins FEx_CTL0–3 (R84, R87) -/
  ctlPins : Nat := 0
  /-- pins PA_A_EN and PA_A_BIAS (R83); PA_A_BIAS as its 8-bit code -/
  paEn : Bool := false
  paBias : Nat := 0
  deriving DecidableEq, Repr

/-- The licence memory (R144–R149): the programmed memory and the staging RAM, 2,048 octets each. -/
structure LicState where
  otp : Tbl Byte := []
  stage : Tbl Byte := []
  deriving DecidableEq, Repr

/-! ### Capture and gain (spec/05_capture_and_gain.md) -/

/-- A scheduled change of analog gain (R176): its code, its input period and its cause as CHZ_GAIN_STAT.CAUSE
reports it. -/
structure GainChange where
  code : Nat
  period : Nat
  cause : Nat
  deriving DecidableEq, Repr

/-- What a channelizer bank holds beside its registers. -/
structure ChzState where
  sched : Option GainChange := none
  /-- the gain code the emergency drop will set (R181) -/
  drop : Option Nat := none
  /-- the sample index at which the last gain window opened (R174) -/
  lastWindow : Nat := 0
  /-- evaluations that begin before this sample index are suppressed (R178, R180) -/
  evalFrom : Nat := 0
  /-- the DUPLEX cap in force, and the gain code in force before it (R301) -/
  cap : Option Nat := none
  beforeCap : Nat := 0
  /-- the cap whose end is two input periods away (R301) -/
  capRet : Option Nat := none
  /-- bins of which some sample of the present survey block may not count, and whether none counts (R276) -/
  spoilt : BitVec 1024 := 0
  spoiltAll : Bool := false
  deriving DecidableEq, Repr

/-! ### Frame queues (spec/10_queues.md) -/

/-- A committed packet in a ring: its first word (a pointer value), its words and its octets. A transmit packet
has a number for the job that claims it (R359). -/
structure QPacket where
  start : Nat
  words : Nat
  octets : Nat
  id : Nat
  claimed : Bool
  released : Bool
  deriving DecidableEq, Repr

/-- The packet being pushed into a transmit queue (R357). -/
structure QOpen where
  words : Nat
  octets : Nat
  /-- its EOP word has been pushed -/
  eop : Bool
  deriving DecidableEq, Repr

/-- What a queue holds beside its registers and its ring. -/
structure QueueState where
  /-- pending indications of R354 -/
  dropped : Bool := false
  flushed : Bool := false
  /-- committed packets, oldest first; of a receive queue the first may be popped in part -/
  packets : List QPacket := []
  opened : Option QOpen := none
  /-- the number the next transmit packet takes -/
  nextId : Nat := 0
  deriving DecidableEq, Repr

/-! ### Lanes and blanking (spec/07_lanes.md, spec/08_full_duplex.md) -/

/-- A frame a lane is receiving (R262). -/
structure LaneFrame where
  /-- P -/
  p : Nat
  /-- S and FRAC, once the SFD is found -/
  sfd : Option (Nat × Nat) := none
  /-- marks of R269: bit 0 OVL, 1 OVERRUN, 2 SAT, 3 EQ_BYP, 4 CODED, 5 MS -/
  marks : Nat := 0
  /-- the PHY it is received in -/
  phy : Nat
  len : Nat := 0
  mcs : Nat := 0
  fcsLen : Nat := 0
  /-- the lane's floor in force at S, in 0.5 dBm -/
  floor : Option Int := none
  /-- the source of a move that was draining at P, for the comparison of R284 -/
  against : Option Nat := none
  deriving DecidableEq, Repr

/-- A frame that has closed and is handed to the link controller (R269, R270). -/
structure ClosedFrame where
  lane : Nat
  fe : Nat
  queue : Nat
  phy : Nat
  code : Nat
  marks : Nat
  epoch : Nat
  len : Nat
  mcs : Nat
  fcsLen : Nat
  sidx : Nat
  frac : Nat
  /-- E, or the bin sample at which another cause closed it -/
  e : Nat
  qual : Quality
  margin : Option Int
  floor : Option Int
  /-- FE_RXT0 of its residence, and D_CAP and D_LANE in force (R280) -/
  rxt0 : Nat
  dcap : Nat
  dlane : Nat
  /-- the drained source it is compared with (R284) -/
  against : Option Nat
  deriving DecidableEq, Repr

/-- A tune that waits (R259). -/
structure LaneTune where
  bin : Nat
  fine : Int
  index : Nat
  force : Bool
  deriving DecidableEq, Repr

/-- A move a lane is a party to, from its acceptance to its settlement (R281–R284). -/
structure LaneMove where
  partner : Nat
  index : Nat
  source : Bool
  deriving DecidableEq, Repr

/-- What a lane holds beside its registers. -/
structure LaneState where
  frame : Option LaneFrame := none
  tune : Option LaneTune := none
  move : Option LaneMove := none
  /-- it detects preambles from this sample index on (R259, R282) -/
  detectsFrom : Nat := 0
  /-- the PHY of a mode switch in force (R267) -/
  ms : Option Nat := none
  /-- frames held until the source of the move is released (R284) -/
  held : List ClosedFrame := []
  /-- S of the last frame it drained, once it is released -/
  drained : Option Nat := none
  /-- entries held behind it in its receive buffers (R56) -/
  fill : Nat := 0
  /-- the state its domain's reload returns it to (R249) -/
  before : Nat := 2
  deriving DecidableEq, Repr

/-- A blanking of a front end's bins (R292, R293): every bin, or the bins near a band, in Hz. -/
structure Blanking where
  all : Bool
  lo : Nat
  hi : Nat
  /-- its own transmission's, else front end A's third harmonic (R302) -/
  own : Bool
  first : Nat
  last : Option Nat
  deriving DecidableEq, Repr

/-- What the duplex logic of a front end holds beside its registers. -/
structure FdxState where
  blanks : List Blanking := []
  /-- the transmit centre and the die temperature the canceller was last trained at; none when cleared (R297) -/
  trained : Option (Nat × Int) := none
  /-- something since the last training asks for a new one (R297) -/
  retrain : Bool := false
  /-- the frame on air trains -/
  trains : Bool := false
  /-- P_set in 0.25 dBm, the channel centre in Hz and the die temperature of the frame on air -/
  pset : Int := 0
  now : Nat × Int := (0, 0)
  deriving DecidableEq, Repr

/-! ### Start-up (spec/23_startup.md) -/

/-- Where the hall stands in its start. -/
inductive Hall where
  | run
  /-- NIGHT or SHUTTER, or a start given up: nothing happens until a wake -/
  | off
  /-- in reset while the vault is erased (R530); whether the hall starts at its end -/
  | erasing (starts : Bool)
  /-- SYS_RST_N is low -/
  | pinLow
  /-- the regulator has been commanded on and has not acknowledged -/
  | waitAck
  /-- a start attempt failed; the next one is due 10 ms later (R589) -/
  | retry
  /-- acknowledged: the release is due -/
  | acked
  /-- released, the memories clear: the ROM is next -/
  | released
  /-- the Porter has been entered -/
  | porter
  | recovery
  /-- the ROM has halted without a root -/
  | halted
  deriving DecidableEq, Repr

/-! ### Power (spec/20_power.md) -/

/-- What the power manager and the wake logic hold beside their registers. -/
structure PowState where
  /-- a plan's floor that VCORE is being raised to (R223, R664) -/
  goal : Option Nat := none
  /-- the last write the lantern made on the PMBus: command code and data (R590) -/
  pmb : Option (Nat × Nat) := none
  /-- the mode reached: 0 RUN, 1 DOZE, 2 LULL, 3 NIGHT, 4 SHUTTER -/
  mode : Nat := 0
  /-- the target of the entry in progress -/
  target : Nat := 0
  /-- the participants asked (R583), numbered as PWR_HS orders them -/
  asked : List Nat := []
  /-- the states the front ends held when they were asked (R585) -/
  feWere : List Nat := []
  /-- the lanes that FAB's acceptance stopped (R585) -/
  lanesWere : List Nat := []
  /-- the power domains on at the commit point (R587) -/
  domsWere : Nat := 0
  /-- a wake latched after the commit point: source and event (R584) -/
  latched : Option (Nat × Nat) := none
  /-- attempts of the hall start in progress (R589); 0 while none is -/
  starts : Nat := 0
  /-- the hall's start (R654–R664) -/
  hall : Hall := .run
  /-- the start is a power-on reset (R654); the RAM domains that NIGHT kept and a WAKE start does not clear -/
  porReset : Bool := false
  kept : List Nat := []
  /-- the wake that the start serves: source, event and mode ended; none of another cause -/
  waking : Option (Nat × Nat × Nat) := none
  /-- bits set while the hall was down, by register address and bit, with the event that is raised at RUN (R432) -/
  owed : List (Nat × Nat × Nat) := []
  /-- the answers of the link cores (PWR_LCACK) -/
  lcAns0 : Nat := 0
  lcAns1 : Nat := 0
  deriving DecidableEq, Repr

/-! ### Flash (spec/18_flash.md) -/

/-- A command on a flash bank: who issued it (0–63 a room's port, 64 the UPD block,
128 and more a port that is set to IDLE when it ends), the address and, of a program,
the 32 octets. -/
structure FlashJob where
  who : Nat
  addr : Nat
  data : List Byte := []
  deriving DecidableEq, Repr

/-- A bank of flash (R545–R552); FLC_STAT shows its state. -/
structure FlashBank where
  erase : Option FlashJob := none
  prog : Option FlashJob := none
  /-- suspended by a read (R552) -/
  byRead : Bool := false
  /-- within the minimum run (R551) -/
  minRun : Bool := false
  /-- a SUSPEND that takes effect when the minimum run ends -/
  held : Bool := false
  deriving DecidableEq, Repr

/-- The flash controller beside its registers. -/
structure FlashState where
  bank0 : FlashBank := {}
  bank1 : FlashBank := {}
  /-- ranges whose content is undefined: base and octets (R545, R550, R554) -/
  garbled : List (Nat × Nat) := []
  /-- the last line read from the array and the lines of the branch cache, newest first (R541) -/
  last : Option Nat := none
  branch : List Nat := []
  deriving DecidableEq, Repr

/-! ### Cipher engine (spec/16_cipher.md) -/

/-- What a cipher context holds beside its registers and buffer. -/
structure CipCtx where
  /-- the key of the operation, copied at START (R478) -/
  key : List Byte := []
  /-- the nonce, IV or counter block of the operation -/
  iv : List Byte := []
  /-- the operation under way has FIRST, LAST -/
  first : Bool := false
  last : Bool := false
  /-- the slot whose next counter it waits for (R493, R494, R524) -/
  wants : Option Nat := none
  /-- the running state of a chain: associated data and authenticated text so far (R486) -/
  aad : List Byte := []
  text : List Byte := []
  deriving DecidableEq, Repr

/-- The cipher engine. -/
structure CipState where
  /-- contexts: 0–63 pages, 64 the common context -/
  ctxs : Tbl CipCtx := []
  /-- contexts that wait for a counter, in the order of acceptance (R497) -/
  waiting : List Nat := []
  /-- the internal generator is seeded; block services since its last seed (R493) -/
  seeded : Bool := false
  services : Nat := 0
  deriving DecidableEq, Repr

/-! ### Keys, entropy and tamper (spec/17_keys_tamper.md) -/

/-- A live slot's counters (R494, R524); KEY_SLOT shows the rest. `marking` holds the marks being programmed. -/
structure KeySlot where
  fc : Nat := 0
  gc : Nat := 0
  marking : Option (Nat × Nat) := none
  deriving DecidableEq, Repr

/-- A shelf entry (R522, R524). `serial` numbers its creation. -/
structure ShelfEntry where
  key : List Byte
  owner : Nat
  cls : Nat
  sel : Nat
  meas : List Byte
  gen : Nat
  ident : Nat
  fcMark : Nat := 0
  gcMark : Nat := 0
  spent : Bool := false
  serial : Nat := 0
  deriving DecidableEq, Repr

/-- A record of the shelf's log (R525), by the serial of its entry. -/
inductive ShelfRec where
  | entry (serial : Nat)
  | mark (serial : Nat)
  | deletion (serial : Nat)
  deriving DecidableEq, Repr

/-- A key port command in progress (R523), with the arguments it took. -/
structure KpCmd where
  op : Nat
  cls : Nat
  sel : Nat
  klen : Nat
  key : List Byte
  arg : Nat
  label : List Byte
  ident : Nat
  deriving DecidableEq, Repr

/-- What the accelerator is doing (R526); an ECDH holds the arguments it took and its ephemeral block. -/
inductive PkWork where
  | idle
  | verify
  | ecdh (cmd : KpCmd) (block : Option (List Byte))
  /-- check 7 of a header (R562) -/
  | header
  deriving DecidableEq, Repr

/-- The key unit, the vault, the owner keys, the entropy source and the tamper loops beside their registers. -/
structure KeyState where
  /-- the vault (R518) -/
  root : Option (List Byte) := none
  /-- owner keys, the first first: X then Y (R511) -/
  owners : List (List Byte) := []
  slots : Tbl KeySlot := []
  shelf : Tbl (Option ShelfEntry) := []
  /-- shelf blocks in use, the oldest first, with their records (R525) -/
  log : List (Nat × List ShelfRec) := []
  serial : Nat := 0
  ports : Tbl (Option KpCmd) := []
  pk : PkWork := .idle
  /-- released blocks, the oldest first; the octets left of the one being read by RNG_DATA (R513, R516) -/
  blocks : List (List Byte) := []
  part : List Byte := []
  /-- raw-bit numbers of the test failures since the last ERROR (R514) -/
  fails : List Nat := []
  /-- blocks collected for a root in generation (R517) -/
  rooting : Option (List Byte) := none
  /-- the link controller waits for its seed, and the seed it holds (R515) -/
  wantBackoff : Bool := false
  backoff : List Byte := []
  /-- LFSR states of the tamper loops (R528) -/
  loops : Tbl Nat := []
  deriving DecidableEq, Repr

/-! ### The Knocker and the time unit (spec/11_knocker.md, spec/12_time.md) -/

/-- What the Knocker holds beside its registers. -/
structure KnkState where
  /-- the wake word of the frame in progress has matched (R372) -/
  matched : Bool := false
  /-- when the last wake was, in µs (R373) -/
  lastWake : Option Nat := none
  deriving DecidableEq, Repr

/-- An open window of the interval meter (R401), in 1/20 air ticks. -/
structure ImWindow where
  last : Nat
  start : Option Nat := none
  stop : Option Nat := none
  deriving DecidableEq, Repr

/-- What the time unit holds beside its registers. -/
structure TimeState where
  /-- FREQ in ppb, exactly (R388) -/
  freq : Rat := 0
  /-- the slew remainder in ns (R387) -/
  rem : Rat := 0
  /-- a pending step in ns (R387) -/
  step : Option Int := none
  /-- ERR0 in ns and the whole seconds since it was set (R392); none is unknown -/
  err0 : Option Nat := none
  errSecs : Nat := 0
  /-- the last PPS_IN edge in 1/20 air ticks, and consecutive good edges (R385) -/
  lastEdge : Option Nat := none
  goods : Nat := 0
  ppsValid : Bool := false
  meshValid : Bool := false
  /-- the air tick of the previous accepted measurement of each source since it became valid (R388) -/
  lastPps : Option Nat := none
  lastMesh : Option Nat := none
  /-- the latest |OFS| in ns of the source in use (R392) -/
  absOfs : Nat := 0
  /-- the reference estimate and the learned CK_LF offset in ppm, exactly (R395, R396) -/
  e : Rat := 0
  lfOfs : Rat := 0
  /-- E of the last SOURCE update, the steps between SOURCE updates in ppb, newest first, and how many there were -/
  lastE : Option Rat := none
  moves : List Nat := []
  updates : Nat := 0
  /-- STATE has been LOCKED through the whole interval so far; intervals run, with PD31 on and CK_REF running (R395) -/
  lockedAll : Bool := false
  counts : Bool := true
  /-- PPS_OUT, and the air tick of its last rising edge (R394) -/
  ppsOut : Bool := false
  lastPulse : Option Nat := none
  /-- the interval meter's window -/
  im : Option ImWindow := none
  /-- network time and the air timer as they stood at the last hand-off or start (R383) -/
  nt : Nat := 0
  air : Nat := 0
  /-- the lantern carries them: PD31 is off (R383) -/
  away : Bool := false
  deriving DecidableEq, Repr

/-! ### The link controller (spec/09_link_controller.md) -/

/-- A frame job in a slot (R312–R325). -/
structure Job where
  /-- JOB_W0–JOB_W7 as they were posted -/
  w : List Word
  /-- the acceptance tick, and AT -/
  accepted : Nat
  at_ : Nat
  /-- the packet it claims (R315) -/
  pkt : Option Nat := none
  /-- the licence entry that governs it, and the air time it reserves in µs (R150, R336) -/
  entry : Nat := 0
  hold : Nat := 0
  /-- its frame from the preamble to the last symbol, in fifths of a tick -/
  frame : Nat := 0
  /-- the counter value it took (R319) -/
  counter : Option Nat := none
  /-- the PSDU without FCS, once it is prepared -/
  staged : Option (List Byte) := none
  filling : Bool := false
  /-- the listening decision found the channel clear -/
  clear : Bool := false
  /-- the loop of R323: nb, be and B -/
  nb : Nat := 0
  be : Nat := 0
  start : Nat := 0
  retries : Nat := 0
  /-- the preamble tick of the last attempt, and the end of its last symbol in tenths of a tick -/
  preamble : Nat := 0
  tEnd : Nat := 0
  /-- it waits for its acknowledgement -/
  waits : Bool := false
  /-- W of its window in ticks (R329) -/
  widen : Nat := 0
  /-- its reserved span, in fifths of a tick (R318) -/
  span : Option (Nat × Nat) := none
  deriving DecidableEq, Repr

/-- A frame on its way through a front end, from the first tick of the transition to the end of the ramp-down. -/
structure AirFrame where
  who : Sender
  entry : Nat
  /-- the first tick of the ramp-up, once it has started -/
  ramp : Option Nat := none
  /-- the result an abort gives -/
  abort : Option Nat := none
  /-- preamble to last symbol, in tenths of a tick -/
  length : Nat
  /-- the carrier in Hz, shifted by R398 -/
  carrier : Int
  psdu : List Byte
  deriving DecidableEq, Repr

/-- An acknowledgement that waits for its cut tick or its turnaround (R326–R328). -/
structure AckPlan where
  lane : Nat
  phy : Nat
  mcs : Nat
  coded : Bool
  fcsLen : Nat
  /-- the channel centre in Hz -/
  centre : Int
  /-- the preamble's tick -/
  preamble : Nat
  /-- the frame before its counter, MIC and FCS -/
  plain : List Byte
  /-- key slot, security level and the offset of its counter -/
  sec : Option (Nat × Nat × Nat)
  /-- once it has passed its cut: the licence entry and the octets sent -/
  entry : Nat := 0
  psdu : List Byte := []
  /-- it is committed; an assessment precedes it and has not found the channel clear yet -/
  ready : Bool := false
  listens : Bool := false
  deriving DecidableEq, Repr

/-- A neighbour filter entry (R332, R343). -/
structure Neighbour where
  ext : Nat
  pan : Nat
  short : Nat
  /-- FLAGS of the entry window -/
  flags : Nat
  rxFc : Nat
  /-- FC_SLOT in bits 6:0 and FC_V in bit 16 -/
  fcSlot : Nat
  deriving DecidableEq, Repr

/-- The reserved transmit queue: the frame's octets and the settings record (R338, R613). -/
structure GaspStore where
  octets : List Byte
  settings : List Nat
  deriving DecidableEq, Repr

/-- The link controller beside its registers. -/
structure LinkState where
  /-- jobs, keyed by room * 4 + slot -/
  jobs : Tbl (Option Job) := []
  airA : Option AirFrame := none
  airB : Option AirFrame := none
  ackA : Option AckPlan := none
  ackB : Option AckPlan := none
  nbrs : Tbl (Option Neighbour) := []
  /-- NBR_CMD.INDEX as last written -/
  nbrIndex : Nat := 0
  /-- charges in µs of each duty account's buckets, the current one first (R335) -/
  duty : Tbl (List Nat) := []
  gasp : Option GaspStore := none
  /-- the room whose attempt started last on each front end (R318) -/
  roundA : Nat := 63
  roundB : Nat := 63
  deriving DecidableEq, Repr

/-! ### Timers and the calendar (spec/13_timers_rtc.md) -/

/-- Commits that wait for a running timer's next tick edge (R411, R414). -/
structure TimerPend where
  cmp : Option Nat := none
  reload : Option Nat := none
  deriving DecidableEq, Repr

/-- What the calendar holds beside its registers. -/
structure CalState where
  /-- a SYNC waits for its whole second (R425) -/
  sync : Bool := false
  /-- the crystal's first edge has come (R658) -/
  crystal : Bool := true
  /-- the stop detector has fired and no edge has come since (R423) -/
  stopped : Bool := false
  deriving DecidableEq, Repr

/-! ### Supply watch and last gasp (spec/21_supply_watch.md) -/

/-- A condition in force on a channel: its extreme RMS and the refreshes it has lasted (R610). -/
structure SupCond where
  ext : Nat := 0
  dur : Nat := 0
  deriving DecidableEq, Repr

/-- What a supply channel holds beside its page: its conditions, and the sample at which the RMS came back from
an outage (R608). -/
structure SupChan where
  sag : SupCond := {}
  swell : SupCond := {}
  out : SupCond := {}
  backAt : Option Nat := none
  deriving DecidableEq, Repr

/-- A supply record (R610). -/
structure SupRecord where
  kind : Nat
  ch : Nat
  flag : Bool
  lft : Bool
  ext : Nat
  dur : Nat
  nt : Nat
  deriving DecidableEq, Repr

/-- What a running last gasp is doing. -/
inductive GaspStage where
  /-- its next attempt is due -/
  | waiting
  /-- its assessment has found the channel clear -/
  | clear
  /-- its frame is on air; cut when VHOLD fell -/
  | onAir (cut : Bool)
  /-- it listens for its acknowledgement -/
  | ackWindow
  deriving DecidableEq, Repr

/-- A last gasp that runs (R615–R620). -/
structure GaspRun where
  stage : GaspStage := .waiting
  /-- attempts whose frame has left; assessments that found the channel busy -/
  sent : Nat := 0
  busy : Nat := 0
  /-- it began with the hall in RUN, DOZE or LULL -/
  fromHall : Bool
  /-- sent in the sequencer's own block, else in the hall's -/
  ownBlock : Bool
  /-- the state front end A held, and the domains the sequencer powered -/
  feWas : Nat
  powered : List Nat
  /-- muted by a tamper destruction (R622) -/
  tampered : Bool := false
  deriving DecidableEq, Repr

/-- The supply watch and the last-gasp sequencer. -/
structure SupState where
  chans : Tbl SupChan := []
  /-- channels whose over-range sample lies at most 64 samples back (R604) -/
  overNear : List Nat := []
  /-- the record FIFO, the oldest first -/
  recs : List SupRecord := []
  gasp : Option GaspRun := none
  deriving DecidableEq, Repr

/-! ### Host port and general interfaces (spec/22_host_io.md) -/

/-- A message from the host. -/
structure HostMsg where
  seq : Nat
  octets : List Byte
  deriving DecidableEq, Repr

/-- The host port. HOST_STAT holds the session and EXPECT. -/
structure HostState where
  /-- RESULT of the last frame judged -/
  result : Nat := 0
  /-- the input store, the oldest first -/
  msgs : List HostMsg := []
  /-- the message the house took: its LEN, and the octets not yet read -/
  taken : Option (Nat × List Byte) := none
  /-- the building buffer -/
  build : List Byte := []
  /-- device frames that wait, the oldest first, each whole -/
  frames : List (List Byte) := []
  /-- what the last READ_FRAME of the session removed -/
  last : Option (List Byte) := none
  /-- the device sequence number the next frame takes -/
  devSeq : Nat := 0
  /-- what the port returned in its last transaction -/
  reply : List Byte := []
  deriving DecidableEq, Repr

/-- A UART's FIFOs; a received character has its flags in bits 11:8, as UART_DATA shows it. -/
structure UartState where
  rx : List Nat := []
  tx : List Byte := []
  deriving DecidableEq, Repr

/-- A command of an I²C controller, as I2C_CMD holds it. -/
structure I2cCmd where
  op : Nat
  data : Byte
  nack : Bool
  deriving DecidableEq, Repr

/-- An I²C controller: its FIFOs, whether it holds the bus, and what it last did on the bus. -/
structure I2cState where
  cmds : List I2cCmd := []
  rx : List Byte := []
  busy : Bool := false
  did : Option I2cCmd := none
  deriving DecidableEq, Repr

/-- The GPIO pins: the levels they show, and the direction and level held pads keep (R644). -/
structure GpioState where
  levels : BitVec 64 := 0
  heldDir : BitVec 64 := 0
  heldOut : BitVec 64 := 0
  deriving DecidableEq, Repr

/-- The debug port (R645–R648). -/
structure DbgState where
  /-- the instruction in force -/
  ir : Nat := 1
  nonce : Option (List Byte) := none
  /-- a nonce waits for a block of the entropy source (R515) -/
  wants : Bool := false
  /-- the challenge in check: nonce, SCOPE, r and s -/
  check : Option (List Byte × Word × Nat × Nat) := none
  /-- updates are ignored for 1 s after a denial -/
  holdoff : Bool := false
  /-- the octets DBGCHAL last captured -/
  chal : List Byte := []
  /-- the debug module's registers, by DMI address (RISC-V external debug 0.13.2) -/
  dm : Tbl Word := []
  /-- the response of the last DMI access: op and data -/
  resp : Nat × Word := (0, 0)
  deriving DecidableEq, Repr

/-! ### Images, updates and recovery (spec/19_update_recovery.md) -/

/-- A LEDG_CMD that waits for a write of its room's image to end (R572). -/
structure LedgWait where
  op : Nat
  core : Nat
  room : Nat
  deriving DecidableEq, Repr

/-- The UPD block beside its registers. -/
structure UpdState where
  /-- who asked for the header check in progress: 0 UPD_CMD, else the source of a recovery HEADER -/
  source : Nat := 0
  /-- the body octets loaded, which LOAD hashes as it copies (R566) -/
  got : List Byte := []
  /-- the recovery session's owner: 0 none, 1 host port, 2 UART0, 3 radio -/
  owner : Nat := 0
  /-- a LEDG_CMD that waits (R572) -/
  waits : Option LedgWait := none
  /-- the ROM restarts when its 10 s end (R576) -/
  restartDue : Bool := false
  /-- the reply to the last recovery message -/
  reply : List Byte := []
  deriving DecidableEq, Repr

/-! ### The whole -/

/-- The state of the device. -/
structure State where
  /-- commands that wait, first in, first out -/
  pending : List Instr := []
  /-- the registers, by physical address -/
  regs : Tbl Word := []
  /-- the memories, by physical address -/
  mem : Tbl Byte := []
  bus : BusState := {}
  rooms : RoomState := {}
  plan : PlanState := {}
  ph : PhState := {}
  feA : FeState := {}
  feB : FeState := {}
  lic : LicState := {}
  queues : Tbl QueueState := []
  chzA : ChzState := {}
  chzB : ChzState := {}
  lanes : Tbl LaneState := []
  /-- frames handed to the link controller that wait for their verdicts, in order of frame end (R270, R284) -/
  verdicts : List ClosedFrame := []
  /-- the means of each bin's last counted survey blocks, newest first; key: front end * 1024 + bin (R276) -/
  survey : Tbl (List Int) := []
  fdxA : FdxState := {}
  fdxB : FdxState := {}
  pow : PowState := {}
  flash : FlashState := {}
  cip : CipState := {}
  keys : KeyState := {}
  link : LinkState := {}
  knk : KnkState := {}
  time : TimeState := {}
  timers : Tbl TimerPend := []
  cal : CalState := {}
  sup : SupState := {}
  host : HostState := {}
  uarts : Tbl UartState := []
  i2cs : Tbl I2cState := []
  gpio : GpioState := {}
  dbg : DbgState := {}
  upd : UpdState := {}
  /-- RAM domains that have lost their content since they were last cleared: power domain, and a number that
  tells one loss from another; 0 is none (R579) -/
  noise : Tbl Nat := []
  /-- the model's own: how many free values have been drawn -/
  freeCtr : Nat := 0
  deriving DecidableEq, Repr

/-- The reset values of a processor's Control and Status Registers (R436); mstatus holds SXL = UXL = 2. -/
def csrReset (k : Nat) : Word64 := if k = 0 then 0xA00000000 else 0

/-- A processor after reset. -/
def coreReset (_ : Nat) : CoreCtx := {}

/-- The ledger while no plan is active: room 0 alone, with every block (R220). -/
def ledgerReset (r : Nat) : Option LedgerEntry := if r = 0 then some LedgerEntry.house else none

/-- The machine right after reset. -/
def State.reset : State := {}

/-! ### Stops -/

/-- Ways a step can stop the machine. No command of this device does: the spec gives every command an effect. -/
inductive Fault where
  /-- raised by nothing; kept so that the type names the outcome (safe) -/
  | none_
  deriving DecidableEq, Repr

/-- Ways a step can be refused. -/
inductive Refusal where
  /-- raised by the dispatcher for a command that has no meaning yet (safe) -/
  | notModelled (mnemonic : String)
  deriving DecidableEq, Repr

end Sys2Proof.Machine
end

