-- ==== Sys2Proof/Machine/Ops.lean ====
section
/-!
DEFINITION. The named operations over the register file, the memories and the event router, which every meaning
is written over. The register file and the memories change through `wr` and `memPut` alone, so that both keep
their canonical form.
-/

namespace Sys2Proof.Machine

/-! ### Registers -/

/-- The value a register holds. -/
def rd (a : Nat) (s : State) : Word := tget regReset s.regs a

/-- Write a register. -/
def wr (a : Nat) (v : Word) (s : State) : State := { s with regs := tset regReset s.regs a v }

/-- The value of field `f` of the page or block at `b`. -/
def fget (b : Nat) (f : Fld) (s : State) : Nat := bitsOf (rd (b + f.off) s) f.lo f.w

/-- Write `v` to field `f` of the page or block at `b`. -/
def fset (b : Nat) (f : Fld) (v : Nat) (s : State) : State :=
  wr (b + f.off) (bitsPut (rd (b + f.off) s) f.lo f.w v) s

/-- A one-bit field reads 1. -/
def fis (b : Nat) (f : Fld) (s : State) : Bool := fget b f s == 1

/-- A two's complement field. -/
def fgetS (b : Nat) (f : Fld) (s : State) : Int := signedOf f.w (fget b f s)

/-- Write a number to a two's complement field. -/
def fsetS (b : Nat) (f : Fld) (v : Int) (s : State) : State := fset b f (fieldOfInt f.w v) s

/-- The largest value of a field. -/
def Fld.top (f : Fld) : Nat := 2 ^ f.w - 1

/-- Count one up in a counter that saturates. -/
def fcount (b : Nat) (f : Fld) (s : State) : State := fset b f (satAdd f.top (fget b f s) 1) s

/-- Count `k` up in a counter that saturates. -/
def fcountBy (b : Nat) (f : Fld) (k : Nat) (s : State) : State := fset b f (satAdd f.top (fget b f s) k) s

/-- Count one up in a counter that wraps. -/
def fnext (b : Nat) (f : Fld) (s : State) : State := fset b f (fget b f s + 1) s

/-- The 64-bit quantity whose low half stands at `a` (R3). -/
def rd64 (a : Nat) (s : State) : Word64 := Word64.ofHalves (rd a s) (rd (a + 4) s)

/-- Write a 64-bit quantity (R3). -/
def wr64 (a : Nat) (v : Word64) (s : State) : State := wr (a + 4) v.high (wr a v.low s)

/-- The 48-bit index whose low half stands at `a` and whose bits 47:32 stand in bits 15:0 of the next register. -/
def rd48 (a : Nat) (s : State) : Nat := (rd a s).toNat + bitsOf (rd (a + 4) s) 0 16 * 2 ^ 32

/-- Write a 48-bit index. -/
def wr48 (a v : Nat) (s : State) : State :=
  wr (a + 4) (bitsPut (rd (a + 4) s) 0 16 (v / 2 ^ 32)) (wr a (BitVec.ofNat 32 v) s)

/-- Write `n` successive registers from address `a` with the words of `l`. -/
def wrList (a : Nat) : List Word → State → State
  | [], s => s
  | w :: r, s => wrList (a + 4) r (wr a w s)

/-- The `n` successive registers from address `a`. -/
def rdList (a : Nat) (n : Nat) (s : State) : List Word := (List.range n).map fun k => rd (a + 4 * k) s

/-- The octets of `n` successive registers from address `a`, as the register layouts number them. -/
def rdBytes (a : Nat) (n : Nat) (s : State) : List Byte := (rdList a n s).flatMap fun w => leBytes 4 w.toNat

/-- Octets as registers, four in each, the first in bits 7:0. -/
def wordsOfBytes : List Byte → List Word
  | [] => []
  | a :: b :: c :: d :: r => BitVec.ofNat 32 (ofLeBytes [a, b, c, d]) :: wordsOfBytes r
  | l => [BitVec.ofNat 32 (ofLeBytes l)]

/-- The registers whose address satisfies `p` return to their reset values (R579, R656). -/
def resetRegs (p : Nat → Bool) (s : State) : State := { s with regs := tkeep (fun a => !p a) s.regs }

/-- The register file is in canonical form. -/
def Registers.wf (s : State) : Bool := twf regReset s.regs

/-! ### Memories -/

/-- The power domain whose loss takes an octet's content with it; 0, which never loses power, for the ROM and the
flash (R578). -/
def memDomain (a : Nat) : Nat :=
  if a < 0x01000000 then 0
  else if a < 0x01080000 then 2
  else if a < 0x10000000 then 0
  else if a < 0x10080000 then 4 + (a - 0x10000000) / 0x40000
  else if a < 0x20C00000 then 10 + (a - 0x20000000) / 0xC0000
  else if a < 0x40000000 then 28
  else 29

/-- What an octet that nothing has written reads as: the ROM as the unit holds it, erased flash and the erased
licence memory 0xFF, every RAM 0 as the clear at release leaves it (R537, R661), and a free octet where the RAM has
lost its content since (R579). -/
def memInit (noise : Tbl Nat) (a : Nat) : Byte :=
  if a < 0x40000 then Config.romByte a
  else if 0x08000000 ≤ a ∧ a < 0x0C000000 then 0xFF
  else match tget (fun _ => 0) noise (memDomain a) with
    | 0 => 0
    | n + 1 => Config.freeByte ((n * 2 ^ 32 + a) * 2 + 1)

/-- The memories, and the record of which RAMs lost their content, are in canonical form. -/
def Memory.wf (s : State) : Bool := twf (fun _ => 0) s.noise && twf (memInit s.noise) s.mem

/-- An octet of memory. -/
def memGet (a : Nat) (s : State) : Byte := tget (memInit s.noise) s.mem a

/-- Write an octet of memory. -/
def memPut (a : Nat) (v : Byte) (s : State) : State := { s with mem := tset (memInit s.noise) s.mem a v }

/-- `n` octets from address `a`. -/
def memBytes (a n : Nat) (s : State) : List Byte := (List.range n).map fun k => memGet (a + k) s

/-- Write octets from address `a` on. -/
def memWrite (a : Nat) : List Byte → State → State
  | [], s => s
  | b :: r, s => memWrite (a + 1) r (memPut a b s)

/-- The little-endian number of `n` octets at `a`. -/
def memNat (a n : Nat) (s : State) : Nat := ofLeBytes (memBytes a n s)

/-- Every octet of a range returns to what an unwritten octet reads. -/
def memClear (p : Nat → Bool) (s : State) : State := { s with mem := tkeep (fun a => !p a) s.mem }

/-- The RAM of domain `d` holds tag `n`: 0 cleared, else lost with that number (R579, R661). -/
def memMark (d n : Nat) (s : State) : State :=
  { s with
    mem := tkeep (fun a => memDomain a != d) s.mem
    noise := tset (fun _ => 0) s.noise d n }

/-! ### Free values -/

/-- The next free number, a value that the spec leaves open. -/
def freeNat (s : State) : Nat := Config.freeNat s.freeCtr

/-- The state after one free value is drawn. -/
def drawFree (s : State) : State := { s with freeCtr := s.freeCtr + 1 }

/-- `n` free octets. -/
def freeBytes (n : Nat) (s : State) : List Byte :=
  (List.range n).map fun k => Config.freeByte ((s.freeCtr * 65536 + k) * 2)

/-! ### Bus responses -/

/-- The transaction is answered with data. -/
def respond (w : Word64) (s : State) : State := { s with bus := { s.bus with resp := .data w } }

/-- The transaction is answered with a register's value. -/
def respondWord (w : Word) (s : State) : State := respond (w.setWidth 64) s

/-- The store is acknowledged. -/
def acknowledge (s : State) : State := { s with bus := { s.bus with resp := .ack } }

/-! ### The event router (R455, R456) -/

/-- EVT_ROUTE[e] (R214, R461). -/
def evtRoute (e : Nat) (s : State) : Word := rd (0x40081000 + 4 * e) s

/-- What destination `d` holds. -/
def destGet (d : Nat) (s : State) : Dest := tget (fun _ => ({} : Dest)) s.rooms.dests d

/-- Set what destination `d` holds. -/
def destSet (d : Nat) (v : Dest) (s : State) : State :=
  { s with rooms := { s.rooms with dests := tset (fun _ => ({} : Dest)) s.rooms.dests d v } }

/-- A number put into a rising list without repeats. -/
def insertNat (n : Nat) : List Nat → List Nat
  | [] => [n]
  | m :: r => if n = m then m :: r else if n < m then n :: m :: r else m :: insertNat n r

/-- Event `e` becomes pending at destination `d`; one already pending is merged (R456). -/
def pendAt (e d : Nat) (s : State) : State :=
  destSet d { destGet d s with pend := insertNat e (destGet d s).pend } s

/-- The destinations of a routing entry (R456): 0–2 the Steward and the link cores, 3 + r room r. -/
def routeDests (w : Word) : List Nat :=
  ((List.range 3).filter fun k => bitOf w k) ++
    (if bitsOf w 3 4 = 0 then [] else [3 + bitsOf w 8 8])

/-- Raise event `e`: it becomes pending at each destination its entry names, or is discarded when unrouted. -/
def raiseEvt (e : Nat) (s : State) : State :=
  (routeDests (evtRoute e s)).foldl (fun t d => pendAt e d t) s

/-- Set a flag, raising event `e` when it changes from 0 to 1. -/
def note (b : Nat) (f : Fld) (e : Nat) (s : State) : State :=
  if fis b f s then s else raiseEvt e (fset b f 1 s)

/-! ### Initiators and rooms -/

/-- The processor with number `k`. -/
def coreGet (k : Nat) (s : State) : CoreCtx := tget coreReset s.rooms.cores k

/-- Set the processor with number `k`. -/
def coreSet (k : Nat) (c : CoreCtx) (s : State) : State :=
  { s with rooms := { s.rooms with cores := tset coreReset s.rooms.cores k c } }

/-- The ledger entry of a room. -/
def ledgerGet (r : Nat) (s : State) : Option LedgerEntry := tget ledgerReset s.rooms.ledger r

/-- Set the ledger entry of a room. -/
def ledgerSet (r : Nat) (e : Option LedgerEntry) (s : State) : State :=
  { s with rooms := { s.rooms with ledger := tset ledgerReset s.rooms.ledger r e } }

/-- The block that holds LEDG_COREc of application core `c`. -/
def coreReg (c : Nat) : Nat := 0x40070000 + 4 * c

/-- The room resident on application core `c`; none while it is parked (R441). -/
def residentOn (c : Nat) (s : State) : Option Nat :=
  if fis (coreReg c) Reg.LEDG_CORE.PARKED s then none else some (fget (coreReg c) Reg.LEDG_CORE.ROOM s)

/-- The room whose number an initiator's transactions carry (R16, R646). -/
def roomOf (i : Init) (s : State) : Nat :=
  match i with
  | .steward => 0
  | .linkCore _ => 0
  | .appCore c => (residentOn c.toNat s).getD 0
  | .debug =>
    if fget 0x40150000 Reg.DBG_STAT.STATE s = 3 ∧ bitOf (BitVec.ofNat 32 (fget 0x40150000 Reg.DBG_STAT.SCOPE s)) 7
    then bitsOf (BitVec.ofNat 32 (fget 0x40150000 Reg.DBG_STAT.SCOPE s)) 8 6 else 0

/-- The application core on which a room is resident (R441). -/
def residentCore (r : Nat) (s : State) : Option Nat :=
  (List.range 4).find? fun c => residentOn c s == some r

/-- The block that holds LEDG_RSTAT[r]. -/
def rstat (r : Nat) : Nat := 0x40070000 + 4 * r

/-- The room is suspended (R451). -/
def isSuspended (r : Nat) (s : State) : Bool := fis (rstat r) Reg.LEDG_RSTAT.SUSP s

/-! ### Power domains (R578) -/

/-- Power domain `p` is on: bit `p` of PWR_DOM0–2 (R600). -/
def pdOn (p : Nat) (s : State) : Bool := bitOf (rd (0x400F0028 + 4 * (p / 32)) s) (p % 32)

/-- Turn power domain `p` on or off. -/
def pdSet (p : Nat) (on : Bool) (s : State) : State :=
  wr (0x400F0028 + 4 * (p / 32)) (bitsPut (rd (0x400F0028 + 4 * (p / 32)) s) (p % 32) 1 (ofBool on)) s

end Sys2Proof.Machine
end

