-- ==== Sys2Proof/Machine/Door.lean ====
section
/-!
DEFINITION. The door check (R33–R43, R65, R350, R446) with the causes of R693 in their order, the record of a
refusal (R448), and the two shapes of a door-checked transaction that the register commands use.
-/

namespace Sys2Proof.Machine

/-- How a transaction reaches its target: the kinds of LEDG_REFUSE_ST.KIND. -/
inductive Access where
  | load
  | store
  | fetch
  deriving DecidableEq, Repr

/-- LEDG_REFUSE_ST.KIND of an access (R460). -/
def Access.code : Access → Nat
  | .load => 0
  | .store => 1
  | .fetch => 2

/-- What stands at a physical address (R40). -/
inductive Target where
  | rom
  | stewardSram
  | flash
  | tcm (core : Nat)
  | sram (bank : Nat)
  | queueWindow (q off : Nat)
  | queueMemory
  /-- a peripheral block: its place in the block table (0 FEA … 22 FAB control) and the offset in it -/
  | block (b off : Nat)
  | lanePage (n off : Nat)
  | tile (t off : Nat)
  | cipherPage (n off : Nat)
  | cipherCommon (off : Nat)
  /-- a lantern block: 0 calendar, 1 Knocker, 2 tamper, 3 wake and PMBus -/
  | lantern (b off : Nat)
  deriving DecidableEq, Repr

/-- The physical address map (R40); none outside every range (R41). -/
def targetOf (a : Nat) : Option Target :=
  if a < 0x40000 then some .rom
  else if 0x01000000 ≤ a ∧ a < 0x01080000 then some .stewardSram
  else if 0x08000000 ≤ a ∧ a < 0x0C000000 then some .flash
  else if 0x10000000 ≤ a ∧ a < 0x10080000 then some (.tcm ((a - 0x10000000) / 0x40000))
  else if 0x20000000 ≤ a ∧ a < 0x20C00000 then some (.sram ((a - 0x20000000) / 0xC0000))
  else if 0x30000000 ≤ a ∧ a < 0x30140000 then some (.queueWindow ((a - 0x30000000) / 0x1000) (a % 0x1000))
  else if 0x38000000 ≤ a ∧ a < 0x38200000 then some .queueMemory
  else if 0x40000000 ≤ a ∧ a < 0x40170000 then some (.block ((a - 0x40000000) / 0x10000) (a % 0x10000))
  else if 0x50000000 ≤ a ∧ a < 0x50010000 then some (.lanePage ((a - 0x50000000) / 0x100) (a % 0x100))
  else if 0x51000000 ≤ a ∧ a < 0x51400000 then some (.tile ((a - 0x51000000) / 0x1000) (a % 0x1000))
  else if 0x60000000 ≤ a ∧ a < 0x60040000 then some (.cipherPage ((a - 0x60000000) / 0x1000) (a % 0x1000))
  else if 0x60040000 ≤ a ∧ a < 0x60041000 then some (.cipherCommon (a % 0x1000))
  else if 0x70000000 ≤ a ∧ a < 0x70040000 then some (.lantern ((a - 0x70000000) / 0x10000) (a % 0x10000))
  else none

/-- The whole access lies at one target: the target of its first octet, when its last octet has one. -/
def targetOfAccess (a size : Nat) : Option Target :=
  match targetOf a, targetOf (a + size - 1) with
  | some t, some _ => some t
  | _, _ => none

/-- Register space, which accepts aligned 32-bit accesses and no fetch (R65, R446). -/
def Target.isRegister : Target → Bool
  | .rom => false
  | .stewardSram => false
  | .flash => false
  | .tcm _ => false
  | .sram _ => false
  | .queueMemory => false
  | _ => true

/-- A fetch is never served (R446): register space and queue memory. -/
def Target.noFetch (t : Target) : Bool := t.isRegister || t == .queueMemory

/-- The width or the alignment is not one the target accepts (R65, R350, R362). -/
def widthBad (t : Target) (a size : Nat) : Bool :=
  match t with
  | .queueWindow _ off =>
    if off < 8 then !(off == 0 && size == 8) else !(size == 4 && a % 4 == 0)
  | .queueMemory => !(size == 8 && a % 8 == 0)
  | _ => if t.isRegister then !(size == 4 && a % 4 == 0) else false

/-- The power domain whose power the target needs (R43, R578). -/
def domainOf (t : Target) (a : Nat) : Nat :=
  match t with
  | .rom => 2
  | .stewardSram => 2
  | .flash => if a < 0x0A000000 then 26 else 27
  | .tcm c => 4 + c
  | .sram k => 10 + k
  | .queueWindow _ _ => 28
  | .queueMemory => 28
  | .block 0 _ => 32
  | .block 1 _ => 36
  | .block 2 off => if off < 0x100 then 40 else if off < 0x200 then 41 else 3
  | .block 4 _ => 28
  | .block 5 _ => 31
  | .block 6 _ => 78
  | .block 10 _ => 29
  | .block 11 _ => 29
  | .block 12 _ => 30
  | .block 13 _ => 26
  | .block 16 _ => 74
  | .block 17 _ => 75
  | .block 18 _ => 75
  | .block 19 _ => 75
  | .block 20 off =>
    if 0x100 ≤ off ∧ off < 0x180 then 76 else if 0x180 ≤ off ∧ off < 0x200 then 77
    else if 0x400 ≤ off ∧ off < 0x420 then 76 else if 0x420 ≤ off ∧ off < 0x440 then 77
    else if 0x500 ≤ off ∧ off < 0x508 then 76 else if 0x508 ≤ off ∧ off < 0x510 then 77 else 3
  | .block 21 _ => 79
  | .block _ _ => 3
  | .lanePage _ _ => 3
  | .tile t _ => 42 + t / 32
  | .cipherPage _ _ => 29
  | .cipherCommon _ => 29
  | .lantern _ _ => 0

/-- The causes of a refusal that this file names (R693). -/
def causeNoGrant : Nat := 2
/-- NO_WINDOW (R693). -/
def causeNoWindow : Nat := 3
/-- RIGHTS (R693). -/
def causeRights : Nat := 4
/-- STEWARD_ONLY (R693). -/
def causeStewardOnly : Nat := 5
/-- PARITY (R39, R448). -/
def causeParity : Nat := 9
/-- ROOM_ONLY (R693). -/
def causeRoomOnly : Nat := 10

/-- BLOCKS bit `b` of the room's entry (R213). -/
def granted (b room : Nat) (s : State) : Bool :=
  match ledgerGet room s with
  | some e => e.blocks.testBit b
  | none => false

/-- The first cause of a list of (holds, cause) pairs that holds. -/
def firstCause : List (Bool × Nat) → Option Nat
  | [] => none
  | (true, c) :: _ => some c
  | (false, _) :: r => firstCause r

/-- Only the Steward is admitted. -/
def notSteward (i : Init) : Bool := i != .steward

/-- The rule of a peripheral block (R446 and the block's chapter). Room 0 needs no grant where the chapter
admits it by name. -/
def blockDeny (b off : Nat) (w : Bool) (i : Init) (room : Nat) (s : State) : Option Nat :=
  let grant := (!granted b room s, causeNoGrant)
  let grantOr0 := (!(room == 0 || granted b room s), causeNoGrant)
  let write0 := (w && room != 0, causeRoomOnly)
  let writeSteward := (w && notSteward i, causeStewardOnly)
  match b with
  -- FEA and FEB (R113, R147, R156)
  | 0 => if off = 0x44 then firstCause [writeSteward, grant]
    else if 0x800 ≤ off ∧ off < 0x1000 then
      firstCause [writeSteward, grant,
        (w && !(fget 0x40000000 Reg.LIC_STAT.STATE s == 0 || fget 0x40000000 Reg.LIC_STAT.STATE s == 3), causeRights)]
    else firstCause [grant]
  | 1 => firstCause [grant, (w && (off == 0x44 || off == 0xC0 || off == 0xC4 ||
      (0x800 ≤ off && off < 0x1000)), causeRights)]
  -- LINK (R311)
  | 3 => if 0x8000 ≤ off ∧ off < 0xC000 then firstCause [(room != (off - 0x8000) / 0x100, causeRoomOnly)]
    else firstCause [write0, grant]
  -- QUE control (R364), TIME (R404), SUP (R624)
  | 4 => firstCause [write0, grant]
  | 5 => firstCause [write0, grant]
  | 16 => firstCause [write0, grant]
  -- TMR: a page by its TIMERS bit (R406)
  | 6 => match ledgerGet room s with
    | some e => if e.timers.testBit (off / 0x100) then none else some causeNoGrant
    | none => some causeNoGrant
  -- LEDG (R460)
  | 7 => if off < 0x1000 then firstCause [writeSteward, grantOr0]
    else if 0x4000 ≤ off ∧ off < 0x8000 then
      let r := (off - 0x4000) / 0x100
      if off % 0x100 = 0 ∧ w = true then firstCause [(room != r, causeRoomOnly)]
      else if off % 0x100 = 4 ∧ w = true then firstCause [(notSteward i, causeStewardOnly)]
      else if w then firstCause [write0]
      else firstCause [(!(room == r || room == 0), causeRoomOnly)]
    else if 0x8000 ≤ off then
      firstCause [(!(room == 0 || room == (off - 0x8000) / 0x200), causeRoomOnly), (w, causeRights)]
    else firstCause [(true, causeRights)]
  -- EVT (R461)
  | 8 => if off < 0x1000 then
      match i with
      | .debug => some causeRoomOnly
      | _ => if off < 0x700 then (if i.num = off / 0x100 then none else some causeRoomOnly) else none
    else firstCause [grantOr0]
  -- PH (R464, R475)
  | 9 => if 0x1000 ≤ off ∧ off < 0x2000 then none
    else firstCause [(w && off == 0 && notSteward i, causeStewardOnly), (w && off != 0, causeRights), grantOr0]
  -- CIP control (R508)
  | 10 => firstCause [(w && off == 8 && notSteward i, causeStewardOnly),
      (w && off == 0 && room != 0, causeRoomOnly), grant, (w && off != 0 && off != 8, causeRights)]
  -- KEY (R534)
  | 11 => if 0x8000 ≤ off ∧ off < 0xC000 then firstCause [(room != (off - 0x8000) / 0x100, causeRoomOnly)]
    else if off = 0xC ∨ (0x200 ≤ off ∧ off < 0x280) ∨ (0x1000 ≤ off ∧ off < 0x1200) then
      firstCause [(notSteward i, causeStewardOnly)]
    else firstCause [write0, grantOr0]
  -- RNG (R535)
  | 12 => firstCause [(off == 8 && notSteward i, causeStewardOnly), grant]
  -- FLC (R546, R559)
  | 13 => if 0x8000 ≤ off ∧ off < 0xC000 then firstCause [(room != (off - 0x8000) / 0x100, causeRoomOnly)]
    else firstCause [(w && off == 0x1C && notSteward i, causeStewardOnly), write0, grantOr0]
  -- UPD (R577)
  | 14 => firstCause [writeSteward, grantOr0]
  -- PWR (R600)
  | 15 => if off = 0x1C ∧ w = true then
      (match i with
       | .linkCore _ => none
       | _ => some causeRoomOnly)
    else firstCause [writeSteward, grantOr0]
  -- UART and I2C (R637, R640)
  | 18 => if off = 0xF00 then firstCause [writeSteward, grantOr0]
    else firstCause [(decide (off < 0x200) && room != bitsOf (rd 0x40120F00 s) (8 * (off / 0x100)) 6,
      causeRoomOnly), grant]
  | 19 => if off = 0xF00 then firstCause [writeSteward, grantOr0]
    else firstCause [(decide (off < 0x200) && room != bitsOf (rd 0x40130F00 s) (8 * (off / 0x100)) 6,
      causeRoomOnly), grant]
  -- GPIO (R642, R652)
  | 20 => if off < 0x20 then firstCause [writeSteward, grant]
    else if off = 0x20 then firstCause [(room != 0, causeRoomOnly), grant]
    else firstCause [grant]
  -- DBG (R653)
  | 21 => if off = 4 then firstCause [(notSteward i, causeStewardOnly)]
    else if 0x100 ≤ off ∧ off < 0x200 then
      (if w then firstCause [(room != (off - 0x100) / 4, causeRoomOnly)]
       else firstCause [(!(room == 0 || room == (off - 0x100) / 4), causeRoomOnly)])
    else firstCause [grantOr0]
  -- FAB control (R227, R239)
  | 22 => firstCause [(w && off == 4 && notSteward i, causeStewardOnly), grant]
  -- CHZ, HOST: the ledger's grant alone (R187, R650)
  | _ => firstCause [grant]

/-- The whole access lies in the window (R446). -/
def Window.covers (w : Window) (a size : Nat) : Bool := w.base ≤ a && a + size ≤ w.base + w.size

/-- The windows of the room's entry. -/
def windowsOf (room : Nat) (s : State) : List Window :=
  match ledgerGet room s with
  | some e => e.windows
  | none => []

/-- The right an access needs: bits R, W, X of a window's RIGHTS (R213). -/
def rightBit : Access → Nat
  | .load => 0
  | .store => 1
  | .fetch => 2

/-- The window rule (R446): one window holds the whole access and grants the right. A flash load needs R or X
(R538). -/
def windowDeny (k : Access) (a size room : Nat) (s : State) : Option Nat :=
  let ws := (windowsOf room s).filter fun w => w.covers a size
  if ws.isEmpty then some causeNoWindow
  else if ws.any fun w => w.rights.testBit (rightBit k) ||
      (k == .load && decide (0x08000000 ≤ a ∧ a < 0x0C000000) && w.rights.testBit 2) then none
  else some causeRights

/-- The key shelf, which the Steward alone reaches (R40, R538). -/
def inKeyShelf (a : Nat) : Bool := 0x0AF00000 ≤ a && a < 0x0B000000

/-- The staging range is locked (R565): UPD_STAT.LOCK with UPD_STG_BASE and UPD_STG_SIZE. -/
def inLockedStaging (a size : Nat) (s : State) : Bool :=
  fis 0x400E0000 Reg.UPD_STAT.LOCK s &&
    decide (fget 0x400E0000 Reg.UPD_STG_BASE.BASE s * 0x1000 < a + size) &&
    decide (a < (fget 0x400E0000 Reg.UPD_STG_BASE.BASE s + fget 0x400E0000 Reg.UPD_STG_SIZE.SIZE s) * 0x1000)

/-- An event's routing entry can place a lane or queue: RXQ bit `q` of the room's entry (R351). -/
def grantsRxq (q room : Nat) (s : State) : Bool :=
  match ledgerGet room s with
  | some e => e.rxq.getLsbD q
  | none => false

/-- LANES bit `n` of the room's entry (R251). -/
def grantsLane (n room : Nat) (s : State) : Bool :=
  match ledgerGet room s with
  | some e => e.lanes.getLsbD n
  | none => false

/-- The rule of each target (R446). -/
def targetDeny (t : Target) (a size : Nat) (k : Access) (i : Init) (room : Nat) (s : State) : Option Nat :=
  let steward := firstCause [(notSteward i, causeStewardOnly)]
  match t with
  | .rom => firstCause [(notSteward i, causeStewardOnly), (k == .store, causeRights)]
  | .stewardSram => steward
  | .queueMemory => firstCause [(notSteward i, causeStewardOnly), (k == .store, causeRights)]
  | .tile _ _ => steward
  | .tcm c =>
    if i = .steward ∨ (i.num = 1 + c ∧ a + size ≤ 0x10000000 + 0x40000 * (c + 1)) then
      firstCause [(k == .store && inLockedStaging a size s, causeRights)]
    else some causeRoomOnly
  | .flash =>
    if inKeyShelf a then steward else windowDeny k a size room s
  | .sram _ =>
    match windowDeny k a size room s with
    | some c => some c
    | none => firstCause [(k == .store && inLockedStaging a size s, causeRights)]
  | .queueWindow q _ =>
    if 256 ≤ q then
      firstCause [(room != q - 256, causeRoomOnly),
        (!fis (0x40040000 + 4 * q) Reg.QC_RING.V s, causeNoGrant)]
    else firstCause [(!(grantsRxq q room s && fis (0x40040000 + 4 * q) Reg.QC_RING.V s), causeNoGrant)]
  | .block b off => blockDeny b off (k == .store) i room s
  | .lanePage n off =>
    if off = 0x08 ∨ (0x18 ≤ off ∧ off < 0x34) then
      firstCause [(room != 0, causeRoomOnly), (!(room == 0 || grantsLane n room s), causeNoGrant)]
    else firstCause [(!grantsLane n room s, causeNoGrant)]
  | .cipherPage n _ => firstCause [(room != n, causeRoomOnly)]
  | .cipherCommon _ => firstCause [(!granted 25 room s, causeNoGrant)]
  | .lantern 0 _ =>
    firstCause [(k == .store && room != 0, causeRoomOnly), (!(room == 0 || granted 24 room s), causeNoGrant)]
  | .lantern 3 off =>
    firstCause [(k == .store && (off == 0x308 || off == 0x30C) && notSteward i, causeStewardOnly),
      (room != 0, causeRoomOnly)]
  | .lantern _ _ => firstCause [(room != 0, causeRoomOnly)]

/-- What stands at the address lies in a domain that is off. -/
def poweredOff (a : Nat) (s : State) : Bool :=
  match targetOf a with
  | some t => !pdOn (domainOf t a) s
  | none => false

/-- The door check of an access of `size` octets at `a` by `i` in the name of `room`: the cause of its refusal, the
first in R693's order that applies; none when it is admitted. -/
def doorCheckAs (i : Init) (room a size : Nat) (k : Access) (s : State) : Option Nat :=
  match targetOfAccess a size with
  | none => some 1
  | some t =>
    if k ≠ .fetch ∧ widthBad t a size = true then some 7
    else if pdOn (domainOf t a) s = false ∨ poweredOff (a + size - 1) s = true then some 6
    else if isSuspended room s then some 8
    else match targetDeny t a size k i room s with
      | some c => some c
      | none => if k = .fetch ∧ t.noFetch = true then some causeRights else none

/-- The door check of a transaction, which carries its initiator's room (R16). -/
def doorCheck (i : Init) (a size : Nat) (k : Access) (s : State) : Option Nat :=
  doorCheckAs i (roomOf i s) a size k s

/-! ### Traps and refusals -/

/-- The resets of an application core's trap registers and the machine-mode trap (RISC-V privileged 20211203,
R436): trap entry of a processor into M mode, or into S mode where a cause is delegated and the mode is below M. -/
def trapEntry (cause : Nat) (interrupt : Bool) (tval : Nat) (c : CoreCtx) : CoreCtx :=
  let g (k : Nat) : Word64 := tget csrReset c.csr k
  let status := (g 0).toNat
  let deleg := if interrupt then (g 8).toNat else (g 7).toNat
  let code : Word64 := BitVec.ofNat 64 (cause + (if interrupt then 2 ^ 63 else 0))
  let vec (t : Word64) : Word64 :=
    if t.toNat % 4 = 1 ∧ interrupt = true then BitVec.ofNat 64 (t.toNat / 4 * 4 + 4 * cause)
    else BitVec.ofNat 64 (t.toNat / 4 * 4)
  let put (k : Nat) (v : Word64) (t : Tbl Word64) : Tbl Word64 := tset csrReset t k v
  let bit (n : Nat) : Nat := status / 2 ^ n % 2
  if deleg.testBit cause ∧ c.priv ≠ 3 then
    -- sepc, scause, stval; SPIE takes SIE, SIE is cleared, SPP takes the mode
    let st := status - bit 1 * 2 - bit 5 * 32 - bit 8 * 256 + bit 1 * 32 + (c.priv % 2) * 256
    { c with
      csr := put 0 (BitVec.ofNat 64 st) (put 11 c.pc (put 12 code (put 13 (BitVec.ofNat 64 tval) c.csr)))
      priv := 1, pc := vec (g 10), waiting := false }
  else
    -- mepc, mcause, mtval; MPIE takes MIE, MIE is cleared, MPP takes the mode
    let st := status - bit 3 * 8 - bit 7 * 128 - (status / 2048 % 4) * 2048 + bit 3 * 128 + c.priv * 2048
    { c with
      csr := put 0 (BitVec.ofNat 64 st) (put 2 c.pc (put 3 code (put 4 (BitVec.ofNat 64 tval) c.csr)))
      priv := 3, pc := vec (g 1), waiting := false }

/-- The processor of an initiator; none for the debug module. -/
def initCore : Init → Option Nat
  | .debug => none
  | i => some i.num

/-- The trap cause of a refused access (R447): 1 fetch, 5 load, 7 store or AMO. -/
def trapCause : Access → Nat
  | .load => 5
  | .store => 7
  | .fetch => 1

/-- The record of a refusal (R448): counted always, recorded while no refusal is held. -/
def recordRefusal (i : Init) (room a : Nat) (k : Access) (cause : Nat) (s : State) : State :=
  let b := 0x40070000
  let s1 := fcount b Reg.LEDG_REFUSE_CNT.CNT s
  if fis b Reg.LEDG_REFUSE_ST.V s1 then s1
  else
    raiseEvt 1016 (wr (b + 0x10) (BitVec.ofNat 32 a)
      (fset b Reg.LEDG_REFUSE_ST.V 1 (fset b Reg.LEDG_REFUSE_ST.INIT i.num
        (fset b Reg.LEDG_REFUSE_ST.ROOM room (fset b Reg.LEDG_REFUSE_ST.KIND k.code
          (fset b Reg.LEDG_REFUSE_ST.CAUSE cause s1))))))

/-- A parity mismatch is recorded in the same way and raises BUS_PARITY as well (R39, R448). -/
def parityFault (s : State) : State :=
  raiseEvt 1017 (fset 0x40070000 Reg.LEDG_ERR.PARITY 1 s)

/-- A refused transaction (R33, R447, R448): nothing changes at the target, the refusal is recorded, and a core
takes its access fault, with the address as mtval or stval. -/
def refuse (i : Init) (a : Nat) (k : Access) (cause : Nat) (s : State) : State :=
  let s1 := recordRefusal i (roomOf i s) a k cause s
  let s2 := if cause = causeParity then parityFault s1 else s1
  let s3 := { s2 with bus := { s2.bus with resp := .refused cause } }
  match initCore i with
  | some c => coreSet c (trapEntry (trapCause k) false a (coreGet c s3)) s3
  | none => s3

/-- The initiator issues transactions: an application core while a room is resident on it (R441), and the debug
module in OPEN, or in UNLOCKED with the system bus in scope and, as a guest room, with its consent (R646, R647). -/
def issues (i : Init) (s : State) : Bool :=
  match i with
  | .appCore c => (residentOn c.toNat s).isSome
  | .debug =>
    let st := fget 0x40150000 Reg.DBG_STAT.STATE s
    let r := roomOf .debug s
    pdOn 79 s && (st == 0 ||
      (st == 3 && (fget 0x40150000 Reg.DBG_STAT.SCOPE s).testBit 7 &&
        (r == 0 || fis (0x40150000 + 4 * r) Reg.DBG_CONSENT.ALLOW s)))
  | _ => true

/-- A transaction of `size` octets: nothing when its initiator issues none, a refusal, or the access `f`. -/
def doorAccess (i : Init) (a size : Nat) (k : Access) (f : State → State) (s : State) : State :=
  if issues i s then
    match doorCheck i a size k s with
    | some c => refuse i a k c s
    | none => f s
  else s

/-- A door-checked register store whose effect is `f`. -/
def doorStore (i : Init) (a : Nat) (f : State → State) (s : State) : State :=
  doorAccess i a 4 .store (fun t => acknowledge (f t)) s

/-- A door-checked register load; `f` gives the value and its effect. -/
def doorLoad (i : Init) (a : Nat) (f : State → Word × State) (s : State) : State :=
  doorAccess i a 4 .load (fun t => let r := f t; respondWord r.1 r.2) s

end Sys2Proof.Machine
end

