-- ==== Sys2Proof/Machine/FeBase.lean ====
section
/-!
DEFINITION. Front-end basics: addresses, pins (R87), die temperature samples (R134), the tuner (R105–R110), the
licence table (R144–R151) and the output power of a frame (R139–R142).
-/

namespace Sys2Proof.Machine

open Reg

/-- The block of a front end (R115). -/
def feB (fe : Fe) : Nat := 0x40000000 + 0x10000 * fe.num

/-- The first event of a front end (R114). -/
def feEv (fe : Fe) : Nat := 760 + 15 * fe.num

/-- What a front end holds. -/
def feGet (fe : Fe) (s : State) : FeState :=
  match fe with
  | .a => s.feA
  | .b => s.feB

/-- Set what a front end holds. -/
def fePut (fe : Fe) (v : FeState) (s : State) : State :=
  match fe with
  | .a => { s with feA := v }
  | .b => { s with feB := v }

/-- FE_STAT.STATE (R88): 0 SLEEP, 1 STANDBY, 2 SYNTH, 3 RX, 4 TX, 5 DUPLEX. -/
def feState (fe : Fe) (s : State) : Nat := fget (feB fe) FE_STAT.STATE s

/-- Both front ends. -/
def allFe : List Fe := [.a, .b]

/-- The FE_CTLMAP pattern of a state (R124). -/
def ctlPattern (fe : Fe) (st : Nat) (s : State) : Nat := bitsOf (rd (feB fe + 0x28) s) (4 * st) 4

/-- The control pins take the pattern of a state (R87). -/
def feCtlPins (fe : Fe) (st : Nat) (s : State) : State :=
  fePut fe { feGet fe s with ctlPins := ctlPattern fe st s } s

/-- CAL_PEND is set (R133); during a calibration set it stays set for the next lock (R136). -/
def calRequest (fe : Fe) (s : State) : State :=
  let f := feGet fe s
  let s1 := match f.trans with
    | some t => if t.cal then fePut fe { f with calAgain := true } s else s
    | none => s
  fset (feB fe) FE_STAT.CAL_PEND 1 s1

/-- A die temperature sample, in 0.25 °C (R134): recorded, and a request when it lies more than TEMP_DELTA from
the last calibration's. -/
def tempSample (fe : Fe) (temp : BitVec 16) (s : State) : State :=
  let s1 := fset (feB fe) CAL_CFG.TEMP_NOW temp.toNat s
  let delta := fget (feB fe) CAL_CFG.TEMP_DELTA s1
  let d := temp.toInt - fgetS (feB fe) CAL_STAT.TEMP_AT_CAL s1
  if delta ≠ 0 ∧ (d.natAbs > 4 * delta) then calRequest fe s1 else s1

/-! ### The antenna tuner -/

/-- The setting fields of FE_TUNE: C_SER in bits 4:0, C_SH1 in 10:5, C_SH2 in 16:11 (R127). -/
def tuneSetting (fe : Fe) (s : State) : Nat := bitsOf (rd (feB fe + 0x34) s) 0 17

/-- A tuner setting is given (R106): in force at once in SLEEP, STANDBY or SYNTH, else held. -/
def tuneGive (fe : Fe) (setting : Nat) (s : State) : State :=
  let s1 := wr (feB fe + 0x34) (bitsPut (rd (feB fe + 0x34) s) 0 17 setting) s
  if feState fe s1 ≤ 2 then
    fset (feB fe) FE_TUNE.PENDING 0 (fePut fe { feGet fe s1 with tuneNow := setting } s1)
  else fset (feB fe) FE_TUNE.PENDING 1 s1

/-- A held setting takes effect at the first tick of a transition into TX or DUPLEX (R106). -/
def tuneApply (fe : Fe) (s : State) : State :=
  fset (feB fe) FE_TUNE.PENDING 0 (fePut fe { feGet fe s with tuneNow := tuneSetting fe s } s)

/-- A setting moved by one of the six moves of R110; none when the move leaves its bank's range. -/
def tuneMove (setting m : Nat) : Option Nat :=
  let ser := setting % 32
  let sh1 := setting / 32 % 64
  let sh2 := setting / 2048 % 64
  match m with
  | 0 => if sh1 < 63 then some (setting + 32) else none
  | 1 => if 0 < sh1 then some (setting - 32) else none
  | 2 => if ser < 31 then some (setting + 1) else none
  | 3 => if 0 < ser then some (setting - 1) else none
  | 4 => if sh2 < 63 then some (setting + 2048) else none
  | _ => if 0 < sh2 then some (setting - 2048) else none

/-- The next move from `m` on that stays inside the banks' ranges, with the setting it gives. -/
def tuneNextMove (setting : Nat) : Nat → Nat → Nat × Nat
  | 0, m => (m % 6, setting)
  | n + 1, m =>
    match tuneMove setting (m % 6) with
    | some t => (m % 6, t)
    | none => tuneNextMove setting n (m + 1)

/-- One step of the automatic search after a valid measurement (R110). -/
def autoTuneStep (fe : Fe) (gamma : Nat) (s : State) : State :=
  let f := feGet fe s
  let r := f.search
  let setting := tuneSetting fe s
  let r1 : TuneSearch :=
    if r.trying then
      if gamma < r.bestGamma then { r with best := setting, bestGamma := gamma, fails := 0, trying := false }
      else { r with fails := r.fails + 1, move := (r.move + 1) % 6, trying := false }
    else if setting = r.best then
      { r with fails := if gamma > r.bestGamma + 8 then 0 else r.fails, bestGamma := gamma }
    else r
  let reverted := r.trying && !decide (gamma < r.bestGamma)
  if r1.bestGamma > fget (feB fe) FE_TUNE_CFG.TARGET s ∧ r1.fails < 6 then
    let mv := tuneNextMove r1.best 6 r1.move
    tuneGive fe mv.2 (fePut fe { f with search := { r1 with move := mv.1, trying := true } } s)
  else
    let s1 := fePut fe { f with search := r1 } s
    if reverted then tuneGive fe r1.best s1 else s1

/-! ### The licence table -/

/-- The licence table the device holds, octet by octet: the staging RAM or the programmed memory. -/
def licByte (t : Tbl Byte) (k : Nat) : Nat := (tget (fun _ => (0 : Byte)) t k).toNat

/-- A little-endian field of `n` octets at `k` of a licence image. -/
def licField (t : Tbl Byte) (k n : Nat) : Nat :=
  ofLeBytes ((List.range n).map fun j => tget (fun _ => (0 : Byte)) t (k + j))

/-- The octets `k` to `k + n − 1` of a licence image. -/
def licBytes (t : Tbl Byte) (k n : Nat) : List Byte := (List.range n).map fun j => tget (fun _ => (0 : Byte)) t (k + j)

/-- Every octet of a range is 0. -/
def licZero (t : Tbl Byte) (k n : Nat) : Bool := (licBytes t k n).all fun b => b == 0

/-- The magic number of a licence table (R144). -/
def licMagic : Nat := 0x43494C51

/-- The offset of entry `e` (R144). -/
def licEntry (e : Nat) : Nat := 32 + 32 * e

/-- An entry's fields lie in the ranges of R144, and its band in one front end's range (R145). -/
def licEntryValid (t : Tbl Byte) (e : Nat) : Bool :=
  let o := licEntry e
  let lo := licField t o 4
  let hi := licField t (o + 4) 4
  let duty := licField t (o + 0xA) 2
  let win := licField t (o + 0xC) 2
  decide (lo < hi) &&
  (decide (410000000 ≤ lo ∧ hi ≤ 1050000000) || decide (2400000000 ≤ lo ∧ hi ≤ 2483500000)) &&
  (if win = 0 then decide (duty ≤ 10000) else decide (1 ≤ duty ∧ duty ≤ 10000)) &&
  decide (licByte t (o + 0x10) ≤ 15) && decide (licByte t (o + 0x11) ≤ 1) &&
  decide (licByte t (o + 0x13) < 4) &&
  (licByte t (o + 0x11) == 0 || decide (1 ≤ licField t (o + 0x14) 2)) &&
  decide (licByte t (o + 0x16) ≤ 100) && licZero t (o + 0x17) 9

/-- Entries that share a DUTY_GROUP carry equal DUTY and DUTY_WIN (R145). -/
def licGroupsAgree (t : Tbl Byte) (n : Nat) : Bool :=
  (List.range n).all fun a => (List.range n).all fun b =>
    licByte t (licEntry a + 0x10) != licByte t (licEntry b + 0x10) ||
      (licField t (licEntry a + 0xA) 2 == licField t (licEntry b + 0xA) 2 &&
       licField t (licEntry a + 0xC) 2 == licField t (licEntry b + 0xC) 2)

/-- The table check (R145). -/
def licValid (t : Tbl Byte) : Bool :=
  let n := licByte t 5
  licField t 0 4 == licMagic && licByte t 4 == 1 && decide (1 ≤ n ∧ n ≤ 62) &&
  decide (1 ≤ licByte t 0xC ∧ licByte t 0xC ≤ 100) && licByte t 0xD == 0 && licZero t 0x10 12 &&
  licField t 0x1C 4 == crc32c (licBytes t 0 0x1C ++ licBytes t 32 (32 * n)) &&
  (List.range n).all (licEntryValid t) && licGroupsAgree t n && licZero t (licEntry n) (2048 - licEntry n)

/-- Some bit of the programmed memory is 1. -/
def licAnything (t : Tbl Byte) : Bool := t.any fun e => e.2 != 0

/-- LIC_STAT.STATE from what is programmed (R149): 0 BLANK, 2 LOCKED, 3 PARTIAL, 4 FAULT. -/
def licStateOf (t : Tbl Byte) : Nat :=
  if !licAnything t then 0
  else if licField t 0 4 = licMagic then (if licValid t then 2 else 4)
  else if (licField t 0 4) &&& (0xFFFFFFFF - licMagic) = 0 then 3
  else 4

/-- At a start the state is derived from what is programmed, and the staging RAM takes a copy (R147, R149). -/
def licStart (s : State) : State :=
  let st := licStateOf s.lic.otp
  let s1 := { s with lic := { s.lic with stage := s.lic.otp } }
  fset 0x40000000 LIC_STAT.STATE st
    (fset 0x40000000 LIC_STAT.N_ENTRIES (if st = 2 then licByte s.lic.otp 5 else 0) s1)

/-- The entry that governs an occupied band: the lowest-numbered one that holds it whole (R150). -/
def licGovern (lo hi : Nat) (s : State) : Option Nat :=
  (List.range (licByte s.lic.otp 5)).find? fun e =>
    decide (licField s.lic.otp (licEntry e) 4 ≤ lo) && decide (hi ≤ licField s.lic.otp (licEntry e + 4) 4)

/-- A field of entry `e` of the programmed table. -/
def licGet (e k n : Nat) (s : State) : Nat := licField s.lic.otp (licEntry e + k) n

/-- The frequency tolerance of an entry in ppm; 0 takes the header's (R144). -/
def licTol (e : Nat) (s : State) : Nat :=
  if licGet e 0x16 1 s = 0 then licByte s.lic.otp 0xC else licGet e 0x16 1 s

/-- G_ext in 0.25 dB (R150). -/
def licGext (fe : Fe) (s : State) : Int :=
  match fe with
  | .a => max (licField s.lic.otp 0xA 2 : Int)
      (if fis (feB .a) FE_CTRL.EXTPA_EN s then (fget (feB .a) FE_EXTPA.GAIN s : Int) else 0)
  | .b => 0

/-- The licence cap in 0.25 dBm (R150). -/
def licCap (fe : Fe) (e : Nat) (s : State) : Int :=
  let ant := signedOf 16 (licField s.lic.otp (match fe with
    | .a => 6
    | .b => 8) 2)
  signedOf 16 (licGet e 8 2 s) - licGext fe s - (if (licGet e 0x13 1 s).testBit 0 then ant else 0)

/-! ### The output power of a frame -/

/-- The front end's nominal supply in mV (R141, R142). -/
def paVnom : Fe → Nat
  | .a => 3300
  | .b => 1800

/-- The headroom ceiling at or above the nominal supply, in 0.25 dBm (R141). -/
def paFull : Fe → Nat
  | .a => 88
  | .b => 56

/-- P_head at supply `v` mV is at least `q` × 0.25 dBm (R141), compared exactly:
`full + 20 log10 (v / vnom) ≥ q / 4` is `v ^ 80 * 10 ^ (4 full − q) ≥ vnom ^ 80`. -/
def headAtLeast (fe : Fe) (v : Nat) (q : Int) : Bool :=
  if q > (paFull fe : Int) then false
  else if paVnom fe ≤ v then true
  else decide (paVnom fe ^ 80 ≤ v ^ 80 * 10 ^ ((paFull fe : Int) - q).toNat)

/-- P_head at supply `v` is at most `q` × 0.25 dBm (R141). -/
def headAtMost (fe : Fe) (v : Nat) (q : Int) : Bool :=
  if paVnom fe ≤ v then decide ((paFull fe : Int) ≤ q)
  else if q ≥ (paFull fe : Int) then true
  else decide (v ^ 80 * 10 ^ ((paFull fe : Int) - q).toNat ≤ paVnom fe ^ 80)

/-- P_head rounded down to 0.25 dB; below −20 dBm the exact value no longer matters (R140). -/
def headFloor (fe : Fe) (v : Nat) : Int :=
  (((List.range 400).find? fun k => headAtLeast fe v ((paFull fe : Int) - (k : Nat))).map
    fun k => (paFull fe : Int) - (k : Nat)).getD (-400)

/-- P_set in 0.25 dBm (R140). -/
def powerSet (fe : Fe) (req plic : Int) (v : Nat) (s : State) : Int :=
  max (-80) (min (min req (fgetS (feB fe) FE_PA.MAX_QDBM s)) (min plic (headFloor fe v)) -
    (if fis (feB fe) FE_ERR.PROT s then 24 else 0))

/-- The range of a front end in Hz (R74): its lower end and its width. -/
def feRange : Fe → Nat × Nat
  | .a => (410000000, 640000000)
  | .b => (2400000000, 83500000)

/-- The drive code D of R142, computed exactly over the unit's trim points (micro-dBm) and rounded. -/
def driveCode (fe : Fe) (freq : Nat) (pset : Int) (temp : Int) (v : Nat) : Nat :=
  let r := feRange fe
  let x := (freq - r.1) * 15
  let k := x / r.2
  let frac := x % r.2
  let p0 := Config.paTrim fe.num k
  let p1 := Config.paTrim fe.num (k + 1)
  let alpha : Int := match fe with
    | .a => 4500
    | .b => 6000
  let beta : Int := match fe with
    | .a => 900
    | .b => 1500
  let n : Int := (r.2 : Int) * (pset * 250000 - p0 + alpha * (temp - 100) - beta * ((v : Int) - paVnom fe)) -
    (p1 - p0) * frac
  (clampInt 0 255 (roundDiv (4 * n) (1000000 * r.2))).toNat

/-- The power setting at a frame start (R139–R142): PA_SENSE, FE_PA.LAST_QDBM and PA_DRIVE; FE_PA_PROT fires when
PROT is set (R109). `req` and `plic` are in 0.25 dBm, `temp` in 0.25 °C, `v` in mV. -/
def txPowerSet (fe : Fe) (freq : Nat) (req plic : Int) (temp : BitVec 16) (v : Nat) (s : State) : State :=
  let b := feB fe
  let pset := powerSet fe req plic v s
  let least := min (min req (fgetS b FE_PA.MAX_QDBM s)) plic
  let s1 := fset b PA_SENSE.VPA_MV v (fset b PA_SENSE.TEMP temp.toNat s)
  let s2 := fsetS b FE_PA.LAST_QDBM pset s1
  let s3 := fset b PA_DRIVE.DRIVE (driveCode fe freq pset temp.toInt v) s2
  let s4 := fset b PA_DRIVE.HEAD (ofBool (headAtMost fe v least)) s3
  let s5 := fset b PA_DRIVE.LIC (ofBool (decide (plic = least) && headAtLeast fe v plic)) s4
  if fis b FE_ERR.PROT s5 then raiseEvt (feEv fe + 6) s5 else s5

end Sys2Proof.Machine
end

