-- ==== Sys2Proof/Machine/Ledger.lean ====
section
/-!
DEFINITION. Ledger entries (R213): their layout, their checks one by one and against each other, and the octets a
mirror shows (R460). The plan loader and LEDG_CMD COMMIT use the same checks (R217, R445).
-/

namespace Sys2Proof.Machine

/-- The little-endian number of `n` octets at offset `o` of a list. -/
def leAt (l : List Byte) (o n : Nat) : Nat := ofLeBytes ((l.drop o).take n)

/-- Octets `o` to `o + n − 1` of a list are 0. -/
def zeroAt (l : List Byte) (o n : Nat) : Bool := ((l.drop o).take n).all fun b => b == 0

/-- The ROOM field of an entry (R213). -/
def entryRoom (l : List Byte) : Nat := leAt l 0 1

/-- Window `k` of an entry's octets (R213). -/
def entryWindow (l : List Byte) (k : Nat) : Window :=
  ⟨leAt l (0x60 + 12 * k) 4, leAt l (0x64 + 12 * k) 4, leAt l (0x68 + 12 * k) 4⟩

/-- An entry read from its 288 octets (R213). -/
def entryParse (l : List Byte) : LedgerEntry :=
  { timers := leAt l 4 4, blocks := leAt l 8 4, lanes := BitVec.ofNat 256 (leAt l 0x10 32),
    rxq := BitVec.ofNat 256 (leAt l 0x30 32), windows := (List.range (leAt l 0x50 1)).map (entryWindow l) }

/-- The 288 octets of room `r`'s entry as its mirror shows it (R213, R460). -/
def entryBytes (r : Nat) (e : LedgerEntry) : List Byte :=
  leBytes 4 r ++ leBytes 4 e.timers ++ leBytes 4 e.blocks ++ leBytes 4 0 ++ leBytes 32 e.lanes.toNat ++
    leBytes 32 e.rxq.toNat ++ leBytes 16 e.windows.length ++
    (e.windows.flatMap fun w => leBytes 4 w.base ++ leBytes 4 w.size ++ leBytes 4 w.rights) ++
    leBytes (12 * (16 - e.windows.length)) 0

/-- A window's ranges and rights (R213, R538). -/
def windowOk (room : Nat) (w : Window) : Bool :=
  w.base % 4096 == 0 && w.size % 4096 == 0 && decide (4096 ≤ w.size) && decide (w.rights < 8) &&
  (decide (0x20000000 ≤ w.base ∧ w.base + w.size ≤ 0x20C00000) ||
   decide (0x08400000 ≤ w.base ∧ w.base + w.size ≤ 0x0AF00000) ||
   (room == 0 && decide (0x08040000 ≤ w.base ∧ w.base + w.size ≤ 0x08400000)))

/-- The bits of a set lie in another set of lanes or queues. -/
def within256 (v : BitVec 256) (p : Nat → Bool) : Bool := (List.range 256).all fun k => !v.getLsbD k || p k

/-- The checks of one entry by itself (R213): `lane` tells which lanes are defined, `queue` which are carved. -/
def entryOk (l : List Byte) (lane queue : Nat → Bool) : Bool :=
  let e := entryParse l
  let n := leAt l 0x50 1
  decide (entryRoom l < 64) && zeroAt l 1 3 && decide (e.timers < 2 ^ 20) &&
  (e.blocks &&& (0xFFFFFFFF - 0x37FFFFF)) == 0 && zeroAt l 0xC 4 &&
  within256 e.lanes lane && within256 e.rxq queue && decide (n ≤ 16) && zeroAt l 0x51 15 &&
  zeroAt l (0x60 + 12 * n) (192 - 12 * n) && e.windows.all (windowOk (entryRoom l))

/-- Two windows overlap. -/
def Window.meets (a b : Window) : Bool := decide (a.base < b.base + b.size) && decide (b.base < a.base + a.size)

/-- Two rooms' entries agree (R213): no lane and no queue twice, no overlap with a window that has W. -/
def entriesAgree (a b : LedgerEntry) : Bool :=
  (a.lanes &&& b.lanes) == 0 && (a.rxq &&& b.rxq) == 0 &&
  a.windows.all fun x => b.windows.all fun y => !(x.meets y && (x.rights.testBit 1 || y.rights.testBit 1))

/-- A lane is defined by the plan in use. -/
def laneDefined (n : Nat) (s : State) : Bool := (tget (fun _ => none) s.plan.lanes n).isSome

/-- The descriptor of a lane of the plan in use (R211). -/
def laneDesc (n : Nat) (s : State) : Option LaneDesc := tget (fun _ => none) s.plan.lanes n

/-- A queue has a ring (R345). -/
def queueCarved (q : Nat) (s : State) : Bool := fis (0x40040000 + 4 * q) Reg.QC_RING.V s

/-- A whole entry for `room` passes R213 against the plan in use and every other entry (R445). -/
def commitOk (l : List Byte) (room : Nat) (s : State) : Bool :=
  entryRoom l == room && entryOk l (fun n => laneDefined n s) (fun q => queueCarved q s) &&
  (List.range 64).all fun r => r == room ||
    (match ledgerGet r s with
     | some e => entriesAgree (entryParse l) e
     | none => true)

/-- A window of `old` is removed or narrowed in `new` (R445). -/
def windowsNarrowed (old new : LedgerEntry) : Bool :=
  old.windows.any fun w => !(new.windows.any fun v =>
    decide (v.base ≤ w.base ∧ w.base + w.size ≤ v.base + v.size) && (v.rights &&& w.rights) == w.rights)

end Sys2Proof.Machine
end

