-- ==== Sys2Proof/Machine/Chz.lean ====
section
/-!
DEFINITION. Capture and gain (spec/05_capture_and_gain.md): the wideband gain loop, MANUAL gain, overload episodes,
and what a residence's start and end do to them.
-/

namespace Sys2Proof.Machine

open Reg

/-- The CHZ bank of a front end (R187). -/
def chzB (fe : Fe) : Nat := 0x40020000 + 0x100 * fe.num

/-- What a bank holds. -/
def chzGet (fe : Fe) (s : State) : ChzState :=
  match fe with
  | .a => s.chzA
  | .b => s.chzB

/-- Set what a bank holds. -/
def chzPut (fe : Fe) (v : ChzState) (s : State) : State :=
  match fe with
  | .a => { s with chzA := v }
  | .b => { s with chzB := v }

/-- The gain code in force. -/
def chzGain (fe : Fe) (s : State) : Nat := fget (chzB fe) CHZ_GAIN_STAT.GAIN s

/-- OVL_START and OVL_CLEAN (R183). -/
def ovlStart (fe : Fe) (s : State) : Nat := rd48 (chzB fe + 0x1C) s
/-- OVL_CLEAN (R183). -/
def ovlClean (fe : Fe) (s : State) : Nat := rd48 (chzB fe + 0x24) s

/-- An episode is open. -/
def ovlActive (fe : Fe) (s : State) : Bool := fis (chzB fe) CHZ_OVL_STAT.ACTIVE s

/-- Samples `a` to `b` meet the current or the most recent episode before its clean index (R175, R184). -/
def ovlMeets (fe : Fe) (a b : Nat) (s : State) : Bool :=
  decide (ovlStart fe s ≤ b) &&
    (ovlActive fe s || (fis (chzB fe) CHZ_OVL_STAT.CLEAN_VALID s && decide (a < ovlClean fe s)))

/-- GAIN changes at an input period (R172, R191); while a DUPLEX cap holds, none rises above it (R301). -/
def setGain (fe : Fe) (code period cause : Nat) (s : State) : State :=
  let b := chzB fe
  let c := match (chzGet fe s).cap with
    | some cap => min code (max cap (chzGain fe s))
    | none => code
  wr48 (b + 0xC) period (fset b CHZ_GAIN_STAT.CAUSE cause (fset b CHZ_GAIN_STAT.GAIN c s))

/-- A change is scheduled (R176). -/
def schedGain (fe : Fe) (g : GainChange) (s : State) : State :=
  fset (chzB fe) CHZ_GAIN_STAT.PEND 1 (fset (chzB fe) CHZ_GAIN_STAT.PEND_CODE g.code
    (chzPut fe { chzGet fe s with sched := some g } s))

/-- A scheduled change is cancelled (R176). -/
def cancelGain (fe : Fe) (s : State) : State :=
  fset (chzB fe) CHZ_GAIN_STAT.PEND 0 (chzPut fe { chzGet fe s with sched := none } s)

/-- MANUAL mode. -/
def chzManual (fe : Fe) (s : State) : Bool := fis (chzB fe) CHZ_CTRL.MODE s

/-- The front end transmits in HALF, or its T/R switch is in the transmit position (R178, R301). -/
def chzDeaf (fe : Fe) (s : State) : Bool :=
  fis (feB fe) FE_STAT.TR_TX s || fget (feB fe) FDX_STAT.MODE s == 1

/-- An evaluation makes no decision (R175, R178, R180). -/
def evalSuppressed (fe : Fe) (m : Nat) (s : State) : Bool :=
  chzManual fe s || !(feGet fe s).residence || ovlMeets fe (16 * m) (16 * m + 15) s ||
    chzDeaf fe s || decide (16 * m < (chzGet fe s).evalFrom)

/-- The gain code an evaluation wants (R175); `peak` in 0.25 dBFS. -/
def gainWanted (fe : Fe) (peak : Int) (s : State) : Nat :=
  let b := chzB fe
  let head := -peak
  let target : Int := 4 * fget b CHZ_GAIN_CFG.TARGET s
  let gain : Int := chzGain fe s
  let want : Int :=
    if head < target then gain - (target - head + 7) / 8
    else if head ≥ target + 4 * fget b CHZ_GAIN_CFG.HYST s ∧ fis b CHZ_OVL_STAT.HOLD s = false then
      gain + min ((head - target) / 8) (fget b CHZ_GAIN_CFG.MAX_UP s)
    else gain
  (clampInt 0 31 want).toNat

/-- An evaluation of the loop (R174–R176, R192, R194). -/
def gainEvaluate (fe : Fe) (m : Nat) (peakQ meanQ : BitVec 16) (s : State) : State :=
  let b := chzB fe
  if evalSuppressed fe m s then s
  else
    let s1 := fset b CHZ_LEVEL.MEAN_Q meanQ.toNat (fset b CHZ_LEVEL.PEAK_Q peakQ.toNat s)
    let now := 16 * (m + 1)
    let natural := decide (fget b CHZ_GAIN_STAT.MIDFRAME s1 < fget b CHZ_WIN.BUDGET s1)
    if natural = true ∨ (chzGet fe s1).lastWindow + 9375 ≤ now then
      let s2 := chzPut fe { chzGet fe s1 with lastWindow := now } s1
      let s3 := if natural then s2 else fcount b CHZ_WIN.FORCED_CNT s2
      let want := gainWanted fe peakQ.toInt s3
      if want ≠ chzGain fe s3 then schedGain fe ⟨want, 16 * m + 18, ofBool (!natural)⟩ s3 else s3
    else s1

/-- A scheduled change takes effect (R172, R176). -/
def gainTake (fe : Fe) (s : State) : State :=
  match (chzGet fe s).sched with
  | some g => cancelGain fe (setGain fe g.code g.period g.cause s)
  | none => s

/-- A write of CHZ_CTRL (R176, R180, R185): any write cancels a scheduled change; one that changes MODE or MGAIN in
MANUAL schedules the new gain two periods on, unless the hold of an episode runs with OVL_DROP = 1. -/
def chzCtrlWrite (fe : Fe) (data : Word) (period : Nat) (s : State) : State :=
  let b := chzB fe
  let old := rd b s
  let s1 := wr b (data &&& 0x31F#32) (cancelGain fe s)
  if bitsOf old 0 9 = bitsOf (rd b s1) 0 9 ∨ (feGet fe s1).residence = false then s1
  else if chzManual fe s1 then
    if fis b CHZ_CTRL.OVL_DROP s1 = true ∧ (ovlActive fe s1 || fis b CHZ_OVL_STAT.HOLD s1) = true then s1
    else schedGain fe ⟨fget b CHZ_CTRL.MGAIN s1, period + 2, 3⟩ s1
  else chzPut fe { chzGet fe s1 with evalFrom := (period / 16 + 1) * 16 } s1

/-- LANE_GAIN's block and lane `n` as `fget` addresses them. -/
def laneGainB (n : Nat) : Nat := 0x40020000 + 4 * n

/-- The front end a lane uses under the active plan. -/
def laneFe (n : Nat) (s : State) : Fe :=
  match laneDesc n s with
  | some d => if d.fe = 0 then .a else .b
  | none => .a

/-- An open episode (R183): its first saturated cycle lies in period `start`. -/
def episodeOpen (fe : Fe) (start : Nat) (s : State) : State :=
  let b := chzB fe
  if ovlActive fe s then s
  else
    wr48 (b + 0x1C) start (fset b CHZ_OVL_STAT.ACTIVE 1 (fset b CHZ_OVL_STAT.CLEAN_VALID 0
      (fset b CHZ_OVL_STAT.DROP_CNT 0 (fcount b CHZ_OVL_STAT.OVL_CNT
        (chzPut fe { chzGet fe s with spoiltAll := true } s)))))

/-- A detection of overload (R181): no scheduled change stands, and with OVL_DROP the drop follows until GAIN is 0 dB
(R182); with OVL_DROP = 0 FE_OVL fires at the detection (R184). -/
def overloadDetect (fe : Fe) (start : Nat) (s : State) : State :=
  let b := chzB fe
  let s1 := cancelGain fe (episodeOpen fe start s)
  if fis b CHZ_CTRL.OVL_DROP s1 then
    if chzGain fe s1 = 0 then s1
    else fcount b CHZ_OVL_STAT.DROP_CNT (chzPut fe { chzGet fe s1 with drop := some (chzGain fe s1 - 6) } s1)
  else raiseEvt (feEv fe + 4) s1

/-- The drop takes effect (R181, R184). -/
def overloadDrop (fe : Fe) (period : Nat) (s : State) : State :=
  match (chzGet fe s).drop with
  | some c =>
    raiseEvt (feEv fe + 4) (setGain fe c period 2 (chzPut fe { chzGet fe s with drop := none } s))
  | none => s

/-- An episode ends in period `e` (R183, R185). -/
def episodeEnd (fe : Fe) (e : Nat) (s : State) : State :=
  let b := chzB fe
  if ovlActive fe s then
    let s1 := wr48 (b + 0x24) (e + 24) (fset b CHZ_OVL_STAT.CLEAN_VALID 1 (fset b CHZ_OVL_STAT.ACTIVE 0 s))
    if fget b CHZ_GAIN_CFG.OVL_HOLD s1 = 0 then
      if chzManual fe s1 = true ∧ fget b CHZ_CTRL.MGAIN s1 ≠ chzGain fe s1 then
        schedGain fe ⟨fget b CHZ_CTRL.MGAIN s1, e + 2, 3⟩ s1
      else s1
    else fset b CHZ_OVL_STAT.HOLD 1 s1
  else s

/-- The hold ends (R185). -/
def holdEnd (fe : Fe) (period : Nat) (s : State) : State :=
  let b := chzB fe
  if fis b CHZ_OVL_STAT.HOLD s then
    let s1 := fset b CHZ_OVL_STAT.HOLD 0 s
    if chzManual fe s1 = true ∧ fget b CHZ_CTRL.MGAIN s1 ≠ chzGain fe s1 then
      schedGain fe ⟨fget b CHZ_CTRL.MGAIN s1, period + 2, 3⟩ s1
    else s1
  else s

/-- A residence starts (R177): its gain, and an empty survey block (R276). -/
def chzStart (fe : Fe) (s : State) : State :=
  let b := chzB fe
  let code := if chzManual fe s then fget b CHZ_CTRL.MGAIN s else fget b CHZ_GAIN_CFG.START s
  setGain fe code 0 3 (chzPut fe {} s)

/-- A residence ends (R176, R177, R186): the scheduled change, the episode and its hold end with it. -/
def chzEnd (fe : Fe) (s : State) : State :=
  let b := chzB fe
  let s1 := if ovlActive fe s then fset b CHZ_OVL_STAT.CLEAN_VALID 0 s else s
  fset b CHZ_OVL_STAT.ACTIVE 0 (fset b CHZ_OVL_STAT.HOLD 0 (chzPut fe {} (cancelGain fe s1)))

/-- MIDFRAME of a front end goes up or down by one lane (R173). -/
def midframeAdd (fe : Fe) (s : State) : State := fcount (chzB fe) CHZ_GAIN_STAT.MIDFRAME s

/-- One lane less is mid-frame. -/
def midframeSub (fe : Fe) (s : State) : State :=
  fset (chzB fe) CHZ_GAIN_STAT.MIDFRAME (fget (chzB fe) CHZ_GAIN_STAT.MIDFRAME s - 1) s

/-! ### The commands -/

/-- GAIN_EVALUATION (R175). -/
def execGainEvaluation (fe : Fe) (m : BitVec 44) (peakQ meanQ : BitVec 16) (s : State) :
    Host.Outcome State Fault Refusal :=
  .next (gainEvaluate fe m.toNat peakQ meanQ s)

/-- GAIN_CHANGE (R176). -/
def execGainChange (fe : Fe) (s : State) : Host.Outcome State Fault Refusal := .next (gainTake fe s)

/-- OVERLOAD_DROP (R181). -/
def execOverloadDrop (fe : Fe) (period : BitVec 48) (s : State) : Host.Outcome State Fault Refusal :=
  .next (overloadDrop fe period.toNat s)

/-- OVERLOAD_EPISODE_END (R183). -/
def execOverloadEpisodeEnd (fe : Fe) (period : BitVec 48) (s : State) : Host.Outcome State Fault Refusal :=
  .next (episodeEnd fe period.toNat s)

/-- OVL_HOLD_END (R185). -/
def execOvlHoldEnd (fe : Fe) (period : BitVec 48) (s : State) : Host.Outcome State Fault Refusal :=
  .next (holdEnd fe period.toNat s)

end Sys2Proof.Machine
end

