-- ==== Sys2Proof/Machine/Phy.lean ====
section
/-!
DEFINITION. PHY modes (R252–R256, R264, R310): symbol periods, delays, code slots, bandwidths and timeouts, as the
spec's tables give them. Durations are in fifths of an air tick, so that every symbol period is whole.
-/

namespace Sys2Proof.Machine

/-- SUN FSK (R252). -/
def phyFsk (p : Nat) : Bool := decide (0x10 ≤ p ∧ p ≤ 0x1D)

/-- SUN OFDM (R252). -/
def phyOfdm (p : Nat) : Bool := decide (0x21 ≤ p ∧ p ≤ 0x24)

/-- 2.4 GHz O-QPSK (R252). -/
def phyOqpsk (p : Nat) : Bool := p == 0x30

/-- A listed PHY code. -/
def phyListed (p : Nat) : Bool := phyFsk p || phyOfdm p || phyOqpsk p

/-- The symbol rate index of an FSK mode (R253). -/
def fskRate (p : Nat) : Nat := (p - 0x10) / 2

/-- 4-FSK. -/
def fsk4 (p : Nat) : Bool := p % 2 == 1

/-- The symbol rate of an FSK mode in ksymbol/s (R253). -/
def fskKsym (p : Nat) : Nat := [10, 20, 40, 50, 100, 150, 200].getD (fskRate p) 10

/-- The symbol period in which SFD_TMO counts, in fifths of a tick (R253, R264). -/
def symFifths (p : Nat) : Nat :=
  if phyFsk p then 384000 / fskKsym p else if phyOfdm p then 46080 else 6144

/-- D_LANE in ticks (R253, R254). -/
def dLane (p : Nat) (dfe : Bool) : Nat :=
  if phyFsk p then 410 + (if dfe then 4 else 2) * (76800 / fskKsym p)
  else if phyOfdm p then 9626 else 2868

/-- D_CAP in ticks by FE_CTRL.WIDTH: 0 10 MHz, 1 20 MHz, 2 40 MHz, 3 80 MHz (R170). -/
def dCap (width : Nat) : Nat := [5004, 4984, 4974, 4969].getD width 4969

/-- The analog part of D_CAP in tenths of a tick (R170). -/
def dAnalog (width : Nat) : Nat := [892, 692, 592, 542].getD width 542

/-- Code slots of a coded FSK mode by its coded rate (R201). -/
def fskSlots (p : Nat) : Nat :=
  let rate := fskKsym p * (if fsk4 p then 2 else 1)
  if rate ≤ 100 then 1 else if rate ≤ 200 then 2 else 4

/-- Code slots of a lane (R201). -/
def phySlots (p : Nat) (fec : Bool) : Nat :=
  if phyFsk p then (if fec then fskSlots p else 0) else if phyOfdm p then 8 else 0

/-- Signal tiles of a lane (R253, R254). -/
def phyTiles (p : Nat) (dfe : Bool) : Nat :=
  if phyFsk p then (if dfe then 3 else 2)
  else if p = 0x21 then 24 else if p = 0x22 then 16 else if p = 0x23 then 12 else if p = 0x24 then 8 else 3

/-- The occupied bandwidth in Hz; `hq` is the FSK modulation index × 64 (R254, R255). -/
def occupied (p hq : Nat) : Nat :=
  if phyFsk p then
    let rs := fskKsym p * 1000
    rs + (rs * hq * (if fsk4 p then 3 else 1) + 63) / 64
  else if p = 0x21 then 1094000 else if p = 0x22 then 552000 else if p = 0x23 then 281000
  else if p = 0x24 then 156000 else 2000000

/-- The lowest MCS an OFDM option defines (R257). -/
def ofdmLowest (p : Nat) : Nat := if p = 0x23 then 1 else if p = 0x24 then 2 else 0

/-- The longest frame after the preamble, in symbol periods (R264). -/
def longestFrame (p : Nat) (fec : Bool) : Nat :=
  if phyFsk p then (if fec then 32832 else 16408)
  else if p = 0x21 then 1369 else if phyOfdm p then 2737 else 258

/-- LANE_TMAX in bin samples (R264). -/
def laneTmaxOf (p : Nat) (fec : Bool) (tmo : Nat) : Nat := ((tmo + longestFrame p fec) * symFifths p + 2047) / 2048

/-- The FCS length of a frame in octets (R256). -/
def fcsLenOf (p : Nat) (phrType2 ofdm2 : Bool) : Nat :=
  if phyFsk p then (if phrType2 then 2 else 4) else if phyOfdm p then (if ofdm2 then 2 else 4) else 2

/-- A PHR that fails its check (R265). -/
def phrBad (p len mcs fcsLen : Nat) (hcsOk : Bool) : Bool :=
  if phyFsk p then decide (len < fcsLen)
  else if phyOfdm p then !hcsOk || decide (6 < mcs) || decide (mcs < ofdmLowest p) || decide (len < fcsLen)
  else decide (len < 2)

/-- LQI from EVM in 0.25 dB (R274). -/
def lqiOf (evmQ : Int) : Nat := (clampInt 0 255 (roundDiv ((-evmQ - 16) * 255) 104)).toNat

/-! ### Durations (R310, R312, R324) -/

/-- Half the ramps of a frame: 614 ticks (R81). -/
def rampTicks : Nat := 614

/-- Ticks from a frame's end to its acknowledgement (R324, R339). -/
def turnTicks (p : Nat) : Nat := if phyOqpsk p then 14746 else 76800

/-- An MCS that the mode defines (R252, R257). -/
def mcsDefined (p mcs : Nat) : Bool :=
  if phyOfdm p then decide (ofdmLowest p ≤ mcs) && decide (mcs ≤ [3, 5, 6, 6].getD (p - 0x21) 6) else mcs == 0

/-- The longest PSDU of a mode (R252). -/
def maxPsdu (p : Nat) : Nat := if phyOqpsk p then 127 else 2047

/-- The duration of the SHR in fifths of a tick: `pre` preamble octets in SUN FSK. -/
def shrFifths (p pre : Nat) : Nat :=
  if phyFsk p then (8 * pre + 16) * symFifths p else if phyOfdm p then 6 * symFifths p else 5 * 12288

/-- Data bits of an OFDM symbol, in eighths (IEEE 802.15.4-2020). -/
def ofdmEighths (p mcs : Nat) : Nat :=
  [96, 48, 24, 12].getD (p - 0x21) 12 * [1, 2, 4, 8, 12, 16, 24].getD mcs 24

/-- The symbols of PHR and PSDU of an FSK frame, tail and pad of a coded one included (R266, R310). -/
def fskSymbols (p n : Nat) (coded : Bool) : Nat :=
  let k := if coded then (2 + n) * 16 + (if n % 2 = 0 then 32 else 16) else (2 + n) * 8
  if fsk4 p then (k + 1) / 2 else k

/-- The duration of PHR and PSDU of `n` octets in fifths of a tick (R310). -/
def bodyFifths (p n mcs : Nat) (coded : Bool) : Nat :=
  if phyFsk p then fskSymbols p n coded * symFifths p
  else if phyOfdm p then
    let phr := (36 * 8 + ofdmEighths p (ofdmLowest p) - 1) / ofdmEighths p (ofdmLowest p)
    let psdu := ((8 * n + 6) * 8 + ofdmEighths p mcs - 1) / ofdmEighths p mcs
    (phr + psdu) * symFifths p
  else (1 + n) * 12288

/-- A frame from its preamble to its last symbol, in fifths of a tick. -/
def frameFifths (p pre n mcs : Nat) (coded : Bool) : Nat := shrFifths p pre + bodyFifths p n mcs coded

/-- The air time of a frame in µs, rounded up: with both ramps (R152, R335). -/
def airUs (frame : Nat) : Nat := (frame + 2 * rampTicks * 5 + 383) / 384

end Sys2Proof.Machine
end

