-- ==== Sys2Proof/Machine/LaneBase.lean ====
section
/-!
DEFINITION. Lanes: blanked bins (R292–R294), a frame's closing and release (R264, R269), moves and their
settlement (R281–R285), and what a residence's end or a reload does to a lane.
-/

namespace Sys2Proof.Machine

open Reg

/-- A lane's page (R251). -/
def laneP (n : Nat) : Nat := 0x50000000 + 0x100 * n

/-- What a lane holds. -/
def laneGet (n : Nat) (s : State) : LaneState := tget (fun _ => ({} : LaneState)) s.lanes n

/-- Set what a lane holds. -/
def lanePut (n : Nat) (v : LaneState) (s : State) : State :=
  { s with lanes := tset (fun _ => ({} : LaneState)) s.lanes n v }

/-- LANE_STAT.STATE (R248): 0 OFF, 1 IDLE, 2 ACTIVE, 3 ARMED, 4 DRAINING. -/
def laneState (n : Nat) (s : State) : Nat := fget (laneP n) LANE_STAT.STATE s

/-- Set LANE_STAT.STATE. -/
def laneSetState (n v : Nat) (s : State) : State := fset (laneP n) LANE_STAT.STATE v s

/-- A flag of LANE_ERR or LANE_NOTE is set, raising event `n` (R286). -/
def laneFlag (n : Nat) (f : Fld) (s : State) : State := note (laneP n) f n s

/-- The PHY the lane receives in: its own, or that of a mode switch (R267). -/
def lanePhy (n : Nat) (s : State) : Nat := (laneGet n s).ms.getD (fget (laneP n) LANE_ID.PHY s)

/-- OPTS of a lane. -/
def laneDfe (n : Nat) (s : State) : Bool := fis (laneP n) LANE_ID.DFE s
/-- OPTS.FEC of a lane. -/
def laneFec (n : Nat) (s : State) : Bool := fis (laneP n) LANE_ID.FEC s

/-- The lanes the plan in use defines for a front end. -/
def lanesOf (fe : Fe) (s : State) : List Nat :=
  (List.range 256).filter fun n =>
    match laneDesc n s with
    | some d => d.fe == fe.num
    | none => false

/-- The latest sample index of a front end (R61). -/
def sidx (fe : Fe) (s : State) : Nat := rd48 (feB fe + 0x18) s

/-- A lane is mid-frame (R173). -/
def laneMid (n : Nat) (s : State) : Bool := (laneGet n s).frame.isSome

/-- The lane's first bin and its bins (LANE_CHAN). -/
def laneBin (n : Nat) (s : State) : Nat := fget (laneP n) LANE_CHAN.BIN_FIRST s
/-- The lane's bins (LANE_CHAN). -/
def laneBins (n : Nat) (s : State) : Nat := fget (laneP n) LANE_CHAN.N_BINS s

/-- The lane's bins as a set. -/
def laneBinSet (n : Nat) (s : State) : BitVec 1024 := BitVec.ofNat 1024 ((2 ^ laneBins n s - 1) <<< laneBin n s)

/-! ### Blanking -/

/-- What the duplex logic of a front end holds. -/
def fdxGet (fe : Fe) (s : State) : FdxState :=
  match fe with
  | .a => s.fdxA
  | .b => s.fdxB

/-- Set what the duplex logic of a front end holds. -/
def fdxPut (fe : Fe) (v : FdxState) (s : State) : State :=
  match fe with
  | .a => { s with fdxA := v }
  | .b => { s with fdxB := v }

/-- The margin of R293 in Hz. -/
def blankMargin (fe : Fe) (own : Bool) (s : State) : Nat :=
  if own && fis (feB fe) FDX_STAT.WIDE s then 5000000 else 1000000

/-- The block's width in Hz (R75). -/
def feWidth (fe : Fe) (s : State) : Nat := 10000000 * 2 ^ fget (feB fe) FE_CTRL.WIDTH s

/-- The centre of bin `k` lies inside the usable span (R75, R302). -/
def binUsable (fe : Fe) (k : Nat) (s : State) : Bool :=
  decide ((((k : Int) - 512) * 93750).natAbs * 40 ≤ feWidth fe s * 21)

/-- Bin `k` of a front end lies in the blanked set (R293, R302). -/
def binBlanked (fe : Fe) (b : Blanking) (k : Nat) (s : State) : Bool :=
  b.all || (b.own || binUsable fe k s) &&
    let centre : Int := (rd (feB fe + 0x10) s).toNat + ((k : Int) - 512) * 93750
    let m : Int := blankMargin fe b.own s
    -- the span centre ± 46,875 Hz lies less than the margin from the band, or overlaps it
    decide (centre - 46875 - m < b.hi) && decide ((b.lo : Int) < centre + 46875 + m)

/-- Sample `i` lies in the interval. -/
def blankCovers (b : Blanking) (i : Nat) : Bool :=
  decide (b.first ≤ i) && (match b.last with
    | some l => decide (i ≤ l)
    | none => true)

/-- Lane `n` is blanked at sample `i` (R293). -/
def laneBlanked (n i : Nat) (s : State) : Bool :=
  let fe := laneFe n s
  (fdxGet fe s).blanks.any fun b =>
    blankCovers b i && (List.range (laneBins n s)).any fun k => binBlanked fe b (laneBin n s + k) s

/-- The input period that contains air tick `t` at the RF pin (R169, R170, R292). -/
def periodAt (fe : Fe) (t : Nat) (s : State) : Nat :=
  let rxt0 := (rd64 (feB fe + 0x20) s).toNat
  ((t - rxt0) * 10 + dAnalog (fget (feB fe) FE_CTRL.WIDTH s)) / 4096 + 1

/-! ### Closing a frame -/

/-- The mark bits of R269. -/
def markOvl : Nat := 1
/-- OVERRUN. -/
def markOverrun : Nat := 2
/-- SAT. -/
def markSat : Nat := 4
/-- EQ_BYP. -/
def markEqByp : Nat := 8
/-- CODED. -/
def markCoded : Nat := 16
/-- MS. -/
def markMs : Nat := 32

/-- Marks set on the frame of a lane. -/
def laneMark (n m : Nat) (s : State) : State :=
  let l := laneGet n s
  match l.frame with
  | some f => lanePut n { l with frame := some { f with marks := f.marks ||| m } } s
  | none => s

/-- A free measure: the spec states none for a frame that another cause closed. -/
def freeQuality (s : State) : Quality :=
  ⟨BitVec.ofNat 16 (freeNat s), BitVec.ofNat 16 (freeNat s / 2 ^ 16), BitVec.ofNat 32 (freeNat s / 2 ^ 32)⟩

/-- The lane releases (R264): back to Search with its digital gain hunting, or at MGAIN in MANUAL (R180). -/
def laneRelease (n : Nat) (s : State) : State :=
  let fe := laneFe n s
  let b := laneGainB n
  let s1 := lanePut n { laneGet n s with frame := none, ms := none } s
  let s2 := fset (laneP n) LANE_STAT.PHASE 0 (fset (laneP n) LANE_STAT.MIDFRAME 0 s1)
  let s3 := midframeSub fe (fset b LANE_GAIN.FROZEN 0 s2)
  if chzManual fe s3 then fset b LANE_GAIN.NOW (fget b LANE_GAIN.MGAIN s3) s3 else s3

/-- The frame as it is handed on (R269, R274, R280). -/
def closedOf (n code e : Nat) (q : Quality) (f : LaneFrame) (s : State) : ClosedFrame :=
  let fe := laneFe n s
  { lane := n, fe := fe.num, queue := fget (laneP n) LANE_CHAN.QUEUE s, phy := f.phy, code := code, marks := f.marks
    epoch := fget (laneP n) LANE_STAT.EPOCH s, len := f.len, mcs := f.mcs, fcsLen := f.fcsLen
    sidx := (f.sfd.getD (0, 0)).1, frac := (f.sfd.getD (0, 0)).2, e := e, qual := q
    margin := f.floor.map fun x => q.rssiQ.toInt - 2 * x, floor := f.floor
    rxt0 := (rd64 (feB fe + 0x20) s).toNat, dcap := dCap (fget (feB fe) FE_CTRL.WIDTH s)
    dlane := dLane f.phy (laneDfe n s), against := f.against }

/-- LAST_ST to LAST_SFD_HI of a closed frame (R287). A frame closed before its PHR or its SFD has no LEN, S or FRAC:
those read a free value. -/
def laneLast (n : Nat) (c : ClosedFrame) (f : LaneFrame) (deliv : Bool) (s : State) : State :=
  let b := laneP n
  let i := if f.sfd.isSome then c.sidx else freeNat s % 2 ^ 48
  let s1 := fset b LAST_ST.LEN (if f.fcsLen = 0 then freeNat s else c.len) (fset b LAST_ST.DELIV (ofBool deliv)
    (fset b LAST_ST.EPOCH c.epoch (fset b LAST_ST.MARKS c.marks (fset b LAST_ST.CODE c.code s))))
  let s2 := fset b LAST_Q.MCS c.mcs (fset b LAST_Q.LQI (lqiOf c.qual.evmQ.toInt)
    (fset b LAST_Q.RSSI_Q c.qual.rssiQ.toNat s1))
  let s3 := fset b LAST_Q2.EVM_Q c.qual.evmQ.toNat
    (match c.margin with
     | some m => fsetS b LAST_Q2.MARGIN_Q m s2
     | none => fset b LAST_Q2.MARGIN_Q 0x8000 s2)
  let s4 := wr (b + 0x54) c.qual.fofs s3
  drawFree (fset b LAST_SFD_HI.FRAC (if f.sfd.isSome then c.frac else freeNat s)
    (fset b LAST_SFD_HI.SFD_HI (i / 2 ^ 32) (fset b LAST_SFD_LO.SFD_LO i s4)))

/-- The counters of a closed frame (R287). -/
def laneCount (n code : Nat) (s : State) : State :=
  if code = 0 then fcount (laneP n) LANE_CNT0.OK s
  else if code ≤ 2 then fcount (laneP n) LANE_CNT0.BAD s
  else fcount (laneP n) LANE_CNT1.LOSS s

/-- S of two frames lie within ±2 bin samples (R284). -/
def sfdNear (a b : Nat) : Bool := decide (a ≤ b + 2) && decide (b ≤ a + 2)

/-- A frame goes to the link controller, unless it duplicates the frame its move's source drained (R284). -/
def laneHand (c : ClosedFrame) (s : State) : State :=
  match c.against with
  | some src =>
    match (laneGet src s).drained with
    | some x => if sfdNear c.sidx x then fcount (laneP c.lane) LANE_CNT1.DUP s
      else { s with verdicts := s.verdicts ++ [c] }
    | none => { s with verdicts := s.verdicts ++ [c] }
  | none => { s with verdicts := s.verdicts ++ [c] }

/-- A frame that is delivered: held while the source of its lane's move drains (R284), else handed on. -/
def laneDeliver (c : ClosedFrame) (s : State) : State :=
  match c.against with
  | some src =>
    if laneState src s = 4 then
      lanePut c.lane { laneGet c.lane s with held := (laneGet c.lane s).held ++ [c] } s
    else laneHand c s
  | none => laneHand c s

/-- Lane `n` closes its frame with outcome `code` at sample `e` (R269) and releases. -/
def laneClose (n code e : Nat) (q : Quality) (s : State) : State :=
  match (laneGet n s).frame with
  | none => s
  | some f =>
    let deliv := f.sfd.isSome && (code == 0 || (code != 2 && fis (laneP n) LANE_CTRL.KEEP_BAD s))
    let c := closedOf n code e q f s
    let s1 := laneCount n code s
    let s2 := if code = 2 then s1 else laneLast n c f deliv s1
    let s3 := if laneState n s2 = 4 ∧ f.sfd.isSome = true then
        lanePut n { laneGet n s2 with drained := some c.sidx } s2 else s2
    let s4 := laneRelease n s3
    if deliv then laneDeliver c s4 else s4

/-- A frame closed by a cause that brings no measures. -/
def laneCut (n code e : Nat) (s : State) : State :=
  if laneMid n s then laneClose n code e (freeQuality s) s else s

/-! ### Moves -/

/-- A party to a move forgets it. -/
def moveForget (n : Nat) (s : State) : State :=
  fset (laneP n) LANE_STAT.MOVE_PEND 0 (lanePut n { laneGet n s with move := none } s)

/-- A move that is not yet effective is cancelled (R285): the destination returns to IDLE. -/
def moveCancel (n : Nat) (s : State) : State :=
  match (laneGet n s).move with
  | some m =>
    if fis (laneP n) LANE_STAT.MOVE_PEND s then
      let dst := if m.source then m.partner else n
      laneFlag n LANE_ERR.MOVE_CANCEL (laneFlag m.partner LANE_ERR.MOVE_CANCEL
        (moveForget n (moveForget m.partner (laneSetState dst 1 s))))
    else s
  | none => s

/-- The frames a destination held are compared and handed on (R284). -/
def moveSettle (dst : Nat) (s : State) : State :=
  let l := laneGet dst s
  l.held.foldl (fun t c => laneHand c t) (lanePut dst { l with held := [] } s)

/-- A source is released (R282, R283): IDLE, MOVE_DONE on both, and the held frames settled. -/
def drainRelease (n : Nat) (s : State) : State :=
  match (laneGet n s).move with
  | some m =>
    if m.source then
      let s1 := laneSetState n 1 s
      let s2 := moveSettle m.partner s1
      laneFlag n LANE_NOTE.MOVE_DONE (laneFlag m.partner LANE_NOTE.MOVE_DONE
        (moveForget n (moveForget m.partner s2)))
    else s
  | none => s

/-! ### Tunes -/

/-- A tune takes effect (R259): the new bins, and TUNE_DONE. -/
def tuneTake (n : Nat) (t : LaneTune) (s : State) : State :=
  let s1 := lanePut n { laneGet n s with tune := none, detectsFrom := t.index + 1 } s
  laneFlag n LANE_NOTE.TUNE_DONE (fset (laneP n) LANE_STAT.TUNE_PEND 0
    (fsetS (laneP n) LANE_FINE.FINE_HZ t.fine (fset (laneP n) LANE_CHAN.BIN_FIRST t.bin s1)))

/-- A pending tune takes effect at once (R261). -/
def tuneNow (n : Nat) (s : State) : State :=
  match (laneGet n s).tune with
  | some t => tuneTake n t s
  | none => s

/-! ### Residences and reloads -/

/-- A residence's end at one lane (R99, R261, R285). -/
def laneResidenceEnd (e n : Nat) (s : State) : State :=
  let s1 := laneCut n 3 e s
  let s2 := if laneState n s1 = 4 then drainRelease n s1 else s1
  let s3 := tuneNow n (moveCancel n s2)
  lanePut n { laneGet n s3 with detectsFrom := 0, ms := none } s3

/-- A residence of a front end ends (R99). -/
def lanesResidenceEnd (fe : Fe) (s : State) : State :=
  (lanesOf fe s).foldl (fun t n => laneResidenceEnd (sidx fe s) n t) s

/-- Lane `n` stops with its domain (R223, R225, R249): its frame is truncated, a move before N cancelled, a drain
released. -/
def laneDomainStop (n : Nat) (s : State) : State :=
  let s1 := laneCut n 3 (sidx (laneFe n s) s) s
  let s2 := if laneState n s1 = 4 then drainRelease n s1 else s1
  let s3 := moveCancel n s2
  if laneState n s3 = 0 then s3
  else laneSetState n 0 (lanePut n { laneGet n s3 with before := laneState n s3 } s3)

/-- Lane `n` restarts with a new epoch after a reload (R226, R249). -/
def laneDomainStart (newEpoch : Bool) (n : Nat) (s : State) : State :=
  let s1 := laneSetState n (laneGet n s).before (lanePut n { laneGet n s with detectsFrom := 0, ms := none } s)
  if newEpoch then fnext (laneP n) LANE_STAT.EPOCH s1 else s1

/-- LANE_TMAX follows SFD_TMO (R264). -/
def laneTmax (n : Nat) (s : State) : State :=
  fset (laneP n) LANE_TMAX.TMAX
    (laneTmaxOf (fget (laneP n) LANE_ID.PHY s) (laneFec n s) (fget (laneP n) LANE_DET.SFD_TMO s)) s

/-- A lane takes its descriptor from a plan (R211, R287): its page returns to the plan's reset values but for the
epoch. The modulation index is part of the tile configuration, which the spec does not print: H_Q is free. -/
def laneDefine (n : Nat) (d : LaneDesc) (s : State) : State :=
  let b := laneP n
  let epoch := fget b LANE_STAT.EPOCH s
  let s1 := lanePut n {} (resetRegs (fun a => decide (b ≤ a ∧ a < b + 0x100)) s)
  let s2 := fset b LANE_STAT.EPOCH epoch (fset b LANE_ID.PHY d.phy (fset b LANE_ID.N_BINS d.nBins
    (fset b LANE_ID.DOMAIN d.domain (fset b LANE_ID.FE d.fe (fset b LANE_ID.FEC (d.opts / 2 % 2)
      (fset b LANE_ID.DFE (d.opts % 2) s1))))))
  let s3 := fsetS b LANE_FINE.FINE_HZ d.fine (fset b LANE_CHAN.QUEUE d.queue (fset b LANE_CHAN.N_BINS d.nBins
    (fset b LANE_CHAN.BIN_FIRST d.binFirst s2)))
  let fsk := phyFsk d.phy
  let s4 := fset b LANE_MODE.MS_EN (ofBool fsk)
    (fset b LANE_MODE.INTLV (ofBool (fsk && d.opts.testBit 1)) s3)
  let s5 := if fsk then drawFree (fset b LANE_MODE.H_Q (16 + freeNat s4 % 113) s4) else s4
  laneTmax n (if d.opts.testBit 0 then s5 else wr (b + 0x3C) 0 s5)

/-- A lane that no plan defines any more: its page is empty but for the epoch. -/
def laneUndefine (n : Nat) (s : State) : State :=
  let b := laneP n
  let epoch := fget b LANE_STAT.EPOCH s
  fset b LANE_STAT.EPOCH epoch (lanePut n {} (resetRegs (fun a => decide (b ≤ a ∧ a < b + 0x100)) s))

end Sys2Proof.Machine
end

