-- ==== Sys2Proof/Machine/FlashBase.lean ====
section
/-!
DEFINITION. The flash controller's shared operations (spec/18_flash.md): banks and their states, wait states, what
an octet of flash reads, erase counters and the invalidation of caches and buffers.
-/

namespace Sys2Proof.Machine

open Reg

/-- The FLC block. -/
def flcB : Nat := 0x400D0000

/-- A bit of FLC_NOTE, raising event 920 + its number (R558). -/
def flcNote (f : Fld) (s : State) : State := note flcB f (920 + f.lo) s

/-- A bit of FLC_ERR, raising event 926 (R558). -/
def flcErr (f : Fld) (s : State) : State := note flcB f 926 s

/-- The lines that satisfy `p` are invalidated in the application cores' caches. -/
def dropLines (p : CacheLine → Bool) (s : State) : State :=
  { s with rooms := { s.rooms with lines := s.rooms.lines.filter fun l => !p l } }

/-! ### Wait states (R541–R543) -/

/-- WS_MIN at a VCORE code for FLC_CFG.CLK (R542). -/
def wsMin (code clk : Nat) : Nat :=
  let row := if 12 ≤ code then [1, 1, 2] else if 6 ≤ code then [1, 2, 3] else [2, 3, 5]
  row.getD clk 5

/-- WS_EFF at FLC_CFG and the VCORE in force (R541, R543). -/
def wsEff (s : State) : Nat :=
  if fis flcB FLC_CFG.MODE s then
    max (fget flcB FLC_CFG.WS s) (wsMin (fget 0x400F0000 PWR_VSTAT.LOW s) (fget flcB FLC_CFG.CLK s))
  else 8

/-- WS_EFF and WS_LOW follow the settings and VCORE (R543). -/
def flcWs (s : State) : State :=
  let eff := wsEff s
  let low := fis flcB FLC_CFG.MODE s && decide (fget flcB FLC_CFG.WS s < eff)
  let s1 := fset flcB FLC_STAT.WS_EFF eff s
  if low then
    (if fis flcB FLC_STAT.WS_LOW s1 then s1 else flcNote FLC_NOTE.WS_LOW (fset flcB FLC_STAT.WS_LOW 1 s1))
  else fset flcB FLC_STAT.WS_LOW 0 s1

/-! ### Banks (R537, R545) -/

/-- The bank of a flash address. -/
def bankOf (a : Nat) : Nat := if a < 0x0A000000 then 0 else 1

/-- What bank `k` does. -/
def bankGet (k : Nat) (s : State) : FlashBank := if k = 0 then s.flash.bank0 else s.flash.bank1

/-- The flag of SUSPENDED is carried by FLC_STAT; the other states follow the bank's commands. -/
def bankCode (b : FlashBank) (suspended : Bool) : Nat :=
  match b.prog, b.erase with
  | some _, _ => 1
  | none, some _ => if suspended then 3 else 2
  | none, none => 0

/-- FLC_STAT.Bk_STATE and Bk_BLOCK. -/
def bankState (k : Nat) (s : State) : Nat :=
  fget flcB (if k = 0 then FLC_STAT.B0_STATE else FLC_STAT.B1_STATE) s

/-- The block a bank's state names (R559). -/
def bankBlock (b : FlashBank) : Nat :=
  match b.prog, b.erase with
  | some j, _ => (j.addr - 0x08000000) / 0x10000
  | none, some j => (j.addr - 0x08000000) / 0x10000
  | none, none => 0

/-- A bank takes what it does; FLC_STAT follows. -/
def bankPut (k : Nat) (b : FlashBank) (suspended : Bool) (s : State) : State :=
  let s1 := { s with flash := if k = 0 then { s.flash with bank0 := b } else { s.flash with bank1 := b } }
  fset flcB (if k = 0 then FLC_STAT.B0_BLOCK else FLC_STAT.B1_BLOCK) (bankBlock b)
    (fset flcB (if k = 0 then FLC_STAT.B0_STATE else FLC_STAT.B1_STATE) (bankCode b suspended) s1)

/-- The bank of an erase of a suspended block stays suspended while a line is programmed (R551). -/
def bankSuspended (k : Nat) (s : State) : Bool :=
  bankState k s == 3 || (bankState k s == 1 && (bankGet k s).erase.isSome)

/-- A key unit operation occupies bank 1 (R553). -/
def keyUnitBusy (k : Nat) (s : State) : Bool := k == 1 && fis 0x400B0000 KEY_STAT.COMPACT s

/-! ### Content -/

/-- The octet's content is undefined (R545, R550, R554): a garbled range, or a suspended block. -/
def garbledAt (a : Nat) (s : State) : Bool :=
  (s.flash.garbled.any fun g => decide (g.1 ≤ a) && decide (a < g.1 + g.2)) ||
    (bankSuspended (bankOf a) s &&
      (match (bankGet (bankOf a) s).erase with
       | some j => decide (j.addr ≤ a) && decide (a < j.addr + 0x10000)
       | none => false))

/-- An octet of flash as a read returns it. The shelf's octets are the key unit's own and are not printed (R522). -/
def flashGet (a : Nat) (s : State) : Byte :=
  if garbledAt a s || inKeyShelf a then Config.freeByte (2 ^ 40 * (s.freeCtr + 1) + a) else memGet a s

/-- `n` octets of flash. -/
def flashBytes (a n : Nat) (s : State) : List Byte := (List.range n).map fun k => flashGet (a + k) s

/-- A range becomes undefined. -/
def garble (a n : Nat) (s : State) : State :=
  { s with flash := { s.flash with garbled := (a, n) :: s.flash.garbled } }

/-- A range is erased: it reads 0xFF, and nothing of it stays undefined. -/
def eraseRange (a n : Nat) (s : State) : State :=
  let t := memClear (fun x => decide (a ≤ x) && decide (x < a + n)) s
  { t with flash := { t.flash with
      garbled := t.flash.garbled.filter fun g => !(decide (a ≤ g.1) && decide (g.1 + g.2 ≤ a + n)) } }

/-- Caches and read buffers lose the lines of a range (R549, R550). -/
def flashInvalidate (a n : Nat) (s : State) : State :=
  let t := dropLines (fun l => decide (l.base < a + n) && decide (a < l.base + 64)) s
  { t with flash := { t.flash with
      last := none
      branch := t.flash.branch.filter fun x => bankOf x != bankOf a } }

/-- The erase counter of block `b` counts one erase, and the wear threshold is judged (R550, R556). -/
def eraseCount (b : Nat) (s : State) : State :=
  let r := flcB + 4 * b
  let s1 := fcount r FLC_ECNT.COUNT s
  if fget flcB FLC_WEAR.TH s1 ≠ 0 ∧ fget r FLC_ECNT.COUNT s < fget flcB FLC_WEAR.TH s1 ∧
      fget r FLC_ECNT.COUNT s1 = fget flcB FLC_WEAR.TH s1 then
    flcNote FLC_NOTE.WEAR (fset flcB FLC_WEAR_LAST.BLOCK b s1)
  else s1

/-- `n` blocks from block `b` count an erase each. -/
def eraseCounts (b : Nat) : Nat → State → State
  | 0, s => s
  | n + 1, s => eraseCounts (b + 1) n (eraseCount b s)

end Sys2Proof.Machine
end

