-- ==== Sys2Proof/Machine/PowBase.lean ====
section
/-!
DEFINITION. The core supply (R29–R31, R590–R593): requests, the row of R593 that is due, acknowledgement and failure.
-/

namespace Sys2Proof.Machine

open Reg

/-- The PWR block. -/
def pwrB : Nat := 0x400F0000
/-- The wake and PMBus block. -/
def pmbB : Nat := 0x70030000
/-- The FAB control block. -/
def fabB : Nat := 0x40160000

/-- A bit of PWR_ERR is set, raising event 828 (R599). -/
def pwrErr (f : Fld) (s : State) : State := note pwrB f 828 s

/-- A bit of PWR_NOTE is set, raising event 824 + its number (R599). -/
def pwrNote (f : Fld) (s : State) : State := note pwrB f (824 + f.lo) s

/-- A plan is active (R240). -/
def planActive (s : State) : Bool := fget fabB FAB_PLAN_STAT.ACTIVE s != 0

/-- The floor and ceiling codes; both 10 while no plan is active (R593). -/
def vFloor (s : State) : Nat := if planActive s then fget fabB FAB_LIMITS.FLOOR s else 10
/-- The ceiling code. -/
def vCeil (s : State) : Nat := if planActive s then fget fabB FAB_LIMITS.CEIL s else 10

/-- VCORE's acknowledged code. -/
def vNow (s : State) : Nat := fget pwrB PWR_VSTAT.NOW s

/-- No request can be made now: one is outstanding, VFAIL is set, or VOUT_MODE was not accepted (R30, R591, R592). -/
def vBlocked (s : State) : Bool :=
  fis pwrB PWR_VSTAT.PEND s || fis pwrB PWR_ERR.VFAIL s || !fis pmbB PMB_STAT.VALID s

/-- VOUT_COMMAND of a code: round(V × 2^−N) (R591). -/
def voutOf (code : Nat) (s : State) : Nat :=
  let k := (-(fgetS pmbB PMB_STAT.VOUT_N s)).toNat
  (roundDiv (((550 + 25 * code) * 2 ^ k : Nat) : Int) 1000).toNat

/-- The lantern writes a PMBus command (R590). -/
def pmbWrite (cmd data : Nat) (s : State) : State := { s with pow := { s.pow with pmb := some (cmd, data) } }

/-- A request for a code (R30, R31, R49, R590). -/
def vRequest (code : Nat) (s : State) : State :=
  if vBlocked s then s
  else
    flcWs (pmbWrite 0x21 (voutOf code s) (fset pwrB PWR_VSTAT.LOW (min (vNow s) code) (fset pwrB PWR_VSTAT.REQ code
      (fset pwrB PWR_VSTAT.PEND 1 s))))

/-- VSET, or the nearer limit (R593). -/
def vTarget (s : State) : Nat := max (vFloor s) (min (vCeil s) (fget pwrB PWR_VCFG.VSET s))

/-- The request that is due when none is outstanding: a raise in progress, else a step towards VSET (R223, R593). -/
def vManage (s : State) : State :=
  match s.pow.goal with
  | some g => if vNow s < g then vRequest (vNow s + 1) s else s
  | none =>
    if vNow s < vTarget s then vRequest (vNow s + 1) s
    else if vTarget s < vNow s then vRequest (vNow s - 1) s
    else s

/-- FAB_SLACK_LOW (R30, R234): one step up, or SLACK_CEIL at the ceiling. -/
def slackLow (s : State) : State :=
  let s1 := raiseEvt 792 (fset fabB FAB_SLACK.LOW 1 s)
  if vCeil s1 ≤ vNow s1 then fset fabB FAB_ERR.SLACK_CEIL 1 s1 else vRequest (vNow s1 + 1) s1

/-- A step is acknowledged (R591, R593). -/
def vAcknowledge (s : State) : State :=
  let c := fget pwrB PWR_VSTAT.REQ s
  pwrNote PWR_NOTE.VSTEP (flcWs (fset pwrB PWR_VSTAT.PEND 0 (fset pwrB PWR_VSTAT.LOW c (fset pwrB PWR_VSTAT.NOW c s))))

/-- A request fails (R592). -/
def vFailed (s : State) : State :=
  pwrErr PWR_ERR.VFAIL (fcount pmbB PMB_CNT.FAIL (fset pwrB PWR_VSTAT.HOLD 1 (fset pwrB PWR_VSTAT.PEND 0
    { s with pow := { s.pow with goal := none } })))

/-- The Steward clears VFAIL (R592): requests may be made again. -/
def vfailCleared (s : State) : State :=
  vManage (flcWs (fset pwrB PWR_VSTAT.LOW (vNow s) (fset pwrB PWR_VSTAT.HOLD 0 s)))

/-- A write of PWR_VCFG (R593, R600): refused for DOWN_HOLD 0 and for a VSET outside the limits. -/
def pwrVcfgWrite (data : Word) (s : State) : State :=
  if bitsOf data 16 16 = 0 ∨ bitsOf data 0 5 < vFloor s ∨ vCeil s < bitsOf data 0 5 then pwrErr PWR_ERR.RANGE s
  else vManage (wr (pwrB + 0x14) (data &&& 0xFFFF011F#32) s)

end Sys2Proof.Machine
end

