-- ==== Sys2Proof/Machine/Lanes.lean ====
section
/-!
DEFINITION. Lane commands (spec/07_lanes.md): bin samples, the phases of a frame, tunes, moves and the noise-floor
survey; and the two capture commands that reach the lanes.
-/

namespace Sys2Proof.Machine

open Reg

/-! ### Bin samples (R56, R57, R179, R234, R235, R275) -/

/-- A lane whose reads of its buffers count (R56): ACTIVE or DRAINING. -/
def laneReads (n : Nat) (s : State) : Bool := laneState n s == 2 || laneState n s == 4

/-- The lanes that read buffers. -/
def readingLanes (s : State) : List Nat := (List.range 256).filter fun n => laneReads n s

/-- A lane with the most entries behind it among a list, the lowest number among equals. -/
def laggard (s : State) : List Nat → Option Nat
  | [] => none
  | n :: r =>
    match laggard s r with
    | none => some n
    | some m => if (laneGet n s).fill < (laneGet m s).fill then some m else some n

/-- An entry is lost to a lane (R57, R235). -/
def sampleLost (n index : Nat) (s : State) : State :=
  let s1 := note fabB FAB_ERR.OVERRUN 793 (fset fabB FAB_SLACK.OVR_LANE n (fcount fabB FAB_OVR_CNT.LOST s))
  match (laneGet n s1).frame with
  | some f => if f.p + 64 ≤ index then laneMark n markOverrun s1 else s1
  | none => s1

/-- The slack reports after a write (R234, R244). -/
def slackUpdate (n : Nat) (s : State) : State :=
  let fill := (laneGet n s).fill
  let s1 := fset fabB FAB_SLACK.MAX_FILL (max fill (fget fabB FAB_SLACK.MAX_FILL s)) s
  let s2 := match laggard s1 (readingLanes s1) with
    | some m => fset fabB FAB_SLACK.LAG_LANE m s1
    | none => s1
  if fis fabB FAB_SLACK.LOW s2 then
    if (readingLanes s2).all fun m => decide ((laneGet m s2).fill ≤ 32) then fset fabB FAB_SLACK.LOW 0 s2 else s2
  else if 48 < fill then slackLow s2
  else s2

/-- Hunting digital gain (R179): `peak` is the peak of the last 8 samples in 0.25 dB against 16-bit full scale. -/
def huntGain (n : Nat) (peak : Int) (s : State) : State :=
  let fe := laneFe n s
  let b := laneGainB n
  let now : Int := fget b LANE_GAIN.NOW s
  let want := clampInt 0 511 (-(4 * (fget (chzB fe) CHZ_LAGC.TARGET s : Int)) - peak)
  let g := if want ≤ now then want else min want (now + fget (chzB fe) CHZ_LAGC.DECAY s)
  fset b LANE_GAIN.NOW g.toNat s

/-- FDX_STAT.BLANKING at a sample (R295); intervals long past are dropped. -/
def blankUpdate (fe : Fe) (i : Nat) (s : State) : State :=
  let d := fdxGet fe s
  let live := d.blanks.filter fun b => match b.last with
    | some l => decide (i ≤ l + 512)
    | none => true
  fset (feB fe) FDX_STAT.BLANKING (ofBool (live.any fun b => blankCovers b i)) (fdxPut fe { d with blanks := live } s)

/-- A bin sample reaches lane `n`'s buffers (R57). -/
def binSample (n index fill : Nat) (peakQ edQ : BitVec 16) (s : State) : State :=
  let fe := laneFe n s
  if laneDefined n s = false ∨ laneReads n s = false ∨ (feGet fe s).residence = false then s
  else
    let s1 := blankUpdate fe index (wr48 (feB fe + 0x18) (max index (sidx fe s)) s)
    let blk := laneBlanked n index s1
    let s2 := fset (laneP n) LANE_ED.BLANKED (ofBool ((List.range 8).any fun k => laneBlanked n (index - k) s1))
      (fset (laneP n) LANE_ED.ED_Q edQ.toNat s1)
    let s3 := if blk then laneCut n 6 index s2 else s2
    let s4 := if fill = 64 then sampleLost n index s3 else s3
    let s5 := slackUpdate n (lanePut n { laneGet n s4 with fill := min 64 (fill + 1) } s4)
    if blk = true ∨ laneMid n s5 = true ∨ chzManual fe s5 = true then s5 else huntGain n peakQ.toInt s5

/-- BIN_SAMPLE_WRITE (R57). -/
def execBinSampleWrite (lane : BitVec 8) (index : BitVec 48) (fill : Fin 65) (peakQ edQ : BitVec 16) (s : State) :
    Host.Outcome State Fault Refusal :=
  .next (binSample lane.toNat index.toNat fill.val peakQ edQ s)

/-! ### Start and stop (R250) -/

/-- LANE_CMD (R250, R287). -/
def laneCmd (n key : Nat) (start stop : Bool) (s : State) : State :=
  if laneDefined n s = false then s
  else if key ≠ 0x4C4E ∨ (start && stop) = true then laneFlag n LANE_ERR.CMD s
  else if start then (if laneState n s = 1 then laneSetState n 2 s else laneFlag n LANE_ERR.CMD s)
  else if stop then
    if laneState n s = 2 then laneSetState n 1 (laneCut n 3 (sidx (laneFe n s) s + 1) s)
    else laneFlag n LANE_ERR.CMD s
  else s

/-- LANE_START (R250). -/
def execLaneStart (i : Init) (lane : BitVec 8) (key : BitVec 16) (s : State) : Host.Outcome State Fault Refusal :=
  .next (doorStore i (laneP lane.toNat + 8) (laneCmd lane.toNat key.toNat true false) s)

/-- LANE_STOP (R250). -/
def execLaneStop (i : Init) (lane : BitVec 8) (key : BitVec 16) (s : State) : Host.Outcome State Fault Refusal :=
  .next (doorStore i (laneP lane.toNat + 8) (laneCmd lane.toNat key.toNat false true) s)

/-! ### Tunes (R259–R261) -/

/-- A tune is refused (R260). -/
def tuneRefused (n bin : Nat) (fine : Int) (s : State) : Bool :=
  decide (1024 < bin + laneBins n s) || decide (46875 < fine.natAbs) || laneState n s == 0 || laneState n s == 3 ||
    laneState n s == 4 || fis (laneP n) LANE_STAT.MOVE_PEND s

/-- A GO write (R259–R261). -/
def tuneSubmit (n : Nat) (s : State) : State :=
  let b := laneP n
  let bin := fget b LANE_TUNE_CH.BIN_FIRST s
  let fine := fgetS b LANE_TUNE_FINE.FINE_HZ s
  if tuneRefused n bin fine s then laneFlag n LANE_ERR.TUNE_REF s
  else
    let fe := laneFe n s
    let next := sidx fe s + 1
    let idx := if fis b LANE_TUNE_CH.NOW s then next else rd48 (b + 0x20) s
    let t : LaneTune := ⟨bin, fine, max idx next, fis b LANE_TUNE_CH.FORCE s⟩
    if laneState n s = 1 ∨ (feGet fe s).residence = false then
      tuneTake n { t with index := 0 } s
    else
      let s1 := fset b LANE_STAT.TUNE_PEND 1 (lanePut n { laneGet n s with tune := some t } s)
      if idx < next then laneFlag n LANE_ERR.TUNE_LATE s1 else s1

/-- A write of LANE_TUNE_CH (R259, R287). -/
def tuneChWrite (n : Nat) (data : Word) (s : State) : State :=
  if laneDefined n s = false then s
  else
    let s1 := wr (laneP n + 0x18) (data &&& 0x600003FF#32) s
    if bitOf data 31 then tuneSubmit n s1 else s1

/-- LANE_TUNE_GO (R259). -/
def execLaneTuneGo (i : Init) (lane : BitVec 8) (data : Word) (s : State) : Host.Outcome State Fault Refusal :=
  .next (doorStore i (laneP lane.toNat + 0x18) (tuneChWrite lane.toNat (data ||| 0x80000000#32)) s)

/-- LANE_TUNE_APPLY (R261). -/
def execLaneTuneApply (lane : BitVec 8) (index : BitVec 48) (s : State) : Host.Outcome State Fault Refusal :=
  let n := lane.toNat
  .next (match (laneGet n s).tune with
    | some t =>
      if index.toNat < t.index then s
      else if laneMid n s then
        if t.force then tuneTake n { t with index := index.toNat } (laneCut n 3 index.toNat s) else s
      else tuneTake n { t with index := index.toNat } s
    | none => s)

/-! ### Moves (R281–R285) -/

/-- The descriptors agree in FE, PHY, OPTS and N_BINS (R281). -/
def moveFits (a b : Nat) (s : State) : Bool :=
  match laneDesc a s, laneDesc b s with
  | some x, some y => x.fe == y.fe && x.phy == y.phy && x.opts == y.opts && x.nBins == y.nBins
  | _, _ => false

/-- A move is refused (R281). -/
def moveRefused (n dst idx : Nat) (s : State) : Bool :=
  laneState n s != 2 || (laneGet n s).tune.isSome || (laneGet n s).move.isSome || dst == n || laneState dst s != 1 ||
    !moveFits n dst s || feState (laneFe n s) s != 3 || decide (idx < sidx (laneFe n s) s + 2)

/-- A write of LANE_MOVE (R281, R282). -/
def moveSubmit (n key dst : Nat) (s : State) : State :=
  if laneDefined n s = false then s
  else if key ≠ 0x4D56 then laneFlag n LANE_ERR.CMD s
  else
    let idx := rd48 (laneP n + 0x2C) s
    if moveRefused n dst idx s then laneFlag n LANE_ERR.MOVE_REF s
    else
      let s1 := lanePut n { laneGet n s with move := some ⟨dst, idx, true⟩, drained := none } s
      let s2 := lanePut dst { laneGet dst s1 with move := some ⟨n, idx, false⟩ } s1
      let s3 := fset (laneP n) LANE_STAT.PARTNER dst (fset (laneP n) LANE_STAT.MOVE_PEND 1 s2)
      let s4 := laneSetState dst 3 (fset (laneP dst) LANE_STAT.PARTNER n (fset (laneP dst) LANE_STAT.MOVE_PEND 1 s3))
      wr (laneP dst + 0x14) (rd (laneP n + 0x14) s4) (wr (laneP dst + 0x10) (rd (laneP n + 0x10) s4) s4)

/-- LANE_MOVE (R281). -/
def execLaneMove (i : Init) (lane : BitVec 8) (key : BitVec 16) (dest : BitVec 8) (s : State) :
    Host.Outcome State Fault Refusal :=
  .next (doorStore i (laneP lane.toNat + 0x28) (moveSubmit lane.toNat key.toNat dest.toNat) s)

/-- A move takes effect at N (R282). -/
def moveEffective (n : Nat) (s : State) : State :=
  match (laneGet n s).move with
  | some m =>
    if m.source = true ∧ fis (laneP n) LANE_STAT.MOVE_PEND s = true then
      let d := m.partner
      let s1 := fset (laneP d) LANE_STAT.MOVE_PEND 0 (fset (laneP n) LANE_STAT.MOVE_PEND 0 s)
      let s2 := laneSetState d 2 (fset (laneP d) LANE_STAT.EPOCH (fget (laneP n) LANE_STAT.EPOCH s1 + 1) s1)
      let s3 := lanePut d { laneGet d s2 with detectsFrom := m.index } s2
      let s4 := laneFlag n LANE_NOTE.MOVE_START (laneFlag d LANE_NOTE.MOVE_START s3)
      if laneMid n s4 then laneSetState n 4 s4 else drainRelease n s4
    else s
  | none => s

/-- LANE_MOVE_EFFECTIVE (R282). -/
def execLaneMoveEffective (lane : BitVec 8) (s : State) : Host.Outcome State Fault Refusal :=
  .next (moveEffective lane.toNat s)

/-- LANE_DRAIN_RELEASE (R283): at the frame's release, or at N + LANE_TMAX. -/
def execLaneDrainRelease (lane : BitVec 8) (index : BitVec 48) (s : State) : Host.Outcome State Fault Refusal :=
  let n := lane.toNat
  let last := (match (laneGet n s).move with
    | some m => m.index
    | none => 0) + fget (laneP n) LANE_TMAX.TMAX s
  .next (if laneState n s = 4 then
      if laneMid n s then
        if last ≤ index.toNat then drainRelease n (laneCut n 4 last s) else s
      else drainRelease n s
    else s)

/-! ### The phases of a frame (R262–R269) -/

/-- The source of a move that is still draining, which a frame detected now is compared with (R284). -/
def drainingSource (n : Nat) (s : State) : Option Nat :=
  match (laneGet n s).move with
  | some m => if m.source = false ∧ laneState m.partner s = 4 then some m.partner else none
  | none => none

/-- A frame begins at P (R263). -/
def frameBegin (n p : Nat) (s : State) : State :=
  let fe := laneFe n s
  let l := laneGet n s
  let ovl := decide (p < ovlClean fe s) && fis (chzB fe) CHZ_OVL_STAT.CLEAN_VALID s || ovlActive fe s
  let marks := (if ovl then markOvl else 0) ||| (if l.ms.isSome then markMs else 0)
  let f : LaneFrame := { p := p, phy := lanePhy n s, marks := marks, against := drainingSource n s }
  let c := chzGet fe s
  let s1 := chzPut fe { c with spoilt := c.spoilt ||| laneBinSet n s } (lanePut n { l with frame := some f } s)
  midframeAdd fe (fset (laneGainB n) LANE_GAIN.FROZEN 1
    (fset (laneP n) LANE_STAT.PHASE 1 (fset (laneP n) LANE_STAT.MIDFRAME 1 s1)))

/-- PREAMBLE_DETECTION (R263, R294). -/
def execPreambleDetection (lane : BitVec 8) (index : BitVec 48) (s : State) : Host.Outcome State Fault Refusal :=
  let n := lane.toNat
  .next (if laneState n s = 2 ∧ laneMid n s = false ∧ (feGet (laneFe n s) s).residence = true ∧
        (laneGet n s).detectsFrom ≤ index.toNat ∧ laneBlanked n index.toNat s = false then
      frameBegin n index.toNat s
    else s)

/-- The DFE is bypassed for a frame (R271). -/
def dfeBypassed (n p sfd : Nat) (mse : Int) (s : State) : Bool :=
  laneDfe n s && (!fis (laneP n) LANE_DFE.EN s ||
    decide ((sfd - p) * 2048 < 16 * symFifths (lanePhy n s)) ||
    decide (-(4 * (fget (laneP n) LANE_DFE.BYP_TH s : Int)) < mse))

/-- The SFD is found (R262, R266, R271, R274): Header begins. -/
def sfdFound (n sfd frac : Nat) (coded : Bool) (mse : Int) (s : State) : State :=
  let l := laneGet n s
  match l.frame with
  | some f =>
    if f.sfd.isSome = true ∨ (coded = true ∧ laneFec n s = false) then s
    else
      let marks := f.marks ||| (if dfeBypassed n f.p sfd mse s then markEqByp else 0) |||
        (if coded || phyOfdm f.phy then markCoded else 0)
      let fl := if fis (laneP n) LANE_FLOOR.VALID s then some (fgetS (laneP n) LANE_FLOOR.FLOOR_H s) else none
      fset (laneP n) LANE_STAT.PHASE 2
        (lanePut n { l with frame := some { f with sfd := some (sfd, frac), marks := marks, floor := fl } } s)
  | none => s

/-- SFD_FOUND (R262). -/
def execSfdFound (lane : BitVec 8) (index : BitVec 48) (frac : BitVec 12) (coded : Bool) (mseQ : BitVec 16)
    (s : State) : Host.Outcome State Fault Refusal :=
  .next (sfdFound lane.toNat index.toNat frac.toNat coded mseQ.toInt s)

/-- SFD_TIMEOUT (R264): the lane releases; no frame has closed. -/
def execSfdTimeout (lane : BitVec 8) (s : State) : Host.Outcome State Fault Refusal :=
  .next (match (laneGet lane.toNat s).frame with
    | some f => if f.sfd.isNone then laneRelease lane.toNat s else s
    | none => s)

/-- The PHR is decoded and checked (R256, R265). -/
def phrDecoded (n e len : Nat) (fcs2 : Bool) (mcs : Nat) (hcsOk : Bool) (s : State) : State :=
  let l := laneGet n s
  match l.frame with
  | some f =>
    if f.sfd.isNone then s
    else
      let fcs := fcsLenOf f.phy fcs2 (fis (laneP n) LANE_CTRL.FCS2 s)
      let s1 := lanePut n { l with
        frame := some { f with len := len, mcs := if phyOfdm f.phy then mcs else 0, fcsLen := fcs } } s
      if phrBad f.phy len mcs fcs hcsOk then laneClose n 2 e (freeQuality s1) s1
      else fset (laneP n) LANE_STAT.PHASE 3 s1
  | none => s

/-- PHR_DECODED (R265). -/
def execPhrDecoded (lane : BitVec 8) (index : BitVec 48) (len : BitVec 11) (fcs2 : Bool) (mcs : BitVec 3)
    (hcsOk : Bool) (s : State) : Host.Outcome State Fault Refusal :=
  .next (phrDecoded lane.toNat index.toNat len.toNat fcs2 mcs.toNat hcsOk s)

/-- A lane can serve an announced mode (R267). -/
def modeServed (n phy hq : Nat) (s : State) : Bool :=
  phyFsk phy && decide (fskKsym phy ≤ fskKsym (fget (laneP n) LANE_ID.PHY s)) &&
  decide (phySlots phy (laneFec n s) ≤ (match laneDesc n s with
    | some d => d.nSlots
    | none => 0)) &&
  decide (occupied phy hq ≤ laneBins n s * 93750)

/-- A mode switch PPDU (R267): it is never delivered; the lane waits for the next frame in the announced mode. -/
def modeSwitch (n phy hq : Nat) (s : State) : State :=
  match (laneGet n s).frame with
  | some f =>
    if f.sfd.isSome = true ∧ phyFsk f.phy = true then
      let s1 := laneRelease n s
      if !fis (laneP n) LANE_MODE.MS_EN s1 then s1
      else if modeServed n phy hq s1 then lanePut n { laneGet n s1 with ms := some phy } s1
      else laneFlag n LANE_ERR.MS_UNSUP s1
    else s
  | none => s

/-- MODE_SWITCH_PPDU (R267). -/
def execModeSwitchPpdu (lane phy hQ : BitVec 8) (s : State) : Host.Outcome State Fault Refusal :=
  .next (modeSwitch lane.toNat phy.toNat hQ.toNat s)

/-- MODE_SWITCH_TIMEOUT (R267): the lane returns to its own mode unless a frame has been detected. -/
def execModeSwitchTimeout (lane : BitVec 8) (s : State) : Host.Outcome State Fault Refusal :=
  .next (if laneMid lane.toNat s then s else lanePut lane.toNat { laneGet lane.toNat s with ms := none } s)

/-- FRAME_END (R269): the PSDU's last symbol, with the FCS verdict and what the lane measured. -/
def execFrameEnd (lane : BitVec 8) (index : BitVec 48) (fcsOk sat : Bool) (qual : Quality) (s : State) :
    Host.Outcome State Fault Refusal :=
  let n := lane.toNat
  .next (match (laneGet n s).frame with
    | some f =>
      if f.fcsLen = 0 then s
      else laneClose n (if fcsOk then 0 else 1) index.toNat qual (if sat then laneMark n markSat s else s)
    | none => s)

/-- LANE_TIMEOUT (R264): LANE_TMAX samples after P. -/
def execLaneTimeout (lane : BitVec 8) (s : State) : Host.Outcome State Fault Refusal :=
  let n := lane.toNat
  .next (match (laneGet n s).frame with
    | some f => laneCut n 4 (f.p + fget (laneP n) LANE_TMAX.TMAX s) s
    | none => s)

/-- RESYNC_COLLISION (R268): the frame in Header or Payload closes as COLLIDED and a new one begins. -/
def execResyncCollision (lane : BitVec 8) (index : BitVec 48) (s : State) : Host.Outcome State Fault Refusal :=
  let n := lane.toNat
  .next (match (laneGet n s).frame with
    | some f =>
      if f.sfd.isSome = true ∧ fis (laneP n) LANE_CTRL.RESYNC s = true ∧ laneState n s = 2 then
        frameBegin n index.toNat (laneCut n 5 index.toNat s)
      else s
    | none => s)

/-! ### Gain commands that reach the lanes (R180, R184) -/

/-- In MANUAL the hunting lanes of a front end take MGAIN (R180). -/
def lanesManual (fe : Fe) (s : State) : State :=
  if chzManual fe s then
    (lanesOf fe s).foldl (fun t n =>
      if laneMid n t then t else fset (laneGainB n) LANE_GAIN.NOW (fget (laneGainB n) LANE_GAIN.MGAIN t) t) s
  else s

/-- CHZ_CTRL_WRITE (R180). -/
def execChzCtrlWrite (i : Init) (fe : Fe) (data : Word) (period : BitVec 48) (s : State) :
    Host.Outcome State Fault Refusal :=
  .next (doorStore i (chzB fe) (fun t => lanesManual fe (chzCtrlWrite fe data period.toNat t)) s)

/-- A write of LANE_GAIN (R180, R197). -/
def laneGainWrite (n : Nat) (data : Word) (s : State) : State :=
  let b := laneGainB n
  let s1 := fset b LANE_GAIN.MGAIN (bitsOf data 0 9) s
  if laneDefined n s1 = true ∧ laneMid n s1 = false ∧ chzManual (laneFe n s1) s1 = true then
    fset b LANE_GAIN.NOW (bitsOf data 0 9) s1
  else s1

/-- OVERLOAD_DETECT (R178, R181, R184): detection is suspended while TR_TX is 1. -/
def execOverloadDetect (fe : Fe) (start : BitVec 48) (s : State) : Host.Outcome State Fault Refusal :=
  .next (if (feGet fe s).residence = true ∧ chzDeaf fe s = false then
      overloadDetect fe start.toNat
        ((lanesOf fe s).foldl (fun t n => laneMark n markOvl t) s)
    else s)

/-! ### The noise-floor survey (R276–R278) -/

/-- A front end has survey tiles in the active plan (R276). -/
def hasUnit (func : Nat) (fe : Fe) (s : State) : Bool := s.plan.units.any fun u => u.1 == func && u.2.1 == fe.num

/-- A bin was blanked at some sample of a block (R276). -/
def blockBlanked (fe : Fe) (block k : Nat) (s : State) : Bool :=
  (fdxGet fe s).blanks.any fun b =>
    decide (b.first ≤ 256 * block + 255) && (match b.last with
      | some l => decide (256 * block ≤ l)
      | none => true) && binBlanked fe b k s

/-- The least of a list, 0 for none. -/
def leastOf : List Int → Int
  | [] => 0
  | [x] => x
  | x :: r => min x (leastOf r)

/-- A bin's floor from its counted means (R276): the second-lowest once four have counted, else the lowest. -/
def floorOf (h : List Int) : Int := if h.length < 4 then leastOf h else leastOf (h.erase (leastOf h))

/-- One bin at a block's end (R276, R278). -/
def surveyBin (fe : Fe) (block : Nat) (means : List Int) (k : Nat) (s : State) : State :=
  let b := 0x40020000 + 0x1000 * fe.num + 4 * k
  let key := fe.num * 1024 + k
  let h := tget (fun _ => []) s.survey key
  let c := chzGet fe s
  match means[k]? with
  | some m =>
    if c.spoiltAll = true ∨ c.spoilt.getLsbD k = true ∨ blockBlanked fe block k s = true then fcount b SURVEY.AGE s
    else
      let h1 := (m :: h).take 16
      fset b SURVEY.AGE 0 (fset b SURVEY.VALID (ofBool (decide (4 ≤ h1.length)))
        (fsetS b SURVEY.FLOOR_H (roundDiv (floorOf h1) 500) { s with survey := tset (fun _ => []) s.survey key h1 }))
  | none => s

/-- A lane's floor at a block's end (R277). -/
def surveyLane (fe : Fe) (n : Nat) (s : State) : State :=
  let c := 0x40020000 + 0x1000 * fe.num + 4 * (laneBin n s + laneBins n s / 2)
  let floors := (List.range (laneBins n s)).map fun k =>
    floorOf (tget (fun _ => []) s.survey (fe.num * 1024 + laneBin n s + k))
  fset (laneP n) LANE_FLOOR.VALID (fget c SURVEY.VALID s) (fset (laneP n) LANE_FLOOR.AGE (fget c SURVEY.AGE s)
    (fsetS (laneP n) LANE_FLOOR.FLOOR_H (Config.laneFloor (lanePhy n s) floors) s))

/-- A survey block ends (R276, R277): the next block starts with the bins of the lanes still mid-frame spoilt. -/
def surveyBlock (fe : Fe) (block : Nat) (means : List Int) (s : State) : State :=
  if hasUnit 3 fe s = false ∨ (feGet fe s).residence = false then s
  else
    let s1 := (List.range 1024).foldl (fun t k => surveyBin fe block means k t) s
    let s2 := (lanesOf fe s1).foldl (fun t n => surveyLane fe n t) s1
    let still := (lanesOf fe s2).foldl (fun v n => if laneMid n s2 then v ||| laneBinSet n s2 else v) 0
    chzPut fe { chzGet fe s2 with
      spoilt := still
      spoiltAll := ovlMeets fe (256 * (block + 1)) (256 * (block + 1)) s2 } s2

/-- SURVEY_BLOCK_END (R276). -/
def execSurveyBlockEnd (fe : Fe) (block : BitVec 40) (means : List Int) (s : State) :
    Host.Outcome State Fault Refusal :=
  .next (surveyBlock fe block.toNat means s)

end Sys2Proof.Machine
end

