-- ==== Sys2Proof/Machine/Duplex.lean ====
section
/-!
DEFINITION. Transmitting while receiving (spec/08_full_duplex.md): the transmit mode, blanking intervals, the gain
cap, training and measurement of the canceller.
-/

namespace Sys2Proof.Machine

open Reg

/-- The transmit mode of R289: 1 HALF, 2 DUPLEX. -/
def fdxMode (fe : Fe) (s : State) : Nat :=
  if fget (feB fe) FE_CTRL.ARR s = 1 ∧ fis (feB fe) FDX_CFG.EN s = true ∧ hasUnit 2 fe s = true ∧
    fis (feB fe) FDX_ERR.ISO_LOW s = false then 2 else 1

/-- A SPLIT front end transmits in HALF because the plan has no canceller for it (R289). -/
def fdxNoCancel (fe : Fe) (s : State) : Bool :=
  fget (feB fe) FE_CTRL.ARR s == 1 && fis (feB fe) FDX_CFG.EN s && !hasUnit 2 fe s

/-- ISO_eff (R301). -/
def isoEff (fe : Fe) (s : State) : Nat :=
  let c := fget (feB fe) FDX_CFG.ISO s
  if fis (feB fe) FDX_MEAS.VALID s then min c (fget (feB fe) FDX_MEAS.ISO_MEAS s) else c

/-- The code of G_cap (R301); `pset` in 0.25 dBm. -/
def gainCapCode (fe : Fe) (pset : Int) (s : State) : Nat :=
  (clampInt 0 31 ((88 + 4 * (isoEff fe s : Int) - pset) / 8)).toNat

/-- A transition into DUPLEX sets the gain cap (R301). -/
def gainCapSet (fe : Fe) (pset : Int) (period : Nat) (s : State) : State :=
  let code := gainCapCode fe pset s
  let c := chzGet fe s
  let s1 := fset (feB fe) FDX_STAT.GCAP code
    (chzPut fe { c with cap := some code, beforeCap := chzGain fe s, capRet := none } s)
  if code < chzGain fe s1 then setGain fe code period 1 s1 else s1

/-- The cap ends with the ramp-down; the return is due two input periods later (R301). -/
def gainCapEnd (fe : Fe) (s : State) : State :=
  chzPut fe { chzGet fe s with cap := none, capRet := (chzGet fe s).cap } s

/-- The return from the cap (R301). -/
def gainCapReturn (fe : Fe) (period : Nat) (s : State) : State :=
  match (chzGet fe s).capRet with
  | none => s
  | some cap =>
    let s1 := chzPut fe { chzGet fe s with capRet := none } s
    if chzGain fe s1 = cap ∧ ovlActive fe s1 = false then
      setGain fe (if chzManual fe s1 then fget (chzB fe) CHZ_CTRL.MGAIN s1 else (chzGet fe s1).beforeCap) period 1 s1
    else s1

/-- The canceller trains at this frame (R297): `centre` in Hz, `temp` in 0.25 °C. -/
def fdxTrains (fe : Fe) (centre : Nat) (temp : Int) (s : State) : Bool :=
  let d := fdxGet fe s
  d.retrain || match d.trained with
    | none => true
    | some (c, t) => decide (1000000 < ((centre : Int) - c).natAbs) || decide (20 < (temp - t).natAbs)

/-- Something asks for a training at the next DUPLEX frame (R297). -/
def fdxRetrain (fe : Fe) (s : State) : State := fdxPut fe { fdxGet fe s with retrain := true } s

/-- The canceller's coefficients are cleared by a reload of its domain (R296, R306). -/
def fdxClear (fe : Fe) (s : State) : State :=
  fset (feB fe) FDX_MEAS.VALID 0 (fdxPut fe { fdxGet fe s with trained := none } s)

/-- A blanking interval begins on a front end in a residence (R292, R295). -/
def blankBegin (fe : Fe) (b : Blanking) (s : State) : State :=
  if (feGet fe s).residence then
    wr48 (feB fe + 0x10C) b.first (fdxPut fe { fdxGet fe s with blanks := b :: (fdxGet fe s).blanks } s)
  else s

/-- Mid-frame lanes whose first blanked sample is due close as BLANKED (R294). -/
def blankLanes (fe : Fe) (first : Nat) (s : State) : State :=
  if first ≤ sidx fe s + 1 then
    (lanesOf fe s).foldl (fun t n => if laneBlanked n (sidx fe t + 1) t then laneCut n 6 (sidx fe t + 1) t else t) s
  else s

/-- The open blanking intervals of a front end that `own` selects end at sample `last` (R292, R295). -/
def blankEnd (fe : Fe) (own : Bool) (last : Nat) (s : State) : State :=
  let d := fdxGet fe s
  if d.blanks.any fun b => b.own == own && b.last.isNone then
    wr48 (feB fe + 0x114) last (fdxPut fe { d with
      blanks := d.blanks.map fun b => if b.own == own && b.last.isNone then { b with last := some last } else b } s)
  else s

/-- A residence that ends during blanking ends the blanking with it (R295). -/
def blankDrop (fe : Fe) (s : State) : State :=
  let d := fdxGet fe s
  let i := sidx fe s
  let during := d.blanks.any fun b => match b.last with
    | some l => decide (i ≤ l)
    | none => true
  let s1 := if during then wr48 (feB fe + 0x114) i s else s
  fset (feB fe) FDX_STAT.BLANKING 0 (fdxPut fe { d with blanks := [] } s1)

/-- The other front end, which A's third harmonic may blank (R302). -/
def harmonicBegin (tick lo hi : Nat) (s : State) : State :=
  let b : Blanking := { all := false, lo := 3 * lo, hi := 3 * hi, own := false, first := periodAt .b tick s, last := none }
  if (List.range 1024).any fun k => binBlanked .b b k s then blankLanes .b b.first (blankBegin .b b s) else s

/-- A transmission's transition begins at air tick `tick` (R289, R292, R293, R297, R301): the occupied band in Hz,
the channel centre, P_set in 0.25 dBm and the temperature sample in 0.25 °C. -/
def fdxStart (fe : Fe) (tick lo hi centre : Nat) (pset temp : Int) (s : State) : State :=
  let mode := fdxMode fe s
  let s1 := if fdxNoCancel fe s then fset (feB fe) FDX_ERR.NO_CANCEL 1 s else s
  let s2 := fset (feB fe) FDX_STAT.MODE mode s1
  let duplex := mode == 2
  let s3 := fdxPut fe { fdxGet fe s2 with
    trains := duplex && fdxTrains fe centre temp s2
    pset := pset
    now := (centre, temp) } s2
  let first := periodAt fe tick s3
  let s4 := if duplex ∧ (feGet fe s3).residence then gainCapSet fe pset first s3 else s3
  let b : Blanking := { all := !duplex, lo := lo, hi := hi, own := true, first := first, last := none }
  let s5 := blankLanes fe first (blankBegin fe b s4)
  match fe with
  | .a => harmonicBegin tick lo hi s5
  | .b => s5

/-- The ramp-up ends in DUPLEX: training begins when it is needed (R297). -/
def fdxRampEnd (fe : Fe) (s : State) : State :=
  if (fdxGet fe s).trains ∧ fget (feB fe) FDX_STAT.MODE s = 2 then
    fset (feB fe) FDX_STAT.WIDE 1 (fset (feB fe) FDX_STAT.TRAINING 1 s)
  else s

/-- The ramp-down ends at air tick `tick`, and the interval's last tick is `last` (R292): a training it cuts short is
made again. -/
def fdxStop (fe : Fe) (last : Nat) (s : State) : State :=
  let s1 := if fis (feB fe) FDX_STAT.TRAINING s then fdxRetrain fe s else s
  let s2 := blankEnd fe true (periodAt fe last s1 + 23) s1
  let s3 := match fe with
    | .a => blankEnd .b false (periodAt .b last s2 + 23) s2
    | .b => s2
  let s4 := if (chzGet fe s3).cap.isSome then gainCapEnd fe s3 else s3
  fset (feB fe) FDX_STAT.MODE 0 (fset (feB fe) FDX_STAT.WIDE 0 (fset (feB fe) FDX_STAT.TRAINING 0
    (fdxPut fe { fdxGet fe s4 with trains := false } s4)))

/-- Training ends (R297). -/
def trainingEnd (fe : Fe) (deep : Bool) (s : State) : State :=
  if fis (feB fe) FDX_STAT.TRAINING s then
    let d := fdxGet fe s
    let s1 := fset (feB fe) FDX_STAT.TRAINING 0
      (fdxPut fe { d with trained := some d.now, retrain := !deep, trains := false } s)
    if deep then fset (feB fe) FDX_STAT.WIDE 0 s1 else fset (feB fe) FDX_ERR.CONV_FAIL 1 s1
  else s

/-- The measurement's span ends (R299, R306). -/
def fdxMeasure (fe : Fe) (iso cancel : Nat) (s : State) : State :=
  let b := feB fe
  if fget b FDX_STAT.MODE s = 2 ∧ fis b FDX_STAT.TRAINING s = false ∧ 0 ≤ (fdxGet fe s).pset then
    let s1 := fset b FDX_MEAS.ISO_MEAS iso (fset b FDX_MEAS.CANCEL cancel (fset b FDX_MEAS.VALID 1
      (fnext b FDX_MEAS.SEQ s)))
    if iso < 25 then fset b FDX_ERR.ISO_LOW 1 s1 else s1
  else s

/-- A write of FDX_ERR (R297, R308): ISO_LOW is cleared by the Steward only; a cleared ISO_LOW or CONV_FAIL asks for
a training. -/
def fdxErrWrite (i : Init) (fe : Fe) (data : Word) (s : State) : State :=
  let a := feB fe + 0x11C
  let mask : Word := if i = .steward then data else data &&& ~~~(2#32)
  let cleared := rd a s &&& mask
  let s1 := wr a (rd a s &&& ~~~mask) s
  if bitOf cleared 1 || bitOf cleared 2 then fdxRetrain fe s1 else s1

/-! ### The commands -/

/-- CANCELLER_TRAINING_END (R297). -/
def execCancellerTrainingEnd (fe : Fe) (deep : Bool) (s : State) : Host.Outcome State Fault Refusal :=
  .next (trainingEnd fe deep s)

/-- FDX_MEASUREMENT (R299). -/
def execFdxMeasurement (fe : Fe) (iso cancel : BitVec 8) (s : State) : Host.Outcome State Fault Refusal :=
  .next (fdxMeasure fe iso.toNat cancel.toNat s)

/-- GAIN_CAP_RETURN (R301). -/
def execGainCapReturn (fe : Fe) (period : BitVec 48) (s : State) : Host.Outcome State Fault Refusal :=
  .next (gainCapReturn fe period.toNat s)

end Sys2Proof.Machine
end

