-- ==== Sys2Proof/Machine/Lantern.lean ====
section
/-!
DEFINITION. Flags that the lantern domain sets and their events (R432, R531): an event whose flag is set while the
hall is down is owed until RUN.
-/

namespace Sys2Proof.Machine

open Reg

/-- The calendar block (R435). -/
def calB : Nat := 0x70000000

/-- The hall takes events: it runs, and no entry to NIGHT or SHUTTER has passed its commit point. -/
def hallUp (s : State) : Bool :=
  s.pow.hall == .run && !(fget pwrB PWR_STAT.PHASE s == 3 && decide (3 ≤ s.pow.target))

/-- Bit `bit` of the register at `a` owes event `e` at RUN. -/
def owe (a bit e : Nat) (s : State) : State :=
  { s with pow := { s.pow with owed := s.pow.owed ++ [(a, bit, e)] } }

/-- Set a lantern flag, raising event `e` when it changes from 0 to 1, or owing it while the hall is down. -/
def lanternNote (b : Nat) (f : Fld) (e : Nat) (s : State) : State :=
  if fis b f s then s
  else if hallUp s then raiseEvt e (fset b f 1 s)
  else owe (b + f.off) f.lo e (fset b f 1 s)

/-- A flag of the PWR block that the lantern sets once the hall is in RUN (R594, R601). -/
def hallNote (f : Fld) (e : Nat) (s : State) : State :=
  if hallUp s then note pwrB f e s else owe (pwrB + f.off) f.lo e s

/-- What is owed, at RUN (R432, R531, R620): a lantern flag's event when the flag is still 1; a flag of the PWR block
is set. -/
def payOwed (s : State) : State :=
  s.pow.owed.foldl (fun t o =>
    if o.1 < 0x70000000 then note o.1 ⟨0, o.2.1, 1⟩ o.2.2 t
    else if bitOf (rd o.1 t) o.2.1 then raiseEvt o.2.2 t else t)
    { s with pow := { s.pow with owed := [] } }

/-- CAL_NOTE bits 0–4 raise events 904 + bit; RANGE, CMD and NOTIME raise event 910 (R432). -/
def calNote (k : Nat) (s : State) : State :=
  lanternNote calB ⟨0x3C, k, 1⟩ (if k < 8 then 904 + k else 910) s

/-- A lantern write refused for its value (R601): PWR_ERR.RANGE once the hall is in RUN. -/
def lanternRange (s : State) : State := hallNote PWR_ERR.RANGE 828 s

end Sys2Proof.Machine
end

