-- ==== Sys2Proof/Machine/Knocker.lean ====
section
/-!
DEFINITION. The Knocker (spec/11_knocker.md): listening, deafness, the phases of a wake frame and commissioning. The
end of a pattern, which may wake the hall, stands with the wake logic.
-/

namespace Sys2Proof.Machine

open Reg

/-- The Knocker's block (R379). -/
def knkB : Nat := 0x70010000

/-- A bit of KNK_ERR, raising event 849 (R375). -/
def knkErr (f : Fld) (s : State) : State := lanternNote knkB f 849 s

/-- KNK_STAT.STATE: 0 OFF, 1 LISTEN, 2 FRAME, 3 DEAF (R379). -/
def knkState (s : State) : Nat := fget knkB KNK_STAT.STATE s

/-- Set KNK_STAT.STATE; a frame in progress is forgotten unless FRAME is kept. -/
def knkGo (st : Nat) (s : State) : State :=
  fset knkB KNK_STAT.STATE st { s with knk := { s.knk with matched := false } }

/-- Front end A transmits, from the first tick of the transition to the end of the ramp-down (R367). -/
def knkMuffled (s : State) : Bool :=
  (feGet .a s).onAir || (match (feGet .a s).trans with
    | some t => decide (4 ≤ t.dst)
    | none => decide (4 ≤ feState .a s))

/-- Deafness begins (R367): a frame in progress is discarded and counted. -/
def knkDeaf (s : State) : State :=
  if knkState s = 0 then s
  else knkGo 3 (if knkState s = 2 then fcount knkB KNK_CNT2.BLANKED s else s)

/-- Deafness ends (R367). -/
def knkHear (s : State) : State := if knkState s = 3 then knkGo 1 s else s

/-- KNK_CTRL as a write takes effect (R366, R368, R376, R377): EN = 1 is refused without a wake word; LOCK is set
only. A tune code follows each write of EN = 1; its value is a factory trim, which the spec does not print. -/
def knkCtrlWrite (data : Word) (s : State) : State :=
  if bitOf data 0 ∧ rd (knkB + 8) s = 0 then knkErr KNK_ERR.RANGE s
  else
    let s1 := wr knkB ((data &&& 0x7#32) ||| ((data ||| rd knkB s) &&& 0x8#32)) s
    if bitOf data 0 then
      drawFree (fset knkB KNK_STAT.TUNE (freeNat s1 % 128) (pdSet 1 true s1))
    else pdSet 1 false (knkGo 0 s1)

/-- A value out of range for KNK_FREQ or KNK_WORD (R379). -/
def knkOutOfRange (isWord : Bool) (data : Word) : Bool :=
  if isWord then data == 0 else decide (data.toNat < 863000 ∨ 928000 < data.toNat)

/-- KNK_FREQ or KNK_WORD as a write takes effect (R376). -/
def knkConfigWrite (isWord : Bool) (data : Word) (s : State) : State :=
  let lock := fis knkB KNK_CTRL.LOCK s
  let en := fis knkB KNK_CTRL.EN s
  let bad := knkOutOfRange isWord data
  let s1 := if lock then knkErr KNK_ERR.LOCKED s else s
  let s2 := if en then knkErr KNK_ERR.BUSY s1 else s1
  let s3 := if bad then knkErr KNK_ERR.RANGE s2 else s2
  if lock || en || bad then s3 else wr (knkB + (if isWord then 8 else 4)) data s3

/-- A write of KNK_ADDR (R379). -/
def knkAddrWrite (data : Word) (s : State) : State :=
  let a := bitsOf data 0 16
  if (0xFE00 ≤ a ∧ a ≤ 0xFE0F) ∨ a = 0xFFFF then knkErr KNK_ERR.RANGE s else wr (knkB + 0xC) data s

/-- The target matches (R371). -/
def knkMatches (target : Nat) (s : State) : Bool :=
  if target = 0xFFFF then fis knkB KNK_CTRL.BCAST_EN s
  else if 0xFE00 ≤ target ∧ target ≤ 0xFE0F then (fget knkB KNK_ADDR.GROUPS s).testBit (target - 0xFE00)
  else target != 0xFFFE && target == fget knkB KNK_ADDR.ADDR s

/-- The CRC-8 of a wake word and a target (R370). -/
def knkCrc (word target : Nat) : Nat := crcDir 8 7 0xFF (beBytes 4 word ++ beBytes 2 target)

/-! ### The commands -/

/-- KNK_EN_WRITE (R366). -/
def execKnkEnWrite (i : Init) (data : Word) (s : State) : Host.Outcome State Fault Refusal :=
  .next (doorStore i knkB (knkCtrlWrite data) s)

/-- KNK_CONFIG_WRITE (R376). -/
def execKnkConfigWrite (i : Init) (isWord : Bool) (data : Word) (s : State) : Host.Outcome State Fault Refusal :=
  .next (doorStore i (knkB + (if isWord then 8 else 4)) (knkConfigWrite isWord data) s)

/-- KNK_LISTEN_START (R366). -/
def execKnkListenStart (s : State) : Host.Outcome State Fault Refusal :=
  .next (if fis knkB KNK_CTRL.EN s = true ∧ knkState s = 0 ∧ pdOn 1 s = true then
      knkGo (if knkMuffled s then 3 else 1) s
    else s)

/-- KNK_PREAMBLE_DETECT (R372, step 1). -/
def execKnkPreambleDetect (s : State) : Host.Outcome State Fault Refusal :=
  .next (if knkState s = 1 then knkGo 2 (fcount knkB KNK_CNT0.PRE s) else s)

/-- KNK_WORD_MATCH (R372, step 2). -/
def execKnkWordMatch (s : State) : Host.Outcome State Fault Refusal :=
  .next (if knkState s = 2 ∧ s.knk.matched = false then
      fcount knkB KNK_CNT0.WORD { s with knk := { s.knk with matched := true } }
    else s)

/-- KNK_WORD_TIMEOUT (R372): the frame is abandoned. -/
def execKnkWordTimeout (s : State) : Host.Outcome State Fault Refusal :=
  .next (if knkState s = 2 ∧ s.knk.matched = false then knkGo 1 s else s)

end Sys2Proof.Machine
end

