-- ==== Sys2Proof/Machine/Fe.lean ====
section
/-!
DEFINITION. Front-end states and transitions (R88–R101), the centre, calibration sets (R132–R137), the tuner's
measurement (R107–R110) and the licence table's burn (R146–R149). Loss of lock and of the reference, which end
frame jobs, stand with the link controller.
-/

namespace Sys2Proof.Machine

open Reg

/-! ### Transitions -/

/-- FE_STAT.LOCK and FE_SYN.LOCK (R119, R121). -/
def feLock (fe : Fe) (on : Bool) (s : State) : State :=
  fset (feB fe) FE_SYN.LOCK (ofBool on) (fset (feB fe) FE_STAT.LOCK (ofBool on) s)

/-- An RX residence ends (R99, R177, R186, R295). -/
def residenceEnd (fe : Fe) (s : State) : State :=
  if (feGet fe s).residence then
    let s1 := blankDrop fe (lanesResidenceEnd fe s)
    chzEnd fe (fePut fe { feGet fe s1 with residence := false } s1)
  else s

/-- A new residence starts at sample index 0, which left the channelizer at air tick `rxt0` (R96, R177, R276, R297). -/
def residenceStart (fe : Fe) (rxt0 : Word64) (s : State) : State :=
  let s1 := wr64 (feB fe + 0x20) rxt0 (wr48 (feB fe + 0x18) 0 (fePut fe { feGet fe s with residence := true } s))
  let s2 := { s1 with survey := tkeep (fun k => k / 1024 != fe.num) s1.survey }
  fdxRetrain fe (chzStart fe s2)

/-- A transition from `src` to `dst` begins (R87, R90, R100, R134). Leaving RX for SYNTH ends the residence; a lock
includes a calibration set while CAL_PEND is 1; SLEEP→STANDBY samples the die temperature. -/
def feBegin (fe : Fe) (src dst : Nat) (temp : BitVec 16) (s : State) : State :=
  let b := feB fe
  let s1 := if src = 3 ∧ dst = 2 then residenceEnd fe s else s
  let s2 := if src = 0 then tempSample fe temp s1 else s1
  let s3 := if dst ≤ 1 ∨ (src = 2 ∧ dst = 2) then feLock fe false s2 else s2
  let cal := dst == 2 && decide (src = 1 ∨ src = 2) && fis b FE_STAT.CAL_PEND s3
  feCtlPins fe dst (fset b FE_STAT.BUSY 1 (fePut fe { feGet fe s3 with trans := some ⟨src, dst, cal⟩ } s3))

/-- The next step of the walk from state `st` towards `target` (R90, R92). -/
def feStep (st target : Nat) : Nat := if st < target then st + 1 else st - 1

/-- A hop leaves RX (R98). -/
def feHop (fe : Fe) (temp : BitVec 16) (s : State) : State :=
  feBegin fe 3 2 temp (fePut fe { feGet fe s with hop := true, needRelock := true } s)

/-- A held target becomes the target (R93). -/
def feTakeHeld (fe : Fe) (s : State) : State :=
  let b := feB fe
  if fis b FE_STAT.PEND s then
    fset b FE_STAT.PEND_TARGET 0 (fset b FE_STAT.PEND 0 (fset b FE_STAT.TARGET (fget b FE_STAT.PEND_TARGET s - 1) s))
  else s

/-- With no transition in progress the front end goes on (R92, R93, R98, R101): a stored centre first, then a lost
lock, then its target or held target; FE_STATE fires when the target of FE_CMD is reached. -/
def feNext (fe : Fe) (temp : BitVec 16) (s : State) : State :=
  let f := feGet fe s
  let st := feState fe s
  if 4 ≤ st then s
  else if f.centrePend ∧ st = 3 then feHop fe temp (fePut fe { f with centrePend := false } s)
  else if (f.centrePend ∨ f.needRelock) ∧ st = 2 then
    feBegin fe 2 2 temp (fePut fe { f with centrePend := false, needRelock := false } s)
  else if f.needRelock ∧ st = 3 then feBegin fe 3 2 temp s
  else
    let s1 := feTakeHeld fe (fePut fe { f with centrePend := false, needRelock := false } s)
    let target := fget (feB fe) FE_STAT.TARGET s1
    if st ≠ target then feBegin fe st (feStep st target) temp s1
    else if (feGet fe s1).announce then
      raiseEvt (feEv fe) (fePut fe { feGet fe s1 with announce := false } s1)
    else s1

/-- A transition ends and its state is reached (R90, R91, R96, R98). -/
def feArrive (fe : Fe) (t : FeTrans) (rxt0 : Word64) (s : State) : State :=
  let b := feB fe
  let s1 := fset b FE_STAT.STATE t.dst (fset b FE_STAT.BUSY 0 (fePut fe { feGet fe s with trans := none } s))
  let s2 := if t.dst = 2 ∧ t.src ≤ 2 then feLock fe true s1 else s1
  if t.dst = 3 ∧ t.src = 2 then
    let s3 := residenceStart fe rxt0 s2
    if (feGet fe s3).hop then raiseEvt (feEv fe + 1) (fePut fe { feGet fe s3 with hop := false } s3) else s3
  else if t.dst = 5 then fdxRampEnd fe s2
  else s2

/-- The end of a transition (R90): one that includes a calibration set waits for the set's end. -/
def feDone (fe : Fe) (temp : BitVec 16) (rxt0 : Word64) (s : State) : State :=
  match (feGet fe s).trans with
  | some t => if t.cal then s else feNext fe temp (feArrive fe t rxt0 s)
  | none => s

/-- The front end goes to SLEEP at once (R102, R104), any transmission muted. -/
def feSleepNow (fe : Fe) (s : State) : State :=
  let b := feB fe
  let s1 := residenceEnd fe s
  let f := feGet fe s1
  let s2 := fePut fe { f with
    trans := none
    announce := false
    hop := false
    centrePend := false
    needRelock := false
    muted := f.muted || f.onAir } s1
  let s3 := fset b FE_STAT.PEND_TARGET 0 (fset b FE_STAT.PEND 0 (fset b FE_STAT.TARGET 0
    (fset b FE_STAT.STATE 0 (fset b FE_STAT.BUSY 0 (feLock fe false s2)))))
  feCtlPins fe 0 s3

/-! ### Commands to a front end (R92–R95, R98) -/

/-- A write refused while the lantern holds the token or a job is armed (R94): OWNER alone when both hold. -/
def feRefused (fe : Fe) (s : State) : Option Fld :=
  if fis (feB fe) FE_STAT.OWNER s then some FE_ERR.OWNER
  else if fis (feB fe) FE_STAT.ARMED s then some FE_ERR.BUSY
  else none

/-- The refusal's flag and FE_CMD_REJECT (R94). -/
def feReject (fe : Fe) (f : Fld) (s : State) : State := raiseEvt (feEv fe + 3) (fset (feB fe) f 1 s)

/-- A target state for the walk, `t` coded as FE_CMD.TARGET (R92, R93). -/
def feTarget (fe : Fe) (t : Nat) (temp : BitVec 16) (s : State) : State :=
  let b := feB fe
  let s1 := fePut fe { feGet fe s with announce := true } s
  if (feGet fe s1).trans.isSome ∨ 4 ≤ feState fe s1 then
    fset b FE_STAT.PEND 1 (fset b FE_STAT.PEND_TARGET t s1)
  else feNext fe temp (fset b FE_STAT.TARGET (t - 1) s1)

/-- A write of FE_CMD (R92–R94, R118). -/
def feCmdWrite (fe : Fe) (data : Word) (temp : BitVec 16) (s : State) : State :=
  match feRefused fe s with
  | some f => feReject fe f s
  | none =>
    let t := bitsOf data 0 3
    if 5 ≤ t then fset (feB fe) FE_ERR.CMD 1 s
    else
      let s1 := if bitOf data 3 then calRequest fe s else s
      if t = 0 then s1 else feTarget fe t temp s1

/-- The states that decide whether a change is allowed (R95): the state in force, or both ends of a transition. -/
def feStates (fe : Fe) (s : State) : List Nat :=
  match (feGet fe s).trans with
  | some t => [t.src, t.dst]
  | none => [feState fe s]

/-- A change of ARR or EXTPA_EN is allowed (R95). -/
def feArrAllowed (fe : Fe) (s : State) : Bool := (feStates fe s).all fun x => decide (x ≤ 1)

/-- AUTO_TUNE turned on starts a search from the setting given (R110). -/
def autoTuneBegin (fe : Fe) (s : State) : State :=
  fePut fe { feGet fe s with search := { best := tuneSetting fe s } } s

/-- A write of FE_CTRL (R94, R95, R117). -/
def feCtrlWrite (fe : Fe) (data : Word) (s : State) : State :=
  let b := feB fe
  let old := rd (b + 4) s
  let pa := bitsOf data 0 2 ≠ bitsOf old 0 2 ∨ bitOf data 4 ≠ bitOf old 4
  let width := bitsOf data 2 2 ≠ bitsOf old 2 2
  match feRefused fe s, decide (pa ∨ width) with
  | some f, true => feReject fe f s
  | _, _ =>
    if 2 ≤ bitsOf data 0 2 ∨ (fe = .b ∧ bitOf data 4 = true) then fset b FE_ERR.RANGE 1 s
    else if (pa ∧ feArrAllowed fe s = false) ∨ (width ∧ (feStates fe s).all (fun x => decide (x ≤ 2)) = false) then
      fset b FE_ERR.BUSY 1 s
    else
      let s1 := wr (b + 4) (data &&& 0xBF#32) s
      if bitOf data 5 = true ∧ bitOf old 5 = false then autoTuneBegin fe s1 else s1

/-- A centre inside the range of R74. -/
def centreOk (fe : Fe) (hz : Nat) : Bool := decide ((feRange fe).1 ≤ hz ∧ hz ≤ (feRange fe).1 + (feRange fe).2)

/-- A write of FE_CENTRE (R94, R98). -/
def feCentreWrite (fe : Fe) (data : Word) (s : State) : State :=
  let b := feB fe
  match feRefused fe s with
  | some f => feReject fe f s
  | none =>
    if (feGet fe s).trans.isNone ∧ 4 ≤ feState fe s then feReject fe FE_ERR.BUSY s
    else if !centreOk fe data.toNat then fset b FE_ERR.RANGE 1 s
    else
      let s1 := wr (b + 0x10) data s
      let s2 := fePut fe { feGet fe s1 with centrePend := true } s1
      if (feGet fe s1).trans.isSome then s2 else feNext fe 0 s2

/-- A write of FE_CTLMAP (R124): the pins follow for the state in force. -/
def feCtlmapWrite (fe : Fe) (data : Word) (s : State) : State :=
  let st := match (feGet fe s).trans with
    | some t => t.dst
    | none => feState fe s
  feCtlPins fe st (wr (feB fe + 0x28) (data &&& 0xFFFFFF#32) s)

/-- A write of FE_TUNE (R106, R110, R127). -/
def feTuneWrite (fe : Fe) (data : Word) (s : State) : State :=
  let s1 := tuneGive fe (bitsOf data 0 17) s
  let s2 := if feState fe s1 ≤ 2 then fdxRetrain fe s1 else s1
  if fis (feB fe) FE_CTRL.AUTO_TUNE s2 then autoTuneBegin fe s2 else s2

/-- A write of FDX_CFG (R304): as a change of FE_CTRL.ARR. -/
def fdxCfgWrite (fe : Fe) (data : Word) (s : State) : State :=
  let b := feB fe
  let new := data &&& 0x1FF#32
  match feRefused fe s, decide (new ≠ rd (b + 0x100) s) with
  | some f, true => feReject fe f s
  | _, _ =>
    if bitsOf data 0 8 < 25 ∨ 80 < bitsOf data 0 8 then fset b FE_ERR.RANGE 1 s
    else if new ≠ rd (b + 0x100) s ∧ feArrAllowed fe s = false then fset b FE_ERR.BUSY 1 s
    else wr (b + 0x100) new s

/-! ### Calibration and mismatch -/

/-- A calibration set ends (R136, R137, R158, R159): its results, CAL_PEND, and FE_CAL_DONE. -/
def calEnd (fe : Fe) (temp : BitVec 16) (fail : BitVec 5) (band : BitVec 6) (irr dc lol bw : Word) (s : State) :
    State :=
  let b := feB fe
  let f := feGet fe s
  match f.trans with
  | some t =>
    if t.cal then
      let s1 := fePut fe { f with trans := some { t with cal := false }, calAgain := false } s
      let s2 := fset b FE_STAT.CAL_PEND (ofBool f.calAgain) s1
      let s3 := fset b CAL_STAT.TEMP_AT_CAL temp.toNat (fset b CAL_STAT.FAIL (fail.toNat / 2 * 2)
        (fset b CAL_STAT.DONE 31 (fset b FE_SYN.VCO_BAND band.toNat s2)))
      let s4 := wr (b + 0x94) (bw &&& 0xFFFF#32) (wr (b + 0x90) (lol &&& 0xFFFFFF#32) (wr (b + 0x8C) dc
        (wr (b + 0x88) (irr &&& 0xFFFFFF#32) s3)))
      raiseEvt (feEv fe + 7) s4
    else s
  | none => s

/-- The alarm of R108 after a valid measurement. -/
def mismatchAlarm (fe : Fe) (mag : Nat) (s : State) : State :=
  let b := feB fe
  let n := fget b FE_TUNE_CFG.ALARM_N s
  let run := if fget b FE_TUNE_CFG.ALARM_TH s < mag then (feGet fe s).alarmRun + 1 else 0
  if n ≠ 0 ∧ n ≤ run then
    raiseEvt (feEv fe + 5) (fset b FE_ERR.TUNE_ALARM 1 (fePut fe { feGet fe s with alarmRun := 0 } s))
  else fePut fe { feGet fe s with alarmRun := run } s

/-- The mismatch window of a frame ends (R107–R110): `strong` tells that the forward level stayed at 0 dBm or more. -/
def mismatch (fe : Fe) (mag phase fwd : Nat) (strong : Bool) (s : State) : State :=
  let b := feB fe
  if fis b FE_CTRL.MEAS_EN s = false ∨ feState fe s < 4 then s
  else
    let s1 := fset b FE_MISMATCH.GAMMA_MAG mag (fset b FE_MISMATCH.GAMMA_PH phase
      (fset b FE_MISMATCH.VALID (ofBool strong) (fset b FE_MISMATCH.FWD_QDBM fwd (fnext b FE_MISMATCH.SEQ s))))
    if !strong then s1
    else
      let s2 := mismatchAlarm fe mag s1
      let s3 := if fget b FE_TUNE_CFG.PROT_TH s2 < mag then fset b FE_ERR.PROT 1 s2 else s2
      if fis b FE_CTRL.AUTO_TUNE s3 then autoTuneStep fe mag s3 else s3

/-! ### The radio token and the licence table -/

/-- The token passes (R111): FE_OWNER and both mirrors of it. -/
def radioOwner (lantern : Bool) (s : State) : State :=
  fset (feB .b) FE_STAT.OWNER (ofBool lantern) (fset (feB .a) FE_STAT.OWNER (ofBool lantern)
    (fset (feB .a) FE_OWNER.OWNER (ofBool lantern) s))

/-- A Steward write of FE_OWNER with RECLAIM = 1 (R113). -/
def radioReclaim (s : State) : State :=
  if fget (feB .a) FE_OWNER.SEQ s = 0 then radioOwner false (fset (feB .a) FE_OWNER.ORIGIN 0 s)
  else fset (feB .a) FE_ERR.RECL_REF 1 s

/-- LIC_STAT's state (R149): 0 BLANK, 1 BURNING, 2 LOCKED, 3 PARTIAL, 4 FAULT. -/
def licState (s : State) : Nat := fget (feB .a) LIC_STAT.STATE s

/-- A word of an octet table at offset `k`. -/
def licWordPut (k : Nat) (data : Word) (t : Tbl Byte) : Tbl Byte :=
  (List.range 4).foldl (fun u j => tset (fun _ => (0 : Byte)) u (k + j) (BitVec.ofNat 8 (bitsOf data (8 * j) 8))) t

/-- A Steward write of LIC_TABLE in BLANK or PARTIAL (R147). -/
def licTableWrite (k : Nat) (data : Word) (s : State) : State :=
  { s with lic := { s.lic with stage := licWordPut k data s.lic.stage } }

/-- A word of LIC_TABLE as it reads (R163). -/
def licTableRead (k : Nat) (s : State) : Word :=
  BitVec.ofNat 32 (licField (if licState s = 0 ∨ licState s = 3 then s.lic.stage else s.lic.otp) k 4)

/-- The staging image has a 1 wherever the programmed memory has (R148). -/
def licCovers (s : State) : Bool :=
  s.lic.otp.all fun e => e.2 &&& tget (fun _ => (0 : Byte)) s.lic.stage e.1 == e.2

/-- Why a burn is refused (R148, R161); 0 when it is carried out. -/
def burnRefused (s : State) : Nat :=
  if fget 0x400B0000 KEY_LIFE.STATE s ≠ 1 then 1
  else if licState s ≠ 0 ∧ licState s ≠ 3 then 2
  else if !licValid s.lic.stage then 3
  else if licState s = 3 ∧ licCovers s = false then 4
  else 0

/-- A write of LIC_CMD (R147, R148, R162): any other than the Steward's is ignored. -/
def licCmd (i : Init) (key : Nat) (check burn : Bool) (s : State) : State :=
  if i ≠ .steward ∨ key ≠ 0x4C43 ∨ (check && burn) = true then s
  else if check then
    if licState s = 0 ∨ licState s = 3 then
      fset (feB .a) LIC_STAT.STAGE_OK (ofBool (licValid s.lic.stage)) s
    else s
  else if burn then
    if burnRefused s = 0 then fset (feB .a) LIC_STAT.STATE 1 s
    else fset (feB .a) LIC_STAT.BURN_ERR (burnRefused s) s
  else s

/-! ### The commands -/

/-- FE_CMD_TARGET (R92). -/
def execFeCmdTarget (i : Init) (fe : Fe) (data : Word) (temp : BitVec 16) (s : State) :
    Host.Outcome State Fault Refusal :=
  .next (doorStore i (feB fe + 8) (feCmdWrite fe data temp) s)

/-- FE_CMD_CAL (R100): a write of CAL = 1 with TARGET 0. -/
def execFeCmdCal (i : Init) (fe : Fe) (s : State) : Host.Outcome State Fault Refusal :=
  .next (doorStore i (feB fe + 8) (feCmdWrite fe 8 0) s)

/-- FE_CTRL_WRITE (R95). -/
def execFeCtrlWrite (i : Init) (fe : Fe) (data : Word) (s : State) : Host.Outcome State Fault Refusal :=
  .next (doorStore i (feB fe + 4) (feCtrlWrite fe data) s)

/-- FE_CENTRE_WRITE (R98). -/
def execFeCentreWrite (i : Init) (fe : Fe) (data : Word) (s : State) : Host.Outcome State Fault Refusal :=
  .next (doorStore i (feB fe + 0x10) (feCentreWrite fe data) s)

/-- FE_TRANSITION_DONE (R90). -/
def execFeTransitionDone (fe : Fe) (temp : BitVec 16) (rxt0 : Word64) (s : State) :
    Host.Outcome State Fault Refusal :=
  .next (feDone fe temp rxt0 s)

/-- CALIBRATION_SET_END (R136). -/
def execCalibrationSetEnd (fe : Fe) (temp : BitVec 16) (fail : BitVec 5) (band : BitVec 6) (irr dc lol bw : Word)
    (s : State) : Host.Outcome State Fault Refusal :=
  .next (calEnd fe temp fail band irr dc lol bw s)

/-- FE_LOCK_FAIL (R101, R137): a lock in progress fails, and the front end goes to STANDBY. -/
def execFeLockFail (fe : Fe) (s : State) : Host.Outcome State Fault Refusal :=
  .next (match (feGet fe s).trans with
    | some t =>
      if t.dst = 2 ∧ (t.src = 1 ∨ t.src = 2) then
        let f := feGet fe s
        let s1 := fePut fe { f with hop := false, needRelock := false, announce := fis (feB fe) FE_STAT.PEND s } s
        let s2 := fset (feB fe) FE_ERR.LOCK_FAIL 1 (fset (feB fe) FE_STAT.TARGET 1 (feLock fe false s1))
        if t.src = 2 then feBegin fe 2 1 0 s2
        else feNext fe 0 (feCtlPins fe 1 (fset (feB fe) FE_STAT.BUSY 0
          (fePut fe { feGet fe s2 with trans := none } s2)))
      else s
    | none => s)

/-- DIE_TEMP_SAMPLE (R134): taken outside SLEEP. -/
def execDieTempSample (fe : Fe) (temp : BitVec 16) (s : State) : Host.Outcome State Fault Refusal :=
  .next (if feState fe s = 0 ∧ (feGet fe s).trans.isNone then s else tempSample fe temp s)

/-- FE_TUNE_WRITE (R106). -/
def execFeTuneWrite (i : Init) (fe : Fe) (data : Word) (s : State) : Host.Outcome State Fault Refusal :=
  .next (doorStore i (feB fe + 0x34) (feTuneWrite fe data) s)

/-- FE_MISMATCH_MEASURE (R107). -/
def execFeMismatchMeasure (fe : Fe) (mag : BitVec 8) (phase : BitVec 6) (fwd : BitVec 8) (strong : Bool)
    (s : State) : Host.Outcome State Fault Refusal :=
  .next (mismatch fe mag.toNat phase.toNat fwd.toNat strong s)

/-- RADIO_RECLAIM (R113). -/
def execRadioReclaim (i : Init) (s : State) : Host.Outcome State Fault Refusal :=
  .next (doorStore i (feB .a + 0x44) radioReclaim s)

/-- LIC_TABLE_WRITE (R147). -/
def execLicTableWrite (i : Init) (offset : BitVec 9) (data : Word) (s : State) : Host.Outcome State Fault Refusal :=
  .next (doorStore i (feB .a + 0x800 + 4 * offset.toNat) (licTableWrite (4 * offset.toNat) data) s)

/-- LIC_CHECK (R147). -/
def execLicCheck (i : Init) (key : BitVec 16) (s : State) : Host.Outcome State Fault Refusal :=
  .next (doorStore i (feB .a + 0xC4) (licCmd i key.toNat true false) s)

/-- LIC_BURN (R148): a write with CHECK as well is ignored. -/
def execLicBurn (i : Init) (key : BitVec 16) (check : Bool) (s : State) : Host.Outcome State Fault Refusal :=
  .next (doorStore i (feB .a + 0xC4) (licCmd i key.toNat check true) s)

end Sys2Proof.Machine
end

