-- ==== Sys2Proof/Machine/Crypto.lean ====
section
/-!
DEFINITION. The standards the cipher engine, the key unit and the image checks name (R479, R511, R519): AES
(FIPS 197), CCM* (IEEE 802.15.4-2020), GCM (SP 800-38D), CTR, CBC-MAC, CMAC (SP 800-38B), SHA-256 (FIPS 180-4),
HMAC (FIPS 198-1), the counter-mode derivation of SP 800-108 and ECDSA over P-256. Octet strings are lists.
-/

namespace Sys2Proof.Machine

/-- Octets padded with zeros, or cut, to `n`. -/
def fit (n : Nat) (l : List Byte) : List Byte := (l ++ List.replicate (n - l.length) 0).take n

/-- Bitwise exclusive or of octet strings; the shorter decides the length. -/
def xorBytes (a b : List Byte) : List Byte := List.zipWith (fun x y => x ^^^ y) a b

/-- `n` pieces of `k` octets. -/
def pieces (k : Nat) : Nat → List Byte → List (List Byte)
  | 0, _ => []
  | n + 1, l => l.take k :: pieces k n (l.drop k)

/-- The 16-octet blocks of a string; the last may be short. -/
def blocks16 (l : List Byte) : List (List Byte) := pieces 16 ((l.length + 15) / 16) l

/-- Zeros up to a whole number of blocks. -/
def pad16 (l : List Byte) : List Byte := l ++ List.replicate ((16 - l.length % 16) % 16) 0

/-- Octets of an ASCII text. -/
def ascii (t : String) : List Byte := t.toList.map fun c => BitVec.ofNat 8 c.toNat

/-! ### AES (FIPS 197) -/

/-- Multiplication by x in GF(2^8). -/
def xtime (a : Nat) : Nat := if a < 128 then 2 * a else (2 * a % 256) ^^^ 0x1B

/-- Multiplication in GF(2^8): `n` bits of `b`. -/
def gfMul : Nat → Nat → Nat → Nat
  | 0, _, _ => 0
  | n + 1, a, b => (if b % 2 = 1 then a else 0) ^^^ gfMul n (xtime a) (b / 2)

/-- The inverse in GF(2^8), as the power 254: `n` squarings. -/
def gfInv : Nat → Nat → Nat
  | 0, _ => 1
  | n + 1, a => gfMul 8 (gfMul 8 a a) (gfInv n (gfMul 8 a a))

/-- A rotation left of an octet. -/
def rot8 (a k : Nat) : Nat := (a * 2 ^ k) % 256 + a / 2 ^ (8 - k)

/-- The S-box of AES. -/
def sbox (a : Nat) : Nat :=
  let b := if a = 0 then 0 else gfInv 7 a
  b ^^^ rot8 b 1 ^^^ rot8 b 2 ^^^ rot8 b 3 ^^^ rot8 b 4 ^^^ 0x63

/-- One word of the key schedule. -/
def aesKeyWord (nk i rcon : Nat) (ws : List (List Nat)) : List Nat :=
  let prev := ws.getD (i - 1) []
  let t :=
    if i % nk = 0 then
      match prev with
      | a :: r => ((r ++ [a]).map sbox).zipIdx.map fun e => if e.2 = 0 then e.1 ^^^ rcon else e.1
      | [] => []
    else if 6 < nk ∧ i % nk = 4 then prev.map sbox else prev
  List.zipWith (fun x y => x ^^^ y) (ws.getD (i - nk) []) t

/-- The key schedule's words: `n` more from word `i`. -/
def aesExpand (nk : Nat) : Nat → Nat → Nat → List (List Nat) → List (List Nat)
  | 0, _, _, ws => ws
  | n + 1, i, rcon, ws =>
    aesExpand nk n (i + 1) (if i % nk = 0 then xtime rcon else rcon) (ws ++ [aesKeyWord nk i rcon ws])

/-- SubBytes and ShiftRows of a state in column order. -/
def aesSubShift (s : List Nat) : List Nat :=
  (List.range 16).map fun k => sbox (s.getD ((k + 4 * (k % 4)) % 16) 0)

/-- MixColumns of one column. -/
def aesMixCol (c : List Nat) : List Nat :=
  (List.range 4).map fun r =>
    gfMul 8 (c.getD r 0) 2 ^^^ gfMul 8 (c.getD ((r + 1) % 4) 0) 3 ^^^ c.getD ((r + 2) % 4) 0 ^^^ c.getD ((r + 3) % 4) 0

/-- MixColumns. -/
def aesMix (s : List Nat) : List Nat :=
  (List.range 4).flatMap fun c => aesMixCol ((s.drop (4 * c)).take 4)

/-- AddRoundKey of round `r`. -/
def aesAdd (ws : List (List Nat)) (r : Nat) (s : List Nat) : List Nat :=
  List.zipWith (fun x y => x ^^^ y) s ((ws.drop (4 * r)).take 4).flatten

/-- The rounds from `r` on; the last of them has no MixColumns. -/
def aesRounds (ws : List (List Nat)) : Nat → Nat → List Nat → List Nat
  | 0, _, s => s
  | 1, r, s => aesAdd ws r (aesSubShift s)
  | n + 2, r, s => aesRounds ws (n + 1) (r + 1) (aesAdd ws r (aesMix (aesSubShift s)))

/-- AES encryption of one block under a key of 16, 24 or 32 octets. -/
def aes (key block : List Byte) : List Byte :=
  let nk := key.length / 4
  let k0 := (List.range nk).map fun i => ((key.drop (4 * i)).take 4).map fun b => b.toNat
  let ws := aesExpand nk (4 * (nk + 7) - nk) nk 1 k0
  (aesRounds ws (nk + 6) 1 (aesAdd ws 0 ((fit 16 block).map fun b => b.toNat))).map fun v => BitVec.ofNat 8 v

/-! ### Modes of operation -/

/-- The key stream of CTR: `n` blocks from counter block `c`, a 128-bit big-endian integer. -/
def ctrStream (key : List Byte) : Nat → Nat → List Byte
  | 0, _ => []
  | n + 1, c => aes key (beBytes 16 c) ++ ctrStream key n ((c + 1) % 2 ^ 128)

/-- CTR over a message. -/
def ctrCrypt (key : List Byte) (c : Nat) (m : List Byte) : List Byte :=
  xorBytes m (ctrStream key ((m.length + 15) / 16) c)

/-- The chaining of CBC-MAC. -/
def cbcMac (key : List Byte) (x : List Byte) (m : List Byte) : List Byte :=
  (blocks16 m).foldl (fun x b => aes key (xorBytes x (fit 16 b))) x

/-- CMAC's doubling. -/
def cmacDbl (v : Nat) : Nat := if v < 2 ^ 127 then 2 * v else (2 * v % 2 ^ 128) ^^^ 0x87

/-- CMAC (SP 800-38B). -/
def cmac (key m : List Byte) : List Byte :=
  let k1 := cmacDbl (ofBeBytes (aes key (List.replicate 16 0)))
  let n := max 1 ((m.length + 15) / 16)
  let head := m.take (16 * (n - 1))
  let last := m.drop (16 * (n - 1))
  let fin := if last.length = 16 then xorBytes last (beBytes 16 k1)
    else xorBytes (fit 16 (last ++ [0x80])) (beBytes 16 (cmacDbl k1))
  cbcMac key (List.replicate 16 0) (head ++ fin)

/-- A CCM* counter block A_i (IEEE 802.15.4-2020, L = 2). -/
def ccmCtr (nonce : List Byte) (i : Nat) : List Byte := [1] ++ fit 13 nonce ++ beBytes 2 i

/-- CCM*'s authentication field before encryption: `a` and the plaintext `m`, a tag of `tlen` octets. -/
def ccmAuth (key nonce a m : List Byte) (tlen : Nat) : List Byte :=
  let flags := 1 + 8 * ((tlen - 2) / 2) + (if a.isEmpty then 0 else 64)
  let b0 := [BitVec.ofNat 8 flags] ++ fit 13 nonce ++ beBytes 2 m.length
  let ab := if a.isEmpty then [] else pad16 (beBytes 2 a.length ++ a)
  (cbcMac key (List.replicate 16 0) (b0 ++ ab ++ pad16 m)).take tlen

/-- CCM*'s encryption of the message: A_1 on. -/
def ccmCrypt (key nonce m : List Byte) : List Byte := ctrCrypt key (ofBeBytes (ccmCtr nonce 1)) m

/-- CCM*'s tag: the authentication field under A_0. -/
def ccmTag (key nonce a m : List Byte) (tlen : Nat) : List Byte :=
  if tlen = 0 then [] else xorBytes (ccmAuth key nonce a m tlen) (aes key (ccmCtr nonce 0))

/-- GHASH's multiplication (SP 800-38D): `n` bits of `x` from the most significant. -/
def ghashMul (x : Nat) : Nat → Nat → Nat → Nat
  | 0, _, z => z
  | n + 1, v, z =>
    ghashMul x n (if v % 2 = 1 then (v / 2) ^^^ (0xE1 * 2 ^ 120) else v / 2) (if x.testBit n then z ^^^ v else z)

/-- GHASH over whole blocks. -/
def ghash (h : Nat) (l : List Byte) : Nat :=
  (blocks16 l).foldl (fun y b => ghashMul (y ^^^ ofBeBytes (fit 16 b)) 128 h 0) 0

/-- GCM's first counter block of a 12-octet IV. -/
def gcmJ0 (iv : List Byte) : Nat := ofBeBytes (fit 12 iv) * 2 ^ 32 + 1

/-- GCM's counter block for octet `pos` of the message: the low 32 bits count. -/
def gcmStream (key iv : List Byte) : Nat → Nat → List Byte
  | 0, _ => []
  | n + 1, k => aes key (beBytes 16 (ofBeBytes (fit 12 iv) * 2 ^ 32 + k % 2 ^ 32)) ++ gcmStream key iv n (k + 1)

/-- GCM's encryption of a chunk that begins `pos` octets into the message. -/
def gcmCrypt (key iv : List Byte) (pos : Nat) (m : List Byte) : List Byte :=
  xorBytes m (gcmStream key iv ((m.length + 15) / 16) (2 + pos / 16))

/-- GCM's tag over the associated data and the ciphertext. -/
def gcmTag (key iv a c : List Byte) : List Byte :=
  let h := ofBeBytes (aes key (List.replicate 16 0))
  let y := ghash h (pad16 a ++ pad16 c ++ beBytes 8 (8 * a.length) ++ beBytes 8 (8 * c.length))
  xorBytes (beBytes 16 y) (aes key (beBytes 16 (gcmJ0 iv)))

/-! ### SHA-256 (FIPS 180-4) and HMAC (FIPS 198-1) -/

/-- The constants of SHA-256, rounds 0–31. -/
def shaKLow : List Nat :=
  [0x428a2f98, 0x71374491, 0xb5c0fbcf, 0xe9b5dba5, 0x3956c25b, 0x59f111f1, 0x923f82a4, 0xab1c5ed5,
   0xd807aa98, 0x12835b01, 0x243185be, 0x550c7dc3, 0x72be5d74, 0x80deb1fe, 0x9bdc06a7, 0xc19bf174,
   0xe49b69c1, 0xefbe4786, 0x0fc19dc6, 0x240ca1cc, 0x2de92c6f, 0x4a7484aa, 0x5cb0a9dc, 0x76f988da,
   0x983e5152, 0xa831c66d, 0xb00327c8, 0xbf597fc7, 0xc6e00bf3, 0xd5a79147, 0x06ca6351, 0x14292967]

/-- The constants of SHA-256, rounds 32–63. -/
def shaKHigh : List Nat :=
  [0x27b70a85, 0x2e1b2138, 0x4d2c6dfc, 0x53380d13, 0x650a7354, 0x766a0abb, 0x81c2c92e, 0x92722c85,
   0xa2bfe8a1, 0xa81a664b, 0xc24b8b70, 0xc76c51a3, 0xd192e819, 0xd6990624, 0xf40e3585, 0x106aa070,
   0x19a4c116, 0x1e376c08, 0x2748774c, 0x34b0bcb5, 0x391c0cb3, 0x4ed8aa4a, 0x5b9cca4f, 0x682e6ff3,
   0x748f82ee, 0x78a5636f, 0x84c87814, 0x8cc70208, 0x90befffa, 0xa4506ceb, 0xbef9a3f7, 0xc67178f2]

/-- The initial hash value of SHA-256. -/
def shaInit : List Nat :=
  [0x6a09e667, 0xbb67ae85, 0x3c6ef372, 0xa54ff53a, 0x510e527f, 0x9b05688c, 0x1f83d9ab, 0x5be0cd19]

/-- A sum in 32 bits. -/
def add32 (a b : Nat) : Nat := (a + b) % 2 ^ 32

/-- A rotation right in 32 bits. -/
def rotr32 (x k : Nat) : Nat := x / 2 ^ k + x * 2 ^ (32 - k) % 2 ^ 32

/-- The message schedule: `n` more words after those given. -/
def shaSchedule : Nat → List Nat → List Nat
  | 0, w => w
  | n + 1, w =>
    let t := w.length
    let a := w.getD (t - 15) 0
    let b := w.getD (t - 2) 0
    let s0 := rotr32 a 7 ^^^ rotr32 a 18 ^^^ (a / 8)
    let s1 := rotr32 b 17 ^^^ rotr32 b 19 ^^^ (b / 1024)
    shaSchedule n (w ++ [add32 (add32 s1 (w.getD (t - 7) 0)) (add32 s0 (w.getD (t - 16) 0))])

/-- One round on the working variables. -/
def shaRound (k w : Nat) (v : List Nat) : List Nat :=
  match v with
  | [a, b, c, d, e, f, g, h] =>
    let s1 := rotr32 e 6 ^^^ rotr32 e 11 ^^^ rotr32 e 25
    let ch := (e &&& f) ^^^ ((2 ^ 32 - 1 - e) &&& g)
    let t1 := add32 (add32 h s1) (add32 ch (add32 k w))
    let s0 := rotr32 a 2 ^^^ rotr32 a 13 ^^^ rotr32 a 22
    let maj := (a &&& b) ^^^ (a &&& c) ^^^ (b &&& c)
    [add32 t1 (add32 s0 maj), a, b, c, add32 d t1, e, f, g]
  | _ => v

/-- One 64-octet block. -/
def shaBlock (h : List Nat) (b : List Byte) : List Nat :=
  let w := shaSchedule 48 ((pieces 4 16 b).map ofBeBytes)
  List.zipWith add32 h (((shaKLow ++ shaKHigh).zip w).foldl (fun v e => shaRound e.1 e.2 v) h)

/-- SHA-256. -/
def sha256 (m : List Byte) : List Byte :=
  let z := (119 - m.length % 64) % 64
  let p := m ++ [0x80] ++ List.replicate z 0 ++ beBytes 8 (8 * m.length)
  ((pieces 64 (p.length / 64) p).foldl shaBlock shaInit).flatMap (beBytes 4)

/-- HMAC-SHA-256 under a key of at most 64 octets. -/
def hmac (key m : List Byte) : List Byte :=
  let k := fit 64 key
  sha256 ((k.map fun b => b ^^^ 0x5C) ++ sha256 ((k.map fun b => b ^^^ 0x36) ++ m))

/-! ### The derivation of R519 -/

/-- R519: `klen` octets under the root, for a room, a selector and its measurement. -/
def deriveKey (root label : List Byte) (room sel : Nat) (meas : List Byte) (gen klen : Nat) : List Byte :=
  let block (i : Nat) : List Byte :=
    hmac root (beBytes 4 i ++ fit 16 label ++ [0] ++ beBytes 1 room ++ beBytes 1 sel ++ fit 32 meas ++
      beBytes 2 gen ++ beBytes 4 (8 * klen))
  (block 1 ++ block 2).take klen

/-! ### P-256 (FIPS 186) -/

/-- The field of P-256. -/
def p256P : Nat := 2 ^ 256 - 2 ^ 224 + 2 ^ 192 + 2 ^ 96 - 1

/-- The order of its base point. -/
def p256N : Nat := 0xffffffff00000000ffffffffffffffffbce6faada7179e84f3b9cac2fc632551

/-- The coefficient b. -/
def p256B : Nat := 0x5ac635d8aa3a93e7b3ebbd55769886bc651d06b0cc53b0f63bce3c3e27d2604b

/-- The base point. -/
def p256G : Nat × Nat :=
  (0x6b17d1f2e12c4247f8bce6e563a440f277037d812deb33a0f4a13945d898c296,
   0x4fe342e2fe1a7f9b8ee7eb4a7c0f9e162bce33576b315ececbb6406837bf51f5)

/-- `b ^ e` modulo `m`, over the `n` low bits of `e`. -/
def powMod (m : Nat) : Nat → Nat → Nat → Nat
  | 0, _, _ => 1
  | n + 1, b, e => (if e % 2 = 1 then b else 1) * powMod m n (b * b % m) (e / 2) % m

/-- The inverse modulo a prime of 256 bits. -/
def invMod (m a : Nat) : Nat := powMod m 256 (a % m) (m - 2)

/-- A valid public key: a point of the curve, not at infinity. -/
def p256Valid (x y : Nat) : Bool :=
  decide (x < p256P) && decide (y < p256P) &&
    y * y % p256P == (x * x % p256P * x + (p256P - 3) * x + p256B) % p256P

/-- The sum of two points; none is the point at infinity. -/
def p256Add : Option (Nat × Nat) → Option (Nat × Nat) → Option (Nat × Nat)
  | none, q => q
  | p, none => p
  | some (x1, y1), some (x2, y2) =>
    let p := p256P
    if x1 = x2 ∧ (y1 + y2) % p = 0 then none
    else
      let l := if x1 = x2 then (3 * x1 * x1 + (p - 3)) % p * invMod p (2 * y1) % p
        else (y2 + p - y1) % p * invMod p (x2 + p - x1) % p
      let x3 := (l * l + 2 * p - x1 - x2) % p
      some (x3, (l * (x1 + p - x3) + p - y1) % p)

/-- A multiple of a point, over the `n` low bits of the factor. -/
def p256Mul : Nat → Nat → Option (Nat × Nat) → Option (Nat × Nat)
  | 0, _, _ => none
  | n + 1, k, q => p256Add (if k % 2 = 1 then q else none) (p256Mul n (k / 2) (p256Add q q))

/-- ECDSA verification of a digest: 0 valid, 1 invalid, 2 invalid point (R526). -/
def ecdsaVerify (x y e r s : Nat) : Nat :=
  if p256Valid x y = false then 2
  else if r = 0 ∨ p256N ≤ r ∨ s = 0 ∨ p256N ≤ s then 1
  else
    let w := invMod p256N s
    match p256Add (p256Mul 256 (e * w % p256N) (some p256G)) (p256Mul 256 (r * w % p256N) (some (x, y))) with
    | some (v, _) => if v % p256N = r then 0 else 1
    | none => 1

end Sys2Proof.Machine
end

