-- ==== Sys2Proof/Machine/KeyBase.lean ====
section
/-!
DEFINITION. The key unit's shared operations (spec/17_keys_tamper.md): measurements, the shelf and its log, live
slots and their counters, the entropy source's consumers and the root.
-/

namespace Sys2Proof.Machine

open Reg

/-- The KEY block. -/
def keyB : Nat := 0x400B0000
/-- The RNG block. -/
def rngB : Nat := 0x400C0000
/-- The tamper block. -/
def tampB : Nat := 0x70020000
/-- The key port of a room (R534). -/
def kpPage (r : Nat) : Nat := 0x400B8000 + 0x100 * r
/-- A cipher page, or with 64 the common context (R476, R502). -/
def cipPage (n : Nat) : Nat := 0x60000000 + 0x1000 * n

/-- A bit of KEY_ERR, raising event 1022 (R533). -/
def keyErr (f : Fld) (s : State) : State := note keyB f 1022 s

/-- A bit of a page's CIP_NOTE, raising event 640 + n (R507). -/
def pageNote (r : Nat) (f : Fld) (s : State) : State := note (cipPage r) f (640 + r) s

/-- ROOT_V (R534). -/
def rootValid (s : State) : Bool := fis keyB KEY_LIFE.ROOT_V s

/-- The root, as the HMAC engine reads it (R518). -/
def rootKey (s : State) : List Byte := s.keys.root.getD []

/-- ROOT_GEN (R517). -/
def rootGen (s : State) : Nat := fget keyB KEY_LIFE.ROOT_GEN s

/-- The 16 octets of the unit ID (R534). -/
def unitId (s : State) : List Byte := rdBytes (keyB + 0x10) 4 s

/-! ### Measurements (R520) -/

/-- The measurement a selector names: 1 IMAGE, 2 SIGNER. -/
def measGet (r sel : Nat) (s : State) : List Byte := rdBytes (kpPage r + (if sel = 2 then 0x80 else 0x60)) 8 s

/-- A room's measurements are recorded. -/
def measSet (r : Nat) (image signer : List Byte) (s : State) : State :=
  wrList (kpPage r + 0x80) (wordsOfBytes signer) (wrList (kpPage r + 0x60) (wordsOfBytes image) s)

/-- A room's measurements become 0. -/
def measClear (r : Nat) (s : State) : State := measSet r (List.replicate 32 0) (List.replicate 32 0) s

/-- A room whose IMAGE measurement is 0 (R520). -/
def unmeasured (r : Nat) (s : State) : Bool := (measGet r 1 s).all fun b => b == 0

/-! ### The shelf (R522, R525, R531) -/

/-- A shelf entry. -/
def shelfGet (e : Nat) (s : State) : Option ShelfEntry := tget (fun _ => none) s.keys.shelf e

/-- Set a shelf entry. -/
def shelfPut (e : Nat) (v : Option ShelfEntry) (s : State) : State :=
  { s with keys := { s.keys with shelf := tset (fun _ => none) s.keys.shelf e v } }

/-- The lines of a record (R525). -/
def ShelfRec.lines : ShelfRec → Nat
  | .entry _ => 4
  | .mark _ => 1
  | .deletion _ => 1

/-- The lines of a block's records. -/
def recLines (l : List ShelfRec) : Nat := l.foldl (fun n r => n + r.lines) 0

/-- The next erased shelf block. -/
def shelfErased (log : List (Nat × List ShelfRec)) : Option Nat :=
  (List.range 16).find? fun b => !(log.any fun e => e.1 == b)

/-- A record is appended to the log: to the newest block, else to an erased one. -/
def logAppend (r : ShelfRec) (log : List (Nat × List ShelfRec)) : List (Nat × List ShelfRec) :=
  match log.getLast? with
  | some (b, l) =>
    if recLines l + r.lines ≤ 2048 then log.dropLast ++ [(b, l ++ [r])]
    else match shelfErased log with
      | some c => log ++ [(c, [r])]
      | none => log
  | none => [(0, [r])]

/-- A record is programmed. -/
def shelfLog (r : ShelfRec) (s : State) : State := { s with keys := { s.keys with log := logAppend r s.keys.log } }

/-- An entry that UNWRAP and FIND may name: one of the present ROOT_GEN (R531). -/
def shelfFind (e : Nat) (s : State) : Option ShelfEntry :=
  match shelfGet e s with
  | some v => if v.gen = rootGen s then some v else none
  | none => none

/-- The entries, with their numbers. -/
def shelfEntries (s : State) : List (Nat × ShelfEntry) :=
  s.keys.shelf.filterMap fun p => p.2.map fun v => (p.1, v)

/-- The entry of the present ROOT_GEN with an identifier. -/
def shelfByIdent (ident : Nat) (s : State) : Option (Nat × ShelfEntry) :=
  (shelfEntries s).find? fun p => p.2.ident == ident && p.2.gen == rootGen s

/-- The identifier of a key (R522): the first 8 octets, octet 0 in the low bits (R534). -/
def keyIdent (room cls : Nat) (key : List Byte) (s : State) : Nat :=
  let k := deriveKey (rootKey s) (ascii "QKEYID") 0 1 [] (rootGen s) 32
  ofLeBytes ((hmac k (beBytes 1 room ++ beBytes 1 cls ++ key)).take 8)

/-! ### Live slots (R521, R524) -/

/-- The block that holds KEY_SLOT[k]. -/
def slotB (k : Nat) : Nat := keyB + 4 * k

/-- A slot is live. -/
def slotLive (k : Nat) (s : State) : Bool := fis (slotB k) KEY_SLOT.V s

/-- A slot's counters. -/
def slotGet (k : Nat) (s : State) : KeySlot := tget (fun _ => ({} : KeySlot)) s.keys.slots k

/-- Set a slot's counters. -/
def slotPut (k : Nat) (v : KeySlot) (s : State) : State :=
  { s with keys := { s.keys with slots := tset (fun _ => ({} : KeySlot)) s.keys.slots k v } }

/-- The entry that backs a slot. -/
def slotEntryNo (k : Nat) (s : State) : Nat := fget (slotB k) KEY_SLOT.ENTRY s

/-- The key of a live slot. -/
def slotKey (k : Nat) (s : State) : Option (List Byte) :=
  if slotLive k s then (shelfGet (slotEntryNo k s) s).map fun e => e.key else none

/-- Class NET (R521). -/
def slotNet (k : Nat) (s : State) : Bool := fis (slotB k) KEY_SLOT.CLASS s
/-- The owner room (R521). -/
def slotOwner (k : Nat) (s : State) : Nat := fget (slotB k) KEY_SLOT.OWNER s
/-- SPENT (R495). -/
def slotSpent (k : Nat) (s : State) : Bool := fis (slotB k) KEY_SLOT.SPENT s

/-- The slot an entry is live in. -/
def entrySlot (e : Nat) (s : State) : Option Nat :=
  (List.range 128).find? fun k => slotLive k s && slotEntryNo k s == e

/-- The largest values the counters stand at (R495, R496). -/
def fcTop : Nat := 2 ^ 32 - 1
/-- As `fcTop`, of the GCM counter. -/
def gcTop : Nat := 2 ^ 64 - 1

/-- A slot becomes SPENT (R495, R524): recorded in its entry, and its owner's page is told. -/
def spend (k : Nat) (s : State) : State :=
  if slotSpent k s then s
  else
    let s1 := fset (slotB k) KEY_SLOT.SPENT 1 s
    let s2 := match shelfGet (slotEntryNo k s) s1 with
      | some e => shelfLog (.mark e.serial) (shelfPut (slotEntryNo k s) (some { e with spent := true }) s1)
      | none => s1
    pageNote (slotOwner k s) CIP_NOTE.KEY_SPENT s2

/-- The slot's counters have run out (R495). -/
def spendIfOut (k : Nat) (s : State) : State :=
  if fcTop ≤ (slotGet k s).fc ∨ gcTop ≤ (slotGet k s).gc then spend k s else s

/-- An issued counter nears its mark: marks 4,096 higher are programmed (R524). -/
def markNear (k v : Nat) (gcm : Bool) (s : State) : State :=
  match shelfGet (slotEntryNo k s) s, (slotGet k s).marking with
  | some e, none =>
    let near := if gcm then decide (e.gcMark - v ≤ 2048) && decide (e.gcMark < gcTop)
      else decide (e.fcMark - v ≤ 2048) && decide (e.fcMark < fcTop)
    if near then
      slotPut k { slotGet k s with
        marking := some (if gcm then (e.fcMark, min gcTop (e.gcMark + 4096))
          else (min fcTop (e.fcMark + 4096), e.gcMark)) } s
    else s
  | _, _ => s

/-- A send's frame counter can be drawn at once: it does not pass a mark not yet programmed (R524). -/
def fcReady (k : Nat) (s : State) : Bool :=
  match shelfGet (slotEntryNo k s) s with
  | some e => decide ((slotGet k s).fc < e.fcMark)
  | none => false

/-- As `fcReady`, of the GCM counter. -/
def gcReady (k : Nat) (s : State) : Bool :=
  match shelfGet (slotEntryNo k s) s with
  | some e => decide ((slotGet k s).gc < e.gcMark)
  | none => false

/-- The slot issues its next frame counter value (R494, R495, R497). -/
def fcDraw (k : Nat) (s : State) : Nat × State :=
  let v := (slotGet k s).fc
  (v, spendIfOut k (markNear k v false (slotPut k { slotGet k s with fc := v + 1 } s)))

/-- The slot issues its next GCM counter value (R496, R497). -/
def gcDraw (k : Nat) (s : State) : Nat × State :=
  let v := (slotGet k s).gc
  (v, spendIfOut k (markNear k v true (slotPut k { slotGet k s with gc := v + 1 } s)))

/-- A page may use the slot (R477, R521). -/
def slotForPage (r k : Nat) (s : State) : Bool := slotLive k s && !slotNet k s && slotOwner k s == r

/-- The common context may use the slot (R477, R521). -/
def slotForCommon (k : Nat) (s : State) : Bool := slotLive k s && slotNet k s

/-- A frame job of a room may use the slot (R316 check 3, R521). -/
def slotForJob (r k : Nat) (s : State) : Bool :=
  slotLive k s && (if slotNet k s then r == 0 || granted 25 r s else slotOwner k s == r)

/-- An entry's key is loaded into slot `k` (R523, R524): the counters resume at the marks, and new marks 4,096
higher are programmed. -/
def slotLoad (k e : Nat) (v : ShelfEntry) (s : State) : State :=
  let w : Nat := 2 ^ 31 + ofBool v.spent * 2 ^ 30 + (v.key.length / 8 - 2) % 4 * 2 ^ 28 + v.cls % 2 * 2 ^ 24 +
    v.owner % 64 * 2 ^ 16 + e % 512
  let s1 := slotPut k { fc := v.fcMark, gc := v.gcMark } (wr (slotB k + 0x400) (BitVec.ofNat 32 w) s)
  spendIfOut k (shelfLog (.mark v.serial) (shelfPut e
    (some { v with fcMark := min fcTop (v.fcMark + 4096), gcMark := min gcTop (v.gcMark + 4096) }) s1))

/-- A slot is freed with nothing written back. -/
def slotFree (k : Nat) (s : State) : State := slotPut k {} (wr (slotB k + 0x400) 0 s)

/-- UNLOAD (R523, R524): the exact counters become the marks. -/
def slotUnload (k : Nat) (s : State) : State :=
  let e := slotEntryNo k s
  let s1 := match shelfGet e s with
    | some v => shelfLog (.mark v.serial)
        (shelfPut e (some { v with fcMark := (slotGet k s).fc, gcMark := (slotGet k s).gc }) s)
    | none => s
  slotFree k s1

/-- Every live slot of a room is unloaded (R567). -/
def roomUnload (r : Nat) (s : State) : State :=
  (List.range 128).foldl (fun t k => if slotLive k t && slotOwner k t == r then slotUnload k t else t) s

/-! ### The root (R510, R517, R531) -/

/-- The root is computed from 16 blocks and programmed; entries of an earlier root are cleared in the background. -/
def rootMade (bits : List Byte) (s : State) : State :=
  let s1 := { s with keys := { s.keys with root := some (sha256 bits), rooting := none } }
  let s2 := fset keyB KEY_LIFE.ROOT_V 1 (fcount keyB KEY_LIFE.ROOT_GEN s1)
  let s3 := if fget keyB KEY_LIFE.STATE s2 = 0 then fset keyB KEY_LIFE.STATE 1 s2 else s2
  if (shelfEntries s3).any fun p => p.2.gen != rootGen s3 then fset keyB KEY_STAT.CLEARING 1 s3 else s3

/-! ### Entropy (R512–R516) -/

/-- The cipher engine waits for a seed (R493). -/
def seedWanted (s : State) : Bool := !s.cip.seeded || decide (2 ^ 20 ≤ s.cip.services)

/-- An output block goes to the waiting consumer of highest priority (R515); none when none waits. -/
def rngGive (b : List Byte) (s : State) : Option State :=
  match s.keys.rooting with
  | some acc =>
    if 512 ≤ (acc ++ b).length then some (rootMade (acc ++ b) s)
    else some { s with keys := { s.keys with rooting := some (acc ++ b) } }
  | none =>
    if seedWanted s && pdOn 29 s then some { s with cip := { s.cip with seeded := true, services := 0 } }
    else if s.keys.wantBackoff then some { s with keys := { s.keys with wantBackoff := false, backoff := b } }
    else match s.keys.pk with
      | .ecdh c none => some { s with keys := { s.keys with pk := .ecdh c (some b) } }
      | _ =>
        if s.dbg.wants then some { s with dbg := { s.dbg with wants := false, nonce := some b } } else none

/-- Buffered blocks go to waiting consumers: at most `n`. -/
def rngServe : Nat → State → State
  | 0, s => s
  | n + 1, s =>
    match s.keys.blocks with
    | b :: r =>
      (match rngGive b { s with keys := { s.keys with blocks := r } } with
       | some t => rngServe n t
       | none => s)
    | [] => s

/-- RNG_STAT.BLOCKS follows the buffer. -/
def rngShow (s : State) : State :=
  fset rngB RNG_STAT.BLOCKS (s.keys.blocks.length + ofBool (!s.keys.part.isEmpty)) s

/-- A consumer begins to wait, or blocks have arrived. -/
def rngRun (s : State) : State := rngShow (rngServe 32 s)

/-- The source starts its start-up tests (R513). -/
def rngStart (s : State) : State := fset rngB RNG_STAT.STATE 1 s

/-- PD30 powers up, or the hall starts (R513): nothing released before is kept. -/
def rngPowerUp (s : State) : State :=
  rngShow (rngStart { s with keys := { s.keys with blocks := [], part := [], fails := [] } })

/-- A health test fails (R514) at raw bit `at_`: the buffer empties and the source restarts, or enters ERROR. -/
def rngFail (rct : Bool) (at_ : Nat) (s : State) : State :=
  if fget rngB RNG_STAT.STATE s ≠ 1 ∧ fget rngB RNG_STAT.STATE s ≠ 2 then s
  else
    let recent := at_ :: s.keys.fails.filter fun f => decide (at_ < f + 65536)
    let err := decide (3 ≤ recent.length)
    let s1 := { s with keys := { s.keys with blocks := [], part := [], fails := if err then [] else recent } }
    let s2 := fcount rngB (if rct then RNG_CNT.RCT_FAIL else RNG_CNT.APT_FAIL) (rngShow s1)
    if err then raiseEvt 1021 (fset rngB RNG_STAT.STATE 3 s2) else rngStart s2

/-- 512 tested raw bits become a block (R513, R515): given to a waiting consumer, else buffered while there is
room. -/
def rngRelease (raw : List Byte) (s : State) : State :=
  if fget rngB RNG_STAT.STATE s ≠ 2 then s
  else
    let b := sha256 raw
    match rngGive b s with
    | some t => rngShow t
    | none =>
      if 8 ≤ s.keys.blocks.length + ofBool (!s.keys.part.isEmpty) then s
      else rngShow { s with keys := { s.keys with blocks := s.keys.blocks ++ [b] } }

/-- 16 output bits for RNG_DATA (R516); none when the buffer is empty. -/
def rngTake (s : State) : Option (Nat × State) :=
  match s.keys.part, s.keys.blocks with
  | a :: b :: r, _ => some (a.toNat + 256 * b.toNat, rngShow { s with keys := { s.keys with part := r } })
  | _, c :: r =>
    match c with
    | a :: b :: q => some (a.toNat + 256 * b.toNat, rngShow { s with keys := { s.keys with part := q, blocks := r } })
    | _ => none
  | _, [] => none

/-- A read of RNG_DATA (R516). -/
def rngDataRead (s : State) : Word × State :=
  match rngTake s with
  | some (v, t) => (BitVec.ofNat 32 (2 ^ 31 + v), t)
  | none => (0, s)

end Sys2Proof.Machine
end

