-- ==== Sys2Proof/Machine/Queues.lean ====
section
/-!
DEFINITION. Frame queues (spec/10_queues.md): rings and credit, the queue word, receive commits and pops, transmit
pushes, claims and releases, flushes and notices.
-/

namespace Sys2Proof.Machine

open Reg

/-- The window of queue `q` (R350). -/
def quePage (q : Nat) : Nat := 0x30000000 + 0x1000 * q

/-- What a queue holds. -/
def queGet (q : Nat) (s : State) : QueueState := tget (fun _ => ({} : QueueState)) s.queues q

/-- Set what a queue holds. -/
def quePut (q : Nat) (v : QueueState) (s : State) : State :=
  { s with queues := tset (fun _ => ({} : QueueState)) s.queues q v }

/-- LOG2 of a queue's ring (R345). -/
def queLog2 (q : Nat) (s : State) : Nat := fget (0x40040000 + 4 * q) QC_RING.LOG2 s

/-- The words of a ring. -/
def queSize (q : Nat) (s : State) : Nat := 2 ^ queLog2 q s

/-- WPTR and RPTR (R346). -/
def queW (q : Nat) (s : State) : Nat := fget (quePage q) QUE_WPTR.PTR s
/-- RPTR (R346). -/
def queR (q : Nat) (s : State) : Nat := fget (quePage q) QUE_RPTR.PTR s

/-- A pointer moved on, in LOG2 + 1 bits (R346). -/
def queMod (q p : Nat) (s : State) : Nat := p % (2 * queSize q s)

/-- Fill (R346). -/
def queFill (q : Nat) (s : State) : Nat := (queW q s + 2 * queSize q s - queR q s) % (2 * queSize q s)

/-- Words reserved by the packet being pushed (R346). -/
def queReserved (q : Nat) (s : State) : Nat :=
  match (queGet q s).opened with
  | some o => o.words
  | none => 0

/-- Free (R346). -/
def queFree (q : Nat) (s : State) : Nat := queSize q s - queFill q s - queReserved q s

/-- The address of the ring word a pointer names (R346, R362). -/
def queAddr (q p : Nat) (s : State) : Nat :=
  0x38000000 + 8 * (fget (0x40040000 + 4 * q) QC_RING.BASE s + p % queSize q s)

/-- A stored queue word. -/
def queWord (q p : Nat) (s : State) : Word64 := BitVec.ofNat 64 (memNat (queAddr q p s) 8 s)

/-- Words stored from pointer `p` on. -/
def queStore (q p : Nat) : List Word64 → State → State
  | [], s => s
  | w :: r, s => queStore q (p + 1) r (memWrite (queAddr q p s) (leBytes 8 w.toNat) s)

/-! ### The queue word (R347) -/

/-- A data word of a packet: `n` octets (1–4) in `data`. -/
def qword (data n : Nat) (sop eop : Bool) (epoch crcH : Nat) : Word64 :=
  BitVec.ofNat 64 (2 ^ 63 + ofBool sop * 2 ^ 62 + ofBool eop * 2 ^ 61 + n % 4 * 2 ^ 59 + epoch % 64 * 2 ^ 50 +
    crcH % 65536 * 2 ^ 32 + data % 2 ^ 32)

/-- The trailer word (R347, R348). -/
def qtrailer (crcH : Nat) : Word64 := BitVec.ofNat 64 (2 ^ 63 + 2 ^ 58 + crcH % 65536 * 2 ^ 32)

/-- The valid octets of a word (R347). -/
def qwordBc (w : Word64) : Nat := if w.toNat / 2 ^ 59 % 4 = 0 then 4 else w.toNat / 2 ^ 59 % 4

/-- CRC_H of a word. -/
def qwordCrc (w : Word64) : Nat := w.toNat / 2 ^ 32 % 65536

/-- The octets of a data word, as the queue keeps them: invalid octets read 0. -/
def qwordData (w : Word64) : Nat := w.toNat % 2 ^ (8 * qwordBc w)

/-- Octets cut into pieces of four. -/
def chunk4 : List Byte → List (List Byte)
  | a :: b :: c :: d :: r => [a, b, c, d] :: chunk4 r
  | [] => []
  | l => [l]

/-- The words of a receive packet (R352): PSDU, record words, trailer. -/
def rxWords (psdu : List Byte) (record : List Word) (epoch : Nat) : List Word64 :=
  let crc := crc32c (psdu ++ record.flatMap fun w => leBytes 4 w.toNat)
  let body := ((chunk4 psdu).map fun o => (ofLeBytes o, o.length)) ++ record.map fun w => (w.toNat, 4)
  let n := body.length
  (body.zipIdx.map fun e =>
    qword e.1.1 e.1.2 (e.2 == 0) (e.2 + 1 == n) (if e.2 = 0 then epoch else 0) (if e.2 + 1 = n then crc else 0)) ++
    [qtrailer (crc / 65536)]

/-! ### Notices and receive commits -/

/-- A queue's notice (R360). -/
def queNotice (q : Nat) (s : State) : State :=
  if fis (quePage q) QUE_CFG.NOTE_EN s then raiseEvt (256 + q) s else s

/-- A receive packet is written and committed, or dropped for lack of credit (R352, R353). -/
def queCommitRx (q : Nat) (psdu : List Byte) (record : List Word) (epoch : Nat) (s : State) : State :=
  if !queueCarved q s then s
  else
    let ws := rxWords psdu record epoch
    let b := quePage q
    if queFree q s < ws.length then
      quePut q { queGet q s with dropped := true } (fset b QUE_ERR.NOCREDIT 1 (fcount b QUE_DROPS.NOCREDIT s))
    else
      let w := queW q s
      let s1 := queStore q w ws s
      let s2 := quePut q { queGet q s1 with
        packets := (queGet q s1).packets ++ [⟨w, ws.length, psdu.length, 0, false, false⟩] } s1
      let s3 := fset b QUE_WPTR.PTR (queMod q (w + ws.length) s2) s2
      queNotice q (fset b QUE_STAT.PKTS (fget b QUE_STAT.PKTS s3 + 1) s3)

/-! ### Receive queues -/

/-- An empty read (R354): the word and the state after. -/
def queEmptyRead (q : Nat) (s : State) : Word64 × State :=
  let v := queGet q s
  if v.flushed then (BitVec.ofNat 64 (2 * 2 ^ 48), quePut q { v with flushed := false, dropped := false } s)
  else if v.dropped then (BitVec.ofNat 64 (2 ^ 48), quePut q { v with dropped := false } s)
  else (0, s)

/-- QC_ECC counts what a read of word `w` of queue memory found (R362). -/
def queEcc (w : Nat) (ecc : EccSeen) (s : State) : State :=
  match ecc with
  | .clean => s
  | .corrected => fcount 0x40040000 QC_ECC.CORR s
  | .uncorrectable _ => fset 0x40040000 QC_ECC_ADDR.WORD w (fcount 0x40040000 QC_ECC.UNCORR s)

/-- The word as a reader gets it (R362). -/
def eccWord (w : Word64) (ecc : EccSeen) : Word64 :=
  match ecc with
  | .uncorrectable wrong => w ^^^ wrong
  | _ => w

/-- After a pop the first packet may be done with: its trailer was the word popped (R354). -/
def quePopped (q : Nat) (s : State) : State :=
  match (queGet q s).packets with
  | p :: r =>
    if queR q s = queMod q (p.start + p.words) s then
      fset (quePage q) QUE_STAT.PKTS (fget (quePage q) QUE_STAT.PKTS s - 1)
        (quePut q { queGet q s with packets := r } s)
    else s
  | [] => s

/-- A 64-bit load from QUE_DATA (R354, R361). -/
def quePop (q : Nat) (ecc : EccSeen) (s : State) : Word64 × State :=
  if 256 ≤ q then (0, fset (quePage q) QUE_ERR.DIR 1 s)
  else if queW q s = queR q s then queEmptyRead q s
  else
    let p := queR q s
    let s1 := queEcc ((queAddr q p s - 0x38000000) / 8) ecc s
    (eccWord (queWord q p s) ecc, quePopped q (fset (quePage q) QUE_RPTR.PTR (queMod q (p + 1) s1) s1))

/-- DROP on a receive queue (R356): the packet at or under RPTR. -/
def queDropRx (q : Nat) (s : State) : State :=
  match (queGet q s).packets with
  | p :: r =>
    let b := quePage q
    let s1 := fset b QUE_RPTR.PTR (queMod q (p.start + p.words) s) (quePut q { queGet q s with packets := r } s)
    fcount b QUE_DROPS.DISCARD (fset b QUE_STAT.PKTS (fget b QUE_STAT.PKTS s1 - 1) s1)
  | [] => s

/-- A flush (R356, R359). A receive queue is emptied; of a transmit queue the unclaimed packets and the open packet
go. -/
def queFlush (q : Nat) (s : State) : State :=
  let b := quePage q
  let v := queGet q s
  if q < 256 then
    fset b QUE_STAT.PKTS 0 (fset b QUE_RPTR.PTR (queW q s) (quePut q { v with packets := [], flushed := true } s))
  else
    let keep := v.packets.filter fun p => p.claimed
    let end_ := match keep.getLast? with
      | some p => queMod q (p.start + p.words) s
      | none => queR q s
    fset b QUE_STAT.OPEN 0 (fset b QUE_STAT.PKTS ((keep.filter fun p => !p.released).length)
      (fset b QUE_WPTR.PTR end_ (quePut q { v with packets := keep, opened := none } s)))

/-! ### Transmit queues -/

/-- The open packet is withdrawn (R357): its words go at once and it is counted. -/
def queWithdraw (q : Nat) (flag cnt : Fld) (s : State) : State :=
  let b := quePage q
  fset b QUE_STAT.OPEN 0 (fcount b cnt (fset b flag 1 (quePut q { queGet q s with opened := none } s)))

/-- The open packet is committed (R357, R359). -/
def queCommitTx (q : Nat) (o : QOpen) (s : State) : State :=
  let b := quePage q
  let v := queGet q s
  let w := queW q s
  let ps := v.packets ++ [⟨w, o.words, o.octets, v.nextId, false, false⟩]
  let s1 := quePut q { v with opened := none, nextId := v.nextId + 1, packets := ps } s
  fset b QUE_STAT.OPEN 0 (fset b QUE_STAT.PKTS (fget b QUE_STAT.PKTS s1 + 1)
    (fset b QUE_WPTR.PTR (queMod q (w + o.words) s1) s1))

/-- A word of the open packet `o` is judged and kept (R357). -/
def quePushInto (q : Nat) (w : Word64) (o : QOpen) (s : State) : State :=
  let trl := w.getLsbD 58
  let octets := if trl then o.octets else o.octets + qwordBc w
  if trl ≠ o.eop ∨ 2047 < octets then queWithdraw q QUE_ERR.FORMAT QUE_DROPS.DISCARD s
  else if queFree q s = 0 then queWithdraw q QUE_ERR.NOCREDIT QUE_DROPS.NOCREDIT s
  else
    let kept := if trl then qtrailer (qwordCrc w)
      else qword (qwordData w) (qwordBc w) (w.getLsbD 62) (w.getLsbD 61) 0
        (if w.getLsbD 61 then qwordCrc w else 0)
    let s1 := queStore q (queW q s + o.words) [kept] s
    let o1 : QOpen := ⟨o.words + 1, octets, w.getLsbD 61 && !trl⟩
    if trl then queCommitTx q o1 s1
    else fset (quePage q) QUE_STAT.OPEN 1 (quePut q { queGet q s1 with opened := some o1 } s1)

/-- A 64-bit store to QUE_DATA (R357, R361). -/
def quePush (q : Nat) (w : Word64) (s : State) : State :=
  if q < 256 then fset (quePage q) QUE_ERR.DIR 1 s
  else
    match w.getLsbD 62, (queGet q s).opened with
    | true, none => quePushInto q w ⟨0, 0, false⟩ s
    | true, some _ => quePushInto q w ⟨0, 0, false⟩ (queWithdraw q QUE_ERR.ABANDON QUE_DROPS.DISCARD s)
    | false, none => fset (quePage q) QUE_ERR.ORPHAN 1 s
    | false, some o => quePushInto q w o s

/-- The first committed packet that no job has claimed (R315). -/
def queUnclaimed (q : Nat) (s : State) : Option QPacket := (queGet q s).packets.find? fun p => !p.claimed

/-- A job claims packet `id` (R315). -/
def queClaim (q id : Nat) (s : State) : State :=
  quePut q { queGet q s with
    packets := (queGet q s).packets.map fun p => if p.id = id then { p with claimed := true } else p } s

/-- RPTR passes the released packets that are contiguous from it (R359). -/
def queAdvance (q : Nat) : List QPacket → State → State
  | p :: r, s =>
    if p.released then queAdvance q r (fset (quePage q) QUE_RPTR.PTR (queMod q (p.start + p.words) s) s)
    else quePut q { queGet q s with packets := p :: r } s
  | [], s => quePut q { queGet q s with packets := [] } s

/-- A claimed packet is released (R359). -/
def queRelease (q id : Nat) (s : State) : State :=
  let v := queGet q s
  if v.packets.any fun p => p.id == id && !p.released then
    let b := quePage q
    let s1 := fset b QUE_STAT.PKTS (fget b QUE_STAT.PKTS s - 1) s
    queAdvance q (v.packets.map fun p => if p.id = id then { p with released := true } else p) s1
  else s

/-- The words of a committed packet. -/
def quePacketWords (q : Nat) (p : QPacket) (s : State) : List Word64 :=
  (List.range p.words).map fun k => queWord q (p.start + k) s

/-- The octets a packet's words carry (R348). -/
def packetOctets (l : List Word64) : List Byte :=
  (l.filter fun w => !w.getLsbD 58).flatMap fun w => leBytes (qwordBc w) (w.toNat % 2 ^ 32)

/-- The CRC-32C a packet's EOP and trailer words carry (R349). -/
def packetCrc (l : List Word64) : Nat :=
  l.foldl (fun c w => if w.getLsbD 58 then c % 65536 + qwordCrc w * 65536
    else if w.getLsbD 61 then c / 65536 * 65536 + qwordCrc w else c) 0

/-- QUE_CMD (R356, R359, R363). -/
def queCmd (q key : Nat) (flush drop : Bool) (s : State) : State :=
  if key ≠ 0x5143 ∨ (flush = true ∧ drop = true) ∨ (drop = true ∧ 256 ≤ q) then fset (quePage q) QUE_ERR.CMD 1 s
  else if flush then queFlush q s
  else if drop then queDropRx q s
  else s

/-- QC_FLUSH (R364). -/
def qcFlush (key q : Nat) (s : State) : State :=
  if key = 0x5146 ∧ q < 320 ∧ queueCarved q s = true then queFlush q s else s

/-- A queue is carved anew at a plan switch (R223, R356, R359): flushed, with both pointers 0. -/
def queCarve (q : Nat) (ring : Word) (s : State) : State :=
  let b := quePage q
  let old := queueCarved q s
  let s1 := quePut q { flushed := old && decide (q < 256) } (wr (0x40040400 + 4 * q) ring s)
  wr (b + 0x10) (BitVec.ofNat 32 (if bitOf ring 31 then ofBool (decide (256 ≤ q)) * 2 ^ 31 + bitsOf ring 24 5 * 2 ^ 24
    else 0)) (fset b QUE_WPTR.PTR 0 (fset b QUE_RPTR.PTR 0 s1))

/-- QUE_CREDIT as it reads (R346, R363). -/
def queCreditView (q : Nat) (s : State) : Word := BitVec.ofNat 32 (queFree q s)

/-! ### The commands -/

/-- QUEUE_POP (R354). -/
def execQueuePop (i : Init) (queue : Fin 320) (ecc : EccSeen) (s : State) : Host.Outcome State Fault Refusal :=
  .next (doorAccess i (quePage queue.val) 8 .load (fun t => let r := quePop queue.val ecc t; respond r.1 r.2) s)

/-- QUEUE_PUSH (R357). -/
def execQueuePush (i : Init) (queue : Fin 320) (data : Word64) (s : State) : Host.Outcome State Fault Refusal :=
  .next (doorAccess i (quePage queue.val) 8 .store (fun t => acknowledge (quePush queue.val data t)) s)

/-- QUEUE_DROP (R356). -/
def execQueueDrop (i : Init) (queue : Fin 320) (key : BitVec 16) (s : State) : Host.Outcome State Fault Refusal :=
  .next (doorStore i (quePage queue.val + 0x20) (queCmd queue.val key.toNat false true) s)

/-- QUEUE_FLUSH (R356, R359). -/
def execQueueFlush (i : Init) (queue : Fin 320) (key : BitVec 16) (s : State) : Host.Outcome State Fault Refusal :=
  .next (doorStore i (quePage queue.val + 0x20) (queCmd queue.val key.toNat true false) s)

/-- QC_FLUSH (R364). -/
def execQcFlush (i : Init) (key : BitVec 16) (queue : BitVec 9) (s : State) : Host.Outcome State Fault Refusal :=
  .next (doorStore i 0x40040008 (qcFlush key.toNat queue.toNat) s)

end Sys2Proof.Machine
end

