-- ==== Sys2Proof/Machine/Time.lean ====
section
/-!
DEFINITION. Network time, its sources and quality, the reference estimate and the interval meter
(spec/12_time.md). A whole second, which the supply watch shares, stands with the supply watch.
-/

namespace Sys2Proof.Machine

open Reg

/-- The TIME block (R404). -/
def timeB : Nat := 0x40050000

/-- A TIME_NOTE bit is set, raising event 888 + its number (R403). -/
def timeNote (k : Nat) (s : State) : State := note timeB ⟨0x64, k, 1⟩ (888 + k) s

/-- A TIME_ERRF bit is set, raising event 896 (R403). -/
def timeErrf (f : Fld) (s : State) : State := note timeB f 896 s

/-- TIME_QUAL.STATE: 0 FREE, 1 HOLDOVER, 2 LOCKED. -/
def timeState (s : State) : Nat := fget timeB TIME_QUAL.STATE s

/-- Set what the time unit holds. -/
def timePut (v : TimeState) (s : State) : State := { s with time := v }

/-- STATE moves (R391): TIME_QUAL_CHG fires at each change. -/
def timeQual (st : Nat) (s : State) : State :=
  if timeState s = st then s
  else timeNote 0 (fset timeB TIME_QUAL.STATE st
    (if st = 2 then s else timePut { s.time with lockedAll := false } s))

/-- TIME_ERR is set, and with it ERR0 (R391, R392); none is unknown. -/
def timeErr (v : Option Nat) (s : State) : State :=
  wr (timeB + 0x2C) (match v with
    | some n => BitVec.ofNat 32 (min n 0xFFFFFFFE)
    | none => 0xFFFFFFFF) (timePut { s.time with err0 := v, errSecs := 0 } s)

/-- The error TIME_ERR shows; none is unknown. -/
def timeErrNow (s : State) : Option Nat :=
  let v := (rd (timeB + 0x2C) s).toNat
  if v = 0xFFFFFFFF then none else some v

/-- The source in use (R384): 0 none, 1 PPS, 2 MESH. -/
def timeSource (s : State) : Nat :=
  let pps := if s.time.ppsValid then 1 else 0
  let mesh := if s.time.meshValid then 2 else 0
  match fget timeB TIME_CFG.SRC s with
  | 1 => pps
  | 2 => mesh
  | 3 => if s.time.ppsValid then 1 else mesh
  | _ => 0

/-- A source's accuracy in ns (R391). -/
def timeAccuracy (src : Nat) (s : State) : Nat :=
  if src = 1 then 10 * fget timeB TIME_SRCCFG.PPS_ACC s else 1000 * fget timeB TIME_SRCCFG.MESH_ACC s

/-- A source became valid or was lost, or SRC was written (R384, R386, R391). -/
def timeSources (s : State) : State :=
  let src := timeSource s
  let s1 := if src = 2 then s else timePut { s.time with lastMesh := none } s
  let s2 := fset timeB TIME_QUAL.SRC_V src s1
  if src = 0 ∧ timeState s2 = 2 then timeQual 1 (timeErr (timeErrNow s2) s2) else s2

/-- A rational clamped to ± `b`. -/
def ratClamp (b x : Rat) : Rat := if x < -b then -b else if b < x then b else x

/-- A rational rounded to the nearest integer, halves away from zero (R404). -/
def ratRound (x : Rat) : Int := if x < 0 then -((-x + 1 / 2).floor) else (x + 1 / 2).floor

/-- FREQ takes a value (R388); TIME_FREQ shows it rounded. -/
def timeFreq (f : Rat) (s : State) : State :=
  fsetS timeB TIME_FREQ.FREQ (ratRound (ratClamp 200000 f)) (timePut { s.time with freq := ratClamp 200000 f } s)

/-- The slew remainder takes a value (R387). -/
def timeRem (r : Rat) (s : State) : State :=
  fset timeB TIME_QUAL.SLEWING (ofBool (decide (r ≠ 0))) (timePut { s.time with rem := r } s)

/-- A pending step is set or cancelled (R387). -/
def timeStep (d : Option Int) (s : State) : State :=
  fset timeB TIME_QUAL.STEP_PEND (ofBool d.isSome) (timePut { s.time with step := d } s)

/-- The share of an offset that FREQ takes: OFS / (τ × 2^LOOP_K) ppb, τ in seconds, at most 64 (R388). -/
def freqShare (ofs : Int) (last : Option Nat) (tick : Nat) (s : State) : Rat :=
  match last with
  | none => 0
  | some p =>
    let tau : Rat := min 64 (((tick - p : Nat) : Rat) / 76800000)
    if tau = 0 then 0 else (ofs : Rat) / (tau * (2 ^ fget timeB TIME_CFG.LOOP_K s : Nat))

/-- A measurement from the source in use (R387, R388, R391). -/
def timeMeasure (src : Nat) (ofs : Int) (tick : Nat) (s : State) : State :=
  let last := if src = 1 then s.time.lastPps else s.time.lastMesh
  let acc := ofs.natAbs + timeAccuracy src s
  let s1 := fsetS timeB TIME_OFS.OFS (clampInt (-2147483648) 2147483647 ofs)
    (timePut (if src = 1 then { s.time with lastPps := some tick, absOfs := ofs.natAbs }
      else { s.time with lastMesh := some tick, absOfs := ofs.natAbs }) s)
  let th := 1000 * fget timeB TIME_LIMITS.LOCK_TH s1
  let s2 := if ofs.natAbs ≤ 250000 then
      timeFreq (s1.time.freq + freqShare ofs last tick s1) (timeRem ofs (timeStep none s1))
    else timeStep (some ofs) s1
  if ofs.natAbs ≤ 250000 ∧ ofs.natAbs ≤ th then timeQual 2 (timeErr (some acc) s2)
  else if timeState s2 = 2 ∧ th < ofs.natAbs then timeQual 1 (timeErr (some acc) s2)
  else s2

/-- The whole second nearest to a network time, in ns. -/
def nearestSecond (t : Int) : Int := (t + 500000000) / 1000000000 * 1000000000

/-- A PPS_IN edge at `edge` (1/20 air ticks), where network time uncorrected reads `nt` (R385). -/
def ppsEdge (edge nt : Nat) (s : State) : State :=
  if !fis timeB TIME_PPS.IN_EN s then s
  else
    match s.time.lastEdge with
    | none => timePut { s.time with lastEdge := some edge } s
    | some p =>
      let s1 := timePut { s.time with lastEdge := some edge } s
      if (((edge - p : Nat) : Int) - 1536000000).natAbs ≤ 153600 then
        let goods := s1.time.goods + 1
        let was := s1.time.ppsValid
        let s2 := timePut { s1.time with
          goods := goods
          ppsValid := was || decide (2 ≤ goods)
          lastPps := if was then s1.time.lastPps else none } s1
        let s3 := timeSources s2
        if s3.time.ppsValid = true ∧ timeSource s3 = 1 then
          let t : Int := (nt : Int) - fgetS timeB TIME_PPS_DLY.DLY s3
          timeMeasure 1 (nearestSecond t - t) (edge / 20) s3
        else s3
      else
        timeErrf TIME_ERRF.PPS_BAD (fcount timeB TIME_CNT.PPS_BAD (timePut { s1.time with goods := 0 } s1))

/-- PPS_IN is lost (R385). -/
def ppsLost (s : State) : State :=
  if s.time.ppsValid then
    timeSources (timeNote 5 (timePut { s.time with ppsValid := false, goods := 0 } s))
  else s

/-- TIME_CMD MEAS (R386). -/
def timeMeas (now : Nat) (s : State) : State :=
  let at_ := (rd64 (timeB + 0x3C) s).toNat
  if now < at_ ∨ at_ + 153600000 < now then timeErrf TIME_ERRF.MEAS_LATE s
  else
    let s1 := timeSources (timePut { s.time with meshValid := true } s)
    if timeSource s1 = 2 then timeMeasure 2 (fgetS timeB TIME_MEAS_OFS.OFS s1) at_ s1 else s1

/-- TIME_CMD SET (R390). -/
def timeSet (s : State) : State :=
  let s1 := timePut { s.time with nt := (rd64 (timeB + 0x44) s).toNat } s
  let s2 := timeErr none (timeQual 0 (timeRem 0 (timeStep none s1)))
  timeNote 1 (fcount timeB TIME_CNT.STEPS (wr64 (timeB + 0x10) (BitVec.ofNat 64 s2.time.nt) s2))

/-- A write of TIME_CMD at air tick `now` (R386, R390). -/
def timeCmd (data : Word) (now : Nat) (s : State) : State :=
  if bitsOf data 16 16 ≠ 0x544D ∨ (bitOf data 0 && bitOf data 1) = true then timeErrf TIME_ERRF.CMD s
  else if bitOf data 1 then timeSet s
  else if bitOf data 0 then timeMeas now s
  else s

/-- MESH is lost (R386). -/
def meshLost (s : State) : State := timeSources (timePut { s.time with meshValid := false } s)

/-! ### Hand-off to the lantern (R383) -/

/-- PD31 hands network time and the air timer over. -/
def timeHandOff (nt air : Nat) (s : State) : State :=
  timePut { s.time with nt := nt, air := air, counts := false, away := true } s

/-- PD31 takes both back after `g` whole CK_LF cycles (R383, R391). -/
def timeResume (g : Nat) (s : State) : State :=
  let ofs : Rat := if fis timeB TIME_QUAL.LF_CAL s then s.time.lfOfs else 0
  let span : Rat := (g : Rat) * 30517578125 / 1000000 * (1 + ofs / 1000000)
  let v := { s.time with
    nt := s.time.nt + span.floor.toNat
    air := s.time.air + g * 234375 / 100
    counts := true
    away := false
    lockedAll := false }
  let s1 := wr64 (timeB + 0x20) (BitVec.ofNat 64 v.air) (wr64 (timeB + 0x10) (BitVec.ofNat 64 v.nt) (timePut v s))
  let grow := (fget timeB TIME_SRCCFG.LF_STAB s1 * g * 30517578125 + (10 ^ 13 - 1)) / 10 ^ 13
  let s2 := if timeState s1 = 0 then s1
    else timeQual 1 (timeErr ((timeErrNow s1).map fun e => e + grow) s1)
  timeNote 6 (fset timeB TIME_QUAL.RESUMED 1 s2)

/-! ### The reference estimate (R395–R397) -/

/-- |E| exceeds `ppm`, E unrounded. -/
def refBeyond (ppm : Nat) (s : State) : Bool := decide ((ppm : Rat) < s.time.e ∨ s.time.e < -(ppm : Rat))

/-- A value in 0.01 ppm, rounded and saturated (REF_STAT.EST). -/
def refRounded (x : Rat) : Int := clampInt (-32768) 32767 (ratRound (100 * x))

/-- REF_STAT.STATE after an update, from the state before (R397). -/
def refState (was : Nat) (s : State) : Nat :=
  if refBeyond 25 s ∨ (was = 2 ∧ refBeyond 24 s = true) then 2
  else if refBeyond 10 s ∨ (was ≠ 0 ∧ refBeyond 9 s = true) then 1
  else 0

/-- The thresholds of R397 after an update. -/
def refThresholds (s : State) : State :=
  let was := fget timeB REF_STAT.STATE s
  let st := refState was s
  let tol := if fget 0x40000000 LIC_STAT.STATE s = 2 then licByte s.lic.otp 0xC else 40
  let block := refBeyond tol s
  let s1 := fset 0x40030000 LINK_GUARD.WIDENING (ofBool (st == 2)) (fset timeB REF_STAT.STATE st s)
  let s2 := if was = 0 ∧ 1 ≤ st then timeNote 2 s1 else s1
  let s3 := if was ≠ 2 ∧ st = 2 then timeNote 3 s2 else s2
  let s4 := if block ∧ fis timeB REF_STAT.BLOCK s3 = false then timeNote 4 s3 else s3
  fset timeB REF_STAT.BLOCK (ofBool block) s4

/-- What a SOURCE update teaches (R396). -/
def refLearn (elf e : Rat) (s : State) : State :=
  let t := s.time
  let ofs := if t.updates = 0 then elf - e else t.lfOfs + (elf - e - t.lfOfs) / 16
  let moves := match t.lastE with
    | some p => ((ratRound (1000 * (e - p))).natAbs :: t.moves).take 64
    | none => t.moves
  let s1 := timePut { t with lfOfs := ofs, lastE := some e, moves := moves, updates := t.updates + 1 } s
  let stab := min 65535 (max 10 (moves.foldl max 0))
  fset timeB TIME_QUAL.LF_CAL (ofBool (decide (4 ≤ s1.time.updates)))
    (fset timeB REF_STAB.STAB stab (fsetS timeB REF_STAB.LF_OFS (refRounded ofs) s1))

/-- An interval of 16 s ends with `n` CK_REF cycles; `mean` is the mean of FREQ over it in 0.001 ppb
(R395); the lantern copies the estimate into LG_E (R617). -/
def refUpdate (n : Nat) (mean : Int) (s : State) : State :=
  if s.time.counts = false then s
  else
    let elf : Rat := ((n : Rat) / 614400000 - 1) * 1000000
    let src := s.time.lockedAll && timeState s == 2
    let basis := if src then 3 else if fis timeB TIME_QUAL.LF_CAL s then 2 else 1
    let e : Rat := if src then -(mean : Rat) / 1000000
      else if basis = 2 then elf - s.time.lfOfs else elf
    let s1 := timePut { s.time with e := e, lockedAll := timeState s == 2 } s
    let s2 := if src then refLearn elf e s1 else s1
    let s3 := fnext timeB REF_STAT.UPD (fset timeB REF_STAT.BASIS basis
      (fsetS timeB REF_STAT.EST (refRounded e) s2))
    refThresholds (fset 0x70030000 LG_E.BASIS basis (fsetS 0x70030000 LG_E.EST (refRounded e) s3))

/-- CK_REF stops: the interval makes no update (R395). -/
def refStop (s : State) : State := timePut { s.time with counts := false } s

/-- A new series of intervals begins (R395). -/
def refStart (s : State) : State := timePut { s.time with counts := true, lockedAll := timeState s == 2 } s

/-! ### The interval meter (R400–R402) -/

/-- The window closes with its result (R402). -/
def imClose (w : ImWindow) (s : State) : State :=
  let d : Int := match w.start, w.stop with
    | some a, some b => (b : Int) - (a : Int)
    | _, _ => 0
  let near := w.start.isSome && w.stop.isSome && decide (d.natAbs ≤ 1)
  let res : Int := if near then 0 else d
  let t0 := (match w.start with
    | some a => a
    | none => w.stop.getD 0) / 20
  let v := fieldOfInt 64 res
  let s1 := wr64 (timeB + 0x94) (BitVec.ofNat 64 t0)
    (wr64 (timeB + 0x8C) (BitVec.ofNat 64 v) (timePut { s.time with im := none } s))
  let s2 := fset timeB IM_STAT.NO_STOP (ofBool w.stop.isNone) (fset timeB IM_STAT.NO_START (ofBool w.start.isNone)
    (fset timeB IM_STAT.ORDER (ofBool (decide (res < 0))) (fset timeB IM_STAT.NEAR (ofBool near) s1)))
  raiseEvt 727 (fset timeB IM_STAT.DONE 1 (fset timeB IM_STAT.ARMED 0 s2))

/-- A write of IM_CMD at air tick `now` (R401). -/
def imCmd (data : Word) (now : Nat) (s : State) : State :=
  if bitsOf data 16 16 ≠ 0x494D ∨ (bitOf data 0 && bitOf data 1) = true then timeErrf TIME_ERRF.CMD s
  else if bitOf data 0 then
    let w : ImWindow := { last := (now + fget timeB IM_CFG.WINDOW s * 76800) * 20 + 19 }
    fset timeB IM_STAT.DONE 0 (fset timeB IM_STAT.ARMED 1 (timePut { s.time with im := some w } s))
  else if bitOf data 1 then
    fset timeB IM_STAT.ARMED 0 (timePut { s.time with im := none } s)
  else s

/-- An edge of a source at `at_` (1/20 air ticks) in an open window (R401). -/
def imEdge (src : Nat) (falling : Bool) (at_ : Nat) (s : State) : State :=
  match s.time.im with
  | none => s
  | some w =>
    let c := rd (timeB + 0x80) s
    let isStart := src == bitsOf c 0 7 && falling == bitOf c 7
    let isStop := src == bitsOf c 8 7 && falling == bitOf c 15
    if w.last < at_ then s
    else
      let w1 : ImWindow :=
        if isStart && isStop then
          if w.start.isNone then { w with start := some at_ } else { w with stop := some at_ }
        else if isStart && w.start.isNone then { w with start := some at_ }
        else if isStop && w.stop.isNone then { w with stop := some at_ }
        else w
      if w1.start.isSome && w1.stop.isSome then imClose w1 s else timePut { s.time with im := some w1 } s

/-! ### The commands -/

/-- PPS_IN_EDGE (R385). -/
def execPpsInEdge (edge nt : Word64) (s : State) : Host.Outcome State Fault Refusal :=
  .next (ppsEdge edge.toNat nt.toNat s)

/-- PPS_LOST (R385). -/
def execPpsLost (s : State) : Host.Outcome State Fault Refusal := .next (ppsLost s)

/-- TIME_MEAS (R386). -/
def execTimeMeas (i : Init) (data : Word) (now : Word64) (s : State) : Host.Outcome State Fault Refusal :=
  .next (doorStore i (timeB + 0x4C) (timeCmd (data ||| 1#32) now.toNat) s)

/-- TIME_SET (R390). -/
def execTimeSet (i : Init) (data : Word) (now : Word64) (s : State) : Host.Outcome State Fault Refusal :=
  .next (doorStore i (timeB + 0x4C) (timeCmd (data ||| 2#32) now.toNat) s)

/-- MESH_LOST (R386). -/
def execMeshLost (s : State) : Host.Outcome State Fault Refusal :=
  .next (if s.time.meshValid then meshLost s else s)

/-- PPS_PULSE_END (R393). -/
def execPpsPulseEnd (s : State) : Host.Outcome State Fault Refusal :=
  .next (timePut { s.time with ppsOut := false } s)

/-- REF_ESTIMATE_UPDATE (R395): an interval with PD31 on and CK_REF running throughout. -/
def execRefEstimateUpdate (n : BitVec 32) (mean : Int) (s : State) : Host.Outcome State Fault Refusal :=
  .next (refUpdate n.toNat mean s)

/-- IM_ARM (R401). -/
def execImArm (i : Init) (data : Word) (now : Word64) (s : State) : Host.Outcome State Fault Refusal :=
  .next (doorStore i (timeB + 0x84) (imCmd (data ||| 1#32) now.toNat) s)

/-- IM_CANCEL (R401). -/
def execImCancel (i : Init) (data : Word) (now : Word64) (s : State) : Host.Outcome State Fault Refusal :=
  .next (doorStore i (timeB + 0x84) (imCmd (data ||| 2#32) now.toNat) s)

/-- IM_EDGE (R401). -/
def execImEdge (src : BitVec 7) (falling : Bool) (at_ : Word64) (s : State) : Host.Outcome State Fault Refusal :=
  .next (imEdge src.toNat falling at_.toNat s)

/-- IM_WINDOW_EXPIRE (R402). -/
def execImWindowExpire (s : State) : Host.Outcome State Fault Refusal :=
  .next (match s.time.im with
    | some w => imClose w s
    | none => s)

end Sys2Proof.Machine
end

