-- ==== Sys2Proof/Machine/LinkBase.lean ====
section
/-!
DEFINITION. The link controller's shared operations (spec/09_link_controller.md): jobs and their words, the duty
accounts (R335–R337), the licence checks of a frame (R150–R154), spans (R318) and the end of a job (R317).
-/

namespace Sys2Proof.Machine

open Reg

/-- The LINK block (R341). -/
def linkB : Nat := 0x40030000

/-- The job port of a room (R311). -/
def jobB (r : Nat) : Nat := 0x40038000 + 0x100 * r

/-- The block that holds JOB_RESk to JOB_INFOk of a slot (R341). -/
def slotRegs (r k : Nat) : Nat := jobB r + 0x10 * k

/-- A bit of LINK_NOTE, raising its event (R340). -/
def linkNote (f : Fld) (s : State) : State := note linkB f (728 + f.lo) s

/-- A bit of LINK_ERR, raising event 736 (R340). -/
def linkErr (f : Fld) (s : State) : State := note linkB f 736 s

/-- Set what the link controller holds. -/
def linkPut (v : LinkState) (s : State) : State := { s with link := v }

/-! ### Jobs -/

/-- A job in a slot. -/
def jobGet (r k : Nat) (s : State) : Option Job := tget (fun _ => none) s.link.jobs (4 * r + k)

/-- Set the job of a slot. -/
def jobPut (r k : Nat) (j : Option Job) (s : State) : State :=
  linkPut { s.link with jobs := tset (fun _ => none) s.link.jobs (4 * r + k) j } s

/-- JOB_RES.STATE of a slot: 0 FREE, 1 ARMED, 2 AIR, 3 DONE (R344). -/
def jobState (r k : Nat) (s : State) : Nat := fget (slotRegs r k) JOB_RES.STATE s

/-- The jobs in slots, with room and slot. -/
def jobList (s : State) : List (Nat × Nat × Job) :=
  s.link.jobs.filterMap fun p => p.2.map fun j => (p.1 / 4, p.1 % 4, j)

/-- Bits of word `k` of a job (R312). -/
def Job.bits (j : Job) (k lo w : Nat) : Nat := bitsOf (j.w.getD k 0) lo w

/-- PHY. -/
def Job.phy (j : Job) : Nat := j.bits 3 16 8
/-- MCS. -/
def Job.mcs (j : Job) : Nat := j.bits 3 13 3
/-- FE. -/
def Job.fe (j : Job) : Fe := if j.bits 3 12 1 = 0 then .a else .b
/-- KIND: 0 TX, 1 RX_WIN, 2 LAST_GASP. -/
def Job.kind (j : Job) : Nat := j.bits 3 10 2
/-- TIMING: 0 EXACT, 1 NOT_BEFORE, 2 ASAP. -/
def Job.timing (j : Job) : Nat := j.bits 3 8 2
/-- RETRIES. -/
def Job.retriesAsked (j : Job) : Nat := j.bits 3 5 3
/-- ACK_REQ. -/
def Job.ackReq (j : Job) : Bool := j.bits 3 4 1 == 1
/-- FCS octets. -/
def Job.fcs (j : Job) : Nat := if j.bits 3 3 1 = 1 then 2 else 4
/-- CODED, which SUN FSK alone heeds. -/
def Job.coded (j : Job) : Bool := j.bits 3 2 1 == 1 && phyFsk j.phy
/-- SEC. -/
def Job.sec (j : Job) : Bool := j.bits 3 1 1 == 1
/-- P_req in 0.25 dBm. -/
def Job.power (j : Job) : Int := signedOf 8 (j.bits 3 24 8)
/-- The channel centre in Hz. -/
def Job.centre (j : Job) (s : State) : Int := (rd (feB j.fe + 0x10) s).toNat + signedOf 32 (j.bits 2 0 32)
/-- LANE. -/
def Job.lane (j : Job) : Nat := j.bits 4 16 8
/-- CCA_MODE as posted. -/
def Job.ccaAsked (j : Job) : Nat := j.bits 4 0 2
/-- ACK_LANE. -/
def Job.ackLane (j : Job) : Nat := j.bits 5 24 8
/-- PRE_LEN. -/
def Job.pre (j : Job) : Nat := j.bits 5 16 8
/-- QLEN. -/
def Job.qlen (j : Job) : Nat := j.bits 5 0 11
/-- FC_OFS. -/
def Job.fcOfs (j : Job) : Nat := j.bits 6 24 8
/-- HDR_LEN. -/
def Job.hdrLen (j : Job) : Nat := j.bits 6 16 8
/-- KEY_SLOT. -/
def Job.keySlot (j : Job) : Nat := j.bits 6 0 7
/-- REF of an RX_WIN job. -/
def Job.ref (j : Job) : Nat := j.bits 5 0 32 + 2 ^ 32 * j.bits 6 0 32
/-- WIN_US. -/
def Job.winUs (j : Job) : Nat := j.bits 7 16 16
/-- TAG. -/
def Job.tag (j : Job) : Nat := j.bits 7 0 16

/-- The octets of a MIC by security level (IEEE 802.15.4-2020). -/
def micLen (level : Nat) : Nat := [0, 4, 8, 16].getD (level % 4) 0

/-- FE_STAT.ARMED: a frame job is armed or executing on the front end (R119). -/
def armedShow (fe : Fe) (s : State) : State :=
  fset (feB fe) FE_STAT.ARMED (ofBool ((jobList s).any fun e =>
    e.2.2.fe == fe && (jobState e.1 e.2.1 s == 1 || jobState e.1 e.2.1 s == 2))) s

/-! ### Duty accounts (R335–R337) -/

/-- DUTY and DUTY_WIN of a group in force; none for a group without a limit. -/
def dutyLimit (g : Nat) (s : State) : Option (Nat × Nat) :=
  if fget (feB .a) LIC_STAT.STATE s ≠ 2 then none
  else
    match (List.range (licByte s.lic.otp 5)).find? fun e => licGet e 0x10 1 s == g with
    | some e => if licGet e 0xC 2 s = 0 then none else some (licGet e 0xA 2 s, licGet e 0xC 2 s)
    | none => none

/-- The charges of a group's buckets, the current one first. -/
def dutyGet (g : Nat) (s : State) : List Nat := tget (fun _ => []) s.link.duty g

/-- Set a group's buckets. -/
def dutyPut (g : Nat) (l : List Nat) (s : State) : State :=
  linkPut { s.link with duty := tset (fun _ => []) s.link.duty g l } s

/-- U of R335 in µs: the current bucket and the 64 before it. -/
def dutyUsed (g : Nat) (s : State) : Nat := ((dutyGet g s).take 65).foldl (· + ·) 0

/-- R of R336 in µs, the job of slot `but` left out. -/
def dutyHeld (g : Nat) (but : Option Nat) (s : State) : Nat :=
  (jobList s).foldl (fun n e =>
    if e.2.2.hold ≠ 0 ∧ licGet e.2.2.entry 0x10 1 s = g ∧ but ≠ some (4 * e.1 + e.2.1) then n + e.2.2.hold else n) 0

/-- The duty check of R336 for `a` µs more. -/
def dutyOk (g a : Nat) (but : Option Nat) (s : State) : Bool :=
  match dutyLimit g s with
  | some (d, w) => decide (dutyUsed g s + dutyHeld g but s + a ≤ d * w * 100)
  | none => true

/-- The unreserved allowance has fallen below 10 % (R337). -/
def dutyIsLow (g : Nat) (s : State) : Bool :=
  match dutyLimit g s with
  | some (d, w) => decide (9 * (d * w * 100) < 10 * (dutyUsed g s + dutyHeld g none s))
  | none => false

/-- A change of a group's account: DUTY_LOW fires when it falls below 10 % (R337). -/
def dutyChange (g : Nat) (f : State → State) (s : State) : State :=
  let t := f s
  if dutyIsLow g t && !dutyIsLow g s then linkNote LINK_NOTE.DUTY_LOW t else t

/-- `us` µs more in the current bucket. -/
def dutyAdd (g us : Nat) (s : State) : State :=
  match dutyGet g s with
  | b :: r => dutyPut g ((b + us) :: r) s
  | [] => dutyPut g [us] s

/-- `us` µs are charged to the current bucket (R335). -/
def dutyCharge (g us : Nat) (s : State) : State := dutyChange g (dutyAdd g us) s

/-- DUTY_Gg as it reads (R341). -/
def dutyView (g : Nat) (s : State) : Word :=
  match dutyLimit g s with
  | some (_, w) =>
    let unit := w * 100
    BitVec.ofNat 32 (min 65535 ((dutyHeld g none s + unit - 1) / unit) * 65536 +
      min 65535 ((dutyUsed g s + unit - 1) / unit))
  | none => 0

/-! ### The licence checks of a frame (R151) -/

/-- The lower and upper edge of an occupied band in whole Hz, rounded outward. -/
def bandEdges (centre : Int) (phy hq : Nat) : Nat × Nat :=
  let b : Int := occupied phy hq
  (((2 * centre - b) / 2).toNat, ((2 * centre + b + 1) / 2).toNat)

/-- The checks of R151 in their order, for a frame of `frame` fifths of a tick: its code, or the governing entry. -/
def licCheck (centre : Int) (phy hq frame : Nat) (but : Option Nat) (s : State) : Except Nat Nat :=
  if fget (feB .a) LIC_STAT.STATE s ≠ 2 then .error 16
  else
    let e := bandEdges centre phy hq
    match licGovern e.1 e.2 s with
    | none => .error 17
    | some n =>
      let dwell := licGet n 0xE 2 s
      if dwell ≠ 0 ∧ dwell * 384000 < frame + 2 * rampTicks * 5 then .error 18
      else if refBeyond (licTol n s) s then .error 19
      else if dutyOk (licGet n 0x10 1 s) (airUs frame) but s then .ok n
      else .error 20

/-- The least listening rule in force: mode, threshold in dBm and listening time in µs, the stricter of the job's
and the entry's (R154, R322). -/
def lbtFloor (mode : Nat) (th : Int) (us entry : Nat) (s : State) : Nat × Int × Nat :=
  if licGet entry 0x11 1 s = 1 then
    let lth := signedOf 8 (licGet entry 0x12 1 s)
    let lus := licGet entry 0x14 2 s
    if mode = 0 then (1, lth, lus) else (mode, min th lth, max us lus)
  else (mode, th, us)

/-- The listening rule of a job. -/
def Job.cca (j : Job) (s : State) : Nat × Int × Nat :=
  lbtFloor j.ccaAsked (signedOf 8 (j.bits 4 24 8)) (j.bits 4 2 14) j.entry s

/-- L of R322: bin samples of a listening time in µs. -/
def listenLen (us : Nat) : Nat := max 8 ((us * 3 + 15) / 16)

/-- Ticks rounded up from fifths (R309). -/
def ticksUp (fifths : Nat) : Nat := (fifths + 4) / 5

/-- The decision tick of a window that starts at tick `b` and lasts `l` bin samples (R322). -/
def decisionTick (b l : Nat) : Nat := ticksUp (5 * b + 2048 * l) + 12288

/-- The assessment finds the channel clear (R322, R63). -/
def channelClear (th : Int) (readings : List EdReading) (late : Bool) : Bool :=
  !late && readings.all fun r => !r.blanked && decide (r.edQ.toInt ≤ 4 * th)

/-! ### Spans (R318) -/

/-- T_tr of R321 from the state and arrangement in force. -/
def feLead (fe : Fe) (s : State) : Nat :=
  if feState fe s = 3 ∧ fget (feB fe) FE_CTRL.ARR s = 0 then 1843 else 1536

/-- The ticks of the return transition (R90). -/
def feReturn (fe : Fe) (s : State) : Nat :=
  match feState fe s with
  | 5 => 0
  | 4 => if (feGet fe s).txFrom = 3 then 1382 else 230
  | 3 => if fget (feB fe) FE_CTRL.ARR s = 1 then 0 else 1382
  | _ => 230

/-- W of R329 for a span of `d` ticks. -/
def widening (d : Nat) (s : State) : Nat :=
  if fis linkB LINK_GUARD.WIDENING s then
    let x : Rat := (if s.time.e < 0 then -s.time.e else s.time.e) * (d : Rat) / 1000000
    x.ceil.toNat
  else 0

/-- T_ACK minus the end of the frame, in fifths (R324). -/
def ackAfter (phy : Nat) (s : State) : Nat := 5 * turnTicks phy + shrFifths phy (fget linkB LINK_ACK_CFG.ACK_PRE s)

/-- The acknowledgement window of a frame that starts at `pre` and lasts `frame` fifths: its first and last tick,
and W (R309, R324, R329). -/
def ackWindow (phy pre frame : Nat) (s : State) : Nat × Nat × Nat :=
  let g := fget linkB LINK_GUARD.ACK_G s
  let t := 5 * pre + frame + ackAfter phy s
  let w := widening (ticksUp (t - 5 * pre)) s
  (ticksUp (t - 5 * (g + w)), ticksUp (t + 5 * (g + w)), w)

/-- The octets of a job's PSDU: the MIC by the level in the packet it claims (R312). -/
def Job.psduLen (j : Job) (level : Nat) : Nat := j.qlen + (if j.sec then micLen level else 0) + j.fcs

/-- The end of a span whose preamble starts at `pre`, in fifths. -/
def spanEnd (j : Job) (pre frame : Nat) (s : State) : Nat :=
  if j.ackReq then 5 * ((ackWindow j.phy pre frame s).2.1 + 12288)
  else 5 * pre + frame + 5 * (rampTicks + feReturn j.fe s)

/-- The reserved span of an EXACT job, in fifths. -/
def exactSpan (j : Job) (frame : Nat) (s : State) : Nat × Nat :=
  let c := j.cca s
  let start := 5 * (j.at_ - feLead j.fe s) - (if c.1 = 0 then 0 else 5 * 12288 + 2048 * listenLen c.2.2)
  (start, spanEnd j j.at_ frame s)

/-- Two spans overlap. -/
def spansMeet (a b : Nat × Nat) : Bool := decide (a.1 < b.2) && decide (b.1 < a.2)

/-- The spans that armed and executing jobs hold on a front end, the job of slot `but` left out. -/
def heldSpans (fe : Fe) (but : Option Nat) (s : State) : List (Nat × Nat) :=
  (jobList s).filterMap fun e =>
    if e.2.2.fe == fe && but != some (4 * e.1 + e.2.1) &&
      (jobState e.1 e.2.1 s == 1 || jobState e.1 e.2.1 s == 2) then e.2.2.span else none

/-- The plan of an acknowledgement on a front end. -/
def ackGet (fe : Fe) (s : State) : Option AckPlan :=
  match fe with
  | .a => s.link.ackA
  | .b => s.link.ackB

/-- Set it. -/
def ackPut (fe : Fe) (v : Option AckPlan) (s : State) : State :=
  match fe with
  | .a => linkPut { s.link with ackA := v } s
  | .b => linkPut { s.link with ackB := v } s

/-- The frame on its way through a front end. -/
def airGet (fe : Fe) (s : State) : Option AirFrame :=
  match fe with
  | .a => s.link.airA
  | .b => s.link.airB

/-- Set it. -/
def airPut (fe : Fe) (v : Option AirFrame) (s : State) : State :=
  match fe with
  | .a => linkPut { s.link with airA := v } s
  | .b => linkPut { s.link with airB := v } s

/-- The duration of a planned acknowledgement in fifths (R326). -/
def AckPlan.frame (a : AckPlan) (n : Nat) (s : State) : Nat :=
  frameFifths a.phy (fget linkB LINK_ACK_CFG.ACK_PRE s) n a.mcs a.coded

/-- The octets of a planned acknowledgement with MIC and FCS. -/
def AckPlan.octets (a : AckPlan) : Nat :=
  a.plain.length + (match a.sec with
    | some (_, level, _) => micLen level
    | none => 0) + a.fcsLen

/-- The span of a planned acknowledgement, in fifths, with an assessment of `l` bin samples before it. -/
def AckPlan.span (a : AckPlan) (fe : Fe) (l : Nat) (s : State) : Nat × Nat :=
  let start := 5 * (a.preamble - feLead fe s) - (if l = 0 then 0 else 5 * 12288 + 2048 * l)
  (start, 5 * a.preamble + a.frame a.octets s + 5 * (rampTicks + feReturn fe s))

/-! ### The end of a job (R317) -/

/-- The job of a slot ends with a code: its reservation, span and packet go, the slot is DONE, and the room's
transmit-queue notice fires (R315, R317, R340, R359). -/
def jobDone (r k code : Nat) (s : State) : State :=
  match jobGet r k s with
  | none => s
  | some j =>
    let s1 := jobPut r k none s
    let s2 := fset (slotRegs r k) JOB_RES.CODE code (fset (slotRegs r k) JOB_RES.STATE 3 s1)
    let s3 := match j.pkt with
      | some p => queRelease (256 + r) p s2
      | none => s2
    let s4 := if code = 19 then linkNote LINK_NOTE.REF_BLOCK s3 else s3
    let s5 := if code = 3 then linkNote LINK_NOTE.UNDERRUN s4 else s4
    queNotice (256 + r) (armedShow j.fe s5)

/-- The jobs that `p` selects end with a code. -/
def jobsEnd (p : Nat → Nat → Job → Bool) (code : Nat) (s : State) : State :=
  (jobList s).foldl (fun t e => if p e.1 e.2.1 e.2.2 then jobDone e.1 e.2.1 code t else t) s

/-- The frame on a front end is aborted by a cause outside the link controller (R321): muted on the next tick. -/
def airAbort (fe : Fe) (code : Nat) (s : State) : State :=
  match airGet fe s with
  | some f =>
    fePut fe { feGet fe s with muted := true }
      (airPut fe (some { f with abort := some (f.abort.getD code) }) s)
  | none => s

end Sys2Proof.Machine
end

