-- ==== Sys2Proof/Machine/Pigeon.lean ====
section
/-!
DEFINITION. Pigeonholes (spec/15_pigeonholes.md): the lock, the two directions, the sender's stamp, doorbells and
the discards of R474.
-/

namespace Sys2Proof.Machine

open Reg

/-- The page of channel `c` (R475). -/
def phPage (c : Nat) : Nat := 0x40091000 + 0x40 * c

/-- The page as field accesses number it. -/
def phGet (c : Nat) (s : State) : PhChan := tget (fun _ => ({} : PhChan)) s.ph.chans c

/-- Set channel `c`. -/
def phSet (c : Nat) (v : PhChan) (s : State) : State :=
  { s with ph := { s.ph with chans := tset (fun _ => ({} : PhChan)) s.ph.chans c v } }

/-- What initiator `i` holds at channel `c`. -/
def latchGet (i : Init) (c : Nat) (s : State) : PhLatch :=
  tget (fun _ => ({} : PhLatch)) s.ph.latches (i.num * 64 + c)

/-- Set what initiator `i` holds at channel `c`. -/
def latchSet (i : Init) (c : Nat) (v : PhLatch) (s : State) : State :=
  { s with ph := { s.ph with latches := tset (fun _ => ({} : PhLatch)) s.ph.latches (i.num * 64 + c) v } }

/-- The home of channel `c` (R463): the ROOM of event 576 + c where a CORES bit 3–6 is set, else room 0. -/
def phHome (c : Nat) (s : State) : Nat :=
  if bitsOf (evtRoute (576 + c) s) 3 4 = 0 then 0 else bitsOf (evtRoute (576 + c) s) 8 8

/-- The room is the holder (R464). -/
def isHolder (c room : Nat) (s : State) : Bool := (phGet c s).holder == some room

/-- The room is the home (R464). -/
def isHome (c room : Nat) (s : State) : Bool := phHome c s == room

/-- PH_STAT.ROLE of a room: 0 OTHER, 1 HOLDER, 2 HOME, 3 BOTH (R464, R475). -/
def phRole (c room : Nat) (s : State) : Nat := ofBool (isHolder c room s) + 2 * ofBool (isHome c room s)

/-- A release (R467): OUT is discarded, PH_RET cleared and the channel free; IN is kept. -/
def phRelease (c : Nat) (s : State) : State :=
  wr (phPage c + 4) 0 (phSet c { phGet c s with holder := none, outq := [] } s)

/-- A read of PH_LOCK (R466): the owner number it returns and its effect. -/
def phLockRead (c : Nat) (room : Nat) (s : State) : Word × State :=
  match (phGet c s).holder with
  | some r => (if r = room then 0 else BitVec.ofNat 32 (r + 1), s)
  | none =>
    let g := (phGet c s).gen
    (0, phSet c { phGet c s with holder := some room, gen := if g = 255 then 1 else g + 1 } s)

/-- A write of PH_LOCK with RELEASE = 1 (R467). -/
def phReleaseWrite (c room : Nat) (s : State) : State :=
  if isHolder c room s then phRelease c s
  else if isHome c room s then fset (phPage c) PH_ERR.NOT_HOLDER 1 s
  else s

/-- A write of PH_FORCE (R467, R475). -/
def phForce (key c : Nat) (s : State) : State :=
  if key = 0x5046 then
    match (phGet c s).holder with
    | some _ => phRelease c s
    | none => s
  else s

/-- The doorbell of a word written through PH_SEND_END into OUT (R472). -/
def phOutBell (c : Nat) (s : State) : State :=
  if fis (phPage c) PH_RET.V s then raiseEvt (576 + fget (phPage c) PH_RET.CHAN s) s else s

/-- A write to PH_SEND or, with `last`, PH_SEND_END (R469, R471, R472). -/
def phSend (i : Init) (c : Nat) (data : Word) (last : Bool) (s : State) : State :=
  let ch := phGet c s
  let room := roomOf i s
  let word : PhWord := ⟨data, room, ch.gen, last⟩
  if isHolder c room s then
    if 8 ≤ ch.inq.length then fset (phPage c) PH_ERR.FULL 1 s
    else
      let t := phSet c { ch with inq := ch.inq ++ [word] } s
      if last then raiseEvt (576 + c) t else t
  else if isHome c room s then
    if 8 ≤ ch.outq.length then fset (phPage c) PH_ERR.FULL 1 s
    else if ch.holder = none ∨ (latchGet i c s).latched ≠ some ch.gen then fset (phPage c) PH_ERR.STALE 1 s
    else
      let t := phSet c { ch with outq := ch.outq ++ [word] } s
      if last then phOutBell c t else t
  else s

/-- PH_FROM of a popped word (R475). -/
def phFromWord (w : PhWord) : Word :=
  BitVec.ofNat 32 (2 ^ 16 + w.gen % 256 * 256 + ofBool w.last * 128 + w.room % 64)

/-- PH_FROM after an empty pop: V becomes 0 and nothing else changes (R470). -/
def phFromEmpty (l : PhLatch) : PhLatch := { l with from_ := bitsPut l.from_ 16 1 0 }

/-- A read of PH_RECV (R470, R471): the home pops IN, the holder pops OUT; room BOTH pops IN (R464). -/
def phRecv (i : Init) (c : Nat) (s : State) : Word × State :=
  let ch := phGet c s
  let room := roomOf i s
  let l := latchGet i c s
  if isHome c room s then
    match ch.inq with
    | [] => (0, latchSet i c (phFromEmpty l) s)
    | w :: r => (w.data, latchSet i c ⟨phFromWord w, some w.gen⟩ (phSet c { ch with inq := r } s))
  else if isHolder c room s then
    match ch.outq with
    | [] => (0, latchSet i c (phFromEmpty l) s)
    | w :: r => (w.data, latchSet i c { l with from_ := phFromWord w } (phSet c { ch with outq := r } s))
  else (0, s)

/-- A write of PH_RET (R473): the holder's, refused when V = 1 and CHAN is not homed at the writing room. -/
def phRetWrite (i : Init) (c : Nat) (data : Word) (s : State) : State :=
  if isHolder c (roomOf i s) s then
    if bitOf data 6 = true ∧ phHome (bitsOf data 0 6) s ≠ roomOf i s then fset (phPage c) PH_ERR.RANGE 1 s
    else wr (phPage c + 4) (data &&& 0x7F#32) s
  else s

/-- The latched GENs of every initiator are cleared for the channel (R474). -/
def phClearLatched (c : Nat) (s : State) : State :=
  (List.range 8).foldl
    (fun t k =>
      let key := k * 64 + c
      let l := tget (fun _ => ({} : PhLatch)) t.ph.latches key
      { t with ph := { t.ph with
          latches := tset (fun _ => ({} : PhLatch)) t.ph.latches key { l with latched := none } } }) s

/-- Both directions are discarded, PH_ERR.FLUSHED is set and the latched GENs cleared (R474). -/
def phFlush (c : Nat) (s : State) : State :=
  phClearLatched c (fset (phPage c) PH_ERR.FLUSHED 1 (phSet c { phGet c s with inq := [], outq := [] } s))

/-- RESET of room `r` (R452, R474): the channels it holds are released; those homed at it are flushed. -/
def phRoomReset (r : Nat) (s : State) : State :=
  (List.range 64).foldl
    (fun t c =>
      let t1 := if isHome c r t then phFlush c t else t
      if isHolder c r t1 then phRelease c t1 else t1) s

/-- A plan switch that changes the home of channel `c` (R474): flushed and released. -/
def phHomeChanged (c : Nat) (s : State) : State := phRelease c (phFlush c s)

/-- PH_STAT as a room reads it (R475): every field 0 to role OTHER. -/
def phStatView (c room : Nat) (s : State) : Word :=
  if phRole c room s = 0 then 0
  else
    let ch := phGet c s
    BitVec.ofNat 32 (ch.gen * 2 ^ 24 + phRole c room s * 2 ^ 22 + phHome c s * 2 ^ 16 +
      (match ch.holder with
       | some r => r + 1
       | none => 0) * 2 ^ 8 + ch.outq.length * 16 + ch.inq.length)

/-- PH_HELD_LO or PH_HELD_HI (R475). -/
def phHeldView (high : Bool) (s : State) : Word :=
  (List.range 32).foldl
    (fun w k => if (phGet (ofBool high * 32 + k) s).holder.isSome then bitsPut w k 1 1 else w) 0

/-! ### The commands -/

/-- PH_LOCK_READ (R466). -/
def execPhLockRead (i : Init) (chan : BitVec 6) (s : State) : Host.Outcome State Fault Refusal :=
  .next (doorLoad i (phPage chan.toNat) (fun t => phLockRead chan.toNat (roomOf i t) t) s)

/-- PH_RELEASE (R467). -/
def execPhRelease (i : Init) (chan : BitVec 6) (s : State) : Host.Outcome State Fault Refusal :=
  .next (doorStore i (phPage chan.toNat) (fun t => phReleaseWrite chan.toNat (roomOf i t) t) s)

/-- PH_FORCE (R467). -/
def execPhForce (i : Init) (key : BitVec 16) (chan : BitVec 6) (s : State) :
    Host.Outcome State Fault Refusal :=
  .next (doorStore i 0x40090000 (phForce key.toNat chan.toNat) s)

/-- PH_SEND (R469). -/
def execPhSend (i : Init) (chan : BitVec 6) (data : Word) (s : State) : Host.Outcome State Fault Refusal :=
  .next (doorStore i (phPage chan.toNat + 8) (phSend i chan.toNat data false) s)

/-- PH_SEND_END (R469, R472). -/
def execPhSendEnd (i : Init) (chan : BitVec 6) (data : Word) (s : State) : Host.Outcome State Fault Refusal :=
  .next (doorStore i (phPage chan.toNat + 0xC) (phSend i chan.toNat data true) s)

/-- PH_RECV (R470). -/
def execPhRecv (i : Init) (chan : BitVec 6) (s : State) : Host.Outcome State Fault Refusal :=
  .next (doorLoad i (phPage chan.toNat + 0x10) (phRecv i chan.toNat) s)

/-- PH_RET_WRITE (R473). -/
def execPhRetWrite (i : Init) (chan : BitVec 6) (data : Word) (s : State) :
    Host.Outcome State Fault Refusal :=
  .next (doorStore i (phPage chan.toNat + 4) (phRetWrite i chan.toNat data) s)

end Sys2Proof.Machine
end

