-- ==== Sys2Proof/Machine/Events.lean ====
section
/-!
DEFINITION. The event router's interfaces (R455–R459, R461, R692): deliverable events, claims, levels, and an
interrupt taken.
-/

namespace Sys2Proof.Machine

/-- Event `e` is one that some block raises (R455, R692). -/
def evtRaised (e : Nat) : Bool :=
  decide (e ≤ 723) || e == 727 || decide (728 ≤ e ∧ e ≤ 736) || decide (760 ≤ e ∧ e ≤ 768) ||
  decide (775 ≤ e ∧ e ≤ 783) || decide (790 ≤ e ∧ e ≤ 799) || decide (824 ≤ e ∧ e ≤ 829) ||
  decide (848 ≤ e ∧ e ≤ 849) || decide (856 ≤ e ∧ e ≤ 864) || decide (888 ≤ e ∧ e ≤ 896) ||
  decide (904 ≤ e ∧ e ≤ 910) || decide (920 ≤ e ∧ e ≤ 926) || decide (952 ≤ e ∧ e ≤ 956) ||
  decide (960 ≤ e ∧ e ≤ 966) || decide (968 ≤ e ∧ e ≤ 973) || decide (976 ≤ e ∧ e ≤ 977) || decide (984 ≤ e)

/-- The destination a core's interface acts for (R456, R458): itself, or its resident room. -/
def destOfCore (k : Nat) (s : State) : Option Nat :=
  if k < 3 then some k else (residentOn (k - 3) s).map fun r => 3 + r

/-- PRIO of event `e` (R214). -/
def evtPrio (e : Nat) (s : State) : Nat := bitsOf (evtRoute e s) 16 8 % 16

/-- The PRIO lies above the destination's level (R457). -/
def aboveLevel (p : Nat) : List (Nat × Nat) → Bool
  | [] => true
  | (_, q) :: _ => decide (q < p)

/-- Event `e`, pending at destination `d`, is deliverable to core `k` (R456, R457). -/
def evtDeliverable (k e : Nat) (d : Dest) (s : State) : Bool :=
  decide (d.thresh ≤ evtPrio e s) && aboveLevel (evtPrio e s) d.levels && (decide (k < 3) || bitOf (evtRoute e s) k)

/-- The deliverable event of highest PRIO among a rising list, the lowest number among equals (R457). -/
def bestEvt (s : State) : List Nat → Option Nat
  | [] => none
  | e :: r =>
    match bestEvt s r with
    | none => some e
    | some b => if evtPrio e s < evtPrio b s then some b else some e

/-- The event a claim by core `k` returns (R457). -/
def claimable (k : Nat) (s : State) : Option Nat :=
  match destOfCore k s with
  | none => none
  | some d => bestEvt s ((destGet d s).pend.filter fun e => evtDeliverable k e (destGet d s) s)

/-- A read of EVT_CLAIM by core `k` (R457): the value and the state after. -/
def evtClaim (k : Nat) (s : State) : Word × State :=
  match destOfCore k s, claimable k s with
  | some d, some e =>
    let v := destGet d s
    (BitVec.ofNat 32 (2 ^ 31 + evtPrio e s * 2 ^ 16 + e),
      destSet d { v with pend := v.pend.erase e, levels := (e, evtPrio e s) :: v.levels } s)
  | _, _ => (0, s)

/-- A write of EVT_DONE by core `k` (R457). -/
def evtDone (k e : Nat) (s : State) : State :=
  match destOfCore k s with
  | none => s
  | some d =>
    let v := destGet d s
    match v.levels with
    | (f, _) :: r => if f = e then destSet d { v with levels := r } s else destSet d { v with errDone := true } s
    | [] => destSet d { v with errDone := true } s

/-- A write of EVT_THRESH by core `k`. -/
def evtThresh (k t : Nat) (s : State) : State :=
  match destOfCore k s with
  | none => s
  | some d => destSet d { destGet d s with thresh := t % 16 } s

/-- A write of EVT_ERR by core `k`: DONE is W1C. -/
def evtErrWrite (k : Nat) (data : Word) (s : State) : State :=
  match destOfCore k s with
  | none => s
  | some d => if bitOf data 0 then destSet d { destGet d s with errDone := false } s else s

/-- EVT_PENDj of a destination (R461). -/
def pendWord (j : Nat) (l : List Nat) : Word :=
  BitVec.ofNat 32 ((l.filter fun e => e / 32 == j).foldl (fun w e => w + 2 ^ (e % 32)) 0)

/-- A read of an interface register other than EVT_CLAIM (R461); while a core is parked every field reads 0. -/
def evtView (k off : Nat) (s : State) : Word :=
  match destOfCore k s with
  | none => 0
  | some d =>
    let v := destGet d s
    if off = 8 then BitVec.ofNat 32 v.thresh
    else if off = 0xC then BitVec.ofNat 32 (v.levels.length * 16 + (match v.levels with
      | (_, p) :: _ => p
      | [] => 0))
    else if off = 0x10 then BitVec.ofNat 32 (ofBool v.errDone)
    else if 0x80 ≤ off ∧ off < 0x100 then pendWord ((off - 0x80) / 4) v.pend
    else 0

/-- The core whose interface an initiator reaches; 7 for the debug module, which is refused (R461). -/
def evtCore (i : Init) : Nat := i.num

/-- EVENT_SOURCE_RAISE (R60, R456): a block's event reaches the router. -/
def execEventSourceRaise (event : BitVec 10) (s : State) : Host.Outcome State Fault Refusal :=
  .next (if evtRaised event.toNat then raiseEvt event.toNat s else s)

/-- The processor executes instructions: it is neither halted nor held in reset. -/
def coreRuns (k : Nat) (s : State) : Bool := !(coreGet k s).halted && !(coreGet k s).heldInReset

/-- INTERRUPT_TAKEN (R457): a core with a deliverable event takes its machine external interrupt, cause 11. -/
def execInterruptTaken (core : Fin 7) (s : State) : Host.Outcome State Fault Refusal :=
  .next (match claimable core.val s, coreRuns core.val s with
    | some _, true => coreSet core.val (trapEntry 11 true 0 (coreGet core.val s)) s
    | _, _ => s)

/-- EVT_CLAIM (R457). -/
def execEvtClaim (i : Init) (s : State) : Host.Outcome State Fault Refusal :=
  .next (doorLoad i 0x40080F00 (evtClaim (evtCore i)) s)

/-- EVT_DONE (R457). -/
def execEvtDone (i : Init) (data : Word) (s : State) : Host.Outcome State Fault Refusal :=
  .next (doorStore i 0x40080F04 (evtDone (evtCore i) (bitsOf data 0 10)) s)

end Sys2Proof.Machine
end

