-- ==== Sys2Proof/Machine/Image.lean ====
section
/-!
DEFINITION. Images (R560–R564): a header's layout, its segments, and the checks of R562 in their order but for
check 9, which a staging session adds. A stored image is valid when its header passes them and its body has the
header's hash.
-/

namespace Sys2Proof.Machine

open Reg

/-- The UPD block. -/
def updB : Nat := 0x400E0000

/-- KIND (R560): 1 HOUSE, 2 ROOM, 3 PLAN, 4 PORTER. -/
def imgKind (h : List Byte) : Nat := leAt h 6 1
/-- ROOM. -/
def imgRoom (h : List Byte) : Nat := leAt h 7 1
/-- SEQ. -/
def imgSeq (h : List Byte) : Nat := leAt h 0xC 4
/-- LENGTH. -/
def imgLength (h : List Byte) : Nat := leAt h 0x20 4
/-- ENTRY. -/
def imgEntry (h : List Byte) : Nat := leAt h 0x24 4
/-- N_SEG. -/
def imgSegs (h : List Byte) : Nat := leAt h 0x28 1
/-- BODY_HASH. -/
def imgHash (h : List Byte) : List Byte := (h.drop 0x60).take 32
/-- SIGNER_PUB. -/
def imgSigner (h : List Byte) : List Byte := (h.drop 0x80).take 64

/-- A segment (R560). -/
structure Segment where
  dest : Nat
  offset : Nat
  len : Nat
  deriving DecidableEq, Repr

/-- Segment `k` of a header. -/
def imgSeg (h : List Byte) (k : Nat) : Segment :=
  ⟨leAt h (0x2C + 12 * k) 4, leAt h (0x30 + 12 * k) 4, leAt h (0x34 + 12 * k) 4⟩

/-- The segments of a header. -/
def imgSegments (h : List Byte) : List Segment := (List.range (imgSegs h)).map (imgSeg h)

/-- Two spans share an octet. -/
def octetsMeet (a m b n : Nat) : Bool := decide (max a b < min (a + m) (b + n))

/-- No two of the spans share an octet. -/
def octetsApart : List (Nat × Nat) → Bool
  | [] => true
  | (a, m) :: r => r.all (fun e => !octetsMeet a m e.1 e.2) && octetsApart r

/-- The segments lie within the body, do not overlap, and cover it whole (R561): apart, their lengths add up to
the body's. -/
def segsCover (l : List Segment) (len : Nat) : Bool :=
  l.all (fun g => decide (g.offset + g.len ≤ len)) && octetsApart (l.map fun g => (g.offset, g.len)) &&
  l.foldl (fun n g => n + g.len) 0 == len

/-- `n` octets at `a` lie in a range. -/
def inRange (a n lo hi : Nat) : Bool := decide (lo ≤ a) && decide (a + n ≤ hi)

/-- A further segment of a house image: a link core's TCM, or SRAM in a window of room 0 with W (R561). -/
def houseSeg (s : State) (g : Segment) : Bool :=
  inRange g.dest g.len 0x10000000 0x10040000 || inRange g.dest g.len 0x10040000 0x10080000 ||
  (inRange g.dest g.len 0x20000000 0x20C00000 &&
    (windowsOf 0 s).any fun w => w.covers g.dest g.len && w.rights.testBit 1)

/-- The lowest-addressed flash window of a room that grants X (R561). -/
def codeWindow (r : Nat) (s : State) : Option Window :=
  (windowsOf r s).foldl
    (fun best w =>
      if w.rights.testBit 2 ∧ 0x08000000 ≤ w.base ∧ w.base < 0x0C000000 then
        match best with
        | some b => if w.base < b.base then some w else some b
        | none => some w
      else best) none

/-- The rules of R561 for a kind, against the ledger in force. -/
def layoutOk (h : List Byte) (s : State) : Bool :=
  let len := imgLength h
  let e := imgEntry h
  let g0 := imgSeg h 0
  segsCover (imgSegments h) len &&
  (if imgKind h = 1 then
    imgRoom h == 0 && inRange g0.dest g0.len 0x01000000 0x01080000 &&
    ((imgSegments h).drop 1).all (houseSeg s) && decide (256 + len ≤ 3840 * 1024) &&
    decide (g0.dest ≤ e) && decide (e < g0.dest + g0.len) && e % 2 == 0
  else if imgKind h = 2 then
    decide (1 ≤ imgRoom h) && decide (imgRoom h ≤ 63) && imgSegs h == 1 &&
    (match codeWindow (imgRoom h) s with
     | some w => w.base == g0.dest && decide (256 + len ≤ w.size) &&
         decide (g0.dest + 256 ≤ e) && decide (e < g0.dest + 256 + len) && e % 2 == 0
     | none => false)
  else if imgKind h = 3 then
    imgRoom h == 0 && imgSegs h == 1 && g0.dest == 0 && e == 0 && decide (256 + len ≤ 8 * 1024 * 1024)
  else if imgKind h = 4 then
    imgRoom h == 0 && imgSegs h == 1 && g0.dest == 0x08000000 && decide (256 + len ≤ 256 * 1024) &&
    inRange e 1 0x08000000 0x08040000
  else false)

/-- Check 1: MAGIC, FORMAT, N_SEG and the reserved octets, the segment entries beyond N_SEG among them (R560). -/
def headerOk (h : List Byte) : Bool :=
  leAt h 0 4 == 0x494D5459 && leAt h 4 2 == 1 && decide (1 ≤ imgSegs h) && decide (imgSegs h ≤ 4) &&
  zeroAt h 0x29 3 && zeroAt h 0x5C 4 && zeroAt h (0x2C + 12 * imgSegs h) (48 - 12 * imgSegs h)

/-- KEY_LIFE.STATE (R509): 0 FACTORY, 1 OPEN, 2 OWNED. -/
def lifecycle (s : State) : Nat := fget keyB KEY_LIFE.STATE s

/-- UPD_SIGNER[r] (R577). -/
def roomSigner (r : Nat) (s : State) : List Byte := rdBytes (updB + 0x400 + 0x20 * r) 8 s

/-- Check 6: the signer's key is acceptable (R563). -/
def signerOk (h : List Byte) (s : State) : Bool :=
  let k := imgSigner h
  let owner := s.keys.owners.getLast? == some k
  if imgKind h = 4 then sha256 k == Config.porterKey
  else if lifecycle s ≠ 2 then true
  else if imgKind h = 2 then
    owner || (roomSigner (imgRoom h) s == sha256 k && (roomSigner (imgRoom h) s).any fun b => b != 0)
  else owner

/-- Check 7: the signature verifies over header octets 0x00–0xBF (R560). -/
def signatureOk (h : List Byte) : Bool :=
  let n (o : Nat) : Nat := ofBeBytes ((h.drop o).take 32)
  ecdsaVerify (n 0x80) (n 0xA0) (ofBeBytes (sha256 (h.take 0xC0))) (n 0xC0) (n 0xE0) == 0

/-- The address of a kind's floor (R564, R577). -/
def floorAt (kind room : Nat) : Nat :=
  if kind = 4 then updB + 0x20 else if kind = 1 then updB + 0x24 else if kind = 3 then updB + 0x28
  else updB + 0x100 + 4 * room

/-- A kind's floor. -/
def floorGet (kind room : Nat) (s : State) : Nat := (rd (floorAt kind room) s).toNat

/-- Sequence `a` is newer than `b` (R219). -/
def seqNewer (a b : Nat) : Bool :=
  let d := (a + 2 ^ 32 - b % 2 ^ 32) % 2 ^ 32
  decide (1 ≤ d) && decide (d ≤ 2 ^ 31 - 1)

/-- Checks 1–8 of R562, where the kinds `kinds` are allowed: 0, or the result on failure. -/
def headerCheck (h : List Byte) (kinds : List Nat) (s : State) : Nat :=
  if !headerOk h then 1
  else if !layoutOk h s then 2
  else if leAt h 8 2 ≠ 0x9256 ∨ 16 ≤ Config.stepping.toNat ∨ (leAt h 0xA 2).testBit Config.stepping.toNat = false then 3
  else if !(zeroAt h 0x10 16 || (h.drop 0x10).take 16 == unitId s) then 4
  else if !kinds.contains (imgKind h) then 5
  else if !signerOk h s then 6
  else if !signatureOk h then 7
  else if !(imgSeq h == floorGet (imgKind h) (imgRoom h) s ||
      seqNewer (imgSeq h) (floorGet (imgKind h) (imgRoom h) s)) then 8
  else 0

/-- The header stored at a flash address. -/
def storedHeader (a : Nat) (s : State) : List Byte := flashBytes a 256 s

/-- The body stored behind a header at a flash address. -/
def storedBody (a : Nat) (s : State) : List Byte := flashBytes (a + 256) (imgLength (storedHeader a s)) s

/-- An image in flash is valid (R562): its header passes for its kind, and the stored body has its hash. -/
def storedOk (a kind : Nat) (s : State) : Bool :=
  headerCheck (storedHeader a s) [kind] s == 0 && sha256 (storedBody a s) == imgHash (storedHeader a s)

/-- Room `r`'s measurements (R520): the image's body hash and the hash of its signer's key. -/
def measFrom (r : Nat) (h : List Byte) (s : State) : State := measSet r (imgHash h) (sha256 (imgSigner h)) s

end Sys2Proof.Machine
end

