-- ==== Sys2Proof/Machine/Plan.lean ====
section
/-!
DEFINITION. The house plan's bit-stream (R207–R216): reading it, and the checks of a slot in the order of R217.
-/

namespace Sys2Proof.Machine

open Reg

/-- A directory entry with its section's octets (R207). -/
structure Section where
  type : Nat
  index : Nat
  offset : Nat
  length : Nat
  crc : Nat
  bytes : List Byte
  deriving DecidableEq, Repr

/-- A tile record (R209). -/
structure TileRec where
  tile : Nat
  kind : Nat
  func : Nat
  owner : Nat
  steps : Nat
  crc : Nat
  len : Nat
  zero : Bool
  content : List Byte
  deriving DecidableEq, Repr

/-- A lane descriptor as it stands in the section (R211). -/
structure LaneRow where
  lane : Nat
  desc : LaneDesc
  raw : List Byte
  deriving DecidableEq, Repr

/-- A plan as read from a body. -/
structure Plan where
  sections : List Section
  /-- the tile records of each domain's section, with the domain -/
  tiles : List TileRec
  lanes : List LaneRow
  /-- 8 octets each -/
  routes : List (List Byte)
  /-- queue, LOG2, FLAGS and BASE -/
  queues : List (Nat × Nat × Nat × Nat)
  /-- 288 octets each -/
  ledger : List (List Byte)
  /-- CORES, ROOM, PRIO and FLAGS of each event -/
  events : List (Nat × Nat × Nat × Nat)
  keep : List Nat
  budget : Nat
  floor : Nat
  ceil : Nat
  stepMax : Nat
  deriving DecidableEq, Repr

/-! ### Reading -/

/-- Pieces of `k` octets, as many as are whole. -/
def rows (k : Nat) (l : List Byte) : List (List Byte) := pieces k (l.length / k) l

/-- The directory (R207). -/
def planSections (b : List Byte) : List Section :=
  (rows 16 ((b.drop 32).take (16 * leAt b 6 2))).map fun e =>
    { type := leAt e 0 2, index := leAt e 2 2, offset := leAt e 4 4, length := leAt e 8 4, crc := leAt e 12 4
      bytes := (b.drop (leAt e 4 4)).take (leAt e 8 4) }

/-- The first section of a type and index; empty where there is none. -/
def sectionOf (l : List Section) (type index : Nat) : List Byte :=
  match l.find? fun x => x.type == type && x.index == index with
  | some x => x.bytes
  | none => []

/-- The tile records that follow a domain header: as many as `n` (R209). -/
def tileRecs : Nat → List Byte → List TileRec
  | 0, _ => []
  | n + 1, l =>
    { tile := leAt l 0 2, kind := leAt l 2 1, func := leAt l 3 1, owner := leAt l 4 2, steps := leAt l 6 2
      crc := leAt l 8 4, len := leAt l 12 2, zero := zeroAt l 14 2, content := (l.drop 16).take (leAt l 12 2) } ::
      tileRecs n (l.drop (16 + leAt l 12 2))

/-- A lane descriptor (R211). -/
def laneRow (l : List Byte) : LaneRow :=
  { lane := leAt l 0 1, raw := l
    desc := { fe := leAt l 1 1, binFirst := leAt l 2 2, nBins := leAt l 4 1, phy := leAt l 5 1, opts := leAt l 6 1
              domain := leAt l 7 1, firstTile := leAt l 8 2, nTiles := leAt l 10 1, codeTile := leAt l 11 1
              codeSlot := leAt l 12 1, nSlots := leAt l 13 1, queue := leAt l 14 2
              fine := signedOf 32 (leAt l 16 4) } }

/-- A plan read from its body; whether it is well formed is for the checks. -/
def planRead (b : List Byte) : Plan :=
  let ss := planSections b
  let power := sectionOf ss 7 0
  let vcore := sectionOf ss 9 0
  { sections := ss
    tiles := (ss.filter fun x => x.type == 1).flatMap fun x => tileRecs (leAt x.bytes 1 1) (x.bytes.drop 16)
    lanes := (rows 32 (sectionOf ss 3 0)).map laneRow
    routes := rows 8 (sectionOf ss 2 0)
    queues := (rows 8 (sectionOf ss 4 0)).map fun q => (leAt q 0 2, leAt q 2 1, leAt q 3 1, leAt q 4 4)
    ledger := rows 288 (sectionOf ss 5 0)
    events := (rows 4 (sectionOf ss 6 0)).map fun e => (leAt e 0 1, leAt e 1 1, leAt e 2 1, leAt e 3 1)
    keep := (rows 16 power).map ofLeBytes
    budget := leAt (sectionOf ss 8 0) 0 2
    floor := leAt vcore 0 1, ceil := leAt vcore 1 1, stepMax := leAt vcore 4 4 }

/-- The domains of DOMAIN_MASK. -/
def planDomains (b : List Byte) : List Nat := (List.range 32).filter fun d => (leAt b 8 4).testBit d

/-- The domains that have a TILE section. -/
def Plan.domains (p : Plan) : List Nat := (p.sections.filter fun x => x.type == 1).map fun x => x.index

/-- The record of a tile. -/
def Plan.tile (p : Plan) (t : Nat) : Option TileRec := p.tiles.find? fun r => r.tile == t

/-- The descriptor row of a lane. -/
def Plan.lane (p : Plan) (n : Nat) : Option LaneRow := p.lanes.find? fun r => r.lane == n

/-- QC_RING of a queue as the carve sets it (R212, R364). -/
def Plan.ring (p : Plan) (q : Nat) : Word :=
  match p.queues.find? fun e => e.1 == q with
  | some (_, log2, _, base) => BitVec.ofNat 32 (2 ^ 31 + log2 % 32 * 2 ^ 24 + base % 2 ^ 18)
  | none => 0

/-- The domain a tile lies in (R198). -/
def tileDomain (t : Nat) : Nat := t / 32

/-! ### Checks 3–5 -/

/-- Strictly rising numbers. -/
def rising : List Nat → Bool
  | a :: b :: r => decide (a < b) && rising (b :: r)
  | _ => true

/-- The types and indices that R208 demands, in their order. -/
def planKeys (b : List Byte) : List (Nat × Nat) :=
  (planDomains b).map (fun d => (1, d)) ++ (List.range 8).map fun k => (k + 2, 0)

/-- The LENGTH that follows from the header and the directory alone (R208). -/
def sectionLenOk (lanes : Nat) (x : Section) : Bool :=
  if x.type = 2 then x.length % 8 == 0
  else if x.type = 3 then x.length == 32 * lanes
  else if x.type = 4 then x.length % 8 == 0 && decide (8 ≤ x.length) && decide (x.length ≤ 2560)
  else if x.type = 5 then x.length % 288 == 0 && decide (288 ≤ x.length) && decide (x.length ≤ 18432)
  else if x.type = 6 then x.length == 4096
  else if x.type = 7 then x.length == 48
  else if x.type = 8 then x.length == 4
  else if x.type = 9 then x.length == 8
  else true

/-- Check 3: MAGIC, FORMAT, N_SECT (R207). -/
def planHeaderOk (b : List Byte) : Bool :=
  decide (32 ≤ b.length) && leAt b 0 4 == 0x4E4C5051 && leAt b 4 2 == 1 && decide (8 ≤ leAt b 6 2) &&
  decide (leAt b 6 2 ≤ 40)

/-- Check 4: the directory (R208). -/
def planDirOk (b : List Byte) (ss : List Section) : Bool :=
  decide (32 + 16 * leAt b 6 2 ≤ b.length) && ss.map (fun x => (x.type, x.index)) == planKeys b &&
  ss.all (fun x => x.offset % 32 == 0 && decide (32 + 16 * leAt b 6 2 ≤ x.offset) &&
    decide (x.offset + x.length ≤ b.length) && sectionLenOk (leAt b 12 2) x) &&
  octetsApart (ss.map fun x => (x.offset, x.length))

/-! ### Check 6: field ranges and reserved zeros -/

/-- The octets of `n` records. -/
def recsLen (l : List TileRec) : Nat := l.foldl (fun n r => n + 16 + r.len) 0

/-- A tile record's own fields (R209): everything but KIND against its domain and the lane it names. -/
def tileRecOk (d : Nat) (r : TileRec) : Bool :=
  tileDomain r.tile == d && decide (r.kind ≤ 1) && decide (r.func ≤ 4) && ((r.func == 4) == (r.kind == 1)) &&
  (if r.func = 4 then r.owner == 0xFFFF else r.func == 0 || decide (r.owner ≤ 1)) &&
  (if r.kind = 1 then r.steps == 0 && r.len == 256
   else decide (1 ≤ r.steps) && decide (r.steps ≤ 7555) && r.len == 1280) && r.zero

/-- The largest of a list. -/
def largest (l : List Nat) : Nat := l.foldl max 0

/-- A TILE section against its records (R208, R209). -/
def tileSectionOk (x : Section) : Bool :=
  let b := x.bytes
  let rs := tileRecs (leAt b 1 1) (b.drop 16)
  decide (16 ≤ b.length) && leAt b 0 1 == x.index && decide (1 ≤ leAt b 1 1) && decide (leAt b 1 1 ≤ 32) &&
  zeroAt b 2 2 && zeroAt b 12 4 && 16 + recsLen rs == b.length && rs.all (tileRecOk x.index) &&
  rs.map (fun r => r.tile) == ((List.range 32).filter fun i => (leAt b 4 4).testBit i).map (fun i => 32 * x.index + i) &&
  leAt b 8 4 == (if 30 ≤ x.index then 0 else largest (rs.map fun r => r.steps))

/-- A lane descriptor's own fields (R211, R252–R254). -/
def laneRowOk (r : LaneRow) : Bool :=
  let d := r.desc
  decide (d.fe ≤ 1) && decide (1 ≤ d.nBins) && decide (d.nBins ≤ 32) && decide (d.binFirst + d.nBins ≤ 1024) &&
  phyListed d.phy && !(phyOqpsk d.phy && d.fe == 0) && decide (d.opts < 4) && (phyFsk d.phy || !d.opts.testBit 0) &&
  decide (d.domain ≤ 29) && tileDomain d.firstTile == d.domain &&
  d.nTiles == phyTiles d.phy (d.opts.testBit 0) && (decide (d.codeTile ≤ 63) || d.codeTile == 0xFF) &&
  decide (d.codeSlot ≤ 7) && decide (d.queue ≤ 255) && decide (d.fine.natAbs ≤ 46875) && zeroAt r.raw 20 12

/-- An end of a route (R210). -/
def routeEndOk (p : Plan) (kind v : Nat) : Bool :=
  if kind = 0 then decide (v < 2048)
  else if kind = 1 then (p.tile v).isSome
  else if kind = 2 then
    match p.tile (960 + v / 8) with
    | some r => r.func == 4
    | none => false
  else if kind = 3 then (p.lane v).isSome
  else kind == 4 && decide (v ≤ 1)

/-- A route (R210). -/
def routeOk (p : Plan) (r : List Byte) : Bool :=
  routeEndOk p (leAt r 0 1) (leAt r 2 2) && routeEndOk p (leAt r 1 1) (leAt r 4 2) && zeroAt r 6 2

/-- The ranges and reserved zeros of a ledger entry (R213). -/
def entryFieldsOk (l : List Byte) : Bool :=
  let e := entryParse l
  let n := leAt l 0x50 1
  decide (entryRoom l < 64) && zeroAt l 1 3 && zeroAt l 0xC 4 && decide (n ≤ 16) && zeroAt l 0x51 15 &&
  zeroAt l (0x60 + 12 * n) (192 - 12 * n) && decide (e.timers < 2 ^ 20) &&
  (e.blocks &&& (0xFFFFFFFF - 0x37FFFFF)) == 0 && e.windows.all fun w => decide (w.rights < 8)

/-- Check 6 of R217 over R207–R216. -/
def planFieldsOk (b : List Byte) (p : Plan) : Bool :=
  decide (leAt b 12 2 ≤ 256) && zeroAt b 14 2 &&
  (p.sections.filter fun x => x.type == 1).all tileSectionOk &&
  rising (p.lanes.map fun r => r.lane) && p.lanes.all laneRowOk && p.routes.all (routeOk p) &&
  rising (p.queues.map fun q => q.1) &&
  p.queues.all (fun q => decide (q.1 ≤ 319) && decide (8 ≤ q.2.1) && decide (q.2.1 ≤ 16) && q.2.2.1 == 0) &&
  p.ledger.all entryFieldsOk &&
  p.events.all (fun e => decide (e.1 < 128) && decide (e.2.2.1 ≤ 15) && e.2.2.2 == 0) &&
  p.keep.all (fun k => decide (k < 2 ^ 80)) &&
  decide (1 ≤ p.budget) && decide (p.budget ≤ 256) && zeroAt (sectionOf p.sections 8 0) 2 2 &&
  zeroAt (sectionOf p.sections 9 0) 2 2 &&
  p.stepMax == largest ((p.sections.filter fun x => x.type == 1).map fun x => leAt x.bytes 8 4)

/-! ### Checks 7–13 -/

/-- The tiles of a lane. -/
def laneTiles (d : LaneDesc) : List Nat := (List.range d.nTiles).map fun k => d.firstTile + k

/-- A record that serves lane `n`. -/
def servesLane (n : Nat) (r : Option TileRec) : Bool :=
  match r with
  | some x => x.func == 0 && x.owner == n
  | none => false

/-- Check 7: tiles (R200, R209). -/
def planTilesOk (p : Plan) : Bool :=
  p.tiles.all (fun r => (r.kind == 1) == decide (960 ≤ r.tile)) &&
  p.lanes.all (fun l => (laneTiles l.desc).all fun t => tileDomain t == l.desc.domain && servesLane l.lane (p.tile t)) &&
  p.tiles.all (fun r => r.func != 0 ||
    match p.lane r.owner with
    | some l => (laneTiles l.desc).contains r.tile
    | none => false) &&
  [1, 2, 3].all fun f => [0, 1].all fun fe =>
    let ds := (p.tiles.filter fun r => r.func == f && r.owner == fe).map fun r => tileDomain r.tile
    ds.all fun d => ds.all fun e => d == e

/-- The code slots of a lane. -/
def laneSlots (d : LaneDesc) : List Nat :=
  if d.codeTile = 0xFF then [] else (List.range d.nSlots).map fun k => d.codeTile * 8 + d.codeSlot + k

/-- No number occurs twice. -/
def distinct : List Nat → Bool
  | [] => true
  | a :: r => !r.contains a && distinct r

/-- Check 8: code slots (R201, R211). -/
def planSlotsOk (p : Plan) : Bool :=
  p.lanes.all (fun l =>
    let d := l.desc
    d.nSlots == phySlots d.phy (d.opts.testBit 1) && ((d.codeTile == 0xFF) == (d.nSlots == 0)) &&
    decide (d.codeSlot + d.nSlots ≤ 8) &&
    (d.codeTile == 0xFF || match p.tile (960 + d.codeTile) with
      | some r => r.func == 4
      | none => false)) &&
  distinct (p.lanes.flatMap fun l => laneSlots l.desc)

/-- Check 9: the queue carve (R211, R212). -/
def planCarveOk (p : Plan) : Bool :=
  p.queues.all (fun q => q.2.2.2 % 2 ^ q.2.1 == 0 && decide (q.2.2.2 + 2 ^ q.2.1 ≤ 262144)) &&
  octetsApart (p.queues.map fun q => (q.2.2.2, 2 ^ q.2.1)) &&
  p.lanes.all fun l => p.queues.any fun q => q.1 == l.desc.queue

/-- Entries agree pair by pair (R213), and share no timer (R406). -/
def entriesApart : List LedgerEntry → Bool
  | [] => true
  | e :: r => r.all (fun x => entriesAgree e x && (e.timers &&& x.timers) == 0) && entriesApart r

/-- Check 10: the ledger (R213, R406). -/
def planLedgerOk (p : Plan) : Bool :=
  rising (p.ledger.map entryRoom) && (p.ledger.map entryRoom).contains 0 &&
  p.ledger.all (fun l => entryOk l (fun n => (p.lane n).isSome) (fun q => p.queues.any fun e => e.1 == q)) &&
  entriesApart (p.ledger.map entryParse)

/-- The BLOCKS bit of the block that raises an event of 704–1023 (R692); none where only room 0 may take it. -/
def evtBlock (e : Nat) : Option Nat :=
  if e = 727 ∨ 888 ≤ e ∧ e ≤ 896 then some 5
  else if 728 ≤ e ∧ e ≤ 736 then some 3
  else if 760 ≤ e ∧ e ≤ 768 ∨ e = 790 ∨ e = 791 then some 0
  else if 775 ≤ e ∧ e ≤ 783 then some 1
  else if 792 ≤ e ∧ e ≤ 799 then some 22
  else if 824 ≤ e ∧ e ≤ 829 then some 15
  else if 856 ≤ e ∧ e ≤ 864 then some 16
  else if 904 ≤ e ∧ e ≤ 910 then some 24
  else if 920 ≤ e ∧ e ≤ 926 then some 13
  else if 952 ≤ e ∧ e ≤ 956 then some 17
  else if 960 ≤ e ∧ e ≤ 966 then some 18
  else if 968 ≤ e ∧ e ≤ 973 then some 19
  else if 976 ≤ e ∧ e ≤ 977 then some 21
  else if 984 ≤ e ∧ e ≤ 1015 then some 20
  else if 1016 ≤ e ∧ e ≤ 1019 then some 7
  else if e = 1021 then some 12
  else if e = 1022 then some 11
  else none

/-- Guest room `r`, with its entry, holds the source of event `e` (R214, R406, R463, R692). -/
def holdsSource (e r : Nat) (x : LedgerEntry) : Bool :=
  if e < 256 then x.lanes.getLsbD e
  else if e < 512 then x.rxq.getLsbD (e - 256)
  else if e < 576 then r == e - 512
  else if e < 640 then true
  else if e < 704 then r == e - 640
  else if e < 724 then x.timers.testBit (e - 704)
  else match evtBlock e with
    | some b => x.blocks.testBit b
    | none => false

/-- The ledger entry a plan gives a room. -/
def Plan.entry (p : Plan) (r : Nat) : Option LedgerEntry :=
  (p.ledger.find? fun l => entryRoom l == r).map entryParse

/-- The routing entry of event `n` (R214). -/
def eventOk (p : Plan) (n : Nat) (e : Nat × Nat × Nat × Nat) : Bool :=
  (e.1 % 8 == 0 || e.2.1 == 0) &&
  (e.1 / 8 % 16 == 0 || (decide (1 ≤ e.2.1) && decide (e.2.1 ≤ 63) &&
    (decide (576 ≤ n ∧ n < 640) || match p.entry e.2.1 with
      | some x => holdsSource n e.2.1 x
      | none => false)))

/-- Check 11: event routing. -/
def planEventsOk (p : Plan) : Bool := p.events.zipIdx.all fun e => eventOk p e.2 e.1

/-- The greatest STEP_MAX accepted at a floor code (R206). -/
def stepTop (code : Nat) : Nat :=
  [1416, 1648, 1929, 2266, 2666, 2982, 3333, 3715, 4121, 4533, 4927, 5333, 5738, 6126, 6476, 6974, 7555].getD code 0

/-- Checks 3–13 of R217 on a body: 0, or the code of the first that fails. -/
def bodyCheck (b : List Byte) : Nat :=
  let p := planRead b
  if !planHeaderOk b then 3
  else if !planDirOk b p.sections then 4
  else if !(p.sections.all fun x => crc32c x.bytes == x.crc) then 5
  else if !planFieldsOk b p then 6
  else if !planTilesOk p then 7
  else if !planSlotsOk p then 8
  else if !planCarveOk p then 9
  else if !planLedgerOk p then 10
  else if !planEventsOk p then 11
  else if p.floor ≤ 16 ∧ stepTop p.floor < p.stepMax then 12
  else if ¬(p.floor ≤ p.ceil ∧ p.ceil ≤ 16) then 13
  else 0

/-! ### Slots (R217, R218) -/

/-- The base of slot `k`: 0 A, 1 B. -/
def slotBase (k : Nat) : Nat := 0x0B000000 + 0x800000 * k

/-- The slot's first word reads 0xFFFFFFFF. -/
def slotEmpty (k : Nat) (s : State) : Bool := ofLeBytes (flashBytes (slotBase k) 4 s) == 0xFFFFFFFF

/-- The plan body stored in a slot. -/
def slotBody (k : Nat) (s : State) : List Byte := storedBody (slotBase k) s

/-- The sequence in the slot's stored header. -/
def slotSeq (k : Nat) (s : State) : Nat := imgSeq (storedHeader (slotBase k) s)

/-- The plan stored in a slot. -/
def slotPlan (k : Nat) (s : State) : Plan := planRead (slotBody k s)

/-- The check of a slot (R217): 0, or the first failing code. -/
def slotCheck (k : Nat) (s : State) : Nat :=
  if slotEmpty k s then 1
  else if headerCheck (storedHeader (slotBase k) s) [3] s ≠ 0 then 1
  else if sha256 (slotBody k s) ≠ imgHash (storedHeader (slotBase k) s) then 2
  else bodyCheck (slotBody k s)

end Sys2Proof.Machine
end

