-- ==== Sys2Proof/Machine/Rooms.lean ====
section
/-!
DEFINITION. Rooms on the application cores (R441–R445, R449–R453): caches, contexts, room switches, parking and
the room commands that need no other block. A switch is one indivisible step, so LEDG_STAT.BUSY is never seen at 1.
-/

namespace Sys2Proof.Machine

open Reg

/-- The LEDG block. -/
def ledgB : Nat := 0x40070000

/-- Application core `c` as an initiator. -/
def appInit (c : Nat) : Init := .appCore (BitVec.ofNat 2 c)

/-! ### Caches (R440, R442) -/

/-- The byte of LEDG_WAYS for way `w` of core `c`. -/
def wayByte (c w : Nat) (s : State) : Nat := bitsOf (rd (ledgB + 0x40 + 8 * c + 4 * (w / 4)) s) (8 * (w % 4)) 8

/-- The room that owns a way (R442, R460). -/
def wayOwner (c w : Nat) (s : State) : Option Nat :=
  if (wayByte c w s).testBit 7 then some (wayByte c w s % 64) else none

/-- Octets arrive at memory: flash keeps what it holds and records the store (R540). -/
def storeBytes (a : Nat) (l : List Byte) (s : State) : State :=
  if 0x08000000 ≤ a ∧ a < 0x0C000000 then flcErr FLC_ERR.STORE s else memWrite a l s

/-- A dirty line is written back as a store by its way's owner (R442, R446). -/
def writeBack (l : CacheLine) (s : State) : State :=
  if l.dirty then
    let room := (wayOwner l.core l.way s).getD 0
    match doorCheckAs (appInit l.core) room l.base 64 .store s with
    | some c => recordRefusal (appInit l.core) room l.base .store c s
    | none => storeBytes l.base l.bytes s
  else s

/-- The lines that satisfy `p` are written back; they stay valid and clean. -/
def cleanLines (p : CacheLine → Bool) (s : State) : State :=
  let t := (s.rooms.lines.filter p).foldl (fun t l => writeBack l t) s
  { t with rooms := { t.rooms with lines := t.rooms.lines.map fun l => if p l then { l with dirty := false } else l } }

/-- A line stands in a way that room `r` owns. -/
def lineOf (r : Nat) (s : State) (l : CacheLine) : Bool := wayOwner l.core l.way s == some r

/-! ### Contexts (R444) -/

/-- LEDG_CTX[r]. -/
def ctxBase (r : Nat) (s : State) : Nat := (rd (ledgB + 0x800 + 8 * r) s).toNat / 1024 * 1024

/-- The words of a context area: offset and value (R444). -/
def ctxWords (c : CoreCtx) : List (Nat × Nat) :=
  [(0, c.pc.toNat)] ++
  ((List.range 31).map fun k => (8 + 8 * k, (tget (fun _ => (0 : Word64)) c.x (k + 1)).toNat)) ++
  ((List.range 32).map fun k => (0x100 + 8 * k, (tget (fun _ => (0 : Word64)) c.f k).toNat)) ++
  [(0x200, c.fcsr.toNat)] ++
  ((List.range 17).map fun k => (0x208 + 8 * k, (tget csrReset c.csr k).toNat)) ++
  [(0x290, (tget csrReset c.csr 17).toNat &&& 0x22), (0x298, c.priv), (0x2A0, c.instret.toNat)]

/-- A 64-bit word of memory. -/
def memWord (a : Nat) (s : State) : Word64 := BitVec.ofNat 64 (memNat a 8 s)

/-- `n` 64-bit words from `a` as a table from key `k0`. -/
def memTable (d : Nat → Word64) (a k0 n : Nat) (s : State) : Tbl Word64 :=
  (List.range n).foldl (fun t k => tset d t (k0 + k) (memWord (a + 8 * k) s)) []

/-- The context an area holds (R444); a privilege code of 2 resumes in M. -/
def ctxOf (a : Nat) (s : State) : CoreCtx :=
  { pc := memWord a s, x := memTable (fun _ => 0) (a + 8) 1 31 s, f := memTable (fun _ => 0) (a + 0x100) 0 32 s
    fcsr := memWord (a + 0x200) s, csr := memTable csrReset (a + 0x208) 0 18 s
    priv := if memNat (a + 0x298) 1 s % 4 = 2 then 3 else memNat (a + 0x298) 1 s % 4
    instret := memWord (a + 0x2A0) s }

/-- A refused context save or load (R443): abandoned, CTX_VALID 0, LEDG_ERR.CTX. -/
def ctxAbandon (c r : Nat) (k : Access) (cause : Nat) (s : State) : State :=
  fset ledgB LEDG_ERR.CTX 1 (fset (rstat r) LEDG_RSTAT.CTX_VALID 0 (recordRefusal (appInit c) r (ctxBase r s) k cause s))

/-- The context save of order 2 (R443). -/
def ctxSave (c r : Nat) (s : State) : State :=
  match doorCheckAs (appInit c) r (ctxBase r s) 1024 .store s with
  | some cause => ctxAbandon c r .store cause s
  | none =>
    fset (rstat r) LEDG_RSTAT.CTX_VALID 1
      ((ctxWords (coreGet (3 + c) s)).foldl (fun t w => storeBytes (ctxBase r s + w.1) (leBytes 8 w.2) t) s)

/-- A start without a context (R443): M mode at LEDG_ENTRY. -/
def ctxFresh (r : Nat) (s : State) : CoreCtx :=
  { pc := BitVec.ofNat 64 ((rd (ledgB + 0x804 + 8 * r) s).toNat / 2 * 2) }

/-- The context load of order 6 (R443, R444). -/
def ctxLoad (c r : Nat) (s : State) : State :=
  if fis (rstat r) LEDG_RSTAT.CTX_VALID s then
    match doorCheckAs (appInit c) r (ctxBase r s) 1024 .load s with
    | some cause => coreSet (3 + c) (ctxFresh r s) (ctxAbandon c r .load cause s)
    | none =>
      let t := coreSet (3 + c) (ctxOf (ctxBase r s) s) s
      if memNat (ctxBase r s + 0x298) 1 s % 4 = 2 then fset ledgB LEDG_ERR.CTX 1 t else t
  else coreSet (3 + c) (ctxFresh r s) s

/-! ### Switches (R443) -/

/-- What an initiator holds at its targets goes: its shadows (R69) and its captures (R68). -/
def initForget (k : Nat) (s : State) : State :=
  { s with bus := { s.bus with
      shadows := tkeep (fun x => x / 2 ^ 32 != k) s.bus.shadows
      captures := tkeep (fun x => x / 2 ^ 32 != k) s.bus.captures } }

/-- Orders 1–4 (R443): core `c` stops and the outgoing room's context and dirty lines are saved. -/
def parkCore (c : Nat) (s : State) : State :=
  match residentOn c s with
  | none => s
  | some r =>
    let s1 := ctxSave c r s
    let s2 := cleanLines (fun l => l.core == c && lineOf r s l && !l.code) s1
    let s3 := coreSet (3 + c) { halted := (coreGet (3 + c) s).halted } s2
    let s4 := fset (rstat r) LEDG_RSTAT.RES 0 s3
    initForget (3 + c) (fset (coreReg c) LEDG_CORE.PARKED 1 (fset (coreReg c) LEDG_CORE.ROOM 0 s4))

/-- The room consents to debug access (R646). -/
def consents (r : Nat) (s : State) : Bool := fis (0x40150000 + 4 * r) DBG_CONSENT.ALLOW s

/-- Orders 5–7 (R443): room `r` starts on the stopped core `c`, powered on first when it is gated (R580). A core that
the debug module halted is resumed first unless `r` consents (R646). -/
def startRoom (c r : Nat) (s : State) : State :=
  let moved := !(fis (rstat r) LEDG_RSTAT.RAN s) || fget (rstat r) LEDG_RSTAT.CORE s != c
  let s1 := if moved then dropLines (fun l => l.core == c && lineOf r s l) s else s
  let s0 := ctxLoad c r (pdSet (6 + c) true s1)
  let s2 := coreSet (3 + c) { coreGet (3 + c) s0 with halted := (coreGet (3 + c) s).halted && consents r s } s0
  let s3 := fset (rstat r) LEDG_RSTAT.RAN 1 (fset (rstat r) LEDG_RSTAT.CORE c (fset (rstat r) LEDG_RSTAT.RES 1 s2))
  raiseEvt 1019 (fset (coreReg c) LEDG_CORE.ROOM r (fset (coreReg c) LEDG_CORE.PARKED 0 s3))

/-- The context area of a room is aligned inside one of its SRAM windows with R and W (R449). -/
def ctxPlaced (r : Nat) (s : State) : Bool :=
  decide (0x20000000 ≤ ctxBase r s ∧ ctxBase r s + 1024 ≤ 0x20C00000) &&
  (windowsOf r s).any fun w => w.covers (ctxBase r s) 1024 && w.rights.testBit 0 && w.rights.testBit 1

/-! ### Room commands (R449) -/

/-- A room's ledger entry exists. -/
def hasEntry (r : Nat) (s : State) : Bool := (ledgerGet r s).isSome

/-- COMMIT (R445): the result and the state after. -/
def roomCommit (r : Nat) (s : State) : Nat × State :=
  let l := rdBytes (ledgB + 0x400) 72 s
  if commitOk l r s then
    let s1 := match ledgerGet r s with
      | some old =>
        if windowsNarrowed old (entryParse l) then dropLines (lineOf r s) (cleanLines (lineOf r s) s) else s
      | none => s
    (0, ledgerSet r (some (entryParse l)) s1)
  else (3, s)

/-- A core that no room holds powers off while its PWR_GATE bit is 1 (R580). -/
def coreGate (c : Nat) (s : State) : State :=
  if bitOf (rd 0x400F0010 s) c && fis (coreReg c) LEDG_CORE.PARKED s then
    pdSet (6 + c) false (dropLines (fun l => l.core == c) s)
  else s

/-- A room is suspended, parked first when it is resident (R451). -/
def suspendRoom (r : Nat) (s : State) : State :=
  let s1 := match residentCore r s with
    | some c => coreGate c (parkCore c s)
    | none => s
  fset (rstat r) LEDG_RSTAT.SUSP 1 s1

/-- SUSPEND (R451). -/
def roomSuspend (r : Nat) (s : State) : Nat × State :=
  if r = 0 then (7, s) else if !hasEntry r s then (2, s) else (0, suspendRoom r s)

/-- RESUME (R449, R451). -/
def roomResume (r : Nat) (s : State) : Nat × State :=
  if r = 0 then (7, s) else if !hasEntry r s then (2, s) else (0, fset (rstat r) LEDG_RSTAT.SUSP 0 s)

/-- SWITCH (R443, R449). -/
def roomSwitch (c r : Nat) (s : State) : Nat × State :=
  if r = 0 then (7, s)
  else if !hasEntry r s then (2, s)
  else if isSuspended r s then (5, s)
  else if residentOn c s = some r then (0, s)
  else if (residentCore r s).isSome then (4, s)
  else if !ctxPlaced r s then (6, s)
  else (0, startRoom c r (parkCore c s))

/-- The UPD block is writing room `r`'s image (R572). -/
def updHolds (r : Nat) (s : State) : Bool :=
  fget 0x400E0000 UPD_STAT.STATE s == 3 && fget 0x400E0000 UPD_STAT.KIND s == 2 && fget 0x400E0000 UPD_STAT.ROOM s == r

/-- A room command is carried out (R449): LAST_OP and RESULT report it. -/
def ledgRun (op : Nat) (f : State → Nat × State) (s : State) : State :=
  fset ledgB LEDG_STAT.LAST_OP op (fset ledgB LEDG_STAT.RESULT (f s).1 (f s).2)

/-- A room command with its key (R449, R572): refused with BUSY while one waits; one that names a room whose image
is being written waits. PARK names no room. -/
def ledgCmd (key op core room : Nat) (f : State → Nat × State) (s : State) : State :=
  if key ≠ 0x4C47 then fset ledgB LEDG_ERR.CMD 1 s
  else if fis ledgB LEDG_STAT.BUSY s then ledgRun op (fun t => (1, t)) s
  else if op ≠ 6 ∧ updHolds room s = true then
    fset ledgB LEDG_STAT.BUSY 1 { s with upd := { s.upd with waits := some ⟨op, core, room⟩ } }
  else ledgRun op f s

/-- LEDG_WAYS_LO or LEDG_WAYS_HI (R442, R460): an owner of 0 refuses the write; a way taken from a room is written
back and invalidated first. -/
def waysWrite (c : Nat) (high : Bool) (data : Word) (s : State) : State :=
  let a := ledgB + 0x40 + 8 * c + 4 * ofBool high
  let byte (v : Word) (k : Nat) : Nat := bitsOf v (8 * k) 8
  if (List.range 4).any fun k => (byte data k).testBit 7 && byte data k % 64 == 0 then
    fset ledgB LEDG_ERR.RANGE 1 s
  else
    let taken (l : CacheLine) : Bool :=
      l.core == c && l.way / 4 == ofBool high && (wayOwner c l.way s).isSome &&
      (byte data (l.way % 4) / 128 * 128 + byte data (l.way % 4) % 64 !=
        byte (rd a s) (l.way % 4) / 128 * 128 + byte (rd a s) (l.way % 4) % 64)
    wr a (data &&& 0xBFBFBFBF#32) (dropLines taken (cleanLines taken s))

/-- The watchdog page of a room (R460). -/
def wdogPage (r : Nat) : Nat := 0x40074000 + 0x100 * r

/-- WDOG_KICK (R453). -/
def wdogKick (r key : Nat) (s : State) : State :=
  if key = 0x5744 then fset (wdogPage r) WDOG_STAT.COUNT 0 s else s

/-- WDOG_CFG (R460): a MODE of 3 or a TIMEOUT of 0 refuses the write. -/
def wdogCfg (r : Nat) (data : Word) (s : State) : State :=
  if bitsOf data 16 2 = 3 ∨ bitsOf data 0 16 = 0 then fset ledgB LEDG_ERR.RANGE 1 s
  else wr (wdogPage r + 4) (data &&& 0x7FFFF#32) s

/-- The watchdog of a room counts (R453): always in MODE 2, in MODE 1 while its room is resident, and never without an
entry. -/
def wdogCounts (r : Nat) (s : State) : Bool :=
  let mode := fget (wdogPage r) WDOG_CFG.MODE s
  hasEntry r s && (mode == 2 || (mode == 1 && (r == 0 || (residentCore r s).isSome))) &&
    decide (fget (wdogPage r) WDOG_STAT.COUNT s < fget (wdogPage r) WDOG_CFG.TIMEOUT s)

/-! ### The commands -/

/-- LEDG_COMMIT (R445). -/
def execLedgCommit (i : Init) (key : BitVec 16) (room : BitVec 6) (s : State) : Host.Outcome State Fault Refusal :=
  .next (doorStore i ledgB (ledgCmd key.toNat 1 0 room.toNat (roomCommit room.toNat)) s)

/-- LEDG_SUSPEND (R451). -/
def execLedgSuspend (i : Init) (key : BitVec 16) (room : BitVec 6) (s : State) : Host.Outcome State Fault Refusal :=
  .next (doorStore i ledgB (ledgCmd key.toNat 2 0 room.toNat (roomSuspend room.toNat)) s)

/-- LEDG_RESUME (R449). -/
def execLedgResume (i : Init) (key : BitVec 16) (room : BitVec 6) (s : State) : Host.Outcome State Fault Refusal :=
  .next (doorStore i ledgB (ledgCmd key.toNat 3 0 room.toNat (roomResume room.toNat)) s)

/-- LEDG_SWITCH (R443). -/
def execLedgSwitch (i : Init) (key : BitVec 16) (core : BitVec 2) (room : BitVec 6) (s : State) :
    Host.Outcome State Fault Refusal :=
  .next (doorStore i ledgB (ledgCmd key.toNat 5 core.toNat room.toNat (roomSwitch core.toNat room.toNat)) s)

/-- LEDG_PARK (R443). -/
def execLedgPark (i : Init) (key : BitVec 16) (core : BitVec 2) (s : State) : Host.Outcome State Fault Refusal :=
  .next (doorStore i ledgB (ledgCmd key.toNat 6 core.toNat 0 (fun t => (0, coreGate core.toNat (parkCore core.toNat t)))) s)

/-- LEDG_WAYS_WRITE (R442). -/
def execLedgWaysWrite (i : Init) (core : BitVec 2) (high : Bool) (data : Word) (s : State) :
    Host.Outcome State Fault Refusal :=
  .next (doorStore i (ledgB + 0x40 + 8 * core.toNat + 4 * ofBool high) (waysWrite core.toNat high data) s)

/-- WDOG_KICK (R453). -/
def execWdogKick (i : Init) (room : BitVec 6) (key : BitVec 16) (s : State) : Host.Outcome State Fault Refusal :=
  .next (doorStore i (wdogPage room.toNat) (wdogKick room.toNat key.toNat) s)

end Sys2Proof.Machine
end

