-- ==== Sys2Proof/Machine/Fabric.lean ====
section
/-!
DEFINITION. The plan loader (R218–R233): FAB_CMD, a slot's check, the raise to the floor, the switch instant S,
domain loads, the scrubber and the digest. A licence burn's end stands here too, since it changes the digest.
-/

namespace Sys2Proof.Machine

open Reg

/-- Set the loader's own state. -/
def planPut (v : PlanState) (s : State) : State := { s with plan := v }

/-- What the loader is doing, with PHASE (R240). -/
def planWork (w : PlanWork) (s : State) : State :=
  let phase := match w with
    | .idle => 0
    | .checking _ _ => 1
    | .raising _ _ => 2
    | .waitAir _ => 3
    | .loading _ _ _ => 4
    | .scrubReload _ => 5
  fset fabB FAB_PLAN_STAT.PHASE phase (planPut { s.plan with work := w } s)

/-- The slot of the plan in use: 0 A, 1 B. -/
def activeSlot (s : State) : Nat := fget fabB FAB_PLAN_STAT.ACTIVE s - 1

/-- The plan in use, as its slot holds it. -/
def activePlan (s : State) : Option Plan := if planActive s then some (slotPlan (activeSlot s) s) else none

/-- A slot's state field (R240): 0 EMPTY, 1 UNCHECKED, 2 INVALID, 3 VALID, 4 ACTIVE. -/
def slotState (k : Nat) : Fld := if k = 0 then FAB_PLAN_STAT.A_STATE else FAB_PLAN_STAT.B_STATE

/-- A slot's state, and the sequence FAB_SEQ shows for it (R241). -/
def slotSet (k st seq : Nat) (s : State) : State :=
  fset (fabB + 4 * k) FAB_SEQ.SEQ seq (fset fabB (slotState k) st s)

/-- LAST_ERR. -/
def lastErr (code : Nat) (s : State) : State := fset fabB FAB_PLAN_STAT.LAST_ERR code s

/-- FAB_LOAD_FAIL (R236). -/
def loadFail (code : Nat) (s : State) : State := raiseEvt 796 (fset fabB FAB_ERR.LOAD_FAIL 1 (lastErr code s))

/-- A FAB_CMD that is refused with a LAST_ERR (R221, R227). -/
def fabRefuse (code : Nat) (s : State) : State := fset fabB FAB_ERR.CMD 1 (lastErr code s)

/-! ### Digest (R231–R233) -/

/-- The body SHA-256 of the running house image: room 0's measurement once it is recorded, else the stored header's. -/
def houseHash (s : State) : List Byte :=
  if unmeasured 0 s then imgHash (storedHeader 0x08040000 s) else measGet 0 1 s

/-- PLAN_DIGEST; zeros while no plan is active. -/
def digestOf (s : State) : List Byte :=
  if planActive s then
    sha256 (slotBody (activeSlot s) s ++ licBytes s.lic.otp 0 2048 ++ houseHash s)
  else List.replicate 32 0

/-- The digest and the fingerprint take their new value, and FAB_FP_CHANGE fires (R232). -/
def digestChange (s : State) : State :=
  let ws := wordsOfBytes (digestOf s)
  raiseEvt 799 (wrList (fabB + 0x60) (ws.take 2) (wrList (fabB + 0x40) ws s))

/-! ### A slot's check (R217, R218) -/

/-- A slot is checked: its state, FAB_SEQ and LAST_ERR, and the code. -/
def slotJudge (k : Nat) (s : State) : Nat × State :=
  let code := slotCheck k s
  if slotEmpty k s then (code, lastErr code (slotSet k 0 0 s))
  else if code ≠ 0 then (code, lastErr code (slotSet k 2 0 s))
  else (0, slotSet k (if planActive s ∧ activeSlot s = k then 4 else 3) (slotSeq k s) s)

/-! ### What a switch affects (R222) -/

/-- The octets of a domain's TILE section; none where the plan has none. -/
def Plan.tileSection (p : Plan) (d : Nat) : Option (List Byte) :=
  (p.sections.find? fun x => x.type == 1 && x.index == d).map fun x => x.bytes

/-- The routes that name the tiles or the slots of a lane. -/
def Plan.routesOf (p : Plan) (d : LaneDesc) : List (List Byte) :=
  let named (kind v : Nat) : Bool :=
    (kind == 1 && (laneTiles d).contains v) || (kind == 2 && (laneSlots d).contains v)
  p.routes.filter fun r => named (leAt r 0 1) (leAt r 2 2) || named (leAt r 1 1) (leAt r 4 2)

/-- Lane `n` is affected. -/
def laneAffected (old : Option Plan) (new : Plan) (n : Nat) : Bool :=
  match old with
  | none => (new.lane n).isSome
  | some p =>
    match p.lane n, new.lane n with
    | some a, some b =>
      a.raw != b.raw || p.tileSection a.desc.domain != new.tileSection a.desc.domain ||
      p.ring a.desc.queue != new.ring a.desc.queue || p.routesOf a.desc != new.routesOf a.desc
    | none, none => false
    | _, _ => true

/-- The affected lanes. -/
def lanesAffected (old : Option Plan) (new : Plan) : List Nat := (List.range 256).filter (laneAffected old new)

/-- The plan has an affected lane in domain `d`. -/
def holdsAffected (p : Plan) (ls : List Nat) (d : Nat) : Bool :=
  p.lanes.any fun r => r.desc.domain == d && ls.contains r.lane

/-- Tile domain `d` is affected; a code domain only when its section differs. -/
def domainAffected (old : Option Plan) (new : Plan) (ls : List Nat) (d : Nat) : Bool :=
  (match old with
   | some p => p.tileSection d != new.tileSection d || (decide (d < 30) && holdsAffected p ls d)
   | none => (new.tileSection d).isSome) ||
  (decide (d < 30) && holdsAffected new ls d)

/-- The affected domains. -/
def domainsAffected (old : Option Plan) (new : Plan) : List Nat :=
  let ls := lanesAffected old new
  (List.range 32).filter (domainAffected old new ls)

/-- The plan has a modulator or a canceller of a front end in one of the domains (R223). -/
def unitsIn (p : Plan) (fe : Fe) (ds : List Nat) : Bool :=
  p.tiles.any fun r => (r.func == 1 || r.func == 2) && r.owner == fe.num && ds.contains (tileDomain r.tile)

/-- The front ends on which the switch waits for the air (R223). -/
def switchFes (old : Option Plan) (new : Plan) : List Fe :=
  let ds := domainsAffected old new
  match old with
  | some p => allFe.filter fun fe => unitsIn p fe ds || unitsIn new fe ds
  | none => []

/-! ### Domain loads (R225, R226) -/

/-- FAB_DOMAINS or FAB_FAULT: one bit. -/
def domBit (f : Fld) (d : Nat) (on : Bool) (s : State) : State :=
  wr (fabB + f.off) (bitsPut (rd (fabB + f.off) s) d 1 (ofBool on)) s

/-- The lanes of a signal domain. -/
def domainLanes (d : Nat) (s : State) : List Nat :=
  (List.range 256).filter fun n => match laneDesc n s with
    | some x => x.domain == d
    | none => false

/-- A frame is being decoded on a code tile of domain `d` (R201, R229). -/
def decodesIn (d n : Nat) (s : State) : Bool :=
  match laneDesc n s, (laneGet n s).frame with
  | some x, some f => x.nSlots != 0 && tileDomain (960 + x.codeTile) == d && f.sfd.isSome &&
      (phyOfdm f.phy || f.marks &&& markCoded != 0)
  | _, _ => false

/-- A domain's reload begins (R223, R225, R229): of a signal domain the lanes that `p` selects stop; of a code
domain the frames in decoding close. -/
def domainStop (p : Nat → Bool) (d : Nat) (s : State) : State :=
  let s1 :=
    if d < 30 then ((domainLanes d s).filter p).foldl (fun t n => laneDomainStop n t) s
    else (List.range 256).foldl
      (fun t n => if decodesIn d n t then laneCut n 3 (sidx (laneFe n t) t) t else t) s
  domBit FAB_DOMAINS.MASK d false s1

/-- The canceller's coefficients go with a reload of its domain (R296). -/
def cancelClear (d : Nat) (s : State) : State :=
  s.plan.units.foldl
    (fun t u => if u.1 = 2 ∧ u.2.2 = d then fdxClear (if u.2.1 = 0 then .a else .b) t else t) s

/-- A domain's content in the slot matches every CFG_CRC (R225). -/
def domainMatches (p : Plan) (d : Nat) : Bool :=
  p.tiles.all fun r => tileDomain r.tile != d || crc32c r.content == r.crc

/-- A domain's load ends (R225): its stopped lanes restart, or it faults and its lanes stop. -/
def domainLoaded (newEpoch : Bool) (d : Nat) (s : State) : State :=
  match activePlan s with
  | none => s
  | some p =>
    if domainMatches p d then
      let s1 := cancelClear d (pdSet (42 + d) true (domBit FAB_FAULT.MASK d false (domBit FAB_DOMAINS.MASK d true s)))
      ((domainLanes d s1).filter fun n => laneState n s1 == 0).foldl (fun t n => laneDomainStart newEpoch n t) s1
    else
      let s1 := domainStop (fun _ => true) d (cancelClear d (pdSet (42 + d) false (domBit FAB_FAULT.MASK d true s)))
      raiseEvt 797 (fset fabB FAB_ERR.DOMAIN_FAULT 1 (fset fabB FAB_PLAN_STAT.ERR_DOMAIN d (lastErr 16 s1)))

/-- The loads are done (R223, R230, R664): the digest of a load at start, and FAB_PLAN_DONE. -/
def loadsDone (event start : Bool) (s : State) : State :=
  let s1 := if start then digestChange s else s
  let s2 := if event then raiseEvt 795 s1 else s1
  planWork .idle (planPut { s2.plan with scrubAt := 0 } s2)

/-- Loads that stand, or their end. -/
def loadNext (left : List Nat) (event start : Bool) (s : State) : State :=
  if left.isEmpty then loadsDone event start s else planWork (.loading left event start) s

/-- DOMAIN_LOAD_DONE: the first domain that waits has loaded. A load at start waits for the step down to the
ceiling (R664). -/
def domainLoadDone (s : State) : State :=
  match s.plan.work with
  | .loading (d :: r) event start =>
    if start ∧ vCeil s < vNow s ∧ fis pwrB PWR_ERR.VFAIL s = false then s
    else loadNext r event start (domainLoaded (!start) d s)
  | .scrubReload (d :: r) =>
    let s1 := domainLoaded true d s
    if r.isEmpty then loadsDone false false s1 else planWork (.scrubReload r) s1
  | _ => s

/-! ### The switch (R223, R224) -/

/-- EVT_ROUTE of an entry of the EVENTS section (R214, R461). -/
def routeWord (e : Nat × Nat × Nat × Nat) : Word := BitVec.ofNat 32 (e.1 + 2 ^ 8 * e.2.1 + 2 ^ 16 * e.2.2.1)

/-- The events whose entries change. -/
def routesChanged (new : List Word) (s : State) : List Nat :=
  (List.range 1024).filter fun e => evtRoute e s != new.getD e 0

/-- The routing table is replaced (R459): a pending event whose entry changes moves to its new destinations. -/
def routesReplace (new : List Word) (s : State) : State :=
  let changed := routesChanged new s
  let moved := changed.filter fun e => s.rooms.dests.any fun d => d.2.pend.contains e
  let s1 := (s.rooms.dests.map fun d => d.1).foldl
    (fun t d => destSet d { destGet d t with pend := (destGet d t).pend.filter fun e => !moved.contains e } t) s
  let s2 := wrList 0x40081000 new s1
  moved.foldl (fun t e => raiseEvt e t) s2

/-- The routing table of a plan, with the channels whose home changes flushed and released (R459, R474). -/
def planRoutes (new : List Word) (s : State) : State :=
  let s1 := routesReplace new s
  (List.range 64).foldl (fun t c => if phHome c s != phHome c s1 then phHomeChanged c t else t) s1

/-- The ledger of a plan replaces the old one whole (R223, R224). -/
def planLedger (p : Plan) (s : State) : State := (List.range 64).foldl (fun t r => ledgerSet r (p.entry r) t) s

/-- The rings whose carve entry changes are flushed and carved anew; a job that has claimed a packet of one ends
with ABORT_PLAN (R223, R359). -/
def planQueues (p : Plan) (s : State) : State :=
  (List.range 320).foldl
    (fun t q =>
      if rd (0x40040400 + 4 * q) t = p.ring q then t
      else queCarve q (p.ring q) (jobsEnd (fun r _ j => q == 256 + r && j.pkt.isSome) 8 t)) s

/-- The resident rooms that have no entry any more are parked (R224, R441). -/
def parkStrays (s : State) : State :=
  (List.range 4).foldl
    (fun t c => match residentOn c t with
      | some r => if hasEntry r t then t else parkCore c t
      | none => t) s

/-- Numbers without repeats, in their order. -/
def unique : List (Nat × Nat × Nat) → List (Nat × Nat × Nat)
  | [] => []
  | a :: r => a :: (unique r).filter fun b => b != a

/-- The modulators, cancellers and surveys of a plan, with their domains (R209). -/
def Plan.units (p : Plan) : List (Nat × Nat × Nat) :=
  unique ((p.tiles.filter fun r => decide (1 ≤ r.func) && decide (r.func ≤ 3)).map fun r =>
    (r.func, r.owner, tileDomain r.tile))

/-- The lane descriptors of a plan, by lane. -/
def Plan.laneTable (p : Plan) : Tbl (Option LaneDesc) :=
  p.lanes.foldl (fun t r => tset (fun _ => none) t r.lane (some r.desc)) []

/-- Affected lanes take their new descriptors, or none (R249). -/
def planLanes (p : Plan) (ls : List Nat) (s : State) : State :=
  ls.foldl (fun t n => match p.lane n with
    | some r => laneDefine n r.desc t
    | none => laneUndefine n t) s

/-- The limits, the gain budget and the power policy of a plan (R215, R216, R243). -/
def planLimits (p : Plan) (s : State) : State :=
  let keep := (List.range 3).foldl (fun t k => tset (fun _ => 0) t k (p.keep.getD k 0)) ([] : Tbl Nat)
  let s1 := fset fabB FAB_LIMITS.FLOOR p.floor (fset fabB FAB_LIMITS.CEIL p.ceil
    (fset fabB FAB_LIMITS.BUDGET p.budget (fset fabB FAB_LIMITS.STEP_MAX p.stepMax s)))
  let s2 := allFe.foldl (fun t fe => fset (chzB fe) CHZ_WIN.BUDGET p.budget t) s1
  planPut { s2.plan with keep := keep } s2

/-- The slots' states at S (R218): the old plan's slot is VALID again unless its check has failed since. -/
def slotsSwitch (k : Nat) (s : State) : State :=
  let s1 := if planActive s ∧ fget fabB (slotState (activeSlot s)) s = 4 then
      fset fabB (slotState (activeSlot s)) 3 s else s
  fset fabB FAB_PLAN_STAT.ACTIVE (k + 1) (fset fabB (slotState k) 4 s1)

/-- Domains the new plan leaves unused are powered off, and their fault bits cleared (R203, R223, R242). -/
def unusedOff (p : Plan) (s : State) : State :=
  (List.range 32).foldl
    (fun t d => if (p.tileSection d).isSome then t
      else pdSet (42 + d) false (domBit FAB_FAULT.MASK d false (domBit FAB_DOMAINS.MASK d false t))) s

/-- The switch instant S (R223): slot `k`'s plan takes the place of the old one, and the loads begin. -/
def planSwitch (k : Nat) (start : Bool) (s : State) : State :=
  let new := slotPlan k s
  let old := activePlan s
  let ls := lanesAffected old new
  let ds := domainsAffected old new
  -- the jobs armed on the front ends concerned, the affected lanes and domains
  let s1 := (switchFes old new).foldl
    (fun t fe => jobsEnd (fun _ _ j => j.fe == fe && j.kind != 1) 8 (airAbort fe 8 t)) s
  let s2 := ds.foldl (fun t d => domainStop (fun n => ls.contains n) d t) s1
  -- the new plan's sections
  let s3 := slotsSwitch k (planPut
    { s2.plan with
      seq := slotSeq k s
      lanes := new.laneTable
      units := new.units } s2)
  let s4 := planLimits new (planQueues new (planLanes new ls s3))
  let s5 := parkStrays (planRoutes (new.events.map routeWord) (planLedger new s4))
  let s6 := unusedOff new (if start then s5 else digestChange s5)
  vManage (loadNext (ds.filter fun d => (new.tileSection d).isSome) true start s6)

/-- A frame is on air on a front end (R223). -/
def airBusy (s : State) (fe : Fe) : Bool := (feGet fe s).onAir

/-- PLAN_SWITCH: the first tick with no frame on air where it matters (R223). -/
def planSwitchDue (s : State) : State :=
  match s.plan.work with
  | .waitAir k => if (switchFes (activePlan s) (slotPlan k s)).any (airBusy s) then s else planSwitch k false s
  | _ => s

/-! ### Activation (R221, R223) -/

/-- The activation or the load of slot `k` ends with VCORE (R223, R664): at start the other slot is tried. -/
def raiseFailed (tryOther : Nat → State → State) (k : Nat) (start : Bool) (s : State) : State :=
  let s1 := planWork .idle (loadFail 17 { s with pow := { s.pow with goal := none } })
  if start then tryOther (1 - k) s1 else s1

/-- VCORE lies at or above the floor: the switch follows, at once at start (R664), else when the air is free. -/
def planRaised (k : Nat) (start : Bool) (s : State) : State :=
  let s1 := { s with pow := { s.pow with goal := none } }
  if start then planSwitch k true s1 else planWork (.waitAir k) s1

/-- No request can be made until the Steward acts (R592, R591). -/
def vStopped (s : State) : Bool := fis pwrB PWR_ERR.VFAIL s || !fis pmbB PMB_STAT.VALID s

/-- A valid slot's plan is taken up: VCORE is raised to its floor first (R223, R664). -/
def planRaise (tryOther : Nat → State → State) (k : Nat) (start : Bool) (s : State) : State :=
  let floor := (slotPlan k s).floor
  if floor ≤ vNow s then planRaised k start s
  else if vStopped s then raiseFailed tryOther k start s
  else vManage (planWork (.raising k start) { s with pow := { s.pow with goal := some floor } })

/-- The other slot at start, loaded when it is valid and VCORE lies within its floor and ceiling (R664). -/
def startOther (k : Nat) (s : State) : State :=
  let p := slotPlan k s
  if fget fabB (slotState k) s = 3 ∧ p.floor ≤ vNow s ∧ vNow s ≤ p.ceil then planRaised k true s else s

/-- VCORE has moved or a request has failed while the loader raises it (R223, R664). -/
def raiseStep (s : State) : State :=
  match s.plan.work with
  | .raising k start =>
    if (slotPlan k s).floor ≤ vNow s then planRaised k start s
    else if vStopped s then raiseFailed startOther k start s
    else s
  | _ => s

/-- PLAN_CHECK_DONE (R217, R221, R227). -/
def planChecked (s : State) : State :=
  match s.plan.work with
  | .checking k activate =>
    let r := slotJudge k s
    if activate then
      if r.1 = 0 then planRaise (fun _ t => t) k false r.2
      else planWork .idle (loadFail r.1 r.2)
    else planWork .idle (raiseEvt 798 r.2)
  | _ => s

/-- The load at start (R220, R664): both slots are checked, and one is loaded. -/
def planStart (s : State) : State :=
  let a := slotJudge 0 s
  let s1 := if a.1 ≠ 0 ∧ slotEmpty 0 s = false then loadFail a.1 a.2 else a.2
  let b := slotJudge 1 s1
  let s2 := if b.1 ≠ 0 ∧ slotEmpty 1 s = false then loadFail b.1 b.2 else b.2
  if a.1 = 0 ∧ b.1 = 0 then
    if seqNewer (slotSeq 1 s) (slotSeq 0 s) then planRaise startOther 1 true s2
    else planRaise startOther 0 true
      (fset fabB FAB_PLAN_STAT.TIE (ofBool (!seqNewer (slotSeq 0 s) (slotSeq 1 s))) s2)
  else if a.1 = 0 then planRaise startOther 0 true s2
  else if b.1 = 0 then planRaise startOther 1 true s2
  else s2

/-- A Steward write of FAB_CMD (R221, R227, R239). -/
def fabCmd (data : Word) (s : State) : State :=
  let k := bitsOf data 4 1
  let d := bitsOf data 8 5
  let ops := bitsOf data 0 3
  if bitsOf data 16 16 ≠ 0x4641 ∨ ops = 3 ∨ 5 ≤ ops then fset fabB FAB_ERR.CMD 1 s
  else if ops = 0 then s
  else if s.plan.work ≠ .idle then fabRefuse 15 s
  else if ops = 1 then
    if planActive s ∧ (activeSlot s = k ∨ (slotEmpty k s = false ∧ seqNewer (slotSeq k s) s.plan.seq = false)) then
      fabRefuse 14 s
    else planWork (.checking k true) s
  else if ops = 2 then planWork (.checking k false) s
  else
    match activePlan s with
    | none => fabRefuse 6 s
    | some p =>
      if (p.tileSection d).isNone then fabRefuse 6 s
      else planWork (.loading [d] false false) (domainStop (fun _ => true) d s)

/-! ### Scrubbing (R228–R230) -/

/-- The tiles the scrubber reads: those of loaded domains, in ascending order. -/
def scrubTiles (s : State) : List Nat :=
  match activePlan s with
  | some p => (List.range 1024).filter fun t =>
      (p.tile t).isSome && (fget fabB FAB_DOMAINS.MASK s).testBit (tileDomain t)
  | none => []

/-- The scrubber reads the next tile; `upset` tells whether its CRC differs (R228, R229). -/
def scrubRead (upset : Bool) (s : State) : State :=
  if !fis fabB FAB_CTRL.SCRUB_EN s || s.plan.work != .idle then s
  else
    match (scrubTiles s).find? fun t => decide (s.plan.scrubAt ≤ t) with
    | none => s
    | some t =>
      let last := !((scrubTiles s).any fun u => decide (t < u))
      let s1 := planPut { s.plan with scrubAt := if last then 0 else t + 1 } s
      let s2 := if last then fnext fabB FAB_SCRUB.PASS_CNT s1 else s1
      if upset then
        let d := tileDomain t
        let s3 := fset fabB FAB_ERR.SCRUB_FIX 1 (fset fabB FAB_SCRUB_LAST.TILE t (fcount fabB FAB_SCRUB.FIX_CNT s2))
        planWork (.scrubReload [d]) (domainStop (fun _ => true) d (raiseEvt 794 s3))
      else s2

/-- A word of the tile window (R204): tile `t` at offset `off`. -/
def tileView (t off : Nat) (s : State) : Word :=
  match activePlan s with
  | none => 0
  | some p =>
    match p.tile t with
    | none => 0
    | some r =>
      let o := if r.kind = 0 then off else off - 0x400
      if (r.kind = 0 ∨ 0x400 ≤ off) ∧ o + 4 ≤ r.content.length then BitVec.ofNat 32 (leAt r.content o 4) else 0

/-! ### A licence burn's end (R148, R232) -/

/-- What a burn that does not read back leaves programmed: the spec states no octet of it, so each is free. -/
def burnGarbled (s : State) : Tbl Byte :=
  (freeBytes 2048 s).zipIdx.foldl (fun t e => tset (fun _ => (0 : Byte)) t e.2 e.1) []

/-- The burn ends with read-back: LOCKED with its number of entries (R161), or FAULT with BURN_ERR 5; the digest changes when a plan is active. -/
def licBurnDone (readBack : Bool) (s : State) : State :=
  if licState s = 1 then
    let s2 :=
      if readBack then fset (feB .a) LIC_STAT.N_ENTRIES (licByte s.lic.stage 5)
        (fset (feB .a) LIC_STAT.STATE 2 { s with lic := { s.lic with otp := s.lic.stage } })
      else fset (feB .a) LIC_STAT.BURN_ERR 5 (fset (feB .a) LIC_STAT.STATE 4
        (drawFree { s with lic := { s.lic with otp := burnGarbled s } }))
    if planActive s2 then digestChange s2 else s2
  else s

/-! ### The commands -/

/-- A FAB_CMD word. -/
def fabWord (key domain slot ops : Nat) : Word := BitVec.ofNat 32 (key * 2 ^ 16 + domain * 2 ^ 8 + slot * 2 ^ 4 + ops)

/-- FAB_ACTIVATE (R221). -/
def execFabActivate (i : Init) (key : BitVec 16) (slot : BitVec 1) (s : State) : Host.Outcome State Fault Refusal :=
  .next (doorStore i (fabB + 4) (fabCmd (fabWord key.toNat 0 slot.toNat 1)) s)

/-- FAB_CHECK (R227). -/
def execFabCheck (i : Init) (key : BitVec 16) (slot : BitVec 1) (s : State) : Host.Outcome State Fault Refusal :=
  .next (doorStore i (fabB + 4) (fabCmd (fabWord key.toNat 0 slot.toNat 2)) s)

/-- FAB_RELOAD (R227). -/
def execFabReload (i : Init) (key : BitVec 16) (domain : BitVec 5) (s : State) : Host.Outcome State Fault Refusal :=
  .next (doorStore i (fabB + 4) (fabCmd (fabWord key.toNat domain.toNat 0 4)) s)

/-- PLAN_CHECK_DONE (R217). -/
def execPlanCheckDone (s : State) : Host.Outcome State Fault Refusal := .next (planChecked s)

/-- PLAN_SWITCH (R223). -/
def execPlanSwitch (s : State) : Host.Outcome State Fault Refusal := .next (planSwitchDue s)

/-- DOMAIN_LOAD_DONE (R225). -/
def execDomainLoadDone (s : State) : Host.Outcome State Fault Refusal := .next (domainLoadDone s)

/-- SCRUB_TILE_READ (R228). -/
def execScrubTileRead (upset : Bool) (s : State) : Host.Outcome State Fault Refusal := .next (scrubRead upset s)

/-- LIC_BURN_DONE (R148). -/
def execLicBurnDone (readBack : Bool) (s : State) : Host.Outcome State Fault Refusal := .next (licBurnDone readBack s)

end Sys2Proof.Machine
end

