-- ==== Sys2Proof/Machine/Halves.lean ====
section
/-!
DEFINITION. What each initiator holds of 64-bit registers: the shadows of counters read low half first (R6, R69,
R70), the captures of snapshot groups (R68) and the staging registers of writable pairs (R71).
-/

namespace Sys2Proof.Machine

/-- The key under which initiator `i` holds something of address `a`. -/
def holdKey (i : Init) (a : Nat) : Nat := i.num * 2 ^ 32 + a

/-- The shadow initiator `i` holds for the high half at `a`; 0 while it has read no low half (R70). -/
def shadowGet (i : Init) (a : Nat) (s : State) : Word := tget (fun _ => (0 : Word)) s.bus.shadows (holdKey i a)

/-- Latch a high half (R6). -/
def shadowPut (i : Init) (a : Nat) (v : Word) (s : State) : State :=
  { s with bus := { s.bus with shadows := tset (fun _ => (0 : Word)) s.bus.shadows (holdKey i a) v } }

/-- What initiator `i` captured of the register at `a`; none while it holds no capture (R68). -/
def captureGet (i : Init) (a : Nat) (s : State) : Option Word :=
  tget (fun _ => (none : Option Word)) s.bus.captures (holdKey i a)

/-- Capture a register of a snapshot group. -/
def capturePut (i : Init) (a : Nat) (v : Word) (s : State) : State :=
  { s with bus := { s.bus with captures := tset (fun _ => (none : Option Word)) s.bus.captures (holdKey i a) (some v) } }

/-- The staged low half for the low register at `a` (R71); 0 after power-on and after each commit. -/
def stagedGet (i : Init) (a : Nat) (s : State) : Word := tget (fun _ => (0 : Word)) s.bus.staged (holdKey i a)

/-- Stage a low half. -/
def stagedPut (i : Init) (a : Nat) (v : Word) (s : State) : State :=
  { s with bus := { s.bus with staged := tset (fun _ => (0 : Word)) s.bus.staged (holdKey i a) v } }

/-- A high-half write at `a + 4` (R71): the 64-bit value it commits, and the staging register back at 0, whether or
not the commit is refused. -/
def stagedTake (i : Init) (a : Nat) (high : Word) (s : State) : Word64 × State :=
  (Word64.ofHalves (stagedGet i a s) high, stagedPut i a 0 s)

/-- Everything an initiator's reads latched from addresses that satisfy `p` goes, as when a power domain powers up
(R68). -/
def dropCaptures (p : Nat → Bool) (s : State) : State :=
  { s with bus := { s.bus with captures := tkeep (fun k => !p (k % 2 ^ 32)) s.bus.captures } }

end Sys2Proof.Machine
end

