-- ==== Sys2Proof/Machine/Mac.lean ====
section
/-!
DEFINITION. IEEE 802.15.4-2020 MAC frames, to which the spec defers (R324, R326, R327, R330, R331): parsing, the
acknowledgements, the FCS and CCM* over a frame.
-/

namespace Sys2Proof.Machine

/-- A parsed frame. Address modes: 0 none, 2 short, 3 extended. -/
structure MacFrame where
  ftype : Nat
  version : Nat
  secured : Bool
  pending : Bool
  ar : Bool
  seq : Option Nat
  dstMode : Nat
  dstPan : Option Nat
  dst : Nat
  srcMode : Nat
  srcPan : Option Nat
  src : Nat
  level : Nat := 0
  keyMode : Nat := 0
  /-- the auxiliary header's key source and index octets -/
  keyId : List Byte := []
  /-- the frame counter; none when it is suppressed -/
  fc : Option Nat := none
  /-- header IEs -/
  ies : List (Nat × List Byte) := []
  /-- octets of the MHR, IEs included -/
  hdrLen : Nat := 0
  deriving DecidableEq, Repr

/-- `n` octets as a little-endian number, and the rest. -/
def leTake (n : Nat) (l : List Byte) : Option (Nat × List Byte) :=
  if l.length < n then none else some (ofLeBytes (l.take n), l.drop n)

/-- An optional field. -/
def optTake (here : Bool) (n : Nat) (l : List Byte) : Option (Option Nat × List Byte) :=
  if here then (leTake n l).map fun r => (some r.1, r.2) else some (none, l)

/-- Octets of an address. -/
def addrLen (mode : Nat) : Nat := if mode = 2 then 2 else if mode = 3 then 8 else 0

/-- Which PAN IDs a frame carries: destination and source. -/
def panHere (version dst src : Nat) (comp : Bool) : Bool × Bool :=
  let d := dst != 0
  let s := src != 0
  if version ≠ 2 then (d, s && !(comp && d))
  else if !d && !s then (comp, false)
  else if d && !s then (!comp, false)
  else if s && !d then (false, !comp)
  else if dst = 3 ∧ src = 3 then (!comp, false)
  else (true, !comp)

/-- Header IEs up to `room` octets before the end of the list: those found, and the octets they take. -/
def iesParse (room : Nat) : Nat → List Byte → Option (List (Nat × List Byte) × List Byte)
  | 0, l => some ([], l)
  | n + 1, l =>
    if l.length ≤ room then some ([], l)
    else match leTake 2 l with
      | none => none
      | some (d, r) =>
        let len := d % 128
        let id := d / 128 % 256
        if 2 ^ 15 ≤ d ∨ r.length < len + room then none
        else if id = 0x7E ∨ id = 0x7F then some ([], r.drop len)
        else (iesParse room n (r.drop len)).map fun x => ((id, r.take len) :: x.1, x.2)

/-- The auxiliary security header: level, key mode, counter, key identifier octets, and the rest. -/
def auxParse (version : Nat) (l : List Byte) : Option (Nat × Nat × Option Nat × List Byte × List Byte) :=
  match leTake 1 l with
  | none => none
  | some (sc, l1) =>
    let mode := sc / 8 % 4
    let supp := version == 2 && sc.testBit 5
    match optTake (!supp) 4 l1 with
    | none => none
    | some (fc, l2) =>
      let n := [0, 1, 5, 9].getD mode 0
      if l2.length < n then none else some (sc % 8, mode, fc, l2.take n, l2.drop n)

/-- A PAN ID and an address, where they are carried. -/
def addrParse (pan : Bool) (mode : Nat) (l : List Byte) : Option (Option Nat × Nat × List Byte) :=
  match optTake pan 2 l with
  | none => none
  | some (p, l1) =>
    match leTake (addrLen mode) l1 with
    | none => none
    | some (a, l2) => some (p, a, l2)

/-- The octets of a MIC (R331). -/
def macMic (f : MacFrame) : Nat := if f.secured then [0, 4, 8, 16].getD (f.level % 4) 0 else 0

/-- The auxiliary header and IEs of a frame whose addresses are parsed. -/
def macTail (whole : Nat) (ie : Bool) (f : MacFrame) (l : List Byte) : Option MacFrame :=
  let aux := if f.secured then
      (auxParse f.version l).map fun a =>
        ({ f with level := a.1, keyMode := a.2.1, fc := a.2.2.1, keyId := a.2.2.2.1 }, a.2.2.2.2)
    else some (f, l)
  match aux with
  | none => none
  | some (g, r) =>
    if r.length < macMic g then none
    else match (if ie then iesParse (macMic g) r.length r else some ([], r)) with
      | none => none
      | some (ies, rest) => some { g with ies := ies, hdrLen := whole - rest.length }

/-- A PSDU without FCS parsed (R330): frame versions 0b01 and 0b10 with the four frame types, and an acknowledgement
of version 0b00; none when it is UNPARSED. -/
def macParse (l : List Byte) : Option MacFrame :=
  match leTake 2 l with
  | none => none
  | some (c, l1) =>
    let ftype := c % 8
    let version := c / 2 ^ 12 % 4
    let dm := c / 2 ^ 10 % 4
    let sm := c / 2 ^ 14 % 4
    let v15 := version == 2
    if 3 < ftype ∨ ¬(version = 1 ∨ version = 2 ∨ (version = 0 ∧ ftype = 2)) ∨ dm = 1 ∨ sm = 1 then none
    else
      match optTake (!(v15 && c.testBit 8)) 1 l1 with
      | none => none
      | some (seq, l2) =>
        let ph := panHere version dm sm (c.testBit 6)
        match addrParse ph.1 dm l2 with
        | none => none
        | some (dp, da, l3) =>
          match addrParse ph.2 sm l3 with
          | none => none
          | some (sp, sa, l4) =>
            macTail l.length (v15 && c.testBit 9)
              { ftype := ftype, version := version, secured := c.testBit 3, pending := c.testBit 4, ar := c.testBit 5,
                seq := seq, dstMode := dm, dstPan := dp, dst := da, srcMode := sm, srcPan := sp, src := sa } l4

/-- The FCS of octets: CRC-32 in 4 octets, computed with zero octets up to 4, or the ITU-T CRC-16 in 2. -/
def macFcs (n : Nat) (l : List Byte) : List Byte :=
  if n = 4 then
    leBytes 4 (crcRefl 0xEDB88320 0xFFFFFFFF (l ++ List.replicate (4 - l.length) 0) ^^^ 0xFFFFFFFF)
  else leBytes 2 (crcRefl 0x8408 0 l)

/-- The CCM* nonce: the extended address, the frame counter, the security level (R331, R494). -/
def macNonce (ext fc level : Nat) : List Byte := beBytes 8 ext ++ beBytes 4 fc ++ [BitVec.ofNat 8 level]

/-- A frame secured (R319, R331): levels 4–7 encrypt what follows the header, and the MIC is appended. -/
def macSecure (key : List Byte) (ext fc level hdr : Nat) (plain : List Byte) : List Byte :=
  let n := macNonce ext fc level
  let tlen := [0, 4, 8, 16].getD (level % 4) 0
  if 4 ≤ level then
    plain.take hdr ++ ccmCrypt key n (plain.drop hdr) ++ ccmTag key n (plain.take hdr) (plain.drop hdr) tlen
  else plain ++ ccmTag key n plain [] tlen

/-- A frame unsecured, without its MIC; none when the MIC is wrong (R331). -/
def macUnsecure (key : List Byte) (ext fc level hdr : Nat) (l : List Byte) : Option (List Byte) :=
  let n := macNonce ext fc level
  let tlen := [0, 4, 8, 16].getD (level % 4) 0
  let body := l.take (l.length - tlen)
  let mic := l.drop (l.length - tlen)
  let a := if 4 ≤ level then body.take hdr else body
  let m := if 4 ≤ level then ccmCrypt key n (body.drop hdr) else []
  if ccmTag key n a m tlen = mic then some (a ++ m) else none

/-- The Imm-Ack of a frame (R326). -/
def immAck (f : MacFrame) (pending : Bool) : List Byte :=
  leBytes 2 (2 + ofBool pending * 16) ++ leBytes 1 (f.seq.getD 0)

/-- A header IE: 7 bits of length, 8 of element ID. -/
def headerIe (id : Nat) (content : List Byte) : List Byte := leBytes 2 (content.length + 128 * id) ++ content

/-- The Enh-Ack of a frame (R327), before its counter and MIC, with the offset of the counter: `ies` are its header
IEs. -/
def enhAck (f : MacFrame) (pending : Bool) (ies : List Byte) : List Byte × Nat :=
  let src := f.srcMode != 0
  let c := 2 + ofBool f.secured * 8 + ofBool pending * 16 + ofBool src * 64 + ofBool f.seq.isNone * 256 +
    ofBool (!ies.isEmpty) * 512 + f.srcMode * 1024 + 2 * 4096
  let head := leBytes 2 c ++ (match f.seq with
    | some q => leBytes 1 q
    | none => []) ++ leBytes (addrLen f.srcMode) f.src
  let aux := if f.secured then leBytes 1 (f.level + 8 * f.keyMode) ++ leBytes 4 0 ++ f.keyId else []
  (head ++ aux ++ ies, head.length + 1)

end Sys2Proof.Machine
end

