-- ==== Sys2Proof/Machine/LinkTx.lean ====
section
/-!
DEFINITION. Frame jobs from their post to their end (R311–R325, R328, R335–R337), aborts by loss of lock and of the
reference (R101, R102), and the neighbour table's commands (R332, R343).
-/

namespace Sys2Proof.Machine

open Reg

/-! ### The post (R316) -/

/-- A lane a job names is defined, ACTIVE, on its front end and granted to the room. -/
def jobLaneOk (r : Nat) (fe : Fe) (n : Nat) (s : State) : Bool :=
  laneDefined n s && laneState n s == 2 && laneFe n s == fe && (r == 0 || grantsLane n r s)

/-- A lane's channel centre in Hz (R258). -/
def laneCentre (n : Nat) (s : State) : Int :=
  (rd (feB (laneFe n s) + 0x10) s).toNat + ((laneBin n s + laneBins n s / 2 : Nat) - 512 : Int) * 93750 +
    fgetS (laneP n) LANE_FINE.FINE_HZ s

/-- A lane serves a channel of a PHY mode (R255, R324): the same mode, and the centre within its capture range. -/
def laneServes (n phy : Nat) (centre : Int) (s : State) : Bool :=
  lanePhy n s == phy &&
    decide (2 * (centre - laneCentre n s).natAbs + occupied phy (fget (laneP n) LANE_MODE.H_Q s) ≤ laneBins n s * 93750)

/-- The security level of the packet a job of a room would claim: the octet before FC_OFS. -/
def packetLevel (r : Nat) (j : Job) (s : State) : Nat :=
  match j.sec, queUnclaimed (256 + r) s with
  | true, some p =>
    match ((packetOctets (quePacketWords (256 + r) p s)).drop (j.fcOfs - 1)).head? with
    | some b => if j.fcOfs = 0 then 0 else b.toNat % 8
    | none => 0
  | _, _ => 0

/-- Check 2 of R316: codes, reserved zeros and ranges, and of a LAST_GASP job the limits of R338 and R613. -/
def jobFormatOk (r : Nat) (j : Job) (level : Nat) (s : State) : Bool :=
  let tx := j.kind != 1
  decide (j.kind ≠ 3 ∧ j.timing ≠ 3 ∧ j.ccaAsked ≠ 3 ∧ j.bits 3 0 1 = 0) &&
  (!tx || decide (j.bits 5 11 5 = 0 ∧ j.bits 6 7 9 = 0)) &&
  phyListed j.phy && (!phyOqpsk j.phy || (j.fe == .b && j.fcs == 2)) && mcsDefined j.phy j.mcs &&
  !(decide (j.timing = 0) && (decide (j.ccaAsked = 2) || decide (j.retriesAsked ≠ 0))) &&
  (j.kind != 2 || (decide (r = 0 ∧ j.timing = 2 ∧ j.ccaAsked ≠ 2) && j.fe == .a && phyFsk j.phy)) &&
  (if tx then
    (!phyFsk j.phy || decide (4 ≤ j.pre)) &&
    (j.ccaAsked == 0 || jobLaneOk r j.fe j.lane s) &&
    (!j.ackReq || (jobLaneOk r j.fe j.ackLane s && laneServes j.ackLane j.phy (j.centre s) s)) &&
    decide (j.psduLen level ≤ (if j.kind = 2 then min 256 (maxPsdu j.phy) else maxPsdu j.phy))
  else decide (1 ≤ j.winUs) && jobLaneOk r j.fe j.lane s)

/-- Check 5 of R316: the channel lies inside the usable span and the front end's range (R75, R78). -/
def jobChannelOk (j : Job) (s : State) : Bool :=
  let hq := Config.txIndex j.phy
  let e := bandEdges (j.centre s) j.phy hq
  decide (40 * (signedOf 32 (j.bits 2 0 32)).natAbs + 20 * occupied j.phy hq ≤ 21 * feWidth j.fe s) &&
    decide ((feRange j.fe).1 ≤ e.1 ∧ e.2 ≤ (feRange j.fe).1 + (feRange j.fe).2)

/-- Checks 3 to 10 of R316: the code of the first that fails, or the governing licence entry. -/
def jobTxChecks (r : Nat) (j : Job) (s : State) : Except Nat Nat :=
  if j.sec ∧ slotForJob r j.keySlot s = false then .error 27
  else if j.power < -80 then .error 26
  else if jobChannelOk j s = false then .error 25
  else licCheck (j.centre s) j.phy (Config.txIndex j.phy) j.frame none s

/-- The attempt starts over: nb = 0, and B or, without CCA, the decision tick, from tick `t` (R323). -/
def attemptStart (r : Nat) (j : Job) (t : Nat) (first : Bool) (s : State) : Job × State :=
  let be := fget (jobB r) PORT_CSMA.MIN_BE s
  let c := j.cca s
  let j1 := { j with nb := 0, be := be, clear := false }
  if j.timing = 0 then
    ({ j1 with start := if c.1 = 0 then j.at_ - feLead j.fe s
      else ticksUp (5 * (j.at_ - feLead j.fe s - 12288) - 2048 * listenLen c.2.2) }, s)
  else if c.1 = 2 then
    ({ j1 with start := t + freeNat s % 2 ^ be * fget (jobB r) PORT_CSMA.UNIT s }, drawFree s)
  else ({ j1 with start := if c.1 = 0 ∧ first then t - feLead j.fe s else t }, s)

/-- A job is accepted into its slot (R315, R317, R336, R344). -/
def jobAccept (r k : Nat) (j : Job) (s : State) : State :=
  let a := attemptStart r j j.at_ true s
  let b := slotRegs r k
  let s1 := wr (b + 0x4C) 0 (wr (b + 0x48) 0 (wr (b + 0x44) 0 (wr (b + 0x40) 0 a.2)))
  let s2 := fset b JOB_RES.WIDE (ofBool (decide (0 < j.widen))) (fset b JOB_RES.STATE 1 (fset b JOB_RES.TAG j.tag s1))
  let s3 := match j.pkt with
    | some p => queClaim (256 + r) p s2
    | none => s2
  let put := fun t => jobPut r k (some a.1) t
  let s4 := if j.hold = 0 then put s3 else dutyChange (licGet j.entry 0x10 1 s) put s3
  armedShow j.fe s4

/-- A post that a check refuses (R316, R340): the slot is DONE with the code. -/
def jobRefuse (r k code : Nat) (j : Job) (s : State) : State :=
  let b := slotRegs r k
  let s1 := wr (b + 0x4C) 0 (wr (b + 0x48) 0 (wr (b + 0x44) 0 (wr (b + 0x40) 0 s)))
  let s2 := fset b JOB_RES.TAG j.tag s1
  let s3 := if 16 ≤ code ∧ code ≤ 20 then linkNote LINK_NOTE.LIC s2 else s2
  jobDone r k code (jobPut r k (some j) s3)

/-- W of an RX_WIN job (R329). -/
def rxWinWiden (j : Job) (s : State) : Nat :=
  widening (j.at_ - (if j.ref = 0 ∨ j.at_ < j.ref then j.accepted else j.ref)) s

/-- The checks of R316 from check 2 on, and the acceptance. -/
def jobChecked (r k : Nat) (j0 : Job) (now : Nat) (s : State) : State :=
  let level := packetLevel r j0 s
  let at_ := if j0.timing = 2 then now + 19200 else j0.at_
  let j : Job := { j0 with
    at_ := at_
    frame := frameFifths j0.phy j0.pre (j0.psduLen level) j0.mcs j0.coded }
  if jobFormatOk r j level s = false then jobRefuse r k 24 j s
  else if j.kind = 1 then
    if at_ < now + 19200 then jobRefuse r k 5 j s
    else if now + 2 ^ 32 < at_ then jobRefuse r k 24 j s
    else jobAccept r k { j with widen := rxWinWiden j s } s
  else match jobTxChecks r j s with
    | .error code => jobRefuse r k code j s
    | .ok entry =>
      let j1 := { j with entry := entry, hold := airUs j.frame }
      if at_ < now + 19200 then jobRefuse r k 5 j s
      else if now + 2 ^ 32 < at_ then jobRefuse r k 24 j s
      else
        let span := exactSpan j1 j.frame s
        let others := (jobList s).filterMap fun e =>
          if e.2.2.fe == j.fe && e.2.2.timing == 0 && (jobState e.1 e.2.1 s == 1 || jobState e.1 e.2.1 s == 2)
          then e.2.2.span else none
        if j.kind = 0 ∧ j.timing = 0 ∧ others.any (spansMeet span) = true then jobRefuse r k 31 j s
        else if j.kind = 2 ∧ s.sup.gasp.isSome = true then jobRefuse r k 31 j s
        else match queUnclaimed (256 + r) s with
          | none => jobRefuse r k 30 j s
          | some p =>
            if p.octets ≠ j.qlen then jobRefuse r k 30 j s
            else jobAccept r k { j1 with
              pkt := some p.id
              span := if j.kind = 0 ∧ j.timing = 0 then some span else none } s

/-- A write of JOB_POST at air tick `now` (R312, R316, R317). -/
def jobPostWrite (r : Nat) (data : Word) (now : Nat) (s : State) : State :=
  let go := bitOf data 8
  let cancel := bitOf data 4
  let k := bitsOf data 0 2
  if bitsOf data 16 16 ≠ 0x4A42 ∨ (go && cancel) = true then fset (jobB r) PORT_ERR.KEY 1 s
  else if cancel then
    if jobState r k s = 1 then jobDone r k 9 s
    else if jobState r k s = 2 then fset (jobB r) PORT_ERR.LATE 1 s
    else s
  else if go then
    if jobState r k s = 1 ∨ jobState r k s = 2 then fset (jobB r) PORT_ERR.BUSY 1 s
    else
      let w := rdList (jobB r) 8 s
      let at_ := (w.getD 0 0).toNat + 2 ^ 32 * (w.getD 1 0).toNat
      jobChecked r k { w := w, accepted := now, at_ := at_ } now s
  else s

/-! ### Preparation (R319, R320) -/

/-- Octets replaced from offset `o`. -/
def putOctets (o : Nat) (v l : List Byte) : List Byte :=
  if o + v.length ≤ l.length then l.take o ++ v ++ l.drop (o + v.length) else l

/-- The extended address of this node. -/
def ownExt (s : State) : Nat := (rd64 (linkB + 8) s).toNat

/-- The octets a job sends, from its packet's octets and, with SEC = 1, a counter value (R319, R330). -/
def jobPsdu (j : Job) (plain : List Byte) (s : State) : List Byte :=
  let body := match j.sec, slotKey j.keySlot s, j.counter with
    | true, some key, some v =>
      let p := putOctets j.fcOfs (leBytes 4 v) plain
      let level := ((p.drop (j.fcOfs - 1)).headD 0).toNat % 8
      macSecure key (ownExt s) v level j.hdrLen p
    | _, _, _ => plain
  body ++ macFcs j.fcs body

/-- The staging buffer of a front end is taken from NOT_BEFORE and ASAP jobs for an EXACT one (R319). -/
def stagingTake (fe : Fe) (s : State) : State :=
  (jobList s).foldl (fun t e =>
    if e.2.2.fe == fe && e.2.2.timing != 0 && e.2.2.staged.isSome then
      jobPut e.1 e.2.1 (some { e.2.2 with staged := none }) t else t) s

/-- Another job holds the staging buffer and keeps it from `j`: one that is on its way out or waits, an EXACT one,
or any for a job that is not EXACT. -/
def stagingHeld (r k : Nat) (j : Job) (s : State) : Bool :=
  (jobList s).any fun e => 4 * e.1 + e.2.1 != 4 * r + k && e.2.2.fe == j.fe && e.2.2.staged.isSome &&
    (j.timing != 0 || e.2.2.timing == 0 ||
      (match airGet j.fe s with
       | some f => f.who == .job (BitVec.ofNat 6 e.1) (BitVec.ofNat 2 e.2.1)
       | none => false))

/-- Preparation of a job (R319): `agrees` tells whether the two CRC-32C values over the plaintext agree at step 4. It
waits while staging is held, or while the key slot's next mark is being programmed (R524). -/
def jobPrepare (r k : Nat) (agrees : Bool) (s : State) : State :=
  match jobGet r k s with
  | none => s
  | some j =>
    match (queGet (256 + r) s).packets.find? fun p => some p.id == j.pkt with
    | none => s
    | some p =>
      if j.kind ≠ 0 ∨ j.staged.isSome = true ∨ stagingHeld r k j s = true then s
      else
        let ws := quePacketWords (256 + r) p s
        let plain := packetOctets ws
        let s1 := if j.timing = 0 then stagingTake j.fe s else s
        if crc32c plain ≠ packetCrc ws then jobDone r k 29 s1
        else if j.sec ∧ j.counter.isNone = true ∧ slotLive j.keySlot s = false then jobDone r k 27 s1
        else if j.sec ∧ j.counter.isNone = true ∧ slotSpent j.keySlot s = true then jobDone r k 28 s1
        else if j.sec ∧ j.counter.isNone = true ∧ fcReady j.keySlot s = false then s
        else
          let d := if j.sec ∧ j.counter.isNone = true then
              let v := fcDraw j.keySlot s1
              (some v.1, v.2)
            else (j.counter, s1)
          let j1 := { j with counter := d.1 }
          let s2 := jobPut r k (some { j1 with staged := some (jobPsdu j1 plain d.2) }) d.2
          if agrees then s2 else jobDone r k 29 s2

/-- The fill tick (R320): an incomplete preparation ends the job. -/
def jobFill (r k : Nat) (s : State) : State :=
  match jobGet r k s with
  | none => s
  | some j =>
    if j.kind ≠ 0 ∨ j.waits = true then s
    else if j.staged.isNone then jobDone r k 4 s
    else jobPut r k (some { j with filling := true }) s

/-! ### Listening (R322, R323) -/

/-- An acknowledgement is not sent (R328). -/
def ackMiss (fe : Fe) (s : State) : State :=
  let first := fget linkB LINK_CNT2.ACK_MISS s = 0
  let s1 := fcount linkB LINK_CNT2.ACK_MISS (ackPut fe none s)
  if first then linkNote LINK_NOTE.ACK_MISS s1 else s1

/-- Bin samples of the assessment before an acknowledgement; 0 for none (R154, R328). -/
def ackListen (entry : Nat) (s : State) : Nat :=
  if licGet entry 0x11 1 s = 1 ∧ (licGet entry 0x13 1 s).testBit 1 = false then listenLen (licGet entry 0x14 2 s)
  else 0

/-- The spans of pending acknowledgements on a front end. -/
def ackSpans (fe : Fe) (s : State) : List (Nat × Nat) :=
  match ackGet fe s with
  | some a => [a.span fe (if a.ready then ackListen a.entry s else 0) s]
  | none => []

/-- A busy assessment (R323). -/
def jobBusy (r k : Nat) (j : Job) (cca tick : Nat) (s : State) : State :=
  if cca = 1 ∨ j.timing = 0 then jobDone r k 2 s
  else
    let b := jobB r
    let nb := j.nb + 1
    if fget b PORT_CSMA.MAX_NB s < nb then jobDone r k 2 s
    else
      let be := min (j.be + 1) (fget b PORT_CSMA.MAX_BE s)
      jobPut r k (some { j with
        nb := nb
        be := be
        start := tick + freeNat s % 2 ^ be * fget b PORT_CSMA.UNIT s }) (drawFree s)

/-- The room whose attempt started last on a front end takes its turn (R318). -/
def roundPut (fe : Fe) (r : Nat) (s : State) : State :=
  match fe with
  | .a => linkPut { s.link with roundA := r } s
  | .b => linkPut { s.link with roundB := r } s

/-- The frame on its way through the job's front end is the job's. -/
def jobOnAir (r k : Nat) (j : Job) (s : State) : Bool :=
  (airGet j.fe s).any fun f => f.who == .job (BitVec.ofNat 6 r) (BitVec.ofNat 2 k)

/-- The decision of a job (R322, R323): the attempt starts when the channel is clear and its span is free. -/
def jobDecide (r k : Nat) (found : List EdReading) (late : Bool) (s : State) : State :=
  match jobGet r k s with
  | none => s
  | some j =>
    if j.kind ≠ 0 ∨ j.waits = true ∨ j.clear = true ∨ jobOnAir r k j s = true then s
    else
      let c := j.cca s
      let l := listenLen c.2.2
      let tick := if j.timing = 0 then j.at_ - feLead j.fe s else if c.1 = 0 then j.start else decisionTick j.start l
      let pre := tick + feLead j.fe s
      let span := (if c.1 = 0 then 5 * tick else 5 * j.start, spanEnd j pre j.frame s)
      let free := j.timing == 0 ||
        !((heldSpans j.fe (some (4 * r + k)) s ++ ackSpans j.fe s).any (spansMeet span))
      if (c.1 = 0 ∨ channelClear c.2.1 found late = true) ∧ free = true then
        let j1 := { j with
          clear := true
          preamble := pre
          span := if j.timing = 0 then j.span else some span }
        roundPut j.fe r (jobPut r k (some j1) s)
      else jobBusy r k j c.1 tick s

/-- The decision of an acknowledgement's assessment (R328). -/
def ackDecide (fe : Fe) (found : List EdReading) (late : Bool) (s : State) : State :=
  match ackGet fe s with
  | some a =>
    if a.ready && a.listens then
      if channelClear (signedOf 8 (licGet a.entry 0x12 1 s)) found late then ackPut fe (some { a with listens := false }) s
      else ackMiss fe s
    else s
  | none => s

/-- One decision. -/
def decideOne (s : State) (d : Decision) : State :=
  match d.who with
  | .job r k => jobDecide r.toNat k.toNat d.readings d.late s
  | .ack fe => ackDecide fe d.readings d.late s

/-- The turn of a decision in the round robin of rooms that follows room `last` (R318). -/
def decisionTurn (last : Nat) (d : Decision) : Nat :=
  match d.who with
  | .job r _ => (r.toNat + 64 - last - 1) % 64
  | .ack _ => 0

/-- A decision put in its turn. -/
def insertTurn (last : Nat) (d : Decision) : List Decision → List Decision
  | [] => [d]
  | e :: l => if decisionTurn last d < decisionTurn last e then d :: e :: l else e :: insertTurn last d l

/-- A job that is EXACT decides before the others. -/
def decisionExact (s : State) (d : Decision) : Bool :=
  match d.who with
  | .job r k => (match jobGet r.toNat k.toNat s with
    | some j => j.timing == 0
    | none => false)
  | .ack _ => true

/-- The decisions that fall on one tick on a front end (R318, R322). -/
def decideAll (fe : Fe) (found : List Decision) (s : State) : State :=
  let last := match fe with
    | .a => s.link.roundA
    | .b => s.link.roundB
  let first := found.filter (decisionExact s)
  let rest := (found.filter fun d => !decisionExact s d).foldl (fun l d => insertTurn last d l) []
  (first ++ rest).foldl decideOne s

/-! ### The transition into TX or DUPLEX (R321) -/

/-- The carrier of a frame (R398): shifted by −E × 10⁻⁶ × f while FTUNE_EN is 1 in SUSPECT. -/
def txCarrier (centre : Int) (s : State) : Int :=
  if fis timeB TIME_CFG.FTUNE_EN s ∧ fget timeB REF_STAT.STATE s = 2 then
    centre + ratRound (-s.time.e * (centre : Rat) / 1000000)
  else centre

/-- PA_A_EN is asserted from the first tick when EN_LEAD reaches it (R83). -/
def paLead (fe : Fe) (lead : Nat) (s : State) : Bool :=
  fe == .a && fis (feB .a) FE_CTRL.EXTPA_EN s && decide (lead ≤ 614 + fget (feB .a) FE_EXTPA.EN_LEAD s)

/-- A frame starts its transition (R82, R87, R90, R134, R139, R289, R367): `req` in 0.25 dBm. -/
def txStart (fe : Fe) (who : Sender) (entry phy frame : Nat) (centre req : Int) (psdu : List Byte) (tick : Nat)
    (temp : BitVec 16) (vpa : Nat) (s : State) : State :=
  let b := feB fe
  let src := feState fe s
  let dst := if src = 3 ∧ fget b FE_CTRL.ARR s = 1 then 5 else 4
  let lead := feLead fe s
  let edges := bandEdges centre phy (Config.txIndex phy)
  let s1 := txPowerSet fe centre.toNat req (licCap fe entry s) temp vpa (tempSample fe temp s)
  let s2 := tuneApply fe s1
  let f := feGet fe s2
  let s3 := fset b FE_STAT.BUSY 1 (fePut fe { f with
    trans := some ⟨src, dst, false⟩
    txFrom := src
    muted := false
    paEn := f.paEn || paLead fe lead s2 } s2)
  let s4 := feCtlPins fe dst (fset b FE_STAT.TR_TX (ofBool (dst == 4)) s3)
  let s5 := airPut fe (some { who := who, entry := entry, length := 2 * frame, carrier := txCarrier centre s4, psdu := psdu }) s4
  let s6 := fdxStart fe tick edges.1 edges.2 centre.toNat (fgetS b FE_PA.LAST_QDBM s5) temp.toInt s5
  match fe with
  | .a => knkDeaf s6
  | .b => s6

/-- The check of R321 that fails first at the transition's first tick; 0 when none does. -/
def txRefused (fe : Fe) (entry us : Nat) (but : Option Nat) (s : State) : Nat :=
  if fis (feB fe) FE_STAT.OWNER s then 7
  else if (feGet fe s).trans.isSome ∨ (feState fe s ≠ 2 ∧ feState fe s ≠ 3) ∨ fis (feB fe) FE_STAT.LOCK s = false ∨
      (airGet fe s).isSome then 11
  else if refBeyond (licTol entry s) s then 19
  else if dutyOk (licGet entry 0x10 1 s) us but s then 0
  else 20

/-- A job's transition begins (R317, R321). -/
def jobTransit (r k tick : Nat) (temp : BitVec 16) (vpa : Nat) (s : State) : State :=
  match jobGet r k s with
  | none => s
  | some j =>
    if j.kind ≠ 0 ∨ j.waits = true ∨ ¬(j.clear = true ∨ (j.timing = 0 ∧ (j.cca s).1 = 0)) ∨
        jobOnAir r k j s = true then s
    else
      let s1 := armedShow j.fe (fset (slotRegs r k) JOB_RES.STATE 2 s)
      let code := txRefused j.fe j.entry (airUs j.frame) (some (4 * r + k)) s1
      if code ≠ 0 then jobDone r k code s1
      else match j.staged with
        | none => jobDone r k 4 s1
        | some psdu =>
          let pre := tick + feLead j.fe s1
          let s2 := jobPut r k (some { j with clear := false, preamble := pre }) s1
          txStart j.fe (.job (BitVec.ofNat 6 r) (BitVec.ofNat 2 k)) j.entry j.phy j.frame (j.centre s2) j.power psdu
            tick temp vpa (wr64 (slotRegs r k + 0x44) (BitVec.ofNat 64 pre) s2)

/-- An acknowledgement's transition begins (R321, R326, R328). -/
def ackTransit (fe : Fe) (tick : Nat) (temp : BitVec 16) (vpa : Nat) (s : State) : State :=
  match ackGet fe s with
  | none => s
  | some a =>
    if a.ready = false ∨ a.listens = true ∨ (airGet fe s).any (fun f => f.who == .ack fe) = true then s
    else
      let frame := a.frame a.psdu.length s
      if txRefused fe a.entry (airUs frame) none s ≠ 0 then ackMiss fe s
      else txStart fe (.ack fe) a.entry a.phy frame a.centre (fgetS linkB LINK_ACK_CFG.PWR_QDBM s) a.psdu tick temp vpa s

/-! ### The frame's end -/

/-- The front end returns from TX or DUPLEX (R90, R91, R101): after a lost lock TX goes to SYNTH. -/
def txReturn (fe : Fe) (temp : BitVec 16) (s : State) : State :=
  let b := feB fe
  let f := feGet fe s
  let dst := match f.trans with
    | some t => t.dst
    | none => feState fe s
  if dst = 5 then
    feNext fe temp (feCtlPins fe 3 (fset b FE_STAT.STATE 3 (fset b FE_STAT.BUSY 0 (fePut fe { f with trans := none } s))))
  else if dst = 4 then
    if f.needRelock then feBegin fe 4 2 temp (if f.txFrom = 3 then residenceEnd fe s else s)
    else feBegin fe 4 f.txFrom temp s
  else s

/-- What a frame held of its front end is let go (R83, R86, R292, R367): its last tick is `tick`. -/
def txRelease (fe : Fe) (tick : Nat) (temp : BitVec 16) (s : State) : State :=
  let shared := fis (feB fe) FE_STAT.TR_TX s && (feGet fe s).residence
  let back := feReturn fe s
  let s1 := fdxStop fe (tick + back - 1) s
  let s2 := fset (feB fe) FE_STAT.TR_TX 0 (airPut fe none (fePut fe { feGet fe s1 with
    onAir := false
    muted := false
    paEn := false
    paBias := 0 } s1))
  let s3 := if shared then
      chzPut fe { chzGet fe s2 with evalFrom := (periodAt fe (tick + back) s2 / 16 + 1) * 16 } s2
    else s2
  let s4 := txReturn fe temp s3
  match fe with
  | .a => knkHear s4
  | .b => s4

/-- A job's frame has ended after `us` µs on air (R321, R324, R336). -/
def jobFrameDone (r k us : Nat) (f : AirFrame) (s : State) : State :=
  match jobGet r k s with
  | none => dutyCharge (licGet f.entry 0x10 1 s) us s
  | some j =>
    let s1 := dutyChange (licGet f.entry 0x10 1 s)
      (fun t => dutyAdd (licGet f.entry 0x10 1 s) us (jobPut r k (some { j with hold := 0 }) t)) s
    let s2 := if us = 0 then s1 else fset (slotRegs r k) JOB_RES.ATTEMPTS (fget (slotRegs r k) JOB_RES.ATTEMPTS s1 + 1) s1
    match f.abort with
    | some code => jobDone r k code s2
    | none =>
      if j.ackReq then
        let w := (ackWindow j.phy j.preamble j.frame s2).2.2
        let s3 := if w = 0 then s2 else fset (slotRegs r k) JOB_RES.WIDE 1 s2
        jobPut r k (some { j with hold := 0, waits := true, tEnd := 10 * j.preamble + 2 * j.frame, widen := w }) s3
      else jobDone r k 0 s2

/-- The ramp-up's first tick (R83, R321): the buffer must hold 64 samples. -/
def txRampUp (fe : Fe) (tick fill : Nat) (s : State) : State :=
  match airGet fe s with
  | none => s
  | some f =>
    if f.ramp.isSome then s
    else if f.abort.isSome ∨ fill < 64 then
      let s1 := txRelease fe tick 0 s
      match f.who with
      | .job r k => jobFrameDone r.toNat k.toNat 0 { f with abort := some (f.abort.getD 4) } s1
      | .ack e => ackMiss e s1
    else
      let s1 := airPut fe (some { f with ramp := some tick }) s
      let ext := fe == .a && fis (feB .a) FE_CTRL.EXTPA_EN s1
      let g := feGet fe s1
      fePut fe { g with
        onAir := true
        paEn := g.paEn || ext
        paBias := if ext then fget (feB .a) FE_EXTPA.BIAS_ON s1 else g.paBias } s1

/-- The ramp-down ends at `tick`; the frame radiated up to tick `radiated` (R152, R336). -/
def txFrameEnd (fe : Fe) (tick radiated : Nat) (temp : BitVec 16) (s : State) : State :=
  match airGet fe s with
  | none => s
  | some f =>
    match f.ramp with
    | none => s
    | some r0 =>
      let us := ((radiated - r0) * 10 + 767) / 768
      let s1 := txRelease fe tick temp s
      match f.who with
      | .job r k => jobFrameDone r.toNat k.toNat us f s1
      | .ack e => dutyCharge (licGet f.entry 0x10 1 s1) us (ackPut e none s1)

/-- NO_ACK is decided at air tick `tick` (R323, R325): a retry starts, or the job ends. -/
def jobNoAck (r k tick : Nat) (j : Job) (s : State) : State :=
  if j.retries < j.retriesAsked then
    let j1 := { j with
      waits := false
      retries := j.retries + 1
      hold := airUs j.frame
      filling := false
      span := if j.timing = 0 then j.span else none }
    let a := attemptStart r j1 tick false s
    dutyChange (licGet j.entry 0x10 1 s) (jobPut r k (some a.1)) a.2
  else jobDone r k 1 s

/-- The acknowledgement window of a waiting job: its first and last tick. -/
def jobWindow (j : Job) (s : State) : Nat × Nat :=
  let t := j.tEnd + 2 * ackAfter j.phy s
  let g := 10 * (fget linkB LINK_GUARD.ACK_G s + j.widen)
  ((t - g + 9) / 10, (t + g + 9) / 10)

/-- The window of an RX_WIN job (R329). -/
def rxWindow (j : Job) : Nat × Nat :=
  let h := (j.winUs * 768 + 9) / 10 + j.widen
  (j.at_ - h, j.at_ + h)

/-- T_SFD in tenths of a tick, from S, FRAC and the delays (R280). -/
def sfdTenths (rxt0 sidx frac dcap dlane : Nat) : Nat := 10 * rxt0 + 4096 * sidx + frac - 10 * (dcap + dlane)

/-- A timestamp: tenths of a tick rounded to the nearest tick, halves upward (R309). -/
def stampTick (tenths : Nat) : Nat := (tenths + 5) / 10

/-- T_SFD of a closed frame, in tenths. -/
def ClosedFrame.tSfd (c : ClosedFrame) : Nat := sfdTenths c.rxt0 c.sidx c.frac c.dcap c.dlane

/-- A tick lies in a window. -/
def inWindow (w : Nat × Nat) (t : Nat) : Bool := decide (w.1 ≤ t) && decide (t ≤ w.2)

/-- An SFD on lane `n` inside a window waits for its frame's verdict. -/
def sfdPending (n : Nat) (w : Nat × Nat) (s : State) : Bool :=
  (s.verdicts.any fun c => c.lane == n && inWindow w (stampTick c.tSfd)) ||
    match (laneGet n s).frame with
    | some f =>
      (match f.sfd with
       | some (i, frac) =>
         let fe := laneFe n s
         inWindow w (stampTick (sfdTenths (rd64 (feB fe + 0x20) s).toNat i frac
           (dCap (fget (feB fe) FE_CTRL.WIDTH s)) (dLane f.phy (laneDfe n s))))
       | none => false)
    | none => false

/-! ### Lost lock and reference (R101, R102, R395) -/

/-- The front end transmits, or is in transition to it. -/
def feSends (fe : Fe) (s : State) : Bool :=
  match (feGet fe s).trans with
  | some t => decide (4 ≤ t.dst)
  | none => decide (4 ≤ feState fe s)

/-- Loss of lock (R101): the frame on its way is muted, and the front end relocks with calibration. -/
def feLockLost (fe : Fe) (s : State) : State :=
  let b := feB fe
  if fis b FE_STAT.LOCK s = false then s
  else
    let s1 := raiseEvt (feEv fe + 2) (fset b FE_ERR.LOCK_LOST 1 (fcount b FE_SYN.LOST_CNT s))
    let s2 := calRequest fe (feLock fe false (fePut fe { feGet fe s1 with needRelock := true } s1))
    if feSends fe s2 then airAbort fe 6 s2
    else if (feGet fe s2).trans.isSome then s2
    else feNext fe 0 s2

/-- CK_REF stops (R102) for one front end. -/
def feXrefFail (s : State) (fe : Fe) : State :=
  let b := feB fe
  raiseEvt (feEv fe + 8) (fset b FE_ERR.XREF_FAIL 1 (fset b FE_STAT.XREF_RUN 0 (feSleepNow fe (airAbort fe 10 s))))

/-! ### The neighbour table (R332, R343) -/

/-- An entry of the table. -/
def nbrGet (n : Nat) (s : State) : Option Neighbour := tget (fun _ => none) s.link.nbrs n

/-- Set an entry; COUNT follows. -/
def nbrPut (n : Nat) (v : Option Neighbour) (s : State) : State :=
  let t := tset (fun _ => none) s.link.nbrs n v
  fset linkB NBR_STAT.COUNT t.length (linkPut { s.link with nbrs := t } s)

/-- The bucket of an extended address. -/
def nbrExtBucket (ext : Nat) : Nat := crc32c (leBytes 8 ext) % 1024

/-- The bucket of a PAN ID and short address. -/
def nbrShortBucket (pan short : Nat) : Nat := crc32c (leBytes 2 pan ++ leBytes 2 short) % 1024

/-- EXT_V and SHORT_V of an entry. -/
def Neighbour.hasExt (e : Neighbour) : Bool := e.flags.testBit 8
/-- SHORT_V. -/
def Neighbour.hasShort (e : Neighbour) : Bool := e.flags.testBit 9

/-- The entry of an extended address. -/
def nbrByExt (ext : Nat) (s : State) : Option Nat :=
  (s.link.nbrs.find? fun p => match p.2 with
    | some e => e.hasExt && e.ext == ext
    | none => false).map (·.1)

/-- The entry of a PAN ID and short address. -/
def nbrByShort (pan short : Nat) (s : State) : Option Nat :=
  (s.link.nbrs.find? fun p => match p.2 with
    | some e => e.hasShort && e.pan == pan && e.short == short
    | none => false).map (·.1)

/-- The place an entry takes: a free place of its bucket, while the second index has room too. -/
def nbrPlace (e : Neighbour) (s : State) : Option Nat :=
  let b := if e.hasExt then nbrExtBucket e.ext else nbrShortBucket e.pan e.short
  let second := (s.link.nbrs.filter fun p => match p.2 with
    | some x => x.hasShort && nbrShortBucket x.pan x.short == nbrShortBucket e.pan e.short
    | none => false).length
  if e.hasShort && decide (4 ≤ second) then none
  else (List.range 4).findSome? fun w => if (nbrGet (4 * b + w) s).isNone then some (4 * b + w) else none

/-- An insertion fails (R332). -/
def nbrFull (s : State) : State :=
  if fis linkB NBR_STAT.FULL s then s else linkNote LINK_NOTE.NBR_FULL (fset linkB NBR_STAT.FULL 1 s)

/-- The result of an NBR_CMD. -/
def nbrResult (res : Nat) (found : Option Nat) (s : State) : State :=
  let s1 := fset linkB NBR_STAT.RESULT res s
  match found with
  | some n => fset linkB NBR_STAT.FOUND n s1
  | none => s1

/-- The entry that NBR_D0–D2 and the entry window's staging describe. -/
def nbrStaged (s : State) : Neighbour :=
  { ext := (rd64 (linkB + 0x24) s).toNat, pan := fget linkB NBR_D2.PAN_ID s, short := fget linkB NBR_D2.SHORT s
    flags := (rd (linkB + 0x100) s).toNat % 4096, rxFc := (rd (linkB + 0x104) s).toNat
    fcSlot := (rd (linkB + 0x108) s).toNat }

/-- INSERT. -/
def nbrInsert (s : State) : State :=
  let e := nbrStaged s
  if !e.hasExt && !e.hasShort then linkErr LINK_ERR.RANGE s
  else
    match (if e.hasExt then nbrByExt e.ext s else none), (if e.hasShort then nbrByShort e.pan e.short s else none) with
    | some n, _ => nbrResult 2 (some n) s
    | none, some n => nbrResult 2 (some n) s
    | none, none =>
      match nbrPlace e s with
      | some n => nbrResult 0 (some n) (nbrPut n (some e) s)
      | none => nbrFull (nbrResult 1 none s)

/-- DELETE INDEX. -/
def nbrDelete (n : Nat) (s : State) : State :=
  if (nbrGet n s).isSome then nbrResult 0 (some n) (fset linkB NBR_STAT.FULL 0 (nbrPut n none s))
  else nbrResult 3 none s

/-- The D registers take an entry. -/
def nbrShow (n : Nat) (s : State) : State :=
  match nbrGet n s with
  | some e =>
    let s1 := wr64 (linkB + 0x24) (BitVec.ofNat 64 (if e.hasExt then e.ext else 0)) s
    nbrResult 0 (some n) (fset linkB NBR_D2.SHORT (if e.hasShort then e.short else 0)
      (fset linkB NBR_D2.PAN_ID (if e.hasShort then e.pan else 0) s1))
  | none => nbrResult 3 none s

/-- LOOKUP: by the extended address in D0 and D1 unless it is 0, else by PAN ID and short address. -/
def nbrLookup (s : State) : State :=
  let ext := (rd64 (linkB + 0x24) s).toNat
  match (if ext ≠ 0 then nbrByExt ext s else nbrByShort (fget linkB NBR_D2.PAN_ID s) (fget linkB NBR_D2.SHORT s) s) with
  | some n => nbrShow n s
  | none => nbrResult 3 none s

/-- A write of NBR_CMD (R342, R343). -/
def nbrCmd (data : Word) (s : State) : State :=
  let n := bitsOf data 16 12
  let s1 := linkPut { s.link with nbrIndex := n } s
  match bitsOf data 28 4 with
  | 1 => nbrInsert s1
  | 2 => nbrDelete n s1
  | 3 => nbrShow n s1
  | 4 => nbrLookup s1
  | _ => linkErr LINK_ERR.RANGE s

/-- The word of NBR_CMD with an operation and an index. -/
def nbrWord (op : Nat) (index : BitVec 12) : Word := BitVec.ofNat 32 (op * 2 ^ 28 + index.toNat * 2 ^ 16)

/-! ### The commands -/

/-- JOB_POST (R316). -/
def execJobPost (i : Init) (room : BitVec 6) (data : Word) (now : Word64) (s : State) :
    Host.Outcome State Fault Refusal :=
  .next (doorStore i (jobB room.toNat + 0x20) (jobPostWrite room.toNat data now.toNat) s)

/-- JOB_CANCEL (R317). -/
def execJobCancel (i : Init) (room : BitVec 6) (key : BitVec 16) (slot : BitVec 2) (s : State) :
    Host.Outcome State Fault Refusal :=
  .next (doorStore i (jobB room.toNat + 0x20)
    (jobPostWrite room.toNat (BitVec.ofNat 32 (key.toNat * 65536 + 16 + slot.toNat)) 0) s)

/-- JOB_PREPARATION (R319). -/
def execJobPreparation (room : BitVec 6) (slot : BitVec 2) (agrees : Bool) (s : State) :
    Host.Outcome State Fault Refusal :=
  .next (jobPrepare room.toNat slot.toNat agrees s)

/-- JOB_FILL_TICK (R320). -/
def execJobFillTick (room : BitVec 6) (slot : BitVec 2) (s : State) : Host.Outcome State Fault Refusal :=
  .next (jobFill room.toNat slot.toNat s)

/-- CCA_DECISION (R322). -/
def execCcaDecision (fe : Fe) (found : List Decision) (s : State) : Host.Outcome State Fault Refusal :=
  .next (decideAll fe found s)

/-- TX_TRANSITION_START (R321). -/
def execTxTransitionStart (who : Sender) (tick : Word64) (temp : BitVec 16) (vpa : BitVec 12) (s : State) :
    Host.Outcome State Fault Refusal :=
  .next (match who with
    | .job r k => jobTransit r.toNat k.toNat tick.toNat temp vpa.toNat s
    | .ack fe => ackTransit fe tick.toNat temp vpa.toNat s)

/-- TX_RAMP_UP (R321). -/
def execTxRampUp (fe : Fe) (tick : Word64) (fill : Nat) (s : State) : Host.Outcome State Fault Refusal :=
  .next (txRampUp fe tick.toNat fill s)

/-- UNDERRUN (R27, R58): the frame on air is muted and ramps down. -/
def execUnderrun (fe : Fe) (s : State) : Host.Outcome State Fault Refusal :=
  .next (if (airGet fe s).any (fun f => f.ramp.isSome) then airAbort fe 3 s else s)

/-- TX_FRAME_END (R336). -/
def execTxFrameEnd (fe : Fe) (tick radiated : Word64) (temp : BitVec 16) (s : State) :
    Host.Outcome State Fault Refusal :=
  .next (txFrameEnd fe tick.toNat radiated.toNat temp s)

/-- NO_ACK (R325): decided 12,288 ticks after a window in which no SFD fell. -/
def execNoAck (room : BitVec 6) (slot : BitVec 2) (s : State) : Host.Outcome State Fault Refusal :=
  .next (match jobGet room.toNat slot.toNat s with
    | some j =>
      if j.waits && !sfdPending j.ackLane (jobWindow j s) s then
        jobNoAck room.toNat slot.toNat ((jobWindow j s).2 + 12288) j s
      else s
    | none => s)

/-- RX_WIN_CLOSE (R329). -/
def execRxWinClose (room : BitVec 6) (slot : BitVec 2) (s : State) : Host.Outcome State Fault Refusal :=
  .next (match jobGet room.toNat slot.toNat s with
    | some j =>
      if j.kind == 1 && !sfdPending j.lane (rxWindow j) s then jobDone room.toNat slot.toNat 13 s else s
    | none => s)

/-- ACK_TRANSMIT (R326): the preamble starts, on its tick. -/
def execAckTransmit (fe : Fe) (s : State) : Host.Outcome State Fault Refusal :=
  .next (match airGet fe s with
    | some f => if f.who == .ack fe && f.ramp.isSome then fcount linkB LINK_CNT2.ACK_SENT s else s
    | none => s)

/-- DUTY_BUCKET_ADVANCE (R335). -/
def execDutyBucketAdvance (group : BitVec 4) (s : State) : Host.Outcome State Fault Refusal :=
  .next (dutyPut group.toNat (((0 : Nat) :: dutyGet group.toNat s).take 65) s)

/-- FE_LOCK_LOST (R101). -/
def execFeLockLost (fe : Fe) (s : State) : Host.Outcome State Fault Refusal := .next (feLockLost fe s)

/-- FE_XREF_FAIL (R102). -/
def execFeXrefFail (s : State) : Host.Outcome State Fault Refusal :=
  .next (refStop ([Fe.a, Fe.b].foldl feXrefFail s))

/-- CK_REF_RUNNING (R395): a new series of intervals begins while PD31 is on. -/
def execCkRefRunning (s : State) : Host.Outcome State Fault Refusal :=
  let s1 := fset (feB .b) FE_STAT.XREF_RUN 1 (fset (feB .a) FE_STAT.XREF_RUN 1 s)
  .next (if pdOn 31 s1 then refStart s1 else s1)

/-- NBR_INSERT (R343). -/
def execNbrInsert (i : Init) (index : BitVec 12) (s : State) : Host.Outcome State Fault Refusal :=
  .next (doorStore i (linkB + 0x20) (nbrCmd (nbrWord 1 index)) s)

/-- NBR_DELETE (R343). -/
def execNbrDelete (i : Init) (index : BitVec 12) (s : State) : Host.Outcome State Fault Refusal :=
  .next (doorStore i (linkB + 0x20) (nbrCmd (nbrWord 2 index)) s)

/-- NBR_READ (R343). -/
def execNbrRead (i : Init) (index : BitVec 12) (s : State) : Host.Outcome State Fault Refusal :=
  .next (doorStore i (linkB + 0x20) (nbrCmd (nbrWord 3 index)) s)

/-- NBR_LOOKUP (R343). -/
def execNbrLookup (i : Init) (index : BitVec 12) (s : State) : Host.Outcome State Fault Refusal :=
  .next (doorStore i (linkB + 0x20) (nbrCmd (nbrWord 4 index)) s)

end Sys2Proof.Machine
end

