-- ==== Sys2Proof/Machine/Flash.lean ====
section
/-!
DEFINITION. Flash commands (spec/18_flash.md): line programs, block erases, suspension and the read settings.
-/

namespace Sys2Proof.Machine

open Reg

/-- The command port of a room (R559). -/
def fpPage (r : Nat) : Nat := 0x400D8000 + 0x100 * r

/-- Porter, house image or plan slots: the ranges of the Steward (R538). -/
def stewardFlash (a : Nat) : Bool :=
  decide (0x08000000 ≤ a ∧ a < 0x08400000) || decide (0x0B000000 ≤ a ∧ a < 0x0C000000)

/-- The checks 2–8 of R548 on a target of `n` octets, in order; 0 when all pass. -/
def fpCheck (i : Init) (r a n : Nat) (s : State) : Nat :=
  let prog := n == 32
  let k := bankOf a
  if a % n ≠ 0 ∨ a < 0x08000000 ∨ 0x0C000000 ≤ a then 2
  else if inKeyShelf a ∨ (a < 0x08040000 ∧ fis flcB FLC_LOCK.PORTER s) ∨ (stewardFlash a ∧ i ≠ .steward) then 3
  else if !stewardFlash a && !((windowsOf r s).any fun w => w.covers a n && w.rights.testBit 1) then 4
  else if !pdOn (26 + k) s then 5
  else if !(bankState k s == 0 || (prog && bankState k s == 3)) || keyUnitBusy k s then 1
  else if prog && bankSuspended k s && garbledAt a s &&
      (match (bankGet k s).erase with
       | some j => decide (j.addr ≤ a) && decide (a < j.addr + 0x10000)
       | none => false) then 6
  else if prog && fis (fpPage r) FP_STAT.STG_BAD s then 7
  else 0

/-- A command ends on the port: STATE DONE with its result. -/
def fpEnd (r res : Nat) (s : State) : State :=
  fset (fpPage r) FP_STAT.STATE 2 (fset (fpPage r) FP_STAT.RESULT res s)

/-- STG_BAD clears at the end of a PROGRAM; PARITY also sets the staging words to all ones (R547). -/
def fpProgEnd (r res : Nat) (s : State) : State :=
  let s1 := fset (fpPage r) FP_STAT.STG_BAD 0 (fpEnd r res s)
  if res = 7 then wrList (fpPage r + 0x20) (List.replicate 8 0xFFFFFFFF) s1 else s1

/-- PROGRAM on a port (R548, R549). -/
def fpProgram (i : Init) (r : Nat) (s : State) : State :=
  let a := fget (fpPage r) FP_ADDR.ADDR s
  let res := fpCheck i r a 32 s
  if res = 0 then
    let k := bankOf a
    bankPut k { bankGet k s with prog := some ⟨r, a, rdBytes (fpPage r + 0x20) 8 s⟩ } (bankSuspended k s)
      (fset (fpPage r) FP_STAT.STATE 1 s)
  else fpProgEnd r res s

/-- ERASE on a port (R548, R550). -/
def fpErase (i : Init) (r : Nat) (s : State) : State :=
  let a := fget (fpPage r) FP_ADDR.ADDR s
  let res := fpCheck i r a 0x10000 s
  if res = 0 then
    let k := bankOf a
    let s1 := eraseCount ((a - 0x08000000) / 0x10000) (fset (fpPage r) FP_STAT.STATE 1 s)
    flashInvalidate a 0x10000 (bankPut k { erase := some ⟨r, a, []⟩, minRun := true } false s1)
  else fpEnd r res s

/-- A write of FP_CMD (R548 check 1). -/
def fpCmd (i : Init) (r key op : Nat) (s : State) : State :=
  if key ≠ 0x464C ∨ op = 0 ∨ op = 3 ∨ fget (fpPage r) FP_STAT.STATE s = 1 then fset (fpPage r) FP_STAT.CMD_ERR 1 s
  else if op = 1 then fpProgram i r s
  else fpErase i r s

/-- A command of a bank ends: the port's result and the bank's DONE note. -/
def flashDone (k who res : Nat) (prog : Bool) (s : State) : State :=
  let r := who % 128
  let s1 := if prog then fpProgEnd r res s else fpEnd r res s
  flcNote (if k = 0 then FLC_NOTE.DONE0 else FLC_NOTE.DONE1)
    (if who < 128 then s1 else fset (fpPage r) FP_STAT.STATE 0 s1)

/-- A line program ends (R549): `readBack` is what the line holds when it is read back. A line whose content was
undefined may or may not be blank (R554). -/
def programDone (k : Nat) (readBack : List Byte) (s : State) : State :=
  match (bankGet k s).prog with
  | none => s
  | some j =>
    let undef := garbledAt j.addr s
    let blank := if undef then freeNat s % 2 == 1 else (memBytes j.addr 32 s).all fun b => b == 0xFF
    let s0 := if undef then drawFree s else s
    let s1 := if blank then memWrite j.addr readBack (eraseRange j.addr 32 s0) else s0
    let s2 := bankPut k { bankGet k s1 with prog := none } (bankSuspended k s1) s1
    flashDone k j.who (if !blank then 8 else if readBack = j.data then 0 else 9) true (flashInvalidate j.addr 32 s2)

/-- A block erase ends (R550). -/
def eraseDone (k : Nat) (blank : Bool) (s : State) : State :=
  match (bankGet k s).erase with
  | none => s
  | some j =>
    if bankState k s ≠ 2 ∨ j.who = 64 then s
    else
      let s1 := bankPut k {} false (eraseRange j.addr 0x10000 s)
      flashDone k j.who (if blank then 0 else 10) false (if blank then s1 else garble j.addr 0x10000 s1)

/-- An erase stops: the bank is SUSPENDED, at once or when the minimum run ends (R551, R552). -/
def bankSuspend (k : Nat) (byRead : Bool) (s : State) : State :=
  let b := bankGet k s
  if b.minRun then bankPut k { b with held := true, byRead := byRead && (b.byRead || !b.held) } false s
  else bankPut k { b with byRead := byRead } true s

/-- An erase continues (R551, R552). -/
def bankResume (k : Nat) (s : State) : State :=
  bankPut k { bankGet k s with byRead := false, minRun := true } false s

/-- A write of FLC_SUSP (R551, R559). -/
def flcSusp (key k : Nat) (susp resume : Bool) (s : State) : State :=
  if key ≠ 0x5355 then s
  else if susp && resume then flcErr FLC_ERR.CMD s
  else if susp then (if bankState k s = 2 then bankSuspend k false s else flcErr FLC_ERR.CMD s)
  else if resume then (if bankState k s = 3 then bankResume k s else flcErr FLC_ERR.CMD s)
  else s

/-- A bank suspended by a read resumes (R552). -/
def autoResume (k : Nat) (s : State) : State :=
  if bankState k s = 3 ∧ (bankGet k s).byRead = true then bankResume k s else s

/-- The minimum run of an erase ends; a SUSPEND held meanwhile takes effect (R551). -/
def minRunEnd (k : Nat) (s : State) : State :=
  let b := bankGet k s
  if bankState k s ≠ 2 ∨ b.minRun = false then s
  else bankPut k { b with minRun := false, held := false } b.held s

/-- A write of FLC_CFG (R544). -/
def flcCfgWrite (data : Word) (s : State) : State :=
  if bitsOf data 2 2 = 3 then flcErr FLC_ERR.RANGE s
  else if bitsOf data 2 2 ≠ fget flcB FLC_CFG.CLK s ∧ (bankState 0 s ≠ 0 ∨ bankState 1 s ≠ 0) then
    flcErr FLC_ERR.CMD s
  else
    let s1 := if bitsOf data 0 1 = fget flcB FLC_CFG.MODE s then s
      else { s with flash := { s.flash with last := none, branch := [] } }
    flcWs (wr flcB (data &&& 0xF1D#32) s1)

/-! ### Reads of the array (R541, R545, R552, R555) -/

/-- What a read meets at its bank (R545): it is served, or it waits; a read suspends an erase under AUTO_SUSP. -/
def flashRead (a : Nat) (s : State) : Bool × State :=
  let k := bankOf a
  match bankState k s with
  | 0 => (true, s)
  | 3 => (true, s)
  | 1 => (false, s)
  | _ =>
    if fis flcB FLC_CFG.AUTO_SUSP s then
      let t := bankSuspend k true s
      (bankState k t == 3, t)
    else (false, s)

/-- The read buffers after a read of the line at `a` in WIDE (R541): a read that did not follow on from the line
before enters the branch cache. -/
def flashBuffer (a : Nat) (s : State) : State :=
  if fis flcB FLC_CFG.MODE s then s
  else
    let l := a / 32 * 32
    let f := s.flash
    let follows := match f.last with
      | some p => decide (p ≤ l) && decide (l ≤ p + 128)
      | none => false
    { s with flash := { f with
        last := some l
        branch := if follows then f.branch else (l :: f.branch.filter fun x => x != l).take 16 } }

/-- What error correction found in the words a read takes is counted (R555). -/
def flashEcc (a : Nat) (ecc : EccSeen) (s : State) : State :=
  match ecc with
  | .clean => s
  | .corrected =>
    flcNote FLC_NOTE.CORR (fset flcB FLC_CORR_ADDR.LINE (a / 32) (fcount flcB FLC_ECC.CORR s))
  | .uncorrectable _ =>
    flcNote FLC_NOTE.UNCORR (fset flcB FLC_UNC_ADDR.LINE (a / 32) (fcount flcB FLC_ECC.UNCORR s))

/-! ### Resets and rooms (R452, R554) -/

/-- A reset meets the banks: what a command was changing is undefined, and every bank is IDLE (R554). -/
def bankReset (k : Nat) (s : State) : State :=
  let b := bankGet k s
  let s1 := match b.prog with
    | some j => garble j.addr 32 s
    | none => s
  let s2 := match b.erase with
    | some j => if j.who = 64 then s1 else garble j.addr 0x10000 s1
    | none => s1
  bankPut k {} false s2

/-- A command of room `r`'s port is marked to leave the port IDLE at its end. -/
def jobForget (r : Nat) : Option FlashJob → Option FlashJob
  | some j => some (if j.who = r then { j with who := 128 + r } else j)
  | none => none

/-- RESET or REMOVE of a room (R554): its port is set to IDLE, at once or when its command has run. -/
def fpRoomReset (r : Nat) (s : State) : State :=
  if fget (fpPage r) FP_STAT.STATE s = 1 then
    let f (b : FlashBank) : FlashBank := { b with erase := jobForget r b.erase, prog := jobForget r b.prog }
    { s with flash := { s.flash with bank0 := f s.flash.bank0, bank1 := f s.flash.bank1 } }
  else fset (fpPage r) FP_STAT.STATE 0 s

/-! ### The commands -/

/-- FLASH_PROGRAM (R549). -/
def execFlashProgram (i : Init) (port : BitVec 6) (key : BitVec 16) (s : State) : Host.Outcome State Fault Refusal :=
  .next (doorStore i (fpPage port.toNat + 0x40) (fpCmd i port.toNat key.toNat 1) s)

/-- FLASH_ERASE (R550). -/
def execFlashErase (i : Init) (port : BitVec 6) (key : BitVec 16) (s : State) : Host.Outcome State Fault Refusal :=
  .next (doorStore i (fpPage port.toNat + 0x40) (fpCmd i port.toNat key.toNat 2) s)

/-- FLASH_PROGRAM_DONE (R549). -/
def execFlashProgramDone (bank : BitVec 1) (readBack : BitVec 256) (s : State) : Host.Outcome State Fault Refusal :=
  .next (programDone bank.toNat (leBytes 32 readBack.toNat) s)

/-- FLASH_ERASE_DONE (R550). -/
def execFlashEraseDone (bank : BitVec 1) (blank : Bool) (s : State) : Host.Outcome State Fault Refusal :=
  .next (eraseDone bank.toNat blank s)

/-- FLASH_SUSPEND (R551). -/
def execFlashSuspend (i : Init) (key : BitVec 16) (bank : BitVec 1) (s : State) : Host.Outcome State Fault Refusal :=
  .next (doorStore i (flcB + 0x20) (flcSusp key.toNat bank.toNat true false) s)

/-- FLASH_RESUME (R551). -/
def execFlashResume (i : Init) (key : BitVec 16) (bank : BitVec 1) (s : State) : Host.Outcome State Fault Refusal :=
  .next (doorStore i (flcB + 0x20) (flcSusp key.toNat bank.toNat false true) s)

/-- FLASH_AUTO_RESUME (R552). -/
def execFlashAutoResume (bank : BitVec 1) (s : State) : Host.Outcome State Fault Refusal :=
  .next (autoResume bank.toNat s)

/-- MINIMUM_RUN_END (R551). -/
def execMinimumRunEnd (bank : BitVec 1) (s : State) : Host.Outcome State Fault Refusal :=
  .next (minRunEnd bank.toNat s)

/-- FLC_CFG_WRITE (R544). -/
def execFlcCfgWrite (i : Init) (data : Word) (s : State) : Host.Outcome State Fault Refusal :=
  .next (doorStore i flcB (flcCfgWrite data) s)

end Sys2Proof.Machine
end

