-- ==== Sys2Proof/Machine/Cipher.lean ====
section
/-!
DEFINITION. The cipher engine (spec/16_cipher.md): the checks of a START, counters for sends, the operations, their
ends, and the common context's lock.
-/

namespace Sys2Proof.Machine

open Reg

/-- The CIP control block. -/
def cipCtl : Nat := 0x400A0000

/-- What context `n` holds. -/
def cipGet (n : Nat) (s : State) : CipCtx := tget (fun _ => ({} : CipCtx)) s.cip.ctxs n

/-- Set what context `n` holds. -/
def cipPut (n : Nat) (v : CipCtx) (s : State) : State :=
  { s with cip := { s.cip with ctxs := tset (fun _ => ({} : CipCtx)) s.cip.ctxs n v } }

/-- MODE of the context. -/
def cipMode (n : Nat) (s : State) : Nat := fget (cipPage n) CIP_CTRL.MODE s
/-- DIR 1: decrypt or verify. -/
def cipDir (n : Nat) (s : State) : Bool := fis (cipPage n) CIP_CTRL.DIR s
/-- KSRC 1: a key slot. -/
def cipSlotKey (n : Nat) (s : State) : Bool := fis (cipPage n) CIP_CTRL.KSRC s
/-- TLEN. -/
def cipTlen (n : Nat) (s : State) : Nat := fget (cipPage n) CIP_CTRL.TLEN s
/-- SLOT. -/
def cipSlot (n : Nat) (s : State) : Nat := fget (cipPage n) CIP_CTRL.SLOT s
/-- ALEN. -/
def cipAlen (n : Nat) (s : State) : Nat := fget (cipPage n) CIP_LEN.ALEN s
/-- MLEN. -/
def cipMlen (n : Nat) (s : State) : Nat := fget (cipPage n) CIP_LEN.MLEN s
/-- STATE is BUSY. -/
def cipBusy (n : Nat) (s : State) : Bool := fget (cipPage n) CIP_STAT.STATE s == 1
/-- A chain is open (R486). -/
def cipChain (n : Nat) (s : State) : Bool := fis (cipPage n) CIP_STAT.CHAIN s

/-- The context's buffer (R480). -/
def cipBuf (n : Nat) : Nat := cipPage n + 0x800

/-- The room that holds the common context (R498). -/
def cipHolder (s : State) : Option Nat :=
  if fget cipCtl CIP_CSTAT.HOLDER s = 0 then none else some (fget cipCtl CIP_CSTAT.HOLDER s - 1)

/-! ### Ends and clears (R487, R490) -/

/-- An operation or chunk ends (R487). -/
def cipEnd (n res : Nat) (s : State) : State :=
  let s1 := fset (cipPage n) CIP_STAT.STATE 2 (fset (cipPage n) CIP_STAT.RESULT res s)
  if n < 64 then pageNote n CIP_NOTE.DONE s1
  else
    let s2 := fset (cipPage n) CIP_NOTE.DONE 1 s1
    match cipHolder s2 with
    | some r => pageNote r CIP_NOTE.COMMON s2
    | none => s2

/-- The context waits for no counter any more, and no chain stays open. -/
def cipForget (n : Nat) (s : State) : State :=
  fset (cipPage n) CIP_STAT.CHAIN 0
    (cipPut n {} { s with cip := { s.cip with waiting := s.cip.waiting.filter fun k => k != n } })

/-- The message region and CIP_TAG are zeroed (R490). -/
def cipWipe (n : Nat) (s : State) : State :=
  wrList (cipPage n + 0x60) (List.replicate 8 0)
    (memWrite (cipBuf n + cipAlen n s) (List.replicate (cipMlen n s) 0) s)

/-- The clear of R490 and R505. -/
def cipClear (n : Nat) (s : State) : State :=
  let b := cipPage n
  let s1 := memClear (fun a => decide (cipBuf n ≤ a) && decide (a < cipBuf n + 0x800)) (cipForget n s)
  let s2 := wrList (b + 0x40) (List.replicate 16 0) (wrList (b + 0x20) (List.replicate 4 0) s1)
  let s3 := wr (b + 0x14) 0 (wr (b + 0x18) 0 (wr (b + 0x1C) 0 s2))
  fset b CIP_STAT.STATE 0 (wr b 0 (wr (b + 0xC) 0 (wr (b + 0x10) 0 s3)))

/-- ABORT (R490). -/
def cipAbort (n : Nat) (s : State) : State :=
  if cipBusy n s then cipEnd n 2 (cipForget n (cipWipe n s)) else s

/-! ### START (R479, R481) -/

/-- Key octets of KLEN. -/
def klenOctets (k : Nat) : Nat := 16 + 8 * k

/-- TLEN is one the mode accepts (R479). -/
def tlenOk (mode t : Nat) : Bool :=
  match mode with
  | 1 => t == 0 || t == 4 || t == 8 || t == 16
  | 2 => t == 4 || t == 8 || decide (12 ≤ t ∧ t ≤ 16)
  | 3 => t == 0
  | 4 => decide (4 ≤ t ∧ t ≤ 16)
  | 5 => decide (4 ≤ t ∧ t ≤ 16)
  | 6 => t == 32
  | 7 => decide (16 ≤ t ∧ t ≤ 32)
  | _ => false

/-- Check 2 of R481. -/
def cipModeOk (n : Nat) (first last : Bool) (s : State) : Bool :=
  let m := cipMode n s
  decide (1 ≤ m ∧ m ≤ 7) && tlenOk m (cipTlen n s) &&
  !(m == 6 && cipDir n s) && !(m == 2 && !cipDir n s && !cipSlotKey n s) &&
  (cipSlotKey n s || fget (cipPage n) CIP_CTRL.KLEN s != 3) &&
  !(m == 1 && !(first && last)) && (first || cipChain n s)

/-- A send (R493, R494): CCM* or GCM with DIR 0 under a slot key, with something to protect. -/
def cipSend (n : Nat) (s : State) : Bool :=
  cipSlotKey n s && !cipDir n s &&
    ((cipMode n s == 1 && (cipTlen n s != 0 || cipMlen n s != 0)) || cipMode n s == 2)

/-- The counter position lies in the associated data (R494). -/
def fcposOk (n : Nat) (s : State) : Bool :=
  !(cipMode n s == 1 && cipSend n s && fis (cipPage n) CIP_FCPOS.EN s) ||
    decide (fget (cipPage n) CIP_FCPOS.OFS s + 4 ≤ cipAlen n s)

/-- Check 3 of R481. -/
def cipLenOk (n : Nat) (first last : Bool) (s : State) : Bool :=
  let m := cipMode n s
  decide (cipAlen n s + cipMlen n s ≤ 2048) &&
  (m == 1 || (m == 2 && first) || cipAlen n s == 0) &&
  (last || cipMlen n s % (if m = 6 ∨ m = 7 then 64 else 16) == 0) &&
  !(m == 4 && cipMlen n s % 16 != 0) && fcposOk n s

/-- Check 4 of R481: the slot is live and the context may use it (R477). -/
def cipKeyOk (n : Nat) (s : State) : Bool :=
  !cipSlotKey n s || (if n < 64 then slotForPage n (cipSlot n s) s else slotForCommon (cipSlot n s) s)

/-- The key a START copies (R478). -/
def cipKey (n : Nat) (s : State) : List Byte :=
  if cipSlotKey n s then (slotKey (cipSlot n s) s).getD []
  else rdBytes (cipPage n + 0x40) 8 s |>.take (klenOctets (fget (cipPage n) CIP_CTRL.KLEN s))

/-- CCM*'s nonce of 13 octets with a frame counter at octets 8–11, the most significant first (R494). -/
def nonceWith (nonce : List Byte) (fc : Nat) : List Byte := nonce.take 8 ++ beBytes 4 fc ++ (nonce.drop 12).take 1

/-- The counter of a send is taken and put where R494 and R496 say. -/
def cipDraw (n k : Nat) (s : State) : State :=
  let b := cipPage n
  if cipMode n s = 1 then
    let r := fcDraw k s
    let c := cipGet n r.2
    let s1 := wr (b + 0x14) (BitVec.ofNat 32 r.1) (cipPut n { c with iv := nonceWith c.iv r.1, wants := none } r.2)
    if fis b CIP_FCPOS.EN s1 then memWrite (cipBuf n + fget b CIP_FCPOS.OFS s1) (leBytes 4 r.1) s1 else s1
  else
    let r := gcDraw k s
    let iv := ((unitId s).take 4).reverse ++ beBytes 8 r.1
    wr64 (b + 0x18) (BitVec.ofNat 64 r.1) (cipPut n { cipGet n r.2 with iv := iv, wants := none } r.2)

/-- The slot can issue the counter that context `n` wants (R524). -/
def cipReady (n k : Nat) (s : State) : Bool := if cipMode n s = 1 then fcReady k s else gcReady k s

/-- Waiting contexts take their counters in order (R497), as far as the marks allow. -/
def cipServe : List Nat → State → State
  | [], s => s
  | n :: r, s =>
    match (cipGet n s).wants with
    | some k =>
      if cipReady n k s then
        cipServe r (cipDraw n k { s with cip := { s.cip with waiting := s.cip.waiting.filter fun x => x != n } })
      else cipServe r s
    | none => cipServe r s

/-- An accepted START (R478, R486, R494). -/
def cipAccept (n : Nat) (first last : Bool) (s : State) : State :=
  let old := cipGet n s
  let iv0 := rdBytes (cipPage n + 0x20) 4 s
  let send := first && cipSend n s
  let c : CipCtx :=
    { key := cipKey n s, iv := if first then iv0 else old.iv, first := first, last := last
      wants := if send then some (cipSlot n s) else none
      aad := if first then [] else old.aad, text := if first then [] else old.text }
  let s1 := fset (cipPage n) CIP_STAT.STATE 1 (cipPut n c s)
  if send then cipServe [n] { s1 with cip := { s1.cip with waiting := s1.cip.waiting ++ [n] } } else s1

/-- A refused START ends the operation at once (R481). -/
def cipRefuse (n res : Nat) (s : State) : State := cipEnd n res (cipForget n s)

/-- START, past check 1 (R481). -/
def cipStart (n : Nat) (first last : Bool) (s : State) : State :=
  if !cipModeOk n first last s then cipRefuse n 7 s
  else if !cipLenOk n first last s then cipRefuse n 8 s
  else if !cipKeyOk n s then cipRefuse n 5 s
  else if first && cipSend n s && slotSpent (cipSlot n s) s then cipRefuse n 6 s
  else cipAccept n first last s

/-- A write of CIP_CMD (R481, R490, R504). -/
def cipCmd (n key : Nat) (start first last abort clear : Bool) (s : State) : State :=
  if key ≠ 0x4350 ∨ (start = true ∧ (cipBusy n s ∨ abort = true ∨ clear = true)) then
    fset (cipPage n) CIP_ERR.CMD 1 s
  else if start then cipStart n first last s
  else
    let s1 := if abort then cipAbort n s else s
    if clear then (if cipBusy n s then fset (cipPage n) CIP_ERR.CMD 1 s1 else cipClear n s1) else s1

/-! ### Operations (R479, R480, R482, R489) -/

/-- Block services of the operation (R482). -/
def cipServices (n : Nat) (first last : Bool) (s : State) : Nat :=
  let m := (cipMlen n s + 15) / 16
  let h := (cipMlen n s + 63) / 64
  let hl := (cipMlen n s + 9 + 63) / 64
  match cipMode n s with
  | 1 => if cipTlen n s = 0 then m
    else 2 + (if cipAlen n s = 0 then 0 else (cipAlen n s + 2 + 15) / 16) + 2 * m
  | 2 => m + (if first then 2 + (cipAlen n s + 15) / 16 else 0) + ofBool last
  | 5 => if first && last then 1 + max 1 m else m + ofBool first
  | 6 => if last then hl else h
  | 7 => (if last then hl + 2 else h) + ofBool first
  | _ => m

/-- What an operation makes: its output, its tag, and the text a chain carries on. -/
def cipCompute (mode : Nat) (dir : Bool) (c : CipCtx) (tlen : Nat) (a m : List Byte) :
    List Byte × List Byte × List Byte :=
  match mode with
  | 1 =>
    let out := ccmCrypt c.key c.iv m
    (out, ccmTag c.key c.iv a (if dir then out else m) tlen, [])
  | 2 =>
    let out := gcmCrypt c.key c.iv c.text.length m
    let text := c.text ++ (if dir then m else out)
    (out, (gcmTag c.key c.iv a text).take tlen, text)
  | 3 => (ctrCrypt c.key (ofBeBytes (fit 16 c.iv)) m, [], [])
  | 4 => (m, (cbcMac c.key (List.replicate 16 0) (c.text ++ m)).take tlen, c.text ++ m)
  | 5 => (m, (cmac c.key (c.text ++ m)).take tlen, c.text ++ m)
  | 6 => (m, sha256 (c.text ++ m), c.text ++ m)
  | _ => (m, (hmac c.key (c.text ++ m)).take tlen, c.text ++ m)

/-- An operation or chunk completes (R480, R486, R487, R489). -/
def cipComplete (n : Nat) (s : State) : State :=
  let c := cipGet n s
  let mode := cipMode n s
  let tlen := cipTlen n s
  let c1 := { c with aad := if c.first then memBytes (cipBuf n) (cipAlen n s) s else c.aad }
  let at_ := cipBuf n + cipAlen n s
  let r := cipCompute mode (cipDir n s) c1 tlen c1.aad (memBytes at_ (cipMlen n s) s)
  let tag := (rdBytes (cipPage n + 0x60) 8 s).take tlen
  let bad := c.last && cipDir n s && tlen != 0 && mode != 3 && tag != r.2.1
  let s0 := { s with cip := { s.cip with services := s.cip.services + cipServices n c.first c.last s } }
  let s1 := memWrite at_ (if bad then List.replicate (cipMlen n s) 0 else r.1) s0
  let s2 := if c.last && !cipDir n s && tlen != 0
    then wrList (cipPage n + 0x60) (wordsOfBytes (fit 32 r.2.1)) s1 else s1
  let s3 := if mode = 3 then
      wrList (cipPage n + 0x20) (wordsOfBytes (beBytes 16
        ((ofBeBytes (fit 16 c.iv) + (cipMlen n s + 15) / 16) % 2 ^ 128))) s2
    else s2
  let s4 := if c.last then cipForget n s3
    else fset (cipPage n) CIP_STAT.CHAIN 1 (cipPut n
      { c1 with text := r.2.2, iv := rdBytes (cipPage n + 0x20) 4 s3 |> fun x => if mode = 3 then x else c1.iv } s3)
  rngRun (cipEnd n (ofBool bad) s4)

/-- The operation of a BUSY context ends, once the engine is seeded and the counter is drawn (R493, R524). -/
def cipDone (n : Nat) (s : State) : State :=
  if cipBusy n s && s.cip.seeded && (cipGet n s).wants.isNone then cipComplete n s else s

/-! ### The common context (R498–R501) -/

/-- A read of CIP_LOCK (R498). -/
def cipLockRead (room : Nat) (s : State) : Word × State :=
  match cipHolder s with
  | none => (0, fset cipCtl CIP_CSTAT.HOLDER (room + 1) s)
  | some r => (if r = room then 0 else BitVec.ofNat 32 (r + 1), s)

/-- The hold ends (R500, R501): an operation in progress ends with `res`, the context is cleared, the lock free. -/
def cipLockFree (res : Nat) (s : State) : State :=
  let s1 := if cipBusy 64 s then cipEnd 64 res (cipForget 64 s) else s
  fset cipCtl CIP_CSTAT.HOLDER 0 (cipClear 64 s1)

/-- A write of CIP_LOCK (R501). -/
def cipLockRelease (room : Nat) (release : Bool) (s : State) : State :=
  if release && cipHolder s == some room then cipLockFree 2 s else s

/-- CIP_CFORCE (R501, R508). -/
def cipForce (key : Nat) (release : Bool) (s : State) : State :=
  if key = 0x4346 ∧ release = true ∧ (cipHolder s).isSome then cipLockFree 4 s else s

/-- The hold watchdog expires (R500). -/
def cipExpire (s : State) : State :=
  match cipHolder s with
  | none => s
  | some r =>
    fcount cipCtl CIP_CSTAT.EXP_CNT (fset cipCtl CIP_CSTAT.LAST_EXP (r + 1)
      (pageNote r CIP_NOTE.LOCK_EXPIRED (cipLockFree 3 s)))

/-- RESET or REMOVE of a room (R491): its page is cleared, its CIP_NOTE too, and its hold ends; no event is raised. -/
def cipRoomReset (r : Nat) (s : State) : State :=
  let s1 := if cipHolder s == some r then
      fset cipCtl CIP_CSTAT.HOLDER 0 (cipClear 64
        (if cipBusy 64 s then fset (cipPage 64) CIP_STAT.RESULT 9 s else s))
    else s
  wr (cipPage r + 0x80) 0 (cipClear r (if cipBusy r s1 then fset (cipPage r) CIP_STAT.RESULT 2 s1 else s1))

/-- The key RAM is zeroised (R491, R530): every context is cleared, an operation in progress ends with CLEARED. -/
def cipZeroise (s : State) : State :=
  (List.range 65).foldl
    (fun t n => cipClear n (if cipBusy n t then cipEnd n 9 (cipForget n t) else t)) s

/-- PD29 powers up (R491, R493): every context is IDLE and clear, and a seed is wanted. -/
def cipPowerUp (s : State) : State :=
  let s1 := (List.range 65).foldl
    (fun t n => wr (cipPage n + 0x80) 0 (wr (cipPage n + 0x84) 0 (wr (cipPage n + 8) 0 (cipClear n t)))) s
  rngRun { wr cipCtl 200 (wr (cipCtl + 4) 0 s1) with cip := {} }

/-! ### Register writes and reads -/

/-- A write in a context's page other than CIP_CMD and CIP_LOCK (R486, R488, R502–R507). -/
def cipWrite (n off : Nat) (data : Word) (s : State) : State :=
  let b := cipPage n
  let keyed := off = 0 ∨ (0x20 ≤ off ∧ off < 0x30) ∨ (0x40 ≤ off ∧ off < 0x60)
  let guarded := keyed ∨ off = 0xC ∨ off = 0x10 ∨ (0x60 ≤ off ∧ off < 0x80) ∨ 0x800 ≤ off
  if off = 0x80 ∨ off = 0x84 then wr (b + off) (rd (b + off) s &&& ~~~ data) s
  else if ¬ guarded then s
  else if cipBusy n s then fset b CIP_ERR.BUSY 1 s
  else if keyed ∧ cipChain n s = true then fset b CIP_ERR.CHAIN 1 s
  else if 0x800 ≤ off then memWrite (b + off) (leBytes 4 data.toNat) s
  else
    let mask : Word := if off = 0 then 0x3F7FFF else if off = 0xC then 0x0FFF0FFF else if off = 0x10 then 0x800007FF
      else 0xFFFFFFFF
    wr (b + off) (data &&& mask) s

/-- A read in a context's page other than CIP_LOCK (R488, R502). -/
def cipRead (n off : Nat) (s : State) : Word :=
  if cipBusy n s && (decide (0x800 ≤ off) || decide (0x60 ≤ off ∧ off < 0x80)) then 0
  else if off = 4 ∨ (0x40 ≤ off ∧ off < 0x60) ∨ off = 0xFC then 0
  else if 0x800 ≤ off then BitVec.ofNat 32 (memNat (cipPage n + off) 4 s)
  else rd (cipPage n + off) s

/-- The common context answers its holder alone (R499). -/
def cipHeld (room : Nat) (s : State) : Bool := cipHolder s == some room

/-- A CIP_CMD write on a page, or on the common context by its holder. -/
def cipCmdAs (room n key : Nat) (start first last abort clear : Bool) (s : State) : State :=
  if n = 64 ∧ cipHeld room s = false then s else cipCmd n key start first last abort clear s

/-- CIP_BUSY_LO, _HI and _X (R508); the link port's operations end within the commands that make them. -/
def cipBusyView (off : Nat) (s : State) : Word :=
  if off = 0x14 then BitVec.ofNat 32 (ofBool (cipBusy 64 s))
  else (List.range 32).foldl
    (fun w k => if cipBusy (if off = 0xC then k else 32 + k) s then bitsPut w k 1 1 else w) 0

/-! ### The commands -/

/-- CIP_START (R481). -/
def execCipStart (i : Init) (ctx : Fin 65) (key : BitVec 16) (first last abort clear : Bool) (s : State) :
    Host.Outcome State Fault Refusal :=
  .next (doorStore i (cipPage ctx.val + 4)
    (cipCmdAs (roomOf i s) ctx.val key.toNat true first last abort clear) s)

/-- CIP_ABORT (R490). -/
def execCipAbort (i : Init) (ctx : Fin 65) (key : BitVec 16) (clear : Bool) (s : State) :
    Host.Outcome State Fault Refusal :=
  .next (doorStore i (cipPage ctx.val + 4)
    (cipCmdAs (roomOf i s) ctx.val key.toNat false false false true clear) s)

/-- CIP_CLEAR (R490). -/
def execCipClear (i : Init) (ctx : Fin 65) (key : BitVec 16) (s : State) : Host.Outcome State Fault Refusal :=
  .next (doorStore i (cipPage ctx.val + 4)
    (cipCmdAs (roomOf i s) ctx.val key.toNat false false false false true) s)

/-- CIP_OPERATION_DONE (R487). -/
def execCipOperationDone (ctx : Fin 65) (s : State) : Host.Outcome State Fault Refusal := .next (cipDone ctx.val s)

/-- CIP_LOCK_READ (R498). -/
def execCipLockRead (i : Init) (s : State) : Host.Outcome State Fault Refusal :=
  .next (doorLoad i (cipPage 64 + 0xFC) (fun t => cipLockRead (roomOf i t) t) s)

/-- CIP_LOCK_RELEASE (R501). -/
def execCipLockRelease (i : Init) (s : State) : Host.Outcome State Fault Refusal :=
  .next (doorStore i (cipPage 64 + 0xFC) (fun t => cipLockRelease (roomOf i t) true t) s)

/-- CIP_CFORCE (R501). -/
def execCipCforce (i : Init) (key : BitVec 16) (s : State) : Host.Outcome State Fault Refusal :=
  .next (doorStore i (cipCtl + 8) (cipForce key.toNat true) s)

/-- CIP_LOCK_EXPIRED (R500). -/
def execCipLockExpired (s : State) : Host.Outcome State Fault Refusal := .next (cipExpire s)

end Sys2Proof.Machine
end

