-- ==== Sys2Proof/Machine/Keys.lean ====
section
/-!
DEFINITION. Key port commands, the shelf's upkeep, the owner's commands, the accelerator and the entropy commands
(spec/17_keys_tamper.md). Tamper destruction stands with the resets.
-/

namespace Sys2Proof.Machine

open Reg

/-! ### Key port commands (R523) -/

/-- KP_RES as a command ends (R534). -/
def kpEnd (r res slot entry : Nat) (s : State) : State :=
  let b := kpPage r
  fset b KP_RES.STATE 2 (fset b KP_RES.RESULT res (fset b KP_RES.SLOT slot (fset b KP_RES.ENTRY entry s)))

/-- A port's command in progress. -/
def kpGet (r : Nat) (s : State) : Option KpCmd := tget (fun _ => none) s.keys.ports r

/-- Set a port's command in progress. -/
def kpPut (r : Nat) (c : Option KpCmd) (s : State) : State :=
  { s with keys := { s.keys with ports := tset (fun _ => none) s.keys.ports r c } }

/-- KP_KEY0–7 are cleared (R523). -/
def kpKeyClear (r : Nat) (s : State) : State := wrList (kpPage r + 0x20) (List.replicate 8 0) s

/-- The identifier in KP_ID (R534). -/
def kpIdent (r : Nat) (s : State) : Nat := (rd64 (kpPage r + 0x40) s).toNat

/-- The arguments a command takes. -/
def kpArgs (r op cls sel klen : Nat) (s : State) : KpCmd :=
  { op := op, cls := cls, sel := sel, klen := klen
    key := (rdBytes (kpPage r + 0x20) 8 s).take (klenOctets klen)
    arg := fget (kpPage r) KP_ARG.ARG s, label := rdBytes (kpPage r + 0x10) 4 s, ident := kpIdent r s }

/-- Step 2 of R523's judgement. -/
def kpRangeBad (c : KpCmd) : Bool :=
  c.op == 0 || decide (7 ≤ c.op) || decide (2 ≤ c.cls) || c.klen == 3 ||
    (decide (c.op ≤ 2) && (c.sel == 0 || c.sel == 3)) || (c.op == 4 && decide (128 ≤ c.arg))

/-- A write of KP_CMD (R523, R534). -/
def kpCmd (r key op cls sel klen : Nat) (s : State) : State :=
  if key ≠ 0x4B59 then s
  else
    let c := kpArgs r op cls sel klen s
    let s1 := kpKeyClear r s
    if fget (kpPage r) KP_RES.STATE s = 1 then fset (kpPage r) KP_RES.BREF 1 s1
    else
      let s2 := fset (kpPage r) KP_RES.BREF 0 s1
      if kpRangeBad c then kpEnd r 8 0xFF 0 (keyErr KEY_ERR.RANGE s2)
      else if !rootValid s2 then kpEnd r 6 0xFF 0 s2
      else if unmeasured r s2 then kpEnd r 5 0xFF 0 s2
      else kpPut r (some c) (fset (kpPage r) KP_RES.STATE 1 s2)

/-- What a command answers: RESULT, SLOT, ENTRY and the identifier it writes. -/
structure KpAnswer where
  res : Nat
  slot : Nat := 0xFF
  entry : Nat := 0
  ident : Option Nat := none

/-- A free slot: the one the key unit takes, when it is free; none when every slot is live. -/
def freeSlot (want : Nat) (s : State) : Option Nat :=
  if !slotLive want s then some want else (List.range 128).find? fun k => !slotLive k s

/-- A free entry: the one the key unit takes, when it is free; none when the shelf is full. -/
def freeEntry (want : Nat) (s : State) : Option Nat :=
  if (shelfGet want s).isNone then some want else (List.range 512).find? fun e => (shelfGet e s).isNone

/-- A new entry is recorded (R522). -/
def shelfCreate (r cls sel : Nat) (key : List Byte) (ident : Nat) (e : Nat) (s : State) : ShelfEntry × State :=
  let v : ShelfEntry :=
    { key := key, owner := r, cls := cls, sel := sel, meas := measGet r sel s, gen := rootGen s, ident := ident
      serial := s.keys.serial }
  (v, shelfLog (.entry v.serial) (shelfPut e (some v) { s with keys := { s.keys with serial := s.keys.serial + 1 } }))

/-- LOAD and DERIVE of a key (R523): an entry of its identifier is reused, else one is made. -/
def keyPlace (r cls sel : Nat) (key : List Byte) (slot entry : Nat) (s : State) : KpAnswer × State :=
  if cls = 1 ∧ r ≠ 0 then ({ res := 7 }, s)
  else
    let ident := keyIdent r cls key s
    match shelfByIdent ident s with
    | some (e, v) =>
      (match entrySlot e s with
       | some k => ({ res := 3, slot := k, entry := e, ident := some ident }, s)
       | none =>
         match freeSlot slot s with
         | some k => ({ res := 0, slot := k, entry := e, ident := some ident }, slotLoad k e v s)
         | none => ({ res := 1 }, s))
    | none =>
      match freeSlot slot s, freeEntry entry s with
      | none, _ => ({ res := 1 }, s)
      | some _, none => ({ res := 2 }, s)
      | some k, some e =>
        let v := shelfCreate r cls sel key ident e s
        ({ res := 0, slot := k, entry := e, ident := some ident }, slotLoad k e v.1 v.2)

/-- UNWRAP (R523). -/
def keyUnwrap (r e slot : Nat) (s : State) : KpAnswer × State :=
  match shelfFind e s with
  | none => ({ res := 9 }, s)
  | some v =>
    if v.owner ≠ r then ({ res := 4 }, s)
    else match entrySlot e s with
      | some k => ({ res := 3, slot := k, entry := e, ident := some v.ident }, s)
      | none =>
        if measGet r v.sel s ≠ v.meas then ({ res := 5 }, s)
        else match freeSlot slot s with
          | some k => ({ res := 0, slot := k, entry := e, ident := some v.ident }, slotLoad k e v s)
          | none => ({ res := 1 }, s)

/-- UNLOAD (R523). -/
def keyUnload (r k : Nat) (s : State) : KpAnswer × State :=
  if !slotLive k s then ({ res := 9 }, s)
  else if slotOwner k s ≠ r then ({ res := 4 }, s)
  else ({ res := 0, entry := slotEntryNo k s }, slotUnload k s)

/-- DELETE (R523). -/
def keyDelete (r e : Nat) (s : State) : KpAnswer × State :=
  match shelfFind e s with
  | none => ({ res := 9 }, s)
  | some v =>
    if v.owner ≠ r then ({ res := 4 }, s)
    else
      let s1 := match entrySlot e s with
        | some k => slotUnload k s
        | none => s
      ({ res := 0, entry := e }, shelfLog (.deletion v.serial) (shelfPut e none s1))

/-- FIND (R523): the room's own entries alone. -/
def keyFind (r ident : Nat) (s : State) : KpAnswer × State :=
  match (shelfEntries s).find? fun p => p.2.ident == ident && p.2.owner == r && p.2.gen == rootGen s with
  | some (e, _) => ({ res := 0, slot := (entrySlot e s).getD 0xFF, entry := e }, s)
  | none => ({ res := 9 }, s)

/-- A command is carried out (R523). -/
def kpRun (r : Nat) (c : KpCmd) (slot entry : Nat) (s : State) : KpAnswer × State :=
  match c.op with
  | 1 => keyPlace r c.cls c.sel c.key slot entry s
  | 2 => keyPlace r c.cls c.sel
      (deriveKey (rootKey s) c.label r c.sel (measGet r c.sel s) (rootGen s) (klenOctets c.klen)) slot entry s
  | 3 => keyUnwrap r c.arg slot s
  | 4 => keyUnload r c.arg s
  | 5 => keyDelete r c.arg s
  | _ => keyFind r c.ident s

/-- The key unit can program shelf lines now (R523, R531, R553): no compaction, no clearing, bank 1 not in PROGRAM. -/
def shelfReady (s : State) : Bool :=
  !fis keyB KEY_STAT.COMPACT s && !fis keyB KEY_STAT.CLEARING s && bankState 1 s != 1 && pdOn 27 s

/-- Sends wait for counters of slot `k` (R524). -/
def slotAwaited (k : Nat) (s : State) : Bool := s.cip.waiting.any fun n => (cipGet n s).wants == some k

/-- A key port command completes (R523). `slot` and `entry` are the free ones the key unit takes; `bad` tells that
the entry's record fails its check, so that it is ignored (R525). -/
def kpDone (r slot entry : Nat) (bad : Bool) (s : State) : State :=
  match kpGet r s with
  | none => s
  | some c =>
    if c.op ≠ 6 ∧ !shelfReady s then s
    else if c.op = 4 ∧ slotAwaited c.arg s then s
    else
      let a := if bad ∧ (c.op = 3 ∨ c.op = 5) then ({ res := 9 }, keyErr KEY_ERR.SHELF_BAD (shelfPut c.arg none s))
        else kpRun r c slot entry s
      let s1 := match a.1.ident with
        | some v => wr64 (kpPage r + 0x40) (BitVec.ofNat 64 v) a.2
        | none => a.2
      kpPut r none (kpEnd r a.1.res a.1.slot a.1.entry s1)

/-- A mark line program ends (R524): the marks stand and waiting sends proceed, or after three failures the slot is
SPENT, and the sends that wait are refused as on any SPENT slot. -/
def markDone (k : Nat) (ok : Bool) (s : State) : State :=
  match (slotGet k s).marking, shelfGet (slotEntryNo k s) s with
  | some (f, g), some v =>
    if ok then
      let s1 := shelfLog (.mark v.serial) (shelfPut (slotEntryNo k s) (some { v with fcMark := f, gcMark := g })
        (slotPut k { slotGet k s with marking := none } s))
      cipServe s1.cip.waiting s1
    else
      let s1 := spend k (keyErr KEY_ERR.MARK_FAIL (slotPut k { slotGet k s with marking := none } s))
      s1.cip.waiting.foldl (fun t n => if (cipGet n t).wants = some k then cipRefuse n 6 t else t) s1
  | _, _ => s

/-! ### Upkeep of the shelf (R525, R531) -/

/-- A compaction begins: fewer than two erased blocks remain, or the oldest block is due by its days. -/
def compactStart (due : Bool) (s : State) : State :=
  if fis keyB KEY_STAT.COMPACT s ∨ s.keys.log = [] ∨ (due = false ∧ s.keys.log.length < 15) then s
  else fset keyB KEY_STAT.COMPACT 1 s

/-- A record still stands: its entry exists and no later mark replaces it. -/
def recLive (r : ShelfRec) (later : List ShelfRec) (s : State) : Bool :=
  match r with
  | .entry n => (shelfEntries s).any fun p => p.2.serial == n
  | .mark n => ((shelfEntries s).any fun p => p.2.serial == n) && !later.contains (.mark n)
  | .deletion _ => false

/-- The records that stand, of a list that others follow. -/
def recsLive (s : State) (after : List ShelfRec) : List ShelfRec → List ShelfRec
  | [] => []
  | r :: l => if recLive r (l ++ after) s then r :: recsLive s after l else recsLive s after l

/-- A compaction ends (R525): the oldest block's live records are copied forward and the block is erased. -/
def compactDone (s : State) : State :=
  if !fis keyB KEY_STAT.COMPACT s then s
  else
    match s.keys.log with
    | [] => fset keyB KEY_STAT.COMPACT 0 s
    | (b, recs) :: rest =>
      let live := recsLive s (rest.flatMap fun e => e.2) recs
      let log0 := if rest = [] then s.keys.log ++ [((b + 1) % 16, [])] else s.keys.log
      let log1 := (live.foldl (fun l r => logAppend r l) log0).drop 1
      fset keyB KEY_STAT.COMPACT 0 (eraseCount (752 + b) { s with keys := { s.keys with log := log1 } })

/-- The background erase of entries of an earlier root ends (R531). -/
def clearingDone (s : State) : State :=
  if !fis keyB KEY_STAT.CLEARING s then s
  else
    let t := (shelfEntries s).foldl (fun t p => if p.2.gen = rootGen s then t else shelfPut p.1 none t) s
    fset keyB KEY_STAT.CLEARING 0 t

/-! ### The owner's commands (R511) -/

/-- KEY_LIFE.CMD_ERR. -/
def lifeErr (e : Nat) (s : State) : State := fset keyB KEY_LIFE.CMD_ERR e s

/-- The staged public key and signature: 32 octets each. -/
def ownStage (k : Nat) (s : State) : List Byte := rdBytes (keyB + 0x200 + 32 * k) 8 s

/-- A new owner key is stored and becomes current. -/
def ownerStore (s : State) : State :=
  let key := ownStage 0 s ++ ownStage 1 s
  let s1 := wrList (keyB + 0x100) (wordsOfBytes key) { s with keys := { s.keys with owners := s.keys.owners ++ [key] } }
  lifeErr 0 (fset keyB KEY_LIFE.OWNER_N (s1.keys.owners.length) s1)

/-- The staged key is a valid point. -/
def stagedPointOk (s : State) : Bool := p256Valid (ofBeBytes (ownStage 0 s)) (ofBeBytes (ownStage 1 s))

/-- ENROLL (R511); the debug state is OPEN until it (R647, R666). -/
def enroll (s : State) : State :=
  if fget keyB KEY_LIFE.STATE s ≠ 1 then lifeErr 1 s
  else if fget 0x40000000 LIC_STAT.STATE s ≠ 2 then lifeErr 2 s
  else if !stagedPointOk s then lifeErr 3 s
  else fset 0x40150000 DBG_STAT.STATE 1 (fset keyB KEY_LIFE.STATE 2 (ownerStore s))

/-- The staged signature verifies under the current owner key (R511). -/
def rotateSigned (s : State) : Bool :=
  let cur := rdBytes (keyB + 0x100) 16 s
  let msg := ascii "QOWN" ++ unitId s ++ ownStage 0 s ++ ownStage 1 s ++
    [BitVec.ofNat 8 (fget keyB KEY_LIFE.OWNER_N s)]
  ecdsaVerify (ofBeBytes (cur.take 32)) (ofBeBytes (cur.drop 32)) (ofBeBytes (sha256 msg))
    (ofBeBytes (ownStage 2 s)) (ofBeBytes (ownStage 3 s)) == 0

/-- ROTATE (R511). -/
def rotate (s : State) : State :=
  if fget keyB KEY_LIFE.STATE s ≠ 2 then lifeErr 1 s
  else if 8 ≤ fget keyB KEY_LIFE.OWNER_N s then lifeErr 5 s
  else if !rotateSigned s then lifeErr 4 s
  else ownerStore s

/-- A write of KEY_LIFE_CMD (R511, R534). -/
def lifeCmd (key op : Nat) (s : State) : State :=
  if key ≠ 0x4F57 then s else if op = 1 then enroll s else if op = 2 then rotate s else s

/-! ### The accelerator (R526) -/

/-- Octets of PK_BUF. -/
def pkBuf (off n : Nat) (s : State) : List Byte := rdBytes (keyB + 0x1100 + off) (n / 4) s

/-- An accelerator operation ends: PK_DONE fires (R526, R533). -/
def pkEnd (res : Nat) (s : State) : State :=
  note keyB PK_STAT.DONE 1023 (fset keyB PK_STAT.BUSY 0 (fset keyB PK_STAT.RESULT res
    { s with keys := { s.keys with pk := .idle } }))

/-- ECDH is refused as LOAD is (R526, R534): 0 when it may run. -/
def ecdhRefusal (s : State) : Nat :=
  if fget (kpPage 0) KP_RES.STATE s = 1 then 10
  else if !rootValid s then 6
  else if unmeasured 0 s then 5
  else 0

/-- A write of PK_CMD (R526, R534, R562): ignored while BUSY or with a wrong KEY. -/
def pkCmd (key op : Nat) (s : State) : State :=
  if key ≠ 0x504B ∨ fis keyB PK_STAT.BUSY s then s
  else if op = 1 then fset keyB PK_STAT.BUSY 1 { s with keys := { s.keys with pk := .verify } }
  else if op = 2 then
    if ecdhRefusal s ≠ 0 then pkEnd (ecdhRefusal s) s
    else
      let c := { kpArgs 0 1 1 1 0 s with key := pkBuf 0 64 s, klen := freeNat s % 3 }
      rngRun (fset keyB PK_STAT.BUSY 1 { drawFree s with keys := { s.keys with pk := .ecdh c none } })
  else keyErr KEY_ERR.RANGE s

/-- An accelerator operation of PK_CMD ends (R526). An ECDH's private key, and the key made of its shared secret,
follow free functions: the spec gives neither the drawing nor the input of R519. -/
def pkDone (slot entry : Nat) (s : State) : State :=
  match s.keys.pk with
  | .verify =>
    pkEnd (ecdsaVerify (ofBeBytes (pkBuf 0 32 s)) (ofBeBytes (pkBuf 0x20 32 s)) (ofBeBytes (pkBuf 0x40 32 s))
      (ofBeBytes (pkBuf 0x60 32 s)) (ofBeBytes (pkBuf 0x80 32 s))) s
  | .ecdh c (some b) =>
    if !shelfReady s then s
    else
      let d := Config.ephemeral b
      let own := (p256Mul 256 d (some p256G)).getD (0, 0)
      let s1 := wrList (keyB + 0x1140) (wordsOfBytes (beBytes 32 own.1 ++ beBytes 32 own.2)) s
      let key := (List.range (klenOctets c.klen)).map
        (Config.sharedKey (ofBeBytes c.key) d (rootKey s1) c.label (measGet 0 1 s1))
      let a := keyPlace 0 1 1 key slot entry s1
      pkEnd a.1.res a.2
  | _ => s

/-! ### The commands -/

/-- KP_LOAD (R523). -/
def execKpLoad (i : Init) (room : BitVec 6) (key : BitVec 16) (cls sel klen : BitVec 2) (s : State) :
    Host.Outcome State Fault Refusal :=
  .next (doorStore i (kpPage room.toNat) (kpCmd room.toNat key.toNat 1 cls.toNat sel.toNat klen.toNat) s)

/-- KP_DERIVE (R523). -/
def execKpDerive (i : Init) (room : BitVec 6) (key : BitVec 16) (cls sel klen : BitVec 2) (s : State) :
    Host.Outcome State Fault Refusal :=
  .next (doorStore i (kpPage room.toNat) (kpCmd room.toNat key.toNat 2 cls.toNat sel.toNat klen.toNat) s)

/-- KP_UNWRAP (R523). -/
def execKpUnwrap (i : Init) (room : BitVec 6) (key : BitVec 16) (cls sel klen : BitVec 2) (s : State) :
    Host.Outcome State Fault Refusal :=
  .next (doorStore i (kpPage room.toNat) (kpCmd room.toNat key.toNat 3 cls.toNat sel.toNat klen.toNat) s)

/-- KP_UNLOAD (R523). -/
def execKpUnload (i : Init) (room : BitVec 6) (key : BitVec 16) (cls sel klen : BitVec 2) (s : State) :
    Host.Outcome State Fault Refusal :=
  .next (doorStore i (kpPage room.toNat) (kpCmd room.toNat key.toNat 4 cls.toNat sel.toNat klen.toNat) s)

/-- KP_DELETE (R523). -/
def execKpDelete (i : Init) (room : BitVec 6) (key : BitVec 16) (cls sel klen : BitVec 2) (s : State) :
    Host.Outcome State Fault Refusal :=
  .next (doorStore i (kpPage room.toNat) (kpCmd room.toNat key.toNat 5 cls.toNat sel.toNat klen.toNat) s)

/-- KP_FIND (R523). -/
def execKpFind (i : Init) (room : BitVec 6) (key : BitVec 16) (cls sel klen : BitVec 2) (s : State) :
    Host.Outcome State Fault Refusal :=
  .next (doorStore i (kpPage room.toNat) (kpCmd room.toNat key.toNat 6 cls.toNat sel.toNat klen.toNat) s)

/-- KP_COMMAND_DONE (R523). -/
def execKpCommandDone (room : BitVec 6) (slot : BitVec 7) (entry : BitVec 9) (bad : Bool) (s : State) :
    Host.Outcome State Fault Refusal := .next (kpDone room.toNat slot.toNat entry.toNat bad s)

/-- MARK_PROGRAMMED (R524). -/
def execMarkProgrammed (slot : BitVec 7) (ok : Bool) (s : State) : Host.Outcome State Fault Refusal :=
  .next (markDone slot.toNat ok s)

/-- SHELF_COMPACTION (R525). -/
def execShelfCompaction (due : Bool) (s : State) : Host.Outcome State Fault Refusal := .next (compactStart due s)

/-- SHELF_COMPACTION_DONE (R525). -/
def execShelfCompactionDone (s : State) : Host.Outcome State Fault Refusal := .next (compactDone s)

/-- SHELF_CLEARING_DONE (R531). -/
def execShelfClearingDone (s : State) : Host.Outcome State Fault Refusal := .next (clearingDone s)

/-- ENROLL (R511); the debug state is OPEN until it (R647, R666). -/
def execEnroll (i : Init) (key : BitVec 16) (s : State) : Host.Outcome State Fault Refusal :=
  .next (doorStore i (keyB + 0xC) (lifeCmd key.toNat 1) s)

/-- ROTATE (R511). -/
def execRotate (i : Init) (key : BitVec 16) (s : State) : Host.Outcome State Fault Refusal :=
  .next (doorStore i (keyB + 0xC) (lifeCmd key.toNat 2) s)

/-- PK_VERIFY (R526). -/
def execPkVerify (i : Init) (key : BitVec 16) (s : State) : Host.Outcome State Fault Refusal :=
  .next (doorStore i (keyB + 0x1000) (pkCmd key.toNat 1) s)

/-- PK_ECDH (R526). -/
def execPkEcdh (i : Init) (key : BitVec 16) (s : State) : Host.Outcome State Fault Refusal :=
  .next (doorStore i (keyB + 0x1000) (pkCmd key.toNat 2) s)

/-- PK_DONE (R526). -/
def execPkDone (slot : BitVec 7) (entry : BitVec 9) (s : State) : Host.Outcome State Fault Refusal :=
  .next (pkDone slot.toNat entry.toNat s)

/-- RNG_STARTUP_DONE (R513). -/
def execRngStartupDone (s : State) : Host.Outcome State Fault Refusal :=
  .next (if fget rngB RNG_STAT.STATE s = 1 then fset rngB RNG_STAT.STATE 2 s else s)

/-- RNG_BLOCK_RELEASE (R513): the 512 raw bits, the first in the most significant place. -/
def execRngBlockRelease (raw : BitVec 512) (s : State) : Host.Outcome State Fault Refusal :=
  .next (rngRelease (beBytes 64 raw.toNat) s)

/-- RNG_TEST_FAIL (R514). -/
def execRngTestFail (rct : Bool) (rawBit : Word64) (s : State) : Host.Outcome State Fault Refusal :=
  .next (rngFail rct rawBit.toNat s)

/-- A write of RNG_CMD (R514, R535). -/
def rngCmd (key : Nat) (restart : Bool) (s : State) : State :=
  if key = 0x524E ∧ restart = true ∧ fget rngB RNG_STAT.STATE s ≠ 0 then rngStart s else s

/-- RNG_RESTART (R514). -/
def execRngRestart (i : Init) (key : BitVec 16) (s : State) : Host.Outcome State Fault Refusal :=
  .next (doorStore i (rngB + 8) (rngCmd key.toNat true) s)

/-- RNG_DATA_READ (R516). -/
def execRngDataRead (i : Init) (s : State) : Host.Outcome State Fault Refusal := .next (doorLoad i rngB rngDataRead s)

end Sys2Proof.Machine
end

