-- ==== Sys2Proof/Machine/RoomEnd.lean ====
section
/-!
DEFINITION. RESET and REMOVE of a room, with what each block returns to its reset state (R449, R452, R491, R520,
R554), and the LEDG_CMD that waited for an image (R572).
-/

namespace Sys2Proof.Machine

open Reg

/-- The registers of room `r`'s job port and of its transmit queue's window (R343, R363). -/
def roomLinkReg (r a : Nat) : Bool := decide (jobB r ≤ a ∧ a < jobB r + 0x100)

/-- The room's jobs return to FREE; a frame of one that is on air is muted (R452). -/
def jobsRoomReset (r : Nat) (s : State) : State :=
  let mine (fe : Fe) (t : State) : Bool := match airGet fe t with
    | some f => (match f.who with
      | .job q _ => q.toNat == r
      | _ => false)
    | none => false
  let s1 := (if mine .a s then airAbort .a 9 s else s)
  let s2 := (if mine .b s1 then airAbort .b 9 s1 else s1)
  let s3 := (List.range 4).foldl (fun t k => jobPut r k none t) s2
  armedShow .b (armedShow .a (resetRegs (roomLinkReg r) s3))

/-- The room's transmit queue is empty, as a carve leaves it (R452). -/
def queueRoomReset (r : Nat) (s : State) : State :=
  if queueCarved (256 + r) s then queCarve (256 + r) (rd (0x40040000 + 0x400 + 4 * (256 + r)) s) s else s

/-- What RESET clears (R452, R653). -/
def resetRoom (r : Nat) (s : State) : State :=
  let s1 := fset (rstat r) LEDG_RSTAT.CTX_VALID 0 (destSet (3 + r) { destGet (3 + r) s with pend := [], levels := [] } s)
  let s2 := fset (wdogPage r) WDOG_STAT.COUNT 0 s1
  let s3 := queueRoomReset r (jobsRoomReset r (fpRoomReset r (phRoomReset r (cipRoomReset r s2))))
  wr (0x40150100 + 4 * r) 0 s3

/-- RESET (R449, R452). -/
def roomReset (r : Nat) (s : State) : Nat × State :=
  if r = 0 then (7, s)
  else if !hasEntry r s then (2, s)
  else if !isSuspended r s then (8, s)
  else (0, resetRoom r s)

/-- REMOVE (R449, R491, R520, R554). -/
def roomRemove (r : Nat) (s : State) : Nat × State :=
  if r = 0 then (7, s)
  else if !hasEntry r s then (2, s)
  else if !isSuspended r s then (8, s)
  else if (residentCore r s).isSome then (4, s)
  else (0, fset (rstat r) LEDG_RSTAT.RAN 0 (fset (rstat r) LEDG_RSTAT.CTX_VALID 0
    (fset (rstat r) LEDG_RSTAT.SUSP 0 (ledgerSet r none (fpRoomReset r (measClear r (cipRoomReset r s)))))))

/-- A room command by its number. -/
def roomCommand (op core room : Nat) (s : State) : Nat × State :=
  match op with
  | 1 => roomCommit room s
  | 2 => roomSuspend room s
  | 3 => roomResume room s
  | 4 => roomReset room s
  | 5 => roomSwitch core room s
  | 7 => roomRemove room s
  | _ => (0, coreGate core (parkCore core s))

/-- The write of an image has ended: a command that waited for it is carried out (R572). -/
def ledgWaited (s : State) : State :=
  match s.upd.waits with
  | some w =>
    ledgRun w.op (roomCommand w.op w.core w.room)
      (fset ledgB LEDG_STAT.BUSY 0 { s with upd := { s.upd with waits := none } })
  | none => s

/-! ### The commands -/

/-- LEDG_RESET (R452). -/
def execLedgReset (i : Init) (key : BitVec 16) (room : BitVec 6) (s : State) : Host.Outcome State Fault Refusal :=
  .next (doorStore i ledgB (ledgCmd key.toNat 4 0 room.toNat (roomReset room.toNat)) s)

/-- LEDG_REMOVE (R449). -/
def execLedgRemove (i : Init) (key : BitVec 16) (room : BitVec 6) (s : State) : Host.Outcome State Fault Refusal :=
  .next (doorStore i ledgB (ledgCmd key.toNat 7 0 room.toNat (roomRemove room.toNat)) s)

end Sys2Proof.Machine
end

