-- ==== Sys2Proof/Machine/Reset.lean ====
section
/-!
DEFINITION. What resets and power losses clear and keep (R579, R654–R656, R661), the hall's start attempts (R588,
R589, R657, R660), and the loss of one domain's power (R579, R586).
-/

namespace Sys2Proof.Machine

open Reg

/-! ### What is kept -/

/-- The bits of a hall register that the lantern's non-volatile store or the vault holds: they survive every reset
(R656): lifecycle, owner keys, erase counters, floors, recovery settings and signers. -/
def storeKeep (a : Nat) : Word :=
  if a = 0x400B0000 then 0xFFFF00F7
  else if 0x400B0100 ≤ a ∧ a < 0x400B0140 then 0xFFFFFFFF
  else if 0x400D4000 ≤ a ∧ a < 0x400D5000 then 0xFFFFFFFF
  else if 0x400E0020 ≤ a ∧ a < 0x400E0034 then 0xFFFFFFFF
  else if 0x400E0100 ≤ a ∧ a < 0x400E0200 then 0xFFFFFFFF
  else if 0x400E0400 ≤ a ∧ a < 0x400E0C00 then 0xFFFFFFFF
  else 0

/-- The bits that a power-on reset other than VBAT keeps (R656): the lantern's registers, REC_REQ, the radio token,
LF_OFS, LF_CAL and STAB as well. -/
def lanternKeep (a : Nat) : Word :=
  if 0x70000000 ≤ a then 0xFFFFFFFF
  else if a = 0x400E0004 then 0x00400000
  else if a = 0x40000044 then 0xF
  else if a = 0x40050028 then 0x400
  else if a = 0x40050054 then 0xFFFFFFFF
  else storeKeep a

/-- The bits that a hall reset keeps: the quality of network time as well (R391, R656). -/
def hallKeep (a : Nat) : Word :=
  if a = 0x40050028 then 0x403
  else if a = 0x4005002C then 0xFFFFFFFF
  else lanternKeep a

/-- The bits that a loss of VBAT keeps: a locked tamper configuration and ERASE_PEND as well (R529, R536, R656). -/
def vbatKeep (locked : Bool) (a : Nat) : Word :=
  if a = 0x70020000 then (if locked then 0x8000FFFF else 0)
  else if a = 0x70020004 then (if locked then 0xFFFF else 0)
  else if a = 0x70020008 then 0x200
  else storeKeep a

/-- The registers that `p` selects return to their reset values but for the bits `keep` names. -/
def resetKeeping (p : Nat → Bool) (keep : Nat → Word) (s : State) : State :=
  { s with regs := s.regs.foldl (fun t e =>
      if p e.1 then tset regReset t e.1 ((e.2 &&& keep e.1) ||| (regReset e.1 &&& ~~~ keep e.1)) else t) s.regs }

/-- The domain of a register; none outside every block. -/
def regDomain (a : Nat) : Option Nat := (targetOf a).map fun t => domainOf t a

/-! ### Blocks -/

/-- A front end goes to SLEEP; its frame is muted, and charged when its ramp-down ends (R104, R661). Front end A
stays with the lantern sequencer while a last gasp runs (R622). -/
def feReset (fe : Fe) (s : State) : State :=
  if fe = .a ∧ s.sup.gasp.isSome = true then s
  else
    let s1 := feSleepNow fe (airAbort fe 7 s)
    let onAir := (feGet fe s1).onAir
    fePut fe { onAir := onAir, muted := onAir } (fdxPut fe {} (chzPut fe {} s1))

/-- The time unit keeps what the lantern holds: both times and what the crystal taught (R383, R396). -/
def timeKept (t : TimeState) : TimeState :=
  { nt := t.nt, air := t.air, away := t.away, err0 := t.err0, errSecs := t.errSecs, lfOfs := t.lfOfs, lastE := t.lastE,
    moves := t.moves, updates := t.updates, counts := false }

/-- The link controller keeps the duty accounts and the stored frame (R337, R614); frames on their way end. -/
def linkKept (l : LinkState) : LinkState :=
  { duty := l.duty, gasp := l.gasp, airA := l.airA, airB := l.airB }

/-- The key unit keeps the vault, the owner keys, the shelf and the tamper loops (R518, R524, R525). -/
def keysKept (k : KeyState) : KeyState :=
  { root := k.root, owners := k.owners, shelf := k.shelf, log := k.log, serial := k.serial, loops := k.loops }

/-- The GPIO pads hold what they drove (R644): pins of the banks whose release has not ended. -/
def padsHold (hi : Bool) (s : State) : State :=
  if bitOf (rd 0x40140020 s) (ofBool hi) then
    let pins := (List.range 32).map fun k => k + 32 * ofBool hi
    let dir := pins.foldl (fun (v : BitVec 64) p => if bitOf (rd (0x40140100 + 4 * p) s) 0 then v ||| (1#64 <<< p) else v)
      (s.gpio.heldDir &&& ~~~ (0xFFFFFFFF#64 <<< (32 * ofBool hi)))
    let out := pins.foldl (fun (v : BitVec 64) p =>
        if bitOf (rd (0x40140404 + 0x10 * (p / 16)) s) (p % 16) then v ||| (1#64 <<< p) else v)
      (s.gpio.heldOut &&& ~~~ (0xFFFFFFFF#64 <<< (32 * ofBool hi)))
    wr 0x40140020 (bitsPut (rd 0x40140020 s) (ofBool hi) 1 0) { s with gpio := { s.gpio with heldDir := dir, heldOut := out } }
  else s

/-- DBG_STAT.STATE after a reset follows the lifecycle (R647). -/
def dbgStart (s : State) : State :=
  fset 0x40150000 DBG_STAT.STATE (ofBool (fget keyB KEY_LIFE.STATE s == 2))
    { s with dbg := { ir := s.dbg.ir, holdoff := s.dbg.holdoff } }

/-! ### The loss of one domain's power (R579) -/

/-- The RAM of a domain loses its content: a read finds free octets until it is written. -/
def memLose (d : Nat) (s : State) : State := drawFree (memMark d (s.freeCtr + 1) s)

/-- What a block holds beside its registers goes with the power of domain `d`. -/
def domainForget (d : Nat) (s : State) : State :=
  if d = 4 ∨ d = 5 then memLose d (initForget (d - 3) (coreSet (d - 3) {} s))
  else if 6 ≤ d ∧ d < 10 then dropLines (fun l => l.core == d - 6) (initForget (d - 3) (coreSet (d - 3) {} s))
  else if 10 ≤ d ∧ d < 26 then memLose d s
  else if d = 26 ∨ d = 27 then bankReset (d - 26) { s with flash := { s.flash with last := none, branch := [] } }
  else if d = 28 then memLose 28 { s with queues := [] }
  else if d = 29 then memLose 29 { s with keys := keysKept s.keys, cip := {} }
  else if d = 30 then { s with keys := { s.keys with blocks := [], part := [], fails := [] } }
  else if d = 31 then fset 0x40100000 SUP_F10.VALID 0 { s with time := timeKept s.time }
  else if d = 32 then feReset .a s
  else if d = 36 then feReset .b s
  else if d = 40 then { s with chzA := {}, survey := tkeep (fun k => k / 1024 != 0) s.survey }
  else if d = 41 then { s with chzB := {}, survey := tkeep (fun k => k / 1024 != 1) s.survey }
  else if d = 74 then { s with sup := { gasp := s.sup.gasp } }
  else if d = 75 then { s with host := {}, uarts := [], i2cs := [] }
  else if d = 76 then padsHold false s
  else if d = 77 then padsHold true s
  else if d = 78 then { s with timers := [] }
  else if d = 79 then { s with dbg := { ir := if s.dbg.ir = 1 then 1 else 31 } }
  else s

/-- Domain `d` powers off (R579): its registers, its memories and what its blocks hold. -/
def domainOff (d : Nat) (s : State) : State :=
  let s1 := resetKeeping (fun a => regDomain a == some d) hallKeep (domainForget d s)
  let s2 := if d = 79 then dbgStart s1 else s1
  pdSet d false (dropCaptures (fun a => regDomain a == some d) s2)

/-- Domain `d` powers on again (R579): the licence state is read again with front end A, the entropy source restarts,
the cipher engine asks for its seed. -/
def domainOn (d : Nat) (s : State) : State :=
  let s1 := pdSet d true s
  if d = 32 then radioOwner (fis (feB .a) FE_OWNER.OWNER s1) (licStart s1)
  else if d = 36 then radioOwner (fis (feB .a) FE_OWNER.OWNER s1) s1
  else if d = 29 then rngRun s1
  else if d = 30 then rngPowerUp s1
  else s1

/-! ### The hall's reset (R654–R656, R661) -/

/-- Everything of the hall returns to reset; `keep` names the bits of registers that stay. -/
def hallClear (por : Bool) (keep : Nat → Word) (s : State) : State :=
  let owner := fis (feB .a) FE_OWNER.OWNER s
  let s1 := bankReset 1 (bankReset 0 (padsHold true (padsHold false (feReset .b (feReset .a s)))))
  let s2 := resetKeeping (fun _ => true) keep
    { s1 with
      bus := {}
      rooms := {}
      plan := {}
      ph := {}
      queues := []
      lanes := []
      verdicts := []
      survey := []
      time := if por then { timeKept s1.time with nt := 0, air := 0, away := false, err0 := none, errSecs := 0 } else timeKept s1.time
      link := linkKept s1.link
      keys := { keysKept s1.keys with wantBackoff := true }
      cip := {}
      flash := { s1.flash with last := none, branch := [] }
      timers := []
      host := {}
      uarts := []
      i2cs := []
      upd := {}
      sup := { gasp := s1.sup.gasp }
      gpio := if por then { levels := s1.gpio.levels } else s1.gpio }
  rngPowerUp (radioOwner owner (dbgStart (licStart s2)))

/-- A cause is recorded (R655): the lowest one while a start has not released the hall yet, and every one in
RST_SEEN. -/
def causeSeen (cause : Nat) (s : State) : State :=
  let starting := match s.pow.hall with
    | .erasing _ => true
    | .pinLow => true
    | .waitAck => true
    | .retry => true
    | .acked => true
    | _ => false
  let c := if starting then min (fget pmbB RST_STAT.CAUSE s) cause else cause
  fset pmbB RST_STAT.CAUSE c (wr (pmbB + 0x304) (bitsPut (rd (pmbB + 0x304) s) cause 1 1) s)

/-- Where the hall stands in its start. -/
def hallPut (h : Hall) (s : State) : State := { s with pow := { s.pow with hall := h } }

/-- A start attempt (R588, R591): VOUT_COMMAND for 0.80 V when VOUT_MODE is accepted, then OPERATION on. -/
def startAttempt (s : State) : State :=
  let s1 := if fis pmbB PMB_STAT.VALID s then pmbWrite 0x21 (voutOf 10 s) s else s
  pmbWrite 1 0x80 { s1 with pow := { s1.pow with hall := .waitAck, starts := s1.pow.starts + 1 } }

/-- The hall is reset with a cause (R654–R656), and what follows the reset is `h`: a start attempt at once, or a
wait. A reset pin that is low and a vault erase in progress hold the hall longer (R530, R654). -/
def hallReset (cause : Nat) (por : Bool) (h : State → State) (s : State) : State :=
  let s1 := causeSeen cause s
  let p := s1.pow.porReset || por
  let s2 := hallClear p (if p then lanternKeep else hallKeep) s1
  let s3 := { s2 with pow := { pmb := s1.pow.pmb, hall := s1.pow.hall, porReset := p, owed := s1.pow.owed } }
  match s1.pow.hall with
  | .pinLow => s3
  | .erasing _ => hallPut (.erasing true) s3
  | _ => h s3

/-- A hall reset that starts the hall again. -/
def hallRestart (cause : Nat) (s : State) : State := hallReset cause false startAttempt s

/-- Every RAM is cleared at release, except what a WAKE start keeps (R661). -/
def ramClear (kept : List Nat) (s : State) : State :=
  ([2, 4, 5, 28, 29] ++ (List.range 16).map (· + 10)).foldl
    (fun t d => if kept.contains d then t else memMark d 0 t) s

/-- STAGE moves (R666). -/
def stage (n : Nat) (s : State) : State := fset pmbB RST_STAGE.STAGE n s

/-- The hall reset is released (R660, R661): registers and memories as a release leaves them, STAGE ROM, and both
times taken back from the lantern; the count of starts goes up. -/
def hallRelease (nt air g : Nat) (s : State) : State :=
  if s.pow.hall ≠ .acked then s
  else
    let p := s.pow.porReset
    let s0 := if p || s.time.away then s else timeHandOff nt air s
    let s1 := ramClear s.pow.kept (hallClear p (if p then lanternKeep else hallKeep) s0)
    let s2 := if p then { s1 with time := { s1.time with counts := true } } else timeResume g s1
    let s4 := if fis pmbB PMB_STAT.VALID s2 then s2 else owe (pwrB + 0x20) 3 828 s2
    let s3 := fcount pmbB RST_STAT.CNT (fset pmbB RST_STAGE.PREV (fget pmbB RST_STAGE.STAGE s4) s4)
    stage 1 { s3 with
              pow := { pmb := s.pow.pmb, owed := s3.pow.owed, waking := s.pow.waking, mode := s.pow.mode,
                       hall := .released } }

/-! ### Resets by their causes -/

/-- A start attempt is acknowledged (R591, R660). -/
def startAcked (s : State) : State := hallPut .acked s

/-- BROWNOUT (R654): a power-on reset, while the hall is powered and no commanded entry or exit is under way; `h` is
the start that follows. VOUT_MODE is to be read anew (R591). -/
def brownout (h : State → State) (s : State) : State :=
  let quiet := match s.pow.hall with
    | .off => true
    | .retry => true
    | .erasing starts => !starts
    | .waitAck => s.pow.waking.isSome
    | .acked => s.pow.waking.isSome
    | _ => false
  if quiet = true ∨ (fget pwrB PWR_STAT.PHASE s = 3 ∧ 3 ≤ s.pow.target) then s
  else hallReset 1 true h (fset pmbB PMB_STAT.VALID 0 s)

/-- SYS_RST_N (R654): low for 10 µs resets the hall, which stays in reset until the pin is high again, and until a
vault erase in progress completes (R530). -/
def pinReset (low : Bool) (s : State) : State :=
  if low then hallPut .pinLow (hallReset 4 false (hallPut .pinLow) s)
  else if s.pow.hall = .pinLow then
    (if fis tampB TAMP_STAT.ERASING s then hallPut (.erasing true) s else startAttempt s)
  else s

/-- RST_CMD (R666). -/
def rstCmd (data : Word) (s : State) : State :=
  if bitsOf data 16 16 = 0x5253 ∧ bitOf data 0 = true then hallRestart 6 s else s

/-! ### The commands -/

/-- SYS_RST_PIN (R654). -/
def execSysRstPin (low : Bool) (s : State) : Host.Outcome State Fault Refusal := .next (pinReset low s)

/-- RST_CMD_HALL (R654): the store to RST_CMD has HALL set; it acts at once. -/
def execRstCmdHall (i : Init) (key : BitVec 16) (s : State) : Host.Outcome State Fault Refusal :=
  .next (doorStore i (pmbB + 0x308) (rstCmd (BitVec.ofNat 32 (key.toNat * 65536 + 1))) s)

/-- HALL_RELEASE (R660): network time, air timer and the CK_LF cycles between their hand-off and their return. -/
def execHallRelease (nt air : Word64) (lfCycles : Nat) (s : State) : Host.Outcome State Fault Refusal :=
  .next (hallRelease nt.toNat air.toNat lfCycles s)

end Sys2Proof.Machine
end

