-- ==== Sys2Proof/Machine/Power.lean ====
section
/-!
DEFINITION. Power modes and the core supply (spec/20_power.md): the handshake entry, the modes and their ends, the
wake logic and its record, hall starts and their failures, power gates, and the regulator's answers. The Knocker's
end of pattern, which may wake the hall, stands here as well.
-/

namespace Sys2Proof.Machine

open Reg

/-- Set what the power manager holds. -/
def powPut (v : PowState) (s : State) : State := { s with pow := v }

/-! ### Domains of a mode (R578, R581) -/

/-- The keep mask of a target mode: 1 DOZE, 2 LULL, 3 NIGHT (R215). -/
def keepMask (target : Nat) (s : State) : Nat := tget (fun _ => 0) s.plan.keep (target - 1)

/-- A NIGHT mask may hold the domain (R578). -/
def nightMay (d : Nat) : Bool := decide (10 ≤ d ∧ d ≤ 25) || d == 31 || d == 74 || d == 76 || d == 77

/-- A mode leaves domain `d` as it is (R581). -/
def modeKeeps (target d : Nat) (s : State) : Bool :=
  if d = 0 then true
  else if target = 3 then d == 1 || (nightMay d && (keepMask 3 s).testBit d)
  else if target = 4 then false
  else decide (d = 1 ∨ (2 ≤ d ∧ d ≤ 5)) || (keepMask target s).testBit d

/-- The target powers domain `d` off. -/
def powersOff (target d : Nat) (s : State) : Bool := pdOn d s && !modeKeeps target d s

/-- A NIGHT that keeps some hall domain holds VCORE; any other NIGHT and SHUTTER switch it off (R581). -/
def vcoreHeld (target : Nat) (s : State) : Bool :=
  target != 4 && (target != 3 || (List.range 80).any fun d => nightMay d && pdOn d s && (keepMask 3 s).testBit d)

/-! ### The participants (R583) -/

/-- The domains of a participant, in PWR_HS order: FEA, FEB, CHZA, CHZB, FAB, FLC0, FLC1, QUE, LC0, LC1; the UPD
block lies in the hall spine. -/
def partDomains (p : Nat) : List Nat :=
  match p with
  | 0 => [32, 33, 34, 35]
  | 1 => [36, 37, 38, 39]
  | 2 => [40]
  | 3 => [41]
  | 4 => (List.range 32).map (· + 42)
  | 5 => [26]
  | 6 => [27]
  | 7 => [28]
  | 8 => [4]
  | 9 => [5]
  | 10 => [3]
  | _ => []

/-- The participants that a target asks (R582): those with a domain to power off, and the power manager always. -/
def partsAsked (target : Nat) (s : State) : List Nat :=
  (List.range 12).filter fun p => p == 11 || (partDomains p).any fun d => powersOff target d s

/-- ANS of participant `p` in PWR_HS. -/
def hsAns (p v : Nat) (s : State) : State :=
  wr (pwrB + 8) (bitsPut (rd (pwrB + 8) s) (2 * p) 2 v) s

/-- The answer last recorded. -/
def hsGet (p : Nat) (s : State) : Nat := bitsOf (rd (pwrB + 8) s) (2 * p) 2

/-- A frame job of a front end is armed or on air, or of any. -/
def jobsArmed (s : State) : Bool :=
  (jobList s).any fun e => let st := jobState e.1 e.2.1 s; st == 1 || st == 2

/-- The link core's last answer (PWR_LCACK). -/
def lcAns (n : Nat) (s : State) : Nat := if n = 0 then s.pow.lcAns0 else s.pow.lcAns1

/-- The answer of participant `p` as its condition stands (R103, R583): 1 accepted, 2 delaying, 3 refused. -/
def partAnswer (p : Nat) (s : State) : Nat :=
  let feAns (fe : Fe) : Nat :=
    if fis (feB fe) FE_STAT.ARMED s then 3
    else if feState fe s = 0 ∧ (feGet fe s).trans.isNone = true then 1 else 2
  let flash (k : Nat) : Nat := match bankState k s with
    | 0 => 1
    | 1 => 2
    | _ => 3
  let lc (n : Nat) : Nat :=
    if lcAns n s = 3 then 3
    else if lcAns n s = 1 ∧ (coreGet (1 + n) s).waiting = true then 1 else 2
  match p with
  | 0 => feAns .a
  | 1 => feAns .b
  | 2 => if (feGet .a s).residence then 2 else 1
  | 3 => if (feGet .b s).residence then 2 else 1
  | 4 => if s.plan.work = .idle then 1 else 3
  | 5 => flash 0
  | 6 => flash 1
  | 7 => if jobsArmed s then 3 else if s.queues.any fun q => q.2.opened.isSome then 2 else 1
  | 8 => lc 0
  | 9 => lc 1
  | 10 =>
    let st := fget 0x400E0000 UPD_STAT.STATE s
    if st = 0 ∨ st = 5 then 1 else if st = 6 then 2 else 3
  | _ => if fis pwrB PWR_VSTAT.PEND s then 2 else 1

/-! ### Front ends and the fabric in the handshake -/

/-- A target for the walk without an announcement (R103, R585), coded as FE_STAT.TARGET. -/
def feWalk (fe : Fe) (t : Nat) (s : State) : State :=
  let b := feB fe
  let s1 := fset b FE_STAT.PEND_TARGET 0 (fset b FE_STAT.PEND 0 (fset b FE_STAT.TARGET t s))
  if (feGet fe s1).trans.isSome ∨ 4 ≤ feState fe s1 then s1 else feNext fe 0 s1

/-- The state a front end is to hold: its held target, its target, or its state. -/
def feHeld (fe : Fe) (s : State) : Nat :=
  if fis (feB fe) FE_STAT.PEND s then fget (feB fe) FE_STAT.PEND_TARGET s - 1
  else fget (feB fe) FE_STAT.TARGET s

/-- The front end is in TX or DUPLEX, or on its way to it or back. -/
def feTransmits (fe : Fe) (s : State) : Bool :=
  decide (4 ≤ feState fe s) || (match (feGet fe s).trans with
    | some t => decide (4 ≤ t.dst ∨ 4 ≤ t.src)
    | none => false)

/-- An asked front end walks to SLEEP unless it refuses or transmits. -/
def feAsk (fe : Fe) (s : State) : State :=
  if fis (feB fe) FE_STAT.ARMED s || feTransmits fe s then s else feWalk fe 0 s

/-- The tile domains that FAB's acceptance stops. -/
def fabStops (target : Nat) (s : State) : List Nat :=
  (List.range 32).filter fun d => powersOff target (42 + d) s

/-- FAB accepts: the lanes of every domain to be powered off stop (R583). -/
def fabAccept (s : State) : State :=
  let ds := fabStops s.pow.target s
  ds.foldl (fun t d => domainStop (fun _ => true) d t) (powPut { s.pow with lanesWere := ds } s)

/-- The lanes that FAB stopped restart with new epochs (R585). -/
def fabRestart (s : State) : State :=
  s.pow.lanesWere.foldl
    (fun t d => ((domainLanes d t).filter fun n => laneState n t == 0).foldl (fun u n => laneDomainStart true n u)
      (domBit FAB_DOMAINS.MASK d true t))
    (powPut { s.pow with lanesWere := [] } s)

/-! ### Entry (R582–R585) -/

/-- PHASE. -/
def phase (s : State) : Nat := fget pwrB PWR_STAT.PHASE s

/-- Asking has ended: the link cores' answers are cleared. -/
def askEnd (s : State) : State := powPut { s.pow with lcAns0 := 0, lcAns1 := 0, asked := [], lanesWere := [] } s

/-- A processor's WFI ends. -/
def wfiEnd (k : Nat) (s : State) : State := coreSet k { coreGet k s with waiting := false } s

/-- The entry aborts with a cause (R585). -/
def entryAbort (why : Nat) (s : State) : State :=
  let back (fe : Fe) (p : Nat) (t : State) : State :=
    if s.pow.asked.contains p then feWalk fe (s.pow.feWere.getD p 0) t else t
  let s1 := fabRestart (back .b 1 (back .a 0 s))
  let s2 := fset pwrB PWR_STAT.PHASE 0 (fset pwrB PWR_STAT.ABORT_WHY why (askEnd s1))
  pwrNote PWR_NOTE.ENTRY_ABORT (wfiEnd 0 (wfiEnd 1 (wfiEnd 2 s2)))

/-- PD01 follows KNK_CTRL.EN, but for SHUTTER (R365, R578). -/
def knkMode (target : Nat) (s : State) : State :=
  if target = 4 then pdSet 1 false (knkGo 0 s)
  else s

/-- PWR_ON.ON takes a value (R433). -/
def pwrOn (on : Bool) (s : State) : State := fset calB PWR_ON.ON (ofBool on) s

/-- The commit point (R582, R586): the token passes at NIGHT, PWR_ON follows SHUT_OFF at SHUTTER, and every domain
that the target does not keep powers off, PD31 later. -/
def entryCommit (s : State) : State :=
  let target := s.pow.target
  let held := vcoreHeld target s
  let were := (List.range 80).filter fun d => pdOn d s
  let off := were.filter fun d => !modeKeeps target d s && d != 31
  let s1 := fset pwrB PWR_STAT.PHASE 3 (askEnd s)
  let s2 := powPut { s1.pow with
    domsWere := were.foldl (fun n d => n + 2 ^ d) 0
    kept := were.filter fun d => decide (10 ≤ d ∧ d ≤ 25) && modeKeeps target d s
    latched := none } s1
  let s3 := if target = 3 then fset (feB .a) FE_OWNER.ORIGIN 0 (radioOwner true s2) else s2
  let s4 := if target = 4 ∧ fis calB PWR_ON.SHUT_OFF s3 = true then pwrOn false s3 else s3
  let s5 := off.foldl (fun t d =>
    if d = 2 ∨ d = 3 then pdSet d false (if d = 2 then memLose 2 t else t) else domainOff d t) (knkMode target s4)
  if held then s5 else pmbWrite 1 0 s5

/-- The answers of the participants in `ps` are taken (R583): a refusal aborts, the last acceptance commits. -/
def entryTake (ps : List Nat) (s : State) : State :=
  let s1 := ps.foldl (fun t p => hsAns p (partAnswer p t) t) s
  let s2 := if ps.contains 4 ∧ hsGet 4 s1 = 1 then fabAccept s1 else s1
  if ps.any fun p => hsGet p s2 == 3 then entryAbort 1 s2
  else if s2.pow.asked.all fun p => hsGet p s2 == 1 then entryCommit s2
  else s2

/-- The Steward's WFI with an entry armed (R582): asking begins, unless an event is deliverable. -/
def entryWfi (s : State) : State :=
  if phase s ≠ 1 ∨ (claimable 0 s).isSome = true then s
  else
    let target := s.pow.target
    let s1 := fset pwrB PWR_STAT.PHASE 2 (coreSet 0 { coreGet 0 s with waiting := true } (wr (pwrB + 8) 0 s))
    if (List.range 4).any fun c => powersOff target (6 + c) s && !fis (coreReg c) LEDG_CORE.PARKED s then
      entryAbort 4 s1
    else
      let ps := partsAsked target s
      let s2 := powPut { s1.pow with asked := ps, feWere := [feHeld .a s, feHeld .b s], lanesWere := [] } s1
      let s3 := if ps.contains 8 || ps.contains 9 then raiseEvt 829 s2 else s2
      let s4 := if ps.contains 0 then feAsk .a s3 else s3
      entryTake ps (if ps.contains 1 then feAsk .b s4 else s4)

/-- A participant answers anew (R583); a link core's answer stands once it executes WFI. -/
def partAnswers (p : Nat) (s : State) : State :=
  if phase s ≠ 2 ∨ s.pow.asked.contains p = false ∨ hsGet p s = 1 then s
  else
    let s1 := if p = 0 then feAsk .a s else if p = 1 then feAsk .b s
      else if (p = 8 ∨ p = 9) ∧ lcAns (p - 8) s = 1 then coreSet (p - 7) { coreGet (p - 7) s with waiting := true } s
      else s
    entryTake [p] s1

/-- A write of PWR_MODE (R582, R600). -/
def pwrModeWrite (data : Word) (s : State) : State :=
  let t := bitsOf data 0 3
  if bitsOf data 16 16 ≠ 0x5057 then pwrErr PWR_ERR.CMD s
  else if 5 ≤ t then pwrErr PWR_ERR.RANGE s
  else
    let s1 := fset pwrB PWR_MODE.TARGET t s
    if phase s = 0 then (if t = 0 then s1 else fset pwrB PWR_STAT.PHASE 1 (powPut { s1.pow with target := t } s1))
    else if phase s = 1 ∨ phase s = 2 then
      (if t = 0 then entryAbort 5 s1
       else if phase s = 1 then powPut { s1.pow with target := t } s1
       else s1)
    else s1

/-- A link core's write of PWR_LCACK (R583, R600). -/
def pwrLcack (i : Init) (data : Word) (s : State) : State :=
  let v := bitsOf data 0 2
  match i with
  | .linkCore n =>
    if bitsOf data 16 16 ≠ 0x4C41 ∨ v = 0 then s
    else
      let s1 := powPut (if n = 0 then { s.pow with lcAns0 := v } else { s.pow with lcAns1 := v }) s
      if phase s1 = 2 ∧ s1.pow.asked.contains (8 + n.toNat) = true ∧ hsGet (8 + n.toNat) s1 ≠ 1 ∧ v ≠ 1 then
        entryTake [8 + n.toNat] s1
      else s1
  | _ => s

/-- HS_TMO passes with a participant not accepting (R583). -/
def hsTimeout (s : State) : State :=
  if phase s = 2 ∧ (s.pow.asked.any fun p => hsGet p s != 1) = true then entryAbort 2 s else s

/-! ### The wake logic (R595–R597) -/

/-- A source ends a mode (R581, R595). -/
def wakeEnds (src ev mode : Nat) (s : State) : Bool :=
  if src = 1 ∨ src = 6 then mode == 3
  else if src = 7 then mode == 1 || (mode == 2 && decide (fget pwrB PWR_CFG.LULL_PRIO s ≤ evtPrio ev s))
  else decide (1 ≤ mode ∧ mode ≤ 4)

/-- A record is shifted into the wake history (R596, R601). -/
def wakeRecord (src ev mode : Nat) (entry fail : Bool) (s : State) : State :=
  let seq := (fget pmbB WAKE_LAST_A.SEQ s + 1) % 256
  let a : Word := BitVec.ofNat 32 (seq * 2 ^ 24 + (if src = 7 then ev else 0) * 2 ^ 10 + ofBool fail * 2 ^ 8 +
    ofBool entry * 2 ^ 7 + mode * 2 ^ 4 + src)
  let b := rd calB s
  let s1 := [7, 6, 5, 4, 3, 2, 1].foldl
    (fun t k => wr (pmbB + 0x44 + 8 * k) (rd (pmbB + 0x3C + 8 * k) t) (wr (pmbB + 0x40 + 8 * k) (rd (pmbB + 0x38 + 8 * k) t) t)) s
  wr (pmbB + 0x18) b (wr (pmbB + 0x14) a (wr (pmbB + 0x44) b (wr (pmbB + 0x40) a s1)))

/-- A wake is served (R587, R588, R595): it is recorded, PWR_ON follows WAKE_ON, and the mode ends; NIGHT and SHUTTER
by a hall start with cause WAKE. -/
def wakeServe (src ev : Nat) (entry : Bool) (s : State) : State :=
  let mode := s.pow.mode
  let s1 := wakeRecord src ev mode entry false s
  let s2 := if fis calB PWR_ON.WAKE_ON s1 then pwrOn true s1 else s1
  if mode = 1 ∨ mode = 2 then fset pwrB PWR_STAT.PHASE 6 s2
  else
    let kept := if mode = 3 then s2.pow.kept else []
    let s3 := if mode = 4 ∧ fis knkB KNK_CTRL.EN s2 = true then pdSet 1 true s2 else s2
    hallReset 9 false (fun t => startAttempt
      (powPut { t.pow with kept := kept, waking := some (src, ev, mode), mode := mode } t)) s3

/-- A wake reaches the wake logic (R584, R589, R595, R597). -/
def wakeArrive (src ev : Nat) (s : State) : State :=
  match s.pow.hall with
  | .run =>
    if s.pow.mode = 0 then
      (if (phase s = 1 ∨ phase s = 2) ∧ wakeEnds src ev s.pow.target s = true then entryAbort 3 s
       else if phase s = 3 ∧ wakeEnds src ev s.pow.target s = true ∧ s.pow.latched.isNone = true then
         powPut { s.pow with latched := some (src, ev) } s
       else s)
    else if phase s = 6 then wakeRecord src ev s.pow.mode false false s
    else if wakeEnds src ev s.pow.mode s then wakeServe src ev false s
    else s
  | .off => if wakeEnds src ev s.pow.mode s then wakeServe src ev false s else s
  | .erasing false => if wakeEnds src ev s.pow.mode s then wakeServe src ev false s else s
  | _ =>
    match s.pow.waking with
    | some (_, _, m) => wakeRecord src ev m false false s
    | none => s

/-- A source is armed (R595). -/
def wakeArmed (src ev : Nat) (s : State) : Bool :=
  match src with
  | 1 => fis knkB KNK_CTRL.WAKE_EN s
  | 2 => bitOf (rd (calB + 0x30) s) 25
  | 3 => bitOf (rd (calB + 0x38) s) 25
  | 4 => fis pmbB WAKE_CFG.WK0_EN s
  | 5 => fis pmbB WAKE_CFG.WK1_EN s
  | 6 => fis pmbB WAKE_CFG.SUP_EN s && pdOn 74 s
  | 7 => (claimable 0 s).isSome && evtDeliverable 0 ev (destGet 0 s) s && (destGet 0 s).pend.contains ev
  | _ => false

/-- The mode is reached (R584, R586): PD31 hands over, and a latched wake is served. -/
def modeReached (nt air : Nat) (s : State) : State :=
  if phase s ≠ 3 ∨ s.pow.hall ≠ .run ∨ s.pow.mode ≠ 0 then s
  else
    let target := s.pow.target
    let s1 := if powersOff target 31 s then domainOff 31 (timeHandOff nt air s) else s
    let s2 := powPut { s1.pow with mode := target, hall := if 3 ≤ target then .off else .run } s1
    let s3 := if target ≤ 2 then fset pwrB PWR_STAT.PHASE (target + 3) s2 else s2
    match s3.pow.latched with
    | some (src, ev) => wakeServe src ev true (powPut { s3.pow with latched := none } s3)
    | none => s3

/-- DOZE or LULL ends (R587): what was on at the commit point powers on again; PD31 takes both times back after `g`
CK_LF cycles; queues are carved empty and tile domains reload. -/
def modeExit (g : Nat) (s : State) : State :=
  if phase s ≠ 6 then s
  else
    let were := (List.range 80).filter fun d => s.pow.domsWere.testBit d && !pdOn d s
    let tiles := (were.filter fun d => decide (42 ≤ d ∧ d ≤ 73)).map (· - 42)
    let s1 := were.foldl (fun t d => if 42 ≤ d ∧ d ≤ 73 then t else domainOn d t) s
    let s2 := if were.contains 31 then timeResume g s1 else s1
    let s3 := match activePlan s2 with
      | some p => if were.contains 28 then planQueues p s2 else s2
      | none => s2
    let s4 := if tiles.isEmpty then s3 else planWork (.loading tiles false false) s3
    let s5 := fset pwrB PWR_STAT.PHASE 0 (fset pwrB PWR_STAT.LAST_MODE s.pow.mode (powPut { s4.pow with mode := 0 } s4))
    pwrNote PWR_NOTE.WAKE (wfiEnd 0 s5)

/-! ### Hall starts that fail (R589, R591, R657) -/

/-- A start attempt is not acknowledged: a FAIL record, OPERATION off, and another attempt 10 ms later, three in all. -/
def startFailed (s : State) : State :=
  let w := s.pow.waking.getD (0, 0, 0)
  let s1 := pmbWrite 1 0 (wakeRecord w.1 w.2.1 w.2.2 false true s)
  if s.pow.starts < 3 then hallPut .retry s1
  else powPut { s1.pow with hall := .off, starts := 0, waking := none } s1

/-- VOUT_MODE is read before the first start after a power-on reset (R591, R657); none when the regulator does not
answer. -/
def startRead (m : Option (BitVec 8)) (s : State) : State :=
  if s.pow.porReset = false ∨ fis pmbB PMB_STAT.VALID s = true then startAttempt s
  else
    match m with
    | none => startFailed { s with pow := { s.pow with starts := s.pow.starts + 1 } }
    | some v =>
      let n := v.toNat % 32
      if v.toNat / 32 = 0 ∧ 16 ≤ n ∧ n ≤ 25 then
        startAttempt (fset pmbB PMB_STAT.VALID 1 (fset pmbB PMB_STAT.VOUT_N n s))
      else startAttempt s

/-- The next attempt (R589). -/
def startRetry (m : Option (BitVec 8)) (s : State) : State :=
  if s.pow.hall = .retry then startRead m s else s

/-! ### The regulator (R590–R594) -/

/-- A request, or a start attempt, is acknowledged (R591). -/
def vcoreAck (s : State) : State :=
  if s.pow.hall = .waitAck then startAcked s
  else if fis pwrB PWR_VSTAT.PEND s then vManage (raiseStep (vAcknowledge s))
  else s

/-- What a failed transfer leaves in PMB_CNT and PWR_ERR (R590): each of its four tries counts. -/
def regFail (f : RegFail) (s : State) : State :=
  match f with
  | .timeout => s
  | .status w v => fset pmbB PMB_LAST.STATUS_VOUT v.toNat (fset pmbB PMB_LAST.STATUS_WORD w.toNat s)
  | .nak => hallNote PWR_ERR.PMB_NAK 828 (fcountBy pmbB PMB_CNT.NAK 4 s)
  | .pec => hallNote PWR_ERR.PMB_NAK 828 (fcountBy pmbB PMB_CNT.PEC_ERR 4 s)

/-- A request, or a start attempt, fails (R589, R592). -/
def vcoreFail (f : RegFail) (s : State) : State :=
  if s.pow.hall = .waitAck then startFailed (regFail f s)
  else if fis pwrB PWR_VSTAT.PEND s then raiseStep (vFailed (regFail f s))
  else s

/-- The fill behind every active lane has stayed low for DOWN_HOLD (R593): one step down. -/
def vcoreDown (s : State) : State :=
  let low := (List.range 256).all fun n => laneState n s < 2 || decide ((laneGet n s).fill ≤ 16)
  if fis pwrB PWR_VCFG.AUTO s && s.pow.goal.isNone && decide (vFloor s < vNow s) && low then vRequest (vNow s - 1) s
  else s

/-- PMB_ALERT_N is low (R594). -/
def pmbAlert (status : BitVec 16) (vout : BitVec 8) (s : State) : State :=
  let s1 := fset pmbB PMB_LAST.STATUS_WORD status.toNat s
  let s2 := if bitOf (status.setWidth 32) 15 then fset pmbB PMB_LAST.STATUS_VOUT vout.toNat s1 else s1
  hallNote PWR_NOTE.ALERT 827 s2

/-! ### Power gates (R580) -/

/-- A ledger window of some room lies in SRAM bank `k`. -/
def windowInBank (k : Nat) (s : State) : Bool :=
  (List.range 64).any fun r => (windowsOf r s).any fun w => w.meets ⟨0x20000000 + 0xC0000 * k, 0xC0000, 0⟩

/-- A domain follows its gate. -/
def gate (d : Nat) (off : Bool) (s : State) : State :=
  if off then (if pdOn d s then domainOff d s else s) else (if pdOn d s then s else domainOn d s)

/-- A write of PWR_GATE (R580, R600). -/
def pwrGateWrite (data : Word) (s : State) : State :=
  if (List.range 16).any fun k => bitOf data (4 + k) && windowInBank k s then pwrErr PWR_ERR.RANGE s
  else
    let s1 := wr (pwrB + 0x10) (data &&& 0x01FFFFFF#32) s
    let s2 := (List.range 4).foldl (fun t c =>
      if bitOf data c && !fis (coreReg c) LEDG_CORE.PARKED t then t else gate (6 + c) (bitOf data c) t) s1
    let s3 := (List.range 16).foldl (fun t k => gate (10 + k) (bitOf data (4 + k)) t) s2
    (List.range 5).foldl (fun t k => gate (75 + k) (bitOf data (20 + k)) t) s3

/-! ### The Knocker's end of pattern (R371–R374) -/

/-- A matched frame that is a wake (R374): KNK_WAKE in RUN, DOZE and LULL; at night, or while NIGHT is entered, it
wakes the hall when WAKE_EN is 1, and KNK_WAKE is raised once the hall is in RUN. -/
def knkWake (s : State) : State :=
  let night := !hallUp s
  let entering := decide (phase s = 1 ∨ phase s = 2 ∨ phase s = 3) && s.pow.target == 3 && s.pow.mode == 0
  if s.pow.hall = .run ∧ night = false ∧ entering = false then raiseEvt 848 s
  else if fis knkB KNK_CTRL.WAKE_EN s then
    wakeArrive 1 0 (if night then { s with pow := { s.pow with owed := s.pow.owed ++ [(knkB, 0, 848)] } } else raiseEvt 848 s)
  else if night then s else raiseEvt 848 s

/-- The end of pattern (R372, R373): CRC, target, record, hold-off; `now` in µs. -/
def knkEnd (target crc level now : Nat) (s : State) : State :=
  if knkState s ≠ 2 ∨ s.knk.matched = false then s
  else
    let s1 := knkGo 1 s
    if crc ≠ knkCrc (rd (knkB + 8) s).toNat target then fcount knkB KNK_CNT1.CRC_BAD s1
    else if knkMatches target s = false then fcount knkB KNK_CNT1.NOT_ME s1
    else
      let s2 := fset knkB KNK_LAST.TARGET target (fset knkB KNK_LAST.LEVEL level (fnext knkB KNK_LAST.SEQ
        (fcount knkB KNK_CNT2.MATCH s1)))
      let held := match s2.knk.lastWake with
        | some w => decide (now - w ≤ 10000 * fget knkB KNK_CFG.HOLDOFF s2) && decide (0 < fget knkB KNK_CFG.HOLDOFF s2)
        | none => false
      if held then s2 else knkWake { s2 with knk := { s2.knk with lastWake := some now } }

/-! ### The commands -/

/-- PWR_MODE_WRITE (R582). -/
def execPwrModeWrite (i : Init) (data : Word) (s : State) : Host.Outcome State Fault Refusal :=
  .next (doorStore i pwrB (pwrModeWrite data) s)

/-- ENTRY_WFI (R582). -/
def execEntryWfi (s : State) : Host.Outcome State Fault Refusal := .next (entryWfi s)

/-- PARTICIPANT_ANSWER (R583). -/
def execParticipantAnswer (participant : Fin 12) (s : State) : Host.Outcome State Fault Refusal :=
  .next (partAnswers participant.val s)

/-- PWR_LCACK_WRITE (R583). -/
def execPwrLcackWrite (i : Init) (data : Word) (s : State) : Host.Outcome State Fault Refusal :=
  .next (doorStore i (pwrB + 0x1C) (pwrLcack i data) s)

/-- HANDSHAKE_TIMEOUT (R583). -/
def execHandshakeTimeout (s : State) : Host.Outcome State Fault Refusal := .next (hsTimeout s)

/-- MODE_REACHED (R586): network time and the air timer as PD31 hands them over. -/
def execModeReached (nt air : Word64) (s : State) : Host.Outcome State Fault Refusal :=
  .next (modeReached nt.toNat air.toNat s)

/-- WAKE (R595): source and, of EVENT, the event. -/
def execWake (src : BitVec 3) (event : BitVec 10) (s : State) : Host.Outcome State Fault Refusal :=
  .next (if wakeArmed src.toNat event.toNat s then wakeArrive src.toNat event.toNat s else s)

/-- MODE_EXIT (R587): the CK_LF cycles between PD31's hand-off and its return. -/
def execModeExit (lfCycles : Nat) (s : State) : Host.Outcome State Fault Refusal := .next (modeExit lfCycles s)

/-- HALL_START_RETRY (R589). -/
def execHallStartRetry (voutMode : Option (BitVec 8)) (s : State) : Host.Outcome State Fault Refusal :=
  .next (startRetry voutMode s)

/-- PWR_GATE_WRITE (R580). -/
def execPwrGateWrite (i : Init) (data : Word) (s : State) : Host.Outcome State Fault Refusal :=
  .next (doorStore i (pwrB + 0x10) (pwrGateWrite data) s)

/-- VCORE_ACK (R591). -/
def execVcoreAck (s : State) : Host.Outcome State Fault Refusal := .next (vcoreAck s)

/-- VCORE_FAIL (R592). -/
def execVcoreFail (why : RegFail) (s : State) : Host.Outcome State Fault Refusal := .next (vcoreFail why s)

/-- VCORE_DOWN_HOLD (R593). -/
def execVcoreDownHold (s : State) : Host.Outcome State Fault Refusal := .next (vcoreDown s)

/-- PMB_ALERT (R594). -/
def execPmbAlert (status : BitVec 16) (vout : BitVec 8) (s : State) : Host.Outcome State Fault Refusal :=
  .next (pmbAlert status vout s)

/-- BROWNOUT (R654, R591): VOUT_MODE as the regulator answers it. -/
def execBrownout (voutMode : Option (BitVec 8)) (s : State) : Host.Outcome State Fault Refusal :=
  .next (brownout (startRead voutMode) s)

/-- KNK_END_OF_PATTERN (R373). -/
def execKnkEndOfPattern (target : BitVec 16) (crc level : BitVec 8) (now : Nat) (s : State) :
    Host.Outcome State Fault Refusal :=
  .next (knkEnd target.toNat crc.toNat level.toNat now s)

end Sys2Proof.Machine
end

