-- ==== Sys2Proof/Machine/Gasp.lean ====
section
/-!
DEFINITION. The stored frame and the last gasp (spec/21_supply_watch.md, R613–R622): storing, the sequencer's
attempts and their ends.
-/

namespace Sys2Proof.Machine

open Reg

/-- The SUP block (R624). -/
def supB : Nat := 0x40100000

/-- Set what the supply watch holds. -/
def supPut (v : SupState) (s : State) : State := { s with sup := v }

/-- A bit of SUP_NOTE is set, raising event 856 + its number (R623), or owing it while the hall is down (R620). -/
def supNote (k : Nat) (s : State) : State :=
  if hallUp s then note supB ⟨0x24, k, 1⟩ (856 + k) s
  else if fis supB ⟨0x24, k, 1⟩ s then s
  else owe (supB + 0x24) k (856 + k) (fset supB ⟨0x24, k, 1⟩ 1 s)

/-! ### The stored frame (R338, R613) -/

/-- The settings record of a job: centre, PHY, PRE_LEN, P_req, FCS2 and CODED and ACK_REQ, CCA_MODE, CCA_TH,
LISTEN_US; front end A's ARR, EXTPA_EN, FE_EXTPA, FE_CTLMAP, MAX_QDBM, PROT, ACK_PRE and ACK_G; the licence entry. -/
def gaspRecord (j : Job) (s : State) : List Nat :=
  let b := feB .a
  [(j.centre s).toNat, j.phy, j.pre, j.bits 3 24 8,
    (if j.fcs = 2 then 1 else 0) + 2 * ofBool j.coded + 4 * ofBool j.ackReq, j.ccaAsked, j.bits 4 24 8, j.bits 4 2 14,
    fget b FE_CTRL.ARR s, fget b FE_CTRL.EXTPA_EN s, (rd (b + 0x30) s).toNat, (rd (b + 0x28) s).toNat,
    fget b FE_PA.MAX_QDBM s, fget b FE_ERR.PROT s, fget linkB LINK_ACK_CFG.ACK_PRE s, fget linkB LINK_GUARD.ACK_G s,
    j.entry] ++ List.replicate 15 0

/-- Word `k` of the settings record. -/
def GaspStore.word (g : GaspStore) (k : Nat) : Nat := g.settings.getD k 0

/-- ACK_REQ. -/
def GaspStore.ackReq (g : GaspStore) : Bool := (g.word 4).testBit 2

/-- The frame from the preamble to the last symbol, in fifths of a tick. -/
def GaspStore.frame (g : GaspStore) : Nat :=
  frameFifths (g.word 1) (g.word 2) g.octets.length 0 ((g.word 4).testBit 1)

/-- A LAST_GASP job is prepared and stored (R338, R613); `agrees` as in R319. -/
def gaspStore (k : Nat) (agrees : Bool) (s : State) : State :=
  match jobGet 0 k s with
  | none => s
  | some j =>
    match (queGet 256 s).packets.find? fun p => some p.id == j.pkt with
    | none => s
    | some p =>
      if j.kind ≠ 2 ∨ jobState 0 k s ≠ 1 then s
      else if s.sup.gasp.isSome then jobDone 0 k 31 s
      else
        let ws := quePacketWords 256 p s
        let plain := packetOctets ws
        if crc32c plain ≠ packetCrc ws then jobDone 0 k 29 s
        else if j.sec ∧ slotLive j.keySlot s = false then jobDone 0 k 27 s
        else if j.sec ∧ slotSpent j.keySlot s = true then jobDone 0 k 28 s
        else if j.sec ∧ fcReady j.keySlot s = false then s
        else
          let d := if j.sec then
              let v := fcDraw j.keySlot s
              (some v.1, v.2)
            else (none, s)
          let j1 := { j with counter := d.1 }
          if agrees then
            let store : GaspStore := { octets := jobPsdu j1 plain d.2, settings := gaspRecord j1 d.2 }
            jobDone 0 k 12 (fset pmbB LG_STAT.FRAME 1 (linkPut { d.2.link with gasp := some store } d.2))
          else jobDone 0 k 29 d.2

/-- Word `k` of the settings record as LG_SET shows it. -/
def lgSetView (k : Nat) (s : State) : Word :=
  match s.link.gasp with
  | some g => BitVec.ofNat 32 (g.word k)
  | none => 0

/-- Word `k` of the ring as LG_RING shows it (R625). -/
def lgRingView (k : Nat) (s : State) : Word :=
  match s.link.gasp with
  | some g => BitVec.ofNat 32 (ofLeBytes ((g.octets.drop (4 * k)).take 4))
  | none => 0

/-! ### Beginning and end (R615, R616, R620, R111) -/

/-- FE_OWNER.SEQ. -/
def gaspSeq (v : Nat) (s : State) : State := fset (feB .a) FE_OWNER.SEQ v s

/-- The frame's occupied band lies inside the usable span of the block in force, with front end A in RX or SYNTH
with the hall (R616). -/
def gaspInBlock (g : GaspStore) (s : State) : Bool :=
  let ofs : Int := (g.word 0 : Int) - ((rd (feB .a + 0x10) s).toNat : Int)
  hallUp s && (feGet .a s).trans.isNone && (feState .a s == 2 || feState .a s == 3) &&
    decide (40 * ofs.natAbs + 20 * occupied (g.word 1) (Config.txIndex (g.word 1)) ≤ 21 * feWidth .a s)

/-- The domains the sequencer powers as needed: PD31, PD32–PD35 and PD40 (R616). -/
def gaspDomains : List Nat := [31, 32, 33, 34, 35, 40]

/-- Front end A enters SYNTH in the sequencer's own block; a residence of the hall ends (R99, R616). -/
def gaspHop (s : State) : State :=
  let s1 := residenceEnd .a s
  let f := feGet .a s1
  let s2 := fePut .a { f with trans := none, hop := false, centrePend := false, announce := false } s1
  feCtlPins .a 2 (feLock .a true (fset (feB .a) FE_STAT.TARGET 2 (fset (feB .a) FE_STAT.BUSY 0
    (fset (feB .a) FE_STAT.STATE 2 s2))))

/-- A last gasp ends with a result (R620, R111): what front end A is left as, and the token. -/
def gaspEnd (res : Nat) (s : State) : State :=
  match s.sup.gasp with
  | none => s
  | some g =>
    let s1 := gaspSeq 0 (fset pmbB LG_STAT.RESULT res (supPut { s.sup with gasp := none } s))
    let s2 := if hallUp s1 then feWalk .a (if g.ownBlock then 2 else g.feWas) s1
      else
        let t := feSleepNow .a s1
        if t.pow.hall = .off then g.powered.foldl (fun u d => pdSet d false u) t else t
    let s3 := if g.fromHall then (if hallUp s2 then raiseEvt 790 s2 else s2)
      else if hallUp s2 then raiseEvt 790 (fset (feB .a) FE_OWNER.ORIGIN 0 (radioOwner false s2))
      else s2
    supNote 7 s3

/-- A last gasp begins (R615, R616). -/
def gaspBegin (s : State) : State :=
  let up := hallUp s
  let inBlock := (s.link.gasp.map fun g => gaspInBlock g s).getD false
  let stored := fget pmbB LG_STAT.FRAME s = 1
  let powered := if up then [] else gaspDomains.filter fun d => !pdOn d s
  let s1 := if up then raiseEvt 791 (airAbort .a 7 (airAbort .b 7 s)) else s
  let s2 := gaspSeq 1 (fset (feB .a) FE_OWNER.ORIGIN (ofBool up) (radioOwner true s1))
  let s3 := supNote 6 (fset pmbB LG_STAT.SENT 0 (fset pmbB LG_STAT.ACK_E 0 s2))
  let run : GaspRun := { fromHall := up, ownBlock := !inBlock, feWas := feHeld .a s, powered := powered }
  let s4 := supPut { s3.sup with gasp := some run } s3
  if !stored then gaspEnd 1 (supPut { s4.sup with gasp := some { run with ownBlock := false, powered := [] } } s4)
  else
    let s5 := powered.foldl (fun t d => pdSet d true t) s4
    let s6 := if powered.contains 32 then licStart s5 else s5
    if inBlock then s6 else gaspHop s6

/-! ### Attempts (R617–R619) -/

/-- The listening rule in force: mode, threshold in dBm and time in µs (R154, R617). -/
def GaspStore.cca (g : GaspStore) (s : State) : Nat × Int × Nat :=
  lbtFloor (g.word 5) (signedOf 8 (g.word 6)) (g.word 7) (g.word 16) s

/-- Set what the last gasp is doing. -/
def gaspStage (f : GaspRun → GaspRun) (s : State) : State := supPut { s.sup with gasp := s.sup.gasp.map f } s

/-- |E| as the lantern holds it exceeds the entry's tolerance (R617). -/
def gaspRefBad (g : GaspStore) (s : State) : Bool :=
  decide (100 * licTol (g.word 16) s < (fgetS pmbB LG_E.EST s).natAbs)

/-- PA_SENSE, LAST_QDBM and PA_DRIVE of an attempt, from the stored settings (R617). -/
def gaspPower (g : GaspStore) (temp : BitVec 16) (vpa : Nat) (s : State) : State :=
  let b := feB .a
  let as := wr (b + 0x30) (BitVec.ofNat 32 (g.word 10)) (fset b FE_CTRL.EXTPA_EN (g.word 9)
    (fset b FE_PA.MAX_QDBM (g.word 12) (fset b FE_ERR.PROT (g.word 13) s)))
  let t := txPowerSet .a (g.word 0) (signedOf 8 (g.word 3)) (licCap .a (g.word 16) as) temp vpa as
  fset b FE_PA.LAST_QDBM (fget b FE_PA.LAST_QDBM t) (fset b PA_DRIVE.DRIVE (fget b PA_DRIVE.DRIVE t)
    (fset b PA_DRIVE.HEAD (fget b PA_DRIVE.HEAD t) (fset b PA_DRIVE.LIC (fget b PA_DRIVE.LIC t)
      (fset b PA_SENSE.VPA_MV vpa (fset b PA_SENSE.TEMP temp.toNat s)))))

/-- The transition of an attempt begins (R616, R618): as a frame job's, with the stored arrangement. -/
def gaspTransit (g : GaspStore) (tick : Nat) (temp : BitVec 16) (vpa : Nat) (s : State) : State :=
  let b := feB .a
  let src := if feState .a s = 3 then 3 else 2
  let dst := if src = 3 ∧ g.word 8 = 1 then 5 else 4
  let edges := bandEdges (g.word 0) (g.word 1) (Config.txIndex (g.word 1))
  let s1 := gaspPower g temp vpa s
  let f := feGet .a s1
  let ext := g.word 9 == 1
  let s2 := fset b FE_STAT.BUSY 1 (fePut .a { f with
    trans := some ⟨src, dst, false⟩
    txFrom := src
    muted := false
    onAir := true
    paEn := f.paEn || ext
    paBias := if ext then bitsOf (BitVec.ofNat 32 (g.word 10)) FE_EXTPA.BIAS_ON.lo FE_EXTPA.BIAS_ON.w else f.paBias } s1)
  let s3 := feCtlPins .a dst (fset b FE_STAT.TR_TX (ofBool (dst == 4)) s2)
  knkDeaf (fdxStart .a tick edges.1 edges.2 (g.word 0) (fgetS b FE_PA.LAST_QDBM s3) temp.toInt s3)

/-- LG_ATTEMPT (R617): the checks at the transition start; `nt` is the network time of the preamble's start. -/
def gaspAttempt (nt : Word64) (tick : Nat) (vhold : Nat) (temp : BitVec 16) (vpa : Nat) (s : State) : State :=
  match s.sup.gasp, s.link.gasp with
  | some r, some g =>
    let due := r.stage = .clear ∨ (r.stage = .waiting ∧ (g.cca s).1 = 0)
    if ¬ due ∨ (airGet .a s).isSome = true then s
    else
      let s1 := fset pmbB LG_STAT.VH_MV vhold s
      if vhold < fget pmbB LG_VH.VH_TX s1 then gaspEnd 2 s1
      else if gaspRefBad g s1 then gaspEnd 3 s1
      else if dutyOk (licGet (g.word 16) 0x10 1 s1) (airUs g.frame) none s1 = false then gaspEnd 4 s1
      else gaspTransit g tick temp vpa (wr64 (pmbB + 0x110) nt
        (gaspStage (fun v => { v with stage := .onAir false, busy := 0 }) s1))
  | _, _ => s

/-- LG_CCA (R617): the mean power over the listening time, in 0.25 dBm; a busy channel is assessed again up to three
times. -/
def gaspCca (level : Int) (s : State) : State :=
  match s.sup.gasp, s.link.gasp with
  | some r, some g =>
    let c := g.cca s
    if r.stage ≠ .waiting ∨ c.1 = 0 then s
    else if level ≤ 4 * c.2.1 then gaspStage (fun v => { v with stage := .clear }) s
    else if 3 ≤ r.busy then gaspEnd 5 s
    else gaspStage (fun v => { v with busy := v.busy + 1 }) s
  | _, _ => s

/-- LG_CUT (R618): VHOLD has fallen below VH_ABORT during the frame, which is muted. -/
def gaspCut (s : State) : State :=
  match s.sup.gasp with
  | some r =>
    if r.stage = .onAir false then
      fset pmbB LG_STAT.FRAME 2 (fePut .a { feGet .a s with muted := true }
        (gaspStage (fun v => { v with stage := .onAir true }) s))
    else s
  | none => s

/-- After an attempt (R619): another one, or the end. -/
def gaspNext (r : GaspRun) (s : State) : State :=
  if r.sent < 1 + fget pmbB LG_CFG.REPEAT s then gaspSeq 1 (gaspStage (fun v => { v with stage := .waiting, busy := 0 }) s)
  else gaspEnd 0 s

/-- LG_FRAME_END (R614, R618, R619): the ramp-down ends at `tick`, after `radiated` radiated ticks. -/
def gaspFrameEnd (tick radiated : Nat) (temp : BitVec 16) (s : State) : State :=
  match s.sup.gasp, s.link.gasp with
  | some r, some g =>
    let finish (cut : Bool) : State :=
      let us := (radiated * 10 + 767) / 768
      let s1 := dutyCharge (licGet (g.word 16) 0x10 1 s) us (txRelease .a tick temp s)
      let r1 := if radiated = 0 then r else { r with sent := r.sent + 1 }
      let s2 := if radiated = 0 then s1
        else fset pmbB LG_STAT.FRAME 2 (fset pmbB LG_STAT.SENT r1.sent s1)
      let s3 := gaspStage (fun _ => r1) s2
      if r1.tampered then gaspEnd 7 s3
      else if cut then gaspEnd 6 s3
      else if g.ackReq then gaspSeq 2 (gaspStage (fun v => { v with stage := .ackWindow }) s3)
      else gaspNext r1 s3
    match r.stage with
    | .onAir cut => finish cut
    | _ => s
  | _, _ => s

/-- LG_ACK_WINDOW (R619): the mean power over the window in 0.25 dBm. -/
def gaspAckWindow (level : Int) (s : State) : State :=
  match s.sup.gasp, s.link.gasp with
  | some r, some g =>
    if r.stage ≠ .ackWindow then s
    else if 4 * signedOf 8 (g.word 6) < level then gaspEnd 0 (fset pmbB LG_STAT.ACK_E 1 s)
    else gaspNext r s
  | _, _ => s

/-- A tamper destruction (R622): the transmission is muted, and the last gasp ends with TAMPER. -/
def gaspTamper (s : State) : State :=
  match s.sup.gasp with
  | some r =>
    match r.stage with
    | .onAir _ => fePut .a { feGet .a s with muted := true } (gaspStage (fun v => { v with tampered := true }) s)
    | _ => gaspEnd 7 s
  | none => s

/-! ### The commands -/

/-- LAST_GASP_STORE (R338). -/
def execLastGaspStore (slot : BitVec 2) (agrees : Bool) (s : State) : Host.Outcome State Fault Refusal :=
  .next (gaspStore slot.toNat agrees s)

/-- LG_ATTEMPT (R617). -/
def execLgAttempt (nt tick : Word64) (vhold : BitVec 11) (temp : BitVec 16) (vpa : BitVec 12) (s : State) :
    Host.Outcome State Fault Refusal :=
  .next (gaspAttempt nt tick.toNat vhold.toNat temp vpa.toNat s)

/-- LG_CCA (R617). -/
def execLgCca (level : BitVec 16) (s : State) : Host.Outcome State Fault Refusal := .next (gaspCca level.toInt s)

/-- LG_CUT (R618). -/
def execLgCut (s : State) : Host.Outcome State Fault Refusal := .next (gaspCut s)

/-- LG_FRAME_END (R618). -/
def execLgFrameEnd (tick radiated : Word64) (temp : BitVec 16) (s : State) : Host.Outcome State Fault Refusal :=
  .next (gaspFrameEnd tick.toNat radiated.toNat temp s)

/-- LG_ACK_WINDOW (R619). -/
def execLgAckWindow (level : BitVec 16) (s : State) : Host.Outcome State Fault Refusal :=
  .next (gaspAckWindow level.toInt s)

end Sys2Proof.Machine
end

