-- ==== Sys2Proof/Machine/Supply.lean ====
section
/-!
DEFINITION. The supply watch (spec/21_supply_watch.md, R602–R612) and the whole second of network time, which
refreshes the 10 s frequency (R389–R394, R606).
-/

namespace Sys2Proof.Machine

open Reg

/-- The page of supply channel `c`. -/
def supP (c : Nat) : Nat := supB + 0x100 + 0x40 * c

/-- What channel `c` holds beside its page. -/
def supGet (c : Nat) (s : State) : SupChan := tget (fun _ => ({} : SupChan)) s.sup.chans c

/-- Set it. -/
def supChanPut (c : Nat) (v : SupChan) (s : State) : State :=
  supPut { s.sup with chans := tset (fun _ => ({} : SupChan)) s.sup.chans c v } s

/-- Channel `c` measures (R612): PD74 on and its EN bit 1. -/
def supOn (c : Nat) (s : State) : Bool := pdOn 74 s && (fget supB SUP_CTRL.EN s).testBit c

/-- A channel in DC mode. -/
def supDc (c : Nat) (s : State) : Bool := fis (supP c) SUP_CFG.MODE s

/-- A bit of SUP_ERR is set, raising event 864 (R623). -/
def supErr (f : Fld) (s : State) : State := note supB f 864 s

/-! ### Records (R610) -/

/-- A record is written: the FIFO holds 32. -/
def supRecord (r : SupRecord) (s : State) : State :=
  if 32 ≤ s.sup.recs.length then fcount supB SUP_RECST.LOST s
  else
    let was := s.sup.recs.isEmpty
    let s1 := fset supB SUP_RECST.COUNT (s.sup.recs.length + 1) (supPut { s.sup with recs := s.sup.recs ++ [r] } s)
    if was then supNote 5 s1 else s1

/-- The popped record as SUP_REC0–3 show it (R624); all words 0 for none. -/
def recWords (r : Option SupRecord) : List Word :=
  match r with
  | none => [0, 0, 0, 0]
  | some r =>
    [BitVec.ofNat 32 (2 ^ 31 + r.kind * 2 ^ 28 + r.ch * 2 ^ 26 + ofBool r.flag * 2 ^ 25 + ofBool r.lft * 2 ^ 24 + r.ext),
      BitVec.ofNat 32 r.dur, BitVec.ofNat 32 r.nt, BitVec.ofNat 32 (r.nt / 2 ^ 32)]

/-- A read of SUP_REC0 pops the oldest record into the group, captured for the initiator (R68, R624). -/
def supPop (i : Init) (s : State) : Word × State :=
  let ws := recWords s.sup.recs.head?
  let s1 := supPut { s.sup with recs := s.sup.recs.drop 1 } s
  let s2 := wrList (supB + 0x10) ws (fset supB SUP_RECST.COUNT (s.sup.recs.length - 1) s1)
  (ws.getD 0 0, capturePut i (supB + 0x14) (ws.getD 1 0) (capturePut i (supB + 0x18) (ws.getD 2 0)
    (capturePut i (supB + 0x1C) (ws.getD 3 0) s2)))

/-! ### Conditions (R608–R611) -/

/-- The decision that writes a record: its channel, network time and flags, and the RMS. -/
structure SupSeen where
  ch : Nat
  nt : Nat
  flag : Bool
  rms : Int

/-- The record of a beginning or an end. -/
def SupSeen.rec_ (v : SupSeen) (kind : Nat) (c : SupCond) (s : State) : SupRecord :=
  { kind := kind, ch := v.ch, flag := v.flag, lft := !pdOn 31 s, ext := c.ext, dur := if kind % 2 = 0 then 0 else c.dur, nt := v.nt }

/-- `units` × 0.5 % of NOM compared with the RMS. -/
def SupSeen.below (v : SupSeen) (units : Nat) (s : State) : Bool :=
  decide (v.rms * 200 < (units : Int) * (fget (supP v.ch) SUP_NOM.NOM s : Nat))

/-- The RMS lies above `units` × 0.5 % of NOM. -/
def SupSeen.above (v : SupSeen) (units : Int) (s : State) : Bool :=
  decide (units * ((fget (supP v.ch) SUP_NOM.NOM s : Nat) : Int) < v.rms * 200)

/-- A condition that lasts through a refresh: its extreme and its count. -/
def SupSeen.lasts (v : SupSeen) (highest : Bool) (c : SupCond) : SupCond :=
  let e := signedOf 24 c.ext
  { ext := fieldOfInt 24 (if highest then max e v.rms else min e v.rms), dur := c.dur + 1 }

/-- A condition that begins at a refresh. -/
def SupSeen.begins (v : SupSeen) : SupCond := { ext := fieldOfInt 24 v.rms, dur := 1 }

/-- SAG at a refresh. -/
def supSag (v : SupSeen) (s : State) : State :=
  let p := supP v.ch
  let c := supGet v.ch s
  let sag := fget p SUP_TH.SAG s
  if fis p SUP_STAT.SAG s then
    if v.below (sag + fget p SUP_TH.HYST s) s then supChanPut v.ch { c with sag := v.lasts false c.sag } s
    else supRecord (v.rec_ 1 c.sag s) (fset p SUP_STAT.SAG 0 s)
  else if v.below sag s then
    supNote 0 (supRecord (v.rec_ 0 v.begins s) (fset p SUP_STAT.SAG 1 (supChanPut v.ch { c with sag := v.begins } s)))
  else s

/-- SWELL at a refresh. -/
def supSwell (v : SupSeen) (s : State) : State :=
  let p := supP v.ch
  let c := supGet v.ch s
  let swell : Int := fget p SUP_TH.SWELL s
  if fis p SUP_STAT.SWELL s then
    if v.above (swell - (fget p SUP_TH.HYST s : Nat)) s then supChanPut v.ch { c with swell := v.lasts true c.swell } s
    else supRecord (v.rec_ 3 c.swell s) (fset p SUP_STAT.SWELL 0 s)
  else if v.above swell s then
    supNote 1 (supRecord (v.rec_ 2 v.begins s) (fset p SUP_STAT.SWELL 1 (supChanPut v.ch { c with swell := v.begins } s)))
  else s

/-- An outage begins on channel `c`: a last gasp may begin with it (R611, R615). -/
def supOutage (v : SupSeen) (cond : SupCond) (s : State) : State :=
  let s1 := fset (supP v.ch) SUP_STAT.OUT 1 (supChanPut v.ch { supGet v.ch s with out := cond, backAt := none } s)
  let s2 := supNote 2 (supRecord (v.rec_ 4 cond s1) s1)
  let mask := fget pmbB LG_CFG.MASK s2
  let all := (List.range 4).all fun c => !mask.testBit c || fis (supP c) SUP_STAT.OUT s2
  let mode := match s2.pow.hall with
    | .run => true
    | .off => s2.pow.mode == 3
    | _ => false
  if fis pmbB LG_CFG.EN s2 && mask.testBit v.ch && (!fis pmbB LG_CFG.ALL s2 || all) && s2.sup.gasp.isNone && mode
  then gaspBegin s2 else s2

/-- OUTAGE at a refresh whose sample is number `n` (R608): it ends once the RMS has stayed at OUT + HYST or more for
RESTORE × 100 ms. -/
def supOut (v : SupSeen) (n : Nat) (s : State) : State :=
  let p := supP v.ch
  let c := supGet v.ch s
  let out := fget p SUP_TH.OUT s
  if fis p SUP_STAT.OUT s then
    let low := v.below (out + fget p SUP_TH.HYST s) s
    let back := if low then none else some (c.backAt.getD n)
    match back with
    | some b =>
      if fget p SUP_CFG.RESTORE s * 2560 ≤ n - b then
        let s1 := supChanPut v.ch { c with backAt := none } (fset p SUP_STAT.OUT 0 s)
        let s2 := supNote 3 (supRecord (v.rec_ 5 c.out s) s1)
        if wakeArmed 6 0 s2 then wakeArrive 6 0 s2 else s2
      else supChanPut v.ch { c with out := v.lasts false c.out, backAt := back } s
    | none => supChanPut v.ch { c with out := v.lasts false c.out, backAt := none } s
  else if v.below out s then supOutage v v.begins s
  else s

/-- A refresh of the RMS of channel `c` (R604, R605, R608): the flags of its window. -/
def supRefresh (c : Nat) (rms nt n : Nat) (above dist lost : Bool) (s : State) : State :=
  if supOn c s = false then s
  else
    let p := supP c
    let d := dist || fis p SUP_SAMPLE.DIST s
    let s1 := fset p SUP_STAT.DIST (ofBool d) (fset p SUP_STAT.OVR (ofBool above) (fset p SUP_STAT.LOST (ofBool lost)
      (fset p SUP_STAT.LF_T (ofBool (!pdOn 31 s)) (fset p SUP_RMS.RMS rms s))))
    let v : SupSeen := { ch := c, nt := nt, flag := above || d || lost, rms := signedOf 24 rms }
    supOut v n (supSwell v (supSag v s1))

/-- A fast outage (R609). -/
def supFast (c nt : Nat) (flag : Bool) (s : State) : State :=
  let p := supP c
  if supOn c s = false ∨ fis p SUP_CFG.FAST_EN s = false ∨ fis p SUP_STAT.OUT s = true then s
  else
    let rms := fget p SUP_RMS.RMS s
    supOutage { ch := c, nt := nt, flag := flag, rms := signedOf 24 rms } { ext := rms, dur := 0 } s

/-- A rising zero crossing (R605, R607). -/
def supCrossing (c nt freq : Nat) (s : State) : State :=
  if supOn c s = false ∨ supDc c s = true then s
  else
    let p := supP c
    fset p SUP_FREQ.FREQ (if 42500 ≤ freq ∧ freq ≤ 69000 then freq else 0) (fset p SUP_STAT.ZC_V 1
      (fset p SUP_STAT.LF_T (ofBool (!pdOn 31 s)) (wr64 (p + 0x18) (BitVec.ofNat 64 nt) s)))

/-- The neighbours of a channel. -/
def supNear (c : Nat) : List Nat := (if c = 0 then [] else [c - 1]) ++ (if c = 3 then [] else [c + 1])

/-- DISTURBED of every channel follows the channels with an over-range sample not long ago (R604). -/
def supDisturbed (s : State) : State :=
  (List.range 4).foldl
    (fun t c => fset (supP c) SUP_SAMPLE.DIST (ofBool ((supNear c).any fun k => s.sup.overNear.contains k)) t) s

/-- An over-range sample (R604). -/
def supOverRange (c : Nat) (negative : Bool) (s : State) : State :=
  if supOn c s = false then s
  else
    let p := supP c
    let s1 := fset p SUP_SAMPLE.SAMPLE (if negative then 0x800000 else 0x7FFFFF) (fset p SUP_SAMPLE.OVR 1
      (fset p SUP_STAT.OVR 1 s))
    supNote 4 (supDisturbed (supPut { s1.sup with overNear := insertNat c s1.sup.overNear } s1))

/-- 64 samples after the last over-range sample (R604). -/
def supDisturbEnd (c : Nat) (s : State) : State :=
  if s.sup.overNear.contains c then
    supDisturbed (fset (supP c) SUP_SAMPLE.OVR 0 (supPut { s.sup with overNear := s.sup.overNear.filter (· != c) } s))
  else s

/-! ### The whole second (R387–R394, R606) -/

/-- Slewing for one second (R387, R388): limited to 50 µs, only in LOCKED or with a source valid. -/
def secSlew (s : State) : State :=
  if s.time.rem = 0 ∨ (timeState s ≠ 2 ∧ timeSource s = 0) then s
  else
    let d := ratClamp 50000 (s.time.rem / (fget timeB TIME_CFG.SLEW_TC s : Rat))
    let r := s.time.rem - d
    timeRem (if -1 < r ∧ r < 1 then 0 else r) s

/-- TIME_ERR in HOLDOVER and FREE (R391, R392). -/
def secQuality (s : State) : State :=
  let s1 := timePut { s.time with errSecs := s.time.errSecs + 1 } s
  match s1.time.err0 with
  | none => s1
  | some e0 =>
    if timeState s1 = 2 then s1
    else
      let grown := e0 + fget timeB REF_STAB.STAB s1 * s1.time.errSecs
      let src := timeSource s1
      let v := min 0xFFFFFFFE (if src = 0 then grown else max grown (s1.time.absOfs + timeAccuracy src s1))
      let s2 := wr (timeB + 0x2C) (BitVec.ofNat 32 v) s1
      if timeState s2 = 1 ∧ 1000 * fget timeB TIME_LIMITS.FREE_LIMIT s2 < v then timeQual 0 s2 else s2

/-- PPS_OUT at a whole second (R393, R394). -/
def secPulse (tick : Nat) (s : State) : State :=
  if fis timeB TIME_PPS.OUT_EN s = false ∨ timeState s < fget timeB TIME_PPS.OUT_MIN s then s
  else
    match s.time.lastPulse with
    | some p =>
      if tick - p < 38400000 then fcount timeB TIME_CNT.SUPPR s
      else timePut { s.time with ppsOut := true, lastPulse := some tick } s
    | none => timePut { s.time with ppsOut := true, lastPulse := some tick } s

/-- A pending step takes place at second `sec` (R389). -/
def secStep (sec : Nat) (s : State) : State :=
  match s.time.step with
  | none => s
  | some d =>
    let nt := ((sec : Int) * 1000000000 + d).toNat
    let s1 := timeStep none (timeRem 0 (timePut { s.time with nt := nt } s))
    timeNote 1 (fcount timeB TIME_CNT.STEPS (wr64 (timeB + 0x10) (BitVec.ofNat 64 nt) s1))

/-- The 10 s frequency (R606): `f10` is the measurement on the channel F10_CH. -/
def secF10 (sec f10 : Nat) (s : State) : State :=
  let c := fget supB SUP_CTRL.F10_CH s
  if sec % 10 ≠ 0 ∨ pdOn 74 s = false then s
  else if supDc c s then fset supB SUP_F10.VALID 0 s
  else if supOn c s then fset supB SUP_F10.VALID 1 (fset supB SUP_F10.F10 f10 s)
  else s

/-- Network time reaches the whole second `sec` at air tick `tick`. -/
def timeSecond (sec tick f10 : Nat) (s : State) : State :=
  if s.time.away ∨ pdOn 31 s = false then s
  else secF10 sec f10 (secStep sec (secPulse tick (secQuality (secSlew (raiseEvt 895 s)))))

/-! ### The commands -/

/-- SUP_ZERO_CROSSING (R605): the crossing's network time and the cycle's frequency in mHz. -/
def execSupZeroCrossing (chan : BitVec 2) (nt : Word64) (freq : BitVec 24) (s : State) :
    Host.Outcome State Fault Refusal :=
  .next (supCrossing chan.toNat nt.toNat freq.toNat s)

/-- SUP_RMS_REFRESH (R608): the RMS, the network time and number of the sample, and the window's flags. -/
def execSupRmsRefresh (chan : BitVec 2) (rms : BitVec 24) (nt : Word64) (sample : Nat) (above dist lost : Bool)
    (s : State) : Host.Outcome State Fault Refusal :=
  .next (supRefresh chan.toNat rms.toNat nt.toNat sample above dist lost s)

/-- SUP_FAST_OUTAGE (R609). -/
def execSupFastOutage (chan : BitVec 2) (nt : Word64) (flag : Bool) (s : State) : Host.Outcome State Fault Refusal :=
  .next (supFast chan.toNat nt.toNat flag s)

/-- SUP_DISTURB_END (R604). -/
def execSupDisturbEnd (chan : BitVec 2) (s : State) : Host.Outcome State Fault Refusal :=
  .next (supDisturbEnd chan.toNat s)

/-- SUP_OVERRUN (R603): the windows' LOST comes with their refreshes. -/
def execSupOverrun (s : State) : Host.Outcome State Fault Refusal :=
  .next (if pdOn 74 s then supErr SUP_ERR.OVERRUN s else s)

/-- SUP_OVER_RANGE (R604). -/
def execSupOverRange (chan : BitVec 2) (negative : Bool) (s : State) : Host.Outcome State Fault Refusal :=
  .next (supOverRange chan.toNat negative s)

/-- SUP_RECORD_POP (R624). -/
def execSupRecordPop (i : Init) (s : State) : Host.Outcome State Fault Refusal :=
  .next (doorLoad i (supB + 0x10) (supPop i) s)

/-- TIME_SEC (R393): the second, its air tick, and the 10 s frequency in mHz when it is a tenth one. -/
def execTimeSec (sec tick : Word64) (f10 : BitVec 24) (s : State) : Host.Outcome State Fault Refusal :=
  .next (timeSecond sec.toNat tick.toNat f10.toNat s)

end Sys2Proof.Machine
end

