-- ==== Sys2Proof/Machine/Tamper.lean ====
section
/-!
DEFINITION. Tamper sources, destruction and the vault erase (spec/17_keys_tamper.md, R527–R532), the writes of the
tamper block, and the rooms' watchdogs (R454).
-/

namespace Sys2Proof.Machine

open Reg

/-- The action of a source: 0 OFF, 1 RECORD, 2 DESTROY; SHIELD's follows the lifecycle (R529). -/
def tampAct (c : Nat) (s : State) : Nat :=
  if c = 4 then (if fget keyB KEY_LIFE.STATE s = 0 then 1 else 2)
  else bitsOf (rd tampB s) (2 * c) 2

/-- A source can trip (R527, R528): a loop only with its EN bit, LF_STOP once the stop detector has fired. -/
def tampCan (c : Nat) (s : State) : Bool :=
  if c < 4 then (fget tampB TAMP_LOOP.EN s).testBit c
  else if c = 7 then s.cal.stopped
  else true

/-- A trip is recorded (R529, R533). -/
def tampRecord (c : Nat) (s : State) : State :=
  let s1 := wr (tampB + 0x10) (rd (calB + 4) s &&& 0xFFFF#32) (wr (tampB + 0xC) (rd calB s) s)
  lanternNote tampB ⟨8, c, 1⟩ 1020 (fset tampB TAMP_STAT.LAST_SRC c s1)

/-- The hall stood in RUN, DOZE or LULL, or in a start, which begins again (R530, R655). -/
def tampStarts (s : State) : Bool := s.pow.hall != .off

/-- A destruction (R530, R532): keys, contexts and root go, a hall reset of cause TAMPER is asserted, any transmission
and the last gasp are muted; a second one is merged. -/
def tampDestroy (s : State) : State :=
  if fis tampB TAMP_STAT.ERASING s then s
  else
    let mode := s.pow.mode
    let starts := tampStarts s
    let s1 := gaspTamper (airAbort .b 7 (airAbort .a 7 s))
    let s2 := fset keyB KEY_LIFE.ROOT_V 0 { s1 with keys := { s1.keys with root := none, slots := [], rooting := none } }
    let s3 := fset tampB TAMP_STAT.ERASING 1 (fset tampB TAMP_STAT.ERASE_PEND 1 (cipZeroise s2))
    hallReset 2 false
      (fun t => powPut { t.pow with hall := .erasing starts, mode := if starts then 0 else mode } t) s3

/-- A source trips (R529). -/
def tampTrip (c : Nat) (s : State) : State :=
  if tampCan c s = false then s
  else match tampAct c s with
    | 0 => s
    | 1 => tampRecord c s
    | _ => tampDestroy (tampRecord c s)

/-- The vault erase completes (R530). -/
def vaultErased (s : State) : State :=
  if fis tampB TAMP_STAT.ERASING s = false then s
  else
    let s1 := fset tampB TAMP_STAT.ERASE_PEND 0 (fset tampB TAMP_STAT.ERASING 0 s)
    match s1.pow.hall with
    | .erasing true => startAttempt s1
    | .erasing false => hallPut .off s1
    | _ => s1

/-! ### Writes of the tamper block (R528, R529, R536) -/

/-- A write under LOCK is ignored. -/
def tampLocked (s : State) : State := fset tampB TAMP_STAT.LOCKED_W 1 s

/-- A write of TAMP_CFG; LOCK by the Steward alone. -/
def tampCfgWrite (steward : Bool) (data : Word) (s : State) : State :=
  if fis tampB TAMP_CFG.LOCK s then tampLocked s
  else if (List.range 8).any fun c => bitsOf data (2 * c) 2 == 3 then s
  else wr tampB ((data &&& 0xFFFF#32) ||| (if steward then data &&& 0x80000000#32 else 0)) s

/-- Loop `k` is seeded (R528). -/
def loopSeed (k : Nat) (s : State) : State :=
  let r := match rngTake s with
    | some v => v
    | none => (freeNat s, drawFree s)
  { r.2 with keys := { r.2.keys with loops := tset (fun _ => 0) r.2.keys.loops k (r.1 % 2 ^ 15) } }

/-- A write of TAMP_LOOP. -/
def tampLoopWrite (data : Word) (s : State) : State :=
  if fis tampB TAMP_CFG.LOCK s then tampLocked s
  else if bitsOf data 8 4 = 0 ∨ bitsOf data 0 8 = 0 then s
  else
    let old := fget tampB TAMP_LOOP.EN s
    (List.range 4).foldl (fun t k => if bitOf data (12 + k) && !old.testBit k then loopSeed k t else t)
      (wr (tampB + 4) (data &&& 0xFFFF#32) s)

/-! ### Watchdogs (R454) -/

/-- The watchdog of a room that counts reaches its TIMEOUT. -/
def wdogExpire (r : Nat) (s : State) : State :=
  let b := wdogPage r
  if wdogCounts r s = false then s
  else
    let s1 := raiseEvt 1018 (fset b WDOG_STAT.EXPIRED 1 (fset b WDOG_STAT.COUNT (fget b WDOG_CFG.TIMEOUT s) s))
    if fis b WDOG_CFG.ACTION s1 then (if r = 0 then hallRestart 3 s1 else suspendRoom r s1) else s1

/-! ### The commands -/

/-- TAMPER_TRIP (R529): LOOP0–LOOP3, SHIELD, VBAT, TEMP, LF_STOP. -/
def execTamperTrip (src : BitVec 3) (s : State) : Host.Outcome State Fault Refusal := .next (tampTrip src.toNat s)

/-- VAULT_ERASE_DONE (R530). -/
def execVaultEraseDone (s : State) : Host.Outcome State Fault Refusal := .next (vaultErased s)

/-- ROOM_WDOG (R454). -/
def execRoomWdog (room : BitVec 6) (s : State) : Host.Outcome State Fault Refusal := .next (wdogExpire room.toNat s)

end Sys2Proof.Machine
end

