-- ==== Sys2Proof/Machine/Calendar.lean ====
section
/-!
DEFINITION. The calendar, its alarms and PWR_ON (spec/13_timers_rtc.md, R419–R433), and the crystal's start (R658).
-/

namespace Sys2Proof.Machine

open Reg

/-! ### Dates (R420) -/

/-- The days of a year that is counted from 2000. -/
def yearDays (y : Nat) : Nat := if y % 4 = 0 ∧ (y % 100 ≠ 0 ∨ y % 400 = 0) then 366 else 365

/-- The days of a month. -/
def monthDays (y m : Nat) : Nat :=
  if m = 2 then yearDays y - 337 else if m = 4 ∨ m = 6 ∨ m = 9 ∨ m = 11 then 30 else 31

/-- The days before a year, and before a month of it. -/
def daysBefore (y m : Nat) : Nat :=
  ((List.range y).map yearDays).foldl (· + ·) 0 + ((List.range (m - 1)).map fun k => monthDays y (k + 1)).foldl (· + ·) 0

/-- Year and month of a day number: the last ones that begin at it or before. -/
def dayYear (d : Nat) : Nat := ((List.range 200).filter fun y => decide (daysBefore y 1 ≤ d)).length - 1

/-- The month. -/
def dayMonth (y d : Nat) : Nat := ((List.range 12).filter fun m => decide (daysBefore y (m + 1) ≤ d)).length

/-- A date and time. -/
structure CalTime where
  year : Nat
  month : Nat
  day : Nat
  hour : Nat
  min : Nat
  sec : Nat

/-- The fields of a calendar second since 2000-01-01 00:00:00. -/
def calFields (t : Nat) : CalTime :=
  let d := t / 86400
  let r := t % 86400
  let y := dayYear d
  let m := dayMonth y d
  { year := y, month := m, day := d - daysBefore y m + 1, hour := r / 3600, min := r / 60 % 60, sec := r % 60 }

/-- The last second whose fields are correct (R421). -/
def calLast : Nat := 6311433599

/-- WDAY of a calendar second: 1 Monday to 7 Sunday; 2000-01-01 is 6. -/
def calWday (t : Nat) : Nat := (t / 86400 + 5) % 7 + 1

/-- CAL_TIME of the fields. -/
def CalTime.timeWord (c : CalTime) : Word := BitVec.ofNat 32 (c.hour * 2 ^ 12 + c.min * 2 ^ 6 + c.sec)

/-- CAL_DATE of the fields with a weekday. -/
def CalTime.dateWord (c : CalTime) (wday : Nat) : Word :=
  BitVec.ofNat 32 (wday * 2 ^ 24 + c.year * 2 ^ 16 + c.month * 2 ^ 8 + c.day)

/-- The fields staged in CAL_SET_TIME and CAL_SET_DATE. -/
def calStaged (s : State) : CalTime :=
  { year := fget calB CAL_SET_DATE.YEAR s, month := fget calB CAL_SET_DATE.MONTH s, day := fget calB CAL_SET_DATE.DAY s
    hour := fget calB CAL_SET_TIME.HOUR s, min := fget calB CAL_SET_TIME.MIN s, sec := fget calB CAL_SET_TIME.SEC s }

/-- A real date and time within 2000–2199 (R424). -/
def CalTime.real (c : CalTime) : Bool :=
  decide (c.year ≤ 199 ∧ 1 ≤ c.month ∧ c.month ≤ 12 ∧ 1 ≤ c.day ∧ c.day ≤ monthDays c.year c.month ∧ c.hour ≤ 23 ∧
    c.min ≤ 59 ∧ c.sec ≤ 59)

/-- The seconds from 2000-01-01 00:00:00 (R424). -/
def CalTime.seconds (c : CalTime) : Nat :=
  (daysBefore c.year c.month + c.day - 1) * 86400 + c.hour * 3600 + c.min * 60 + c.sec

/-! ### Seconds and alarms -/

/-- CAL_SEC. -/
def calSec (s : State) : Nat := (rd calB s).toNat + 2 ^ 32 * fget calB CAL_SEC_HI.SEC_HI s

/-- CAL_SEC takes a value, with SUBSEC 0. -/
def calSecPut (t : Nat) (s : State) : State :=
  wr (calB + 4) (BitVec.ofNat 32 (t / 2 ^ 32 % 2 ^ 16)) (wr calB (BitVec.ofNat 32 t) s)

/-- CAL_TIME and CAL_DATE show a calendar second. -/
def calShow (t : Nat) (s : State) : State :=
  let c := calFields t
  wr (calB + 0xC) (c.dateWord (calWday t)) (wr (calB + 8) c.timeWord s)

/-- All unmasked fields of alarm `k` equal the calendar's (R429). -/
def alarmMatches (k : Nat) (s : State) : Bool :=
  let b := calB + 8 * k
  let mask := fget b CAL_ALM_C.MASK s
  let same (bit : Nat) (a c : Nat) : Bool := mask.testBit bit || a == c
  same 0 (fget b CAL_ALM_T.SEC s) (fget calB CAL_TIME.SEC s) && same 1 (fget b CAL_ALM_T.MIN s) (fget calB CAL_TIME.MIN s) &&
    same 2 (fget b CAL_ALM_T.HOUR s) (fget calB CAL_TIME.HOUR s) &&
    same 3 (fget b CAL_ALM_T.DAY s) (fget calB CAL_DATE.DAY s) &&
    same 4 (fget b CAL_ALM_C.MONTH s) (fget calB CAL_DATE.MONTH s) &&
    same 5 (fget b CAL_ALM_C.WDAY s) (fget calB CAL_DATE.WDAY s)

/-- Alarm `k` at a second that is entered (R429, R430). -/
def alarmCompare (k : Nat) (s : State) : State :=
  let b := calB + 8 * k
  if fis b CAL_ALM_C.EN s = false ∨ fis calB CAL_STAT.END s = true ∨ alarmMatches k s = false then s
  else
    let s1 := calNote k s
    let s2 := if fis b CAL_ALM_C.WAKE s1 then wakeArrive (2 + k) 0 s1 else s1
    if fis b CAL_ALM_C.PON s2 then pwrOn true s2 else s2

/-- Both alarms. -/
def alarms (s : State) : State := alarmCompare 1 (alarmCompare 0 s)

/-- A second ends (R420, R421, R429, R432); the calendar holds while the stop detector has fired (R423). -/
def calSecond (s : State) : State :=
  if s.cal.stopped then s
  else
    let was := calSec s
    let s1 := calSecPut (was + 1) s
    let s2 := if fis calB CAL_STAT.END s1 then s1
      else if was = calLast then calNote 2 (fset calB CAL_STAT.END 1 s1)
      else calShow (was + 1) s1
    let s3 := if fis calB CAL_CFG.TICK_EN s2 then calNote 4 s2 else s2
    alarms s3

/-- The calendar is set to a second by SET or SYNC (R424, R425). -/
def calPut (t : Nat) (synced : Bool) (s : State) : State :=
  alarms (fset calB CAL_STAT.SYNCED (ofBool synced) (fset calB CAL_STAT.END 0 (fset calB CAL_STAT.OSF 0
    (calShow t (calSecPut t s)))))

/-- A write of CAL_CMD takes effect (R424, R425). -/
def calCmd (data : Word) (s : State) : State :=
  let set := bitOf data 0
  let sync := bitOf data 1
  if bitsOf data 16 16 ≠ 0x434C ∨ (set && sync) = true then calNote 9 s
  else if set then
    let c := calStaged s
    if c.real then calPut c.seconds false s else calNote 8 s
  else if sync then
    if pdOn 31 s then { s with cal := { s.cal with sync := true } } else calNote 10 s
  else s

/-- The first CK_LF edge at or after the whole second of a SYNC (R425). -/
def calSyncApply (snt : Nat) (s : State) : State :=
  if s.cal.sync = false then s
  else
    let s1 := { s with cal := { s.cal with sync := false } }
    let t : Int := (snt : Int) + (rd64 (calB + 0x18) s1).toInt
    if pdOn 31 s1 = false then calNote 10 s1
    else if t < 0 ∨ (calLast : Int) < t then calNote 8 s1
    else calPut t.toNat true (fset calB CAL_STAT.SYNC_Q (timeState s1) s1)

/-! ### The crystal (R423, R658) -/

/-- No CK_LF edge for 2 ms: only once the crystal has started. -/
def oscStop (s : State) : State :=
  if s.cal.crystal then
    calNote 3 (fset calB CAL_STAT.LF_RUN 0 (fset calB CAL_STAT.OSF 1 { s with cal := { s.cal with stopped := true } }))
  else s

/-- A CK_LF edge after the stop detector fired. -/
def oscResume (s : State) : State :=
  if s.cal.stopped then fset calB CAL_STAT.LF_RUN 1 { s with cal := { s.cal with stopped := false } } else s

/-- The crystal's first edge. -/
def oscFirst (s : State) : State :=
  if s.cal.crystal then s else fset calB CAL_STAT.LF_RUN 1 { s with cal := { s.cal with crystal := true } }

/-- 1.5 s without a crystal edge. -/
def oscTimeout (s : State) : State := if s.cal.crystal then s else calNote 3 s

/-! ### PWR_ON (R433) and the calendar's register writes (R426, R431, R435) -/

/-- A write of PWR_ON takes effect; SET with CLR is refused. -/
def pwrOnWrite (data : Word) (s : State) : State :=
  if bitOf data 1 && bitOf data 2 then calNote 9 s
  else
    let s1 := wr (calB + 0x40) ((rd (calB + 0x40) s &&& ~~~0x38#32) ||| (data &&& 0x38#32)) s
    if bitOf data 1 then pwrOn true s1 else if bitOf data 2 then pwrOn false s1 else s1

/-- A write of CAL_CFG. -/
def calCfgWrite (data : Word) (s : State) : State :=
  if bitsOf data 8 8 = 0x80 then calNote 8 s else wr (calB + 0x28) (data &&& 0x1FF1F#32) s

/-- A write of CAL_ALMk_T, at its address. -/
def almTWrite (a : Nat) (data : Word) (s : State) : State :=
  let day := bitsOf data 24 5
  if day = 0 ∨ 23 < bitsOf data 16 5 ∨ 59 < bitsOf data 8 6 ∨ 59 < bitsOf data 0 6 then calNote 8 s
  else wr a (data &&& 0x1F1F3F3F#32) s

/-- A write of CAL_ALMk_C, at its address. -/
def almCWrite (a : Nat) (data : Word) (s : State) : State :=
  let month := bitsOf data 8 4
  if month = 0 ∨ 12 < month ∨ bitsOf data 0 3 = 0 then calNote 8 s
  else wr a (data &&& 0x073F0F07#32) s

/-! ### The commands -/

/-- CAL_SECOND (R420). -/
def execCalSecond (s : State) : Host.Outcome State Fault Refusal := .next (calSecond s)

/-- CAL_OSC_STOP (R423). -/
def execCalOscStop (s : State) : Host.Outcome State Fault Refusal := .next (oscStop s)

/-- CK_LF_RESUME (R423). -/
def execCkLfResume (s : State) : Host.Outcome State Fault Refusal := .next (oscResume s)

/-- LF_FIRST_EDGE (R658). -/
def execLfFirstEdge (s : State) : Host.Outcome State Fault Refusal := .next (oscFirst s)

/-- LF_START_TIMEOUT (R658). -/
def execLfStartTimeout (s : State) : Host.Outcome State Fault Refusal := .next (oscTimeout s)

/-- CAL_SET (R424): a store to CAL_CMD with SET, and SYNC as given. -/
def execCalSet (i : Init) (key : BitVec 16) (sync : Bool) (s : State) : Host.Outcome State Fault Refusal :=
  .next (doorStore i (calB + 0x20) (calCmd (BitVec.ofNat 32 (key.toNat * 65536 + 2 * ofBool sync + 1))) s)

/-- CAL_SYNC (R425): a store to CAL_CMD with SYNC. -/
def execCalSync (i : Init) (key : BitVec 16) (s : State) : Host.Outcome State Fault Refusal :=
  .next (doorStore i (calB + 0x20) (calCmd (BitVec.ofNat 32 (key.toNat * 65536 + 2))) s)

/-- CAL_SYNC_APPLY (R425): S_nt. -/
def execCalSyncApply (snt : Word64) (s : State) : Host.Outcome State Fault Refusal := .next (calSyncApply snt.toNat s)

/-- PWR_ON_SET (R433): a store to PWR_ON with SET. -/
def execPwrOnSet (i : Init) (data : Word) (s : State) : Host.Outcome State Fault Refusal :=
  .next (doorStore i (calB + 0x40) (pwrOnWrite (data ||| 2#32)) s)

/-- PWR_ON_CLR (R433): a store to PWR_ON with CLR. -/
def execPwrOnClr (i : Init) (data : Word) (s : State) : Host.Outcome State Fault Refusal :=
  .next (doorStore i (calB + 0x40) (pwrOnWrite (data ||| 4#32)) s)

end Sys2Proof.Machine
end

