-- ==== Sys2Proof/Machine/HostIo.lean ====
section
/-!
DEFINITION. The host port, the UARTs, the I²C controllers and the GPIO pins (spec/22_host_io.md, R626–R644,
R649–R652).
-/

namespace Sys2Proof.Machine

open Reg

/-! ### The host port (R626–R634) -/

/-- The HOST block (R650). -/
def hostB : Nat := 0x40110000

/-- Set what the host port holds. -/
def hostPut (v : HostState) (s : State) : State := { s with host := v }

/-- A bit of HOST_NOTE, raising its event (R649); REPLACED raises none. -/
def hostNote (f : Fld) (s : State) : State :=
  match f.lo with
  | 0 => note hostB f 952 s
  | 1 => note hostB f 953 s
  | 2 => note hostB f 954 s
  | 3 => note hostB f 955 s
  | _ => fset hostB f 1 s

/-- A bit of HOST_ERR, raising event 956 (R649). -/
def hostErr (f : Fld) (s : State) : State := note hostB f 956 s

/-- The live session; 0 for none. -/
def hostSession (s : State) : Nat := fget hostB HOST_STAT.SESSION s

/-- Octets that a message or a frame takes in its store: whole words. -/
def storeOctets (n : Nat) : Nat := (n + 3) / 4 * 4

/-- Free octets of the input store of 2,048: a taken message holds its place until the next header read (R633). -/
def hostFree (s : State) : Nat :=
  2048 - ((s.host.msgs.map fun m => storeOctets m.octets.length).foldl (· + ·) 0 +
    (match s.host.taken with
     | some (n, _) => storeOctets n
     | none => 0))

/-- Octets of a device frame's payload. -/
def framePayload (f : List Byte) : Nat := f.length - 12

/-- Free octets of the output store of 2,048 (R634). -/
def hostRoom (s : State) : Nat :=
  2048 - (s.host.frames.map fun f => storeOctets (framePayload f)).foldl (· + ·) 0

/-- A frame (R628). -/
def hostFrame (type session seq : Nat) (payload : List Byte) : List Byte :=
  let l := [0xA5#8, BitVec.ofNat 8 type] ++ leBytes 2 session ++ leBytes 2 seq ++ leBytes 2 payload.length ++ payload
  l ++ leBytes 4 (crc32c l)

/-- The session is torn down (R632): waiting frames, untaken messages and the building buffer go. -/
def hostTeardown (s : State) : State :=
  let s1 := hostPut { s.host with msgs := [], frames := [], build := [], last := none } (fset hostB HOST_STAT.SESSION 0 s)
  if s.host.frames.isEmpty then s1 else hostNote HOST_NOTE.SPACE s1

/-- A little-endian field of a frame. -/
def frameField (l : List Byte) (o n : Nat) : Nat := ofLeBytes ((l.drop o).take n)

/-- The judgement of a written frame (R629); none while EN is 0. -/
def hostResult (l : List Byte) (s : State) : Option Nat :=
  let type := frameField l 1 1
  let session := frameField l 2 2
  let len := frameField l 6 2
  let live := hostSession s
  if fis hostB HOST_CTRL.EN s = false then none
  else if l.length < 12 ∨ 512 < l.length ∨ frameField l 0 1 ≠ 0xA5 ∨ 500 < len ∨ l.length ≠ 12 + len then some 4
  else if crc32c (l.take (8 + len)) ≠ frameField l (8 + len) 4 then some 3
  else if ¬(type = 1 ∨ type = 2 ∨ type = 3) ∨ (type ≠ 2 ∧ len ≠ 0) then some 4
  else if type = 1 then (if session = 0 ∨ session = live then some 5 else some 1)
  else if live = 0 ∨ session ≠ live then some 5
  else if frameField l 4 2 ≠ fget hostB HOST_STAT.EXPECT s then some 2
  else if type = 2 ∧ (hostFree s < storeOctets len ∨ 8 ≤ s.host.msgs.length) then some 6
  else some 1

/-- What an ACK does, by TYPE (R629). -/
def hostAccept (l : List Byte) (s : State) : State :=
  let type := frameField l 1 1
  let seq := frameField l 4 2
  let expect := fun t => fset hostB HOST_STAT.EXPECT (seq + 1) t
  if type = 1 then
    let had := hostSession s != 0
    let s1 := if had then hostTeardown s else s
    let s2 := expect (fset hostB HOST_STAT.SESSION (frameField l 2 2) (hostPut { s1.host with devSeq := 0, last := none } s1))
    let s3 := hostNote HOST_NOTE.NEW s2
    if had then hostNote HOST_NOTE.REPLACED s3 else s3
  else if type = 2 then
    let m : HostMsg := { seq := seq, octets := (l.drop 8).take (frameField l 6 2) }
    hostNote HOST_NOTE.MSG (expect (hostPut { s.host with msgs := s.host.msgs ++ [m] } s))
  else expect s

/-- A WRITE_FRAME whose data are `l` (R627, R629). -/
def hostWrite (l : List Byte) (s : State) : State :=
  if pdOn 75 s = false then s
  else match hostResult l s with
    | none => s
    | some 1 => hostAccept l (hostPut { s.host with result := 1 } s)
    | some r => hostPut { s.host with result := r } s

/-- A NONE frame (R627); its SEQ is open. -/
def hostNone (s : State) : List Byte × State :=
  (hostFrame 0x80 (hostSession s) (freeNat s % 65536) [], drawFree s)

/-- READ_FRAME (R627). -/
def hostRead (s : State) : State :=
  if pdOn 75 s = false then s
  else match s.host.frames with
    | f :: r =>
      let s1 := hostPut { s.host with frames := r, last := some f, reply := f } s
      if r.isEmpty then hostNote HOST_NOTE.SPACE s1 else s1
    | [] =>
      let n := hostNone s
      hostPut { n.2.host with last := some n.1, reply := n.1 } n.2

/-- REREAD (R627). -/
def hostReread (s : State) : State :=
  if pdOn 75 s = false then s
  else match s.host.last with
    | some f => hostPut { s.host with reply := f } s
    | none => let n := hostNone s; hostPut { n.2.host with reply := n.1 } n.2

/-- The status block (R630). -/
def hostStatus (s : State) : List Byte :=
  let live := hostSession s
  [BitVec.ofNat 8 s.host.result,
    BitVec.ofNat 8 (2 * ofBool (!s.host.frames.isEmpty) + 4 * ofBool (live != 0) + 8 * ofBool (s.pow.hall == .recovery))] ++
    leBytes 2 live ++ leBytes 2 (fget hostB HOST_STAT.EXPECT s) ++
    [BitVec.ofNat 8 s.host.frames.length, BitVec.ofNat 8 (hostFree s / 16)]

/-- HOST_FILL as it reads (R650). -/
def hostFillView (s : State) : Word :=
  BitVec.ofNat 32 (ofBool (hostSession s != 0) * 2 ^ 24 + s.host.frames.length * 2 ^ 16 + s.host.msgs.length * 2 ^ 8)

/-- A read of HOST_IN_HDR (R633). -/
def hostInHdr (s : State) : Word × State :=
  match s.host.msgs with
  | m :: r =>
    (BitVec.ofNat 32 (2 ^ 31 + m.octets.length * 2 ^ 16 + m.seq),
      hostPut { s.host with msgs := r, taken := some (m.octets.length, m.octets) } s)
  | [] => (0, hostPut { s.host with taken := none } s)

/-- A read of HOST_IN_DATA (R633). -/
def hostInData (s : State) : Word × State :=
  match s.host.taken with
  | some (n, l) => (BitVec.ofNat 32 (ofLeBytes (l.take 4)), hostPut { s.host with taken := some (n, l.drop 4) } s)
  | none => (0, s)

/-- A write of HOST_OUT_DATA (R634). -/
def hostOutData (data : Word) (s : State) : State :=
  if 500 < s.host.build.length + 4 then hostErr HOST_ERR.LEN s
  else hostPut { s.host with build := s.host.build ++ leBytes 4 data.toNat } s

/-- A device frame is queued. -/
def hostSend (type : Nat) (payload : List Byte) (s : State) : State :=
  hostPut { s.host with
    frames := s.host.frames ++ [hostFrame type (hostSession s) s.host.devSeq payload]
    devSeq := (s.host.devSeq + 1) % 65536 } s

/-- A write of HOST_OUT_CMD (R634, R650). -/
def hostOutCmd (data : Word) (s : State) : State :=
  let len := bitsOf data 0 9
  let empty := fun t => hostPut { t.host with build := [] } t
  if bitOf data 15 && bitOf data 14 then hostErr HOST_ERR.RANGE s
  else if bitOf data 15 then
    if hostSession s = 0 ∨ bitsOf data 16 16 ≠ hostSession s then empty (hostErr HOST_ERR.STALE s)
    else if 500 < len ∨ s.host.build.length < len then empty (hostErr HOST_ERR.LEN s)
    else if 8 ≤ s.host.frames.length ∨ hostRoom s < storeOctets len then empty (hostErr HOST_ERR.FULL s)
    else empty (hostSend 0x81 (s.host.build.take len) s)
  else if bitOf data 14 then empty s
  else s

/-- A write of HOST_CTRL (R650). -/
def hostCtrlWrite (data : Word) (s : State) : State :=
  if bitsOf data 16 16 = 0 then hostErr HOST_ERR.RANGE s else wr hostB (data &&& 0xFFFF0001#32) s

/-- The session expires (R631). -/
def hostExpire (s : State) : State :=
  if hostSession s = 0 then s else hostNote HOST_NOTE.LOST (hostTeardown s)

/-! ### UARTs (R635–R637) -/

/-- The page of UART `u`. -/
def uartP (u : Nat) : Nat := 0x40120000 + 0x100 * u

/-- A UART's FIFOs. -/
def uartGet (u : Nat) (s : State) : UartState := tget (fun _ => ({} : UartState)) s.uarts u

/-- Set them. -/
def uartPut (u : Nat) (v : UartState) (s : State) : State :=
  { s with uarts := tset (fun _ => ({} : UartState)) s.uarts u v }

/-- A bit of UART_NOTE, raising its event (R649). -/
def uartNote (u : Nat) (f : Fld) (s : State) : State :=
  note (uartP u) f (960 + 4 * u + (if f.lo = 0 then 0 else if f.lo = 1 then 1 else 2)) s

/-- Data bits of a character. -/
def uartMask (u : Nat) (d : Byte) (s : State) : Byte := if fis (uartP u) UART_CFG.DATA7 s then d &&& 0x7F#8 else d

/-- A received character or break (R636). -/
def uartReceive (u : Nat) (d : Byte) (par frm brk : Bool) (s : State) : State :=
  if pdOn 75 s = false ∨ fis (uartP u) UART_CFG.EN s = false then s
  else
    let f := uartGet u s
    if 64 ≤ f.rx.length then uartNote u UART_NOTE.OVR s
    else
      let c := if brk then 2 ^ 11 else ofBool frm * 2 ^ 10 + ofBool par * 2 ^ 9 + (uartMask u d s).toNat
      let s1 := uartPut u { f with rx := f.rx ++ [c] } s
      let s2 := if brk then uartNote u UART_NOTE.BRK s1
        else
          let t := if frm then uartNote u UART_NOTE.FRM s1 else s1
          if par then uartNote u UART_NOTE.PAR t else t
      if f.rx.length + 1 = fget (uartP u) UART_TH.RX_TH s2 then uartNote u UART_NOTE.RX s2 else s2

/-- A character leaves the transmit FIFO. -/
def uartSent (u : Nat) (s : State) : State :=
  if pdOn 75 s = false ∨ fis (uartP u) UART_CFG.EN s = false then s
  else match (uartGet u s).tx with
    | _ :: r =>
      let s1 := uartPut u { uartGet u s with tx := r } s
      if r.isEmpty then uartNote u UART_NOTE.TX s1 else s1
    | [] => s

/-- A write of UART_DATA (R636). -/
def uartWrite (u : Nat) (data : Word) (s : State) : State :=
  let f := uartGet u s
  if 64 ≤ f.tx.length then uartNote u UART_NOTE.OVR s
  else uartPut u { f with tx := f.tx ++ [uartMask u (BitVec.ofNat 8 (bitsOf data 0 8)) s] } s

/-- A read of UART_DATA (R651). -/
def uartRead (u : Nat) (s : State) : Word × State :=
  match (uartGet u s).rx with
  | c :: r => (BitVec.ofNat 32 (2 ^ 31 + c), uartPut u { uartGet u s with rx := r } s)
  | [] => (0, s)

/-- UART_STAT as it reads. -/
def uartStatView (u : Nat) (s : State) : Word :=
  let f := uartGet u s
  BitVec.ofNat 32 (f.rx.length * 2 ^ 16 + f.tx.length * 2 ^ 8 + ofBool (!f.tx.isEmpty))

/-- A write of UART_CFG and UART_TH (R651): a value refused leaves the register. -/
def uartCfgWrite (u : Nat) (data : Word) (s : State) : State :=
  if bitsOf data 16 16 < 64 ∨ bitsOf data 4 2 = 3 then s else wr (uartP u) (data &&& 0xFFFF00FB#32) s

/-- A write of UART_TH. -/
def uartThWrite (u : Nat) (data : Word) (s : State) : State :=
  if bitsOf data 0 6 = 0 then s else wr (uartP u + 0x10) (data &&& 0x3F#32) s

/-- A write of UART_OWN or I2C_OWN at `a`: `clear` empties the FIFOs of an instance whose owner changes (R637, R640). -/
def serialOwn (a : Nat) (clear : Nat → State → State) (data : Word) (s : State) : State :=
  let old := rd a s
  [0, 1].foldl (fun t k => if bitsOf data (8 * k) 6 = bitsOf old (8 * k) 6 then t else clear k t)
    (wr a (data &&& 0x3F3F#32) s)

/-! ### I²C controllers (R639, R640) -/

/-- The page of controller `k`. -/
def i2cP (k : Nat) : Nat := 0x40130000 + 0x100 * k

/-- A controller. -/
def i2cGet (k : Nat) (s : State) : I2cState := tget (fun _ => ({} : I2cState)) s.i2cs k

/-- Set it. -/
def i2cPut (k : Nat) (v : I2cState) (s : State) : State := { s with i2cs := tset (fun _ => ({} : I2cState)) s.i2cs k v }

/-- A bit of I2C_NOTE, raising its event (R649). -/
def i2cNote (k : Nat) (f : Fld) (s : State) : State := note (i2cP k) f (968 + 4 * k + (if f.lo = 0 then 0 else 1)) s

/-- A write of I2C_CMD (R651). -/
def i2cPush (k : Nat) (data : Word) (s : State) : State :=
  let v := i2cGet k s
  if 16 ≤ v.cmds.length then i2cNote k I2C_NOTE.OVR s
  else
    let c : I2cCmd := { op := bitsOf data 8 2, data := BitVec.ofNat 8 (bitsOf data 0 8), nack := bitOf data 10 }
    i2cPut k { v with cmds := v.cmds ++ [c] } s

/-- The controller runs its front command, which is `op`: 0 START, 1 WRITE, 2 READ with the octet it reads, 3 STOP. -/
def i2cRun (k op : Nat) (read : Byte) (s : State) : State :=
  if pdOn 75 s = false ∨ fis (i2cP k) I2C_CFG.EN s = false then s
  else match (i2cGet k s).cmds with
    | c :: r =>
      if c.op ≠ op then s
      else
        let v := { i2cGet k s with cmds := r, did := some c, busy := op != 3 }
        if op = 2 then
          if 16 ≤ v.rx.length then i2cNote k I2C_NOTE.OVR (i2cPut k v s)
          else i2cPut k { v with rx := v.rx ++ [read] } s
        else if op = 3 ∧ r.isEmpty then i2cNote k I2C_NOTE.DONE (i2cPut k v s)
        else i2cPut k v s
    | [] => s

/-- A sequence ends in error (R640): the rest of the command FIFO is discarded and the bus is let go. -/
def i2cEnd (k : Nat) (f : Fld) (s : State) : State :=
  i2cNote k f (i2cPut k { i2cGet k s with cmds := [], busy := false, did := none } s)

/-- A NACK to an address or a written octet. -/
def i2cNack (k : Nat) (s : State) : State :=
  match (i2cGet k s).did with
  | some c => if c.op ≤ 1 then i2cEnd k I2C_NOTE.NACK s else s
  | none => s

/-- Arbitration lost, or SCL held low, while the bus is held. -/
def i2cLost (k : Nat) (f : Fld) (s : State) : State := if (i2cGet k s).busy then i2cEnd k f s else s

/-- A read of I2C_RX (R651). -/
def i2cRead (k : Nat) (s : State) : Word × State :=
  match (i2cGet k s).rx with
  | b :: r => (BitVec.ofNat 32 (2 ^ 31 + b.toNat), i2cPut k { i2cGet k s with rx := r } s)
  | [] => (0, s)

/-- I2C_STAT as it reads. -/
def i2cStatView (k : Nat) (s : State) : Word :=
  let v := i2cGet k s
  BitVec.ofNat 32 (v.cmds.length * 2 ^ 16 + v.rx.length * 2 ^ 8 + ofBool v.busy)

/-- A write of I2C_CFG (R651). -/
def i2cCfgWrite (k : Nat) (data : Word) (s : State) : State :=
  if bitsOf data 16 12 < 23 then s else wr (i2cP k) (data &&& 0x0FFF0001#32) s

/-! ### GPIO (R641–R644) -/

/-- The GPIO block (R652). -/
def gpioB : Nat := 0x40140000

/-- The byte of GPIO_OWN that names the owner of pair `k`. -/
def pairOwn (k : Nat) (s : State) : Nat := bitsOf (rd (gpioB + 4 * (k / 4)) s) (8 * (k % 4)) 8

/-- A room reaches pin `p` (R642). -/
def gpioMine (room p : Nat) (s : State) : Bool := (pairOwn (p / 2) s) % 64 == room && (pairOwn (p / 2) s).testBit 7

/-- The pins of bank `b` that a room reaches. -/
def gpioMask (room b : Nat) (s : State) : Word :=
  BitVec.ofNat 32 (((List.range 16).filter fun k => gpioMine room (16 * b + k) s).foldl (fun n k => n + 2 ^ k) 0)

/-- GPIO_OUT of bank `b` takes a value in the bits of a mask. -/
def gpioOut (b : Nat) (mask v : Word) (s : State) : State :=
  let a := gpioB + 0x404 + 0x10 * b
  wr a ((rd a s &&& ~~~mask) ||| (v &&& mask)) s

/-- Pin `p` returns to its reset configuration (R642). -/
def gpioPinReset (p : Nat) (s : State) : State :=
  gpioOut (p / 16) (BitVec.ofNat 32 (2 ^ (p % 16))) 0 (wr (gpioB + 0x100 + 4 * p) 0 s)

/-- A write of GPIO_OWNj (R642). -/
def gpioOwn (j : Nat) (data : Word) (s : State) : State :=
  let new := data &&& 0xBFBFBFBF#32
  let s1 := (List.range 4).foldl (fun t q =>
    if bitsOf new (8 * q) 8 = pairOwn (4 * j + q) s then t
    else gpioPinReset (8 * j + 2 * q + 1) (gpioPinReset (8 * j + 2 * q) t)) s
  wr (gpioB + 4 * j) new s1

/-- A write of GPIO_PINp by a room (R642, R652). -/
def gpioPinWrite (room p : Nat) (data : Word) (s : State) : State :=
  if gpioMine room p s = false ∨ bitsOf data 3 2 = 3 then s else wr (gpioB + 0x100 + 4 * p) (data &&& 0xFD#32) s

/-- The domain of pin `p`. -/
def gpioPd (p : Nat) : Nat := if p < 32 then 76 else 77

/-- The level of pin `p`: what an output that is not held drives, else the level at the pin (R641, R644). -/
def gpioLevel (p : Nat) (s : State) : Bool :=
  let cfg := rd (gpioB + 0x100 + 4 * p) s
  let out := bitOf (rd (gpioB + 0x404 + 0x10 * (p / 16)) s) (p % 16)
  if bitOf (rd (gpioB + 0x20) s) (p / 32) then
    (if bitOf cfg 0 && !(bitOf cfg 2 && out) then out else s.gpio.levels.getLsbD p)
  else if s.gpio.heldDir.getLsbD p then s.gpio.heldOut.getLsbD p
  else s.gpio.levels.getLsbD p

/-- GPIO_IN of bank `b`. -/
def gpioInView (b : Nat) (s : State) : Word :=
  BitVec.ofNat 32 (((List.range 16).filter fun k => gpioLevel (16 * b + k) s).foldl (fun n k => n + 2 ^ k) 0)

/-- An edge at pin `p` (R643). -/
def gpioEdge (p : Nat) (level : Bool) (s : State) : State :=
  let v := if level then s.gpio.levels ||| (1#64 <<< p) else s.gpio.levels &&& ~~~(1#64 <<< p)
  let s1 := { s with gpio := { s.gpio with levels := v } }
  let irq := fget (gpioB + 4 * p) GPIO_PIN.IRQ s
  if pdOn (gpioPd p) s && irq.testBit (if level then 0 else 1) then
    note (gpioB + 4 * (p / 16)) ⟨0x500, p % 16, 1⟩ (984 + p / 2) s1
  else s1

/-- A write of GPIO_HOLD (R644). -/
def gpioHold (data : Word) (s : State) : State :=
  wr (gpioB + 0x20) (rd (gpioB + 0x20) s ||| (data &&& 3#32)) s

/-! ### The commands -/

/-- HOST_RESYNC, HOST_MSG and HOST_PING (R629): the octets of a WRITE_FRAME transaction. -/
def execHostResync (octets : List Byte) (s : State) : Host.Outcome State Fault Refusal := .next (hostWrite octets s)

/-- HOST_MSG (R629). -/
def execHostMsg (octets : List Byte) (s : State) : Host.Outcome State Fault Refusal := .next (hostWrite octets s)

/-- HOST_PING (R629). -/
def execHostPing (octets : List Byte) (s : State) : Host.Outcome State Fault Refusal := .next (hostWrite octets s)

/-- READ_FRAME (R627). -/
def execReadFrame (s : State) : Host.Outcome State Fault Refusal := .next (hostRead s)

/-- REREAD (R627). -/
def execReread (s : State) : Host.Outcome State Fault Refusal := .next (hostReread s)

/-- READ_STATUS (R630). -/
def execReadStatus (s : State) : Host.Outcome State Fault Refusal :=
  .next (if pdOn 75 s then hostPut { s.host with reply := hostStatus s } s else s)

/-- HOST_SESSION_EXPIRE (R631). -/
def execHostSessionExpire (s : State) : Host.Outcome State Fault Refusal := .next (hostExpire s)

/-- HOST_IN_HDR_READ (R633). -/
def execHostInHdrRead (i : Init) (s : State) : Host.Outcome State Fault Refusal :=
  .next (doorLoad i (hostB + 0xC) hostInHdr s)

/-- HOST_IN_DATA_READ (R633). -/
def execHostInDataRead (i : Init) (s : State) : Host.Outcome State Fault Refusal :=
  .next (doorLoad i (hostB + 0x10) hostInData s)

/-- HOST_OUT_DATA_WRITE (R634). -/
def execHostOutDataWrite (i : Init) (data : Word) (s : State) : Host.Outcome State Fault Refusal :=
  .next (doorStore i (hostB + 0x14) (hostOutData data) s)

/-- HOST_OUT_COMMIT (R634). -/
def execHostOutCommit (i : Init) (data : Word) (s : State) : Host.Outcome State Fault Refusal :=
  .next (doorStore i (hostB + 0x18) (hostOutCmd (data ||| 0x8000#32)) s)

/-- HOST_OUT_DISCARD (R634). -/
def execHostOutDiscard (i : Init) (data : Word) (s : State) : Host.Outcome State Fault Refusal :=
  .next (doorStore i (hostB + 0x18) (hostOutCmd (data ||| 0x4000#32)) s)

/-- UART_CHAR_RECEIVED (R636). -/
def execUartCharReceived (u : BitVec 1) (char : BitVec 8) (par frm brk : Bool) (s : State) :
    Host.Outcome State Fault Refusal :=
  .next (uartReceive u.toNat char par frm brk s)

/-- UART_CHAR_SENT (R635). -/
def execUartCharSent (u : BitVec 1) (s : State) : Host.Outcome State Fault Refusal := .next (uartSent u.toNat s)

/-- UART_DATA_WRITE (R636). -/
def execUartDataWrite (i : Init) (u : BitVec 1) (data : Word) (s : State) : Host.Outcome State Fault Refusal :=
  .next (doorStore i (uartP u.toNat + 4) (uartWrite u.toNat data) s)

/-- UART_DATA_READ (R635). -/
def execUartDataRead (i : Init) (u : BitVec 1) (s : State) : Host.Outcome State Fault Refusal :=
  .next (doorLoad i (uartP u.toNat + 4) (uartRead u.toNat) s)

/-- UART_OWN_WRITE (R637). -/
def execUartOwnWrite (i : Init) (data : Word) (s : State) : Host.Outcome State Fault Refusal :=
  .next (doorStore i 0x40120F00 (serialOwn 0x40120F00 (fun k => uartPut k {}) data) s)

/-- I2C_START (R639). -/
def execI2cStart (u : BitVec 1) (s : State) : Host.Outcome State Fault Refusal := .next (i2cRun u.toNat 0 0 s)

/-- I2C_WRITE (R639). -/
def execI2cWrite (u : BitVec 1) (s : State) : Host.Outcome State Fault Refusal := .next (i2cRun u.toNat 1 0 s)

/-- I2C_READ (R639). -/
def execI2cRead (u : BitVec 1) (data : BitVec 8) (s : State) : Host.Outcome State Fault Refusal :=
  .next (i2cRun u.toNat 2 data s)

/-- I2C_STOP (R639). -/
def execI2cStop (u : BitVec 1) (s : State) : Host.Outcome State Fault Refusal := .next (i2cRun u.toNat 3 0 s)

/-- I2C_NACK (R640). -/
def execI2cNack (u : BitVec 1) (s : State) : Host.Outcome State Fault Refusal := .next (i2cNack u.toNat s)

/-- I2C_ARB_LOST (R640). -/
def execI2cArbLost (u : BitVec 1) (s : State) : Host.Outcome State Fault Refusal :=
  .next (i2cLost u.toNat I2C_NOTE.ARB s)

/-- I2C_SCL_TIMEOUT (R640). -/
def execI2cSclTimeout (u : BitVec 1) (s : State) : Host.Outcome State Fault Refusal :=
  .next (i2cLost u.toNat I2C_NOTE.TMO s)

/-- I2C_RX_READ (R651). -/
def execI2cRxRead (i : Init) (u : BitVec 1) (s : State) : Host.Outcome State Fault Refusal :=
  .next (doorLoad i (i2cP u.toNat + 8) (i2cRead u.toNat) s)

/-- I2C_OWN_WRITE (R640). -/
def execI2cOwnWrite (i : Init) (data : Word) (s : State) : Host.Outcome State Fault Refusal :=
  .next (doorStore i 0x40130F00 (serialOwn 0x40130F00 (fun k => i2cPut k {}) data) s)

/-- GPIO_OWN_WRITE (R642). -/
def execGpioOwnWrite (i : Init) (j : BitVec 3) (data : Word) (s : State) : Host.Outcome State Fault Refusal :=
  .next (doorStore i (gpioB + 4 * j.toNat) (gpioOwn j.toNat data) s)

/-- GPIO_SET (R643). -/
def execGpioSet (i : Init) (bank : BitVec 2) (data : Word) (s : State) : Host.Outcome State Fault Refusal :=
  .next (doorStore i (gpioB + 0x408 + 0x10 * bank.toNat)
    (fun t => gpioOut bank.toNat (data &&& gpioMask (roomOf i t) bank.toNat t) 0xFFFF t) s)

/-- GPIO_CLR (R643). -/
def execGpioClr (i : Init) (bank : BitVec 2) (data : Word) (s : State) : Host.Outcome State Fault Refusal :=
  .next (doorStore i (gpioB + 0x40C + 0x10 * bank.toNat)
    (fun t => gpioOut bank.toNat (data &&& gpioMask (roomOf i t) bank.toNat t) 0 t) s)

/-- GPIO_EDGE (R643). -/
def execGpioEdge (pin : BitVec 6) (level : Bool) (s : State) : Host.Outcome State Fault Refusal :=
  .next (gpioEdge pin.toNat level s)

/-- GPIO_HOLD_RELEASE (R644). -/
def execGpioHoldRelease (i : Init) (data : Word) (s : State) : Host.Outcome State Fault Refusal :=
  .next (doorStore i (gpioB + 0x20) (gpioHold data) s)

end Sys2Proof.Machine
end

