-- ==== Sys2Proof/Machine/LinkRx.lean ====
section
/-!
DEFINITION. Received frames at the link controller (R324–R334): matching, filtering, unsecuring, acknowledgements and
the receive record.
-/

namespace Sys2Proof.Machine

open Reg

/-! ### Frames against jobs (R324, R325, R329) -/

/-- The MAC frame matches a job that waits for its acknowledgement (R324). -/
def ackMatches (j : Job) (code : Nat) (octets : List Byte) (f : Option MacFrame) (s : State) : Bool :=
  match f, j.staged with
  | some a, some psdu =>
    let own := macParse (psdu.take (psdu.length - j.fcs))
    let seqOk := match own.bind (·.seq), a.seq with
      | some x, some y => x == y
      | _, _ => true
    -- the sender is the peer the job's frame names
    let peer : Option Nat := match own with
      | some o =>
        if o.dstMode = 3 then some o.dst
        else if o.dstMode = 2 then
          match nbrByShort ((o.dstPan).getD 0) o.dst s with
          | some n => ((nbrGet n s).filter (·.hasExt)).map (·.ext)
          | none => none
        else none
      | none => none
    let ext := if a.srcMode = 3 then some a.src else peer
    let secOk := !(j.sec && a.version == 2) ||
      match a.secured, slotKey j.keySlot s, ext, a.fc with
      | true, some key, some e, some fc => (macUnsecure key e fc a.level a.hdrLen octets).isSome
      | _, _, _, _ => false
    code == 0 && a.ftype == 2 && seqOk && secOk
  | _, _ => false

/-- The time correction an acknowledgement carries, in µs: IE 0x1E, 12 bits, signed (R324, R327). -/
def ackCorrection (f : MacFrame) : Option Int :=
  (f.ies.find? fun e => e.1 == 0x1E && decide (2 ≤ e.2.length)).map fun e =>
    signedOf 12 (ofLeBytes (e.2.take 2) % 4096)

/-- A time in µs nearest to a number of ticks, halves upward. -/
def ticksToUs (t : Int) : Int := (2 * 10 * t + 768) / (2 * 768)

/-- A matched acknowledgement ends the attempt with OK (R324, R344). -/
def jobAcked (r k : Nat) (f : MacFrame) (rssi : Nat) (s : State) : State :=
  let b := slotRegs r k
  let s1 := fset b JOB_INFO.ACK_RSSI rssi (fset b JOB_INFO.PEND (ofBool f.pending) (fset b JOB_INFO.ACK_V 1 s))
  let s2 := match ackCorrection f with
    | some c => fsetS b JOB_INFO.TC c (fset b JOB_INFO.TC_V 1 s1)
    | none => s1
  jobDone r k 0 s2

/-- The verdict ends an RX_WIN job whose window holds T_SFD (R329, R344). -/
def rxWinVerdict (r k : Nat) (j : Job) (c : ClosedFrame) (s : State) : State :=
  let b := slotRegs r k
  let t := stampTick c.tSfd
  let s1 := fset b JOB_INFO.ACK_RSSI c.qual.rssiQ.toNat (wr64 (b + 0x44) (BitVec.ofNat 64 t) s)
  if c.code = 0 then
    let tc := clampInt (-4096) 4095 (ticksToUs ((j.at_ : Int) - t))
    jobDone r k 0 (fsetS b JOB_INFO.TC tc (fset b JOB_INFO.TC_V 1 s1))
  else jobDone r k 14 s1

/-- The jobs that wait for a frame meet its verdict: whether it matched an acknowledgement, and the state after.
NO_ACK of a frame that fails to match is decided at air tick `now`. -/
def jobsMeet (c : ClosedFrame) (octets : List Byte) (f : Option MacFrame) (now : Nat) (s : State) : Bool × State :=
  let t := stampTick c.tSfd
  (jobList s).foldl (fun acc e =>
    let r := e.1
    let k := e.2.1
    let j := e.2.2
    if j.fe.num ≠ c.fe then acc
    else if j.kind = 1 ∧ j.lane = c.lane ∧ inWindow (rxWindow j) t = true then (acc.1, rxWinVerdict r k j c acc.2)
    else if j.waits ∧ j.ackLane = c.lane ∧ inWindow (jobWindow j acc.2) t = true then
      match f with
      | some m =>
        if !acc.1 && ackMatches j c.code octets f acc.2 then (true, jobAcked r k m c.qual.rssiQ.toNat acc.2)
        else (acc.1, jobNoAck r k now j acc.2)
      | none => (acc.1, jobNoAck r k now j acc.2)
    else acc) (false, s)

/-! ### Filtering and unsecuring (R330–R332) -/

/-- The destination check: whether the frame is accepted, and whether it names this node alone (R330). -/
def destCheck (f : MacFrame) (s : State) : Bool × Bool :=
  let pan := fget linkB LINK_ADDR.PAN_ID s
  let short := fget linkB LINK_ADDR.SHORT s
  let named := match f.dstPan with
    | some p => some p
    | none => f.srcPan
  if f.dstMode = 0 then ((f.ftype == 0 && pan == 0xFFFF) || named == some pan, false)
  else if named.any (fun p => p != 0xFFFF && p != pan) then (false, false)
  else if f.dstMode = 2 then
    if f.dst = 0xFFFF then (true, false)
    else
      let uni := f.dst == short && short != 0xFFFE
      (uni, uni)
  else
    let uni := f.dst == ownExt s
    (uni, uni)

/-- The PAN ID of a short source address. -/
def srcPanOf (f : MacFrame) : Option Nat :=
  match f.srcPan with
  | some p => some p
  | none => f.dstPan

/-- The entry of a frame's source (R332). -/
def nbrOf (f : MacFrame) (s : State) : Option Nat :=
  if f.srcMode = 3 then nbrByExt f.src s
  else if f.srcMode = 2 then (srcPanOf f).bind fun p => nbrByShort p f.src s
  else none

/-- The entry LEARN creates for a frame's source. -/
def nbrLearned (f : MacFrame) : Option Neighbour :=
  if f.srcMode = 3 then some { ext := f.src, pan := 0, short := 0, flags := 2 ^ 10 + 2 ^ 8, rxFc := 0, fcSlot := 0 }
  else if f.srcMode = 2 then
    (srcPanOf f).map fun p => { ext := 0, pan := p, short := f.src, flags := 2 ^ 10 + 2 ^ 9, rxFc := 0, fcSlot := 0 }
  else none

/-- What unsecuring a frame gives (R331): SEC of the record, the octets delivered or none to drop the frame, and the
key slot and counter it passed with. -/
structure Unsecured where
  sec : Nat
  octets : Option (List Byte)
  slot : Option Nat
  fc : Nat

/-- The key slot a secured frame names (R331). -/
def rxKeySlot (f : MacFrame) (n : Option Neighbour) (s : State) : Option Nat :=
  if f.keyMode = 0 then
    n.bind fun e => if e.flags.testBit 7 then some (e.flags % 128) else none
  else if f.keyMode = 1 then
    let b := linkB + 4 * (f.keyId.headD 0).toNat
    if fis b LINK_KEYMAP.V s then some (fget b LINK_KEYMAP.SLOT s) else none
  else none

/-- Received security (R331). -/
def unsecure (f : MacFrame) (octets : List Byte) (nb : Option Nat) (s : State) : Unsecured :=
  if f.secured = false ∨ f.level = 0 then ⟨0, some octets, none, 0⟩
  else
    let n := nb.bind fun x => nbrGet x s
    let slot := rxKeySlot f n s
    let ext := if f.srcMode = 3 then some f.src else (n.filter (·.hasExt)).map (·.ext)
    match slot, slot.bind (fun k => slotKey k s), ext, f.fc with
    | some k, some key, some e, some fc =>
      let replayed := n.any fun x => x.fcSlot.testBit 16 && x.fcSlot % 128 == k && decide (fc ≤ x.rxFc)
      if replayed then ⟨1, none, some k, fc⟩
      else match macUnsecure key e fc f.level f.hdrLen octets with
        | none => ⟨1, none, some k, fc⟩
        | some p => ⟨if n.isSome then 1 else 2, some p, some k, fc⟩
    | _, _, _, _ => ⟨3, some octets, none, 0⟩

/-- The entry takes the counter a frame passed with (R331). -/
def nbrPassed (nb : Option Nat) (u : Unsecured) (s : State) : State :=
  match nb, u.slot with
  | some n, some k =>
    match nbrGet n s with
    | some e => nbrPut n (some { e with rxFc := u.fc, fcSlot := 2 ^ 16 + k }) s
    | none => s
  | _, _ => s

/-- The source is looked up and, with LEARN, learned (R332): the filter mark, the entry, and the state after. -/
def nbrFilter (f : MacFrame) (nb : Option Nat) (s : State) : Nat × Option Nat × State :=
  match nb, fis linkB LINK_CTRL.LEARN s, nbrLearned f with
  | some n, _, _ => (0, some n, s)
  | none, true, some e =>
    (match nbrPlace e s with
     | some n => (1, some n, nbrPut n (some e) s)
     | none => (2, none, nbrFull s))
  | none, _, _ => (2, none, s)

/-! ### Acknowledgements sent (R326–R328) -/

/-- The header IEs of an Enh-Ack: the time correction, and PLAN_FP (R327). -/
def ackIes (tcAt : Option Nat) (tSfd : Nat) (s : State) : List Byte :=
  let tc := match tcAt, fis linkB LINK_ACK_CFG.TC_EN s with
    | some a, true =>
      headerIe 0x1E (leBytes 2 (fieldOfInt 12 (clampInt (-2047) 2047 (ticksToUs ((a : Int) - tSfd)))))
    | _, _ => []
  let fp := if fis linkB LINK_ACK_CFG.FP_EN s then
      headerIe 0 (leBytes 3 (fget linkB LINK_OUI.OUI s) ++ leBytes 1 (fget linkB LINK_OUI.SUBTYPE s) ++
        rdBytes (0x40160000 + FAB_DIGEST.DIGEST.off) 2 s)
    else []
  tc ++ fp

/-- The AT of an RX_WIN job whose window holds a frame's T_SFD (R327). -/
def rxWinAt (c : ClosedFrame) (s : State) : Option Nat :=
  ((jobList s).find? fun e => e.2.2.kind == 1 && e.2.2.fe.num == c.fe && e.2.2.lane == c.lane &&
    inWindow (rxWindow e.2.2) (stampTick c.tSfd)).map fun e => e.2.2.at_

/-- T_END of a frame (R310), rounded to a tick. -/
def ClosedFrame.tEnd (c : ClosedFrame) : Nat :=
  stampTick (c.tSfd + 2 * bodyFifths c.phy c.len c.mcs (c.marks / markCoded % 2 == 1))

/-- The acknowledgement of a frame is planned (R326, R327): `u` is how it was unsecured. -/
def ackPlan (c : ClosedFrame) (f : MacFrame) (u : Unsecured) (nb tcAt : Option Nat) (s : State) : AckPlan :=
  let pend := (nb.bind fun n => nbrGet n s).any fun e => e.flags.testBit 11
  let g := if u.slot.isSome then f else { f with secured := false }
  let e := enhAck g pend (ackIes tcAt (stampTick c.tSfd) s)
  { lane := c.lane, phy := c.phy, mcs := c.mcs, coded := c.marks / markCoded % 2 == 1, fcsLen := c.fcsLen
    centre := laneCentre c.lane s, preamble := c.tEnd + turnTicks c.phy
    plain := if f.version = 2 then e.1 else immAck f pend
    sec := if f.version = 2 then u.slot.map fun k => (k, f.level, e.2) else none }

/-- The front end of a closed frame. -/
def ClosedFrame.front (c : ClosedFrame) : Fe := if c.fe = 0 then .a else .b

/-- The cases of R326, and the plan; one that finds the staging buffer taken is not sent (R328). -/
def ackConsider (c : ClosedFrame) (f : MacFrame) (uni : Bool) (u : Unsecured) (nb tcAt : Option Nat) (s : State) :
    Bool × State :=
  if fis linkB LINK_CTRL.ACK_EN s && (f.version == 1 || f.version == 2) && f.ar && uni && u.sec != 3 &&
      (nb.isSome || fis linkB LINK_CTRL.ACK_UNKNOWN s) then
    if (ackGet c.front s).isSome then
      let p := ackGet c.front s
      (false, ackPut c.front p (ackMiss c.front s))
    else (true, ackPut c.front (some (ackPlan c f u nb tcAt s)) s)
  else (false, s)

/-- The cut tick of an acknowledgement (R328): `late` tells that a part of it is not complete. The checks of R151, its
span, its counter and its octets are settled here. -/
def ackCut (fe : Fe) (late : Bool) (s : State) : State :=
  match ackGet fe s with
  | none => s
  | some a =>
    if a.ready then s
    else if late then ackMiss fe s
    else
      match licCheck a.centre a.phy (Config.txIndex a.phy) (a.frame a.octets s) none s with
      | .error _ => linkNote LINK_NOTE.LIC (ackMiss fe s)
      | .ok entry =>
        let l := ackListen entry s
        let span := a.span fe l s
        let tEnd := a.preamble - turnTicks a.phy
        if l ≠ 0 ∧ (phyOqpsk a.phy = true ∨ span.1 < 5 * tEnd) then ackMiss fe s
        else if (heldSpans fe none s).any (spansMeet span) ∨ (airGet fe s).isSome then ackMiss fe s
        else
          let put := fun (body : List Byte) (t : State) =>
            ackPut fe (some { a with
              entry := entry
              ready := true
              listens := decide (l ≠ 0)
              psdu := body ++ macFcs a.fcsLen body }) t
          match a.sec with
          | none => put a.plain s
          | some (k, level, o) =>
            match slotKey k s with
            | none => ackPut fe none s
            | some key =>
              if slotSpent k s then ackPut fe none s
              else if fcReady k s = false then ackMiss fe s
              else
                let v := fcDraw k s
                let p := putOctets o (leBytes 4 v.1) a.plain
                put (macSecure key (ownExt s) v.1 level p.length p) v.2

/-! ### Delivery (R333, R334) -/

/-- The receive record (R333). -/
def rxRecord (c : ClosedFrame) (acked : Bool) (sec filt : Nat) (nb : Option Nat) (len : Nat) : List Word :=
  let t := stampTick c.tSfd
  let w0 := c.lane * 2 ^ 24 + ofBool acked * 2 ^ 23 + sec * 2 ^ 20 + filt * 2 ^ 16 + c.marks % 256 * 16 + c.code % 16
  let w1 := ofBool nb.isSome * 2 ^ 28 + nb.getD 0 % 4096 * 2 ^ 16 + len % 2048
  let margin := match c.margin with
    | some m => fieldOfInt 8 (clampInt (-127) 127 (m / 2))
    | none => 0x80
  let w4 := margin * 2 ^ 24 + lqiOf c.qual.evmQ.toInt % 256 * 2 ^ 16 + c.qual.rssiQ.toNat
  [BitVec.ofNat 32 w0, BitVec.ofNat 32 w1, BitVec.ofNat 32 t, BitVec.ofNat 32 (t / 2 ^ 32), BitVec.ofNat 32 w4]

/-- A delivered frame is committed to its queue, or dropped without a ring (R332, R333). -/
def rxCommit (c : ClosedFrame) (house : Bool) (octets : List Byte) (record : List Word) (s : State) : State :=
  let q := if house then fget linkB LINK_CTRL.HOUSE_Q s else c.queue
  if !queueCarved q s then fcount linkB LINK_CNT1.NOQ s
  else
    let t := queCommitRx q octets record c.epoch s
    if house ∧ queW q t ≠ queW q s then
      fcount linkB LINK_CNT2.UNFILT (linkNote LINK_NOTE.HOUSE t)
    else t

/-- A parsed frame that passes its destination check (R326, R331–R334): `intact` tells that the lane's CRC-32C agrees
when the frame is unsecured. -/
def rxParsed (c : ClosedFrame) (f : MacFrame) (uni intact : Bool) (octets : List Byte) (tcAt : Option Nat) (s : State) :
    State :=
  let nb := nbrOf f s
  let u := unsecure f octets nb s
  match u.octets with
  | none => linkNote LINK_NOTE.SEC_FAIL (fcount linkB LINK_CNT1.SEC_DROP s)
  | some body =>
    if u.slot.isSome ∧ intact = false then linkErr LINK_ERR.INTEG (fcount linkB LINK_CNT1.INTEG s)
    else
      let n := nbrFilter f nb s
      let s1 := nbrPassed n.2.1 u n.2.2
      let a := ackConsider c f uni u n.2.1 tcAt s1
      rxCommit c (n.1 == 2) body (rxRecord c a.1 u.sec n.1 n.2.1 body.length) a.2

/-- A frame that no job matched (R325, R330, R332, R333). -/
def rxFrame (c : ClosedFrame) (octets : List Byte) (f : Option MacFrame) (intact : Bool) (tcAt : Option Nat)
    (s : State) : State :=
  if c.code ≠ 0 then rxCommit c false octets (rxRecord c false 0 5 none octets.length) s
  else match f with
    | none => rxCommit c true octets (rxRecord c false 0 3 none octets.length) s
    | some m =>
      if m.ftype = 2 then fcount linkB LINK_CNT2.ACK_STRAY s
      else
        let d := destCheck m s
        if d.1 then rxParsed c m d.2 intact octets tcAt s
        else if fis linkB LINK_CTRL.PROMISC s then
          rxCommit c false octets (rxRecord c false (if m.secured then 3 else 0) 4 none octets.length) s
        else fcount linkB LINK_CNT1.DEST_DROP s

/-- The verdict of the frame that waits first (R270, R284, R333). -/
def laneVerdict (n : Nat) (octets : List Byte) (intact : Bool) (now : Nat) (s : State) : State :=
  match s.verdicts with
  | [] => s
  | c :: rest =>
    if c.lane ≠ n then s
    else
      let body := octets.take (c.len - c.fcsLen)
      let f := if c.code = 0 then macParse body else none
      let tcAt := rxWinAt c s
      let m := jobsMeet c body f now { s with verdicts := rest }
      if m.1 then m.2 else rxFrame c body f intact tcAt m.2

/-! ### The commands -/

/-- LANE_VERDICT (R270): the octets decoded, whether the lane's CRC-32C over them agrees, and the tick. -/
def execLaneVerdict (lane : BitVec 8) (octets : List Byte) (intact : Bool) (now : Word64) (s : State) :
    Host.Outcome State Fault Refusal :=
  .next (laneVerdict lane.toNat octets intact now.toNat s)

/-- ACK_CUT (R328). -/
def execAckCut (fe : Fe) (late : Bool) (s : State) : Host.Outcome State Fault Refusal := .next (ackCut fe late s)

end Sys2Proof.Machine
end

