-- ==== Sys2Proof/Machine/Update.lean ====
section
/-!
DEFINITION. The UPD block (spec/19_update_recovery.md): staging sessions, activation by kind, checks in place, the
floors, and ROM recovery's messages.
-/

namespace Sys2Proof.Machine

open Reg

/-! ### Sessions (R565, R566) -/

/-- STATE (R577). -/
def updState (s : State) : Nat := fget updB UPD_STAT.STATE s

/-- STATE moves. -/
def updMove (st : Nat) (s : State) : State := fset updB UPD_STAT.STATE st s

/-- A bit of UPD_ERR. -/
def updErr (f : Fld) (s : State) : State := fset updB f 1 s

/-- Set what the UPD block holds beside its registers. -/
def updPut (v : UpdState) (s : State) : State := { s with upd := v }

/-- The staging range: base and octets. -/
def stgBase (s : State) : Nat := fget updB UPD_STG_BASE.BASE s * 0x1000
/-- Its size. -/
def stgSize (s : State) : Nat := fget updB UPD_STG_SIZE.SIZE s * 0x1000

/-- The header of the session, in the first 256 octets of staging. -/
def stgHeader (s : State) : List Byte := memBytes (stgBase s) 256 s

/-- The whole staged image. -/
def stgImage (s : State) : List Byte := memBytes (stgBase s) (256 + imgLength (stgHeader s)) s

/-- The header that UPD_HDR holds. -/
def updHdr (s : State) : List Byte := rdBytes (updB + 0x1000) 64 s

/-- A session ends at an entry to DONE (R566): LOCK returns to 0, and a room command that waited is carried out. -/
def updEnd (res : Nat) (s : State) : State :=
  ledgWaited (updMove 5 (fset updB UPD_STAT.RESULT res (fset updB UPD_STAT.LOCK 0
    (updPut { s.upd with got := [], owner := 0 } s))))

/-- Check 9 (R562): the image fits the staging range, which lies in SRAM clear of every guest's windows. -/
def stagingOk (h : List Byte) (s : State) : Bool :=
  decide (256 + imgLength h ≤ stgSize s) && inRange (stgBase s) (stgSize s) 0x20000000 0x20C00000 &&
  (List.range 63).all fun k => (windowsOf (k + 1) s).all fun w => !octetsMeet w.base w.size (stgBase s) (stgSize s)

/-- HEADER (R562, R566, R572): ignored with BUSY in a session or while the accelerator works. -/
def updHeader (source : Nat) (s : State) : State :=
  if ¬(updState s = 0 ∨ updState s = 5) ∨ fis keyB PK_STAT.BUSY s = true then updErr UPD_ERR.BUSY s
  else
    fset keyB PK_STAT.BUSY 1
      (updMove 6 (fset updB UPD_STAT.RESULT 0 (fset updB UPD_STAT.KIND 0 (fset updB UPD_STAT.ROOM 0
        { s with
          upd := { s.upd with source := source }
          keys := { s.keys with pk := .header } }))))

/-- The session opens (R565). -/
def updOpen (h : List Byte) (s : State) : State :=
  let s1 := memWrite (stgBase s) h (fset updB UPD_STAT.LOCK 1 s)
  let s2 := fset updB UPD_STAT.ROOM (imgRoom h) (fset updB UPD_STAT.KIND (imgKind h) s1)
  updMove 1 (fset updB UPD_LOADED.LOADED 0 (updPut { s2.upd with got := [], owner := s2.upd.source } s2))

/-- The result of a header's checks, where it runs: in service PORTER is not allowed, in recovery ROOM is not. -/
def updJudge (h : List Byte) (s : State) : Nat :=
  let r := headerCheck h (if s.upd.source = 0 then [1, 2, 3] else [1, 3, 4]) s
  if r ≠ 0 then r else if stagingOk h s then 0 else 9

/-- Copying source octets for LOAD in chunks of 64, with the rights of the Steward: none when the door refuses one.
A register is no source, since LOAD does not read aligned words. -/
def loadRead (a : Nat) : Nat → Nat → State → Option (List Byte) × State
  | 0, _, s => (some [], s)
  | k + 1, n, s =>
    let m := min n 64
    let cause := match targetOfAccess a m with
      | some t => if t.isRegister then some 7 else doorCheckAs .steward 0 a m .load s
      | none => some 1
    match cause with
    | some c => (none, recordRefusal .steward 0 a .load c s)
    | none =>
      let l := if 0x08000000 ≤ a ∧ a < 0x0C000000 then flashBytes a m s else memBytes a m s
      match loadRead (a + 64) k (n - m) s with
      | (some r, t) => (some (l ++ r), t)
      | (none, t) => (none, t)

/-- Octets enter the next body position of staging. -/
def stgAppend (l : List Byte) (s : State) : State :=
  let n := fget updB UPD_LOADED.LOADED s
  let s1 := memWrite (stgBase s + 256 + n) l s
  fset updB UPD_LOADED.LOADED (n + l.length) (updPut { s1.upd with got := s1.upd.got ++ l } s1)

/-- LOAD (R566). -/
def updLoad (s : State) : State :=
  let n := fget updB UPD_LEN.LEN s
  if updState s ≠ 1 then updErr UPD_ERR.CMD s
  else if n = 0 then updErr UPD_ERR.RANGE s
  else if imgLength (stgHeader s) < fget updB UPD_LOADED.LOADED s + n then updEnd 9 s
  else
    match loadRead (fget updB UPD_SRC.SRC s * 4) ((n + 63) / 64) n s with
    | (some l, t) => drawFree (stgAppend l t)
    | (none, t) => updEnd 9 t

/-- What FINISH finds (R566): 0, 9 STAGING or 10 BODY_HASH. -/
def finishResult (s : State) : Nat :=
  if fget updB UPD_LOADED.LOADED s < imgLength (stgHeader s) then 9
  else if sha256 s.upd.got = imgHash (stgHeader s) then 0 else 10

/-- FINISH (R566). -/
def updFinish (s : State) : State :=
  if updState s ≠ 1 then updErr UPD_ERR.CMD s
  else if finishResult s = 0 then updMove 2 s
  else updEnd (finishResult s) s

/-- ABORT (R566). -/
def updAbort (s : State) : State :=
  if updState s = 1 ∨ updState s = 2 then updEnd 13 s else updErr UPD_ERR.CMD s

/-! ### Writing flash -/

/-- The blocks that `n` octets from `a` touch: the first one's base and their number. -/
def blocksOf (a n : Nat) : Nat × Nat := (a / 0x10000 * 0x10000, (a + n + 0xFFFF) / 0x10000 - a / 0x10000)

/-- A write of the UPD block begins: the blocks count an erase each, their content is undefined until the end, and
the bank is busy (R568). -/
def writeBegin (a n : Nat) (s : State) : State :=
  let k := bankOf a
  let s1 := flashInvalidate a n (garble a n (eraseCounts ((a - 0x08000000) / 0x10000) (n / 0x10000) s))
  if bankState k s1 = 0 ∧ pdOn (26 + k) s1 = true then bankPut k { erase := some ⟨64, a, []⟩, minRun := true } false s1
  else s1

/-- The bank is not held by another command, and no read has suspended the write. -/
def writeFree (a : Nat) (s : State) : Bool :=
  bankState (bankOf a) s == 0 ||
    (bankState (bankOf a) s == 2 &&
      (match (bankGet (bankOf a) s).erase with
       | some j => j.who == 64
       | none => false))

/-- A write of the UPD block ends: the erased range holds the image, or stays undefined. -/
def writeEnd (a n : Nat) (ok : Bool) (image : List Byte) (dest : Nat) (s : State) : State :=
  let s1 := if bankState (bankOf a) s = 2 then bankPut (bankOf a) {} false s else s
  flashInvalidate a n (if ok then memWrite dest image (eraseRange a n s1) else s1)

/-- The slot a plan image goes to (R570): the one not active, slot A with no plan active. -/
def planSlot (s : State) : Nat := if planActive s then 1 - activeSlot s else 0

/-- Where the staged image is written: the erased range's base and octets, and the image's own base. -/
def writeRange (s : State) : Nat × Nat × Nat :=
  let h := stgHeader s
  let n := 256 + imgLength h
  match imgKind h with
  | 1 => (0x08040000, 60 * 0x10000, 0x08040000)
  | 4 => (0x08000000, 4 * 0x10000, 0x08000000)
  | 3 => let b := blocksOf (slotBase (planSlot s)) n; (b.1, b.2 * 0x10000, slotBase (planSlot s))
  | _ => let b := blocksOf (imgSeg h 0).dest n; (b.1, b.2 * 0x10000, (imgSeg h 0).dest)

/-- The write of the staged image begins. -/
def stagedBegin (s : State) : State := let w := writeRange s; writeBegin w.1 w.2.1 s

/-- The write of the staged image ends. -/
def stagedEnd (ok : Bool) (s : State) : State :=
  let w := writeRange s
  writeEnd w.1 w.2.1 ok (stgImage s) w.2.2 s

/-- The write of the staged image may end. -/
def stagedFree (s : State) : Bool := writeFree (writeRange s).1 s

/-- A kind's floor takes the staged image's SEQ as its write begins (R564). -/
def floorTake (s : State) : State :=
  let h := stgHeader s
  wr (floorAt (imgKind h) (imgRoom h)) (BitVec.ofNat 32 (imgSeq h)) s

/-- UPD_ROOMST[r] (R577). -/
def roomSt (r v : Nat) (s : State) : State := fset (updB + 4 * r) UPD_ROOMST.STATE v s

/-! ### Activation (R567–R570) -/

/-- DEST is the base of the room's lowest flash window granting X (R561). -/
def destPlaced (h : List Byte) (s : State) : Bool :=
  hasEntry (imgRoom h) s &&
    (match codeWindow (imgRoom h) s with
     | some w => w.base == (imgSeg h 0).dest
     | none => false)

/-- ACTIVATE of a ROOM image: steps 1–3 of R567 and the start of step 4. -/
def activateRoom (s : State) : State :=
  let h := stgHeader s
  let r := imgRoom h
  let s1 := (roomSuspend r s).2
  if destPlaced h s1 then
    let s2 := measClear r (roomSt r 3 (floorTake s1))
    stagedBegin (updMove 3 (resetRoom r (roomUnload r s2)))
  else updEnd 11 s1

/-- The write of a ROOM image ends: steps 5 and 6 of R567, and the plan switch of R572. -/
def roomWritten (ok : Bool) (s : State) : State :=
  let h := stgHeader s
  let r := imgRoom h
  let s1 := stagedEnd ok s
  if !ok then updEnd 12 (roomSt r 2 s1)
  else if destPlaced h s1 then
    let s2 := wr (ledgB + 0x804 + 8 * r) (BitVec.ofNat 32 (imgEntry h)) (measFrom r h s1)
    updEnd 0 (roomResume r (roomSt r 1 s2)).2
  else updEnd 11 (roomSt r 2 s1)

/-- The Steward or a link core is held (R569, R574). -/
def holdCore (k : Nat) (s : State) : State := coreSet k { coreGet k s with heldInReset := true } s

/-- ACTIVATE of a HOUSE image (R569): the floor, and the house stands still. -/
def activateHouse (s : State) : State :=
  measClear 0 (holdCore 2 (holdCore 1 (holdCore 0 (updMove 3 (floorTake s)))))

/-- Segments of a house image are copied to their destinations. -/
def copySegments (h body : List Byte) (s : State) : State :=
  (imgSegments h).foldl (fun t g => memWrite g.dest ((body.drop g.offset).take g.len) t) s

/-- A segment lies in link core `k`'s TCM. -/
def tcmSegment (h : List Byte) (k : Nat) : Bool :=
  (imgSegments h).any fun g => decide (0 < g.len) && inRange g.dest g.len (0x10000000 + 0x40000 * k) (0x10040000 + 0x40000 * k)

/-- The processors of the house start (R569, R664): the Steward at ENTRY in M mode with every register 0, and each
link core with a segment at its TCM base; a link core that has none stays stopped. -/
def houseCores (h : List Byte) (s : State) : State :=
  let link (k : Nat) (t : State) : State :=
    coreSet (1 + k) (if tcmSegment h k then { pc := BitVec.ofNat 64 (0x10000000 + 0x40000 * k) }
      else { heldInReset := true }) t
  link 1 (link 0 (coreSet 0 { pc := BitVec.ofNat 64 (imgEntry h) } s))

/-- The claimed levels of the Steward and the link cores are cleared. -/
def levelsClear (s : State) : State :=
  (List.range 3).foldl (fun t d => destSet d { destGet d t with levels := [] } t) s

/-- The segments are copied and the new house starts; the rewrite of the house range begins (R569). -/
def houseRestart (s : State) : State :=
  if updState s ≠ 3 ∨ fget updB UPD_STAT.KIND s ≠ 1 then s
  else
    let h := stgHeader s
    let s1 := measFrom 0 h (copySegments h (memBytes (stgBase s + 256) (imgLength h) s) s)
    let s2 := if planActive s1 then digestChange s1 else s1
    stagedBegin (levelsClear (houseCores h (updMove 4 s2)))

/-- The rewrite of the house range ends. -/
def houseRewritten (ok : Bool) (s : State) : State :=
  if updState s ≠ 4 ∨ stagedFree s = false then s else updEnd (if ok then 0 else 12) (stagedEnd ok s)

/-- ACTIVATE (R566, R570). -/
def updActivate (s : State) : State :=
  if updState s ≠ 2 then updErr UPD_ERR.CMD s
  else
    match fget updB UPD_STAT.KIND s with
    | 1 => activateHouse s
    | 2 => if fget fabB FAB_PLAN_STAT.PHASE s ≠ 0 then updErr UPD_ERR.BUSY s else activateRoom s
    | _ =>
      if fget fabB FAB_PLAN_STAT.PHASE s ≠ 0 then updErr UPD_ERR.BUSY s
      else stagedBegin (updMove 3 (floorTake s))

/-- The write of a PLAN image ends (R570): the slot is UNCHECKED. -/
def planWritten (ok : Bool) (s : State) : State :=
  updEnd (if ok then 0 else 12) (slotSet (planSlot s) 1 0 (stagedEnd ok s))

/-- The write of a room or plan image ends (R567, R570). -/
def updWritten (ok : Bool) (s : State) : State :=
  if updState s ≠ 3 ∨ stagedFree s = false then s
  else match fget updB UPD_STAT.KIND s with
    | 2 => roomWritten ok s
    | 3 => planWritten ok s
    | _ => s

/-! ### Checks in place (R571) -/

/-- The stored image's result: 0, that of R562, or 10. -/
def storedResult (a kind room : Nat) (s : State) : Nat :=
  let h := storedHeader a s
  let r := headerCheck h [kind] s
  if r ≠ 0 then r else if imgRoom h ≠ room then 2
  else if sha256 (storedBody a s) = imgHash h then 0 else 10

/-- A room's image is checked in place: the result and the state after. A room that passes is recorded; one that
fails keeps measurements of 0 and, being a guest, is suspended. -/
def checkRoom (r : Nat) (s : State) : Nat × State :=
  let base := if r = 0 then some 0x08040000 else (codeWindow r s).map fun w => w.base
  let res := match base with
    | some a => storedResult a (if r = 0 then 1 else 2) r s
    | none => 2
  match res, base with
  | 0, some a =>
    let h := storedHeader a s
    let s1 := roomSt r 1 (measFrom r h s)
    (0, if r = 0 then s1 else wr (ledgB + 0x804 + 8 * r) (BitVec.ofNat 32 (imgEntry h)) s1)
  | n, _ =>
    let s1 := roomSt r 2 (measClear r s)
    (n, if r = 0 then s1 else suspendRoom r s1)

/-- CHECK r (R566, R571). -/
def updCheck (r : Nat) (s : State) : State :=
  if ¬(updState s = 0 ∨ updState s = 5) then updErr UPD_ERR.CMD s
  else
    let s1 := fset updB UPD_STAT.ROOM r (fset updB UPD_STAT.KIND 0 s)
    if !hasEntry r s1 then updEnd 11 s1
    else let c := checkRoom r s1; updEnd c.1 (drawFree c.2)

/-- FLOOR_CLR r (R564, R566). -/
def floorClr (r : Nat) (s : State) : State :=
  if r = 0 then updErr UPD_ERR.RANGE s
  else if ¬(updState s = 0 ∨ updState s = 5) ∨ hasEntry r s = true then updErr UPD_ERR.CMD s
  else wr (floorAt 2 r) 0 s

/-- RECOVER (R566, R573): cause RECOVER. -/
def updRecover (s : State) : State :=
  if ¬(updState s = 0 ∨ updState s = 5) then updErr UPD_ERR.CMD s
  else hallRestart 7 (fset updB UPD_STAT.REC_REQ 1 s)

/-- A write of UPD_CMD (R577). -/
def updCmd (key op room : Nat) (s : State) : State :=
  if key ≠ 0x5550 then updErr UPD_ERR.CMD s
  else match op with
    | 1 => updHeader 0 s
    | 2 => updLoad s
    | 3 => updFinish s
    | 4 => updActivate s
    | 5 => updAbort s
    | 6 => updCheck room s
    | 7 => floorClr room s
    | 8 => updRecover s
    | _ => updErr UPD_ERR.CMD s

/-! ### The registers a write of which this chapter limits (R565, R577) -/

/-- A write of a staging register or of UPD_HDR: fixed while LOCK is 1. -/
def stgWrite (a : Nat) (data mask : Word) (s : State) : State :=
  if fis updB UPD_STAT.LOCK s then updErr UPD_ERR.BUSY s else wr a (data &&& mask) s

/-- A write of UPD_RCFG. -/
def rcfgWrite (data : Word) (s : State) : State :=
  if signedOf 8 (bitsOf data 0 8) < -80 ∨ 88 < signedOf 8 (bitsOf data 0 8) then updErr UPD_ERR.RANGE s
  else wr (updB + 0x2C) (data &&& 0x1FF#32) s

/-- A write of UPD_RFREQ. -/
def rfreqWrite (data : Word) (s : State) : State :=
  let f := bitsOf data 0 22
  if f = 0 ∨ (410000 ≤ f ∧ f ≤ 1050000) then wr (updB + 0x30) (data &&& 0x3FFFFF#32) s else updErr UPD_ERR.RANGE s

/-! ### Recovery's messages (R575, R576) -/

/-- A source is listened to (R575). -/
def recListens (src : RecSource) (s : State) : Bool :=
  s.pow.hall == .recovery &&
    (match src with
     | .host => fis hostB HOST_CTRL.EN s
     | .uart0 => true
     | .radio => fget 0x40000000 LIC_STAT.STATE s == 2 && fis updB UPD_RCFG.EN s &&
         fget updB UPD_RFREQ.FREQ_KHZ s != 0)

/-- A reply leaves to its source; to the host port as a frame of its session. -/
def recReply (src : RecSource) (l : List Byte) (s : State) : State :=
  let s1 := updPut { s.upd with reply := l } s
  match src with
  | .host => if hostSession s1 = 0 then s1 else hostSend 0x81 l s1
  | _ => s1

/-- A message is taken from its source: of the host port's input store the oldest. -/
def recTake (src : RecSource) (s : State) : State :=
  match src with
  | .host => hostPut { s.host with msgs := s.host.msgs.drop 1 } s
  | _ => s

/-- A message that a source other than the owner may not send is answered BUSY, whose octet is not printed; `f` is
what the message does otherwise. -/
def recMessage (src : RecSource) (f : State → State) (s : State) : State :=
  if recListens src s = false then s
  else
    let s1 := recTake src s
    if s1.upd.owner ≠ 0 ∧ s1.upd.owner ≠ src.num then recReply src (freeBytes 1 s1) (drawFree s1) else f s1

/-- The source of a number. -/
def recSource : Nat → Option RecSource
  | 1 => some .host
  | 2 => some .uart0
  | 3 => some .radio
  | _ => none

/-- INFO (R576): the items in the order the table lists them. The fourth kind's floor is one per room, so which one
is told is open. -/
def recInfo (s : State) : List Byte :=
  unitId s ++ [Config.stepping, BitVec.ofNat 8 (lifecycle s)] ++
    leBytes 4 (floorGet 1 0 s) ++ freeBytes 4 s ++ leBytes 4 (floorGet 3 0 s) ++ leBytes 4 (floorGet 4 0 s) ++
    [BitVec.ofNat 8 (fget 0x70030000 RST_STAT.REC_WHY s), BitVec.ofNat 8 s.upd.owner] ++
    leBytes 4 (fget updB UPD_LOADED.LOADED s)

/-- A recovery HEADER (R576): the octets go to UPD_HDR and are checked. -/
def recHeader (src : RecSource) (h : List Byte) (s : State) : State :=
  if (updState s = 0 ∨ updState s = 5) ∧ fis keyB PK_STAT.BUSY s = false ∧ h.length = 256 then
    updHeader src.num (wrList (updB + 0x1000) (wordsOfBytes h) s)
  else recReply src (freeBytes 1 s) (drawFree s)

/-- The header checks finish (R562, R565, R576): the session opens, or ends with the result, which recovery tells the
source. -/
def updHeaderChecked (s : State) : State :=
  if updState s ≠ 6 then s
  else
    let h := updHdr s
    let res := updJudge h s
    let s1 := fset keyB PK_STAT.BUSY 0 { s with keys := { s.keys with pk := .idle } }
    let s2 := if res = 0 then updOpen h s1 else updEnd res s1
    match recSource s.upd.source with
    | some src => recReply src [BitVec.ofNat 8 res] s2
    | none => s2

/-- DATA (R576): octets at the loaded offset are loaded, others discarded; the reply tells the octets loaded. -/
def recData (src : RecSource) (offset : Nat) (l : List Byte) (s : State) : State :=
  let n := fget updB UPD_LOADED.LOADED s
  let s1 := if updState s = 1 ∧ offset = n ∧ 1 ≤ l.length ∧ l.length ≤ 1024 ∧
      n + l.length ≤ imgLength (stgHeader s) then stgAppend l s else s
  recReply src (leBytes 4 (fget updB UPD_LOADED.LOADED s1)) s1

/-- The Porter and the house image are valid (R573). -/
def imagesOk (s : State) : Bool := storedOk 0x08000000 4 s && storedOk 0x08040000 1 s

/-- COMMIT (R576): FINISH, then the write; `ok` tells whether the verification passes. -/
def recCommit (src : RecSource) (ok : Bool) (s : State) : State :=
  if updState s ≠ 1 then recReply src (freeBytes 1 s) (drawFree s)
  else
    let bad := finishResult s
    let res := if bad ≠ 0 then bad else if ok then 0 else 12
    let s1 := if bad ≠ 0 then s else
      let t := stagedEnd ok (stagedBegin (floorTake s))
      if imgKind (stgHeader s) = 3 then slotSet (planSlot t) 1 0 t else t
    let s2 := recReply src [BitVec.ofNat 8 res] (updEnd res s1)
    updPut { s2.upd with restartDue := imagesOk s2 } (drawFree s2)

/-- ABORT (R576): the session ends. -/
def recAbort (src : RecSource) (s : State) : State :=
  recReply src [13] (if updState s = 1 then updEnd 13 s else s)

/-- The ROM restarts the hall (R576, R656): REC_REQ is cleared; cause RESTART. -/
def recRestart (s : State) : State := hallRestart 8 (fset updB UPD_STAT.REC_REQ 0 s)

/-! ### The commands -/

/-- UPD_HEADER (R562). -/
def execUpdHeader (i : Init) (key : BitVec 16) (s : State) : Host.Outcome State Fault Refusal :=
  .next (doorStore i updB (updCmd key.toNat 1 0) s)

/-- UPD_LOAD (R566). -/
def execUpdLoad (i : Init) (key : BitVec 16) (s : State) : Host.Outcome State Fault Refusal :=
  .next (doorStore i updB (updCmd key.toNat 2 0) s)

/-- UPD_FINISH (R566). -/
def execUpdFinish (i : Init) (key : BitVec 16) (s : State) : Host.Outcome State Fault Refusal :=
  .next (doorStore i updB (updCmd key.toNat 3 0) s)

/-- UPD_ACTIVATE (R567, R569, R570). -/
def execUpdActivate (i : Init) (key : BitVec 16) (s : State) : Host.Outcome State Fault Refusal :=
  .next (doorStore i updB (updCmd key.toNat 4 0) s)

/-- UPD_ABORT (R566). -/
def execUpdAbort (i : Init) (key : BitVec 16) (s : State) : Host.Outcome State Fault Refusal :=
  .next (doorStore i updB (updCmd key.toNat 5 0) s)

/-- UPD_CHECK (R571). -/
def execUpdCheck (i : Init) (key : BitVec 16) (room : BitVec 6) (s : State) : Host.Outcome State Fault Refusal :=
  .next (doorStore i updB (updCmd key.toNat 6 room.toNat) s)

/-- FLOOR_CLR (R564). -/
def execFloorClr (i : Init) (key : BitVec 16) (room : BitVec 6) (s : State) : Host.Outcome State Fault Refusal :=
  .next (doorStore i updB (updCmd key.toNat 7 room.toNat) s)

/-- RECOVER (R573). -/
def execRecover (i : Init) (key : BitVec 16) (s : State) : Host.Outcome State Fault Refusal :=
  .next (doorStore i updB (updCmd key.toNat 8 0) s)

/-- UPD_HEADER_CHECKED (R562). -/
def execUpdHeaderChecked (s : State) : Host.Outcome State Fault Refusal := .next (updHeaderChecked s)

/-- UPD_WRITE_DONE (R567, R570). -/
def execUpdWriteDone (ok : Bool) (s : State) : Host.Outcome State Fault Refusal := .next (updWritten ok s)

/-- HOUSE_RESTART (R569). -/
def execHouseRestart (s : State) : Host.Outcome State Fault Refusal := .next (houseRestart s)

/-- HOUSE_REWRITE_DONE (R569). -/
def execHouseRewriteDone (ok : Bool) (s : State) : Host.Outcome State Fault Refusal := .next (houseRewritten ok s)

/-- RECOVERY_INFO (R576): every source is answered. -/
def execRecoveryInfo (src : RecSource) (s : State) : Host.Outcome State Fault Refusal :=
  .next (if recListens src s then recReply src (recInfo s) (drawFree (recTake src s)) else s)

/-- RECOVERY_HEADER (R576). -/
def execRecoveryHeader (src : RecSource) (header : List Byte) (s : State) : Host.Outcome State Fault Refusal :=
  .next (recMessage src (recHeader src header) s)

/-- RECOVERY_DATA (R576). -/
def execRecoveryData (src : RecSource) (offset : Word) (octets : List Byte) (s : State) :
    Host.Outcome State Fault Refusal := .next (recMessage src (recData src offset.toNat octets) s)

/-- RECOVERY_COMMIT (R576). -/
def execRecoveryCommit (src : RecSource) (ok : Bool) (s : State) : Host.Outcome State Fault Refusal :=
  .next (recMessage src (recCommit src ok) s)

/-- RECOVERY_ABORT (R576). -/
def execRecoveryAbort (src : RecSource) (s : State) : Host.Outcome State Fault Refusal :=
  .next (recMessage src (recAbort src) s)

/-- RECOVERY_RESTART (R576). -/
def execRecoveryRestart (src : RecSource) (s : State) : Host.Outcome State Fault Refusal :=
  .next (recMessage src recRestart s)

/-- RECOVERY_SESSION_TIMEOUT (R576): 60 s without accepted DATA. The spec states no result of a session that ends so. -/
def execRecoverySessionTimeout (s : State) : Host.Outcome State Fault Refusal :=
  .next (if s.pow.hall = .recovery ∧ s.upd.owner ≠ 0 then updEnd (freeNat s % 14) (drawFree s) else s)

/-- RECOVERY_AUTO_RESTART (R576): 10 s after a COMMIT that left both images valid. -/
def execRecoveryAutoRestart (s : State) : Host.Outcome State Fault Refusal :=
  .next (if s.pow.hall = .recovery ∧ s.upd.restartDue = true then recRestart s else s)

end Sys2Proof.Machine
end

