-- ==== Sys2Proof/Machine/Startup.lean ====
section
/-!
DEFINITION. The start from VBAT, the ROM and the Porter (spec/23_startup.md, R656–R664; R220, R571, R573).
-/

namespace Sys2Proof.Machine

open Reg

/-! ### VBAT (R656–R658) -/

/-- What a loss of VBAT leaves: the lantern's non-volatile store, the licence table, flash and a locked tamper
configuration. Duty accounts and the last-gasp ring are empty, and no last gasp runs. -/
def vbatClear (s : State) : State :=
  let locked := fis tampB TAMP_CFG.LOCK s
  let s1 := hallClear true (vbatKeep locked) (supPut {} s)
  { s1 with
    time := { counts := false }
    link := {}
    knk := {}
    cal := { crystal := false }
    keys := { s1.keys with loops := [] }
    pow := { hall := s.pow.hall, porReset := true } }

/-- VBAT_POWER_ON (R657): the store is read, a pending vault erase completes, PWR_ON is driven, VOUT_MODE is read and
the hall starts; a low SYS_RST_N holds it. The crystal has not started (R658). -/
def vbatPowerOn (m : Option (BitVec 8)) (s : State) : State :=
  let s1 := fset calB CAL_STAT.LF_RUN 0 (fset calB CAL_STAT.OSF 1 (vbatClear s))
  let s2 := pwrOn true (fset tampB TAMP_STAT.ERASE_PEND 0 s1)
  let s3 := owe (linkB + 0x40) 2 736 s2
  match s3.pow.hall with
  | .pinLow => s3
  | _ => startRead m s3

/-! ### The ROM (R662, R573, R574) -/

/-- The radio token at RUN and in recovery (R111): the hall's while the lantern sequencer is idle, but for a token
taken by a last gasp that began with the hall up. -/
def tokenBack (s : State) : State :=
  if s.sup.gasp.isSome ∨ fis (feB .a) FE_OWNER.ORIGIN s = true then s else radioOwner false s

/-- ROM recovery begins (R574): STAGE RECOVERY, the staging range fixed, the host port listening. -/
def recoveryEnter (why : Nat) (s : State) : State :=
  let s1 := stage 8 (fset pmbB RST_STAT.REC_WHY why (hallPut .recovery s))
  let s2 := fset updB UPD_STG_SIZE.SIZE 0x800 (fset updB UPD_STG_BASE.BASE 0x20000 s1)
  fset hostB HOST_CTRL.EN 1 (tokenBack s2)

/-- Steps 2–5 of R662. -/
def romChecks (s : State) : State :=
  let s1 := stage 3 s
  if !storedOk 0x08000000 4 s1 then recoveryEnter 2 s1
  else if !storedOk 0x08040000 1 s1 then recoveryEnter 3 s1
  else if fis updB UPD_STAT.REC_REQ s1 then recoveryEnter 1 s1
  else
    let entry := imgEntry (storedHeader 0x08000000 s1)
    stage 4 (hallPut .porter (coreSet 0 { pc := BitVec.ofNat 64 entry } (fset flcB FLC_LOCK.PORTER 1 s1)))

/-- ROM_START (R662): a root is made first when the vault holds none; the command is repeated while it is made. -/
def romStart (s : State) : State :=
  if s.pow.hall ≠ .released then s
  else
    let s1 := fset pmbB RST_STAT.REC_WHY 0 (if pdOn 30 s then s else domainOn 30 s)
    if rootValid s1 then romChecks s1
    else
      let s2 := stage 2 s1
      if fget rngB RNG_STAT.STATE s2 = 3 then
        stage 9 (hallPut .halted { s2 with keys := { s2.keys with rooting := none } })
      else if s2.keys.rooting.isSome then s2
      else
        let s3 := rngRun { s2 with keys := { s2.keys with rooting := some [] } }
        if rootValid s3 then romChecks s3 else s3

/-! ### The Porter (R663) -/

/-- The flash read mode for 0.80 V (R663): NORMAL with the wait states of R542 for the clock; which clock the Porter
chooses is open. -/
def porterFlash (s : State) : State :=
  let clk := freeNat s % 3
  flcWs (fset flcB FLC_CFG.WS (wsMin 10 clk) (fset flcB FLC_CFG.CLK clk (fset flcB FLC_CFG.MODE 1 (drawFree s))))

/-- Every guest room with a ledger entry is checked (R571). -/
def porterRooms (s : State) : State :=
  drawFree ((List.range 63).foldl (fun t k => if hasEntry (k + 1) t then (checkRoom (k + 1) t).2 else t) (stage 6 s))

/-- The house starts, which is RUN: the wake that the start served is announced, and what was owed is raised. -/
def houseStart (s : State) : State :=
  let h := storedHeader 0x08040000 s
  let s1 := roomSt 0 1 (measFrom 0 h s)
  let s2 := stage 7 (houseCores h (copySegments h (storedBody 0x08040000 s1) s1))
  let woke := s2.pow.waking.isSome
  let s3 := payOwed (tokenBack { s2 with pow := { s2.pow with hall := .run, mode := 0, starts := 0, kept := [], waking := none } })
  if woke then pwrNote PWR_NOTE.WAKE s3 else s3

/-- PORTER_START (R663): the plan's load comes first; the command is repeated while the loader works. -/
def porterStart (s : State) : State :=
  if s.pow.hall ≠ .porter ∨ s.plan.work ≠ .idle then s
  else
    let s1 := if fget pmbB RST_STAGE.STAGE s = 5 then s else drawFree (planStart (stage 5 (porterFlash s)))
    if s1.plan.work = .idle then houseStart (porterRooms s1) else s1

/-! ### The commands -/

/-- VBAT_POWER_ON (R657). -/
def execVbatPowerOn (voutMode : Option (BitVec 8)) (s : State) : Host.Outcome State Fault Refusal :=
  .next (vbatPowerOn voutMode s)

/-- ROM_START (R662). -/
def execRomStart (s : State) : Host.Outcome State Fault Refusal := .next (romStart s)

/-- PORTER_START (R663). -/
def execPorterStart (s : State) : Host.Outcome State Fault Refusal := .next (porterStart s)

end Sys2Proof.Machine
end

