-- ==== Sys2Proof/Machine/Timers.lean ====
section
/-!
DEFINITION. General and long timers (R405–R418, R434). The count advances with its commands: each carries the
count it speaks of. RELOAD and CMP read the values in force; a commit that waits shows in TMR_STAT.PEND.
-/

namespace Sys2Proof.Machine

open Reg

/-- The page of timer `t` (R406). -/
def tmrB (t : Nat) : Nat := 0x40060000 + 0x100 * t

/-- A long timer (R405). -/
def tmrLong (t : Nat) : Bool := decide (16 ≤ t)

/-- The range of a timer's count. -/
def tmrTop (t : Nat) : Nat := if tmrLong t then 2 ^ 64 else 2 ^ 32

/-- A 64-bit quantity of timer `t`; of a general timer the low half alone (R417). -/
def tmrGet (t off : Nat) (s : State) : Nat :=
  if tmrLong t then (rd64 (tmrB t + off) s).toNat else (rd (tmrB t + off) s).toNat

/-- Set a 64-bit quantity of timer `t`. -/
def tmrPut (t off v : Nat) (s : State) : State :=
  if tmrLong t then wr64 (tmrB t + off) (BitVec.ofNat 64 v) s else wr (tmrB t + off) (BitVec.ofNat 32 v) s

/-- RELOAD in force. -/
def tmrReload (t : Nat) (s : State) : Nat := tmrGet t 8 s
/-- CMP in force. -/
def tmrCmp (t : Nat) (s : State) : Nat := tmrGet t 0x18 s
/-- The count. -/
def tmrCount (t : Nat) (s : State) : Nat := tmrGet t 0x10 s

/-- A TMR_NOTE bit is set, raising the timer's event (R434); WRAP raises it only while WRAP_IE is 1. -/
def tmrNote (t : Nat) (f : Fld) (s : State) : State :=
  if f.lo = 1 ∧ fis (tmrB t) TMR_CTRL.WRAP_IE s = false then fset (tmrB t) f 1 s
  else note (tmrB t) f (704 + t) s

/-- What waits for the timer's next tick edge. -/
def tmrPend (t : Nat) (s : State) : TimerPend := tget (fun _ => ({} : TimerPend)) s.timers t

/-- Set what waits; PEND shows it. -/
def tmrPendPut (t : Nat) (p : TimerPend) (s : State) : State :=
  fset (tmrB t) TMR_STAT.PEND (ofBool (p.cmp.isSome || p.reload.isSome))
    { s with timers := tset (fun _ => ({} : TimerPend)) s.timers t p }

/-- The compare fires (R415). -/
def tmrFire (t : Nat) (s : State) : State :=
  let s1 := if fis (tmrB t) TMR_CTRL.ONCE s then fset (tmrB t) TMR_CTRL.CMP_EN 0 s else s
  tmrNote t TMR_NOTE.MATCH s1

/-- CMP stands above RELOAD (R413). -/
def tmrRange (t : Nat) (s : State) : State :=
  if tmrReload t s < tmrCmp t s then tmrNote t TMR_NOTE.CMP_RANGE s else s

/-- RELOAD takes a value (R413, R414). -/
def tmrReloadSet (t v : Nat) (s : State) : State := tmrRange t (tmrPut t 8 v s)

/-- CMP takes a value (R411, R413). -/
def tmrCmpSet (t v : Nat) (s : State) : State := tmrRange t (tmrPut t 0x18 v s)

/-- A tick edge of a running timer whose count is `c` (R408, R410, R411, R414): a waiting RELOAD applies first, then
the count, then a waiting CMP, which fires as already passed or as a normal match. -/
def tmrEdge (t c : Nat) (s : State) : State :=
  let p := tmrPend t s
  let s1 := match p.reload with
    | some r => tmrPut t 8 r s
    | none => s
  let wraps := decide (tmrReload t s1 ≤ c)
  let new := if wraps then 0 else c + 1
  let s2 := tmrPut t 0x10 new (tmrPendPut t {} s1)
  let s3 := if wraps then tmrNote t TMR_NOTE.WRAP s2 else s2
  let s4 := match p.cmp with
    | some v => tmrPut t 0x18 v s3
    | none => s3
  let s5 := if p.cmp.isSome || p.reload.isSome then tmrRange t s4 else s4
  let cmp := tmrCmp t s5
  if fis (tmrB t) TMR_CTRL.CMP_EN s5 && decide (cmp ≤ tmrReload t s5) &&
      (decide (cmp = new) || (p.cmp.isSome && decide (cmp ≤ c)))
  then tmrFire t s5
  else s5

/-- The timer counts: EN is 1 and PD78 is on. -/
def tmrRuns (t : Nat) (s : State) : Bool := decide (t < 20) && fis (tmrB t) TMR_CTRL.EN s && pdOn 78 s

/-- A write of TMR_CTRL (R409, R416, R434); `count` is the count of a running timer when the write takes effect. -/
def tmrCtrl (t : Nat) (data : Word) (count : Nat) (s : State) : State :=
  let old := rd (tmrB t) s
  let runs := bitOf old 0
  if bitsOf data 8 7 < 64 ∨ bitsOf data 6 2 = 3 then
    tmrNote t TMR_NOTE.ERR (fset (tmrB t) TMR_STAT.RANGE 1 s)
  else if runs && (bitsOf data 16 16 != bitsOf old 16 16 || bitOf data 2 != bitOf old 2) then
    tmrNote t TMR_NOTE.ERR (fset (tmrB t) TMR_STAT.BUSY 1 s)
  else
    let s1 := wr (tmrB t) (data &&& 0xFFFF7FFF#32) s
    if runs && !bitOf data 0 then tmrPut t 0x10 (count % tmrTop t) s1 else s1

/-- A write of TMR_CMD (R409). -/
def tmrCmd (t : Nat) (data : Word) (s : State) : State :=
  if bitsOf data 16 16 ≠ 0x544D then tmrNote t TMR_NOTE.ERR s
  else if bitOf data 0 then tmrPut t 0x10 0 s
  else s

/-- CMP is committed (R411, R412). -/
def tmrCmpCommit (t v : Nat) (s : State) : State :=
  if fis (tmrB t) TMR_CTRL.EN s then tmrPendPut t { tmrPend t s with cmp := some v } s else tmrCmpSet t v s

/-- RELOAD is committed (R414). -/
def tmrReloadCommit (t v : Nat) (s : State) : State :=
  if fis (tmrB t) TMR_CTRL.EN s then tmrPendPut t { tmrPend t s with reload := some v } s else tmrReloadSet t v s

/-- A write of the register that commits CMP or RELOAD: of a general timer the low register, of a long timer the
high one, with the staged low half (R71, R411, R417). -/
def tmrCommitWrite (i : Init) (t off : Nat) (commit : Nat → Nat → State → State) (data : Word) (s : State) : State :=
  if tmrLong t then
    let r := stagedTake i (tmrB t + off) data s
    commit t r.1.toNat r.2
  else commit t data.toNat s

/-- The address of the committing register. -/
def tmrCommitAt (t off : Nat) : Nat := tmrB t + off + (if tmrLong t then 4 else 0)

/-- A selected edge of the capture pin, at which the count is `count` (R416). -/
def tmrCapture (t count : Nat) (falling : Bool) (s : State) : State :=
  let e := fget (tmrB t) TMR_CTRL.CAP_EDGE s
  if fis (tmrB t) TMR_CTRL.CAP_EN s && (e == 2 || (e == 1) == falling) then
    let s1 := tmrPut t 0x20 (count % tmrTop t) s
    if fis (tmrB t) TMR_NOTE.CAP s then tmrNote t TMR_NOTE.CAP_OVR s1 else tmrNote t TMR_NOTE.CAP s1
  else s

/-! ### The commands -/

/-- TIMER_ENABLE (R409). -/
def execTimerEnable (i : Init) (timer : Fin 20) (data : Word) (count : Word64) (s : State) :
    Host.Outcome State Fault Refusal :=
  .next (doorStore i (tmrB timer.val) (tmrCtrl timer.val data count.toNat) s)

/-- TIMER_ZERO (R409): the store to TMR_CMD has ZERO set. -/
def execTimerZero (i : Init) (timer : Fin 20) (key : BitVec 16) (s : State) : Host.Outcome State Fault Refusal :=
  .next (doorStore i (tmrB timer.val + 0x28) (tmrCmd timer.val (BitVec.ofNat 32 (key.toNat * 65536 + 1))) s)

/-- TIMER_CMP_COMMIT (R411). -/
def execTimerCmpCommit (i : Init) (timer : Fin 20) (data : Word) (s : State) : Host.Outcome State Fault Refusal :=
  .next (doorStore i (tmrCommitAt timer.val 0x18) (tmrCommitWrite i timer.val 0x18 tmrCmpCommit data) s)

/-- TIMER_RELOAD_COMMIT (R414). -/
def execTimerReloadCommit (i : Init) (timer : Fin 20) (data : Word) (s : State) : Host.Outcome State Fault Refusal :=
  .next (doorStore i (tmrCommitAt timer.val 8) (tmrCommitWrite i timer.val 8 tmrReloadCommit data) s)

/-- TIMER_CMP_EFFECT (R411): the edge after a commit; `count` is the count before it. -/
def execTimerCmpEffect (timer : Fin 20) (count : Word64) (s : State) : Host.Outcome State Fault Refusal :=
  .next (if tmrRuns timer.val s && (tmrPend timer.val s).cmp.isSome
    then tmrEdge timer.val (count.toNat % tmrTop timer.val) s else s)

/-- TIMER_WRAP (R408): an edge at which the count stands at or above RELOAD. -/
def execTimerWrap (timer : Fin 20) (count : Word64) (s : State) : Host.Outcome State Fault Refusal :=
  .next (if tmrRuns timer.val s && decide (tmrReload timer.val s ≤ count.toNat % tmrTop timer.val)
    then tmrEdge timer.val (count.toNat % tmrTop timer.val) s else s)

/-- TIMER_MATCH (R410): a tick edge; `count` is the count before it. -/
def execTimerMatch (timer : Fin 20) (count : Word64) (s : State) : Host.Outcome State Fault Refusal :=
  .next (if tmrRuns timer.val s then tmrEdge timer.val (count.toNat % tmrTop timer.val) s else s)

/-- TIMER_CAPTURE (R416). -/
def execTimerCapture (timer : Fin 20) (count : Word64) (falling : Bool) (s : State) :
    Host.Outcome State Fault Refusal :=
  .next (if pdOn 78 s then tmrCapture timer.val count.toNat falling s else s)

end Sys2Proof.Machine
end

