-- ==== Sys2Proof/Machine/Read.lean ====
section
/-!
DEFINITION. What a read of register space returns and does (R4–R6, R42, R66–R70, R73): the value each register shows
its reader, reads that pop, claim or lock, counters read low half first, snapshot groups and read-to-clear fields.
-/

namespace Sys2Proof.Machine

open Reg

/-! ### Plain registers (R4, R42) -/

/-- A register as its row shows it: write-only bits read 0, and a place that holds no register reads 0. -/
def plainView (a : Nat) (s : State) : Word :=
  match rowAt a with
  | some (r, _) => rd a s &&& ~~~ BitVec.ofNat 32 r.wo
  | none => 0

/-- The bits a read clears (R73): RC fields, and TIME_QUAL.RESUMED, which its register's read clears. -/
def readClears (a : Nat) : Word :=
  if a = 0x40050028 then 0x800
  else match rowAt a with
    | some (r, _) => BitVec.ofNat 32 r.rc
    | none => 0

/-- A read of RC fields returns them and clears them. -/
def readClear (a : Nat) (s : State) : State :=
  if readClears a = 0 then s else wr a (rd a s &&& ~~~ readClears a) s

/-- Bits that follow what stands outside the block, which no command of the model keeps: CAL_SEC_HI.SUBSEC,
PMB_STAT.PGOOD and BUSY, SUP_SAMPLE.SAMPLE, and the count of a watchdog that counts. Each read finds free bits there. -/
def openBits (a : Nat) (s : State) : Word :=
  if 0x40074000 ≤ a ∧ a < 0x40078000 then
    (if a % 0x100 = 8 ∧ wdogCounts ((a - 0x40074000) / 0x100) s = true then 0xFFFF else 0)
  else if a = 0x70000004 then 0xFFFF0000
  else if a = 0x70030004 then 6
  else if 0x40100120 ≤ a ∧ a ≤ 0x401001E0 ∧ a % 0x40 = 0x20 then 0xFFFFFF
  else 0

/-! ### Registers whose value depends on more than their own bits -/

/-- A lane page (R287): a lane that no plan defines reads 0; a field that the lane's mode does not have reads 0. -/
def laneView (n off : Nat) (s : State) : Word :=
  let v := plainView (laneP n + off) s
  let fsk := phyFsk (lanePhy n s)
  if laneDefined n s = false then 0
  else if off = 4 then (if phyOfdm (lanePhy n s) then v else v &&& ~~~ 4#32)
  else if off = 0x38 then
    (if fsk && laneFec n s then v else if fsk then v &&& ~~~ 0x700#32 else v &&& ~~~ 0xF00#32)
  else if off = 0x3C then (if laneDfe n s then v else 0)
  else v

/-- A word of the neighbour entry window of INDEX (R343): the entry when one stands there, else what was last written
to the window. -/
def nbrWindowView (off : Nat) (s : State) : Word :=
  match nbrGet s.link.nbrIndex s with
  | some e => BitVec.ofNat 32 (if off = 0x100 then e.flags else if off = 0x104 then e.rxFc else e.fcSlot)
  | none => rd (linkB + off) s

/-- The FEA and FEB blocks (R113, R126, R156, R163): FEB's ownership and licence registers are FEA's. -/
def feView (fe : Fe) (off : Nat) (s : State) : Word :=
  if 0x800 ≤ off ∧ off < 0x1000 then licTableRead (off - 0x800) s
  else if off = 0x44 ∨ off = 0xC0 ∨ off = 0xC4 then plainView (feB .a + off) s
  else if fe = .b ∧ off = 0x30 then 0
  else plainView (feB fe + off) s

/-- The LINK block (R340, R343). -/
def linkView (off : Nat) (s : State) : Word :=
  if 0x80 ≤ off ∧ off < 0xC0 then dutyView ((off - 0x80) / 4) s
  else if off = 0x100 ∨ off = 0x104 ∨ off = 0x108 then nbrWindowView off s
  else plainView (linkB + off) s

/-- The LEDG block (R460): ENTRY_V, and the mirrors of the entries. -/
def ledgView (off : Nat) (s : State) : Word :=
  if 0xC00 ≤ off ∧ off < 0xD00 then
    bitsPut (rd (ledgB + off) s) 8 1 (ofBool (hasEntry ((off - 0xC00) / 4) s))
  else if 0x8000 ≤ off then
    match ledgerGet ((off - 0x8000) / 0x200) s with
    | some e => BitVec.ofNat 32 (leAt (entryBytes ((off - 0x8000) / 0x200) e) (off % 0x200) 4)
    | none => 0
  else plainView (ledgB + off) s

/-- The core whose interface an offset of the EVT block names (R461): the page's, or at 0xF00 the reader's. -/
def evtCoreAt (i : Init) (off : Nat) : Nat := if 0xF00 ≤ off then evtCore i else off / 0x100

/-- The pigeonhole block (R475). -/
def phView (i : Init) (off : Nat) (s : State) : Word :=
  let c := (off - 0x1000) / 0x40
  if off = 4 then phHeldView false s
  else if off = 8 then phHeldView true s
  else if off < 0x1000 ∨ 0x2000 ≤ off then 0
  else if off % 0x40 = 0x14 then (latchGet i c s).from_
  else if off % 0x40 = 0x18 then phStatView c (roomOf i s) s
  else if phRole c (roomOf i s) s = 0 then 0
  else plainView (phPage c + off % 0x40) s

/-- KEY_STAT (R534): live slots and valid entries are counted. -/
def keyStatView (s : State) : Word :=
  let live := ((List.range 128).filter fun k => slotLive k s).length
  bitsPut (bitsPut (rd (keyB + 4) s) 0 8 live) 8 10 (shelfEntries s).length

/-- A register of a peripheral block: block `b` of the block table at offset `off`, which is address `a`. -/
def blockView (i : Init) (b off a : Nat) (s : State) : Word :=
  match b with
  | 0 => feView .a off s
  | 1 => feView .b off s
  | 3 => linkView off s
  | 5 => if off = 0x14 ∨ off = 0x18 ∨ off = 0x1C ∨ off = 0x24 then shadowGet i a s else plainView a s
  | 6 => if off % 0x100 = 0x14 ∨ off % 0x100 = 0x24 then shadowGet i a s else plainView a s
  | 7 => ledgView off s
  | 8 => if off < 0x1000 then evtView (evtCoreAt i off) (off % 0x100) s else plainView a s
  | 9 => phView i off s
  | 10 => if off = 0xC ∨ off = 0x10 ∨ off = 0x14 then cipBusyView off s else plainView a s
  | 11 => if off = 4 then keyStatView s
    else if 0x1100 ≤ off ∧ off < 0x1200 ∧ fis keyB PK_STAT.BUSY s = true then 0
    else plainView a s
  | 14 => if 0x400 ≤ off ∧ off < 0x420 then 0 else plainView a s
  | 15 => if off = 0x1C then
      (match i with
       | .linkCore n => BitVec.ofNat 32 (lcAns n.toNat s)
       | _ => 0)
    else plainView a s
  | 17 => if off = 8 then hostFillView s else plainView a s
  | 18 => if off < 0x200 ∧ off % 0x100 = 8 then uartStatView (off / 0x100) s else plainView a s
  | 19 => if off < 0x200 ∧ off % 0x100 = 0xC then i2cStatView (off / 0x100) s else plainView a s
  | 20 =>
    if 0x100 ≤ off ∧ off < 0x200 then (if gpioMine (roomOf i s) ((off - 0x100) / 4) s then plainView a s else 0)
    else if 0x400 ≤ off ∧ off < 0x440 then
      gpioMask (roomOf i s) ((off - 0x400) / 0x10) s &&&
        (if off % 0x10 = 0 then gpioInView ((off - 0x400) / 0x10) s else plainView a s)
    else if 0x500 ≤ off ∧ off < 0x510 then gpioMask (roomOf i s) ((off - 0x500) / 4) s &&& plainView a s
    else plainView a s
  | 22 => if off = 0x20 then bitsPut (rd a s) 8 1 (ofBool (vNow s == vCeil s)) else plainView a s
  | _ => if b < 2 ∧ off = 0x1C then shadowGet i a s else plainView a s

/-- A lantern register (R59, R625): the copy in the hall spine. -/
def lanternView (a : Nat) (s : State) : Word :=
  if 0x70030180 ≤ a ∧ a < 0x70030200 then lgSetView ((a - 0x70030180) / 4) s
  else if 0x70030200 ≤ a ∧ a < 0x70030300 then lgRingView ((a - 0x70030200) / 4) s
  else if a = 0x70000004 then plainView a s &&& 0xFFFF0000#32
  else plainView a s

/-- The high half of a 64-bit counter of a front end, which reads as the reader's shadow (R70). -/
def feShadowed (off : Nat) : Bool := off == 0x1C || off == 0x24

/-- The value a register shows initiator `i` at this instant. -/
def shownView (i : Init) (a : Nat) (s : State) : Word :=
  match targetOf a with
  | some (.lanePage n off) => laneView n off s
  | some (.tile t off) => tileView t off s
  | some (.queueWindow q off) => if off = 0x1C then queCreditView q s else plainView a s
  | some (.cipherPage n off) => cipRead n off s
  | some (.cipherCommon off) => if cipHeld (roomOf i s) s then cipRead 64 off s else 0
  | some (.block b off) => if b < 2 && feShadowed off then shadowGet i a s else blockView i b off a s
  | some (.lantern _ _) => lanternView a s
  | _ => 0

/-- The value with the bits that stay open filled in. -/
def regView (i : Init) (a : Nat) (s : State) : Word :=
  (shownView i a s &&& ~~~ openBits a s) ||| (BitVec.ofNat 32 (freeNat s) &&& openBits a s)

/-! ### Counters read low half first (R6, R69, R70, R382) -/

/-- The low half at `a` is that of a 64-bit counter (access code RL). -/
def isCounter (a : Nat) : Bool :=
  match targetOf a with
  | some (.block b off) =>
    (decide (b < 2) && (off == 0x18 || off == 0x20)) || (b == 5 && (off == 0x10 || off == 0x20)) ||
    (b == 6 && decide (0x1000 ≤ off ∧ off < 0x1400) && (off % 0x100 == 0x10 || off % 0x100 == 0x20))
  | _ => false

/-- The counter at `a` runs with no command of the model: network time, the air timer, and the count of a running
timer. -/
def isLive (a : Nat) (s : State) : Bool :=
  a == 0x40050010 || a == 0x40050020 ||
  (decide (0x40060000 ≤ a ∧ a < 0x40061400) && a % 0x100 == 0x10 && tmrRuns ((a - 0x40060000) / 0x100) s)

/-- A read of a counter's low half latches the high half for the reader; one of TIME_NT_LO also latches the air timer
of the same tick. `live` is the value of a counter that runs, and `air` that of the air timer. -/
def counterTake (i : Init) (a : Nat) (live air : Word64) (s : State) : Word × State :=
  let v := if isLive a s then live else rd64 a s
  let s1 := shadowPut i (a + 4) v.high s
  (v.low, if a = 0x40050010 then shadowPut i (a + 8) air.low (shadowPut i (a + 12) air.high s1) else s1)

/-! ### Reads with an effect of their own -/

/-- A read of a peripheral block's register that pops, claims or locks; none for every other register. -/
def blockTake (i : Init) (b off : Nat) (s : State) : Option (Word × State) :=
  match b with
  | 8 => if off < 0x1000 ∧ off % 0x100 = 0 then some (evtClaim (evtCoreAt i off) s) else none
  | 9 =>
    if off < 0x1000 ∨ 0x2000 ≤ off then none
    else if off % 0x40 = 0 then some (phLockRead ((off - 0x1000) / 0x40) (roomOf i s) s)
    else if off % 0x40 = 0x10 then some (phRecv i ((off - 0x1000) / 0x40) s)
    else none
  | 12 => if off = 0 then some (rngDataRead s) else none
  | 16 => if off = 0x10 then some (supPop i s) else none
  | 17 => if off = 0xC then some (hostInHdr s) else if off = 0x10 then some (hostInData s) else none
  | 18 => if off < 0x200 ∧ off % 0x100 = 4 then some (uartRead (off / 0x100) s) else none
  | 19 => if off < 0x200 ∧ off % 0x100 = 8 then some (i2cRead (off / 0x100) s) else none
  | _ => none

/-- The registers of a lock or a FIFO, and every other register. -/
def specialTake (i : Init) (a : Nat) (s : State) : Option (Word × State) :=
  match targetOf a with
  | some (.block b off) => blockTake i b off s
  | some (.cipherCommon off) => if off = 0xFC then some (cipLockRead (roomOf i s) s) else none
  | _ => none

/-- One register is read. -/
def regTake (i : Init) (a : Nat) (live air : Word64) (s : State) : Word × State :=
  match specialTake i a s with
  | some r => r
  | none =>
    if isCounter a then counterTake i a live air s
    else if isLive a s then (live.low, s)
    else (regView i a s, readClear a s)

/-! ### Snapshot groups (R68) -/

/-- A family of snapshot groups: `count` groups from `base` at a stride, each with its registers' offsets, the
lowest first. -/
structure SnapRow where
  base : Nat
  stride : Nat
  count : Nat
  offs : List Nat

/-- The snapshot groups of the register tables. -/
def snapRows : List SnapRow :=
  [⟨0x40000098, 0x10000, 2, [0, 4]⟩, ⟨0x4000010C, 0x10000, 2, [0, 4, 8, 12]⟩,
   ⟨0x40020008, 0x100, 2, [0, 4, 8]⟩, ⟨0x40020018, 0x100, 2, [0, 4, 8, 12, 16]⟩,
   ⟨0x40160040, 0, 1, [0, 4, 8, 12, 16, 20, 24, 28]⟩, ⟨0x40160060, 0, 1, [0, 4]⟩,
   ⟨0x50000048, 0x100, 256, [0, 4, 8, 12, 16, 20]⟩,
   ⟨0x40038040, 0x100, 64, [0, 4, 8, 12]⟩, ⟨0x40038050, 0x100, 64, [0, 4, 8, 12]⟩,
   ⟨0x40038060, 0x100, 64, [0, 4, 8, 12]⟩, ⟨0x40038070, 0x100, 64, [0, 4, 8, 12]⟩,
   ⟨0x30000010, 0x1000, 320, [0, 4, 8, 12]⟩,
   ⟨0x40050028, 0, 1, [0, 4, 8, 12]⟩, ⟨0x40050088, 0, 1, [0, 4, 8, 12, 16]⟩,
   ⟨0x70000000, 0, 1, [0, 4, 8, 12]⟩, ⟨0x4007000C, 0, 1, [0, 4]⟩,
   ⟨0x60000008, 0x1000, 65, [0, 12, 16, 20]⟩, ⟨0x400B8004, 0x100, 64, [0, 60, 64]⟩,
   ⟨0x70020008, 0, 1, [0, 4, 8]⟩, ⟨0x70030014, 0, 1, [0, 4]⟩, ⟨0x70030040, 8, 8, [0, 4]⟩,
   ⟨0x4010010C, 0x40, 4, [0, 4, 8, 12, 16]⟩, ⟨0x40100010, 0, 1, [0, 4, 8, 12]⟩,
   ⟨0x70030108, 0, 1, [0, 8, 12]⟩, ⟨0x40110004, 0, 1, [0, 4]⟩]

/-- The group of the row that register `a` leads: the addresses of its other registers. -/
def SnapRow.ledBy (r : SnapRow) (a : Nat) : Option (List Nat) :=
  if a < r.base then none
  else if (a = r.base) ∨ (r.stride ≠ 0 ∧ (a - r.base) % r.stride = 0 ∧ (a - r.base) / r.stride < r.count) then
    some (r.offs.tail.map fun o => a + o)
  else none

/-- The other registers of the snapshot group that `a` leads; none when `a` leads none. -/
def snapLed (a : Nat) : Option (List Nat) := snapRows.findSome? fun r => r.ledBy a

/-- CAL_SEC_HI as its capture holds it: the latched high half stands in it (R428). -/
def captureView (i : Init) (x : Nat) (s : State) : Word :=
  if x = 0x70000004 then bitsPut (regView i x s) 0 16 (fget calB CAL_SEC_HI.SEC_HI s) else regView i x s

/-- A read of a group's lowest register captures its others at the same instant. -/
def snapCapture (i : Init) (l : List Nat) (s : State) : State :=
  l.foldl (fun t x => capturePut i x (captureView i x s) t) s

/-- A register is read by `i`: its value, and the state after (R4, R6, R68–R70, R73). A captured register returns its
capture; SUP_REC0 captures its group itself, as the record it pops (R624). -/
def regLoad (i : Init) (a : Nat) (live air : Word64) (s : State) : Word × State :=
  match captureGet i a s with
  | some v => (if a / 0x1000 = 0x60040 ∧ cipHeld (roomOf i s) s = false then 0 else v, s)
  | none =>
    match snapLed a with
    | some l =>
      if a = 0x40100010 then regTake i a live air s
      else
        let r := regTake i a live air (snapCapture i l s)
        (r.1, drawFree r.2)
    | none =>
      let r := regTake i a live air s
      (r.1, if openBits a s = 0 then r.2 else drawFree r.2)

end Sys2Proof.Machine
end

