-- ==== Sys2Proof/Machine/Write.lean ====
section
/-!
DEFINITION. What a write to register space does (R4, R42, R59, R71, R72): the access codes, the staged low halves of
64-bit registers, the holding registers of the lantern, and for each block the registers whose write does more than
store its fields.
-/

namespace Sys2Proof.Machine

open Reg

/-! ### Plain registers (R4, R42) -/

/-- A register takes a write by its row's access codes: RW fields are set, W1C bits written 1 clear, W1S bits written
1 set, and nothing else changes; a place that holds no register ignores the write. -/
def plainStore (a : Nat) (data : Word) (s : State) : State :=
  match rowAt a with
  | none => s
  | some (r, _) =>
    let rw := BitVec.ofNat 32 r.rw
    let stored := (rd a s &&& ~~~ rw) ||| (data &&& rw)
    wr a ((stored &&& ~~~ (data &&& BitVec.ofNat 32 r.w1c)) ||| (data &&& BitVec.ofNat 32 r.w1s)) s

/-- A write refused for its value when `bad` holds: `refusal` records it and nothing else changes. -/
def checkedStore (bad : Bool) (refusal : State → State) (a : Nat) (data : Word) (s : State) : State :=
  if bad then refusal s else plainStore a data s

/-- The key of a command register. -/
def keyOf (data : Word) : Nat := bitsOf data 16 16

/-! ### Radio blocks -/

/-- FEA and FEB (R95, R106, R125, R126, R156); `free` gives the die temperature a write of FE_CMD starts from. -/
def feStore (i : Init) (fe : Fe) (off : Nat) (data : Word) (free : Nat) (s : State) : State :=
  let a := feB fe + off
  if 0x800 ≤ off ∧ off < 0x1000 then licTableWrite (off - 0x800) data s
  else match off with
  | 4 => feCtrlWrite fe data s
  | 8 => feCmdWrite fe data (BitVec.ofNat 16 free) s
  | 0x10 => feCentreWrite fe data s
  | 0x28 => feCtlmapWrite fe data s
  | 0x2C =>
    let q := signedOf 8 (bitsOf data 0 8)
    checkedStore (decide (q < -80) || decide ((if fe = .a then 88 else 56) < q)) (fset (feB fe) FE_ERR.RANGE 1) a data s
  | 0x30 => if fe = .b then s else plainStore a data s
  | 0x34 => feTuneWrite fe data s
  | 0x44 => if bitOf data 8 then radioReclaim s else s
  | 0x80 => checkedStore (decide (60 < bitsOf data 0 8)) (fset (feB fe) FE_ERR.RANGE 1) a data s
  | 0xC4 => licCmd i (keyOf data) (bitOf data 1) (bitOf data 0) s
  | 0x100 => fdxCfgWrite fe data s
  | 0x11C => fdxErrWrite i fe data s
  | _ => plainStore a data s

/-- CHZ (R180, R188); `free` gives the gain period in which a change of CHZ_CTRL takes effect. -/
def chzStore (off : Nat) (data : Word) (free : Nat) (s : State) : State :=
  let fe : Fe := if off < 0x100 then .a else .b
  if 0x800 ≤ off ∧ off < 0xC00 then laneGainWrite ((off - 0x800) / 4) data s
  else if 0x200 ≤ off then plainStore (0x40020000 + off) data s
  else match off % 0x100 with
  | 0 => lanesManual fe (chzCtrlWrite fe data (free % 2 ^ 48) s)
  | 4 => checkedStore (bitsOf data 20 4 == 0 || decide (bitsOf data 16 4 < 2) || decide (bitsOf data 8 5 < 6) ||
      bitsOf data 8 5 == 31) (fset (chzB fe) CHZ_ERR.RANGE 1) (0x40020000 + off) data s
  | 0x30 => checkedStore (bitsOf data 8 4 == 0 || decide (bitsOf data 0 8 < 3) || decide (40 < bitsOf data 0 8))
      (fset (chzB fe) CHZ_ERR.RANGE 1) (0x40020000 + off) data s
  | _ => plainStore (0x40020000 + off) data s

/-- A word of the neighbour entry window of INDEX (R343): it goes to the staging register and to the entry in use,
whose EXT_V and SHORT_V stay as inserted. -/
def nbrWindowWrite (off : Nat) (data : Word) (s : State) : State :=
  let v := (if off = 0x100 then data &&& 0xFFF#32 else if off = 0x108 then data &&& 0x1007F#32 else data).toNat
  let s1 := wr (linkB + off) (BitVec.ofNat 32 v) s
  match nbrGet s.link.nbrIndex s with
  | none => s1
  | some e =>
    nbrPut s.link.nbrIndex (some (
      if off = 0x100 then { e with flags := v % 256 + e.flags / 256 % 4 * 256 + v / 1024 * 1024 }
      else if off = 0x104 then { e with rxFc := v }
      else { e with fcSlot := v })) s1

/-- LINK (R311–R317, R342, R343); `free` gives the air tick at which a write of JOB_POST is accepted. -/
def linkStore (off : Nat) (data : Word) (free : Nat) (s : State) : State :=
  let a := linkB + off
  let range := linkErr LINK_ERR.RANGE
  if 0x8000 ≤ off ∧ off < 0xC000 then
    let r := (off - 0x8000) / 0x100
    match off % 0x100 with
    | 0x20 => jobPostWrite r data free s
    | 0x24 => checkedStore (decide (bitsOf data 16 16 < 768) || decide (5 < bitsOf data 12 4) ||
        decide (bitsOf data 8 4 < 3) || decide (8 < bitsOf data 8 4) || decide (8 < bitsOf data 4 4) ||
        decide (bitsOf data 8 4 < bitsOf data 4 4)) (fset (jobB r) PORT_ERR.RANGE 1) a data s
    | _ => plainStore a data s
  else if off = 0x100 ∨ off = 0x104 ∨ off = 0x108 then nbrWindowWrite off data s
  else match off with
  | 0x10 =>
    let q := signedOf 8 (bitsOf data 0 8)
    checkedStore (decide (bitsOf data 8 8 < 4) || decide (q < -80) || decide (88 < q)) range a data s
  | 0x18 => checkedStore (bitsOf data 0 16 == 0) range a data s
  | 0x1C => checkedStore (decide (bitsOf data 0 20 < 19200)) range a data s
  | 0x20 => nbrCmd data s
  | _ => plainStore a data s

/-- A lane page (R250, R259, R281, R287, R288): writes to a lane that no plan defines, and to a field that the lane's
mode does not have, are ignored. -/
def laneStore (n off : Nat) (data : Word) (s : State) : State :=
  let a := laneP n + off
  let phy := lanePhy n s
  let range := laneFlag n LANE_ERR.RANGE
  if laneDefined n s = false then s
  else match off with
  | 4 => checkedStore (decide (bitsOf data 8 4 < 3)) range a
      (if phyOfdm phy then data else (data &&& ~~~ 4#32) ||| (rd a s &&& 4#32)) s
  | 8 => laneCmd n (keyOf data) (bitOf data 0) (bitOf data 1) s
  | 0x18 => tuneChWrite n data s
  | 0x28 => moveSubmit n (keyOf data) (bitsOf data 0 8) s
  | 0x34 => checkedStore (decide (bitsOf data 8 12 < 16) || decide (bitsOf data 0 8 < 32) ||
      decide (224 < bitsOf data 0 8)) range a data s
  | 0x38 =>
    let kept : Word := if phyFsk phy && laneFec n s then 0 else if phyFsk phy then 0x700 else 0xF00
    checkedStore (phyFsk phy && laneFec n s && decide (2 ≤ bitsOf data 8 2)) range a
      ((data &&& ~~~ kept) ||| (rd a s &&& kept)) s
  | 0x3C =>
    if laneDfe n s = false then s
    else checkedStore (decide (40 < bitsOf data 8 8) || decide (bitsOf data 4 4 < 4) || decide (12 < bitsOf data 4 4) ||
      decide (bitsOf data 0 4 < 4) || decide (12 < bitsOf data 0 4)) range a data s
  | _ => plainStore a data s

/-- A queue window's registers (R356, R363). -/
def queStore32 (q off : Nat) (data : Word) (s : State) : State :=
  if off = 0x20 then queCmd q (keyOf data) (bitOf data 1) (bitOf data 0) s else plainStore (quePage q + off) data s

/-! ### Time and timers -/

/-- An interval-meter source code that names no source (R400). -/
def imSourceBad (c : Nat) : Bool := decide (2 ≤ c ∧ c < 64)

/-- TIME (R384, R390, R393, R400, R404); `free` gives the air tick of a TIME_CMD or IM_CMD write. -/
def timeStore (off : Nat) (data : Word) (free : Nat) (s : State) : State :=
  let a := timeB + off
  let range := timeErrf TIME_ERRF.RANGE
  match off with
  | 0 =>
    if bitsOf data 24 8 = 0 ∨ 10 < bitsOf data 20 4 then range s else timeSources (plainStore a data s)
  | 4 => checkedStore (bitsOf data 16 16 == 0 || bitsOf data 0 8 == 0) range a data s
  | 8 => checkedStore ((List.range 4).any fun k => bitsOf data (8 * k) 8 == 0) range a data s
  | 0x4C => timeCmd data free s
  | 0x58 =>
    if bitsOf data 8 6 = 0 ∨ 50 < bitsOf data 8 6 ∨ bitsOf data 4 2 = 3 then range s
    else
      let s1 := plainStore a data s
      timeSources (timePut { s1.time with
        ppsValid := s1.time.ppsValid && bitOf data 1
        ppsOut := s1.time.ppsOut && bitOf data 0 } s1)
  | 0x80 => checkedStore (bitsOf data 16 16 == 0 || imSourceBad (bitsOf data 0 7) || imSourceBad (bitsOf data 8 7))
      range a data s
  | 0x84 => imCmd data free s
  | _ => plainStore a data s

/-- TMR (R409–R417, R434): of a general timer a low register commits and a high one ignores writes; `free` gives the
count of a running timer. -/
def tmrStore (off : Nat) (data : Word) (free : Nat) (s : State) : State :=
  let t := off / 0x100
  if 20 ≤ t then s
  else match off % 0x100 with
  | 0 => tmrCtrl t data free s
  | 8 => if tmrLong t then s else tmrReloadCommit t data.toNat s
  | 0x18 => if tmrLong t then s else tmrCmpCommit t data.toNat s
  | 0xC => s
  | 0x1C => s
  | 0x28 => tmrCmd t data s
  | _ => plainStore (0x40060000 + off) data s

/-! ### House blocks -/

/-- LEDG (R442, R449, R453, R460). -/
def ledgStore (off : Nat) (data : Word) (s : State) : State :=
  let a := ledgB + off
  if off = 0 then
    let op := bitsOf data 12 4
    if op = 0 ∨ 8 ≤ op then fset ledgB LEDG_ERR.CMD 1 s
    else ledgCmd (keyOf data) op (bitsOf data 10 2) (bitsOf data 0 6)
      (roomCommand op (bitsOf data 10 2) (bitsOf data 0 6)) s
  else if 0x40 ≤ off ∧ off < 0x60 then waysWrite ((off - 0x40) / 8) (off % 8 == 4) data s
  else if 0x4000 ≤ off ∧ off < 0x8000 ∧ off % 0x100 = 0 then wdogKick ((off - 0x4000) / 0x100) (keyOf data) s
  else if 0x4000 ≤ off ∧ off < 0x8000 ∧ off % 0x100 = 4 then wdogCfg ((off - 0x4000) / 0x100) data s
  else plainStore a data s

/-- EVT (R457, R461). -/
def evtStore (i : Init) (off : Nat) (data : Word) (s : State) : State :=
  if 0x1000 ≤ off then s
  else match off % 0x100 with
  | 4 => evtDone (evtCoreAt i off) (bitsOf data 0 10) s
  | 8 => evtThresh (evtCoreAt i off) (bitsOf data 0 4) s
  | 0x10 => evtErrWrite (evtCoreAt i off) data s
  | _ => s

/-- PH (R464–R475). -/
def phStore (i : Init) (off : Nat) (data : Word) (s : State) : State :=
  let c := (off - 0x1000) / 0x40
  if off = 0 then phForce (keyOf data) (bitsOf data 0 6) s
  else if off < 0x1000 ∨ 0x2000 ≤ off then s
  else match off % 0x40 with
  | 0 => if bitOf data 31 then phReleaseWrite c (roomOf i s) s else s
  | 4 => phRetWrite i c data s
  | 8 => phSend i c data false s
  | 0xC => phSend i c data true s
  | 0x1C => if phRole c (roomOf i s) s = 0 then s else plainStore (phPage c + 0x1C) data s
  | _ => s

/-- CIP control (R500, R501, R508). -/
def cipCtlStore (off : Nat) (data : Word) (s : State) : State :=
  if off = 0 then (if bitsOf data 0 16 = 0 then s else plainStore cipCtl data s)
  else if off = 8 then cipForce (keyOf data) (bitOf data 0) s
  else plainStore (cipCtl + off) data s

/-- A page of the cipher engine, or the common context (R481–R507); the common context takes writes from its holder
alone (R499). -/
def cipherStore (i : Init) (n off : Nat) (data : Word) (s : State) : State :=
  let room := roomOf i s
  if off = 4 then
    cipCmdAs room n (keyOf data) (bitOf data 0) (bitOf data 1) (bitOf data 2) (bitOf data 3) (bitOf data 4) s
  else if off = 0xFC then (if n = 64 then cipLockRelease room (bitOf data 31) s else s)
  else if n = 64 ∧ cipHeld room s = false then s
  else cipWrite n off data s

/-- KEY (R509, R523, R526, R534). -/
def keyStore (off : Nat) (data : Word) (s : State) : State :=
  let a := keyB + off
  if off = 0xC then lifeCmd (keyOf data) (bitsOf data 0 2) s
  else if off = 0x1000 then pkCmd (keyOf data) (bitsOf data 0 2) s
  else if 0x1100 ≤ off ∧ off < 0x1200 ∧ fis keyB PK_STAT.BUSY s = true then s
  else if 0x8000 ≤ off ∧ off < 0xC000 ∧ off % 0x100 = 0 then
    kpCmd ((off - 0x8000) / 0x100) (keyOf data) (bitsOf data 12 4) (bitsOf data 8 2) (bitsOf data 6 2) (bitsOf data 4 2) s
  else if 0x8000 ≤ off ∧ off < 0xC000 ∧ 0x20 ≤ off % 0x100 ∧ off % 0x100 < 0x40 then wr a data s
  else plainStore a data s

/-- FLC (R544, R546, R551, R559). -/
def flcStore (i : Init) (off : Nat) (data : Word) (s : State) : State :=
  if off = 0 then flcCfgWrite data s
  else if off = 0x20 then flcSusp (keyOf data) (bitsOf data 8 1) (bitOf data 0) (bitOf data 1) s
  else if 0x8000 ≤ off ∧ off < 0xC000 ∧ off % 0x100 = 0x40 then
    fpCmd i ((off - 0x8000) / 0x100) (keyOf data) (bitsOf data 0 2) s
  else plainStore (flcB + off) data s

/-- UPD (R565, R577). -/
def updStore (off : Nat) (data : Word) (s : State) : State :=
  let a := updB + off
  if off = 0 then updCmd (keyOf data) (bitsOf data 8 4) (bitsOf data 0 6) s
  else if off = 0xC ∨ off = 0x10 then stgWrite a data 0xFFFFF000 s
  else if off = 0x2C then rcfgWrite data s
  else if off = 0x30 then rfreqWrite data s
  else if 0x400 ≤ off ∧ off < 0x420 then s
  else if 0x1000 ≤ off ∧ off < 0x1100 then stgWrite a data 0xFFFFFFFF s
  else plainStore a data s

/-- PWR (R582, R583, R592, R600). -/
def pwrStore (i : Init) (off : Nat) (data : Word) (s : State) : State :=
  let a := pwrB + off
  match off with
  | 0 => pwrModeWrite data s
  | 0xC => checkedStore (bitsOf data 8 8 == 0) (pwrErr PWR_ERR.RANGE) a data s
  | 0x10 => pwrGateWrite data s
  | 0x14 => pwrVcfgWrite data s
  | 0x1C => pwrLcack i data s
  | 0x20 =>
    let s1 := plainStore a data s
    if fis pwrB PWR_ERR.VFAIL s && !fis pwrB PWR_ERR.VFAIL s1 then vfailCleared s1 else s1
  | _ => plainStore a data s

/-- SUP (R624). -/
def supStore (off : Nat) (data : Word) (s : State) : State :=
  let a := supB + off
  let range := supErr SUP_ERR.RANGE
  if off < 0x100 ∨ 0x200 ≤ off then plainStore a data s
  else match off % 0x40 with
  | 0 => checkedStore (decide (bitsOf data 20 12 < 64) || bitsOf data 12 8 == 0 || bitsOf data 4 8 == 0) range a data s
  | 4 => checkedStore (bitsOf data 0 23 == 0) range a data s
  | 8 => checkedStore (decide (bitsOf data 24 8 ≤ bitsOf data 16 8) || decide (bitsOf data 16 8 ≤ bitsOf data 8 8) ||
      bitsOf data 0 8 == 0) range a data s
  | _ => plainStore a data s

/-- HOST (R634, R650). -/
def hostStore (off : Nat) (data : Word) (s : State) : State :=
  match off with
  | 0 => hostCtrlWrite data s
  | 0x14 => hostOutData data s
  | 0x18 => hostOutCmd data s
  | _ => plainStore (hostB + off) data s

/-- UART (R636, R637, R651). -/
def uartStore (off : Nat) (data : Word) (s : State) : State :=
  if off = 0xF00 then serialOwn 0x40120F00 (fun k => uartPut k {}) data s
  else if 0x200 ≤ off then s
  else match off % 0x100 with
  | 0 => uartCfgWrite (off / 0x100) data s
  | 4 => uartWrite (off / 0x100) data s
  | 0x10 => uartThWrite (off / 0x100) data s
  | _ => plainStore (0x40120000 + off) data s

/-- I2C (R639, R640, R651). -/
def i2cStore (off : Nat) (data : Word) (s : State) : State :=
  if off = 0xF00 then serialOwn 0x40130F00 (fun k => i2cPut k {}) data s
  else if 0x200 ≤ off then s
  else match off % 0x100 with
  | 0 => i2cCfgWrite (off / 0x100) data s
  | 4 => i2cPush (off / 0x100) data s
  | _ => plainStore (0x40130000 + off) data s

/-- GPIO (R642–R644, R652): a room reaches its own pins. -/
def gpioStore (i : Init) (off : Nat) (data : Word) (s : State) : State :=
  let room := roomOf i s
  if off < 0x20 then gpioOwn (off / 4) data s
  else if off = 0x20 then gpioHold data s
  else if 0x100 ≤ off ∧ off < 0x200 then gpioPinWrite room ((off - 0x100) / 4) data s
  else if 0x400 ≤ off ∧ off < 0x440 then
    let b := (off - 0x400) / 0x10
    match off % 0x10 with
    | 4 => gpioOut b (gpioMask room b s) data s
    | 8 => gpioOut b (gpioMask room b s &&& data) 0xFFFF s
    | 0xC => gpioOut b (gpioMask room b s &&& data) 0 s
    | _ => s
  else if 0x500 ≤ off ∧ off < 0x510 then plainStore (gpioB + off) (data &&& gpioMask room ((off - 0x500) / 4) s) s
  else s

/-- Halted harts run on. -/
def hartsResume (s : State) : State :=
  (List.range 7).foldl (fun t k => coreSet k { coreGet k t with halted := false } t) s

/-- A Steward write of DBG_LOCK (R648): an unlock ends, and harts then halted are resumed. -/
def dbgRelock (key : Nat) (s : State) : State :=
  if key = 0x4447 ∧ fget 0x40150000 DBG_STAT.STATE s = 3 then
    hartsResume (fset 0x40150000 DBG_STAT.SCOPE 0 (fset 0x40150000 DBG_STAT.STATE 1 s))
  else s

/-! ### A store to a register by its address -/

/-- A peripheral block of the block table. -/
def blockStore (i : Init) (b off : Nat) (data : Word) (free : Nat) (s : State) : State :=
  match b with
  | 0 => feStore i .a off data free s
  | 1 => feStore i .b off data free s
  | 2 => chzStore off data free s
  | 3 => linkStore off data free s
  | 4 => if off = 8 then qcFlush (keyOf data) (bitsOf data 0 9) s else plainStore (0x40040000 + off) data s
  | 5 => timeStore off data free s
  | 6 => tmrStore off data free s
  | 7 => ledgStore off data s
  | 8 => evtStore i off data s
  | 9 => phStore i off data s
  | 10 => cipCtlStore off data s
  | 11 => keyStore off data s
  | 12 => if off = 8 then rngCmd (keyOf data) (bitOf data 0) s else plainStore (rngB + off) data s
  | 13 => flcStore i off data s
  | 14 => updStore off data s
  | 15 => pwrStore i off data s
  | 16 => supStore off data s
  | 17 => hostStore off data s
  | 18 => uartStore off data s
  | 19 => i2cStore off data s
  | 20 => gpioStore i off data s
  | 21 => if off = 4 then dbgRelock (keyOf data) s else plainStore (0x40150000 + off) data s
  | _ => if off = 4 then fabCmd data s else plainStore (fabB + off) data s

/-! ### Staged pairs (R71) -/

/-- The low register of a writable 64-bit register whose half is staged: LINK_EXT, TIME_MEAS_AT, TIME_SET, RELOAD and
CMP of the long timers, LANE_TUNE_IDX, LANE_MOVE_IDX and CAL_NTOFS. -/
def isStagedLow (a : Nat) : Bool :=
  a == 0x40030008 || a == 0x4005003C || a == 0x40050044 || a == 0x70000018 ||
  (decide (0x40061000 ≤ a ∧ a < 0x40061400) && (a % 0x100 == 8 || a % 0x100 == 0x18)) ||
  (decide (0x50000000 ≤ a ∧ a < 0x50010000) && (a % 0x100 == 0x20 || a % 0x100 == 0x2C))

/-- Both halves take effect, by the low register's address. -/
def pairCommit (a : Nat) (v : Word64) (s : State) : State :=
  if 0x40061000 ≤ a ∧ a < 0x40061400 then
    let t := (a - 0x40060000) / 0x100
    if a % 0x100 = 8 then tmrReloadCommit t v.toNat s else tmrCmpCommit t v.toNat s
  else if 0x50000000 ≤ a ∧ a < 0x50010000 then
    if laneDefined ((a - 0x50000000) / 0x100) s then wr48 a (v.toNat % 2 ^ 48) s else s
  else wr64 a v s

/-- A write of a high half commits the value staged with it. -/
def highCommit (i : Init) (a : Nat) (data : Word) (s : State) : State :=
  let r := stagedTake i (a - 4) data s
  pairCommit (a - 4) r.1 r.2

/-! ### Lantern registers (R59) -/

/-- The initiator with a number. -/
def initAt (n : Nat) : Init :=
  if n = 0 then .steward else if n < 3 then .linkCore (BitVec.ofNat 1 (n - 1))
  else if n < 7 then .appCore (BitVec.ofNat 2 (n - 3)) else .debug

/-- A lantern write takes effect (R378, R424–R435, R536, R601, R663). -/
def lanternEffect (i : Init) (a : Nat) (data : Word) (s : State) : State :=
  if isStagedLow a then stagedPut i a data s
  else if 4 ≤ a ∧ isStagedLow (a - 4) = true then highCommit i a data s
  else match a with
  | 0x70000020 => calCmd data s
  | 0x70000028 => calCfgWrite data s
  | 0x7000002C => almTWrite a data s
  | 0x70000034 => almTWrite a data s
  | 0x70000030 => almCWrite a data s
  | 0x70000038 => almCWrite a data s
  | 0x70000040 => pwrOnWrite data s
  | 0x70010000 => knkCtrlWrite data s
  | 0x70010004 => knkConfigWrite false data s
  | 0x70010008 => knkConfigWrite true data s
  | 0x7001000C => knkAddrWrite data s
  | 0x70020000 => tampCfgWrite (i == .steward) data s
  | 0x70020004 => tampLoopWrite data s
  | 0x70030000 => checkedStore (bitsOf data 20 12 == 0 || decide (bitsOf data 0 7 < 8) ||
      decide (0x78 ≤ bitsOf data 0 7)) lanternRange a data s
  | 0x70030100 => checkedStore (bitsOf data 8 8 == 0) lanternRange a data s
  | 0x70030104 => checkedStore (decide (bitsOf data 16 11 < 100) || decide (1700 < bitsOf data 16 11) ||
      decide (bitsOf data 0 11 < 100) || decide (1700 < bitsOf data 0 11)) lanternRange a data s
  | 0x70030308 => rstCmd data s
  | 0x7003030C => checkedStore (decide (10 ≤ bitsOf data 0 4)) lanternRange a data s
  | _ => plainStore a data s

/-- The write a lantern register's holding register holds. -/
def heldGet (a : Nat) (s : State) : Option (Nat × Word) := tget (fun _ => none) s.bus.held a

/-- Set it. -/
def heldPut (a : Nat) (v : Option (Nat × Word)) (s : State) : State :=
  { s with bus := { s.bus with held := tset (fun _ => none) s.bus.held a v } }

/-- A transaction waits, and is to be made again. -/
def stall (s : State) : State := { s with bus := { s.bus with resp := .wait } }

/-- A write of a lantern register: it is acknowledged once it sits in the holding register; a second write while one
is held stalls its writer. -/
def lanternStore (i : Init) (a : Nat) (data : Word) (s : State) : State :=
  match heldGet a s with
  | some _ => stall s
  | none => acknowledge (heldPut a (some (i.num, data)) s)

/-- A held write takes effect in the lantern domain. -/
def lanternTake (a : Nat) (s : State) : State :=
  match heldGet a s with
  | some (n, data) => lanternEffect (initAt n) a data (heldPut a none s)
  | none => s

/-- The effect of an admitted write outside the lantern domain. -/
def targetStore (i : Init) (a : Nat) (data : Word) (s : State) : State :=
  if isStagedLow a then stagedPut i a data s
  else if 4 ≤ a ∧ isStagedLow (a - 4) = true then highCommit i a data s
  else
    let free := freeNat s
    match targetOf a with
    | some (.lanePage n off) => laneStore n off data s
    | some (.tile _ _) => fset fabB FAB_ERR.WRITE 1 s
    | some (.queueWindow q off) => queStore32 q off data s
    | some (.cipherPage n off) => cipherStore i n off data s
    | some (.cipherCommon off) => cipherStore i 64 off data s
    | some (.block b off) => blockStore i b off data free (drawFree s)
    | _ => s

/-- A register is written by `i`, with its acknowledgement. -/
def regStore (i : Init) (a : Nat) (data : Word) (s : State) : State :=
  match targetOf a with
  | some (.lantern _ _) => lanternStore i a data s
  | _ => acknowledge (targetStore i a data s)

end Sys2Proof.Machine
end

