-- ==== Sys2Proof/Machine/Bus.lean ====
section
/-!
DEFINITION. Transactions (R39, R439–R442, R446, R447): register reads and writes through the door check, loads,
stores, atomics and fetches of the memories with error correction and parity, and the application cores' caches.
-/

namespace Sys2Proof.Machine

open Reg

/-! ### Register transactions -/

/-- A 64-bit value that stays open. -/
def freeWord64 (s : State) : Word64 := BitVec.ofNat 64 (freeNat s)

/-- The address lies in register space, or outside every range. -/
def registerAt (a : Nat) : Bool :=
  match targetOf a with
  | some t => t.isRegister
  | none => true

/-- A 32-bit load from register space; a counter that runs with no command of the model shows a free value. -/
def regLoadFree (i : Init) (a : Nat) (s : State) : Word × State :=
  regLoad i a (freeWord64 s) (freeWord64 (drawFree s)) (drawFree (drawFree s))

/-- A door-checked register load; an address of a memory is no register. -/
def busLoad (i : Init) (a : Nat) (f : State → Word × State) (s : State) : State :=
  if registerAt a then doorLoad i a f s else s

/-- A door-checked register store, which answers for itself. -/
def busStore (i : Init) (a : Nat) (data : Word) (s : State) : State :=
  if registerAt a then doorAccess i a 4 .store (regStore i a data) s else s

/-! ### Reads of the memories -/

/-- What a read of a memory met. -/
inductive MemRead where
  /-- the bank is busy: the read waits (R545) -/
  | wait
  /-- the read is refused with a cause of R693 -/
  | refused (cause : Nat)
  | got (bytes : List Byte)
  deriving DecidableEq, Repr

/-- An admitted read of `n` octets of a memory (R362, R541, R545, R555). -/
def memRead (a n : Nat) (ecc : EccSeen) (s : State) : MemRead × State :=
  match targetOf a with
  | some .flash =>
    let r := flashRead a s
    if r.1 = false ∨ keyUnitBusy (bankOf a) s = true then (.wait, r.2)
    else
      let t := flashEcc a ecc r.2
      match ecc with
      | .uncorrectable _ => (.refused causeParity, drawFree t)
      | _ => (.got (flashBytes a n t), drawFree (flashBuffer a t))
  | some .queueMemory =>
    (.got (leBytes n (eccWord (BitVec.ofNat 64 (memNat a 8 s)) ecc).toNat), queEcc ((a - 0x38000000) / 8) ecc s)
  | _ => (.got (memBytes a n s), s)

/-- A door-checked read; data that fails parity is answered as a refusal (R39). -/
def readChecked (i : Init) (a n : Nat) (k : Access) (parityOk : Bool) (ecc : EccSeen) (s : State) : MemRead × State :=
  match doorCheck i a n k s with
  | some c => (.refused c, s)
  | none =>
    let r := memRead a n ecc s
    match r.1, parityOk with
    | .got _, false => (.refused causeParity, r.2)
    | _, _ => r

/-! ### Stores and reservations -/

/-- A store by initiator number `k` ends the reservations of other cores it overlaps (R439). -/
def reservesEnd (k a n : Nat) (s : State) : State :=
  (List.range 7).foldl (fun t c =>
    match (coreGet c t).reserved with
    | some x => if c ≠ k ∧ x < a + n ∧ a < x + 8 then coreSet c { coreGet c t with reserved := none } t else t
    | none => t) s

/-- An admitted store to a memory (R540). -/
def memStore (i : Init) (a : Nat) (l : List Byte) (s : State) : State :=
  reservesEnd i.num a l.length (storeBytes a l s)

/-! ### The caches of the application cores (R440, R442) -/

/-- The ways of core `c` that room `r` owns. -/
def waysOf (c r : Nat) (s : State) : List Nat := (List.range 8).filter fun w => wayOwner c w s == some r

/-- The set of a line: 64 sets of 64 octets in each way of 4 KiB. -/
def lineSet (a : Nat) : Nat := a / 64 % 64

/-- The line that holds address `a`, in a way of the resident room. -/
def cacheFind (c r : Nat) (code : Bool) (a : Nat) (s : State) : Option CacheLine :=
  s.rooms.lines.find? fun l =>
    l.core == c && l.code == code && l.base == a / 64 * 64 && wayOwner c l.way s == some r

/-- Set a line's octets; it is dirty. -/
def linePatch (l : CacheLine) (a : Nat) (bytes : List Byte) (s : State) : State :=
  let o := a - l.base
  let new := { l with dirty := true, bytes := l.bytes.take o ++ bytes ++ l.bytes.drop (o + bytes.length) }
  { s with rooms := { s.rooms with lines := s.rooms.lines.map fun x => if x = l then new else x } }

/-- A refill goes into a way of the room; which one stays open. The line it displaces is written back first. -/
def lineInsert (c r : Nat) (code : Bool) (base : Nat) (bytes : List Byte) (s : State) : State :=
  let ws := waysOf c r s
  let way := ws.getD (freeNat s % ws.length) 0
  let out (l : CacheLine) : Bool := l.core == c && l.code == code && l.way == way && lineSet l.base == lineSet base
  let s1 := dropLines out (cleanLines out (drawFree s))
  { s1 with rooms := { s1.rooms with lines := s1.rooms.lines ++ [⟨c, way, code, base, false, bytes⟩] } }

/-- A read through the cache, inside one line: a hit, or a refill checked as a read of its whole line. -/
def cacheRead (c r : Nat) (k : Access) (a n : Nat) (parityOk : Bool) (ecc : EccSeen) (s : State) : MemRead × State :=
  let code := k == .fetch
  let base := a / 64 * 64
  match cacheFind c r code a s with
  | some l => (.got ((l.bytes.drop (a - base)).take n), s)
  | none =>
    let q := readChecked (appInit c) base 64 (if code then .fetch else .load) parityOk ecc s
    match q.1 with
    | .got bytes => (.got ((bytes.drop (a - base)).take n), lineInsert c r code base bytes q.2)
    | x => (x, q.2)

/-- A store through the cache, inside one line (write-allocate). -/
def cacheWrite (c r a : Nat) (l : List Byte) (parityOk : Bool) (ecc : EccSeen) (s : State) : MemRead × State :=
  let q := cacheRead c r .load a l.length parityOk ecc s
  match q.1, cacheFind c r false a q.2 with
  | .got x, some line => (.got x, linePatch line a l q.2)
  | x, _ => (x, q.2)

/-- Core `c` with resident room `r` reaches the access through its caches: SRAM or flash, and `r` owns a way. -/
def cachedFor (i : Init) (a : Nat) (s : State) : Option (Nat × Nat) :=
  match i, targetOf a with
  | .appCore c, some (.sram _) => (residentOn c.toNat s).bind fun r =>
      if (waysOf c.toNat r s).isEmpty then none else some (c.toNat, r)
  | .appCore c, some .flash => (residentOn c.toNat s).bind fun r =>
      if (waysOf c.toNat r s).isEmpty then none else some (c.toNat, r)
  | _, _ => none

/-! ### Accesses -/

/-- The octets of an access that lie in its first line. -/
def firstPart (a n : Nat) : Nat := min n (64 - a % 64)

/-- A read of a memory by `i`: through the caches line by line, or directly. -/
def readAccess (i : Init) (k : Access) (a n : Nat) (parityOk : Bool) (ecc : EccSeen) (s : State) : MemRead × State :=
  match cachedFor i a s with
  | none => readChecked i a n k parityOk ecc s
  | some (c, r) =>
    let m := firstPart a n
    let q := cacheRead c r k a m parityOk ecc s
    if m = n then q
    else match q.1 with
    | .got l =>
      let p := cacheRead c r k (a + m) (n - m) true .clean q.2
      match p.1 with
      | .got l2 => (.got (l ++ l2), p.2)
      | x => (x, p.2)
    | x => (x, q.2)

/-- A store to a memory by `i`. Data that fails parity leaves the target unchanged (R39). -/
def writeAccess (i : Init) (a : Nat) (l : List Byte) (parityOk : Bool) (ecc : EccSeen) (s : State) : MemRead × State :=
  match cachedFor i a s with
  | none =>
    match doorCheck i a l.length .store s with
    | some c => (.refused c, s)
    | none => if parityOk then (.got [], memStore i a l s) else (.refused causeParity, s)
  | some (c, r) =>
    let m := firstPart a l.length
    let q := cacheWrite c r a (l.take m) parityOk ecc s
    if m = l.length then q
    else match q.1 with
    | .got _ => cacheWrite c r (a + m) (l.drop m) true .clean q.2
    | x => (x, q.2)

/-- The answer of a read or store to its initiator. -/
def answerRead (i : Init) (k : Access) (a : Nat) (r : MemRead × State) : State :=
  match r.1 with
  | .wait => stall r.2
  | .refused c => refuse i a k c r.2
  | .got l => respond (BitVec.ofNat 64 (ofLeBytes l)) r.2

/-- The answer of a store. -/
def answerWrite (i : Init) (a : Nat) (r : MemRead × State) : State :=
  match r.1 with
  | .wait => stall r.2
  | .refused c => refuse i a .store c r.2
  | .got _ => acknowledge r.2

/-- A load of register space: 32 bits, or the queue window's 64-bit pop (R65, R350). -/
def regRead (i : Init) (a n : Nat) (parityOk : Bool) (ecc : EccSeen) (s : State) : State :=
  match doorCheck i a n .load s with
  | some c => refuse i a .load c s
  | none =>
    let r : Word64 × State := match targetOf a with
      | some (.queueWindow q 0) => quePop q ecc s
      | _ => let x := regLoadFree i a s; (x.1.setWidth 64, x.2)
    if parityOk then respond r.1 r.2 else refuse i a .load causeParity r.2

/-- FP_DATA whose write fails parity marks its port's staging (R547). -/
def stagingBad (a : Nat) (s : State) : State :=
  if 0x400D8000 ≤ a ∧ a < 0x400DC000 ∧ 0x20 ≤ a % 0x100 ∧ a % 0x100 < 0x40 then
    fset (fpPage ((a - 0x400D8000) / 0x100)) FP_STAT.STG_BAD 1 s
  else s

/-- A store to register space: 32 bits, or the queue window's 64-bit push. -/
def regWriteAccess (i : Init) (a n : Nat) (data : Word64) (parityOk : Bool) (s : State) : State :=
  match doorCheck i a n .store s with
  | some c => refuse i a .store c s
  | none =>
    if parityOk then
      match targetOf a with
      | some (.queueWindow q 0) => acknowledge (quePush q data s)
      | _ => regStore i a data.low s
    else refuse i a .store causeParity (stagingBad a s)

/-- A load. -/
def loadAccess (i : Init) (a n : Nat) (parityOk : Bool) (ecc : EccSeen) (s : State) : State :=
  if registerAt a then regRead i a n parityOk ecc s
  else answerRead i .load a (readAccess i .load a n parityOk ecc s)

/-- A store. -/
def storeAccess (i : Init) (a n : Nat) (data : Word64) (parityOk : Bool) (ecc : EccSeen) (s : State) : State :=
  if registerAt a then regWriteAccess i a n data parityOk s
  else answerWrite i a (writeAccess i a (leBytes n data.toNat) parityOk ecc s)

/-- An instruction fetch; register space never serves one (R446). -/
def fetchAccess (i : Init) (a n : Nat) (parityOk : Bool) (ecc : EccSeen) (s : State) : State :=
  if registerAt a then refuse i a .fetch ((doorCheck i a n .fetch s).getD causeRights) s
  else answerRead i .fetch a (readAccess i .fetch a n parityOk ecc s)

/-! ### Atomics (R439) -/

/-- Why an atomic access is refused: as a store is, or anywhere but SRAM in a window that grants R and W. -/
def atomicDeny (i : Init) (a n : Nat) (s : State) : Option Nat :=
  match doorCheck i a n .store s with
  | some c => some c
  | none =>
    match targetOf a with
    | some (.sram _) => windowDeny .load a n (roomOf i s) s
    | _ => some causeRights

/-- The operation of an AMO on values of `w` bits (RISC-V A). -/
def amoResult (op : AmoOp) (w : Nat) (x y : Nat) : Nat :=
  let a := x % 2 ^ w
  let b := y % 2 ^ w
  match op with
  | .swap => b
  | .add => (a + b) % 2 ^ w
  | .xor => a ^^^ b
  | .and => a &&& b
  | .or => a ||| b
  | .min => if signedOf w a ≤ signedOf w b then a else b
  | .max => if signedOf w a ≤ signedOf w b then b else a
  | .minu => min a b
  | .maxu => max a b

/-- A core takes a synchronous trap of its own. -/
def coreTrap (i : Init) (cause tval : Nat) (s : State) : State :=
  match initCore i with
  | some c => coreSet c (trapEntry cause false tval (coreGet c s)) s
  | none => s

/-- An atomic access of `n` octets whose effect on the value read is `f`: processors without the A extension take an
illegal-instruction exception, and a misaligned address its own exception. -/
def atomicAccess (i : Init) (a n : Nat) (misaligned : Nat) (parityOk : Bool) (ecc : EccSeen)
    (f : Nat → State → State) (s : State) : State :=
  match i with
  | .appCore _ =>
    if a % n ≠ 0 then coreTrap i misaligned a s
    else match atomicDeny i a n s with
    | some c => refuse i a .store c s
    | none =>
      let r := readAccess i .load a n parityOk ecc s
      match r.1 with
      | .wait => stall r.2
      | .refused c => refuse i a .store c r.2
      | .got l => f (ofLeBytes l) r.2
  | .debug => s
  | _ => coreTrap i 2 (freeNat s) (drawFree s)

/-- A core's reservation. -/
def reserve (i : Init) (v : Option Nat) (s : State) : State := coreSet i.num { coreGet i.num s with reserved := v } s

/-- LR: the value read, and a reservation of its address. -/
def lrAccess (i : Init) (a n : Nat) (parityOk : Bool) (ecc : EccSeen) (s : State) : State :=
  atomicAccess i a n 4 parityOk ecc (fun x t => respond (BitVec.ofNat 64 x) (reserve i (some a) t)) s

/-- SC: stores and answers 0 while the reservation holds, else answers 1; the reservation ends. -/
def scAccess (i : Init) (a n : Nat) (data : Word64) (parityOk : Bool) (ecc : EccSeen) (s : State) : State :=
  atomicAccess i a n 6 parityOk ecc (fun _ t =>
    if (coreGet i.num t).reserved = some a then
      let r := writeAccess i a (leBytes n data.toNat) true .clean (reserve i none t)
      match r.1 with
      | .got _ => respond 0 r.2
      | _ => answerWrite i a r
    else respond 1 (reserve i none t)) s

/-- An AMO answers the old value. -/
def amoAccess (i : Init) (a n : Nat) (op : AmoOp) (data : Word64) (parityOk : Bool) (ecc : EccSeen) (s : State) : State :=
  atomicAccess i a n 6 parityOk ecc (fun x t =>
    let r := writeAccess i a (leBytes n (amoResult op (8 * n) x data.toNat)) true .clean t
    match r.1 with
    | .got _ => respond (BitVec.ofNat 64 x) r.2
    | _ => answerWrite i a r) s

/-- The octets of a 32-bit or 64-bit atomic. -/
def wideOctets (wide : Bool) : Nat := if wide then 8 else 4

/-- A transaction of any kind. -/
def memAccess (i : Init) (op : MemOp) (a : Nat) (parityOk : Bool) (ecc : EccSeen) (s : State) : State :=
  match op with
  | .load size => loadAccess i a (2 ^ size.toNat) parityOk ecc s
  | .store size data => storeAccess i a (2 ^ size.toNat) data parityOk ecc s
  | .lr wide => lrAccess i a (wideOctets wide) parityOk ecc s
  | .sc wide data => scAccess i a (wideOctets wide) data parityOk ecc s
  | .amo wide op data => amoAccess i a (wideOctets wide) op data parityOk ecc s
  | .fetch wide => fetchAccess i a (if wide then 4 else 2) parityOk ecc s

/-! ### The commands -/

/-- REGISTER_WRITE (R4). -/
def execRegisterWrite (i : Init) (addr : Nat) (data : Word) (s : State) : Host.Outcome State Fault Refusal :=
  .next (busStore i addr data s)

/-- MEMORY_ACCESS (R446). -/
def execMemoryAccess (i : Init) (op : MemOp) (addr : Nat) (parityOk : Bool) (ecc : EccSeen) (s : State) :
    Host.Outcome State Fault Refusal :=
  .next (if issues i s then memAccess i op addr parityOk ecc s else s)

/-- COUNTER_LOW_READ (R6): `live` is the value of the counter where it runs with no command of the model, and `air`
that of the air timer at the same tick. -/
def execCounterLowRead (i : Init) (addr : Nat) (live air : Word64) (s : State) : Host.Outcome State Fault Refusal :=
  .next (busLoad i addr (regLoad i addr live air) s)

/-- SNAPSHOT_CAPTURE (R68). -/
def execSnapshotCapture (i : Init) (addr : Nat) (s : State) : Host.Outcome State Fault Refusal :=
  .next (busLoad i addr (regLoadFree i addr) s)

/-- STAGED_LOW_WRITE (R71). -/
def execStagedLowWrite (i : Init) (addr : Nat) (data : Word) (s : State) : Host.Outcome State Fault Refusal :=
  .next (busStore i addr data s)

/-- HIGH_HALF_COMMIT (R71). -/
def execHighHalfCommit (i : Init) (addr : Nat) (data : Word) (s : State) : Host.Outcome State Fault Refusal :=
  .next (busStore i addr data s)

/-- READ_TO_CLEAR (R73). -/
def execReadToClear (i : Init) (addr : Nat) (s : State) : Host.Outcome State Fault Refusal :=
  .next (busLoad i addr (regLoadFree i addr) s)

/-- LANTERN_WRITE_EFFECT (R59). -/
def execLanternWriteEffect (addr : Nat) (s : State) : Host.Outcome State Fault Refusal :=
  .next (lanternTake addr s)

end Sys2Proof.Machine
end

