-- ==== Sys2Proof/Machine/Debug.lean ====
section
/-!
DEFINITION. Debug (R645–R648): the TAP's instruction register, the signed challenge, and the debug module of RISC-V
external debug 0.13.2 with abstract register access, a program buffer and system bus access.
-/

namespace Sys2Proof.Machine

open Reg

/-- The DBG block. -/
def dbgB : Nat := 0x40150000

/-- DBG_STAT.STATE: 0 OPEN, 1 LOCKED, 2 CHECKING, 3 UNLOCKED. -/
def dbgState (s : State) : Nat := fget dbgB DBG_STAT.STATE s

/-- Bit `k` of the scope in force; OPEN holds every hart, the system bus as room 0 and EXTEST (R647). -/
def inScope (k : Nat) (s : State) : Bool :=
  dbgState s == 0 || (dbgState s == 3 && (fget dbgB DBG_STAT.SCOPE s).testBit k)

/-! ### The TAP (R645) -/

/-- The instruction a code selects: the codes of R645, everything else BYPASS. While PD79 is off only IDCODE and
BYPASS are answered, and EXTEST needs its scope. -/
def irOf (code : Nat) (s : State) : Nat :=
  if code = 0x01 then 0x01
  else if pdOn 79 s = false then 0x1F
  else if code = 0x00 then (if inScope 14 s then 0x00 else 0x1F)
  else if code = 0x02 ∨ code = 0x10 ∨ code = 0x11 ∨ code = 0x12 then code
  else 0x1F

/-- The instruction register takes `code`; a TAP reset selects IDCODE. -/
def irUpdate (code : Nat) (tapReset : Bool) (s : State) : State :=
  { s with dbg := { s.dbg with ir := if tapReset then 0x01 else irOf code s } }

/-- The debug port answers under instruction `code`. -/
def irIs (code : Nat) (s : State) : Bool := pdOn 79 s && s.dbg.ir == code

/-! ### The challenge (R647, R648) -/

/-- The octets a capture shows: UNIT_ID, the nonce and the state; the nonce is open while none is outstanding. -/
def chalOctets (s : State) : List Byte :=
  unitId s ++ s.dbg.nonce.getD (freeBytes 32 s) ++ [BitVec.ofNat 8 (dbgState s)]

/-- A capture in LOCKED with no nonce outstanding asks the entropy source for one. -/
def chalWant (s : State) : State :=
  if dbgState s = 1 ∧ s.dbg.nonce = none then rngRun { s with dbg := { s.dbg with wants := true } } else s

/-- DBGCHAL captures. -/
def chalCapture (s : State) : State :=
  let t := chalWant s
  let u := if t.dbg.nonce = none then drawFree t else t
  { u with dbg := { u.dbg with chal := chalOctets t } }

/-- DBGCHAL updates: in LOCKED with a nonce outstanding the check starts, and the nonce is spent. -/
def chalUpdate (scope : Word) (r sig : Nat) (s : State) : State :=
  match s.dbg.nonce with
  | some n =>
    if dbgState s = 1 ∧ s.dbg.holdoff = false then
      fset dbgB DBG_STAT.STATE 2 { s with dbg := { s.dbg with nonce := none, check := some (n, scope, r, sig) } }
    else s
  | none => s

/-- The message under the signature; SCOPE is least significant octet first. -/
def chalMessage (n : List Byte) (scope : Word) (s : State) : List Byte :=
  [0x51, 0x44, 0x42, 0x47] ++ unitId s ++ n ++ leBytes 4 scope.toNat

/-- The signature verifies under OWNER_PUB. -/
def chalValid (n : List Byte) (scope : Word) (r sig : Nat) (s : State) : Bool :=
  let key := rdBytes (keyB + 0x100) 16 s
  ecdsaVerify (ofBeBytes (key.take 32)) (ofBeBytes (key.drop 32)) (ofBeBytes (sha256 (chalMessage n scope s))) r sig == 0

/-- The check ends. -/
def chalDone (s : State) : State :=
  match s.dbg.check with
  | none => s
  | some (n, scope, r, sig) =>
    if dbgState s ≠ 2 ∨ fis keyB PK_STAT.BUSY s = true then s
    else
      let t := { s with dbg := { s.dbg with check := none } }
      if chalValid n scope r sig s then
        raiseEvt 976 (fset dbgB DBG_STAT.SCOPE (bitsOf scope 0 15) (fset dbgB DBG_STAT.STATE 3 t))
      else
        raiseEvt 977 (fset dbgB DBG_STAT.STATE 1 { t with dbg := { t.dbg with holdoff := true } })

/-! ### The registers of the debug module -/

/-- A word of the debug module; what is not kept is 0. Keys 0x80 + h, 0x90 + h and 0xA0 + h hold havereset,
resumeack and dcsr of hart h. -/
def dmReset (k : Nat) : Word := if 0x80 ≤ k ∧ k < 0x87 then 1 else if k = 0x38 then 0x40000 else 0

def dmGet (k : Nat) (s : State) : Word := tget dmReset s.dbg.dm k

def dmPut (k : Nat) (v : Word) (s : State) : State := { s with dbg := { s.dbg with dm := tset dmReset s.dbg.dm k v } }

/-- What a hart looks like from the debug module. -/
inductive HartView where
  | nonexistent
  | unavailable
  | running
  | halted
  deriving DecidableEq, Repr

/-- Hart `h` (R646): nonexistent outside the scope, unavailable while it is held in reset, and for an application
core while it is gated or parked or its resident room does not consent. -/
def hartView (h : Nat) (s : State) : HartView :=
  let app := decide (3 ≤ h)
  let open' := if app then (match residentOn (h - 3) s with | some r => consents r s | none => false) else true
  let powered := if app then pdOn (h + 3) s else if 1 ≤ h then pdOn (h + 3) s else true
  if 7 ≤ h ∨ inScope h s = false then .nonexistent
  else if powered = false ∨ open' = false ∨ (coreGet h s).heldInReset = true then .unavailable
  else if (coreGet h s).halted then .halted else .running

/-- The hart HARTSEL selects; three bits are kept, and 7 is no hart. -/
def dmHart (s : State) : Nat := bitsOf (dmGet 0x10 s) 16 3

/-- dmactive. -/
def dmActive (s : State) : Bool := bitOf (dmGet 0x10 s) 0

/-- A bit at a place of a word. -/
def bitAt (b : Bool) (k : Nat) : Word := if b then 1#32 <<< k else 0

/-- A bit of dmstatus for all and any of the one selected hart. -/
def bitPair (b : Bool) (k : Nat) : Word := bitAt b k ||| bitAt b (k + 1)

/-- dmstatus: version 2, authenticated. -/
def dmStatus (s : State) : Word :=
  let h := dmHart s
  let v := hartView h s
  let there := v != .nonexistent
  bitPair (there && dmGet (0x80 + h) s != 0) 18 ||| bitPair (there && dmGet (0x90 + h) s != 0) 16 |||
  bitPair (v == .nonexistent) 14 ||| bitPair (v == .unavailable) 12 ||| bitPair (v == .running) 10 |||
  bitPair (v == .halted) 8 ||| 0x82

/-- A hart stops: dcsr takes its cause. -/
def hartHalt (h cause : Nat) (s : State) : State :=
  dmPut (0xA0 + h) (bitsPut (dmGet (0xA0 + h) s) 6 3 cause) (coreSet h { coreGet h s with halted := true, waiting := false } s)

/-- A halted hart runs on. With dcsr.step it executes one instruction, whose pc stays open, and halts again. -/
def hartResume (h : Nat) (s : State) : State :=
  let t := dmPut (0x90 + h) 1 s
  if bitOf (dmGet (0xA0 + h) s) 2 then
    hartHalt h 4 (coreSet h { coreGet h t with pc := freeWord64 t } (drawFree t))
  else coreSet h { coreGet h t with halted := false } t

/-- Put the debug module into its reset state. -/
def dmClear (s : State) : State := { s with dbg := { s.dbg with dm := tkeep (fun k => decide (0x80 ≤ k)) s.dbg.dm } }

/-- A write of dmcontrol: HARTSEL first, then the requests to the hart selected, then a reset. -/
def dmControl (v : Word) (s : State) : State :=
  if bitOf v 0 = false then dmClear s
  else
    let t := dmPut 0x10 (v &&& 0x00070003) s
    let h := dmHart t
    let t1 := if bitOf v 28 && hartView h t != .nonexistent then dmPut (0x80 + h) 0 t else t
    let t2 :=
      if bitOf v 31 then (if hartView h t = .running then hartHalt h 3 t1 else t1)
      else if bitOf v 30 then (if hartView h t = .halted then hartResume h t1 else t1)
      else t1
    if bitOf v 1 && inScope 0 s then hallRestart 5 t2 else t2

/-- cmderr is set while it is 0. -/
def cmdErr (e : Nat) (s : State) : State :=
  if bitsOf (dmGet 0x16 s) 8 3 = 0 then dmPut 0x16 (bitsPut (dmGet 0x16 s) 8 3 e) s else s

/-! ### Abstract commands -/

/-- The place of a Control and Status Register in a context, by its number; the supervisor's exist on the application
cores alone (R436, R444). -/
def csrSlot (app : Bool) (n : Nat) : Option Nat :=
  match n with
  | 0x300 => some 0
  | 0x305 => some 1
  | 0x341 => some 2
  | 0x342 => some 3
  | 0x343 => some 4
  | 0x340 => some 5
  | 0x304 => some 6
  | 0x344 => some 17
  | _ =>
    if app then
      match n with
      | 0x302 => some 7
      | 0x303 => some 8
      | 0x306 => some 9
      | 0x105 => some 10
      | 0x141 => some 11
      | 0x142 => some 12
      | 0x143 => some 13
      | 0x140 => some 14
      | 0x180 => some 15
      | 0x106 => some 16
      | _ => none
    else none

/-- A register of a hart by its number in an abstract command. -/
inductive HartReg where
  | gpr (n : Nat)
  | fpr (n : Nat)
  | csr (slot : Nat)
  | dcsr
  | dpc
  | instret
  /-- it reads as the value given, and a write changes nothing -/
  | fixed (v : Word64)
  /-- its value is open -/
  | unstated
  | absent
  deriving DecidableEq, Repr

/-- The register `n` of hart `h`. -/
def hartReg (h n : Nat) : HartReg :=
  let app := decide (3 ≤ h)
  if 0x1000 ≤ n ∧ n < 0x1020 then .gpr (n - 0x1000)
  else if 0x1020 ≤ n ∧ n < 0x1040 then (if app then .fpr (n - 0x1020) else .absent)
  else match csrSlot app n with
  | some k => .csr k
  | none =>
    match n with
    | 0x7B0 => .dcsr
    | 0x7B1 => .dpc
    | 0xF14 => .fixed (BitVec.ofNat 64 h)
    | 0x301 => .fixed (if app then 0x800000000014112D else 0x8000000000001104)
    | 0xB02 => .instret
    | 0xC02 => .instret
    | 0xF11 => .unstated
    | 0xF12 => .unstated
    | 0xF13 => .unstated
    | 0xB00 => .unstated
    | 0xC00 => .unstated
    | 0xC01 => .unstated
    | 0x001 => if app then .unstated else .absent
    | 0x002 => if app then .unstated else .absent
    | 0x003 => if app then .unstated else .absent
    | _ => if app && (n == 0x100 || n == 0x104 || n == 0x144) then .unstated else .absent

/-- dcsr: xdebugver 4 and the mode. -/
def dcsrOf (h : Nat) (s : State) : Word64 :=
  ((dmGet (0xA0 + h) s &&& 0x0000BFC4 ||| 0x40000000) ||| BitVec.ofNat 32 (coreGet h s).priv).setWidth 64

/-- A hart's register read; none where it is absent. -/
def hartGet (h n : Nat) (s : State) : Option Word64 :=
  let c := coreGet h s
  match hartReg h n with
  | .gpr k => some (if k = 0 then 0 else tget (fun _ => 0) c.x k)
  | .fpr k => some (tget (fun _ => 0) c.f k)
  | .csr k => some (tget csrReset c.csr k)
  | .dcsr => some (dcsrOf h s)
  | .dpc => some c.pc
  | .instret => some c.instret
  | .fixed v => some v
  | .unstated => some (freeWord64 s)
  | .absent => none

/-- A hart's register written. -/
def hartPut (h n : Nat) (v : Word64) (s : State) : State :=
  let c := coreGet h s
  match hartReg h n with
  | .gpr k => if k = 0 then s else coreSet h { c with x := tset (fun _ => 0) c.x k v } s
  | .fpr k => coreSet h { c with f := tset (fun _ => 0) c.f k v } s
  | .csr k => coreSet h { c with csr := tset csrReset c.csr k v } s
  | .dcsr =>
    dmPut (0xA0 + h) (v.low &&& 0x0000BE04 ||| (dmGet (0xA0 + h) s &&& 0x1C0))
      (coreSet h { c with priv := if 3 ≤ h then v.toNat % 4 else 3 } s)
  | .dpc => coreSet h { c with pc := v } s
  | .instret => if n = 0xB02 then coreSet h { c with instret := v } s else s
  | _ => s

/-- data1:data0. -/
def dmData (s : State) : Word64 := Word64.ofHalves (dmGet 4 s) (dmGet 5 s)

/-- The registers a program in the program buffer may leave behind: every general and floating-point register, the
status and trap registers, and whether it took an exception (cmderr 3) stay open. -/
def progRun (h : Nat) (s : State) : State :=
  let c := coreGet h s
  let w (k : Nat) : Word64 := BitVec.ofNat 64 (Config.freeNat (s.freeCtr + k))
  let c' : CoreCtx := { c with
    x := (List.range 31).foldl (fun t k => tset (fun _ => 0) t (k + 1) (w k)) c.x
    f := if 3 ≤ h then (List.range 32).foldl (fun t k => tset (fun _ => 0) t k (w (31 + k))) c.f else c.f
    fcsr := if 3 ≤ h then w 63 else c.fcsr
    csr := (List.range 18).foldl (fun t k => tset csrReset t k (w (64 + k))) c.csr
    instret := w 82 }
  let t := coreSet h c' { s with freeCtr := s.freeCtr + 84 }
  if (w 83).toNat % 2 = 1 then cmdErr 3 t else t

/-- Access Register. -/
def accessRegister (v : Word) (h : Nat) (s : State) : State :=
  let n := bitsOf v 0 16
  let wide := bitsOf v 20 3 == 3
  if bitOf v 17 = false then (if bitOf v 18 then progRun h s else s)
  else if bitsOf v 20 3 ≠ 2 ∧ bitsOf v 20 3 ≠ 3 then cmdErr 2 s
  else match hartGet h n s with
  | none => cmdErr 3 s
  | some x =>
    let t :=
      if bitOf v 16 then
        (if wide then hartPut h n (dmData s) s
         else hartPut h n (Word64.ofHalves (dmGet 4 s) (freeWord64 s).high) (drawFree s))
      else
        let u := dmPut 4 x.low (drawFree s)
        if wide then dmPut 5 x.high u else u
    if bitOf v 18 then progRun h t else t

/-- A write of command: nothing while cmderr is set; the hart selected must be halted. -/
def dmCommand (v : Word) (s : State) : State :=
  if bitsOf (dmGet 0x16 s) 8 3 ≠ 0 then s
  else if bitsOf v 24 8 ≠ 0 then cmdErr 2 s
  else if hartView (dmHart s) s ≠ .halted then cmdErr 4 s
  else accessRegister v (dmHart s) s

/-! ### System bus access -/

/-- sberror. -/
def sbError (e : Nat) (s : State) : State := dmPut 0x38 (bitsPut (dmGet 0x38 s) 12 3 e) s

/-- The size an access takes, as a power of two of octets. -/
def sbSize (s : State) : Nat := bitsOf (dmGet 0x38 s) 17 3

/-- The address after an access. -/
def sbNext (s : State) : State :=
  if bitOf (dmGet 0x38 s) 16 then dmPut 0x39 (dmGet 0x39 s + BitVec.ofNat 32 (2 ^ sbSize s)) s else s

/-- Why an access does not start: no consent or scope 2, a size not supported 4, a misaligned address 3. -/
def sbDeny (s : State) : Option Nat :=
  if issues .debug s = false then some 2
  else if 3 < sbSize s then some 4
  else if (dmGet 0x39 s).toNat % 2 ^ sbSize s ≠ 0 then some 3
  else none

/-- The access itself, with the door check of R446 and R447. -/
def sbIssue (store : Bool) (s : State) : State :=
  let a := (dmGet 0x39 s).toNat
  if store then storeAccess .debug a (2 ^ sbSize s) (Word64.ofHalves (dmGet 0x3C s) (dmGet 0x3D s)) true .clean s
  else loadAccess .debug a (2 ^ sbSize s) true .clean s

/-- What its answer leaves in the debug module; one that a busy bank keeps waiting leaves it as it was. -/
def sbFinish (s : State) : State :=
  match s.bus.resp with
  | .data w =>
    let u := dmPut 0x3C w.low s
    sbNext (if sbSize s = 3 then dmPut 0x3D w.high u else u)
  | .ack => sbNext s
  | .refused _ => sbError 2 s
  | _ => s

/-- A system bus access (R646): carried out unless sberror is set. -/
def sbAccess (store : Bool) (s : State) : State :=
  if bitsOf (dmGet 0x38 s) 12 3 ≠ 0 then s
  else match sbDeny s with
  | some e => sbError e s
  | none => sbFinish (sbIssue store s)

/-- The access that a DMI access begins is kept waiting. -/
def sbWaits (store : Bool) (s : State) : Bool :=
  bitsOf (dmGet 0x38 s) 12 3 == 0 && (sbDeny s).isNone && (sbAccess store s).bus.resp == .wait

/-! ### DMI accesses -/

/-- A read of the debug module: the value before what it begins. -/
def dmRead (a : Nat) (s : State) : Word :=
  match a with
  | 0x10 => dmGet 0x10 s &&& 0x00070003
  | 0x11 => dmStatus s
  | 0x16 => (dmGet 0x16 s &&& 0x700) ||| 0x08000002
  | 0x38 => (dmGet 0x38 s &&& 0x001FF000) ||| 0x2000040F
  | 0x40 => (List.range 7).foldl (fun v h => v ||| bitAt (hartView h s == .halted) h) 0
  | _ =>
    if a = 4 ∨ a = 5 ∨ (0x20 ≤ a ∧ a < 0x28) ∨ a = 0x39 ∨ a = 0x3C ∨ a = 0x3D then dmGet a s else 0

/-- A write of sbcs: sberror is cleared by ones. -/
def sbcsWrite (v : Word) (s : State) : State :=
  dmPut 0x38 ((v &&& 0x001F8000) ||| (dmGet 0x38 s &&& ~~~ v &&& 0x7000)) s

/-- A write of the debug module; while it is not active only dmcontrol takes one. -/
def dmWrite (a : Nat) (v : Word) (s : State) : State :=
  if a = 0x10 then dmControl v s
  else if dmActive s = false then s
  else match a with
  | 0x16 => dmPut 0x16 (dmGet 0x16 s &&& ~~~ (v &&& 0x700)) s
  | 0x17 => dmCommand v s
  | 0x38 => sbcsWrite v s
  | 0x39 =>
    let t := dmPut 0x39 v s
    if bitOf (dmGet 0x38 s) 20 then sbAccess false t else t
  | 0x3C => sbAccess true (dmPut 0x3C v s)
  | 0x3D => dmPut 0x3D v s
  | _ => if a = 4 ∨ a = 5 ∨ (0x20 ≤ a ∧ a < 0x28) then dmPut a v s else s

/-- The response of the DMI. -/
def dmAnswer (op : Nat) (v : Word) (s : State) : State := { s with dbg := { s.dbg with resp := (op, v) } }

/-- A DMI access (R646, R647): op 1 reads, op 2 writes; in LOCKED and CHECKING it fails. -/
def dmiDo (op a : Nat) (v : Word) (s : State) : State :=
  if dbgState s = 1 ∨ dbgState s = 2 then dmAnswer 2 0 s
  else if op = 1 then
    if a = 0x3C ∧ dmActive s = true ∧ bitOf (dmGet 0x38 s) 15 = true then
      (if sbWaits false s then dmAnswer 3 0 (sbAccess false s) else dmAnswer 0 (dmRead a s) (sbAccess false s))
    else dmAnswer 0 (dmRead a s) s
  else if op = 2 then
    let t := if a = 0x3C then dmPut 0x3C v s else dmPut 0x39 v s
    let begins := dmActive s && (a == 0x3C || (a == 0x39 && bitOf (dmGet 0x38 s) 20))
    if begins && sbWaits (a == 0x3C) t then dmAnswer 3 0 { sbAccess (a == 0x3C) t with dbg := s.dbg }
    else dmAnswer 0 0 (dmWrite a v s)
  else dmAnswer 0 0 s

/-! ### The commands -/

/-- JTAG_IR_UPDATE (R645). -/
def execJtagIrUpdate (code : BitVec 5) (tapReset : Bool) (s : State) : Host.Outcome State Fault Refusal :=
  .next (irUpdate code.toNat tapReset s)

/-- DMI_ACCESS (R646). -/
def execDmiAccess (op : BitVec 2) (addr : BitVec 7) (data : Word) (s : State) : Host.Outcome State Fault Refusal :=
  .next (if irIs 0x11 s then dmiDo op.toNat addr.toNat data s else s)

/-- DBGCHAL_CAPTURE (R647). -/
def execDbgchalCapture (s : State) : Host.Outcome State Fault Refusal :=
  .next (if irIs 0x12 s then chalCapture s else s)

/-- DBGCHAL_UPDATE (R648). -/
def execDbgchalUpdate (scope : Word) (r sig : BitVec 256) (s : State) : Host.Outcome State Fault Refusal :=
  .next (if irIs 0x12 s then chalUpdate scope r.toNat sig.toNat s else s)

/-- DBG_CHECK_DONE (R648). -/
def execDbgCheckDone (s : State) : Host.Outcome State Fault Refusal := .next (chalDone s)

/-- DBG_DENY_HOLDOFF_END (R648). -/
def execDbgDenyHoldoffEnd (s : State) : Host.Outcome State Fault Refusal :=
  .next { s with dbg := { s.dbg with holdoff := false } }

/-- DBG_LOCK (R648, R653). -/
def execDbgLock (i : Init) (key : BitVec 16) (s : State) : Host.Outcome State Fault Refusal :=
  .next (doorStore i (dbgB + 4) (dbgRelock key.toNat) s)

end Sys2Proof.Machine
end

