-- ==== Sys2Proof/Machine/Dispatch.lean ====
section
/-!
DEFINITION. The dispatcher: one arm per command, each a call of its meaning.
-/

namespace Sys2Proof.Machine

/-- The effect of a command on everything but the queue. -/
def exec (i : Instr) (s : State) : Host.Outcome State Fault Refusal :=
  match i with
  | .registerWrite who addr data => Sys2Proof.Machine.execRegisterWrite who addr data s
  | .memoryAccess who op addr parityOk ecc => Sys2Proof.Machine.execMemoryAccess who op addr parityOk ecc s
  | .counterLowRead who addr live air => Sys2Proof.Machine.execCounterLowRead who addr live air s
  | .snapshotCapture who addr => Sys2Proof.Machine.execSnapshotCapture who addr s
  | .stagedLowWrite who addr data => Sys2Proof.Machine.execStagedLowWrite who addr data s
  | .highHalfCommit who addr data => Sys2Proof.Machine.execHighHalfCommit who addr data s
  | .readToClear who addr => Sys2Proof.Machine.execReadToClear who addr s
  | .lanternWriteEffect addr => Sys2Proof.Machine.execLanternWriteEffect addr s
  | .eventSourceRaise event => Sys2Proof.Machine.execEventSourceRaise event s
  | .interruptTaken core => Sys2Proof.Machine.execInterruptTaken core s
  | .evtClaim who => Sys2Proof.Machine.execEvtClaim who s
  | .evtDone who data => Sys2Proof.Machine.execEvtDone who data s
  | .feCmdTarget who fe data temp => Sys2Proof.Machine.execFeCmdTarget who fe data temp s
  | .feCmdCal who fe => Sys2Proof.Machine.execFeCmdCal who fe s
  | .feCtrlWrite who fe data => Sys2Proof.Machine.execFeCtrlWrite who fe data s
  | .feCentreWrite who fe data => Sys2Proof.Machine.execFeCentreWrite who fe data s
  | .feTransitionDone fe temp rxt0 => Sys2Proof.Machine.execFeTransitionDone fe temp rxt0 s
  | .calibrationSetEnd fe temp fail band irr dc lol bw => Sys2Proof.Machine.execCalibrationSetEnd fe temp fail band irr dc lol bw s
  | .feLockLost fe => Sys2Proof.Machine.execFeLockLost fe s
  | .feLockFail fe => Sys2Proof.Machine.execFeLockFail fe s
  | .feXrefFail => Sys2Proof.Machine.execFeXrefFail s
  | .dieTempSample fe temp => Sys2Proof.Machine.execDieTempSample fe temp s
  | .feTuneWrite who fe data => Sys2Proof.Machine.execFeTuneWrite who fe data s
  | .feMismatchMeasure fe mag phase fwd strong => Sys2Proof.Machine.execFeMismatchMeasure fe mag phase fwd strong s
  | .radioReclaim who => Sys2Proof.Machine.execRadioReclaim who s
  | .licTableWrite who offset data => Sys2Proof.Machine.execLicTableWrite who offset data s
  | .licCheck who key => Sys2Proof.Machine.execLicCheck who key s
  | .licBurn who key check => Sys2Proof.Machine.execLicBurn who key check s
  | .licBurnDone readBack => Sys2Proof.Machine.execLicBurnDone readBack s
  | .binSampleWrite lane index fill peakQ edQ => Sys2Proof.Machine.execBinSampleWrite lane index fill peakQ edQ s
  | .gainEvaluation fe m peakQ meanQ => Sys2Proof.Machine.execGainEvaluation fe m peakQ meanQ s
  | .gainChange fe => Sys2Proof.Machine.execGainChange fe s
  | .chzCtrlWrite who fe data period => Sys2Proof.Machine.execChzCtrlWrite who fe data period s
  | .overloadDetect fe start => Sys2Proof.Machine.execOverloadDetect fe start s
  | .overloadDrop fe period => Sys2Proof.Machine.execOverloadDrop fe period s
  | .overloadEpisodeEnd fe period => Sys2Proof.Machine.execOverloadEpisodeEnd fe period s
  | .ovlHoldEnd fe period => Sys2Proof.Machine.execOvlHoldEnd fe period s
  | .fabActivate who key slot => Sys2Proof.Machine.execFabActivate who key slot s
  | .fabCheck who key slot => Sys2Proof.Machine.execFabCheck who key slot s
  | .fabReload who key domain => Sys2Proof.Machine.execFabReload who key domain s
  | .planCheckDone => Sys2Proof.Machine.execPlanCheckDone s
  | .planSwitch => Sys2Proof.Machine.execPlanSwitch s
  | .domainLoadDone => Sys2Proof.Machine.execDomainLoadDone s
  | .scrubTileRead upset => Sys2Proof.Machine.execScrubTileRead upset s
  | .laneStart who lane key => Sys2Proof.Machine.execLaneStart who lane key s
  | .laneStop who lane key => Sys2Proof.Machine.execLaneStop who lane key s
  | .laneTuneGo who lane data => Sys2Proof.Machine.execLaneTuneGo who lane data s
  | .laneTuneApply lane index => Sys2Proof.Machine.execLaneTuneApply lane index s
  | .laneMove who lane key dest => Sys2Proof.Machine.execLaneMove who lane key dest s
  | .laneMoveEffective lane => Sys2Proof.Machine.execLaneMoveEffective lane s
  | .laneDrainRelease lane index => Sys2Proof.Machine.execLaneDrainRelease lane index s
  | .preambleDetection lane index => Sys2Proof.Machine.execPreambleDetection lane index s
  | .sfdFound lane index frac coded mseQ => Sys2Proof.Machine.execSfdFound lane index frac coded mseQ s
  | .sfdTimeout lane => Sys2Proof.Machine.execSfdTimeout lane s
  | .phrDecoded lane index len fcs2 mcs hcsOk => Sys2Proof.Machine.execPhrDecoded lane index len fcs2 mcs hcsOk s
  | .modeSwitchPpdu lane phy hQ => Sys2Proof.Machine.execModeSwitchPpdu lane phy hQ s
  | .frameEnd lane index fcsOk sat qual => Sys2Proof.Machine.execFrameEnd lane index fcsOk sat qual s
  | .laneTimeout lane => Sys2Proof.Machine.execLaneTimeout lane s
  | .resyncCollision lane index => Sys2Proof.Machine.execResyncCollision lane index s
  | .laneVerdict lane octets intact now => Sys2Proof.Machine.execLaneVerdict lane octets intact now s
  | .surveyBlockEnd fe block means => Sys2Proof.Machine.execSurveyBlockEnd fe block means s
  | .cancellerTrainingEnd fe deep => Sys2Proof.Machine.execCancellerTrainingEnd fe deep s
  | .fdxMeasurement fe iso cancel => Sys2Proof.Machine.execFdxMeasurement fe iso cancel s
  | .gainCapReturn fe period => Sys2Proof.Machine.execGainCapReturn fe period s
  | .jobPost who room data now => Sys2Proof.Machine.execJobPost who room data now s
  | .jobCancel who room key slot => Sys2Proof.Machine.execJobCancel who room key slot s
  | .jobPreparation room slot agrees => Sys2Proof.Machine.execJobPreparation room slot agrees s
  | .jobFillTick room slot => Sys2Proof.Machine.execJobFillTick room slot s
  | .ccaDecision fe found => Sys2Proof.Machine.execCcaDecision fe found s
  | .txTransitionStart who tick temp vpa => Sys2Proof.Machine.execTxTransitionStart who tick temp vpa s
  | .txRampUp fe tick fill => Sys2Proof.Machine.execTxRampUp fe tick fill s
  | .underrun fe => Sys2Proof.Machine.execUnderrun fe s
  | .txFrameEnd fe tick radiated temp => Sys2Proof.Machine.execTxFrameEnd fe tick radiated temp s
  | .noAck room slot => Sys2Proof.Machine.execNoAck room slot s
  | .rxWinClose room slot => Sys2Proof.Machine.execRxWinClose room slot s
  | .ackCut fe late => Sys2Proof.Machine.execAckCut fe late s
  | .ackTransmit fe => Sys2Proof.Machine.execAckTransmit fe s
  | .lastGaspStore slot agrees => Sys2Proof.Machine.execLastGaspStore slot agrees s
  | .dutyBucketAdvance group => Sys2Proof.Machine.execDutyBucketAdvance group s
  | .nbrInsert who index => Sys2Proof.Machine.execNbrInsert who index s
  | .nbrDelete who index => Sys2Proof.Machine.execNbrDelete who index s
  | .nbrRead who index => Sys2Proof.Machine.execNbrRead who index s
  | .nbrLookup who index => Sys2Proof.Machine.execNbrLookup who index s
  | .queuePop who queue ecc => Sys2Proof.Machine.execQueuePop who queue ecc s
  | .queuePush who queue data => Sys2Proof.Machine.execQueuePush who queue data s
  | .queueDrop who queue key => Sys2Proof.Machine.execQueueDrop who queue key s
  | .queueFlush who queue key => Sys2Proof.Machine.execQueueFlush who queue key s
  | .qcFlush who key queue => Sys2Proof.Machine.execQcFlush who key queue s
  | .knkEnWrite who data => Sys2Proof.Machine.execKnkEnWrite who data s
  | .knkConfigWrite who isWord data => Sys2Proof.Machine.execKnkConfigWrite who isWord data s
  | .knkListenStart => Sys2Proof.Machine.execKnkListenStart s
  | .knkPreambleDetect => Sys2Proof.Machine.execKnkPreambleDetect s
  | .knkWordMatch => Sys2Proof.Machine.execKnkWordMatch s
  | .knkWordTimeout => Sys2Proof.Machine.execKnkWordTimeout s
  | .knkEndOfPattern target crc level now => Sys2Proof.Machine.execKnkEndOfPattern target crc level now s
  | .ppsInEdge edge nt => Sys2Proof.Machine.execPpsInEdge edge nt s
  | .ppsLost => Sys2Proof.Machine.execPpsLost s
  | .timeMeas who data now => Sys2Proof.Machine.execTimeMeas who data now s
  | .timeSet who data now => Sys2Proof.Machine.execTimeSet who data now s
  | .meshLost => Sys2Proof.Machine.execMeshLost s
  | .timeSec sec tick f10 => Sys2Proof.Machine.execTimeSec sec tick f10 s
  | .ppsPulseEnd => Sys2Proof.Machine.execPpsPulseEnd s
  | .refEstimateUpdate n mean => Sys2Proof.Machine.execRefEstimateUpdate n mean s
  | .imArm who data now => Sys2Proof.Machine.execImArm who data now s
  | .imCancel who data now => Sys2Proof.Machine.execImCancel who data now s
  | .imEdge src falling at_ => Sys2Proof.Machine.execImEdge src falling at_ s
  | .imWindowExpire => Sys2Proof.Machine.execImWindowExpire s
  | .timerEnable who timer data count => Sys2Proof.Machine.execTimerEnable who timer data count s
  | .timerZero who timer key => Sys2Proof.Machine.execTimerZero who timer key s
  | .timerCmpCommit who timer data => Sys2Proof.Machine.execTimerCmpCommit who timer data s
  | .timerReloadCommit who timer data => Sys2Proof.Machine.execTimerReloadCommit who timer data s
  | .timerCmpEffect timer count => Sys2Proof.Machine.execTimerCmpEffect timer count s
  | .timerWrap timer count => Sys2Proof.Machine.execTimerWrap timer count s
  | .timerMatch timer count => Sys2Proof.Machine.execTimerMatch timer count s
  | .timerCapture timer count falling => Sys2Proof.Machine.execTimerCapture timer count falling s
  | .calSecond => Sys2Proof.Machine.execCalSecond s
  | .calOscStop => Sys2Proof.Machine.execCalOscStop s
  | .calSet who key sync => Sys2Proof.Machine.execCalSet who key sync s
  | .calSync who key => Sys2Proof.Machine.execCalSync who key s
  | .calSyncApply snt => Sys2Proof.Machine.execCalSyncApply snt s
  | .pwrOnSet who data => Sys2Proof.Machine.execPwrOnSet who data s
  | .pwrOnClr who data => Sys2Proof.Machine.execPwrOnClr who data s
  | .ledgCommit who key room => Sys2Proof.Machine.execLedgCommit who key room s
  | .ledgSuspend who key room => Sys2Proof.Machine.execLedgSuspend who key room s
  | .ledgResume who key room => Sys2Proof.Machine.execLedgResume who key room s
  | .ledgReset who key room => Sys2Proof.Machine.execLedgReset who key room s
  | .ledgSwitch who key core room => Sys2Proof.Machine.execLedgSwitch who key core room s
  | .ledgPark who key core => Sys2Proof.Machine.execLedgPark who key core s
  | .ledgRemove who key room => Sys2Proof.Machine.execLedgRemove who key room s
  | .ledgWaysWrite who core high data => Sys2Proof.Machine.execLedgWaysWrite who core high data s
  | .wdogKick who room key => Sys2Proof.Machine.execWdogKick who room key s
  | .roomWdog room => Sys2Proof.Machine.execRoomWdog room s
  | .phLockRead who chan => Sys2Proof.Machine.execPhLockRead who chan s
  | .phRelease who chan => Sys2Proof.Machine.execPhRelease who chan s
  | .phForce who key chan => Sys2Proof.Machine.execPhForce who key chan s
  | .phSend who chan data => Sys2Proof.Machine.execPhSend who chan data s
  | .phSendEnd who chan data => Sys2Proof.Machine.execPhSendEnd who chan data s
  | .phRecv who chan => Sys2Proof.Machine.execPhRecv who chan s
  | .phRetWrite who chan data => Sys2Proof.Machine.execPhRetWrite who chan data s
  | .cipStart who ctx key first last abort clear => Sys2Proof.Machine.execCipStart who ctx key first last abort clear s
  | .cipAbort who ctx key clear => Sys2Proof.Machine.execCipAbort who ctx key clear s
  | .cipClear who ctx key => Sys2Proof.Machine.execCipClear who ctx key s
  | .cipOperationDone ctx => Sys2Proof.Machine.execCipOperationDone ctx s
  | .cipLockRead who => Sys2Proof.Machine.execCipLockRead who s
  | .cipLockRelease who => Sys2Proof.Machine.execCipLockRelease who s
  | .cipCforce who key => Sys2Proof.Machine.execCipCforce who key s
  | .cipLockExpired => Sys2Proof.Machine.execCipLockExpired s
  | .enroll who key => Sys2Proof.Machine.execEnroll who key s
  | .rotate who key => Sys2Proof.Machine.execRotate who key s
  | .rngStartupDone => Sys2Proof.Machine.execRngStartupDone s
  | .rngBlockRelease raw => Sys2Proof.Machine.execRngBlockRelease raw s
  | .rngTestFail rct rawBit => Sys2Proof.Machine.execRngTestFail rct rawBit s
  | .rngRestart who key => Sys2Proof.Machine.execRngRestart who key s
  | .rngDataRead who => Sys2Proof.Machine.execRngDataRead who s
  | .kpLoad who room key cls sel klen => Sys2Proof.Machine.execKpLoad who room key cls sel klen s
  | .kpDerive who room key cls sel klen => Sys2Proof.Machine.execKpDerive who room key cls sel klen s
  | .kpUnwrap who room key cls sel klen => Sys2Proof.Machine.execKpUnwrap who room key cls sel klen s
  | .kpUnload who room key cls sel klen => Sys2Proof.Machine.execKpUnload who room key cls sel klen s
  | .kpDelete who room key cls sel klen => Sys2Proof.Machine.execKpDelete who room key cls sel klen s
  | .kpFind who room key cls sel klen => Sys2Proof.Machine.execKpFind who room key cls sel klen s
  | .kpCommandDone room slot entry bad => Sys2Proof.Machine.execKpCommandDone room slot entry bad s
  | .shelfCompaction due => Sys2Proof.Machine.execShelfCompaction due s
  | .pkVerify who key => Sys2Proof.Machine.execPkVerify who key s
  | .pkEcdh who key => Sys2Proof.Machine.execPkEcdh who key s
  | .pkDone slot entry => Sys2Proof.Machine.execPkDone slot entry s
  | .tamperTrip src => Sys2Proof.Machine.execTamperTrip src s
  | .vaultEraseDone => Sys2Proof.Machine.execVaultEraseDone s
  | .flashProgram who port key => Sys2Proof.Machine.execFlashProgram who port key s
  | .flashErase who port key => Sys2Proof.Machine.execFlashErase who port key s
  | .flashProgramDone bank readBack => Sys2Proof.Machine.execFlashProgramDone bank readBack s
  | .flashEraseDone bank blank => Sys2Proof.Machine.execFlashEraseDone bank blank s
  | .flashSuspend who key bank => Sys2Proof.Machine.execFlashSuspend who key bank s
  | .flashResume who key bank => Sys2Proof.Machine.execFlashResume who key bank s
  | .flashAutoResume bank => Sys2Proof.Machine.execFlashAutoResume bank s
  | .flcCfgWrite who data => Sys2Proof.Machine.execFlcCfgWrite who data s
  | .updHeader who key => Sys2Proof.Machine.execUpdHeader who key s
  | .updLoad who key => Sys2Proof.Machine.execUpdLoad who key s
  | .updFinish who key => Sys2Proof.Machine.execUpdFinish who key s
  | .updActivate who key => Sys2Proof.Machine.execUpdActivate who key s
  | .updAbort who key => Sys2Proof.Machine.execUpdAbort who key s
  | .updCheck who key room => Sys2Proof.Machine.execUpdCheck who key room s
  | .floorClr who key room => Sys2Proof.Machine.execFloorClr who key room s
  | .recover who key => Sys2Proof.Machine.execRecover who key s
  | .updHeaderChecked => Sys2Proof.Machine.execUpdHeaderChecked s
  | .updWriteDone ok => Sys2Proof.Machine.execUpdWriteDone ok s
  | .houseRestart => Sys2Proof.Machine.execHouseRestart s
  | .houseRewriteDone ok => Sys2Proof.Machine.execHouseRewriteDone ok s
  | .recoveryInfo src => Sys2Proof.Machine.execRecoveryInfo src s
  | .recoveryHeader src header => Sys2Proof.Machine.execRecoveryHeader src header s
  | .recoveryData src offset octets => Sys2Proof.Machine.execRecoveryData src offset octets s
  | .recoveryCommit src ok => Sys2Proof.Machine.execRecoveryCommit src ok s
  | .recoveryAbort src => Sys2Proof.Machine.execRecoveryAbort src s
  | .recoveryRestart src => Sys2Proof.Machine.execRecoveryRestart src s
  | .recoverySessionTimeout => Sys2Proof.Machine.execRecoverySessionTimeout s
  | .recoveryAutoRestart => Sys2Proof.Machine.execRecoveryAutoRestart s
  | .pwrModeWrite who data => Sys2Proof.Machine.execPwrModeWrite who data s
  | .entryWfi => Sys2Proof.Machine.execEntryWfi s
  | .participantAnswer participant => Sys2Proof.Machine.execParticipantAnswer participant s
  | .pwrLcackWrite who data => Sys2Proof.Machine.execPwrLcackWrite who data s
  | .handshakeTimeout => Sys2Proof.Machine.execHandshakeTimeout s
  | .modeReached nt air => Sys2Proof.Machine.execModeReached nt air s
  | .wake src event => Sys2Proof.Machine.execWake src event s
  | .modeExit lfCycles => Sys2Proof.Machine.execModeExit lfCycles s
  | .hallStartRetry voutMode => Sys2Proof.Machine.execHallStartRetry voutMode s
  | .pwrGateWrite who data => Sys2Proof.Machine.execPwrGateWrite who data s
  | .vcoreAck => Sys2Proof.Machine.execVcoreAck s
  | .vcoreFail why => Sys2Proof.Machine.execVcoreFail why s
  | .vcoreDownHold => Sys2Proof.Machine.execVcoreDownHold s
  | .pmbAlert status vout => Sys2Proof.Machine.execPmbAlert status vout s
  | .supZeroCrossing chan nt freq => Sys2Proof.Machine.execSupZeroCrossing chan nt freq s
  | .supRmsRefresh chan rms nt sample above dist lost => Sys2Proof.Machine.execSupRmsRefresh chan rms nt sample above dist lost s
  | .supFastOutage chan nt flag => Sys2Proof.Machine.execSupFastOutage chan nt flag s
  | .supDisturbEnd chan => Sys2Proof.Machine.execSupDisturbEnd chan s
  | .supOverrun => Sys2Proof.Machine.execSupOverrun s
  | .supRecordPop who => Sys2Proof.Machine.execSupRecordPop who s
  | .lgAttempt nt tick vhold temp vpa => Sys2Proof.Machine.execLgAttempt nt tick vhold temp vpa s
  | .lgCca level => Sys2Proof.Machine.execLgCca level s
  | .lgCut => Sys2Proof.Machine.execLgCut s
  | .lgFrameEnd tick radiated temp => Sys2Proof.Machine.execLgFrameEnd tick radiated temp s
  | .lgAckWindow level => Sys2Proof.Machine.execLgAckWindow level s
  | .hostResync octets => Sys2Proof.Machine.execHostResync octets s
  | .hostMsg octets => Sys2Proof.Machine.execHostMsg octets s
  | .hostPing octets => Sys2Proof.Machine.execHostPing octets s
  | .readFrame => Sys2Proof.Machine.execReadFrame s
  | .reread => Sys2Proof.Machine.execReread s
  | .readStatus => Sys2Proof.Machine.execReadStatus s
  | .hostSessionExpire => Sys2Proof.Machine.execHostSessionExpire s
  | .hostInHdrRead who => Sys2Proof.Machine.execHostInHdrRead who s
  | .hostInDataRead who => Sys2Proof.Machine.execHostInDataRead who s
  | .hostOutDataWrite who data => Sys2Proof.Machine.execHostOutDataWrite who data s
  | .hostOutCommit who data => Sys2Proof.Machine.execHostOutCommit who data s
  | .hostOutDiscard who data => Sys2Proof.Machine.execHostOutDiscard who data s
  | .uartCharReceived u char par frm brk => Sys2Proof.Machine.execUartCharReceived u char par frm brk s
  | .uartCharSent u => Sys2Proof.Machine.execUartCharSent u s
  | .uartDataWrite who u data => Sys2Proof.Machine.execUartDataWrite who u data s
  | .uartDataRead who u => Sys2Proof.Machine.execUartDataRead who u s
  | .uartOwnWrite who data => Sys2Proof.Machine.execUartOwnWrite who data s
  | .i2cStart u => Sys2Proof.Machine.execI2cStart u s
  | .i2cWrite u => Sys2Proof.Machine.execI2cWrite u s
  | .i2cRead u data => Sys2Proof.Machine.execI2cRead u data s
  | .i2cStop u => Sys2Proof.Machine.execI2cStop u s
  | .i2cNack u => Sys2Proof.Machine.execI2cNack u s
  | .i2cArbLost u => Sys2Proof.Machine.execI2cArbLost u s
  | .i2cSclTimeout u => Sys2Proof.Machine.execI2cSclTimeout u s
  | .i2cRxRead who u => Sys2Proof.Machine.execI2cRxRead who u s
  | .i2cOwnWrite who data => Sys2Proof.Machine.execI2cOwnWrite who data s
  | .gpioOwnWrite who j data => Sys2Proof.Machine.execGpioOwnWrite who j data s
  | .gpioSet who bank data => Sys2Proof.Machine.execGpioSet who bank data s
  | .gpioClr who bank data => Sys2Proof.Machine.execGpioClr who bank data s
  | .gpioEdge pin level => Sys2Proof.Machine.execGpioEdge pin level s
  | .gpioHoldRelease who data => Sys2Proof.Machine.execGpioHoldRelease who data s
  | .dbgchalCapture => Sys2Proof.Machine.execDbgchalCapture s
  | .dbgchalUpdate scope r sig => Sys2Proof.Machine.execDbgchalUpdate scope r sig s
  | .dbgCheckDone => Sys2Proof.Machine.execDbgCheckDone s
  | .dbgDenyHoldoffEnd => Sys2Proof.Machine.execDbgDenyHoldoffEnd s
  | .dbgLock who key => Sys2Proof.Machine.execDbgLock who key s
  | .dmiAccess op addr data => Sys2Proof.Machine.execDmiAccess op addr data s
  | .vbatPowerOn voutMode => Sys2Proof.Machine.execVbatPowerOn voutMode s
  | .brownout voutMode => Sys2Proof.Machine.execBrownout voutMode s
  | .sysRstPin low => Sys2Proof.Machine.execSysRstPin low s
  | .rstCmdHall who key => Sys2Proof.Machine.execRstCmdHall who key s
  | .lfFirstEdge => Sys2Proof.Machine.execLfFirstEdge s
  | .lfStartTimeout => Sys2Proof.Machine.execLfStartTimeout s
  | .hallRelease nt air lfCycles => Sys2Proof.Machine.execHallRelease nt air lfCycles s
  | .romStart => Sys2Proof.Machine.execRomStart s
  | .porterStart => Sys2Proof.Machine.execPorterStart s
  | .ckRefRunning => Sys2Proof.Machine.execCkRefRunning s
  | .ckLfResume => Sys2Proof.Machine.execCkLfResume s
  | .modeSwitchTimeout lane => Sys2Proof.Machine.execModeSwitchTimeout lane s
  | .supOverRange chan negative => Sys2Proof.Machine.execSupOverRange chan negative s
  | .shelfClearingDone => Sys2Proof.Machine.execShelfClearingDone s
  | .markProgrammed slot ok => Sys2Proof.Machine.execMarkProgrammed slot ok s
  | .shelfCompactionDone => Sys2Proof.Machine.execShelfCompactionDone s
  | .minimumRunEnd bank => Sys2Proof.Machine.execMinimumRunEnd bank s
  | .jtagIrUpdate code tapReset => Sys2Proof.Machine.execJtagIrUpdate code tapReset s

end Sys2Proof.Machine
end

