-- ==== Sys2Proof/Safety.lean ====
section
/-!
DEFINITION. What holds of every state of a run, in the terms the statements use.
-/

namespace Sys2Proof.Machine

/-- Initiator `i` issues a 32-bit access of register space and the door check admits it. -/
abbrev Admits (i : Init) (a : Nat) (k : Access) (s : State) : Prop := issues i s = true ∧ doorCheck i a 4 k s = none

/-- Initiator `i` issues a 32-bit access of register space and the door check refuses it with a cause of R693. -/
abbrev Refuses (i : Init) (a : Nat) (k : Access) (cause : Nat) (s : State) : Prop :=
  issues i s = true ∧ doorCheck i a 4 k s = some cause

end Sys2Proof.Machine

namespace Sys2Proof

open Sys2Proof.Machine

/-- What a command asks of the bus: who asks, where, how many octets, and how. -/
structure Port where
  init : Init
  addr : Nat
  size : Nat
  kind : Access

/-- The one bus transaction of register space that a command is, by the register tables (R4, R40); none for the events
of the device and of the outside, for a register command at an address of a memory, and for MEMORY_ACCESS, whose
transaction depends on its operation. -/
def Instr.port : Instr → Option Port
  | .registerWrite i addr _ => if registerAt addr then some ⟨i, addr, 4, .store⟩ else none
  | .counterLowRead i addr _ _ => if registerAt addr then some ⟨i, addr, 4, .load⟩ else none
  | .snapshotCapture i addr => if registerAt addr then some ⟨i, addr, 4, .load⟩ else none
  | .stagedLowWrite i addr _ => if registerAt addr then some ⟨i, addr, 4, .store⟩ else none
  | .highHalfCommit i addr _ => if registerAt addr then some ⟨i, addr, 4, .store⟩ else none
  | .readToClear i addr => if registerAt addr then some ⟨i, addr, 4, .load⟩ else none
  | .evtClaim i => some ⟨i, 0x40080F00, 4, .load⟩
  | .evtDone i _ => some ⟨i, 0x40080F04, 4, .store⟩
  | .feCmdTarget i fe _ _ => some ⟨i, feB fe + 0x08, 4, .store⟩
  | .feCmdCal i fe => some ⟨i, feB fe + 0x08, 4, .store⟩
  | .feCtrlWrite i fe _ => some ⟨i, feB fe + 0x04, 4, .store⟩
  | .feCentreWrite i fe _ => some ⟨i, feB fe + 0x10, 4, .store⟩
  | .feTuneWrite i fe _ => some ⟨i, feB fe + 0x34, 4, .store⟩
  | .radioReclaim i => some ⟨i, 0x40000044, 4, .store⟩
  | .licTableWrite i offset _ => some ⟨i, 0x40000800 + 4 * offset.toNat, 4, .store⟩
  | .licCheck i _ => some ⟨i, 0x400000C4, 4, .store⟩
  | .licBurn i _ _ => some ⟨i, 0x400000C4, 4, .store⟩
  | .chzCtrlWrite i fe _ _ => some ⟨i, chzB fe, 4, .store⟩
  | .fabActivate i _ _ => some ⟨i, 0x40160004, 4, .store⟩
  | .fabCheck i _ _ => some ⟨i, 0x40160004, 4, .store⟩
  | .fabReload i _ _ => some ⟨i, 0x40160004, 4, .store⟩
  | .laneStart i lane _ => some ⟨i, laneP lane.toNat + 0x08, 4, .store⟩
  | .laneStop i lane _ => some ⟨i, laneP lane.toNat + 0x08, 4, .store⟩
  | .laneTuneGo i lane _ => some ⟨i, laneP lane.toNat + 0x18, 4, .store⟩
  | .laneMove i lane _ _ => some ⟨i, laneP lane.toNat + 0x28, 4, .store⟩
  | .jobPost i room _ _ => some ⟨i, jobB room.toNat + 0x20, 4, .store⟩
  | .jobCancel i room _ _ => some ⟨i, jobB room.toNat + 0x20, 4, .store⟩
  | .nbrInsert i _ => some ⟨i, 0x40030020, 4, .store⟩
  | .nbrDelete i _ => some ⟨i, 0x40030020, 4, .store⟩
  | .nbrRead i _ => some ⟨i, 0x40030020, 4, .store⟩
  | .nbrLookup i _ => some ⟨i, 0x40030020, 4, .store⟩
  | .queuePop i queue _ => some ⟨i, quePage queue.val, 8, .load⟩
  | .queuePush i queue _ => some ⟨i, quePage queue.val, 8, .store⟩
  | .queueDrop i queue _ => some ⟨i, quePage queue.val + 0x20, 4, .store⟩
  | .queueFlush i queue _ => some ⟨i, quePage queue.val + 0x20, 4, .store⟩
  | .qcFlush i _ _ => some ⟨i, 0x40040008, 4, .store⟩
  | .knkEnWrite i _ => some ⟨i, 0x70010000, 4, .store⟩
  | .knkConfigWrite i isWord _ => some ⟨i, 0x70010000 + (if isWord then 8 else 4), 4, .store⟩
  | .timeMeas i _ _ => some ⟨i, 0x4005004C, 4, .store⟩
  | .timeSet i _ _ => some ⟨i, 0x4005004C, 4, .store⟩
  | .imArm i _ _ => some ⟨i, 0x40050084, 4, .store⟩
  | .imCancel i _ _ => some ⟨i, 0x40050084, 4, .store⟩
  | .timerEnable i timer _ _ => some ⟨i, tmrB timer.val, 4, .store⟩
  | .timerZero i timer _ => some ⟨i, tmrB timer.val + 0x28, 4, .store⟩
  | .timerCmpCommit i timer _ => some ⟨i, tmrCommitAt timer.val 0x18, 4, .store⟩
  | .timerReloadCommit i timer _ => some ⟨i, tmrCommitAt timer.val 8, 4, .store⟩
  | .calSet i _ _ => some ⟨i, 0x70000020, 4, .store⟩
  | .calSync i _ => some ⟨i, 0x70000020, 4, .store⟩
  | .pwrOnSet i _ => some ⟨i, 0x70000040, 4, .store⟩
  | .pwrOnClr i _ => some ⟨i, 0x70000040, 4, .store⟩
  | .ledgCommit i _ _ => some ⟨i, 0x40070000, 4, .store⟩
  | .ledgSuspend i _ _ => some ⟨i, 0x40070000, 4, .store⟩
  | .ledgResume i _ _ => some ⟨i, 0x40070000, 4, .store⟩
  | .ledgReset i _ _ => some ⟨i, 0x40070000, 4, .store⟩
  | .ledgSwitch i _ _ _ => some ⟨i, 0x40070000, 4, .store⟩
  | .ledgPark i _ _ => some ⟨i, 0x40070000, 4, .store⟩
  | .ledgRemove i _ _ => some ⟨i, 0x40070000, 4, .store⟩
  | .ledgWaysWrite i core high _ => some ⟨i, 0x40070040 + 8 * core.toNat + 4 * ofBool high, 4, .store⟩
  | .wdogKick i room _ => some ⟨i, wdogPage room.toNat, 4, .store⟩
  | .phLockRead i chan => some ⟨i, phPage chan.toNat, 4, .load⟩
  | .phRelease i chan => some ⟨i, phPage chan.toNat, 4, .store⟩
  | .phForce i _ _ => some ⟨i, 0x40090000, 4, .store⟩
  | .phSend i chan _ => some ⟨i, phPage chan.toNat + 0x08, 4, .store⟩
  | .phSendEnd i chan _ => some ⟨i, phPage chan.toNat + 0x0C, 4, .store⟩
  | .phRecv i chan => some ⟨i, phPage chan.toNat + 0x10, 4, .load⟩
  | .phRetWrite i chan _ => some ⟨i, phPage chan.toNat + 0x04, 4, .store⟩
  | .cipStart i ctx _ _ _ _ _ => some ⟨i, cipPage ctx.val + 4, 4, .store⟩
  | .cipAbort i ctx _ _ => some ⟨i, cipPage ctx.val + 4, 4, .store⟩
  | .cipClear i ctx _ => some ⟨i, cipPage ctx.val + 4, 4, .store⟩
  | .cipLockRead i => some ⟨i, 0x600400FC, 4, .load⟩
  | .cipLockRelease i => some ⟨i, 0x600400FC, 4, .store⟩
  | .cipCforce i _ => some ⟨i, 0x400A0008, 4, .store⟩
  | .enroll i _ => some ⟨i, 0x400B000C, 4, .store⟩
  | .rotate i _ => some ⟨i, 0x400B000C, 4, .store⟩
  | .rngRestart i _ => some ⟨i, 0x400C0008, 4, .store⟩
  | .rngDataRead i => some ⟨i, 0x400C0000, 4, .load⟩
  | .kpLoad i room _ _ _ _ => some ⟨i, kpPage room.toNat, 4, .store⟩
  | .kpDerive i room _ _ _ _ => some ⟨i, kpPage room.toNat, 4, .store⟩
  | .kpUnwrap i room _ _ _ _ => some ⟨i, kpPage room.toNat, 4, .store⟩
  | .kpUnload i room _ _ _ _ => some ⟨i, kpPage room.toNat, 4, .store⟩
  | .kpDelete i room _ _ _ _ => some ⟨i, kpPage room.toNat, 4, .store⟩
  | .kpFind i room _ _ _ _ => some ⟨i, kpPage room.toNat, 4, .store⟩
  | .pkVerify i _ => some ⟨i, 0x400B1000, 4, .store⟩
  | .pkEcdh i _ => some ⟨i, 0x400B1000, 4, .store⟩
  | .flashProgram i port _ => some ⟨i, fpPage port.toNat + 0x40, 4, .store⟩
  | .flashErase i port _ => some ⟨i, fpPage port.toNat + 0x40, 4, .store⟩
  | .flashSuspend i _ _ => some ⟨i, 0x400D0020, 4, .store⟩
  | .flashResume i _ _ => some ⟨i, 0x400D0020, 4, .store⟩
  | .flcCfgWrite i _ => some ⟨i, 0x400D0000, 4, .store⟩
  | .updHeader i _ => some ⟨i, 0x400E0000, 4, .store⟩
  | .updLoad i _ => some ⟨i, 0x400E0000, 4, .store⟩
  | .updFinish i _ => some ⟨i, 0x400E0000, 4, .store⟩
  | .updActivate i _ => some ⟨i, 0x400E0000, 4, .store⟩
  | .updAbort i _ => some ⟨i, 0x400E0000, 4, .store⟩
  | .updCheck i _ _ => some ⟨i, 0x400E0000, 4, .store⟩
  | .floorClr i _ _ => some ⟨i, 0x400E0000, 4, .store⟩
  | .recover i _ => some ⟨i, 0x400E0000, 4, .store⟩
  | .pwrModeWrite i _ => some ⟨i, 0x400F0000, 4, .store⟩
  | .pwrLcackWrite i _ => some ⟨i, 0x400F001C, 4, .store⟩
  | .pwrGateWrite i _ => some ⟨i, 0x400F0010, 4, .store⟩
  | .supRecordPop i => some ⟨i, 0x40100010, 4, .load⟩
  | .hostInHdrRead i => some ⟨i, 0x4011000C, 4, .load⟩
  | .hostInDataRead i => some ⟨i, 0x40110010, 4, .load⟩
  | .hostOutDataWrite i _ => some ⟨i, 0x40110014, 4, .store⟩
  | .hostOutCommit i _ => some ⟨i, 0x40110018, 4, .store⟩
  | .hostOutDiscard i _ => some ⟨i, 0x40110018, 4, .store⟩
  | .uartDataWrite i u _ => some ⟨i, uartP u.toNat + 4, 4, .store⟩
  | .uartDataRead i u => some ⟨i, uartP u.toNat + 4, 4, .load⟩
  | .uartOwnWrite i _ => some ⟨i, 0x40120F00, 4, .store⟩
  | .i2cRxRead i u => some ⟨i, i2cP u.toNat + 8, 4, .load⟩
  | .i2cOwnWrite i _ => some ⟨i, 0x40130F00, 4, .store⟩
  | .gpioOwnWrite i j _ => some ⟨i, 0x40140000 + 4 * j.toNat, 4, .store⟩
  | .gpioSet i bank _ => some ⟨i, 0x40140408 + 0x10 * bank.toNat, 4, .store⟩
  | .gpioClr i bank _ => some ⟨i, 0x4014040C + 0x10 * bank.toNat, 4, .store⟩
  | .gpioHoldRelease i _ => some ⟨i, 0x40140020, 4, .store⟩
  | .dbgLock i _ => some ⟨i, 0x40150004, 4, .store⟩
  | .rstCmdHall i _ => some ⟨i, 0x70030308, 4, .store⟩
  | .memoryAccess .. | .lanternWriteEffect .. | .eventSourceRaise .. | .interruptTaken .. | .feTransitionDone ..
  | .calibrationSetEnd .. | .feLockLost .. | .feLockFail .. | .feXrefFail .. | .dieTempSample ..
  | .feMismatchMeasure .. | .licBurnDone .. | .binSampleWrite .. | .gainEvaluation .. | .gainChange ..
  | .overloadDetect .. | .overloadDrop .. | .overloadEpisodeEnd .. | .ovlHoldEnd .. | .planCheckDone ..
  | .planSwitch .. | .domainLoadDone .. | .scrubTileRead .. | .laneTuneApply .. | .laneMoveEffective ..
  | .laneDrainRelease .. | .preambleDetection .. | .sfdFound .. | .sfdTimeout .. | .phrDecoded ..
  | .modeSwitchPpdu .. | .frameEnd .. | .laneTimeout .. | .resyncCollision .. | .laneVerdict ..
  | .surveyBlockEnd .. | .cancellerTrainingEnd .. | .fdxMeasurement .. | .gainCapReturn .. | .jobPreparation ..
  | .jobFillTick .. | .ccaDecision .. | .txTransitionStart .. | .txRampUp .. | .underrun .. | .txFrameEnd ..
  | .noAck .. | .rxWinClose .. | .ackCut .. | .ackTransmit .. | .lastGaspStore .. | .dutyBucketAdvance ..
  | .knkListenStart .. | .knkPreambleDetect .. | .knkWordMatch .. | .knkWordTimeout .. | .knkEndOfPattern ..
  | .ppsInEdge .. | .ppsLost .. | .meshLost .. | .timeSec .. | .ppsPulseEnd .. | .refEstimateUpdate .. | .imEdge ..
  | .imWindowExpire .. | .timerCmpEffect .. | .timerWrap .. | .timerMatch .. | .timerCapture .. | .calSecond ..
  | .calOscStop .. | .calSyncApply .. | .roomWdog .. | .cipOperationDone .. | .cipLockExpired ..
  | .rngStartupDone .. | .rngBlockRelease .. | .rngTestFail .. | .kpCommandDone .. | .shelfCompaction ..
  | .pkDone .. | .tamperTrip .. | .vaultEraseDone .. | .flashProgramDone .. | .flashEraseDone ..
  | .flashAutoResume .. | .updHeaderChecked .. | .updWriteDone .. | .houseRestart .. | .houseRewriteDone ..
  | .recoveryInfo .. | .recoveryHeader .. | .recoveryData .. | .recoveryCommit .. | .recoveryAbort ..
  | .recoveryRestart .. | .recoverySessionTimeout .. | .recoveryAutoRestart .. | .entryWfi ..
  | .participantAnswer .. | .handshakeTimeout .. | .modeReached .. | .wake .. | .modeExit .. | .hallStartRetry ..
  | .vcoreAck .. | .vcoreFail .. | .vcoreDownHold .. | .pmbAlert .. | .supZeroCrossing .. | .supRmsRefresh ..
  | .supFastOutage .. | .supDisturbEnd .. | .supOverrun .. | .lgAttempt .. | .lgCca .. | .lgCut .. | .lgFrameEnd ..
  | .lgAckWindow .. | .hostResync .. | .hostMsg .. | .hostPing .. | .readFrame .. | .reread .. | .readStatus ..
  | .hostSessionExpire .. | .uartCharReceived .. | .uartCharSent .. | .i2cStart .. | .i2cWrite .. | .i2cRead ..
  | .i2cStop .. | .i2cNack .. | .i2cArbLost .. | .i2cSclTimeout .. | .gpioEdge .. | .dbgchalCapture ..
  | .dbgchalUpdate .. | .dbgCheckDone .. | .dbgDenyHoldoffEnd .. | .dmiAccess .. | .vbatPowerOn .. | .brownout ..
  | .sysRstPin .. | .lfFirstEdge .. | .lfStartTimeout .. | .hallRelease .. | .romStart .. | .porterStart ..
  | .ckRefRunning .. | .ckLfResume .. | .modeSwitchTimeout .. | .supOverRange .. | .shelfClearingDone ..
  | .markProgrammed .. | .shelfCompactionDone .. | .minimumRunEnd .. | .jtagIrUpdate .. => none

/-- Commands that may change octets of the memories: stores, cache write-backs and context saves, the cipher engine's
key marks, flash programs and erases, image writes, the queue memory's pushes and packets, and what clears or loses a
RAM. -/
def Instr.mayStore : Instr → Bool
  | .registerWrite .. | .memoryAccess .. | .stagedLowWrite .. | .highHalfCommit .. | .planCheckDone ..
  | .planSwitch .. | .laneVerdict .. | .queuePush .. | .ledgCommit .. | .ledgSuspend .. | .ledgReset ..
  | .ledgSwitch .. | .ledgPark .. | .ledgRemove .. | .ledgWaysWrite .. | .roomWdog .. | .cipStart .. | .cipAbort ..
  | .cipClear .. | .cipOperationDone .. | .cipLockRelease .. | .cipCforce .. | .cipLockExpired .. | .tamperTrip ..
  | .flashProgramDone .. | .flashEraseDone .. | .updHeader .. | .updLoad .. | .updFinish .. | .updActivate ..
  | .updAbort .. | .updCheck .. | .floorClr .. | .recover .. | .updHeaderChecked .. | .updWriteDone ..
  | .houseRestart .. | .houseRewriteDone .. | .recoveryData .. | .recoveryCommit .. | .recoveryAbort ..
  | .recoverySessionTimeout .. | .entryWfi .. | .participantAnswer .. | .pwrLcackWrite .. | .modeReached ..
  | .pwrGateWrite .. | .vcoreAck .. | .vcoreFail .. | .dmiAccess .. | .hallRelease .. | .porterStart ..
  | .markProgrammed .. => true
  | .counterLowRead .. | .snapshotCapture .. | .readToClear .. | .lanternWriteEffect .. | .eventSourceRaise ..
  | .interruptTaken .. | .evtClaim .. | .evtDone .. | .feCmdTarget .. | .feCmdCal .. | .feCtrlWrite ..
  | .feCentreWrite .. | .feTransitionDone .. | .calibrationSetEnd .. | .feLockLost .. | .feLockFail ..
  | .feXrefFail .. | .dieTempSample .. | .feTuneWrite .. | .feMismatchMeasure .. | .radioReclaim ..
  | .licTableWrite .. | .licCheck .. | .licBurn .. | .licBurnDone .. | .binSampleWrite .. | .gainEvaluation ..
  | .gainChange .. | .chzCtrlWrite .. | .overloadDetect .. | .overloadDrop .. | .overloadEpisodeEnd ..
  | .ovlHoldEnd .. | .fabActivate .. | .fabCheck .. | .fabReload .. | .domainLoadDone .. | .scrubTileRead ..
  | .laneStart .. | .laneStop .. | .laneTuneGo .. | .laneTuneApply .. | .laneMove .. | .laneMoveEffective ..
  | .laneDrainRelease .. | .preambleDetection .. | .sfdFound .. | .sfdTimeout .. | .phrDecoded ..
  | .modeSwitchPpdu .. | .frameEnd .. | .laneTimeout .. | .resyncCollision .. | .surveyBlockEnd ..
  | .cancellerTrainingEnd .. | .fdxMeasurement .. | .gainCapReturn .. | .jobPost .. | .jobCancel ..
  | .jobPreparation .. | .jobFillTick .. | .ccaDecision .. | .txTransitionStart .. | .txRampUp .. | .underrun ..
  | .txFrameEnd .. | .noAck .. | .rxWinClose .. | .ackCut .. | .ackTransmit .. | .lastGaspStore ..
  | .dutyBucketAdvance .. | .nbrInsert .. | .nbrDelete .. | .nbrRead .. | .nbrLookup .. | .queuePop ..
  | .queueDrop .. | .queueFlush .. | .qcFlush .. | .knkEnWrite .. | .knkConfigWrite .. | .knkListenStart ..
  | .knkPreambleDetect .. | .knkWordMatch .. | .knkWordTimeout .. | .knkEndOfPattern .. | .ppsInEdge ..
  | .ppsLost .. | .timeMeas .. | .timeSet .. | .meshLost .. | .timeSec .. | .ppsPulseEnd .. | .refEstimateUpdate ..
  | .imArm .. | .imCancel .. | .imEdge .. | .imWindowExpire .. | .timerEnable .. | .timerZero ..
  | .timerCmpCommit .. | .timerReloadCommit .. | .timerCmpEffect .. | .timerWrap .. | .timerMatch ..
  | .timerCapture .. | .calSecond .. | .calOscStop .. | .calSet .. | .calSync .. | .calSyncApply .. | .pwrOnSet ..
  | .pwrOnClr .. | .ledgResume .. | .wdogKick .. | .phLockRead .. | .phRelease .. | .phForce .. | .phSend ..
  | .phSendEnd .. | .phRecv .. | .phRetWrite .. | .cipLockRead .. | .enroll .. | .rotate .. | .rngStartupDone ..
  | .rngBlockRelease .. | .rngTestFail .. | .rngRestart .. | .rngDataRead .. | .kpLoad .. | .kpDerive ..
  | .kpUnwrap .. | .kpUnload .. | .kpDelete .. | .kpFind .. | .kpCommandDone .. | .shelfCompaction ..
  | .pkVerify .. | .pkEcdh .. | .pkDone .. | .vaultEraseDone .. | .flashProgram .. | .flashErase ..
  | .flashSuspend .. | .flashResume .. | .flashAutoResume .. | .flcCfgWrite .. | .recoveryInfo ..
  | .recoveryHeader .. | .recoveryRestart .. | .recoveryAutoRestart .. | .pwrModeWrite .. | .handshakeTimeout ..
  | .wake .. | .modeExit .. | .hallStartRetry .. | .vcoreDownHold .. | .pmbAlert .. | .supZeroCrossing ..
  | .supRmsRefresh .. | .supFastOutage .. | .supDisturbEnd .. | .supOverrun .. | .supRecordPop .. | .lgAttempt ..
  | .lgCca .. | .lgCut .. | .lgFrameEnd .. | .lgAckWindow .. | .hostResync .. | .hostMsg .. | .hostPing ..
  | .readFrame .. | .reread .. | .readStatus .. | .hostSessionExpire .. | .hostInHdrRead .. | .hostInDataRead ..
  | .hostOutDataWrite .. | .hostOutCommit .. | .hostOutDiscard .. | .uartCharReceived .. | .uartCharSent ..
  | .uartDataWrite .. | .uartDataRead .. | .uartOwnWrite .. | .i2cStart .. | .i2cWrite .. | .i2cRead ..
  | .i2cStop .. | .i2cNack .. | .i2cArbLost .. | .i2cSclTimeout .. | .i2cRxRead .. | .i2cOwnWrite ..
  | .gpioOwnWrite .. | .gpioSet .. | .gpioClr .. | .gpioEdge .. | .gpioHoldRelease .. | .dbgchalCapture ..
  | .dbgchalUpdate .. | .dbgCheckDone .. | .dbgDenyHoldoffEnd .. | .dbgLock .. | .vbatPowerOn .. | .brownout ..
  | .sysRstPin .. | .rstCmdHall .. | .lfFirstEdge .. | .lfStartTimeout .. | .romStart .. | .ckRefRunning ..
  | .ckLfResume .. | .modeSwitchTimeout .. | .supOverRange .. | .shelfClearingDone .. | .shelfCompactionDone ..
  | .minimumRunEnd .. | .jtagIrUpdate .. => false

end Sys2Proof

namespace Sys2Proof.Machine

/-- The register file and the memories are in their one canonical form, so that equal contents are equal data. -/
def State.canonical (s : State) : Bool := Registers.wf s && Memory.wf s

end Sys2Proof.Machine
end

