-- ==== Sys2Proof/Certificates/Slice0/Obligations.lean ====
section
/-!
DEFINITION. The statements for the provers. Each is about the commands of one part of the chip, for every state and every
operand that meet its hypotheses; where it speaks of a command's effect it says that the command answers a next state.
-/

open Sys2Proof Sys2Proof.Machine

/-- A step at a queue with a command in front runs that command on the state with the queue's rest. -/
def Obligations.StepRunsFrontCommand : Prop :=
  ∀ (c : Instr) (rest : List Instr) (s : State),
    step { s with pending := c :: rest } = exec c { s with pending := rest }

/-- A step with an empty queue changes nothing (the model's choice, log entry 2).

The queue is first in, first out: a step takes the command in front and no command adds, drops or reorders what
waits behind it.

No command stops the machine: from every state every step answers a next state. -/
def Obligations.QueueAndIdling : Prop :=
  (∀ s : State, s.pending = [] → step s = .next s) ∧
  (∀ (c : Instr) (rest : List Instr) (s t : State), s.pending = c :: rest → step s = .next t → t.pending = rest) ∧
  (∀ s : State, ∃ t, step s = .next t)

/-- Every step keeps the canonical form of the register file and of the memories. -/
def Obligations.CanonicalKept : Prop :=
  ∀ s t : State, s.canonical = true → step s = .next t → t.canonical = true

/-- The canonical form holds at reset. -/
def Obligations.ResetCanonical : Prop :=
  State.reset.canonical = true

/-- The frame over the memories: a command outside `mayStore` leaves every octet of every memory as it reads. -/
def Obligations.MemoryFrame : Prop :=
  ∀ (c : Instr) (s t : State), c.mayStore = false → exec c s = .next t → ∀ a, memGet a t = memGet a s

/-- A refused transaction changes nothing at its target: each command that is one transaction of register space, when
the door check refuses it, does what every refusal does and nothing else; and one whose initiator issues no transaction
changes nothing at all.

What a refusal does (R447, R448): memory, jobs, lanes and every register but those of the record stay; the count
goes up by one and saturates; the record is written only while V is 0, with cause, kind, room, initiator and address;
the response is the refusal; and an initiating core takes its access fault with the address. -/
def Obligations.Refusals : Prop :=
  ((∀ (c : Instr) (p : Port) (cause : Nat) (s : State), c.port = some p → issues p.init s = true →
     doorCheck p.init p.addr p.size p.kind s = some cause →
     exec c s = .next (refuse p.init p.addr p.kind cause s)) ∧
   (∀ (c : Instr) (p : Port) (s : State), c.port = some p → issues p.init s = false → exec c s = .next s)) ∧
  (∀ (i : Init) (a cause : Nat) (k : Access) (s : State), Registers.wf s = true → cause < 16 → cause ≠ 9 →
     let t := refuse i a k cause s
     t.bus.resp = .refused cause ∧ t.mem = s.mem ∧ t.link = s.link ∧ t.lanes = s.lanes ∧ t.queues = s.queues ∧
     (∀ x, x ≠ 0x4007000C → x ≠ 0x40070010 → x ≠ 0x40070014 → rd x t = rd x s) ∧
     fget ledgB Reg.LEDG_REFUSE_CNT.CNT t = min (2 ^ 32 - 1) (fget ledgB Reg.LEDG_REFUSE_CNT.CNT s + 1) ∧
     (fis ledgB Reg.LEDG_REFUSE_ST.V s = true → rd 0x4007000C t = rd 0x4007000C s ∧ rd 0x40070010 t = rd 0x40070010 s) ∧
     (fis ledgB Reg.LEDG_REFUSE_ST.V s = false →
       fget ledgB Reg.LEDG_REFUSE_ST.V t = 1 ∧ fget ledgB Reg.LEDG_REFUSE_ST.CAUSE t = cause ∧
       fget ledgB Reg.LEDG_REFUSE_ST.KIND t = k.code ∧ fget ledgB Reg.LEDG_REFUSE_ST.INIT t = i.num ∧
       fget ledgB Reg.LEDG_REFUSE_ST.ROOM t = roomOf i s % 64 ∧ rd 0x40070010 t = BitVec.ofNat 32 a) ∧
     (∀ n, initCore i = some n →
       t.rooms.cores = tset coreReset s.rooms.cores n (trapEntry (trapCause k) false a (coreGet n s))) ∧
     (initCore i = none → t.rooms.cores = s.rooms.cores))

/-- The access codes of R4 at one register: a bit written 1 of a W1S bit sets it and of a W1C bit clears it, an RW bit
takes the written value, every other bit and every other register keeps its own; and a write where no register stands
changes nothing (R42).

A REGISTER_WRITE the door admits (R4, R59): in the hall spine a register without a rule of its own takes the access
codes; a lantern register's write is held in its empty holding register with its writer, and waits while one is held;
LANTERN_WRITE_EFFECT empties the holding register and applies what it held for its writer. -/
def Obligations.RegisterSpace : Prop :=
  ((∀ (a : Nat) (data : Word) (s : State) (r : RegRow) (k : Nat), rowAt a = some (r, k) → Registers.wf s = true →
     (∀ j < 32, (rd a (plainStore a data s)).getLsbD j =
       if (r.w1s.testBit j && data.getLsbD j) = true then true
       else if (r.w1c.testBit j && data.getLsbD j) = true then false
       else if r.rw.testBit j = true then data.getLsbD j else (rd a s).getLsbD j) ∧
     ∀ b, b ≠ a → rd b (plainStore a data s) = rd b s) ∧
   (∀ (a : Nat) (data : Word) (s : State), rowAt a = none → plainStore a data s = s)) ∧
  ((∀ (i : Init) (a off : Nat) (data : Word) (s : State), targetOf a = some (.block 4 off) → off ≠ 8 →
     Admits i a .store s → exec (.registerWrite i a data) s = .next (acknowledge (plainStore a data (drawFree s)))) ∧
   (∀ (i : Init) (a b off : Nat) (data : Word) (s : State), targetOf a = some (.lantern b off) → Admits i a .store s →
     heldGet a s = none → exec (.registerWrite i a data) s = .next (acknowledge (heldPut a (some (i.num, data)) s))) ∧
   (∀ (i : Init) (a b off : Nat) (data : Word) (s : State) (w : Nat × Word), targetOf a = some (.lantern b off) →
     Admits i a .store s → heldGet a s = some w →
     exec (.registerWrite i a data) s = .next { s with bus := { s.bus with resp := .wait } }) ∧
   (∀ (a : Nat) (i : Init) (data : Word) (s : State), heldGet a s = some (i.num, data) →
     exec (.lanternWriteEffect a) s = .next (lanternEffect i a data (heldPut a none s))) ∧
   (∀ (a : Nat) (s : State), heldGet a s = none → exec (.lanternWriteEffect a) s = .next s))

/-- Staged pairs (R71): a low-half write stages for its initiator and shows nowhere; the high-half write commits both
halves and leaves the staging register at 0.

A counter read low half first (R6, R69, R70): the low half is returned and the high half latched for that reader
alone; the high half read next shows the latched value.

A snapshot group (R68): the read of its lowest register returns that register and captures the others for its
reader at the same instant; a captured register returns its capture, whatever the register holds now.

READ_TO_CLEAR (R73): the read of an RC field returns it and clears it: here LEDG_REFUSE_CNT. -/
def Obligations.PairedAndCapturedReads : Prop :=
  ((∀ (i : Init) (a b off : Nat) (data : Word) (s : State), targetOf a = some (.block b off) → isStagedLow a = true →
     Admits i a .store s → exec (.stagedLowWrite i a data) s = .next (acknowledge (stagedPut i a data s))) ∧
   (∀ (i : Init) (data : Word) (s : State), Admits i 0x4003000C .store s →
     exec (.highHalfCommit i 0x4003000C data) s =
       .next (acknowledge (wr64 0x40030008 (Word64.ofHalves (stagedGet i 0x40030008 s) data)
         (stagedPut i 0x40030008 0 s)))) ∧
   (∀ (v : Word64) (a : Nat) (s : State), Registers.wf s = true → rd64 a (wr64 a v s) = v)) ∧
  ((∀ (i : Init) (live air : Word64) (s : State), Admits i 0x40050020 .load s → captureGet i 0x40050020 s = none →
     exec (.counterLowRead i 0x40050020 live air) s =
       .next (respondWord live.low (shadowPut i 0x40050024 live.high s))) ∧
   (∀ (i : Init) (live air : Word64) (s : State), Admits i 0x40050010 .load s → captureGet i 0x40050010 s = none →
     exec (.counterLowRead i 0x40050010 live air) s =
       .next (respondWord live.low (shadowPut i 0x40050018 air.low (shadowPut i 0x4005001C air.high
         (shadowPut i 0x40050014 live.high s))))) ∧
   (∀ (i : Init) (s : State), shownView i 0x40050024 s = shadowGet i 0x40050024 s)) ∧
  ((∀ (i : Init) (s : State), Admits i 0x4007000C .load s → captureGet i 0x4007000C s = none →
     ∃ t, exec (.snapshotCapture i 0x4007000C) s = .next (respondWord (rd 0x4007000C s) t) ∧
       t.regs = s.regs ∧ t.bus = (capturePut i 0x40070010 (rd 0x40070010 s) s).bus) ∧
   (∀ (i : Init) (a : Nat) (v : Word) (s : State), captureGet i a s = some v → a / 0x1000 ≠ 0x60040 →
     ∀ live air, regLoad i a live air s = (v, s)) ∧
   (∀ (i : Init) (a : Nat) (v : Word) (s : State), captureGet i a (capturePut i a v s) = some v)) ∧
  (∀ (i : Init) (s : State), Admits i 0x40070014 .load s → captureGet i 0x40070014 s = none → Registers.wf s = true →
     ∃ t, exec (.readToClear i 0x40070014) s = .next (respondWord (rd 0x40070014 s) t) ∧ rd 0x40070014 t = 0 ∧
       ∀ a, a ≠ 0x40070014 → rd a t = rd a s)

/-- An admitted access of a memory that no cache serves: a load and a fetch answer the octets, little-endian, and a
store changes exactly its own octets; data of wrong parity is refused with PARITY and a store then changes no octet.

Atomics of an application core (R439): LR answers the word and reserves its address; SC stores and answers 0 while
the reservation stands, else answers 1 and stores nothing; an AMO answers the old word and stores the result; a store
by another initiator ends the reservations it overlaps. -/
def Obligations.MemoryAccesses : Prop :=
  ((∀ (i : Init) (size : BitVec 2) (a : Nat) (t : Target) (s : State), targetOf a = some t → t.isRegister = false →
     t ≠ .flash → t ≠ .queueMemory → issues i s = true → cachedFor i a s = none →
     doorCheck i a (2 ^ size.toNat) .load s = none →
     exec (.memoryAccess i (.load size) a true .clean) s =
       .next (respond (BitVec.ofNat 64 (memNat a (2 ^ size.toNat) s)) s) ∧
     exec (.memoryAccess i (.load size) a false .clean) s = .next (refuse i a .load 9 s)) ∧
   (∀ (i : Init) (wide : Bool) (a : Nat) (t : Target) (s : State), targetOf a = some t → t.isRegister = false →
     t ≠ .flash → t ≠ .queueMemory → issues i s = true → cachedFor i a s = none →
     doorCheck i a (if wide then 4 else 2) .fetch s = none →
     exec (.memoryAccess i (.fetch wide) a true .clean) s =
       .next (respond (BitVec.ofNat 64 (memNat a (if wide then 4 else 2) s)) s)) ∧
   (∀ (i : Init) (size : BitVec 2) (data : Word64) (a : Nat) (t : Target) (s : State), targetOf a = some t →
     t.isRegister = false → t ≠ .flash → issues i s = true → cachedFor i a s = none → Memory.wf s = true →
     doorCheck i a (2 ^ size.toNat) .store s = none →
     (∃ u, exec (.memoryAccess i (.store size data) a true .clean) s = .next (acknowledge u) ∧
       memBytes a (2 ^ size.toNat) u = leBytes (2 ^ size.toNat) data.toNat ∧
       ∀ x, x < a ∨ a + 2 ^ size.toNat ≤ x → memGet x u = memGet x s) ∧
     exec (.memoryAccess i (.store size data) a false .clean) s = .next (refuse i a .store 9 s)) ∧
   (∀ (i : Init) (op : MemOp) (a : Nat) (p : Bool) (e : EccSeen) (s : State), issues i s = false →
     exec (.memoryAccess i op a p e) s = .next s)) ∧
  ((∀ (c : BitVec 2) (wide : Bool) (a b : Nat) (s : State), targetOf a = some (.sram b) → issues (.appCore c) s = true →
     cachedFor (.appCore c) a s = none → a % wideOctets wide = 0 → atomicDeny (.appCore c) a (wideOctets wide) s = none →
     doorCheck (.appCore c) a (wideOctets wide) .load s = none →
     exec (.memoryAccess (.appCore c) (.lr wide) a true .clean) s =
       .next (respond (BitVec.ofNat 64 (memNat a (wideOctets wide) s)) (reserve (.appCore c) (some a) s)) ∧
     ∀ data, (coreGet (3 + c.toNat) s).reserved ≠ some a →
       exec (.memoryAccess (.appCore c) (.sc wide data) a true .clean) s =
         .next (respond 1 (reserve (.appCore c) none s))) ∧
   (∀ (c : BitVec 2) (wide : Bool) (a b : Nat) (op : AmoOp) (data : Word64) (s : State), targetOf a = some (.sram b) →
     issues (.appCore c) s = true → cachedFor (.appCore c) a s = none → a % wideOctets wide = 0 →
     atomicDeny (.appCore c) a (wideOctets wide) s = none → doorCheck (.appCore c) a (wideOctets wide) .load s = none →
     exec (.memoryAccess (.appCore c) (.amo wide op data) a true .clean) s =
       .next (respond (BitVec.ofNat 64 (memNat a (wideOctets wide) s)) (memStore (.appCore c) a
         (leBytes (wideOctets wide) (amoResult op (8 * wideOctets wide) (memNat a (wideOctets wide) s) data.toNat)) s))))

/-- FE_CMD (R92–R94, R118). Refused while the lantern holds the token, or else while a job is armed, with OWNER or BUSY
alone and FE_CMD_REJECT. A TARGET of 5–7 sets CMD alone. TARGET 0 with CAL = 1 requests calibration alone. During a
transition the target is held. With no transition and nothing held, a TARGET equal to the state fires FE_STATE at once
and starts no transition, and any other starts the first transition of the walk.

FE_CTRL and FE_CENTRE (R74, R95, R98). A change of WIDTH outside SLEEP, STANDBY and SYNTH, or of ARR or EXTPA_EN
outside SLEEP and STANDBY, is ignored as a whole with BUSY; in SLEEP or STANDBY the register takes the write. A centre
outside the range of R74 sets RANGE alone; in STANDBY with nothing under way it is stored; during a transition it is
stored and waits; in RX the front end hops: its transition to SYNTH begins. -/
def Obligations.FrontEndWrites : Prop :=
  ((∀ (i : Init) (fe : Fe) (data : Word) (temp : BitVec 16) (s : State), Admits i (feB fe + 8) .store s →
     (fis (feB fe) Reg.FE_STAT.OWNER s = true → exec (.feCmdTarget i fe data temp) s =
       .next (acknowledge (raiseEvt (feEv fe + 3) (fset (feB fe) Reg.FE_ERR.OWNER 1 s)))) ∧
     (fis (feB fe) Reg.FE_STAT.OWNER s = false → fis (feB fe) Reg.FE_STAT.ARMED s = true →
       exec (.feCmdTarget i fe data temp) s =
         .next (acknowledge (raiseEvt (feEv fe + 3) (fset (feB fe) Reg.FE_ERR.BUSY 1 s)))) ∧
     (feRefused fe s = none → 5 ≤ bitsOf data 0 3 →
       exec (.feCmdTarget i fe data temp) s = .next (acknowledge (fset (feB fe) Reg.FE_ERR.CMD 1 s)))) ∧
   (∀ (i : Init) (fe : Fe) (s : State), Admits i (feB fe + 8) .store s → feRefused fe s = none →
     (∀ t, (feGet fe s).trans = some t → t.cal = false) →
     exec (.feCmdCal i fe) s = .next (acknowledge (fset (feB fe) Reg.FE_STAT.CAL_PEND 1 s))) ∧
   (∀ (i : Init) (fe : Fe) (t : Nat) (data : Word) (temp : BitVec 16) (s : State), Admits i (feB fe + 8) .store s →
     feRefused fe s = none → bitsOf data 0 3 = t → 1 ≤ t → t ≤ 4 → bitOf data 3 = false → Registers.wf s = true →
     ((feGet fe s).trans.isSome = true →
       exec (.feCmdTarget i fe data temp) s = .next (acknowledge (fset (feB fe) Reg.FE_STAT.PEND 1
         (fset (feB fe) Reg.FE_STAT.PEND_TARGET t (fePut fe { feGet fe s with announce := true } s))))) ∧
     ((feGet fe s).trans = none → (feGet fe s).centrePend = false → (feGet fe s).needRelock = false →
       fis (feB fe) Reg.FE_STAT.PEND s = false → feState fe s < 4 →
       (feState fe s = t - 1 → exec (.feCmdTarget i fe data temp) s = .next (acknowledge (raiseEvt (feEv fe)
         (fePut fe { feGet fe s with announce := false } (fset (feB fe) Reg.FE_STAT.TARGET (t - 1) s))))) ∧
       (feState fe s ≠ t - 1 → ∃ u, exec (.feCmdTarget i fe data temp) s = .next u ∧
         (feGet fe u).trans.map (fun x => (x.src, x.dst)) =
           some (feState fe s, if feState fe s < t - 1 then feState fe s + 1 else feState fe s - 1) ∧
         (feGet fe u).announce = true ∧ fis (feB fe) Reg.FE_STAT.BUSY u = true)))) ∧
  ((∀ (i : Init) (fe : Fe) (data : Word) (s : State), Admits i (feB fe + 4) .store s → feRefused fe s = none →
     bitsOf data 0 2 ≤ 1 → (fe = .b → bitOf data 4 = false) →
     ((feStates fe s).all (fun x => decide (x ≤ 1)) = true → bitOf data 5 = false →
       exec (.feCtrlWrite i fe data) s = .next (acknowledge (wr (feB fe + 4) (data &&& 0xBF#32) s))) ∧
     ((∃ x ∈ feStates fe s, 2 < x) → bitsOf data 2 2 ≠ bitsOf (rd (feB fe + 4) s) 2 2 →
       exec (.feCtrlWrite i fe data) s = .next (acknowledge (fset (feB fe) Reg.FE_ERR.BUSY 1 s))) ∧
     ((∃ x ∈ feStates fe s, 1 < x) → bitsOf data 0 2 ≠ bitsOf (rd (feB fe + 4) s) 0 2 →
       exec (.feCtrlWrite i fe data) s = .next (acknowledge (fset (feB fe) Reg.FE_ERR.BUSY 1 s)))) ∧
   (∀ (i : Init) (fe : Fe) (data : Word) (s : State), Admits i (feB fe + 0x10) .store s → feRefused fe s = none →
     ((feGet fe s).trans.isSome = true ∨ feState fe s < 4) →
     (centreOk fe data.toNat = false →
       exec (.feCentreWrite i fe data) s = .next (acknowledge (fset (feB fe) Reg.FE_ERR.RANGE 1 s))) ∧
     (centreOk fe data.toNat = true → (feGet fe s).trans.isSome = true →
       exec (.feCentreWrite i fe data) s = .next (acknowledge (fePut fe { feGet fe s with centrePend := true }
         (wr (feB fe + 0x10) data s)))) ∧
     (centreOk fe data.toNat = true → (feGet fe s).trans = none → Registers.wf s = true → feState fe s ≤ 1 →
       fget (feB fe) Reg.FE_STAT.TARGET s = feState fe s → fis (feB fe) Reg.FE_STAT.PEND s = false →
       (feGet fe s).announce = false → (feGet fe s).needRelock = false →
       exec (.feCentreWrite i fe data) s = .next (acknowledge (fePut fe { feGet fe s with centrePend := false }
         (wr (feB fe + 0x10) data s)))) ∧
     (centreOk fe data.toNat = true → (feGet fe s).trans = none → Registers.wf s = true → feState fe s = 3 →
       exec (.feCentreWrite i fe data) s = .next (acknowledge (feHop fe 0
         (fePut fe { feGet fe s with centrePend := false } (wr (feB fe + 0x10) data s)))))) ∧
   (∀ (fe : Fe) (temp : BitVec 16) (s : State),
     (feGet fe (feHop fe temp s)).trans.map (fun x => (x.src, x.dst)) = some (3, 2)) ∧
   (∀ hz, (centreOk .a hz = true ↔ 410000000 ≤ hz ∧ hz ≤ 1050000000) ∧
     (centreOk .b hz = true ↔ 2400000000 ≤ hz ∧ hz ≤ 2483500000)))

/-- The end of a transition (R90, R92, R96, R100). One up to SYNTH that reaches the target reads that state, not busy,
with FE_STATE raised once when it was asked for; entering SYNTH locks; one whose calibration set still runs ends
with the set; entering RX from SYNTH starts a residence at sample index 0 with its air tick in FE_RXT0. The end of a
calibration set records its results, clears CAL_PEND and fires FE_CAL_DONE.

Loss of lock, of the lock's time and of the reference (R101, R102). In SYNTH with no transition, loss of lock counts,
sets LOCK_LOST, raises FE_LOCK_LOST and begins a relock; a lock that fails goes to STANDBY with LOCK_FAIL; loss of the
reference puts both front ends in SLEEP with XREF_FAIL on each. -/
def Obligations.FrontEndTransitions : Prop :=
  ((∀ (fe : Fe) (temp : BitVec 16) (rxt0 : Word64) (s : State) (t : FeTrans), (feGet fe s).trans = some t →
     t.cal = false → t.dst ≤ 2 → Registers.wf s = true → (feGet fe s).centrePend = false →
     (feGet fe s).needRelock = false → fis (feB fe) Reg.FE_STAT.PEND s = false →
     fget (feB fe) Reg.FE_STAT.TARGET s = t.dst →
     ∃ u, exec (.feTransitionDone fe temp rxt0) s = .next u ∧ feState fe u = t.dst ∧
       fis (feB fe) Reg.FE_STAT.BUSY u = false ∧ (feGet fe u).trans = none ∧ (feGet fe u).announce = false ∧
       (t.dst = 2 → t.src ≤ 2 → fis (feB fe) Reg.FE_STAT.LOCK u = true) ∧
       ((feGet fe s).announce = true → ∃ v, u = raiseEvt (feEv fe) v)) ∧
   (∀ (fe : Fe) (temp : BitVec 16) (rxt0 : Word64) (s : State) (t : FeTrans), (feGet fe s).trans = some t →
     t.cal = true → exec (.feTransitionDone fe temp rxt0) s = .next s) ∧
   (∀ (fe : Fe) (rxt0 : Word64) (s : State), Registers.wf s = true →
     rd64 (feB fe + 0x20) (residenceStart fe rxt0 s) = rxt0 ∧ rd48 (feB fe + 0x18) (residenceStart fe rxt0 s) = 0 ∧
     (feGet fe (residenceStart fe rxt0 s)).residence = true) ∧
   (∀ (fe : Fe) (temp : BitVec 16) (fail : BitVec 5) (band : BitVec 6) (irr dc lol bw : Word) (s : State) (t : FeTrans),
     (feGet fe s).trans = some t → t.cal = true → (feGet fe s).calAgain = false → Registers.wf s = true →
     ∃ u, exec (.calibrationSetEnd fe temp fail band irr dc lol bw) s = .next (raiseEvt (feEv fe + 7) u) ∧
       (feGet fe u).trans = some { t with cal := false } ∧ fis (feB fe) Reg.FE_STAT.CAL_PEND u = false ∧
       fget (feB fe) Reg.CAL_STAT.TEMP_AT_CAL u = temp.toNat ∧ fget (feB fe) Reg.CAL_STAT.DONE u = 31 ∧
       fget (feB fe) Reg.FE_SYN.VCO_BAND u = band.toNat ∧ rd (feB fe + 0x8C) u = dc)) ∧
  ((∀ (fe : Fe) (s : State), Registers.wf s = true → (feGet fe s).trans = none → feState fe s = 2 →
     fis (feB fe) Reg.FE_STAT.LOCK s = true → airGet fe s = none →
     ∃ u, exec (.feLockLost fe) s = .next u ∧ fis (feB fe) Reg.FE_ERR.LOCK_LOST u = true ∧
       fget (feB fe) Reg.FE_SYN.LOST_CNT u = min 255 (fget (feB fe) Reg.FE_SYN.LOST_CNT s + 1) ∧
       (feGet fe u).trans.map (fun x => (x.src, x.dst)) = some (2, 2)) ∧
   (∀ (fe : Fe) (cal : Bool) (s : State), Registers.wf s = true → (feGet fe s).trans = some ⟨2, 2, cal⟩ →
     ∃ u, exec (.feLockFail fe) s = .next u ∧ fis (feB fe) Reg.FE_ERR.LOCK_FAIL u = true ∧
       fget (feB fe) Reg.FE_STAT.TARGET u = 1 ∧ (feGet fe u).trans.map (fun x => (x.src, x.dst)) = some (2, 1)) ∧
   (∀ (s : State), Registers.wf s = true → (∀ fe, (feGet fe s).residence = false ∧ airGet fe s = none) →
     ∃ u, exec .feXrefFail s = .next u ∧ feState .a u = 0 ∧ feState .b u = 0 ∧
       fis (feB .a) Reg.FE_ERR.XREF_FAIL u = true ∧ fis (feB .b) Reg.FE_ERR.XREF_FAIL u = true))

/-- A die temperature sample (R134) is recorded outside SLEEP, and requests calibration when it lies more than
TEMP_DELTA °C from the last calibration's and TEMP_DELTA is not 0; a tuner setting written in SLEEP, STANDBY or SYNTH is
in force at once, and otherwise held with PENDING (R106).

The mismatch window of a frame (R107–R109): with MEAS_EN 1 in TX or DUPLEX the measurement is recorded and SEQ
counts; one without enough forward level is marked not valid and does nothing else; a valid one above PROT_TH sets
PROT; ALARM_N consecutive valid ones above ALARM_TH set TUNE_ALARM and restart the count. With MEAS_EN 0 nothing is
measured.

RADIO_RECLAIM (R113): while SEQ reads IDLE the token goes to the hall; otherwise RECL_REF is set and nothing else
changes.

P_set (R140): never below −20 dBm; with PROT clear never above the request and each cap unless that floor holds;
and with PROT set 6 dB lower than without, down to the floor. -/
def Obligations.RadioUpkeep : Prop :=
  ((∀ (fe : Fe) (temp : BitVec 16) (s : State), feState fe s ≠ 0 → Registers.wf s = true →
     (fget (feB fe) Reg.CAL_CFG.TEMP_DELTA s = 0 →
       exec (.dieTempSample fe temp) s = .next (fset (feB fe) Reg.CAL_CFG.TEMP_NOW temp.toNat s)) ∧
     (fget (feB fe) Reg.CAL_CFG.TEMP_DELTA s ≠ 0 → (feGet fe s).trans = none →
       exec (.dieTempSample fe temp) s = .next (if 4 * fget (feB fe) Reg.CAL_CFG.TEMP_DELTA s <
           (temp.toInt - fgetS (feB fe) Reg.CAL_STAT.TEMP_AT_CAL s).natAbs
         then fset (feB fe) Reg.FE_STAT.CAL_PEND 1 (fset (feB fe) Reg.CAL_CFG.TEMP_NOW temp.toNat s)
         else fset (feB fe) Reg.CAL_CFG.TEMP_NOW temp.toNat s))) ∧
   (∀ (i : Init) (fe : Fe) (data : Word) (s : State), Admits i (feB fe + 0x34) .store s → Registers.wf s = true →
     fis (feB fe) Reg.FE_CTRL.AUTO_TUNE s = false →
     ∃ u, exec (.feTuneWrite i fe data) s = .next u ∧ tuneSetting fe u = bitsOf data 0 17 ∧
       (feState fe s ≤ 2 → (feGet fe u).tuneNow = bitsOf data 0 17 ∧ fis (feB fe) Reg.FE_TUNE.PENDING u = false) ∧
       (2 < feState fe s →
         (feGet fe u).tuneNow = (feGet fe s).tuneNow ∧ fis (feB fe) Reg.FE_TUNE.PENDING u = true))) ∧
  ((∀ (fe : Fe) (mag fwd : BitVec 8) (phase : BitVec 6) (strong : Bool) (s : State),
     fis (feB fe) Reg.FE_CTRL.MEAS_EN s = false → exec (.feMismatchMeasure fe mag phase fwd strong) s = .next s) ∧
   (∀ (fe : Fe) (mag fwd : BitVec 8) (phase : BitVec 6) (strong : Bool) (s : State), Registers.wf s = true →
     fis (feB fe) Reg.FE_CTRL.MEAS_EN s = true → 4 ≤ feState fe s → fis (feB fe) Reg.FE_CTRL.AUTO_TUNE s = false →
     ∃ u, exec (.feMismatchMeasure fe mag phase fwd strong) s = .next u ∧
       fget (feB fe) Reg.FE_MISMATCH.GAMMA_MAG u = mag.toNat ∧ fget (feB fe) Reg.FE_MISMATCH.GAMMA_PH u = phase.toNat ∧
       fget (feB fe) Reg.FE_MISMATCH.FWD_QDBM u = fwd.toNat ∧ fis (feB fe) Reg.FE_MISMATCH.VALID u = strong ∧
       fget (feB fe) Reg.FE_MISMATCH.SEQ u = (fget (feB fe) Reg.FE_MISMATCH.SEQ s + 1) % 256 ∧
       (strong = false → fget (feB fe) Reg.FE_ERR.PROT u = fget (feB fe) Reg.FE_ERR.PROT s ∧ feGet fe u = feGet fe s) ∧
       (strong = true → fget (feB fe) Reg.FE_TUNE_CFG.PROT_TH s < mag.toNat → fis (feB fe) Reg.FE_ERR.PROT u = true) ∧
       (strong = true → fget (feB fe) Reg.FE_TUNE_CFG.ALARM_TH s < mag.toNat →
         fget (feB fe) Reg.FE_TUNE_CFG.ALARM_N s ≠ 0 →
         fget (feB fe) Reg.FE_TUNE_CFG.ALARM_N s ≤ (feGet fe s).alarmRun + 1 →
         fis (feB fe) Reg.FE_ERR.TUNE_ALARM u = true ∧ (feGet fe u).alarmRun = 0))) ∧
  (∀ (i : Init) (s : State), Admits i 0x40000044 .store s → Registers.wf s = true →
     (fget (feB .a) Reg.FE_OWNER.SEQ s ≠ 0 →
       exec (.radioReclaim i) s = .next (acknowledge (fset (feB .a) Reg.FE_ERR.RECL_REF 1 s))) ∧
     (fget (feB .a) Reg.FE_OWNER.SEQ s = 0 → ∃ u, exec (.radioReclaim i) s = .next u ∧
       fis (feB .a) Reg.FE_OWNER.OWNER u = false ∧ fis (feB .a) Reg.FE_STAT.OWNER u = false ∧
       fis (feB .b) Reg.FE_STAT.OWNER u = false)) ∧
  (∀ (fe : Fe) (req plic : Int) (v : Nat) (s : State),
     -80 ≤ powerSet fe req plic v s ∧
     (powerSet fe req plic v s = -80 ∨ (powerSet fe req plic v s ≤ req ∧ powerSet fe req plic v s ≤ plic ∧
       powerSet fe req plic v s ≤ fgetS (feB fe) Reg.FE_PA.MAX_QDBM s ∧ powerSet fe req plic v s ≤ headFloor fe v)) ∧
     (∀ t, fget (feB fe) Reg.FE_PA.MAX_QDBM t = fget (feB fe) Reg.FE_PA.MAX_QDBM s →
       fis (feB fe) Reg.FE_ERR.PROT s = false → fis (feB fe) Reg.FE_ERR.PROT t = true →
       powerSet fe req plic v t = max (-80) (powerSet fe req plic v s - 24)))

/-- The licence table is written once (R147, R148): in BLANK or PARTIAL a Steward's write goes to the staging RAM and a
CHECK sets STAGE_OK to what R145 says of it; a burn that passes its conditions makes the state BURNING, one that fails
them records why, and one with CHECK as well or with another key does nothing; the end of a burn with no plan active makes
the state LOCKED with the staged image, or FAULT with BURN_ERR 5. -/
def Obligations.LicenceTable : Prop :=
  (∀ (offset : BitVec 9) (data : Word) (s : State), Admits .steward (0x40000800 + 4 * offset.toNat) .store s →
    exec (.licTableWrite .steward offset data) s = .next (acknowledge { s with lic := { s.lic with
      stage := licWordPut (4 * offset.toNat) data s.lic.stage } })) ∧
  (∀ (offset : BitVec 9) (s : State), licState s = 1 ∨ licState s = 2 ∨ licState s = 4 →
    doorCheck .steward (0x40000800 + 4 * offset.toNat) 4 .store s ≠ none) ∧
  (∀ (s : State), Admits .steward 0x400000C4 .store s → (licState s = 0 ∨ licState s = 3) →
    exec (.licCheck .steward 0x4C43) s = .next (acknowledge (fset (feB .a) Reg.LIC_STAT.STAGE_OK
      (if licValid s.lic.stage then 1 else 0) s))) ∧
  (∀ (s : State), Admits .steward 0x400000C4 .store s →
    (burnRefused s = 0 →
      exec (.licBurn .steward 0x4C43 false) s = .next (acknowledge (fset (feB .a) Reg.LIC_STAT.STATE 1 s))) ∧
    (burnRefused s ≠ 0 → exec (.licBurn .steward 0x4C43 false) s =
      .next (acknowledge (fset (feB .a) Reg.LIC_STAT.BURN_ERR (burnRefused s) s))) ∧
    exec (.licBurn .steward 0x4C43 true) s = .next (acknowledge s)) ∧
  (∀ (i : Init) (key : BitVec 16) (check : Bool) (s : State), Admits i 0x400000C4 .store s →
    (i ≠ .steward ∨ key ≠ 0x4C43) → exec (.licBurn i key check) s = .next (acknowledge s) ∧
      exec (.licCheck i key) s = .next (acknowledge s)) ∧
  (∀ (s : State), licState s = 1 → Registers.wf s = true →
    ∃ u v, exec (.licBurnDone true) s = .next u ∧ u.lic.otp = s.lic.stage ∧ licState u = 2 ∧
      exec (.licBurnDone false) s = .next v ∧ licState v = 4 ∧ fget (feB .a) Reg.LIC_STAT.BURN_ERR v = 5)

/-- The gain loop (R174–R176, R192). A suppressed evaluation changes nothing; any other records its levels, and one at
which no window opens nothing else; in a window the gain wanted, when it differs, is scheduled for input period
16m + 18; a raise never leaves less headroom than TARGET. A change takes effect with its period and cause, and nothing
is then scheduled.

CHZ_CTRL (R176, R180): every write cancels the scheduled change; one that changes neither MODE nor MGAIN, or that
comes outside a residence, does nothing else to the loop; one that sets MANUAL in a residence schedules MGAIN two input
periods on, unless an episode's reduced gain holds. The cap of DUPLEX ends by GAIN_CAP_RETURN (R301). -/
def Obligations.CaptureGain : Prop :=
  ((∀ (fe : Fe) (m : BitVec 44) (peakQ meanQ : BitVec 16) (s : State),
     let b := chzB fe
     let level := fset b Reg.CHZ_LEVEL.MEAN_Q meanQ.toNat (fset b Reg.CHZ_LEVEL.PEAK_Q peakQ.toNat s)
     (evalSuppressed fe m.toNat s = true → exec (.gainEvaluation fe m peakQ meanQ) s = .next s) ∧
     (evalSuppressed fe m.toNat s = false → Registers.wf s = true →
       (fget b Reg.CHZ_WIN.BUDGET s ≤ fget b Reg.CHZ_GAIN_STAT.MIDFRAME s →
         16 * (m.toNat + 1) < (chzGet fe s).lastWindow + 9375 →
         exec (.gainEvaluation fe m peakQ meanQ) s = .next level) ∧
       (fget b Reg.CHZ_GAIN_STAT.MIDFRAME s < fget b Reg.CHZ_WIN.BUDGET s →
         gainWanted fe peakQ.toInt s ≠ chzGain fe s →
         ∃ t, exec (.gainEvaluation fe m peakQ meanQ) s = .next t ∧
           (chzGet fe t).sched = some ⟨gainWanted fe peakQ.toInt s, 16 * m.toNat + 18, 0⟩ ∧
           (chzGet fe t).lastWindow = 16 * (m.toNat + 1) ∧ fis b Reg.CHZ_GAIN_STAT.PEND t = true ∧
           fget b Reg.CHZ_GAIN_STAT.PEND_CODE t = gainWanted fe peakQ.toInt s ∧ chzGain fe t = chzGain fe s))) ∧
   (∀ (fe : Fe) (peak : Int) (s : State), gainWanted fe peak s ≤ 31 ∧
     (chzGain fe s < gainWanted fe peak s →
       4 * (fget (chzB fe) Reg.CHZ_GAIN_CFG.TARGET s : Int) ≤ -peak - 8 * (gainWanted fe peak s - chzGain fe s : Int) ∧
       fis (chzB fe) Reg.CHZ_OVL_STAT.HOLD s = false)) ∧
   (∀ (fe : Fe) (s : State), (chzGet fe s).sched = none → exec (.gainChange fe) s = .next s) ∧
   (∀ (fe : Fe) (s : State) (g : GainChange), (chzGet fe s).sched = some g → (chzGet fe s).cap = none →
     Registers.wf s = true → g.code < 32 → g.period < 2 ^ 48 → g.cause < 4 →
     ∃ t, exec (.gainChange fe) s = .next t ∧ chzGain fe t = g.code ∧ rd48 (chzB fe + 0xC) t = g.period ∧
       fget (chzB fe) Reg.CHZ_GAIN_STAT.CAUSE t = g.cause ∧ fis (chzB fe) Reg.CHZ_GAIN_STAT.PEND t = false ∧
       (chzGet fe t).sched = none)) ∧
  ((∀ (i : Init) (fe : Fe) (data : Word) (period : BitVec 48) (s : State), Admits i (chzB fe) .store s →
     (bitsOf (rd (chzB fe) s) 0 9 = bitsOf (data &&& 0x31F#32) 0 9 ∨ (feGet fe s).residence = false) →
     Registers.wf s = true →
     exec (.chzCtrlWrite i fe data period) s = .next (acknowledge (lanesManual fe
       (wr (chzB fe) (data &&& 0x31F#32) (cancelGain fe s))))) ∧
   (∀ (i : Init) (fe : Fe) (data : Word) (period : BitVec 48) (s : State), Admits i (chzB fe) .store s →
     bitsOf (rd (chzB fe) s) 0 9 ≠ bitsOf (data &&& 0x31F#32) 0 9 → (feGet fe s).residence = true →
     Registers.wf s = true → bitOf data 8 = true → ovlActive fe s = false →
     fis (chzB fe) Reg.CHZ_OVL_STAT.HOLD s = false →
     exec (.chzCtrlWrite i fe data period) s = .next (acknowledge (lanesManual fe
       (schedGain fe ⟨bitsOf data 0 5, period.toNat + 2, 3⟩
         (wr (chzB fe) (data &&& 0x31F#32) (cancelGain fe s)))))) ∧
   (∀ (fe : Fe) (s : State), chzManual fe s = false → lanesManual fe s = s) ∧
   (∀ (fe : Fe) (period : BitVec 48) (s : State), (chzGet fe s).capRet = none →
     exec (.gainCapReturn fe period) s = .next s) ∧
   (∀ (fe : Fe) (period : BitVec 48) (s : State) (cap : Nat), (chzGet fe s).capRet = some cap →
     chzGain fe s ≠ cap → exec (.gainCapReturn fe period) s =
       .next (chzPut fe { chzGet fe s with capRet := none } s)))

/-- Overload (R181–R185). A detection in a residence that is not deaf cancels the scheduled change and opens an episode
when none is open; with OVL_DROP a drop of 12 dB, or to 0 dB, is then due, and it takes effect with cause 2 and FE_OVL.
The episode's end gives OVL_CLEAN = e + 24 and starts the hold, whose end clears HOLD.

The canceller (R297, R299, R306). Training that reaches its depth ends with the margin at 1 MHz; one that misses it
keeps the wide margin, sets CONV_FAIL and is made again; a span of a DUPLEX frame at 0 dBm or more records ISO_MEAS,
CANCEL and VALID and counts SEQ, with ISO_LOW when the isolation lies below 25 dB, and any other frame leaves FDX_MEAS. -/
def Obligations.OverloadAndCanceller : Prop :=
  ((∀ (fe : Fe) (start : BitVec 48) (s : State), (feGet fe s).residence = false ∨ chzDeaf fe s = true →
     exec (.overloadDetect fe start) s = .next s) ∧
   (∀ (fe : Fe) (start : BitVec 48) (s : State), (feGet fe s).residence = true → chzDeaf fe s = false →
     Registers.wf s = true → fis (chzB fe) Reg.CHZ_CTRL.OVL_DROP s = true → chzGain fe s ≠ 0 →
     ∃ t, exec (.overloadDetect fe start) s = .next t ∧ (chzGet fe t).sched = none ∧
       (chzGet fe t).drop = some (chzGain fe s - 6) ∧ ovlActive fe t = true ∧ chzGain fe t = chzGain fe s ∧
       ovlStart fe t = (if ovlActive fe s then ovlStart fe s else start.toNat) ∧
       fget (chzB fe) Reg.CHZ_OVL_STAT.DROP_CNT t =
         (if ovlActive fe s then min 255 (fget (chzB fe) Reg.CHZ_OVL_STAT.DROP_CNT s + 1) else 1)) ∧
   (∀ (fe : Fe) (period : BitVec 48) (s : State), (chzGet fe s).drop = none →
     exec (.overloadDrop fe period) s = .next s) ∧
   (∀ (fe : Fe) (period : BitVec 48) (s : State) (c : Nat), (chzGet fe s).drop = some c → (chzGet fe s).cap = none →
     exec (.overloadDrop fe period) s = .next (raiseEvt (feEv fe + 4) (wr48 (chzB fe + 0xC) period.toNat
       (fset (chzB fe) Reg.CHZ_GAIN_STAT.CAUSE 2 (fset (chzB fe) Reg.CHZ_GAIN_STAT.GAIN c
         (chzPut fe { chzGet fe s with drop := none } s)))))) ∧
   (∀ (fe : Fe) (e : BitVec 48) (s : State), Registers.wf s = true →
     (ovlActive fe s = false → exec (.overloadEpisodeEnd fe e) s = .next s) ∧
     (ovlActive fe s = true → e.toNat + 24 < 2 ^ 48 → fget (chzB fe) Reg.CHZ_GAIN_CFG.OVL_HOLD s ≠ 0 →
       ∃ t, exec (.overloadEpisodeEnd fe e) s = .next t ∧ ovlClean fe t = e.toNat + 24 ∧ ovlActive fe t = false ∧
         fis (chzB fe) Reg.CHZ_OVL_STAT.CLEAN_VALID t = true ∧ fis (chzB fe) Reg.CHZ_OVL_STAT.HOLD t = true ∧
         chzGain fe t = chzGain fe s)) ∧
   (∀ (fe : Fe) (period : BitVec 48) (s : State),
     (fis (chzB fe) Reg.CHZ_OVL_STAT.HOLD s = false → exec (.ovlHoldEnd fe period) s = .next s) ∧
     (fis (chzB fe) Reg.CHZ_OVL_STAT.HOLD s = true → chzManual fe s = false → Registers.wf s = true →
       exec (.ovlHoldEnd fe period) s = .next (fset (chzB fe) Reg.CHZ_OVL_STAT.HOLD 0 s)))) ∧
  ((∀ (fe : Fe) (deep : Bool) (s : State), Registers.wf s = true →
     (fis (feB fe) Reg.FDX_STAT.TRAINING s = false → exec (.cancellerTrainingEnd fe deep) s = .next s) ∧
     (fis (feB fe) Reg.FDX_STAT.TRAINING s = true → ∃ t, exec (.cancellerTrainingEnd fe deep) s = .next t ∧
       fis (feB fe) Reg.FDX_STAT.TRAINING t = false ∧ (fdxGet fe t).retrain = !deep ∧
       (fdxGet fe t).trained = some (fdxGet fe s).now ∧
       fis (feB fe) Reg.FDX_STAT.WIDE t = (!deep && fis (feB fe) Reg.FDX_STAT.WIDE s) ∧
       fis (feB fe) Reg.FDX_ERR.CONV_FAIL t = (!deep || fis (feB fe) Reg.FDX_ERR.CONV_FAIL s))) ∧
   (∀ (fe : Fe) (iso cancel : BitVec 8) (s : State), Registers.wf s = true →
     ((fget (feB fe) Reg.FDX_STAT.MODE s ≠ 2 ∨ (fdxGet fe s).pset < 0) →
       exec (.fdxMeasurement fe iso cancel) s = .next s) ∧
     (fget (feB fe) Reg.FDX_STAT.MODE s = 2 → fis (feB fe) Reg.FDX_STAT.TRAINING s = false → 0 ≤ (fdxGet fe s).pset →
       ∃ t, exec (.fdxMeasurement fe iso cancel) s = .next t ∧
         fget (feB fe) Reg.FDX_MEAS.ISO_MEAS t = iso.toNat ∧ fget (feB fe) Reg.FDX_MEAS.CANCEL t = cancel.toNat ∧
         fis (feB fe) Reg.FDX_MEAS.VALID t = true ∧
         fget (feB fe) Reg.FDX_MEAS.SEQ t = (fget (feB fe) Reg.FDX_MEAS.SEQ s + 1) % 256 ∧
         fis (feB fe) Reg.FDX_ERR.ISO_LOW t = (decide (iso.toNat < 25) || fis (feB fe) Reg.FDX_ERR.ISO_LOW s))))

/-- FAB_CMD (R221, R227). Another key sets FAB_ERR.CMD alone. While the loader works, ACTIVATE, CHECK and RELOAD are
refused as BUSY; ACTIVATE of the active slot as NOT_NEWER; RELOAD of a domain that no active plan has as FIELD; each
refusal sets LAST_ERR and FAB_ERR.CMD and nothing else. Otherwise ACTIVATE and CHECK begin a check of the slot and
RELOAD the load of the domain.

The end of a slot's check (R217, R218, R221, R241). A CHECK raises FAB_CHECK_DONE and the loader is idle; an
activation whose check fails raises FAB_LOAD_FAIL and the loader is idle. An empty slot reads EMPTY with IMAGE, a slot
that fails INVALID with its code and sequence 0, and one that passes VALID, or ACTIVE when it is the plan in use, with its
sequence.

The order of a slot's checks (R217): the code is that of the first check of 3 to 13 that fails, so a body whose
header passes never answers 3; and a body whose floor does not carry its STEP_MAX or lies above its ceiling, or whose fields or
ledger break a rule, does not pass. -/
def Obligations.PlanCommandsAndChecks : Prop :=
  ((∀ (i : Init) (key : BitVec 16) (slot : BitVec 1) (d : BitVec 5) (s : State), Admits i (fabB + 4) .store s →
     key ≠ 0x4641 →
     exec (.fabActivate i key slot) s = .next (acknowledge (fset fabB Reg.FAB_ERR.CMD 1 s)) ∧
     exec (.fabCheck i key slot) s = .next (acknowledge (fset fabB Reg.FAB_ERR.CMD 1 s)) ∧
     exec (.fabReload i key d) s = .next (acknowledge (fset fabB Reg.FAB_ERR.CMD 1 s))) ∧
   (∀ (i : Init) (slot : BitVec 1) (d : BitVec 5) (s : State), Admits i (fabB + 4) .store s → s.plan.work ≠ .idle →
     let busy := acknowledge (fset fabB Reg.FAB_ERR.CMD 1 (fset fabB Reg.FAB_PLAN_STAT.LAST_ERR 15 s))
     exec (.fabActivate i 0x4641 slot) s = .next busy ∧ exec (.fabCheck i 0x4641 slot) s = .next busy ∧
     exec (.fabReload i 0x4641 d) s = .next busy) ∧
   (∀ (i : Init) (slot : BitVec 1) (s : State), Admits i (fabB + 4) .store s → s.plan.work = .idle →
     exec (.fabCheck i 0x4641 slot) s = .next (acknowledge (planWork (.checking slot.toNat false) s)) ∧
     (planActive s = true → activeSlot s = slot.toNat → exec (.fabActivate i 0x4641 slot) s =
       .next (acknowledge (fset fabB Reg.FAB_ERR.CMD 1 (fset fabB Reg.FAB_PLAN_STAT.LAST_ERR 14 s)))) ∧
     (planActive s = false ∨ (activeSlot s ≠ slot.toNat ∧ seqNewer (slotSeq slot.toNat s) s.plan.seq = true) →
       exec (.fabActivate i 0x4641 slot) s = .next (acknowledge (planWork (.checking slot.toNat true) s)))) ∧
   (∀ (i : Init) (d : BitVec 5) (s : State), Admits i (fabB + 4) .store s → s.plan.work = .idle →
     (activePlan s = none → exec (.fabReload i 0x4641 d) s =
       .next (acknowledge (fset fabB Reg.FAB_ERR.CMD 1 (fset fabB Reg.FAB_PLAN_STAT.LAST_ERR 6 s)))) ∧
     (∀ p, activePlan s = some p → (p.tileSection d.toNat).isSome = true → exec (.fabReload i 0x4641 d) s =
       .next (acknowledge (planWork (.loading [d.toNat] false false) (domainStop (fun _ => true) d.toNat s)))))) ∧
  ((∀ (k : Nat) (s : State), s.plan.work = .checking k false →
     exec .planCheckDone s = .next (planWork .idle (raiseEvt 798 (slotJudge k s).2))) ∧
   (∀ (k : Nat) (s : State), s.plan.work = .checking k true →
     let code := (slotJudge k s).1
     let u := (slotJudge k s).2
     ∃ t, exec .planCheckDone s = .next t ∧
       (code ≠ 0 → t = planWork .idle (raiseEvt 796 (fset fabB Reg.FAB_ERR.LOAD_FAIL 1 (lastErr code u)))) ∧
       (code = 0 → (slotPlan k u).floor ≤ vNow u →
         t = planWork (.waitAir k) { u with pow := { u.pow with goal := none } })) ∧
   (∀ s : State, (∀ k a, s.plan.work ≠ .checking k a) → exec .planCheckDone s = .next s) ∧
   (∀ (k : Nat) (s : State), k ≤ 1 → Registers.wf s = true →
     let t := (slotJudge k s).2
     let code := slotCheck k s
     fget fabB (slotState k) t = (if slotEmpty k s then 0 else if code ≠ 0 then 2
       else if planActive s = true ∧ activeSlot s = k then 4 else 3) ∧
     fget fabB Reg.FAB_PLAN_STAT.LAST_ERR t = (if code ≠ 0 then code else fget fabB Reg.FAB_PLAN_STAT.LAST_ERR s) ∧
     fget (fabB + 4 * k) Reg.FAB_SEQ.SEQ t = (if slotEmpty k s = true ∨ code ≠ 0 then 0 else slotSeq k s % 2 ^ 32) ∧
     (slotEmpty k s = true → code = 1))) ∧
  ((∀ b : List Byte, bodyCheck b = 3 ↔ planHeaderOk b = false) ∧
   (∀ b : List Byte, bodyCheck b = 4 ↔ planHeaderOk b = true ∧ planDirOk b (planRead b).sections = false) ∧
   (∀ b : List Byte, (planRead b).ceil < (planRead b).floor ∨ 16 < (planRead b).ceil ∨
     stepTop (planRead b).floor < (planRead b).stepMax ∨ planHeaderOk b = false ∨
     planFieldsOk b (planRead b) = false ∨ planLedgerOk (planRead b) = false → bodyCheck b ≠ 0) ∧
   (∀ b : List Byte, bodyCheck b = 0 ∨ (3 ≤ bodyCheck b ∧ bodyCheck b ≤ 13)))

/-- The order of versions (R219): S1 is newer than S2 when their difference lies in 1 to 2^31 − 1; then S2 is not newer
than S1, and at a difference of 2^31 neither is; they are equal when the difference is 0. -/
def Obligations.SequenceOrder : Prop :=
  ∀ a b : Nat, a < 2 ^ 32 → b < 2 ^ 32 →
    (seqNewer a b = true ↔ 1 ≤ (a + 2 ^ 32 - b) % 2 ^ 32 ∧ (a + 2 ^ 32 - b) % 2 ^ 32 < 2 ^ 31) ∧
    (seqNewer a b = true → seqNewer b a = false) ∧
    ((a + 2 ^ 32 - b) % 2 ^ 32 = 2 ^ 31 → seqNewer a b = false ∧ seqNewer b a = false) ∧
    ((a + 2 ^ 32 - b) % 2 ^ 32 = 0 ↔ a = b)

/-- The switch instant S (R223): while a frame is on air on a front end it waits for, nothing happens; the first tick
with none makes the switch, which makes the slot the active one, the old slot VALID again, and the plan's limits those
in force.

A domain's load and the scrubber (R225, R228–R230). A domain whose tiles do not match stays off, with its fault bit,
ERR_DOMAIN, LAST_ERR 16 and FAB_DOMAIN_FAULT, and the load goes on; the last load ends with the loader idle. The
scrubber reads one tile; a mismatch is counted, recorded and reloads the tile's domain; with SCRUB_EN 0, or while the
loader works, nothing happens. -/
def Obligations.PlanSwitchLoadsAndScrub : Prop :=
  ((∀ (k : Nat) (s : State), s.plan.work = .waitAir k →
     ((switchFes (activePlan s) (slotPlan k s)).any (airBusy s) = true → exec .planSwitch s = .next s) ∧
     ((switchFes (activePlan s) (slotPlan k s)).any (airBusy s) = false →
       exec .planSwitch s = .next (planSwitch k false s))) ∧
   (∀ s : State, (∀ k, s.plan.work ≠ .waitAir k) → exec .planSwitch s = .next s) ∧
   (∀ (k : Nat) (s : State), k ≤ 1 → Registers.wf s = true → planActive s = true → activeSlot s = 1 - k →
     fget fabB (slotState (1 - k)) s = 4 →
     fget fabB Reg.FAB_PLAN_STAT.ACTIVE (slotsSwitch k s) = k + 1 ∧ fget fabB (slotState k) (slotsSwitch k s) = 4 ∧
       fget fabB (slotState (1 - k)) (slotsSwitch k s) = 3) ∧
   (∀ (p : Plan) (s : State), Registers.wf s = true → p.floor ≤ 16 → p.ceil ≤ 16 → p.budget ≤ 256 → p.stepMax ≤ 7555 →
     let t := planLimits p s
     fget fabB Reg.FAB_LIMITS.FLOOR t = p.floor ∧ fget fabB Reg.FAB_LIMITS.CEIL t = p.ceil ∧
     fget fabB Reg.FAB_LIMITS.BUDGET t = p.budget ∧ fget fabB Reg.FAB_LIMITS.STEP_MAX t = p.stepMax ∧
     ∀ fe, fget (chzB fe) Reg.CHZ_WIN.BUDGET t = p.budget) ∧
   (∀ (old : Option Plan) (new : Plan) (n : Nat), old = some new → laneAffected old new n = false)) ∧
  ((∀ (d : Nat) (r : List Nat) (event : Bool) (p : Plan) (s : State), s.plan.work = .loading (d :: r) event false →
     activePlan s = some p → domainMatches p d = false →
     exec .domainLoadDone s = .next (loadNext r event false (raiseEvt 797 (fset fabB Reg.FAB_ERR.DOMAIN_FAULT 1
       (fset fabB Reg.FAB_PLAN_STAT.ERR_DOMAIN d (lastErr 16 (domainStop (fun _ => true) d (cancelClear d
         (pdSet (42 + d) false (domBit Reg.FAB_FAULT.MASK d true s)))))))))) ∧
   (∀ (d : Nat) (event : Bool) (s : State), s.plan.work = .loading [d] event false → d < 32 →
     ∃ t, exec .domainLoadDone s = .next t ∧ t.plan.work = .idle) ∧
   (∀ (s : State), s.plan.work = .idle → exec .domainLoadDone s = .next s) ∧
   (∀ (upset : Bool) (s : State), fis fabB Reg.FAB_CTRL.SCRUB_EN s = false ∨ s.plan.work ≠ .idle →
     exec (.scrubTileRead upset) s = .next s) ∧
   (∀ (t : Nat) (s : State), fis fabB Reg.FAB_CTRL.SCRUB_EN s = true → s.plan.work = .idle →
     ((scrubTiles s).find? fun t => decide (s.plan.scrubAt ≤ t)) = some t →
     ((scrubTiles s).any fun u => decide (t < u)) = true →
     exec (.scrubTileRead false) s = .next (planPut { s.plan with scrubAt := t + 1 } s) ∧
     exec (.scrubTileRead true) s = .next (planWork (.scrubReload [tileDomain t]) (domainStop (fun _ => true)
       (tileDomain t) (raiseEvt 794 (fset fabB Reg.FAB_ERR.SCRUB_FIX 1 (fset fabB Reg.FAB_SCRUB_LAST.TILE t
         (fcount fabB Reg.FAB_SCRUB.FIX_CNT (planPut { s.plan with scrubAt := t + 1 } s)))))))))

/-- LANE_CMD (R250, R287). For a lane no plan defines nothing changes. Another key, a START of a lane that is not IDLE and
a STOP of one that is not ACTIVE set LANE_ERR.CMD, raising the lane's event when it was clear, and nothing else. START
makes an IDLE lane ACTIVE; STOP makes an ACTIVE lane IDLE, its frame in progress closed as TRUNC.

A bin sample at a lane (R56, R57, R275): a lane that is neither ACTIVE nor DRAINING, or whose front end has no
residence, takes none; one that reads takes it into its buffer and reports its energy, and the front end's latest index
goes on.

The survey (R276, R278). A block's end without survey tiles or residence changes nothing; otherwise each bin, then
each lane of the front end, takes its new floor. A bin with an overloaded, blanked or mid-frame sample ages by one; one
whose block counts has AGE 0, keeps its last 16 means and is valid from 4 on. -/
def Obligations.LaneCommandsAndSamples : Prop :=
  (∀ (i : Init) (lane : BitVec 8) (key : BitVec 16) (s : State), Admits i (laneP lane.toNat + 8) .store s →
     let n := lane.toNat
     (laneDefined n s = false → exec (.laneStart i lane key) s = .next (acknowledge s) ∧
       exec (.laneStop i lane key) s = .next (acknowledge s)) ∧
     (laneDefined n s = true →
       (key ≠ 0x4C4E ∨ laneState n s ≠ 1 → exec (.laneStart i lane key) s =
         .next (acknowledge (laneFlag n Reg.LANE_ERR.CMD s))) ∧
       (key ≠ 0x4C4E ∨ laneState n s ≠ 2 → exec (.laneStop i lane key) s =
         .next (acknowledge (laneFlag n Reg.LANE_ERR.CMD s))) ∧
       (key = 0x4C4E → laneState n s = 1 → exec (.laneStart i lane key) s =
         .next (acknowledge (fset (laneP n) Reg.LANE_STAT.STATE 2 s))) ∧
       (key = 0x4C4E → laneState n s = 2 → exec (.laneStop i lane key) s =
         .next (acknowledge (fset (laneP n) Reg.LANE_STAT.STATE 1
           (laneCut n 3 (rd48 (feB (laneFe n s) + 0x18) s + 1) s))))) ∧
     (Registers.wf s = true → fis (laneP n) Reg.LANE_ERR.CMD (laneFlag n Reg.LANE_ERR.CMD s) = true)) ∧
  ((∀ (lane : BitVec 8) (index : BitVec 48) (fill : Fin 65) (peakQ edQ : BitVec 16) (s : State),
     laneReads lane.toNat s = false ∨ (feGet (laneFe lane.toNat s) s).residence = false →
     exec (.binSampleWrite lane index fill peakQ edQ) s = .next s) ∧
   (∀ (lane : BitVec 8) (index : BitVec 48) (fill : Fin 65) (peakQ edQ : BitVec 16) (s : State),
     let n := lane.toNat
     let fe := laneFe n s
     laneDefined n s = true → laneReads n s = true → (feGet fe s).residence = true → Registers.wf s = true →
     (fdxGet fe s).blanks = [] → fill.val < 64 →
     ∃ t, exec (.binSampleWrite lane index fill peakQ edQ) s = .next t ∧ (laneGet n t).fill = fill.val + 1 ∧
       fget (laneP n) Reg.LANE_ED.ED_Q t = edQ.toNat ∧ fis (laneP n) Reg.LANE_ED.BLANKED t = false ∧
       rd48 (feB fe + 0x18) t = max index.toNat (rd48 (feB fe + 0x18) s))) ∧
  ((∀ (fe : Fe) (block : BitVec 40) (means : List Int) (s : State),
     hasUnit 3 fe s = false ∨ (feGet fe s).residence = false → exec (.surveyBlockEnd fe block means) s = .next s) ∧
   (∀ (fe : Fe) (block : BitVec 40) (means : List Int) (s : State),
     hasUnit 3 fe s = true → (feGet fe s).residence = true →
     ∃ v, exec (.surveyBlockEnd fe block means) s = .next (chzPut fe v
       ((lanesOf fe s).foldl (fun t n => surveyLane fe n t)
         ((List.range 1024).foldl (fun t k => surveyBin fe block.toNat means k t) s)))) ∧
   (∀ (fe : Fe) (block k : Nat) (means : List Int) (m : Int) (s : State), Registers.wf s = true → k < 1024 →
     means[k]? = some m →
     let b := 0x40020000 + 0x1000 * fe.num + 4 * k
     let t := surveyBin fe block means k s
     let h := tget (fun _ => []) s.survey (fe.num * 1024 + k)
     ((chzGet fe s).spoiltAll = true ∨ (chzGet fe s).spoilt.getLsbD k = true ∨ blockBlanked fe block k s = true →
       fget b Reg.SURVEY.AGE t = min 255 (fget b Reg.SURVEY.AGE s + 1) ∧
       fget b Reg.SURVEY.FLOOR_H t = fget b Reg.SURVEY.FLOOR_H s ∧ t.survey = s.survey) ∧
     ((chzGet fe s).spoiltAll = false → (chzGet fe s).spoilt.getLsbD k = false → blockBlanked fe block k s = false →
       fget b Reg.SURVEY.AGE t = 0 ∧ fis b Reg.SURVEY.VALID t = decide (3 ≤ h.length) ∧
       tget (fun _ => []) t.survey (fe.num * 1024 + k) = (m :: h).take 16)))

/-- Tunes (R259–R261). A GO that breaks a rule of R260 sets TUNE_REF alone beside the register. A tune that takes effect
puts the new bin and offset in force, and the lane detects from the sample after. A pending tune waits for its index,
and for the frame's release unless it is forced.

Moves (R281–R283). Another key and a refused move set CMD and MOVE_REF alone. An accepted one arms the destination on
the source's channel and queue; at N the destination becomes ACTIVE with the source's epoch plus 1, and a source in the
middle of a frame drains; a draining source that is mid-frame is released at N + LANE_TMAX at the latest, and one whose
frame is over at once. -/
def Obligations.LaneTunesAndMoves : Prop :=
  ((∀ (i : Init) (lane : BitVec 8) (data : Word) (s : State), Admits i (laneP lane.toNat + 0x18) .store s →
     let n := lane.toNat
     let s1 := wr (laneP n + 0x18) (data &&& 0x600003FF#32) s
     (laneDefined n s = false → exec (.laneTuneGo i lane data) s = .next (acknowledge s)) ∧
     (laneDefined n s = true → tuneRefused n (fget (laneP n) Reg.LANE_TUNE_CH.BIN_FIRST s1)
         (fgetS (laneP n) Reg.LANE_TUNE_FINE.FINE_HZ s1) s1 = true →
       exec (.laneTuneGo i lane data) s = .next (acknowledge (laneFlag n Reg.LANE_ERR.TUNE_REF s1))) ∧
     (laneDefined n s = true → tuneRefused n (fget (laneP n) Reg.LANE_TUNE_CH.BIN_FIRST s1)
         (fgetS (laneP n) Reg.LANE_TUNE_FINE.FINE_HZ s1) s1 = false → laneState n s1 = 1 →
       exec (.laneTuneGo i lane data) s = .next (acknowledge (tuneTake n
         ⟨fget (laneP n) Reg.LANE_TUNE_CH.BIN_FIRST s1, fgetS (laneP n) Reg.LANE_TUNE_FINE.FINE_HZ s1, 0,
           fis (laneP n) Reg.LANE_TUNE_CH.FORCE s1⟩ s1)))) ∧
   (∀ (lane : BitVec 8) (index : BitVec 48) (s : State) (t : LaneTune),
     ((laneGet lane.toNat s).tune = none → exec (.laneTuneApply lane index) s = .next s) ∧
     ((laneGet lane.toNat s).tune = some t → index.toNat < t.index ∨ (laneMid lane.toNat s = true ∧ t.force = false) →
       exec (.laneTuneApply lane index) s = .next s) ∧
     ((laneGet lane.toNat s).tune = some t → t.index ≤ index.toNat → laneMid lane.toNat s = false →
       exec (.laneTuneApply lane index) s = .next (tuneTake lane.toNat { t with index := index.toNat } s))) ∧
   (∀ (n : Nat) (t : LaneTune) (s : State), Registers.wf s = true → t.bin < 1024 → t.fine.natAbs ≤ 46875 →
     let u := tuneTake n t s
     laneBin n u = t.bin ∧ laneBins n u = laneBins n s ∧ fgetS (laneP n) Reg.LANE_FINE.FINE_HZ u = t.fine ∧
     fis (laneP n) Reg.LANE_STAT.TUNE_PEND u = false ∧ fis (laneP n) Reg.LANE_NOTE.TUNE_DONE u = true)) ∧
  ((∀ (i : Init) (lane dest : BitVec 8) (key : BitVec 16) (s : State), Admits i (laneP lane.toNat + 0x28) .store s →
     laneDefined lane.toNat s = true →
     (key ≠ 0x4D56 → exec (.laneMove i lane key dest) s =
       .next (acknowledge (laneFlag lane.toNat Reg.LANE_ERR.CMD s))) ∧
     (key = 0x4D56 → moveRefused lane.toNat dest.toNat (rd48 (laneP lane.toNat + 0x2C) s) s = true →
       exec (.laneMove i lane key dest) s = .next (acknowledge (laneFlag lane.toNat Reg.LANE_ERR.MOVE_REF s))) ∧
     (key = 0x4D56 → moveRefused lane.toNat dest.toNat (rd48 (laneP lane.toNat + 0x2C) s) s = false →
       Registers.wf s = true →
       ∃ t, exec (.laneMove i lane key dest) s = .next t ∧ laneState dest.toNat t = 3 ∧ laneState lane.toNat t = 2 ∧
         rd (laneP dest.toNat + 0x10) t = rd (laneP lane.toNat + 0x10) s ∧
         rd (laneP dest.toNat + 0x14) t = rd (laneP lane.toNat + 0x14) s ∧
         fis (laneP lane.toNat) Reg.LANE_STAT.MOVE_PEND t = true ∧
         fis (laneP dest.toNat) Reg.LANE_STAT.MOVE_PEND t = true ∧
         fget (laneP lane.toNat) Reg.LANE_STAT.PARTNER t = dest.toNat ∧
         fget (laneP dest.toNat) Reg.LANE_STAT.PARTNER t = lane.toNat)) ∧
   (∀ (lane : BitVec 8) (s : State) (m : LaneMove), (laneGet lane.toNat s).move = some m → m.source = true →
     m.partner < 256 → m.partner ≠ lane.toNat → fis (laneP lane.toNat) Reg.LANE_STAT.MOVE_PEND s = true →
     Registers.wf s = true → 0 < m.index → laneMid lane.toNat s = true →
     ∃ t, exec (.laneMoveEffective lane) s = .next t ∧ laneState m.partner t = 2 ∧ laneState lane.toNat t = 4 ∧
       fget (laneP m.partner) Reg.LANE_STAT.EPOCH t = (fget (laneP lane.toNat) Reg.LANE_STAT.EPOCH s + 1) % 64 ∧
       (laneGet m.partner t).detectsFrom = m.index ∧ fis (laneP lane.toNat) Reg.LANE_NOTE.MOVE_START t = true ∧
       fis (laneP m.partner) Reg.LANE_NOTE.MOVE_START t = true) ∧
   (∀ (lane : BitVec 8) (s : State), (laneGet lane.toNat s).move = none → exec (.laneMoveEffective lane) s = .next s) ∧
   (∀ (lane : BitVec 8) (index : BitVec 48) (s : State),
     (laneState lane.toNat s ≠ 4 → exec (.laneDrainRelease lane index) s = .next s) ∧
     (laneState lane.toNat s = 4 → laneMid lane.toNat s = false →
       exec (.laneDrainRelease lane index) s = .next (drainRelease lane.toNat s)) ∧
     (∀ m, laneState lane.toNat s = 4 → laneMid lane.toNat s = true → (laneGet lane.toNat s).move = some m →
       (index.toNat < m.index + fget (laneP lane.toNat) Reg.LANE_TMAX.TMAX s →
         exec (.laneDrainRelease lane index) s = .next s) ∧
       (m.index + fget (laneP lane.toNat) Reg.LANE_TMAX.TMAX s ≤ index.toNat →
         exec (.laneDrainRelease lane index) s = .next (drainRelease lane.toNat
           (laneCut lane.toNat 4 (m.index + fget (laneP lane.toNat) Reg.LANE_TMAX.TMAX s) s))))))

/-- The beginning of a frame (R262–R266). Only an ACTIVE lane that is not mid-frame detects, at an index it may detect
from and that is not blanked; it is then mid-frame in Preamble with its gain frozen. The SFD begins Header and is found
once, and coded only by a lane with FEC; without one the lane releases. A PHR that fails its check closes the frame as
LEN_BAD, any other begins Payload.

The end of a frame (R264, R267–R269). A frame whose PHR was decoded ends OK or FCS_BAD; the timeout closes it as
TIMEOUT; with RESYNC a stronger frame closes one past its SFD as COLLIDED and begins another; a mode switch PPDU releases
the lane, which then waits in the announced mode or sets MS_UNSUP, until the next frame or the timeout. After every close
the lane is not mid-frame, and an OK frame counts in OK, one of codes 1 and 2 in BAD and any other in LOSS. -/
def Obligations.FramesReceived : Prop :=
  ((∀ (lane : BitVec 8) (index : BitVec 48) (s : State),
     laneState lane.toNat s ≠ 2 ∨ laneMid lane.toNat s = true ∨ index.toNat < (laneGet lane.toNat s).detectsFrom ∨
       laneBlanked lane.toNat index.toNat s = true →
     exec (.preambleDetection lane index) s = .next s) ∧
   (∀ (lane : BitVec 8) (index : BitVec 48) (s : State),
     let n := lane.toNat
     laneState n s = 2 → laneMid n s = false → (feGet (laneFe n s) s).residence = true →
     (laneGet n s).detectsFrom ≤ index.toNat → laneBlanked n index.toNat s = false → Registers.wf s = true →
     ∃ t, exec (.preambleDetection lane index) s = .next t ∧ (laneGet n t).frame.map (fun f => f.p) = some index.toNat ∧
       fis (laneP n) Reg.LANE_STAT.MIDFRAME t = true ∧ fget (laneP n) Reg.LANE_STAT.PHASE t = 1 ∧
       fis (laneGainB n) Reg.LANE_GAIN.FROZEN t = true ∧
       fget (chzB (laneFe n s)) Reg.CHZ_GAIN_STAT.MIDFRAME t =
         min 511 (fget (chzB (laneFe n s)) Reg.CHZ_GAIN_STAT.MIDFRAME s + 1)) ∧
   (∀ (lane : BitVec 8) (index : BitVec 48) (frac : BitVec 12) (coded : Bool) (mseQ : BitVec 16) (s : State),
     let n := lane.toNat
     ((∀ f, (laneGet n s).frame = some f → f.sfd.isSome = true ∨ (coded = true ∧ laneFec n s = false)) →
       exec (.sfdFound lane index frac coded mseQ) s = .next s) ∧
     (∀ f, (laneGet n s).frame = some f → f.sfd = none → (coded = true → laneFec n s = true) →
       Registers.wf s = true →
       ∃ t, exec (.sfdFound lane index frac coded mseQ) s = .next t ∧ fget (laneP n) Reg.LANE_STAT.PHASE t = 2 ∧
         (laneGet n t).frame.map (fun g => (g.p, g.sfd)) = some (f.p, some (index.toNat, frac.toNat)))) ∧
   (∀ (lane : BitVec 8) (s : State) (f : LaneFrame), (laneGet lane.toNat s).frame = some f →
     (f.sfd.isSome = true → exec (.sfdTimeout lane) s = .next s) ∧
     (f.sfd = none → exec (.sfdTimeout lane) s = .next (laneRelease lane.toNat s))) ∧
   (∀ (lane : BitVec 8) (index : BitVec 48) (len : BitVec 11) (fcs2 : Bool) (mcs : BitVec 3) (hcsOk : Bool) (s : State)
     (f : LaneFrame), (laneGet lane.toNat s).frame = some f →
     (f.sfd = none → exec (.phrDecoded lane index len fcs2 mcs hcsOk) s = .next s) ∧
     (f.sfd.isSome = true →
       let fcs := fcsLenOf f.phy fcs2 (fis (laneP lane.toNat) Reg.LANE_CTRL.FCS2 s)
       let s1 := lanePut lane.toNat { laneGet lane.toNat s with
         frame := some { f with len := len.toNat, mcs := if phyOfdm f.phy then mcs.toNat else 0, fcsLen := fcs } } s
       (phrBad f.phy len.toNat mcs.toNat fcs hcsOk = false → exec (.phrDecoded lane index len fcs2 mcs hcsOk) s =
         .next (fset (laneP lane.toNat) Reg.LANE_STAT.PHASE 3 s1)) ∧
       (phrBad f.phy len.toNat mcs.toNat fcs hcsOk = true → exec (.phrDecoded lane index len fcs2 mcs hcsOk) s =
         .next (laneClose lane.toNat 2 index.toNat (freeQuality s1) s1))))) ∧
  ((∀ (lane : BitVec 8) (index : BitVec 48) (fcsOk sat : Bool) (qual : Quality) (s : State),
     let n := lane.toNat
     ((∀ f, (laneGet n s).frame = some f → f.fcsLen = 0) → exec (.frameEnd lane index fcsOk sat qual) s = .next s) ∧
     (∀ f, (laneGet n s).frame = some f → f.fcsLen ≠ 0 → exec (.frameEnd lane index fcsOk sat qual) s =
       .next (laneClose n (if fcsOk then 0 else 1) index.toNat qual (if sat then laneMark n markSat s else s)))) ∧
   (∀ (lane : BitVec 8) (s : State) (f : LaneFrame), (laneGet lane.toNat s).frame = some f →
     exec (.laneTimeout lane) s = .next (laneClose lane.toNat 4
       (f.p + fget (laneP lane.toNat) Reg.LANE_TMAX.TMAX s) (freeQuality s) s)) ∧
   (∀ (lane : BitVec 8) (index : BitVec 48) (s : State) (f : LaneFrame), (laneGet lane.toNat s).frame = some f →
     (f.sfd = none ∨ fis (laneP lane.toNat) Reg.LANE_CTRL.RESYNC s = false →
       exec (.resyncCollision lane index) s = .next s) ∧
     (f.sfd.isSome = true → fis (laneP lane.toNat) Reg.LANE_CTRL.RESYNC s = true → laneState lane.toNat s = 2 →
       exec (.resyncCollision lane index) s = .next (frameBegin lane.toNat index.toNat
         (laneClose lane.toNat 5 index.toNat (freeQuality s) s)))) ∧
   (∀ (lane phy hQ : BitVec 8) (s : State) (f : LaneFrame), (laneGet lane.toNat s).frame = some f →
     f.sfd.isSome = true → phyFsk f.phy = true →
     let s1 := laneRelease lane.toNat s
     (fis (laneP lane.toNat) Reg.LANE_MODE.MS_EN s1 = false → exec (.modeSwitchPpdu lane phy hQ) s = .next s1) ∧
     (fis (laneP lane.toNat) Reg.LANE_MODE.MS_EN s1 = true →
       exec (.modeSwitchPpdu lane phy hQ) s = .next (if modeServed lane.toNat phy.toNat hQ.toNat s1
         then lanePut lane.toNat { laneGet lane.toNat s1 with ms := some phy.toNat } s1
         else laneFlag lane.toNat Reg.LANE_ERR.MS_UNSUP s1))) ∧
   (∀ (lane : BitVec 8) (s : State), exec (.modeSwitchTimeout lane) s = .next (if laneMid lane.toNat s then s
     else lanePut lane.toNat { laneGet lane.toNat s with ms := none } s)) ∧
   (∀ (n code e : Nat) (q : Quality) (s : State), n < 256 → Registers.wf s = true → laneMid n s = true →
     let t := laneClose n code e q s
     fis (laneP n) Reg.LANE_STAT.MIDFRAME t = false ∧
     fget (laneP n) Reg.LANE_CNT0.OK t = (if code = 0 then min 65535 (fget (laneP n) Reg.LANE_CNT0.OK s + 1)
       else fget (laneP n) Reg.LANE_CNT0.OK s) ∧
     fget (laneP n) Reg.LANE_CNT0.BAD t = (if code = 1 ∨ code = 2 then min 65535 (fget (laneP n) Reg.LANE_CNT0.BAD s + 1)
       else fget (laneP n) Reg.LANE_CNT0.BAD s) ∧
     fget (laneP n) Reg.LANE_CNT1.LOSS t = (if 3 ≤ code then min 65535 (fget (laneP n) Reg.LANE_CNT1.LOSS s + 1)
       else fget (laneP n) Reg.LANE_CNT1.LOSS s)))

/-- JOB_POST (R312, R316, R317). Another key, or GO with CANCEL, sets PORT_ERR.KEY alone; a post into a slot that is ARMED
or AIR sets BUSY alone; any other post goes to the checks on the staged words. CANCEL ends an ARMED job with ABORT_CMD,
sets LATE for one in AIR, and does nothing to another.

The checks of a post, and how a job begins and ends (R314–R317, R344). A job that breaks a rule of its words ends with
BAD_JOB; an RX_WIN job with a lead too short with LATE_ARM; an accepted one is ARMED with its TAG; a job that ends is
DONE with its code, and the job is gone from its slot. -/
def Obligations.JobsPosted : Prop :=
  ((∀ (i : Init) (room : BitVec 6) (data : Word) (now : Word64) (s : State), Admits i (jobB room.toNat + 0x20) .store s →
     let r := room.toNat
     let k := bitsOf data 0 2
     (bitsOf data 16 16 ≠ 0x4A42 ∨ (bitOf data 8 = true ∧ bitOf data 4 = true) →
       exec (.jobPost i room data now) s = .next (acknowledge (fset (jobB r) Reg.PORT_ERR.KEY 1 s))) ∧
     (bitsOf data 16 16 = 0x4A42 → bitOf data 4 = false → bitOf data 8 = true →
       (jobState r k s = 1 ∨ jobState r k s = 2 →
         exec (.jobPost i room data now) s = .next (acknowledge (fset (jobB r) Reg.PORT_ERR.BUSY 1 s))) ∧
       (jobState r k s ≠ 1 → jobState r k s ≠ 2 →
         exec (.jobPost i room data now) s = .next (acknowledge (jobChecked r k
           { w := rdList (jobB r) 8 s, accepted := now.toNat
             at_ := (rd (jobB r) s).toNat + 2 ^ 32 * (rd (jobB r + 4) s).toNat } now.toNat s))))) ∧
   (∀ (i : Init) (room : BitVec 6) (slot : BitVec 2) (s : State), Admits i (jobB room.toNat + 0x20) .store s →
     (jobState room.toNat slot.toNat s = 1 → exec (.jobCancel i room 0x4A42 slot) s =
       .next (acknowledge (jobDone room.toNat slot.toNat 9 s))) ∧
     (jobState room.toNat slot.toNat s = 2 → exec (.jobCancel i room 0x4A42 slot) s =
       .next (acknowledge (fset (jobB room.toNat) Reg.PORT_ERR.LATE 1 s))) ∧
     (jobState room.toNat slot.toNat s ≠ 1 → jobState room.toNat slot.toNat s ≠ 2 →
       exec (.jobCancel i room 0x4A42 slot) s = .next (acknowledge s)))) ∧
  ((∀ (r k : Nat) (j0 : Job) (now : Nat) (s : State),
     let level := packetLevel r j0 s
     let at_ := if j0.timing = 2 then now + 19200 else j0.at_
     let j : Job := { j0 with at_ := at_, frame := frameFifths j0.phy j0.pre (j0.psduLen level) j0.mcs j0.coded }
     (jobFormatOk r j level s = false → jobChecked r k j0 now s = jobRefuse r k 24 j s) ∧
     (jobFormatOk r j level s = true → j.kind = 1 →
       (at_ < now + 19200 → jobChecked r k j0 now s = jobRefuse r k 5 j s) ∧
       (now + 2 ^ 32 < at_ → jobChecked r k j0 now s = jobRefuse r k 24 j s) ∧
       (now + 19200 ≤ at_ → at_ ≤ now + 2 ^ 32 →
         jobChecked r k j0 now s = jobAccept r k { j with widen := rxWinWiden j s } s)) ∧
     (∀ code, jobFormatOk r j level s = true → j.kind ≠ 1 → jobTxChecks r j s = .error code →
       jobChecked r k j0 now s = jobRefuse r k code j s)) ∧
   (∀ (r k : Nat) (j : Job) (s : State), r < 64 → k < 4 → Registers.wf s = true →
     jobState r k (jobAccept r k j s) = 1 ∧ fget (slotRegs r k) Reg.JOB_RES.TAG (jobAccept r k j s) = j.tag ∧
       fget (slotRegs r k) Reg.JOB_RES.CODE (jobAccept r k j s) = 0 ∧ (jobGet r k (jobAccept r k j s)).isSome = true) ∧
   (∀ (r k code : Nat) (j : Job) (s : State), r < 64 → k < 4 → code < 64 → Registers.wf s = true → jobGet r k s = some j →
     jobState r k (jobDone r k code s) = 3 ∧ fget (slotRegs r k) Reg.JOB_RES.CODE (jobDone r k code s) = code ∧
       fget (slotRegs r k) Reg.JOB_RES.TAG (jobDone r k code s) = fget (slotRegs r k) Reg.JOB_RES.TAG s))

/-- Preparation, the fill tick and the decisions of waiting jobs (R319, R320, R325, R329). A packet whose CRC-32C does not
agree ends its job with CRC_BAD; an unsecured packet whose values agree is staged with its FCS; at the fill tick a job
not staged ends with PREP_LATE and a staged one fills; NO_ACK ends a job without retries left and starts its next
attempt otherwise; a window without an SFD ends with RX_NONE.

Listening and the transition (R318, R321–R323). A job with no CCA, or whose channel is clear, starts its attempt when
its span is free; a busy assessment of an EXACT job ends it with CCA_BUSY. At the transition's first tick the first check
that fails ends the job with its code. -/
def Obligations.JobsPreparedAndDecided : Prop :=
  ((∀ (room : BitVec 6) (slot : BitVec 2) (agrees : Bool) (s : State), jobGet room.toNat slot.toNat s = none →
     exec (.jobPreparation room slot agrees) s = .next s ∧ exec (.jobFillTick room slot) s = .next s ∧
     exec (.noAck room slot) s = .next s ∧ exec (.rxWinClose room slot) s = .next s) ∧
   (∀ (room : BitVec 6) (slot : BitVec 2) (agrees : Bool) (s : State) (j : Job) (p : QPacket),
     let r := room.toNat
     let k := slot.toNat
     let words := quePacketWords (256 + r) p s
     jobGet r k s = some j → (queGet (256 + r) s).packets.find? (fun p => some p.id == j.pkt) = some p →
     j.kind = 0 → j.timing ≠ 0 → j.staged = none → stagingHeld r k j s = false →
     (crc32c (packetOctets words) ≠ packetCrc words →
       exec (.jobPreparation room slot agrees) s = .next (jobDone r k 29 s)) ∧
     (crc32c (packetOctets words) = packetCrc words → j.sec = false →
       exec (.jobPreparation room slot true) s = .next (jobPut r k (some { j with
         staged := some (packetOctets words ++ macFcs j.fcs (packetOctets words)) }) s))) ∧
   (∀ (room : BitVec 6) (slot : BitVec 2) (s : State) (j : Job), jobGet room.toNat slot.toNat s = some j → j.kind = 0 →
     j.waits = false →
     (j.staged = none → exec (.jobFillTick room slot) s = .next (jobDone room.toNat slot.toNat 4 s)) ∧
     (j.staged.isSome = true → exec (.jobFillTick room slot) s =
       .next (jobPut room.toNat slot.toNat (some { j with filling := true }) s))) ∧
   (∀ (room : BitVec 6) (slot : BitVec 2) (s : State) (j : Job), jobGet room.toNat slot.toNat s = some j →
     (j.waits = false ∨ sfdPending j.ackLane (jobWindow j s) s = true → exec (.noAck room slot) s = .next s) ∧
     (j.waits = true → sfdPending j.ackLane (jobWindow j s) s = false →
       (j.retriesAsked ≤ j.retries → exec (.noAck room slot) s = .next (jobDone room.toNat slot.toNat 1 s)) ∧
       (j.retries < j.retriesAsked → exec (.noAck room slot) s = .next (jobNoAck room.toNat slot.toNat
         ((jobWindow j s).2 + 12288) j s))) ∧
     (j.kind = 1 → exec (.rxWinClose room slot) s = .next (if sfdPending j.lane (rxWindow j) s then s
       else jobDone room.toNat slot.toNat 13 s)))) ∧
  ((∀ (fe : Fe) (s : State), exec (.ccaDecision fe []) s = .next s) ∧
   (∀ (fe : Fe) (d : Decision) (s : State), exec (.ccaDecision fe [d]) s = .next (decideOne s d)) ∧
   (∀ (r k : Nat) (found : List EdReading) (late : Bool) (s : State) (j : Job), jobGet r k s = some j → j.kind = 0 →
     j.waits = false → j.clear = false → jobOnAir r k j s = false → j.timing = 0 →
     ((j.cca s).1 = 0 ∨ channelClear (j.cca s).2.1 found late = true →
       jobDecide r k found late s = roundPut j.fe r (jobPut r k (some { j with
         clear := true, preamble := j.at_ - feLead j.fe s + feLead j.fe s }) s)) ∧
     ((j.cca s).1 ≠ 0 → channelClear (j.cca s).2.1 found late = false →
       jobDecide r k found late s = jobDone r k 2 s)) ∧
   (∀ (th : Int) (found : List EdReading), channelClear th found true = false ∧
     (channelClear th found false = true ↔ ∀ r ∈ found, r.blanked = false ∧ r.edQ.toInt ≤ 4 * th)) ∧
   (∀ (r : BitVec 6) (k : BitVec 2) (tick : Word64) (temp : BitVec 16) (vpa : BitVec 12) (s : State),
     (jobGet r.toNat k.toNat s = none → exec (.txTransitionStart (.job r k) tick temp vpa) s = .next s) ∧
     (∀ j, jobGet r.toNat k.toNat s = some j → j.kind = 0 → j.waits = false → j.clear = true →
       jobOnAir r.toNat k.toNat j s = false →
       let s1 := armedShow j.fe (fset (slotRegs r.toNat k.toNat) Reg.JOB_RES.STATE 2 s)
       let code := txRefused j.fe j.entry (airUs j.frame) (some (4 * r.toNat + k.toNat)) s1
       (code ≠ 0 → exec (.txTransitionStart (.job r k) tick temp vpa) s =
         .next (jobDone r.toNat k.toNat code s1)) ∧
       (∀ psdu, code = 0 → j.staged = some psdu →
         ∃ t, exec (.txTransitionStart (.job r k) tick temp vpa) s = .next (match j.fe with
             | .a => knkDeaf t
             | .b => t) ∧
           (airGet j.fe t).map (fun f => (f.who, f.psdu, f.length)) = some (.job r k, psdu, 2 * j.frame)))) ∧
   (∀ (fe : Fe) (tick : Word64) (temp : BitVec 16) (vpa : BitVec 12) (s : State), ackGet fe s = none →
     exec (.txTransitionStart (.ack fe) tick temp vpa) s = .next s))

/-- A frame on its way out (R27, R58, R83, R321, R328, R336). At the ramp-up's first tick a buffer of 64 samples or more lets
it radiate; without a frame nothing happens; an underrun mutes it and marks its end; an acknowledgement on air counts in
ACK_SENT. At the cut tick an acknowledgement that is late is missed, with ACK_MISS counted.

Received frames (R284, R325, R330, R333). The verdict of the frame that waits first is taken, and of no other. With no
job waiting, a frame whose outcome is not OK goes to its lane's queue as RAW, one that does not parse to the house queue
as UNPARSED, and an acknowledgement is dropped and counted. -/
def Obligations.FramesSentAndVerdicts : Prop :=
  ((∀ (fe : Fe) (tick radiated : Word64) (temp : BitVec 16) (fill : Nat) (s : State), airGet fe s = none →
     exec (.txRampUp fe tick fill) s = .next s ∧ exec (.underrun fe) s = .next s ∧
     exec (.txFrameEnd fe tick radiated temp) s = .next s ∧ exec (.ackTransmit fe) s = .next s) ∧
   (∀ (fe : Fe) (tick : Word64) (fill : Nat) (s : State) (f : AirFrame), airGet fe s = some f → f.ramp = none →
     f.abort = none → 64 ≤ fill →
     ∃ t, exec (.txRampUp fe tick fill) s = .next t ∧ airGet fe t = some { f with ramp := some tick.toNat } ∧
       (feGet fe t).onAir = true ∧ t.regs = s.regs) ∧
   (∀ (fe : Fe) (s : State) (f : AirFrame) (x : Nat), airGet fe s = some f → f.ramp = some x →
     exec (.underrun fe) s = .next (fePut fe { feGet fe s with muted := true }
       (airPut fe (some { f with abort := some (f.abort.getD 3) }) s))) ∧
   (∀ (fe : Fe) (s : State) (f : AirFrame) (x : Nat), airGet fe s = some f → f.who = .ack fe → f.ramp = some x →
     exec (.ackTransmit fe) s = .next (fcount linkB Reg.LINK_CNT2.ACK_SENT s)) ∧
   (∀ (fe : Fe) (tick radiated : Word64) (temp : BitVec 16) (s : State) (f : AirFrame) (r0 : Nat), airGet fe s = some f →
     f.ramp = some r0 → f.who = .ack fe →
     exec (.txFrameEnd fe tick radiated temp) s = .next (dutyCharge
       (licGet f.entry 0x10 1 (txRelease fe tick.toNat temp s)) (((radiated.toNat - r0) * 10 + 767) / 768)
       (ackPut fe none (txRelease fe tick.toNat temp s)))) ∧
   (∀ (fe : Fe) (late : Bool) (s : State),
     (ackGet fe s = none → exec (.ackCut fe late) s = .next s) ∧
     (∀ a, ackGet fe s = some a → a.ready = false → Registers.wf s = true →
       ∃ t, exec (.ackCut fe true) s = .next t ∧ ackGet fe t = none ∧
         fget linkB Reg.LINK_CNT2.ACK_MISS t = min 255 (fget linkB Reg.LINK_CNT2.ACK_MISS s + 1) ∧
         (fget linkB Reg.LINK_CNT2.ACK_MISS s = 0 → fis linkB Reg.LINK_NOTE.ACK_MISS t = true)))) ∧
  ((∀ (lane : BitVec 8) (octets : List Byte) (intact : Bool) (now : Word64) (s : State),
     (∀ c, s.verdicts.head? = some c → c.lane ≠ lane.toNat) → exec (.laneVerdict lane octets intact now) s = .next s) ∧
   (∀ (lane : BitVec 8) (octets : List Byte) (intact : Bool) (now : Word64) (s : State) (c : ClosedFrame)
     (rest : List ClosedFrame), s.verdicts = c :: rest → c.lane = lane.toNat → jobList s = [] →
     let body := octets.take (c.len - c.fcsLen)
     let t := { s with verdicts := rest }
     (c.code ≠ 0 → exec (.laneVerdict lane octets intact now) s =
       .next (rxCommit c false body (rxRecord c false 0 5 none body.length) t)) ∧
     (c.code = 0 → macParse body = none → exec (.laneVerdict lane octets intact now) s =
       .next (rxCommit c true body (rxRecord c false 0 3 none body.length) t)) ∧
     (∀ f, c.code = 0 → macParse body = some f → f.ftype = 2 → exec (.laneVerdict lane octets intact now) s =
       .next (fcount linkB Reg.LINK_CNT2.ACK_STRAY t))) ∧
   (∀ (f : MacFrame) (octets : List Byte) (nb : Option Nat) (s : State), f.secured = false →
     (unsecure f octets nb s).sec = 0 ∧ (unsecure f octets nb s).octets = some octets) ∧
   (∀ (f : MacFrame) (octets : List Byte) (n : Nat) (e : Neighbour) (k fc : Nat) (s : State), f.secured = true →
     f.level ≠ 0 → nbrGet n s = some e → rxKeySlot f (some e) s = some k → (slotKey k s).isSome = true → f.srcMode = 3 →
     f.fc = some fc → e.fcSlot = 2 ^ 16 + k → k < 128 → fc ≤ e.rxFc → (unsecure f octets (some n) s).octets = none))

/-- The duty accounts (R335, R336). The bucket's advance begins an empty bucket and keeps the 64 before it; a charge adds to
the current bucket and so to the group's usage; the check passes when usage, reservations and the frame's own time stay
within DUTY × DUTY_WIN × 100 µs, and always for a group without a limit.

The neighbour table (R332, R342, R343). INSERT without an address sets LINK_ERR.RANGE; of an address that is there it
answers EXISTS with its index; with no place FULL; otherwise the entry stands at the index answered. DELETE of an entry
removes it and clears FULL; READ and LOOKUP write what they find to the D registers, and answer NOT_FOUND otherwise. -/
def Obligations.DutyAndNeighbours : Prop :=
  ((∀ (group : BitVec 4) (s : State), exec (.dutyBucketAdvance group) s =
     .next (dutyPut group.toNat (((0 : Nat) :: dutyGet group.toNat s).take 65) s)) ∧
   (∀ (g : Nat) (s : State), dutyUsed g (dutyPut g (((0 : Nat) :: dutyGet g s).take 65) s) =
     ((dutyGet g s).take 64).foldl (· + ·) 0) ∧
   (∀ (g us : Nat) (s : State), dutyUsed g (dutyAdd g us s) = dutyUsed g s + us) ∧
   (∀ (g a d w : Nat) (but : Option Nat) (s : State), dutyLimit g s = some (d, w) →
     (dutyOk g a but s = true ↔ dutyUsed g s + dutyHeld g but s + a ≤ d * w * 100)) ∧
   (∀ (g a : Nat) (but : Option Nat) (s : State), dutyLimit g s = none → dutyOk g a but s = true)) ∧
  (∀ (i : Init) (index : BitVec 12) (s : State), Admits i (linkB + 0x20) .store s →
     let n := index.toNat
     let s1 := linkPut { s.link with nbrIndex := n } s
     let e := nbrStaged s
     (e.hasExt = false → e.hasShort = false →
       exec (.nbrInsert i index) s = .next (acknowledge (linkErr Reg.LINK_ERR.RANGE s1))) ∧
     (∀ m, e.hasExt = true → nbrByExt e.ext s = some m →
       exec (.nbrInsert i index) s = .next (acknowledge (nbrResult 2 (some m) s1))) ∧
     (e.hasExt = true → nbrByExt e.ext s = none → e.hasShort = false →
       (∀ m, nbrPlace e s = some m → exec (.nbrInsert i index) s =
         .next (acknowledge (nbrResult 0 (some m) (nbrPut m (some e) s1)))) ∧
       (nbrPlace e s = none → exec (.nbrInsert i index) s = .next (acknowledge (nbrFull (nbrResult 1 none s1))))) ∧
     ((nbrGet n s).isSome = true → exec (.nbrDelete i index) s =
       .next (acknowledge (nbrResult 0 (some n) (fset linkB Reg.NBR_STAT.FULL 0 (nbrPut n none s1))))) ∧
     (nbrGet n s = none → exec (.nbrDelete i index) s = .next (acknowledge (nbrResult 3 none s1)) ∧
       exec (.nbrRead i index) s = .next (acknowledge (nbrResult 3 none s1))) ∧
     (∀ x, nbrGet n s = some x → Registers.wf s = true → x.ext < 2 ^ 64 → x.hasExt = true →
       ∃ t, exec (.nbrRead i index) s = .next t ∧ (rd64 (linkB + 0x24) t).toNat = x.ext ∧
         fget linkB Reg.NBR_STAT.RESULT t = 0 ∧ fget linkB Reg.NBR_STAT.FOUND t = n) ∧
     (rd64 (linkB + 0x24) s ≠ 0 → exec (.nbrLookup i index) s = .next (acknowledge
       (match nbrByExt (rd64 (linkB + 0x24) s).toNat s with
        | some m => nbrShow m s1
        | none => nbrResult 3 none s1))))

/-- A pop of a receive queue (R354, R361). Of a queue with words it answers the word at RPTR and advances RPTR by one; of an
empty one it answers a word with V = 0 that tells FLUSHED, DROPPED or EMPTY and clears what it told; of a transmit queue 0
with QUE_ERR.DIR.

A push to a transmit queue (R357, R361). A store to a receive queue sets DIR alone; a word without SOP and with no open
packet is discarded with ORPHAN; an SOP word with room opens a packet, which is not yet committed. -/
def Obligations.QueuePopsAndPushes : Prop :=
  ((∀ (i : Init) (q : Fin 320) (ecc : EccSeen) (s : State), issues i s = true →
     doorCheck i (quePage q.val) 8 .load s = none →
     (256 ≤ q.val → exec (.queuePop i q ecc) s = .next (respond 0 (fset (quePage q.val) Reg.QUE_ERR.DIR 1 s))) ∧
     (q.val < 256 → queW q.val s = queR q.val s →
       exec (.queuePop i q ecc) s = .next (respond (queEmptyRead q.val s).1 (queEmptyRead q.val s).2)) ∧
     (q.val < 256 → queW q.val s ≠ queR q.val s → Registers.wf s = true → 8 ≤ queLog2 q.val s → queLog2 q.val s ≤ 16 →
       ∃ t, exec (.queuePop i q .clean) s = .next t ∧ t.bus.resp = .data (queWord q.val (queR q.val s) s) ∧
         queR q.val t = (queR q.val s + 1) % (2 * 2 ^ queLog2 q.val s) ∧ queW q.val t = queW q.val s ∧ t.mem = s.mem)) ∧
   (∀ (q : Nat) (s : State),
     ((queGet q s).flushed = true → (queEmptyRead q s).1 = BitVec.ofNat 64 (2 ^ 49)) ∧
     ((queGet q s).flushed = false → (queGet q s).dropped = true → (queEmptyRead q s).1 = BitVec.ofNat 64 (2 ^ 48)) ∧
     ((queGet q s).flushed = false → (queGet q s).dropped = false → queEmptyRead q s = (0, s)) ∧
     (queEmptyRead q s).2.regs = s.regs)) ∧
  (∀ (i : Init) (q : Fin 320) (data : Word64) (s : State), issues i s = true →
     doorCheck i (quePage q.val) 8 .store s = none →
     (q.val < 256 → exec (.queuePush i q data) s = .next (acknowledge (fset (quePage q.val) Reg.QUE_ERR.DIR 1 s))) ∧
     (256 ≤ q.val → data.getLsbD 62 = false → (queGet q.val s).opened = none →
       exec (.queuePush i q data) s = .next (acknowledge (fset (quePage q.val) Reg.QUE_ERR.ORPHAN 1 s))) ∧
     (256 ≤ q.val → data.getLsbD 62 = true → data.getLsbD 58 = false → (queGet q.val s).opened = none →
       queFree q.val s ≠ 0 → Registers.wf s = true →
       ∃ t, exec (.queuePush i q data) s = .next t ∧ ((queGet q.val t).opened.map fun o => o.words) = some 1 ∧
         queW q.val t = queW q.val s ∧ queR q.val t = queR q.val s ∧ fis (quePage q.val) Reg.QUE_STAT.OPEN t = true ∧
         (queGet q.val t).packets = (queGet q.val s).packets) ∧
     (256 ≤ q.val → ∀ o, (queGet q.val s).opened = some o → data.getLsbD 62 = false → data.getLsbD 58 ≠ o.eop →
       exec (.queuePush i q data) s = .next (acknowledge
         (queWithdraw q.val Reg.QUE_ERR.FORMAT Reg.QUE_DROPS.DISCARD s))))

/-- A receive commit (R352, R353). A packet takes ceil(LEN / 4) + 6 words; one that fits moves WPTR past it and counts in
PKTS; one that does not is dropped whole, counted, and tells DROPPED.

QUE_CMD and QC_FLUSH (R356, R359, R364). Another key, and DROP on a transmit queue, set QUE_ERR.CMD alone; DROP on an
empty queue does nothing; FLUSH empties a receive queue and marks it flushed, and QC_FLUSH does the same to a queue with
a ring and nothing otherwise. -/
def Obligations.QueueCommitsAndCommands : Prop :=
  ((∀ (psdu : List Byte) (record : List Word) (epoch : Nat), record.length = 5 →
     (rxWords psdu record epoch).length = (psdu.length + 3) / 4 + 6) ∧
   (∀ (q : Nat) (psdu : List Byte) (record : List Word) (epoch : Nat) (s : State), q < 256 → Registers.wf s = true →
     queueCarved q s = true →
     let ws := rxWords psdu record epoch
     let t := queCommitRx q psdu record epoch s
     (queFree q s < ws.length → t = quePut q { queGet q s with dropped := true }
       (fset (quePage q) Reg.QUE_ERR.NOCREDIT 1 (fcount (quePage q) Reg.QUE_DROPS.NOCREDIT s))) ∧
     (ws.length ≤ queFree q s → queLog2 q s ≤ 16 →
       queW q t = (queW q s + ws.length) % (2 * 2 ^ queLog2 q s) ∧ queR q t = queR q s ∧
       fget (quePage q) Reg.QUE_STAT.PKTS t = (fget (quePage q) Reg.QUE_STAT.PKTS s + 1) % 2 ^ 16))) ∧
  ((∀ (i : Init) (q : Fin 320) (key : BitVec 16) (s : State), Admits i (quePage q.val + 0x20) .store s →
     (key ≠ 0x5143 → exec (.queueDrop i q key) s = .next (acknowledge (fset (quePage q.val) Reg.QUE_ERR.CMD 1 s)) ∧
       exec (.queueFlush i q key) s = .next (acknowledge (fset (quePage q.val) Reg.QUE_ERR.CMD 1 s))) ∧
     (key = 0x5143 → 256 ≤ q.val →
       exec (.queueDrop i q key) s = .next (acknowledge (fset (quePage q.val) Reg.QUE_ERR.CMD 1 s))) ∧
     (key = 0x5143 → q.val < 256 → (queGet q.val s).packets = [] →
       exec (.queueDrop i q key) s = .next (acknowledge s)) ∧
     (key = 0x5143 → q.val < 256 → ∀ p r, (queGet q.val s).packets = p :: r → Registers.wf s = true →
       queLog2 q.val s ≤ 16 →
       ∃ t, exec (.queueDrop i q key) s = .next t ∧ queR q.val t = (p.start + p.words) % (2 * 2 ^ queLog2 q.val s) ∧
         fget (quePage q.val) Reg.QUE_DROPS.DISCARD t = min 65535 (fget (quePage q.val) Reg.QUE_DROPS.DISCARD s + 1)) ∧
     (key = 0x5143 → q.val < 256 → Registers.wf s = true →
       ∃ t, exec (.queueFlush i q key) s = .next t ∧ queR q.val t = queW q.val s ∧ queW q.val t = queW q.val s ∧
         fget (quePage q.val) Reg.QUE_STAT.PKTS t = 0 ∧ (queGet q.val t).flushed = true)) ∧
   (∀ (i : Init) (key : BitVec 16) (q : BitVec 9) (s : State), Admits i 0x40040008 .store s →
     (key ≠ 0x5146 ∨ 320 ≤ q.toNat ∨ queueCarved q.toNat s = false →
       exec (.qcFlush i key q) s = .next (acknowledge s)) ∧
     (key = 0x5146 → q.toNat < 320 → queueCarved q.toNat s = true →
       exec (.qcFlush i key q) s = .next (acknowledge (queFlush q.toNat s)))))

/-- Listening and commissioning (R365, R366, R368, R376, R377). EN = 1 without a wake word is refused with RANGE; EN = 1
with one powers PD01 and gives a tune code, EN = 0 powers it off and ends listening; LOCK once set stays set. A write of
KNK_FREQ or KNK_WORD is refused, with the register unchanged and a flag for each reason, while LOCK or EN is 1 or out of
range. Listening starts DEAF while front end A transmits.

Matching (R370–R374). Each step counts in its counter: a preamble detection, a wake word, a wrong CRC, another
target, a match; an abandoned frame returns to listening. A match is recorded with the next SEQ; inside the hold-off it
wakes nothing; outside it, in RUN with no entry in progress, it raises KNK_WAKE. -/
def Obligations.Knocker : Prop :=
  ((∀ (i : Init) (data : Word) (s : State), Admits i 0x70010000 .store s →
     (data.getLsbD 0 = true → rd 0x70010008 s = 0 → exec (.knkEnWrite i data) s =
       .next (acknowledge (knkErr Reg.KNK_ERR.RANGE s))) ∧
     (data.getLsbD 0 = true → rd 0x70010008 s ≠ 0 → Registers.wf s = true →
       ∃ t, exec (.knkEnWrite i data) s = .next t ∧ fis knkB Reg.KNK_CTRL.EN t = true ∧ pdOn 1 t = true ∧
         fis knkB Reg.KNK_CTRL.LOCK t = (fis knkB Reg.KNK_CTRL.LOCK s || data.getLsbD 3) ∧
         fis knkB Reg.KNK_CTRL.WAKE_EN t = data.getLsbD 1 ∧ fis knkB Reg.KNK_CTRL.BCAST_EN t = data.getLsbD 2 ∧
         knkState t = knkState s ∧ t.mem = s.mem) ∧
     (data.getLsbD 0 = false → Registers.wf s = true →
       ∃ t, exec (.knkEnWrite i data) s = .next t ∧ fis knkB Reg.KNK_CTRL.EN t = false ∧ pdOn 1 t = false ∧
         fis knkB Reg.KNK_CTRL.LOCK t = (fis knkB Reg.KNK_CTRL.LOCK s || data.getLsbD 3) ∧
         knkState t = 0 ∧ t.knk.matched = false ∧ rd 0x70010018 t = rd 0x70010018 s ∧ t.mem = s.mem)) ∧
   (∀ (i : Init) (isWord : Bool) (data : Word) (s : State),
     let a := 0x70010000 + (if isWord then 8 else 4)
     let bad := knkOutOfRange isWord data
     Admits i a .store s →
     (fis knkB Reg.KNK_CTRL.LOCK s = false → fis knkB Reg.KNK_CTRL.EN s = false → bad = false →
       exec (.knkConfigWrite i isWord data) s = .next (acknowledge (wr a data s))) ∧
     (fis knkB Reg.KNK_CTRL.LOCK s = true ∨ fis knkB Reg.KNK_CTRL.EN s = true ∨ bad = true → Registers.wf s = true →
       ∃ t, exec (.knkConfigWrite i isWord data) s = .next t ∧ rd a t = rd a s ∧
         fis knkB Reg.KNK_ERR.LOCKED t = (fis knkB Reg.KNK_ERR.LOCKED s || fis knkB Reg.KNK_CTRL.LOCK s) ∧
         fis knkB Reg.KNK_ERR.BUSY t = (fis knkB Reg.KNK_ERR.BUSY s || fis knkB Reg.KNK_CTRL.EN s) ∧
         fis knkB Reg.KNK_ERR.RANGE t = (fis knkB Reg.KNK_ERR.RANGE s || bad))) ∧
   (∀ data : Word, (knkOutOfRange true data = true ↔ data = 0) ∧
     (knkOutOfRange false data = true ↔ data.toNat < 863000 ∨ 928000 < data.toNat)) ∧
   (∀ s : State,
     (fis knkB Reg.KNK_CTRL.EN s = true → knkState s = 0 → pdOn 1 s = true →
       exec .knkListenStart s = .next (knkGo (if knkMuffled s then 3 else 1) s)) ∧
     (fis knkB Reg.KNK_CTRL.EN s = false ∨ knkState s ≠ 0 ∨ pdOn 1 s = false → exec .knkListenStart s = .next s))) ∧
  ((∀ s : State,
     (knkState s = 1 → exec .knkPreambleDetect s = .next (knkGo 2 (fcount knkB Reg.KNK_CNT0.PRE s))) ∧
     (knkState s ≠ 1 → exec .knkPreambleDetect s = .next s) ∧
     (knkState s = 2 → s.knk.matched = false →
       exec .knkWordMatch s = .next (fcount knkB Reg.KNK_CNT0.WORD { s with knk := { s.knk with matched := true } }) ∧
       exec .knkWordTimeout s = .next (knkGo 1 s)) ∧
     (knkState s ≠ 2 ∨ s.knk.matched = true →
       exec .knkWordMatch s = .next s ∧ exec .knkWordTimeout s = .next s)) ∧
   (∀ (target : BitVec 16) (crc level : BitVec 8) (now : Nat) (s : State),
     (knkState s ≠ 2 ∨ s.knk.matched = false → exec (.knkEndOfPattern target crc level now) s = .next s) ∧
     (knkState s = 2 → s.knk.matched = true →
       (crc.toNat ≠ knkCrc (rd 0x70010008 s).toNat target.toNat →
         exec (.knkEndOfPattern target crc level now) s = .next (fcount knkB Reg.KNK_CNT1.CRC_BAD (knkGo 1 s))) ∧
       (crc.toNat = knkCrc (rd 0x70010008 s).toNat target.toNat → knkMatches target.toNat s = false →
         exec (.knkEndOfPattern target crc level now) s = .next (fcount knkB Reg.KNK_CNT1.NOT_ME (knkGo 1 s))) ∧
       (crc.toNat = knkCrc (rd 0x70010008 s).toNat target.toNat → knkMatches target.toNat s = true →
         Registers.wf s = true →
         ∃ t, exec (.knkEndOfPattern target crc level now) s = .next t ∧
           (∀ w, s.knk.lastWake = some w → now - w ≤ 10000 * fget knkB Reg.KNK_CFG.HOLDOFF s →
             0 < fget knkB Reg.KNK_CFG.HOLDOFF s → t.rooms = s.rooms ∧ t.pow = s.pow ∧ t.knk.lastWake = some w ∧
             fget knkB Reg.KNK_LAST.TARGET t = target.toNat ∧ fget knkB Reg.KNK_LAST.LEVEL t = level.toNat ∧
             fget knkB Reg.KNK_LAST.SEQ t = (fget knkB Reg.KNK_LAST.SEQ s + 1) % 256 ∧
             fget knkB Reg.KNK_CNT2.MATCH t = min 65535 (fget knkB Reg.KNK_CNT2.MATCH s + 1) ∧ knkState t = 1) ∧
           (s.knk.lastWake = none → s.pow.hall = .run → phase s = 0 → knkState t = 1 ∧
             fget knkB Reg.KNK_LAST.TARGET t = target.toNat ∧ fget knkB Reg.KNK_LAST.LEVEL t = level.toNat ∧
             fget knkB Reg.KNK_LAST.SEQ t = (fget knkB Reg.KNK_LAST.SEQ s + 1) % 256 ∧ t.knk.lastWake = some now ∧
             t.rooms = (raiseEvt 848 s).rooms)))) ∧
   (∀ (target : Nat) (s : State), knkMatches 0xFFFE s = false ∧
     knkMatches 0xFFFF s = fis knkB Reg.KNK_CTRL.BCAST_EN s ∧
     (∀ g, g < 16 → knkMatches (0xFE00 + g) s = (fget knkB Reg.KNK_ADDR.GROUPS s).testBit g) ∧
     (target < 0xFE00 → knkMatches target s = (target == fget knkB Reg.KNK_ADDR.ADDR s))))

/-- The discipline (R387, R388, R391). A measurement of at most 250 µs slews: the remainder becomes OFS, FREQ moves by its
share and is clamped, and a pending step is cancelled; a larger one makes a step pending and changes neither. At most
LOCK_TH it locks, with TIME_ERR = |OFS| + accuracy; above LOCK_TH it takes LOCKED to HOLDOVER.

The sources and TIME_CMD (R384–R386, R390). PPS_IN becomes valid with the second good edge in a row; a bad edge is
counted and flagged and ends the row; a lost source is invalid. A wrong key, or SET with MEAS, sets CMD alone; a
measurement in the future or more than 2 s old sets MEAS_LATE alone; an accepted one makes MESH valid; SET takes the
staged value and leaves FREE, with TIME_ERR unknown. -/
def Obligations.NetworkTime : Prop :=
  (∀ (src : Nat) (ofs : Int) (tick : Nat) (s : State), Registers.wf s = true →
     let t := timeMeasure src ofs tick s
     let last := if src = 1 then s.time.lastPps else s.time.lastMesh
     let th := 1000 * fget timeB Reg.TIME_LIMITS.LOCK_TH s
     (ofs.natAbs ≤ 250000 → t.time.rem = ofs ∧ t.time.step = none ∧ fis timeB Reg.TIME_QUAL.STEP_PEND t = false ∧
       t.time.freq = ratClamp 200000 (s.time.freq + freqShare ofs last tick s)) ∧
     (250000 < ofs.natAbs → t.time.step = some ofs ∧ fis timeB Reg.TIME_QUAL.STEP_PEND t = true ∧
       t.time.freq = s.time.freq ∧ t.time.rem = s.time.rem) ∧
     (ofs.natAbs ≤ 250000 → ofs.natAbs ≤ th → timeState t = 2 ∧
       (rd (timeB + 0x2C) t).toNat = ofs.natAbs + timeAccuracy src s) ∧
     (th < ofs.natAbs → timeState t = if timeState s = 2 then 1 else timeState s)) ∧
  ((∀ (edge nt : Word64) (s : State),
     (fis timeB Reg.TIME_PPS.IN_EN s = false → exec (.ppsInEdge edge nt) s = .next s) ∧
     (fis timeB Reg.TIME_PPS.IN_EN s = true → s.time.lastEdge = none →
       exec (.ppsInEdge edge nt) s = .next (timePut { s.time with lastEdge := some edge.toNat } s)) ∧
     (∀ p, fis timeB Reg.TIME_PPS.IN_EN s = true → s.time.lastEdge = some p →
       (p + 1536153600 < edge.toNat → Registers.wf s = true →
         ∃ t, exec (.ppsInEdge edge nt) s = .next t ∧ t.time.goods = 0 ∧ t.time.ppsValid = s.time.ppsValid ∧
           fis timeB Reg.TIME_ERRF.PPS_BAD t = true ∧
           fget timeB Reg.TIME_CNT.PPS_BAD t = min 65535 (fget timeB Reg.TIME_CNT.PPS_BAD s + 1) ∧
           timeState t = timeState s) ∧
       (p + 1535846400 ≤ edge.toNat → edge.toNat ≤ p + 1536153600 →
         ∃ t, exec (.ppsInEdge edge nt) s = .next t ∧ t.time.goods = s.time.goods + 1 ∧
           t.time.ppsValid = (s.time.ppsValid || decide (1 ≤ s.time.goods)) ∧ t.time.lastEdge = some edge.toNat))) ∧
   (∀ s : State,
     (s.time.ppsValid = false → exec .ppsLost s = .next s) ∧ (s.time.meshValid = false → exec .meshLost s = .next s) ∧
     (s.time.ppsValid = true → exec .ppsLost s =
       .next (timeSources (timeNote 5 (timePut { s.time with ppsValid := false, goods := 0 } s)))) ∧
     (s.time.meshValid = true → exec .meshLost s = .next (timeSources (timePut { s.time with meshValid := false } s)))) ∧
   (∀ s : State, Registers.wf s = true → timeSource s = 0 → timeState s = 2 → timeState (timeSources s) = 1) ∧
   (∀ (i : Init) (data : Word) (now : Word64) (s : State), Admits i 0x4005004C .store s →
     let at_ := (rd64 0x4005003C s).toNat
     (bitsOf data 16 16 ≠ 0x544D ∨ data.getLsbD 1 = true →
       exec (.timeMeas i data now) s = .next (acknowledge (timeErrf Reg.TIME_ERRF.CMD s))) ∧
     (bitsOf data 16 16 ≠ 0x544D ∨ data.getLsbD 0 = true →
       exec (.timeSet i data now) s = .next (acknowledge (timeErrf Reg.TIME_ERRF.CMD s))) ∧
     (bitsOf data 16 16 = 0x544D → data.getLsbD 1 = false →
       (now.toNat < at_ ∨ at_ + 153600000 < now.toNat →
         exec (.timeMeas i data now) s = .next (acknowledge (timeErrf Reg.TIME_ERRF.MEAS_LATE s))) ∧
       (at_ ≤ now.toNat → now.toNat ≤ at_ + 153600000 → Registers.wf s = true →
         let s1 := timeSources (timePut { s.time with meshValid := true } s)
         (fget timeB Reg.TIME_CFG.SRC s = 2 ∨ (fget timeB Reg.TIME_CFG.SRC s = 3 ∧ s.time.ppsValid = false) →
           exec (.timeMeas i data now) s =
             .next (acknowledge (timeMeasure 2 (fgetS timeB Reg.TIME_MEAS_OFS.OFS s) at_ s1))) ∧
         (fget timeB Reg.TIME_CFG.SRC s < 2 ∨ (fget timeB Reg.TIME_CFG.SRC s = 3 ∧ s.time.ppsValid = true) →
           exec (.timeMeas i data now) s = .next (acknowledge s1)))) ∧
     (bitsOf data 16 16 = 0x544D → data.getLsbD 0 = false → Registers.wf s = true →
       ∃ t, exec (.timeSet i data now) s = .next t ∧ rd64 0x40050010 t = rd64 0x40050044 s ∧
         rd 0x4005002C t = 0xFFFFFFFF#32 ∧ timeState t = 0 ∧ t.time.step = none ∧ t.time.rem = 0 ∧
         t.time.freq = s.time.freq ∧ fis timeB ⟨0x64, 1, 1⟩ t = true ∧
         fget timeB Reg.TIME_CNT.STEPS t = min 255 (fget timeB Reg.TIME_CNT.STEPS s + 1))))

/-- A whole second (R389, R392–R394). While PD31 carries network time TIME_SEC fires; a pending step gives that second plus
D and is done; TIME_ERR grows outside LOCKED; a pulse begins when the quality meets OUT_MIN and the last rising edge is
0.5 s or more ago, and is counted in SUPPR when it is not; it ends with its width.

The reference estimate (R395–R397). An interval in which PD31 or CK_REF was not there makes no update; any other gives E
on its basis and counts in UPD. STATE becomes WARN above 10 ppm and SUSPECT above 25 ppm, and leaves them at 9 and 24.

The interval meter (R401, R402). ARM opens a window of WINDOW ms and clears DONE; CANCEL closes it without a result; with
no window open an edge or an expiry changes nothing; an edge of another source, or after the window, is not captured.
The first start and stop edges close it with their difference: 0 and NEAR within one unit, ORDER when negative; an
expiry tells what is missing. -/
def Obligations.SecondsReferenceAndIntervals : Prop :=
  ((∀ (sec tick : Word64) (f10 : BitVec 24) (s : State), s.time.away = true ∨ pdOn 31 s = false →
     exec (.timeSec sec tick f10) s = .next s) ∧
   (∀ (sec tick : Word64) (f10 : BitVec 24) (s : State), s.time.away = false → pdOn 31 s = true →
     exec (.timeSec sec tick f10) s = .next (secF10 sec.toNat f10.toNat (secStep sec.toNat
       (secPulse tick.toNat (secQuality (secSlew (raiseEvt 895 s))))))) ∧
   (∀ (sec : Nat) (d : Int) (s : State), s.time.step = some d → Registers.wf s = true →
     let t := secStep sec s
     t.time.nt = ((sec : Int) * 1000000000 + d).toNat ∧ t.time.step = none ∧ t.time.rem = 0 ∧
     fget timeB Reg.TIME_CNT.STEPS t = min 255 (fget timeB Reg.TIME_CNT.STEPS s + 1) ∧
     fis timeB ⟨0x64, 1, 1⟩ t = true) ∧
   (∀ (tick : Nat) (s : State), fis timeB Reg.TIME_PPS.OUT_EN s = true →
     fget timeB Reg.TIME_PPS.OUT_MIN s ≤ timeState s →
     (∀ p, s.time.lastPulse = some p → tick < p + 38400000 → p ≤ tick →
       secPulse tick s = fcount timeB Reg.TIME_CNT.SUPPR s) ∧
     ((∀ p, s.time.lastPulse = some p → p + 38400000 ≤ tick) →
       secPulse tick s = timePut { s.time with ppsOut := true, lastPulse := some tick } s)) ∧
   (∀ (tick : Nat) (s : State), fis timeB Reg.TIME_PPS.OUT_EN s = false ∨
     timeState s < fget timeB Reg.TIME_PPS.OUT_MIN s → secPulse tick s = s) ∧
   (∀ (s : State) (e0 : Nat), s.time.err0 = some e0 → timeState s ≠ 2 → timeSource s = 0 → Registers.wf s = true →
     let v := min 0xFFFFFFFE (e0 + fget timeB Reg.REF_STAB.STAB s * (s.time.errSecs + 1))
     (rd (timeB + 0x2C) (secQuality s)).toNat = v ∧
     timeState (secQuality s) = (if timeState s = 1 ∧ 1000 * fget timeB Reg.TIME_LIMITS.FREE_LIMIT s < v then 0
       else timeState s)) ∧
   (∀ s : State, exec .ppsPulseEnd s = .next (timePut { s.time with ppsOut := false } s))) ∧
  ((∀ (n : BitVec 32) (mean : Int) (s : State), s.time.counts = false →
     exec (.refEstimateUpdate n mean) s = .next s) ∧
   (∀ (n : BitVec 32) (mean : Int) (s : State), s.time.counts = true → Registers.wf s = true →
     let elf : Rat := ((n.toNat : Rat) / 614400000 - 1) * 1000000
     ∃ t, exec (.refEstimateUpdate n mean) s = .next t ∧
       fget timeB Reg.REF_STAT.UPD t = (fget timeB Reg.REF_STAT.UPD s + 1) % 256 ∧
       (s.time.lockedAll = true → timeState s = 2 → fget timeB Reg.REF_STAT.BASIS t = 3 ∧
         t.time.e = -(mean : Rat) / 1000000) ∧
       (timeState s ≠ 2 → fis timeB Reg.TIME_QUAL.LF_CAL s = true → fget timeB Reg.REF_STAT.BASIS t = 2 ∧
         t.time.e = elf - s.time.lfOfs) ∧
       (timeState s ≠ 2 → fis timeB Reg.TIME_QUAL.LF_CAL s = false → fget timeB Reg.REF_STAT.BASIS t = 1 ∧
         t.time.e = elf) ∧
       fgetS timeB Reg.REF_STAT.EST t = refRounded t.time.e ∧ timeState t = timeState s) ∧
   (∀ (was : Nat) (s : State),
     (25 < s.time.e ∨ s.time.e < -25 → refState was s = 2) ∧
     (s.time.e ≤ 24 → -24 ≤ s.time.e → 10 < s.time.e ∨ s.time.e < -10 → refState was s = 1) ∧
     (s.time.e ≤ 9 → -9 ≤ s.time.e → refState was s = 0) ∧
     (9 < s.time.e → s.time.e ≤ 10 → refState was s = if was = 0 then 0 else 1) ∧
     (24 < s.time.e → s.time.e ≤ 25 → refState was s = if was = 2 then 2 else 1)) ∧
   (∀ s : State, Registers.wf s = true → ∃ t, exec .ckRefRunning s = .next t ∧ fis (feB .a) Reg.FE_STAT.XREF_RUN t = true ∧
     fis (feB .b) Reg.FE_STAT.XREF_RUN t = true ∧ t.time.counts = (s.time.counts || pdOn 31 s))) ∧
  ((∀ (i : Init) (data : Word) (now : Word64) (s : State), Admits i 0x40050084 .store s →
     (bitsOf data 16 16 ≠ 0x494D ∨ data.getLsbD 1 = true →
       exec (.imArm i data now) s = .next (acknowledge (timeErrf Reg.TIME_ERRF.CMD s))) ∧
     (bitsOf data 16 16 ≠ 0x494D ∨ data.getLsbD 0 = true →
       exec (.imCancel i data now) s = .next (acknowledge (timeErrf Reg.TIME_ERRF.CMD s))) ∧
     (bitsOf data 16 16 = 0x494D → data.getLsbD 1 = false → Registers.wf s = true →
       ∃ t, exec (.imArm i data now) s = .next t ∧ t.time.im = some { last :=
           (now.toNat + fget timeB Reg.IM_CFG.WINDOW s * 76800) * 20 + 19 } ∧
         fis timeB Reg.IM_STAT.ARMED t = true ∧ fis timeB Reg.IM_STAT.DONE t = false ∧
         rd64 0x4005008C t = rd64 0x4005008C s) ∧
     (bitsOf data 16 16 = 0x494D → data.getLsbD 0 = false → data.getLsbD 1 = true → Registers.wf s = true →
       ∃ t, exec (.imCancel i data now) s = .next t ∧ t.time.im = none ∧ fis timeB Reg.IM_STAT.ARMED t = false ∧
         fis timeB Reg.IM_STAT.DONE t = fis timeB Reg.IM_STAT.DONE s ∧ t.rooms = s.rooms)) ∧
   (∀ (src : BitVec 7) (falling : Bool) (at_ : Word64) (s : State), s.time.im = none →
     exec (.imEdge src falling at_) s = .next s ∧ exec .imWindowExpire s = .next s) ∧
   (∀ (src : BitVec 7) (falling : Bool) (at_ : Word64) (s : State) (w : ImWindow), s.time.im = some w →
     let c := rd 0x40050080 s
     let isStart := src.toNat = bitsOf c 0 7 ∧ falling = bitOf c 7
     let isStop := src.toNat = bitsOf c 8 7 ∧ falling = bitOf c 15
     exec .imWindowExpire s = .next (imClose w s) ∧
     (w.last < at_.toNat → exec (.imEdge src falling at_) s = .next s) ∧
     (at_.toNat ≤ w.last → isStart → w.start = none → w.stop = none → exec (.imEdge src falling at_) s =
       .next (timePut { s.time with im := some { w with start := some at_.toNat } } s)) ∧
     (at_.toNat ≤ w.last → ¬ isStart → isStop → w.start = none → w.stop = none → exec (.imEdge src falling at_) s =
       .next (timePut { s.time with im := some { w with stop := some at_.toNat } } s)) ∧
     (∀ a, at_.toNat ≤ w.last → isStop → w.start = some a → w.stop = none → exec (.imEdge src falling at_) s =
       .next (imClose { w with stop := some at_.toNat } s)) ∧
     (∀ b, at_.toNat ≤ w.last → isStart → w.start = none → w.stop = some b → ¬ isStop →
       exec (.imEdge src falling at_) s = .next (imClose { w with start := some at_.toNat } s))) ∧
   (∀ (w : ImWindow) (s : State), Registers.wf s = true →
     let t := imClose w s
     t.time.im = none ∧ fis timeB Reg.IM_STAT.DONE t = true ∧ fis timeB Reg.IM_STAT.ARMED t = false ∧
     t.rooms = (raiseEvt 727 s).rooms ∧ fis timeB Reg.IM_STAT.NO_STOP t = w.stop.isNone ∧
     fis timeB Reg.IM_STAT.NO_START t = w.start.isNone ∧
     (∀ a b, w.start = some a → w.stop = some b → a < 2 ^ 63 → b < 2 ^ 63 →
       (rd64 0x4005008C t).toInt = (if ((b : Int) - a).natAbs ≤ 1 then 0 else (b : Int) - a) ∧
       fis timeB Reg.IM_STAT.NEAR t = decide (((b : Int) - a).natAbs ≤ 1) ∧
       fis timeB Reg.IM_STAT.ORDER t = decide ((b : Int) - a < -1) ∧ (rd64 0x40050094 t).toNat = a / 20)))

/-- Writes of a timer page (R409, R411, R412, R414, R434). A CAP_SRC or CAP_EDGE out of range sets RANGE and ERR alone, a
change of PRESC or CLK_SEL while running BUSY and ERR alone; EN = 0 holds the count; ZERO sets it to 0. A commit of CMP or
RELOAD waits for the next tick edge while EN is 1, with PEND, and takes effect at once while EN is 0, firing nothing.

A tick edge (R408, R410, R411, R413–R416). A waiting RELOAD applies first; the count goes to 0 at RELOAD or above, with
WRAP, and else up by one; a waiting CMP then applies. The compare fires when CMP, not above RELOAD, equals the new count,
or was just committed at or below the old one: MATCH, and with ONCE no CMP_EN. A capture takes the count, with CAP, and
CAP_OVR when CAP was set. -/
def Obligations.Timers : Prop :=
  ((∀ (i : Init) (timer : Fin 20) (data : Word) (count : Word64) (s : State), Admits i (tmrB timer.val) .store s →
     let t := timer.val
     let old := rd (tmrB t) s
     let bad := bitsOf data 8 7 < 64 ∨ bitsOf data 6 2 = 3
     let moved := bitsOf data 16 16 ≠ bitsOf old 16 16 ∨ bitOf data 2 ≠ bitOf old 2
     (bad → exec (.timerEnable i timer data count) s =
       .next (acknowledge (tmrNote t Reg.TMR_NOTE.ERR (fset (tmrB t) Reg.TMR_STAT.RANGE 1 s)))) ∧
     (¬ bad → bitOf old 0 = true → moved → exec (.timerEnable i timer data count) s =
       .next (acknowledge (tmrNote t Reg.TMR_NOTE.ERR (fset (tmrB t) Reg.TMR_STAT.BUSY 1 s)))) ∧
     (¬ bad → bitOf old 0 = false → exec (.timerEnable i timer data count) s =
       .next (acknowledge (wr (tmrB t) (data &&& 0xFFFF7FFF#32) s))) ∧
     (¬ bad → bitOf old 0 = true → ¬ moved → bitOf data 0 = false → Registers.wf s = true →
       ∃ u, exec (.timerEnable i timer data count) s = .next u ∧ tmrCount t u = count.toNat % tmrTop t ∧
         fis (tmrB t) Reg.TMR_CTRL.EN u = false ∧ tmrReload t u = tmrReload t s ∧ tmrCmp t u = tmrCmp t s)) ∧
   (∀ (i : Init) (timer : Fin 20) (key : BitVec 16) (s : State), Admits i (tmrB timer.val + 0x28) .store s →
     (key ≠ 0x544D → exec (.timerZero i timer key) s =
       .next (acknowledge (tmrNote timer.val Reg.TMR_NOTE.ERR s))) ∧
     (key = 0x544D → exec (.timerZero i timer key) s = .next (acknowledge (tmrPut timer.val 0x10 0 s)))) ∧
   (∀ (i : Init) (timer : Fin 20) (data : Word) (s : State), Registers.wf s = true →
     let t := timer.val
     let v (off : Nat) := if tmrLong t then (Word64.ofHalves (stagedGet i (tmrB t + off) s) data).toNat else data.toNat
     (Admits i (tmrCommitAt t 0x18) .store s → fis (tmrB t) Reg.TMR_CTRL.EN s = true →
       ∃ u, exec (.timerCmpCommit i timer data) s = .next u ∧ (tmrPend t u).cmp = some (v 0x18) ∧
         (tmrPend t u).reload = (tmrPend t s).reload ∧ fis (tmrB t) Reg.TMR_STAT.PEND u = true ∧
         tmrCmp t u = tmrCmp t s ∧ tmrReload t u = tmrReload t s) ∧
     (Admits i (tmrCommitAt t 0x18) .store s → fis (tmrB t) Reg.TMR_CTRL.EN s = false →
       ∃ u, exec (.timerCmpCommit i timer data) s = .next u ∧ tmrCmp t u = v 0x18 ∧
         fis (tmrB t) Reg.TMR_NOTE.MATCH u = fis (tmrB t) Reg.TMR_NOTE.MATCH s ∧
         fis (tmrB t) Reg.TMR_NOTE.CMP_RANGE u =
           (fis (tmrB t) Reg.TMR_NOTE.CMP_RANGE s || decide (tmrReload t s < v 0x18))) ∧
     (Admits i (tmrCommitAt t 8) .store s → fis (tmrB t) Reg.TMR_CTRL.EN s = true →
       ∃ u, exec (.timerReloadCommit i timer data) s = .next u ∧ (tmrPend t u).reload = some (v 8) ∧
         (tmrPend t u).cmp = (tmrPend t s).cmp ∧ fis (tmrB t) Reg.TMR_STAT.PEND u = true ∧
         tmrCmp t u = tmrCmp t s ∧ tmrReload t u = tmrReload t s) ∧
     (Admits i (tmrCommitAt t 8) .store s → fis (tmrB t) Reg.TMR_CTRL.EN s = false →
       ∃ u, exec (.timerReloadCommit i timer data) s = .next u ∧ tmrReload t u = v 8 ∧ tmrCmp t u = tmrCmp t s ∧
         fis (tmrB t) Reg.TMR_NOTE.CMP_RANGE u =
           (fis (tmrB t) Reg.TMR_NOTE.CMP_RANGE s || decide (v 8 < tmrCmp t s))))) ∧
  ((∀ (timer : Fin 20) (count : Word64) (s : State),
     let t := timer.val
     let c := count.toNat % tmrTop t
     (tmrRuns t s = false → exec (.timerMatch timer count) s = .next s ∧ exec (.timerWrap timer count) s = .next s ∧
       exec (.timerCmpEffect timer count) s = .next s) ∧
     (tmrRuns t s = true → exec (.timerMatch timer count) s = .next (tmrEdge t c s) ∧
       (tmrReload t s ≤ c → exec (.timerWrap timer count) s = .next (tmrEdge t c s)) ∧
       ((tmrPend t s).cmp.isSome = true → exec (.timerCmpEffect timer count) s = .next (tmrEdge t c s)))) ∧
   (∀ (t c : Nat) (s : State),
     let p := tmrPend t s
     let reload := p.reload.getD (tmrReload t s)
     let cmp := p.cmp.getD (tmrCmp t s)
     let new := if reload ≤ c then 0 else c + 1
     let fires := fis (tmrB t) Reg.TMR_CTRL.CMP_EN s && decide (cmp ≤ reload) &&
       (decide (cmp = new) || (p.cmp.isSome && decide (cmp ≤ c)))
     let u := tmrEdge t c s
     t < 20 → Registers.wf s = true → reload < tmrTop t → cmp < tmrTop t →
     tmrCount t u = new ∧ tmrReload t u = reload ∧ tmrCmp t u = cmp ∧
     fis (tmrB t) Reg.TMR_STAT.PEND u = false ∧
     fis (tmrB t) Reg.TMR_NOTE.WRAP u = (fis (tmrB t) Reg.TMR_NOTE.WRAP s || decide (reload ≤ c)) ∧
     fis (tmrB t) Reg.TMR_NOTE.MATCH u = (fis (tmrB t) Reg.TMR_NOTE.MATCH s || fires) ∧
     fis (tmrB t) Reg.TMR_CTRL.CMP_EN u =
       (fis (tmrB t) Reg.TMR_CTRL.CMP_EN s && !(fires && fis (tmrB t) Reg.TMR_CTRL.ONCE s)) ∧
     fis (tmrB t) Reg.TMR_NOTE.CMP_RANGE u = (fis (tmrB t) Reg.TMR_NOTE.CMP_RANGE s ||
       ((p.cmp.isSome || p.reload.isSome) && decide (reload < cmp)))) ∧
   (∀ (timer : Fin 20) (count : Word64) (falling : Bool) (s : State),
     let t := timer.val
     let e := fget (tmrB t) Reg.TMR_CTRL.CAP_EDGE s
     (pdOn 78 s = false ∨ fis (tmrB t) Reg.TMR_CTRL.CAP_EN s = false →
       exec (.timerCapture timer count falling) s = .next s) ∧
     (pdOn 78 s = true → fis (tmrB t) Reg.TMR_CTRL.CAP_EN s = true →
       e = 2 ∨ (e = 0 ∧ falling = false) ∨ (e = 1 ∧ falling = true) → Registers.wf s = true →
       ∃ u, exec (.timerCapture timer count falling) s = .next u ∧ tmrGet t 0x20 u = count.toNat % tmrTop t ∧
         fis (tmrB t) Reg.TMR_NOTE.CAP u = true ∧
         fis (tmrB t) Reg.TMR_NOTE.CAP_OVR u =
           (fis (tmrB t) Reg.TMR_NOTE.CAP_OVR s || fis (tmrB t) Reg.TMR_NOTE.CAP s))))

/-- The calendar's seconds and the crystal (R420, R421, R423, R429, R432, R658). A second ends with CAL_SEC one higher and the
fields and weekday of that second; after the last second of 2199 the fields hold and END is
set. While the crystal is stopped nothing counts. An alarm that is enabled and matches sets its flag.

Setting the calendar, and PWR_ON (R424, R425, R433). SET takes a real staged date and refuses any other with RANGE; SYNC
waits for a whole second of network time and then takes it plus the offset, or is refused with NOTIME without PD31 or
RANGE out of bounds; both, or another key, set CMD. PWR_ON's SET and CLR set and clear ON; together they set CMD. -/
def Obligations.Calendar : Prop :=
  ((∀ s : State, s.cal.stopped = true → exec .calSecond s = .next s) ∧
   (∀ s : State, s.cal.stopped = false → Registers.wf s = true →
     fis calB Reg.CAL_ALM_C.EN s = false → fis (calB + 8) Reg.CAL_ALM_C.EN s = false → calSec s + 1 < 2 ^ 48 →
     ∃ t, exec .calSecond s = .next t ∧ calSec t = calSec s + 1 ∧ fget calB Reg.CAL_SEC_HI.SUBSEC t = 0 ∧
       (fis calB Reg.CAL_STAT.END s = false → calSec s ≠ calLast →
         rd 0x70000008 t = (calFields (calSec s + 1)).timeWord ∧
         rd 0x7000000C t = (calFields (calSec s + 1)).dateWord (calWday (calSec s + 1)) ∧
         fis calB Reg.CAL_STAT.END t = false) ∧
       (fis calB Reg.CAL_STAT.END s = true ∨ calSec s = calLast → fis calB Reg.CAL_STAT.END t = true ∧
         rd 0x70000008 t = rd 0x70000008 s ∧ rd 0x7000000C t = rd 0x7000000C s) ∧
       fis calB ⟨0x3C, 4, 1⟩ t = (fis calB ⟨0x3C, 4, 1⟩ s || fis calB Reg.CAL_CFG.TICK_EN s)) ∧
   (∀ (k : Nat) (s : State), k < 2 →
     (fis (calB + 8 * k) Reg.CAL_ALM_C.EN s = false ∨ fis calB Reg.CAL_STAT.END s = true ∨
       alarmMatches k s = false → alarmCompare k s = s) ∧
     (fis (calB + 8 * k) Reg.CAL_ALM_C.EN s = true → fis calB Reg.CAL_STAT.END s = false → alarmMatches k s = true →
       fis (calB + 8 * k) Reg.CAL_ALM_C.WAKE s = false → Registers.wf s = true →
       fis calB ⟨0x3C, k, 1⟩ (alarmCompare k s) = true ∧
       fis calB Reg.PWR_ON.ON (alarmCompare k s) =
         (fis calB Reg.PWR_ON.ON s || fis (calB + 8 * k) Reg.CAL_ALM_C.PON s))) ∧
   (∀ s : State, Registers.wf s = true →
     (s.cal.crystal = false → exec .calOscStop s = .next s ∧
       exec .lfFirstEdge s = .next (fset calB Reg.CAL_STAT.LF_RUN 1 { s with cal := { s.cal with crystal := true } }) ∧
       exec .lfStartTimeout s = .next (calNote 3 s)) ∧
     (s.cal.crystal = true → exec .lfFirstEdge s = .next s ∧ exec .lfStartTimeout s = .next s ∧
       ∃ t, exec .calOscStop s = .next t ∧ t.cal.stopped = true ∧ fis calB Reg.CAL_STAT.OSF t = true ∧
         fis calB ⟨0x3C, 3, 1⟩ t = true ∧ fis calB Reg.CAL_STAT.LF_RUN t = false ∧ calSec t = calSec s) ∧
     (s.cal.stopped = false → exec .ckLfResume s = .next s) ∧
     (s.cal.stopped = true → ∃ t, exec .ckLfResume s = .next t ∧ t.cal.stopped = false ∧
       fis calB Reg.CAL_STAT.LF_RUN t = true ∧ fis calB Reg.CAL_STAT.OSF t = fis calB Reg.CAL_STAT.OSF s ∧
       calSec t = calSec s))) ∧
  ((∀ (i : Init) (key : BitVec 16) (sync : Bool) (s : State), Admits i 0x70000020 .store s →
     (key ≠ 0x434C → exec (.calSet i key sync) s = .next (acknowledge (calNote 9 s)) ∧
       exec (.calSync i key) s = .next (acknowledge (calNote 9 s))) ∧
     exec (.calSet i key true) s = .next (acknowledge (calNote 9 s)) ∧
     (key = 0x434C →
       ((calStaged s).real = false → exec (.calSet i key false) s = .next (acknowledge (calNote 8 s))) ∧
       ((calStaged s).real = true → exec (.calSet i key false) s =
         .next (acknowledge (calPut (calStaged s).seconds false s))) ∧
       (pdOn 31 s = true → exec (.calSync i key) s =
         .next (acknowledge { s with cal := { s.cal with sync := true } })) ∧
       (pdOn 31 s = false → exec (.calSync i key) s = .next (acknowledge (calNote 10 s))))) ∧
   (∀ (snt : Word64) (s : State),
     let t : Int := (snt.toNat : Int) + (rd64 0x70000018 s).toInt
     let s1 := { s with cal := { s.cal with sync := false } }
     (s.cal.sync = false → exec (.calSyncApply snt) s = .next s) ∧
     (s.cal.sync = true → pdOn 31 s = false → exec (.calSyncApply snt) s = .next (calNote 10 s1)) ∧
     (s.cal.sync = true → pdOn 31 s = true → t < 0 ∨ 6311433599 < t →
       exec (.calSyncApply snt) s = .next (calNote 8 s1)) ∧
     (s.cal.sync = true → pdOn 31 s = true → 0 ≤ t → t ≤ 6311433599 → exec (.calSyncApply snt) s =
       .next (calPut t.toNat true (fset calB Reg.CAL_STAT.SYNC_Q (timeState s) s1)))) ∧
   (∀ (v : Nat) (synced : Bool) (s : State), Registers.wf s = true → fis calB Reg.CAL_ALM_C.EN s = false →
     fis (calB + 8) Reg.CAL_ALM_C.EN s = false → v < 2 ^ 48 →
     let t := calPut v synced s
     calSec t = v ∧ fget calB Reg.CAL_SEC_HI.SUBSEC t = 0 ∧ fis calB Reg.CAL_STAT.OSF t = false ∧
     fis calB Reg.CAL_STAT.END t = false ∧ fis calB Reg.CAL_STAT.SYNCED t = synced ∧
     rd 0x70000008 t = (calFields v).timeWord ∧ rd 0x7000000C t = (calFields v).dateWord (calWday v)) ∧
   (∀ (i : Init) (data : Word) (s : State), Admits i 0x70000040 .store s →
     (data.getLsbD 2 = true → exec (.pwrOnSet i data) s = .next (acknowledge (calNote 9 s))) ∧
     (data.getLsbD 1 = true → exec (.pwrOnClr i data) s = .next (acknowledge (calNote 9 s))) ∧
     (data.getLsbD 2 = false → Registers.wf s = true → ∃ t, exec (.pwrOnSet i data) s = .next t ∧
       fis calB Reg.PWR_ON.ON t = true ∧ fis calB Reg.PWR_ON.POL t = data.getLsbD 3 ∧
       fis calB Reg.PWR_ON.WAKE_ON t = data.getLsbD 4 ∧ fis calB Reg.PWR_ON.SHUT_OFF t = data.getLsbD 5) ∧
     (data.getLsbD 1 = false → Registers.wf s = true → ∃ t, exec (.pwrOnClr i data) s = .next t ∧
       fis calB Reg.PWR_ON.ON t = false ∧ fis calB Reg.PWR_ON.POL t = data.getLsbD 3 ∧
       fis calB Reg.PWR_ON.WAKE_ON t = data.getLsbD 4 ∧ fis calB Reg.PWR_ON.SHUT_OFF t = data.getLsbD 5)))

/-- The fields of the Gregorian calendar (R420, R421). From 2000 to 2199 the fields of a second are the real date and time that
are that many seconds after 2000-01-01 00:00:00, so every real date and time comes back from its seconds; 2000 is a leap
year, 2100 is not and 2104 is; second 0 falls on weekday 6, and each day of 86,400 seconds takes the next of the weekdays
1 to 7. -/
def Obligations.CalendarFields : Prop :=
  (∀ c : CalTime, c.real = true → calFields c.seconds = c ∧ c.seconds ≤ calLast) ∧
  (∀ t : Nat, t ≤ calLast → (calFields t).real = true ∧ (calFields t).seconds = t) ∧
  monthDays 0 2 = 29 ∧ monthDays 100 2 = 28 ∧ monthDays 104 2 = 29 ∧
  calWday 0 = 6 ∧ ∀ t, calWday (t + 86400) = calWday t % 7 + 1

/-- The lock of a channel (R466, R467). A read of PH_LOCK of a free channel returns 0 and makes the reading room the
holder, with the next GEN, which runs 1 to 255; of a held one it changes nothing and returns 0 to the holder's room
and the owner number to another. RELEASE by the holder, and PH_FORCE with its key, free the channel, discard OUT, clear
PH_RET and keep IN; RELEASE by the home alone sets NOT_HOLDER; by any other room it does nothing.

Words and doorbells (R469–R473). The holder's word goes to the end of IN, stamped with its room, GEN and END, and END
raises 576 + c; the home's goes to the end of OUT only while its latched GEN is the channel's; a full direction refuses
with FULL, a stale reply with STALE. A pop by the home takes the oldest word of IN and latches its stamp; an empty one
returns 0 with V 0. PH_RET is the holder's, and names only a channel homed at it. -/
def Obligations.Pigeonholes : Prop :=
  ((∀ (i : Init) (chan : BitVec 6) (s : State), Admits i (phPage chan.toNat) .load s →
     let c := chan.toNat
     let ch := phGet c s
     (ch.holder = none → exec (.phLockRead i chan) s = .next (respondWord 0 (phSet c { ch with
       holder := some (roomOf i s), gen := if ch.gen = 255 then 1 else ch.gen + 1 } s))) ∧
     (ch.holder = some (roomOf i s) → exec (.phLockRead i chan) s = .next (respondWord 0 s)) ∧
     (∀ r, ch.holder = some r → r ≠ roomOf i s →
       exec (.phLockRead i chan) s = .next (respondWord (BitVec.ofNat 32 (r + 1)) s))) ∧
   (∀ (i : Init) (chan : BitVec 6) (s : State), Admits i (phPage chan.toNat) .store s →
     let c := chan.toNat
     ((phGet c s).holder = some (roomOf i s) →
       exec (.phRelease i chan) s = .next (acknowledge (phRelease c s))) ∧
     ((phGet c s).holder ≠ some (roomOf i s) → phHome c s = roomOf i s →
       exec (.phRelease i chan) s = .next (acknowledge (fset (phPage c) Reg.PH_ERR.NOT_HOLDER 1 s))) ∧
     ((phGet c s).holder ≠ some (roomOf i s) → phHome c s ≠ roomOf i s →
       exec (.phRelease i chan) s = .next (acknowledge s))) ∧
   (∀ (i : Init) (key : BitVec 16) (chan : BitVec 6) (s : State), Admits i 0x40090000 .store s →
     (key ≠ 0x5046 ∨ (phGet chan.toNat s).holder = none → exec (.phForce i key chan) s = .next (acknowledge s)) ∧
     (key = 0x5046 → (phGet chan.toNat s).holder.isSome = true →
       exec (.phForce i key chan) s = .next (acknowledge (phRelease chan.toNat s)))) ∧
   (∀ (c : Nat) (s : State), Registers.wf s = true → (phGet c s).inq ≠ [] ∨ (phGet c s).gen ≠ 0 →
     (phGet c (phRelease c s)).holder = none ∧ (phGet c (phRelease c s)).outq = [] ∧
     (phGet c (phRelease c s)).inq = (phGet c s).inq ∧ (phGet c (phRelease c s)).gen = (phGet c s).gen ∧
     rd (phPage c + 4) (phRelease c s) = 0)) ∧
  ((∀ (i : Init) (chan : BitVec 6) (data : Word) (last : Bool) (s : State),
     let c := chan.toNat
     let ch := phGet c s
     let word : PhWord := ⟨data, roomOf i s, ch.gen, last⟩
     let cmd : Instr := if last then .phSendEnd i chan data else .phSend i chan data
     let at_ := phPage c + (if last then 0xC else 8)
     Admits i at_ .store s →
     (ch.holder = some (roomOf i s) → 8 ≤ ch.inq.length →
       exec cmd s = .next (acknowledge (fset (phPage c) Reg.PH_ERR.FULL 1 s))) ∧
     (ch.holder = some (roomOf i s) → ch.inq.length < 8 →
       let t := phSet c { ch with inq := ch.inq ++ [word] } s
       exec cmd s = .next (acknowledge (if last then raiseEvt (576 + c) t else t))) ∧
     (ch.holder ≠ some (roomOf i s) → phHome c s = roomOf i s → ch.outq.length < 8 →
       (ch.holder = none ∨ (latchGet i c s).latched ≠ some ch.gen →
         exec cmd s = .next (acknowledge (fset (phPage c) Reg.PH_ERR.STALE 1 s))) ∧
       (ch.holder ≠ none → (latchGet i c s).latched = some ch.gen →
         let t := phSet c { ch with outq := ch.outq ++ [word] } s
         exec cmd s = .next (acknowledge (if last ∧ fis (phPage c) Reg.PH_RET.V s = true
           then raiseEvt (576 + fget (phPage c) Reg.PH_RET.CHAN s) t else t)))) ∧
     (ch.holder ≠ some (roomOf i s) → phHome c s = roomOf i s → 8 ≤ ch.outq.length →
       exec cmd s = .next (acknowledge (fset (phPage c) Reg.PH_ERR.FULL 1 s))) ∧
     (ch.holder ≠ some (roomOf i s) → phHome c s ≠ roomOf i s → exec cmd s = .next (acknowledge s))) ∧
   (∀ (i : Init) (chan : BitVec 6) (s : State), Admits i (phPage chan.toNat + 0x10) .load s →
     let c := chan.toNat
     let ch := phGet c s
     let l := latchGet i c s
     (phHome c s = roomOf i s → ch.inq = [] → exec (.phRecv i chan) s =
       .next (respondWord 0 (latchSet i c (phFromEmpty l) s))) ∧
     (∀ w r, phHome c s = roomOf i s → ch.inq = w :: r → exec (.phRecv i chan) s =
       .next (respondWord w.data (latchSet i c ⟨phFromWord w, some w.gen⟩ (phSet c { ch with inq := r } s)))) ∧
     (∀ w r, phHome c s ≠ roomOf i s → ch.holder = some (roomOf i s) → ch.outq = w :: r → exec (.phRecv i chan) s =
       .next (respondWord w.data (latchSet i c { l with from_ := phFromWord w } (phSet c { ch with outq := r } s)))) ∧
     (phHome c s ≠ roomOf i s → ch.holder ≠ some (roomOf i s) →
       exec (.phRecv i chan) s = .next (respondWord 0 s))) ∧
   (∀ (w : PhWord) (l : PhLatch), w.room < 64 → w.gen < 256 →
     bitsOf (phFromWord w) 16 1 = 1 ∧ bitsOf (phFromWord w) 8 8 = w.gen ∧ bitsOf (phFromWord w) 0 6 = w.room ∧
     bitsOf (phFromWord w) 7 1 = ofBool w.last ∧ bitsOf (phFromEmpty l).from_ 16 1 = 0 ∧
     bitsOf (phFromEmpty l).from_ 0 16 = bitsOf l.from_ 0 16 ∧ (phFromEmpty l).latched = l.latched) ∧
   (∀ (i : Init) (chan : BitVec 6) (data : Word) (s : State), Admits i (phPage chan.toNat + 4) .store s →
     let c := chan.toNat
     ((phGet c s).holder = some (roomOf i s) → data.getLsbD 6 = true → phHome (bitsOf data 0 6) s ≠ roomOf i s →
       exec (.phRetWrite i chan data) s = .next (acknowledge (fset (phPage c) Reg.PH_ERR.RANGE 1 s))) ∧
     ((phGet c s).holder = some (roomOf i s) → data.getLsbD 6 = false ∨ phHome (bitsOf data 0 6) s = roomOf i s →
       exec (.phRetWrite i chan data) s = .next (acknowledge (wr (phPage c + 4) (data &&& 0x7F#32) s))) ∧
     ((phGet c s).holder ≠ some (roomOf i s) → exec (.phRetWrite i chan data) s = .next (acknowledge s))))

/-- START (R479, R481, R486, R494, R499). A wrong KEY, a BUSY context, or ABORT or CLEAR with START sets CIP_ERR.CMD alone;
then the first check that fails ends the operation with MODE_REF, LEN_REF, KEY_REF or KEY_SPENT, DONE, and neither buffer
nor tag changed; a START that passes makes the context BUSY, and a send takes the slot's next counter, once. The common
context obeys its holder alone. -/
def Obligations.CipherStart : Prop :=
  (∀ (i : Init) (ctx : Fin 65) (key : BitVec 16) (first last abort clear : Bool) (s : State),
    Admits i (cipPage ctx.val + 4) .store s →
    let n := ctx.val
    (n = 64 → cipHeld (roomOf i s) s = false →
      exec (.cipStart i ctx key first last abort clear) s = .next (acknowledge s)) ∧
    (n < 64 ∨ cipHeld (roomOf i s) s = true →
      (key ≠ 0x4350 ∨ cipBusy n s = true ∨ abort = true ∨ clear = true →
        exec (.cipStart i ctx key first last abort clear) s =
          .next (acknowledge (fset (cipPage n) Reg.CIP_ERR.CMD 1 s))) ∧
      (key = 0x4350 → cipBusy n s = false → abort = false → clear = false →
        (cipModeOk n first last s = false → exec (.cipStart i ctx key first last abort clear) s =
          .next (acknowledge (cipRefuse n 7 s))) ∧
        (cipModeOk n first last s = true → cipLenOk n first last s = false →
          exec (.cipStart i ctx key first last abort clear) s = .next (acknowledge (cipRefuse n 8 s))) ∧
        (cipModeOk n first last s = true → cipLenOk n first last s = true → cipKeyOk n s = false →
          exec (.cipStart i ctx key first last abort clear) s = .next (acknowledge (cipRefuse n 5 s))) ∧
        (cipModeOk n first last s = true → cipLenOk n first last s = true → cipKeyOk n s = true →
          first = true → cipSend n s = true → slotSpent (cipSlot n s) s = true →
          exec (.cipStart i ctx key first last abort clear) s = .next (acknowledge (cipRefuse n 6 s))) ∧
        (cipModeOk n first last s = true → cipLenOk n first last s = true → cipKeyOk n s = true →
          cipSend n s = false ∨ slotSpent (cipSlot n s) s = false →
          exec (.cipStart i ctx key first last abort clear) s = .next (acknowledge (cipAccept n first last s)))))) ∧
  (∀ (n res : Nat) (s : State), n ≤ 64 → res < 16 → Registers.wf s = true →
    let t := cipRefuse n res s
    fget (cipPage n) Reg.CIP_STAT.STATE t = 2 ∧ fget (cipPage n) Reg.CIP_STAT.RESULT t = res ∧
    fis (cipPage n) Reg.CIP_STAT.CHAIN t = false ∧ t.mem = s.mem ∧ t.keys = s.keys ∧
    rdList (cipPage n + 0x60) 8 t = rdList (cipPage n + 0x60) 8 s) ∧
  (∀ (n : Nat) (first last : Bool) (s : State), n ≤ 64 → Registers.wf s = true →
    (cipMode n s = 0 ∨ 8 ≤ cipMode n s → cipModeOk n first last s = false) ∧
    (first = false → cipChain n s = false → cipModeOk n first last s = false) ∧
    (cipMode n s = 1 → first = false ∨ last = false → cipModeOk n first last s = false) ∧
    (2048 < cipAlen n s + cipMlen n s → cipLenOk n first last s = false) ∧
    (first = false ∨ cipSend n s = false → cipBusy n (cipAccept n first last s) = true ∧
      (first = true → (cipGet n (cipAccept n first last s)).key = cipKey n s) ∧
      (cipAccept n first last s).mem = s.mem ∧ (cipAccept n first last s).keys = s.keys) ∧
    (first = true → cipSend n s = true → cipMode n s = 1 → fcReady (cipSlot n s) s = true →
      let k := cipSlot n s
      let t := cipAccept n first last s
      rd (cipPage n + 0x14) t = BitVec.ofNat 32 (slotGet k s).fc ∧ (slotGet k t).fc = (slotGet k s).fc + 1 ∧
      cipBusy n t = true ∧ (cipGet n t).wants = none))

/-- Ends of operations (R487, R489, R490, R493, R505). A BUSY context that waits for neither seed nor counter ends with DONE; a
CCM* verification gives the plaintext and OK when the tag agrees, and zeros and TAG_FAIL when it does not. ABORT of a
BUSY context ends it ABORTED with its message and tag zero, and of any other does nothing; CLEAR clears a context that is
not BUSY and is refused with CMD for one that is.

The common context's lock (R498, R500, R501). A read takes a free lock and returns 0, returns 0 to the holder's room and
the owner number to another; RELEASE by the holder, CIP_CFORCE with its key and the expiry of the hold each free it,
clear the context and end an operation in progress with ABORTED, FORCED or LOCK_EXPIRED; an expiry is counted and told to
the former holder's page. -/
def Obligations.CipherEndsAndLock : Prop :=
  ((∀ (ctx : Fin 65) (s : State), cipBusy ctx.val s = false ∨ s.cip.seeded = false ∨
     (cipGet ctx.val s).wants.isSome = true → exec (.cipOperationDone ctx) s = .next s) ∧
   (∀ (ctx : Fin 65) (s : State), cipBusy ctx.val s = true → s.cip.seeded = true →
     (cipGet ctx.val s).wants = none → exec (.cipOperationDone ctx) s = .next (cipComplete ctx.val s)) ∧
   (∀ (n : Nat) (s : State), n < 64 → s.canonical = true → (cipGet n s).last = true → cipMode n s = 1 →
     cipDir n s = true → cipTlen n s ≠ 0 → cipTlen n s ≤ 32 → (cipGet n s).first = true →
     cipAlen n s + cipMlen n s ≤ 2048 →
     let c := cipGet n s
     let a := memBytes (cipBuf n) (cipAlen n s) s
     let m := memBytes (cipBuf n + cipAlen n s) (cipMlen n s) s
     let out := ccmCrypt c.key c.iv m
     let good := (rdBytes (cipPage n + 0x60) 8 s).take (cipTlen n s) = ccmTag c.key c.iv a out (cipTlen n s)
     let t := cipComplete n s
     fget (cipPage n) Reg.CIP_STAT.STATE t = 2 ∧ fis (cipPage n) Reg.CIP_NOTE.DONE t = true ∧
     (good → fget (cipPage n) Reg.CIP_STAT.RESULT t = 0 ∧ out.length = cipMlen n s ∧
       memBytes (cipBuf n + cipAlen n s) (cipMlen n s) t = out) ∧
     (¬ good → fget (cipPage n) Reg.CIP_STAT.RESULT t = 1 ∧
       memBytes (cipBuf n + cipAlen n s) (cipMlen n s) t = List.replicate (cipMlen n s) 0) ∧
     memBytes (cipBuf n) (cipAlen n s) t = a) ∧
   (∀ (i : Init) (ctx : Fin 65) (s : State), Admits i (cipPage ctx.val + 4) .store s →
     let n := ctx.val
     n < 64 ∨ cipHeld (roomOf i s) s = true →
     (cipBusy n s = false → exec (.cipAbort i ctx 0x4350 false) s = .next (acknowledge s) ∧
       exec (.cipClear i ctx 0x4350) s = .next (acknowledge (cipClear n s))) ∧
     (cipBusy n s = true → exec (.cipAbort i ctx 0x4350 false) s = .next (acknowledge (cipAbort n s)) ∧
       exec (.cipClear i ctx 0x4350) s = .next (acknowledge (fset (cipPage n) Reg.CIP_ERR.CMD 1 s)))) ∧
   (∀ (i : Init) (ctx : Fin 65) (key : BitVec 16) (clear : Bool) (s : State), Admits i (cipPage ctx.val + 4) .store s →
     key ≠ 0x4350 → ctx.val < 64 ∨ cipHeld (roomOf i s) s = true →
     exec (.cipAbort i ctx key clear) s = .next (acknowledge (fset (cipPage ctx.val) Reg.CIP_ERR.CMD 1 s)) ∧
     exec (.cipClear i ctx key) s = .next (acknowledge (fset (cipPage ctx.val) Reg.CIP_ERR.CMD 1 s))) ∧
   (∀ (n : Nat) (s : State), n ≤ 64 → s.canonical = true → cipAlen n s + cipMlen n s ≤ 2048 → cipBusy n s = true →
     let t := cipAbort n s
     fget (cipPage n) Reg.CIP_STAT.STATE t = 2 ∧ fget (cipPage n) Reg.CIP_STAT.RESULT t = 2 ∧
     memBytes (cipBuf n + cipAlen n s) (cipMlen n s) t = List.replicate (cipMlen n s) 0 ∧
     rdList (cipPage n + 0x60) 8 t = List.replicate 8 0) ∧
   (∀ (n : Nat) (s : State), n ≤ 64 → s.canonical = true →
     let t := cipClear n s
     fget (cipPage n) Reg.CIP_STAT.STATE t = 0 ∧ fis (cipPage n) Reg.CIP_STAT.CHAIN t = false ∧ rd (cipPage n) t = 0 ∧
     rd (cipPage n + 0xC) t = 0 ∧ rdList (cipPage n + 0x20) 4 t = List.replicate 4 0 ∧
     rdList (cipPage n + 0x40) 16 t = List.replicate 16 0 ∧ rd (cipPage n + 0x14) t = 0 ∧
     (s.noise = [] → memBytes (cipBuf n) 2048 t = List.replicate 2048 0))) ∧
  ((∀ (i : Init) (s : State), Admits i 0x600400FC .load s →
     (cipHolder s = none → exec (.cipLockRead i) s =
       .next (respondWord 0 (fset cipCtl Reg.CIP_CSTAT.HOLDER (roomOf i s + 1) s))) ∧
     (cipHolder s = some (roomOf i s) → exec (.cipLockRead i) s = .next (respondWord 0 s)) ∧
     (∀ r, cipHolder s = some r → r ≠ roomOf i s →
       exec (.cipLockRead i) s = .next (respondWord (BitVec.ofNat 32 (r + 1)) s))) ∧
   (∀ (i : Init) (s : State), Admits i 0x600400FC .store s →
     (cipHolder s = some (roomOf i s) → exec (.cipLockRelease i) s = .next (acknowledge (cipLockFree 2 s))) ∧
     (cipHolder s ≠ some (roomOf i s) → exec (.cipLockRelease i) s = .next (acknowledge s))) ∧
   (∀ (i : Init) (key : BitVec 16) (s : State), Admits i 0x400A0008 .store s →
     (key = 0x4346 → (cipHolder s).isSome = true → exec (.cipCforce i key) s =
       .next (acknowledge (cipLockFree 4 s))) ∧
     (key ≠ 0x4346 ∨ cipHolder s = none → exec (.cipCforce i key) s = .next (acknowledge s))) ∧
   (∀ s : State, cipHolder s = none → exec .cipLockExpired s = .next s) ∧
   (∀ (r : Nat) (s : State), cipHolder s = some r → r < 64 → Registers.wf s = true →
     ∃ t, exec .cipLockExpired s = .next t ∧ cipHolder t = none ∧
       fget cipCtl Reg.CIP_CSTAT.LAST_EXP t = r + 1 ∧ fis (cipPage r) Reg.CIP_NOTE.LOCK_EXPIRED t = true ∧
       fget cipCtl Reg.CIP_CSTAT.EXP_CNT t = min 255 (fget cipCtl Reg.CIP_CSTAT.EXP_CNT s + 1) ∧
       fget (cipPage 64) Reg.CIP_STAT.STATE t = 0) ∧
   (∀ (res : Nat) (s : State), res < 16 → Registers.wf s = true →
     let t := cipLockFree res s
     cipHolder t = none ∧ fget (cipPage 64) Reg.CIP_STAT.STATE t = 0 ∧ rd (cipPage 64) t = 0 ∧
     (cipBusy 64 s = true → fget (cipPage 64) Reg.CIP_STAT.RESULT t = res)))

/-- Key port commands (R523, R534). Another KEY changes nothing. With it, while a command is BUSY only BREF becomes 1 and the
staged key is cleared; a value out of range ends the command with RANGE, no root with NOROOT, a room without a
measurement with MEAS; any other is BUSY until it is done. UNLOAD of a live slot of the room writes its counters back as
marks and frees it; a LOAD of a key that is live answers EXISTS with its slot; UNWRAP and DELETE of no entry NOT_FOUND. -/
def Obligations.KeyCommands : Prop :=
  (∀ (i : Init) (room : BitVec 6) (key : BitVec 16) (cls sel klen : BitVec 2) (s : State) (p : Instr × Nat),
    p ∈ [(Instr.kpLoad i room key cls sel klen, 1), (Instr.kpDerive i room key cls sel klen, 2),
      (Instr.kpUnwrap i room key cls sel klen, 3), (Instr.kpUnload i room key cls sel klen, 4),
      (Instr.kpDelete i room key cls sel klen, 5), (Instr.kpFind i room key cls sel klen, 6)] →
    Admits i (kpPage room.toNat) .store s →
    let r := room.toNat
    let b := kpPage r
    let c := kpArgs r p.2 cls.toNat sel.toNat klen.toNat s
    (key ≠ 0x4B59 → exec p.1 s = .next (acknowledge s)) ∧
    (key = 0x4B59 → fget b Reg.KP_RES.STATE s = 1 →
      exec p.1 s = .next (acknowledge (fset b Reg.KP_RES.BREF 1 (kpKeyClear r s)))) ∧
    (key = 0x4B59 → fget b Reg.KP_RES.STATE s ≠ 1 → Registers.wf s = true →
      (2 ≤ cls.toNat ∨ klen = 3 ∨ (p.2 ≤ 2 ∧ (sel = 0 ∨ sel = 3)) ∨ (p.2 = 4 ∧ 128 ≤ c.arg) →
        ∃ t, exec p.1 s = .next t ∧ fget b Reg.KP_RES.STATE t = 2 ∧ fget b Reg.KP_RES.RESULT t = 8 ∧
          fget b Reg.KP_RES.SLOT t = 0xFF ∧ fis b Reg.KP_RES.BREF t = false ∧ fis keyB Reg.KEY_ERR.RANGE t = true) ∧
      (cls.toNat < 2 → klen ≠ 3 → (p.2 ≤ 2 → sel = 1 ∨ sel = 2) → (p.2 = 4 → c.arg < 128) →
        (rootValid s = false → ∃ t, exec p.1 s = .next t ∧ fget b Reg.KP_RES.STATE t = 2 ∧
          fget b Reg.KP_RES.RESULT t = 6 ∧ t.keys = s.keys) ∧
        (rootValid s = true → unmeasured r s = true → ∃ t, exec p.1 s = .next t ∧ fget b Reg.KP_RES.STATE t = 2 ∧
          fget b Reg.KP_RES.RESULT t = 5 ∧ t.keys = s.keys) ∧
        (rootValid s = true → unmeasured r s = false → ∃ t, exec p.1 s = .next t ∧
          fget b Reg.KP_RES.STATE t = 1 ∧ kpGet r t = some c ∧ rdList (b + 0x20) 8 t = List.replicate 8 0)))) ∧
  (∀ (room : BitVec 6) (slot : BitVec 7) (entry : BitVec 9) (bad : Bool) (s : State),
    let r := room.toNat
    let b := kpPage r
    (kpGet r s = none → exec (.kpCommandDone room slot entry bad) s = .next s) ∧
    (∀ c, kpGet r s = some c → c.op ≠ 6 → shelfReady s = false →
      exec (.kpCommandDone room slot entry bad) s = .next s) ∧
    (∀ c, kpGet r s = some c → c.op = 4 → c.arg < 128 → shelfReady s = true → slotAwaited c.arg s = false →
      Registers.wf s = true →
      ∃ t, exec (.kpCommandDone room slot entry bad) s = .next t ∧ fget b Reg.KP_RES.STATE t = 2 ∧
        (slotLive c.arg s = false → fget b Reg.KP_RES.RESULT t = 9 ∧ t.keys.slots = s.keys.slots) ∧
        (slotLive c.arg s = true → slotOwner c.arg s ≠ r → fget b Reg.KP_RES.RESULT t = 4 ∧
          t.keys.slots = s.keys.slots) ∧
        (slotLive c.arg s = true → slotOwner c.arg s = r → fget b Reg.KP_RES.RESULT t = 0 ∧
          slotLive c.arg t = false ∧ ∀ v, shelfGet (slotEntryNo c.arg s) s = some v →
            (shelfGet (slotEntryNo c.arg s) t).map (fun w => (w.fcMark, w.gcMark, w.key)) =
              some ((slotGet c.arg s).fc, (slotGet c.arg s).gc, v.key)))) ∧
  (∀ (r cls sel : Nat) (key : List Byte) (slot entry : Nat) (s : State),
    (cls = 1 → r ≠ 0 → (keyPlace r cls sel key slot entry s).1.res = 7) ∧
    (∀ e v k, cls ≠ 1 ∨ r = 0 → shelfByIdent (keyIdent r cls key s) s = some (e, v) → entrySlot e s = some k →
      (keyPlace r cls sel key slot entry s).1 = { res := 3, slot := k, entry := e, ident := some (keyIdent r cls key s) } ∧
      (keyPlace r cls sel key slot entry s).2 = s)) ∧
  (∀ (r e slot : Nat) (s : State), shelfFind e s = none → (keyUnwrap r e slot s).1.res = 9 ∧ (keyDelete r e s).1.res = 9) ∧
  (∀ (r e slot : Nat) (v : ShelfEntry) (s : State), shelfFind e s = some v → v.owner ≠ r →
    (keyUnwrap r e slot s).1.res = 4 ∧ (keyDelete r e s).1.res = 4)

/-- Counters, marks and the shelf's upkeep (R495, R497, R524, R525, R531). Each draw gives the next value, once, and the value
0xFFFF_FFFE makes the slot SPENT; a loaded slot resumes at its entry's marks, with marks 4,096 higher; a programmed mark
stands, and one that cannot be programmed makes the slot SPENT with MARK_FAIL. Compaction begins when it is due or fewer
than two erased blocks remain; the clearing keeps the entries of the present root
and erases one of an earlier root. -/
def Obligations.CountersAndShelf : Prop :=
  (∀ (k : Nat) (s : State), k < 128 → Registers.wf s = true → slotSpent k s = false →
    (fcDraw k s).1 = (slotGet k s).fc ∧ (slotGet k (fcDraw k s).2).fc = (slotGet k s).fc + 1 ∧
    (slotGet k (fcDraw k s).2).gc = (slotGet k s).gc ∧
    slotSpent k (fcDraw k s).2 = decide (0xFFFFFFFE ≤ (slotGet k s).fc ∨ 2 ^ 64 - 1 ≤ (slotGet k s).gc) ∧
    (gcDraw k s).1 = (slotGet k s).gc ∧ (slotGet k (gcDraw k s).2).gc = (slotGet k s).gc + 1) ∧
  (∀ (k e : Nat) (v : ShelfEntry) (s : State), k < 128 → e < 512 → Registers.wf s = true → v.fcMark ≠ 0 →
    slotLive k (slotLoad k e v s) = true ∧ slotEntryNo k (slotLoad k e v s) = e ∧
    (slotGet k (slotLoad k e v s)).fc = v.fcMark ∧ (slotGet k (slotLoad k e v s)).gc = v.gcMark ∧
    (shelfGet e (slotLoad k e v s)).map (fun w => (w.fcMark, w.gcMark)) =
      some (min (2 ^ 32 - 1) (v.fcMark + 4096), min (2 ^ 64 - 1) (v.gcMark + 4096))) ∧
  (∀ (slot : BitVec 7) (ok : Bool) (s : State),
    let k := slot.toNat
    ((slotGet k s).marking = none → exec (.markProgrammed slot ok) s = .next s) ∧
    (∀ f g v, (slotGet k s).marking = some (f, g) → shelfGet (slotEntryNo k s) s = some v → s.cip.waiting = [] →
      Registers.wf s = true →
      (∃ t, exec (.markProgrammed slot true) s = .next t ∧
        (shelfGet (slotEntryNo k s) t).map (fun w => (w.fcMark, w.gcMark)) = some (f, g) ∧ t.regs = s.regs) ∧
      (∃ t, exec (.markProgrammed slot false) s = .next t ∧ slotSpent k t = true ∧
        fis keyB Reg.KEY_ERR.MARK_FAIL t = true))) ∧
  (∀ (due : Bool) (s : State),
    (fis keyB Reg.KEY_STAT.COMPACT s = true ∨ s.keys.log = [] ∨ (due = false ∧ s.keys.log.length < 15) →
      exec (.shelfCompaction due) s = .next s) ∧
    (fis keyB Reg.KEY_STAT.COMPACT s = false → s.keys.log ≠ [] → due = true ∨ 15 ≤ s.keys.log.length →
      exec (.shelfCompaction due) s = .next (fset keyB Reg.KEY_STAT.COMPACT 1 s)) ∧
    (fis keyB Reg.KEY_STAT.COMPACT s = false → exec .shelfCompactionDone s = .next s) ∧
    (fis keyB Reg.KEY_STAT.COMPACT s = true → Registers.wf s = true → ∃ t, exec .shelfCompactionDone s = .next t ∧
      fis keyB Reg.KEY_STAT.COMPACT t = false ∧ t.keys.shelf = s.keys.shelf ∧ t.keys.slots = s.keys.slots) ∧
    (fis keyB Reg.KEY_STAT.CLEARING s = false → exec .shelfClearingDone s = .next s) ∧
    (fis keyB Reg.KEY_STAT.CLEARING s = true → Registers.wf s = true → ∃ t, exec .shelfClearingDone s = .next t ∧
      fis keyB Reg.KEY_STAT.CLEARING t = false ∧ t.keys.slots = s.keys.slots ∧
      ((∀ p ∈ shelfEntries s, p.2.gen = rootGen s) → t.keys.shelf = s.keys.shelf) ∧
      (∀ e v, s.keys.shelf = [(e, some v)] → v.gen ≠ rootGen s → t.keys.shelf = [])))

/-- The owner, the accelerator and entropy (R510–R516, R526). ENROLL is carried out in OPEN with the licence LOCKED and a valid
point, ROTATE in OWNED with a position left and a good signature; any other changes only CMD_ERR. PK_CMD is ignored while
BUSY; a verify's result comes with PK_DONE. The source runs after its start-up tests, gives a tested block to a waiting
consumer or the buffer, and loses everything released at a failure; the third failure in 65,536 bits is ERROR. RNG_DATA
returns 16 bits with V, or 0. -/
def Obligations.OwnerAndEntropy : Prop :=
  (∀ (i : Init) (key : BitVec 16) (s : State), Admits i 0x400B000C .store s →
    let st := fget keyB Reg.KEY_LIFE.STATE s
    (key ≠ 0x4F57 → exec (.enroll i key) s = .next (acknowledge s) ∧ exec (.rotate i key) s = .next (acknowledge s)) ∧
    (key = 0x4F57 →
      (st ≠ 1 → exec (.enroll i key) s = .next (acknowledge (fset keyB Reg.KEY_LIFE.CMD_ERR 1 s))) ∧
      (st = 1 → fget 0x40000000 Reg.LIC_STAT.STATE s ≠ 2 →
        exec (.enroll i key) s = .next (acknowledge (fset keyB Reg.KEY_LIFE.CMD_ERR 2 s))) ∧
      (st = 1 → fget 0x40000000 Reg.LIC_STAT.STATE s = 2 → stagedPointOk s = false →
        exec (.enroll i key) s = .next (acknowledge (fset keyB Reg.KEY_LIFE.CMD_ERR 3 s))) ∧
      (st = 1 → fget 0x40000000 Reg.LIC_STAT.STATE s = 2 → stagedPointOk s = true → Registers.wf s = true →
        ∃ t, exec (.enroll i key) s = .next t ∧ fget keyB Reg.KEY_LIFE.STATE t = 2 ∧
          t.keys.owners = s.keys.owners ++ [ownStage 0 s ++ ownStage 1 s] ∧
          (s.keys.owners = [] → fget keyB Reg.KEY_LIFE.OWNER_N t = 1) ∧ fget keyB Reg.KEY_LIFE.CMD_ERR t = 0) ∧
      (st ≠ 2 → exec (.rotate i key) s = .next (acknowledge (fset keyB Reg.KEY_LIFE.CMD_ERR 1 s))) ∧
      (st = 2 → 8 ≤ fget keyB Reg.KEY_LIFE.OWNER_N s →
        exec (.rotate i key) s = .next (acknowledge (fset keyB Reg.KEY_LIFE.CMD_ERR 5 s))) ∧
      (st = 2 → fget keyB Reg.KEY_LIFE.OWNER_N s < 8 →
        exec (.rotate i key) s = .next (acknowledge
          (if rotateSigned s then ownerStore s else fset keyB Reg.KEY_LIFE.CMD_ERR 4 s))))) ∧
  (∀ (i : Init) (key : BitVec 16) (s : State), Admits i 0x400B1000 .store s →
    (key ≠ 0x504B ∨ fis keyB Reg.PK_STAT.BUSY s = true → exec (.pkVerify i key) s = .next (acknowledge s) ∧
      exec (.pkEcdh i key) s = .next (acknowledge s)) ∧
    (key = 0x504B → fis keyB Reg.PK_STAT.BUSY s = false →
      exec (.pkVerify i key) s = .next (acknowledge (fset keyB Reg.PK_STAT.BUSY 1
        { s with keys := { s.keys with pk := .verify } })) ∧
      (ecdhRefusal s ≠ 0 → exec (.pkEcdh i key) s = .next (acknowledge (pkEnd (ecdhRefusal s) s))) ∧
      (ecdhRefusal s = 0 → Registers.wf s = true → ∃ t, exec (.pkEcdh i key) s = .next t ∧
        fis keyB Reg.PK_STAT.BUSY t = true))) ∧
  (∀ (slot : BitVec 7) (entry : BitVec 9) (s : State),
    (s.keys.pk = .idle → exec (.pkDone slot entry) s = .next s) ∧
    (s.keys.pk = .verify → Registers.wf s = true → ∃ t, exec (.pkDone slot entry) s = .next t ∧
      fis keyB Reg.PK_STAT.BUSY t = false ∧ fis keyB Reg.PK_STAT.DONE t = true ∧ t.keys.pk = .idle ∧
      fget keyB Reg.PK_STAT.RESULT t = ecdsaVerify (ofBeBytes (pkBuf 0 32 s)) (ofBeBytes (pkBuf 0x20 32 s))
        (ofBeBytes (pkBuf 0x40 32 s)) (ofBeBytes (pkBuf 0x60 32 s)) (ofBeBytes (pkBuf 0x80 32 s)) % 16)) ∧
  (∀ s : State, (fget rngB Reg.RNG_STAT.STATE s = 1 →
      exec .rngStartupDone s = .next (fset rngB Reg.RNG_STAT.STATE 2 s)) ∧
    (fget rngB Reg.RNG_STAT.STATE s ≠ 1 → exec .rngStartupDone s = .next s)) ∧
  (∀ (raw : BitVec 512) (s : State),
    (fget rngB Reg.RNG_STAT.STATE s ≠ 2 → exec (.rngBlockRelease raw) s = .next s) ∧
    (fget rngB Reg.RNG_STAT.STATE s = 2 → rngGive (sha256 (beBytes 64 raw.toNat)) s = none →
      (8 ≤ s.keys.blocks.length → exec (.rngBlockRelease raw) s = .next s) ∧
      (s.keys.blocks.length < 8 → s.keys.part = [] → ∃ t, exec (.rngBlockRelease raw) s = .next t ∧
        t.keys.blocks = s.keys.blocks ++ [sha256 (beBytes 64 raw.toNat)]))) ∧
  (∀ (rct : Bool) (rawBit : Word64) (s : State),
    let st := fget rngB Reg.RNG_STAT.STATE s
    let recent := s.keys.fails.filter fun f => decide (rawBit.toNat < f + 65536)
    (st ≠ 1 → st ≠ 2 → exec (.rngTestFail rct rawBit) s = .next s) ∧
    (st = 1 ∨ st = 2 → Registers.wf s = true → ∃ t, exec (.rngTestFail rct rawBit) s = .next t ∧
      t.keys.blocks = [] ∧ t.keys.part = [] ∧
      fget rngB Reg.RNG_STAT.STATE t = (if 2 ≤ recent.length then 3 else 1) ∧
      (2 ≤ recent.length → t.rooms = (raiseEvt 1021 s).rooms) ∧
      fget rngB Reg.RNG_CNT.RCT_FAIL t = (if rct then min 65535 (fget rngB Reg.RNG_CNT.RCT_FAIL s + 1)
        else fget rngB Reg.RNG_CNT.RCT_FAIL s))) ∧
  (∀ (i : Init) (key : BitVec 16) (s : State), Admits i 0x400C0008 .store s →
    (key = 0x524E → fget rngB Reg.RNG_STAT.STATE s ≠ 0 →
      exec (.rngRestart i key) s = .next (acknowledge (fset rngB Reg.RNG_STAT.STATE 1 s))) ∧
    (key ≠ 0x524E → exec (.rngRestart i key) s = .next (acknowledge s))) ∧
  (∀ (i : Init) (s : State), Admits i 0x400C0000 .load s →
    (s.keys.blocks = [] → s.keys.part = [] → exec (.rngDataRead i) s = .next (respondWord 0 s)) ∧
    (∀ a b r, s.keys.part = a :: b :: r → ∃ t, exec (.rngDataRead i) s = .next t ∧
      t.bus.resp = .data (BitVec.ofNat 64 (2 ^ 31 + a.toNat + 256 * b.toNat)) ∧ t.keys.part = r))

/-- Tamper (R529, R530, R532). A source that cannot trip, or whose action is OFF, does nothing; RECORD sets its TRIPPED bit and
records the calendar second; DESTROY of a device that is not erasing also leaves no root, no live slot and ERASE_PEND and
ERASING set, with the hall held in a reset of cause TAMPER; SHIELD is DESTROY outside FACTORY. The erase's end clears
both bits. -/
def Obligations.Tamper : Prop :=
  (∀ (src : BitVec 3) (s : State), tampCan src.toNat s = false ∨ tampAct src.toNat s = 0 →
    exec (.tamperTrip src) s = .next s) ∧
  (∀ (src : BitVec 3) (s : State), tampCan src.toNat s = true → Registers.wf s = true →
    (tampAct src.toNat s = 1 → ∃ t, exec (.tamperTrip src) s = .next t ∧ fis tampB ⟨8, src.toNat, 1⟩ t = true ∧
      fget tampB Reg.TAMP_STAT.LAST_SRC t = src.toNat ∧ rd (tampB + 0xC) t = rd calB s ∧
      rd (tampB + 0x10) t = rd (calB + 4) s &&& 0xFFFF#32 ∧ t.keys = s.keys ∧ t.pow.hall = s.pow.hall) ∧
    (2 ≤ tampAct src.toNat s → fis tampB Reg.TAMP_STAT.ERASING s = true →
      exec (.tamperTrip src) s = .next (tampRecord src.toNat s)) ∧
    (2 ≤ tampAct src.toNat s → fis tampB Reg.TAMP_STAT.ERASING s = false → s.pow.hall ≠ .pinLow → ∃ t, exec (.tamperTrip src) s = .next t ∧
      t.keys.root = none ∧ fis tampB Reg.TAMP_STAT.ERASING t = true ∧
      fis tampB Reg.TAMP_STAT.ERASE_PEND t = true ∧ t.pow.hall = .erasing (s.pow.hall != .off) ∧
      rootValid t = false ∧ (∀ k, k < 128 → slotLive k t = false) ∧ fis tampB ⟨8, src.toNat, 1⟩ t = true)) ∧
  (∀ s : State, tampAct 4 s = if fget keyB Reg.KEY_LIFE.STATE s = 0 then 1 else 2) ∧
  (∀ s : State, fis tampB Reg.TAMP_STAT.ERASING s = false → exec .vaultEraseDone s = .next s) ∧
  (∀ s : State, fis tampB Reg.TAMP_STAT.ERASING s = true → Registers.wf s = true →
    ∃ t, exec .vaultEraseDone s = .next t ∧ fis tampB Reg.TAMP_STAT.ERASING t = false ∧
      fis tampB Reg.TAMP_STAT.ERASE_PEND t = false ∧ (s.pow.hall = .erasing false → t.pow.hall = .off) ∧
      t.keys.root = s.keys.root)

/-- Port commands and their ends (R546–R550, R554). A write of FP_CMD with another KEY, or while the port is BUSY, sets CMD_ERR
alone; a target that fails a check is refused with the first check's result and the flash unchanged; an accepted
command makes the port BUSY and the bank PROGRAM or ERASE. A program of a blank line gives it the staged octets and
ends OK; of any other line it ends with NOT_BLANK and programs nothing. An erased block reads 0xFF.

Suspension, read settings and wait states (R541–R544, R551, R552). SUSPEND of an erase makes the bank SUSPENDED, at once or
when its minimum run ends; RESUME continues it with a new minimum run; in any other state both set CMD; a bank suspended
by a read resumes by itself. CLK 3 sets RANGE and a change of CLK while a bank is busy CMD, with FLC_CFG unchanged; WS_EFF is 8 in
WIDE and the larger of WS and WS_MIN in NORMAL. -/
def Obligations.Flash : Prop :=
  ((∀ (i : Init) (port : BitVec 6) (key : BitVec 16) (s : State), Admits i (fpPage port.toNat + 0x40) .store s →
     let r := port.toNat
     let b := fpPage r
     let a := fget b Reg.FP_ADDR.ADDR s
     (key ≠ 0x464C ∨ fget b Reg.FP_STAT.STATE s = 1 →
       exec (.flashProgram i port key) s = .next (acknowledge (fset b Reg.FP_STAT.CMD_ERR 1 s)) ∧
       exec (.flashErase i port key) s = .next (acknowledge (fset b Reg.FP_STAT.CMD_ERR 1 s))) ∧
     (key = 0x464C → fget b Reg.FP_STAT.STATE s ≠ 1 → Registers.wf s = true →
       (fpCheck i r a 32 s ≠ 0 → fpCheck i r a 32 s ≠ 7 → ∃ t, exec (.flashProgram i port key) s = .next t ∧
         fget b Reg.FP_STAT.STATE t = 2 ∧ fget b Reg.FP_STAT.RESULT t = fpCheck i r a 32 s ∧
         fis b Reg.FP_STAT.STG_BAD t = false ∧ t.mem = s.mem ∧ t.flash = s.flash) ∧
       (fpCheck i r a 32 s = 0 → ∃ t, exec (.flashProgram i port key) s = .next t ∧
         fget b Reg.FP_STAT.STATE t = 1 ∧ bankState (bankOf a) t = 1 ∧ t.mem = s.mem ∧
         (bankGet (bankOf a) t).prog = some ⟨r, a, rdBytes (b + 0x20) 8 s⟩) ∧
       (fpCheck i r a 0x10000 s ≠ 0 → ∃ t, exec (.flashErase i port key) s = .next t ∧
         fget b Reg.FP_STAT.STATE t = 2 ∧ fget b Reg.FP_STAT.RESULT t = fpCheck i r a 0x10000 s ∧ t.mem = s.mem ∧
         t.flash = s.flash) ∧
       (fpCheck i r a 0x10000 s = 0 → ∃ t, exec (.flashErase i port key) s = .next t ∧
         fget b Reg.FP_STAT.STATE t = 1 ∧ bankState (bankOf a) t = 2 ∧ t.mem = s.mem ∧
         (bankGet (bankOf a) t).erase = some ⟨r, a, []⟩ ∧ (bankGet (bankOf a) t).minRun = true))) ∧
   (∀ (i : Init) (r a n : Nat) (s : State), n = 32 ∨ n = 0x10000 →
     (a % n ≠ 0 ∨ a < 0x08000000 ∨ 0x0C000000 ≤ a → fpCheck i r a n s = 2) ∧
     (a % n = 0 → 0x0AF00000 ≤ a → a < 0x0B000000 → fpCheck i r a n s = 3) ∧
     (a % n = 0 → 0x0B000000 ≤ a → a < 0x0C000000 → i ≠ .steward → fpCheck i r a n s = 3) ∧
     (a % n = 0 → 0x08400000 ≤ a → a < 0x0AF00000 → windowsOf r s = [] → fpCheck i r a n s = 4) ∧
     (a % n = 0 → 0x0B000000 ≤ a → a < 0x0C000000 → i = .steward → pdOn 27 s = false → fpCheck i r a n s = 5) ∧
     (a % n = 0 → 0x0B000000 ≤ a → a < 0x0C000000 → i = .steward → pdOn 27 s = true → bankState 1 s = 2 →
       fpCheck i r a n s = 1)) ∧
   (∀ (bank : BitVec 1) (readBack : BitVec 256) (s : State),
     let k := bank.toNat
     ((bankGet k s).prog = none → exec (.flashProgramDone bank readBack) s = .next s) ∧
     (∀ j, (bankGet k s).prog = some j → j.who < 64 → garbledAt j.addr s = false → 0x08000000 ≤ j.addr →
       j.addr + 32 ≤ 0x0C000000 → s.canonical = true →
       let t := programDone k (leBytes 32 readBack.toNat) s
       let blank := memBytes j.addr 32 s = List.replicate 32 0xFF
       exec (.flashProgramDone bank readBack) s = .next t ∧ fget (fpPage j.who) Reg.FP_STAT.STATE t = 2 ∧
       fis flcB (if k = 0 then Reg.FLC_NOTE.DONE0 else Reg.FLC_NOTE.DONE1) t = true ∧
       (∀ x, x < j.addr ∨ j.addr + 32 ≤ x → memGet x t = memGet x s) ∧
       (¬ blank → fget (fpPage j.who) Reg.FP_STAT.RESULT t = 8 ∧ t.mem = s.mem) ∧
       (blank → memBytes j.addr 32 t = leBytes 32 readBack.toNat ∧
         fget (fpPage j.who) Reg.FP_STAT.RESULT t = if leBytes 32 readBack.toNat = j.data then 0 else 9))) ∧
   (∀ (bank : BitVec 1) (blank : Bool) (s : State),
     let k := bank.toNat
     ((bankGet k s).erase = none ∨ bankState k s ≠ 2 → exec (.flashEraseDone bank blank) s = .next s) ∧
     (∀ j, (bankGet k s).erase = some j → bankState k s = 2 → j.who < 64 → 0x08000000 ≤ j.addr →
       j.addr + 0x10000 ≤ 0x0C000000 → s.canonical = true →
       let t := eraseDone k blank s
       exec (.flashEraseDone bank blank) s = .next t ∧ fget (fpPage j.who) Reg.FP_STAT.STATE t = 2 ∧
       fget (fpPage j.who) Reg.FP_STAT.RESULT t = (if blank then 0 else 10) ∧ bankState k t = 0 ∧
       (∀ x, j.addr ≤ x → x < j.addr + 0x10000 → memGet x t = 0xFF) ∧
       (∀ x, x < j.addr ∨ j.addr + 0x10000 ≤ x → memGet x t = memGet x s)))) ∧
  ((∀ (i : Init) (key : BitVec 16) (bank : BitVec 1) (s : State), Admits i 0x400D0020 .store s →
     let k := bank.toNat
     (key ≠ 0x5355 → exec (.flashSuspend i key bank) s = .next (acknowledge s) ∧
       exec (.flashResume i key bank) s = .next (acknowledge s)) ∧
     (key = 0x5355 → bankState k s ≠ 2 →
       exec (.flashSuspend i key bank) s = .next (acknowledge (flcErr Reg.FLC_ERR.CMD s))) ∧
     (key = 0x5355 → bankState k s ≠ 3 →
       exec (.flashResume i key bank) s = .next (acknowledge (flcErr Reg.FLC_ERR.CMD s))) ∧
     (key = 0x5355 → Registers.wf s = true → ∀ j, (bankGet k s).prog = none → (bankGet k s).erase = some j →
       (bankState k s = 2 → (bankGet k s).minRun = false → ∃ t, exec (.flashSuspend i key bank) s = .next t ∧
         bankState k t = 3 ∧ (bankGet k t).byRead = false ∧ t.mem = s.mem) ∧
       (bankState k s = 2 → (bankGet k s).minRun = true → ∃ t, exec (.flashSuspend i key bank) s = .next t ∧
         bankState k t = 2 ∧ (bankGet k t).held = true ∧ t.mem = s.mem) ∧
       (bankState k s = 3 → ∃ t, exec (.flashResume i key bank) s = .next t ∧
         bankState k t = 2 ∧ (bankGet k t).minRun = true ∧ t.mem = s.mem))) ∧
   (∀ (bank : BitVec 1) (s : State),
     let k := bank.toNat
     (bankState k s ≠ 3 ∨ (bankGet k s).byRead = false → exec (.flashAutoResume bank) s = .next s) ∧
     (bankState k s ≠ 2 ∨ (bankGet k s).minRun = false → exec (.minimumRunEnd bank) s = .next s) ∧
     (∀ j, (bankGet k s).prog = none → (bankGet k s).erase = some j → Registers.wf s = true →
       (bankState k s = 3 → (bankGet k s).byRead = true → ∃ t, exec (.flashAutoResume bank) s = .next t ∧
         bankState k t = 2 ∧ (bankGet k t).byRead = false) ∧
       (bankState k s = 2 → (bankGet k s).minRun = true → ∃ t, exec (.minimumRunEnd bank) s = .next t ∧
         bankState k t = (if (bankGet k s).held then 3 else 2) ∧ (bankGet k t).minRun = false))) ∧
   (∀ (i : Init) (data : Word) (s : State), Admits i 0x400D0000 .store s →
     (bitsOf data 2 2 = 3 → exec (.flcCfgWrite i data) s = .next (acknowledge (flcErr Reg.FLC_ERR.RANGE s))) ∧
     (bitsOf data 2 2 ≠ 3 → bitsOf data 2 2 ≠ fget flcB Reg.FLC_CFG.CLK s → bankState 0 s ≠ 0 ∨ bankState 1 s ≠ 0 →
       exec (.flcCfgWrite i data) s = .next (acknowledge (flcErr Reg.FLC_ERR.CMD s))) ∧
     (bitsOf data 2 2 ≠ 3 → bitsOf data 2 2 = fget flcB Reg.FLC_CFG.CLK s ∨ (bankState 0 s = 0 ∧ bankState 1 s = 0) →
       Registers.wf s = true → ∃ t, exec (.flcCfgWrite i data) s = .next t ∧ rd flcB t = data &&& 0xF1D#32 ∧
         fget flcB Reg.FLC_STAT.WS_EFF t = (if data.getLsbD 0 then
           max (bitsOf data 8 4) (wsMin (fget 0x400F0000 Reg.PWR_VSTAT.LOW s) (bitsOf data 2 2)) else 8))) ∧
   (∀ code clk, code < 32 → clk < 3 →
     wsMin code clk = if 12 ≤ code then [1, 1, 2].getD clk 0 else if 6 ≤ code then [1, 2, 3].getD clk 0
       else [2, 3, 5].getD clk 0))

/-- Staging sessions (R562, R565, R566, R572, R577). A wrong KEY, or a command that the state does not allow, sets a flag alone.
HEADER begins the checks, with PK_STAT.BUSY; a header that passes opens a session under LOCK with the header in staging; any
other ends it with the first check's result. FINISH stages a whole body whose hash agrees, and ends the session with
STAGING or BODY_HASH otherwise; ABORT ends it. A session that ends leaves LOCK 0. -/
def Obligations.UpdateSession : Prop :=
  (∀ (i : Init) (key : BitVec 16) (room : BitVec 6) (s : State), Admits i 0x400E0000 .store s → key ≠ 0x5550 →
    ∀ c ∈ [Instr.updHeader i key, .updLoad i key, .updFinish i key, .updActivate i key, .updAbort i key,
      .updCheck i key room, .floorClr i key room, .recover i key],
      exec c s = .next (acknowledge (fset updB Reg.UPD_ERR.CMD 1 s))) ∧
  (∀ (i : Init) (s : State), Admits i 0x400E0000 .store s →
    let st := updState s
    let bad := acknowledge (fset updB Reg.UPD_ERR.CMD 1 s)
    ((st ≠ 0 ∧ st ≠ 5) ∨ fis keyB Reg.PK_STAT.BUSY s = true →
      exec (.updHeader i 0x5550) s = .next (acknowledge (fset updB Reg.UPD_ERR.BUSY 1 s))) ∧
    (st = 0 ∨ st = 5 → fis keyB Reg.PK_STAT.BUSY s = false → Registers.wf s = true →
      ∃ t, exec (.updHeader i 0x5550) s = .next t ∧ updState t = 6 ∧ fis keyB Reg.PK_STAT.BUSY t = true ∧
        t.upd.source = 0 ∧ t.mem = s.mem) ∧
    (st ≠ 1 → exec (.updLoad i 0x5550) s = .next bad ∧ exec (.updFinish i 0x5550) s = .next bad) ∧
    (st ≠ 2 → exec (.updActivate i 0x5550) s = .next bad) ∧
    (st ≠ 1 → st ≠ 2 → exec (.updAbort i 0x5550) s = .next bad) ∧
    (st = 1 ∨ st = 2 → exec (.updAbort i 0x5550) s = .next (acknowledge (updEnd 13 s))) ∧
    (st = 1 → exec (.updFinish i 0x5550) s = .next (acknowledge
      (if fget updB Reg.UPD_LOADED.LOADED s < imgLength (stgHeader s) then updEnd 9 s
       else if sha256 s.upd.got = imgHash (stgHeader s) then fset updB Reg.UPD_STAT.STATE 2 s else updEnd 10 s))) ∧
    (st = 1 → fget updB Reg.UPD_LEN.LEN s = 0 →
      exec (.updLoad i 0x5550) s = .next (acknowledge (fset updB Reg.UPD_ERR.RANGE 1 s))) ∧
    (st = 1 → fget updB Reg.UPD_LEN.LEN s ≠ 0 →
      imgLength (stgHeader s) < fget updB Reg.UPD_LOADED.LOADED s + fget updB Reg.UPD_LEN.LEN s →
      exec (.updLoad i 0x5550) s = .next (acknowledge (updEnd 9 s))) ∧
    (∀ l t, st = 1 → fget updB Reg.UPD_LEN.LEN s ≠ 0 →
      fget updB Reg.UPD_LOADED.LOADED s + fget updB Reg.UPD_LEN.LEN s ≤ imgLength (stgHeader s) →
      loadRead (fget updB Reg.UPD_SRC.SRC s * 4) ((fget updB Reg.UPD_LEN.LEN s + 63) / 64)
        (fget updB Reg.UPD_LEN.LEN s) s = (some l, t) →
      exec (.updLoad i 0x5550) s = .next (acknowledge (drawFree (stgAppend l t))))) ∧
  (∀ s : State, updState s ≠ 6 → exec .updHeaderChecked s = .next s) ∧
  (∀ s : State, updState s = 6 → s.upd.source = 0 → s.canonical = true → s.upd.waits = none →
    ∃ t, exec .updHeaderChecked s = .next t ∧ fis keyB Reg.PK_STAT.BUSY t = false ∧
      (updJudge (updHdr s) s = 0 → updState t = 1 ∧ fis updB Reg.UPD_STAT.LOCK t = true ∧
        memBytes (stgBase s) 256 t = updHdr s ∧ fget updB Reg.UPD_LOADED.LOADED t = 0) ∧
      (updJudge (updHdr s) s ≠ 0 → updState t = 5 ∧ fis updB Reg.UPD_STAT.LOCK t = false ∧
        fget updB Reg.UPD_STAT.RESULT t = updJudge (updHdr s) s ∧ t.mem = s.mem)) ∧
  (∀ (h : List Byte) (s : State),
    (headerOk h = false → headerCheck h [1, 2, 3] s = 1) ∧
    (headerOk h = true → layoutOk h s = false → headerCheck h [1, 2, 3] s = 2) ∧
    (headerOk h = true → layoutOk h s = true → leAt h 8 2 ≠ 0x9256 → headerCheck h [1, 2, 3] s = 3) ∧
    headerCheck h [1, 2, 3] s ≤ 8 ∧
    (signatureOk h = false ∨ signerOk h s = false ∨ imgKind h = 4 → headerCheck h [1, 2, 3] s ≠ 0))

/-- Activation and checks in place (R564, R567, R569–R571). ACTIVATE of a HOUSE image takes the floor, clears room 0's
measurements and holds the house's processors; of a PLAN or ROOM image while the plan loader works it sets BUSY alone. A
plan's write ends with its slot UNCHECKED. CHECK of a room without an entry ends with TARGET; FLOOR_CLR clears the floor of a room
without an entry; RECOVER resets the hall with REC_REQ. -/
def Obligations.UpdateActivation : Prop :=
  (∀ (i : Init) (s : State), Admits i 0x400E0000 .store s → updState s = 2 → Registers.wf s = true →
    (fget updB Reg.UPD_STAT.KIND s = 1 → imgKind (stgHeader s) = 1 → ∃ t, exec (.updActivate i 0x5550) s = .next t ∧
      updState t = 3 ∧ rd 0x400E0024 t = BitVec.ofNat 32 (imgSeq (stgHeader s)) ∧ unmeasured 0 t = true ∧
      (coreGet 0 t).heldInReset = true ∧ (coreGet 1 t).heldInReset = true ∧ (coreGet 2 t).heldInReset = true ∧
      t.mem = s.mem) ∧
    (fget updB Reg.UPD_STAT.KIND s ≠ 1 → fget fabB Reg.FAB_PLAN_STAT.PHASE s ≠ 0 →
      exec (.updActivate i 0x5550) s = .next (acknowledge (fset updB Reg.UPD_ERR.BUSY 1 s))) ∧
    (fget updB Reg.UPD_STAT.KIND s = 2 → fget fabB Reg.FAB_PLAN_STAT.PHASE s = 0 →
      exec (.updActivate i 0x5550) s = .next (acknowledge (activateRoom s))) ∧
    (fget updB Reg.UPD_STAT.KIND s = 3 → fget fabB Reg.FAB_PLAN_STAT.PHASE s = 0 →
      exec (.updActivate i 0x5550) s = .next (acknowledge (stagedBegin (updMove 3 (floorTake s)))))) ∧
  (∀ (ok : Bool) (s : State),
    (updState s ≠ 3 ∨ stagedFree s = false → exec (.updWriteDone ok) s = .next s) ∧
    (updState s = 3 → stagedFree s = true → fget updB Reg.UPD_STAT.KIND s = 2 →
      exec (.updWriteDone ok) s = .next (roomWritten ok s)) ∧
    (updState s = 3 → stagedFree s = true → fget updB Reg.UPD_STAT.KIND s = 3 →
      exec (.updWriteDone ok) s = .next (updEnd (if ok then 0 else 12) (slotSet (planSlot s) 1 0 (stagedEnd ok s)))) ∧
    (updState s ≠ 4 ∨ stagedFree s = false → exec (.houseRewriteDone ok) s = .next s) ∧
    (updState s = 4 → stagedFree s = true →
      exec (.houseRewriteDone ok) s = .next (updEnd (if ok then 0 else 12) (stagedEnd ok s)))) ∧
  (∀ s : State, (updState s ≠ 3 ∨ fget updB Reg.UPD_STAT.KIND s ≠ 1 → exec .houseRestart s = .next s) ∧
    (updState s = 3 → fget updB Reg.UPD_STAT.KIND s = 1 → Registers.wf s = true →
      ∃ t, exec .houseRestart s = .next t ∧ updState t = 4 ∧
        (imgEntry (stgHeader s) ≠ 0 → (coreGet 0 t).pc = BitVec.ofNat 64 (imgEntry (stgHeader s)) ∧
          (coreGet 0 t).heldInReset = false))) ∧
  (∀ (i : Init) (room : BitVec 6) (s : State), Admits i 0x400E0000 .store s →
    let r := room.toNat
    let idle := updState s = 0 ∨ updState s = 5
    let bad := acknowledge (fset updB Reg.UPD_ERR.CMD 1 s)
    (¬ idle → exec (.updCheck i 0x5550 room) s = .next bad ∧ exec (.recover i 0x5550) s = .next bad) ∧
    (idle → hasEntry r s = false → Registers.wf s = true → s.upd.waits = none →
      ∃ t, exec (.updCheck i 0x5550 room) s = .next t ∧
        updState t = 5 ∧ fget updB Reg.UPD_STAT.RESULT t = 11 ∧ fget updB Reg.UPD_STAT.ROOM t = r) ∧
    (idle → hasEntry r s = true → exec (.updCheck i 0x5550 room) s =
      let s1 := fset updB Reg.UPD_STAT.ROOM r (fset updB Reg.UPD_STAT.KIND 0 s)
      .next (acknowledge (updEnd (checkRoom r s1).1 (drawFree (checkRoom r s1).2)))) ∧
    (r = 0 → exec (.floorClr i 0x5550 room) s = .next (acknowledge (fset updB Reg.UPD_ERR.RANGE 1 s))) ∧
    (r ≠ 0 → ¬ idle ∨ hasEntry r s = true → exec (.floorClr i 0x5550 room) s = .next bad) ∧
    (r ≠ 0 → idle → hasEntry r s = false →
      exec (.floorClr i 0x5550 room) s = .next (acknowledge (wr (updB + 0x100 + 4 * r) 0 s))) ∧
    (idle → exec (.recover i 0x5550) s =
      .next (acknowledge (hallRestart 7 (fset updB Reg.UPD_STAT.REC_REQ 1 s)))))

/-- Recovery (R575, R576). A source that recovery does not listen to, and a source other than the owner but for INFO, changes
nothing of the session; HEADER takes 256 octets to UPD_HDR and begins the checks; DATA at the offset loaded is loaded and any
other discarded, and the reply tells the octets loaded; ABORT and COMMIT end the session; RESTART resets the hall and
clears REC_REQ. -/
def Obligations.RecoveryMessages : Prop :=
  (∀ (src : RecSource) (s : State), recListens src s = false →
    ∀ c ∈ [Instr.recoveryInfo src, .recoveryAbort src, .recoveryRestart src, .recoveryCommit src true,
      .recoveryData src 0 [0], .recoveryHeader src []], exec c s = .next s) ∧
  (∀ (src : RecSource) (s : State), recListens src s = true →
    (∃ t, exec (.recoveryInfo src) s = .next t ∧ t.upd.reply = recInfo s ∧ t.mem = s.mem ∧ t.upd.owner = s.upd.owner) ∧
    (s.upd.owner ≠ 0 → s.upd.owner ≠ src.num → ∀ c ∈ [Instr.recoveryAbort src, .recoveryRestart src,
        .recoveryCommit src true, .recoveryData src 0 [0], .recoveryHeader src []],
      ∃ t, exec c s = .next t ∧ t.upd.owner = s.upd.owner ∧ updState t = updState s ∧ t.mem = s.mem ∧
        t.upd.got = s.upd.got ∧ t.pow = s.pow)) ∧
  (∀ (header : List Byte) (s : State), recListens .uart0 s = true → s.upd.owner = 0 → header.length = 256 →
    updState s = 0 ∨ updState s = 5 → fis keyB Reg.PK_STAT.BUSY s = false → Registers.wf s = true →
    ∃ t, exec (.recoveryHeader .uart0 header) s = .next t ∧ updState t = 6 ∧ updHdr t = header ∧ t.upd.source = 2) ∧
  (∀ (offset : Word) (octets : List Byte) (s : State), recListens .uart0 s = true → s.upd.owner = 2 →
    updState s = 1 → Registers.wf s = true → imgLength (stgHeader s) < 2 ^ 32 →
    let n := fget updB Reg.UPD_LOADED.LOADED s
    (offset.toNat = n → 1 ≤ octets.length → octets.length ≤ 1024 → n + octets.length ≤ imgLength (stgHeader s) →
      ∃ t, exec (.recoveryData .uart0 offset octets) s = .next t ∧ t.upd.got = s.upd.got ++ octets ∧
        fget updB Reg.UPD_LOADED.LOADED t = n + octets.length ∧ t.upd.reply = leBytes 4 (n + octets.length)) ∧
    (offset.toNat ≠ n ∨ octets = [] ∨ 1024 < octets.length →
      ∃ t, exec (.recoveryData .uart0 offset octets) s = .next t ∧ t.upd.got = s.upd.got ∧ t.mem = s.mem ∧
        fget updB Reg.UPD_LOADED.LOADED t = n ∧ t.upd.reply = leBytes 4 n)) ∧
  (∀ (ok : Bool) (s : State), recListens .uart0 s = true → s.upd.owner = 2 → updState s = 1 → Registers.wf s = true →
    s.upd.waits = none →
    (∃ t, exec (.recoveryAbort .uart0) s = .next t ∧ updState t = 5 ∧ fget updB Reg.UPD_STAT.RESULT t = 13 ∧
      t.upd.owner = 0 ∧ t.upd.reply = [13] ∧ t.mem = s.mem) ∧
    (finishResult s ≠ 0 → ∃ t, exec (.recoveryCommit .uart0 ok) s = .next t ∧ updState t = 5 ∧
      fget updB Reg.UPD_STAT.RESULT t = finishResult s ∧ t.upd.owner = 0 ∧ t.mem = s.mem) ∧
    exec (.recoveryRestart .uart0) s = .next (hallRestart 8 (fset updB Reg.UPD_STAT.REC_REQ 0 s))) ∧
  (∀ s : State, (s.pow.hall ≠ .recovery → exec .recoverySessionTimeout s = .next s ∧
      exec .recoveryAutoRestart s = .next s) ∧
    (s.pow.hall = .recovery → s.upd.owner = 0 → exec .recoverySessionTimeout s = .next s) ∧
    (s.pow.hall = .recovery → s.upd.owner ≠ 0 → Registers.wf s = true → s.upd.waits = none →
      ∃ t, exec .recoverySessionTimeout s = .next t ∧ updState t = 5 ∧ t.upd.owner = 0 ∧
        fis updB Reg.UPD_STAT.LOCK t = false) ∧
    (s.pow.hall = .recovery → s.upd.restartDue = false → exec .recoveryAutoRestart s = .next s) ∧
    (s.pow.hall = .recovery → s.upd.restartDue = true → exec .recoveryAutoRestart s =
      .next (hallRestart 8 (fset updB Reg.UPD_STAT.REC_REQ 0 s))))

/-- An event that a block raises becomes pending at each destination its entry names, and at no other place; one whose
entry has CORES 0 is discarded; a number that no block raises changes nothing (R455, R456, R692).

What EVT_CLAIM can return (R457): a pending event that is deliverable, of the highest PRIO among those, and the
lowest number among equals where the pending list is rising.

The event interface (R457): a claim clears the pending bit, makes the PRIO the new level and returns V, PRIO and
EVENT; with nothing deliverable it returns 0 and changes nothing; EVT_DONE of the latest claim restores the level before
it, and any other number sets EVT_ERR.DONE; an interrupt taken enters the handler with cause 11. Nothing else changes. -/
def Obligations.Events : Prop :=
  ((∀ (e : BitVec 10) (s : State), evtRaised e.toNat = true →
     exec (.eventSourceRaise e) s =
       .next ((routeDests (evtRoute e.toNat s)).foldl (fun t d => pendAt e.toNat d t) s)) ∧
   (∀ (e : BitVec 10) (s : State), evtRaised e.toNat = true → bitsOf (evtRoute e.toNat s) 0 7 = 0 →
     exec (.eventSourceRaise e) s = .next s) ∧
   (∀ (e : BitVec 10) (s : State), evtRaised e.toNat = false → exec (.eventSourceRaise e) s = .next s)) ∧
  (∀ (k e : Nat) (s : State), claimable k s = some e →
     ∃ d, destOfCore k s = some d ∧ e ∈ (destGet d s).pend ∧ evtDeliverable k e (destGet d s) s = true ∧
       ∀ f ∈ (destGet d s).pend, evtDeliverable k f (destGet d s) s = true →
         evtPrio f s ≤ evtPrio e s ∧
           ((destGet d s).pend.Pairwise (· < ·) → evtPrio f s = evtPrio e s → e ≤ f)) ∧
  ((∀ (i : Init) (s : State) (d e : Nat), Admits i 0x40080F00 .load s → destOfCore i.num s = some d →
     claimable i.num s = some e →
     exec (.evtClaim i) s = .next (respondWord (BitVec.ofNat 32 (2 ^ 31 + evtPrio e s * 2 ^ 16 + e))
       (destSet d { destGet d s with
         pend := (destGet d s).pend.erase e
         levels := (e, evtPrio e s) :: (destGet d s).levels } s))) ∧
   (∀ (i : Init) (s : State), Admits i 0x40080F00 .load s → claimable i.num s = none →
     exec (.evtClaim i) s = .next (respondWord 0 s)) ∧
   (∀ (i : Init) (s : State) (data : Word) (d p : Nat) (r : List (Nat × Nat)), Admits i 0x40080F04 .store s →
     destOfCore i.num s = some d → (destGet d s).levels = (bitsOf data 0 10, p) :: r →
     exec (.evtDone i data) s = .next (acknowledge (destSet d { destGet d s with levels := r } s))) ∧
   (∀ (i : Init) (s : State) (data : Word) (d : Nat), Admits i 0x40080F04 .store s → destOfCore i.num s = some d →
     ((destGet d s).levels.head?.map Prod.fst) ≠ some (bitsOf data 0 10) →
     exec (.evtDone i data) s = .next (acknowledge (destSet d { destGet d s with errDone := true } s))) ∧
   (∀ (core : Fin 7) (s : State) (e : Nat), claimable core.val s = some e → coreRuns core.val s = true →
     exec (.interruptTaken core) s = .next (coreSet core.val (trapEntry 11 true 0 (coreGet core.val s)) s)))

/-- Trap entry into M mode (RISC-V privileged 20211203, R436, R447): mepc takes the pc, mcause the cause with bit 63 for
an interrupt, mtval the value, MPIE takes MIE and MIE is cleared, MPP takes the mode, the mode becomes M, and the pc is
the base of mtvec, or for an interrupt in vectored mode the base plus 4 times the cause. -/
def Obligations.TrapEntry : Prop :=
  ∀ (cause tval : Nat) (interrupt : Bool) (c : CoreCtx), cause < 2 ^ 12 → c.priv = 3 →
    let t := trapEntry cause interrupt tval c
    let mtvec := (tget csrReset c.csr 1).toNat
    t.priv = 3 ∧ t.x = c.x ∧ t.f = c.f ∧ t.fcsr = c.fcsr ∧ t.instret = c.instret ∧ t.reserved = c.reserved ∧
    t.pc = BitVec.ofNat 64 (mtvec / 4 * 4 + (if mtvec % 4 = 1 ∧ interrupt = true then 4 * cause else 0)) ∧
    (twf csrReset c.csr = true →
      tget csrReset t.csr 2 = c.pc ∧
      tget csrReset t.csr 3 = BitVec.ofNat 64 (cause + (if interrupt then 2 ^ 63 else 0)) ∧
      tget csrReset t.csr 4 = BitVec.ofNat 64 tval ∧
      (tget csrReset t.csr 0).getLsbD 3 = false ∧
      (tget csrReset t.csr 0).getLsbD 7 = (tget csrReset c.csr 0).getLsbD 3 ∧
      (∀ k, 4 < k → tget csrReset t.csr k = tget csrReset c.csr k))

/-- A room command of the Steward reports its OP and its result (R449); each is carried out when its checks pass and
refused with the first check that fails. SUSPEND and RESUME of a room that is not resident change its SUSP bit alone.

RESET of a suspended room is carried out and clears its debug consent (R449, R653); REMOVE of one that no core holds
ends its suspension and leaves CTX_VALID and RAN 0 (R449). -/
def Obligations.RoomSuspendResetRemove : Prop :=
  ((∀ (i : Init) (r : BitVec 6) (s : State), Admits i 0x40070000 .store s → Registers.wf s = true →
     fis ledgB Reg.LEDG_STAT.BUSY s = false → updHolds r.toNat s = false → r ≠ 0 → hasEntry r.toNat s = true →
     residentCore r.toNat s = none →
     exec (.ledgSuspend i 0x4C47 r) s = .next (acknowledge (fset ledgB Reg.LEDG_STAT.LAST_OP 2
       (fset ledgB Reg.LEDG_STAT.RESULT 0 (fset (rstat r.toNat) Reg.LEDG_RSTAT.SUSP 1 s)))) ∧
     exec (.ledgResume i 0x4C47 r) s = .next (acknowledge (fset ledgB Reg.LEDG_STAT.LAST_OP 3
       (fset ledgB Reg.LEDG_STAT.RESULT 0 (fset (rstat r.toNat) Reg.LEDG_RSTAT.SUSP 0 s))))) ∧
   (∀ (i : Init) (r : BitVec 6) (s : State), Admits i 0x40070000 .store s →
     fis ledgB Reg.LEDG_STAT.BUSY s = false → updHolds r.toNat s = false → (r = 0 ∨ hasEntry r.toNat s = false) →
     exec (.ledgSuspend i 0x4C47 r) s = .next (acknowledge (fset ledgB Reg.LEDG_STAT.LAST_OP 2
       (fset ledgB Reg.LEDG_STAT.RESULT (if r = 0 then 7 else 2) s))) ∧
     exec (.ledgResume i 0x4C47 r) s = .next (acknowledge (fset ledgB Reg.LEDG_STAT.LAST_OP 3
       (fset ledgB Reg.LEDG_STAT.RESULT (if r = 0 then 7 else 2) s)))) ∧
   (∀ (i : Init) (a size room : Nat) (k : Access) (s : State), isSuspended room s = true →
     (doorCheckAs i room a size k s).isSome = true)) ∧
  ((∀ (i : Init) (r : BitVec 6) (s : State), Admits i 0x40070000 .store s → Registers.wf s = true →
     fis ledgB Reg.LEDG_STAT.BUSY s = false → updHolds r.toNat s = false → r ≠ 0 → hasEntry r.toNat s = true →
     isSuspended r.toNat s = true →
     ∃ t, exec (.ledgReset i 0x4C47 r) s = .next t ∧
       fget ledgB Reg.LEDG_STAT.RESULT t = 0 ∧ fget ledgB Reg.LEDG_STAT.LAST_OP t = 4 ∧
       rd (0x40150100 + 4 * r.toNat) t = 0) ∧
   (∀ (i : Init) (r : BitVec 6) (s : State), Admits i 0x40070000 .store s → Registers.wf s = true →
     fis ledgB Reg.LEDG_STAT.BUSY s = false → updHolds r.toNat s = false → r ≠ 0 → hasEntry r.toNat s = true →
     isSuspended r.toNat s = true → residentCore r.toNat s = none →
     ∃ t, exec (.ledgRemove i 0x4C47 r) s = .next t ∧
       isSuspended r.toNat t = false ∧ fget (rstat r.toNat) Reg.LEDG_RSTAT.RAN t = 0 ∧
       fget (rstat r.toNat) Reg.LEDG_RSTAT.CTX_VALID t = 0 ∧
       fget ledgB Reg.LEDG_STAT.RESULT t = 0 ∧ fget ledgB Reg.LEDG_STAT.LAST_OP t = 7))

/-- LEDG_COMMIT (R445): an entry that passes every check replaces the room's entry whole, and one that fails leaves the
ledger as it was and reads CONFLICT.

A SWITCH that passes its checks (R443, R449): room r is resident on core c, the core is not parked, the result is
OK and ROOM_SWITCH has been raised; the frame of a SWITCH to the room already there is empty. A PARK of a parked core
changes nothing else. -/
def Obligations.RoomCommitAndSwitch : Prop :=
  ((∀ (i : Init) (r : BitVec 6) (s : State), Admits i 0x40070000 .store s →
     fis ledgB Reg.LEDG_STAT.BUSY s = false → updHolds r.toNat s = false →
     commitOk (rdBytes (ledgB + 0x400) 72 s) r.toNat s = true → ledgerGet r.toNat s = none →
     exec (.ledgCommit i 0x4C47 r) s = .next (acknowledge (fset ledgB Reg.LEDG_STAT.LAST_OP 1
       (fset ledgB Reg.LEDG_STAT.RESULT 0
         (ledgerSet r.toNat (some (entryParse (rdBytes (ledgB + 0x400) 72 s))) s)))) ∧
     (r ≠ 0 → ledgerGet r.toNat (ledgerSet r.toNat (some (entryParse (rdBytes (ledgB + 0x400) 72 s))) s) =
       some (entryParse (rdBytes (ledgB + 0x400) 72 s)))) ∧
   (∀ (i : Init) (r : BitVec 6) (s : State), Admits i 0x40070000 .store s →
     fis ledgB Reg.LEDG_STAT.BUSY s = false → updHolds r.toNat s = false →
     commitOk (rdBytes (ledgB + 0x400) 72 s) r.toNat s = false →
     exec (.ledgCommit i 0x4C47 r) s = .next (acknowledge (fset ledgB Reg.LEDG_STAT.LAST_OP 1
       (fset ledgB Reg.LEDG_STAT.RESULT 3 s))))) ∧
  ((∀ (i : Init) (c : BitVec 2) (r : BitVec 6) (s : State), Admits i 0x40070000 .store s → Registers.wf s = true →
     fis ledgB Reg.LEDG_STAT.BUSY s = false → updHolds r.toNat s = false → r ≠ 0 → hasEntry r.toNat s = true →
     isSuspended r.toNat s = false → residentCore r.toNat s = none → ctxPlaced r.toNat s = true →
     ∃ t, exec (.ledgSwitch i 0x4C47 c r) s = .next t ∧
       residentOn c.toNat t = some r.toNat ∧
       fget (rstat r.toNat) Reg.LEDG_RSTAT.RES t = 1 ∧ fget (rstat r.toNat) Reg.LEDG_RSTAT.CORE t = c.toNat ∧
       fget (rstat r.toNat) Reg.LEDG_RSTAT.RAN t = 1 ∧ fget ledgB Reg.LEDG_STAT.RESULT t = 0 ∧
       fget ledgB Reg.LEDG_STAT.LAST_OP t = 5) ∧
   (∀ (i : Init) (c : BitVec 2) (r : BitVec 6) (s : State), Admits i 0x40070000 .store s →
     fis ledgB Reg.LEDG_STAT.BUSY s = false → updHolds r.toNat s = false → r ≠ 0 → hasEntry r.toNat s = true →
     isSuspended r.toNat s = false → residentOn c.toNat s = some r.toNat →
     exec (.ledgSwitch i 0x4C47 c r) s = .next (acknowledge (fset ledgB Reg.LEDG_STAT.LAST_OP 5
       (fset ledgB Reg.LEDG_STAT.RESULT 0 s)))) ∧
   (∀ (i : Init) (c : BitVec 2) (s : State), Admits i 0x40070000 .store s → Registers.wf s = true →
     fis ledgB Reg.LEDG_STAT.BUSY s = false →
     ∃ t, exec (.ledgPark i 0x4C47 c) s = .next t ∧ residentOn c.toNat t = none ∧
       fget ledgB Reg.LEDG_STAT.RESULT t = 0 ∧ fget ledgB Reg.LEDG_STAT.LAST_OP t = 6))

/-- Watchdogs and ways (R442, R453, R454, R460). A kick with its key sets the count to 0 and any other key changes
nothing; an expiry of a counting watchdog without the SUSPEND action holds the count at TIMEOUT, sets EXPIRED and raises
ROOM_WDOG; a write of LEDG_WAYS that names owner 0 for an owned way sets LEDG_ERR.RANGE alone, and one that takes no way
from a room sets the register alone. -/
def Obligations.WatchdogsAndWays : Prop :=
  (∀ (i : Init) (r : BitVec 6) (key : BitVec 16) (s : State), Admits i (wdogPage r.toNat) .store s →
    exec (.wdogKick i r key) s =
      .next (acknowledge (if key = 0x5744 then fset (wdogPage r.toNat) Reg.WDOG_STAT.COUNT 0 s else s))) ∧
  (∀ (r : BitVec 6) (s : State), wdogCounts r.toNat s = true →
    fis (wdogPage r.toNat) Reg.WDOG_CFG.ACTION s = false → Registers.wf s = true →
    exec (.roomWdog r) s = .next (raiseEvt 1018 (fset (wdogPage r.toNat) Reg.WDOG_STAT.EXPIRED 1
      (fset (wdogPage r.toNat) Reg.WDOG_STAT.COUNT (fget (wdogPage r.toNat) Reg.WDOG_CFG.TIMEOUT s) s)))) ∧
  (∀ (i : Init) (c : BitVec 2) (high : Bool) (data : Word) (s : State),
    Admits i (ledgB + 0x40 + 8 * c.toNat + 4 * ofBool high) .store s →
    ((∃ k < 4, bitOf data (8 * k + 7) = true ∧ bitsOf data (8 * k) 6 = 0) →
      exec (.ledgWaysWrite i c high data) s = .next (acknowledge (fset ledgB Reg.LEDG_ERR.RANGE 1 s))) ∧
    (s.rooms.lines = [] → (∀ k < 4, bitOf data (8 * k + 7) = true → bitsOf data (8 * k) 6 ≠ 0) →
      exec (.ledgWaysWrite i c high data) s =
        .next (acknowledge (wr (ledgB + 0x40 + 8 * c.toNat + 4 * ofBool high) (data &&& 0xBFBFBFBF#32) s))))

/-- PWR_MODE, PWR_LCACK and the limit (R582, R583, R585, R600). Another KEY sets CMD alone and a TARGET of 5–7 RANGE alone; in RUN a
TARGET arms the entry, a TARGET of RUN before the commit point cancels it with CANCEL, and after that point only the field
changes. A link core's REFUSE aborts with REFUSED, and a participant that has not accepted when HS_TMO passes with TIMEOUT. An
abort returns PHASE to RUN, records its cause and sets ENTRY_ABORT.

Asking (R582, R583). The Steward's WFI begins it only with an entry armed and no event deliverable; a target that powers an
application core off that is not parked aborts it with CORES; the power manager is always asked. A refusal aborts with
REFUSED, a delay is recorded, and the last acceptance is the commit point. -/
def Obligations.ModeEntry : Prop :=
  ((∀ (i : Init) (data : Word) (s : State), Admits i 0x400F0000 .store s →
     let target := bitsOf data 0 3
     let s1 := fset pwrB Reg.PWR_MODE.TARGET target s
     (bitsOf data 16 16 ≠ 0x5057 →
       exec (.pwrModeWrite i data) s = .next (acknowledge (pwrErr Reg.PWR_ERR.CMD s))) ∧
     (bitsOf data 16 16 = 0x5057 → 5 ≤ target →
       exec (.pwrModeWrite i data) s = .next (acknowledge (pwrErr Reg.PWR_ERR.RANGE s))) ∧
     (bitsOf data 16 16 = 0x5057 → 1 ≤ target → target < 5 → phase s = 0 → Registers.wf s = true →
       ∃ t, exec (.pwrModeWrite i data) s = .next t ∧ phase t = 1 ∧ t.pow.target = target ∧
         fget pwrB Reg.PWR_MODE.TARGET t = target ∧ t.mem = s.mem) ∧
     (bitsOf data 16 16 = 0x5057 → target = 0 → phase s = 0 → exec (.pwrModeWrite i data) s = .next (acknowledge s1)) ∧
     (bitsOf data 16 16 = 0x5057 → target = 0 → phase s = 1 ∨ phase s = 2 → Registers.wf s = true →
       ∃ t, exec (.pwrModeWrite i data) s = .next t ∧ phase t = 0 ∧ fget pwrB Reg.PWR_STAT.ABORT_WHY t = 5 ∧
         fis pwrB Reg.PWR_NOTE.ENTRY_ABORT t = true) ∧
     (bitsOf data 16 16 = 0x5057 → target < 5 → 3 ≤ phase s →
       exec (.pwrModeWrite i data) s = .next (acknowledge s1))) ∧
   (∀ (n : BitVec 1) (data : Word) (s : State), Admits (.linkCore n) 0x400F001C .store s →
     let v := bitsOf data 0 2
     let kept := powPut (if n = 0 then { s.pow with lcAns0 := v } else { s.pow with lcAns1 := v }) s
     (bitsOf data 16 16 ≠ 0x4C41 ∨ v = 0 → exec (.pwrLcackWrite (.linkCore n) data) s = .next (acknowledge s)) ∧
     (bitsOf data 16 16 = 0x4C41 → v ≠ 0 → v = 1 ∨ phase s ≠ 2 →
       exec (.pwrLcackWrite (.linkCore n) data) s = .next (acknowledge kept)) ∧
     (bitsOf data 16 16 = 0x4C41 → v = 3 → phase s = 2 → s.pow.asked.contains (8 + n.toNat) = true →
       hsGet (8 + n.toNat) s ≠ 1 → Registers.wf s = true →
       ∃ t, exec (.pwrLcackWrite (.linkCore n) data) s = .next t ∧ phase t = 0 ∧
         fget pwrB Reg.PWR_STAT.ABORT_WHY t = 1 ∧ hsGet (8 + n.toNat) t = 3)) ∧
   (∀ s : State,
     (phase s ≠ 2 ∨ (∀ p ∈ s.pow.asked, hsGet p s = 1) → exec .handshakeTimeout s = .next s) ∧
     (phase s = 2 → (∃ p ∈ s.pow.asked, hsGet p s ≠ 1) → exec .handshakeTimeout s = .next (entryAbort 2 s))) ∧
   (∀ (why : Nat) (s : State), why < 16 → Registers.wf s = true →
     let t := entryAbort why s
     phase t = 0 ∧ fget pwrB Reg.PWR_STAT.ABORT_WHY t = why ∧ fis pwrB Reg.PWR_NOTE.ENTRY_ABORT t = true ∧
     t.pow.asked = [] ∧ t.pow.lcAns0 = 0 ∧ t.pow.lcAns1 = 0 ∧ t.mem = s.mem)) ∧
  ((∀ s : State,
     (phase s ≠ 1 ∨ (claimable 0 s).isSome = true → exec .entryWfi s = .next s) ∧
     (phase s = 1 → claimable 0 s = none → Registers.wf s = true →
       (∃ c < 4, powersOff s.pow.target (6 + c) s = true ∧ fis (coreReg c) Reg.LEDG_CORE.PARKED s = false) →
       ∃ t, exec .entryWfi s = .next t ∧ phase t = 0 ∧ fget pwrB Reg.PWR_STAT.ABORT_WHY t = 4) ∧
     (phase s = 1 → claimable 0 s = none → Registers.wf s = true → partsAsked s.pow.target s = [11] →
       (∀ c < 4, powersOff s.pow.target (6 + c) s = true → fis (coreReg c) Reg.LEDG_CORE.PARKED s = true) →
       (fis pwrB Reg.PWR_VSTAT.PEND s = true → ∃ t, exec .entryWfi s = .next t ∧ phase t = 2 ∧ hsGet 11 t = 2 ∧
         (coreGet 0 t).waiting = true) ∧
       (fis pwrB Reg.PWR_VSTAT.PEND s = false → ∃ t, exec .entryWfi s = .next t ∧ phase t = 3 ∧
         hsGet 11 t = 1))) ∧
   (∀ (p : Fin 12) (s : State),
     let k := p.val
     (phase s ≠ 2 ∨ s.pow.asked.contains k = false ∨ hsGet k s = 1 → exec (.participantAnswer p) s = .next s) ∧
     (phase s = 2 → s.pow.asked.contains k = true → hsGet k s ≠ 1 → 2 ≤ k → k ≠ 8 → k ≠ 9 →
       (partAnswer k s = 3 → exec (.participantAnswer p) s = .next (entryAbort 1 (hsAns k 3 s))) ∧
       (partAnswer k s = 2 → exec (.participantAnswer p) s = .next (hsAns k 2 s)) ∧
       (partAnswer k s = 1 → k ≠ 4 → (∃ q ∈ s.pow.asked, q ≤ 11 ∧ q ≠ k ∧ hsGet q s ≠ 1) →
         exec (.participantAnswer p) s = .next (hsAns k 1 s)) ∧
       (partAnswer k s = 1 → k ≠ 4 → (∀ q ∈ s.pow.asked, q ≤ 11 ∧ (q ≠ k → hsGet q s = 1)) →
         exec (.participantAnswer p) s = .next (entryCommit (hsAns k 1 s))))) ∧
   (∀ s : State,
     (fis (feB .a) Reg.FE_STAT.ARMED s = true → partAnswer 0 s = 3) ∧
     (fis (feB .b) Reg.FE_STAT.ARMED s = true → partAnswer 1 s = 3) ∧
     (partAnswer 2 s = if (feGet .a s).residence then 2 else 1) ∧
     (partAnswer 3 s = if (feGet .b s).residence then 2 else 1) ∧
     (partAnswer 4 s = if s.plan.work = .idle then 1 else 3) ∧
     (∀ k < 2, partAnswer (5 + k) s = if bankState k s = 0 then 1 else if bankState k s = 1 then 2 else 3) ∧
     (jobsArmed s = true → partAnswer 7 s = 3) ∧
     (∀ n < 2, lcAns n s = 3 → partAnswer (8 + n) s = 3) ∧
     (∀ n < 2, lcAns n s = 1 → (coreGet (1 + n) s).waiting = true → partAnswer (8 + n) s = 1) ∧
     (updState s = 0 ∨ updState s = 5 → partAnswer 10 s = 1) ∧
     (updState s = 1 ∨ updState s = 2 ∨ updState s = 3 ∨ updState s = 4 → partAnswer 10 s = 3) ∧
     (partAnswer 11 s = if fis pwrB Reg.PWR_VSTAT.PEND s then 2 else 1)) ∧
   (∀ (target : Nat) (s : State), 11 ∈ partsAsked target s))

/-- Modes and wakes (R581, R584, R587, R588, R595–R597). A mode is reached once after its commit point: DOZE and LULL with their
PHASE, NIGHT and SHUTTER with the hall off. A source that is not armed, and every source in RUN, does nothing. Before the commit
point a wake of the target mode aborts the entry with WAKE, and after it is latched. A wake that ends DOZE or LULL makes
PHASE EXITING, and RUN follows with LAST_MODE and the powered domains back; one that ends NIGHT or SHUTTER starts the hall.
Its record carries source and mode. -/
def Obligations.ModesAndWakes : Prop :=
  (∀ (nt air : Word64) (s : State),
    (phase s ≠ 3 ∨ s.pow.hall ≠ .run ∨ s.pow.mode ≠ 0 → exec (.modeReached nt air) s = .next s) ∧
    (phase s = 3 → s.pow.hall = .run → s.pow.mode = 0 → s.pow.latched = none → Registers.wf s = true →
      (s.pow.target = 1 ∨ s.pow.target = 2 → ∃ t, exec (.modeReached nt air) s = .next t ∧
        t.pow.mode = s.pow.target ∧ phase t = s.pow.target + 3 ∧ t.pow.hall = .run) ∧
      (s.pow.target = 3 ∨ s.pow.target = 4 → ∃ t, exec (.modeReached nt air) s = .next t ∧
        t.pow.mode = s.pow.target ∧ t.pow.hall = .off))) ∧
  (∀ (src : BitVec 3) (event : BitVec 10) (s : State),
    let n := src.toNat
    let e := event.toNat
    (wakeArmed n e s = false → exec (.wake src event) s = .next s) ∧
    (s.pow.hall = .run → s.pow.mode = 0 → phase s = 0 → exec (.wake src event) s = .next s) ∧
    (wakeArmed n e s = true → s.pow.hall = .run → s.pow.mode = 0 → wakeEnds n e s.pow.target s = true →
      (phase s = 1 ∨ phase s = 2 → exec (.wake src event) s = .next (entryAbort 3 s)) ∧
      (phase s = 3 → s.pow.latched = none → exec (.wake src event) s =
        .next (powPut { s.pow with latched := some (n, e) } s))) ∧
    (wakeArmed n e s = true → s.pow.hall = .run → s.pow.mode = 1 ∨ s.pow.mode = 2 → phase s ≠ 6 →
      wakeEnds n e s.pow.mode s = true → Registers.wf s = true →
      ∃ t, exec (.wake src event) s = .next t ∧ phase t = 6 ∧ fget pmbB Reg.WAKE_LAST_A.SRC t = n ∧
        fget pmbB Reg.WAKE_LAST_A.MODE t = s.pow.mode ∧ fis pmbB Reg.WAKE_LAST_A.ENTRY t = false ∧
        rd 0x70030018 t = rd 0x70000000 s ∧ rd 0x70030040 t = rd 0x70030014 t ∧ t.mem = s.mem) ∧
    (wakeArmed n e s = true → s.pow.hall = .off → s.pow.mode = 3 ∨ s.pow.mode = 4 →
      wakeEnds n e s.pow.mode s = true → Registers.wf s = true →
      ∃ t, exec (.wake src event) s = .next t ∧ t.pow.hall = .waitAck ∧ t.pow.starts = 1 ∧
        t.pow.pmb = some (1, 0x80) ∧ fget pmbB Reg.RST_STAT.CAUSE t = 9 ∧
        fget pmbB Reg.WAKE_LAST_A.SRC t = n ∧ fget pmbB Reg.WAKE_LAST_A.MODE t = s.pow.mode)) ∧
  (∀ (g : Nat) (s : State),
    (phase s ≠ 6 → exec (.modeExit g) s = .next s) ∧
    (phase s = 6 → s.pow.mode < 5 → Registers.wf s = true → ∃ t, exec (.modeExit g) s = .next t ∧ phase t = 0 ∧
      t.pow.mode = 0 ∧ fget pwrB Reg.PWR_STAT.LAST_MODE t = s.pow.mode ∧ fis pwrB Reg.PWR_NOTE.WAKE t = true ∧
      ∀ d < 42, s.pow.domsWere.testBit d = true → pdOn d t = true)) ∧
  (∀ (e mode : Nat) (s : State), (wakeEnds 1 e mode s = (mode == 3)) ∧ (wakeEnds 6 e mode s = (mode == 3)) ∧
    (wakeEnds 7 e 1 s = true) ∧ (wakeEnds 7 e 2 s = decide (fget pwrB Reg.PWR_CFG.LULL_PRIO s ≤ evtPrio e s)) ∧
    (∀ src, src = 2 ∨ src = 3 ∨ src = 4 ∨ src = 5 → wakeEnds src e mode s = decide (1 ≤ mode ∧ mode ≤ 4)))

/-- The regulator (R589, R591–R594). An acknowledgement makes NOW and LOW the code requested, with VSTEP; a failure sets
VFAIL and HOLD and counts, and ends the raise in progress; neither does anything while nothing is outstanding. At a hall start
an acknowledgement leads to the release, and a failure writes a FAIL record and OPERATION off, with another attempt until the
third. One step down is due after DOWN_HOLD under R593's conditions alone. PMB_ALERT_N low leaves STATUS_WORD and ALERT.

PWR_GATE (R580, R600). A gate for an SRAM bank in which a ledger window lies sets RANGE and changes nothing else; any other
write takes effect at once, on an application core only while it is parked. -/
def Obligations.CoreSupplyAndGates : Prop :=
  ((∀ s : State,
     (s.pow.hall = .waitAck → exec .vcoreAck s = .next (hallPut .acked s)) ∧
     (s.pow.hall ≠ .waitAck → fis pwrB Reg.PWR_VSTAT.PEND s = false → exec .vcoreAck s = .next s) ∧
     (s.pow.hall ≠ .waitAck → fis pwrB Reg.PWR_VSTAT.PEND s = true →
       exec .vcoreAck s = .next (vManage (raiseStep (vAcknowledge s)))) ∧
     (Registers.wf s = true → let t := vAcknowledge s
       vNow t = fget pwrB Reg.PWR_VSTAT.REQ s ∧ fget pwrB Reg.PWR_VSTAT.LOW t = fget pwrB Reg.PWR_VSTAT.REQ s ∧
       fis pwrB Reg.PWR_VSTAT.PEND t = false ∧ fis pwrB Reg.PWR_NOTE.VSTEP t = true ∧ t.mem = s.mem)) ∧
   (∀ (f : RegFail) (s : State),
     (s.pow.hall = .waitAck → exec (.vcoreFail f) s = .next (startFailed (regFail f s))) ∧
     (s.pow.hall ≠ .waitAck → fis pwrB Reg.PWR_VSTAT.PEND s = false → exec (.vcoreFail f) s = .next s) ∧
     (s.pow.hall ≠ .waitAck → fis pwrB Reg.PWR_VSTAT.PEND s = true →
       exec (.vcoreFail f) s = .next (raiseStep (vFailed (regFail f s)))) ∧
     (Registers.wf s = true → let t := vFailed s
       fis pwrB Reg.PWR_ERR.VFAIL t = true ∧ fis pwrB Reg.PWR_VSTAT.HOLD t = true ∧
       fis pwrB Reg.PWR_VSTAT.PEND t = false ∧ vNow t = vNow s ∧ vBlocked t = true ∧
       fget pmbB Reg.PMB_CNT.FAIL t = min 255 (fget pmbB Reg.PMB_CNT.FAIL s + 1) ∧ t.pow.goal = none) ∧
     (Registers.wf s = true → (s.pow.waking.getD (0, 0, 0)).1 < 16 → (s.pow.waking.getD (0, 0, 0)).2.2 < 8 →
       let t := startFailed s
       t.pow.hall = (if s.pow.starts < 3 then Hall.retry else Hall.off) ∧ t.pow.pmb = some (1, 0) ∧
       fis pmbB Reg.WAKE_LAST_A.FAIL t = true ∧ t.mem = s.mem)) ∧
   (∀ (m : Option (BitVec 8)) (s : State),
     (s.pow.hall ≠ .retry → exec (.hallStartRetry m) s = .next s) ∧
     (s.pow.hall = .retry → s.pow.porReset = false ∨ fis pmbB Reg.PMB_STAT.VALID s = true →
       exec (.hallStartRetry m) s = .next (startAttempt s)) ∧
     (s.pow.hall = .retry → s.pow.porReset = true → fis pmbB Reg.PMB_STAT.VALID s = false →
       (m = none → exec (.hallStartRetry m) s =
         .next (startFailed { s with pow := { s.pow with starts := s.pow.starts + 1 } })) ∧
       (∀ v, m = some v → v.toNat / 32 ≠ 0 ∨ v.toNat % 32 < 16 ∨ 25 < v.toNat % 32 →
         exec (.hallStartRetry m) s = .next (startAttempt s)) ∧
       (∀ v, m = some v → v.toNat / 32 = 0 → 16 ≤ v.toNat % 32 → v.toNat % 32 ≤ 25 → Registers.wf s = true →
         ∃ t, exec (.hallStartRetry m) s = .next t ∧ t.pow.hall = .waitAck ∧ t.pow.starts = s.pow.starts + 1 ∧
           fis pmbB Reg.PMB_STAT.VALID t = true ∧ fget pmbB Reg.PMB_STAT.VOUT_N t = v.toNat % 32))) ∧
   (∀ s : State,
     let quiet : Prop := ∀ n < 256, laneState n s < 2 ∨ (laneGet n s).fill ≤ 16
     (fis pwrB Reg.PWR_VCFG.AUTO s = true → s.pow.goal = none → vFloor s < vNow s → quiet →
       exec .vcoreDownHold s = .next (vRequest (vNow s - 1) s)) ∧
     (fis pwrB Reg.PWR_VCFG.AUTO s = false ∨ vNow s ≤ vFloor s ∨ ¬ quiet → exec .vcoreDownHold s = .next s) ∧
     (∀ code < 32, (vBlocked s = true → vRequest code s = s) ∧
       (vBlocked s = false → Registers.wf s = true → let t := vRequest code s
         fis pwrB Reg.PWR_VSTAT.PEND t = true ∧ fget pwrB Reg.PWR_VSTAT.REQ t = code ∧ vNow t = vNow s ∧
         fget pwrB Reg.PWR_VSTAT.LOW t = min (vNow s) code ∧ t.pow.pmb = some (0x21, voutOf code s)))) ∧
   (∀ (status : BitVec 16) (vout : BitVec 8) (s : State), Registers.wf s = true →
     ∃ t, exec (.pmbAlert status vout) s = .next t ∧ fget pmbB Reg.PMB_LAST.STATUS_WORD t = status.toNat ∧
       (status.getLsbD 15 = true → fget pmbB Reg.PMB_LAST.STATUS_VOUT t = vout.toNat) ∧
       (status.getLsbD 15 = false → fget pmbB Reg.PMB_LAST.STATUS_VOUT t = fget pmbB Reg.PMB_LAST.STATUS_VOUT s) ∧
       (hallUp s = true → fis pwrB Reg.PWR_NOTE.ALERT t = true) ∧ t.mem = s.mem)) ∧
  (∀ (i : Init) (data : Word) (s : State), Admits i 0x400F0010 .store s →
     ((∃ k < 16, bitOf data (4 + k) = true ∧ windowInBank k s = true) →
       exec (.pwrGateWrite i data) s = .next (acknowledge (pwrErr Reg.PWR_ERR.RANGE s))) ∧
     ((∀ k < 16, bitOf data (4 + k) = true → windowInBank k s = false) → Registers.wf s = true →
       ∃ t, exec (.pwrGateWrite i data) s = .next t ∧ rd 0x400F0010 t = data &&& 0x01FFFFFF#32 ∧
         (∀ k < 16, pdOn (10 + k) t = !bitOf data (4 + k)) ∧ (∀ k < 5, pdOn (75 + k) t = !bitOf data (20 + k)) ∧
         (∀ c < 4, fis (coreReg c) Reg.LEDG_CORE.PARKED s = true → pdOn (6 + c) t = !bitOf data c) ∧
         (∀ c < 4, fis (coreReg c) Reg.LEDG_CORE.PARKED s = false → bitOf data c = true → pdOn (6 + c) t = pdOn (6 + c) s)))

/-- Measurements (R603–R606, R608–R611). A channel that is off takes none. A refresh leaves its RMS and, in RUN, begins and ends
SAG and SWELL at their thresholds with HYST on the way back; a record is written only where a condition changes. A fast outage
begins OUT with its record and OUTAGE; a DC channel makes no crossing, and FREQ outside 42.5–69 Hz reads 0. An over-range sample
sets OVR and disturbs the neighbours until 64 samples after the last one. A read of SUP_REC0 pops the oldest record. -/
def Obligations.SupplyWatch : Prop :=
  (∀ (chan : BitVec 2) (nt : Word64) (freq : BitVec 24) (s : State),
    let c := chan.toNat
    (supOn c s = false ∨ supDc c s = true → exec (.supZeroCrossing chan nt freq) s = .next s) ∧
    (supOn c s = true → supDc c s = false → Registers.wf s = true →
      ∃ t, exec (.supZeroCrossing chan nt freq) s = .next t ∧ fis (supP c) Reg.SUP_STAT.ZC_V t = true ∧
        rd64 (supP c + 0x18) t = nt ∧ fget (supP c) Reg.SUP_FREQ.FREQ t =
          (if 42500 ≤ freq.toNat ∧ freq.toNat ≤ 69000 then freq.toNat else 0) ∧ t.sup = s.sup)) ∧
  (∀ (chan : BitVec 2) (rms : BitVec 24) (nt : Word64) (sample : Nat) (above dist lost : Bool) (s : State),
    let c := chan.toNat
    let p := supP c
    let v : Int := signedOf 24 rms.toNat * 200
    let nom : Int := (fget p Reg.SUP_NOM.NOM s : Nat)
    let sag : Int := (fget p Reg.SUP_TH.SAG s : Nat)
    let swell : Int := (fget p Reg.SUP_TH.SWELL s : Nat)
    let out : Int := (fget p Reg.SUP_TH.OUT s : Nat)
    let hyst : Int := (fget p Reg.SUP_TH.HYST s : Nat)
    (supOn c s = false → exec (.supRmsRefresh chan rms nt sample above dist lost) s = .next s) ∧
    (supOn c s = true → Registers.wf s = true → s.pow.hall = .run → s.pow.mode = 0 → phase s = 0 →
      ∃ t, exec (.supRmsRefresh chan rms nt sample above dist lost) s = .next t ∧
        fget p Reg.SUP_RMS.RMS t = rms.toNat ∧
        fis p Reg.SUP_STAT.SAG t =
          (if fis p Reg.SUP_STAT.SAG s then decide (v < (sag + hyst) * nom) else decide (v < sag * nom)) ∧
        fis p Reg.SUP_STAT.SWELL t =
          (if fis p Reg.SUP_STAT.SWELL s then decide ((swell - hyst) * nom < v) else decide (swell * nom < v)) ∧
        (fis p Reg.SUP_STAT.OUT s = false → fis p Reg.SUP_STAT.OUT t = decide (v < out * nom)) ∧
        (fis p Reg.SUP_STAT.OUT s = true → v < (out + hyst) * nom → fis p Reg.SUP_STAT.OUT t = true) ∧
        (fis p Reg.SUP_STAT.SAG t = fis p Reg.SUP_STAT.SAG s → fis p Reg.SUP_STAT.SWELL t = fis p Reg.SUP_STAT.SWELL s →
          fis p Reg.SUP_STAT.OUT t = fis p Reg.SUP_STAT.OUT s → t.sup.recs = s.sup.recs))) ∧
  (∀ (chan : BitVec 2) (nt : Word64) (flag : Bool) (s : State),
    let c := chan.toNat
    let p := supP c
    (supOn c s = false ∨ fis p Reg.SUP_CFG.FAST_EN s = false ∨ fis p Reg.SUP_STAT.OUT s = true →
      exec (.supFastOutage chan nt flag) s = .next s) ∧
    (supOn c s = true → fis p Reg.SUP_CFG.FAST_EN s = true → fis p Reg.SUP_STAT.OUT s = false → Registers.wf s = true →
      ∃ t, exec (.supFastOutage chan nt flag) s = .next t ∧ fis p Reg.SUP_STAT.OUT t = true ∧
        fis supB ⟨0x24, 2, 1⟩ t = true ∧
        (s.sup.recs.length < 32 → ∃ r, t.sup.recs = s.sup.recs ++ [r] ∧ r.kind = 4 ∧ r.ch = c ∧ r.nt = nt.toNat) ∧
        (32 ≤ s.sup.recs.length → t.sup.recs = s.sup.recs))) ∧
  (∀ (chan : BitVec 2) (negative : Bool) (s : State),
    let c := chan.toNat
    let p := supP c
    (supOn c s = false → exec (.supOverRange chan negative) s = .next s) ∧
    (supOn c s = true → Registers.wf s = true → ∃ t, exec (.supOverRange chan negative) s = .next t ∧
      fget p Reg.SUP_SAMPLE.SAMPLE t = (if negative then 0x800000 else 0x7FFFFF) ∧
      fis p Reg.SUP_SAMPLE.OVR t = true ∧ fis p Reg.SUP_STAT.OVR t = true ∧ fis supB ⟨0x24, 4, 1⟩ t = true ∧
      t.sup.overNear.contains c = true ∧ ∀ k < 4, k + 1 = c ∨ k = c + 1 → fis (supP k) Reg.SUP_SAMPLE.DIST t = true) ∧
    (s.sup.overNear.contains c = false → exec (.supDisturbEnd chan) s = .next s) ∧
    (s.sup.overNear.contains c = true → Registers.wf s = true → ∃ t, exec (.supDisturbEnd chan) s = .next t ∧
      fis p Reg.SUP_SAMPLE.OVR t = false ∧ t.sup.overNear.contains c = false ∧
      ∀ k < 4, fis (supP k) Reg.SUP_SAMPLE.DIST t =
        ((decide (1 ≤ k) && t.sup.overNear.contains (k - 1)) || (decide (k < 3) && t.sup.overNear.contains (k + 1))))) ∧
  (∀ s : State, (pdOn 74 s = false → exec .supOverrun s = .next s) ∧
    (pdOn 74 s = true → Registers.wf s = true → ∃ t, exec .supOverrun s = .next t ∧
      fis supB Reg.SUP_ERR.OVERRUN t = true ∧ t.sup = s.sup)) ∧
  (∀ (i : Init) (s : State), Admits i 0x40100010 .load s → s.sup.recs.length ≤ 32 → Registers.wf s = true →
    ∃ t, exec (.supRecordPop i) s = .next t ∧ t.sup.recs = s.sup.recs.drop 1 ∧
      fget supB Reg.SUP_RECST.COUNT t = s.sup.recs.length - 1 ∧
      (s.sup.recs = [] → t.bus.resp = .data 0) ∧
      (∀ r l, s.sup.recs = r :: l → rd 0x40100014 t = BitVec.ofNat 32 r.dur ∧
        rd64 0x40100018 t = BitVec.ofNat 64 r.nt))

/-- The stored frame (R338, R613, R622). A LAST_GASP job that reaches its preparation while a last gasp runs ends with
AIR_CONFLICT; one whose packet fails its CRC, or whose key slot is not live or is spent, ends with its result; an unsecured one whose
octets agree is stored, FRAME is STORED, and the settings record holds what R613 names.

A last gasp's attempts (R614, R617–R620). The checks of an attempt end the last gasp with LOW_ENERGY, TX_BLOCK_REF or LIC_DUTY,
the first that fails; an attempt that passes them is on air, with LG_T. A channel that is busy four times ends it with
CCA_BUSY. A cut mutes the frame; its end charges the duty account and makes FRAME USED when anything was radiated, and leads to
CUT, to the acknowledgement window, to another attempt or to OK. Energy in the window sets ACK_E and ends it. An end clears
SEQ and sets LG_DONE. -/
def Obligations.LastGasp : Prop :=
  ((∀ (slot : BitVec 2) (agrees : Bool) (s : State),
     let k := slot.toNat
     (jobGet 0 k s = none → exec (.lastGaspStore slot agrees) s = .next s) ∧
     (∀ j p, jobGet 0 k s = some j → ((queGet 256 s).packets.find? fun q => some q.id == j.pkt) = some p →
       let plain := packetOctets (quePacketWords 256 p s)
       let crcOk := crc32c plain = packetCrc (quePacketWords 256 p s)
       (j.kind ≠ 2 ∨ jobState 0 k s ≠ 1 → exec (.lastGaspStore slot agrees) s = .next s) ∧
       (j.kind = 2 → jobState 0 k s = 1 →
         (s.sup.gasp.isSome = true → exec (.lastGaspStore slot agrees) s = .next (jobDone 0 k 31 s)) ∧
         (s.sup.gasp = none →
           (¬ crcOk → exec (.lastGaspStore slot agrees) s = .next (jobDone 0 k 29 s)) ∧
           (crcOk → j.sec = true → slotLive j.keySlot s = false →
             exec (.lastGaspStore slot agrees) s = .next (jobDone 0 k 27 s)) ∧
           (crcOk → j.sec = true → slotLive j.keySlot s = true → slotSpent j.keySlot s = true →
             exec (.lastGaspStore slot agrees) s = .next (jobDone 0 k 28 s)) ∧
           (crcOk → j.sec = false → agrees = false →
             exec (.lastGaspStore slot agrees) s = .next (jobDone 0 k 29 s)) ∧
           (crcOk → j.sec = false → agrees = true → Registers.wf s = true →
             ∃ t, exec (.lastGaspStore slot agrees) s = .next t ∧ fget pmbB Reg.LG_STAT.FRAME t = 1 ∧
               (t.link.gasp.map fun g => g.octets) = some (plain ++ macFcs j.fcs plain) ∧
               (t.link.gasp.map fun g => g.word 8) = some (fget (feB .a) Reg.FE_CTRL.ARR s) ∧
               (t.link.gasp.map fun g => g.word 12) = some (fget (feB .a) Reg.FE_PA.MAX_QDBM s) ∧
               (t.link.gasp.map fun g => g.word 0) = some (j.centre s).toNat ∧
               jobState 0 k t = 3 ∧ fget (slotRegs 0 k) Reg.JOB_RES.CODE t = 12))))) ∧
   (∀ (k code : Nat) (j : Job) (s : State), k < 4 → code < 32 → jobGet 0 k s = some j → Registers.wf s = true →
     jobState 0 k (jobDone 0 k code s) = 3 ∧ fget (slotRegs 0 k) Reg.JOB_RES.CODE (jobDone 0 k code s) = code)) ∧
  ((∀ (nt tick : Word64) (vhold : BitVec 11) (temp : BitVec 16) (vpa : BitVec 12) (s : State),
     let c := Instr.lgAttempt nt tick vhold temp vpa
     let s1 := fset pmbB Reg.LG_STAT.VH_MV vhold.toNat s
     (s.sup.gasp = none ∨ s.link.gasp = none → exec c s = .next s) ∧
     (∀ r g, s.sup.gasp = some r → s.link.gasp = some g →
       let due := r.stage = .clear ∨ (r.stage = .waiting ∧ (g.cca s).1 = 0)
       let lowEnergy := vhold.toNat < fget pmbB Reg.LG_VH.VH_TX s1
       let blocked := gaspRefBad g s1 = true
       let spent := dutyOk (licGet (g.word 16) 0x10 1 s1) (airUs g.frame) none s1 = false
       (¬ due ∨ (airGet .a s).isSome = true → exec c s = .next s) ∧
       (due → airGet .a s = none →
         (lowEnergy → exec c s = .next (gaspEnd 2 s1)) ∧
         (¬ lowEnergy → blocked → exec c s = .next (gaspEnd 3 s1)) ∧
         (¬ lowEnergy → ¬ blocked → spent → exec c s = .next (gaspEnd 4 s1)) ∧
         (¬ lowEnergy → ¬ blocked → ¬ spent → Registers.wf s = true →
           ∃ t, exec c s = .next t ∧ (t.sup.gasp.map fun v => v.stage) = some (.onAir false) ∧
             rd64 (pmbB + 0x110) t = nt ∧ (feGet .a t).onAir = true ∧ (feGet .a t).trans.isSome = true ∧
             t.link.gasp = some g ∧ t.mem = s.mem)))) ∧
   (∀ (level : BitVec 16) (s : State),
     (s.sup.gasp = none ∨ s.link.gasp = none → exec (.lgCca level) s = .next s ∧ exec (.lgAckWindow level) s = .next s) ∧
     (∀ r g, s.sup.gasp = some r → s.link.gasp = some g →
       (r.stage ≠ .waiting ∨ (g.cca s).1 = 0 → exec (.lgCca level) s = .next s) ∧
       (r.stage = .waiting → (g.cca s).1 ≠ 0 →
         (level.toInt ≤ 4 * (g.cca s).2.1 →
           exec (.lgCca level) s = .next (supPut { s.sup with gasp := some { r with stage := .clear } } s)) ∧
         (4 * (g.cca s).2.1 < level.toInt → 3 ≤ r.busy → exec (.lgCca level) s = .next (gaspEnd 5 s)) ∧
         (4 * (g.cca s).2.1 < level.toInt → r.busy < 3 →
           exec (.lgCca level) s = .next (supPut { s.sup with gasp := some { r with busy := r.busy + 1 } } s))) ∧
       (r.stage ≠ .ackWindow → exec (.lgAckWindow level) s = .next s) ∧
       (r.stage = .ackWindow → 4 * signedOf 8 (g.word 6) < level.toInt → Registers.wf s = true →
         ∃ t, exec (.lgAckWindow level) s = .next t ∧ fis pmbB Reg.LG_STAT.ACK_E t = true ∧ t.sup.gasp = none ∧
           fget pmbB Reg.LG_STAT.RESULT t = 0) ∧
       (r.stage = .ackWindow → level.toInt ≤ 4 * signedOf 8 (g.word 6) → fget pmbB Reg.LG_CFG.REPEAT s < r.sent →
         exec (.lgAckWindow level) s = .next (gaspEnd 0 s)))) ∧
   (∀ s : State, ((∀ r, s.sup.gasp = some r → r.stage ≠ .onAir false) → exec .lgCut s = .next s) ∧
     (∀ r, s.sup.gasp = some r → r.stage = .onAir false → Registers.wf s = true → ∃ t, exec .lgCut s = .next t ∧
       (feGet .a t).muted = true ∧ t.sup.gasp = some { r with stage := .onAir true } ∧
       fget pmbB Reg.LG_STAT.FRAME t = 2)) ∧
   (∀ (tick radiated : Word64) (temp : BitVec 16) (s : State),
     let c := Instr.lgFrameEnd tick radiated temp
     ((∀ r, s.sup.gasp = some r → ∀ b, r.stage ≠ .onAir b) → exec c s = .next s) ∧
     (∀ r g b, s.sup.gasp = some r → s.link.gasp = some g → r.stage = .onAir b → radiated ≠ 0 → r.sent < 4 →
       Registers.wf s = true →
       ∃ t, exec c s = .next t ∧ fget pmbB Reg.LG_STAT.FRAME t = 2 ∧ fget pmbB Reg.LG_STAT.SENT t = r.sent + 1 ∧
         (r.tampered = true → t.sup.gasp = none ∧ fget pmbB Reg.LG_STAT.RESULT t = 7) ∧
         (r.tampered = false → b = true → t.sup.gasp = none ∧ fget pmbB Reg.LG_STAT.RESULT t = 6) ∧
         (r.tampered = false → b = false → g.ackReq = true →
           t.sup.gasp = some { r with sent := r.sent + 1, stage := .ackWindow } ∧
           fget (feB .a) Reg.FE_OWNER.SEQ t = 2) ∧
         (r.tampered = false → b = false → g.ackReq = false → r.sent < fget pmbB Reg.LG_CFG.REPEAT s →
           t.sup.gasp = some { r with sent := r.sent + 1, stage := .waiting, busy := 0 } ∧
           fget (feB .a) Reg.FE_OWNER.SEQ t = 1) ∧
         (r.tampered = false → b = false → g.ackReq = false → fget pmbB Reg.LG_CFG.REPEAT s ≤ r.sent →
           t.sup.gasp = none ∧ fget pmbB Reg.LG_STAT.RESULT t = 0))) ∧
   (∀ (res : Nat) (r : GaspRun) (s : State), s.sup.gasp = some r → res < 8 → Registers.wf s = true →
     let t := gaspEnd res s
     t.sup.gasp = none ∧ fget pmbB Reg.LG_STAT.RESULT t = res ∧ fget (feB .a) Reg.FE_OWNER.SEQ t = 0 ∧
     fis supB ⟨0x24, 7, 1⟩ t = true ∧ t.link.gasp = s.link.gasp ∧ t.mem = s.mem))

/-- WRITE_FRAME and the session (R627–R632). The checks decide in order: EN 0 ignores the frame, and NAK_FMT, NAK_CRC, NAK_FMT, NAK_SESS,
NAK_SEQ and NAK_BUSY leave everything but RESULT as it was. ACK opens the session, stores the message or moves EXPECT on alone.
Whatever opcode a frame comes with, its octets decide. An expiry tears the live session down with LOST. Reads return
the oldest waiting frame, what the last read returned, and the status block.

The house's side of the host port (R633, R634, R650). A read of HOST_IN_HDR takes the oldest message, or answers V = 0; reads
of HOST_IN_DATA give its octets four at a time and then 0. Octets gathered by HOST_OUT_DATA leave as a frame of the live
session at a COMMIT that passes; STALE, LEN and FULL refuse it in this order, and every COMMIT or DISCARD empties the building
buffer, but for the two together, which is refused with RANGE. -/
def Obligations.HostPort : Prop :=
  ((∀ (l : List Byte) (s : State), pdOn 75 s = true →
     let type := frameField l 1 1
     let session := frameField l 2 2
     let seq := frameField l 4 2
     let len := frameField l 6 2
     let live := hostSession s
     let expect := fget hostB Reg.HOST_STAT.EXPECT s
     let on := fis hostB Reg.HOST_CTRL.EN s = true
     let shaped := 12 ≤ l.length ∧ l.length ≤ 512 ∧ frameField l 0 1 = 0xA5 ∧ len ≤ 500 ∧ l.length = 12 + len
     let crc := crc32c (l.take (8 + len)) = frameField l (8 + len) 4
     let typed := (type = 1 ∧ len = 0) ∨ type = 2 ∨ (type = 3 ∧ len = 0)
     let named := (type = 1 ∧ session ≠ 0 ∧ session ≠ live) ∨ (type ≠ 1 ∧ live ≠ 0 ∧ session = live)
     let inOrder := type = 1 ∨ seq = expect
     let held := type ≠ 2 ∨ (storeOctets len ≤ hostFree s ∧ s.host.msgs.length < 8)
     let nak (r : Nat) : State := { s with host := { s.host with result := r } }
     ∀ c ∈ [Instr.hostResync l, .hostMsg l, .hostPing l],
       (¬ on → exec c s = .next s) ∧
       (on → ¬ shaped → exec c s = .next (nak 4)) ∧
       (on → shaped → ¬ crc → exec c s = .next (nak 3)) ∧
       (on → shaped → crc → ¬ typed → exec c s = .next (nak 4)) ∧
       (on → shaped → crc → typed → ¬ named → exec c s = .next (nak 5)) ∧
       (on → shaped → crc → typed → named → ¬ inOrder → exec c s = .next (nak 2)) ∧
       (on → shaped → crc → typed → named → inOrder → ¬ held → exec c s = .next (nak 6)) ∧
       (on → shaped → crc → typed → named → inOrder → held → Registers.wf s = true →
         ∃ t, exec c s = .next t ∧ t.host.result = 1 ∧
           fget hostB Reg.HOST_STAT.EXPECT t = (seq + 1) % 65536 ∧
           (type = 1 → hostSession t = session ∧ t.host.devSeq = 0 ∧ fis hostB Reg.HOST_NOTE.NEW t = true ∧
             (live ≠ 0 → t.host.msgs = [] ∧ t.host.frames = [] ∧ t.host.build = [] ∧ t.host.taken = s.host.taken ∧
               fis hostB Reg.HOST_NOTE.REPLACED t = true)) ∧
           (type = 2 → hostSession t = live ∧ t.host.frames = s.host.frames ∧
             t.host.msgs = s.host.msgs ++ [{ seq := seq, octets := (l.drop 8).take len }] ∧
             fis hostB Reg.HOST_NOTE.MSG t = true) ∧
           (type = 3 → hostSession t = live ∧ t.host.msgs = s.host.msgs ∧ t.host.frames = s.host.frames))) ∧
   (∀ s : State, (hostSession s = 0 → exec .hostSessionExpire s = .next s) ∧
     (hostSession s ≠ 0 → Registers.wf s = true → ∃ t, exec .hostSessionExpire s = .next t ∧ hostSession t = 0 ∧
       t.host.msgs = [] ∧ t.host.frames = [] ∧ t.host.build = [] ∧ t.host.taken = s.host.taken ∧
       fis hostB Reg.HOST_NOTE.LOST t = true)) ∧
   (∀ s : State, pdOn 75 s = true →
     (∀ f r, s.host.frames = f :: r → Registers.wf s = true → ∃ t, exec .readFrame s = .next t ∧ t.host.reply = f ∧
       t.host.frames = r ∧ t.host.last = some f ∧ (r = [] → fis hostB Reg.HOST_NOTE.SPACE t = true)) ∧
     (s.host.frames = [] → ∃ t, exec .readFrame s = .next t ∧ t.host.frames = [] ∧ t.host.reply.length = 12 ∧
       t.host.reply.take 2 = [0xA5, 0x80] ∧ t.host.last = some t.host.reply ∧ t.regs = s.regs) ∧
     (∀ f, s.host.last = some f → exec .reread s = .next { s with host := { s.host with reply := f } }) ∧
     (s.host.last = none → ∃ t, exec .reread s = .next t ∧ t.host.reply.take 2 = [0xA5, 0x80] ∧
       t.host.frames = s.host.frames ∧ t.host.last = none ∧ t.regs = s.regs) ∧
     let flags := 2 * ofBool (!s.host.frames.isEmpty) + 4 * ofBool (hostSession s != 0) + 8 * ofBool (s.pow.hall == .recovery)
     let status := [BitVec.ofNat 8 s.host.result, BitVec.ofNat 8 flags] ++ leBytes 2 (hostSession s) ++
       leBytes 2 (fget hostB Reg.HOST_STAT.EXPECT s) ++
       [BitVec.ofNat 8 s.host.frames.length, BitVec.ofNat 8 (hostFree s / 16)]
     exec .readStatus s = .next { s with host := { s.host with reply := status } }) ∧
   (∀ (l : List Byte) (s : State), pdOn 75 s = false → ∀ c ∈ [Instr.hostResync l, .hostMsg l, .hostPing l, .readFrame,
     .reread, .readStatus], exec c s = .next s)) ∧
  ((∀ (i : Init) (s : State), Admits i 0x4011000C .load s →
     (s.host.msgs = [] → exec (.hostInHdrRead i) s =
       .next (respondWord 0 { s with host := { s.host with taken := none } })) ∧
     (∀ m r, s.host.msgs = m :: r → exec (.hostInHdrRead i) s =
       .next (respondWord (BitVec.ofNat 32 (2 ^ 31 + m.octets.length * 2 ^ 16 + m.seq))
         { s with host := { s.host with msgs := r, taken := some (m.octets.length, m.octets) } }))) ∧
   (∀ (i : Init) (s : State), Admits i 0x40110010 .load s →
     (s.host.taken = none → exec (.hostInDataRead i) s = .next (respondWord 0 s)) ∧
     (∀ n l, s.host.taken = some (n, l) → exec (.hostInDataRead i) s =
       .next (respondWord (BitVec.ofNat 32 (ofLeBytes (l.take 4)))
         { s with host := { s.host with taken := some (n, l.drop 4) } }))) ∧
   (∀ (i : Init) (data : Word) (s : State), Admits i 0x40110014 .store s →
     (496 < s.host.build.length →
       exec (.hostOutDataWrite i data) s = .next (acknowledge (hostErr Reg.HOST_ERR.LEN s))) ∧
     (s.host.build.length ≤ 496 → exec (.hostOutDataWrite i data) s =
       .next (acknowledge { s with host := { s.host with build := s.host.build ++ leBytes 4 data.toNat } }))) ∧
   (∀ (i : Init) (data : Word) (s : State), Admits i 0x40110018 .store s →
     let len := bitsOf data 0 9
     let stale := hostSession s = 0 ∨ bitsOf data 16 16 ≠ hostSession s
     let long := 500 < len ∨ s.host.build.length < len
     let full := 8 ≤ s.host.frames.length ∨ hostRoom s < storeOctets len
     let gone (t : State) : State := { t with host := { t.host with build := [] } }
     (data.getLsbD 14 = true →
       exec (.hostOutCommit i data) s = .next (acknowledge (hostErr Reg.HOST_ERR.RANGE s))) ∧
     (data.getLsbD 15 = true →
       exec (.hostOutDiscard i data) s = .next (acknowledge (hostErr Reg.HOST_ERR.RANGE s))) ∧
     (data.getLsbD 15 = false → exec (.hostOutDiscard i data) s = .next (acknowledge (gone s))) ∧
     (data.getLsbD 14 = false →
       (stale → exec (.hostOutCommit i data) s = .next (acknowledge (gone (hostErr Reg.HOST_ERR.STALE s)))) ∧
       (¬ stale → long → exec (.hostOutCommit i data) s = .next (acknowledge (gone (hostErr Reg.HOST_ERR.LEN s)))) ∧
       (¬ stale → ¬ long → full →
         exec (.hostOutCommit i data) s = .next (acknowledge (gone (hostErr Reg.HOST_ERR.FULL s)))) ∧
       (¬ stale → ¬ long → ¬ full → exec (.hostOutCommit i data) s = .next (acknowledge { s with host :=
         { s.host with
           frames := s.host.frames ++ [hostFrame 0x81 (hostSession s) s.host.devSeq (s.host.build.take len)]
           devSeq := (s.host.devSeq + 1) % 65536
           build := [] } })))) ∧
   (∀ type session seq payload, type < 256 → payload.length ≤ 500 →
     (hostFrame type session seq payload).length = 12 + payload.length ∧
     ((hostFrame type session seq payload).drop 8).take payload.length = payload ∧
     frameField (hostFrame type session seq payload) 1 1 = type ∧
     frameField (hostFrame type session seq payload) 6 2 = payload.length))

/-- UARTs (R635–R637). A character goes to the end of the receive FIFO with its flags, a break as one character; a character that
finds 64 there is dropped with OVR, and so is a write that finds the transmit FIFO full. A read takes the oldest or answers V = 0.
A new owner empties the FIFOs of the instance that changes, and no other.

I²C controllers (R639, R640). The front command of the FIFO runs when it is of the command's kind; a READ's octet goes to the end
of the receive FIFO, or is dropped with OVR while the sequence goes on; DONE is set when a STOP leaves the FIFO empty. A NACK to an
address or a written octet, lost arbitration and a held clock discard the rest. A read pops one octet or answers V = 0.

GPIO (R641–R644). SET and CLR change the output bits written as 1 of the pins the room owns, and no other. A change of a pair's
owner returns its two pins to their reset configuration. A selected edge sets the pin's note; another leaves it. A release
opens the pads of the domains it names and never closes one. -/
def Obligations.SerialAndPins : Prop :=
  ((∀ (u : BitVec 1) (char : Byte) (par frm brk : Bool) (s : State),
     let k := u.toNat
     let c := Instr.uartCharReceived u char par frm brk
     (pdOn 75 s = false ∨ fis (uartP k) Reg.UART_CFG.EN s = false → exec c s = .next s ∧
       exec (.uartCharSent u) s = .next s) ∧
     (pdOn 75 s = true → fis (uartP k) Reg.UART_CFG.EN s = true →
       (64 ≤ (uartGet k s).rx.length → exec c s = .next (uartNote k Reg.UART_NOTE.OVR s)) ∧
       ((uartGet k s).rx.length < 64 → Registers.wf s = true → ∃ t, exec c s = .next t ∧
         (uartGet k t).rx = (uartGet k s).rx ++ [if brk then 2048 else ofBool frm * 1024 + ofBool par * 512 +
           (if fis (uartP k) Reg.UART_CFG.DATA7 s then char &&& 0x7F else char).toNat] ∧
         (uartGet k t).tx = (uartGet k s).tx ∧
         (brk = true → fis (uartP k) Reg.UART_NOTE.BRK t = true) ∧
         (brk = false → frm = true → fis (uartP k) Reg.UART_NOTE.FRM t = true) ∧
         (brk = false → par = true → fis (uartP k) Reg.UART_NOTE.PAR t = true) ∧
         ((uartGet k s).rx.length + 1 = fget (uartP k) Reg.UART_TH.RX_TH s →
           fis (uartP k) Reg.UART_NOTE.RX t = true)) ∧
       ((uartGet k s).tx = [] → exec (.uartCharSent u) s = .next s) ∧
       (∀ b r, (uartGet k s).tx = b :: r → (uartGet k s).rx ≠ [] ∨ r ≠ [] → Registers.wf s = true →
         ∃ t, exec (.uartCharSent u) s = .next t ∧ (uartGet k t).tx = r ∧ (uartGet k t).rx = (uartGet k s).rx ∧
           (r = [] → fis (uartP k) Reg.UART_NOTE.TX t = true)))) ∧
   (∀ (i : Init) (u : BitVec 1) (data : Word) (s : State), Admits i (uartP u.toNat + 4) .store s →
     let k := u.toNat
     (64 ≤ (uartGet k s).tx.length →
       exec (.uartDataWrite i u data) s = .next (acknowledge (uartNote k Reg.UART_NOTE.OVR s))) ∧
     ((uartGet k s).tx.length < 64 → ∃ t, exec (.uartDataWrite i u data) s = .next t ∧
       (uartGet k t).tx = (uartGet k s).tx ++ [if fis (uartP k) Reg.UART_CFG.DATA7 s then
         BitVec.ofNat 8 (bitsOf data 0 8) &&& 0x7F else BitVec.ofNat 8 (bitsOf data 0 8)] ∧
       (uartGet k t).rx = (uartGet k s).rx ∧ t.regs = s.regs)) ∧
   (∀ (i : Init) (u : BitVec 1) (s : State), Admits i (uartP u.toNat + 4) .load s →
     let k := u.toNat
     ((uartGet k s).rx = [] → exec (.uartDataRead i u) s = .next (respondWord 0 s)) ∧
     (∀ c r, (uartGet k s).rx = c :: r → exec (.uartDataRead i u) s =
       .next (respondWord (BitVec.ofNat 32 (2 ^ 31 + c)) (uartPut k { uartGet k s with rx := r } s)))) ∧
   (∀ (i : Init) (data : Word) (s : State), Admits i 0x40120F00 .store s →
     let own := rd 0x40120F00 s
     let same0 := bitsOf data 0 6 = bitsOf own 0 6
     let same1 := bitsOf data 8 6 = bitsOf own 8 6
     let s1 := wr 0x40120F00 (data &&& 0x3F3F#32) s
     exec (.uartOwnWrite i data) s = .next (acknowledge
       (if same0 then (if same1 then s1 else uartPut 1 {} s1)
        else if same1 then uartPut 0 {} s1 else uartPut 1 {} (uartPut 0 {} s1))))) ∧
  ((∀ (u : BitVec 1) (data : Byte) (s : State),
     let k := u.toNat
     let v := i2cGet k s
     let all := [(0, Instr.i2cStart u), (1, .i2cWrite u), (2, .i2cRead u data), (3, .i2cStop u)]
     (pdOn 75 s = false ∨ fis (i2cP k) Reg.I2C_CFG.EN s = false ∨ v.cmds = [] →
       ∀ e ∈ all, exec e.2 s = .next s) ∧
     (pdOn 75 s = true → fis (i2cP k) Reg.I2C_CFG.EN s = true → ∀ c r, v.cmds = c :: r →
       (∀ e ∈ all, e.1 ≠ c.op → exec e.2 s = .next s) ∧
       (c.op = 0 → exec (.i2cStart u) s = .next (i2cPut k { v with cmds := r, did := some c, busy := true } s)) ∧
       (c.op = 1 → exec (.i2cWrite u) s = .next (i2cPut k { v with cmds := r, did := some c, busy := true } s)) ∧
       (c.op = 2 → v.rx.length < 16 → exec (.i2cRead u data) s =
         .next (i2cPut k { v with cmds := r, did := some c, busy := true, rx := v.rx ++ [data] } s)) ∧
       (c.op = 2 → 16 ≤ v.rx.length → exec (.i2cRead u data) s =
         .next (i2cNote k Reg.I2C_NOTE.OVR (i2cPut k { v with cmds := r, did := some c, busy := true } s))) ∧
       (c.op = 3 → r ≠ [] → exec (.i2cStop u) s =
         .next (i2cPut k { v with cmds := r, did := some c, busy := false } s)) ∧
       (c.op = 3 → r = [] → exec (.i2cStop u) s =
         .next (i2cNote k Reg.I2C_NOTE.DONE (i2cPut k { v with cmds := r, did := some c, busy := false } s)))) ∧
     ((∀ c, v.did = some c → 2 ≤ c.op) → exec (.i2cNack u) s = .next s) ∧
     (∀ c, v.did = some c → c.op ≤ 1 → exec (.i2cNack u) s = .next (i2cEnd k Reg.I2C_NOTE.NACK s)) ∧
     (v.busy = false → exec (.i2cArbLost u) s = .next s ∧ exec (.i2cSclTimeout u) s = .next s) ∧
     (v.busy = true → exec (.i2cArbLost u) s = .next (i2cEnd k Reg.I2C_NOTE.ARB s) ∧
       exec (.i2cSclTimeout u) s = .next (i2cEnd k Reg.I2C_NOTE.TMO s))) ∧
   (∀ (f : Fld) (k : Nat) (s : State), k < 2 → f ∈ [Reg.I2C_NOTE.NACK, Reg.I2C_NOTE.ARB, Reg.I2C_NOTE.TMO] →
     (i2cGet k s).rx ≠ [] → Registers.wf s = true →
     let t := i2cEnd k f s
     (i2cGet k t).cmds = [] ∧ (i2cGet k t).busy = false ∧ (i2cGet k t).rx = (i2cGet k s).rx ∧ fis (i2cP k) f t = true ∧
     fis (i2cP k) Reg.I2C_NOTE.DONE t = fis (i2cP k) Reg.I2C_NOTE.DONE s) ∧
   (∀ (i : Init) (u : BitVec 1) (s : State), Admits i (i2cP u.toNat + 8) .load s →
     let k := u.toNat
     ((i2cGet k s).rx = [] → exec (.i2cRxRead i u) s = .next (respondWord 0 s)) ∧
     (∀ b r, (i2cGet k s).rx = b :: r → exec (.i2cRxRead i u) s =
       .next (respondWord (BitVec.ofNat 32 (2 ^ 31 + b.toNat)) (i2cPut k { i2cGet k s with rx := r } s)))) ∧
   (∀ (i : Init) (data : Word) (s : State), Admits i 0x40130F00 .store s →
     let own := rd 0x40130F00 s
     let same0 := bitsOf data 0 6 = bitsOf own 0 6
     let same1 := bitsOf data 8 6 = bitsOf own 8 6
     let s1 := wr 0x40130F00 (data &&& 0x3F3F#32) s
     exec (.i2cOwnWrite i data) s = .next (acknowledge
       (if same0 then (if same1 then s1 else i2cPut 1 {} s1)
        else if same1 then i2cPut 0 {} s1 else i2cPut 1 {} (i2cPut 0 {} s1))))) ∧
  ((∀ (i : Init) (bank : BitVec 2) (data : Word) (s : State),
     let b := bank.toNat
     let out := 0x40140404 + 0x10 * b
     let mine (k : Nat) : Bool := gpioMine (roomOf i s) (16 * b + k) s
     (Admits i (0x40140408 + 0x10 * b) .store s → Registers.wf s = true →
       ∃ t, exec (.gpioSet i bank data) s = .next t ∧ t.gpio = s.gpio ∧
         (∀ k < 16, bitOf (rd out t) k = (bitOf (rd out s) k || (bitOf data k && mine k))) ∧
         ∀ a, a ≠ out → rd a t = rd a s) ∧
     (Admits i (0x4014040C + 0x10 * b) .store s → Registers.wf s = true →
       ∃ t, exec (.gpioClr i bank data) s = .next t ∧ t.gpio = s.gpio ∧
         (∀ k < 16, bitOf (rd out t) k = (bitOf (rd out s) k && !(bitOf data k && mine k))) ∧
         ∀ a, a ≠ out → rd a t = rd a s)) ∧
   (∀ (i : Init) (j : BitVec 3) (data : Word) (s : State), Admits i (0x40140000 + 4 * j.toNat) .store s →
     Registers.wf s = true → ∃ t, exec (.gpioOwnWrite i j data) s = .next t ∧
       rd (0x40140000 + 4 * j.toNat) t = data &&& 0xBFBFBFBF#32 ∧
       ∀ q < 4, ∀ p, p = 8 * j.toNat + 2 * q ∨ p = 8 * j.toNat + 2 * q + 1 →
         (bitsOf (data &&& 0xBFBFBFBF#32) (8 * q) 8 = pairOwn (4 * j.toNat + q) s →
           rd (0x40140100 + 4 * p) t = rd (0x40140100 + 4 * p) s) ∧
         (bitsOf (data &&& 0xBFBFBFBF#32) (8 * q) 8 ≠ pairOwn (4 * j.toNat + q) s →
           rd (0x40140100 + 4 * p) t = 0 ∧ bitOf (rd (0x40140404 + 0x10 * (p / 16)) t) (p % 16) = false)) ∧
   (∀ (pin : BitVec 6) (level : Bool) (s : State), Registers.wf s = true →
     let p := pin.toNat
     let note : Fld := ⟨0x500, p % 16, 1⟩
     let selected := pdOn (if p < 32 then 76 else 77) s = true ∧
       (fget (0x40140000 + 4 * p) Reg.GPIO_PIN.IRQ s).testBit (if level then 0 else 1) = true
     ∃ t, exec (.gpioEdge pin level) s = .next t ∧ t.gpio.levels.getLsbD p = level ∧
       (∀ q < 64, q ≠ p → t.gpio.levels.getLsbD q = s.gpio.levels.getLsbD q) ∧
       (selected → fis (0x40140000 + 4 * (p / 16)) note t = true) ∧
       (¬ selected → t.regs = s.regs)) ∧
   (∀ (i : Init) (data : Word) (s : State), Admits i 0x40140020 .store s → Registers.wf s = true →
     ∃ t, exec (.gpioHoldRelease i data) s = .next t ∧ rd 0x40140020 t = (rd 0x40140020 s ||| (data &&& 3#32)) ∧
       ∀ a, a ≠ 0x40140020 → rd a t = rd a s))

/-- The debug port (R645–R648, R653). The instruction register takes the codes of R645 and BYPASS for any other, EXTEST only in its
scope, and IDCODE at a TAP reset. Accesses and challenges act under their instruction alone; in LOCKED and CHECKING a DMI
access fails. An update in LOCKED with a nonce outstanding starts the check and spends it; a valid signature unlocks with its SCOPE,
and any other leaves LOCKED and updates ignored until the hold-off ends. DBG_LOCK relocks with its key. -/
def Obligations.DebugPort : Prop :=
  (∀ (code : BitVec 5) (tapReset : Bool) (s : State), ∃ t, exec (.jtagIrUpdate code tapReset) s = .next t ∧
    t = { s with dbg := { s.dbg with ir := t.dbg.ir } } ∧
    (tapReset = true → t.dbg.ir = 1) ∧
    (tapReset = false → code = 1 → t.dbg.ir = 1) ∧
    (tapReset = false → code ≠ 1 → pdOn 79 s = false → t.dbg.ir = 0x1F) ∧
    (tapReset = false → pdOn 79 s = true → code = 0 → t.dbg.ir = if inScope 14 s then 0 else 0x1F) ∧
    (tapReset = false → pdOn 79 s = true → code = 2 ∨ code = 0x10 ∨ code = 0x11 ∨ code = 0x12 →
      t.dbg.ir = code.toNat) ∧
    (tapReset = false → pdOn 79 s = true → code ≠ 0 → code ≠ 1 → code ≠ 2 → code ≠ 0x10 → code ≠ 0x11 → code ≠ 0x12 →
      t.dbg.ir = 0x1F)) ∧
  (∀ (op : BitVec 2) (addr : BitVec 7) (data : Word) (s : State),
    (irIs 0x11 s = false → exec (.dmiAccess op addr data) s = .next s) ∧
    (irIs 0x11 s = true → dbgState s = 1 ∨ dbgState s = 2 →
      exec (.dmiAccess op addr data) s = .next { s with dbg := { s.dbg with resp := (2, 0) } }) ∧
    (irIs 0x11 s = true → dbgState s ≠ 1 → dbgState s ≠ 2 → op = 1 → addr = 0x11 →
      exec (.dmiAccess op addr data) s = .next { s with dbg := { s.dbg with resp := (0, dmStatus s) } }) ∧
    (irIs 0x11 s = true → dbgState s ≠ 1 → dbgState s ≠ 2 → op = 2 → addr = 0x10 → data.getLsbD 0 = true →
      bitsOf data 16 3 = 0 → data.getLsbD 31 = true → data.getLsbD 28 = false → data.getLsbD 1 = false →
      hartView 0 s = .running →
      ∃ t, exec (.dmiAccess op addr data) s = .next t ∧ (coreGet 0 t).halted = true ∧
        (coreGet 0 t).pc = (coreGet 0 s).pc ∧ t.dbg.resp = (0, 0) ∧ t.mem = s.mem)) ∧
  (∀ (h : Nat) (s : State), inScope h s = false → hartView h s = .nonexistent) ∧
  (∀ s : State, (irIs 0x12 s = false → exec .dbgchalCapture s = .next s) ∧
    (irIs 0x12 s = true → ∀ n, s.dbg.nonce = some n → exec .dbgchalCapture s =
      .next { s with dbg := { s.dbg with chal := unitId s ++ n ++ [BitVec.ofNat 8 (dbgState s)] } }) ∧
    (irIs 0x12 s = true → dbgState s ≠ 1 → ∃ t, exec .dbgchalCapture s = .next t ∧ t.dbg.nonce = s.dbg.nonce ∧
      t.dbg.wants = s.dbg.wants ∧ t.regs = s.regs)) ∧
  (∀ (scope : Word) (r sig : BitVec 256) (s : State),
    (irIs 0x12 s = false ∨ dbgState s ≠ 1 ∨ s.dbg.nonce = none ∨ s.dbg.holdoff = true →
      exec (.dbgchalUpdate scope r sig) s = .next s) ∧
    (∀ n, irIs 0x12 s = true → dbgState s = 1 → s.dbg.nonce = some n → s.dbg.holdoff = false → Registers.wf s = true →
      ∃ t, exec (.dbgchalUpdate scope r sig) s = .next t ∧ dbgState t = 2 ∧ t.dbg.nonce = none ∧
        t.dbg.check = some (n, scope, r.toNat, sig.toNat))) ∧
  (∀ s : State, (s.dbg.check = none ∨ dbgState s ≠ 2 ∨ fis keyB Reg.PK_STAT.BUSY s = true →
      exec .dbgCheckDone s = .next s) ∧
    (∀ n scope r sig, s.dbg.check = some (n, scope, r, sig) → dbgState s = 2 → fis keyB Reg.PK_STAT.BUSY s = false →
      Registers.wf s = true → ∃ t, exec .dbgCheckDone s = .next t ∧ t.dbg.check = none ∧
        (chalValid n scope r sig s = true → dbgState t = 3 ∧ fget dbgB Reg.DBG_STAT.SCOPE t = bitsOf scope 0 15) ∧
        (chalValid n scope r sig s = false → dbgState t = 1 ∧ t.dbg.holdoff = true)) ∧
    exec .dbgDenyHoldoffEnd s = .next { s with dbg := { s.dbg with holdoff := false } }) ∧
  (∀ (i : Init) (key : BitVec 16) (s : State), Admits i 0x40150004 .store s →
    (key ≠ 0x4447 ∨ dbgState s ≠ 3 → exec (.dbgLock i key) s = .next (acknowledge s)) ∧
    (key = 0x4447 → dbgState s = 3 → Registers.wf s = true → ∃ t, exec (.dbgLock i key) s = .next t ∧ dbgState t = 1 ∧
      fget dbgB Reg.DBG_STAT.SCOPE t = 0 ∧ t.mem = s.mem))

/-- Resets by their causes (R654–R657, R660, R666). RST_SEEN records every cause, and CAUSE the cause, or the lower while a start
has not released the hall. A low SYS_RST_N holds the hall, and a high one starts it. RST_CMD without its key does nothing.
BROWNOUT is ignored while the hall is off and makes the start a power-on reset otherwise; VBAT resets the lantern as well: the calendar
reads 2000-01-01 00:00:00 with CAL_SEC and SUBSEC 0 and OSF 1, PWR_ON.ON is 1, and a regulator that does not answer is
tried again. -/
def Obligations.ResetsByCause : Prop :=
  (∀ (m : Option (BitVec 8)) (s : State), Registers.wf s = true →
    ∃ t, exec (.vbatPowerOn m) s = .next t ∧ fget pmbB Reg.RST_STAT.CAUSE t = 0 ∧ fget pmbB Reg.RST_STAT.CNT t = 0 ∧
      rd 0x70030304 t = 1 ∧ fis calB Reg.PWR_ON.ON t = true ∧ fis calB Reg.CAL_STAT.LF_RUN t = false ∧
      calSec t = 0 ∧ fget calB Reg.CAL_SEC_HI.SUBSEC t = 0 ∧ fis calB Reg.CAL_STAT.OSF t = true ∧
      rd 0x70000008 t = (calFields 0).timeWord ∧ rd 0x7000000C t = (calFields 0).dateWord 6 ∧
      t.link.duty = [] ∧ t.link.gasp = none ∧ (s.pow.hall = .pinLow → t.pow.hall = .pinLow) ∧
      (s.pow.hall ≠ .pinLow → t.pow.porReset = true ∧ t.pow.starts = 1 ∧
        t.pow.hall = (if m = none then Hall.retry else Hall.waitAck))) ∧
  calFields 0 = ⟨0, 1, 1, 0, 0, 0⟩ ∧
  (∀ (m : Option (BitVec 8)) (s : State),
    (s.pow.hall = .off ∨ s.pow.hall = .retry → exec (.brownout m) s = .next s) ∧
    (phase s = 3 → 3 ≤ s.pow.target → exec (.brownout m) s = .next s) ∧
    (s.pow.hall = .run → ¬ (phase s = 3 ∧ 3 ≤ s.pow.target) → Registers.wf s = true →
      ∃ t, exec (.brownout m) s = .next t ∧ t.pow.porReset = true ∧ fget pmbB Reg.RST_STAT.CAUSE t = 1 ∧
        bitOf (rd 0x70030304 t) 1 = true ∧ t.pow.hall = (if m = none then Hall.retry else Hall.waitAck) ∧
        t.time.nt = 0 ∧ t.time.air = 0 ∧ t.link.duty = s.link.duty)) ∧
  (∀ s : State,
    (Registers.wf s = true → ∃ t, exec (.sysRstPin true) s = .next t ∧ t.pow.hall = .pinLow ∧
      bitOf (rd 0x70030304 t) 4 = true) ∧
    (s.pow.hall ≠ .pinLow → exec (.sysRstPin false) s = .next s) ∧
    (s.pow.hall = .pinLow → fis tampB Reg.TAMP_STAT.ERASING s = false →
      exec (.sysRstPin false) s = .next (startAttempt s)) ∧
    (s.pow.hall = .pinLow → fis tampB Reg.TAMP_STAT.ERASING s = true →
      exec (.sysRstPin false) s = .next (hallPut (.erasing true) s))) ∧
  (∀ (i : Init) (key : BitVec 16) (s : State), Admits i 0x70030308 .store s →
    (key ≠ 0x5253 → exec (.rstCmdHall i key) s = .next (acknowledge s)) ∧
    (key = 0x5253 → s.pow.hall = .run → Registers.wf s = true → ∃ t, exec (.rstCmdHall i key) s = .next t ∧
      t.pow.hall = .waitAck ∧ t.pow.starts = 1 ∧ fget pmbB Reg.RST_STAT.CAUSE t = 6 ∧
      bitOf (rd 0x70030304 t) 6 = true ∧ fget pmbB Reg.RST_STAT.CNT t = fget pmbB Reg.RST_STAT.CNT s ∧
      rd 0x70000000 t = rd 0x70000000 s ∧ t.link.duty = s.link.duty)) ∧
  (∀ (cause : Nat) (s : State), cause < 10 → Registers.wf s = true →
    let t := causeSeen cause s
    (∀ c < 10, bitOf (rd 0x70030304 t) c = (decide (c = cause) || bitOf (rd 0x70030304 s) c)) ∧
    (s.pow.hall = .run ∨ s.pow.hall = .off → fget pmbB Reg.RST_STAT.CAUSE t = cause) ∧
    (s.pow.hall = .waitAck ∨ s.pow.hall = .retry ∨ s.pow.hall = .acked ∨ s.pow.hall = .pinLow →
      fget pmbB Reg.RST_STAT.CAUSE t = min (fget pmbB Reg.RST_STAT.CAUSE s) cause))

/-- The hall's start (R660–R666, R573, R574). A release follows an acknowledgement alone: PREV takes STAGE, STAGE becomes ROM, CNT
counts, and every SRAM bank that NIGHT did not keep reads zero. The ROM makes a root first, and halts when the entropy source has
failed; then it enters recovery with PORTER_BAD, HOUSE_BAD or REC_REQ, the first that holds, or the Porter with its lock. The
Porter loads a plan and then starts the house, which is RUN. -/
def Obligations.HallStarts : Prop :=
  (∀ (nt air : Word64) (g : Nat) (s : State),
    (s.pow.hall ≠ .acked → exec (.hallRelease nt air g) s = .next s) ∧
    (s.pow.hall = .acked → s.canonical = true → ∃ t, exec (.hallRelease nt air g) s = .next t ∧ t.pow.hall = .released ∧
      fget pmbB Reg.RST_STAGE.STAGE t = 1 ∧ fget pmbB Reg.RST_STAGE.PREV t = fget pmbB Reg.RST_STAGE.STAGE s ∧
      fget pmbB Reg.RST_STAT.CNT t = min 65535 (fget pmbB Reg.RST_STAT.CNT s + 1) ∧
      t.pow.waking = s.pow.waking ∧
      ∀ a, 0x20000000 ≤ a → a < 0x20C00000 → s.pow.kept.contains (10 + (a - 0x20000000) / 0xC0000) = false →
        memGet a t = 0)) ∧
  (∀ s : State,
    let s1 := fset pmbB Reg.RST_STAT.REC_WHY 0 (if pdOn 30 s then s else domainOn 30 s)
    let s3 := stage 3 s1
    (s.pow.hall ≠ .released → exec .romStart s = .next s) ∧
    (s.pow.hall = .released → rootValid s1 = false → fget rngB Reg.RNG_STAT.STATE (stage 2 s1) = 3 →
      Registers.wf s = true → ∃ t, exec .romStart s = .next t ∧ t.pow.hall = .halted ∧
        fget pmbB Reg.RST_STAGE.STAGE t = 9 ∧ rootValid t = false) ∧
    (s.pow.hall = .released → rootValid s1 = true → Registers.wf s = true →
      let porter := storedOk 0x08000000 4 s3
      let house := storedOk 0x08040000 1 s3
      let asked := fis updB Reg.UPD_STAT.REC_REQ s3
      ∃ t, exec .romStart s = .next t ∧
        (porter = false → t = recoveryEnter 2 s3) ∧
        (porter = true → house = false → t = recoveryEnter 3 s3) ∧
        (porter = true → house = true → asked = true → t = recoveryEnter 1 s3) ∧
        (porter = true → house = true → asked = false → t.pow.hall = .porter ∧
          fget pmbB Reg.RST_STAGE.STAGE t = 4 ∧ fis flcB Reg.FLC_LOCK.PORTER t = true ∧
          fget pmbB Reg.RST_STAT.REC_WHY t = 0))) ∧
  (∀ (why : Nat) (s : State), why < 4 → Registers.wf s = true →
    let t := recoveryEnter why s
    t.pow.hall = .recovery ∧ fget pmbB Reg.RST_STAGE.STAGE t = 8 ∧ fget pmbB Reg.RST_STAT.REC_WHY t = why ∧
    fis hostB Reg.HOST_CTRL.EN t = true ∧ t.mem = s.mem) ∧
  (∀ s : State,
    let s1 := drawFree (planStart (stage 5 (porterFlash s)))
    let again := fget pmbB Reg.RST_STAGE.STAGE s = 5
    (s.pow.hall ≠ .porter ∨ s.plan.work ≠ .idle → exec .porterStart s = .next s) ∧
    (s.pow.hall = .porter → s.plan.work = .idle → ¬ again → exec .porterStart s = .next
      (if s1.plan.work = .idle then houseStart (porterRooms s1) else s1)) ∧
    (s.pow.hall = .porter → s.plan.work = .idle → again → exec .porterStart s = .next (houseStart (porterRooms s))) ∧
    (Registers.wf s = true → let t := houseStart s
      t.pow.hall = .run ∧ t.pow.mode = 0 ∧ t.pow.owed = [] ∧ fget pmbB Reg.RST_STAGE.STAGE t = 7 ∧
      (s.pow.waking.isSome = true → fis pwrB Reg.PWR_NOTE.WAKE t = true)))

/-- Frames: a command of the timers, the pigeonholes, the supply watch's samples, the host port, the UARTs, the I²C
controllers or GPIO changes registers of its own block alone, but for the record of a refused access, and changes neither
memory, the link's jobs, the lanes, the queues, the keys, network time, the calendar nor the power state. -/
def Obligations.RegisterFrames : Prop :=
  ∀ (i : Init) (timer : Fin 20) (count : Word64) (chan : BitVec 6) (key : BitVec 16) (ch : BitVec 2) (freq : BitVec 24)
    (u : BitVec 1) (j : BitVec 3) (pin : BitVec 6) (data : Word) (char : Byte) (x y z : Bool) (l : List Byte)
    (s t : State) (p : Nat × Instr),
    p ∈ [(0x4006, Instr.timerEnable i timer data count), (0x4006, .timerZero i timer key),
      (0x4006, .timerCmpCommit i timer data), (0x4006, .timerReloadCommit i timer data),
      (0x4006, .timerMatch timer count), (0x4006, .timerWrap timer count), (0x4006, .timerCmpEffect timer count),
      (0x4006, .timerCapture timer count x), (0x4009, .phLockRead i chan), (0x4009, .phRelease i chan),
      (0x4009, .phForce i key chan), (0x4009, .phSend i chan data), (0x4009, .phSendEnd i chan data),
      (0x4009, .phRecv i chan), (0x4009, .phRetWrite i chan data), (0x4010, .supZeroCrossing ch count freq),
      (0x4010, .supOverRange ch x), (0x4010, .supDisturbEnd ch), (0x4010, .supOverrun), (0x4010, .supRecordPop i),
      (0x4011, .hostResync l), (0x4011, .hostMsg l), (0x4011, .hostPing l), (0x4011, .readFrame), (0x4011, .reread),
      (0x4011, .readStatus), (0x4011, .hostSessionExpire), (0x4011, .hostInHdrRead i), (0x4011, .hostInDataRead i),
      (0x4011, .hostOutDataWrite i data), (0x4011, .hostOutCommit i data), (0x4011, .hostOutDiscard i data),
      (0x4012, .uartCharReceived u char x y z), (0x4012, .uartCharSent u), (0x4012, .uartDataWrite i u data),
      (0x4012, .uartDataRead i u), (0x4012, .uartOwnWrite i data), (0x4013, .i2cStart u), (0x4013, .i2cWrite u),
      (0x4013, .i2cRead u char), (0x4013, .i2cStop u), (0x4013, .i2cNack u), (0x4013, .i2cArbLost u),
      (0x4013, .i2cSclTimeout u), (0x4013, .i2cRxRead i u), (0x4013, .i2cOwnWrite i data),
      (0x4014, .gpioOwnWrite i j data), (0x4014, .gpioSet i ch data), (0x4014, .gpioClr i ch data),
      (0x4014, .gpioEdge pin x), (0x4014, .gpioHoldRelease i data)] →
    Registers.wf s = true → exec p.2 s = .next t →
    (∀ a, a / 0x10000 ≠ p.1 → a ∉ [0x4007000C, 0x40070010, 0x40070014] → rd a t = rd a s) ∧
    t.mem = s.mem ∧ t.link = s.link ∧ t.lanes = s.lanes ∧ t.queues = s.queues ∧ t.keys = s.keys ∧ t.time = s.time ∧
    t.cal = s.cal ∧ t.pow = s.pow
end

