-- ==== Sys2Proof/Laws/Bits.lean ====
section
/-!
SUPPORT. Bit fields: a field read back, and the fields and bits beside it.
-/

namespace Sys2Proof.Machine

theorem bitsOf_lt (x : Word) (lo w : Nat) : bitsOf x lo w < 2 ^ w := Nat.mod_lt _ (Nat.two_pow_pos w)

theorem bitsOf_testBit (x : Word) (lo w i : Nat) :
    (bitsOf x lo w).testBit i = (decide (i < w) && x.getLsbD (lo + i)) := by
  simp [bitsOf, Nat.testBit_mod_two_pow, Nat.testBit_shiftRight, BitVec.getLsbD]

theorem fieldMask_getLsbD (lo w i : Nat) (hi : i < 32) :
    (fieldMask lo w).getLsbD i = (decide (lo ≤ i) && decide (i < lo + w)) := by
  simp only [fieldMask, BitVec.getLsbD_ofNat, hi, decide_true, Bool.true_and, Nat.testBit_shiftLeft,
    Nat.testBit_two_pow_sub_one]
  by_cases h : lo ≤ i
  · simp only [h, decide_true, Bool.true_and]
    congr 1
    exact propext ⟨fun _ => by omega, fun _ => by omega⟩
  · simp [h]

theorem bitsPut_getLsbD (x : Word) (lo w v i : Nat) (hi : i < 32) :
    (bitsPut x lo w v).getLsbD i =
      if lo ≤ i ∧ i < lo + w then v.testBit (i - lo) else x.getLsbD i := by
  simp only [bitsPut, BitVec.getLsbD_or, BitVec.getLsbD_and, BitVec.getLsbD_not, hi, decide_true, Bool.true_and,
    fieldMask_getLsbD lo w i hi, BitVec.getLsbD_ofNat, Nat.testBit_shiftLeft, Nat.testBit_mod_two_pow]
  by_cases h : lo ≤ i ∧ i < lo + w
  · obtain ⟨h1, h2⟩ := h
    have : i - lo < w := by omega
    simp [h1, h2, this]
  · rw [if_neg h]
    by_cases h1 : lo ≤ i
    · have h2 : ¬ i < lo + w := fun h2 => h ⟨h1, h2⟩
      have : ¬ i - lo < w := by omega
      simp [h1, h2, this]
    · simp [h1]

/-- A field read back after it is written. -/
theorem bitsOf_bitsPut (x : Word) (lo w v : Nat) (h : lo + w ≤ 32) :
    bitsOf (bitsPut x lo w v) lo w = v % 2 ^ w := by
  apply Nat.eq_of_testBit_eq
  intro i
  rw [bitsOf_testBit, Nat.testBit_mod_two_pow]
  by_cases hi : i < w
  · rw [bitsPut_getLsbD _ _ _ _ _ (by omega), if_pos (by omega)]
    simp [hi]
  · simp [hi]

/-- A field beside the one written keeps its value. -/
theorem bitsOf_bitsPut_ne (x : Word) (lo w v lo' w' : Nat) (h : lo' + w' ≤ 32) (hd : lo' + w' ≤ lo ∨ lo + w ≤ lo') :
    bitsOf (bitsPut x lo w v) lo' w' = bitsOf x lo' w' := by
  apply Nat.eq_of_testBit_eq
  intro i
  rw [bitsOf_testBit, bitsOf_testBit]
  by_cases hi : i < w'
  · rw [bitsPut_getLsbD _ _ _ _ _ (by omega), if_neg (by omega)]
  · simp [hi]

/-- A bit outside the field written keeps its value. -/
theorem bitOf_bitsPut_ne (x : Word) (lo w v i : Nat) (hi : i < 32) (hd : i < lo ∨ lo + w ≤ i) :
    bitOf (bitsPut x lo w v) i = bitOf x i := by
  unfold bitOf
  rw [bitsPut_getLsbD _ _ _ _ _ hi, if_neg (by omega)]

theorem leBytes_length (n v : Nat) : (leBytes n v).length = n := by
  induction n generalizing v with
  | zero => rfl
  | succ n ih => simp [leBytes, ih]

/-- A number read back from its octets. -/
theorem ofLeBytes_leBytes (n v : Nat) (h : v < 256 ^ n) : ofLeBytes (leBytes n v) = v := by
  induction n generalizing v with
  | zero => simp only [leBytes, ofLeBytes]; omega
  | succ n ih =>
    have : v / 256 < 256 ^ n := by
      rw [Nat.div_lt_iff_lt_mul (by omega)]; rw [Nat.pow_succ] at h; exact h
    simp only [leBytes, ofLeBytes, ih _ this, BitVec.toNat_ofNat]
    omega

end Sys2Proof.Machine
end

