-- ==== Sys2Proof/Laws/Tbl.lean ====
section
/-!
SUPPORT. Sparse tables: a read after a write, and that every operation keeps the canonical form.
-/

namespace Sys2Proof.Machine

variable {α : Type}

/-! ### Reads after changes -/

@[simp] theorem tget_nil (d : Nat → α) (k : Nat) : tget d [] k = d k := rfl

theorem tget_cons (d : Nat → α) (i : Nat) (v : α) (r : Tbl α) (k : Nat) :
    tget d ((i, v) :: r) k = if k = i then v else if k < i then d k else tget d r k := rfl

theorem tget_low (d : Nat → α) (t : Tbl α) (k : Nat) (h : ∀ p ∈ t, k < p.1) : tget d t k = d k := by
  cases t with
  | nil => rfl
  | cons p r =>
    obtain ⟨i, v⟩ := p
    have := h (i, v) (by simp)
    simp only [tget_cons]
    rw [if_neg (by omega), if_pos (by omega)]

theorem tget_tput (d : Nat → α) (t : Tbl α) (k : Nat) (v : α) (j : Nat) :
    tget d (tput t k v) j = if j = k then v else tget d t j := by
  induction t with
  | nil => simp only [tput, tget]; split <;> simp
  | cons p r ih =>
    obtain ⟨i, w⟩ := p
    simp only [tput]
    split
    · subst_vars; simp only [tget_cons]; split <;> rfl
    · split
      · simp only [tget_cons]
        by_cases hj : j = k
        · simp [hj]
        · by_cases hlt : j < k
          · simp only [if_neg hj, if_pos hlt]; rw [if_neg (by omega), if_pos (by omega)]
          · simp only [if_neg hj, if_neg hlt]
      · simp only [tget_cons, ih]
        by_cases hj : j = k
        · subst hj; rw [if_neg (by omega), if_neg (by omega)]; simp
        · simp [hj]

/-- Every key of the tail lies above the head's. -/
theorem tabove_mem {b : Nat} {t : Tbl α} : tabove b t = true ↔ ∀ p ∈ t, b < p.1 := by
  simp [tabove, List.all_eq_true]

theorem tabove_of_le {a b : Nat} {t : Tbl α} (h : a ≤ b) (ht : tabove b t = true) : tabove a t = true := by
  rw [tabove_mem] at *
  intro p hp; have := ht p hp; omega

theorem tdel_mem {t : Tbl α} {k : Nat} {p : Nat × α} (h : p ∈ tdel t k) : p ∈ t := by
  induction t with
  | nil => exact h
  | cons q r ih =>
    obtain ⟨i, w⟩ := q
    simp only [tdel] at h
    split at h
    · exact List.mem_cons_of_mem _ h
    · split at h
      · exact h
      · rcases List.mem_cons.1 h with h | h
        · exact h ▸ List.mem_cons_self
        · exact List.mem_cons_of_mem _ (ih h)

theorem tput_mem {t : Tbl α} {k : Nat} {v : α} {p : Nat × α} (h : p ∈ tput t k v) : p = (k, v) ∨ p ∈ t := by
  induction t with
  | nil => simpa [tput] using h
  | cons q r ih =>
    obtain ⟨i, w⟩ := q
    simp only [tput] at h
    split at h
    · rcases List.mem_cons.1 h with h | h
      · exact .inl h
      · exact .inr (List.mem_cons_of_mem _ h)
    · split at h
      · rcases List.mem_cons.1 h with h | h
        · exact .inl h
        · exact .inr h
      · rcases List.mem_cons.1 h with h | h
        · exact .inr (h ▸ List.mem_cons_self)
        · rcases ih h with h | h
          · exact .inl h
          · exact .inr (List.mem_cons_of_mem _ h)

section canonical
variable [DecidableEq α] {d : Nat → α}

theorem twf_cons {i : Nat} {v : α} {r : Tbl α} :
    twf d ((i, v) :: r) = true ↔ v ≠ d i ∧ tabove i r = true ∧ twf d r = true := by
  simp [twf, and_assoc]

/-- Removing an entry keeps the canonical form. -/
theorem twf_tdel {t : Tbl α} (h : twf d t = true) (k : Nat) : twf d (tdel t k) = true := by
  induction t with
  | nil => exact h
  | cons q r ih =>
    obtain ⟨i, w⟩ := q
    obtain ⟨h1, h2, h3⟩ := twf_cons.1 h
    simp only [tdel]
    split
    · exact h3
    · split
      · exact h
      · refine twf_cons.2 ⟨h1, ?_, ih h3⟩
        rw [tabove_mem] at *
        exact fun p hp => h2 p (tdel_mem hp)

/-- Listing an entry that is not the default keeps the canonical form. -/
theorem twf_tput {t : Tbl α} (h : twf d t = true) (k : Nat) {v : α} (hv : v ≠ d k) : twf d (tput t k v) = true := by
  induction t with
  | nil => simp [tput, twf, tabove, hv]
  | cons q r ih =>
    obtain ⟨i, w⟩ := q
    obtain ⟨h1, h2, h3⟩ := twf_cons.1 h
    simp only [tput]
    split
    · subst_vars; exact twf_cons.2 ⟨hv, h2, h3⟩
    · split
      · refine twf_cons.2 ⟨hv, ?_, h⟩
        rw [tabove_mem] at *
        intro p hp
        rcases List.mem_cons.1 hp with hp | hp
        · subst hp; assumption
        · have := h2 p hp; omega
      · refine twf_cons.2 ⟨h1, ?_, ih h3⟩
        rw [tabove_mem] at *
        intro p hp
        rcases tput_mem hp with hp | hp
        · subst hp; show i < k; omega
        · exact h2 p hp

/-- A write keeps the canonical form. -/
theorem twf_tset {t : Tbl α} (h : twf d t = true) (k : Nat) (v : α) : twf d (tset d t k v) = true := by
  unfold tset
  split
  · exact twf_tdel h k
  · exact twf_tput h k ‹_›

/-- Forgetting entries keeps the canonical form. -/
theorem twf_tkeep {t : Tbl α} (h : twf d t = true) (p : Nat → Bool) : twf d (tkeep p t) = true := by
  induction t with
  | nil => exact h
  | cons q r ih =>
    obtain ⟨i, w⟩ := q
    obtain ⟨h1, h2, h3⟩ := twf_cons.1 h
    simp only [tkeep, List.filter_cons] at *
    split
    · refine twf_cons.2 ⟨h1, ?_, ih h3⟩
      rw [tabove_mem] at *
      exact fun x hx => h2 x (List.mem_filter.1 hx).1
    · exact ih h3

theorem tget_tdel {t : Tbl α} (h : twf d t = true) (k j : Nat) :
    tget d (tdel t k) j = if j = k then d k else tget d t j := by
  induction t with
  | nil => simp only [tdel, tget]; split <;> simp_all
  | cons q r ih =>
    obtain ⟨i, w⟩ := q
    obtain ⟨-, h2, h3⟩ := twf_cons.1 h
    rw [tabove_mem] at h2
    simp only [tdel]
    split
    · subst_vars
      by_cases hj : j = i
      · subst hj; rw [if_pos rfl]; exact tget_low d r j h2
      · simp only [tget_cons, if_neg hj]
        split
        · exact tget_low d r j (fun p hp => by have := h2 p hp; omega)
        · rfl
    · split
      · by_cases hj : j = k
        · subst hj; simp only [tget_cons]; rw [if_neg (by omega), if_pos (by omega)]; simp
        · simp [hj]
      · simp only [tget_cons, ih h3]
        by_cases hj : j = k
        · subst hj; rw [if_neg (by omega), if_neg (by omega)]; simp
        · simp [hj]

/-- A read after a write: the value written at its key, the old value at every other. -/
theorem tget_tset {t : Tbl α} (h : twf d t = true) (k : Nat) (v : α) (j : Nat) :
    tget d (tset d t k v) j = if j = k then v else tget d t j := by
  unfold tset
  split
  · subst_vars; exact tget_tdel h k j
  · exact tget_tput d t k v j

/-- A read of a key that is kept, and of one that is forgotten. -/
theorem tget_tkeep {t : Tbl α} (h : twf d t = true) (p : Nat → Bool) (j : Nat) :
    tget d (tkeep p t) j = if p j = true then tget d t j else d j := by
  induction t with
  | nil => simp [tkeep]
  | cons q r ih =>
    obtain ⟨i, w⟩ := q
    obtain ⟨-, h2, h3⟩ := twf_cons.1 h
    rw [tabove_mem] at h2
    have ih' := ih h3
    simp only [tkeep] at ih'
    simp only [tkeep, List.filter_cons]
    split
    · simp only [tget_cons, ih']
      by_cases hj : j = i
      · subst hj; simp_all
      · simp only [if_neg hj]; split
        · simp
        · rfl
    · rename_i hp
      rw [ih', tget_cons]
      by_cases hj : j = i
      · subst hj; simp_all
      · simp only [if_neg hj]
        by_cases hlt : j < i
        · simp only [if_pos hlt]
          rw [tget_low d r j (fun p hp => by have := h2 p hp; omega)]
        · simp only [if_neg hlt]

end canonical

end Sys2Proof.Machine
end

