-- ==== Sys2Proof/Laws/Ops.lean ====
section
/-!
SUPPORT. Registers and memories: what a read returns after a write. The premise is the canonical form, which every
operation keeps (Sys2Proof/Laws/Keeps.lean).
-/

namespace Sys2Proof.Machine

@[simp] theorem Registers.wf_wr {s : State} (h : Registers.wf s = true) (a : Nat) (v : Word) :
    Registers.wf (wr a v s) = true := twf_tset h a v

@[simp] theorem Registers.wf_fset {s : State} (h : Registers.wf s = true) (b : Nat) (f : Fld) (v : Nat) :
    Registers.wf (fset b f v s) = true := twf_tset h _ _

/-- A register read after a write. -/
theorem rd_wr {s : State} (h : Registers.wf s = true) (a : Nat) (v : Word) (j : Nat) :
    rd j (wr a v s) = if j = a then v else rd j s := tget_tset h a v j

theorem rd_wr_self {s : State} (h : Registers.wf s = true) (a : Nat) (v : Word) : rd a (wr a v s) = v := by
  rw [rd_wr h, if_pos rfl]

theorem rd_wr_ne {s : State} (h : Registers.wf s = true) {a j : Nat} (v : Word) (hj : j ≠ a) :
    rd j (wr a v s) = rd j s := by
  rw [rd_wr h, if_neg hj]

theorem rd_fset_ne {s : State} (h : Registers.wf s = true) {b j : Nat} (f : Fld) (v : Nat) (hj : j ≠ b + f.off) :
    rd j (fset b f v s) = rd j s := rd_wr_ne h _ hj

/-- The field just written. -/
theorem fget_fset_self {s : State} (h : Registers.wf s = true) (b : Nat) (f : Fld) (v : Nat) (hw : f.lo + f.w ≤ 32) :
    fget b f (fset b f v s) = v % 2 ^ f.w := by
  unfold fget fset
  rw [rd_wr_self h, bitsOf_bitsPut _ _ _ _ hw]

/-- A field of another register. -/
theorem fget_fset_reg {s : State} (h : Registers.wf s = true) {b b' : Nat} (f g : Fld) (v : Nat)
    (hr : b' + g.off ≠ b + f.off) : fget b' g (fset b f v s) = fget b' g s := by
  unfold fget
  rw [rd_fset_ne h f v hr]

/-- Another field of the same register. -/
theorem fget_fset_fld {s : State} (h : Registers.wf s = true) {b b' : Nat} (f g : Fld) (v : Nat)
    (hr : b' + g.off = b + f.off) (hg : g.lo + g.w ≤ 32) (hd : g.lo + g.w ≤ f.lo ∨ f.lo + f.w ≤ g.lo) :
    fget b' g (fset b f v s) = fget b' g s := by
  unfold fget fset
  rw [hr, rd_wr_self h, bitsOf_bitsPut_ne _ _ _ _ _ _ hg hd]

/-- A field of a register that a write leaves alone. -/
theorem fget_wr_ne {s : State} (h : Registers.wf s = true) {b a : Nat} (g : Fld) (v : Word) (hr : b + g.off ≠ a) :
    fget b g (wr a v s) = fget b g s := by
  unfold fget
  rw [rd_wr_ne h v hr]

/-- A register read after a field is written. -/
theorem rd_fset {s : State} (h : Registers.wf s = true) (b : Nat) (f : Fld) (v : Nat) (x : Nat) :
    rd x (fset b f v s) = if x = b + f.off then bitsPut (rd (b + f.off) s) f.lo f.w v else rd x s := rd_wr h _ _ _

/-- A field read after a register is written. -/
theorem fget_wr {s : State} (h : Registers.wf s = true) (b : Nat) (g : Fld) (a : Nat) (v : Word) :
    fget b g (wr a v s) = if b + g.off = a then bitsOf v g.lo g.w else fget b g s := by
  unfold fget
  rw [rd_wr h]
  split <;> rfl

/-- A field read after a field is written: the same field, a field apart, or one of another register. -/
theorem fget_fset {s : State} (h : Registers.wf s = true) (b : Nat) (f : Fld) (v : Nat) (b' : Nat) (g : Fld)
    (hf : f.lo + f.w ≤ 32) (hg : g.lo + g.w ≤ 32) :
    fget b' g (fset b f v s) = if b' + g.off = b + f.off then
      (if g.lo = f.lo ∧ g.w = f.w then v % 2 ^ f.w
        else if g.lo + g.w ≤ f.lo ∨ f.lo + f.w ≤ g.lo then fget b' g s else fget b' g (fset b f v s))
      else fget b' g s := by
  split
  · rename_i e
    split
    · rename_i h1
      have : fget b' g (fset b f v s) = fget b f (fset b f v s) := by
        unfold fget
        rw [e, h1.1, h1.2]
      rw [this, fget_fset_self h b f v hf]
    · split
      · rename_i h2
        exact fget_fset_fld h f g v e hg h2
      · rfl
  · rename_i e
    exact fget_fset_reg h f g v e

/-- An octet read after a write. -/
theorem memGet_memPut {s : State} (h : Memory.wf s = true) (a : Nat) (v : Byte) (j : Nat) :
    memGet j (memPut a v s) = if j = a then v else memGet j s := by
  simp only [Memory.wf, Bool.and_eq_true] at h
  exact tget_tset h.2 a v j

@[simp] theorem Memory.wf_memPut {s : State} (h : Memory.wf s = true) (a : Nat) (v : Byte) :
    Memory.wf (memPut a v s) = true := by
  simp only [Memory.wf, Bool.and_eq_true] at *
  exact ⟨h.1, twf_tset h.2 a v⟩

/-- An octet outside a range written keeps its value. -/
theorem memGet_memWrite_ne {s : State} (h : Memory.wf s = true) (a : Nat) (l : List Byte) (j : Nat)
    (hj : j < a ∨ a + l.length ≤ j) : memGet j (memWrite a l s) = memGet j s := by
  induction l generalizing a s with
  | nil => rfl
  | cons b r ih =>
    simp only [List.length_cons] at hj
    simp only [memWrite]
    rw [ih (Memory.wf_memPut h a b) (a + 1) (by omega), memGet_memPut h, if_neg (by omega)]

/-- An octet of a range written. -/
theorem memGet_memWrite {s : State} (h : Memory.wf s = true) (a : Nat) (l : List Byte) (k : Nat) (hk : k < l.length) :
    memGet (a + k) (memWrite a l s) = l[k] := by
  induction l generalizing a s k with
  | nil => exact absurd hk (Nat.not_lt_zero _)
  | cons b r ih =>
    simp only [memWrite]
    cases k with
    | zero =>
      rw [memGet_memWrite_ne (Memory.wf_memPut h a b) _ _ _ (by omega), memGet_memPut h]
      simp
    | succ k =>
      have := ih (Memory.wf_memPut h a b) (a + 1) k (by simpa using hk)
      rw [show a + (k + 1) = a + 1 + k by omega, this]
      rfl

end Sys2Proof.Machine
end

