-- ==== Sys2Proof/Laws/Door.lean ====
section
/-!
SUPPORT. What a door-checked transaction and a raised event can do, once each.
-/

namespace Sys2Proof.Machine

/-- A transaction whose initiator issues none. -/
theorem doorAccess_silent {i : Init} {a n : Nat} {k : Access} {f : State → State} {s : State} (h : issues i s = false) :
    doorAccess i a n k f s = s := by
  simp [doorAccess, h]

/-- A refused transaction. -/
theorem doorAccess_refused {i : Init} {a n c : Nat} {k : Access} {f : State → State} {s : State}
    (h : issues i s = true) (hd : doorCheck i a n k s = some c) : doorAccess i a n k f s = refuse i a k c s := by
  simp [doorAccess, h, hd]

/-- An admitted transaction. -/
theorem doorAccess_admitted {i : Init} {a n : Nat} {k : Access} {f : State → State} {s : State}
    (h : issues i s = true) (hd : doorCheck i a n k s = none) : doorAccess i a n k f s = f s := by
  simp [doorAccess, h, hd]

/-- An admitted store. -/
theorem doorStore_admits {i : Init} {a : Nat} {f : State → State} {s : State} (h : Admits i a .store s) :
    doorStore i a f s = acknowledge (f s) := by
  rw [doorStore, doorAccess_admitted h.1 h.2]

/-- An admitted load. -/
theorem doorLoad_admits {i : Init} {a : Nat} {f : State → Word × State} {s : State} (h : Admits i a .load s) :
    doorLoad i a f s = respondWord (f s).1 (f s).2 := by
  rw [doorLoad, doorAccess_admitted h.1 h.2]

/-- A raised event changes what destinations of events hold, and nothing else. -/
theorem raiseEvt_dests (e : Nat) (s : State) : ∃ d, raiseEvt e s = { s with rooms := { s.rooms with dests := d } } := by
  unfold raiseEvt
  generalize routeDests (evtRoute e s) = l
  induction l generalizing s with
  | nil => exact ⟨s.rooms.dests, rfl⟩
  | cons x r ih =>
    obtain ⟨d, h⟩ := ih (pendAt e x s)
    exact ⟨d, by rw [List.foldl_cons, h]; rfl⟩

@[simp] theorem raiseEvt_regs (e : Nat) (s : State) : (raiseEvt e s).regs = s.regs := by
  obtain ⟨d, h⟩ := raiseEvt_dests e s
  rw [h]

@[simp] theorem raiseEvt_cores (e : Nat) (s : State) : (raiseEvt e s).rooms.cores = s.rooms.cores := by
  obtain ⟨d, h⟩ := raiseEvt_dests e s
  rw [h]

@[simp] theorem rd_raiseEvt (e : Nat) (s : State) (a : Nat) : rd a (raiseEvt e s) = rd a s := by
  unfold rd
  rw [raiseEvt_regs]

@[simp] theorem fget_raiseEvt (e : Nat) (s : State) (b : Nat) (f : Fld) : fget b f (raiseEvt e s) = fget b f s := by
  unfold fget
  rw [rd_raiseEvt]

@[simp] theorem fis_raiseEvt (e : Nat) (s : State) (b : Nat) (f : Fld) : fis b f (raiseEvt e s) = fis b f s := by
  unfold fis
  rw [fget_raiseEvt]

@[simp] theorem Registers.wf_raiseEvt {s : State} (e : Nat) : Registers.wf (raiseEvt e s) = Registers.wf s := by
  unfold Registers.wf
  rw [raiseEvt_regs]

/-- The numbers of the initiators tell them apart. -/
theorem initAt_num (i : Init) : initAt i.num = i := by
  cases i with
  | steward => rfl
  | linkCore n => revert n; decide
  | appCore c => revert c; decide
  | debug => rfl

/-- What a front end holds, read after it is set. -/
@[simp] theorem feGet_fePut_self (fe : Fe) (v : FeState) (s : State) : feGet fe (fePut fe v s) = v := by
  cases fe <;> rfl

@[simp] theorem fePut_fePut (fe : Fe) (v w : FeState) (s : State) : fePut fe w (fePut fe v s) = fePut fe w s := by
  cases fe <;> rfl

@[simp] theorem feGet_wr (fe : Fe) (a : Nat) (v : Word) (s : State) : feGet fe (wr a v s) = feGet fe s := by
  cases fe <;> rfl

@[simp] theorem feGet_fset (fe : Fe) (b : Nat) (f : Fld) (v : Nat) (s : State) :
    feGet fe (fset b f v s) = feGet fe s := by
  cases fe <;> rfl

@[simp] theorem rd_fePut (fe : Fe) (v : FeState) (s : State) (a : Nat) : rd a (fePut fe v s) = rd a s := by
  cases fe <;> rfl

@[simp] theorem fget_fePut (fe : Fe) (v : FeState) (s : State) (b : Nat) (f : Fld) :
    fget b f (fePut fe v s) = fget b f s := by
  cases fe <;> rfl

@[simp] theorem fis_fePut (fe : Fe) (v : FeState) (s : State) (b : Nat) (f : Fld) :
    fis b f (fePut fe v s) = fis b f s := by
  cases fe <;> rfl

@[simp] theorem Registers.wf_fePut (fe : Fe) (v : FeState) (s : State) :
    Registers.wf (fePut fe v s) = Registers.wf s := by
  cases fe <;> rfl

@[simp] theorem feGet_raiseEvt (fe : Fe) (e : Nat) (s : State) : feGet fe (raiseEvt e s) = feGet fe s := by
  obtain ⟨d, h⟩ := raiseEvt_dests e s
  rw [h]
  cases fe <;> rfl

end Sys2Proof.Machine
end

