-- ==== Sys2Proof/Laws/Keeps.lean ====
section
/-!
SUPPORT. What no operation of the machine breaks: the queue of commands stays as it was, and the register file and the
memories keep their canonical form.
-/

namespace Sys2Proof.Machine

/-- From `s` to `t` the queue stays and the canonical forms are kept; where `b` is true, the memories stay too. -/
structure Keeps (b : Bool) (s t : State) : Prop where
  pending : t.pending = s.pending
  regs : Registers.wf s = true → Registers.wf t = true
  mem : Memory.wf s = true → Memory.wf t = true
  memSame : b = true → t.mem = s.mem ∧ t.noise = s.noise

theorem Keeps.rfl {b : Bool} {s : State} : Keeps b s s := ⟨Eq.refl _, id, id, fun _ => ⟨Eq.refl _, Eq.refl _⟩⟩

/-- A change of anything but the queue, the registers, the memories and what unwritten octets read as. -/
theorem Keeps.same {b : Bool} {s u t : State} (h : Keeps b s u) (hp : t.pending = u.pending) (hr : t.regs = u.regs)
    (hm : t.mem = u.mem) (hn : t.noise = u.noise) : Keeps b s t := by
  refine ⟨hp.trans h.pending, fun w => ?_, fun w => ?_, fun e => ?_⟩
  · have := h.regs w; unfold Registers.wf at *; rw [hr]; exact this
  · have := h.mem w; unfold Memory.wf at *; rw [hm, hn]; exact this
  · rw [hm, hn]; exact h.memSame e

/-- Every octet of memory reads as before. -/
theorem Keeps.memGet {s t : State} (h : Keeps true s t) (a : Nat) : memGet a t = memGet a s := by
  unfold Machine.memGet
  rw [(h.memSame (Eq.refl _)).1, (h.memSame (Eq.refl _)).2]

/-- A change of anything else, written out as a state. -/
theorem Keeps.update {b : Bool} {σ u : State}
    {bus : BusState} {rooms : RoomState} {plan : PlanState} {ph : PhState} {feA : FeState} {feB : FeState} {lic :
    LicState} {queues : Tbl QueueState} {chzA : ChzState} {chzB : ChzState} {lanes : Tbl LaneState} {verdicts :
    List ClosedFrame} {survey : Tbl (List Int)} {fdxA : FdxState} {fdxB : FdxState} {pow : PowState} {flash :
    FlashState} {cip : CipState} {keys : KeyState} {link : LinkState} {knk : KnkState} {time : TimeState} {timers
    : Tbl TimerPend} {cal : CalState} {sup : SupState} {host : HostState} {uarts : Tbl UartState} {i2cs : Tbl
    I2cState} {gpio : GpioState} {dbg : DbgState} {upd : UpdState} {freeCtr : Nat} :
    Keeps b σ (State.mk u.pending u.regs u.mem bus rooms plan ph feA feB lic queues chzA chzB lanes verdicts survey fdxA fdxB pow
      flash cip keys link knk time timers cal sup host uarts i2cs gpio dbg upd u.noise freeCtr) ↔ Keeps b σ u :=
  ⟨fun h => h.same (Eq.refl _) (Eq.refl _) (Eq.refl _) (Eq.refl _),
   fun h => h.same (Eq.refl _) (Eq.refl _) (Eq.refl _) (Eq.refl _)⟩

theorem Keeps.ite {b : Bool} {s u v : State} {c : Prop} [Decidable c] (ha : Keeps b s u) (hb : Keeps b s v) :
    Keeps b s (if c then u else v) := by
  split <;> assumption

theorem Keeps.foldl {b : Bool} {α : Type} {s : State} (f : State → α → State)
    (H : ∀ u x, Keeps b s u → Keeps b s (f u x)) : ∀ (l : List α) {t : State}, Keeps b s t → Keeps b s (l.foldl f t)
  | [], _, h => h
  | x :: r, _, h => Keeps.foldl f H r (H _ x h)

theorem Keeps.foldl_snd {b : Bool} {α β : Type} {σ : State} (f : β × State → α → β × State)
    (H : ∀ u x, Keeps b σ u.2 → Keeps b σ (f u x).2) :
    ∀ (l : List α) {t : β × State}, Keeps b σ t.2 → Keeps b σ (l.foldl f t).2
  | [], _, h => h
  | x :: r, _, h => Keeps.foldl_snd f H r (H _ x h)

theorem Keeps.of_pair {b : Bool} {β : Type} {σ t : State} {p : β × State} {a : β} (e : p = (a, t))
    (h : Keeps b σ p.2) : Keeps b σ t := by
  rw [e] at h; exact h

/-- What holds of an outcome that is a next state. -/
def KeepsOut (b : Bool) (s : State) (o : Host.Outcome State Fault Refusal) : Prop := ∀ t, o = .next t → Keeps b s t

theorem KeepsOut.next {b : Bool} {s t : State} (h : Keeps b s t) : KeepsOut b s (.next t) := by
  intro u e; cases e; exact h

theorem twf_default {α : Type} [DecidableEq α] {d e : Nat → α} {t : Tbl α} (h : twf d t = true)
    (H : ∀ p ∈ t, e p.1 = d p.1) : twf e t = true := by
  induction t with
  | nil => rfl
  | cons p r ih =>
    obtain ⟨i, v⟩ := p
    obtain ⟨h1, h2, h3⟩ := twf_cons.1 h
    refine twf_cons.2 ⟨?_, h2, ih h3 (fun q hq => H q (List.mem_cons_of_mem _ hq))⟩
    rw [H (i, v) List.mem_cons_self]; exact h1

theorem wr_keeps {b : Bool} {s t : State} (h : Keeps b s t) (a : Nat) (v : Word) : Keeps b s (wr a v t) :=
  ⟨h.pending, fun w => twf_tset (h.regs w) a v, h.mem, h.memSame⟩

theorem resetRegs_keeps {b : Bool} {s t : State} (h : Keeps b s t) (p : Nat → Bool) : Keeps b s (resetRegs p t) := by
  refine ⟨h.pending, fun w => ?_, h.mem, h.memSame⟩
  exact twf_tkeep (h.regs w) (fun a => !p a)

theorem memPut_keeps {s t : State} (h : Keeps false s t) (a : Nat) (v : Byte) : Keeps false s (memPut a v t) := by
  refine ⟨h.pending, h.regs, fun w => ?_, fun e => by contradiction⟩
  have := h.mem w
  simp only [Memory.wf, Bool.and_eq_true] at *
  exact ⟨this.1, twf_tset this.2 a v⟩

theorem memClear_keeps {s t : State} (h : Keeps false s t) (p : Nat → Bool) : Keeps false s (memClear p t) := by
  refine ⟨h.pending, h.regs, fun w => ?_, fun e => by contradiction⟩
  have := h.mem w
  simp only [Memory.wf, Bool.and_eq_true] at *
  exact ⟨this.1, twf_tkeep this.2 (fun a => !p a)⟩

theorem memMark_keeps {s t : State} (h : Keeps false s t) (d n : Nat) : Keeps false s (memMark d n t) := by
  refine ⟨h.pending, h.regs, fun w => ?_, fun e => by contradiction⟩
  have := h.mem w
  simp only [Memory.wf, Bool.and_eq_true] at *
  refine ⟨twf_tset this.1 d n, twf_default (twf_tkeep this.2 (fun a => memDomain a != d)) ?_⟩
  intro p hp
  have hd : memDomain p.1 ≠ d := by simpa [tkeep] using (List.mem_filter.1 hp).2
  simp only [memMark, memInit]
  rw [tget_tset this.1, if_neg hd]

end Sys2Proof.Machine
end

