-- ==== Sys2Proof/Laws/KeepsBase.lean ====
section
/-!
SUPPORT. The operations of the files imported here keep the queue and the canonical forms, and those that store
nothing keep the memories: one lemma per operation, by the operations it calls.
-/

namespace Sys2Proof.Machine

open Reg

theorem fset_keeps {β : Bool} {σ s : State} (h : Keeps β σ s) (b : Nat) (f : Fld) (v : Nat) :
    Keeps β σ (fset b f v s) := by
  unfold fset
  repeat' first
    | with_reducible assumption | with_reducible apply wr_keeps | dsimp only | split

theorem fsetS_keeps {β : Bool} {σ s : State} (h : Keeps β σ s) (b : Nat) (f : Fld) (v : Int) :
    Keeps β σ (fsetS b f v s) := by
  unfold fsetS
  repeat' first
    | with_reducible assumption | with_reducible apply fset_keeps | dsimp only | split

theorem fcount_keeps {β : Bool} {σ s : State} (h : Keeps β σ s) (b : Nat) (f : Fld) :
    Keeps β σ (fcount b f s) := by
  unfold fcount
  repeat' first
    | with_reducible assumption | with_reducible apply fset_keeps | dsimp only | split

theorem fcountBy_keeps {β : Bool} {σ s : State} (h : Keeps β σ s) (b : Nat) (f : Fld) (k : Nat) :
    Keeps β σ (fcountBy b f k s) := by
  unfold fcountBy
  repeat' first
    | with_reducible assumption | with_reducible apply fset_keeps | dsimp only | split

theorem fnext_keeps {β : Bool} {σ s : State} (h : Keeps β σ s) (b : Nat) (f : Fld) :
    Keeps β σ (fnext b f s) := by
  unfold fnext
  repeat' first
    | with_reducible assumption | with_reducible apply fset_keeps | dsimp only | split

theorem wr64_keeps {β : Bool} {σ s : State} (h : Keeps β σ s) (a : Nat) (v : Word64) :
    Keeps β σ (wr64 a v s) := by
  unfold wr64
  repeat' first
    | with_reducible assumption | with_reducible apply wr_keeps | dsimp only | split

theorem wr48_keeps {β : Bool} {σ s : State} (h : Keeps β σ s) (a : Nat) (v : Nat) :
    Keeps β σ (wr48 a v s) := by
  unfold wr48
  repeat' first
    | with_reducible assumption | with_reducible apply wr_keeps | dsimp only | split

theorem wrList_keeps {β : Bool} {σ s : State} (h : Keeps β σ s) (a : Nat) (l : List Word) : Keeps β σ (wrList a l s) := by
  induction l generalizing a s with
  | nil => exact h
  | cons x r ih => exact ih (wr_keeps h _ _) _

theorem memWrite_keeps {σ s : State} (h : Keeps false σ s) (a : Nat) (l : List Byte) : Keeps false σ (memWrite a l s) := by
  induction l generalizing a s with
  | nil => exact h
  | cons x r ih => exact ih (memPut_keeps h _ _) _

theorem drawFree_keeps {β : Bool} {σ s : State} (h : Keeps β σ s) :
    Keeps β σ (drawFree s) := by
  unfold drawFree
  repeat' first
    | with_reducible assumption | simp only [Keeps.update] | dsimp only | split

theorem respond_keeps {β : Bool} {σ s : State} (h : Keeps β σ s) (w : Word64) :
    Keeps β σ (respond w s) := by
  unfold respond
  repeat' first
    | with_reducible assumption | simp only [Keeps.update] | dsimp only | split

theorem respondWord_keeps {β : Bool} {σ s : State} (h : Keeps β σ s) (w : Word) :
    Keeps β σ (respondWord w s) := by
  unfold respondWord
  repeat' first
    | with_reducible assumption | with_reducible apply respond_keeps | dsimp only | split

theorem acknowledge_keeps {β : Bool} {σ s : State} (h : Keeps β σ s) :
    Keeps β σ (acknowledge s) := by
  unfold acknowledge
  repeat' first
    | with_reducible assumption | simp only [Keeps.update] | dsimp only | split

theorem destSet_keeps {β : Bool} {σ s : State} (h : Keeps β σ s) (d : Nat) (v : Dest) :
    Keeps β σ (destSet d v s) := by
  unfold destSet
  repeat' first
    | with_reducible assumption | simp only [Keeps.update] | dsimp only | split

theorem pendAt_keeps {β : Bool} {σ s : State} (h : Keeps β σ s) (e : Nat) (d : Nat) :
    Keeps β σ (pendAt e d s) := by
  unfold pendAt
  repeat' first
    | with_reducible assumption | with_reducible apply destSet_keeps | simp only [Keeps.update] | dsimp only | split

theorem raiseEvt_keeps {β : Bool} {σ s : State} (h : Keeps β σ s) (e : Nat) :
    Keeps β σ (raiseEvt e s) := by
  unfold raiseEvt
  repeat' first
    | with_reducible assumption | with_reducible apply pendAt_keeps
    | (with_reducible apply Keeps.foldl; intro u y hu) | dsimp only | split

theorem note_keeps {β : Bool} {σ s : State} (h : Keeps β σ s) (b : Nat) (f : Fld) (e : Nat) :
    Keeps β σ (note b f e s) := by
  unfold note
  repeat' first
    | with_reducible assumption | with_reducible apply raiseEvt_keeps | with_reducible apply fset_keeps
    | with_reducible apply Keeps.ite | split | dsimp only

theorem coreSet_keeps {β : Bool} {σ s : State} (h : Keeps β σ s) (k : Nat) (c : CoreCtx) :
    Keeps β σ (coreSet k c s) := by
  unfold coreSet
  repeat' first
    | with_reducible assumption | simp only [Keeps.update] | dsimp only | split

theorem ledgerSet_keeps {β : Bool} {σ s : State} (h : Keeps β σ s) (r : Nat) (e : Option LedgerEntry) :
    Keeps β σ (ledgerSet r e s) := by
  unfold ledgerSet
  repeat' first
    | with_reducible assumption | simp only [Keeps.update] | dsimp only | split

theorem pdSet_keeps {β : Bool} {σ s : State} (h : Keeps β σ s) (p : Nat) (on : Bool) :
    Keeps β σ (pdSet p on s) := by
  unfold pdSet
  repeat' first
    | with_reducible assumption | with_reducible apply wr_keeps | dsimp only | split

theorem recordRefusal_keeps {β : Bool} {σ s : State} (h : Keeps β σ s) (i : Init) (room : Nat) (a : Nat) (k :
    Access) (cause : Nat) :
    Keeps β σ (recordRefusal i room a k cause s) := by
  unfold recordRefusal
  try lift_lets
  repeat' first
    | with_reducible assumption
    | (intro x; first
        | (have hx : Keeps β σ x := ?_); clear_value x | (have hx : Keeps β σ x.2 := ?_); clear_value x
        | (have hx : Keeps β σ x.2.2 := ?_); clear_value x | clear_value x)
    | with_reducible apply fcount_keeps | with_reducible apply raiseEvt_keeps | with_reducible apply wr_keeps
    | with_reducible apply fset_keeps | with_reducible apply Keeps.ite | split | lift_lets | subst x | dsimp only

theorem parityFault_keeps {β : Bool} {σ s : State} (h : Keeps β σ s) :
    Keeps β σ (parityFault s) := by
  unfold parityFault
  repeat' first
    | with_reducible assumption | with_reducible apply raiseEvt_keeps | with_reducible apply fset_keeps | dsimp only
    | split

theorem refuse_keeps {β : Bool} {σ s : State} (h : Keeps β σ s) (i : Init) (a : Nat) (k : Access) (cause : Nat) :
    Keeps β σ (refuse i a k cause s) := by
  unfold refuse
  try lift_lets
  repeat' first
    | with_reducible assumption
    | (intro x; first
        | (have hx : Keeps β σ x := ?_); clear_value x | (have hx : Keeps β σ x.2 := ?_); clear_value x
        | (have hx : Keeps β σ x.2.2 := ?_); clear_value x | clear_value x)
    | with_reducible apply recordRefusal_keeps | with_reducible apply parityFault_keeps
    | with_reducible apply coreSet_keeps | with_reducible apply Keeps.ite | split | simp only [Keeps.update]
    | lift_lets | subst x | dsimp only

theorem doorAccess_keeps {β : Bool} {σ s : State} (h : Keeps β σ s) (i : Init) (a : Nat) (size : Nat) (k : Access)
    (f : State → State) (hf : ∀ u, Keeps β σ u → Keeps β σ (f u)) :
    Keeps β σ (doorAccess i a size k f s) := by
  unfold doorAccess
  repeat' first
    | with_reducible assumption | apply hf | with_reducible apply refuse_keeps | with_reducible apply Keeps.ite
    | split | simp only [Keeps.update] | dsimp only

theorem doorStore_keeps {β : Bool} {σ s : State} (h : Keeps β σ s) (i : Init) (a : Nat) (f : State → State) (hf : ∀
    u, Keeps β σ u → Keeps β σ (f u)) :
    Keeps β σ (doorStore i a f s) := by
  unfold doorStore
  repeat' first
    | with_reducible assumption | apply hf | with_reducible apply doorAccess_keeps
    | with_reducible apply acknowledge_keeps | (intro u; intros) | dsimp only | split

theorem doorLoad_keeps {β : Bool} {σ s : State} (h : Keeps β σ s) (i : Init) (a : Nat) (f : State → Word × State)
    (hf : ∀ u, Keeps β σ u → Keeps β σ (f u).2) :
    Keeps β σ (doorLoad i a f s) := by
  unfold doorLoad
  try lift_lets
  repeat' first
    | with_reducible assumption
    | (intro x; first
        | (have hx : Keeps β σ x := ?_); clear_value x | (have hx : Keeps β σ x.2 := ?_); clear_value x
        | (have hx : Keeps β σ x.2.2 := ?_); clear_value x | clear_value x)
    | apply hf | with_reducible apply doorAccess_keeps | with_reducible apply respondWord_keeps | (intro u; intros)
    | lift_lets | subst x | dsimp only | split

theorem evtClaim_keeps {β : Bool} {σ s : State} (h : Keeps β σ s) (k : Nat) :
    Keeps β σ (evtClaim k s).2 := by
  unfold evtClaim
  try lift_lets
  repeat' first
    | with_reducible assumption
    | (intro x; first
        | (have hx : Keeps β σ x := ?_); clear_value x | (have hx : Keeps β σ x.2 := ?_); clear_value x
        | (have hx : Keeps β σ x.2.2 := ?_); clear_value x | clear_value x)
    | with_reducible apply destSet_keeps | split | simp only [Keeps.update] | lift_lets | subst x | dsimp only

theorem evtDone_keeps {β : Bool} {σ s : State} (h : Keeps β σ s) (k : Nat) (e : Nat) :
    Keeps β σ (evtDone k e s) := by
  unfold evtDone
  try lift_lets
  repeat' first
    | with_reducible assumption
    | (intro x; first
        | (have hx : Keeps β σ x := ?_); clear_value x | (have hx : Keeps β σ x.2 := ?_); clear_value x
        | (have hx : Keeps β σ x.2.2 := ?_); clear_value x | clear_value x)
    | with_reducible apply destSet_keeps | with_reducible apply Keeps.ite | split | simp only [Keeps.update]
    | lift_lets | subst x | (refine Keeps.of_pair (by assumption) ?_) | dsimp only

theorem evtThresh_keeps {β : Bool} {σ s : State} (h : Keeps β σ s) (k : Nat) (t : Nat) :
    Keeps β σ (evtThresh k t s) := by
  unfold evtThresh
  repeat' first
    | with_reducible assumption | with_reducible apply destSet_keeps | split | simp only [Keeps.update] | dsimp only

theorem evtErrWrite_keeps {β : Bool} {σ s : State} (h : Keeps β σ s) (k : Nat) (data : Word) :
    Keeps β σ (evtErrWrite k data s) := by
  unfold evtErrWrite
  repeat' first
    | with_reducible assumption | with_reducible apply destSet_keeps | with_reducible apply Keeps.ite | split
    | simp only [Keeps.update] | dsimp only

theorem execEventSourceRaise_keeps {β : Bool} {σ s : State} (h : Keeps β σ s) (event : BitVec 10) :
    KeepsOut β σ (execEventSourceRaise event s) := by
  unfold execEventSourceRaise
  repeat' first
    | with_reducible assumption | with_reducible apply KeepsOut.next | with_reducible apply raiseEvt_keeps
    | with_reducible apply Keeps.ite | split | dsimp only

theorem execInterruptTaken_keeps {β : Bool} {σ s : State} (h : Keeps β σ s) (core : Fin 7) :
    KeepsOut β σ (execInterruptTaken core s) := by
  unfold execInterruptTaken
  repeat' first
    | with_reducible assumption | with_reducible apply KeepsOut.next | with_reducible apply coreSet_keeps | split
    | simp only [Keeps.update] | dsimp only

theorem execEvtClaim_keeps {β : Bool} {σ s : State} (h : Keeps β σ s) (i : Init) :
    KeepsOut β σ (execEvtClaim i s) := by
  unfold execEvtClaim
  repeat' first
    | with_reducible assumption | with_reducible apply KeepsOut.next | with_reducible apply doorLoad_keeps
    | with_reducible apply evtClaim_keeps | (intro u; intros) | dsimp only | split

theorem execEvtDone_keeps {β : Bool} {σ s : State} (h : Keeps β σ s) (i : Init) (data : Word) :
    KeepsOut β σ (execEvtDone i data s) := by
  unfold execEvtDone
  repeat' first
    | with_reducible assumption | with_reducible apply KeepsOut.next | with_reducible apply doorStore_keeps
    | with_reducible apply evtDone_keeps | (intro u; intros) | dsimp only | split

theorem flcNote_keeps {β : Bool} {σ s : State} (h : Keeps β σ s) (f : Fld) :
    Keeps β σ (flcNote f s) := by
  unfold flcNote
  repeat' first
    | with_reducible assumption | with_reducible apply note_keeps | dsimp only | split

theorem flcErr_keeps {β : Bool} {σ s : State} (h : Keeps β σ s) (f : Fld) :
    Keeps β σ (flcErr f s) := by
  unfold flcErr
  repeat' first
    | with_reducible assumption | with_reducible apply note_keeps | dsimp only | split

theorem dropLines_keeps {β : Bool} {σ s : State} (h : Keeps β σ s) (p : CacheLine → Bool) :
    Keeps β σ (dropLines p s) := by
  unfold dropLines
  repeat' first
    | with_reducible assumption | simp only [Keeps.update] | dsimp only | split

theorem flcWs_keeps {β : Bool} {σ s : State} (h : Keeps β σ s) :
    Keeps β σ (flcWs s) := by
  unfold flcWs
  try lift_lets
  repeat' first
    | with_reducible assumption
    | (intro x; first
        | (have hx : Keeps β σ x := ?_); clear_value x | (have hx : Keeps β σ x.2 := ?_); clear_value x
        | (have hx : Keeps β σ x.2.2 := ?_); clear_value x | clear_value x)
    | with_reducible apply fset_keeps | with_reducible apply flcNote_keeps | with_reducible apply Keeps.ite | split
    | lift_lets | subst x | dsimp only

theorem bankPut_keeps {β : Bool} {σ s : State} (h : Keeps β σ s) (k : Nat) (b : FlashBank) (suspended : Bool) :
    Keeps β σ (bankPut k b suspended s) := by
  unfold bankPut
  try lift_lets
  repeat' first
    | with_reducible assumption
    | (intro x; first
        | (have hx : Keeps β σ x := ?_); clear_value x | (have hx : Keeps β σ x.2 := ?_); clear_value x
        | (have hx : Keeps β σ x.2.2 := ?_); clear_value x | clear_value x)
    | with_reducible apply fset_keeps | with_reducible apply Keeps.ite | split | simp only [Keeps.update]
    | lift_lets | subst x | dsimp only

theorem garble_keeps {β : Bool} {σ s : State} (h : Keeps β σ s) (a : Nat) (n : Nat) :
    Keeps β σ (garble a n s) := by
  unfold garble
  repeat' first
    | with_reducible assumption | simp only [Keeps.update] | dsimp only | split

theorem eraseRange_keeps {σ s : State} (h : Keeps false σ s) (a : Nat) (n : Nat) :
    Keeps false σ (eraseRange a n s) := by
  unfold eraseRange
  try lift_lets
  repeat' first
    | with_reducible assumption
    | (intro x; first
        | (have hx : Keeps false σ x := ?_); clear_value x | (have hx : Keeps false σ x.2 := ?_); clear_value x
        | (have hx : Keeps false σ x.2.2 := ?_); clear_value x | clear_value x)
    | with_reducible apply memClear_keeps | simp only [Keeps.update] | lift_lets | subst x | dsimp only | split

theorem flashInvalidate_keeps {β : Bool} {σ s : State} (h : Keeps β σ s) (a : Nat) (n : Nat) :
    Keeps β σ (flashInvalidate a n s) := by
  unfold flashInvalidate
  try lift_lets
  repeat' first
    | with_reducible assumption
    | (intro x; first
        | (have hx : Keeps β σ x := ?_); clear_value x | (have hx : Keeps β σ x.2 := ?_); clear_value x
        | (have hx : Keeps β σ x.2.2 := ?_); clear_value x | clear_value x)
    | with_reducible apply dropLines_keeps | simp only [Keeps.update] | lift_lets | subst x | dsimp only | split

theorem eraseCount_keeps {β : Bool} {σ s : State} (h : Keeps β σ s) (b : Nat) :
    Keeps β σ (eraseCount b s) := by
  unfold eraseCount
  try lift_lets
  repeat' first
    | with_reducible assumption
    | (intro x; first
        | (have hx : Keeps β σ x := ?_); clear_value x | (have hx : Keeps β σ x.2 := ?_); clear_value x
        | (have hx : Keeps β σ x.2.2 := ?_); clear_value x | clear_value x)
    | with_reducible apply fcount_keeps | with_reducible apply flcNote_keeps | with_reducible apply fset_keeps
    | with_reducible apply Keeps.ite | split | lift_lets | subst x | dsimp only

theorem eraseCounts_keeps {β : Bool} {σ s : State} (h : Keeps β σ s) (b n : Nat) : Keeps β σ (eraseCounts b n s) := by
  induction n generalizing b s with
  | zero => exact h
  | succ n ih => exact ih (eraseCount_keeps h _) _

theorem storeBytes_keeps {σ s : State} (h : Keeps false σ s) (a : Nat) (l : List Byte) :
    Keeps false σ (storeBytes a l s) := by
  unfold storeBytes
  repeat' first
    | with_reducible assumption | with_reducible apply flcErr_keeps | with_reducible apply memWrite_keeps
    | with_reducible apply Keeps.ite | split | dsimp only

theorem writeBack_keeps {σ s : State} (h : Keeps false σ s) (l : CacheLine) :
    Keeps false σ (writeBack l s) := by
  unfold writeBack
  try lift_lets
  repeat' first
    | with_reducible assumption
    | (intro x; first
        | (have hx : Keeps false σ x := ?_); clear_value x | (have hx : Keeps false σ x.2 := ?_); clear_value x
        | (have hx : Keeps false σ x.2.2 := ?_); clear_value x | clear_value x)
    | with_reducible apply recordRefusal_keeps | with_reducible apply storeBytes_keeps
    | with_reducible apply Keeps.ite | split | simp only [Keeps.update] | lift_lets | subst x | dsimp only

theorem cleanLines_keeps {σ s : State} (h : Keeps false σ s) (p : CacheLine → Bool) :
    Keeps false σ (cleanLines p s) := by
  unfold cleanLines
  try lift_lets
  repeat' first
    | with_reducible assumption
    | (intro x; first
        | (have hx : Keeps false σ x := ?_); clear_value x | (have hx : Keeps false σ x.2 := ?_); clear_value x
        | (have hx : Keeps false σ x.2.2 := ?_); clear_value x | clear_value x)
    | with_reducible apply writeBack_keeps | with_reducible apply Keeps.ite
    | (with_reducible apply Keeps.foldl; intro u y hu) | split | simp only [Keeps.update] | lift_lets | subst x
    | dsimp only

theorem ctxAbandon_keeps {β : Bool} {σ s : State} (h : Keeps β σ s) (c : Nat) (r : Nat) (k : Access) (cause : Nat) :
    Keeps β σ (ctxAbandon c r k cause s) := by
  unfold ctxAbandon
  repeat' first
    | with_reducible assumption | with_reducible apply fset_keeps | with_reducible apply recordRefusal_keeps
    | dsimp only | split

theorem ctxSave_keeps {σ s : State} (h : Keeps false σ s) (c : Nat) (r : Nat) :
    Keeps false σ (ctxSave c r s) := by
  unfold ctxSave
  repeat' first
    | with_reducible assumption | with_reducible apply ctxAbandon_keeps | with_reducible apply fset_keeps
    | with_reducible apply storeBytes_keeps | (with_reducible apply Keeps.foldl; intro u y hu) | split
    | simp only [Keeps.update] | dsimp only

theorem ctxLoad_keeps {β : Bool} {σ s : State} (h : Keeps β σ s) (c : Nat) (r : Nat) :
    Keeps β σ (ctxLoad c r s) := by
  unfold ctxLoad
  try lift_lets
  repeat' first
    | with_reducible assumption
    | (intro x; first
        | (have hx : Keeps β σ x := ?_); clear_value x | (have hx : Keeps β σ x.2 := ?_); clear_value x
        | (have hx : Keeps β σ x.2.2 := ?_); clear_value x | clear_value x)
    | with_reducible apply coreSet_keeps | with_reducible apply ctxAbandon_keeps | with_reducible apply fset_keeps
    | with_reducible apply Keeps.ite | split | simp only [Keeps.update] | lift_lets | subst x | dsimp only

theorem initForget_keeps {β : Bool} {σ s : State} (h : Keeps β σ s) (k : Nat) :
    Keeps β σ (initForget k s) := by
  unfold initForget
  repeat' first
    | with_reducible assumption | simp only [Keeps.update] | dsimp only | split

theorem parkCore_keeps {σ s : State} (h : Keeps false σ s) (c : Nat) :
    Keeps false σ (parkCore c s) := by
  unfold parkCore
  try lift_lets
  repeat' first
    | with_reducible assumption
    | (intro x; first
        | (have hx : Keeps false σ x := ?_); clear_value x | (have hx : Keeps false σ x.2 := ?_); clear_value x
        | (have hx : Keeps false σ x.2.2 := ?_); clear_value x | clear_value x)
    | with_reducible apply ctxSave_keeps | with_reducible apply cleanLines_keeps
    | with_reducible apply coreSet_keeps | with_reducible apply fset_keeps | with_reducible apply initForget_keeps
    | split | simp only [Keeps.update] | lift_lets | subst x | dsimp only

theorem startRoom_keeps {β : Bool} {σ s : State} (h : Keeps β σ s) (c : Nat) (r : Nat) :
    Keeps β σ (startRoom c r s) := by
  unfold startRoom
  try lift_lets
  repeat' first
    | with_reducible assumption
    | (intro x; first
        | (have hx : Keeps β σ x := ?_); clear_value x | (have hx : Keeps β σ x.2 := ?_); clear_value x
        | (have hx : Keeps β σ x.2.2 := ?_); clear_value x | clear_value x)
    | with_reducible apply dropLines_keeps | with_reducible apply ctxLoad_keeps | with_reducible apply pdSet_keeps
    | with_reducible apply coreSet_keeps | with_reducible apply fset_keeps | with_reducible apply raiseEvt_keeps
    | with_reducible apply Keeps.ite | split | simp only [Keeps.update] | lift_lets | subst x | dsimp only

theorem roomCommit_keeps {σ s : State} (h : Keeps false σ s) (r : Nat) :
    Keeps false σ (roomCommit r s).2 := by
  unfold roomCommit
  try lift_lets
  repeat' first
    | with_reducible assumption
    | (intro x; first
        | (have hx : Keeps false σ x := ?_); clear_value x | (have hx : Keeps false σ x.2 := ?_); clear_value x
        | (have hx : Keeps false σ x.2.2 := ?_); clear_value x | clear_value x)
    | with_reducible apply dropLines_keeps | with_reducible apply cleanLines_keeps
    | with_reducible apply ledgerSet_keeps | with_reducible apply Keeps.ite | split | simp only [Keeps.update]
    | lift_lets | subst x | dsimp only

theorem coreGate_keeps {β : Bool} {σ s : State} (h : Keeps β σ s) (c : Nat) :
    Keeps β σ (coreGate c s) := by
  unfold coreGate
  repeat' first
    | with_reducible assumption | with_reducible apply pdSet_keeps | with_reducible apply dropLines_keeps
    | with_reducible apply Keeps.ite | split | dsimp only

theorem suspendRoom_keeps {σ s : State} (h : Keeps false σ s) (r : Nat) :
    Keeps false σ (suspendRoom r s) := by
  unfold suspendRoom
  try lift_lets
  repeat' first
    | with_reducible assumption
    | (intro x; first
        | (have hx : Keeps false σ x := ?_); clear_value x | (have hx : Keeps false σ x.2 := ?_); clear_value x
        | (have hx : Keeps false σ x.2.2 := ?_); clear_value x | clear_value x)
    | with_reducible apply coreGate_keeps | with_reducible apply parkCore_keeps | with_reducible apply fset_keeps
    | split | simp only [Keeps.update] | lift_lets | subst x | dsimp only

theorem roomSuspend_keeps {σ s : State} (h : Keeps false σ s) (r : Nat) :
    Keeps false σ (roomSuspend r s).2 := by
  unfold roomSuspend
  repeat' first
    | with_reducible assumption | with_reducible apply suspendRoom_keeps | with_reducible apply Keeps.ite | split
    | dsimp only

theorem roomResume_keeps {β : Bool} {σ s : State} (h : Keeps β σ s) (r : Nat) :
    Keeps β σ (roomResume r s).2 := by
  unfold roomResume
  repeat' first
    | with_reducible assumption | with_reducible apply fset_keeps | with_reducible apply Keeps.ite | split
    | dsimp only

theorem roomSwitch_keeps {σ s : State} (h : Keeps false σ s) (c : Nat) (r : Nat) :
    Keeps false σ (roomSwitch c r s).2 := by
  unfold roomSwitch
  repeat' first
    | with_reducible assumption | with_reducible apply startRoom_keeps | with_reducible apply parkCore_keeps
    | with_reducible apply Keeps.ite | split | dsimp only

theorem ledgRun_keeps {β : Bool} {σ s : State} (h : Keeps β σ s) (op : Nat) (f : State → Nat × State) (hf : ∀ u,
    Keeps β σ u → Keeps β σ (f u).2) :
    Keeps β σ (ledgRun op f s) := by
  unfold ledgRun
  repeat' first
    | with_reducible assumption | apply hf | with_reducible apply fset_keeps | dsimp only | split

theorem ledgCmd_keeps {β : Bool} {σ s : State} (h : Keeps β σ s) (key : Nat) (op : Nat) (core : Nat) (room : Nat) (f
    : State → Nat × State) (hf : ∀ u, Keeps β σ u → Keeps β σ (f u).2) :
    Keeps β σ (ledgCmd key op core room f s) := by
  unfold ledgCmd
  repeat' first
    | with_reducible assumption | apply hf | with_reducible apply fset_keeps | with_reducible apply ledgRun_keeps
    | with_reducible apply Keeps.ite | (intro u; intros) | split | simp only [Keeps.update] | dsimp only

theorem waysWrite_keeps {σ s : State} (h : Keeps false σ s) (c : Nat) (high : Bool) (data : Word) :
    Keeps false σ (waysWrite c high data s) := by
  unfold waysWrite
  try lift_lets
  repeat' first
    | with_reducible assumption
    | (intro x; first
        | (have hx : Keeps false σ x := ?_); clear_value x | (have hx : Keeps false σ x.2 := ?_); clear_value x
        | (have hx : Keeps false σ x.2.2 := ?_); clear_value x | clear_value x)
    | with_reducible apply fset_keeps | with_reducible apply wr_keeps | with_reducible apply dropLines_keeps
    | with_reducible apply cleanLines_keeps | with_reducible apply Keeps.ite | split | lift_lets | subst x
    | dsimp only

theorem wdogKick_keeps {β : Bool} {σ s : State} (h : Keeps β σ s) (r : Nat) (key : Nat) :
    Keeps β σ (wdogKick r key s) := by
  unfold wdogKick
  repeat' first
    | with_reducible assumption | with_reducible apply fset_keeps | with_reducible apply Keeps.ite | split
    | dsimp only

theorem wdogCfg_keeps {β : Bool} {σ s : State} (h : Keeps β σ s) (r : Nat) (data : Word) :
    Keeps β σ (wdogCfg r data s) := by
  unfold wdogCfg
  repeat' first
    | with_reducible assumption | with_reducible apply fset_keeps | with_reducible apply wr_keeps
    | with_reducible apply Keeps.ite | split | dsimp only

theorem execLedgCommit_keeps {σ s : State} (h : Keeps false σ s) (i : Init) (key : BitVec 16) (room : BitVec 6) :
    KeepsOut false σ (execLedgCommit i key room s) := by
  unfold execLedgCommit
  repeat' first
    | with_reducible assumption | with_reducible apply KeepsOut.next | with_reducible apply doorStore_keeps
    | with_reducible apply ledgCmd_keeps | with_reducible apply roomCommit_keeps | (intro u; intros) | dsimp only
    | split

theorem execLedgSuspend_keeps {σ s : State} (h : Keeps false σ s) (i : Init) (key : BitVec 16) (room : BitVec 6) :
    KeepsOut false σ (execLedgSuspend i key room s) := by
  unfold execLedgSuspend
  repeat' first
    | with_reducible assumption | with_reducible apply KeepsOut.next | with_reducible apply doorStore_keeps
    | with_reducible apply ledgCmd_keeps | with_reducible apply roomSuspend_keeps | (intro u; intros) | dsimp only
    | split

theorem execLedgResume_keeps {β : Bool} {σ s : State} (h : Keeps β σ s) (i : Init) (key : BitVec 16) (room : BitVec
    6) :
    KeepsOut β σ (execLedgResume i key room s) := by
  unfold execLedgResume
  repeat' first
    | with_reducible assumption | with_reducible apply KeepsOut.next | with_reducible apply doorStore_keeps
    | with_reducible apply ledgCmd_keeps | with_reducible apply roomResume_keeps | (intro u; intros) | dsimp only
    | split

theorem execLedgSwitch_keeps {σ s : State} (h : Keeps false σ s) (i : Init) (key : BitVec 16) (core : BitVec 2)
    (room : BitVec 6) :
    KeepsOut false σ (execLedgSwitch i key core room s) := by
  unfold execLedgSwitch
  repeat' first
    | with_reducible assumption | with_reducible apply KeepsOut.next | with_reducible apply doorStore_keeps
    | with_reducible apply ledgCmd_keeps | with_reducible apply roomSwitch_keeps | (intro u; intros) | dsimp only
    | split

theorem execLedgPark_keeps {σ s : State} (h : Keeps false σ s) (i : Init) (key : BitVec 16) (core : BitVec 2) :
    KeepsOut false σ (execLedgPark i key core s) := by
  unfold execLedgPark
  repeat' first
    | with_reducible assumption | with_reducible apply KeepsOut.next | with_reducible apply doorStore_keeps
    | with_reducible apply ledgCmd_keeps | with_reducible apply coreGate_keeps | with_reducible apply parkCore_keeps
    | (intro u; intros) | dsimp only | split

theorem execLedgWaysWrite_keeps {σ s : State} (h : Keeps false σ s) (i : Init) (core : BitVec 2) (high : Bool) (data
    : Word) :
    KeepsOut false σ (execLedgWaysWrite i core high data s) := by
  unfold execLedgWaysWrite
  repeat' first
    | with_reducible assumption | with_reducible apply KeepsOut.next | with_reducible apply doorStore_keeps
    | with_reducible apply waysWrite_keeps | (intro u; intros) | dsimp only | split

theorem execWdogKick_keeps {β : Bool} {σ s : State} (h : Keeps β σ s) (i : Init) (room : BitVec 6) (key : BitVec 16) :
    KeepsOut β σ (execWdogKick i room key s) := by
  unfold execWdogKick
  repeat' first
    | with_reducible assumption | with_reducible apply KeepsOut.next | with_reducible apply doorStore_keeps
    | with_reducible apply wdogKick_keeps | (intro u; intros) | dsimp only | split

end Sys2Proof.Machine
end

