-- ==== Sys2Proof/Laws/KeepsKeys.lean ====
section
/-!
SUPPORT. The operations of the files imported here keep the queue and the canonical forms, and those that store
nothing keep the memories: one lemma per operation, by the operations it calls.
-/

namespace Sys2Proof.Machine

open Reg

theorem keyErr_keeps {β : Bool} {σ s : State} (h : Keeps β σ s) (f : Fld) :
    Keeps β σ (keyErr f s) := by
  unfold keyErr
  repeat' first
    | with_reducible assumption | with_reducible apply note_keeps | dsimp only | split

theorem pageNote_keeps {β : Bool} {σ s : State} (h : Keeps β σ s) (r : Nat) (f : Fld) :
    Keeps β σ (pageNote r f s) := by
  unfold pageNote
  repeat' first
    | with_reducible assumption | with_reducible apply note_keeps | dsimp only | split

theorem measSet_keeps {β : Bool} {σ s : State} (h : Keeps β σ s) (r : Nat) (image : List Byte) (signer : List Byte) :
    Keeps β σ (measSet r image signer s) := by
  unfold measSet
  repeat' first
    | with_reducible assumption | with_reducible apply wrList_keeps | dsimp only | split

theorem measClear_keeps {β : Bool} {σ s : State} (h : Keeps β σ s) (r : Nat) :
    Keeps β σ (measClear r s) := by
  unfold measClear
  repeat' first
    | with_reducible assumption | with_reducible apply measSet_keeps | dsimp only | split

theorem shelfPut_keeps {β : Bool} {σ s : State} (h : Keeps β σ s) (e : Nat) (v : Option ShelfEntry) :
    Keeps β σ (shelfPut e v s) := by
  unfold shelfPut
  repeat' first
    | with_reducible assumption | simp only [Keeps.update] | dsimp only | split

theorem shelfLog_keeps {β : Bool} {σ s : State} (h : Keeps β σ s) (r : ShelfRec) :
    Keeps β σ (shelfLog r s) := by
  unfold shelfLog
  repeat' first
    | with_reducible assumption | simp only [Keeps.update] | dsimp only | split

theorem slotPut_keeps {β : Bool} {σ s : State} (h : Keeps β σ s) (k : Nat) (v : KeySlot) :
    Keeps β σ (slotPut k v s) := by
  unfold slotPut
  repeat' first
    | with_reducible assumption | simp only [Keeps.update] | dsimp only | split

theorem spend_keeps {β : Bool} {σ s : State} (h : Keeps β σ s) (k : Nat) :
    Keeps β σ (spend k s) := by
  unfold spend
  try lift_lets
  repeat' first
    | with_reducible assumption
    | (intro x; first
        | (have hx : Keeps β σ x := ?_); clear_value x | (have hx : Keeps β σ x.2 := ?_); clear_value x
        | (have hx : Keeps β σ x.2.2 := ?_); clear_value x | clear_value x)
    | with_reducible apply fset_keeps | with_reducible apply shelfLog_keeps | with_reducible apply shelfPut_keeps
    | with_reducible apply pageNote_keeps | with_reducible apply Keeps.ite | split | simp only [Keeps.update]
    | lift_lets | subst x | dsimp only

theorem spendIfOut_keeps {β : Bool} {σ s : State} (h : Keeps β σ s) (k : Nat) :
    Keeps β σ (spendIfOut k s) := by
  unfold spendIfOut
  repeat' first
    | with_reducible assumption | with_reducible apply spend_keeps | with_reducible apply Keeps.ite | split
    | dsimp only

theorem markNear_keeps {β : Bool} {σ s : State} (h : Keeps β σ s) (k : Nat) (v : Nat) (gcm : Bool) :
    Keeps β σ (markNear k v gcm s) := by
  unfold markNear
  try lift_lets
  repeat' first
    | with_reducible assumption
    | (intro x; first
        | (have hx : Keeps β σ x := ?_); clear_value x | (have hx : Keeps β σ x.2 := ?_); clear_value x
        | (have hx : Keeps β σ x.2.2 := ?_); clear_value x | clear_value x)
    | with_reducible apply slotPut_keeps | with_reducible apply Keeps.ite | split | simp only [Keeps.update]
    | lift_lets | subst x | dsimp only

theorem fcDraw_keeps {β : Bool} {σ s : State} (h : Keeps β σ s) (k : Nat) :
    Keeps β σ (fcDraw k s).2 := by
  unfold fcDraw
  try lift_lets
  repeat' first
    | with_reducible assumption
    | (intro x; first
        | (have hx : Keeps β σ x := ?_); clear_value x | (have hx : Keeps β σ x.2 := ?_); clear_value x
        | (have hx : Keeps β σ x.2.2 := ?_); clear_value x | clear_value x)
    | with_reducible apply spendIfOut_keeps | with_reducible apply markNear_keeps
    | with_reducible apply slotPut_keeps | simp only [Keeps.update] | lift_lets | subst x | dsimp only | split

theorem gcDraw_keeps {β : Bool} {σ s : State} (h : Keeps β σ s) (k : Nat) :
    Keeps β σ (gcDraw k s).2 := by
  unfold gcDraw
  try lift_lets
  repeat' first
    | with_reducible assumption
    | (intro x; first
        | (have hx : Keeps β σ x := ?_); clear_value x | (have hx : Keeps β σ x.2 := ?_); clear_value x
        | (have hx : Keeps β σ x.2.2 := ?_); clear_value x | clear_value x)
    | with_reducible apply spendIfOut_keeps | with_reducible apply markNear_keeps
    | with_reducible apply slotPut_keeps | simp only [Keeps.update] | lift_lets | subst x | dsimp only | split

theorem slotLoad_keeps {β : Bool} {σ s : State} (h : Keeps β σ s) (k : Nat) (e : Nat) (v : ShelfEntry) :
    Keeps β σ (slotLoad k e v s) := by
  unfold slotLoad
  try lift_lets
  repeat' first
    | with_reducible assumption
    | (intro x; first
        | (have hx : Keeps β σ x := ?_); clear_value x | (have hx : Keeps β σ x.2 := ?_); clear_value x
        | (have hx : Keeps β σ x.2.2 := ?_); clear_value x | clear_value x)
    | with_reducible apply slotPut_keeps | with_reducible apply wr_keeps | with_reducible apply spendIfOut_keeps
    | with_reducible apply shelfLog_keeps | with_reducible apply shelfPut_keeps | simp only [Keeps.update]
    | lift_lets | subst x | dsimp only | split

theorem slotFree_keeps {β : Bool} {σ s : State} (h : Keeps β σ s) (k : Nat) :
    Keeps β σ (slotFree k s) := by
  unfold slotFree
  repeat' first
    | with_reducible assumption | with_reducible apply slotPut_keeps | with_reducible apply wr_keeps | dsimp only
    | split

theorem slotUnload_keeps {β : Bool} {σ s : State} (h : Keeps β σ s) (k : Nat) :
    Keeps β σ (slotUnload k s) := by
  unfold slotUnload
  try lift_lets
  repeat' first
    | with_reducible assumption
    | (intro x; first
        | (have hx : Keeps β σ x := ?_); clear_value x | (have hx : Keeps β σ x.2 := ?_); clear_value x
        | (have hx : Keeps β σ x.2.2 := ?_); clear_value x | clear_value x)
    | with_reducible apply shelfLog_keeps | with_reducible apply shelfPut_keeps
    | with_reducible apply slotFree_keeps | split | simp only [Keeps.update] | lift_lets | subst x | dsimp only

theorem roomUnload_keeps {β : Bool} {σ s : State} (h : Keeps β σ s) (r : Nat) :
    Keeps β σ (roomUnload r s) := by
  unfold roomUnload
  repeat' first
    | with_reducible assumption | with_reducible apply slotUnload_keeps | with_reducible apply Keeps.ite
    | (with_reducible apply Keeps.foldl; intro u y hu) | split | dsimp only

theorem rootMade_keeps {β : Bool} {σ s : State} (h : Keeps β σ s) (bits : List Byte) :
    Keeps β σ (rootMade bits s) := by
  unfold rootMade
  try lift_lets
  repeat' first
    | with_reducible assumption
    | (intro x; first
        | (have hx : Keeps β σ x := ?_); clear_value x | (have hx : Keeps β σ x.2 := ?_); clear_value x
        | (have hx : Keeps β σ x.2.2 := ?_); clear_value x | clear_value x)
    | with_reducible apply fset_keeps | with_reducible apply fcount_keeps | with_reducible apply Keeps.ite | split
    | simp only [Keeps.update] | lift_lets | subst x | dsimp only

theorem rngGive_keeps {β : Bool} {σ s t : State} (h : Keeps β σ s) (b : List Byte) (e : rngGive b s = some t) :
    Keeps β σ t := by
  unfold rngGive at e
  repeat' first
    | (injection e with e; subst e) | with_reducible assumption | with_reducible apply rootMade_keeps
    | simp only [Keeps.update] | contradiction | split at e

theorem rngServe_keeps {β : Bool} {σ s : State} (h : Keeps β σ s) (n : Nat) : Keeps β σ (rngServe n s) := by
  induction n generalizing s with
  | zero => exact h
  | succ n ih =>
    unfold rngServe
    split
    · split
      · rename_i e
        exact ih (rngGive_keeps (by simp only [Keeps.update]; exact h) _ e)
      · exact h
    · exact h

theorem rngShow_keeps {β : Bool} {σ s : State} (h : Keeps β σ s) :
    Keeps β σ (rngShow s) := by
  unfold rngShow
  repeat' first
    | with_reducible assumption | with_reducible apply fset_keeps | dsimp only | split

theorem rngRun_keeps {β : Bool} {σ s : State} (h : Keeps β σ s) :
    Keeps β σ (rngRun s) := by
  unfold rngRun
  repeat' first
    | with_reducible assumption | with_reducible apply rngShow_keeps | with_reducible apply rngServe_keeps
    | dsimp only | split

theorem rngStart_keeps {β : Bool} {σ s : State} (h : Keeps β σ s) :
    Keeps β σ (rngStart s) := by
  unfold rngStart
  repeat' first
    | with_reducible assumption | with_reducible apply fset_keeps | dsimp only | split

theorem rngPowerUp_keeps {β : Bool} {σ s : State} (h : Keeps β σ s) :
    Keeps β σ (rngPowerUp s) := by
  unfold rngPowerUp
  repeat' first
    | with_reducible assumption | with_reducible apply rngShow_keeps | with_reducible apply rngStart_keeps
    | simp only [Keeps.update] | dsimp only | split

theorem rngFail_keeps {β : Bool} {σ s : State} (h : Keeps β σ s) (rct : Bool) (at_ : Nat) :
    Keeps β σ (rngFail rct at_ s) := by
  unfold rngFail
  try lift_lets
  repeat' first
    | with_reducible assumption
    | (intro x; first
        | (have hx : Keeps β σ x := ?_); clear_value x | (have hx : Keeps β σ x.2 := ?_); clear_value x
        | (have hx : Keeps β σ x.2.2 := ?_); clear_value x | clear_value x)
    | with_reducible apply fcount_keeps | with_reducible apply rngShow_keeps | with_reducible apply raiseEvt_keeps
    | with_reducible apply fset_keeps | with_reducible apply rngStart_keeps | with_reducible apply Keeps.ite | split
    | simp only [Keeps.update] | lift_lets | subst x | dsimp only

theorem rngRelease_keeps {β : Bool} {σ s : State} (h : Keeps β σ s) (raw : List Byte) :
    Keeps β σ (rngRelease raw s) := by
  unfold rngRelease
  try lift_lets
  repeat' first
    | with_reducible assumption
    | (intro x; first
        | (have hx : Keeps β σ x := ?_); clear_value x | (have hx : Keeps β σ x.2 := ?_); clear_value x
        | (have hx : Keeps β σ x.2.2 := ?_); clear_value x | clear_value x)
    | (apply rngGive_keeps; rotate_left; assumption) | with_reducible apply rngShow_keeps
    | with_reducible apply Keeps.ite | split | simp only [Keeps.update] | lift_lets | subst x | dsimp only

theorem rngTake_keeps {β : Bool} {σ s : State} (h : Keeps β σ s) {r : Nat × State} (e : rngTake s = some r) : Keeps
    β σ r.2 := by
  unfold rngTake at e
  repeat' first
    | (injection e with e; subst e) | with_reducible assumption | with_reducible apply rngShow_keeps
    | simp only [Keeps.update] | contradiction | split at e

theorem rngDataRead_keeps {β : Bool} {σ s : State} (h : Keeps β σ s) : Keeps β σ (rngDataRead s).2 := by
  unfold rngDataRead
  split
  · rename_i e; exact rngTake_keeps h e
  · exact h

theorem cipPut_keeps {β : Bool} {σ s : State} (h : Keeps β σ s) (n : Nat) (v : CipCtx) :
    Keeps β σ (cipPut n v s) := by
  unfold cipPut
  repeat' first
    | with_reducible assumption | simp only [Keeps.update] | dsimp only | split

theorem cipEnd_keeps {β : Bool} {σ s : State} (h : Keeps β σ s) (n : Nat) (res : Nat) :
    Keeps β σ (cipEnd n res s) := by
  unfold cipEnd
  try lift_lets
  repeat' first
    | with_reducible assumption
    | (intro x; first
        | (have hx : Keeps β σ x := ?_); clear_value x | (have hx : Keeps β σ x.2 := ?_); clear_value x
        | (have hx : Keeps β σ x.2.2 := ?_); clear_value x | clear_value x)
    | with_reducible apply fset_keeps | with_reducible apply pageNote_keeps | with_reducible apply Keeps.ite | split
    | simp only [Keeps.update] | lift_lets | subst x | dsimp only

theorem cipForget_keeps {β : Bool} {σ s : State} (h : Keeps β σ s) (n : Nat) :
    Keeps β σ (cipForget n s) := by
  unfold cipForget
  repeat' first
    | with_reducible assumption | with_reducible apply fset_keeps | with_reducible apply cipPut_keeps
    | simp only [Keeps.update] | dsimp only | split

theorem cipWipe_keeps {σ s : State} (h : Keeps false σ s) (n : Nat) :
    Keeps false σ (cipWipe n s) := by
  unfold cipWipe
  repeat' first
    | with_reducible assumption | with_reducible apply wrList_keeps | with_reducible apply memWrite_keeps
    | dsimp only | split

theorem cipClear_keeps {σ s : State} (h : Keeps false σ s) (n : Nat) :
    Keeps false σ (cipClear n s) := by
  unfold cipClear
  try lift_lets
  repeat' first
    | with_reducible assumption
    | (intro x; first
        | (have hx : Keeps false σ x := ?_); clear_value x | (have hx : Keeps false σ x.2 := ?_); clear_value x
        | (have hx : Keeps false σ x.2.2 := ?_); clear_value x | clear_value x)
    | with_reducible apply memClear_keeps | with_reducible apply cipForget_keeps | with_reducible apply wrList_keeps
    | with_reducible apply wr_keeps | with_reducible apply fset_keeps | lift_lets | subst x | dsimp only | split

theorem cipAbort_keeps {σ s : State} (h : Keeps false σ s) (n : Nat) :
    Keeps false σ (cipAbort n s) := by
  unfold cipAbort
  repeat' first
    | with_reducible assumption | with_reducible apply cipEnd_keeps | with_reducible apply cipForget_keeps
    | with_reducible apply cipWipe_keeps | with_reducible apply Keeps.ite | split | dsimp only

theorem cipDraw_keeps {σ s : State} (h : Keeps false σ s) (n : Nat) (k : Nat) :
    Keeps false σ (cipDraw n k s) := by
  unfold cipDraw
  try lift_lets
  repeat' first
    | with_reducible assumption
    | (intro x; first
        | (have hx : Keeps false σ x := ?_); clear_value x | (have hx : Keeps false σ x.2 := ?_); clear_value x
        | (have hx : Keeps false σ x.2.2 := ?_); clear_value x | clear_value x)
    | with_reducible apply fcDraw_keeps | with_reducible apply wr_keeps | with_reducible apply cipPut_keeps
    | with_reducible apply memWrite_keeps | with_reducible apply gcDraw_keeps | with_reducible apply wr64_keeps
    | with_reducible apply Keeps.ite | split | simp only [Keeps.update] | lift_lets | subst x | dsimp only

theorem cipServe_keeps {σ s : State} (h : Keeps false σ s) (l : List Nat) : Keeps false σ (cipServe l s) := by
  induction l generalizing s with
  | nil => exact h
  | cons n r ih =>
    unfold cipServe
    split
    · refine Keeps.ite (ih (cipDraw_keeps ?_ _ _)) (ih h)
      simp only [Keeps.update]
      exact h
    · exact ih h

theorem cipAccept_keeps {σ s : State} (h : Keeps false σ s) (n : Nat) (first : Bool) (last : Bool) :
    Keeps false σ (cipAccept n first last s) := by
  unfold cipAccept
  try lift_lets
  repeat' first
    | with_reducible assumption
    | (intro x; first
        | (have hx : Keeps false σ x := ?_); clear_value x | (have hx : Keeps false σ x.2 := ?_); clear_value x
        | (have hx : Keeps false σ x.2.2 := ?_); clear_value x | clear_value x)
    | with_reducible apply fset_keeps | with_reducible apply cipPut_keeps | with_reducible apply cipServe_keeps
    | with_reducible apply Keeps.ite | split | simp only [Keeps.update] | lift_lets | subst x | dsimp only

theorem cipRefuse_keeps {β : Bool} {σ s : State} (h : Keeps β σ s) (n : Nat) (res : Nat) :
    Keeps β σ (cipRefuse n res s) := by
  unfold cipRefuse
  repeat' first
    | with_reducible assumption | with_reducible apply cipEnd_keeps | with_reducible apply cipForget_keeps
    | dsimp only | split

theorem cipStart_keeps {σ s : State} (h : Keeps false σ s) (n : Nat) (first : Bool) (last : Bool) :
    Keeps false σ (cipStart n first last s) := by
  unfold cipStart
  repeat' first
    | with_reducible assumption | with_reducible apply cipRefuse_keeps | with_reducible apply cipAccept_keeps
    | with_reducible apply Keeps.ite | split | dsimp only

theorem cipCmd_keeps {σ s : State} (h : Keeps false σ s) (n : Nat) (key : Nat) (start : Bool) (first : Bool) (last :
    Bool) (abort : Bool) (clear : Bool) :
    Keeps false σ (cipCmd n key start first last abort clear s) := by
  unfold cipCmd
  try lift_lets
  repeat' first
    | with_reducible assumption
    | (intro x; first
        | (have hx : Keeps false σ x := ?_); clear_value x | (have hx : Keeps false σ x.2 := ?_); clear_value x
        | (have hx : Keeps false σ x.2.2 := ?_); clear_value x | clear_value x)
    | with_reducible apply fset_keeps | with_reducible apply cipStart_keeps | with_reducible apply cipAbort_keeps
    | with_reducible apply cipClear_keeps | with_reducible apply Keeps.ite | split | lift_lets | subst x
    | dsimp only

theorem cipComplete_keeps {σ s : State} (h : Keeps false σ s) (n : Nat) :
    Keeps false σ (cipComplete n s) := by
  unfold cipComplete
  try lift_lets
  repeat' first
    | with_reducible assumption
    | (intro x; first
        | (have hx : Keeps false σ x := ?_); clear_value x | (have hx : Keeps false σ x.2 := ?_); clear_value x
        | (have hx : Keeps false σ x.2.2 := ?_); clear_value x | clear_value x)
    | with_reducible apply memWrite_keeps | with_reducible apply wrList_keeps | with_reducible apply cipForget_keeps
    | with_reducible apply fset_keeps | with_reducible apply cipPut_keeps | with_reducible apply rngRun_keeps
    | with_reducible apply cipEnd_keeps | with_reducible apply Keeps.ite | split | simp only [Keeps.update]
    | lift_lets | subst x | dsimp only

theorem cipDone_keeps {σ s : State} (h : Keeps false σ s) (n : Nat) :
    Keeps false σ (cipDone n s) := by
  unfold cipDone
  repeat' first
    | with_reducible assumption | with_reducible apply cipComplete_keeps | with_reducible apply Keeps.ite | split
    | dsimp only

theorem cipLockRead_keeps {β : Bool} {σ s : State} (h : Keeps β σ s) (room : Nat) :
    Keeps β σ (cipLockRead room s).2 := by
  unfold cipLockRead
  repeat' first
    | with_reducible assumption | with_reducible apply fset_keeps | with_reducible apply Keeps.ite | split
    | simp only [Keeps.update] | dsimp only

theorem cipLockFree_keeps {σ s : State} (h : Keeps false σ s) (res : Nat) :
    Keeps false σ (cipLockFree res s) := by
  unfold cipLockFree
  try lift_lets
  repeat' first
    | with_reducible assumption
    | (intro x; first
        | (have hx : Keeps false σ x := ?_); clear_value x | (have hx : Keeps false σ x.2 := ?_); clear_value x
        | (have hx : Keeps false σ x.2.2 := ?_); clear_value x | clear_value x)
    | with_reducible apply cipEnd_keeps | with_reducible apply cipForget_keeps | with_reducible apply fset_keeps
    | with_reducible apply cipClear_keeps | with_reducible apply Keeps.ite | split | lift_lets | subst x
    | dsimp only

theorem cipLockRelease_keeps {σ s : State} (h : Keeps false σ s) (room : Nat) (release : Bool) :
    Keeps false σ (cipLockRelease room release s) := by
  unfold cipLockRelease
  repeat' first
    | with_reducible assumption | with_reducible apply cipLockFree_keeps | with_reducible apply Keeps.ite | split
    | dsimp only

theorem cipForce_keeps {σ s : State} (h : Keeps false σ s) (key : Nat) (release : Bool) :
    Keeps false σ (cipForce key release s) := by
  unfold cipForce
  repeat' first
    | with_reducible assumption | with_reducible apply cipLockFree_keeps | with_reducible apply Keeps.ite | split
    | dsimp only

theorem cipExpire_keeps {σ s : State} (h : Keeps false σ s) :
    Keeps false σ (cipExpire s) := by
  unfold cipExpire
  repeat' first
    | with_reducible assumption | with_reducible apply fcount_keeps | with_reducible apply fset_keeps
    | with_reducible apply pageNote_keeps | with_reducible apply cipLockFree_keeps | split
    | simp only [Keeps.update] | dsimp only

theorem cipRoomReset_keeps {σ s : State} (h : Keeps false σ s) (r : Nat) :
    Keeps false σ (cipRoomReset r s) := by
  unfold cipRoomReset
  try lift_lets
  repeat' first
    | with_reducible assumption
    | (intro x; first
        | (have hx : Keeps false σ x := ?_); clear_value x | (have hx : Keeps false σ x.2 := ?_); clear_value x
        | (have hx : Keeps false σ x.2.2 := ?_); clear_value x | clear_value x)
    | with_reducible apply fset_keeps | with_reducible apply cipClear_keeps | with_reducible apply wr_keeps
    | with_reducible apply Keeps.ite | split | lift_lets | subst x | dsimp only

theorem cipZeroise_keeps {σ s : State} (h : Keeps false σ s) :
    Keeps false σ (cipZeroise s) := by
  unfold cipZeroise
  repeat' first
    | with_reducible assumption | with_reducible apply cipClear_keeps | with_reducible apply cipEnd_keeps
    | with_reducible apply cipForget_keeps | with_reducible apply Keeps.ite
    | (with_reducible apply Keeps.foldl; intro u y hu) | split | dsimp only

theorem cipPowerUp_keeps {σ s : State} (h : Keeps false σ s) :
    Keeps false σ (cipPowerUp s) := by
  unfold cipPowerUp
  try lift_lets
  repeat' first
    | with_reducible assumption
    | (intro x; first
        | (have hx : Keeps false σ x := ?_); clear_value x | (have hx : Keeps false σ x.2 := ?_); clear_value x
        | (have hx : Keeps false σ x.2.2 := ?_); clear_value x | clear_value x)
    | with_reducible apply wr_keeps | with_reducible apply cipClear_keeps | with_reducible apply rngRun_keeps
    | (with_reducible apply Keeps.foldl; intro u y hu) | simp only [Keeps.update] | lift_lets | subst x | dsimp only
    | split

theorem cipWrite_keeps {σ s : State} (h : Keeps false σ s) (n : Nat) (off : Nat) (data : Word) :
    Keeps false σ (cipWrite n off data s) := by
  unfold cipWrite
  try lift_lets
  repeat' first
    | with_reducible assumption
    | (intro x; first
        | (have hx : Keeps false σ x := ?_); clear_value x | (have hx : Keeps false σ x.2 := ?_); clear_value x
        | (have hx : Keeps false σ x.2.2 := ?_); clear_value x | clear_value x)
    | with_reducible apply wr_keeps | with_reducible apply fset_keeps | with_reducible apply memWrite_keeps
    | with_reducible apply Keeps.ite | split | lift_lets | subst x | dsimp only

theorem cipCmdAs_keeps {σ s : State} (h : Keeps false σ s) (room : Nat) (n : Nat) (key : Nat) (start : Bool) (first
    : Bool) (last : Bool) (abort : Bool) (clear : Bool) :
    Keeps false σ (cipCmdAs room n key start first last abort clear s) := by
  unfold cipCmdAs
  repeat' first
    | with_reducible assumption | with_reducible apply cipCmd_keeps | with_reducible apply Keeps.ite | split
    | dsimp only

theorem execCipStart_keeps {σ s : State} (h : Keeps false σ s) (i : Init) (ctx : Fin 65) (key : BitVec 16) (first :
    Bool) (last : Bool) (abort : Bool) (clear : Bool) :
    KeepsOut false σ (execCipStart i ctx key first last abort clear s) := by
  unfold execCipStart
  repeat' first
    | with_reducible assumption | with_reducible apply KeepsOut.next | with_reducible apply doorStore_keeps
    | with_reducible apply cipCmdAs_keeps | (intro u; intros) | dsimp only | split

theorem execCipAbort_keeps {σ s : State} (h : Keeps false σ s) (i : Init) (ctx : Fin 65) (key : BitVec 16) (clear :
    Bool) :
    KeepsOut false σ (execCipAbort i ctx key clear s) := by
  unfold execCipAbort
  repeat' first
    | with_reducible assumption | with_reducible apply KeepsOut.next | with_reducible apply doorStore_keeps
    | with_reducible apply cipCmdAs_keeps | (intro u; intros) | dsimp only | split

theorem execCipClear_keeps {σ s : State} (h : Keeps false σ s) (i : Init) (ctx : Fin 65) (key : BitVec 16) :
    KeepsOut false σ (execCipClear i ctx key s) := by
  unfold execCipClear
  repeat' first
    | with_reducible assumption | with_reducible apply KeepsOut.next | with_reducible apply doorStore_keeps
    | with_reducible apply cipCmdAs_keeps | (intro u; intros) | dsimp only | split

theorem execCipOperationDone_keeps {σ s : State} (h : Keeps false σ s) (ctx : Fin 65) :
    KeepsOut false σ (execCipOperationDone ctx s) := by
  unfold execCipOperationDone
  repeat' first
    | with_reducible assumption | with_reducible apply KeepsOut.next | with_reducible apply cipDone_keeps
    | dsimp only | split

theorem execCipLockRead_keeps {β : Bool} {σ s : State} (h : Keeps β σ s) (i : Init) :
    KeepsOut β σ (execCipLockRead i s) := by
  unfold execCipLockRead
  repeat' first
    | with_reducible assumption | with_reducible apply KeepsOut.next | with_reducible apply doorLoad_keeps
    | with_reducible apply cipLockRead_keeps | (intro u; intros) | dsimp only | split

theorem execCipLockRelease_keeps {σ s : State} (h : Keeps false σ s) (i : Init) :
    KeepsOut false σ (execCipLockRelease i s) := by
  unfold execCipLockRelease
  repeat' first
    | with_reducible assumption | with_reducible apply KeepsOut.next | with_reducible apply doorStore_keeps
    | with_reducible apply cipLockRelease_keeps | (intro u; intros) | dsimp only | split

theorem execCipCforce_keeps {σ s : State} (h : Keeps false σ s) (i : Init) (key : BitVec 16) :
    KeepsOut false σ (execCipCforce i key s) := by
  unfold execCipCforce
  repeat' first
    | with_reducible assumption | with_reducible apply KeepsOut.next | with_reducible apply doorStore_keeps
    | with_reducible apply cipForce_keeps | (intro u; intros) | dsimp only | split

theorem execCipLockExpired_keeps {σ s : State} (h : Keeps false σ s) :
    KeepsOut false σ (execCipLockExpired s) := by
  unfold execCipLockExpired
  repeat' first
    | with_reducible assumption | with_reducible apply KeepsOut.next | with_reducible apply cipExpire_keeps
    | dsimp only | split

theorem kpEnd_keeps {β : Bool} {σ s : State} (h : Keeps β σ s) (r : Nat) (res : Nat) (slot : Nat) (entry : Nat) :
    Keeps β σ (kpEnd r res slot entry s) := by
  unfold kpEnd
  try lift_lets
  repeat' first
    | with_reducible assumption
    | (intro x; first
        | (have hx : Keeps β σ x := ?_); clear_value x | (have hx : Keeps β σ x.2 := ?_); clear_value x
        | (have hx : Keeps β σ x.2.2 := ?_); clear_value x | clear_value x)
    | with_reducible apply fset_keeps | lift_lets | subst x | dsimp only | split

theorem kpPut_keeps {β : Bool} {σ s : State} (h : Keeps β σ s) (r : Nat) (c : Option KpCmd) :
    Keeps β σ (kpPut r c s) := by
  unfold kpPut
  repeat' first
    | with_reducible assumption | simp only [Keeps.update] | dsimp only | split

theorem kpKeyClear_keeps {β : Bool} {σ s : State} (h : Keeps β σ s) (r : Nat) :
    Keeps β σ (kpKeyClear r s) := by
  unfold kpKeyClear
  repeat' first
    | with_reducible assumption | with_reducible apply wrList_keeps | dsimp only | split

theorem kpCmd_keeps {β : Bool} {σ s : State} (h : Keeps β σ s) (r : Nat) (key : Nat) (op : Nat) (cls : Nat) (sel :
    Nat) (klen : Nat) :
    Keeps β σ (kpCmd r key op cls sel klen s) := by
  unfold kpCmd
  try lift_lets
  repeat' first
    | with_reducible assumption
    | (intro x; first
        | (have hx : Keeps β σ x := ?_); clear_value x | (have hx : Keeps β σ x.2 := ?_); clear_value x
        | (have hx : Keeps β σ x.2.2 := ?_); clear_value x | clear_value x)
    | with_reducible apply kpKeyClear_keeps | with_reducible apply fset_keeps | with_reducible apply kpEnd_keeps
    | with_reducible apply keyErr_keeps | with_reducible apply kpPut_keeps | with_reducible apply Keeps.ite | split
    | lift_lets | subst x | dsimp only

theorem shelfCreate_keeps {β : Bool} {σ s : State} (h : Keeps β σ s) (r : Nat) (cls : Nat) (sel : Nat) (key : List
    Byte) (ident : Nat) (e : Nat) :
    Keeps β σ (shelfCreate r cls sel key ident e s).2 := by
  unfold shelfCreate
  try lift_lets
  repeat' first
    | with_reducible assumption
    | (intro x; first
        | (have hx : Keeps β σ x := ?_); clear_value x | (have hx : Keeps β σ x.2 := ?_); clear_value x
        | (have hx : Keeps β σ x.2.2 := ?_); clear_value x | clear_value x)
    | with_reducible apply shelfLog_keeps | with_reducible apply shelfPut_keeps | simp only [Keeps.update]
    | lift_lets | subst x | dsimp only | split

theorem keyPlace_keeps {β : Bool} {σ s : State} (h : Keeps β σ s) (r : Nat) (cls : Nat) (sel : Nat) (key : List
    Byte) (slot : Nat) (entry : Nat) :
    Keeps β σ (keyPlace r cls sel key slot entry s).2 := by
  unfold keyPlace
  try lift_lets
  repeat' first
    | with_reducible assumption
    | (intro x; first
        | (have hx : Keeps β σ x := ?_); clear_value x | (have hx : Keeps β σ x.2 := ?_); clear_value x
        | (have hx : Keeps β σ x.2.2 := ?_); clear_value x | clear_value x)
    | with_reducible apply slotLoad_keeps | with_reducible apply shelfCreate_keeps | with_reducible apply Keeps.ite
    | split | simp only [Keeps.update] | lift_lets | subst x | dsimp only

theorem keyUnwrap_keeps {β : Bool} {σ s : State} (h : Keeps β σ s) (r : Nat) (e : Nat) (slot : Nat) :
    Keeps β σ (keyUnwrap r e slot s).2 := by
  unfold keyUnwrap
  repeat' first
    | with_reducible assumption | with_reducible apply slotLoad_keeps | with_reducible apply Keeps.ite | split
    | simp only [Keeps.update] | dsimp only

theorem keyUnload_keeps {β : Bool} {σ s : State} (h : Keeps β σ s) (r : Nat) (k : Nat) :
    Keeps β σ (keyUnload r k s).2 := by
  unfold keyUnload
  repeat' first
    | with_reducible assumption | with_reducible apply slotUnload_keeps | with_reducible apply Keeps.ite | split
    | dsimp only

theorem keyDelete_keeps {β : Bool} {σ s : State} (h : Keeps β σ s) (r : Nat) (e : Nat) :
    Keeps β σ (keyDelete r e s).2 := by
  unfold keyDelete
  try lift_lets
  repeat' first
    | with_reducible assumption
    | (intro x; first
        | (have hx : Keeps β σ x := ?_); clear_value x | (have hx : Keeps β σ x.2 := ?_); clear_value x
        | (have hx : Keeps β σ x.2.2 := ?_); clear_value x | clear_value x)
    | with_reducible apply slotUnload_keeps | with_reducible apply shelfLog_keeps
    | with_reducible apply shelfPut_keeps | with_reducible apply Keeps.ite | split | simp only [Keeps.update]
    | lift_lets | subst x | dsimp only

theorem keyFind_keeps {β : Bool} {σ s : State} (h : Keeps β σ s) (r : Nat) (ident : Nat) :
    Keeps β σ (keyFind r ident s).2 := by
  unfold keyFind
  repeat' first
    | with_reducible assumption | split | simp only [Keeps.update] | dsimp only

theorem kpRun_keeps {β : Bool} {σ s : State} (h : Keeps β σ s) (r : Nat) (c : KpCmd) (slot : Nat) (entry : Nat) :
    Keeps β σ (kpRun r c slot entry s).2 := by
  unfold kpRun
  repeat' first
    | with_reducible assumption | with_reducible apply keyPlace_keeps | with_reducible apply keyUnwrap_keeps
    | with_reducible apply keyUnload_keeps | with_reducible apply keyDelete_keeps
    | with_reducible apply keyFind_keeps | split | simp only [Keeps.update] | dsimp only

theorem kpDone_keeps {β : Bool} {σ s : State} (h : Keeps β σ s) (r : Nat) (slot : Nat) (entry : Nat) (bad : Bool) :
    Keeps β σ (kpDone r slot entry bad s) := by
  unfold kpDone
  try lift_lets
  repeat' first
    | with_reducible assumption
    | (intro x; first
        | (have hx : Keeps β σ x := ?_); clear_value x | (have hx : Keeps β σ x.2 := ?_); clear_value x
        | (have hx : Keeps β σ x.2.2 := ?_); clear_value x | clear_value x)
    | with_reducible apply keyErr_keeps | with_reducible apply shelfPut_keeps | with_reducible apply kpRun_keeps
    | with_reducible apply wr64_keeps | with_reducible apply kpPut_keeps | with_reducible apply kpEnd_keeps
    | with_reducible apply Keeps.ite | split | simp only [Keeps.update] | lift_lets | subst x | dsimp only

theorem markDone_keeps {σ s : State} (h : Keeps false σ s) (k : Nat) (ok : Bool) :
    Keeps false σ (markDone k ok s) := by
  unfold markDone
  try lift_lets
  repeat' first
    | with_reducible assumption
    | (intro x; first
        | (have hx : Keeps false σ x := ?_); clear_value x | (have hx : Keeps false σ x.2 := ?_); clear_value x
        | (have hx : Keeps false σ x.2.2 := ?_); clear_value x | clear_value x)
    | with_reducible apply shelfLog_keeps | with_reducible apply shelfPut_keeps | with_reducible apply slotPut_keeps
    | with_reducible apply cipServe_keeps | with_reducible apply spend_keeps | with_reducible apply keyErr_keeps
    | with_reducible apply cipRefuse_keeps | with_reducible apply Keeps.ite
    | (with_reducible apply Keeps.foldl; intro u y hu) | split | simp only [Keeps.update] | lift_lets | subst x
    | dsimp only

theorem compactStart_keeps {β : Bool} {σ s : State} (h : Keeps β σ s) (due : Bool) :
    Keeps β σ (compactStart due s) := by
  unfold compactStart
  repeat' first
    | with_reducible assumption | with_reducible apply fset_keeps | with_reducible apply Keeps.ite | split
    | dsimp only

theorem compactDone_keeps {β : Bool} {σ s : State} (h : Keeps β σ s) :
    Keeps β σ (compactDone s) := by
  unfold compactDone
  try lift_lets
  repeat' first
    | with_reducible assumption
    | (intro x; first
        | (have hx : Keeps β σ x := ?_); clear_value x | (have hx : Keeps β σ x.2 := ?_); clear_value x
        | (have hx : Keeps β σ x.2.2 := ?_); clear_value x | clear_value x)
    | with_reducible apply fset_keeps | with_reducible apply eraseCount_keeps | with_reducible apply Keeps.ite
    | (with_reducible apply Keeps.foldl; intro u y hu) | split | simp only [Keeps.update] | lift_lets | subst x
    | (refine Keeps.of_pair (by assumption) ?_) | dsimp only

theorem clearingDone_keeps {β : Bool} {σ s : State} (h : Keeps β σ s) :
    Keeps β σ (clearingDone s) := by
  unfold clearingDone
  try lift_lets
  repeat' first
    | with_reducible assumption
    | (intro x; first
        | (have hx : Keeps β σ x := ?_); clear_value x | (have hx : Keeps β σ x.2 := ?_); clear_value x
        | (have hx : Keeps β σ x.2.2 := ?_); clear_value x | clear_value x)
    | with_reducible apply shelfPut_keeps | with_reducible apply fset_keeps | with_reducible apply Keeps.ite
    | (with_reducible apply Keeps.foldl; intro u y hu) | split | lift_lets | subst x | dsimp only

theorem lifeErr_keeps {β : Bool} {σ s : State} (h : Keeps β σ s) (e : Nat) :
    Keeps β σ (lifeErr e s) := by
  unfold lifeErr
  repeat' first
    | with_reducible assumption | with_reducible apply fset_keeps | dsimp only | split

theorem ownerStore_keeps {β : Bool} {σ s : State} (h : Keeps β σ s) :
    Keeps β σ (ownerStore s) := by
  unfold ownerStore
  try lift_lets
  repeat' first
    | with_reducible assumption
    | (intro x; first
        | (have hx : Keeps β σ x := ?_); clear_value x | (have hx : Keeps β σ x.2 := ?_); clear_value x
        | (have hx : Keeps β σ x.2.2 := ?_); clear_value x | clear_value x)
    | with_reducible apply wrList_keeps | with_reducible apply lifeErr_keeps | with_reducible apply fset_keeps
    | simp only [Keeps.update] | lift_lets | subst x | dsimp only | split

theorem enroll_keeps {β : Bool} {σ s : State} (h : Keeps β σ s) :
    Keeps β σ (enroll s) := by
  unfold enroll
  repeat' first
    | with_reducible assumption | with_reducible apply lifeErr_keeps | with_reducible apply fset_keeps
    | with_reducible apply ownerStore_keeps | with_reducible apply Keeps.ite | split | dsimp only

theorem rotate_keeps {β : Bool} {σ s : State} (h : Keeps β σ s) :
    Keeps β σ (rotate s) := by
  unfold rotate
  repeat' first
    | with_reducible assumption | with_reducible apply lifeErr_keeps | with_reducible apply ownerStore_keeps
    | with_reducible apply Keeps.ite | split | dsimp only

theorem lifeCmd_keeps {β : Bool} {σ s : State} (h : Keeps β σ s) (key : Nat) (op : Nat) :
    Keeps β σ (lifeCmd key op s) := by
  unfold lifeCmd
  repeat' first
    | with_reducible assumption | with_reducible apply enroll_keeps | with_reducible apply rotate_keeps
    | with_reducible apply Keeps.ite | split | dsimp only

theorem pkEnd_keeps {β : Bool} {σ s : State} (h : Keeps β σ s) (res : Nat) :
    Keeps β σ (pkEnd res s) := by
  unfold pkEnd
  repeat' first
    | with_reducible assumption | with_reducible apply note_keeps | with_reducible apply fset_keeps
    | simp only [Keeps.update] | dsimp only | split

theorem pkCmd_keeps {β : Bool} {σ s : State} (h : Keeps β σ s) (key : Nat) (op : Nat) :
    Keeps β σ (pkCmd key op s) := by
  unfold pkCmd
  try lift_lets
  repeat' first
    | with_reducible assumption
    | (intro x; first
        | (have hx : Keeps β σ x := ?_); clear_value x | (have hx : Keeps β σ x.2 := ?_); clear_value x
        | (have hx : Keeps β σ x.2.2 := ?_); clear_value x | clear_value x)
    | with_reducible apply fset_keeps | with_reducible apply pkEnd_keeps | with_reducible apply rngRun_keeps
    | with_reducible apply drawFree_keeps | with_reducible apply keyErr_keeps | with_reducible apply Keeps.ite
    | split | simp only [Keeps.update] | lift_lets | subst x | dsimp only

theorem pkDone_keeps {β : Bool} {σ s : State} (h : Keeps β σ s) (slot : Nat) (entry : Nat) :
    Keeps β σ (pkDone slot entry s) := by
  unfold pkDone
  try lift_lets
  repeat' first
    | with_reducible assumption
    | (intro x; first
        | (have hx : Keeps β σ x := ?_); clear_value x | (have hx : Keeps β σ x.2 := ?_); clear_value x
        | (have hx : Keeps β σ x.2.2 := ?_); clear_value x | clear_value x)
    | with_reducible apply pkEnd_keeps | with_reducible apply wrList_keeps | with_reducible apply keyPlace_keeps
    | with_reducible apply Keeps.ite | split | simp only [Keeps.update] | lift_lets | subst x | dsimp only

theorem execKpLoad_keeps {β : Bool} {σ s : State} (h : Keeps β σ s) (i : Init) (room : BitVec 6) (key : BitVec 16)
    (cls : BitVec 2) (sel : BitVec 2) (klen : BitVec 2) :
    KeepsOut β σ (execKpLoad i room key cls sel klen s) := by
  unfold execKpLoad
  repeat' first
    | with_reducible assumption | with_reducible apply KeepsOut.next | with_reducible apply doorStore_keeps
    | with_reducible apply kpCmd_keeps | (intro u; intros) | dsimp only | split

theorem execKpDerive_keeps {β : Bool} {σ s : State} (h : Keeps β σ s) (i : Init) (room : BitVec 6) (key : BitVec 16)
    (cls : BitVec 2) (sel : BitVec 2) (klen : BitVec 2) :
    KeepsOut β σ (execKpDerive i room key cls sel klen s) := by
  unfold execKpDerive
  repeat' first
    | with_reducible assumption | with_reducible apply KeepsOut.next | with_reducible apply doorStore_keeps
    | with_reducible apply kpCmd_keeps | (intro u; intros) | dsimp only | split

theorem execKpUnwrap_keeps {β : Bool} {σ s : State} (h : Keeps β σ s) (i : Init) (room : BitVec 6) (key : BitVec 16)
    (cls : BitVec 2) (sel : BitVec 2) (klen : BitVec 2) :
    KeepsOut β σ (execKpUnwrap i room key cls sel klen s) := by
  unfold execKpUnwrap
  repeat' first
    | with_reducible assumption | with_reducible apply KeepsOut.next | with_reducible apply doorStore_keeps
    | with_reducible apply kpCmd_keeps | (intro u; intros) | dsimp only | split

theorem execKpUnload_keeps {β : Bool} {σ s : State} (h : Keeps β σ s) (i : Init) (room : BitVec 6) (key : BitVec 16)
    (cls : BitVec 2) (sel : BitVec 2) (klen : BitVec 2) :
    KeepsOut β σ (execKpUnload i room key cls sel klen s) := by
  unfold execKpUnload
  repeat' first
    | with_reducible assumption | with_reducible apply KeepsOut.next | with_reducible apply doorStore_keeps
    | with_reducible apply kpCmd_keeps | (intro u; intros) | dsimp only | split

theorem execKpDelete_keeps {β : Bool} {σ s : State} (h : Keeps β σ s) (i : Init) (room : BitVec 6) (key : BitVec 16)
    (cls : BitVec 2) (sel : BitVec 2) (klen : BitVec 2) :
    KeepsOut β σ (execKpDelete i room key cls sel klen s) := by
  unfold execKpDelete
  repeat' first
    | with_reducible assumption | with_reducible apply KeepsOut.next | with_reducible apply doorStore_keeps
    | with_reducible apply kpCmd_keeps | (intro u; intros) | dsimp only | split

theorem execKpFind_keeps {β : Bool} {σ s : State} (h : Keeps β σ s) (i : Init) (room : BitVec 6) (key : BitVec 16)
    (cls : BitVec 2) (sel : BitVec 2) (klen : BitVec 2) :
    KeepsOut β σ (execKpFind i room key cls sel klen s) := by
  unfold execKpFind
  repeat' first
    | with_reducible assumption | with_reducible apply KeepsOut.next | with_reducible apply doorStore_keeps
    | with_reducible apply kpCmd_keeps | (intro u; intros) | dsimp only | split

theorem execKpCommandDone_keeps {β : Bool} {σ s : State} (h : Keeps β σ s) (room : BitVec 6) (slot : BitVec 7)
    (entry : BitVec 9) (bad : Bool) :
    KeepsOut β σ (execKpCommandDone room slot entry bad s) := by
  unfold execKpCommandDone
  repeat' first
    | with_reducible assumption | with_reducible apply KeepsOut.next | with_reducible apply kpDone_keeps
    | dsimp only | split

theorem execMarkProgrammed_keeps {σ s : State} (h : Keeps false σ s) (slot : BitVec 7) (ok : Bool) :
    KeepsOut false σ (execMarkProgrammed slot ok s) := by
  unfold execMarkProgrammed
  repeat' first
    | with_reducible assumption | with_reducible apply KeepsOut.next | with_reducible apply markDone_keeps
    | dsimp only | split

theorem execShelfCompaction_keeps {β : Bool} {σ s : State} (h : Keeps β σ s) (due : Bool) :
    KeepsOut β σ (execShelfCompaction due s) := by
  unfold execShelfCompaction
  repeat' first
    | with_reducible assumption | with_reducible apply KeepsOut.next | with_reducible apply compactStart_keeps
    | dsimp only | split

theorem execShelfCompactionDone_keeps {β : Bool} {σ s : State} (h : Keeps β σ s) :
    KeepsOut β σ (execShelfCompactionDone s) := by
  unfold execShelfCompactionDone
  repeat' first
    | with_reducible assumption | with_reducible apply KeepsOut.next | with_reducible apply compactDone_keeps
    | dsimp only | split

theorem execShelfClearingDone_keeps {β : Bool} {σ s : State} (h : Keeps β σ s) :
    KeepsOut β σ (execShelfClearingDone s) := by
  unfold execShelfClearingDone
  repeat' first
    | with_reducible assumption | with_reducible apply KeepsOut.next | with_reducible apply clearingDone_keeps
    | dsimp only | split

theorem execEnroll_keeps {β : Bool} {σ s : State} (h : Keeps β σ s) (i : Init) (key : BitVec 16) :
    KeepsOut β σ (execEnroll i key s) := by
  unfold execEnroll
  repeat' first
    | with_reducible assumption | with_reducible apply KeepsOut.next | with_reducible apply doorStore_keeps
    | with_reducible apply lifeCmd_keeps | (intro u; intros) | dsimp only | split

theorem execRotate_keeps {β : Bool} {σ s : State} (h : Keeps β σ s) (i : Init) (key : BitVec 16) :
    KeepsOut β σ (execRotate i key s) := by
  unfold execRotate
  repeat' first
    | with_reducible assumption | with_reducible apply KeepsOut.next | with_reducible apply doorStore_keeps
    | with_reducible apply lifeCmd_keeps | (intro u; intros) | dsimp only | split

theorem execPkVerify_keeps {β : Bool} {σ s : State} (h : Keeps β σ s) (i : Init) (key : BitVec 16) :
    KeepsOut β σ (execPkVerify i key s) := by
  unfold execPkVerify
  repeat' first
    | with_reducible assumption | with_reducible apply KeepsOut.next | with_reducible apply doorStore_keeps
    | with_reducible apply pkCmd_keeps | (intro u; intros) | dsimp only | split

theorem execPkEcdh_keeps {β : Bool} {σ s : State} (h : Keeps β σ s) (i : Init) (key : BitVec 16) :
    KeepsOut β σ (execPkEcdh i key s) := by
  unfold execPkEcdh
  repeat' first
    | with_reducible assumption | with_reducible apply KeepsOut.next | with_reducible apply doorStore_keeps
    | with_reducible apply pkCmd_keeps | (intro u; intros) | dsimp only | split

theorem execPkDone_keeps {β : Bool} {σ s : State} (h : Keeps β σ s) (slot : BitVec 7) (entry : BitVec 9) :
    KeepsOut β σ (execPkDone slot entry s) := by
  unfold execPkDone
  repeat' first
    | with_reducible assumption | with_reducible apply KeepsOut.next | with_reducible apply pkDone_keeps
    | dsimp only | split

theorem execRngStartupDone_keeps {β : Bool} {σ s : State} (h : Keeps β σ s) :
    KeepsOut β σ (execRngStartupDone s) := by
  unfold execRngStartupDone
  repeat' first
    | with_reducible assumption | with_reducible apply KeepsOut.next | with_reducible apply fset_keeps
    | with_reducible apply Keeps.ite | split | dsimp only

theorem execRngBlockRelease_keeps {β : Bool} {σ s : State} (h : Keeps β σ s) (raw : BitVec 512) :
    KeepsOut β σ (execRngBlockRelease raw s) := by
  unfold execRngBlockRelease
  repeat' first
    | with_reducible assumption | with_reducible apply KeepsOut.next | with_reducible apply rngRelease_keeps
    | dsimp only | split

theorem execRngTestFail_keeps {β : Bool} {σ s : State} (h : Keeps β σ s) (rct : Bool) (rawBit : Word64) :
    KeepsOut β σ (execRngTestFail rct rawBit s) := by
  unfold execRngTestFail
  repeat' first
    | with_reducible assumption | with_reducible apply KeepsOut.next | with_reducible apply rngFail_keeps
    | dsimp only | split

theorem rngCmd_keeps {β : Bool} {σ s : State} (h : Keeps β σ s) (key : Nat) (restart : Bool) :
    Keeps β σ (rngCmd key restart s) := by
  unfold rngCmd
  repeat' first
    | with_reducible assumption | with_reducible apply rngStart_keeps | with_reducible apply Keeps.ite | split
    | dsimp only

theorem execRngRestart_keeps {β : Bool} {σ s : State} (h : Keeps β σ s) (i : Init) (key : BitVec 16) :
    KeepsOut β σ (execRngRestart i key s) := by
  unfold execRngRestart
  repeat' first
    | with_reducible assumption | with_reducible apply KeepsOut.next | with_reducible apply doorStore_keeps
    | with_reducible apply rngCmd_keeps | (intro u; intros) | dsimp only | split

theorem execRngDataRead_keeps {β : Bool} {σ s : State} (h : Keeps β σ s) (i : Init) :
    KeepsOut β σ (execRngDataRead i s) := by
  unfold execRngDataRead
  repeat' first
    | with_reducible assumption | with_reducible apply KeepsOut.next | with_reducible apply doorLoad_keeps
    | with_reducible apply rngDataRead_keeps | (intro u; intros) | dsimp only | split

theorem fpEnd_keeps {β : Bool} {σ s : State} (h : Keeps β σ s) (r : Nat) (res : Nat) :
    Keeps β σ (fpEnd r res s) := by
  unfold fpEnd
  repeat' first
    | with_reducible assumption | with_reducible apply fset_keeps | dsimp only | split

theorem fpProgEnd_keeps {β : Bool} {σ s : State} (h : Keeps β σ s) (r : Nat) (res : Nat) :
    Keeps β σ (fpProgEnd r res s) := by
  unfold fpProgEnd
  try lift_lets
  repeat' first
    | with_reducible assumption
    | (intro x; first
        | (have hx : Keeps β σ x := ?_); clear_value x | (have hx : Keeps β σ x.2 := ?_); clear_value x
        | (have hx : Keeps β σ x.2.2 := ?_); clear_value x | clear_value x)
    | with_reducible apply fset_keeps | with_reducible apply fpEnd_keeps | with_reducible apply wrList_keeps
    | with_reducible apply Keeps.ite | split | lift_lets | subst x | dsimp only

theorem fpProgram_keeps {β : Bool} {σ s : State} (h : Keeps β σ s) (i : Init) (r : Nat) :
    Keeps β σ (fpProgram i r s) := by
  unfold fpProgram
  try lift_lets
  repeat' first
    | with_reducible assumption
    | (intro x; first
        | (have hx : Keeps β σ x := ?_); clear_value x | (have hx : Keeps β σ x.2 := ?_); clear_value x
        | (have hx : Keeps β σ x.2.2 := ?_); clear_value x | clear_value x)
    | with_reducible apply bankPut_keeps | with_reducible apply fset_keeps | with_reducible apply fpProgEnd_keeps
    | with_reducible apply Keeps.ite | split | simp only [Keeps.update] | lift_lets | subst x | dsimp only

theorem fpErase_keeps {β : Bool} {σ s : State} (h : Keeps β σ s) (i : Init) (r : Nat) :
    Keeps β σ (fpErase i r s) := by
  unfold fpErase
  try lift_lets
  repeat' first
    | with_reducible assumption
    | (intro x; first
        | (have hx : Keeps β σ x := ?_); clear_value x | (have hx : Keeps β σ x.2 := ?_); clear_value x
        | (have hx : Keeps β σ x.2.2 := ?_); clear_value x | clear_value x)
    | with_reducible apply eraseCount_keeps | with_reducible apply fset_keeps
    | with_reducible apply flashInvalidate_keeps | with_reducible apply bankPut_keeps
    | with_reducible apply fpEnd_keeps | with_reducible apply Keeps.ite | split | lift_lets | subst x | dsimp only

theorem fpCmd_keeps {β : Bool} {σ s : State} (h : Keeps β σ s) (i : Init) (r : Nat) (key : Nat) (op : Nat) :
    Keeps β σ (fpCmd i r key op s) := by
  unfold fpCmd
  repeat' first
    | with_reducible assumption | with_reducible apply fset_keeps | with_reducible apply fpProgram_keeps
    | with_reducible apply fpErase_keeps | with_reducible apply Keeps.ite | split | dsimp only

theorem flashDone_keeps {β : Bool} {σ s : State} (h : Keeps β σ s) (k : Nat) (who : Nat) (res : Nat) (prog : Bool) :
    Keeps β σ (flashDone k who res prog s) := by
  unfold flashDone
  try lift_lets
  repeat' first
    | with_reducible assumption
    | (intro x; first
        | (have hx : Keeps β σ x := ?_); clear_value x | (have hx : Keeps β σ x.2 := ?_); clear_value x
        | (have hx : Keeps β σ x.2.2 := ?_); clear_value x | clear_value x)
    | with_reducible apply fpProgEnd_keeps | with_reducible apply fpEnd_keeps | with_reducible apply flcNote_keeps
    | with_reducible apply fset_keeps | with_reducible apply Keeps.ite | split | lift_lets | subst x | dsimp only

theorem programDone_keeps {σ s : State} (h : Keeps false σ s) (k : Nat) (readBack : List Byte) :
    Keeps false σ (programDone k readBack s) := by
  unfold programDone
  try lift_lets
  repeat' first
    | with_reducible assumption
    | (intro x; first
        | (have hx : Keeps false σ x := ?_); clear_value x | (have hx : Keeps false σ x.2 := ?_); clear_value x
        | (have hx : Keeps false σ x.2.2 := ?_); clear_value x | clear_value x)
    | with_reducible apply drawFree_keeps | with_reducible apply memWrite_keeps
    | with_reducible apply eraseRange_keeps | with_reducible apply bankPut_keeps
    | with_reducible apply flashDone_keeps | with_reducible apply flashInvalidate_keeps
    | with_reducible apply Keeps.ite | split | simp only [Keeps.update] | lift_lets | subst x | dsimp only

theorem eraseDone_keeps {σ s : State} (h : Keeps false σ s) (k : Nat) (blank : Bool) :
    Keeps false σ (eraseDone k blank s) := by
  unfold eraseDone
  try lift_lets
  repeat' first
    | with_reducible assumption
    | (intro x; first
        | (have hx : Keeps false σ x := ?_); clear_value x | (have hx : Keeps false σ x.2 := ?_); clear_value x
        | (have hx : Keeps false σ x.2.2 := ?_); clear_value x | clear_value x)
    | with_reducible apply bankPut_keeps | with_reducible apply eraseRange_keeps
    | with_reducible apply flashDone_keeps | with_reducible apply garble_keeps | with_reducible apply Keeps.ite
    | split | simp only [Keeps.update] | lift_lets | subst x | dsimp only

theorem bankSuspend_keeps {β : Bool} {σ s : State} (h : Keeps β σ s) (k : Nat) (byRead : Bool) :
    Keeps β σ (bankSuspend k byRead s) := by
  unfold bankSuspend
  try lift_lets
  repeat' first
    | with_reducible assumption
    | (intro x; first
        | (have hx : Keeps β σ x := ?_); clear_value x | (have hx : Keeps β σ x.2 := ?_); clear_value x
        | (have hx : Keeps β σ x.2.2 := ?_); clear_value x | clear_value x)
    | with_reducible apply bankPut_keeps | with_reducible apply Keeps.ite | split | simp only [Keeps.update]
    | lift_lets | subst x | dsimp only

theorem bankResume_keeps {β : Bool} {σ s : State} (h : Keeps β σ s) (k : Nat) :
    Keeps β σ (bankResume k s) := by
  unfold bankResume
  repeat' first
    | with_reducible assumption | with_reducible apply bankPut_keeps | simp only [Keeps.update] | dsimp only | split

theorem flcSusp_keeps {β : Bool} {σ s : State} (h : Keeps β σ s) (key : Nat) (k : Nat) (susp : Bool) (resume : Bool) :
    Keeps β σ (flcSusp key k susp resume s) := by
  unfold flcSusp
  repeat' first
    | with_reducible assumption | with_reducible apply flcErr_keeps | with_reducible apply bankSuspend_keeps
    | with_reducible apply bankResume_keeps | with_reducible apply Keeps.ite | split | dsimp only

theorem autoResume_keeps {β : Bool} {σ s : State} (h : Keeps β σ s) (k : Nat) :
    Keeps β σ (autoResume k s) := by
  unfold autoResume
  repeat' first
    | with_reducible assumption | with_reducible apply bankResume_keeps | with_reducible apply Keeps.ite | split
    | dsimp only

theorem minRunEnd_keeps {β : Bool} {σ s : State} (h : Keeps β σ s) (k : Nat) :
    Keeps β σ (minRunEnd k s) := by
  unfold minRunEnd
  try lift_lets
  repeat' first
    | with_reducible assumption
    | (intro x; first
        | (have hx : Keeps β σ x := ?_); clear_value x | (have hx : Keeps β σ x.2 := ?_); clear_value x
        | (have hx : Keeps β σ x.2.2 := ?_); clear_value x | clear_value x)
    | with_reducible apply bankPut_keeps | with_reducible apply Keeps.ite | split | simp only [Keeps.update]
    | lift_lets | subst x | dsimp only

theorem flcCfgWrite_keeps {β : Bool} {σ s : State} (h : Keeps β σ s) (data : Word) :
    Keeps β σ (flcCfgWrite data s) := by
  unfold flcCfgWrite
  try lift_lets
  repeat' first
    | with_reducible assumption
    | (intro x; first
        | (have hx : Keeps β σ x := ?_); clear_value x | (have hx : Keeps β σ x.2 := ?_); clear_value x
        | (have hx : Keeps β σ x.2.2 := ?_); clear_value x | clear_value x)
    | with_reducible apply flcErr_keeps | with_reducible apply flcWs_keeps | with_reducible apply wr_keeps
    | with_reducible apply Keeps.ite | split | simp only [Keeps.update] | lift_lets | subst x | dsimp only

theorem flashRead_keeps {β : Bool} {σ s : State} (h : Keeps β σ s) (a : Nat) :
    Keeps β σ (flashRead a s).2 := by
  unfold flashRead
  try lift_lets
  repeat' first
    | with_reducible assumption
    | (intro x; first
        | (have hx : Keeps β σ x := ?_); clear_value x | (have hx : Keeps β σ x.2 := ?_); clear_value x
        | (have hx : Keeps β σ x.2.2 := ?_); clear_value x | clear_value x)
    | with_reducible apply bankSuspend_keeps | with_reducible apply Keeps.ite | split | simp only [Keeps.update]
    | lift_lets | subst x | dsimp only

theorem flashBuffer_keeps {β : Bool} {σ s : State} (h : Keeps β σ s) (a : Nat) :
    Keeps β σ (flashBuffer a s) := by
  unfold flashBuffer
  try lift_lets
  repeat' first
    | with_reducible assumption
    | (intro x; first
        | (have hx : Keeps β σ x := ?_); clear_value x | (have hx : Keeps β σ x.2 := ?_); clear_value x
        | (have hx : Keeps β σ x.2.2 := ?_); clear_value x | clear_value x)
    | with_reducible apply Keeps.ite | split | simp only [Keeps.update] | lift_lets | subst x | dsimp only

theorem flashEcc_keeps {β : Bool} {σ s : State} (h : Keeps β σ s) (a : Nat) (ecc : EccSeen) :
    Keeps β σ (flashEcc a ecc s) := by
  unfold flashEcc
  repeat' first
    | with_reducible assumption | with_reducible apply flcNote_keeps | with_reducible apply fset_keeps
    | with_reducible apply fcount_keeps | split | simp only [Keeps.update] | dsimp only

theorem bankReset_keeps {β : Bool} {σ s : State} (h : Keeps β σ s) (k : Nat) :
    Keeps β σ (bankReset k s) := by
  unfold bankReset
  try lift_lets
  repeat' first
    | with_reducible assumption
    | (intro x; first
        | (have hx : Keeps β σ x := ?_); clear_value x | (have hx : Keeps β σ x.2 := ?_); clear_value x
        | (have hx : Keeps β σ x.2.2 := ?_); clear_value x | clear_value x)
    | with_reducible apply garble_keeps | with_reducible apply bankPut_keeps | with_reducible apply Keeps.ite
    | split | simp only [Keeps.update] | lift_lets | subst x | dsimp only

theorem fpRoomReset_keeps {β : Bool} {σ s : State} (h : Keeps β σ s) (r : Nat) :
    Keeps β σ (fpRoomReset r s) := by
  unfold fpRoomReset
  try lift_lets
  repeat' first
    | with_reducible assumption
    | (intro x; first
        | (have hx : Keeps β σ x := ?_); clear_value x | (have hx : Keeps β σ x.2 := ?_); clear_value x
        | (have hx : Keeps β σ x.2.2 := ?_); clear_value x | clear_value x)
    | with_reducible apply fset_keeps | with_reducible apply Keeps.ite | split | simp only [Keeps.update]
    | lift_lets | subst x | dsimp only

theorem execFlashProgram_keeps {β : Bool} {σ s : State} (h : Keeps β σ s) (i : Init) (port : BitVec 6) (key : BitVec
    16) :
    KeepsOut β σ (execFlashProgram i port key s) := by
  unfold execFlashProgram
  repeat' first
    | with_reducible assumption | with_reducible apply KeepsOut.next | with_reducible apply doorStore_keeps
    | with_reducible apply fpCmd_keeps | (intro u; intros) | dsimp only | split

theorem execFlashErase_keeps {β : Bool} {σ s : State} (h : Keeps β σ s) (i : Init) (port : BitVec 6) (key : BitVec
    16) :
    KeepsOut β σ (execFlashErase i port key s) := by
  unfold execFlashErase
  repeat' first
    | with_reducible assumption | with_reducible apply KeepsOut.next | with_reducible apply doorStore_keeps
    | with_reducible apply fpCmd_keeps | (intro u; intros) | dsimp only | split

theorem execFlashProgramDone_keeps {σ s : State} (h : Keeps false σ s) (bank : BitVec 1) (readBack : BitVec 256) :
    KeepsOut false σ (execFlashProgramDone bank readBack s) := by
  unfold execFlashProgramDone
  repeat' first
    | with_reducible assumption | with_reducible apply KeepsOut.next | with_reducible apply programDone_keeps
    | dsimp only | split

theorem execFlashEraseDone_keeps {σ s : State} (h : Keeps false σ s) (bank : BitVec 1) (blank : Bool) :
    KeepsOut false σ (execFlashEraseDone bank blank s) := by
  unfold execFlashEraseDone
  repeat' first
    | with_reducible assumption | with_reducible apply KeepsOut.next | with_reducible apply eraseDone_keeps
    | dsimp only | split

theorem execFlashSuspend_keeps {β : Bool} {σ s : State} (h : Keeps β σ s) (i : Init) (key : BitVec 16) (bank :
    BitVec 1) :
    KeepsOut β σ (execFlashSuspend i key bank s) := by
  unfold execFlashSuspend
  repeat' first
    | with_reducible assumption | with_reducible apply KeepsOut.next | with_reducible apply doorStore_keeps
    | with_reducible apply flcSusp_keeps | (intro u; intros) | dsimp only | split

theorem execFlashResume_keeps {β : Bool} {σ s : State} (h : Keeps β σ s) (i : Init) (key : BitVec 16) (bank : BitVec
    1) :
    KeepsOut β σ (execFlashResume i key bank s) := by
  unfold execFlashResume
  repeat' first
    | with_reducible assumption | with_reducible apply KeepsOut.next | with_reducible apply doorStore_keeps
    | with_reducible apply flcSusp_keeps | (intro u; intros) | dsimp only | split

theorem execFlashAutoResume_keeps {β : Bool} {σ s : State} (h : Keeps β σ s) (bank : BitVec 1) :
    KeepsOut β σ (execFlashAutoResume bank s) := by
  unfold execFlashAutoResume
  repeat' first
    | with_reducible assumption | with_reducible apply KeepsOut.next | with_reducible apply autoResume_keeps
    | dsimp only | split

theorem execMinimumRunEnd_keeps {β : Bool} {σ s : State} (h : Keeps β σ s) (bank : BitVec 1) :
    KeepsOut β σ (execMinimumRunEnd bank s) := by
  unfold execMinimumRunEnd
  repeat' first
    | with_reducible assumption | with_reducible apply KeepsOut.next | with_reducible apply minRunEnd_keeps
    | dsimp only | split

theorem execFlcCfgWrite_keeps {β : Bool} {σ s : State} (h : Keeps β σ s) (i : Init) (data : Word) :
    KeepsOut β σ (execFlcCfgWrite i data s) := by
  unfold execFlcCfgWrite
  repeat' first
    | with_reducible assumption | with_reducible apply KeepsOut.next | with_reducible apply doorStore_keeps
    | with_reducible apply flcCfgWrite_keeps | (intro u; intros) | dsimp only | split

theorem phSet_keeps {β : Bool} {σ s : State} (h : Keeps β σ s) (c : Nat) (v : PhChan) :
    Keeps β σ (phSet c v s) := by
  unfold phSet
  repeat' first
    | with_reducible assumption | simp only [Keeps.update] | dsimp only | split

theorem latchSet_keeps {β : Bool} {σ s : State} (h : Keeps β σ s) (i : Init) (c : Nat) (v : PhLatch) :
    Keeps β σ (latchSet i c v s) := by
  unfold latchSet
  repeat' first
    | with_reducible assumption | simp only [Keeps.update] | dsimp only | split

theorem phRelease_keeps {β : Bool} {σ s : State} (h : Keeps β σ s) (c : Nat) :
    Keeps β σ (phRelease c s) := by
  unfold phRelease
  repeat' first
    | with_reducible assumption | with_reducible apply wr_keeps | with_reducible apply phSet_keeps
    | simp only [Keeps.update] | dsimp only | split

theorem phLockRead_keeps {β : Bool} {σ s : State} (h : Keeps β σ s) (c : Nat) (room : Nat) :
    Keeps β σ (phLockRead c room s).2 := by
  unfold phLockRead
  try lift_lets
  repeat' first
    | with_reducible assumption
    | (intro x; first
        | (have hx : Keeps β σ x := ?_); clear_value x | (have hx : Keeps β σ x.2 := ?_); clear_value x
        | (have hx : Keeps β σ x.2.2 := ?_); clear_value x | clear_value x)
    | with_reducible apply phSet_keeps | with_reducible apply Keeps.ite | split | simp only [Keeps.update]
    | lift_lets | subst x | dsimp only

theorem phReleaseWrite_keeps {β : Bool} {σ s : State} (h : Keeps β σ s) (c : Nat) (room : Nat) :
    Keeps β σ (phReleaseWrite c room s) := by
  unfold phReleaseWrite
  repeat' first
    | with_reducible assumption | with_reducible apply phRelease_keeps | with_reducible apply fset_keeps
    | with_reducible apply Keeps.ite | split | dsimp only

theorem phForce_keeps {β : Bool} {σ s : State} (h : Keeps β σ s) (key : Nat) (c : Nat) :
    Keeps β σ (phForce key c s) := by
  unfold phForce
  repeat' first
    | with_reducible assumption | with_reducible apply phRelease_keeps | with_reducible apply Keeps.ite | split
    | simp only [Keeps.update] | dsimp only

theorem phOutBell_keeps {β : Bool} {σ s : State} (h : Keeps β σ s) (c : Nat) :
    Keeps β σ (phOutBell c s) := by
  unfold phOutBell
  repeat' first
    | with_reducible assumption | with_reducible apply raiseEvt_keeps | with_reducible apply Keeps.ite | split
    | dsimp only

theorem phSend_keeps {β : Bool} {σ s : State} (h : Keeps β σ s) (i : Init) (c : Nat) (data : Word) (last : Bool) :
    Keeps β σ (phSend i c data last s) := by
  unfold phSend
  try lift_lets
  repeat' first
    | with_reducible assumption
    | (intro x; first
        | (have hx : Keeps β σ x := ?_); clear_value x | (have hx : Keeps β σ x.2 := ?_); clear_value x
        | (have hx : Keeps β σ x.2.2 := ?_); clear_value x | clear_value x)
    | with_reducible apply fset_keeps | with_reducible apply phSet_keeps | with_reducible apply raiseEvt_keeps
    | with_reducible apply phOutBell_keeps | with_reducible apply Keeps.ite | split | simp only [Keeps.update]
    | lift_lets | subst x | dsimp only

theorem phRecv_keeps {β : Bool} {σ s : State} (h : Keeps β σ s) (i : Init) (c : Nat) :
    Keeps β σ (phRecv i c s).2 := by
  unfold phRecv
  try lift_lets
  repeat' first
    | with_reducible assumption
    | (intro x; first
        | (have hx : Keeps β σ x := ?_); clear_value x | (have hx : Keeps β σ x.2 := ?_); clear_value x
        | (have hx : Keeps β σ x.2.2 := ?_); clear_value x | clear_value x)
    | with_reducible apply latchSet_keeps | with_reducible apply phSet_keeps | with_reducible apply Keeps.ite
    | split | simp only [Keeps.update] | lift_lets | subst x | dsimp only

theorem phRetWrite_keeps {β : Bool} {σ s : State} (h : Keeps β σ s) (i : Init) (c : Nat) (data : Word) :
    Keeps β σ (phRetWrite i c data s) := by
  unfold phRetWrite
  repeat' first
    | with_reducible assumption | with_reducible apply fset_keeps | with_reducible apply wr_keeps
    | with_reducible apply Keeps.ite | split | dsimp only

theorem phClearLatched_keeps {β : Bool} {σ s : State} (h : Keeps β σ s) (c : Nat) :
    Keeps β σ (phClearLatched c s) := by
  unfold phClearLatched
  try lift_lets
  repeat' first
    | with_reducible assumption
    | (intro x; first
        | (have hx : Keeps β σ x := ?_); clear_value x | (have hx : Keeps β σ x.2 := ?_); clear_value x
        | (have hx : Keeps β σ x.2.2 := ?_); clear_value x | clear_value x)
    | (with_reducible apply Keeps.foldl; intro u y hu) | simp only [Keeps.update] | lift_lets | subst x | dsimp only
    | split

theorem phFlush_keeps {β : Bool} {σ s : State} (h : Keeps β σ s) (c : Nat) :
    Keeps β σ (phFlush c s) := by
  unfold phFlush
  repeat' first
    | with_reducible assumption | with_reducible apply phClearLatched_keeps | with_reducible apply fset_keeps
    | with_reducible apply phSet_keeps | simp only [Keeps.update] | dsimp only | split

theorem phRoomReset_keeps {β : Bool} {σ s : State} (h : Keeps β σ s) (r : Nat) :
    Keeps β σ (phRoomReset r s) := by
  unfold phRoomReset
  try lift_lets
  repeat' first
    | with_reducible assumption
    | (intro x; first
        | (have hx : Keeps β σ x := ?_); clear_value x | (have hx : Keeps β σ x.2 := ?_); clear_value x
        | (have hx : Keeps β σ x.2.2 := ?_); clear_value x | clear_value x)
    | with_reducible apply phFlush_keeps | with_reducible apply phRelease_keeps | with_reducible apply Keeps.ite
    | (with_reducible apply Keeps.foldl; intro u y hu) | split | lift_lets | subst x | dsimp only

theorem phHomeChanged_keeps {β : Bool} {σ s : State} (h : Keeps β σ s) (c : Nat) :
    Keeps β σ (phHomeChanged c s) := by
  unfold phHomeChanged
  repeat' first
    | with_reducible assumption | with_reducible apply phRelease_keeps | with_reducible apply phFlush_keeps
    | dsimp only | split

theorem execPhLockRead_keeps {β : Bool} {σ s : State} (h : Keeps β σ s) (i : Init) (chan : BitVec 6) :
    KeepsOut β σ (execPhLockRead i chan s) := by
  unfold execPhLockRead
  repeat' first
    | with_reducible assumption | with_reducible apply KeepsOut.next | with_reducible apply doorLoad_keeps
    | with_reducible apply phLockRead_keeps | (intro u; intros) | dsimp only | split

theorem execPhRelease_keeps {β : Bool} {σ s : State} (h : Keeps β σ s) (i : Init) (chan : BitVec 6) :
    KeepsOut β σ (execPhRelease i chan s) := by
  unfold execPhRelease
  repeat' first
    | with_reducible assumption | with_reducible apply KeepsOut.next | with_reducible apply doorStore_keeps
    | with_reducible apply phReleaseWrite_keeps | (intro u; intros) | dsimp only | split

theorem execPhForce_keeps {β : Bool} {σ s : State} (h : Keeps β σ s) (i : Init) (key : BitVec 16) (chan : BitVec 6) :
    KeepsOut β σ (execPhForce i key chan s) := by
  unfold execPhForce
  repeat' first
    | with_reducible assumption | with_reducible apply KeepsOut.next | with_reducible apply doorStore_keeps
    | with_reducible apply phForce_keeps | (intro u; intros) | dsimp only | split

theorem execPhSend_keeps {β : Bool} {σ s : State} (h : Keeps β σ s) (i : Init) (chan : BitVec 6) (data : Word) :
    KeepsOut β σ (execPhSend i chan data s) := by
  unfold execPhSend
  repeat' first
    | with_reducible assumption | with_reducible apply KeepsOut.next | with_reducible apply doorStore_keeps
    | with_reducible apply phSend_keeps | (intro u; intros) | dsimp only | split

theorem execPhSendEnd_keeps {β : Bool} {σ s : State} (h : Keeps β σ s) (i : Init) (chan : BitVec 6) (data : Word) :
    KeepsOut β σ (execPhSendEnd i chan data s) := by
  unfold execPhSendEnd
  repeat' first
    | with_reducible assumption | with_reducible apply KeepsOut.next | with_reducible apply doorStore_keeps
    | with_reducible apply phSend_keeps | (intro u; intros) | dsimp only | split

theorem execPhRecv_keeps {β : Bool} {σ s : State} (h : Keeps β σ s) (i : Init) (chan : BitVec 6) :
    KeepsOut β σ (execPhRecv i chan s) := by
  unfold execPhRecv
  repeat' first
    | with_reducible assumption | with_reducible apply KeepsOut.next | with_reducible apply doorLoad_keeps
    | with_reducible apply phRecv_keeps | (intro u; intros) | dsimp only | split

theorem execPhRetWrite_keeps {β : Bool} {σ s : State} (h : Keeps β σ s) (i : Init) (chan : BitVec 6) (data : Word) :
    KeepsOut β σ (execPhRetWrite i chan data s) := by
  unfold execPhRetWrite
  repeat' first
    | with_reducible assumption | with_reducible apply KeepsOut.next | with_reducible apply doorStore_keeps
    | with_reducible apply phRetWrite_keeps | (intro u; intros) | dsimp only | split

end Sys2Proof.Machine
end

