-- ==== Sys2Proof/Laws/KeepsRadio.lean ====
section
/-!
SUPPORT. The operations of the files imported here keep the queue and the canonical forms, and those that store
nothing keep the memories: one lemma per operation, by the operations it calls.
-/

namespace Sys2Proof.Machine

open Reg

theorem fePut_keeps {β : Bool} {σ s : State} (h : Keeps β σ s) (fe : Fe) (v : FeState) :
    Keeps β σ (fePut fe v s) := by
  unfold fePut
  repeat' first
    | with_reducible assumption | split | simp only [Keeps.update] | dsimp only

theorem feCtlPins_keeps {β : Bool} {σ s : State} (h : Keeps β σ s) (fe : Fe) (st : Nat) :
    Keeps β σ (feCtlPins fe st s) := by
  unfold feCtlPins
  repeat' first
    | with_reducible assumption | with_reducible apply fePut_keeps | simp only [Keeps.update] | dsimp only | split

theorem calRequest_keeps {β : Bool} {σ s : State} (h : Keeps β σ s) (fe : Fe) :
    Keeps β σ (calRequest fe s) := by
  unfold calRequest
  try lift_lets
  repeat' first
    | with_reducible assumption
    | (intro x; first
        | (have hx : Keeps β σ x := ?_); clear_value x | (have hx : Keeps β σ x.2 := ?_); clear_value x
        | (have hx : Keeps β σ x.2.2 := ?_); clear_value x | clear_value x)
    | with_reducible apply fePut_keeps | with_reducible apply fset_keeps | with_reducible apply Keeps.ite | split
    | simp only [Keeps.update] | lift_lets | subst x | dsimp only

theorem tempSample_keeps {β : Bool} {σ s : State} (h : Keeps β σ s) (fe : Fe) (temp : BitVec 16) :
    Keeps β σ (tempSample fe temp s) := by
  unfold tempSample
  try lift_lets
  repeat' first
    | with_reducible assumption
    | (intro x; first
        | (have hx : Keeps β σ x := ?_); clear_value x | (have hx : Keeps β σ x.2 := ?_); clear_value x
        | (have hx : Keeps β σ x.2.2 := ?_); clear_value x | clear_value x)
    | with_reducible apply fset_keeps | with_reducible apply calRequest_keeps | with_reducible apply Keeps.ite
    | split | lift_lets | subst x | dsimp only

theorem tuneGive_keeps {β : Bool} {σ s : State} (h : Keeps β σ s) (fe : Fe) (setting : Nat) :
    Keeps β σ (tuneGive fe setting s) := by
  unfold tuneGive
  try lift_lets
  repeat' first
    | with_reducible assumption
    | (intro x; first
        | (have hx : Keeps β σ x := ?_); clear_value x | (have hx : Keeps β σ x.2 := ?_); clear_value x
        | (have hx : Keeps β σ x.2.2 := ?_); clear_value x | clear_value x)
    | with_reducible apply wr_keeps | with_reducible apply fset_keeps | with_reducible apply fePut_keeps
    | with_reducible apply tuneNow_keeps | with_reducible apply Keeps.ite | split | simp only [Keeps.update]
    | lift_lets | subst x | dsimp only

theorem tuneApply_keeps {β : Bool} {σ s : State} (h : Keeps β σ s) (fe : Fe) :
    Keeps β σ (tuneApply fe s) := by
  unfold tuneApply
  repeat' first
    | with_reducible assumption | with_reducible apply fset_keeps | with_reducible apply fePut_keeps
    | with_reducible apply tuneNow_keeps | simp only [Keeps.update] | dsimp only | split

theorem autoTuneStep_keeps {β : Bool} {σ s : State} (h : Keeps β σ s) (fe : Fe) (gamma : Nat) :
    Keeps β σ (autoTuneStep fe gamma s) := by
  unfold autoTuneStep
  try lift_lets
  repeat' first
    | with_reducible assumption
    | (intro x; first
        | (have hx : Keeps β σ x := ?_); clear_value x | (have hx : Keeps β σ x.2 := ?_); clear_value x
        | (have hx : Keeps β σ x.2.2 := ?_); clear_value x | clear_value x)
    | with_reducible apply tuneGive_keeps | with_reducible apply fePut_keeps | with_reducible apply Keeps.ite
    | split | simp only [Keeps.update] | lift_lets | subst x | dsimp only

theorem licStart_keeps {β : Bool} {σ s : State} (h : Keeps β σ s) :
    Keeps β σ (licStart s) := by
  unfold licStart
  try lift_lets
  repeat' first
    | with_reducible assumption
    | (intro x; first
        | (have hx : Keeps β σ x := ?_); clear_value x | (have hx : Keeps β σ x.2 := ?_); clear_value x
        | (have hx : Keeps β σ x.2.2 := ?_); clear_value x | clear_value x)
    | with_reducible apply stage_keeps | with_reducible apply fset_keeps | with_reducible apply Keeps.ite | split
    | simp only [Keeps.update] | lift_lets | subst x | dsimp only

theorem txPowerSet_keeps {β : Bool} {σ s : State} (h : Keeps β σ s) (fe : Fe) (freq : Nat) (req : Int) (plic : Int)
    (temp : BitVec 16) (v : Nat) :
    Keeps β σ (txPowerSet fe freq req plic temp v s) := by
  unfold txPowerSet
  try lift_lets
  repeat' first
    | with_reducible assumption
    | (intro x; first
        | (have hx : Keeps β σ x := ?_); clear_value x | (have hx : Keeps β σ x.2 := ?_); clear_value x
        | (have hx : Keeps β σ x.2.2 := ?_); clear_value x | clear_value x)
    | with_reducible apply fset_keeps | with_reducible apply fsetS_keeps | with_reducible apply raiseEvt_keeps
    | with_reducible apply Keeps.ite | split | lift_lets | subst x | dsimp only

theorem timeNote_keeps {β : Bool} {σ s : State} (h : Keeps β σ s) (k : Nat) :
    Keeps β σ (timeNote k s) := by
  unfold timeNote
  repeat' first
    | with_reducible assumption | with_reducible apply note_keeps | dsimp only | split

theorem timeErrf_keeps {β : Bool} {σ s : State} (h : Keeps β σ s) (f : Fld) :
    Keeps β σ (timeErrf f s) := by
  unfold timeErrf
  repeat' first
    | with_reducible assumption | with_reducible apply note_keeps | dsimp only | split

theorem timePut_keeps {β : Bool} {σ s : State} (h : Keeps β σ s) (v : TimeState) :
    Keeps β σ (timePut v s) := by
  unfold timePut
  repeat' first
    | with_reducible assumption | simp only [Keeps.update] | dsimp only | split

theorem timeQual_keeps {β : Bool} {σ s : State} (h : Keeps β σ s) (st : Nat) :
    Keeps β σ (timeQual st s) := by
  unfold timeQual
  repeat' first
    | with_reducible assumption | with_reducible apply timeNote_keeps | with_reducible apply fset_keeps
    | with_reducible apply timePut_keeps | with_reducible apply Keeps.ite | split | simp only [Keeps.update]
    | dsimp only

theorem timeErr_keeps {β : Bool} {σ s : State} (h : Keeps β σ s) (v : Option Nat) :
    Keeps β σ (timeErr v s) := by
  unfold timeErr
  repeat' first
    | with_reducible assumption | with_reducible apply wr_keeps | with_reducible apply timePut_keeps | split
    | simp only [Keeps.update] | dsimp only

theorem timeSources_keeps {β : Bool} {σ s : State} (h : Keeps β σ s) :
    Keeps β σ (timeSources s) := by
  unfold timeSources
  try lift_lets
  repeat' first
    | with_reducible assumption
    | (intro x; first
        | (have hx : Keeps β σ x := ?_); clear_value x | (have hx : Keeps β σ x.2 := ?_); clear_value x
        | (have hx : Keeps β σ x.2.2 := ?_); clear_value x | clear_value x)
    | with_reducible apply timePut_keeps | with_reducible apply fset_keeps | with_reducible apply timeQual_keeps
    | with_reducible apply timeErr_keeps | with_reducible apply Keeps.ite | split | simp only [Keeps.update]
    | lift_lets | subst x | dsimp only

theorem timeFreq_keeps {β : Bool} {σ s : State} (h : Keeps β σ s) (f : Rat) :
    Keeps β σ (timeFreq f s) := by
  unfold timeFreq
  repeat' first
    | with_reducible assumption | with_reducible apply fsetS_keeps | with_reducible apply timePut_keeps
    | simp only [Keeps.update] | dsimp only | split

theorem timeRem_keeps {β : Bool} {σ s : State} (h : Keeps β σ s) (r : Rat) :
    Keeps β σ (timeRem r s) := by
  unfold timeRem
  repeat' first
    | with_reducible assumption | with_reducible apply fset_keeps | with_reducible apply timePut_keeps
    | simp only [Keeps.update] | dsimp only | split

theorem timeStep_keeps {β : Bool} {σ s : State} (h : Keeps β σ s) (d : Option Int) :
    Keeps β σ (timeStep d s) := by
  unfold timeStep
  repeat' first
    | with_reducible assumption | with_reducible apply fset_keeps | with_reducible apply timePut_keeps
    | simp only [Keeps.update] | dsimp only | split

theorem timeMeasure_keeps {β : Bool} {σ s : State} (h : Keeps β σ s) (src : Nat) (ofs : Int) (tick : Nat) :
    Keeps β σ (timeMeasure src ofs tick s) := by
  unfold timeMeasure
  try lift_lets
  repeat' first
    | with_reducible assumption
    | (intro x; first
        | (have hx : Keeps β σ x := ?_); clear_value x | (have hx : Keeps β σ x.2 := ?_); clear_value x
        | (have hx : Keeps β σ x.2.2 := ?_); clear_value x | clear_value x)
    | with_reducible apply fsetS_keeps | with_reducible apply timePut_keeps | with_reducible apply timeFreq_keeps
    | with_reducible apply timeRem_keeps | with_reducible apply timeStep_keeps | with_reducible apply timeQual_keeps
    | with_reducible apply timeErr_keeps | with_reducible apply Keeps.ite | split | simp only [Keeps.update]
    | lift_lets | subst x | dsimp only

theorem ppsEdge_keeps {β : Bool} {σ s : State} (h : Keeps β σ s) (edge : Nat) (nt : Nat) :
    Keeps β σ (ppsEdge edge nt s) := by
  unfold ppsEdge
  try lift_lets
  repeat' first
    | with_reducible assumption
    | (intro x; first
        | (have hx : Keeps β σ x := ?_); clear_value x | (have hx : Keeps β σ x.2 := ?_); clear_value x
        | (have hx : Keeps β σ x.2.2 := ?_); clear_value x | clear_value x)
    | with_reducible apply timePut_keeps | with_reducible apply timeSources_keeps
    | with_reducible apply timeMeasure_keeps | with_reducible apply timeErrf_keeps
    | with_reducible apply fcount_keeps | with_reducible apply Keeps.ite | split | simp only [Keeps.update]
    | lift_lets | subst x | dsimp only

theorem ppsLost_keeps {β : Bool} {σ s : State} (h : Keeps β σ s) :
    Keeps β σ (ppsLost s) := by
  unfold ppsLost
  repeat' first
    | with_reducible assumption | with_reducible apply timeSources_keeps | with_reducible apply timeNote_keeps
    | with_reducible apply timePut_keeps | with_reducible apply Keeps.ite | split | simp only [Keeps.update]
    | dsimp only

theorem timeMeas_keeps {β : Bool} {σ s : State} (h : Keeps β σ s) (now : Nat) :
    Keeps β σ (timeMeas now s) := by
  unfold timeMeas
  try lift_lets
  repeat' first
    | with_reducible assumption
    | (intro x; first
        | (have hx : Keeps β σ x := ?_); clear_value x | (have hx : Keeps β σ x.2 := ?_); clear_value x
        | (have hx : Keeps β σ x.2.2 := ?_); clear_value x | clear_value x)
    | with_reducible apply timeErrf_keeps | with_reducible apply timeSources_keeps
    | with_reducible apply timePut_keeps | with_reducible apply timeMeasure_keeps | with_reducible apply Keeps.ite
    | split | simp only [Keeps.update] | lift_lets | subst x | dsimp only

theorem timeSet_keeps {β : Bool} {σ s : State} (h : Keeps β σ s) :
    Keeps β σ (timeSet s) := by
  unfold timeSet
  try lift_lets
  repeat' first
    | with_reducible assumption
    | (intro x; first
        | (have hx : Keeps β σ x := ?_); clear_value x | (have hx : Keeps β σ x.2 := ?_); clear_value x
        | (have hx : Keeps β σ x.2.2 := ?_); clear_value x | clear_value x)
    | with_reducible apply timePut_keeps | with_reducible apply timeErr_keeps | with_reducible apply timeQual_keeps
    | with_reducible apply timeRem_keeps | with_reducible apply timeStep_keeps | with_reducible apply timeNote_keeps
    | with_reducible apply fcount_keeps | with_reducible apply wr64_keeps | simp only [Keeps.update] | lift_lets
    | subst x | dsimp only | split

theorem timeCmd_keeps {β : Bool} {σ s : State} (h : Keeps β σ s) (data : Word) (now : Nat) :
    Keeps β σ (timeCmd data now s) := by
  unfold timeCmd
  repeat' first
    | with_reducible assumption | with_reducible apply timeErrf_keeps | with_reducible apply timeSet_keeps
    | with_reducible apply timeMeas_keeps | with_reducible apply Keeps.ite | split | dsimp only

theorem meshLost_keeps {β : Bool} {σ s : State} (h : Keeps β σ s) :
    Keeps β σ (meshLost s) := by
  unfold meshLost
  repeat' first
    | with_reducible assumption | with_reducible apply timeSources_keeps | with_reducible apply timePut_keeps
    | simp only [Keeps.update] | dsimp only | split

theorem timeHandOff_keeps {β : Bool} {σ s : State} (h : Keeps β σ s) (nt : Nat) (air : Nat) :
    Keeps β σ (timeHandOff nt air s) := by
  unfold timeHandOff
  repeat' first
    | with_reducible assumption | with_reducible apply timePut_keeps | simp only [Keeps.update] | dsimp only | split

theorem timeResume_keeps {β : Bool} {σ s : State} (h : Keeps β σ s) (g : Nat) :
    Keeps β σ (timeResume g s) := by
  unfold timeResume
  try lift_lets
  repeat' first
    | with_reducible assumption
    | (intro x; first
        | (have hx : Keeps β σ x := ?_); clear_value x | (have hx : Keeps β σ x.2 := ?_); clear_value x
        | (have hx : Keeps β σ x.2.2 := ?_); clear_value x | clear_value x)
    | with_reducible apply wr64_keeps | with_reducible apply timePut_keeps | with_reducible apply timeQual_keeps
    | with_reducible apply timeErr_keeps | with_reducible apply timeNote_keeps | with_reducible apply fset_keeps
    | with_reducible apply Keeps.ite | split | simp only [Keeps.update] | lift_lets | subst x | dsimp only

theorem refThresholds_keeps {β : Bool} {σ s : State} (h : Keeps β σ s) :
    Keeps β σ (refThresholds s) := by
  unfold refThresholds
  try lift_lets
  repeat' first
    | with_reducible assumption
    | (intro x; first
        | (have hx : Keeps β σ x := ?_); clear_value x | (have hx : Keeps β σ x.2 := ?_); clear_value x
        | (have hx : Keeps β σ x.2.2 := ?_); clear_value x | clear_value x)
    | with_reducible apply fset_keeps | with_reducible apply timeNote_keeps | with_reducible apply Keeps.ite | split
    | lift_lets | subst x | dsimp only

theorem refLearn_keeps {β : Bool} {σ s : State} (h : Keeps β σ s) (elf : Rat) (e : Rat) :
    Keeps β σ (refLearn elf e s) := by
  unfold refLearn
  try lift_lets
  repeat' first
    | with_reducible assumption
    | (intro x; first
        | (have hx : Keeps β σ x := ?_); clear_value x | (have hx : Keeps β σ x.2 := ?_); clear_value x
        | (have hx : Keeps β σ x.2.2 := ?_); clear_value x | clear_value x)
    | with_reducible apply timePut_keeps | with_reducible apply fset_keeps | with_reducible apply fsetS_keeps
    | with_reducible apply Keeps.ite | (with_reducible apply Keeps.foldl; intro u y hu) | split
    | simp only [Keeps.update] | lift_lets | subst x | dsimp only

theorem refUpdate_keeps {β : Bool} {σ s : State} (h : Keeps β σ s) (n : Nat) (mean : Int) :
    Keeps β σ (refUpdate n mean s) := by
  unfold refUpdate
  try lift_lets
  repeat' first
    | with_reducible assumption
    | (intro x; first
        | (have hx : Keeps β σ x := ?_); clear_value x | (have hx : Keeps β σ x.2 := ?_); clear_value x
        | (have hx : Keeps β σ x.2.2 := ?_); clear_value x | clear_value x)
    | with_reducible apply timePut_keeps | with_reducible apply refLearn_keeps | with_reducible apply fnext_keeps
    | with_reducible apply fset_keeps | with_reducible apply fsetS_keeps | with_reducible apply refThresholds_keeps
    | with_reducible apply Keeps.ite | split | simp only [Keeps.update] | lift_lets | subst x | dsimp only

theorem refStop_keeps {β : Bool} {σ s : State} (h : Keeps β σ s) :
    Keeps β σ (refStop s) := by
  unfold refStop
  repeat' first
    | with_reducible assumption | with_reducible apply timePut_keeps | simp only [Keeps.update] | dsimp only | split

theorem refStart_keeps {β : Bool} {σ s : State} (h : Keeps β σ s) :
    Keeps β σ (refStart s) := by
  unfold refStart
  repeat' first
    | with_reducible assumption | with_reducible apply timePut_keeps | simp only [Keeps.update] | dsimp only | split

theorem imClose_keeps {β : Bool} {σ s : State} (h : Keeps β σ s) (w : ImWindow) :
    Keeps β σ (imClose w s) := by
  unfold imClose
  try lift_lets
  repeat' first
    | with_reducible assumption
    | (intro x; first
        | (have hx : Keeps β σ x := ?_); clear_value x | (have hx : Keeps β σ x.2 := ?_); clear_value x
        | (have hx : Keeps β σ x.2.2 := ?_); clear_value x | clear_value x)
    | with_reducible apply wr64_keeps | with_reducible apply timePut_keeps | with_reducible apply fset_keeps
    | with_reducible apply raiseEvt_keeps | with_reducible apply Keeps.ite | split | simp only [Keeps.update]
    | lift_lets | subst x | dsimp only

theorem imCmd_keeps {β : Bool} {σ s : State} (h : Keeps β σ s) (data : Word) (now : Nat) :
    Keeps β σ (imCmd data now s) := by
  unfold imCmd
  try lift_lets
  repeat' first
    | with_reducible assumption
    | (intro x; first
        | (have hx : Keeps β σ x := ?_); clear_value x | (have hx : Keeps β σ x.2 := ?_); clear_value x
        | (have hx : Keeps β σ x.2.2 := ?_); clear_value x | clear_value x)
    | with_reducible apply timeErrf_keeps | with_reducible apply fset_keeps | with_reducible apply timePut_keeps
    | with_reducible apply Keeps.ite | split | simp only [Keeps.update] | lift_lets | subst x | dsimp only

theorem imEdge_keeps {β : Bool} {σ s : State} (h : Keeps β σ s) (src : Nat) (falling : Bool) (at_ : Nat) :
    Keeps β σ (imEdge src falling at_ s) := by
  unfold imEdge
  try lift_lets
  repeat' first
    | with_reducible assumption
    | (intro x; first
        | (have hx : Keeps β σ x := ?_); clear_value x | (have hx : Keeps β σ x.2 := ?_); clear_value x
        | (have hx : Keeps β σ x.2.2 := ?_); clear_value x | clear_value x)
    | with_reducible apply imClose_keeps | with_reducible apply timePut_keeps | with_reducible apply Keeps.ite
    | split | simp only [Keeps.update] | lift_lets | subst x | dsimp only

theorem execPpsInEdge_keeps {β : Bool} {σ s : State} (h : Keeps β σ s) (edge : Word64) (nt : Word64) :
    KeepsOut β σ (execPpsInEdge edge nt s) := by
  unfold execPpsInEdge
  repeat' first
    | with_reducible assumption | with_reducible apply KeepsOut.next | with_reducible apply ppsEdge_keeps
    | dsimp only | split

theorem execPpsLost_keeps {β : Bool} {σ s : State} (h : Keeps β σ s) :
    KeepsOut β σ (execPpsLost s) := by
  unfold execPpsLost
  repeat' first
    | with_reducible assumption | with_reducible apply KeepsOut.next | with_reducible apply ppsLost_keeps
    | dsimp only | split

theorem execTimeMeas_keeps {β : Bool} {σ s : State} (h : Keeps β σ s) (i : Init) (data : Word) (now : Word64) :
    KeepsOut β σ (execTimeMeas i data now s) := by
  unfold execTimeMeas
  repeat' first
    | with_reducible assumption | with_reducible apply KeepsOut.next | with_reducible apply doorStore_keeps
    | with_reducible apply timeCmd_keeps | (intro u; intros) | dsimp only | split

theorem execTimeSet_keeps {β : Bool} {σ s : State} (h : Keeps β σ s) (i : Init) (data : Word) (now : Word64) :
    KeepsOut β σ (execTimeSet i data now s) := by
  unfold execTimeSet
  repeat' first
    | with_reducible assumption | with_reducible apply KeepsOut.next | with_reducible apply doorStore_keeps
    | with_reducible apply timeCmd_keeps | (intro u; intros) | dsimp only | split

theorem execMeshLost_keeps {β : Bool} {σ s : State} (h : Keeps β σ s) :
    KeepsOut β σ (execMeshLost s) := by
  unfold execMeshLost
  repeat' first
    | with_reducible assumption | with_reducible apply KeepsOut.next | with_reducible apply meshLost_keeps
    | with_reducible apply Keeps.ite | split | dsimp only

theorem execPpsPulseEnd_keeps {β : Bool} {σ s : State} (h : Keeps β σ s) :
    KeepsOut β σ (execPpsPulseEnd s) := by
  unfold execPpsPulseEnd
  repeat' first
    | with_reducible assumption | with_reducible apply KeepsOut.next | with_reducible apply timePut_keeps
    | simp only [Keeps.update] | dsimp only | split

theorem execRefEstimateUpdate_keeps {β : Bool} {σ s : State} (h : Keeps β σ s) (n : BitVec 32) (mean : Int) :
    KeepsOut β σ (execRefEstimateUpdate n mean s) := by
  unfold execRefEstimateUpdate
  repeat' first
    | with_reducible assumption | with_reducible apply KeepsOut.next | with_reducible apply refUpdate_keeps
    | dsimp only | split

theorem execImArm_keeps {β : Bool} {σ s : State} (h : Keeps β σ s) (i : Init) (data : Word) (now : Word64) :
    KeepsOut β σ (execImArm i data now s) := by
  unfold execImArm
  repeat' first
    | with_reducible assumption | with_reducible apply KeepsOut.next | with_reducible apply doorStore_keeps
    | with_reducible apply imCmd_keeps | (intro u; intros) | dsimp only | split

theorem execImCancel_keeps {β : Bool} {σ s : State} (h : Keeps β σ s) (i : Init) (data : Word) (now : Word64) :
    KeepsOut β σ (execImCancel i data now s) := by
  unfold execImCancel
  repeat' first
    | with_reducible assumption | with_reducible apply KeepsOut.next | with_reducible apply doorStore_keeps
    | with_reducible apply imCmd_keeps | (intro u; intros) | dsimp only | split

theorem execImEdge_keeps {β : Bool} {σ s : State} (h : Keeps β σ s) (src : BitVec 7) (falling : Bool) (at_ : Word64) :
    KeepsOut β σ (execImEdge src falling at_ s) := by
  unfold execImEdge
  repeat' first
    | with_reducible assumption | with_reducible apply KeepsOut.next | with_reducible apply imEdge_keeps
    | dsimp only | split

theorem execImWindowExpire_keeps {β : Bool} {σ s : State} (h : Keeps β σ s) :
    KeepsOut β σ (execImWindowExpire s) := by
  unfold execImWindowExpire
  repeat' first
    | with_reducible assumption | with_reducible apply KeepsOut.next | with_reducible apply imClose_keeps | split
    | simp only [Keeps.update] | dsimp only

theorem quePut_keeps {β : Bool} {σ s : State} (h : Keeps β σ s) (q : Nat) (v : QueueState) :
    Keeps β σ (quePut q v s) := by
  unfold quePut
  repeat' first
    | with_reducible assumption | simp only [Keeps.update] | dsimp only | split

theorem queStore_keeps {σ s : State} (h : Keeps false σ s) (q p : Nat) (l : List Word64) :
    Keeps false σ (queStore q p l s) := by
  induction l generalizing p s with
  | nil => exact h
  | cons w r ih => exact ih (memWrite_keeps h _ _) _

theorem queNotice_keeps {β : Bool} {σ s : State} (h : Keeps β σ s) (q : Nat) :
    Keeps β σ (queNotice q s) := by
  unfold queNotice
  repeat' first
    | with_reducible assumption | with_reducible apply raiseEvt_keeps | with_reducible apply Keeps.ite | split
    | dsimp only

theorem queCommitRx_keeps {σ s : State} (h : Keeps false σ s) (q : Nat) (psdu : List Byte) (record : List Word)
    (epoch : Nat) :
    Keeps false σ (queCommitRx q psdu record epoch s) := by
  unfold queCommitRx
  try lift_lets
  repeat' first
    | with_reducible assumption
    | (intro x; first
        | (have hx : Keeps false σ x := ?_); clear_value x | (have hx : Keeps false σ x.2 := ?_); clear_value x
        | (have hx : Keeps false σ x.2.2 := ?_); clear_value x | clear_value x)
    | with_reducible apply quePut_keeps | with_reducible apply fset_keeps | with_reducible apply fcount_keeps
    | with_reducible apply queStore_keeps | with_reducible apply queNotice_keeps | with_reducible apply Keeps.ite
    | split | simp only [Keeps.update] | lift_lets | subst x | dsimp only

theorem queEmptyRead_keeps {β : Bool} {σ s : State} (h : Keeps β σ s) (q : Nat) :
    Keeps β σ (queEmptyRead q s).2 := by
  unfold queEmptyRead
  try lift_lets
  repeat' first
    | with_reducible assumption
    | (intro x; first
        | (have hx : Keeps β σ x := ?_); clear_value x | (have hx : Keeps β σ x.2 := ?_); clear_value x
        | (have hx : Keeps β σ x.2.2 := ?_); clear_value x | clear_value x)
    | with_reducible apply quePut_keeps | with_reducible apply Keeps.ite | split | simp only [Keeps.update]
    | lift_lets | subst x | dsimp only

theorem queEcc_keeps {β : Bool} {σ s : State} (h : Keeps β σ s) (w : Nat) (ecc : EccSeen) :
    Keeps β σ (queEcc w ecc s) := by
  unfold queEcc
  repeat' first
    | with_reducible assumption | with_reducible apply fcount_keeps | with_reducible apply fset_keeps | split
    | simp only [Keeps.update] | dsimp only

theorem quePopped_keeps {β : Bool} {σ s : State} (h : Keeps β σ s) (q : Nat) :
    Keeps β σ (quePopped q s) := by
  unfold quePopped
  repeat' first
    | with_reducible assumption | with_reducible apply fset_keeps | with_reducible apply quePut_keeps
    | with_reducible apply Keeps.ite | split | simp only [Keeps.update] | dsimp only

theorem quePop_keeps {β : Bool} {σ s : State} (h : Keeps β σ s) (q : Nat) (ecc : EccSeen) :
    Keeps β σ (quePop q ecc s).2 := by
  unfold quePop
  try lift_lets
  repeat' first
    | with_reducible assumption
    | (intro x; first
        | (have hx : Keeps β σ x := ?_); clear_value x | (have hx : Keeps β σ x.2 := ?_); clear_value x
        | (have hx : Keeps β σ x.2.2 := ?_); clear_value x | clear_value x)
    | with_reducible apply fset_keeps | with_reducible apply queEmptyRead_keeps | with_reducible apply queEcc_keeps
    | with_reducible apply quePopped_keeps | with_reducible apply Keeps.ite | split | lift_lets | subst x
    | dsimp only

theorem queDropRx_keeps {β : Bool} {σ s : State} (h : Keeps β σ s) (q : Nat) :
    Keeps β σ (queDropRx q s) := by
  unfold queDropRx
  try lift_lets
  repeat' first
    | with_reducible assumption
    | (intro x; first
        | (have hx : Keeps β σ x := ?_); clear_value x | (have hx : Keeps β σ x.2 := ?_); clear_value x
        | (have hx : Keeps β σ x.2.2 := ?_); clear_value x | clear_value x)
    | with_reducible apply fset_keeps | with_reducible apply quePut_keeps | with_reducible apply fcount_keeps
    | split | simp only [Keeps.update] | lift_lets | subst x | dsimp only

theorem queFlush_keeps {β : Bool} {σ s : State} (h : Keeps β σ s) (q : Nat) :
    Keeps β σ (queFlush q s) := by
  unfold queFlush
  try lift_lets
  repeat' first
    | with_reducible assumption
    | (intro x; first
        | (have hx : Keeps β σ x := ?_); clear_value x | (have hx : Keeps β σ x.2 := ?_); clear_value x
        | (have hx : Keeps β σ x.2.2 := ?_); clear_value x | clear_value x)
    | with_reducible apply fset_keeps | with_reducible apply quePut_keeps | with_reducible apply Keeps.ite | split
    | simp only [Keeps.update] | lift_lets | subst x | dsimp only

theorem queWithdraw_keeps {β : Bool} {σ s : State} (h : Keeps β σ s) (q : Nat) (flag : Fld) (cnt : Fld) :
    Keeps β σ (queWithdraw q flag cnt s) := by
  unfold queWithdraw
  try lift_lets
  repeat' first
    | with_reducible assumption
    | (intro x; first
        | (have hx : Keeps β σ x := ?_); clear_value x | (have hx : Keeps β σ x.2 := ?_); clear_value x
        | (have hx : Keeps β σ x.2.2 := ?_); clear_value x | clear_value x)
    | with_reducible apply fset_keeps | with_reducible apply fcount_keeps | with_reducible apply quePut_keeps
    | simp only [Keeps.update] | lift_lets | subst x | dsimp only | split

theorem queCommitTx_keeps {β : Bool} {σ s : State} (h : Keeps β σ s) (q : Nat) (o : QOpen) :
    Keeps β σ (queCommitTx q o s) := by
  unfold queCommitTx
  try lift_lets
  repeat' first
    | with_reducible assumption
    | (intro x; first
        | (have hx : Keeps β σ x := ?_); clear_value x | (have hx : Keeps β σ x.2 := ?_); clear_value x
        | (have hx : Keeps β σ x.2.2 := ?_); clear_value x | clear_value x)
    | with_reducible apply quePut_keeps | with_reducible apply fset_keeps | simp only [Keeps.update] | lift_lets
    | subst x | dsimp only | split

theorem quePushInto_keeps {σ s : State} (h : Keeps false σ s) (q : Nat) (w : Word64) (o : QOpen) :
    Keeps false σ (quePushInto q w o s) := by
  unfold quePushInto
  try lift_lets
  repeat' first
    | with_reducible assumption
    | (intro x; first
        | (have hx : Keeps false σ x := ?_); clear_value x | (have hx : Keeps false σ x.2 := ?_); clear_value x
        | (have hx : Keeps false σ x.2.2 := ?_); clear_value x | clear_value x)
    | with_reducible apply queWithdraw_keeps | with_reducible apply queStore_keeps
    | with_reducible apply queCommitTx_keeps | with_reducible apply fset_keeps | with_reducible apply quePut_keeps
    | with_reducible apply Keeps.ite | split | simp only [Keeps.update] | lift_lets | subst x | dsimp only

theorem quePush_keeps {σ s : State} (h : Keeps false σ s) (q : Nat) (w : Word64) :
    Keeps false σ (quePush q w s) := by
  unfold quePush
  repeat' first
    | with_reducible assumption | with_reducible apply fset_keeps | with_reducible apply quePushInto_keeps
    | with_reducible apply queWithdraw_keeps | with_reducible apply Keeps.ite | split | simp only [Keeps.update]
    | dsimp only

theorem queClaim_keeps {β : Bool} {σ s : State} (h : Keeps β σ s) (q : Nat) (id : Nat) :
    Keeps β σ (queClaim q id s) := by
  unfold queClaim
  repeat' first
    | with_reducible assumption | with_reducible apply quePut_keeps | with_reducible apply Keeps.ite | split
    | simp only [Keeps.update] | dsimp only

theorem queAdvance_keeps {β : Bool} {σ s : State} (h : Keeps β σ s) (q : Nat) (l : List QPacket) :
    Keeps β σ (queAdvance q l s) := by
  induction l generalizing s with
  | nil => exact quePut_keeps h _ _
  | cons p r ih => exact Keeps.ite (ih (fset_keeps h _ _ _)) (quePut_keeps h _ _)

theorem queRelease_keeps {β : Bool} {σ s : State} (h : Keeps β σ s) (q : Nat) (id : Nat) :
    Keeps β σ (queRelease q id s) := by
  unfold queRelease
  try lift_lets
  repeat' first
    | with_reducible assumption
    | (intro x; first
        | (have hx : Keeps β σ x := ?_); clear_value x | (have hx : Keeps β σ x.2 := ?_); clear_value x
        | (have hx : Keeps β σ x.2.2 := ?_); clear_value x | clear_value x)
    | with_reducible apply fset_keeps | with_reducible apply queAdvance_keeps | with_reducible apply Keeps.ite
    | split | simp only [Keeps.update] | lift_lets | subst x | dsimp only

theorem queCmd_keeps {β : Bool} {σ s : State} (h : Keeps β σ s) (q : Nat) (key : Nat) (flush : Bool) (drop : Bool) :
    Keeps β σ (queCmd q key flush drop s) := by
  unfold queCmd
  repeat' first
    | with_reducible assumption | with_reducible apply fset_keeps | with_reducible apply queFlush_keeps
    | with_reducible apply queDropRx_keeps | with_reducible apply Keeps.ite | split | dsimp only

theorem qcFlush_keeps {β : Bool} {σ s : State} (h : Keeps β σ s) (key : Nat) (q : Nat) :
    Keeps β σ (qcFlush key q s) := by
  unfold qcFlush
  repeat' first
    | with_reducible assumption | with_reducible apply queFlush_keeps | with_reducible apply Keeps.ite | split
    | dsimp only

theorem queCarve_keeps {β : Bool} {σ s : State} (h : Keeps β σ s) (q : Nat) (ring : Word) :
    Keeps β σ (queCarve q ring s) := by
  unfold queCarve
  try lift_lets
  repeat' first
    | with_reducible assumption
    | (intro x; first
        | (have hx : Keeps β σ x := ?_); clear_value x | (have hx : Keeps β σ x.2 := ?_); clear_value x
        | (have hx : Keeps β σ x.2.2 := ?_); clear_value x | clear_value x)
    | with_reducible apply quePut_keeps | with_reducible apply wr_keeps | with_reducible apply fset_keeps
    | with_reducible apply Keeps.ite | split | lift_lets | subst x | dsimp only

theorem execQueuePop_keeps {β : Bool} {σ s : State} (h : Keeps β σ s) (i : Init) (queue : Fin 320) (ecc : EccSeen) :
    KeepsOut β σ (execQueuePop i queue ecc s) := by
  unfold execQueuePop
  try lift_lets
  repeat' first
    | with_reducible assumption | with_reducible apply KeepsOut.next
    | (intro x; first
        | (have hx : Keeps β σ x := ?_); clear_value x | (have hx : Keeps β σ x.2 := ?_); clear_value x
        | (have hx : Keeps β σ x.2.2 := ?_); clear_value x | clear_value x)
    | with_reducible apply doorAccess_keeps | with_reducible apply quePop_keeps | with_reducible apply respond_keeps
    | (intro u; intros) | lift_lets | subst x | dsimp only | split

theorem execQueuePush_keeps {σ s : State} (h : Keeps false σ s) (i : Init) (queue : Fin 320) (data : Word64) :
    KeepsOut false σ (execQueuePush i queue data s) := by
  unfold execQueuePush
  repeat' first
    | with_reducible assumption | with_reducible apply KeepsOut.next | with_reducible apply doorAccess_keeps
    | with_reducible apply acknowledge_keeps | with_reducible apply quePush_keeps | (intro u; intros) | dsimp only
    | split

theorem execQueueDrop_keeps {β : Bool} {σ s : State} (h : Keeps β σ s) (i : Init) (queue : Fin 320) (key : BitVec
    16) :
    KeepsOut β σ (execQueueDrop i queue key s) := by
  unfold execQueueDrop
  repeat' first
    | with_reducible assumption | with_reducible apply KeepsOut.next | with_reducible apply doorStore_keeps
    | with_reducible apply queCmd_keeps | (intro u; intros) | dsimp only | split

theorem execQueueFlush_keeps {β : Bool} {σ s : State} (h : Keeps β σ s) (i : Init) (queue : Fin 320) (key : BitVec
    16) :
    KeepsOut β σ (execQueueFlush i queue key s) := by
  unfold execQueueFlush
  repeat' first
    | with_reducible assumption | with_reducible apply KeepsOut.next | with_reducible apply doorStore_keeps
    | with_reducible apply queCmd_keeps | (intro u; intros) | dsimp only | split

theorem execQcFlush_keeps {β : Bool} {σ s : State} (h : Keeps β σ s) (i : Init) (key : BitVec 16) (queue : BitVec 9) :
    KeepsOut β σ (execQcFlush i key queue s) := by
  unfold execQcFlush
  repeat' first
    | with_reducible assumption | with_reducible apply KeepsOut.next | with_reducible apply doorStore_keeps
    | with_reducible apply qcFlush_keeps | (intro u; intros) | dsimp only | split

theorem linkNote_keeps {β : Bool} {σ s : State} (h : Keeps β σ s) (f : Fld) :
    Keeps β σ (linkNote f s) := by
  unfold linkNote
  repeat' first
    | with_reducible assumption | with_reducible apply note_keeps | dsimp only | split

theorem linkErr_keeps {β : Bool} {σ s : State} (h : Keeps β σ s) (f : Fld) :
    Keeps β σ (linkErr f s) := by
  unfold linkErr
  repeat' first
    | with_reducible assumption | with_reducible apply note_keeps | dsimp only | split

theorem linkPut_keeps {β : Bool} {σ s : State} (h : Keeps β σ s) (v : LinkState) :
    Keeps β σ (linkPut v s) := by
  unfold linkPut
  repeat' first
    | with_reducible assumption | simp only [Keeps.update] | dsimp only | split

theorem jobPut_keeps {β : Bool} {σ s : State} (h : Keeps β σ s) (r : Nat) (k : Nat) (j : Option Job) :
    Keeps β σ (jobPut r k j s) := by
  unfold jobPut
  repeat' first
    | with_reducible assumption | with_reducible apply linkPut_keeps | simp only [Keeps.update] | dsimp only | split

theorem armedShow_keeps {β : Bool} {σ s : State} (h : Keeps β σ s) (fe : Fe) :
    Keeps β σ (armedShow fe s) := by
  unfold armedShow
  repeat' first
    | with_reducible assumption | with_reducible apply fset_keeps | dsimp only | split

theorem dutyPut_keeps {β : Bool} {σ s : State} (h : Keeps β σ s) (g : Nat) (l : List Nat) :
    Keeps β σ (dutyPut g l s) := by
  unfold dutyPut
  repeat' first
    | with_reducible assumption | with_reducible apply linkPut_keeps | simp only [Keeps.update] | dsimp only | split

theorem dutyChange_keeps {β : Bool} {σ s : State} (h : Keeps β σ s) (g : Nat) (f : State → State) (hf : ∀ u, Keeps β
    σ u → Keeps β σ (f u)) :
    Keeps β σ (dutyChange g f s) := by
  unfold dutyChange
  try lift_lets
  repeat' first
    | with_reducible assumption
    | (intro x; first
        | (have hx : Keeps β σ x := ?_); clear_value x | (have hx : Keeps β σ x.2 := ?_); clear_value x
        | (have hx : Keeps β σ x.2.2 := ?_); clear_value x | clear_value x)
    | apply hf | with_reducible apply linkNote_keeps | with_reducible apply Keeps.ite | split | lift_lets | subst x
    | dsimp only

theorem dutyAdd_keeps {β : Bool} {σ s : State} (h : Keeps β σ s) (g : Nat) (us : Nat) :
    Keeps β σ (dutyAdd g us s) := by
  unfold dutyAdd
  repeat' first
    | with_reducible assumption | with_reducible apply dutyPut_keeps | split | simp only [Keeps.update] | dsimp only

theorem dutyCharge_keeps {β : Bool} {σ s : State} (h : Keeps β σ s) (g : Nat) (us : Nat) :
    Keeps β σ (dutyCharge g us s) := by
  unfold dutyCharge
  repeat' first
    | with_reducible assumption | with_reducible apply dutyChange_keeps | with_reducible apply dutyAdd_keeps
    | (intro u; intros) | dsimp only | split

theorem ackPut_keeps {β : Bool} {σ s : State} (h : Keeps β σ s) (fe : Fe) (v : Option AckPlan) :
    Keeps β σ (ackPut fe v s) := by
  unfold ackPut
  repeat' first
    | with_reducible assumption | with_reducible apply linkPut_keeps | split | simp only [Keeps.update] | dsimp only

theorem airPut_keeps {β : Bool} {σ s : State} (h : Keeps β σ s) (fe : Fe) (v : Option AirFrame) :
    Keeps β σ (airPut fe v s) := by
  unfold airPut
  repeat' first
    | with_reducible assumption | with_reducible apply linkPut_keeps | split | simp only [Keeps.update] | dsimp only

theorem jobDone_keeps {β : Bool} {σ s : State} (h : Keeps β σ s) (r : Nat) (k : Nat) (code : Nat) :
    Keeps β σ (jobDone r k code s) := by
  unfold jobDone
  try lift_lets
  repeat' first
    | with_reducible assumption
    | (intro x; first
        | (have hx : Keeps β σ x := ?_); clear_value x | (have hx : Keeps β σ x.2 := ?_); clear_value x
        | (have hx : Keeps β σ x.2.2 := ?_); clear_value x | clear_value x)
    | with_reducible apply jobPut_keeps | with_reducible apply fset_keeps | with_reducible apply queRelease_keeps
    | with_reducible apply linkNote_keeps | with_reducible apply queNotice_keeps
    | with_reducible apply armedShow_keeps | with_reducible apply Keeps.ite | split | simp only [Keeps.update]
    | lift_lets | subst x | dsimp only

theorem jobsEnd_keeps {β : Bool} {σ s : State} (h : Keeps β σ s) (p : Nat → Nat → Job → Bool) (code : Nat) :
    Keeps β σ (jobsEnd p code s) := by
  unfold jobsEnd
  repeat' first
    | with_reducible assumption | with_reducible apply jobDone_keeps | with_reducible apply Keeps.ite
    | (with_reducible apply Keeps.foldl; intro u y hu) | split | dsimp only

theorem airAbort_keeps {β : Bool} {σ s : State} (h : Keeps β σ s) (fe : Fe) (code : Nat) :
    Keeps β σ (airAbort fe code s) := by
  unfold airAbort
  repeat' first
    | with_reducible assumption | with_reducible apply fePut_keeps | with_reducible apply airPut_keeps | split
    | simp only [Keeps.update] | dsimp only

theorem jobsRoomReset_keeps {β : Bool} {σ s : State} (h : Keeps β σ s) (r : Nat) :
    Keeps β σ (jobsRoomReset r s) := by
  unfold jobsRoomReset
  try lift_lets
  repeat' first
    | with_reducible assumption
    | (intro x; first
        | (have hx : Keeps β σ x := ?_); clear_value x | (have hx : Keeps β σ x.2 := ?_); clear_value x
        | (have hx : Keeps β σ x.2.2 := ?_); clear_value x
        | (have hf : ∀ u, Keeps β σ u → Keeps β σ (x u) := ?_); clear_value x
        | (have hf : ∀ a u, Keeps β σ u → Keeps β σ (x a u) := ?_); clear_value x
        | (have hf : ∀ a b u, Keeps β σ u → Keeps β σ (x a b u) := ?_); clear_value x | clear_value x)
    | with_reducible apply hf | (intro u; intros) | with_reducible apply airAbort_keeps
    | with_reducible apply jobPut_keeps | with_reducible apply armedShow_keeps
    | with_reducible apply resetRegs_keeps | with_reducible apply Keeps.ite
    | (with_reducible apply Keeps.foldl; intro u y hu) | split | simp only [Keeps.update] | lift_lets | subst x
    | dsimp only

theorem queueRoomReset_keeps {β : Bool} {σ s : State} (h : Keeps β σ s) (r : Nat) :
    Keeps β σ (queueRoomReset r s) := by
  unfold queueRoomReset
  repeat' first
    | with_reducible assumption | with_reducible apply queCarve_keeps | with_reducible apply Keeps.ite | split
    | dsimp only

theorem resetRoom_keeps {σ s : State} (h : Keeps false σ s) (r : Nat) :
    Keeps false σ (resetRoom r s) := by
  unfold resetRoom
  try lift_lets
  repeat' first
    | with_reducible assumption
    | (intro x; first
        | (have hx : Keeps false σ x := ?_); clear_value x | (have hx : Keeps false σ x.2 := ?_); clear_value x
        | (have hx : Keeps false σ x.2.2 := ?_); clear_value x | clear_value x)
    | with_reducible apply fset_keeps | with_reducible apply destSet_keeps
    | with_reducible apply queueRoomReset_keeps | with_reducible apply jobsRoomReset_keeps
    | with_reducible apply fpRoomReset_keeps | with_reducible apply phRoomReset_keeps
    | with_reducible apply cipRoomReset_keeps | with_reducible apply wr_keeps | simp only [Keeps.update] | lift_lets
    | subst x | dsimp only | split

theorem roomReset_keeps {σ s : State} (h : Keeps false σ s) (r : Nat) :
    Keeps false σ (roomReset r s).2 := by
  unfold roomReset
  repeat' first
    | with_reducible assumption | with_reducible apply resetRoom_keeps | with_reducible apply Keeps.ite | split
    | dsimp only

theorem roomRemove_keeps {σ s : State} (h : Keeps false σ s) (r : Nat) :
    Keeps false σ (roomRemove r s).2 := by
  unfold roomRemove
  repeat' first
    | with_reducible assumption | with_reducible apply fset_keeps | with_reducible apply ledgerSet_keeps
    | with_reducible apply fpRoomReset_keeps | with_reducible apply measClear_keeps
    | with_reducible apply cipRoomReset_keeps | with_reducible apply Keeps.ite | split | dsimp only

theorem roomCommand_keeps {σ s : State} (h : Keeps false σ s) (op : Nat) (core : Nat) (room : Nat) :
    Keeps false σ (roomCommand op core room s).2 := by
  unfold roomCommand
  repeat' first
    | with_reducible assumption | with_reducible apply roomCommit_keeps | with_reducible apply roomSuspend_keeps
    | with_reducible apply roomResume_keeps | with_reducible apply roomReset_keeps
    | with_reducible apply roomSwitch_keeps | with_reducible apply roomRemove_keeps
    | with_reducible apply coreGate_keeps | with_reducible apply parkCore_keeps | split | simp only [Keeps.update]
    | dsimp only

theorem ledgWaited_keeps {σ s : State} (h : Keeps false σ s) :
    Keeps false σ (ledgWaited s) := by
  unfold ledgWaited
  repeat' first
    | with_reducible assumption | with_reducible apply ledgRun_keeps | with_reducible apply roomCommand_keeps
    | with_reducible apply fset_keeps | (intro u; intros) | split | simp only [Keeps.update] | dsimp only

theorem execLedgReset_keeps {σ s : State} (h : Keeps false σ s) (i : Init) (key : BitVec 16) (room : BitVec 6) :
    KeepsOut false σ (execLedgReset i key room s) := by
  unfold execLedgReset
  repeat' first
    | with_reducible assumption | with_reducible apply KeepsOut.next | with_reducible apply doorStore_keeps
    | with_reducible apply ledgCmd_keeps | with_reducible apply roomReset_keeps | (intro u; intros) | dsimp only
    | split

theorem execLedgRemove_keeps {σ s : State} (h : Keeps false σ s) (i : Init) (key : BitVec 16) (room : BitVec 6) :
    KeepsOut false σ (execLedgRemove i key room s) := by
  unfold execLedgRemove
  repeat' first
    | with_reducible assumption | with_reducible apply KeepsOut.next | with_reducible apply doorStore_keeps
    | with_reducible apply ledgCmd_keeps | with_reducible apply roomRemove_keeps | (intro u; intros) | dsimp only
    | split

theorem measFrom_keeps {β : Bool} {σ s : State} (h : Keeps β σ s) (r : Nat) (h : List Byte) :
    Keeps β σ (measFrom r h s) := by
  unfold measFrom
  repeat' first
    | with_reducible assumption | with_reducible apply measSet_keeps | dsimp only | split

theorem pwrErr_keeps {β : Bool} {σ s : State} (h : Keeps β σ s) (f : Fld) :
    Keeps β σ (pwrErr f s) := by
  unfold pwrErr
  repeat' first
    | with_reducible assumption | with_reducible apply note_keeps | dsimp only | split

theorem pwrNote_keeps {β : Bool} {σ s : State} (h : Keeps β σ s) (f : Fld) :
    Keeps β σ (pwrNote f s) := by
  unfold pwrNote
  repeat' first
    | with_reducible assumption | with_reducible apply note_keeps | dsimp only | split

theorem pmbWrite_keeps {β : Bool} {σ s : State} (h : Keeps β σ s) (cmd : Nat) (data : Nat) :
    Keeps β σ (pmbWrite cmd data s) := by
  unfold pmbWrite
  repeat' first
    | with_reducible assumption | simp only [Keeps.update] | dsimp only | split

theorem vRequest_keeps {β : Bool} {σ s : State} (h : Keeps β σ s) (code : Nat) :
    Keeps β σ (vRequest code s) := by
  unfold vRequest
  repeat' first
    | with_reducible assumption | with_reducible apply flcWs_keeps | with_reducible apply pmbWrite_keeps
    | with_reducible apply fset_keeps | with_reducible apply Keeps.ite | split | dsimp only

theorem vManage_keeps {β : Bool} {σ s : State} (h : Keeps β σ s) :
    Keeps β σ (vManage s) := by
  unfold vManage
  repeat' first
    | with_reducible assumption | with_reducible apply vRequest_keeps | with_reducible apply Keeps.ite | split
    | simp only [Keeps.update] | dsimp only

theorem slackLow_keeps {β : Bool} {σ s : State} (h : Keeps β σ s) :
    Keeps β σ (slackLow s) := by
  unfold slackLow
  try lift_lets
  repeat' first
    | with_reducible assumption
    | (intro x; first
        | (have hx : Keeps β σ x := ?_); clear_value x | (have hx : Keeps β σ x.2 := ?_); clear_value x
        | (have hx : Keeps β σ x.2.2 := ?_); clear_value x | clear_value x)
    | with_reducible apply raiseEvt_keeps | with_reducible apply fset_keeps | with_reducible apply vRequest_keeps
    | with_reducible apply Keeps.ite | split | lift_lets | subst x | dsimp only

theorem vAcknowledge_keeps {β : Bool} {σ s : State} (h : Keeps β σ s) :
    Keeps β σ (vAcknowledge s) := by
  unfold vAcknowledge
  try lift_lets
  repeat' first
    | with_reducible assumption
    | (intro x; first
        | (have hx : Keeps β σ x := ?_); clear_value x | (have hx : Keeps β σ x.2 := ?_); clear_value x
        | (have hx : Keeps β σ x.2.2 := ?_); clear_value x | clear_value x)
    | with_reducible apply pwrNote_keeps | with_reducible apply flcWs_keeps | with_reducible apply fset_keeps
    | lift_lets | subst x | dsimp only | split

theorem vFailed_keeps {β : Bool} {σ s : State} (h : Keeps β σ s) :
    Keeps β σ (vFailed s) := by
  unfold vFailed
  repeat' first
    | with_reducible assumption | with_reducible apply pwrErr_keeps | with_reducible apply fcount_keeps
    | with_reducible apply fset_keeps | simp only [Keeps.update] | dsimp only | split

theorem vfailCleared_keeps {β : Bool} {σ s : State} (h : Keeps β σ s) :
    Keeps β σ (vfailCleared s) := by
  unfold vfailCleared
  repeat' first
    | with_reducible assumption | with_reducible apply vManage_keeps | with_reducible apply flcWs_keeps
    | with_reducible apply fset_keeps | dsimp only | split

theorem pwrVcfgWrite_keeps {β : Bool} {σ s : State} (h : Keeps β σ s) (data : Word) :
    Keeps β σ (pwrVcfgWrite data s) := by
  unfold pwrVcfgWrite
  repeat' first
    | with_reducible assumption | with_reducible apply pwrErr_keeps | with_reducible apply vManage_keeps
    | with_reducible apply wr_keeps | with_reducible apply Keeps.ite | split | dsimp only

theorem chzPut_keeps {β : Bool} {σ s : State} (h : Keeps β σ s) (fe : Fe) (v : ChzState) :
    Keeps β σ (chzPut fe v s) := by
  unfold chzPut
  repeat' first
    | with_reducible assumption | split | simp only [Keeps.update] | dsimp only

theorem setGain_keeps {β : Bool} {σ s : State} (h : Keeps β σ s) (fe : Fe) (code : Nat) (period : Nat) (cause : Nat) :
    Keeps β σ (setGain fe code period cause s) := by
  unfold setGain
  try lift_lets
  repeat' first
    | with_reducible assumption
    | (intro x; first
        | (have hx : Keeps β σ x := ?_); clear_value x | (have hx : Keeps β σ x.2 := ?_); clear_value x
        | (have hx : Keeps β σ x.2.2 := ?_); clear_value x | clear_value x)
    | with_reducible apply wr48_keeps | with_reducible apply fset_keeps | split | simp only [Keeps.update]
    | lift_lets | subst x | dsimp only

theorem schedGain_keeps {β : Bool} {σ s : State} (h : Keeps β σ s) (fe : Fe) (g : GainChange) :
    Keeps β σ (schedGain fe g s) := by
  unfold schedGain
  repeat' first
    | with_reducible assumption | with_reducible apply fset_keeps | with_reducible apply chzPut_keeps
    | simp only [Keeps.update] | dsimp only | split

theorem cancelGain_keeps {β : Bool} {σ s : State} (h : Keeps β σ s) (fe : Fe) :
    Keeps β σ (cancelGain fe s) := by
  unfold cancelGain
  repeat' first
    | with_reducible assumption | with_reducible apply fset_keeps | with_reducible apply chzPut_keeps
    | simp only [Keeps.update] | dsimp only | split

theorem gainEvaluate_keeps {β : Bool} {σ s : State} (h : Keeps β σ s) (fe : Fe) (m : Nat) (peakQ : BitVec 16) (meanQ
    : BitVec 16) :
    Keeps β σ (gainEvaluate fe m peakQ meanQ s) := by
  unfold gainEvaluate
  try lift_lets
  repeat' first
    | with_reducible assumption
    | (intro x; first
        | (have hx : Keeps β σ x := ?_); clear_value x | (have hx : Keeps β σ x.2 := ?_); clear_value x
        | (have hx : Keeps β σ x.2.2 := ?_); clear_value x | clear_value x)
    | with_reducible apply fset_keeps | with_reducible apply chzPut_keeps | with_reducible apply fcount_keeps
    | with_reducible apply schedGain_keeps | with_reducible apply Keeps.ite | split | simp only [Keeps.update]
    | lift_lets | subst x | dsimp only

theorem gainTake_keeps {β : Bool} {σ s : State} (h : Keeps β σ s) (fe : Fe) :
    Keeps β σ (gainTake fe s) := by
  unfold gainTake
  repeat' first
    | with_reducible assumption | with_reducible apply cancelGain_keeps | with_reducible apply setGain_keeps | split
    | simp only [Keeps.update] | dsimp only

theorem chzCtrlWrite_keeps {β : Bool} {σ s : State} (h : Keeps β σ s) (fe : Fe) (data : Word) (period : Nat) :
    Keeps β σ (chzCtrlWrite fe data period s) := by
  unfold chzCtrlWrite
  try lift_lets
  repeat' first
    | with_reducible assumption
    | (intro x; first
        | (have hx : Keeps β σ x := ?_); clear_value x | (have hx : Keeps β σ x.2 := ?_); clear_value x
        | (have hx : Keeps β σ x.2.2 := ?_); clear_value x | clear_value x)
    | with_reducible apply wr_keeps | with_reducible apply cancelGain_keeps | with_reducible apply schedGain_keeps
    | with_reducible apply chzPut_keeps | with_reducible apply Keeps.ite | split | simp only [Keeps.update]
    | lift_lets | subst x | dsimp only

theorem episodeOpen_keeps {β : Bool} {σ s : State} (h : Keeps β σ s) (fe : Fe) (start : Nat) :
    Keeps β σ (episodeOpen fe start s) := by
  unfold episodeOpen
  try lift_lets
  repeat' first
    | with_reducible assumption
    | (intro x; first
        | (have hx : Keeps β σ x := ?_); clear_value x | (have hx : Keeps β σ x.2 := ?_); clear_value x
        | (have hx : Keeps β σ x.2.2 := ?_); clear_value x | clear_value x)
    | with_reducible apply wr48_keeps | with_reducible apply fset_keeps | with_reducible apply fcount_keeps
    | with_reducible apply chzPut_keeps | with_reducible apply Keeps.ite | split | simp only [Keeps.update]
    | lift_lets | subst x | dsimp only

theorem overloadDetect_keeps {β : Bool} {σ s : State} (h : Keeps β σ s) (fe : Fe) (start : Nat) :
    Keeps β σ (overloadDetect fe start s) := by
  unfold overloadDetect
  try lift_lets
  repeat' first
    | with_reducible assumption
    | (intro x; first
        | (have hx : Keeps β σ x := ?_); clear_value x | (have hx : Keeps β σ x.2 := ?_); clear_value x
        | (have hx : Keeps β σ x.2.2 := ?_); clear_value x | clear_value x)
    | with_reducible apply cancelGain_keeps | with_reducible apply episodeOpen_keeps
    | with_reducible apply fcount_keeps | with_reducible apply chzPut_keeps | with_reducible apply raiseEvt_keeps
    | with_reducible apply Keeps.ite | split | simp only [Keeps.update] | lift_lets | subst x | dsimp only

theorem overloadDrop_keeps {β : Bool} {σ s : State} (h : Keeps β σ s) (fe : Fe) (period : Nat) :
    Keeps β σ (overloadDrop fe period s) := by
  unfold overloadDrop
  repeat' first
    | with_reducible assumption | with_reducible apply raiseEvt_keeps | with_reducible apply setGain_keeps
    | with_reducible apply chzPut_keeps | split | simp only [Keeps.update] | dsimp only

theorem episodeEnd_keeps {β : Bool} {σ s : State} (h : Keeps β σ s) (fe : Fe) (e : Nat) :
    Keeps β σ (episodeEnd fe e s) := by
  unfold episodeEnd
  try lift_lets
  repeat' first
    | with_reducible assumption
    | (intro x; first
        | (have hx : Keeps β σ x := ?_); clear_value x | (have hx : Keeps β σ x.2 := ?_); clear_value x
        | (have hx : Keeps β σ x.2.2 := ?_); clear_value x | clear_value x)
    | with_reducible apply wr48_keeps | with_reducible apply fset_keeps | with_reducible apply schedGain_keeps
    | with_reducible apply Keeps.ite | split | lift_lets | subst x | dsimp only

theorem holdEnd_keeps {β : Bool} {σ s : State} (h : Keeps β σ s) (fe : Fe) (period : Nat) :
    Keeps β σ (holdEnd fe period s) := by
  unfold holdEnd
  try lift_lets
  repeat' first
    | with_reducible assumption
    | (intro x; first
        | (have hx : Keeps β σ x := ?_); clear_value x | (have hx : Keeps β σ x.2 := ?_); clear_value x
        | (have hx : Keeps β σ x.2.2 := ?_); clear_value x | clear_value x)
    | with_reducible apply fset_keeps | with_reducible apply schedGain_keeps | with_reducible apply Keeps.ite
    | split | lift_lets | subst x | dsimp only

theorem chzStart_keeps {β : Bool} {σ s : State} (h : Keeps β σ s) (fe : Fe) :
    Keeps β σ (chzStart fe s) := by
  unfold chzStart
  try lift_lets
  repeat' first
    | with_reducible assumption
    | (intro x; first
        | (have hx : Keeps β σ x := ?_); clear_value x | (have hx : Keeps β σ x.2 := ?_); clear_value x
        | (have hx : Keeps β σ x.2.2 := ?_); clear_value x | clear_value x)
    | with_reducible apply setGain_keeps | with_reducible apply chzPut_keeps | with_reducible apply Keeps.ite
    | split | lift_lets | subst x | dsimp only

theorem chzEnd_keeps {β : Bool} {σ s : State} (h : Keeps β σ s) (fe : Fe) :
    Keeps β σ (chzEnd fe s) := by
  unfold chzEnd
  try lift_lets
  repeat' first
    | with_reducible assumption
    | (intro x; first
        | (have hx : Keeps β σ x := ?_); clear_value x | (have hx : Keeps β σ x.2 := ?_); clear_value x
        | (have hx : Keeps β σ x.2.2 := ?_); clear_value x | clear_value x)
    | with_reducible apply fset_keeps | with_reducible apply chzPut_keeps | with_reducible apply cancelGain_keeps
    | with_reducible apply Keeps.ite | split | lift_lets | subst x | dsimp only

theorem midframeAdd_keeps {β : Bool} {σ s : State} (h : Keeps β σ s) (fe : Fe) :
    Keeps β σ (midframeAdd fe s) := by
  unfold midframeAdd
  repeat' first
    | with_reducible assumption | with_reducible apply fcount_keeps | dsimp only | split

theorem midframeSub_keeps {β : Bool} {σ s : State} (h : Keeps β σ s) (fe : Fe) :
    Keeps β σ (midframeSub fe s) := by
  unfold midframeSub
  repeat' first
    | with_reducible assumption | with_reducible apply fset_keeps | dsimp only | split

theorem execGainEvaluation_keeps {β : Bool} {σ s : State} (h : Keeps β σ s) (fe : Fe) (m : BitVec 44) (peakQ :
    BitVec 16) (meanQ : BitVec 16) :
    KeepsOut β σ (execGainEvaluation fe m peakQ meanQ s) := by
  unfold execGainEvaluation
  repeat' first
    | with_reducible assumption | with_reducible apply KeepsOut.next | with_reducible apply gainEvaluate_keeps
    | dsimp only | split

theorem execGainChange_keeps {β : Bool} {σ s : State} (h : Keeps β σ s) (fe : Fe) :
    KeepsOut β σ (execGainChange fe s) := by
  unfold execGainChange
  repeat' first
    | with_reducible assumption | with_reducible apply KeepsOut.next | with_reducible apply gainTake_keeps
    | dsimp only | split

theorem execOverloadDrop_keeps {β : Bool} {σ s : State} (h : Keeps β σ s) (fe : Fe) (period : BitVec 48) :
    KeepsOut β σ (execOverloadDrop fe period s) := by
  unfold execOverloadDrop
  repeat' first
    | with_reducible assumption | with_reducible apply KeepsOut.next | with_reducible apply overloadDrop_keeps
    | dsimp only | split

theorem execOverloadEpisodeEnd_keeps {β : Bool} {σ s : State} (h : Keeps β σ s) (fe : Fe) (period : BitVec 48) :
    KeepsOut β σ (execOverloadEpisodeEnd fe period s) := by
  unfold execOverloadEpisodeEnd
  repeat' first
    | with_reducible assumption | with_reducible apply KeepsOut.next | with_reducible apply episodeEnd_keeps
    | dsimp only | split

theorem execOvlHoldEnd_keeps {β : Bool} {σ s : State} (h : Keeps β σ s) (fe : Fe) (period : BitVec 48) :
    KeepsOut β σ (execOvlHoldEnd fe period s) := by
  unfold execOvlHoldEnd
  repeat' first
    | with_reducible assumption | with_reducible apply KeepsOut.next | with_reducible apply holdEnd_keeps
    | dsimp only | split

theorem lanePut_keeps {β : Bool} {σ s : State} (h : Keeps β σ s) (n : Nat) (v : LaneState) :
    Keeps β σ (lanePut n v s) := by
  unfold lanePut
  repeat' first
    | with_reducible assumption | simp only [Keeps.update] | dsimp only | split

theorem laneSetState_keeps {β : Bool} {σ s : State} (h : Keeps β σ s) (n : Nat) (v : Nat) :
    Keeps β σ (laneSetState n v s) := by
  unfold laneSetState
  repeat' first
    | with_reducible assumption | with_reducible apply fset_keeps | dsimp only | split

theorem laneFlag_keeps {β : Bool} {σ s : State} (h : Keeps β σ s) (n : Nat) (f : Fld) :
    Keeps β σ (laneFlag n f s) := by
  unfold laneFlag
  repeat' first
    | with_reducible assumption | with_reducible apply note_keeps | dsimp only | split

theorem fdxPut_keeps {β : Bool} {σ s : State} (h : Keeps β σ s) (fe : Fe) (v : FdxState) :
    Keeps β σ (fdxPut fe v s) := by
  unfold fdxPut
  repeat' first
    | with_reducible assumption | split | simp only [Keeps.update] | dsimp only

theorem laneMark_keeps {β : Bool} {σ s : State} (h : Keeps β σ s) (n : Nat) (m : Nat) :
    Keeps β σ (laneMark n m s) := by
  unfold laneMark
  try lift_lets
  repeat' first
    | with_reducible assumption
    | (intro x; first
        | (have hx : Keeps β σ x := ?_); clear_value x | (have hx : Keeps β σ x.2 := ?_); clear_value x
        | (have hx : Keeps β σ x.2.2 := ?_); clear_value x | clear_value x)
    | with_reducible apply lanePut_keeps | split | simp only [Keeps.update] | lift_lets | subst x | dsimp only

theorem laneRelease_keeps {β : Bool} {σ s : State} (h : Keeps β σ s) (n : Nat) :
    Keeps β σ (laneRelease n s) := by
  unfold laneRelease
  try lift_lets
  repeat' first
    | with_reducible assumption
    | (intro x; first
        | (have hx : Keeps β σ x := ?_); clear_value x | (have hx : Keeps β σ x.2 := ?_); clear_value x
        | (have hx : Keeps β σ x.2.2 := ?_); clear_value x | clear_value x)
    | with_reducible apply lanePut_keeps | with_reducible apply fset_keeps | with_reducible apply midframeSub_keeps
    | with_reducible apply Keeps.ite | split | simp only [Keeps.update] | lift_lets | subst x | dsimp only

theorem laneLast_keeps {β : Bool} {σ s : State} (h : Keeps β σ s) (n : Nat) (c : ClosedFrame) (f : LaneFrame) (deliv
    : Bool) :
    Keeps β σ (laneLast n c f deliv s) := by
  unfold laneLast
  try lift_lets
  repeat' first
    | with_reducible assumption
    | (intro x; first
        | (have hx : Keeps β σ x := ?_); clear_value x | (have hx : Keeps β σ x.2 := ?_); clear_value x
        | (have hx : Keeps β σ x.2.2 := ?_); clear_value x | clear_value x)
    | with_reducible apply fset_keeps | with_reducible apply fsetS_keeps | with_reducible apply wr_keeps
    | with_reducible apply drawFree_keeps | with_reducible apply Keeps.ite | split | simp only [Keeps.update]
    | lift_lets | subst x | dsimp only

theorem laneCount_keeps {β : Bool} {σ s : State} (h : Keeps β σ s) (n : Nat) (code : Nat) :
    Keeps β σ (laneCount n code s) := by
  unfold laneCount
  repeat' first
    | with_reducible assumption | with_reducible apply fcount_keeps | with_reducible apply Keeps.ite | split
    | dsimp only

theorem laneHand_keeps {β : Bool} {σ s : State} (h : Keeps β σ s) (c : ClosedFrame) :
    Keeps β σ (laneHand c s) := by
  unfold laneHand
  repeat' first
    | with_reducible assumption | with_reducible apply fcount_keeps | with_reducible apply Keeps.ite | split
    | simp only [Keeps.update] | dsimp only

theorem laneDeliver_keeps {β : Bool} {σ s : State} (h : Keeps β σ s) (c : ClosedFrame) :
    Keeps β σ (laneDeliver c s) := by
  unfold laneDeliver
  repeat' first
    | with_reducible assumption | with_reducible apply lanePut_keeps | with_reducible apply laneHand_keeps
    | with_reducible apply Keeps.ite | split | simp only [Keeps.update] | dsimp only

theorem laneClose_keeps {β : Bool} {σ s : State} (h : Keeps β σ s) (n : Nat) (code : Nat) (e : Nat) (q : Quality) :
    Keeps β σ (laneClose n code e q s) := by
  unfold laneClose
  try lift_lets
  repeat' first
    | with_reducible assumption
    | (intro x; first
        | (have hx : Keeps β σ x := ?_); clear_value x | (have hx : Keeps β σ x.2 := ?_); clear_value x
        | (have hx : Keeps β σ x.2.2 := ?_); clear_value x | clear_value x)
    | with_reducible apply laneCount_keeps | with_reducible apply laneLast_keeps
    | with_reducible apply lanePut_keeps | with_reducible apply laneRelease_keeps
    | with_reducible apply laneDeliver_keeps | with_reducible apply Keeps.ite | split | simp only [Keeps.update]
    | lift_lets | subst x | (refine Keeps.of_pair (by assumption) ?_) | dsimp only

theorem laneCut_keeps {β : Bool} {σ s : State} (h : Keeps β σ s) (n : Nat) (code : Nat) (e : Nat) :
    Keeps β σ (laneCut n code e s) := by
  unfold laneCut
  repeat' first
    | with_reducible assumption | with_reducible apply laneClose_keeps | with_reducible apply Keeps.ite | split
    | dsimp only

theorem moveForget_keeps {β : Bool} {σ s : State} (h : Keeps β σ s) (n : Nat) :
    Keeps β σ (moveForget n s) := by
  unfold moveForget
  repeat' first
    | with_reducible assumption | with_reducible apply fset_keeps | with_reducible apply lanePut_keeps
    | simp only [Keeps.update] | dsimp only | split

theorem moveCancel_keeps {β : Bool} {σ s : State} (h : Keeps β σ s) (n : Nat) :
    Keeps β σ (moveCancel n s) := by
  unfold moveCancel
  try lift_lets
  repeat' first
    | with_reducible assumption
    | (intro x; first
        | (have hx : Keeps β σ x := ?_); clear_value x | (have hx : Keeps β σ x.2 := ?_); clear_value x
        | (have hx : Keeps β σ x.2.2 := ?_); clear_value x | clear_value x)
    | with_reducible apply laneFlag_keeps | with_reducible apply moveForget_keeps
    | with_reducible apply laneSetState_keeps | with_reducible apply Keeps.ite | split | simp only [Keeps.update]
    | lift_lets | subst x | dsimp only

theorem moveSettle_keeps {β : Bool} {σ s : State} (h : Keeps β σ s) (dst : Nat) :
    Keeps β σ (moveSettle dst s) := by
  unfold moveSettle
  try lift_lets
  repeat' first
    | with_reducible assumption
    | (intro x; first
        | (have hx : Keeps β σ x := ?_); clear_value x | (have hx : Keeps β σ x.2 := ?_); clear_value x
        | (have hx : Keeps β σ x.2.2 := ?_); clear_value x | clear_value x)
    | with_reducible apply laneHand_keeps | with_reducible apply lanePut_keeps
    | (with_reducible apply Keeps.foldl; intro u y hu) | simp only [Keeps.update] | lift_lets | subst x | dsimp only
    | split

theorem drainRelease_keeps {β : Bool} {σ s : State} (h : Keeps β σ s) (n : Nat) :
    Keeps β σ (drainRelease n s) := by
  unfold drainRelease
  try lift_lets
  repeat' first
    | with_reducible assumption
    | (intro x; first
        | (have hx : Keeps β σ x := ?_); clear_value x | (have hx : Keeps β σ x.2 := ?_); clear_value x
        | (have hx : Keeps β σ x.2.2 := ?_); clear_value x | clear_value x)
    | with_reducible apply laneSetState_keeps | with_reducible apply moveSettle_keeps
    | with_reducible apply laneFlag_keeps | with_reducible apply moveForget_keeps | with_reducible apply Keeps.ite
    | split | simp only [Keeps.update] | lift_lets | subst x | dsimp only

theorem tuneTake_keeps {β : Bool} {σ s : State} (h : Keeps β σ s) (n : Nat) (t : LaneTune) :
    Keeps β σ (tuneTake n t s) := by
  unfold tuneTake
  try lift_lets
  repeat' first
    | with_reducible assumption
    | (intro x; first
        | (have hx : Keeps β σ x := ?_); clear_value x | (have hx : Keeps β σ x.2 := ?_); clear_value x
        | (have hx : Keeps β σ x.2.2 := ?_); clear_value x | clear_value x)
    | with_reducible apply lanePut_keeps | with_reducible apply laneFlag_keeps | with_reducible apply fset_keeps
    | with_reducible apply fsetS_keeps | simp only [Keeps.update] | lift_lets | subst x | dsimp only | split

theorem tuneNow_keeps {β : Bool} {σ s : State} (h : Keeps β σ s) (n : Nat) :
    Keeps β σ (tuneNow n s) := by
  unfold tuneNow
  repeat' first
    | with_reducible assumption | with_reducible apply tuneTake_keeps | split | simp only [Keeps.update]
    | dsimp only

theorem laneResidenceEnd_keeps {β : Bool} {σ s : State} (h : Keeps β σ s) (e : Nat) (n : Nat) :
    Keeps β σ (laneResidenceEnd e n s) := by
  unfold laneResidenceEnd
  try lift_lets
  repeat' first
    | with_reducible assumption
    | (intro x; first
        | (have hx : Keeps β σ x := ?_); clear_value x | (have hx : Keeps β σ x.2 := ?_); clear_value x
        | (have hx : Keeps β σ x.2.2 := ?_); clear_value x | clear_value x)
    | with_reducible apply laneCut_keeps | with_reducible apply drainRelease_keeps
    | with_reducible apply tuneNow_keeps | with_reducible apply moveCancel_keeps
    | with_reducible apply lanePut_keeps | with_reducible apply Keeps.ite | split | simp only [Keeps.update]
    | lift_lets | subst x | dsimp only

theorem lanesResidenceEnd_keeps {β : Bool} {σ s : State} (h : Keeps β σ s) (fe : Fe) :
    Keeps β σ (lanesResidenceEnd fe s) := by
  unfold lanesResidenceEnd
  repeat' first
    | with_reducible assumption | with_reducible apply laneResidenceEnd_keeps
    | (with_reducible apply Keeps.foldl; intro u y hu) | dsimp only | split

theorem laneDomainStop_keeps {β : Bool} {σ s : State} (h : Keeps β σ s) (n : Nat) :
    Keeps β σ (laneDomainStop n s) := by
  unfold laneDomainStop
  try lift_lets
  repeat' first
    | with_reducible assumption
    | (intro x; first
        | (have hx : Keeps β σ x := ?_); clear_value x | (have hx : Keeps β σ x.2 := ?_); clear_value x
        | (have hx : Keeps β σ x.2.2 := ?_); clear_value x | clear_value x)
    | with_reducible apply laneCut_keeps | with_reducible apply drainRelease_keeps
    | with_reducible apply moveCancel_keeps | with_reducible apply laneSetState_keeps
    | with_reducible apply lanePut_keeps | with_reducible apply Keeps.ite | split | simp only [Keeps.update]
    | lift_lets | subst x | dsimp only

theorem laneDomainStart_keeps {β : Bool} {σ s : State} (h : Keeps β σ s) (newEpoch : Bool) (n : Nat) :
    Keeps β σ (laneDomainStart newEpoch n s) := by
  unfold laneDomainStart
  try lift_lets
  repeat' first
    | with_reducible assumption
    | (intro x; first
        | (have hx : Keeps β σ x := ?_); clear_value x | (have hx : Keeps β σ x.2 := ?_); clear_value x
        | (have hx : Keeps β σ x.2.2 := ?_); clear_value x | clear_value x)
    | with_reducible apply laneSetState_keeps | with_reducible apply lanePut_keeps
    | with_reducible apply fnext_keeps | with_reducible apply Keeps.ite | split | simp only [Keeps.update]
    | lift_lets | subst x | dsimp only

theorem laneTmax_keeps {β : Bool} {σ s : State} (h : Keeps β σ s) (n : Nat) :
    Keeps β σ (laneTmax n s) := by
  unfold laneTmax
  repeat' first
    | with_reducible assumption | with_reducible apply fset_keeps | dsimp only | split

theorem laneDefine_keeps {β : Bool} {σ s : State} (h : Keeps β σ s) (n : Nat) (d : LaneDesc) :
    Keeps β σ (laneDefine n d s) := by
  unfold laneDefine
  try lift_lets
  repeat' first
    | with_reducible assumption
    | (intro x; first
        | (have hx : Keeps β σ x := ?_); clear_value x | (have hx : Keeps β σ x.2 := ?_); clear_value x
        | (have hx : Keeps β σ x.2.2 := ?_); clear_value x | clear_value x)
    | with_reducible apply lanePut_keeps | with_reducible apply resetRegs_keeps | with_reducible apply fset_keeps
    | with_reducible apply fsetS_keeps | with_reducible apply drawFree_keeps | with_reducible apply laneTmax_keeps
    | with_reducible apply wr_keeps | with_reducible apply Keeps.ite | split | lift_lets | subst x | dsimp only

theorem laneUndefine_keeps {β : Bool} {σ s : State} (h : Keeps β σ s) (n : Nat) :
    Keeps β σ (laneUndefine n s) := by
  unfold laneUndefine
  try lift_lets
  repeat' first
    | with_reducible assumption
    | (intro x; first
        | (have hx : Keeps β σ x := ?_); clear_value x | (have hx : Keeps β σ x.2 := ?_); clear_value x
        | (have hx : Keeps β σ x.2.2 := ?_); clear_value x | clear_value x)
    | with_reducible apply fset_keeps | with_reducible apply lanePut_keeps | with_reducible apply resetRegs_keeps
    | lift_lets | subst x | dsimp only | split

theorem sampleLost_keeps {β : Bool} {σ s : State} (h : Keeps β σ s) (n : Nat) (index : Nat) :
    Keeps β σ (sampleLost n index s) := by
  unfold sampleLost
  try lift_lets
  repeat' first
    | with_reducible assumption
    | (intro x; first
        | (have hx : Keeps β σ x := ?_); clear_value x | (have hx : Keeps β σ x.2 := ?_); clear_value x
        | (have hx : Keeps β σ x.2.2 := ?_); clear_value x | clear_value x)
    | with_reducible apply note_keeps | with_reducible apply fset_keeps | with_reducible apply fcount_keeps
    | with_reducible apply laneMark_keeps | with_reducible apply Keeps.ite | split | simp only [Keeps.update]
    | lift_lets | subst x | dsimp only

theorem slackUpdate_keeps {β : Bool} {σ s : State} (h : Keeps β σ s) (n : Nat) :
    Keeps β σ (slackUpdate n s) := by
  unfold slackUpdate
  try lift_lets
  repeat' first
    | with_reducible assumption
    | (intro x; first
        | (have hx : Keeps β σ x := ?_); clear_value x | (have hx : Keeps β σ x.2 := ?_); clear_value x
        | (have hx : Keeps β σ x.2.2 := ?_); clear_value x | clear_value x)
    | with_reducible apply fset_keeps | with_reducible apply slackLow_keeps | with_reducible apply Keeps.ite | split
    | simp only [Keeps.update] | lift_lets | subst x | dsimp only

theorem huntGain_keeps {β : Bool} {σ s : State} (h : Keeps β σ s) (n : Nat) (peak : Int) :
    Keeps β σ (huntGain n peak s) := by
  unfold huntGain
  try lift_lets
  repeat' first
    | with_reducible assumption
    | (intro x; first
        | (have hx : Keeps β σ x := ?_); clear_value x | (have hx : Keeps β σ x.2 := ?_); clear_value x
        | (have hx : Keeps β σ x.2.2 := ?_); clear_value x | clear_value x)
    | with_reducible apply fset_keeps | with_reducible apply Keeps.ite | split | lift_lets | subst x | dsimp only

theorem blankUpdate_keeps {β : Bool} {σ s : State} (h : Keeps β σ s) (fe : Fe) (i : Nat) :
    Keeps β σ (blankUpdate fe i s) := by
  unfold blankUpdate
  try lift_lets
  repeat' first
    | with_reducible assumption
    | (intro x; first
        | (have hx : Keeps β σ x := ?_); clear_value x | (have hx : Keeps β σ x.2 := ?_); clear_value x
        | (have hx : Keeps β σ x.2.2 := ?_); clear_value x | clear_value x)
    | with_reducible apply fset_keeps | with_reducible apply fdxPut_keeps | split | simp only [Keeps.update]
    | lift_lets | subst x | dsimp only

theorem binSample_keeps {β : Bool} {σ s : State} (h : Keeps β σ s) (n : Nat) (index : Nat) (fill : Nat) (peakQ :
    BitVec 16) (edQ : BitVec 16) :
    Keeps β σ (binSample n index fill peakQ edQ s) := by
  unfold binSample
  try lift_lets
  repeat' first
    | with_reducible assumption
    | (intro x; first
        | (have hx : Keeps β σ x := ?_); clear_value x | (have hx : Keeps β σ x.2 := ?_); clear_value x
        | (have hx : Keeps β σ x.2.2 := ?_); clear_value x | clear_value x)
    | with_reducible apply blankUpdate_keeps | with_reducible apply wr48_keeps | with_reducible apply fset_keeps
    | with_reducible apply laneCut_keeps | with_reducible apply sampleLost_keeps
    | with_reducible apply slackUpdate_keeps | with_reducible apply lanePut_keeps
    | with_reducible apply huntGain_keeps | with_reducible apply Keeps.ite | split | simp only [Keeps.update]
    | lift_lets | subst x | dsimp only

theorem execBinSampleWrite_keeps {β : Bool} {σ s : State} (h : Keeps β σ s) (lane : BitVec 8) (index : BitVec 48)
    (fill : Fin 65) (peakQ : BitVec 16) (edQ : BitVec 16) :
    KeepsOut β σ (execBinSampleWrite lane index fill peakQ edQ s) := by
  unfold execBinSampleWrite
  repeat' first
    | with_reducible assumption | with_reducible apply KeepsOut.next | with_reducible apply binSample_keeps
    | dsimp only | split

theorem laneCmd_keeps {β : Bool} {σ s : State} (h : Keeps β σ s) (n : Nat) (key : Nat) (start : Bool) (stop : Bool) :
    Keeps β σ (laneCmd n key start stop s) := by
  unfold laneCmd
  repeat' first
    | with_reducible assumption | with_reducible apply laneFlag_keeps | with_reducible apply laneSetState_keeps
    | with_reducible apply laneCut_keeps | with_reducible apply Keeps.ite | split | dsimp only

theorem execLaneStart_keeps {β : Bool} {σ s : State} (h : Keeps β σ s) (i : Init) (lane : BitVec 8) (key : BitVec
    16) :
    KeepsOut β σ (execLaneStart i lane key s) := by
  unfold execLaneStart
  repeat' first
    | with_reducible assumption | with_reducible apply KeepsOut.next | with_reducible apply doorStore_keeps
    | with_reducible apply laneCmd_keeps | (intro u; intros) | dsimp only | split

theorem execLaneStop_keeps {β : Bool} {σ s : State} (h : Keeps β σ s) (i : Init) (lane : BitVec 8) (key : BitVec 16) :
    KeepsOut β σ (execLaneStop i lane key s) := by
  unfold execLaneStop
  repeat' first
    | with_reducible assumption | with_reducible apply KeepsOut.next | with_reducible apply doorStore_keeps
    | with_reducible apply laneCmd_keeps | (intro u; intros) | dsimp only | split

theorem tuneSubmit_keeps {β : Bool} {σ s : State} (h : Keeps β σ s) (n : Nat) :
    Keeps β σ (tuneSubmit n s) := by
  unfold tuneSubmit
  try lift_lets
  repeat' first
    | with_reducible assumption
    | (intro x; first
        | (have hx : Keeps β σ x := ?_); clear_value x | (have hx : Keeps β σ x.2 := ?_); clear_value x
        | (have hx : Keeps β σ x.2.2 := ?_); clear_value x | clear_value x)
    | with_reducible apply laneFlag_keeps | with_reducible apply tuneTake_keeps | with_reducible apply fset_keeps
    | with_reducible apply lanePut_keeps | with_reducible apply Keeps.ite | split | simp only [Keeps.update]
    | lift_lets | subst x | dsimp only

theorem tuneChWrite_keeps {β : Bool} {σ s : State} (h : Keeps β σ s) (n : Nat) (data : Word) :
    Keeps β σ (tuneChWrite n data s) := by
  unfold tuneChWrite
  try lift_lets
  repeat' first
    | with_reducible assumption
    | (intro x; first
        | (have hx : Keeps β σ x := ?_); clear_value x | (have hx : Keeps β σ x.2 := ?_); clear_value x
        | (have hx : Keeps β σ x.2.2 := ?_); clear_value x | clear_value x)
    | with_reducible apply wr_keeps | with_reducible apply tuneSubmit_keeps | with_reducible apply Keeps.ite | split
    | lift_lets | subst x | dsimp only

theorem execLaneTuneGo_keeps {β : Bool} {σ s : State} (h : Keeps β σ s) (i : Init) (lane : BitVec 8) (data : Word) :
    KeepsOut β σ (execLaneTuneGo i lane data s) := by
  unfold execLaneTuneGo
  repeat' first
    | with_reducible assumption | with_reducible apply KeepsOut.next | with_reducible apply doorStore_keeps
    | with_reducible apply tuneChWrite_keeps | (intro u; intros) | dsimp only | split

theorem execLaneTuneApply_keeps {β : Bool} {σ s : State} (h : Keeps β σ s) (lane : BitVec 8) (index : BitVec 48) :
    KeepsOut β σ (execLaneTuneApply lane index s) := by
  unfold execLaneTuneApply
  try lift_lets
  repeat' first
    | with_reducible assumption | with_reducible apply KeepsOut.next
    | (intro x; first
        | (have hx : Keeps β σ x := ?_); clear_value x | (have hx : Keeps β σ x.2 := ?_); clear_value x
        | (have hx : Keeps β σ x.2.2 := ?_); clear_value x | clear_value x)
    | with_reducible apply tuneTake_keeps | with_reducible apply laneCut_keeps | with_reducible apply Keeps.ite
    | split | simp only [Keeps.update] | lift_lets | subst x | dsimp only

theorem moveSubmit_keeps {β : Bool} {σ s : State} (h : Keeps β σ s) (n : Nat) (key : Nat) (dst : Nat) :
    Keeps β σ (moveSubmit n key dst s) := by
  unfold moveSubmit
  try lift_lets
  repeat' first
    | with_reducible assumption
    | (intro x; first
        | (have hx : Keeps β σ x := ?_); clear_value x | (have hx : Keeps β σ x.2 := ?_); clear_value x
        | (have hx : Keeps β σ x.2.2 := ?_); clear_value x | clear_value x)
    | with_reducible apply laneFlag_keeps | with_reducible apply lanePut_keeps | with_reducible apply fset_keeps
    | with_reducible apply laneSetState_keeps | with_reducible apply wr_keeps | with_reducible apply Keeps.ite
    | split | simp only [Keeps.update] | lift_lets | subst x | dsimp only

theorem execLaneMove_keeps {β : Bool} {σ s : State} (h : Keeps β σ s) (i : Init) (lane : BitVec 8) (key : BitVec 16)
    (dest : BitVec 8) :
    KeepsOut β σ (execLaneMove i lane key dest s) := by
  unfold execLaneMove
  repeat' first
    | with_reducible assumption | with_reducible apply KeepsOut.next | with_reducible apply doorStore_keeps
    | with_reducible apply moveSubmit_keeps | (intro u; intros) | dsimp only | split

theorem moveEffective_keeps {β : Bool} {σ s : State} (h : Keeps β σ s) (n : Nat) :
    Keeps β σ (moveEffective n s) := by
  unfold moveEffective
  try lift_lets
  repeat' first
    | with_reducible assumption
    | (intro x; first
        | (have hx : Keeps β σ x := ?_); clear_value x | (have hx : Keeps β σ x.2 := ?_); clear_value x
        | (have hx : Keeps β σ x.2.2 := ?_); clear_value x | clear_value x)
    | with_reducible apply fset_keeps | with_reducible apply laneSetState_keeps | with_reducible apply lanePut_keeps
    | with_reducible apply laneFlag_keeps | with_reducible apply drainRelease_keeps | with_reducible apply Keeps.ite
    | split | simp only [Keeps.update] | lift_lets | subst x | dsimp only

theorem execLaneMoveEffective_keeps {β : Bool} {σ s : State} (h : Keeps β σ s) (lane : BitVec 8) :
    KeepsOut β σ (execLaneMoveEffective lane s) := by
  unfold execLaneMoveEffective
  repeat' first
    | with_reducible assumption | with_reducible apply KeepsOut.next | with_reducible apply moveEffective_keeps
    | dsimp only | split

theorem execLaneDrainRelease_keeps {β : Bool} {σ s : State} (h : Keeps β σ s) (lane : BitVec 8) (index : BitVec 48) :
    KeepsOut β σ (execLaneDrainRelease lane index s) := by
  unfold execLaneDrainRelease
  try lift_lets
  repeat' first
    | with_reducible assumption | with_reducible apply KeepsOut.next
    | (intro x; first
        | (have hx : Keeps β σ x := ?_); clear_value x | (have hx : Keeps β σ x.2 := ?_); clear_value x
        | (have hx : Keeps β σ x.2.2 := ?_); clear_value x | clear_value x)
    | with_reducible apply drainRelease_keeps | with_reducible apply laneCut_keeps | with_reducible apply Keeps.ite
    | split | simp only [Keeps.update] | lift_lets | subst x | dsimp only

theorem frameBegin_keeps {β : Bool} {σ s : State} (h : Keeps β σ s) (n : Nat) (p : Nat) :
    Keeps β σ (frameBegin n p s) := by
  unfold frameBegin
  try lift_lets
  repeat' first
    | with_reducible assumption
    | (intro x; first
        | (have hx : Keeps β σ x := ?_); clear_value x | (have hx : Keeps β σ x.2 := ?_); clear_value x
        | (have hx : Keeps β σ x.2.2 := ?_); clear_value x | clear_value x)
    | with_reducible apply chzPut_keeps | with_reducible apply lanePut_keeps
    | with_reducible apply midframeAdd_keeps | with_reducible apply fset_keeps | with_reducible apply Keeps.ite
    | split | simp only [Keeps.update] | lift_lets | subst x | (refine Keeps.of_pair (by assumption) ?_)
    | dsimp only

theorem execPreambleDetection_keeps {β : Bool} {σ s : State} (h : Keeps β σ s) (lane : BitVec 8) (index : BitVec 48) :
    KeepsOut β σ (execPreambleDetection lane index s) := by
  unfold execPreambleDetection
  try lift_lets
  repeat' first
    | with_reducible assumption | with_reducible apply KeepsOut.next
    | (intro x; first
        | (have hx : Keeps β σ x := ?_); clear_value x | (have hx : Keeps β σ x.2 := ?_); clear_value x
        | (have hx : Keeps β σ x.2.2 := ?_); clear_value x | clear_value x)
    | with_reducible apply frameBegin_keeps | with_reducible apply Keeps.ite | split | lift_lets | subst x
    | dsimp only

theorem sfdFound_keeps {β : Bool} {σ s : State} (h : Keeps β σ s) (n : Nat) (sfd : Nat) (frac : Nat) (coded : Bool)
    (mse : Int) :
    Keeps β σ (sfdFound n sfd frac coded mse s) := by
  unfold sfdFound
  try lift_lets
  repeat' first
    | with_reducible assumption
    | (intro x; first
        | (have hx : Keeps β σ x := ?_); clear_value x | (have hx : Keeps β σ x.2 := ?_); clear_value x
        | (have hx : Keeps β σ x.2.2 := ?_); clear_value x | clear_value x)
    | with_reducible apply fset_keeps | with_reducible apply lanePut_keeps | with_reducible apply Keeps.ite | split
    | simp only [Keeps.update] | lift_lets | subst x | (refine Keeps.of_pair (by assumption) ?_) | dsimp only

theorem execSfdFound_keeps {β : Bool} {σ s : State} (h : Keeps β σ s) (lane : BitVec 8) (index : BitVec 48) (frac :
    BitVec 12) (coded : Bool) (mseQ : BitVec 16) :
    KeepsOut β σ (execSfdFound lane index frac coded mseQ s) := by
  unfold execSfdFound
  repeat' first
    | with_reducible assumption | with_reducible apply KeepsOut.next | with_reducible apply sfdFound_keeps
    | dsimp only | split

theorem execSfdTimeout_keeps {β : Bool} {σ s : State} (h : Keeps β σ s) (lane : BitVec 8) :
    KeepsOut β σ (execSfdTimeout lane s) := by
  unfold execSfdTimeout
  repeat' first
    | with_reducible assumption | with_reducible apply KeepsOut.next | with_reducible apply laneRelease_keeps
    | with_reducible apply Keeps.ite | split | simp only [Keeps.update] | dsimp only

theorem phrDecoded_keeps {β : Bool} {σ s : State} (h : Keeps β σ s) (n : Nat) (e : Nat) (len : Nat) (fcs2 : Bool)
    (mcs : Nat) (hcsOk : Bool) :
    Keeps β σ (phrDecoded n e len fcs2 mcs hcsOk s) := by
  unfold phrDecoded
  try lift_lets
  repeat' first
    | with_reducible assumption
    | (intro x; first
        | (have hx : Keeps β σ x := ?_); clear_value x | (have hx : Keeps β σ x.2 := ?_); clear_value x
        | (have hx : Keeps β σ x.2.2 := ?_); clear_value x | clear_value x)
    | with_reducible apply lanePut_keeps | with_reducible apply laneClose_keeps | with_reducible apply fset_keeps
    | with_reducible apply Keeps.ite | split | simp only [Keeps.update] | lift_lets | subst x | dsimp only

theorem execPhrDecoded_keeps {β : Bool} {σ s : State} (h : Keeps β σ s) (lane : BitVec 8) (index : BitVec 48) (len :
    BitVec 11) (fcs2 : Bool) (mcs : BitVec 3) (hcsOk : Bool) :
    KeepsOut β σ (execPhrDecoded lane index len fcs2 mcs hcsOk s) := by
  unfold execPhrDecoded
  repeat' first
    | with_reducible assumption | with_reducible apply KeepsOut.next | with_reducible apply phrDecoded_keeps
    | dsimp only | split

theorem modeSwitch_keeps {β : Bool} {σ s : State} (h : Keeps β σ s) (n : Nat) (phy : Nat) (hq : Nat) :
    Keeps β σ (modeSwitch n phy hq s) := by
  unfold modeSwitch
  try lift_lets
  repeat' first
    | with_reducible assumption
    | (intro x; first
        | (have hx : Keeps β σ x := ?_); clear_value x | (have hx : Keeps β σ x.2 := ?_); clear_value x
        | (have hx : Keeps β σ x.2.2 := ?_); clear_value x | clear_value x)
    | with_reducible apply laneRelease_keeps | with_reducible apply lanePut_keeps
    | with_reducible apply laneFlag_keeps | with_reducible apply Keeps.ite | split | simp only [Keeps.update]
    | lift_lets | subst x | dsimp only

theorem execModeSwitchPpdu_keeps {β : Bool} {σ s : State} (h : Keeps β σ s) (lane : BitVec 8) (phy : BitVec 8) (hQ :
    BitVec 8) :
    KeepsOut β σ (execModeSwitchPpdu lane phy hQ s) := by
  unfold execModeSwitchPpdu
  repeat' first
    | with_reducible assumption | with_reducible apply KeepsOut.next | with_reducible apply modeSwitch_keeps
    | dsimp only | split

theorem execModeSwitchTimeout_keeps {β : Bool} {σ s : State} (h : Keeps β σ s) (lane : BitVec 8) :
    KeepsOut β σ (execModeSwitchTimeout lane s) := by
  unfold execModeSwitchTimeout
  repeat' first
    | with_reducible assumption | with_reducible apply KeepsOut.next | with_reducible apply lanePut_keeps
    | with_reducible apply Keeps.ite | split | simp only [Keeps.update] | dsimp only

theorem execFrameEnd_keeps {β : Bool} {σ s : State} (h : Keeps β σ s) (lane : BitVec 8) (index : BitVec 48) (fcsOk :
    Bool) (sat : Bool) (qual : Quality) :
    KeepsOut β σ (execFrameEnd lane index fcsOk sat qual s) := by
  unfold execFrameEnd
  try lift_lets
  repeat' first
    | with_reducible assumption | with_reducible apply KeepsOut.next
    | (intro x; first
        | (have hx : Keeps β σ x := ?_); clear_value x | (have hx : Keeps β σ x.2 := ?_); clear_value x
        | (have hx : Keeps β σ x.2.2 := ?_); clear_value x | clear_value x)
    | with_reducible apply laneClose_keeps | with_reducible apply laneMark_keeps | with_reducible apply Keeps.ite
    | split | simp only [Keeps.update] | lift_lets | subst x | dsimp only

theorem execLaneTimeout_keeps {β : Bool} {σ s : State} (h : Keeps β σ s) (lane : BitVec 8) :
    KeepsOut β σ (execLaneTimeout lane s) := by
  unfold execLaneTimeout
  try lift_lets
  repeat' first
    | with_reducible assumption | with_reducible apply KeepsOut.next
    | (intro x; first
        | (have hx : Keeps β σ x := ?_); clear_value x | (have hx : Keeps β σ x.2 := ?_); clear_value x
        | (have hx : Keeps β σ x.2.2 := ?_); clear_value x | clear_value x)
    | with_reducible apply laneCut_keeps | split | simp only [Keeps.update] | lift_lets | subst x | dsimp only

theorem execResyncCollision_keeps {β : Bool} {σ s : State} (h : Keeps β σ s) (lane : BitVec 8) (index : BitVec 48) :
    KeepsOut β σ (execResyncCollision lane index s) := by
  unfold execResyncCollision
  try lift_lets
  repeat' first
    | with_reducible assumption | with_reducible apply KeepsOut.next
    | (intro x; first
        | (have hx : Keeps β σ x := ?_); clear_value x | (have hx : Keeps β σ x.2 := ?_); clear_value x
        | (have hx : Keeps β σ x.2.2 := ?_); clear_value x | clear_value x)
    | with_reducible apply frameBegin_keeps | with_reducible apply laneCut_keeps | with_reducible apply Keeps.ite
    | split | simp only [Keeps.update] | lift_lets | subst x | dsimp only

theorem lanesManual_keeps {β : Bool} {σ s : State} (h : Keeps β σ s) (fe : Fe) :
    Keeps β σ (lanesManual fe s) := by
  unfold lanesManual
  repeat' first
    | with_reducible assumption | with_reducible apply fset_keeps | with_reducible apply Keeps.ite
    | (with_reducible apply Keeps.foldl; intro u y hu) | split | dsimp only

theorem execChzCtrlWrite_keeps {β : Bool} {σ s : State} (h : Keeps β σ s) (i : Init) (fe : Fe) (data : Word) (period
    : BitVec 48) :
    KeepsOut β σ (execChzCtrlWrite i fe data period s) := by
  unfold execChzCtrlWrite
  repeat' first
    | with_reducible assumption | with_reducible apply KeepsOut.next | with_reducible apply doorStore_keeps
    | with_reducible apply lanesManual_keeps | with_reducible apply chzCtrlWrite_keeps | (intro u; intros)
    | dsimp only | split

theorem laneGainWrite_keeps {β : Bool} {σ s : State} (h : Keeps β σ s) (n : Nat) (data : Word) :
    Keeps β σ (laneGainWrite n data s) := by
  unfold laneGainWrite
  try lift_lets
  repeat' first
    | with_reducible assumption
    | (intro x; first
        | (have hx : Keeps β σ x := ?_); clear_value x | (have hx : Keeps β σ x.2 := ?_); clear_value x
        | (have hx : Keeps β σ x.2.2 := ?_); clear_value x | clear_value x)
    | with_reducible apply fset_keeps | with_reducible apply Keeps.ite | split | lift_lets | subst x | dsimp only

theorem execOverloadDetect_keeps {β : Bool} {σ s : State} (h : Keeps β σ s) (fe : Fe) (start : BitVec 48) :
    KeepsOut β σ (execOverloadDetect fe start s) := by
  unfold execOverloadDetect
  repeat' first
    | with_reducible assumption | with_reducible apply KeepsOut.next | with_reducible apply overloadDetect_keeps
    | with_reducible apply laneMark_keeps | with_reducible apply Keeps.ite
    | (with_reducible apply Keeps.foldl; intro u y hu) | split | dsimp only

theorem surveyBin_keeps {β : Bool} {σ s : State} (h : Keeps β σ s) (fe : Fe) (block : Nat) (means : List Int) (k :
    Nat) :
    Keeps β σ (surveyBin fe block means k s) := by
  unfold surveyBin
  try lift_lets
  repeat' first
    | with_reducible assumption
    | (intro x; first
        | (have hx : Keeps β σ x := ?_); clear_value x | (have hx : Keeps β σ x.2 := ?_); clear_value x
        | (have hx : Keeps β σ x.2.2 := ?_); clear_value x | clear_value x)
    | with_reducible apply fcount_keeps | with_reducible apply fset_keeps | with_reducible apply fsetS_keeps
    | with_reducible apply Keeps.ite | split | simp only [Keeps.update] | lift_lets | subst x | dsimp only

theorem surveyLane_keeps {β : Bool} {σ s : State} (h : Keeps β σ s) (fe : Fe) (n : Nat) :
    Keeps β σ (surveyLane fe n s) := by
  unfold surveyLane
  try lift_lets
  repeat' first
    | with_reducible assumption
    | (intro x; first
        | (have hx : Keeps β σ x := ?_); clear_value x | (have hx : Keeps β σ x.2 := ?_); clear_value x
        | (have hx : Keeps β σ x.2.2 := ?_); clear_value x | clear_value x)
    | with_reducible apply fset_keeps | with_reducible apply fsetS_keeps | lift_lets | subst x | dsimp only | split

theorem surveyBlock_keeps {β : Bool} {σ s : State} (h : Keeps β σ s) (fe : Fe) (block : Nat) (means : List Int) :
    Keeps β σ (surveyBlock fe block means s) := by
  unfold surveyBlock
  try lift_lets
  repeat' first
    | with_reducible assumption
    | (intro x; first
        | (have hx : Keeps β σ x := ?_); clear_value x | (have hx : Keeps β σ x.2 := ?_); clear_value x
        | (have hx : Keeps β σ x.2.2 := ?_); clear_value x | clear_value x)
    | with_reducible apply surveyBin_keeps | with_reducible apply surveyLane_keeps
    | with_reducible apply chzPut_keeps | with_reducible apply Keeps.ite
    | (with_reducible apply Keeps.foldl; intro u y hu) | split | simp only [Keeps.update] | lift_lets | subst x
    | dsimp only

theorem execSurveyBlockEnd_keeps {β : Bool} {σ s : State} (h : Keeps β σ s) (fe : Fe) (block : BitVec 40) (means :
    List Int) :
    KeepsOut β σ (execSurveyBlockEnd fe block means s) := by
  unfold execSurveyBlockEnd
  repeat' first
    | with_reducible assumption | with_reducible apply KeepsOut.next | with_reducible apply surveyBlock_keeps
    | dsimp only | split

theorem gainCapSet_keeps {β : Bool} {σ s : State} (h : Keeps β σ s) (fe : Fe) (pset : Int) (period : Nat) :
    Keeps β σ (gainCapSet fe pset period s) := by
  unfold gainCapSet
  try lift_lets
  repeat' first
    | with_reducible assumption
    | (intro x; first
        | (have hx : Keeps β σ x := ?_); clear_value x | (have hx : Keeps β σ x.2 := ?_); clear_value x
        | (have hx : Keeps β σ x.2.2 := ?_); clear_value x | clear_value x)
    | with_reducible apply fset_keeps | with_reducible apply chzPut_keeps | with_reducible apply setGain_keeps
    | with_reducible apply Keeps.ite | split | simp only [Keeps.update] | lift_lets | subst x | dsimp only

theorem gainCapEnd_keeps {β : Bool} {σ s : State} (h : Keeps β σ s) (fe : Fe) :
    Keeps β σ (gainCapEnd fe s) := by
  unfold gainCapEnd
  repeat' first
    | with_reducible assumption | with_reducible apply chzPut_keeps | simp only [Keeps.update] | dsimp only | split

theorem gainCapReturn_keeps {β : Bool} {σ s : State} (h : Keeps β σ s) (fe : Fe) (period : Nat) :
    Keeps β σ (gainCapReturn fe period s) := by
  unfold gainCapReturn
  try lift_lets
  repeat' first
    | with_reducible assumption
    | (intro x; first
        | (have hx : Keeps β σ x := ?_); clear_value x | (have hx : Keeps β σ x.2 := ?_); clear_value x
        | (have hx : Keeps β σ x.2.2 := ?_); clear_value x | clear_value x)
    | with_reducible apply chzPut_keeps | with_reducible apply setGain_keeps | with_reducible apply Keeps.ite
    | split | simp only [Keeps.update] | lift_lets | subst x | dsimp only

theorem fdxRetrain_keeps {β : Bool} {σ s : State} (h : Keeps β σ s) (fe : Fe) :
    Keeps β σ (fdxRetrain fe s) := by
  unfold fdxRetrain
  repeat' first
    | with_reducible assumption | with_reducible apply fdxPut_keeps | simp only [Keeps.update] | dsimp only | split

theorem fdxClear_keeps {β : Bool} {σ s : State} (h : Keeps β σ s) (fe : Fe) :
    Keeps β σ (fdxClear fe s) := by
  unfold fdxClear
  repeat' first
    | with_reducible assumption | with_reducible apply fset_keeps | with_reducible apply fdxPut_keeps
    | simp only [Keeps.update] | dsimp only | split

theorem blankBegin_keeps {β : Bool} {σ s : State} (h : Keeps β σ s) (fe : Fe) (b : Blanking) :
    Keeps β σ (blankBegin fe b s) := by
  unfold blankBegin
  repeat' first
    | with_reducible assumption | with_reducible apply wr48_keeps | with_reducible apply fdxPut_keeps
    | with_reducible apply Keeps.ite | split | simp only [Keeps.update] | dsimp only

theorem blankLanes_keeps {β : Bool} {σ s : State} (h : Keeps β σ s) (fe : Fe) (first : Nat) :
    Keeps β σ (blankLanes fe first s) := by
  unfold blankLanes
  repeat' first
    | with_reducible assumption | with_reducible apply laneCut_keeps | with_reducible apply Keeps.ite
    | (with_reducible apply Keeps.foldl; intro u y hu) | split | dsimp only

theorem blankEnd_keeps {β : Bool} {σ s : State} (h : Keeps β σ s) (fe : Fe) (own : Bool) (last : Nat) :
    Keeps β σ (blankEnd fe own last s) := by
  unfold blankEnd
  try lift_lets
  repeat' first
    | with_reducible assumption
    | (intro x; first
        | (have hx : Keeps β σ x := ?_); clear_value x | (have hx : Keeps β σ x.2 := ?_); clear_value x
        | (have hx : Keeps β σ x.2.2 := ?_); clear_value x | clear_value x)
    | with_reducible apply wr48_keeps | with_reducible apply fdxPut_keeps | with_reducible apply Keeps.ite | split
    | simp only [Keeps.update] | lift_lets | subst x | dsimp only

theorem blankDrop_keeps {β : Bool} {σ s : State} (h : Keeps β σ s) (fe : Fe) :
    Keeps β σ (blankDrop fe s) := by
  unfold blankDrop
  try lift_lets
  repeat' first
    | with_reducible assumption
    | (intro x; first
        | (have hx : Keeps β σ x := ?_); clear_value x | (have hx : Keeps β σ x.2 := ?_); clear_value x
        | (have hx : Keeps β σ x.2.2 := ?_); clear_value x | clear_value x)
    | with_reducible apply wr48_keeps | with_reducible apply fset_keeps | with_reducible apply fdxPut_keeps
    | with_reducible apply Keeps.ite | split | simp only [Keeps.update] | lift_lets | subst x | dsimp only

theorem harmonicBegin_keeps {β : Bool} {σ s : State} (h : Keeps β σ s) (tick : Nat) (lo : Nat) (hi : Nat) :
    Keeps β σ (harmonicBegin tick lo hi s) := by
  unfold harmonicBegin
  try lift_lets
  repeat' first
    | with_reducible assumption
    | (intro x; first
        | (have hx : Keeps β σ x := ?_); clear_value x | (have hx : Keeps β σ x.2 := ?_); clear_value x
        | (have hx : Keeps β σ x.2.2 := ?_); clear_value x | clear_value x)
    | with_reducible apply blankLanes_keeps | with_reducible apply blankBegin_keeps | with_reducible apply Keeps.ite
    | split | lift_lets | subst x | dsimp only

theorem fdxStart_keeps {β : Bool} {σ s : State} (h : Keeps β σ s) (fe : Fe) (tick : Nat) (lo : Nat) (hi : Nat)
    (centre : Nat) (pset : Int) (temp : Int) :
    Keeps β σ (fdxStart fe tick lo hi centre pset temp s) := by
  unfold fdxStart
  try lift_lets
  repeat' first
    | with_reducible assumption
    | (intro x; first
        | (have hx : Keeps β σ x := ?_); clear_value x | (have hx : Keeps β σ x.2 := ?_); clear_value x
        | (have hx : Keeps β σ x.2.2 := ?_); clear_value x | clear_value x)
    | with_reducible apply fset_keeps | with_reducible apply fdxPut_keeps | with_reducible apply gainCapSet_keeps
    | with_reducible apply blankLanes_keeps | with_reducible apply blankBegin_keeps
    | with_reducible apply harmonicBegin_keeps | with_reducible apply Keeps.ite | split | simp only [Keeps.update]
    | lift_lets | subst x | dsimp only

theorem fdxRampEnd_keeps {β : Bool} {σ s : State} (h : Keeps β σ s) (fe : Fe) :
    Keeps β σ (fdxRampEnd fe s) := by
  unfold fdxRampEnd
  repeat' first
    | with_reducible assumption | with_reducible apply fset_keeps | with_reducible apply Keeps.ite | split
    | dsimp only

theorem fdxStop_keeps {β : Bool} {σ s : State} (h : Keeps β σ s) (fe : Fe) (last : Nat) :
    Keeps β σ (fdxStop fe last s) := by
  unfold fdxStop
  try lift_lets
  repeat' first
    | with_reducible assumption
    | (intro x; first
        | (have hx : Keeps β σ x := ?_); clear_value x | (have hx : Keeps β σ x.2 := ?_); clear_value x
        | (have hx : Keeps β σ x.2.2 := ?_); clear_value x | clear_value x)
    | with_reducible apply fdxRetrain_keeps | with_reducible apply blankEnd_keeps
    | with_reducible apply gainCapEnd_keeps | with_reducible apply fset_keeps | with_reducible apply fdxPut_keeps
    | with_reducible apply Keeps.ite | split | simp only [Keeps.update] | lift_lets | subst x | dsimp only

theorem trainingEnd_keeps {β : Bool} {σ s : State} (h : Keeps β σ s) (fe : Fe) (deep : Bool) :
    Keeps β σ (trainingEnd fe deep s) := by
  unfold trainingEnd
  try lift_lets
  repeat' first
    | with_reducible assumption
    | (intro x; first
        | (have hx : Keeps β σ x := ?_); clear_value x | (have hx : Keeps β σ x.2 := ?_); clear_value x
        | (have hx : Keeps β σ x.2.2 := ?_); clear_value x | clear_value x)
    | with_reducible apply fset_keeps | with_reducible apply fdxPut_keeps | with_reducible apply Keeps.ite | split
    | simp only [Keeps.update] | lift_lets | subst x | dsimp only

theorem fdxMeasure_keeps {β : Bool} {σ s : State} (h : Keeps β σ s) (fe : Fe) (iso : Nat) (cancel : Nat) :
    Keeps β σ (fdxMeasure fe iso cancel s) := by
  unfold fdxMeasure
  try lift_lets
  repeat' first
    | with_reducible assumption
    | (intro x; first
        | (have hx : Keeps β σ x := ?_); clear_value x | (have hx : Keeps β σ x.2 := ?_); clear_value x
        | (have hx : Keeps β σ x.2.2 := ?_); clear_value x | clear_value x)
    | with_reducible apply fset_keeps | with_reducible apply fnext_keeps | with_reducible apply Keeps.ite | split
    | lift_lets | subst x | dsimp only

theorem fdxErrWrite_keeps {β : Bool} {σ s : State} (h : Keeps β σ s) (i : Init) (fe : Fe) (data : Word) :
    Keeps β σ (fdxErrWrite i fe data s) := by
  unfold fdxErrWrite
  try lift_lets
  repeat' first
    | with_reducible assumption
    | (intro x; first
        | (have hx : Keeps β σ x := ?_); clear_value x | (have hx : Keeps β σ x.2 := ?_); clear_value x
        | (have hx : Keeps β σ x.2.2 := ?_); clear_value x | clear_value x)
    | with_reducible apply wr_keeps | with_reducible apply fdxRetrain_keeps | with_reducible apply Keeps.ite | split
    | lift_lets | subst x | dsimp only

theorem execCancellerTrainingEnd_keeps {β : Bool} {σ s : State} (h : Keeps β σ s) (fe : Fe) (deep : Bool) :
    KeepsOut β σ (execCancellerTrainingEnd fe deep s) := by
  unfold execCancellerTrainingEnd
  repeat' first
    | with_reducible assumption | with_reducible apply KeepsOut.next | with_reducible apply trainingEnd_keeps
    | dsimp only | split

theorem execFdxMeasurement_keeps {β : Bool} {σ s : State} (h : Keeps β σ s) (fe : Fe) (iso : BitVec 8) (cancel :
    BitVec 8) :
    KeepsOut β σ (execFdxMeasurement fe iso cancel s) := by
  unfold execFdxMeasurement
  repeat' first
    | with_reducible assumption | with_reducible apply KeepsOut.next | with_reducible apply fdxMeasure_keeps
    | dsimp only | split

theorem execGainCapReturn_keeps {β : Bool} {σ s : State} (h : Keeps β σ s) (fe : Fe) (period : BitVec 48) :
    KeepsOut β σ (execGainCapReturn fe period s) := by
  unfold execGainCapReturn
  repeat' first
    | with_reducible assumption | with_reducible apply KeepsOut.next | with_reducible apply gainCapReturn_keeps
    | dsimp only | split

theorem owe_keeps {β : Bool} {σ s : State} (h : Keeps β σ s) (a : Nat) (bit : Nat) (e : Nat) :
    Keeps β σ (owe a bit e s) := by
  unfold owe
  repeat' first
    | with_reducible assumption | simp only [Keeps.update] | dsimp only | split

theorem lanternNote_keeps {β : Bool} {σ s : State} (h : Keeps β σ s) (b : Nat) (f : Fld) (e : Nat) :
    Keeps β σ (lanternNote b f e s) := by
  unfold lanternNote
  repeat' first
    | with_reducible assumption | with_reducible apply raiseEvt_keeps | with_reducible apply fset_keeps
    | with_reducible apply owe_keeps | with_reducible apply Keeps.ite | split | dsimp only

theorem hallNote_keeps {β : Bool} {σ s : State} (h : Keeps β σ s) (f : Fld) (e : Nat) :
    Keeps β σ (hallNote f e s) := by
  unfold hallNote
  repeat' first
    | with_reducible assumption | with_reducible apply note_keeps | with_reducible apply owe_keeps
    | with_reducible apply Keeps.ite | split | dsimp only

theorem payOwed_keeps {β : Bool} {σ s : State} (h : Keeps β σ s) :
    Keeps β σ (payOwed s) := by
  unfold payOwed
  repeat' first
    | with_reducible assumption | with_reducible apply note_keeps | with_reducible apply raiseEvt_keeps
    | with_reducible apply Keeps.ite | (with_reducible apply Keeps.foldl; intro u y hu) | split
    | simp only [Keeps.update] | dsimp only

theorem calNote_keeps {β : Bool} {σ s : State} (h : Keeps β σ s) (k : Nat) :
    Keeps β σ (calNote k s) := by
  unfold calNote
  repeat' first
    | with_reducible assumption | with_reducible apply lanternNote_keeps | with_reducible apply Keeps.ite | split
    | dsimp only

theorem lanternRange_keeps {β : Bool} {σ s : State} (h : Keeps β σ s) :
    Keeps β σ (lanternRange s) := by
  unfold lanternRange
  repeat' first
    | with_reducible assumption | with_reducible apply hallNote_keeps | dsimp only | split

theorem knkErr_keeps {β : Bool} {σ s : State} (h : Keeps β σ s) (f : Fld) :
    Keeps β σ (knkErr f s) := by
  unfold knkErr
  repeat' first
    | with_reducible assumption | with_reducible apply lanternNote_keeps | dsimp only | split

theorem knkGo_keeps {β : Bool} {σ s : State} (h : Keeps β σ s) (st : Nat) :
    Keeps β σ (knkGo st s) := by
  unfold knkGo
  repeat' first
    | with_reducible assumption | with_reducible apply fset_keeps | simp only [Keeps.update] | dsimp only | split

theorem knkDeaf_keeps {β : Bool} {σ s : State} (h : Keeps β σ s) :
    Keeps β σ (knkDeaf s) := by
  unfold knkDeaf
  repeat' first
    | with_reducible assumption | with_reducible apply knkGo_keeps | with_reducible apply fcount_keeps
    | with_reducible apply Keeps.ite | split | dsimp only

theorem knkHear_keeps {β : Bool} {σ s : State} (h : Keeps β σ s) :
    Keeps β σ (knkHear s) := by
  unfold knkHear
  repeat' first
    | with_reducible assumption | with_reducible apply knkGo_keeps | with_reducible apply Keeps.ite | split
    | dsimp only

theorem knkCtrlWrite_keeps {β : Bool} {σ s : State} (h : Keeps β σ s) (data : Word) :
    Keeps β σ (knkCtrlWrite data s) := by
  unfold knkCtrlWrite
  try lift_lets
  repeat' first
    | with_reducible assumption
    | (intro x; first
        | (have hx : Keeps β σ x := ?_); clear_value x | (have hx : Keeps β σ x.2 := ?_); clear_value x
        | (have hx : Keeps β σ x.2.2 := ?_); clear_value x | clear_value x)
    | with_reducible apply knkErr_keeps | with_reducible apply wr_keeps | with_reducible apply drawFree_keeps
    | with_reducible apply fset_keeps | with_reducible apply pdSet_keeps | with_reducible apply knkGo_keeps
    | with_reducible apply Keeps.ite | split | lift_lets | subst x | (refine Keeps.of_pair (by assumption) ?_)
    | dsimp only

theorem knkConfigWrite_keeps {β : Bool} {σ s : State} (h : Keeps β σ s) (isWord : Bool) (data : Word) :
    Keeps β σ (knkConfigWrite isWord data s) := by
  unfold knkConfigWrite
  try lift_lets
  repeat' first
    | with_reducible assumption
    | (intro x; first
        | (have hx : Keeps β σ x := ?_); clear_value x | (have hx : Keeps β σ x.2 := ?_); clear_value x
        | (have hx : Keeps β σ x.2.2 := ?_); clear_value x | clear_value x)
    | with_reducible apply knkErr_keeps | with_reducible apply wr_keeps | with_reducible apply Keeps.ite | split
    | lift_lets | subst x | dsimp only

theorem knkAddrWrite_keeps {β : Bool} {σ s : State} (h : Keeps β σ s) (data : Word) :
    Keeps β σ (knkAddrWrite data s) := by
  unfold knkAddrWrite
  try lift_lets
  repeat' first
    | with_reducible assumption
    | (intro x; first
        | (have hx : Keeps β σ x := ?_); clear_value x | (have hx : Keeps β σ x.2 := ?_); clear_value x
        | (have hx : Keeps β σ x.2.2 := ?_); clear_value x | clear_value x)
    | with_reducible apply knkErr_keeps | with_reducible apply wr_keeps | with_reducible apply Keeps.ite | split
    | lift_lets | subst x | dsimp only

theorem execKnkEnWrite_keeps {β : Bool} {σ s : State} (h : Keeps β σ s) (i : Init) (data : Word) :
    KeepsOut β σ (execKnkEnWrite i data s) := by
  unfold execKnkEnWrite
  repeat' first
    | with_reducible assumption | with_reducible apply KeepsOut.next | with_reducible apply doorStore_keeps
    | with_reducible apply knkCtrlWrite_keeps | (intro u; intros) | dsimp only | split

theorem execKnkConfigWrite_keeps {β : Bool} {σ s : State} (h : Keeps β σ s) (i : Init) (isWord : Bool) (data : Word) :
    KeepsOut β σ (execKnkConfigWrite i isWord data s) := by
  unfold execKnkConfigWrite
  repeat' first
    | with_reducible assumption | with_reducible apply KeepsOut.next | with_reducible apply doorStore_keeps
    | with_reducible apply knkConfigWrite_keeps | with_reducible apply Keeps.ite | (intro u; intros) | split
    | dsimp only

theorem execKnkListenStart_keeps {β : Bool} {σ s : State} (h : Keeps β σ s) :
    KeepsOut β σ (execKnkListenStart s) := by
  unfold execKnkListenStart
  repeat' first
    | with_reducible assumption | with_reducible apply KeepsOut.next | with_reducible apply knkGo_keeps
    | with_reducible apply Keeps.ite | split | dsimp only

theorem execKnkPreambleDetect_keeps {β : Bool} {σ s : State} (h : Keeps β σ s) :
    KeepsOut β σ (execKnkPreambleDetect s) := by
  unfold execKnkPreambleDetect
  repeat' first
    | with_reducible assumption | with_reducible apply KeepsOut.next | with_reducible apply knkGo_keeps
    | with_reducible apply fcount_keeps | with_reducible apply Keeps.ite | split | dsimp only

theorem execKnkWordMatch_keeps {β : Bool} {σ s : State} (h : Keeps β σ s) :
    KeepsOut β σ (execKnkWordMatch s) := by
  unfold execKnkWordMatch
  repeat' first
    | with_reducible assumption | with_reducible apply KeepsOut.next | with_reducible apply fcount_keeps
    | with_reducible apply Keeps.ite | split | simp only [Keeps.update] | dsimp only

theorem execKnkWordTimeout_keeps {β : Bool} {σ s : State} (h : Keeps β σ s) :
    KeepsOut β σ (execKnkWordTimeout s) := by
  unfold execKnkWordTimeout
  repeat' first
    | with_reducible assumption | with_reducible apply KeepsOut.next | with_reducible apply knkGo_keeps
    | with_reducible apply Keeps.ite | split | dsimp only

theorem feLock_keeps {β : Bool} {σ s : State} (h : Keeps β σ s) (fe : Fe) (on : Bool) :
    Keeps β σ (feLock fe on s) := by
  unfold feLock
  repeat' first
    | with_reducible assumption | with_reducible apply fset_keeps | dsimp only | split

theorem residenceEnd_keeps {β : Bool} {σ s : State} (h : Keeps β σ s) (fe : Fe) :
    Keeps β σ (residenceEnd fe s) := by
  unfold residenceEnd
  try lift_lets
  repeat' first
    | with_reducible assumption
    | (intro x; first
        | (have hx : Keeps β σ x := ?_); clear_value x | (have hx : Keeps β σ x.2 := ?_); clear_value x
        | (have hx : Keeps β σ x.2.2 := ?_); clear_value x | clear_value x)
    | with_reducible apply blankDrop_keeps | with_reducible apply lanesResidenceEnd_keeps
    | with_reducible apply chzEnd_keeps | with_reducible apply fePut_keeps | with_reducible apply Keeps.ite | split
    | simp only [Keeps.update] | lift_lets | subst x | dsimp only

theorem residenceStart_keeps {β : Bool} {σ s : State} (h : Keeps β σ s) (fe : Fe) (rxt0 : Word64) :
    Keeps β σ (residenceStart fe rxt0 s) := by
  unfold residenceStart
  try lift_lets
  repeat' first
    | with_reducible assumption
    | (intro x; first
        | (have hx : Keeps β σ x := ?_); clear_value x | (have hx : Keeps β σ x.2 := ?_); clear_value x
        | (have hx : Keeps β σ x.2.2 := ?_); clear_value x | clear_value x)
    | with_reducible apply wr64_keeps | with_reducible apply wr48_keeps | with_reducible apply fePut_keeps
    | with_reducible apply fdxRetrain_keeps | with_reducible apply chzStart_keeps | simp only [Keeps.update]
    | lift_lets | subst x | dsimp only | split

theorem feBegin_keeps {β : Bool} {σ s : State} (h : Keeps β σ s) (fe : Fe) (src : Nat) (dst : Nat) (temp : BitVec
    16) :
    Keeps β σ (feBegin fe src dst temp s) := by
  unfold feBegin
  try lift_lets
  repeat' first
    | with_reducible assumption
    | (intro x; first
        | (have hx : Keeps β σ x := ?_); clear_value x | (have hx : Keeps β σ x.2 := ?_); clear_value x
        | (have hx : Keeps β σ x.2.2 := ?_); clear_value x | clear_value x)
    | with_reducible apply residenceEnd_keeps | with_reducible apply tempSample_keeps
    | with_reducible apply feLock_keeps | with_reducible apply feCtlPins_keeps | with_reducible apply fset_keeps
    | with_reducible apply fePut_keeps | with_reducible apply Keeps.ite | split | simp only [Keeps.update]
    | lift_lets | subst x | dsimp only

theorem feHop_keeps {β : Bool} {σ s : State} (h : Keeps β σ s) (fe : Fe) (temp : BitVec 16) :
    Keeps β σ (feHop fe temp s) := by
  unfold feHop
  repeat' first
    | with_reducible assumption | with_reducible apply feBegin_keeps | with_reducible apply fePut_keeps
    | simp only [Keeps.update] | dsimp only | split

theorem feTakeHeld_keeps {β : Bool} {σ s : State} (h : Keeps β σ s) (fe : Fe) :
    Keeps β σ (feTakeHeld fe s) := by
  unfold feTakeHeld
  try lift_lets
  repeat' first
    | with_reducible assumption
    | (intro x; first
        | (have hx : Keeps β σ x := ?_); clear_value x | (have hx : Keeps β σ x.2 := ?_); clear_value x
        | (have hx : Keeps β σ x.2.2 := ?_); clear_value x | clear_value x)
    | with_reducible apply fset_keeps | with_reducible apply Keeps.ite | split | lift_lets | subst x | dsimp only

theorem feNext_keeps {β : Bool} {σ s : State} (h : Keeps β σ s) (fe : Fe) (temp : BitVec 16) :
    Keeps β σ (feNext fe temp s) := by
  unfold feNext
  try lift_lets
  repeat' first
    | with_reducible assumption
    | (intro x; first
        | (have hx : Keeps β σ x := ?_); clear_value x | (have hx : Keeps β σ x.2 := ?_); clear_value x
        | (have hx : Keeps β σ x.2.2 := ?_); clear_value x | clear_value x)
    | with_reducible apply feHop_keeps | with_reducible apply fePut_keeps | with_reducible apply feBegin_keeps
    | with_reducible apply feTakeHeld_keeps | with_reducible apply raiseEvt_keeps | with_reducible apply Keeps.ite
    | split | simp only [Keeps.update] | lift_lets | subst x | dsimp only

theorem feArrive_keeps {β : Bool} {σ s : State} (h : Keeps β σ s) (fe : Fe) (t : FeTrans) (rxt0 : Word64) :
    Keeps β σ (feArrive fe t rxt0 s) := by
  unfold feArrive
  try lift_lets
  repeat' first
    | with_reducible assumption
    | (intro x; first
        | (have hx : Keeps β σ x := ?_); clear_value x | (have hx : Keeps β σ x.2 := ?_); clear_value x
        | (have hx : Keeps β σ x.2.2 := ?_); clear_value x | clear_value x)
    | with_reducible apply fset_keeps | with_reducible apply fePut_keeps | with_reducible apply feLock_keeps
    | with_reducible apply residenceStart_keeps | with_reducible apply raiseEvt_keeps
    | with_reducible apply fdxRampEnd_keeps | with_reducible apply Keeps.ite | split | simp only [Keeps.update]
    | lift_lets | subst x | dsimp only

theorem feDone_keeps {β : Bool} {σ s : State} (h : Keeps β σ s) (fe : Fe) (temp : BitVec 16) (rxt0 : Word64) :
    Keeps β σ (feDone fe temp rxt0 s) := by
  unfold feDone
  repeat' first
    | with_reducible assumption | with_reducible apply feNext_keeps | with_reducible apply feArrive_keeps
    | with_reducible apply Keeps.ite | split | simp only [Keeps.update] | dsimp only

theorem feSleepNow_keeps {β : Bool} {σ s : State} (h : Keeps β σ s) (fe : Fe) :
    Keeps β σ (feSleepNow fe s) := by
  unfold feSleepNow
  try lift_lets
  repeat' first
    | with_reducible assumption
    | (intro x; first
        | (have hx : Keeps β σ x := ?_); clear_value x | (have hx : Keeps β σ x.2 := ?_); clear_value x
        | (have hx : Keeps β σ x.2.2 := ?_); clear_value x | clear_value x)
    | with_reducible apply residenceEnd_keeps | with_reducible apply fePut_keeps | with_reducible apply fset_keeps
    | with_reducible apply feLock_keeps | with_reducible apply feCtlPins_keeps | simp only [Keeps.update]
    | lift_lets | subst x | dsimp only | split

theorem feReject_keeps {β : Bool} {σ s : State} (h : Keeps β σ s) (fe : Fe) (f : Fld) :
    Keeps β σ (feReject fe f s) := by
  unfold feReject
  repeat' first
    | with_reducible assumption | with_reducible apply raiseEvt_keeps | with_reducible apply fset_keeps | dsimp only
    | split

theorem feTarget_keeps {β : Bool} {σ s : State} (h : Keeps β σ s) (fe : Fe) (t : Nat) (temp : BitVec 16) :
    Keeps β σ (feTarget fe t temp s) := by
  unfold feTarget
  try lift_lets
  repeat' first
    | with_reducible assumption
    | (intro x; first
        | (have hx : Keeps β σ x := ?_); clear_value x | (have hx : Keeps β σ x.2 := ?_); clear_value x
        | (have hx : Keeps β σ x.2.2 := ?_); clear_value x | clear_value x)
    | with_reducible apply fePut_keeps | with_reducible apply fset_keeps | with_reducible apply feNext_keeps
    | with_reducible apply Keeps.ite | split | simp only [Keeps.update] | lift_lets | subst x | dsimp only

theorem feCmdWrite_keeps {β : Bool} {σ s : State} (h : Keeps β σ s) (fe : Fe) (data : Word) (temp : BitVec 16) :
    Keeps β σ (feCmdWrite fe data temp s) := by
  unfold feCmdWrite
  try lift_lets
  repeat' first
    | with_reducible assumption
    | (intro x; first
        | (have hx : Keeps β σ x := ?_); clear_value x | (have hx : Keeps β σ x.2 := ?_); clear_value x
        | (have hx : Keeps β σ x.2.2 := ?_); clear_value x | clear_value x)
    | with_reducible apply feReject_keeps | with_reducible apply fset_keeps | with_reducible apply calRequest_keeps
    | with_reducible apply feTarget_keeps | with_reducible apply Keeps.ite | split | simp only [Keeps.update]
    | lift_lets | subst x | dsimp only

theorem autoTuneBegin_keeps {β : Bool} {σ s : State} (h : Keeps β σ s) (fe : Fe) :
    Keeps β σ (autoTuneBegin fe s) := by
  unfold autoTuneBegin
  repeat' first
    | with_reducible assumption | with_reducible apply fePut_keeps | simp only [Keeps.update] | dsimp only | split

theorem feCtrlWrite_keeps {β : Bool} {σ s : State} (h : Keeps β σ s) (fe : Fe) (data : Word) :
    Keeps β σ (feCtrlWrite fe data s) := by
  unfold feCtrlWrite
  try lift_lets
  repeat' first
    | with_reducible assumption
    | (intro x; first
        | (have hx : Keeps β σ x := ?_); clear_value x | (have hx : Keeps β σ x.2 := ?_); clear_value x
        | (have hx : Keeps β σ x.2.2 := ?_); clear_value x | clear_value x)
    | with_reducible apply feReject_keeps | with_reducible apply fset_keeps | with_reducible apply wr_keeps
    | with_reducible apply autoTuneBegin_keeps | with_reducible apply Keeps.ite | split | simp only [Keeps.update]
    | lift_lets | subst x | dsimp only

theorem feCentreWrite_keeps {β : Bool} {σ s : State} (h : Keeps β σ s) (fe : Fe) (data : Word) :
    Keeps β σ (feCentreWrite fe data s) := by
  unfold feCentreWrite
  try lift_lets
  repeat' first
    | with_reducible assumption
    | (intro x; first
        | (have hx : Keeps β σ x := ?_); clear_value x | (have hx : Keeps β σ x.2 := ?_); clear_value x
        | (have hx : Keeps β σ x.2.2 := ?_); clear_value x | clear_value x)
    | with_reducible apply feReject_keeps | with_reducible apply fset_keeps | with_reducible apply wr_keeps
    | with_reducible apply fePut_keeps | with_reducible apply feNext_keeps | with_reducible apply Keeps.ite | split
    | simp only [Keeps.update] | lift_lets | subst x | dsimp only

theorem feCtlmapWrite_keeps {β : Bool} {σ s : State} (h : Keeps β σ s) (fe : Fe) (data : Word) :
    Keeps β σ (feCtlmapWrite fe data s) := by
  unfold feCtlmapWrite
  try lift_lets
  repeat' first
    | with_reducible assumption
    | (intro x; first
        | (have hx : Keeps β σ x := ?_); clear_value x | (have hx : Keeps β σ x.2 := ?_); clear_value x
        | (have hx : Keeps β σ x.2.2 := ?_); clear_value x | clear_value x)
    | with_reducible apply feCtlPins_keeps | with_reducible apply wr_keeps | split | simp only [Keeps.update]
    | lift_lets | subst x | dsimp only

theorem feTuneWrite_keeps {β : Bool} {σ s : State} (h : Keeps β σ s) (fe : Fe) (data : Word) :
    Keeps β σ (feTuneWrite fe data s) := by
  unfold feTuneWrite
  try lift_lets
  repeat' first
    | with_reducible assumption
    | (intro x; first
        | (have hx : Keeps β σ x := ?_); clear_value x | (have hx : Keeps β σ x.2 := ?_); clear_value x
        | (have hx : Keeps β σ x.2.2 := ?_); clear_value x | clear_value x)
    | with_reducible apply tuneGive_keeps | with_reducible apply fdxRetrain_keeps
    | with_reducible apply autoTuneBegin_keeps | with_reducible apply Keeps.ite | split | lift_lets | subst x
    | dsimp only

theorem fdxCfgWrite_keeps {β : Bool} {σ s : State} (h : Keeps β σ s) (fe : Fe) (data : Word) :
    Keeps β σ (fdxCfgWrite fe data s) := by
  unfold fdxCfgWrite
  try lift_lets
  repeat' first
    | with_reducible assumption
    | (intro x; first
        | (have hx : Keeps β σ x := ?_); clear_value x | (have hx : Keeps β σ x.2 := ?_); clear_value x
        | (have hx : Keeps β σ x.2.2 := ?_); clear_value x | clear_value x)
    | with_reducible apply feReject_keeps | with_reducible apply fset_keeps | with_reducible apply wr_keeps
    | with_reducible apply Keeps.ite | split | simp only [Keeps.update] | lift_lets | subst x | dsimp only

theorem calEnd_keeps {β : Bool} {σ s : State} (h : Keeps β σ s) (fe : Fe) (temp : BitVec 16) (fail : BitVec 5) (band
    : BitVec 6) (irr : Word) (dc : Word) (lol : Word) (bw : Word) :
    Keeps β σ (calEnd fe temp fail band irr dc lol bw s) := by
  unfold calEnd
  try lift_lets
  repeat' first
    | with_reducible assumption
    | (intro x; first
        | (have hx : Keeps β σ x := ?_); clear_value x | (have hx : Keeps β σ x.2 := ?_); clear_value x
        | (have hx : Keeps β σ x.2.2 := ?_); clear_value x | clear_value x)
    | with_reducible apply fePut_keeps | with_reducible apply fset_keeps | with_reducible apply wr_keeps
    | with_reducible apply raiseEvt_keeps | with_reducible apply Keeps.ite | split | simp only [Keeps.update]
    | lift_lets | subst x | dsimp only

theorem mismatchAlarm_keeps {β : Bool} {σ s : State} (h : Keeps β σ s) (fe : Fe) (mag : Nat) :
    Keeps β σ (mismatchAlarm fe mag s) := by
  unfold mismatchAlarm
  try lift_lets
  repeat' first
    | with_reducible assumption
    | (intro x; first
        | (have hx : Keeps β σ x := ?_); clear_value x | (have hx : Keeps β σ x.2 := ?_); clear_value x
        | (have hx : Keeps β σ x.2.2 := ?_); clear_value x | clear_value x)
    | with_reducible apply raiseEvt_keeps | with_reducible apply fset_keeps | with_reducible apply fePut_keeps
    | with_reducible apply Keeps.ite | split | simp only [Keeps.update] | lift_lets | subst x | dsimp only

theorem mismatch_keeps {β : Bool} {σ s : State} (h : Keeps β σ s) (fe : Fe) (mag : Nat) (phase : Nat) (fwd : Nat)
    (strong : Bool) :
    Keeps β σ (mismatch fe mag phase fwd strong s) := by
  unfold mismatch
  try lift_lets
  repeat' first
    | with_reducible assumption
    | (intro x; first
        | (have hx : Keeps β σ x := ?_); clear_value x | (have hx : Keeps β σ x.2 := ?_); clear_value x
        | (have hx : Keeps β σ x.2.2 := ?_); clear_value x | clear_value x)
    | with_reducible apply fset_keeps | with_reducible apply fnext_keeps | with_reducible apply mismatchAlarm_keeps
    | with_reducible apply autoTuneStep_keeps | with_reducible apply Keeps.ite | split | lift_lets | subst x
    | dsimp only

theorem radioOwner_keeps {β : Bool} {σ s : State} (h : Keeps β σ s) (lantern : Bool) :
    Keeps β σ (radioOwner lantern s) := by
  unfold radioOwner
  repeat' first
    | with_reducible assumption | with_reducible apply fset_keeps | dsimp only | split

theorem radioReclaim_keeps {β : Bool} {σ s : State} (h : Keeps β σ s) :
    Keeps β σ (radioReclaim s) := by
  unfold radioReclaim
  repeat' first
    | with_reducible assumption | with_reducible apply radioOwner_keeps | with_reducible apply fset_keeps
    | with_reducible apply Keeps.ite | split | dsimp only

theorem licTableWrite_keeps {β : Bool} {σ s : State} (h : Keeps β σ s) (k : Nat) (data : Word) :
    Keeps β σ (licTableWrite k data s) := by
  unfold licTableWrite
  repeat' first
    | with_reducible assumption | with_reducible apply stage_keeps | simp only [Keeps.update] | dsimp only | split

theorem licCmd_keeps {β : Bool} {σ s : State} (h : Keeps β σ s) (i : Init) (key : Nat) (check : Bool) (burn : Bool) :
    Keeps β σ (licCmd i key check burn s) := by
  unfold licCmd
  repeat' first
    | with_reducible assumption | with_reducible apply fset_keeps | with_reducible apply Keeps.ite | split
    | dsimp only

theorem execFeCmdTarget_keeps {β : Bool} {σ s : State} (h : Keeps β σ s) (i : Init) (fe : Fe) (data : Word) (temp :
    BitVec 16) :
    KeepsOut β σ (execFeCmdTarget i fe data temp s) := by
  unfold execFeCmdTarget
  repeat' first
    | with_reducible assumption | with_reducible apply KeepsOut.next | with_reducible apply doorStore_keeps
    | with_reducible apply feCmdWrite_keeps | (intro u; intros) | dsimp only | split

theorem execFeCmdCal_keeps {β : Bool} {σ s : State} (h : Keeps β σ s) (i : Init) (fe : Fe) :
    KeepsOut β σ (execFeCmdCal i fe s) := by
  unfold execFeCmdCal
  repeat' first
    | with_reducible assumption | with_reducible apply KeepsOut.next | with_reducible apply doorStore_keeps
    | with_reducible apply feCmdWrite_keeps | (intro u; intros) | dsimp only | split

theorem execFeCtrlWrite_keeps {β : Bool} {σ s : State} (h : Keeps β σ s) (i : Init) (fe : Fe) (data : Word) :
    KeepsOut β σ (execFeCtrlWrite i fe data s) := by
  unfold execFeCtrlWrite
  repeat' first
    | with_reducible assumption | with_reducible apply KeepsOut.next | with_reducible apply doorStore_keeps
    | with_reducible apply feCtrlWrite_keeps | (intro u; intros) | dsimp only | split

theorem execFeCentreWrite_keeps {β : Bool} {σ s : State} (h : Keeps β σ s) (i : Init) (fe : Fe) (data : Word) :
    KeepsOut β σ (execFeCentreWrite i fe data s) := by
  unfold execFeCentreWrite
  repeat' first
    | with_reducible assumption | with_reducible apply KeepsOut.next | with_reducible apply doorStore_keeps
    | with_reducible apply feCentreWrite_keeps | (intro u; intros) | dsimp only | split

theorem execFeTransitionDone_keeps {β : Bool} {σ s : State} (h : Keeps β σ s) (fe : Fe) (temp : BitVec 16) (rxt0 :
    Word64) :
    KeepsOut β σ (execFeTransitionDone fe temp rxt0 s) := by
  unfold execFeTransitionDone
  repeat' first
    | with_reducible assumption | with_reducible apply KeepsOut.next | with_reducible apply feDone_keeps
    | dsimp only | split

theorem execCalibrationSetEnd_keeps {β : Bool} {σ s : State} (h : Keeps β σ s) (fe : Fe) (temp : BitVec 16) (fail :
    BitVec 5) (band : BitVec 6) (irr : Word) (dc : Word) (lol : Word) (bw : Word) :
    KeepsOut β σ (execCalibrationSetEnd fe temp fail band irr dc lol bw s) := by
  unfold execCalibrationSetEnd
  repeat' first
    | with_reducible assumption | with_reducible apply KeepsOut.next | with_reducible apply calEnd_keeps
    | dsimp only | split

theorem execFeLockFail_keeps {β : Bool} {σ s : State} (h : Keeps β σ s) (fe : Fe) :
    KeepsOut β σ (execFeLockFail fe s) := by
  unfold execFeLockFail
  try lift_lets
  repeat' first
    | with_reducible assumption | with_reducible apply KeepsOut.next
    | (intro x; first
        | (have hx : Keeps β σ x := ?_); clear_value x | (have hx : Keeps β σ x.2 := ?_); clear_value x
        | (have hx : Keeps β σ x.2.2 := ?_); clear_value x | clear_value x)
    | with_reducible apply fePut_keeps | with_reducible apply fset_keeps | with_reducible apply feLock_keeps
    | with_reducible apply feBegin_keeps | with_reducible apply feNext_keeps | with_reducible apply feCtlPins_keeps
    | with_reducible apply Keeps.ite | split | simp only [Keeps.update] | lift_lets | subst x | dsimp only

theorem execDieTempSample_keeps {β : Bool} {σ s : State} (h : Keeps β σ s) (fe : Fe) (temp : BitVec 16) :
    KeepsOut β σ (execDieTempSample fe temp s) := by
  unfold execDieTempSample
  repeat' first
    | with_reducible assumption | with_reducible apply KeepsOut.next | with_reducible apply tempSample_keeps
    | with_reducible apply Keeps.ite | split | dsimp only

theorem execFeTuneWrite_keeps {β : Bool} {σ s : State} (h : Keeps β σ s) (i : Init) (fe : Fe) (data : Word) :
    KeepsOut β σ (execFeTuneWrite i fe data s) := by
  unfold execFeTuneWrite
  repeat' first
    | with_reducible assumption | with_reducible apply KeepsOut.next | with_reducible apply doorStore_keeps
    | with_reducible apply feTuneWrite_keeps | (intro u; intros) | dsimp only | split

theorem execFeMismatchMeasure_keeps {β : Bool} {σ s : State} (h : Keeps β σ s) (fe : Fe) (mag : BitVec 8) (phase :
    BitVec 6) (fwd : BitVec 8) (strong : Bool) :
    KeepsOut β σ (execFeMismatchMeasure fe mag phase fwd strong s) := by
  unfold execFeMismatchMeasure
  repeat' first
    | with_reducible assumption | with_reducible apply KeepsOut.next | with_reducible apply mismatch_keeps
    | dsimp only | split

theorem execRadioReclaim_keeps {β : Bool} {σ s : State} (h : Keeps β σ s) (i : Init) :
    KeepsOut β σ (execRadioReclaim i s) := by
  unfold execRadioReclaim
  repeat' first
    | with_reducible assumption | with_reducible apply KeepsOut.next | with_reducible apply doorStore_keeps
    | with_reducible apply radioReclaim_keeps | (intro u; intros) | dsimp only | split

theorem execLicTableWrite_keeps {β : Bool} {σ s : State} (h : Keeps β σ s) (i : Init) (offset : BitVec 9) (data :
    Word) :
    KeepsOut β σ (execLicTableWrite i offset data s) := by
  unfold execLicTableWrite
  repeat' first
    | with_reducible assumption | with_reducible apply KeepsOut.next | with_reducible apply doorStore_keeps
    | with_reducible apply licTableWrite_keeps | (intro u; intros) | dsimp only | split

theorem execLicCheck_keeps {β : Bool} {σ s : State} (h : Keeps β σ s) (i : Init) (key : BitVec 16) :
    KeepsOut β σ (execLicCheck i key s) := by
  unfold execLicCheck
  repeat' first
    | with_reducible assumption | with_reducible apply KeepsOut.next | with_reducible apply doorStore_keeps
    | with_reducible apply licCmd_keeps | (intro u; intros) | dsimp only | split

theorem execLicBurn_keeps {β : Bool} {σ s : State} (h : Keeps β σ s) (i : Init) (key : BitVec 16) (check : Bool) :
    KeepsOut β σ (execLicBurn i key check s) := by
  unfold execLicBurn
  repeat' first
    | with_reducible assumption | with_reducible apply KeepsOut.next | with_reducible apply doorStore_keeps
    | with_reducible apply licCmd_keeps | (intro u; intros) | dsimp only | split

theorem planPut_keeps {β : Bool} {σ s : State} (h : Keeps β σ s) (v : PlanState) :
    Keeps β σ (planPut v s) := by
  unfold planPut
  repeat' first
    | with_reducible assumption | simp only [Keeps.update] | dsimp only | split

theorem planWork_keeps {β : Bool} {σ s : State} (h : Keeps β σ s) (w : PlanWork) :
    Keeps β σ (planWork w s) := by
  unfold planWork
  try lift_lets
  repeat' first
    | with_reducible assumption
    | (intro x; first
        | (have hx : Keeps β σ x := ?_); clear_value x | (have hx : Keeps β σ x.2 := ?_); clear_value x
        | (have hx : Keeps β σ x.2.2 := ?_); clear_value x | clear_value x)
    | with_reducible apply fset_keeps | with_reducible apply planPut_keeps | split | simp only [Keeps.update]
    | lift_lets | subst x | dsimp only

theorem slotSet_keeps {β : Bool} {σ s : State} (h : Keeps β σ s) (k : Nat) (st : Nat) (seq : Nat) :
    Keeps β σ (slotSet k st seq s) := by
  unfold slotSet
  repeat' first
    | with_reducible assumption | with_reducible apply fset_keeps | dsimp only | split

theorem lastErr_keeps {β : Bool} {σ s : State} (h : Keeps β σ s) (code : Nat) :
    Keeps β σ (lastErr code s) := by
  unfold lastErr
  repeat' first
    | with_reducible assumption | with_reducible apply fset_keeps | dsimp only | split

theorem loadFail_keeps {β : Bool} {σ s : State} (h : Keeps β σ s) (code : Nat) :
    Keeps β σ (loadFail code s) := by
  unfold loadFail
  repeat' first
    | with_reducible assumption | with_reducible apply raiseEvt_keeps | with_reducible apply fset_keeps
    | with_reducible apply lastErr_keeps | dsimp only | split

theorem fabRefuse_keeps {β : Bool} {σ s : State} (h : Keeps β σ s) (code : Nat) :
    Keeps β σ (fabRefuse code s) := by
  unfold fabRefuse
  repeat' first
    | with_reducible assumption | with_reducible apply fset_keeps | with_reducible apply lastErr_keeps | dsimp only
    | split

theorem digestChange_keeps {β : Bool} {σ s : State} (h : Keeps β σ s) :
    Keeps β σ (digestChange s) := by
  unfold digestChange
  try lift_lets
  repeat' first
    | with_reducible assumption
    | (intro x; first
        | (have hx : Keeps β σ x := ?_); clear_value x | (have hx : Keeps β σ x.2 := ?_); clear_value x
        | (have hx : Keeps β σ x.2.2 := ?_); clear_value x | clear_value x)
    | with_reducible apply raiseEvt_keeps | with_reducible apply wrList_keeps | lift_lets | subst x | dsimp only
    | split

theorem slotJudge_keeps {β : Bool} {σ s : State} (h : Keeps β σ s) (k : Nat) :
    Keeps β σ (slotJudge k s).2 := by
  unfold slotJudge
  try lift_lets
  repeat' first
    | with_reducible assumption
    | (intro x; first
        | (have hx : Keeps β σ x := ?_); clear_value x | (have hx : Keeps β σ x.2 := ?_); clear_value x
        | (have hx : Keeps β σ x.2.2 := ?_); clear_value x | clear_value x)
    | with_reducible apply lastErr_keeps | with_reducible apply slotSet_keeps | with_reducible apply Keeps.ite
    | split | lift_lets | subst x | dsimp only

theorem domBit_keeps {β : Bool} {σ s : State} (h : Keeps β σ s) (f : Fld) (d : Nat) (on : Bool) :
    Keeps β σ (domBit f d on s) := by
  unfold domBit
  repeat' first
    | with_reducible assumption | with_reducible apply wr_keeps | dsimp only | split

theorem domainStop_keeps {β : Bool} {σ s : State} (h : Keeps β σ s) (p : Nat → Bool) (d : Nat) :
    Keeps β σ (domainStop p d s) := by
  unfold domainStop
  try lift_lets
  repeat' first
    | with_reducible assumption
    | (intro x; first
        | (have hx : Keeps β σ x := ?_); clear_value x | (have hx : Keeps β σ x.2 := ?_); clear_value x
        | (have hx : Keeps β σ x.2.2 := ?_); clear_value x | clear_value x)
    | with_reducible apply laneDomainStop_keeps | with_reducible apply laneCut_keeps
    | with_reducible apply domBit_keeps | with_reducible apply Keeps.ite
    | (with_reducible apply Keeps.foldl; intro u y hu) | split | lift_lets | subst x | dsimp only

theorem cancelClear_keeps {β : Bool} {σ s : State} (h : Keeps β σ s) (d : Nat) :
    Keeps β σ (cancelClear d s) := by
  unfold cancelClear
  repeat' first
    | with_reducible assumption | with_reducible apply fdxClear_keeps | with_reducible apply Keeps.ite
    | (with_reducible apply Keeps.foldl; intro u y hu) | split | dsimp only

theorem domainLoaded_keeps {β : Bool} {σ s : State} (h : Keeps β σ s) (newEpoch : Bool) (d : Nat) :
    Keeps β σ (domainLoaded newEpoch d s) := by
  unfold domainLoaded
  try lift_lets
  repeat' first
    | with_reducible assumption
    | (intro x; first
        | (have hx : Keeps β σ x := ?_); clear_value x | (have hx : Keeps β σ x.2 := ?_); clear_value x
        | (have hx : Keeps β σ x.2.2 := ?_); clear_value x | clear_value x)
    | with_reducible apply cancelClear_keeps | with_reducible apply pdSet_keeps | with_reducible apply domBit_keeps
    | with_reducible apply laneDomainStart_keeps | with_reducible apply domainStop_keeps
    | with_reducible apply raiseEvt_keeps | with_reducible apply fset_keeps | with_reducible apply lastErr_keeps
    | with_reducible apply Keeps.ite | (with_reducible apply Keeps.foldl; intro u y hu) | split
    | simp only [Keeps.update] | lift_lets | subst x | dsimp only

theorem loadsDone_keeps {β : Bool} {σ s : State} (h : Keeps β σ s) (event : Bool) (start : Bool) :
    Keeps β σ (loadsDone event start s) := by
  unfold loadsDone
  try lift_lets
  repeat' first
    | with_reducible assumption
    | (intro x; first
        | (have hx : Keeps β σ x := ?_); clear_value x | (have hx : Keeps β σ x.2 := ?_); clear_value x
        | (have hx : Keeps β σ x.2.2 := ?_); clear_value x | clear_value x)
    | with_reducible apply digestChange_keeps | with_reducible apply raiseEvt_keeps
    | with_reducible apply planWork_keeps | with_reducible apply planPut_keeps | with_reducible apply Keeps.ite
    | split | simp only [Keeps.update] | lift_lets | subst x | dsimp only

theorem loadNext_keeps {β : Bool} {σ s : State} (h : Keeps β σ s) (left : List Nat) (event : Bool) (start : Bool) :
    Keeps β σ (loadNext left event start s) := by
  unfold loadNext
  repeat' first
    | with_reducible assumption | with_reducible apply loadsDone_keeps | with_reducible apply planWork_keeps
    | with_reducible apply Keeps.ite | split | dsimp only

theorem domainLoadDone_keeps {β : Bool} {σ s : State} (h : Keeps β σ s) :
    Keeps β σ (domainLoadDone s) := by
  unfold domainLoadDone
  try lift_lets
  repeat' first
    | with_reducible assumption
    | (intro x; first
        | (have hx : Keeps β σ x := ?_); clear_value x | (have hx : Keeps β σ x.2 := ?_); clear_value x
        | (have hx : Keeps β σ x.2.2 := ?_); clear_value x | clear_value x)
    | with_reducible apply loadNext_keeps | with_reducible apply domainLoaded_keeps
    | with_reducible apply loadsDone_keeps | with_reducible apply planWork_keeps | with_reducible apply Keeps.ite
    | split | simp only [Keeps.update] | lift_lets | subst x | dsimp only

theorem routesReplace_keeps {β : Bool} {σ s : State} (h : Keeps β σ s) (new : List Word) :
    Keeps β σ (routesReplace new s) := by
  unfold routesReplace
  try lift_lets
  repeat' first
    | with_reducible assumption
    | (intro x; first
        | (have hx : Keeps β σ x := ?_); clear_value x | (have hx : Keeps β σ x.2 := ?_); clear_value x
        | (have hx : Keeps β σ x.2.2 := ?_); clear_value x | clear_value x)
    | with_reducible apply destSet_keeps | with_reducible apply wrList_keeps | with_reducible apply raiseEvt_keeps
    | (with_reducible apply Keeps.foldl; intro u y hu) | simp only [Keeps.update] | lift_lets | subst x | dsimp only
    | split

theorem planRoutes_keeps {β : Bool} {σ s : State} (h : Keeps β σ s) (new : List Word) :
    Keeps β σ (planRoutes new s) := by
  unfold planRoutes
  try lift_lets
  repeat' first
    | with_reducible assumption
    | (intro x; first
        | (have hx : Keeps β σ x := ?_); clear_value x | (have hx : Keeps β σ x.2 := ?_); clear_value x
        | (have hx : Keeps β σ x.2.2 := ?_); clear_value x | clear_value x)
    | with_reducible apply routesReplace_keeps | with_reducible apply phHomeChanged_keeps
    | with_reducible apply Keeps.ite | (with_reducible apply Keeps.foldl; intro u y hu) | split | lift_lets
    | subst x | dsimp only

theorem planLedger_keeps {β : Bool} {σ s : State} (h : Keeps β σ s) (p : Plan) :
    Keeps β σ (planLedger p s) := by
  unfold planLedger
  repeat' first
    | with_reducible assumption | with_reducible apply ledgerSet_keeps
    | (with_reducible apply Keeps.foldl; intro u y hu) | dsimp only | split

theorem planQueues_keeps {β : Bool} {σ s : State} (h : Keeps β σ s) (p : Plan) :
    Keeps β σ (planQueues p s) := by
  unfold planQueues
  repeat' first
    | with_reducible assumption | with_reducible apply queCarve_keeps | with_reducible apply jobsEnd_keeps
    | with_reducible apply Keeps.ite | (with_reducible apply Keeps.foldl; intro u y hu) | split | dsimp only

theorem parkStrays_keeps {σ s : State} (h : Keeps false σ s) :
    Keeps false σ (parkStrays s) := by
  unfold parkStrays
  repeat' first
    | with_reducible assumption | with_reducible apply parkCore_keeps | with_reducible apply Keeps.ite
    | (with_reducible apply Keeps.foldl; intro u y hu) | split | simp only [Keeps.update] | dsimp only

theorem planLanes_keeps {β : Bool} {σ s : State} (h : Keeps β σ s) (p : Plan) (ls : List Nat) :
    Keeps β σ (planLanes p ls s) := by
  unfold planLanes
  repeat' first
    | with_reducible assumption | with_reducible apply laneDefine_keeps | with_reducible apply laneUndefine_keeps
    | (with_reducible apply Keeps.foldl; intro u y hu) | split | simp only [Keeps.update] | dsimp only

theorem planLimits_keeps {β : Bool} {σ s : State} (h : Keeps β σ s) (p : Plan) :
    Keeps β σ (planLimits p s) := by
  unfold planLimits
  try lift_lets
  repeat' first
    | with_reducible assumption
    | (intro x; first
        | (have hx : Keeps β σ x := ?_); clear_value x | (have hx : Keeps β σ x.2 := ?_); clear_value x
        | (have hx : Keeps β σ x.2.2 := ?_); clear_value x | clear_value x)
    | with_reducible apply fset_keeps | with_reducible apply planPut_keeps
    | (with_reducible apply Keeps.foldl; intro u y hu) | simp only [Keeps.update] | lift_lets | subst x | dsimp only
    | split

theorem slotsSwitch_keeps {β : Bool} {σ s : State} (h : Keeps β σ s) (k : Nat) :
    Keeps β σ (slotsSwitch k s) := by
  unfold slotsSwitch
  try lift_lets
  repeat' first
    | with_reducible assumption
    | (intro x; first
        | (have hx : Keeps β σ x := ?_); clear_value x | (have hx : Keeps β σ x.2 := ?_); clear_value x
        | (have hx : Keeps β σ x.2.2 := ?_); clear_value x | clear_value x)
    | with_reducible apply fset_keeps | with_reducible apply Keeps.ite | split | lift_lets | subst x | dsimp only

theorem unusedOff_keeps {β : Bool} {σ s : State} (h : Keeps β σ s) (p : Plan) :
    Keeps β σ (unusedOff p s) := by
  unfold unusedOff
  repeat' first
    | with_reducible assumption | with_reducible apply pdSet_keeps | with_reducible apply domBit_keeps
    | with_reducible apply Keeps.ite | (with_reducible apply Keeps.foldl; intro u y hu) | split | dsimp only

theorem planSwitch_keeps {σ s : State} (h : Keeps false σ s) (k : Nat) (start : Bool) :
    Keeps false σ (planSwitch k start s) := by
  unfold planSwitch
  try lift_lets
  repeat' first
    | with_reducible assumption
    | (intro x; first
        | (have hx : Keeps false σ x := ?_); clear_value x | (have hx : Keeps false σ x.2 := ?_); clear_value x
        | (have hx : Keeps false σ x.2.2 := ?_); clear_value x | clear_value x)
    | with_reducible apply jobsEnd_keeps | with_reducible apply airAbort_keeps
    | with_reducible apply domainStop_keeps | with_reducible apply slotsSwitch_keeps
    | with_reducible apply planPut_keeps | with_reducible apply planLimits_keeps
    | with_reducible apply planQueues_keeps | with_reducible apply planLanes_keeps
    | with_reducible apply parkStrays_keeps | with_reducible apply planRoutes_keeps
    | with_reducible apply planLedger_keeps | with_reducible apply unusedOff_keeps
    | with_reducible apply digestChange_keeps | with_reducible apply vManage_keeps
    | with_reducible apply loadNext_keeps | with_reducible apply Keeps.ite
    | (with_reducible apply Keeps.foldl; intro u y hu) | split | simp only [Keeps.update] | lift_lets | subst x
    | dsimp only

theorem planSwitchDue_keeps {σ s : State} (h : Keeps false σ s) :
    Keeps false σ (planSwitchDue s) := by
  unfold planSwitchDue
  repeat' first
    | with_reducible assumption | with_reducible apply planSwitch_keeps | with_reducible apply Keeps.ite | split
    | simp only [Keeps.update] | dsimp only

theorem raiseFailed_keeps {β : Bool} {σ s : State} (h : Keeps β σ s) (tryOther : Nat → State → State) (k : Nat)
    (start : Bool) (htryOther : ∀ y0 u, Keeps β σ u → Keeps β σ (tryOther y0 u)) :
    Keeps β σ (raiseFailed tryOther k start s) := by
  unfold raiseFailed
  try lift_lets
  repeat' first
    | with_reducible assumption
    | (intro x; first
        | (have hx : Keeps β σ x := ?_); clear_value x | (have hx : Keeps β σ x.2 := ?_); clear_value x
        | (have hx : Keeps β σ x.2.2 := ?_); clear_value x | clear_value x)
    | apply htryOther | with_reducible apply planWork_keeps | with_reducible apply loadFail_keeps
    | with_reducible apply Keeps.ite | split | simp only [Keeps.update] | lift_lets | subst x | dsimp only

theorem planRaised_keeps {σ s : State} (h : Keeps false σ s) (k : Nat) (start : Bool) :
    Keeps false σ (planRaised k start s) := by
  unfold planRaised
  try lift_lets
  repeat' first
    | with_reducible assumption
    | (intro x; first
        | (have hx : Keeps false σ x := ?_); clear_value x | (have hx : Keeps false σ x.2 := ?_); clear_value x
        | (have hx : Keeps false σ x.2.2 := ?_); clear_value x | clear_value x)
    | with_reducible apply planSwitch_keeps | with_reducible apply planWork_keeps | with_reducible apply Keeps.ite
    | split | simp only [Keeps.update] | lift_lets | subst x | dsimp only

theorem planRaise_keeps {σ s : State} (h : Keeps false σ s) (tryOther : Nat → State → State) (k : Nat) (start :
    Bool) (htryOther : ∀ y0 u, Keeps false σ u → Keeps false σ (tryOther y0 u)) :
    Keeps false σ (planRaise tryOther k start s) := by
  unfold planRaise
  try lift_lets
  repeat' first
    | with_reducible assumption
    | (intro x; first
        | (have hx : Keeps false σ x := ?_); clear_value x | (have hx : Keeps false σ x.2 := ?_); clear_value x
        | (have hx : Keeps false σ x.2.2 := ?_); clear_value x | clear_value x)
    | apply htryOther | with_reducible apply planRaised_keeps | with_reducible apply raiseFailed_keeps
    | with_reducible apply vManage_keeps | with_reducible apply planWork_keeps | with_reducible apply Keeps.ite
    | (intro u; intros) | split | simp only [Keeps.update] | lift_lets | subst x | dsimp only

theorem startOther_keeps {σ s : State} (h : Keeps false σ s) (k : Nat) :
    Keeps false σ (startOther k s) := by
  unfold startOther
  try lift_lets
  repeat' first
    | with_reducible assumption
    | (intro x; first
        | (have hx : Keeps false σ x := ?_); clear_value x | (have hx : Keeps false σ x.2 := ?_); clear_value x
        | (have hx : Keeps false σ x.2.2 := ?_); clear_value x | clear_value x)
    | with_reducible apply planRaised_keeps | with_reducible apply Keeps.ite | split | lift_lets | subst x
    | dsimp only

theorem raiseStep_keeps {σ s : State} (h : Keeps false σ s) :
    Keeps false σ (raiseStep s) := by
  unfold raiseStep
  repeat' first
    | with_reducible assumption | with_reducible apply planRaised_keeps | with_reducible apply raiseFailed_keeps
    | with_reducible apply startOther_keeps | with_reducible apply Keeps.ite | (intro u; intros) | split
    | simp only [Keeps.update] | dsimp only

theorem planChecked_keeps {σ s : State} (h : Keeps false σ s) :
    Keeps false σ (planChecked s) := by
  unfold planChecked
  try lift_lets
  repeat' first
    | with_reducible assumption
    | (intro x; first
        | (have hx : Keeps false σ x := ?_); clear_value x | (have hx : Keeps false σ x.2 := ?_); clear_value x
        | (have hx : Keeps false σ x.2.2 := ?_); clear_value x | clear_value x)
    | with_reducible apply slotJudge_keeps | with_reducible apply planRaise_keeps
    | with_reducible apply planWork_keeps | with_reducible apply loadFail_keeps
    | with_reducible apply raiseEvt_keeps | with_reducible apply Keeps.ite | (intro u; intros) | split
    | simp only [Keeps.update] | lift_lets | subst x | dsimp only

theorem planStart_keeps {σ s : State} (h : Keeps false σ s) :
    Keeps false σ (planStart s) := by
  unfold planStart
  try lift_lets
  repeat' first
    | with_reducible assumption
    | (intro x; first
        | (have hx : Keeps false σ x := ?_); clear_value x | (have hx : Keeps false σ x.2 := ?_); clear_value x
        | (have hx : Keeps false σ x.2.2 := ?_); clear_value x | clear_value x)
    | with_reducible apply slotJudge_keeps | with_reducible apply loadFail_keeps
    | with_reducible apply planRaise_keeps | with_reducible apply startOther_keeps | with_reducible apply fset_keeps
    | with_reducible apply Keeps.ite | (intro u; intros) | split | lift_lets | subst x | dsimp only

theorem fabCmd_keeps {β : Bool} {σ s : State} (h : Keeps β σ s) (data : Word) :
    Keeps β σ (fabCmd data s) := by
  unfold fabCmd
  try lift_lets
  repeat' first
    | with_reducible assumption
    | (intro x; first
        | (have hx : Keeps β σ x := ?_); clear_value x | (have hx : Keeps β σ x.2 := ?_); clear_value x
        | (have hx : Keeps β σ x.2.2 := ?_); clear_value x | clear_value x)
    | with_reducible apply fset_keeps | with_reducible apply fabRefuse_keeps | with_reducible apply planWork_keeps
    | with_reducible apply domainStop_keeps | with_reducible apply Keeps.ite | split | simp only [Keeps.update]
    | lift_lets | subst x | dsimp only

theorem scrubRead_keeps {β : Bool} {σ s : State} (h : Keeps β σ s) (upset : Bool) :
    Keeps β σ (scrubRead upset s) := by
  unfold scrubRead
  try lift_lets
  repeat' first
    | with_reducible assumption
    | (intro x; first
        | (have hx : Keeps β σ x := ?_); clear_value x | (have hx : Keeps β σ x.2 := ?_); clear_value x
        | (have hx : Keeps β σ x.2.2 := ?_); clear_value x | clear_value x)
    | with_reducible apply planPut_keeps | with_reducible apply fnext_keeps | with_reducible apply fset_keeps
    | with_reducible apply fcount_keeps | with_reducible apply planWork_keeps
    | with_reducible apply domainStop_keeps | with_reducible apply raiseEvt_keeps | with_reducible apply Keeps.ite
    | split | simp only [Keeps.update] | lift_lets | subst x | dsimp only

theorem licBurnDone_keeps {β : Bool} {σ s : State} (h : Keeps β σ s) (readBack : Bool) :
    Keeps β σ (licBurnDone readBack s) := by
  unfold licBurnDone
  try lift_lets
  repeat' first
    | with_reducible assumption
    | (intro x; first
        | (have hx : Keeps β σ x := ?_); clear_value x | (have hx : Keeps β σ x.2 := ?_); clear_value x
        | (have hx : Keeps β σ x.2.2 := ?_); clear_value x | clear_value x)
    | with_reducible apply fset_keeps | with_reducible apply drawFree_keeps
    | with_reducible apply digestChange_keeps | with_reducible apply Keeps.ite | split | simp only [Keeps.update]
    | lift_lets | subst x | dsimp only

theorem execFabActivate_keeps {β : Bool} {σ s : State} (h : Keeps β σ s) (i : Init) (key : BitVec 16) (slot : BitVec
    1) :
    KeepsOut β σ (execFabActivate i key slot s) := by
  unfold execFabActivate
  repeat' first
    | with_reducible assumption | with_reducible apply KeepsOut.next | with_reducible apply doorStore_keeps
    | with_reducible apply fabCmd_keeps | (intro u; intros) | dsimp only | split

theorem execFabCheck_keeps {β : Bool} {σ s : State} (h : Keeps β σ s) (i : Init) (key : BitVec 16) (slot : BitVec 1) :
    KeepsOut β σ (execFabCheck i key slot s) := by
  unfold execFabCheck
  repeat' first
    | with_reducible assumption | with_reducible apply KeepsOut.next | with_reducible apply doorStore_keeps
    | with_reducible apply fabCmd_keeps | (intro u; intros) | dsimp only | split

theorem execFabReload_keeps {β : Bool} {σ s : State} (h : Keeps β σ s) (i : Init) (key : BitVec 16) (domain : BitVec
    5) :
    KeepsOut β σ (execFabReload i key domain s) := by
  unfold execFabReload
  repeat' first
    | with_reducible assumption | with_reducible apply KeepsOut.next | with_reducible apply doorStore_keeps
    | with_reducible apply fabCmd_keeps | (intro u; intros) | dsimp only | split

theorem execPlanCheckDone_keeps {σ s : State} (h : Keeps false σ s) :
    KeepsOut false σ (execPlanCheckDone s) := by
  unfold execPlanCheckDone
  repeat' first
    | with_reducible assumption | with_reducible apply KeepsOut.next | with_reducible apply planChecked_keeps
    | dsimp only | split

theorem execPlanSwitch_keeps {σ s : State} (h : Keeps false σ s) :
    KeepsOut false σ (execPlanSwitch s) := by
  unfold execPlanSwitch
  repeat' first
    | with_reducible assumption | with_reducible apply KeepsOut.next | with_reducible apply planSwitchDue_keeps
    | dsimp only | split

theorem execDomainLoadDone_keeps {β : Bool} {σ s : State} (h : Keeps β σ s) :
    KeepsOut β σ (execDomainLoadDone s) := by
  unfold execDomainLoadDone
  repeat' first
    | with_reducible assumption | with_reducible apply KeepsOut.next | with_reducible apply domainLoadDone_keeps
    | dsimp only | split

theorem execScrubTileRead_keeps {β : Bool} {σ s : State} (h : Keeps β σ s) (upset : Bool) :
    KeepsOut β σ (execScrubTileRead upset s) := by
  unfold execScrubTileRead
  repeat' first
    | with_reducible assumption | with_reducible apply KeepsOut.next | with_reducible apply scrubRead_keeps
    | dsimp only | split

theorem execLicBurnDone_keeps {β : Bool} {σ s : State} (h : Keeps β σ s) (readBack : Bool) :
    KeepsOut β σ (execLicBurnDone readBack s) := by
  unfold execLicBurnDone
  repeat' first
    | with_reducible assumption | with_reducible apply KeepsOut.next | with_reducible apply licBurnDone_keeps
    | dsimp only | split

theorem shadowPut_keeps {β : Bool} {σ s : State} (h : Keeps β σ s) (i : Init) (a : Nat) (v : Word) :
    Keeps β σ (shadowPut i a v s) := by
  unfold shadowPut
  repeat' first
    | with_reducible assumption | simp only [Keeps.update] | dsimp only | split

theorem capturePut_keeps {β : Bool} {σ s : State} (h : Keeps β σ s) (i : Init) (a : Nat) (v : Word) :
    Keeps β σ (capturePut i a v s) := by
  unfold capturePut
  repeat' first
    | with_reducible assumption | simp only [Keeps.update] | dsimp only | split

theorem stagedPut_keeps {β : Bool} {σ s : State} (h : Keeps β σ s) (i : Init) (a : Nat) (v : Word) :
    Keeps β σ (stagedPut i a v s) := by
  unfold stagedPut
  repeat' first
    | with_reducible assumption | simp only [Keeps.update] | dsimp only | split

theorem stagedTake_keeps {β : Bool} {σ s : State} (h : Keeps β σ s) (i : Init) (a : Nat) (high : Word) :
    Keeps β σ (stagedTake i a high s).2 := by
  unfold stagedTake
  repeat' first
    | with_reducible assumption | with_reducible apply stagedPut_keeps | dsimp only | split

theorem dropCaptures_keeps {β : Bool} {σ s : State} (h : Keeps β σ s) (p : Nat → Bool) :
    Keeps β σ (dropCaptures p s) := by
  unfold dropCaptures
  repeat' first
    | with_reducible assumption | simp only [Keeps.update] | dsimp only | split

end Sys2Proof.Machine
end

