-- ==== Sys2Proof/Laws/KeepsLink.lean ====
section
/-!
SUPPORT. The operations of the files imported here keep the queue and the canonical forms, and those that store
nothing keep the memories: one lemma per operation, by the operations it calls.
-/

namespace Sys2Proof.Machine

open Reg

theorem attemptStart_keeps {β : Bool} {σ s : State} (h : Keeps β σ s) (r : Nat) (j : Job) (t : Nat) (first : Bool) :
    Keeps β σ (attemptStart r j t first s).2 := by
  unfold attemptStart
  try lift_lets
  repeat' first
    | with_reducible assumption
    | (intro x; first
        | (have hx : Keeps β σ x := ?_); clear_value x | (have hx : Keeps β σ x.2 := ?_); clear_value x
        | (have hx : Keeps β σ x.2.2 := ?_); clear_value x | clear_value x)
    | with_reducible apply drawFree_keeps | with_reducible apply Keeps.ite | split | simp only [Keeps.update]
    | lift_lets | subst x | dsimp only

theorem jobAccept_keeps {β : Bool} {σ s : State} (h : Keeps β σ s) (r : Nat) (k : Nat) (j : Job) :
    Keeps β σ (jobAccept r k j s) := by
  unfold jobAccept
  try lift_lets
  repeat' first
    | with_reducible assumption
    | (intro x; first
        | (have hx : Keeps β σ x := ?_); clear_value x | (have hx : Keeps β σ x.2 := ?_); clear_value x
        | (have hx : Keeps β σ x.2.2 := ?_); clear_value x
        | (have hf : ∀ u, Keeps β σ u → Keeps β σ (x u) := ?_); clear_value x
        | (have hf : ∀ a u, Keeps β σ u → Keeps β σ (x a u) := ?_); clear_value x
        | (have hf : ∀ a b u, Keeps β σ u → Keeps β σ (x a b u) := ?_); clear_value x | clear_value x)
    | with_reducible apply hf | (intro u; intros) | with_reducible apply attemptStart_keeps
    | with_reducible apply wr_keeps | with_reducible apply fset_keeps | with_reducible apply queClaim_keeps
    | with_reducible apply jobPut_keeps | with_reducible apply dutyChange_keeps
    | with_reducible apply armedShow_keeps | with_reducible apply Keeps.ite | (intro u; intros) | split
    | simp only [Keeps.update] | lift_lets | subst x | dsimp only

theorem jobRefuse_keeps {β : Bool} {σ s : State} (h : Keeps β σ s) (r : Nat) (k : Nat) (code : Nat) (j : Job) :
    Keeps β σ (jobRefuse r k code j s) := by
  unfold jobRefuse
  try lift_lets
  repeat' first
    | with_reducible assumption
    | (intro x; first
        | (have hx : Keeps β σ x := ?_); clear_value x | (have hx : Keeps β σ x.2 := ?_); clear_value x
        | (have hx : Keeps β σ x.2.2 := ?_); clear_value x | clear_value x)
    | with_reducible apply wr_keeps | with_reducible apply fset_keeps | with_reducible apply linkNote_keeps
    | with_reducible apply jobDone_keeps | with_reducible apply jobPut_keeps | with_reducible apply Keeps.ite
    | split | lift_lets | subst x | dsimp only

theorem jobChecked_keeps {β : Bool} {σ s : State} (h : Keeps β σ s) (r : Nat) (k : Nat) (j0 : Job) (now : Nat) :
    Keeps β σ (jobChecked r k j0 now s) := by
  unfold jobChecked
  try lift_lets
  repeat' first
    | with_reducible assumption
    | (intro x; first
        | (have hx : Keeps β σ x := ?_); clear_value x | (have hx : Keeps β σ x.2 := ?_); clear_value x
        | (have hx : Keeps β σ x.2.2 := ?_); clear_value x | clear_value x)
    | with_reducible apply jobRefuse_keeps | with_reducible apply jobAccept_keeps | with_reducible apply Keeps.ite
    | split | simp only [Keeps.update] | lift_lets | subst x | dsimp only

theorem jobPostWrite_keeps {β : Bool} {σ s : State} (h : Keeps β σ s) (r : Nat) (data : Word) (now : Nat) :
    Keeps β σ (jobPostWrite r data now s) := by
  unfold jobPostWrite
  try lift_lets
  repeat' first
    | with_reducible assumption
    | (intro x; first
        | (have hx : Keeps β σ x := ?_); clear_value x | (have hx : Keeps β σ x.2 := ?_); clear_value x
        | (have hx : Keeps β σ x.2.2 := ?_); clear_value x | clear_value x)
    | with_reducible apply fset_keeps | with_reducible apply jobDone_keeps | with_reducible apply jobChecked_keeps
    | with_reducible apply Keeps.ite | split | lift_lets | subst x | dsimp only

theorem stagingTake_keeps {β : Bool} {σ s : State} (h : Keeps β σ s) (fe : Fe) :
    Keeps β σ (stagingTake fe s) := by
  unfold stagingTake
  repeat' first
    | with_reducible assumption | with_reducible apply jobPut_keeps | with_reducible apply Keeps.ite
    | (with_reducible apply Keeps.foldl; intro u y hu) | split | simp only [Keeps.update] | dsimp only

theorem jobPrepare_keeps {β : Bool} {σ s : State} (h : Keeps β σ s) (r : Nat) (k : Nat) (agrees : Bool) :
    Keeps β σ (jobPrepare r k agrees s) := by
  unfold jobPrepare
  try lift_lets
  repeat' first
    | with_reducible assumption
    | (intro x; first
        | (have hx : Keeps β σ x := ?_); clear_value x | (have hx : Keeps β σ x.2 := ?_); clear_value x
        | (have hx : Keeps β σ x.2.2 := ?_); clear_value x | clear_value x)
    | with_reducible apply stagingTake_keeps | with_reducible apply jobDone_keeps
    | with_reducible apply fcDraw_keeps | with_reducible apply jobPut_keeps | with_reducible apply Keeps.ite | split
    | simp only [Keeps.update] | lift_lets | subst x | dsimp only

theorem jobFill_keeps {β : Bool} {σ s : State} (h : Keeps β σ s) (r : Nat) (k : Nat) :
    Keeps β σ (jobFill r k s) := by
  unfold jobFill
  repeat' first
    | with_reducible assumption | with_reducible apply jobDone_keeps | with_reducible apply jobPut_keeps
    | with_reducible apply Keeps.ite | split | simp only [Keeps.update] | dsimp only

theorem ackMiss_keeps {β : Bool} {σ s : State} (h : Keeps β σ s) (fe : Fe) :
    Keeps β σ (ackMiss fe s) := by
  unfold ackMiss
  try lift_lets
  repeat' first
    | with_reducible assumption
    | (intro x; first
        | (have hx : Keeps β σ x := ?_); clear_value x | (have hx : Keeps β σ x.2 := ?_); clear_value x
        | (have hx : Keeps β σ x.2.2 := ?_); clear_value x | clear_value x)
    | with_reducible apply fcount_keeps | with_reducible apply ackPut_keeps | with_reducible apply linkNote_keeps
    | with_reducible apply Keeps.ite | split | lift_lets | subst x | dsimp only

theorem jobBusy_keeps {β : Bool} {σ s : State} (h : Keeps β σ s) (r : Nat) (k : Nat) (j : Job) (cca : Nat) (tick :
    Nat) :
    Keeps β σ (jobBusy r k j cca tick s) := by
  unfold jobBusy
  try lift_lets
  repeat' first
    | with_reducible assumption
    | (intro x; first
        | (have hx : Keeps β σ x := ?_); clear_value x | (have hx : Keeps β σ x.2 := ?_); clear_value x
        | (have hx : Keeps β σ x.2.2 := ?_); clear_value x | clear_value x)
    | with_reducible apply jobDone_keeps | with_reducible apply jobPut_keeps | with_reducible apply drawFree_keeps
    | with_reducible apply Keeps.ite | split | simp only [Keeps.update] | lift_lets | subst x | dsimp only

theorem roundPut_keeps {β : Bool} {σ s : State} (h : Keeps β σ s) (fe : Fe) (r : Nat) :
    Keeps β σ (roundPut fe r s) := by
  unfold roundPut
  repeat' first
    | with_reducible assumption | with_reducible apply linkPut_keeps | split | simp only [Keeps.update] | dsimp only

theorem jobDecide_keeps {β : Bool} {σ s : State} (h : Keeps β σ s) (r : Nat) (k : Nat) (found : List EdReading)
    (late : Bool) :
    Keeps β σ (jobDecide r k found late s) := by
  unfold jobDecide
  try lift_lets
  repeat' first
    | with_reducible assumption
    | (intro x; first
        | (have hx : Keeps β σ x := ?_); clear_value x | (have hx : Keeps β σ x.2 := ?_); clear_value x
        | (have hx : Keeps β σ x.2.2 := ?_); clear_value x | clear_value x)
    | with_reducible apply roundPut_keeps | with_reducible apply jobPut_keeps | with_reducible apply jobBusy_keeps
    | with_reducible apply Keeps.ite | split | simp only [Keeps.update] | lift_lets | subst x | dsimp only

theorem ackDecide_keeps {β : Bool} {σ s : State} (h : Keeps β σ s) (fe : Fe) (found : List EdReading) (late : Bool) :
    Keeps β σ (ackDecide fe found late s) := by
  unfold ackDecide
  repeat' first
    | with_reducible assumption | with_reducible apply ackPut_keeps | with_reducible apply ackMiss_keeps
    | with_reducible apply Keeps.ite | split | simp only [Keeps.update] | dsimp only

theorem decideOne_keeps {β : Bool} {σ s : State} (h : Keeps β σ s) (d : Decision) :
    Keeps β σ (decideOne s d) := by
  unfold decideOne
  repeat' first
    | with_reducible assumption | with_reducible apply jobDecide_keeps | with_reducible apply ackDecide_keeps
    | split | simp only [Keeps.update] | dsimp only

theorem decideAll_keeps {β : Bool} {σ s : State} (h : Keeps β σ s) (fe : Fe) (found : List Decision) :
    Keeps β σ (decideAll fe found s) := by
  unfold decideAll
  try lift_lets
  repeat' first
    | with_reducible assumption
    | (intro x; first
        | (have hx : Keeps β σ x := ?_); clear_value x | (have hx : Keeps β σ x.2 := ?_); clear_value x
        | (have hx : Keeps β σ x.2.2 := ?_); clear_value x | clear_value x)
    | with_reducible apply decideOne_keeps | (with_reducible apply Keeps.foldl; intro u y hu) | split
    | simp only [Keeps.update] | lift_lets | subst x | dsimp only

theorem txStart_keeps {β : Bool} {σ s : State} (h : Keeps β σ s) (fe : Fe) (who : Sender) (entry : Nat) (phy : Nat)
    (frame : Nat) (centre : Int) (req : Int) (psdu : List Byte) (tick : Nat) (temp : BitVec 16) (vpa : Nat) :
    Keeps β σ (txStart fe who entry phy frame centre req psdu tick temp vpa s) := by
  unfold txStart
  try lift_lets
  repeat' first
    | with_reducible assumption
    | (intro x; first
        | (have hx : Keeps β σ x := ?_); clear_value x | (have hx : Keeps β σ x.2 := ?_); clear_value x
        | (have hx : Keeps β σ x.2.2 := ?_); clear_value x | clear_value x)
    | with_reducible apply txPowerSet_keeps | with_reducible apply tempSample_keeps
    | with_reducible apply tuneApply_keeps | with_reducible apply fset_keeps | with_reducible apply fePut_keeps
    | with_reducible apply feCtlPins_keeps | with_reducible apply airPut_keeps | with_reducible apply fdxStart_keeps
    | with_reducible apply knkDeaf_keeps | with_reducible apply Keeps.ite | split | simp only [Keeps.update]
    | lift_lets | subst x | dsimp only

theorem jobTransit_keeps {β : Bool} {σ s : State} (h : Keeps β σ s) (r : Nat) (k : Nat) (tick : Nat) (temp : BitVec
    16) (vpa : Nat) :
    Keeps β σ (jobTransit r k tick temp vpa s) := by
  unfold jobTransit
  try lift_lets
  repeat' first
    | with_reducible assumption
    | (intro x; first
        | (have hx : Keeps β σ x := ?_); clear_value x | (have hx : Keeps β σ x.2 := ?_); clear_value x
        | (have hx : Keeps β σ x.2.2 := ?_); clear_value x | clear_value x)
    | with_reducible apply armedShow_keeps | with_reducible apply fset_keeps | with_reducible apply jobDone_keeps
    | with_reducible apply jobPut_keeps | with_reducible apply txStart_keeps | with_reducible apply wr64_keeps
    | with_reducible apply Keeps.ite | split | simp only [Keeps.update] | lift_lets | subst x | dsimp only

theorem ackTransit_keeps {β : Bool} {σ s : State} (h : Keeps β σ s) (fe : Fe) (tick : Nat) (temp : BitVec 16) (vpa :
    Nat) :
    Keeps β σ (ackTransit fe tick temp vpa s) := by
  unfold ackTransit
  try lift_lets
  repeat' first
    | with_reducible assumption
    | (intro x; first
        | (have hx : Keeps β σ x := ?_); clear_value x | (have hx : Keeps β σ x.2 := ?_); clear_value x
        | (have hx : Keeps β σ x.2.2 := ?_); clear_value x | clear_value x)
    | with_reducible apply ackMiss_keeps | with_reducible apply txStart_keeps | with_reducible apply Keeps.ite
    | split | simp only [Keeps.update] | lift_lets | subst x | dsimp only

theorem txReturn_keeps {β : Bool} {σ s : State} (h : Keeps β σ s) (fe : Fe) (temp : BitVec 16) :
    Keeps β σ (txReturn fe temp s) := by
  unfold txReturn
  try lift_lets
  repeat' first
    | with_reducible assumption
    | (intro x; first
        | (have hx : Keeps β σ x := ?_); clear_value x | (have hx : Keeps β σ x.2 := ?_); clear_value x
        | (have hx : Keeps β σ x.2.2 := ?_); clear_value x | clear_value x)
    | with_reducible apply feNext_keeps | with_reducible apply feCtlPins_keeps | with_reducible apply fset_keeps
    | with_reducible apply fePut_keeps | with_reducible apply feBegin_keeps
    | with_reducible apply residenceEnd_keeps | with_reducible apply Keeps.ite | split | simp only [Keeps.update]
    | lift_lets | subst x | dsimp only

theorem txRelease_keeps {β : Bool} {σ s : State} (h : Keeps β σ s) (fe : Fe) (tick : Nat) (temp : BitVec 16) :
    Keeps β σ (txRelease fe tick temp s) := by
  unfold txRelease
  try lift_lets
  repeat' first
    | with_reducible assumption
    | (intro x; first
        | (have hx : Keeps β σ x := ?_); clear_value x | (have hx : Keeps β σ x.2 := ?_); clear_value x
        | (have hx : Keeps β σ x.2.2 := ?_); clear_value x | clear_value x)
    | with_reducible apply fdxStop_keeps | with_reducible apply fset_keeps | with_reducible apply airPut_keeps
    | with_reducible apply fePut_keeps | with_reducible apply chzPut_keeps | with_reducible apply txReturn_keeps
    | with_reducible apply knkHear_keeps | with_reducible apply Keeps.ite | split | simp only [Keeps.update]
    | lift_lets | subst x | dsimp only

theorem jobFrameDone_keeps {β : Bool} {σ s : State} (h : Keeps β σ s) (r : Nat) (k : Nat) (us : Nat) (f : AirFrame) :
    Keeps β σ (jobFrameDone r k us f s) := by
  unfold jobFrameDone
  try lift_lets
  repeat' first
    | with_reducible assumption
    | (intro x; first
        | (have hx : Keeps β σ x := ?_); clear_value x | (have hx : Keeps β σ x.2 := ?_); clear_value x
        | (have hx : Keeps β σ x.2.2 := ?_); clear_value x | clear_value x)
    | with_reducible apply dutyCharge_keeps | with_reducible apply dutyChange_keeps
    | with_reducible apply dutyAdd_keeps | with_reducible apply jobPut_keeps | with_reducible apply fset_keeps
    | with_reducible apply jobDone_keeps | with_reducible apply Keeps.ite | (intro u; intros) | split
    | simp only [Keeps.update] | lift_lets | subst x | dsimp only

theorem txRampUp_keeps {β : Bool} {σ s : State} (h : Keeps β σ s) (fe : Fe) (tick : Nat) (fill : Nat) :
    Keeps β σ (txRampUp fe tick fill s) := by
  unfold txRampUp
  try lift_lets
  repeat' first
    | with_reducible assumption
    | (intro x; first
        | (have hx : Keeps β σ x := ?_); clear_value x | (have hx : Keeps β σ x.2 := ?_); clear_value x
        | (have hx : Keeps β σ x.2.2 := ?_); clear_value x | clear_value x)
    | with_reducible apply txRelease_keeps | with_reducible apply jobFrameDone_keeps
    | with_reducible apply ackMiss_keeps | with_reducible apply airPut_keeps | with_reducible apply fePut_keeps
    | with_reducible apply Keeps.ite | split | simp only [Keeps.update] | lift_lets | subst x | dsimp only

theorem txFrameEnd_keeps {β : Bool} {σ s : State} (h : Keeps β σ s) (fe : Fe) (tick : Nat) (radiated : Nat) (temp :
    BitVec 16) :
    Keeps β σ (txFrameEnd fe tick radiated temp s) := by
  unfold txFrameEnd
  try lift_lets
  repeat' first
    | with_reducible assumption
    | (intro x; first
        | (have hx : Keeps β σ x := ?_); clear_value x | (have hx : Keeps β σ x.2 := ?_); clear_value x
        | (have hx : Keeps β σ x.2.2 := ?_); clear_value x | clear_value x)
    | with_reducible apply txRelease_keeps | with_reducible apply jobFrameDone_keeps
    | with_reducible apply dutyCharge_keeps | with_reducible apply ackPut_keeps | split | simp only [Keeps.update]
    | lift_lets | subst x | dsimp only

theorem jobNoAck_keeps {β : Bool} {σ s : State} (h : Keeps β σ s) (r : Nat) (k : Nat) (tick : Nat) (j : Job) :
    Keeps β σ (jobNoAck r k tick j s) := by
  unfold jobNoAck
  try lift_lets
  repeat' first
    | with_reducible assumption
    | (intro x; first
        | (have hx : Keeps β σ x := ?_); clear_value x | (have hx : Keeps β σ x.2 := ?_); clear_value x
        | (have hx : Keeps β σ x.2.2 := ?_); clear_value x | clear_value x)
    | with_reducible apply attemptStart_keeps | with_reducible apply dutyChange_keeps
    | with_reducible apply jobPut_keeps | with_reducible apply jobDone_keeps | with_reducible apply Keeps.ite
    | (intro u; intros) | split | simp only [Keeps.update] | lift_lets | subst x | dsimp only

theorem feLockLost_keeps {β : Bool} {σ s : State} (h : Keeps β σ s) (fe : Fe) :
    Keeps β σ (feLockLost fe s) := by
  unfold feLockLost
  try lift_lets
  repeat' first
    | with_reducible assumption
    | (intro x; first
        | (have hx : Keeps β σ x := ?_); clear_value x | (have hx : Keeps β σ x.2 := ?_); clear_value x
        | (have hx : Keeps β σ x.2.2 := ?_); clear_value x | clear_value x)
    | with_reducible apply raiseEvt_keeps | with_reducible apply fset_keeps | with_reducible apply fcount_keeps
    | with_reducible apply calRequest_keeps | with_reducible apply feLock_keeps | with_reducible apply fePut_keeps
    | with_reducible apply airAbort_keeps | with_reducible apply feNext_keeps | with_reducible apply Keeps.ite
    | split | simp only [Keeps.update] | lift_lets | subst x | dsimp only

theorem feXrefFail_keeps {β : Bool} {σ s : State} (h : Keeps β σ s) (fe : Fe) :
    Keeps β σ (feXrefFail s fe) := by
  unfold feXrefFail
  try lift_lets
  repeat' first
    | with_reducible assumption
    | (intro x; first
        | (have hx : Keeps β σ x := ?_); clear_value x | (have hx : Keeps β σ x.2 := ?_); clear_value x
        | (have hx : Keeps β σ x.2.2 := ?_); clear_value x | clear_value x)
    | with_reducible apply raiseEvt_keeps | with_reducible apply fset_keeps | with_reducible apply feSleepNow_keeps
    | with_reducible apply airAbort_keeps | lift_lets | subst x | dsimp only | split

theorem nbrPut_keeps {β : Bool} {σ s : State} (h : Keeps β σ s) (n : Nat) (v : Option Neighbour) :
    Keeps β σ (nbrPut n v s) := by
  unfold nbrPut
  try lift_lets
  repeat' first
    | with_reducible assumption
    | (intro x; first
        | (have hx : Keeps β σ x := ?_); clear_value x | (have hx : Keeps β σ x.2 := ?_); clear_value x
        | (have hx : Keeps β σ x.2.2 := ?_); clear_value x | clear_value x)
    | with_reducible apply fset_keeps | with_reducible apply linkPut_keeps | simp only [Keeps.update] | lift_lets
    | subst x | dsimp only | split

theorem nbrFull_keeps {β : Bool} {σ s : State} (h : Keeps β σ s) :
    Keeps β σ (nbrFull s) := by
  unfold nbrFull
  repeat' first
    | with_reducible assumption | with_reducible apply linkNote_keeps | with_reducible apply fset_keeps
    | with_reducible apply Keeps.ite | split | dsimp only

theorem nbrResult_keeps {β : Bool} {σ s : State} (h : Keeps β σ s) (res : Nat) (found : Option Nat) :
    Keeps β σ (nbrResult res found s) := by
  unfold nbrResult
  try lift_lets
  repeat' first
    | with_reducible assumption
    | (intro x; first
        | (have hx : Keeps β σ x := ?_); clear_value x | (have hx : Keeps β σ x.2 := ?_); clear_value x
        | (have hx : Keeps β σ x.2.2 := ?_); clear_value x | clear_value x)
    | with_reducible apply fset_keeps | split | simp only [Keeps.update] | lift_lets | subst x | dsimp only

theorem nbrInsert_keeps {β : Bool} {σ s : State} (h : Keeps β σ s) :
    Keeps β σ (nbrInsert s) := by
  unfold nbrInsert
  try lift_lets
  repeat' first
    | with_reducible assumption
    | (intro x; first
        | (have hx : Keeps β σ x := ?_); clear_value x | (have hx : Keeps β σ x.2 := ?_); clear_value x
        | (have hx : Keeps β σ x.2.2 := ?_); clear_value x | clear_value x)
    | with_reducible apply linkErr_keeps | with_reducible apply nbrResult_keeps | with_reducible apply nbrPut_keeps
    | with_reducible apply nbrFull_keeps | with_reducible apply Keeps.ite | split | simp only [Keeps.update]
    | lift_lets | subst x | dsimp only

theorem nbrDelete_keeps {β : Bool} {σ s : State} (h : Keeps β σ s) (n : Nat) :
    Keeps β σ (nbrDelete n s) := by
  unfold nbrDelete
  repeat' first
    | with_reducible assumption | with_reducible apply nbrResult_keeps | with_reducible apply fset_keeps
    | with_reducible apply nbrPut_keeps | with_reducible apply Keeps.ite | split | dsimp only

theorem nbrShow_keeps {β : Bool} {σ s : State} (h : Keeps β σ s) (n : Nat) :
    Keeps β σ (nbrShow n s) := by
  unfold nbrShow
  try lift_lets
  repeat' first
    | with_reducible assumption
    | (intro x; first
        | (have hx : Keeps β σ x := ?_); clear_value x | (have hx : Keeps β σ x.2 := ?_); clear_value x
        | (have hx : Keeps β σ x.2.2 := ?_); clear_value x | clear_value x)
    | with_reducible apply wr64_keeps | with_reducible apply nbrResult_keeps | with_reducible apply fset_keeps
    | with_reducible apply Keeps.ite | split | simp only [Keeps.update] | lift_lets | subst x | dsimp only

theorem nbrLookup_keeps {β : Bool} {σ s : State} (h : Keeps β σ s) :
    Keeps β σ (nbrLookup s) := by
  unfold nbrLookup
  try lift_lets
  repeat' first
    | with_reducible assumption
    | (intro x; first
        | (have hx : Keeps β σ x := ?_); clear_value x | (have hx : Keeps β σ x.2 := ?_); clear_value x
        | (have hx : Keeps β σ x.2.2 := ?_); clear_value x | clear_value x)
    | with_reducible apply nbrShow_keeps | with_reducible apply nbrResult_keeps | with_reducible apply Keeps.ite
    | split | simp only [Keeps.update] | lift_lets | subst x | dsimp only

theorem nbrCmd_keeps {β : Bool} {σ s : State} (h : Keeps β σ s) (data : Word) :
    Keeps β σ (nbrCmd data s) := by
  unfold nbrCmd
  try lift_lets
  repeat' first
    | with_reducible assumption
    | (intro x; first
        | (have hx : Keeps β σ x := ?_); clear_value x | (have hx : Keeps β σ x.2 := ?_); clear_value x
        | (have hx : Keeps β σ x.2.2 := ?_); clear_value x | clear_value x)
    | with_reducible apply linkPut_keeps | with_reducible apply nbrInsert_keeps
    | with_reducible apply nbrDelete_keeps | with_reducible apply nbrShow_keeps
    | with_reducible apply nbrLookup_keeps | with_reducible apply linkErr_keeps | split | simp only [Keeps.update]
    | lift_lets | subst x | dsimp only

theorem execJobPost_keeps {β : Bool} {σ s : State} (h : Keeps β σ s) (i : Init) (room : BitVec 6) (data : Word) (now
    : Word64) :
    KeepsOut β σ (execJobPost i room data now s) := by
  unfold execJobPost
  repeat' first
    | with_reducible assumption | with_reducible apply KeepsOut.next | with_reducible apply doorStore_keeps
    | with_reducible apply jobPostWrite_keeps | (intro u; intros) | dsimp only | split

theorem execJobCancel_keeps {β : Bool} {σ s : State} (h : Keeps β σ s) (i : Init) (room : BitVec 6) (key : BitVec
    16) (slot : BitVec 2) :
    KeepsOut β σ (execJobCancel i room key slot s) := by
  unfold execJobCancel
  repeat' first
    | with_reducible assumption | with_reducible apply KeepsOut.next | with_reducible apply doorStore_keeps
    | with_reducible apply jobPostWrite_keeps | (intro u; intros) | dsimp only | split

theorem execJobPreparation_keeps {β : Bool} {σ s : State} (h : Keeps β σ s) (room : BitVec 6) (slot : BitVec 2)
    (agrees : Bool) :
    KeepsOut β σ (execJobPreparation room slot agrees s) := by
  unfold execJobPreparation
  repeat' first
    | with_reducible assumption | with_reducible apply KeepsOut.next | with_reducible apply jobPrepare_keeps
    | dsimp only | split

theorem execJobFillTick_keeps {β : Bool} {σ s : State} (h : Keeps β σ s) (room : BitVec 6) (slot : BitVec 2) :
    KeepsOut β σ (execJobFillTick room slot s) := by
  unfold execJobFillTick
  repeat' first
    | with_reducible assumption | with_reducible apply KeepsOut.next | with_reducible apply jobFill_keeps
    | dsimp only | split

theorem execCcaDecision_keeps {β : Bool} {σ s : State} (h : Keeps β σ s) (fe : Fe) (found : List Decision) :
    KeepsOut β σ (execCcaDecision fe found s) := by
  unfold execCcaDecision
  repeat' first
    | with_reducible assumption | with_reducible apply KeepsOut.next | with_reducible apply decideAll_keeps
    | dsimp only | split

theorem execTxTransitionStart_keeps {β : Bool} {σ s : State} (h : Keeps β σ s) (who : Sender) (tick : Word64) (temp
    : BitVec 16) (vpa : BitVec 12) :
    KeepsOut β σ (execTxTransitionStart who tick temp vpa s) := by
  unfold execTxTransitionStart
  repeat' first
    | with_reducible assumption | with_reducible apply KeepsOut.next | with_reducible apply jobTransit_keeps
    | with_reducible apply ackTransit_keeps | split | simp only [Keeps.update] | dsimp only

theorem execTxRampUp_keeps {β : Bool} {σ s : State} (h : Keeps β σ s) (fe : Fe) (tick : Word64) (fill : Nat) :
    KeepsOut β σ (execTxRampUp fe tick fill s) := by
  unfold execTxRampUp
  repeat' first
    | with_reducible assumption | with_reducible apply KeepsOut.next | with_reducible apply txRampUp_keeps
    | dsimp only | split

theorem execUnderrun_keeps {β : Bool} {σ s : State} (h : Keeps β σ s) (fe : Fe) :
    KeepsOut β σ (execUnderrun fe s) := by
  unfold execUnderrun
  repeat' first
    | with_reducible assumption | with_reducible apply KeepsOut.next | with_reducible apply airAbort_keeps
    | with_reducible apply Keeps.ite | split | dsimp only

theorem execTxFrameEnd_keeps {β : Bool} {σ s : State} (h : Keeps β σ s) (fe : Fe) (tick : Word64) (radiated :
    Word64) (temp : BitVec 16) :
    KeepsOut β σ (execTxFrameEnd fe tick radiated temp s) := by
  unfold execTxFrameEnd
  repeat' first
    | with_reducible assumption | with_reducible apply KeepsOut.next | with_reducible apply txFrameEnd_keeps
    | dsimp only | split

theorem execNoAck_keeps {β : Bool} {σ s : State} (h : Keeps β σ s) (room : BitVec 6) (slot : BitVec 2) :
    KeepsOut β σ (execNoAck room slot s) := by
  unfold execNoAck
  repeat' first
    | with_reducible assumption | with_reducible apply KeepsOut.next | with_reducible apply jobNoAck_keeps
    | with_reducible apply Keeps.ite | split | simp only [Keeps.update] | dsimp only

theorem execRxWinClose_keeps {β : Bool} {σ s : State} (h : Keeps β σ s) (room : BitVec 6) (slot : BitVec 2) :
    KeepsOut β σ (execRxWinClose room slot s) := by
  unfold execRxWinClose
  repeat' first
    | with_reducible assumption | with_reducible apply KeepsOut.next | with_reducible apply jobDone_keeps
    | with_reducible apply Keeps.ite | split | simp only [Keeps.update] | dsimp only

theorem execAckTransmit_keeps {β : Bool} {σ s : State} (h : Keeps β σ s) (fe : Fe) :
    KeepsOut β σ (execAckTransmit fe s) := by
  unfold execAckTransmit
  repeat' first
    | with_reducible assumption | with_reducible apply KeepsOut.next | with_reducible apply fcount_keeps
    | with_reducible apply Keeps.ite | split | simp only [Keeps.update] | dsimp only

theorem execDutyBucketAdvance_keeps {β : Bool} {σ s : State} (h : Keeps β σ s) (group : BitVec 4) :
    KeepsOut β σ (execDutyBucketAdvance group s) := by
  unfold execDutyBucketAdvance
  repeat' first
    | with_reducible assumption | with_reducible apply KeepsOut.next | with_reducible apply dutyPut_keeps
    | dsimp only | split

theorem execFeLockLost_keeps {β : Bool} {σ s : State} (h : Keeps β σ s) (fe : Fe) :
    KeepsOut β σ (execFeLockLost fe s) := by
  unfold execFeLockLost
  repeat' first
    | with_reducible assumption | with_reducible apply KeepsOut.next | with_reducible apply feLockLost_keeps
    | dsimp only | split

theorem execFeXrefFail_keeps {β : Bool} {σ s : State} (h : Keeps β σ s) :
    KeepsOut β σ (execFeXrefFail s) := by
  unfold execFeXrefFail
  repeat' first
    | with_reducible assumption | with_reducible apply KeepsOut.next | with_reducible apply refStop_keeps
    | with_reducible apply feXrefFail_keeps | (with_reducible apply Keeps.foldl; intro u y hu) | dsimp only | split

theorem execCkRefRunning_keeps {β : Bool} {σ s : State} (h : Keeps β σ s) :
    KeepsOut β σ (execCkRefRunning s) := by
  unfold execCkRefRunning
  try lift_lets
  repeat' first
    | with_reducible assumption | with_reducible apply KeepsOut.next
    | (intro x; first
        | (have hx : Keeps β σ x := ?_); clear_value x | (have hx : Keeps β σ x.2 := ?_); clear_value x
        | (have hx : Keeps β σ x.2.2 := ?_); clear_value x | clear_value x)
    | with_reducible apply fset_keeps | with_reducible apply refStart_keeps | with_reducible apply Keeps.ite | split
    | lift_lets | subst x | dsimp only

theorem execNbrInsert_keeps {β : Bool} {σ s : State} (h : Keeps β σ s) (i : Init) (index : BitVec 12) :
    KeepsOut β σ (execNbrInsert i index s) := by
  unfold execNbrInsert
  repeat' first
    | with_reducible assumption | with_reducible apply KeepsOut.next | with_reducible apply doorStore_keeps
    | with_reducible apply nbrCmd_keeps | (intro u; intros) | dsimp only | split

theorem execNbrDelete_keeps {β : Bool} {σ s : State} (h : Keeps β σ s) (i : Init) (index : BitVec 12) :
    KeepsOut β σ (execNbrDelete i index s) := by
  unfold execNbrDelete
  repeat' first
    | with_reducible assumption | with_reducible apply KeepsOut.next | with_reducible apply doorStore_keeps
    | with_reducible apply nbrCmd_keeps | (intro u; intros) | dsimp only | split

theorem execNbrRead_keeps {β : Bool} {σ s : State} (h : Keeps β σ s) (i : Init) (index : BitVec 12) :
    KeepsOut β σ (execNbrRead i index s) := by
  unfold execNbrRead
  repeat' first
    | with_reducible assumption | with_reducible apply KeepsOut.next | with_reducible apply doorStore_keeps
    | with_reducible apply nbrCmd_keeps | (intro u; intros) | dsimp only | split

theorem execNbrLookup_keeps {β : Bool} {σ s : State} (h : Keeps β σ s) (i : Init) (index : BitVec 12) :
    KeepsOut β σ (execNbrLookup i index s) := by
  unfold execNbrLookup
  repeat' first
    | with_reducible assumption | with_reducible apply KeepsOut.next | with_reducible apply doorStore_keeps
    | with_reducible apply nbrCmd_keeps | (intro u; intros) | dsimp only | split

theorem jobAcked_keeps {β : Bool} {σ s : State} (h : Keeps β σ s) (r : Nat) (k : Nat) (f : MacFrame) (rssi : Nat) :
    Keeps β σ (jobAcked r k f rssi s) := by
  unfold jobAcked
  try lift_lets
  repeat' first
    | with_reducible assumption
    | (intro x; first
        | (have hx : Keeps β σ x := ?_); clear_value x | (have hx : Keeps β σ x.2 := ?_); clear_value x
        | (have hx : Keeps β σ x.2.2 := ?_); clear_value x | clear_value x)
    | with_reducible apply fset_keeps | with_reducible apply fsetS_keeps | with_reducible apply jobDone_keeps
    | split | simp only [Keeps.update] | lift_lets | subst x | dsimp only

theorem rxWinVerdict_keeps {β : Bool} {σ s : State} (h : Keeps β σ s) (r : Nat) (k : Nat) (j : Job) (c :
    ClosedFrame) :
    Keeps β σ (rxWinVerdict r k j c s) := by
  unfold rxWinVerdict
  try lift_lets
  repeat' first
    | with_reducible assumption
    | (intro x; first
        | (have hx : Keeps β σ x := ?_); clear_value x | (have hx : Keeps β σ x.2 := ?_); clear_value x
        | (have hx : Keeps β σ x.2.2 := ?_); clear_value x | clear_value x)
    | with_reducible apply fset_keeps | with_reducible apply wr64_keeps | with_reducible apply jobDone_keeps
    | with_reducible apply fsetS_keeps | with_reducible apply Keeps.ite | split | lift_lets | subst x | dsimp only

theorem jobsMeet_keeps {β : Bool} {σ s : State} (h : Keeps β σ s) (c : ClosedFrame) (octets : List Byte) (f : Option MacFrame)
    (now : Nat) : Keeps β σ (jobsMeet c octets f now s).2 := by
  unfold jobsMeet
  lift_lets
  intro t
  refine Keeps.foldl_snd _ ?_ _ h
  intro u e hu
  dsimp only
  split
  · exact hu
  · split
    · exact rxWinVerdict_keeps hu _ _ _ _
    · split
      · split
        · split
          · exact jobAcked_keeps hu _ _ _ _
          · exact jobNoAck_keeps hu _ _ _ _
        · exact jobNoAck_keeps hu _ _ _ _
      · exact hu

theorem nbrPassed_keeps {β : Bool} {σ s : State} (h : Keeps β σ s) (nb : Option Nat) (u : Unsecured) :
    Keeps β σ (nbrPassed nb u s) := by
  unfold nbrPassed
  repeat' first
    | with_reducible assumption | with_reducible apply nbrPut_keeps | split | simp only [Keeps.update] | dsimp only

theorem nbrFilter_keeps {β : Bool} {σ s : State} (h : Keeps β σ s) (f : MacFrame) (nb : Option Nat) :
    Keeps β σ (nbrFilter f nb s).2.2 := by
  unfold nbrFilter
  repeat' first
    | with_reducible assumption | with_reducible apply nbrPut_keeps | with_reducible apply nbrFull_keeps | split
    | simp only [Keeps.update] | dsimp only

theorem ackConsider_keeps {β : Bool} {σ s : State} (h : Keeps β σ s) (c : ClosedFrame) (f : MacFrame) (uni : Bool)
    (u : Unsecured) (nb : Option Nat) (tcAt : Option Nat) :
    Keeps β σ (ackConsider c f uni u nb tcAt s).2 := by
  unfold ackConsider
  try lift_lets
  repeat' first
    | with_reducible assumption
    | (intro x; first
        | (have hx : Keeps β σ x := ?_); clear_value x | (have hx : Keeps β σ x.2 := ?_); clear_value x
        | (have hx : Keeps β σ x.2.2 := ?_); clear_value x | clear_value x)
    | with_reducible apply ackPut_keeps | with_reducible apply ackMiss_keeps | with_reducible apply Keeps.ite
    | split | lift_lets | subst x | dsimp only

theorem ackCut_keeps {β : Bool} {σ s : State} (h : Keeps β σ s) (fe : Fe) (late : Bool) :
    Keeps β σ (ackCut fe late s) := by
  unfold ackCut
  try lift_lets
  repeat' first
    | with_reducible assumption
    | (intro x; first
        | (have hx : Keeps β σ x := ?_); clear_value x | (have hx : Keeps β σ x.2 := ?_); clear_value x
        | (have hx : Keeps β σ x.2.2 := ?_); clear_value x
        | (have hf : ∀ u, Keeps β σ u → Keeps β σ (x u) := ?_); clear_value x
        | (have hf : ∀ a u, Keeps β σ u → Keeps β σ (x a u) := ?_); clear_value x
        | (have hf : ∀ a b u, Keeps β σ u → Keeps β σ (x a b u) := ?_); clear_value x | clear_value x)
    | with_reducible apply hf | (intro u; intros) | with_reducible apply ackMiss_keeps
    | with_reducible apply linkNote_keeps | with_reducible apply ackPut_keeps | with_reducible apply fcDraw_keeps
    | with_reducible apply Keeps.ite | split | simp only [Keeps.update] | lift_lets | subst x | dsimp only

theorem rxCommit_keeps {σ s : State} (h : Keeps false σ s) (c : ClosedFrame) (house : Bool) (octets : List Byte)
    (record : List Word) :
    Keeps false σ (rxCommit c house octets record s) := by
  unfold rxCommit
  try lift_lets
  repeat' first
    | with_reducible assumption
    | (intro x; first
        | (have hx : Keeps false σ x := ?_); clear_value x | (have hx : Keeps false σ x.2 := ?_); clear_value x
        | (have hx : Keeps false σ x.2.2 := ?_); clear_value x | clear_value x)
    | with_reducible apply fcount_keeps | with_reducible apply queCommitRx_keeps
    | with_reducible apply linkNote_keeps | with_reducible apply Keeps.ite | split | lift_lets | subst x
    | dsimp only

theorem rxParsed_keeps {σ s : State} (h : Keeps false σ s) (c : ClosedFrame) (f : MacFrame) (uni : Bool) (intact :
    Bool) (octets : List Byte) (tcAt : Option Nat) :
    Keeps false σ (rxParsed c f uni intact octets tcAt s) := by
  unfold rxParsed
  try lift_lets
  repeat' first
    | with_reducible assumption
    | (intro x; first
        | (have hx : Keeps false σ x := ?_); clear_value x | (have hx : Keeps false σ x.2 := ?_); clear_value x
        | (have hx : Keeps false σ x.2.2 := ?_); clear_value x | clear_value x)
    | with_reducible apply linkNote_keeps | with_reducible apply fcount_keeps | with_reducible apply linkErr_keeps
    | with_reducible apply nbrFilter_keeps | with_reducible apply nbrPassed_keeps
    | with_reducible apply ackConsider_keeps | with_reducible apply rxCommit_keeps | with_reducible apply Keeps.ite
    | split | simp only [Keeps.update] | lift_lets | subst x | dsimp only

theorem rxFrame_keeps {σ s : State} (h : Keeps false σ s) (c : ClosedFrame) (octets : List Byte) (f : Option
    MacFrame) (intact : Bool) (tcAt : Option Nat) :
    Keeps false σ (rxFrame c octets f intact tcAt s) := by
  unfold rxFrame
  try lift_lets
  repeat' first
    | with_reducible assumption
    | (intro x; first
        | (have hx : Keeps false σ x := ?_); clear_value x | (have hx : Keeps false σ x.2 := ?_); clear_value x
        | (have hx : Keeps false σ x.2.2 := ?_); clear_value x | clear_value x)
    | with_reducible apply rxCommit_keeps | with_reducible apply fcount_keeps | with_reducible apply rxParsed_keeps
    | with_reducible apply Keeps.ite | split | simp only [Keeps.update] | lift_lets | subst x | dsimp only

theorem laneVerdict_keeps {σ s : State} (h : Keeps false σ s) (n : Nat) (octets : List Byte) (intact : Bool) (now :
    Nat) :
    Keeps false σ (laneVerdict n octets intact now s) := by
  unfold laneVerdict
  try lift_lets
  repeat' first
    | with_reducible assumption
    | (intro x; first
        | (have hx : Keeps false σ x := ?_); clear_value x | (have hx : Keeps false σ x.2 := ?_); clear_value x
        | (have hx : Keeps false σ x.2.2 := ?_); clear_value x | clear_value x)
    | with_reducible apply jobsMeet_keeps | with_reducible apply rxFrame_keeps | with_reducible apply Keeps.ite
    | split | simp only [Keeps.update] | lift_lets | subst x | dsimp only

theorem execLaneVerdict_keeps {σ s : State} (h : Keeps false σ s) (lane : BitVec 8) (octets : List Byte) (intact :
    Bool) (now : Word64) :
    KeepsOut false σ (execLaneVerdict lane octets intact now s) := by
  unfold execLaneVerdict
  repeat' first
    | with_reducible assumption | with_reducible apply KeepsOut.next | with_reducible apply laneVerdict_keeps
    | dsimp only | split

theorem execAckCut_keeps {β : Bool} {σ s : State} (h : Keeps β σ s) (fe : Fe) (late : Bool) :
    KeepsOut β σ (execAckCut fe late s) := by
  unfold execAckCut
  repeat' first
    | with_reducible assumption | with_reducible apply KeepsOut.next | with_reducible apply ackCut_keeps
    | dsimp only | split

end Sys2Proof.Machine
end

