-- ==== Sys2Proof/Laws/KeepsPower.lean ====
section
/-!
SUPPORT. The operations of the files imported here keep the queue and the canonical forms, and those that store
nothing keep the memories: one lemma per operation, by the operations it calls.
-/

namespace Sys2Proof.Machine

open Reg

theorem resetKeeping_keeps {β : Bool} {σ s : State} (h : Keeps β σ s) (p : Nat → Bool) (keep : Nat → Word) :
    Keeps β σ (resetKeeping p keep s) := by
  refine ⟨h.pending, fun w => ?_, h.mem, h.memSame⟩
  have H : ∀ (l t : Tbl Word), twf regReset t = true → twf regReset (l.foldl (fun t e =>
      if p e.1 then tset regReset t e.1 ((e.2 &&& keep e.1) ||| (regReset e.1 &&& ~~~ keep e.1)) else t) t) = true := by
    intro l
    induction l with
    | nil => exact fun t ht => ht
    | cons e r ih =>
      intro t ht
      refine ih _ ?_
      dsimp only
      split
      · exact twf_tset ht _ _
      · exact ht
  exact H s.regs s.regs (h.regs w)

theorem feReset_keeps {β : Bool} {σ s : State} (h : Keeps β σ s) (fe : Fe) :
    Keeps β σ (feReset fe s) := by
  unfold feReset
  try lift_lets
  repeat' first
    | with_reducible assumption
    | (intro x; first
        | (have hx : Keeps β σ x := ?_); clear_value x | (have hx : Keeps β σ x.2 := ?_); clear_value x
        | (have hx : Keeps β σ x.2.2 := ?_); clear_value x | clear_value x)
    | with_reducible apply feSleepNow_keeps | with_reducible apply airAbort_keeps | with_reducible apply fePut_keeps
    | with_reducible apply fdxPut_keeps | with_reducible apply chzPut_keeps | with_reducible apply Keeps.ite | split
    | lift_lets | subst x | dsimp only

theorem padsHold_keeps {β : Bool} {σ s : State} (h : Keeps β σ s) (hi : Bool) :
    Keeps β σ (padsHold hi s) := by
  unfold padsHold
  try lift_lets
  repeat' first
    | with_reducible assumption
    | (intro x; first
        | (have hx : Keeps β σ x := ?_); clear_value x | (have hx : Keeps β σ x.2 := ?_); clear_value x
        | (have hx : Keeps β σ x.2.2 := ?_); clear_value x | clear_value x)
    | with_reducible apply wr_keeps | with_reducible apply Keeps.ite
    | (with_reducible apply Keeps.foldl; intro u y hu) | split | simp only [Keeps.update] | lift_lets | subst x
    | (refine Keeps.of_pair (by assumption) ?_) | dsimp only

theorem dbgStart_keeps {β : Bool} {σ s : State} (h : Keeps β σ s) :
    Keeps β σ (dbgStart s) := by
  unfold dbgStart
  repeat' first
    | with_reducible assumption | with_reducible apply fset_keeps | simp only [Keeps.update] | dsimp only | split

theorem memLose_keeps {σ s : State} (h : Keeps false σ s) (d : Nat) :
    Keeps false σ (memLose d s) := by
  unfold memLose
  repeat' first
    | with_reducible assumption | with_reducible apply drawFree_keeps | with_reducible apply memMark_keeps
    | dsimp only | split

theorem domainForget_keeps {σ s : State} (h : Keeps false σ s) (d : Nat) :
    Keeps false σ (domainForget d s) := by
  unfold domainForget
  repeat' first
    | with_reducible assumption | with_reducible apply memLose_keeps | with_reducible apply initForget_keeps
    | with_reducible apply coreSet_keeps | with_reducible apply dropLines_keeps
    | with_reducible apply bankReset_keeps | with_reducible apply fset_keeps | with_reducible apply feReset_keeps
    | with_reducible apply padsHold_keeps | with_reducible apply Keeps.ite | split | simp only [Keeps.update]
    | dsimp only

theorem domainOff_keeps {σ s : State} (h : Keeps false σ s) (d : Nat) :
    Keeps false σ (domainOff d s) := by
  unfold domainOff
  try lift_lets
  repeat' first
    | with_reducible assumption
    | (intro x; first
        | (have hx : Keeps false σ x := ?_); clear_value x | (have hx : Keeps false σ x.2 := ?_); clear_value x
        | (have hx : Keeps false σ x.2.2 := ?_); clear_value x | clear_value x)
    | with_reducible apply resetKeeping_keeps | with_reducible apply domainForget_keeps
    | with_reducible apply dbgStart_keeps | with_reducible apply pdSet_keeps
    | with_reducible apply dropCaptures_keeps | with_reducible apply Keeps.ite | split | lift_lets | subst x
    | dsimp only

theorem domainOn_keeps {β : Bool} {σ s : State} (h : Keeps β σ s) (d : Nat) :
    Keeps β σ (domainOn d s) := by
  unfold domainOn
  try lift_lets
  repeat' first
    | with_reducible assumption
    | (intro x; first
        | (have hx : Keeps β σ x := ?_); clear_value x | (have hx : Keeps β σ x.2 := ?_); clear_value x
        | (have hx : Keeps β σ x.2.2 := ?_); clear_value x | clear_value x)
    | with_reducible apply pdSet_keeps | with_reducible apply radioOwner_keeps | with_reducible apply licStart_keeps
    | with_reducible apply rngRun_keeps | with_reducible apply rngPowerUp_keeps | with_reducible apply Keeps.ite
    | split | lift_lets | subst x | dsimp only

theorem hallClear_keeps {β : Bool} {σ s : State} (h : Keeps β σ s) (por : Bool) (keep : Nat → Word) :
    Keeps β σ (hallClear por keep s) := by
  unfold hallClear
  try lift_lets
  repeat' first
    | with_reducible assumption
    | (intro x; first
        | (have hx : Keeps β σ x := ?_); clear_value x | (have hx : Keeps β σ x.2 := ?_); clear_value x
        | (have hx : Keeps β σ x.2.2 := ?_); clear_value x | clear_value x)
    | with_reducible apply bankReset_keeps | with_reducible apply padsHold_keeps
    | with_reducible apply feReset_keeps | with_reducible apply resetKeeping_keeps
    | with_reducible apply rngPowerUp_keeps | with_reducible apply radioOwner_keeps
    | with_reducible apply dbgStart_keeps | with_reducible apply licStart_keeps | with_reducible apply Keeps.ite
    | split | simp only [Keeps.update] | lift_lets | subst x | dsimp only

theorem causeSeen_keeps {β : Bool} {σ s : State} (h : Keeps β σ s) (cause : Nat) :
    Keeps β σ (causeSeen cause s) := by
  unfold causeSeen
  try lift_lets
  repeat' first
    | with_reducible assumption
    | (intro x; first
        | (have hx : Keeps β σ x := ?_); clear_value x | (have hx : Keeps β σ x.2 := ?_); clear_value x
        | (have hx : Keeps β σ x.2.2 := ?_); clear_value x | clear_value x)
    | with_reducible apply fset_keeps | with_reducible apply wr_keeps | with_reducible apply Keeps.ite | split
    | simp only [Keeps.update] | lift_lets | subst x | dsimp only

theorem hallPut_keeps {β : Bool} {σ s : State} (h : Keeps β σ s) (h : Hall) :
    Keeps β σ (hallPut h s) := by
  unfold hallPut
  repeat' first
    | with_reducible assumption | simp only [Keeps.update] | dsimp only | split

theorem startAttempt_keeps {β : Bool} {σ s : State} (h : Keeps β σ s) :
    Keeps β σ (startAttempt s) := by
  unfold startAttempt
  try lift_lets
  repeat' first
    | with_reducible assumption
    | (intro x; first
        | (have hx : Keeps β σ x := ?_); clear_value x | (have hx : Keeps β σ x.2 := ?_); clear_value x
        | (have hx : Keeps β σ x.2.2 := ?_); clear_value x | clear_value x)
    | with_reducible apply pmbWrite_keeps | with_reducible apply Keeps.ite | split | simp only [Keeps.update]
    | lift_lets | subst x | dsimp only

theorem hallReset_keeps {β : Bool} {σ s : State} (h : Keeps β σ s) (cause : Nat) (por : Bool) (h : State → State)
    (hh : ∀ u, Keeps β σ u → Keeps β σ (h u)) :
    Keeps β σ (hallReset cause por h s) := by
  unfold hallReset
  try lift_lets
  repeat' first
    | with_reducible assumption
    | (intro x; first
        | (have hx : Keeps β σ x := ?_); clear_value x | (have hx : Keeps β σ x.2 := ?_); clear_value x
        | (have hx : Keeps β σ x.2.2 := ?_); clear_value x | clear_value x)
    | apply hh | with_reducible apply causeSeen_keeps | with_reducible apply hallClear_keeps
    | with_reducible apply hallPut_keeps | with_reducible apply Keeps.ite | split | simp only [Keeps.update]
    | lift_lets | subst x | dsimp only

theorem hallRestart_keeps {β : Bool} {σ s : State} (h : Keeps β σ s) (cause : Nat) :
    Keeps β σ (hallRestart cause s) := by
  unfold hallRestart
  repeat' first
    | with_reducible assumption | with_reducible apply hallReset_keeps | with_reducible apply startAttempt_keeps
    | (intro u; intros) | dsimp only | split

theorem ramClear_keeps {σ s : State} (h : Keeps false σ s) (kept : List Nat) :
    Keeps false σ (ramClear kept s) := by
  unfold ramClear
  repeat' first
    | with_reducible assumption | with_reducible apply memMark_keeps | with_reducible apply Keeps.ite
    | (with_reducible apply Keeps.foldl; intro u y hu) | split | dsimp only

theorem stage_keeps {β : Bool} {σ s : State} (h : Keeps β σ s) (n : Nat) :
    Keeps β σ (stage n s) := by
  unfold stage
  repeat' first
    | with_reducible assumption | with_reducible apply fset_keeps | dsimp only | split

theorem hallRelease_keeps {σ s : State} (h : Keeps false σ s) (nt : Nat) (air : Nat) (g : Nat) :
    Keeps false σ (hallRelease nt air g s) := by
  unfold hallRelease
  try lift_lets
  repeat' first
    | with_reducible assumption
    | (intro x; first
        | (have hx : Keeps false σ x := ?_); clear_value x | (have hx : Keeps false σ x.2 := ?_); clear_value x
        | (have hx : Keeps false σ x.2.2 := ?_); clear_value x | clear_value x)
    | with_reducible apply timeHandOff_keeps | with_reducible apply ramClear_keeps
    | with_reducible apply hallClear_keeps | with_reducible apply timeResume_keeps | with_reducible apply owe_keeps
    | with_reducible apply fcount_keeps | with_reducible apply fset_keeps | with_reducible apply stage_keeps
    | with_reducible apply Keeps.ite | split | simp only [Keeps.update] | lift_lets | subst x | dsimp only

theorem startAcked_keeps {β : Bool} {σ s : State} (h : Keeps β σ s) :
    Keeps β σ (startAcked s) := by
  unfold startAcked
  repeat' first
    | with_reducible assumption | with_reducible apply hallPut_keeps | dsimp only | split

theorem brownout_keeps {β : Bool} {σ s : State} (h : Keeps β σ s) (h : State → State) (hh : ∀ u, Keeps β σ u → Keeps
    β σ (h u)) :
    Keeps β σ (brownout h s) := by
  unfold brownout
  try lift_lets
  repeat' first
    | with_reducible assumption
    | (intro x; first
        | (have hx : Keeps β σ x := ?_); clear_value x | (have hx : Keeps β σ x.2 := ?_); clear_value x
        | (have hx : Keeps β σ x.2.2 := ?_); clear_value x | clear_value x)
    | apply hh | with_reducible apply hallReset_keeps | with_reducible apply fset_keeps
    | with_reducible apply Keeps.ite | (intro u; intros) | split | simp only [Keeps.update] | lift_lets | subst x
    | dsimp only

theorem pinReset_keeps {β : Bool} {σ s : State} (h : Keeps β σ s) (low : Bool) :
    Keeps β σ (pinReset low s) := by
  unfold pinReset
  repeat' first
    | with_reducible assumption | with_reducible apply hallPut_keeps | with_reducible apply hallReset_keeps
    | with_reducible apply startAttempt_keeps | with_reducible apply Keeps.ite | (intro u; intros) | split
    | dsimp only

theorem rstCmd_keeps {β : Bool} {σ s : State} (h : Keeps β σ s) (data : Word) :
    Keeps β σ (rstCmd data s) := by
  unfold rstCmd
  repeat' first
    | with_reducible assumption | with_reducible apply hallRestart_keeps | with_reducible apply Keeps.ite | split
    | dsimp only

theorem execSysRstPin_keeps {β : Bool} {σ s : State} (h : Keeps β σ s) (low : Bool) :
    KeepsOut β σ (execSysRstPin low s) := by
  unfold execSysRstPin
  repeat' first
    | with_reducible assumption | with_reducible apply KeepsOut.next | with_reducible apply pinReset_keeps
    | dsimp only | split

theorem execRstCmdHall_keeps {β : Bool} {σ s : State} (h : Keeps β σ s) (i : Init) (key : BitVec 16) :
    KeepsOut β σ (execRstCmdHall i key s) := by
  unfold execRstCmdHall
  repeat' first
    | with_reducible assumption | with_reducible apply KeepsOut.next | with_reducible apply doorStore_keeps
    | with_reducible apply rstCmd_keeps | (intro u; intros) | dsimp only | split

theorem execHallRelease_keeps {σ s : State} (h : Keeps false σ s) (nt : Word64) (air : Word64) (lfCycles : Nat) :
    KeepsOut false σ (execHallRelease nt air lfCycles s) := by
  unfold execHallRelease
  repeat' first
    | with_reducible assumption | with_reducible apply KeepsOut.next | with_reducible apply hallRelease_keeps
    | dsimp only | split

theorem powPut_keeps {β : Bool} {σ s : State} (h : Keeps β σ s) (v : PowState) :
    Keeps β σ (powPut v s) := by
  unfold powPut
  repeat' first
    | with_reducible assumption | simp only [Keeps.update] | dsimp only | split

theorem hsAns_keeps {β : Bool} {σ s : State} (h : Keeps β σ s) (p : Nat) (v : Nat) :
    Keeps β σ (hsAns p v s) := by
  unfold hsAns
  repeat' first
    | with_reducible assumption | with_reducible apply wr_keeps | dsimp only | split

theorem feWalk_keeps {β : Bool} {σ s : State} (h : Keeps β σ s) (fe : Fe) (t : Nat) :
    Keeps β σ (feWalk fe t s) := by
  unfold feWalk
  try lift_lets
  repeat' first
    | with_reducible assumption
    | (intro x; first
        | (have hx : Keeps β σ x := ?_); clear_value x | (have hx : Keeps β σ x.2 := ?_); clear_value x
        | (have hx : Keeps β σ x.2.2 := ?_); clear_value x | clear_value x)
    | with_reducible apply fset_keeps | with_reducible apply feNext_keeps | with_reducible apply Keeps.ite | split
    | lift_lets | subst x | dsimp only

theorem feAsk_keeps {β : Bool} {σ s : State} (h : Keeps β σ s) (fe : Fe) :
    Keeps β σ (feAsk fe s) := by
  unfold feAsk
  repeat' first
    | with_reducible assumption | with_reducible apply feWalk_keeps | with_reducible apply Keeps.ite | split
    | dsimp only

theorem fabAccept_keeps {β : Bool} {σ s : State} (h : Keeps β σ s) :
    Keeps β σ (fabAccept s) := by
  unfold fabAccept
  try lift_lets
  repeat' first
    | with_reducible assumption
    | (intro x; first
        | (have hx : Keeps β σ x := ?_); clear_value x | (have hx : Keeps β σ x.2 := ?_); clear_value x
        | (have hx : Keeps β σ x.2.2 := ?_); clear_value x | clear_value x)
    | with_reducible apply domainStop_keeps | with_reducible apply powPut_keeps
    | (with_reducible apply Keeps.foldl; intro u y hu) | simp only [Keeps.update] | lift_lets | subst x | dsimp only
    | split

theorem fabRestart_keeps {β : Bool} {σ s : State} (h : Keeps β σ s) :
    Keeps β σ (fabRestart s) := by
  unfold fabRestart
  repeat' first
    | with_reducible assumption | with_reducible apply laneDomainStart_keeps | with_reducible apply domBit_keeps
    | with_reducible apply powPut_keeps | (with_reducible apply Keeps.foldl; intro u y hu)
    | simp only [Keeps.update] | dsimp only | split

theorem askEnd_keeps {β : Bool} {σ s : State} (h : Keeps β σ s) :
    Keeps β σ (askEnd s) := by
  unfold askEnd
  repeat' first
    | with_reducible assumption | with_reducible apply powPut_keeps | simp only [Keeps.update] | dsimp only | split

theorem wfiEnd_keeps {β : Bool} {σ s : State} (h : Keeps β σ s) (k : Nat) :
    Keeps β σ (wfiEnd k s) := by
  unfold wfiEnd
  repeat' first
    | with_reducible assumption | with_reducible apply coreSet_keeps | simp only [Keeps.update] | dsimp only | split

theorem entryAbort_keeps {β : Bool} {σ s : State} (h : Keeps β σ s) (why : Nat) :
    Keeps β σ (entryAbort why s) := by
  unfold entryAbort
  try lift_lets
  repeat' first
    | with_reducible assumption
    | (intro x; first
        | (have hx : Keeps β σ x := ?_); clear_value x | (have hx : Keeps β σ x.2 := ?_); clear_value x
        | (have hx : Keeps β σ x.2.2 := ?_); clear_value x
        | (have hf : ∀ u, Keeps β σ u → Keeps β σ (x u) := ?_); clear_value x
        | (have hf : ∀ a u, Keeps β σ u → Keeps β σ (x a u) := ?_); clear_value x
        | (have hf : ∀ a b u, Keeps β σ u → Keeps β σ (x a b u) := ?_); clear_value x | clear_value x)
    | with_reducible apply hf | (intro u; intros) | with_reducible apply feWalk_keeps
    | with_reducible apply fabRestart_keeps | with_reducible apply fset_keeps | with_reducible apply askEnd_keeps
    | with_reducible apply pwrNote_keeps | with_reducible apply wfiEnd_keeps | with_reducible apply Keeps.ite
    | split | lift_lets | subst x | dsimp only

theorem knkMode_keeps {β : Bool} {σ s : State} (h : Keeps β σ s) (target : Nat) :
    Keeps β σ (knkMode target s) := by
  unfold knkMode
  repeat' first
    | with_reducible assumption | with_reducible apply pdSet_keeps | with_reducible apply knkGo_keeps
    | with_reducible apply Keeps.ite | split | dsimp only

theorem pwrOn_keeps {β : Bool} {σ s : State} (h : Keeps β σ s) (on : Bool) :
    Keeps β σ (pwrOn on s) := by
  unfold pwrOn
  repeat' first
    | with_reducible assumption | with_reducible apply fset_keeps | dsimp only | split

theorem entryCommit_keeps {σ s : State} (h : Keeps false σ s) :
    Keeps false σ (entryCommit s) := by
  unfold entryCommit
  try lift_lets
  repeat' first
    | with_reducible assumption
    | (intro x; first
        | (have hx : Keeps false σ x := ?_); clear_value x | (have hx : Keeps false σ x.2 := ?_); clear_value x
        | (have hx : Keeps false σ x.2.2 := ?_); clear_value x | clear_value x)
    | with_reducible apply fset_keeps | with_reducible apply askEnd_keeps | with_reducible apply powPut_keeps
    | with_reducible apply radioOwner_keeps | with_reducible apply pwrOn_keeps | with_reducible apply pdSet_keeps
    | with_reducible apply memLose_keeps | with_reducible apply domainOff_keeps | with_reducible apply knkMode_keeps
    | with_reducible apply pmbWrite_keeps | with_reducible apply Keeps.ite
    | (with_reducible apply Keeps.foldl; intro u y hu) | split | simp only [Keeps.update] | lift_lets | subst x
    | dsimp only

theorem entryTake_keeps {σ s : State} (h : Keeps false σ s) (ps : List Nat) :
    Keeps false σ (entryTake ps s) := by
  unfold entryTake
  try lift_lets
  repeat' first
    | with_reducible assumption
    | (intro x; first
        | (have hx : Keeps false σ x := ?_); clear_value x | (have hx : Keeps false σ x.2 := ?_); clear_value x
        | (have hx : Keeps false σ x.2.2 := ?_); clear_value x | clear_value x)
    | with_reducible apply hsAns_keeps | with_reducible apply fabAccept_keeps
    | with_reducible apply entryAbort_keeps | with_reducible apply entryCommit_keeps
    | with_reducible apply Keeps.ite | (with_reducible apply Keeps.foldl; intro u y hu) | split | lift_lets
    | subst x | dsimp only

theorem entryWfi_keeps {σ s : State} (h : Keeps false σ s) :
    Keeps false σ (entryWfi s) := by
  unfold entryWfi
  try lift_lets
  repeat' first
    | with_reducible assumption
    | (intro x; first
        | (have hx : Keeps false σ x := ?_); clear_value x | (have hx : Keeps false σ x.2 := ?_); clear_value x
        | (have hx : Keeps false σ x.2.2 := ?_); clear_value x | clear_value x)
    | with_reducible apply fset_keeps | with_reducible apply coreSet_keeps | with_reducible apply wr_keeps
    | with_reducible apply entryAbort_keeps | with_reducible apply powPut_keeps
    | with_reducible apply raiseEvt_keeps | with_reducible apply feAsk_keeps | with_reducible apply entryTake_keeps
    | with_reducible apply Keeps.ite | split | simp only [Keeps.update] | lift_lets | subst x | dsimp only

theorem partAnswers_keeps {σ s : State} (h : Keeps false σ s) (p : Nat) :
    Keeps false σ (partAnswers p s) := by
  unfold partAnswers
  try lift_lets
  repeat' first
    | with_reducible assumption
    | (intro x; first
        | (have hx : Keeps false σ x := ?_); clear_value x | (have hx : Keeps false σ x.2 := ?_); clear_value x
        | (have hx : Keeps false σ x.2.2 := ?_); clear_value x | clear_value x)
    | with_reducible apply feAsk_keeps | with_reducible apply coreSet_keeps | with_reducible apply entryTake_keeps
    | with_reducible apply Keeps.ite | split | simp only [Keeps.update] | lift_lets | subst x | dsimp only

theorem pwrModeWrite_keeps {β : Bool} {σ s : State} (h : Keeps β σ s) (data : Word) :
    Keeps β σ (pwrModeWrite data s) := by
  unfold pwrModeWrite
  try lift_lets
  repeat' first
    | with_reducible assumption
    | (intro x; first
        | (have hx : Keeps β σ x := ?_); clear_value x | (have hx : Keeps β σ x.2 := ?_); clear_value x
        | (have hx : Keeps β σ x.2.2 := ?_); clear_value x | clear_value x)
    | with_reducible apply pwrErr_keeps | with_reducible apply fset_keeps | with_reducible apply powPut_keeps
    | with_reducible apply entryAbort_keeps | with_reducible apply Keeps.ite | split | simp only [Keeps.update]
    | lift_lets | subst x | dsimp only

theorem pwrLcack_keeps {σ s : State} (h : Keeps false σ s) (i : Init) (data : Word) :
    Keeps false σ (pwrLcack i data s) := by
  unfold pwrLcack
  try lift_lets
  repeat' first
    | with_reducible assumption
    | (intro x; first
        | (have hx : Keeps false σ x := ?_); clear_value x | (have hx : Keeps false σ x.2 := ?_); clear_value x
        | (have hx : Keeps false σ x.2.2 := ?_); clear_value x | clear_value x)
    | with_reducible apply powPut_keeps | with_reducible apply entryTake_keeps | with_reducible apply Keeps.ite
    | split | simp only [Keeps.update] | lift_lets | subst x | dsimp only

theorem hsTimeout_keeps {β : Bool} {σ s : State} (h : Keeps β σ s) :
    Keeps β σ (hsTimeout s) := by
  unfold hsTimeout
  repeat' first
    | with_reducible assumption | with_reducible apply entryAbort_keeps | with_reducible apply Keeps.ite | split
    | dsimp only

theorem wakeRecord_keeps {β : Bool} {σ s : State} (h : Keeps β σ s) (src : Nat) (ev : Nat) (mode : Nat) (entry :
    Bool) (fail : Bool) :
    Keeps β σ (wakeRecord src ev mode entry fail s) := by
  unfold wakeRecord
  try lift_lets
  repeat' first
    | with_reducible assumption
    | (intro x; first
        | (have hx : Keeps β σ x := ?_); clear_value x | (have hx : Keeps β σ x.2 := ?_); clear_value x
        | (have hx : Keeps β σ x.2.2 := ?_); clear_value x | clear_value x)
    | with_reducible apply wr_keeps | with_reducible apply Keeps.ite
    | (with_reducible apply Keeps.foldl; intro u y hu) | split | lift_lets | subst x | dsimp only

theorem wakeServe_keeps {β : Bool} {σ s : State} (h : Keeps β σ s) (src : Nat) (ev : Nat) (entry : Bool) :
    Keeps β σ (wakeServe src ev entry s) := by
  unfold wakeServe
  try lift_lets
  repeat' first
    | with_reducible assumption
    | (intro x; first
        | (have hx : Keeps β σ x := ?_); clear_value x | (have hx : Keeps β σ x.2 := ?_); clear_value x
        | (have hx : Keeps β σ x.2.2 := ?_); clear_value x | clear_value x)
    | with_reducible apply wakeRecord_keeps | with_reducible apply pwrOn_keeps | with_reducible apply fset_keeps
    | with_reducible apply pdSet_keeps | with_reducible apply hallReset_keeps
    | with_reducible apply startAttempt_keeps | with_reducible apply powPut_keeps | with_reducible apply Keeps.ite
    | (intro u; intros) | split | simp only [Keeps.update] | lift_lets | subst x | dsimp only

theorem wakeArrive_keeps {β : Bool} {σ s : State} (h : Keeps β σ s) (src : Nat) (ev : Nat) :
    Keeps β σ (wakeArrive src ev s) := by
  unfold wakeArrive
  repeat' first
    | with_reducible assumption | with_reducible apply entryAbort_keeps | with_reducible apply powPut_keeps
    | with_reducible apply wakeRecord_keeps | with_reducible apply wakeServe_keeps | with_reducible apply Keeps.ite
    | split | simp only [Keeps.update] | dsimp only

theorem modeReached_keeps {σ s : State} (h : Keeps false σ s) (nt : Nat) (air : Nat) :
    Keeps false σ (modeReached nt air s) := by
  unfold modeReached
  try lift_lets
  repeat' first
    | with_reducible assumption
    | (intro x; first
        | (have hx : Keeps false σ x := ?_); clear_value x | (have hx : Keeps false σ x.2 := ?_); clear_value x
        | (have hx : Keeps false σ x.2.2 := ?_); clear_value x | clear_value x)
    | with_reducible apply domainOff_keeps | with_reducible apply timeHandOff_keeps
    | with_reducible apply powPut_keeps | with_reducible apply fset_keeps | with_reducible apply wakeServe_keeps
    | with_reducible apply Keeps.ite | split | simp only [Keeps.update] | lift_lets | subst x | dsimp only

theorem modeExit_keeps {β : Bool} {σ s : State} (h : Keeps β σ s) (g : Nat) :
    Keeps β σ (modeExit g s) := by
  unfold modeExit
  try lift_lets
  repeat' first
    | with_reducible assumption
    | (intro x; first
        | (have hx : Keeps β σ x := ?_); clear_value x | (have hx : Keeps β σ x.2 := ?_); clear_value x
        | (have hx : Keeps β σ x.2.2 := ?_); clear_value x | clear_value x)
    | with_reducible apply domainOn_keeps | with_reducible apply timeResume_keeps
    | with_reducible apply planQueues_keeps | with_reducible apply planWork_keeps | with_reducible apply fset_keeps
    | with_reducible apply powPut_keeps | with_reducible apply pwrNote_keeps | with_reducible apply wfiEnd_keeps
    | with_reducible apply Keeps.ite | (with_reducible apply Keeps.foldl; intro u y hu) | split
    | simp only [Keeps.update] | lift_lets | subst x | dsimp only

theorem startFailed_keeps {β : Bool} {σ s : State} (h : Keeps β σ s) :
    Keeps β σ (startFailed s) := by
  unfold startFailed
  try lift_lets
  repeat' first
    | with_reducible assumption
    | (intro x; first
        | (have hx : Keeps β σ x := ?_); clear_value x | (have hx : Keeps β σ x.2 := ?_); clear_value x
        | (have hx : Keeps β σ x.2.2 := ?_); clear_value x | clear_value x)
    | with_reducible apply pmbWrite_keeps | with_reducible apply wakeRecord_keeps
    | with_reducible apply hallPut_keeps | with_reducible apply powPut_keeps | with_reducible apply Keeps.ite
    | split | simp only [Keeps.update] | lift_lets | subst x | dsimp only

theorem startRead_keeps {β : Bool} {σ s : State} (h : Keeps β σ s) (m : Option (BitVec 8)) :
    Keeps β σ (startRead m s) := by
  unfold startRead
  try lift_lets
  repeat' first
    | with_reducible assumption
    | (intro x; first
        | (have hx : Keeps β σ x := ?_); clear_value x | (have hx : Keeps β σ x.2 := ?_); clear_value x
        | (have hx : Keeps β σ x.2.2 := ?_); clear_value x | clear_value x)
    | with_reducible apply startAttempt_keeps | with_reducible apply startFailed_keeps
    | with_reducible apply fset_keeps | with_reducible apply Keeps.ite | split | simp only [Keeps.update]
    | lift_lets | subst x | dsimp only

theorem startRetry_keeps {β : Bool} {σ s : State} (h : Keeps β σ s) (m : Option (BitVec 8)) :
    Keeps β σ (startRetry m s) := by
  unfold startRetry
  repeat' first
    | with_reducible assumption | with_reducible apply startRead_keeps | with_reducible apply Keeps.ite | split
    | dsimp only

theorem vcoreAck_keeps {σ s : State} (h : Keeps false σ s) :
    Keeps false σ (vcoreAck s) := by
  unfold vcoreAck
  repeat' first
    | with_reducible assumption | with_reducible apply startAcked_keeps | with_reducible apply vManage_keeps
    | with_reducible apply raiseStep_keeps | with_reducible apply vAcknowledge_keeps
    | with_reducible apply Keeps.ite | split | dsimp only

theorem regFail_keeps {β : Bool} {σ s : State} (h : Keeps β σ s) (f : RegFail) :
    Keeps β σ (regFail f s) := by
  unfold regFail
  repeat' first
    | with_reducible assumption | with_reducible apply fset_keeps | with_reducible apply hallNote_keeps
    | with_reducible apply fcountBy_keeps | split | simp only [Keeps.update] | dsimp only

theorem vcoreFail_keeps {σ s : State} (h : Keeps false σ s) (f : RegFail) :
    Keeps false σ (vcoreFail f s) := by
  unfold vcoreFail
  repeat' first
    | with_reducible assumption | with_reducible apply startFailed_keeps | with_reducible apply regFail_keeps
    | with_reducible apply raiseStep_keeps | with_reducible apply vFailed_keeps | with_reducible apply Keeps.ite
    | split | dsimp only

theorem vcoreDown_keeps {β : Bool} {σ s : State} (h : Keeps β σ s) :
    Keeps β σ (vcoreDown s) := by
  unfold vcoreDown
  try lift_lets
  repeat' first
    | with_reducible assumption
    | (intro x; first
        | (have hx : Keeps β σ x := ?_); clear_value x | (have hx : Keeps β σ x.2 := ?_); clear_value x
        | (have hx : Keeps β σ x.2.2 := ?_); clear_value x | clear_value x)
    | with_reducible apply vRequest_keeps | with_reducible apply Keeps.ite | split | lift_lets | subst x
    | dsimp only

theorem pmbAlert_keeps {β : Bool} {σ s : State} (h : Keeps β σ s) (status : BitVec 16) (vout : BitVec 8) :
    Keeps β σ (pmbAlert status vout s) := by
  unfold pmbAlert
  try lift_lets
  repeat' first
    | with_reducible assumption
    | (intro x; first
        | (have hx : Keeps β σ x := ?_); clear_value x | (have hx : Keeps β σ x.2 := ?_); clear_value x
        | (have hx : Keeps β σ x.2.2 := ?_); clear_value x | clear_value x)
    | with_reducible apply fset_keeps | with_reducible apply hallNote_keeps | with_reducible apply Keeps.ite | split
    | lift_lets | subst x | dsimp only

theorem gate_keeps {σ s : State} (h : Keeps false σ s) (d : Nat) (off : Bool) :
    Keeps false σ (gate d off s) := by
  unfold gate
  repeat' first
    | with_reducible assumption | with_reducible apply domainOff_keeps | with_reducible apply domainOn_keeps
    | with_reducible apply Keeps.ite | split | dsimp only

theorem pwrGateWrite_keeps {σ s : State} (h : Keeps false σ s) (data : Word) :
    Keeps false σ (pwrGateWrite data s) := by
  unfold pwrGateWrite
  try lift_lets
  repeat' first
    | with_reducible assumption
    | (intro x; first
        | (have hx : Keeps false σ x := ?_); clear_value x | (have hx : Keeps false σ x.2 := ?_); clear_value x
        | (have hx : Keeps false σ x.2.2 := ?_); clear_value x | clear_value x)
    | with_reducible apply pwrErr_keeps | with_reducible apply wr_keeps | with_reducible apply gate_keeps
    | with_reducible apply Keeps.ite | (with_reducible apply Keeps.foldl; intro u y hu) | split | lift_lets
    | subst x | dsimp only

theorem knkWake_keeps {β : Bool} {σ s : State} (h : Keeps β σ s) :
    Keeps β σ (knkWake s) := by
  unfold knkWake
  try lift_lets
  repeat' first
    | with_reducible assumption
    | (intro x; first
        | (have hx : Keeps β σ x := ?_); clear_value x | (have hx : Keeps β σ x.2 := ?_); clear_value x
        | (have hx : Keeps β σ x.2.2 := ?_); clear_value x | clear_value x)
    | with_reducible apply raiseEvt_keeps | with_reducible apply wakeArrive_keeps | with_reducible apply Keeps.ite
    | split | simp only [Keeps.update] | lift_lets | subst x | dsimp only

theorem knkEnd_keeps {β : Bool} {σ s : State} (h : Keeps β σ s) (target : Nat) (crc : Nat) (level : Nat) (now : Nat) :
    Keeps β σ (knkEnd target crc level now s) := by
  unfold knkEnd
  try lift_lets
  repeat' first
    | with_reducible assumption
    | (intro x; first
        | (have hx : Keeps β σ x := ?_); clear_value x | (have hx : Keeps β σ x.2 := ?_); clear_value x
        | (have hx : Keeps β σ x.2.2 := ?_); clear_value x | clear_value x)
    | with_reducible apply knkGo_keeps | with_reducible apply fcount_keeps | with_reducible apply fset_keeps
    | with_reducible apply fnext_keeps | with_reducible apply knkWake_keeps | with_reducible apply Keeps.ite | split
    | simp only [Keeps.update] | lift_lets | subst x | dsimp only

theorem execPwrModeWrite_keeps {β : Bool} {σ s : State} (h : Keeps β σ s) (i : Init) (data : Word) :
    KeepsOut β σ (execPwrModeWrite i data s) := by
  unfold execPwrModeWrite
  repeat' first
    | with_reducible assumption | with_reducible apply KeepsOut.next | with_reducible apply doorStore_keeps
    | with_reducible apply pwrModeWrite_keeps | (intro u; intros) | dsimp only | split

theorem execEntryWfi_keeps {σ s : State} (h : Keeps false σ s) :
    KeepsOut false σ (execEntryWfi s) := by
  unfold execEntryWfi
  repeat' first
    | with_reducible assumption | with_reducible apply KeepsOut.next | with_reducible apply entryWfi_keeps
    | dsimp only | split

theorem execParticipantAnswer_keeps {σ s : State} (h : Keeps false σ s) (participant : Fin 12) :
    KeepsOut false σ (execParticipantAnswer participant s) := by
  unfold execParticipantAnswer
  repeat' first
    | with_reducible assumption | with_reducible apply KeepsOut.next | with_reducible apply partAnswers_keeps
    | dsimp only | split

theorem execPwrLcackWrite_keeps {σ s : State} (h : Keeps false σ s) (i : Init) (data : Word) :
    KeepsOut false σ (execPwrLcackWrite i data s) := by
  unfold execPwrLcackWrite
  repeat' first
    | with_reducible assumption | with_reducible apply KeepsOut.next | with_reducible apply doorStore_keeps
    | with_reducible apply pwrLcack_keeps | (intro u; intros) | dsimp only | split

theorem execHandshakeTimeout_keeps {β : Bool} {σ s : State} (h : Keeps β σ s) :
    KeepsOut β σ (execHandshakeTimeout s) := by
  unfold execHandshakeTimeout
  repeat' first
    | with_reducible assumption | with_reducible apply KeepsOut.next | with_reducible apply hsTimeout_keeps
    | dsimp only | split

theorem execModeReached_keeps {σ s : State} (h : Keeps false σ s) (nt : Word64) (air : Word64) :
    KeepsOut false σ (execModeReached nt air s) := by
  unfold execModeReached
  repeat' first
    | with_reducible assumption | with_reducible apply KeepsOut.next | with_reducible apply modeReached_keeps
    | dsimp only | split

theorem execWake_keeps {β : Bool} {σ s : State} (h : Keeps β σ s) (src : BitVec 3) (event : BitVec 10) :
    KeepsOut β σ (execWake src event s) := by
  unfold execWake
  repeat' first
    | with_reducible assumption | with_reducible apply KeepsOut.next | with_reducible apply wakeArrive_keeps
    | with_reducible apply Keeps.ite | split | dsimp only

theorem execModeExit_keeps {β : Bool} {σ s : State} (h : Keeps β σ s) (lfCycles : Nat) :
    KeepsOut β σ (execModeExit lfCycles s) := by
  unfold execModeExit
  repeat' first
    | with_reducible assumption | with_reducible apply KeepsOut.next | with_reducible apply modeExit_keeps
    | dsimp only | split

theorem execHallStartRetry_keeps {β : Bool} {σ s : State} (h : Keeps β σ s) (voutMode : Option (BitVec 8)) :
    KeepsOut β σ (execHallStartRetry voutMode s) := by
  unfold execHallStartRetry
  repeat' first
    | with_reducible assumption | with_reducible apply KeepsOut.next | with_reducible apply startRetry_keeps
    | dsimp only | split

theorem execPwrGateWrite_keeps {σ s : State} (h : Keeps false σ s) (i : Init) (data : Word) :
    KeepsOut false σ (execPwrGateWrite i data s) := by
  unfold execPwrGateWrite
  repeat' first
    | with_reducible assumption | with_reducible apply KeepsOut.next | with_reducible apply doorStore_keeps
    | with_reducible apply pwrGateWrite_keeps | (intro u; intros) | dsimp only | split

theorem execVcoreAck_keeps {σ s : State} (h : Keeps false σ s) :
    KeepsOut false σ (execVcoreAck s) := by
  unfold execVcoreAck
  repeat' first
    | with_reducible assumption | with_reducible apply KeepsOut.next | with_reducible apply vcoreAck_keeps
    | dsimp only | split

theorem execVcoreFail_keeps {σ s : State} (h : Keeps false σ s) (why : RegFail) :
    KeepsOut false σ (execVcoreFail why s) := by
  unfold execVcoreFail
  repeat' first
    | with_reducible assumption | with_reducible apply KeepsOut.next | with_reducible apply vcoreFail_keeps
    | dsimp only | split

theorem execVcoreDownHold_keeps {β : Bool} {σ s : State} (h : Keeps β σ s) :
    KeepsOut β σ (execVcoreDownHold s) := by
  unfold execVcoreDownHold
  repeat' first
    | with_reducible assumption | with_reducible apply KeepsOut.next | with_reducible apply vcoreDown_keeps
    | dsimp only | split

theorem execPmbAlert_keeps {β : Bool} {σ s : State} (h : Keeps β σ s) (status : BitVec 16) (vout : BitVec 8) :
    KeepsOut β σ (execPmbAlert status vout s) := by
  unfold execPmbAlert
  repeat' first
    | with_reducible assumption | with_reducible apply KeepsOut.next | with_reducible apply pmbAlert_keeps
    | dsimp only | split

theorem execBrownout_keeps {β : Bool} {σ s : State} (h : Keeps β σ s) (voutMode : Option (BitVec 8)) :
    KeepsOut β σ (execBrownout voutMode s) := by
  unfold execBrownout
  repeat' first
    | with_reducible assumption | with_reducible apply KeepsOut.next | with_reducible apply brownout_keeps
    | with_reducible apply startRead_keeps | (intro u; intros) | dsimp only | split

theorem execKnkEndOfPattern_keeps {β : Bool} {σ s : State} (h : Keeps β σ s) (target : BitVec 16) (crc : BitVec 8)
    (level : BitVec 8) (now : Nat) :
    KeepsOut β σ (execKnkEndOfPattern target crc level now s) := by
  unfold execKnkEndOfPattern
  repeat' first
    | with_reducible assumption | with_reducible apply KeepsOut.next | with_reducible apply knkEnd_keeps
    | dsimp only | split

theorem supPut_keeps {β : Bool} {σ s : State} (h : Keeps β σ s) (v : SupState) :
    Keeps β σ (supPut v s) := by
  unfold supPut
  repeat' first
    | with_reducible assumption | simp only [Keeps.update] | dsimp only | split

theorem supNote_keeps {β : Bool} {σ s : State} (h : Keeps β σ s) (k : Nat) :
    Keeps β σ (supNote k s) := by
  unfold supNote
  repeat' first
    | with_reducible assumption | with_reducible apply note_keeps | with_reducible apply owe_keeps
    | with_reducible apply fset_keeps | with_reducible apply Keeps.ite | split | dsimp only

theorem gaspStore_keeps {β : Bool} {σ s : State} (h : Keeps β σ s) (k : Nat) (agrees : Bool) :
    Keeps β σ (gaspStore k agrees s) := by
  unfold gaspStore
  try lift_lets
  repeat' first
    | with_reducible assumption
    | (intro x; first
        | (have hx : Keeps β σ x := ?_); clear_value x | (have hx : Keeps β σ x.2 := ?_); clear_value x
        | (have hx : Keeps β σ x.2.2 := ?_); clear_value x | clear_value x)
    | with_reducible apply jobDone_keeps | with_reducible apply fcDraw_keeps | with_reducible apply fset_keeps
    | with_reducible apply linkPut_keeps | with_reducible apply Keeps.ite | split | simp only [Keeps.update]
    | lift_lets | subst x | dsimp only

theorem gaspSeq_keeps {β : Bool} {σ s : State} (h : Keeps β σ s) (v : Nat) :
    Keeps β σ (gaspSeq v s) := by
  unfold gaspSeq
  repeat' first
    | with_reducible assumption | with_reducible apply fset_keeps | dsimp only | split

theorem gaspHop_keeps {β : Bool} {σ s : State} (h : Keeps β σ s) :
    Keeps β σ (gaspHop s) := by
  unfold gaspHop
  try lift_lets
  repeat' first
    | with_reducible assumption
    | (intro x; first
        | (have hx : Keeps β σ x := ?_); clear_value x | (have hx : Keeps β σ x.2 := ?_); clear_value x
        | (have hx : Keeps β σ x.2.2 := ?_); clear_value x | clear_value x)
    | with_reducible apply residenceEnd_keeps | with_reducible apply fePut_keeps
    | with_reducible apply feCtlPins_keeps | with_reducible apply feLock_keeps | with_reducible apply fset_keeps
    | simp only [Keeps.update] | lift_lets | subst x | dsimp only | split

theorem gaspEnd_keeps {β : Bool} {σ s : State} (h : Keeps β σ s) (res : Nat) :
    Keeps β σ (gaspEnd res s) := by
  unfold gaspEnd
  try lift_lets
  repeat' first
    | with_reducible assumption
    | (intro x; first
        | (have hx : Keeps β σ x := ?_); clear_value x | (have hx : Keeps β σ x.2 := ?_); clear_value x
        | (have hx : Keeps β σ x.2.2 := ?_); clear_value x | clear_value x)
    | with_reducible apply gaspSeq_keeps | with_reducible apply fset_keeps | with_reducible apply supPut_keeps
    | with_reducible apply feWalk_keeps | with_reducible apply feSleepNow_keeps | with_reducible apply pdSet_keeps
    | with_reducible apply raiseEvt_keeps | with_reducible apply radioOwner_keeps
    | with_reducible apply supNote_keeps | with_reducible apply Keeps.ite
    | (with_reducible apply Keeps.foldl; intro u y hu) | split | simp only [Keeps.update] | lift_lets | subst x
    | dsimp only

theorem gaspBegin_keeps {β : Bool} {σ s : State} (h : Keeps β σ s) :
    Keeps β σ (gaspBegin s) := by
  unfold gaspBegin
  try lift_lets
  repeat' first
    | with_reducible assumption
    | (intro x; first
        | (have hx : Keeps β σ x := ?_); clear_value x | (have hx : Keeps β σ x.2 := ?_); clear_value x
        | (have hx : Keeps β σ x.2.2 := ?_); clear_value x | clear_value x)
    | with_reducible apply raiseEvt_keeps | with_reducible apply airAbort_keeps | with_reducible apply gaspSeq_keeps
    | with_reducible apply fset_keeps | with_reducible apply radioOwner_keeps | with_reducible apply supNote_keeps
    | with_reducible apply supPut_keeps | with_reducible apply gaspEnd_keeps | with_reducible apply pdSet_keeps
    | with_reducible apply licStart_keeps | with_reducible apply gaspHop_keeps | with_reducible apply Keeps.ite
    | (with_reducible apply Keeps.foldl; intro u y hu) | split | simp only [Keeps.update] | lift_lets | subst x
    | dsimp only

theorem gaspStage_keeps {β : Bool} {σ s : State} (h : Keeps β σ s) (f : GaspRun → GaspRun) :
    Keeps β σ (gaspStage f s) := by
  unfold gaspStage
  repeat' first
    | with_reducible assumption | with_reducible apply supPut_keeps | simp only [Keeps.update] | dsimp only | split

theorem gaspPower_keeps {β : Bool} {σ s : State} (h : Keeps β σ s) (g : GaspStore) (temp : BitVec 16) (vpa : Nat) :
    Keeps β σ (gaspPower g temp vpa s) := by
  unfold gaspPower
  try lift_lets
  repeat' first
    | with_reducible assumption
    | (intro x; first
        | (have hx : Keeps β σ x := ?_); clear_value x | (have hx : Keeps β σ x.2 := ?_); clear_value x
        | (have hx : Keeps β σ x.2.2 := ?_); clear_value x | clear_value x)
    | with_reducible apply wr_keeps | with_reducible apply fset_keeps | with_reducible apply txPowerSet_keeps
    | lift_lets | subst x | dsimp only | split

theorem gaspTransit_keeps {β : Bool} {σ s : State} (h : Keeps β σ s) (g : GaspStore) (tick : Nat) (temp : BitVec 16)
    (vpa : Nat) :
    Keeps β σ (gaspTransit g tick temp vpa s) := by
  unfold gaspTransit
  try lift_lets
  repeat' first
    | with_reducible assumption
    | (intro x; first
        | (have hx : Keeps β σ x := ?_); clear_value x | (have hx : Keeps β σ x.2 := ?_); clear_value x
        | (have hx : Keeps β σ x.2.2 := ?_); clear_value x | clear_value x)
    | with_reducible apply gaspPower_keeps | with_reducible apply fset_keeps | with_reducible apply fePut_keeps
    | with_reducible apply feCtlPins_keeps | with_reducible apply knkDeaf_keeps
    | with_reducible apply fdxStart_keeps | with_reducible apply Keeps.ite | split | simp only [Keeps.update]
    | lift_lets | subst x | dsimp only

theorem gaspAttempt_keeps {β : Bool} {σ s : State} (h : Keeps β σ s) (nt : Word64) (tick : Nat) (vhold : Nat) (temp
    : BitVec 16) (vpa : Nat) :
    Keeps β σ (gaspAttempt nt tick vhold temp vpa s) := by
  unfold gaspAttempt
  try lift_lets
  repeat' first
    | with_reducible assumption
    | (intro x; first
        | (have hx : Keeps β σ x := ?_); clear_value x | (have hx : Keeps β σ x.2 := ?_); clear_value x
        | (have hx : Keeps β σ x.2.2 := ?_); clear_value x | clear_value x)
    | with_reducible apply fset_keeps | with_reducible apply gaspEnd_keeps | with_reducible apply gaspTransit_keeps
    | with_reducible apply wr64_keeps | with_reducible apply gaspStage_keeps | with_reducible apply stage_keeps
    | with_reducible apply Keeps.ite | split | simp only [Keeps.update] | lift_lets | subst x | dsimp only

theorem gaspCca_keeps {β : Bool} {σ s : State} (h : Keeps β σ s) (level : Int) :
    Keeps β σ (gaspCca level s) := by
  unfold gaspCca
  try lift_lets
  repeat' first
    | with_reducible assumption
    | (intro x; first
        | (have hx : Keeps β σ x := ?_); clear_value x | (have hx : Keeps β σ x.2 := ?_); clear_value x
        | (have hx : Keeps β σ x.2.2 := ?_); clear_value x | clear_value x)
    | with_reducible apply gaspStage_keeps | with_reducible apply stage_keeps | with_reducible apply gaspEnd_keeps
    | with_reducible apply Keeps.ite | split | simp only [Keeps.update] | lift_lets | subst x | dsimp only

theorem gaspCut_keeps {β : Bool} {σ s : State} (h : Keeps β σ s) :
    Keeps β σ (gaspCut s) := by
  unfold gaspCut
  repeat' first
    | with_reducible assumption | with_reducible apply fset_keeps | with_reducible apply fePut_keeps
    | with_reducible apply gaspStage_keeps | with_reducible apply stage_keeps | with_reducible apply Keeps.ite
    | split | simp only [Keeps.update] | dsimp only

theorem gaspNext_keeps {β : Bool} {σ s : State} (h : Keeps β σ s) (r : GaspRun) :
    Keeps β σ (gaspNext r s) := by
  unfold gaspNext
  repeat' first
    | with_reducible assumption | with_reducible apply gaspSeq_keeps | with_reducible apply gaspStage_keeps
    | with_reducible apply stage_keeps | with_reducible apply gaspEnd_keeps | with_reducible apply Keeps.ite | split
    | simp only [Keeps.update] | dsimp only

theorem gaspFrameEnd_keeps {β : Bool} {σ s : State} (h : Keeps β σ s) (tick : Nat) (radiated : Nat) (temp : BitVec
    16) :
    Keeps β σ (gaspFrameEnd tick radiated temp s) := by
  unfold gaspFrameEnd
  try lift_lets
  repeat' first
    | with_reducible assumption
    | (intro x; first
        | (have hx : Keeps β σ x := ?_); clear_value x | (have hx : Keeps β σ x.2 := ?_); clear_value x
        | (have hx : Keeps β σ x.2.2 := ?_); clear_value x | clear_value x)
    | with_reducible apply dutyCharge_keeps | with_reducible apply txRelease_keeps | with_reducible apply fset_keeps
    | with_reducible apply gaspStage_keeps | with_reducible apply gaspEnd_keeps | with_reducible apply gaspSeq_keeps
    | with_reducible apply stage_keeps | with_reducible apply gaspNext_keeps | with_reducible apply Keeps.ite
    | split | simp only [Keeps.update] | lift_lets | subst x | dsimp only

theorem gaspAckWindow_keeps {β : Bool} {σ s : State} (h : Keeps β σ s) (level : Int) :
    Keeps β σ (gaspAckWindow level s) := by
  unfold gaspAckWindow
  repeat' first
    | with_reducible assumption | with_reducible apply gaspEnd_keeps | with_reducible apply fset_keeps
    | with_reducible apply gaspNext_keeps | with_reducible apply Keeps.ite | split | simp only [Keeps.update]
    | dsimp only

theorem gaspTamper_keeps {β : Bool} {σ s : State} (h : Keeps β σ s) :
    Keeps β σ (gaspTamper s) := by
  unfold gaspTamper
  repeat' first
    | with_reducible assumption | with_reducible apply fePut_keeps | with_reducible apply gaspStage_keeps
    | with_reducible apply gaspEnd_keeps | split | simp only [Keeps.update] | dsimp only

theorem execLastGaspStore_keeps {β : Bool} {σ s : State} (h : Keeps β σ s) (slot : BitVec 2) (agrees : Bool) :
    KeepsOut β σ (execLastGaspStore slot agrees s) := by
  unfold execLastGaspStore
  repeat' first
    | with_reducible assumption | with_reducible apply KeepsOut.next | with_reducible apply gaspStore_keeps
    | dsimp only | split

theorem execLgAttempt_keeps {β : Bool} {σ s : State} (h : Keeps β σ s) (nt : Word64) (tick : Word64) (vhold : BitVec
    11) (temp : BitVec 16) (vpa : BitVec 12) :
    KeepsOut β σ (execLgAttempt nt tick vhold temp vpa s) := by
  unfold execLgAttempt
  repeat' first
    | with_reducible assumption | with_reducible apply KeepsOut.next | with_reducible apply gaspAttempt_keeps
    | dsimp only | split

theorem execLgCca_keeps {β : Bool} {σ s : State} (h : Keeps β σ s) (level : BitVec 16) :
    KeepsOut β σ (execLgCca level s) := by
  unfold execLgCca
  repeat' first
    | with_reducible assumption | with_reducible apply KeepsOut.next | with_reducible apply gaspCca_keeps
    | dsimp only | split

theorem execLgCut_keeps {β : Bool} {σ s : State} (h : Keeps β σ s) :
    KeepsOut β σ (execLgCut s) := by
  unfold execLgCut
  repeat' first
    | with_reducible assumption | with_reducible apply KeepsOut.next | with_reducible apply gaspCut_keeps
    | dsimp only | split

theorem execLgFrameEnd_keeps {β : Bool} {σ s : State} (h : Keeps β σ s) (tick : Word64) (radiated : Word64) (temp :
    BitVec 16) :
    KeepsOut β σ (execLgFrameEnd tick radiated temp s) := by
  unfold execLgFrameEnd
  repeat' first
    | with_reducible assumption | with_reducible apply KeepsOut.next | with_reducible apply gaspFrameEnd_keeps
    | dsimp only | split

theorem execLgAckWindow_keeps {β : Bool} {σ s : State} (h : Keeps β σ s) (level : BitVec 16) :
    KeepsOut β σ (execLgAckWindow level s) := by
  unfold execLgAckWindow
  repeat' first
    | with_reducible assumption | with_reducible apply KeepsOut.next | with_reducible apply gaspAckWindow_keeps
    | dsimp only | split

theorem supChanPut_keeps {β : Bool} {σ s : State} (h : Keeps β σ s) (c : Nat) (v : SupChan) :
    Keeps β σ (supChanPut c v s) := by
  unfold supChanPut
  repeat' first
    | with_reducible assumption | with_reducible apply supPut_keeps | simp only [Keeps.update] | dsimp only | split

theorem supErr_keeps {β : Bool} {σ s : State} (h : Keeps β σ s) (f : Fld) :
    Keeps β σ (supErr f s) := by
  unfold supErr
  repeat' first
    | with_reducible assumption | with_reducible apply note_keeps | dsimp only | split

theorem supRecord_keeps {β : Bool} {σ s : State} (h : Keeps β σ s) (r : SupRecord) :
    Keeps β σ (supRecord r s) := by
  unfold supRecord
  try lift_lets
  repeat' first
    | with_reducible assumption
    | (intro x; first
        | (have hx : Keeps β σ x := ?_); clear_value x | (have hx : Keeps β σ x.2 := ?_); clear_value x
        | (have hx : Keeps β σ x.2.2 := ?_); clear_value x | clear_value x)
    | with_reducible apply fcount_keeps | with_reducible apply fset_keeps | with_reducible apply supPut_keeps
    | with_reducible apply supNote_keeps | with_reducible apply Keeps.ite | split | simp only [Keeps.update]
    | lift_lets | subst x | dsimp only

theorem supPop_keeps {β : Bool} {σ s : State} (h : Keeps β σ s) (i : Init) :
    Keeps β σ (supPop i s).2 := by
  unfold supPop
  try lift_lets
  repeat' first
    | with_reducible assumption
    | (intro x; first
        | (have hx : Keeps β σ x := ?_); clear_value x | (have hx : Keeps β σ x.2 := ?_); clear_value x
        | (have hx : Keeps β σ x.2.2 := ?_); clear_value x | clear_value x)
    | with_reducible apply supPut_keeps | with_reducible apply wrList_keeps | with_reducible apply fset_keeps
    | with_reducible apply capturePut_keeps | simp only [Keeps.update] | lift_lets | subst x | dsimp only | split

theorem supSag_keeps {β : Bool} {σ s : State} (h : Keeps β σ s) (v : SupSeen) :
    Keeps β σ (supSag v s) := by
  unfold supSag
  try lift_lets
  repeat' first
    | with_reducible assumption
    | (intro x; first
        | (have hx : Keeps β σ x := ?_); clear_value x | (have hx : Keeps β σ x.2 := ?_); clear_value x
        | (have hx : Keeps β σ x.2.2 := ?_); clear_value x | clear_value x)
    | with_reducible apply supChanPut_keeps | with_reducible apply supRecord_keeps | with_reducible apply fset_keeps
    | with_reducible apply supNote_keeps | with_reducible apply Keeps.ite | split | simp only [Keeps.update]
    | lift_lets | subst x | dsimp only

theorem supSwell_keeps {β : Bool} {σ s : State} (h : Keeps β σ s) (v : SupSeen) :
    Keeps β σ (supSwell v s) := by
  unfold supSwell
  try lift_lets
  repeat' first
    | with_reducible assumption
    | (intro x; first
        | (have hx : Keeps β σ x := ?_); clear_value x | (have hx : Keeps β σ x.2 := ?_); clear_value x
        | (have hx : Keeps β σ x.2.2 := ?_); clear_value x | clear_value x)
    | with_reducible apply supChanPut_keeps | with_reducible apply supRecord_keeps | with_reducible apply fset_keeps
    | with_reducible apply supNote_keeps | with_reducible apply Keeps.ite | split | simp only [Keeps.update]
    | lift_lets | subst x | dsimp only

theorem supOutage_keeps {β : Bool} {σ s : State} (h : Keeps β σ s) (v : SupSeen) (cond : SupCond) :
    Keeps β σ (supOutage v cond s) := by
  unfold supOutage
  try lift_lets
  repeat' first
    | with_reducible assumption
    | (intro x; first
        | (have hx : Keeps β σ x := ?_); clear_value x | (have hx : Keeps β σ x.2 := ?_); clear_value x
        | (have hx : Keeps β σ x.2.2 := ?_); clear_value x | clear_value x)
    | with_reducible apply fset_keeps | with_reducible apply supChanPut_keeps | with_reducible apply supNote_keeps
    | with_reducible apply supRecord_keeps | with_reducible apply gaspBegin_keeps | with_reducible apply Keeps.ite
    | split | simp only [Keeps.update] | lift_lets | subst x | dsimp only

theorem supOut_keeps {β : Bool} {σ s : State} (h : Keeps β σ s) (v : SupSeen) (n : Nat) :
    Keeps β σ (supOut v n s) := by
  unfold supOut
  try lift_lets
  repeat' first
    | with_reducible assumption
    | (intro x; first
        | (have hx : Keeps β σ x := ?_); clear_value x | (have hx : Keeps β σ x.2 := ?_); clear_value x
        | (have hx : Keeps β σ x.2.2 := ?_); clear_value x | clear_value x)
    | with_reducible apply supChanPut_keeps | with_reducible apply fset_keeps | with_reducible apply supNote_keeps
    | with_reducible apply supRecord_keeps | with_reducible apply wakeArrive_keeps
    | with_reducible apply supOutage_keeps | with_reducible apply Keeps.ite | split | simp only [Keeps.update]
    | lift_lets | subst x | dsimp only

theorem supRefresh_keeps {β : Bool} {σ s : State} (h : Keeps β σ s) (c : Nat) (rms : Nat) (nt : Nat) (n : Nat)
    (above : Bool) (dist : Bool) (lost : Bool) :
    Keeps β σ (supRefresh c rms nt n above dist lost s) := by
  unfold supRefresh
  try lift_lets
  repeat' first
    | with_reducible assumption
    | (intro x; first
        | (have hx : Keeps β σ x := ?_); clear_value x | (have hx : Keeps β σ x.2 := ?_); clear_value x
        | (have hx : Keeps β σ x.2.2 := ?_); clear_value x | clear_value x)
    | with_reducible apply fset_keeps | with_reducible apply supOut_keeps | with_reducible apply supSwell_keeps
    | with_reducible apply supSag_keeps | with_reducible apply Keeps.ite | split | lift_lets | subst x | dsimp only

theorem supFast_keeps {β : Bool} {σ s : State} (h : Keeps β σ s) (c : Nat) (nt : Nat) (flag : Bool) :
    Keeps β σ (supFast c nt flag s) := by
  unfold supFast
  try lift_lets
  repeat' first
    | with_reducible assumption
    | (intro x; first
        | (have hx : Keeps β σ x := ?_); clear_value x | (have hx : Keeps β σ x.2 := ?_); clear_value x
        | (have hx : Keeps β σ x.2.2 := ?_); clear_value x | clear_value x)
    | with_reducible apply supOutage_keeps | with_reducible apply Keeps.ite | split | lift_lets | subst x
    | dsimp only

theorem supCrossing_keeps {β : Bool} {σ s : State} (h : Keeps β σ s) (c : Nat) (nt : Nat) (freq : Nat) :
    Keeps β σ (supCrossing c nt freq s) := by
  unfold supCrossing
  try lift_lets
  repeat' first
    | with_reducible assumption
    | (intro x; first
        | (have hx : Keeps β σ x := ?_); clear_value x | (have hx : Keeps β σ x.2 := ?_); clear_value x
        | (have hx : Keeps β σ x.2.2 := ?_); clear_value x | clear_value x)
    | with_reducible apply fset_keeps | with_reducible apply wr64_keeps | with_reducible apply Keeps.ite | split
    | lift_lets | subst x | dsimp only

theorem supDisturbed_keeps {β : Bool} {σ s : State} (h : Keeps β σ s) :
    Keeps β σ (supDisturbed s) := by
  unfold supDisturbed
  repeat' first
    | with_reducible assumption | with_reducible apply fset_keeps | (with_reducible apply Keeps.foldl; intro u y hu)
    | dsimp only | split

theorem supOverRange_keeps {β : Bool} {σ s : State} (h : Keeps β σ s) (c : Nat) (negative : Bool) :
    Keeps β σ (supOverRange c negative s) := by
  unfold supOverRange
  try lift_lets
  repeat' first
    | with_reducible assumption
    | (intro x; first
        | (have hx : Keeps β σ x := ?_); clear_value x | (have hx : Keeps β σ x.2 := ?_); clear_value x
        | (have hx : Keeps β σ x.2.2 := ?_); clear_value x | clear_value x)
    | with_reducible apply fset_keeps | with_reducible apply supNote_keeps | with_reducible apply supDisturbed_keeps
    | with_reducible apply supPut_keeps | with_reducible apply Keeps.ite | split | simp only [Keeps.update]
    | lift_lets | subst x | dsimp only

theorem supDisturbEnd_keeps {β : Bool} {σ s : State} (h : Keeps β σ s) (c : Nat) :
    Keeps β σ (supDisturbEnd c s) := by
  unfold supDisturbEnd
  repeat' first
    | with_reducible assumption | with_reducible apply supDisturbed_keeps | with_reducible apply fset_keeps
    | with_reducible apply supPut_keeps | with_reducible apply Keeps.ite | split | simp only [Keeps.update]
    | dsimp only

theorem secSlew_keeps {β : Bool} {σ s : State} (h : Keeps β σ s) :
    Keeps β σ (secSlew s) := by
  unfold secSlew
  try lift_lets
  repeat' first
    | with_reducible assumption
    | (intro x; first
        | (have hx : Keeps β σ x := ?_); clear_value x | (have hx : Keeps β σ x.2 := ?_); clear_value x
        | (have hx : Keeps β σ x.2.2 := ?_); clear_value x | clear_value x)
    | with_reducible apply timeRem_keeps | with_reducible apply Keeps.ite | split | lift_lets | subst x | dsimp only

theorem secQuality_keeps {β : Bool} {σ s : State} (h : Keeps β σ s) :
    Keeps β σ (secQuality s) := by
  unfold secQuality
  try lift_lets
  repeat' first
    | with_reducible assumption
    | (intro x; first
        | (have hx : Keeps β σ x := ?_); clear_value x | (have hx : Keeps β σ x.2 := ?_); clear_value x
        | (have hx : Keeps β σ x.2.2 := ?_); clear_value x | clear_value x)
    | with_reducible apply timePut_keeps | with_reducible apply wr_keeps | with_reducible apply timeQual_keeps
    | with_reducible apply Keeps.ite | split | simp only [Keeps.update] | lift_lets | subst x | dsimp only

theorem secPulse_keeps {β : Bool} {σ s : State} (h : Keeps β σ s) (tick : Nat) :
    Keeps β σ (secPulse tick s) := by
  unfold secPulse
  repeat' first
    | with_reducible assumption | with_reducible apply fcount_keeps | with_reducible apply timePut_keeps
    | with_reducible apply Keeps.ite | split | simp only [Keeps.update] | dsimp only

theorem secStep_keeps {β : Bool} {σ s : State} (h : Keeps β σ s) (sec : Nat) :
    Keeps β σ (secStep sec s) := by
  unfold secStep
  try lift_lets
  repeat' first
    | with_reducible assumption
    | (intro x; first
        | (have hx : Keeps β σ x := ?_); clear_value x | (have hx : Keeps β σ x.2 := ?_); clear_value x
        | (have hx : Keeps β σ x.2.2 := ?_); clear_value x | clear_value x)
    | with_reducible apply timeStep_keeps | with_reducible apply timeRem_keeps | with_reducible apply timePut_keeps
    | with_reducible apply timeNote_keeps | with_reducible apply fcount_keeps | with_reducible apply wr64_keeps
    | split | simp only [Keeps.update] | lift_lets | subst x | dsimp only

theorem secF10_keeps {β : Bool} {σ s : State} (h : Keeps β σ s) (sec : Nat) (f10 : Nat) :
    Keeps β σ (secF10 sec f10 s) := by
  unfold secF10
  try lift_lets
  repeat' first
    | with_reducible assumption
    | (intro x; first
        | (have hx : Keeps β σ x := ?_); clear_value x | (have hx : Keeps β σ x.2 := ?_); clear_value x
        | (have hx : Keeps β σ x.2.2 := ?_); clear_value x | clear_value x)
    | with_reducible apply fset_keeps | with_reducible apply Keeps.ite | split | lift_lets | subst x | dsimp only

theorem timeSecond_keeps {β : Bool} {σ s : State} (h : Keeps β σ s) (sec : Nat) (tick : Nat) (f10 : Nat) :
    Keeps β σ (timeSecond sec tick f10 s) := by
  unfold timeSecond
  repeat' first
    | with_reducible assumption | with_reducible apply secF10_keeps | with_reducible apply secStep_keeps
    | with_reducible apply secPulse_keeps | with_reducible apply secQuality_keeps
    | with_reducible apply secSlew_keeps | with_reducible apply raiseEvt_keeps | with_reducible apply Keeps.ite
    | split | dsimp only

theorem execSupZeroCrossing_keeps {β : Bool} {σ s : State} (h : Keeps β σ s) (chan : BitVec 2) (nt : Word64) (freq :
    BitVec 24) :
    KeepsOut β σ (execSupZeroCrossing chan nt freq s) := by
  unfold execSupZeroCrossing
  repeat' first
    | with_reducible assumption | with_reducible apply KeepsOut.next | with_reducible apply supCrossing_keeps
    | dsimp only | split

theorem execSupRmsRefresh_keeps {β : Bool} {σ s : State} (h : Keeps β σ s) (chan : BitVec 2) (rms : BitVec 24) (nt :
    Word64) (sample : Nat) (above : Bool) (dist : Bool) (lost : Bool) :
    KeepsOut β σ (execSupRmsRefresh chan rms nt sample above dist lost s) := by
  unfold execSupRmsRefresh
  repeat' first
    | with_reducible assumption | with_reducible apply KeepsOut.next | with_reducible apply supRefresh_keeps
    | dsimp only | split

theorem execSupFastOutage_keeps {β : Bool} {σ s : State} (h : Keeps β σ s) (chan : BitVec 2) (nt : Word64) (flag :
    Bool) :
    KeepsOut β σ (execSupFastOutage chan nt flag s) := by
  unfold execSupFastOutage
  repeat' first
    | with_reducible assumption | with_reducible apply KeepsOut.next | with_reducible apply supFast_keeps
    | dsimp only | split

theorem execSupDisturbEnd_keeps {β : Bool} {σ s : State} (h : Keeps β σ s) (chan : BitVec 2) :
    KeepsOut β σ (execSupDisturbEnd chan s) := by
  unfold execSupDisturbEnd
  repeat' first
    | with_reducible assumption | with_reducible apply KeepsOut.next | with_reducible apply supDisturbEnd_keeps
    | dsimp only | split

theorem execSupOverrun_keeps {β : Bool} {σ s : State} (h : Keeps β σ s) :
    KeepsOut β σ (execSupOverrun s) := by
  unfold execSupOverrun
  repeat' first
    | with_reducible assumption | with_reducible apply KeepsOut.next | with_reducible apply supErr_keeps
    | with_reducible apply Keeps.ite | split | dsimp only

theorem execSupOverRange_keeps {β : Bool} {σ s : State} (h : Keeps β σ s) (chan : BitVec 2) (negative : Bool) :
    KeepsOut β σ (execSupOverRange chan negative s) := by
  unfold execSupOverRange
  repeat' first
    | with_reducible assumption | with_reducible apply KeepsOut.next | with_reducible apply supOverRange_keeps
    | dsimp only | split

theorem execSupRecordPop_keeps {β : Bool} {σ s : State} (h : Keeps β σ s) (i : Init) :
    KeepsOut β σ (execSupRecordPop i s) := by
  unfold execSupRecordPop
  repeat' first
    | with_reducible assumption | with_reducible apply KeepsOut.next | with_reducible apply doorLoad_keeps
    | with_reducible apply supPop_keeps | (intro u; intros) | dsimp only | split

theorem execTimeSec_keeps {β : Bool} {σ s : State} (h : Keeps β σ s) (sec : Word64) (tick : Word64) (f10 : BitVec
    24) :
    KeepsOut β σ (execTimeSec sec tick f10 s) := by
  unfold execTimeSec
  repeat' first
    | with_reducible assumption | with_reducible apply KeepsOut.next | with_reducible apply timeSecond_keeps
    | dsimp only | split

theorem tampRecord_keeps {β : Bool} {σ s : State} (h : Keeps β σ s) (c : Nat) :
    Keeps β σ (tampRecord c s) := by
  unfold tampRecord
  try lift_lets
  repeat' first
    | with_reducible assumption
    | (intro x; first
        | (have hx : Keeps β σ x := ?_); clear_value x | (have hx : Keeps β σ x.2 := ?_); clear_value x
        | (have hx : Keeps β σ x.2.2 := ?_); clear_value x | clear_value x)
    | with_reducible apply wr_keeps | with_reducible apply lanternNote_keeps | with_reducible apply fset_keeps
    | lift_lets | subst x | dsimp only | split

theorem tampDestroy_keeps {σ s : State} (h : Keeps false σ s) :
    Keeps false σ (tampDestroy s) := by
  unfold tampDestroy
  try lift_lets
  repeat' first
    | with_reducible assumption
    | (intro x; first
        | (have hx : Keeps false σ x := ?_); clear_value x | (have hx : Keeps false σ x.2 := ?_); clear_value x
        | (have hx : Keeps false σ x.2.2 := ?_); clear_value x | clear_value x)
    | with_reducible apply gaspTamper_keeps | with_reducible apply airAbort_keeps | with_reducible apply fset_keeps
    | with_reducible apply cipZeroise_keeps | with_reducible apply hallReset_keeps
    | with_reducible apply powPut_keeps | with_reducible apply Keeps.ite | (intro u; intros) | split
    | simp only [Keeps.update] | lift_lets | subst x | dsimp only

theorem tampTrip_keeps {σ s : State} (h : Keeps false σ s) (c : Nat) :
    Keeps false σ (tampTrip c s) := by
  unfold tampTrip
  repeat' first
    | with_reducible assumption | with_reducible apply tampRecord_keeps | with_reducible apply tampDestroy_keeps
    | with_reducible apply Keeps.ite | split | simp only [Keeps.update] | dsimp only

theorem vaultErased_keeps {β : Bool} {σ s : State} (h : Keeps β σ s) :
    Keeps β σ (vaultErased s) := by
  unfold vaultErased
  try lift_lets
  repeat' first
    | with_reducible assumption
    | (intro x; first
        | (have hx : Keeps β σ x := ?_); clear_value x | (have hx : Keeps β σ x.2 := ?_); clear_value x
        | (have hx : Keeps β σ x.2.2 := ?_); clear_value x | clear_value x)
    | with_reducible apply fset_keeps | with_reducible apply startAttempt_keeps | with_reducible apply hallPut_keeps
    | with_reducible apply Keeps.ite | split | simp only [Keeps.update] | lift_lets | subst x | dsimp only

theorem tampLocked_keeps {β : Bool} {σ s : State} (h : Keeps β σ s) :
    Keeps β σ (tampLocked s) := by
  unfold tampLocked
  repeat' first
    | with_reducible assumption | with_reducible apply fset_keeps | dsimp only | split

theorem tampCfgWrite_keeps {β : Bool} {σ s : State} (h : Keeps β σ s) (steward : Bool) (data : Word) :
    Keeps β σ (tampCfgWrite steward data s) := by
  unfold tampCfgWrite
  repeat' first
    | with_reducible assumption | with_reducible apply tampLocked_keeps | with_reducible apply wr_keeps
    | with_reducible apply Keeps.ite | split | (refine Keeps.of_pair (by assumption) ?_) | dsimp only

theorem loopSeed_keeps {β : Bool} {σ s : State} (h : Keeps β σ s) (k : Nat) :
    Keeps β σ (loopSeed k s) := by
  unfold loopSeed
  try lift_lets
  repeat' first
    | with_reducible assumption
    | (intro x; first
        | (have hx : Keeps β σ x := ?_); clear_value x | (have hx : Keeps β σ x.2 := ?_); clear_value x
        | (have hx : Keeps β σ x.2.2 := ?_); clear_value x | clear_value x)
    | (apply rngTake_keeps; rotate_left; assumption) | with_reducible apply drawFree_keeps | split
    | simp only [Keeps.update] | lift_lets | subst x | dsimp only

theorem tampLoopWrite_keeps {β : Bool} {σ s : State} (h : Keeps β σ s) (data : Word) :
    Keeps β σ (tampLoopWrite data s) := by
  unfold tampLoopWrite
  try lift_lets
  repeat' first
    | with_reducible assumption
    | (intro x; first
        | (have hx : Keeps β σ x := ?_); clear_value x | (have hx : Keeps β σ x.2 := ?_); clear_value x
        | (have hx : Keeps β σ x.2.2 := ?_); clear_value x | clear_value x)
    | with_reducible apply tampLocked_keeps | with_reducible apply loopSeed_keeps | with_reducible apply wr_keeps
    | with_reducible apply Keeps.ite | (with_reducible apply Keeps.foldl; intro u y hu) | split | lift_lets
    | subst x | dsimp only

theorem wdogExpire_keeps {σ s : State} (h : Keeps false σ s) (r : Nat) :
    Keeps false σ (wdogExpire r s) := by
  unfold wdogExpire
  try lift_lets
  repeat' first
    | with_reducible assumption
    | (intro x; first
        | (have hx : Keeps false σ x := ?_); clear_value x | (have hx : Keeps false σ x.2 := ?_); clear_value x
        | (have hx : Keeps false σ x.2.2 := ?_); clear_value x | clear_value x)
    | with_reducible apply raiseEvt_keeps | with_reducible apply fset_keeps | with_reducible apply hallRestart_keeps
    | with_reducible apply suspendRoom_keeps | with_reducible apply Keeps.ite | split | lift_lets | subst x
    | dsimp only

theorem execTamperTrip_keeps {σ s : State} (h : Keeps false σ s) (src : BitVec 3) :
    KeepsOut false σ (execTamperTrip src s) := by
  unfold execTamperTrip
  repeat' first
    | with_reducible assumption | with_reducible apply KeepsOut.next | with_reducible apply tampTrip_keeps
    | dsimp only | split

theorem execVaultEraseDone_keeps {β : Bool} {σ s : State} (h : Keeps β σ s) :
    KeepsOut β σ (execVaultEraseDone s) := by
  unfold execVaultEraseDone
  repeat' first
    | with_reducible assumption | with_reducible apply KeepsOut.next | with_reducible apply vaultErased_keeps
    | dsimp only | split

theorem execRoomWdog_keeps {σ s : State} (h : Keeps false σ s) (room : BitVec 6) :
    KeepsOut false σ (execRoomWdog room s) := by
  unfold execRoomWdog
  repeat' first
    | with_reducible assumption | with_reducible apply KeepsOut.next | with_reducible apply wdogExpire_keeps
    | dsimp only | split

theorem calSecPut_keeps {β : Bool} {σ s : State} (h : Keeps β σ s) (t : Nat) :
    Keeps β σ (calSecPut t s) := by
  unfold calSecPut
  repeat' first
    | with_reducible assumption | with_reducible apply wr_keeps | dsimp only | split

theorem calShow_keeps {β : Bool} {σ s : State} (h : Keeps β σ s) (t : Nat) :
    Keeps β σ (calShow t s) := by
  unfold calShow
  try lift_lets
  repeat' first
    | with_reducible assumption
    | (intro x; first
        | (have hx : Keeps β σ x := ?_); clear_value x | (have hx : Keeps β σ x.2 := ?_); clear_value x
        | (have hx : Keeps β σ x.2.2 := ?_); clear_value x | clear_value x)
    | with_reducible apply wr_keeps | lift_lets | subst x | dsimp only | split

theorem alarmCompare_keeps {β : Bool} {σ s : State} (h : Keeps β σ s) (k : Nat) :
    Keeps β σ (alarmCompare k s) := by
  unfold alarmCompare
  try lift_lets
  repeat' first
    | with_reducible assumption
    | (intro x; first
        | (have hx : Keeps β σ x := ?_); clear_value x | (have hx : Keeps β σ x.2 := ?_); clear_value x
        | (have hx : Keeps β σ x.2.2 := ?_); clear_value x | clear_value x)
    | with_reducible apply calNote_keeps | with_reducible apply wakeArrive_keeps | with_reducible apply pwrOn_keeps
    | with_reducible apply Keeps.ite | split | lift_lets | subst x | dsimp only

theorem alarms_keeps {β : Bool} {σ s : State} (h : Keeps β σ s) :
    Keeps β σ (alarms s) := by
  unfold alarms
  repeat' first
    | with_reducible assumption | with_reducible apply alarmCompare_keeps | dsimp only | split

theorem calSecond_keeps {β : Bool} {σ s : State} (h : Keeps β σ s) :
    Keeps β σ (calSecond s) := by
  unfold calSecond
  try lift_lets
  repeat' first
    | with_reducible assumption
    | (intro x; first
        | (have hx : Keeps β σ x := ?_); clear_value x | (have hx : Keeps β σ x.2 := ?_); clear_value x
        | (have hx : Keeps β σ x.2.2 := ?_); clear_value x | clear_value x)
    | with_reducible apply calSecPut_keeps | with_reducible apply calNote_keeps | with_reducible apply fset_keeps
    | with_reducible apply calShow_keeps | with_reducible apply alarms_keeps | with_reducible apply Keeps.ite
    | split | lift_lets | subst x | dsimp only

theorem calPut_keeps {β : Bool} {σ s : State} (h : Keeps β σ s) (t : Nat) (synced : Bool) :
    Keeps β σ (calPut t synced s) := by
  unfold calPut
  repeat' first
    | with_reducible assumption | with_reducible apply alarms_keeps | with_reducible apply fset_keeps
    | with_reducible apply calShow_keeps | with_reducible apply calSecPut_keeps | dsimp only | split

theorem calCmd_keeps {β : Bool} {σ s : State} (h : Keeps β σ s) (data : Word) :
    Keeps β σ (calCmd data s) := by
  unfold calCmd
  try lift_lets
  repeat' first
    | with_reducible assumption
    | (intro x; first
        | (have hx : Keeps β σ x := ?_); clear_value x | (have hx : Keeps β σ x.2 := ?_); clear_value x
        | (have hx : Keeps β σ x.2.2 := ?_); clear_value x | clear_value x)
    | with_reducible apply calNote_keeps | with_reducible apply calPut_keeps | with_reducible apply Keeps.ite
    | split | simp only [Keeps.update] | lift_lets | subst x | dsimp only

theorem calSyncApply_keeps {β : Bool} {σ s : State} (h : Keeps β σ s) (snt : Nat) :
    Keeps β σ (calSyncApply snt s) := by
  unfold calSyncApply
  try lift_lets
  repeat' first
    | with_reducible assumption
    | (intro x; first
        | (have hx : Keeps β σ x := ?_); clear_value x | (have hx : Keeps β σ x.2 := ?_); clear_value x
        | (have hx : Keeps β σ x.2.2 := ?_); clear_value x | clear_value x)
    | with_reducible apply calNote_keeps | with_reducible apply calPut_keeps | with_reducible apply fset_keeps
    | with_reducible apply Keeps.ite | split | simp only [Keeps.update] | lift_lets | subst x | dsimp only

theorem oscStop_keeps {β : Bool} {σ s : State} (h : Keeps β σ s) :
    Keeps β σ (oscStop s) := by
  unfold oscStop
  repeat' first
    | with_reducible assumption | with_reducible apply calNote_keeps | with_reducible apply fset_keeps
    | with_reducible apply Keeps.ite | split | simp only [Keeps.update] | dsimp only

theorem oscResume_keeps {β : Bool} {σ s : State} (h : Keeps β σ s) :
    Keeps β σ (oscResume s) := by
  unfold oscResume
  repeat' first
    | with_reducible assumption | with_reducible apply fset_keeps | with_reducible apply Keeps.ite | split
    | simp only [Keeps.update] | dsimp only

theorem oscFirst_keeps {β : Bool} {σ s : State} (h : Keeps β σ s) :
    Keeps β σ (oscFirst s) := by
  unfold oscFirst
  repeat' first
    | with_reducible assumption | with_reducible apply fset_keeps | with_reducible apply Keeps.ite | split
    | simp only [Keeps.update] | dsimp only

theorem oscTimeout_keeps {β : Bool} {σ s : State} (h : Keeps β σ s) :
    Keeps β σ (oscTimeout s) := by
  unfold oscTimeout
  repeat' first
    | with_reducible assumption | with_reducible apply calNote_keeps | with_reducible apply Keeps.ite | split
    | dsimp only

theorem pwrOnWrite_keeps {β : Bool} {σ s : State} (h : Keeps β σ s) (data : Word) :
    Keeps β σ (pwrOnWrite data s) := by
  unfold pwrOnWrite
  try lift_lets
  repeat' first
    | with_reducible assumption
    | (intro x; first
        | (have hx : Keeps β σ x := ?_); clear_value x | (have hx : Keeps β σ x.2 := ?_); clear_value x
        | (have hx : Keeps β σ x.2.2 := ?_); clear_value x | clear_value x)
    | with_reducible apply calNote_keeps | with_reducible apply wr_keeps | with_reducible apply pwrOn_keeps
    | with_reducible apply Keeps.ite | split | lift_lets | subst x | (refine Keeps.of_pair (by assumption) ?_)
    | dsimp only

theorem calCfgWrite_keeps {β : Bool} {σ s : State} (h : Keeps β σ s) (data : Word) :
    Keeps β σ (calCfgWrite data s) := by
  unfold calCfgWrite
  repeat' first
    | with_reducible assumption | with_reducible apply calNote_keeps | with_reducible apply wr_keeps
    | with_reducible apply Keeps.ite | split | dsimp only

theorem almTWrite_keeps {β : Bool} {σ s : State} (h : Keeps β σ s) (a : Nat) (data : Word) :
    Keeps β σ (almTWrite a data s) := by
  unfold almTWrite
  try lift_lets
  repeat' first
    | with_reducible assumption
    | (intro x; first
        | (have hx : Keeps β σ x := ?_); clear_value x | (have hx : Keeps β σ x.2 := ?_); clear_value x
        | (have hx : Keeps β σ x.2.2 := ?_); clear_value x | clear_value x)
    | with_reducible apply calNote_keeps | with_reducible apply wr_keeps | with_reducible apply Keeps.ite | split
    | lift_lets | subst x | dsimp only

theorem almCWrite_keeps {β : Bool} {σ s : State} (h : Keeps β σ s) (a : Nat) (data : Word) :
    Keeps β σ (almCWrite a data s) := by
  unfold almCWrite
  try lift_lets
  repeat' first
    | with_reducible assumption
    | (intro x; first
        | (have hx : Keeps β σ x := ?_); clear_value x | (have hx : Keeps β σ x.2 := ?_); clear_value x
        | (have hx : Keeps β σ x.2.2 := ?_); clear_value x | clear_value x)
    | with_reducible apply calNote_keeps | with_reducible apply wr_keeps | with_reducible apply Keeps.ite | split
    | lift_lets | subst x | dsimp only

theorem execCalSecond_keeps {β : Bool} {σ s : State} (h : Keeps β σ s) :
    KeepsOut β σ (execCalSecond s) := by
  unfold execCalSecond
  repeat' first
    | with_reducible assumption | with_reducible apply KeepsOut.next | with_reducible apply calSecond_keeps
    | dsimp only | split

theorem execCalOscStop_keeps {β : Bool} {σ s : State} (h : Keeps β σ s) :
    KeepsOut β σ (execCalOscStop s) := by
  unfold execCalOscStop
  repeat' first
    | with_reducible assumption | with_reducible apply KeepsOut.next | with_reducible apply oscStop_keeps
    | dsimp only | split

theorem execCkLfResume_keeps {β : Bool} {σ s : State} (h : Keeps β σ s) :
    KeepsOut β σ (execCkLfResume s) := by
  unfold execCkLfResume
  repeat' first
    | with_reducible assumption | with_reducible apply KeepsOut.next | with_reducible apply oscResume_keeps
    | dsimp only | split

theorem execLfFirstEdge_keeps {β : Bool} {σ s : State} (h : Keeps β σ s) :
    KeepsOut β σ (execLfFirstEdge s) := by
  unfold execLfFirstEdge
  repeat' first
    | with_reducible assumption | with_reducible apply KeepsOut.next | with_reducible apply oscFirst_keeps
    | dsimp only | split

theorem execLfStartTimeout_keeps {β : Bool} {σ s : State} (h : Keeps β σ s) :
    KeepsOut β σ (execLfStartTimeout s) := by
  unfold execLfStartTimeout
  repeat' first
    | with_reducible assumption | with_reducible apply KeepsOut.next | with_reducible apply oscTimeout_keeps
    | dsimp only | split

theorem execCalSet_keeps {β : Bool} {σ s : State} (h : Keeps β σ s) (i : Init) (key : BitVec 16) (sync : Bool) :
    KeepsOut β σ (execCalSet i key sync s) := by
  unfold execCalSet
  repeat' first
    | with_reducible assumption | with_reducible apply KeepsOut.next | with_reducible apply doorStore_keeps
    | with_reducible apply calCmd_keeps | (intro u; intros) | dsimp only | split

theorem execCalSync_keeps {β : Bool} {σ s : State} (h : Keeps β σ s) (i : Init) (key : BitVec 16) :
    KeepsOut β σ (execCalSync i key s) := by
  unfold execCalSync
  repeat' first
    | with_reducible assumption | with_reducible apply KeepsOut.next | with_reducible apply doorStore_keeps
    | with_reducible apply calCmd_keeps | (intro u; intros) | dsimp only | split

theorem execCalSyncApply_keeps {β : Bool} {σ s : State} (h : Keeps β σ s) (snt : Word64) :
    KeepsOut β σ (execCalSyncApply snt s) := by
  unfold execCalSyncApply
  repeat' first
    | with_reducible assumption | with_reducible apply KeepsOut.next | with_reducible apply calSyncApply_keeps
    | dsimp only | split

theorem execPwrOnSet_keeps {β : Bool} {σ s : State} (h : Keeps β σ s) (i : Init) (data : Word) :
    KeepsOut β σ (execPwrOnSet i data s) := by
  unfold execPwrOnSet
  repeat' first
    | with_reducible assumption | with_reducible apply KeepsOut.next | with_reducible apply doorStore_keeps
    | with_reducible apply pwrOnWrite_keeps | (intro u; intros) | dsimp only | split

theorem execPwrOnClr_keeps {β : Bool} {σ s : State} (h : Keeps β σ s) (i : Init) (data : Word) :
    KeepsOut β σ (execPwrOnClr i data s) := by
  unfold execPwrOnClr
  repeat' first
    | with_reducible assumption | with_reducible apply KeepsOut.next | with_reducible apply doorStore_keeps
    | with_reducible apply pwrOnWrite_keeps | (intro u; intros) | dsimp only | split

theorem tmrPut_keeps {β : Bool} {σ s : State} (h : Keeps β σ s) (t : Nat) (off : Nat) (v : Nat) :
    Keeps β σ (tmrPut t off v s) := by
  unfold tmrPut
  repeat' first
    | with_reducible assumption | with_reducible apply wr64_keeps | with_reducible apply wr_keeps
    | with_reducible apply Keeps.ite | split | dsimp only

theorem tmrNote_keeps {β : Bool} {σ s : State} (h : Keeps β σ s) (t : Nat) (f : Fld) :
    Keeps β σ (tmrNote t f s) := by
  unfold tmrNote
  repeat' first
    | with_reducible assumption | with_reducible apply fset_keeps | with_reducible apply note_keeps
    | with_reducible apply Keeps.ite | split | dsimp only

theorem tmrPendPut_keeps {β : Bool} {σ s : State} (h : Keeps β σ s) (t : Nat) (p : TimerPend) :
    Keeps β σ (tmrPendPut t p s) := by
  unfold tmrPendPut
  repeat' first
    | with_reducible assumption | with_reducible apply fset_keeps | simp only [Keeps.update] | dsimp only | split

theorem tmrFire_keeps {β : Bool} {σ s : State} (h : Keeps β σ s) (t : Nat) :
    Keeps β σ (tmrFire t s) := by
  unfold tmrFire
  try lift_lets
  repeat' first
    | with_reducible assumption
    | (intro x; first
        | (have hx : Keeps β σ x := ?_); clear_value x | (have hx : Keeps β σ x.2 := ?_); clear_value x
        | (have hx : Keeps β σ x.2.2 := ?_); clear_value x | clear_value x)
    | with_reducible apply fset_keeps | with_reducible apply tmrNote_keeps | with_reducible apply Keeps.ite | split
    | lift_lets | subst x | dsimp only

theorem tmrRange_keeps {β : Bool} {σ s : State} (h : Keeps β σ s) (t : Nat) :
    Keeps β σ (tmrRange t s) := by
  unfold tmrRange
  repeat' first
    | with_reducible assumption | with_reducible apply tmrNote_keeps | with_reducible apply Keeps.ite | split
    | dsimp only

theorem tmrReloadSet_keeps {β : Bool} {σ s : State} (h : Keeps β σ s) (t : Nat) (v : Nat) :
    Keeps β σ (tmrReloadSet t v s) := by
  unfold tmrReloadSet
  repeat' first
    | with_reducible assumption | with_reducible apply tmrRange_keeps | with_reducible apply tmrPut_keeps
    | dsimp only | split

theorem tmrCmpSet_keeps {β : Bool} {σ s : State} (h : Keeps β σ s) (t : Nat) (v : Nat) :
    Keeps β σ (tmrCmpSet t v s) := by
  unfold tmrCmpSet
  repeat' first
    | with_reducible assumption | with_reducible apply tmrRange_keeps | with_reducible apply tmrPut_keeps
    | dsimp only | split

theorem tmrEdge_keeps {β : Bool} {σ s : State} (h : Keeps β σ s) (t : Nat) (c : Nat) :
    Keeps β σ (tmrEdge t c s) := by
  unfold tmrEdge
  try lift_lets
  repeat' first
    | with_reducible assumption
    | (intro x; first
        | (have hx : Keeps β σ x := ?_); clear_value x | (have hx : Keeps β σ x.2 := ?_); clear_value x
        | (have hx : Keeps β σ x.2.2 := ?_); clear_value x | clear_value x)
    | with_reducible apply tmrPut_keeps | with_reducible apply tmrPendPut_keeps | with_reducible apply tmrNote_keeps
    | with_reducible apply tmrRange_keeps | with_reducible apply tmrFire_keeps | with_reducible apply Keeps.ite
    | split | simp only [Keeps.update] | lift_lets | subst x | (refine Keeps.of_pair (by assumption) ?_)
    | dsimp only

theorem tmrCtrl_keeps {β : Bool} {σ s : State} (h : Keeps β σ s) (t : Nat) (data : Word) (count : Nat) :
    Keeps β σ (tmrCtrl t data count s) := by
  unfold tmrCtrl
  try lift_lets
  repeat' first
    | with_reducible assumption
    | (intro x; first
        | (have hx : Keeps β σ x := ?_); clear_value x | (have hx : Keeps β σ x.2 := ?_); clear_value x
        | (have hx : Keeps β σ x.2.2 := ?_); clear_value x | clear_value x)
    | with_reducible apply tmrNote_keeps | with_reducible apply fset_keeps | with_reducible apply wr_keeps
    | with_reducible apply tmrPut_keeps | with_reducible apply Keeps.ite | split | lift_lets | subst x | dsimp only

theorem tmrCmd_keeps {β : Bool} {σ s : State} (h : Keeps β σ s) (t : Nat) (data : Word) :
    Keeps β σ (tmrCmd t data s) := by
  unfold tmrCmd
  repeat' first
    | with_reducible assumption | with_reducible apply tmrNote_keeps | with_reducible apply tmrPut_keeps
    | with_reducible apply Keeps.ite | split | dsimp only

theorem tmrCmpCommit_keeps {β : Bool} {σ s : State} (h : Keeps β σ s) (t : Nat) (v : Nat) :
    Keeps β σ (tmrCmpCommit t v s) := by
  unfold tmrCmpCommit
  repeat' first
    | with_reducible assumption | with_reducible apply tmrPendPut_keeps | with_reducible apply tmrCmpSet_keeps
    | with_reducible apply Keeps.ite | split | simp only [Keeps.update] | dsimp only

theorem tmrReloadCommit_keeps {β : Bool} {σ s : State} (h : Keeps β σ s) (t : Nat) (v : Nat) :
    Keeps β σ (tmrReloadCommit t v s) := by
  unfold tmrReloadCommit
  repeat' first
    | with_reducible assumption | with_reducible apply tmrPendPut_keeps | with_reducible apply tmrReloadSet_keeps
    | with_reducible apply Keeps.ite | split | simp only [Keeps.update] | dsimp only

theorem tmrCommitWrite_keeps {β : Bool} {σ s : State} (h : Keeps β σ s) (i : Init) (t : Nat) (off : Nat) (commit :
    Nat → Nat → State → State) (data : Word) (hcommit : ∀ y0 y1 u, Keeps β σ u → Keeps β σ (commit y0 y1 u)) :
    Keeps β σ (tmrCommitWrite i t off commit data s) := by
  unfold tmrCommitWrite
  try lift_lets
  repeat' first
    | with_reducible assumption
    | (intro x; first
        | (have hx : Keeps β σ x := ?_); clear_value x | (have hx : Keeps β σ x.2 := ?_); clear_value x
        | (have hx : Keeps β σ x.2.2 := ?_); clear_value x | clear_value x)
    | apply hcommit | with_reducible apply stagedTake_keeps | with_reducible apply Keeps.ite | split | lift_lets
    | subst x | dsimp only

theorem tmrCapture_keeps {β : Bool} {σ s : State} (h : Keeps β σ s) (t : Nat) (count : Nat) (falling : Bool) :
    Keeps β σ (tmrCapture t count falling s) := by
  unfold tmrCapture
  try lift_lets
  repeat' first
    | with_reducible assumption
    | (intro x; first
        | (have hx : Keeps β σ x := ?_); clear_value x | (have hx : Keeps β σ x.2 := ?_); clear_value x
        | (have hx : Keeps β σ x.2.2 := ?_); clear_value x | clear_value x)
    | with_reducible apply tmrPut_keeps | with_reducible apply tmrNote_keeps | with_reducible apply Keeps.ite
    | split | lift_lets | subst x | (refine Keeps.of_pair (by assumption) ?_) | dsimp only

theorem execTimerEnable_keeps {β : Bool} {σ s : State} (h : Keeps β σ s) (i : Init) (timer : Fin 20) (data : Word)
    (count : Word64) :
    KeepsOut β σ (execTimerEnable i timer data count s) := by
  unfold execTimerEnable
  repeat' first
    | with_reducible assumption | with_reducible apply KeepsOut.next | with_reducible apply doorStore_keeps
    | with_reducible apply tmrCtrl_keeps | (intro u; intros) | dsimp only | split

theorem execTimerZero_keeps {β : Bool} {σ s : State} (h : Keeps β σ s) (i : Init) (timer : Fin 20) (key : BitVec 16) :
    KeepsOut β σ (execTimerZero i timer key s) := by
  unfold execTimerZero
  repeat' first
    | with_reducible assumption | with_reducible apply KeepsOut.next | with_reducible apply doorStore_keeps
    | with_reducible apply tmrCmd_keeps | (intro u; intros) | dsimp only | split

theorem execTimerCmpCommit_keeps {β : Bool} {σ s : State} (h : Keeps β σ s) (i : Init) (timer : Fin 20) (data :
    Word) :
    KeepsOut β σ (execTimerCmpCommit i timer data s) := by
  unfold execTimerCmpCommit
  repeat' first
    | with_reducible assumption | with_reducible apply KeepsOut.next | with_reducible apply doorStore_keeps
    | with_reducible apply tmrCommitWrite_keeps | with_reducible apply tmrCmpCommit_keeps | (intro u; intros)
    | dsimp only | split

theorem execTimerReloadCommit_keeps {β : Bool} {σ s : State} (h : Keeps β σ s) (i : Init) (timer : Fin 20) (data :
    Word) :
    KeepsOut β σ (execTimerReloadCommit i timer data s) := by
  unfold execTimerReloadCommit
  repeat' first
    | with_reducible assumption | with_reducible apply KeepsOut.next | with_reducible apply doorStore_keeps
    | with_reducible apply tmrCommitWrite_keeps | with_reducible apply tmrReloadCommit_keeps | (intro u; intros)
    | dsimp only | split

theorem execTimerCmpEffect_keeps {β : Bool} {σ s : State} (h : Keeps β σ s) (timer : Fin 20) (count : Word64) :
    KeepsOut β σ (execTimerCmpEffect timer count s) := by
  unfold execTimerCmpEffect
  repeat' first
    | with_reducible assumption | with_reducible apply KeepsOut.next | with_reducible apply tmrEdge_keeps
    | with_reducible apply Keeps.ite | split | dsimp only

theorem execTimerWrap_keeps {β : Bool} {σ s : State} (h : Keeps β σ s) (timer : Fin 20) (count : Word64) :
    KeepsOut β σ (execTimerWrap timer count s) := by
  unfold execTimerWrap
  repeat' first
    | with_reducible assumption | with_reducible apply KeepsOut.next | with_reducible apply tmrEdge_keeps
    | with_reducible apply Keeps.ite | split | dsimp only

theorem execTimerMatch_keeps {β : Bool} {σ s : State} (h : Keeps β σ s) (timer : Fin 20) (count : Word64) :
    KeepsOut β σ (execTimerMatch timer count s) := by
  unfold execTimerMatch
  repeat' first
    | with_reducible assumption | with_reducible apply KeepsOut.next | with_reducible apply tmrEdge_keeps
    | with_reducible apply Keeps.ite | split | dsimp only

theorem execTimerCapture_keeps {β : Bool} {σ s : State} (h : Keeps β σ s) (timer : Fin 20) (count : Word64) (falling
    : Bool) :
    KeepsOut β σ (execTimerCapture timer count falling s) := by
  unfold execTimerCapture
  repeat' first
    | with_reducible assumption | with_reducible apply KeepsOut.next | with_reducible apply tmrCapture_keeps
    | with_reducible apply Keeps.ite | split | dsimp only

end Sys2Proof.Machine
end

