-- ==== Sys2Proof/Laws/KeepsHost.lean ====
section
/-!
SUPPORT. The operations of the files imported here keep the queue and the canonical forms, and those that store
nothing keep the memories: one lemma per operation, by the operations it calls.
-/

namespace Sys2Proof.Machine

open Reg

theorem hostPut_keeps {β : Bool} {σ s : State} (h : Keeps β σ s) (v : HostState) :
    Keeps β σ (hostPut v s) := by
  unfold hostPut
  repeat' first
    | with_reducible assumption | simp only [Keeps.update] | dsimp only | split

theorem hostNote_keeps {β : Bool} {σ s : State} (h : Keeps β σ s) (f : Fld) :
    Keeps β σ (hostNote f s) := by
  unfold hostNote
  repeat' first
    | with_reducible assumption | with_reducible apply note_keeps | with_reducible apply fset_keeps | split
    | simp only [Keeps.update] | dsimp only

theorem hostErr_keeps {β : Bool} {σ s : State} (h : Keeps β σ s) (f : Fld) :
    Keeps β σ (hostErr f s) := by
  unfold hostErr
  repeat' first
    | with_reducible assumption | with_reducible apply note_keeps | dsimp only | split

theorem hostTeardown_keeps {β : Bool} {σ s : State} (h : Keeps β σ s) :
    Keeps β σ (hostTeardown s) := by
  unfold hostTeardown
  try lift_lets
  repeat' first
    | with_reducible assumption
    | (intro x; first
        | (have hx : Keeps β σ x := ?_); clear_value x | (have hx : Keeps β σ x.2 := ?_); clear_value x
        | (have hx : Keeps β σ x.2.2 := ?_); clear_value x | clear_value x)
    | with_reducible apply hostPut_keeps | with_reducible apply fset_keeps | with_reducible apply hostNote_keeps
    | with_reducible apply Keeps.ite | split | simp only [Keeps.update] | lift_lets | subst x | dsimp only

theorem hostAccept_keeps {β : Bool} {σ s : State} (h : Keeps β σ s) (l : List Byte) :
    Keeps β σ (hostAccept l s) := by
  unfold hostAccept
  try lift_lets
  repeat' first
    | with_reducible assumption
    | (intro x; first
        | (have hx : Keeps β σ x := ?_); clear_value x | (have hx : Keeps β σ x.2 := ?_); clear_value x
        | (have hx : Keeps β σ x.2.2 := ?_); clear_value x
        | (have hf : ∀ u, Keeps β σ u → Keeps β σ (x u) := ?_); clear_value x
        | (have hf : ∀ a u, Keeps β σ u → Keeps β σ (x a u) := ?_); clear_value x
        | (have hf : ∀ a b u, Keeps β σ u → Keeps β σ (x a b u) := ?_); clear_value x | clear_value x)
    | with_reducible apply hf | (intro u; intros) | with_reducible apply fset_keeps
    | with_reducible apply hostTeardown_keeps | with_reducible apply hostPut_keeps
    | with_reducible apply hostNote_keeps | with_reducible apply Keeps.ite | split | simp only [Keeps.update]
    | lift_lets | subst x | dsimp only

theorem hostWrite_keeps {β : Bool} {σ s : State} (h : Keeps β σ s) (l : List Byte) :
    Keeps β σ (hostWrite l s) := by
  unfold hostWrite
  repeat' first
    | with_reducible assumption | with_reducible apply hostAccept_keeps | with_reducible apply hostPut_keeps
    | with_reducible apply Keeps.ite | split | simp only [Keeps.update] | dsimp only

theorem hostNone_keeps {β : Bool} {σ s : State} (h : Keeps β σ s) :
    Keeps β σ (hostNone s).2 := by
  unfold hostNone
  repeat' first
    | with_reducible assumption | with_reducible apply drawFree_keeps | dsimp only | split

theorem hostRead_keeps {β : Bool} {σ s : State} (h : Keeps β σ s) :
    Keeps β σ (hostRead s) := by
  unfold hostRead
  try lift_lets
  repeat' first
    | with_reducible assumption
    | (intro x; first
        | (have hx : Keeps β σ x := ?_); clear_value x | (have hx : Keeps β σ x.2 := ?_); clear_value x
        | (have hx : Keeps β σ x.2.2 := ?_); clear_value x | clear_value x)
    | with_reducible apply hostPut_keeps | with_reducible apply hostNote_keeps | with_reducible apply hostNone_keeps
    | with_reducible apply Keeps.ite | split | simp only [Keeps.update] | lift_lets | subst x | dsimp only

theorem hostReread_keeps {β : Bool} {σ s : State} (h : Keeps β σ s) :
    Keeps β σ (hostReread s) := by
  unfold hostReread
  try lift_lets
  repeat' first
    | with_reducible assumption
    | (intro x; first
        | (have hx : Keeps β σ x := ?_); clear_value x | (have hx : Keeps β σ x.2 := ?_); clear_value x
        | (have hx : Keeps β σ x.2.2 := ?_); clear_value x | clear_value x)
    | with_reducible apply hostPut_keeps | with_reducible apply hostNone_keeps | with_reducible apply Keeps.ite
    | split | simp only [Keeps.update] | lift_lets | subst x | dsimp only

theorem hostInHdr_keeps {β : Bool} {σ s : State} (h : Keeps β σ s) :
    Keeps β σ (hostInHdr s).2 := by
  unfold hostInHdr
  repeat' first
    | with_reducible assumption | with_reducible apply hostPut_keeps | split | simp only [Keeps.update] | dsimp only

theorem hostInData_keeps {β : Bool} {σ s : State} (h : Keeps β σ s) :
    Keeps β σ (hostInData s).2 := by
  unfold hostInData
  repeat' first
    | with_reducible assumption | with_reducible apply hostPut_keeps | split | simp only [Keeps.update] | dsimp only

theorem hostOutData_keeps {β : Bool} {σ s : State} (h : Keeps β σ s) (data : Word) :
    Keeps β σ (hostOutData data s) := by
  unfold hostOutData
  repeat' first
    | with_reducible assumption | with_reducible apply hostErr_keeps | with_reducible apply hostPut_keeps
    | with_reducible apply Keeps.ite | split | simp only [Keeps.update] | dsimp only

theorem hostSend_keeps {β : Bool} {σ s : State} (h : Keeps β σ s) (type : Nat) (payload : List Byte) :
    Keeps β σ (hostSend type payload s) := by
  unfold hostSend
  repeat' first
    | with_reducible assumption | with_reducible apply hostPut_keeps | simp only [Keeps.update] | dsimp only | split

theorem hostOutCmd_keeps {β : Bool} {σ s : State} (h : Keeps β σ s) (data : Word) :
    Keeps β σ (hostOutCmd data s) := by
  unfold hostOutCmd
  try lift_lets
  repeat' first
    | with_reducible assumption
    | (intro x; first
        | (have hx : Keeps β σ x := ?_); clear_value x | (have hx : Keeps β σ x.2 := ?_); clear_value x
        | (have hx : Keeps β σ x.2.2 := ?_); clear_value x
        | (have hf : ∀ u, Keeps β σ u → Keeps β σ (x u) := ?_); clear_value x
        | (have hf : ∀ a u, Keeps β σ u → Keeps β σ (x a u) := ?_); clear_value x
        | (have hf : ∀ a b u, Keeps β σ u → Keeps β σ (x a b u) := ?_); clear_value x | clear_value x)
    | with_reducible apply hf | (intro u; intros) | with_reducible apply hostPut_keeps
    | with_reducible apply hostErr_keeps | with_reducible apply hostSend_keeps | with_reducible apply Keeps.ite
    | split | simp only [Keeps.update] | lift_lets | subst x | dsimp only

theorem hostCtrlWrite_keeps {β : Bool} {σ s : State} (h : Keeps β σ s) (data : Word) :
    Keeps β σ (hostCtrlWrite data s) := by
  unfold hostCtrlWrite
  repeat' first
    | with_reducible assumption | with_reducible apply hostErr_keeps | with_reducible apply wr_keeps
    | with_reducible apply Keeps.ite | split | dsimp only

theorem hostExpire_keeps {β : Bool} {σ s : State} (h : Keeps β σ s) :
    Keeps β σ (hostExpire s) := by
  unfold hostExpire
  repeat' first
    | with_reducible assumption | with_reducible apply hostNote_keeps | with_reducible apply hostTeardown_keeps
    | with_reducible apply Keeps.ite | split | dsimp only

theorem uartPut_keeps {β : Bool} {σ s : State} (h : Keeps β σ s) (u : Nat) (v : UartState) :
    Keeps β σ (uartPut u v s) := by
  unfold uartPut
  repeat' first
    | with_reducible assumption | simp only [Keeps.update] | dsimp only | split

theorem uartNote_keeps {β : Bool} {σ s : State} (h : Keeps β σ s) (u : Nat) (f : Fld) :
    Keeps β σ (uartNote u f s) := by
  unfold uartNote
  repeat' first
    | with_reducible assumption | with_reducible apply note_keeps | with_reducible apply Keeps.ite | split
    | dsimp only

theorem uartReceive_keeps {β : Bool} {σ s : State} (h : Keeps β σ s) (u : Nat) (d : Byte) (par : Bool) (frm : Bool)
    (brk : Bool) :
    Keeps β σ (uartReceive u d par frm brk s) := by
  unfold uartReceive
  try lift_lets
  repeat' first
    | with_reducible assumption
    | (intro x; first
        | (have hx : Keeps β σ x := ?_); clear_value x | (have hx : Keeps β σ x.2 := ?_); clear_value x
        | (have hx : Keeps β σ x.2.2 := ?_); clear_value x | clear_value x)
    | with_reducible apply uartNote_keeps | with_reducible apply uartPut_keeps | with_reducible apply Keeps.ite
    | split | simp only [Keeps.update] | lift_lets | subst x | dsimp only

theorem uartSent_keeps {β : Bool} {σ s : State} (h : Keeps β σ s) (u : Nat) :
    Keeps β σ (uartSent u s) := by
  unfold uartSent
  try lift_lets
  repeat' first
    | with_reducible assumption
    | (intro x; first
        | (have hx : Keeps β σ x := ?_); clear_value x | (have hx : Keeps β σ x.2 := ?_); clear_value x
        | (have hx : Keeps β σ x.2.2 := ?_); clear_value x | clear_value x)
    | with_reducible apply uartPut_keeps | with_reducible apply uartNote_keeps | with_reducible apply Keeps.ite
    | split | simp only [Keeps.update] | lift_lets | subst x | dsimp only

theorem uartWrite_keeps {β : Bool} {σ s : State} (h : Keeps β σ s) (u : Nat) (data : Word) :
    Keeps β σ (uartWrite u data s) := by
  unfold uartWrite
  try lift_lets
  repeat' first
    | with_reducible assumption
    | (intro x; first
        | (have hx : Keeps β σ x := ?_); clear_value x | (have hx : Keeps β σ x.2 := ?_); clear_value x
        | (have hx : Keeps β σ x.2.2 := ?_); clear_value x | clear_value x)
    | with_reducible apply uartNote_keeps | with_reducible apply uartPut_keeps | with_reducible apply Keeps.ite
    | split | simp only [Keeps.update] | lift_lets | subst x | dsimp only

theorem uartRead_keeps {β : Bool} {σ s : State} (h : Keeps β σ s) (u : Nat) :
    Keeps β σ (uartRead u s).2 := by
  unfold uartRead
  repeat' first
    | with_reducible assumption | with_reducible apply uartPut_keeps | split | simp only [Keeps.update] | dsimp only

theorem uartCfgWrite_keeps {β : Bool} {σ s : State} (h : Keeps β σ s) (u : Nat) (data : Word) :
    Keeps β σ (uartCfgWrite u data s) := by
  unfold uartCfgWrite
  repeat' first
    | with_reducible assumption | with_reducible apply wr_keeps | with_reducible apply Keeps.ite | split
    | dsimp only

theorem uartThWrite_keeps {β : Bool} {σ s : State} (h : Keeps β σ s) (u : Nat) (data : Word) :
    Keeps β σ (uartThWrite u data s) := by
  unfold uartThWrite
  repeat' first
    | with_reducible assumption | with_reducible apply wr_keeps | with_reducible apply Keeps.ite | split
    | dsimp only

theorem serialOwn_keeps {β : Bool} {σ s : State} (h : Keeps β σ s) (a : Nat) (clear : Nat → State → State) (data :
    Word) (hclear : ∀ y0 u, Keeps β σ u → Keeps β σ (clear y0 u)) :
    Keeps β σ (serialOwn a clear data s) := by
  unfold serialOwn
  try lift_lets
  repeat' first
    | with_reducible assumption
    | (intro x; first
        | (have hx : Keeps β σ x := ?_); clear_value x | (have hx : Keeps β σ x.2 := ?_); clear_value x
        | (have hx : Keeps β σ x.2.2 := ?_); clear_value x | clear_value x)
    | apply hclear | with_reducible apply wr_keeps | with_reducible apply Keeps.ite
    | (with_reducible apply Keeps.foldl; intro u y hu) | split | lift_lets | subst x | dsimp only

theorem i2cPut_keeps {β : Bool} {σ s : State} (h : Keeps β σ s) (k : Nat) (v : I2cState) :
    Keeps β σ (i2cPut k v s) := by
  unfold i2cPut
  repeat' first
    | with_reducible assumption | simp only [Keeps.update] | dsimp only | split

theorem i2cNote_keeps {β : Bool} {σ s : State} (h : Keeps β σ s) (k : Nat) (f : Fld) :
    Keeps β σ (i2cNote k f s) := by
  unfold i2cNote
  repeat' first
    | with_reducible assumption | with_reducible apply note_keeps | with_reducible apply Keeps.ite | split
    | dsimp only

theorem i2cPush_keeps {β : Bool} {σ s : State} (h : Keeps β σ s) (k : Nat) (data : Word) :
    Keeps β σ (i2cPush k data s) := by
  unfold i2cPush
  try lift_lets
  repeat' first
    | with_reducible assumption
    | (intro x; first
        | (have hx : Keeps β σ x := ?_); clear_value x | (have hx : Keeps β σ x.2 := ?_); clear_value x
        | (have hx : Keeps β σ x.2.2 := ?_); clear_value x | clear_value x)
    | with_reducible apply i2cNote_keeps | with_reducible apply i2cPut_keeps | with_reducible apply Keeps.ite
    | split | simp only [Keeps.update] | lift_lets | subst x | dsimp only

theorem i2cRun_keeps {β : Bool} {σ s : State} (h : Keeps β σ s) (k : Nat) (op : Nat) (read : Byte) :
    Keeps β σ (i2cRun k op read s) := by
  unfold i2cRun
  try lift_lets
  repeat' first
    | with_reducible assumption
    | (intro x; first
        | (have hx : Keeps β σ x := ?_); clear_value x | (have hx : Keeps β σ x.2 := ?_); clear_value x
        | (have hx : Keeps β σ x.2.2 := ?_); clear_value x | clear_value x)
    | with_reducible apply i2cNote_keeps | with_reducible apply i2cPut_keeps | with_reducible apply Keeps.ite
    | split | simp only [Keeps.update] | lift_lets | subst x | dsimp only

theorem i2cEnd_keeps {β : Bool} {σ s : State} (h : Keeps β σ s) (k : Nat) (f : Fld) :
    Keeps β σ (i2cEnd k f s) := by
  unfold i2cEnd
  repeat' first
    | with_reducible assumption | with_reducible apply i2cNote_keeps | with_reducible apply i2cPut_keeps
    | simp only [Keeps.update] | dsimp only | split

theorem i2cNack_keeps {β : Bool} {σ s : State} (h : Keeps β σ s) (k : Nat) :
    Keeps β σ (i2cNack k s) := by
  unfold i2cNack
  repeat' first
    | with_reducible assumption | with_reducible apply i2cEnd_keeps | with_reducible apply Keeps.ite | split
    | simp only [Keeps.update] | dsimp only

theorem i2cLost_keeps {β : Bool} {σ s : State} (h : Keeps β σ s) (k : Nat) (f : Fld) :
    Keeps β σ (i2cLost k f s) := by
  unfold i2cLost
  repeat' first
    | with_reducible assumption | with_reducible apply i2cEnd_keeps | with_reducible apply Keeps.ite | split
    | dsimp only

theorem i2cRead_keeps {β : Bool} {σ s : State} (h : Keeps β σ s) (k : Nat) :
    Keeps β σ (i2cRead k s).2 := by
  unfold i2cRead
  repeat' first
    | with_reducible assumption | with_reducible apply i2cPut_keeps | split | simp only [Keeps.update] | dsimp only

theorem i2cCfgWrite_keeps {β : Bool} {σ s : State} (h : Keeps β σ s) (k : Nat) (data : Word) :
    Keeps β σ (i2cCfgWrite k data s) := by
  unfold i2cCfgWrite
  repeat' first
    | with_reducible assumption | with_reducible apply wr_keeps | with_reducible apply Keeps.ite | split
    | dsimp only

theorem gpioOut_keeps {β : Bool} {σ s : State} (h : Keeps β σ s) (b : Nat) (mask : Word) (v : Word) :
    Keeps β σ (gpioOut b mask v s) := by
  unfold gpioOut
  try lift_lets
  repeat' first
    | with_reducible assumption
    | (intro x; first
        | (have hx : Keeps β σ x := ?_); clear_value x | (have hx : Keeps β σ x.2 := ?_); clear_value x
        | (have hx : Keeps β σ x.2.2 := ?_); clear_value x | clear_value x)
    | with_reducible apply wr_keeps | lift_lets | subst x | (refine Keeps.of_pair (by assumption) ?_) | dsimp only
    | split

theorem gpioPinReset_keeps {β : Bool} {σ s : State} (h : Keeps β σ s) (p : Nat) :
    Keeps β σ (gpioPinReset p s) := by
  unfold gpioPinReset
  repeat' first
    | with_reducible assumption | with_reducible apply gpioOut_keeps | with_reducible apply wr_keeps | dsimp only
    | split

theorem gpioOwn_keeps {β : Bool} {σ s : State} (h : Keeps β σ s) (j : Nat) (data : Word) :
    Keeps β σ (gpioOwn j data s) := by
  unfold gpioOwn
  try lift_lets
  repeat' first
    | with_reducible assumption
    | (intro x; first
        | (have hx : Keeps β σ x := ?_); clear_value x | (have hx : Keeps β σ x.2 := ?_); clear_value x
        | (have hx : Keeps β σ x.2.2 := ?_); clear_value x | clear_value x)
    | with_reducible apply gpioPinReset_keeps | with_reducible apply wr_keeps | with_reducible apply Keeps.ite
    | (with_reducible apply Keeps.foldl; intro u y hu) | split | lift_lets | subst x | dsimp only

theorem gpioPinWrite_keeps {β : Bool} {σ s : State} (h : Keeps β σ s) (room : Nat) (p : Nat) (data : Word) :
    Keeps β σ (gpioPinWrite room p data s) := by
  unfold gpioPinWrite
  repeat' first
    | with_reducible assumption | with_reducible apply wr_keeps | with_reducible apply Keeps.ite | split
    | dsimp only

theorem gpioEdge_keeps {β : Bool} {σ s : State} (h : Keeps β σ s) (p : Nat) (level : Bool) :
    Keeps β σ (gpioEdge p level s) := by
  unfold gpioEdge
  try lift_lets
  repeat' first
    | with_reducible assumption
    | (intro x; first
        | (have hx : Keeps β σ x := ?_); clear_value x | (have hx : Keeps β σ x.2 := ?_); clear_value x
        | (have hx : Keeps β σ x.2.2 := ?_); clear_value x | clear_value x)
    | with_reducible apply note_keeps | with_reducible apply Keeps.ite | split | simp only [Keeps.update]
    | lift_lets | subst x | (refine Keeps.of_pair (by assumption) ?_) | dsimp only

theorem gpioHold_keeps {β : Bool} {σ s : State} (h : Keeps β σ s) (data : Word) :
    Keeps β σ (gpioHold data s) := by
  unfold gpioHold
  repeat' first
    | with_reducible assumption | with_reducible apply wr_keeps | (refine Keeps.of_pair (by assumption) ?_)
    | dsimp only | split

theorem execHostResync_keeps {β : Bool} {σ s : State} (h : Keeps β σ s) (octets : List Byte) :
    KeepsOut β σ (execHostResync octets s) := by
  unfold execHostResync
  repeat' first
    | with_reducible assumption | with_reducible apply KeepsOut.next | with_reducible apply hostWrite_keeps
    | dsimp only | split

theorem execHostMsg_keeps {β : Bool} {σ s : State} (h : Keeps β σ s) (octets : List Byte) :
    KeepsOut β σ (execHostMsg octets s) := by
  unfold execHostMsg
  repeat' first
    | with_reducible assumption | with_reducible apply KeepsOut.next | with_reducible apply hostWrite_keeps
    | dsimp only | split

theorem execHostPing_keeps {β : Bool} {σ s : State} (h : Keeps β σ s) (octets : List Byte) :
    KeepsOut β σ (execHostPing octets s) := by
  unfold execHostPing
  repeat' first
    | with_reducible assumption | with_reducible apply KeepsOut.next | with_reducible apply hostWrite_keeps
    | dsimp only | split

theorem execReadFrame_keeps {β : Bool} {σ s : State} (h : Keeps β σ s) :
    KeepsOut β σ (execReadFrame s) := by
  unfold execReadFrame
  repeat' first
    | with_reducible assumption | with_reducible apply KeepsOut.next | with_reducible apply hostRead_keeps
    | dsimp only | split

theorem execReread_keeps {β : Bool} {σ s : State} (h : Keeps β σ s) :
    KeepsOut β σ (execReread s) := by
  unfold execReread
  repeat' first
    | with_reducible assumption | with_reducible apply KeepsOut.next | with_reducible apply hostReread_keeps
    | dsimp only | split

theorem execReadStatus_keeps {β : Bool} {σ s : State} (h : Keeps β σ s) :
    KeepsOut β σ (execReadStatus s) := by
  unfold execReadStatus
  repeat' first
    | with_reducible assumption | with_reducible apply KeepsOut.next | with_reducible apply hostPut_keeps
    | with_reducible apply Keeps.ite | split | simp only [Keeps.update] | dsimp only

theorem execHostSessionExpire_keeps {β : Bool} {σ s : State} (h : Keeps β σ s) :
    KeepsOut β σ (execHostSessionExpire s) := by
  unfold execHostSessionExpire
  repeat' first
    | with_reducible assumption | with_reducible apply KeepsOut.next | with_reducible apply hostExpire_keeps
    | dsimp only | split

theorem execHostInHdrRead_keeps {β : Bool} {σ s : State} (h : Keeps β σ s) (i : Init) :
    KeepsOut β σ (execHostInHdrRead i s) := by
  unfold execHostInHdrRead
  repeat' first
    | with_reducible assumption | with_reducible apply KeepsOut.next | with_reducible apply doorLoad_keeps
    | with_reducible apply hostInHdr_keeps | (intro u; intros) | dsimp only | split

theorem execHostInDataRead_keeps {β : Bool} {σ s : State} (h : Keeps β σ s) (i : Init) :
    KeepsOut β σ (execHostInDataRead i s) := by
  unfold execHostInDataRead
  repeat' first
    | with_reducible assumption | with_reducible apply KeepsOut.next | with_reducible apply doorLoad_keeps
    | with_reducible apply hostInData_keeps | (intro u; intros) | dsimp only | split

theorem execHostOutDataWrite_keeps {β : Bool} {σ s : State} (h : Keeps β σ s) (i : Init) (data : Word) :
    KeepsOut β σ (execHostOutDataWrite i data s) := by
  unfold execHostOutDataWrite
  repeat' first
    | with_reducible assumption | with_reducible apply KeepsOut.next | with_reducible apply doorStore_keeps
    | with_reducible apply hostOutData_keeps | (intro u; intros) | dsimp only | split

theorem execHostOutCommit_keeps {β : Bool} {σ s : State} (h : Keeps β σ s) (i : Init) (data : Word) :
    KeepsOut β σ (execHostOutCommit i data s) := by
  unfold execHostOutCommit
  repeat' first
    | with_reducible assumption | with_reducible apply KeepsOut.next | with_reducible apply doorStore_keeps
    | with_reducible apply hostOutCmd_keeps | (intro u; intros) | dsimp only | split

theorem execHostOutDiscard_keeps {β : Bool} {σ s : State} (h : Keeps β σ s) (i : Init) (data : Word) :
    KeepsOut β σ (execHostOutDiscard i data s) := by
  unfold execHostOutDiscard
  repeat' first
    | with_reducible assumption | with_reducible apply KeepsOut.next | with_reducible apply doorStore_keeps
    | with_reducible apply hostOutCmd_keeps | (intro u; intros) | dsimp only | split

theorem execUartCharReceived_keeps {β : Bool} {σ s : State} (h : Keeps β σ s) (u : BitVec 1) (char : BitVec 8) (par
    : Bool) (frm : Bool) (brk : Bool) :
    KeepsOut β σ (execUartCharReceived u char par frm brk s) := by
  unfold execUartCharReceived
  repeat' first
    | with_reducible assumption | with_reducible apply KeepsOut.next | with_reducible apply uartReceive_keeps
    | dsimp only | split

theorem execUartCharSent_keeps {β : Bool} {σ s : State} (h : Keeps β σ s) (u : BitVec 1) :
    KeepsOut β σ (execUartCharSent u s) := by
  unfold execUartCharSent
  repeat' first
    | with_reducible assumption | with_reducible apply KeepsOut.next | with_reducible apply uartSent_keeps
    | dsimp only | split

theorem execUartDataWrite_keeps {β : Bool} {σ s : State} (h : Keeps β σ s) (i : Init) (u : BitVec 1) (data : Word) :
    KeepsOut β σ (execUartDataWrite i u data s) := by
  unfold execUartDataWrite
  repeat' first
    | with_reducible assumption | with_reducible apply KeepsOut.next | with_reducible apply doorStore_keeps
    | with_reducible apply uartWrite_keeps | (intro u; intros) | dsimp only | split

theorem execUartDataRead_keeps {β : Bool} {σ s : State} (h : Keeps β σ s) (i : Init) (u : BitVec 1) :
    KeepsOut β σ (execUartDataRead i u s) := by
  unfold execUartDataRead
  repeat' first
    | with_reducible assumption | with_reducible apply KeepsOut.next | with_reducible apply doorLoad_keeps
    | with_reducible apply uartRead_keeps | (intro u; intros) | dsimp only | split

theorem execUartOwnWrite_keeps {β : Bool} {σ s : State} (h : Keeps β σ s) (i : Init) (data : Word) :
    KeepsOut β σ (execUartOwnWrite i data s) := by
  unfold execUartOwnWrite
  repeat' first
    | with_reducible assumption | with_reducible apply KeepsOut.next | with_reducible apply doorStore_keeps
    | with_reducible apply serialOwn_keeps | with_reducible apply uartPut_keeps | (intro u; intros) | dsimp only
    | split

theorem execI2cStart_keeps {β : Bool} {σ s : State} (h : Keeps β σ s) (u : BitVec 1) :
    KeepsOut β σ (execI2cStart u s) := by
  unfold execI2cStart
  repeat' first
    | with_reducible assumption | with_reducible apply KeepsOut.next | with_reducible apply i2cRun_keeps
    | dsimp only | split

theorem execI2cWrite_keeps {β : Bool} {σ s : State} (h : Keeps β σ s) (u : BitVec 1) :
    KeepsOut β σ (execI2cWrite u s) := by
  unfold execI2cWrite
  repeat' first
    | with_reducible assumption | with_reducible apply KeepsOut.next | with_reducible apply i2cRun_keeps
    | dsimp only | split

theorem execI2cRead_keeps {β : Bool} {σ s : State} (h : Keeps β σ s) (u : BitVec 1) (data : BitVec 8) :
    KeepsOut β σ (execI2cRead u data s) := by
  unfold execI2cRead
  repeat' first
    | with_reducible assumption | with_reducible apply KeepsOut.next | with_reducible apply i2cRun_keeps
    | dsimp only | split

theorem execI2cStop_keeps {β : Bool} {σ s : State} (h : Keeps β σ s) (u : BitVec 1) :
    KeepsOut β σ (execI2cStop u s) := by
  unfold execI2cStop
  repeat' first
    | with_reducible assumption | with_reducible apply KeepsOut.next | with_reducible apply i2cRun_keeps
    | dsimp only | split

theorem execI2cNack_keeps {β : Bool} {σ s : State} (h : Keeps β σ s) (u : BitVec 1) :
    KeepsOut β σ (execI2cNack u s) := by
  unfold execI2cNack
  repeat' first
    | with_reducible assumption | with_reducible apply KeepsOut.next | with_reducible apply i2cNack_keeps
    | dsimp only | split

theorem execI2cArbLost_keeps {β : Bool} {σ s : State} (h : Keeps β σ s) (u : BitVec 1) :
    KeepsOut β σ (execI2cArbLost u s) := by
  unfold execI2cArbLost
  repeat' first
    | with_reducible assumption | with_reducible apply KeepsOut.next | with_reducible apply i2cLost_keeps
    | dsimp only | split

theorem execI2cSclTimeout_keeps {β : Bool} {σ s : State} (h : Keeps β σ s) (u : BitVec 1) :
    KeepsOut β σ (execI2cSclTimeout u s) := by
  unfold execI2cSclTimeout
  repeat' first
    | with_reducible assumption | with_reducible apply KeepsOut.next | with_reducible apply i2cLost_keeps
    | dsimp only | split

theorem execI2cRxRead_keeps {β : Bool} {σ s : State} (h : Keeps β σ s) (i : Init) (u : BitVec 1) :
    KeepsOut β σ (execI2cRxRead i u s) := by
  unfold execI2cRxRead
  repeat' first
    | with_reducible assumption | with_reducible apply KeepsOut.next | with_reducible apply doorLoad_keeps
    | with_reducible apply i2cRead_keeps | (intro u; intros) | dsimp only | split

theorem execI2cOwnWrite_keeps {β : Bool} {σ s : State} (h : Keeps β σ s) (i : Init) (data : Word) :
    KeepsOut β σ (execI2cOwnWrite i data s) := by
  unfold execI2cOwnWrite
  repeat' first
    | with_reducible assumption | with_reducible apply KeepsOut.next | with_reducible apply doorStore_keeps
    | with_reducible apply serialOwn_keeps | with_reducible apply i2cPut_keeps | (intro u; intros) | dsimp only
    | split

theorem execGpioOwnWrite_keeps {β : Bool} {σ s : State} (h : Keeps β σ s) (i : Init) (j : BitVec 3) (data : Word) :
    KeepsOut β σ (execGpioOwnWrite i j data s) := by
  unfold execGpioOwnWrite
  repeat' first
    | with_reducible assumption | with_reducible apply KeepsOut.next | with_reducible apply doorStore_keeps
    | with_reducible apply gpioOwn_keeps | (intro u; intros) | dsimp only | split

theorem execGpioSet_keeps {β : Bool} {σ s : State} (h : Keeps β σ s) (i : Init) (bank : BitVec 2) (data : Word) :
    KeepsOut β σ (execGpioSet i bank data s) := by
  unfold execGpioSet
  repeat' first
    | with_reducible assumption | with_reducible apply KeepsOut.next | with_reducible apply doorStore_keeps
    | with_reducible apply gpioOut_keeps | (intro u; intros) | dsimp only | split

theorem execGpioClr_keeps {β : Bool} {σ s : State} (h : Keeps β σ s) (i : Init) (bank : BitVec 2) (data : Word) :
    KeepsOut β σ (execGpioClr i bank data s) := by
  unfold execGpioClr
  repeat' first
    | with_reducible assumption | with_reducible apply KeepsOut.next | with_reducible apply doorStore_keeps
    | with_reducible apply gpioOut_keeps | (intro u; intros) | dsimp only | split

theorem execGpioEdge_keeps {β : Bool} {σ s : State} (h : Keeps β σ s) (pin : BitVec 6) (level : Bool) :
    KeepsOut β σ (execGpioEdge pin level s) := by
  unfold execGpioEdge
  repeat' first
    | with_reducible assumption | with_reducible apply KeepsOut.next | with_reducible apply gpioEdge_keeps
    | dsimp only | split

theorem execGpioHoldRelease_keeps {β : Bool} {σ s : State} (h : Keeps β σ s) (i : Init) (data : Word) :
    KeepsOut β σ (execGpioHoldRelease i data s) := by
  unfold execGpioHoldRelease
  repeat' first
    | with_reducible assumption | with_reducible apply KeepsOut.next | with_reducible apply doorStore_keeps
    | with_reducible apply gpioHold_keeps | (intro u; intros) | dsimp only | split

theorem updMove_keeps {β : Bool} {σ s : State} (h : Keeps β σ s) (st : Nat) :
    Keeps β σ (updMove st s) := by
  unfold updMove
  repeat' first
    | with_reducible assumption | with_reducible apply fset_keeps | dsimp only | split

theorem updErr_keeps {β : Bool} {σ s : State} (h : Keeps β σ s) (f : Fld) :
    Keeps β σ (updErr f s) := by
  unfold updErr
  repeat' first
    | with_reducible assumption | with_reducible apply fset_keeps | dsimp only | split

theorem updPut_keeps {β : Bool} {σ s : State} (h : Keeps β σ s) (v : UpdState) :
    Keeps β σ (updPut v s) := by
  unfold updPut
  repeat' first
    | with_reducible assumption | simp only [Keeps.update] | dsimp only | split

theorem updEnd_keeps {σ s : State} (h : Keeps false σ s) (res : Nat) :
    Keeps false σ (updEnd res s) := by
  unfold updEnd
  repeat' first
    | with_reducible assumption | with_reducible apply ledgWaited_keeps | with_reducible apply updMove_keeps
    | with_reducible apply fset_keeps | with_reducible apply updPut_keeps | simp only [Keeps.update] | dsimp only
    | split

theorem updHeader_keeps {β : Bool} {σ s : State} (h : Keeps β σ s) (source : Nat) :
    Keeps β σ (updHeader source s) := by
  unfold updHeader
  repeat' first
    | with_reducible assumption | with_reducible apply updErr_keeps | with_reducible apply fset_keeps
    | with_reducible apply updMove_keeps | with_reducible apply Keeps.ite | split | simp only [Keeps.update]
    | dsimp only

theorem updOpen_keeps {σ s : State} (h : Keeps false σ s) (h : List Byte) :
    Keeps false σ (updOpen h s) := by
  unfold updOpen
  try lift_lets
  repeat' first
    | with_reducible assumption
    | (intro x; first
        | (have hx : Keeps false σ x := ?_); clear_value x | (have hx : Keeps false σ x.2 := ?_); clear_value x
        | (have hx : Keeps false σ x.2.2 := ?_); clear_value x | clear_value x)
    | with_reducible apply memWrite_keeps | with_reducible apply fset_keeps | with_reducible apply updMove_keeps
    | with_reducible apply updPut_keeps | simp only [Keeps.update] | lift_lets | subst x | dsimp only | split

theorem loadRead_keeps {β : Bool} {σ s : State} (h : Keeps β σ s) (a k n : Nat) : Keeps β σ (loadRead a k n s).2 := by
  induction k generalizing a n s with
  | zero => exact h
  | succ k ih =>
    unfold loadRead
    lift_lets
    intro m cause l
    have := ih h (a + 64) (n - m)
    cases cause with
    | some c => exact recordRefusal_keeps h _ _ _ _ _
    | none => dsimp only; split <;> exact Keeps.of_pair (by assumption) this

theorem stgAppend_keeps {σ s : State} (h : Keeps false σ s) (l : List Byte) :
    Keeps false σ (stgAppend l s) := by
  unfold stgAppend
  try lift_lets
  repeat' first
    | with_reducible assumption
    | (intro x; first
        | (have hx : Keeps false σ x := ?_); clear_value x | (have hx : Keeps false σ x.2 := ?_); clear_value x
        | (have hx : Keeps false σ x.2.2 := ?_); clear_value x | clear_value x)
    | with_reducible apply memWrite_keeps | with_reducible apply fset_keeps | with_reducible apply updPut_keeps
    | simp only [Keeps.update] | lift_lets | subst x | dsimp only | split

theorem updLoad_keeps {σ s : State} (h : Keeps false σ s) :
    Keeps false σ (updLoad s) := by
  unfold updLoad
  try lift_lets
  repeat' first
    | with_reducible assumption
    | (intro x; first
        | (have hx : Keeps false σ x := ?_); clear_value x | (have hx : Keeps false σ x.2 := ?_); clear_value x
        | (have hx : Keeps false σ x.2.2 := ?_); clear_value x | clear_value x)
    | with_reducible apply updErr_keeps | with_reducible apply updEnd_keeps | with_reducible apply loadRead_keeps
    | with_reducible apply drawFree_keeps | with_reducible apply stgAppend_keeps | with_reducible apply Keeps.ite
    | split | simp only [Keeps.update] | lift_lets | subst x | (refine Keeps.of_pair (by assumption) ?_)
    | dsimp only

theorem updFinish_keeps {σ s : State} (h : Keeps false σ s) :
    Keeps false σ (updFinish s) := by
  unfold updFinish
  repeat' first
    | with_reducible assumption | with_reducible apply updErr_keeps | with_reducible apply updMove_keeps
    | with_reducible apply updEnd_keeps | with_reducible apply Keeps.ite | split | dsimp only

theorem updAbort_keeps {σ s : State} (h : Keeps false σ s) :
    Keeps false σ (updAbort s) := by
  unfold updAbort
  repeat' first
    | with_reducible assumption | with_reducible apply updEnd_keeps | with_reducible apply updErr_keeps
    | with_reducible apply Keeps.ite | split | dsimp only

theorem writeBegin_keeps {β : Bool} {σ s : State} (h : Keeps β σ s) (a : Nat) (n : Nat) :
    Keeps β σ (writeBegin a n s) := by
  unfold writeBegin
  try lift_lets
  repeat' first
    | with_reducible assumption
    | (intro x; first
        | (have hx : Keeps β σ x := ?_); clear_value x | (have hx : Keeps β σ x.2 := ?_); clear_value x
        | (have hx : Keeps β σ x.2.2 := ?_); clear_value x | clear_value x)
    | with_reducible apply flashInvalidate_keeps | with_reducible apply garble_keeps
    | with_reducible apply eraseCounts_keeps | with_reducible apply bankPut_keeps | with_reducible apply Keeps.ite
    | split | lift_lets | subst x | dsimp only

theorem writeEnd_keeps {σ s : State} (h : Keeps false σ s) (a : Nat) (n : Nat) (ok : Bool) (image : List Byte) (dest
    : Nat) :
    Keeps false σ (writeEnd a n ok image dest s) := by
  unfold writeEnd
  try lift_lets
  repeat' first
    | with_reducible assumption
    | (intro x; first
        | (have hx : Keeps false σ x := ?_); clear_value x | (have hx : Keeps false σ x.2 := ?_); clear_value x
        | (have hx : Keeps false σ x.2.2 := ?_); clear_value x | clear_value x)
    | with_reducible apply bankPut_keeps | with_reducible apply flashInvalidate_keeps
    | with_reducible apply memWrite_keeps | with_reducible apply eraseRange_keeps | with_reducible apply Keeps.ite
    | split | lift_lets | subst x | dsimp only

theorem stagedBegin_keeps {β : Bool} {σ s : State} (h : Keeps β σ s) :
    Keeps β σ (stagedBegin s) := by
  unfold stagedBegin
  try lift_lets
  repeat' first
    | with_reducible assumption
    | (intro x; first
        | (have hx : Keeps β σ x := ?_); clear_value x | (have hx : Keeps β σ x.2 := ?_); clear_value x
        | (have hx : Keeps β σ x.2.2 := ?_); clear_value x | clear_value x)
    | with_reducible apply writeBegin_keeps | lift_lets | subst x | dsimp only | split

theorem stagedEnd_keeps {σ s : State} (h : Keeps false σ s) (ok : Bool) :
    Keeps false σ (stagedEnd ok s) := by
  unfold stagedEnd
  try lift_lets
  repeat' first
    | with_reducible assumption
    | (intro x; first
        | (have hx : Keeps false σ x := ?_); clear_value x | (have hx : Keeps false σ x.2 := ?_); clear_value x
        | (have hx : Keeps false σ x.2.2 := ?_); clear_value x | clear_value x)
    | with_reducible apply writeEnd_keeps | lift_lets | subst x | dsimp only | split

theorem floorTake_keeps {β : Bool} {σ s : State} (h : Keeps β σ s) :
    Keeps β σ (floorTake s) := by
  unfold floorTake
  try lift_lets
  repeat' first
    | with_reducible assumption
    | (intro x; first
        | (have hx : Keeps β σ x := ?_); clear_value x | (have hx : Keeps β σ x.2 := ?_); clear_value x
        | (have hx : Keeps β σ x.2.2 := ?_); clear_value x | clear_value x)
    | with_reducible apply wr_keeps | lift_lets | subst x | dsimp only | split

theorem roomSt_keeps {β : Bool} {σ s : State} (h : Keeps β σ s) (r : Nat) (v : Nat) :
    Keeps β σ (roomSt r v s) := by
  unfold roomSt
  repeat' first
    | with_reducible assumption | with_reducible apply fset_keeps | dsimp only | split

theorem activateRoom_keeps {σ s : State} (h : Keeps false σ s) :
    Keeps false σ (activateRoom s) := by
  unfold activateRoom
  try lift_lets
  repeat' first
    | with_reducible assumption
    | (intro x; first
        | (have hx : Keeps false σ x := ?_); clear_value x | (have hx : Keeps false σ x.2 := ?_); clear_value x
        | (have hx : Keeps false σ x.2.2 := ?_); clear_value x | clear_value x)
    | with_reducible apply roomSuspend_keeps | with_reducible apply measClear_keeps
    | with_reducible apply roomSt_keeps | with_reducible apply floorTake_keeps
    | with_reducible apply stagedBegin_keeps | with_reducible apply updMove_keeps
    | with_reducible apply resetRoom_keeps | with_reducible apply roomUnload_keeps
    | with_reducible apply updEnd_keeps | with_reducible apply Keeps.ite | split | lift_lets | subst x | dsimp only

theorem roomWritten_keeps {σ s : State} (h : Keeps false σ s) (ok : Bool) :
    Keeps false σ (roomWritten ok s) := by
  unfold roomWritten
  try lift_lets
  repeat' first
    | with_reducible assumption
    | (intro x; first
        | (have hx : Keeps false σ x := ?_); clear_value x | (have hx : Keeps false σ x.2 := ?_); clear_value x
        | (have hx : Keeps false σ x.2.2 := ?_); clear_value x | clear_value x)
    | with_reducible apply stagedEnd_keeps | with_reducible apply updEnd_keeps | with_reducible apply roomSt_keeps
    | with_reducible apply wr_keeps | with_reducible apply measFrom_keeps | with_reducible apply roomResume_keeps
    | with_reducible apply Keeps.ite | split | lift_lets | subst x | dsimp only

theorem holdCore_keeps {β : Bool} {σ s : State} (h : Keeps β σ s) (k : Nat) :
    Keeps β σ (holdCore k s) := by
  unfold holdCore
  repeat' first
    | with_reducible assumption | with_reducible apply coreSet_keeps | simp only [Keeps.update] | dsimp only | split

theorem activateHouse_keeps {β : Bool} {σ s : State} (h : Keeps β σ s) :
    Keeps β σ (activateHouse s) := by
  unfold activateHouse
  repeat' first
    | with_reducible assumption | with_reducible apply measClear_keeps | with_reducible apply holdCore_keeps
    | with_reducible apply updMove_keeps | with_reducible apply floorTake_keeps | dsimp only | split

theorem copySegments_keeps {σ s : State} (h : Keeps false σ s) (h : List Byte) (body : List Byte) :
    Keeps false σ (copySegments h body s) := by
  unfold copySegments
  repeat' first
    | with_reducible assumption | with_reducible apply memWrite_keeps
    | (with_reducible apply Keeps.foldl; intro u y hu) | dsimp only | split

theorem houseCores_keeps {β : Bool} {σ s : State} (h : Keeps β σ s) (h : List Byte) :
    Keeps β σ (houseCores h s) := by
  unfold houseCores
  try lift_lets
  repeat' first
    | with_reducible assumption
    | (intro x; first
        | (have hx : Keeps β σ x := ?_); clear_value x | (have hx : Keeps β σ x.2 := ?_); clear_value x
        | (have hx : Keeps β σ x.2.2 := ?_); clear_value x
        | (have hf : ∀ u, Keeps β σ u → Keeps β σ (x u) := ?_); clear_value x
        | (have hf : ∀ a u, Keeps β σ u → Keeps β σ (x a u) := ?_); clear_value x
        | (have hf : ∀ a b u, Keeps β σ u → Keeps β σ (x a b u) := ?_); clear_value x | clear_value x)
    | with_reducible apply hf | (intro u; intros) | with_reducible apply coreSet_keeps
    | with_reducible apply Keeps.ite | split | lift_lets | subst x | dsimp only

theorem levelsClear_keeps {β : Bool} {σ s : State} (h : Keeps β σ s) :
    Keeps β σ (levelsClear s) := by
  unfold levelsClear
  repeat' first
    | with_reducible assumption | with_reducible apply destSet_keeps
    | (with_reducible apply Keeps.foldl; intro u y hu) | simp only [Keeps.update] | dsimp only | split

theorem houseRestart_keeps {σ s : State} (h : Keeps false σ s) :
    Keeps false σ (houseRestart s) := by
  unfold houseRestart
  try lift_lets
  repeat' first
    | with_reducible assumption
    | (intro x; first
        | (have hx : Keeps false σ x := ?_); clear_value x | (have hx : Keeps false σ x.2 := ?_); clear_value x
        | (have hx : Keeps false σ x.2.2 := ?_); clear_value x | clear_value x)
    | with_reducible apply measFrom_keeps | with_reducible apply copySegments_keeps
    | with_reducible apply digestChange_keeps | with_reducible apply stagedBegin_keeps
    | with_reducible apply levelsClear_keeps | with_reducible apply houseCores_keeps
    | with_reducible apply updMove_keeps | with_reducible apply Keeps.ite | split | lift_lets | subst x | dsimp only

theorem houseRewritten_keeps {σ s : State} (h : Keeps false σ s) (ok : Bool) :
    Keeps false σ (houseRewritten ok s) := by
  unfold houseRewritten
  repeat' first
    | with_reducible assumption | with_reducible apply updEnd_keeps | with_reducible apply stagedEnd_keeps
    | with_reducible apply Keeps.ite | split | dsimp only

theorem updActivate_keeps {σ s : State} (h : Keeps false σ s) :
    Keeps false σ (updActivate s) := by
  unfold updActivate
  repeat' first
    | with_reducible assumption | with_reducible apply updErr_keeps | with_reducible apply activateHouse_keeps
    | with_reducible apply activateRoom_keeps | with_reducible apply stagedBegin_keeps
    | with_reducible apply updMove_keeps | with_reducible apply floorTake_keeps | with_reducible apply Keeps.ite
    | split | simp only [Keeps.update] | dsimp only

theorem planWritten_keeps {σ s : State} (h : Keeps false σ s) (ok : Bool) :
    Keeps false σ (planWritten ok s) := by
  unfold planWritten
  repeat' first
    | with_reducible assumption | with_reducible apply updEnd_keeps | with_reducible apply slotSet_keeps
    | with_reducible apply stagedEnd_keeps | with_reducible apply Keeps.ite | split | dsimp only

theorem updWritten_keeps {σ s : State} (h : Keeps false σ s) (ok : Bool) :
    Keeps false σ (updWritten ok s) := by
  unfold updWritten
  repeat' first
    | with_reducible assumption | with_reducible apply roomWritten_keeps | with_reducible apply planWritten_keeps
    | with_reducible apply Keeps.ite | split | simp only [Keeps.update] | dsimp only

theorem checkRoom_keeps {σ s : State} (h : Keeps false σ s) (r : Nat) :
    Keeps false σ (checkRoom r s).2 := by
  unfold checkRoom
  try lift_lets
  repeat' first
    | with_reducible assumption
    | (intro x; first
        | (have hx : Keeps false σ x := ?_); clear_value x | (have hx : Keeps false σ x.2 := ?_); clear_value x
        | (have hx : Keeps false σ x.2.2 := ?_); clear_value x | clear_value x)
    | with_reducible apply roomSt_keeps | with_reducible apply measFrom_keeps | with_reducible apply wr_keeps
    | with_reducible apply measClear_keeps | with_reducible apply suspendRoom_keeps | with_reducible apply Keeps.ite
    | split | simp only [Keeps.update] | lift_lets | subst x | dsimp only

theorem updCheck_keeps {σ s : State} (h : Keeps false σ s) (r : Nat) :
    Keeps false σ (updCheck r s) := by
  unfold updCheck
  try lift_lets
  repeat' first
    | with_reducible assumption
    | (intro x; first
        | (have hx : Keeps false σ x := ?_); clear_value x | (have hx : Keeps false σ x.2 := ?_); clear_value x
        | (have hx : Keeps false σ x.2.2 := ?_); clear_value x | clear_value x)
    | with_reducible apply updErr_keeps | with_reducible apply fset_keeps | with_reducible apply updEnd_keeps
    | with_reducible apply checkRoom_keeps | with_reducible apply drawFree_keeps | with_reducible apply Keeps.ite
    | split | lift_lets | subst x | dsimp only

theorem floorClr_keeps {β : Bool} {σ s : State} (h : Keeps β σ s) (r : Nat) :
    Keeps β σ (floorClr r s) := by
  unfold floorClr
  repeat' first
    | with_reducible assumption | with_reducible apply updErr_keeps | with_reducible apply wr_keeps
    | with_reducible apply Keeps.ite | split | dsimp only

theorem updRecover_keeps {β : Bool} {σ s : State} (h : Keeps β σ s) :
    Keeps β σ (updRecover s) := by
  unfold updRecover
  repeat' first
    | with_reducible assumption | with_reducible apply updErr_keeps | with_reducible apply hallRestart_keeps
    | with_reducible apply fset_keeps | with_reducible apply Keeps.ite | split | dsimp only

theorem updCmd_keeps {σ s : State} (h : Keeps false σ s) (key : Nat) (op : Nat) (room : Nat) :
    Keeps false σ (updCmd key op room s) := by
  unfold updCmd
  repeat' first
    | with_reducible assumption | with_reducible apply updErr_keeps | with_reducible apply updHeader_keeps
    | with_reducible apply updLoad_keeps | with_reducible apply updFinish_keeps
    | with_reducible apply updActivate_keeps | with_reducible apply updAbort_keeps
    | with_reducible apply updCheck_keeps | with_reducible apply floorClr_keeps
    | with_reducible apply updRecover_keeps | with_reducible apply Keeps.ite | split | simp only [Keeps.update]
    | dsimp only

theorem stgWrite_keeps {β : Bool} {σ s : State} (h : Keeps β σ s) (a : Nat) (data : Word) (mask : Word) :
    Keeps β σ (stgWrite a data mask s) := by
  unfold stgWrite
  repeat' first
    | with_reducible assumption | with_reducible apply updErr_keeps | with_reducible apply wr_keeps
    | with_reducible apply Keeps.ite | split | dsimp only

theorem rcfgWrite_keeps {β : Bool} {σ s : State} (h : Keeps β σ s) (data : Word) :
    Keeps β σ (rcfgWrite data s) := by
  unfold rcfgWrite
  repeat' first
    | with_reducible assumption | with_reducible apply updErr_keeps | with_reducible apply wr_keeps
    | with_reducible apply Keeps.ite | split | dsimp only

theorem rfreqWrite_keeps {β : Bool} {σ s : State} (h : Keeps β σ s) (data : Word) :
    Keeps β σ (rfreqWrite data s) := by
  unfold rfreqWrite
  try lift_lets
  repeat' first
    | with_reducible assumption
    | (intro x; first
        | (have hx : Keeps β σ x := ?_); clear_value x | (have hx : Keeps β σ x.2 := ?_); clear_value x
        | (have hx : Keeps β σ x.2.2 := ?_); clear_value x | clear_value x)
    | with_reducible apply wr_keeps | with_reducible apply updErr_keeps | with_reducible apply Keeps.ite | split
    | lift_lets | subst x | dsimp only

theorem recReply_keeps {β : Bool} {σ s : State} (h : Keeps β σ s) (src : RecSource) (l : List Byte) :
    Keeps β σ (recReply src l s) := by
  unfold recReply
  try lift_lets
  repeat' first
    | with_reducible assumption
    | (intro x; first
        | (have hx : Keeps β σ x := ?_); clear_value x | (have hx : Keeps β σ x.2 := ?_); clear_value x
        | (have hx : Keeps β σ x.2.2 := ?_); clear_value x | clear_value x)
    | with_reducible apply updPut_keeps | with_reducible apply hostSend_keeps | with_reducible apply Keeps.ite
    | split | simp only [Keeps.update] | lift_lets | subst x | dsimp only

theorem recTake_keeps {β : Bool} {σ s : State} (h : Keeps β σ s) (src : RecSource) :
    Keeps β σ (recTake src s) := by
  unfold recTake
  repeat' first
    | with_reducible assumption | with_reducible apply hostPut_keeps | split | simp only [Keeps.update] | dsimp only

theorem recMessage_keeps {β : Bool} {σ s : State} (h : Keeps β σ s) (src : RecSource) (f : State → State) (hf : ∀ u,
    Keeps β σ u → Keeps β σ (f u)) :
    Keeps β σ (recMessage src f s) := by
  unfold recMessage
  try lift_lets
  repeat' first
    | with_reducible assumption
    | (intro x; first
        | (have hx : Keeps β σ x := ?_); clear_value x | (have hx : Keeps β σ x.2 := ?_); clear_value x
        | (have hx : Keeps β σ x.2.2 := ?_); clear_value x | clear_value x)
    | apply hf | with_reducible apply recTake_keeps | with_reducible apply recReply_keeps
    | with_reducible apply drawFree_keeps | with_reducible apply Keeps.ite | split | lift_lets | subst x
    | dsimp only

theorem recHeader_keeps {β : Bool} {σ s : State} (h : Keeps β σ s) (src : RecSource) (h : List Byte) :
    Keeps β σ (recHeader src h s) := by
  unfold recHeader
  repeat' first
    | with_reducible assumption | with_reducible apply updHeader_keeps | with_reducible apply wrList_keeps
    | with_reducible apply recReply_keeps | with_reducible apply drawFree_keeps | with_reducible apply Keeps.ite
    | split | dsimp only

theorem updHeaderChecked_keeps {σ s : State} (h : Keeps false σ s) :
    Keeps false σ (updHeaderChecked s) := by
  unfold updHeaderChecked
  try lift_lets
  repeat' first
    | with_reducible assumption
    | (intro x; first
        | (have hx : Keeps false σ x := ?_); clear_value x | (have hx : Keeps false σ x.2 := ?_); clear_value x
        | (have hx : Keeps false σ x.2.2 := ?_); clear_value x | clear_value x)
    | with_reducible apply fset_keeps | with_reducible apply updOpen_keeps | with_reducible apply updEnd_keeps
    | with_reducible apply recReply_keeps | with_reducible apply Keeps.ite | split | simp only [Keeps.update]
    | lift_lets | subst x | dsimp only

theorem recData_keeps {σ s : State} (h : Keeps false σ s) (src : RecSource) (offset : Nat) (l : List Byte) :
    Keeps false σ (recData src offset l s) := by
  unfold recData
  try lift_lets
  repeat' first
    | with_reducible assumption
    | (intro x; first
        | (have hx : Keeps false σ x := ?_); clear_value x | (have hx : Keeps false σ x.2 := ?_); clear_value x
        | (have hx : Keeps false σ x.2.2 := ?_); clear_value x | clear_value x)
    | with_reducible apply stgAppend_keeps | with_reducible apply recReply_keeps | with_reducible apply Keeps.ite
    | split | lift_lets | subst x | dsimp only

theorem recCommit_keeps {σ s : State} (h : Keeps false σ s) (src : RecSource) (ok : Bool) :
    Keeps false σ (recCommit src ok s) := by
  unfold recCommit
  try lift_lets
  repeat' first
    | with_reducible assumption
    | (intro x; first
        | (have hx : Keeps false σ x := ?_); clear_value x | (have hx : Keeps false σ x.2 := ?_); clear_value x
        | (have hx : Keeps false σ x.2.2 := ?_); clear_value x | clear_value x)
    | with_reducible apply recReply_keeps | with_reducible apply drawFree_keeps
    | with_reducible apply stagedEnd_keeps | with_reducible apply stagedBegin_keeps
    | with_reducible apply floorTake_keeps | with_reducible apply slotSet_keeps | with_reducible apply updEnd_keeps
    | with_reducible apply updPut_keeps | with_reducible apply Keeps.ite | split | simp only [Keeps.update]
    | lift_lets | subst x | dsimp only

theorem recAbort_keeps {σ s : State} (h : Keeps false σ s) (src : RecSource) :
    Keeps false σ (recAbort src s) := by
  unfold recAbort
  repeat' first
    | with_reducible assumption | with_reducible apply recReply_keeps | with_reducible apply updEnd_keeps
    | with_reducible apply Keeps.ite | split | dsimp only

theorem recRestart_keeps {β : Bool} {σ s : State} (h : Keeps β σ s) :
    Keeps β σ (recRestart s) := by
  unfold recRestart
  repeat' first
    | with_reducible assumption | with_reducible apply hallRestart_keeps | with_reducible apply fset_keeps
    | dsimp only | split

theorem execUpdHeader_keeps {σ s : State} (h : Keeps false σ s) (i : Init) (key : BitVec 16) :
    KeepsOut false σ (execUpdHeader i key s) := by
  unfold execUpdHeader
  repeat' first
    | with_reducible assumption | with_reducible apply KeepsOut.next | with_reducible apply doorStore_keeps
    | with_reducible apply updCmd_keeps | (intro u; intros) | dsimp only | split

theorem execUpdLoad_keeps {σ s : State} (h : Keeps false σ s) (i : Init) (key : BitVec 16) :
    KeepsOut false σ (execUpdLoad i key s) := by
  unfold execUpdLoad
  repeat' first
    | with_reducible assumption | with_reducible apply KeepsOut.next | with_reducible apply doorStore_keeps
    | with_reducible apply updCmd_keeps | (intro u; intros) | dsimp only | split

theorem execUpdFinish_keeps {σ s : State} (h : Keeps false σ s) (i : Init) (key : BitVec 16) :
    KeepsOut false σ (execUpdFinish i key s) := by
  unfold execUpdFinish
  repeat' first
    | with_reducible assumption | with_reducible apply KeepsOut.next | with_reducible apply doorStore_keeps
    | with_reducible apply updCmd_keeps | (intro u; intros) | dsimp only | split

theorem execUpdActivate_keeps {σ s : State} (h : Keeps false σ s) (i : Init) (key : BitVec 16) :
    KeepsOut false σ (execUpdActivate i key s) := by
  unfold execUpdActivate
  repeat' first
    | with_reducible assumption | with_reducible apply KeepsOut.next | with_reducible apply doorStore_keeps
    | with_reducible apply updCmd_keeps | (intro u; intros) | dsimp only | split

theorem execUpdAbort_keeps {σ s : State} (h : Keeps false σ s) (i : Init) (key : BitVec 16) :
    KeepsOut false σ (execUpdAbort i key s) := by
  unfold execUpdAbort
  repeat' first
    | with_reducible assumption | with_reducible apply KeepsOut.next | with_reducible apply doorStore_keeps
    | with_reducible apply updCmd_keeps | (intro u; intros) | dsimp only | split

theorem execUpdCheck_keeps {σ s : State} (h : Keeps false σ s) (i : Init) (key : BitVec 16) (room : BitVec 6) :
    KeepsOut false σ (execUpdCheck i key room s) := by
  unfold execUpdCheck
  repeat' first
    | with_reducible assumption | with_reducible apply KeepsOut.next | with_reducible apply doorStore_keeps
    | with_reducible apply updCmd_keeps | (intro u; intros) | dsimp only | split

theorem execFloorClr_keeps {σ s : State} (h : Keeps false σ s) (i : Init) (key : BitVec 16) (room : BitVec 6) :
    KeepsOut false σ (execFloorClr i key room s) := by
  unfold execFloorClr
  repeat' first
    | with_reducible assumption | with_reducible apply KeepsOut.next | with_reducible apply doorStore_keeps
    | with_reducible apply updCmd_keeps | (intro u; intros) | dsimp only | split

theorem execRecover_keeps {σ s : State} (h : Keeps false σ s) (i : Init) (key : BitVec 16) :
    KeepsOut false σ (execRecover i key s) := by
  unfold execRecover
  repeat' first
    | with_reducible assumption | with_reducible apply KeepsOut.next | with_reducible apply doorStore_keeps
    | with_reducible apply updCmd_keeps | (intro u; intros) | dsimp only | split

theorem execUpdHeaderChecked_keeps {σ s : State} (h : Keeps false σ s) :
    KeepsOut false σ (execUpdHeaderChecked s) := by
  unfold execUpdHeaderChecked
  repeat' first
    | with_reducible assumption | with_reducible apply KeepsOut.next | with_reducible apply updHeaderChecked_keeps
    | dsimp only | split

theorem execUpdWriteDone_keeps {σ s : State} (h : Keeps false σ s) (ok : Bool) :
    KeepsOut false σ (execUpdWriteDone ok s) := by
  unfold execUpdWriteDone
  repeat' first
    | with_reducible assumption | with_reducible apply KeepsOut.next | with_reducible apply updWritten_keeps
    | dsimp only | split

theorem execHouseRestart_keeps {σ s : State} (h : Keeps false σ s) :
    KeepsOut false σ (execHouseRestart s) := by
  unfold execHouseRestart
  repeat' first
    | with_reducible assumption | with_reducible apply KeepsOut.next | with_reducible apply houseRestart_keeps
    | dsimp only | split

theorem execHouseRewriteDone_keeps {σ s : State} (h : Keeps false σ s) (ok : Bool) :
    KeepsOut false σ (execHouseRewriteDone ok s) := by
  unfold execHouseRewriteDone
  repeat' first
    | with_reducible assumption | with_reducible apply KeepsOut.next | with_reducible apply houseRewritten_keeps
    | dsimp only | split

theorem execRecoveryInfo_keeps {β : Bool} {σ s : State} (h : Keeps β σ s) (src : RecSource) :
    KeepsOut β σ (execRecoveryInfo src s) := by
  unfold execRecoveryInfo
  repeat' first
    | with_reducible assumption | with_reducible apply KeepsOut.next | with_reducible apply recReply_keeps
    | with_reducible apply drawFree_keeps | with_reducible apply recTake_keeps | with_reducible apply Keeps.ite
    | split | dsimp only

theorem execRecoveryHeader_keeps {β : Bool} {σ s : State} (h : Keeps β σ s) (src : RecSource) (header : List Byte) :
    KeepsOut β σ (execRecoveryHeader src header s) := by
  unfold execRecoveryHeader
  repeat' first
    | with_reducible assumption | with_reducible apply KeepsOut.next | with_reducible apply recMessage_keeps
    | with_reducible apply recHeader_keeps | (intro u; intros) | dsimp only | split

theorem execRecoveryData_keeps {σ s : State} (h : Keeps false σ s) (src : RecSource) (offset : Word) (octets : List
    Byte) :
    KeepsOut false σ (execRecoveryData src offset octets s) := by
  unfold execRecoveryData
  repeat' first
    | with_reducible assumption | with_reducible apply KeepsOut.next | with_reducible apply recMessage_keeps
    | with_reducible apply recData_keeps | (intro u; intros) | dsimp only | split

theorem execRecoveryCommit_keeps {σ s : State} (h : Keeps false σ s) (src : RecSource) (ok : Bool) :
    KeepsOut false σ (execRecoveryCommit src ok s) := by
  unfold execRecoveryCommit
  repeat' first
    | with_reducible assumption | with_reducible apply KeepsOut.next | with_reducible apply recMessage_keeps
    | with_reducible apply recCommit_keeps | (intro u; intros) | dsimp only | split

theorem execRecoveryAbort_keeps {σ s : State} (h : Keeps false σ s) (src : RecSource) :
    KeepsOut false σ (execRecoveryAbort src s) := by
  unfold execRecoveryAbort
  repeat' first
    | with_reducible assumption | with_reducible apply KeepsOut.next | with_reducible apply recMessage_keeps
    | with_reducible apply recAbort_keeps | (intro u; intros) | dsimp only | split

theorem execRecoveryRestart_keeps {β : Bool} {σ s : State} (h : Keeps β σ s) (src : RecSource) :
    KeepsOut β σ (execRecoveryRestart src s) := by
  unfold execRecoveryRestart
  repeat' first
    | with_reducible assumption | with_reducible apply KeepsOut.next | with_reducible apply recMessage_keeps
    | with_reducible apply recRestart_keeps | (intro u; intros) | dsimp only | split

theorem execRecoverySessionTimeout_keeps {σ s : State} (h : Keeps false σ s) :
    KeepsOut false σ (execRecoverySessionTimeout s) := by
  unfold execRecoverySessionTimeout
  repeat' first
    | with_reducible assumption | with_reducible apply KeepsOut.next | with_reducible apply updEnd_keeps
    | with_reducible apply drawFree_keeps | with_reducible apply Keeps.ite | split | dsimp only

theorem execRecoveryAutoRestart_keeps {β : Bool} {σ s : State} (h : Keeps β σ s) :
    KeepsOut β σ (execRecoveryAutoRestart s) := by
  unfold execRecoveryAutoRestart
  repeat' first
    | with_reducible assumption | with_reducible apply KeepsOut.next | with_reducible apply recRestart_keeps
    | with_reducible apply Keeps.ite | split | dsimp only

theorem vbatClear_keeps {β : Bool} {σ s : State} (h : Keeps β σ s) :
    Keeps β σ (vbatClear s) := by
  unfold vbatClear
  try lift_lets
  repeat' first
    | with_reducible assumption
    | (intro x; first
        | (have hx : Keeps β σ x := ?_); clear_value x | (have hx : Keeps β σ x.2 := ?_); clear_value x
        | (have hx : Keeps β σ x.2.2 := ?_); clear_value x | clear_value x)
    | with_reducible apply hallClear_keeps | with_reducible apply supPut_keeps | simp only [Keeps.update]
    | lift_lets | subst x | dsimp only | split

theorem vbatPowerOn_keeps {β : Bool} {σ s : State} (h : Keeps β σ s) (m : Option (BitVec 8)) :
    Keeps β σ (vbatPowerOn m s) := by
  unfold vbatPowerOn
  try lift_lets
  repeat' first
    | with_reducible assumption
    | (intro x; first
        | (have hx : Keeps β σ x := ?_); clear_value x | (have hx : Keeps β σ x.2 := ?_); clear_value x
        | (have hx : Keeps β σ x.2.2 := ?_); clear_value x | clear_value x)
    | with_reducible apply fset_keeps | with_reducible apply vbatClear_keeps | with_reducible apply pwrOn_keeps
    | with_reducible apply owe_keeps | with_reducible apply startRead_keeps | split | simp only [Keeps.update]
    | lift_lets | subst x | dsimp only

theorem tokenBack_keeps {β : Bool} {σ s : State} (h : Keeps β σ s) :
    Keeps β σ (tokenBack s) := by
  unfold tokenBack
  repeat' first
    | with_reducible assumption | with_reducible apply radioOwner_keeps | with_reducible apply Keeps.ite | split
    | dsimp only

theorem recoveryEnter_keeps {β : Bool} {σ s : State} (h : Keeps β σ s) (why : Nat) :
    Keeps β σ (recoveryEnter why s) := by
  unfold recoveryEnter
  try lift_lets
  repeat' first
    | with_reducible assumption
    | (intro x; first
        | (have hx : Keeps β σ x := ?_); clear_value x | (have hx : Keeps β σ x.2 := ?_); clear_value x
        | (have hx : Keeps β σ x.2.2 := ?_); clear_value x | clear_value x)
    | with_reducible apply stage_keeps | with_reducible apply fset_keeps | with_reducible apply hallPut_keeps
    | with_reducible apply tokenBack_keeps | lift_lets | subst x | dsimp only | split

theorem romChecks_keeps {β : Bool} {σ s : State} (h : Keeps β σ s) :
    Keeps β σ (romChecks s) := by
  unfold romChecks
  try lift_lets
  repeat' first
    | with_reducible assumption
    | (intro x; first
        | (have hx : Keeps β σ x := ?_); clear_value x | (have hx : Keeps β σ x.2 := ?_); clear_value x
        | (have hx : Keeps β σ x.2.2 := ?_); clear_value x | clear_value x)
    | with_reducible apply stage_keeps | with_reducible apply recoveryEnter_keeps
    | with_reducible apply hallPut_keeps | with_reducible apply coreSet_keeps | with_reducible apply fset_keeps
    | with_reducible apply Keeps.ite | split | lift_lets | subst x | dsimp only

theorem romStart_keeps {β : Bool} {σ s : State} (h : Keeps β σ s) :
    Keeps β σ (romStart s) := by
  unfold romStart
  try lift_lets
  repeat' first
    | with_reducible assumption
    | (intro x; first
        | (have hx : Keeps β σ x := ?_); clear_value x | (have hx : Keeps β σ x.2 := ?_); clear_value x
        | (have hx : Keeps β σ x.2.2 := ?_); clear_value x | clear_value x)
    | with_reducible apply fset_keeps | with_reducible apply domainOn_keeps | with_reducible apply romChecks_keeps
    | with_reducible apply stage_keeps | with_reducible apply hallPut_keeps | with_reducible apply rngRun_keeps
    | with_reducible apply Keeps.ite | split | simp only [Keeps.update] | lift_lets | subst x | dsimp only

theorem porterFlash_keeps {β : Bool} {σ s : State} (h : Keeps β σ s) :
    Keeps β σ (porterFlash s) := by
  unfold porterFlash
  try lift_lets
  repeat' first
    | with_reducible assumption
    | (intro x; first
        | (have hx : Keeps β σ x := ?_); clear_value x | (have hx : Keeps β σ x.2 := ?_); clear_value x
        | (have hx : Keeps β σ x.2.2 := ?_); clear_value x | clear_value x)
    | with_reducible apply flcWs_keeps | with_reducible apply fset_keeps | with_reducible apply drawFree_keeps
    | lift_lets | subst x | dsimp only | split

theorem porterRooms_keeps {σ s : State} (h : Keeps false σ s) :
    Keeps false σ (porterRooms s) := by
  unfold porterRooms
  repeat' first
    | with_reducible assumption | with_reducible apply drawFree_keeps | with_reducible apply checkRoom_keeps
    | with_reducible apply stage_keeps | with_reducible apply Keeps.ite
    | (with_reducible apply Keeps.foldl; intro u y hu) | split | dsimp only

theorem houseStart_keeps {σ s : State} (h : Keeps false σ s) :
    Keeps false σ (houseStart s) := by
  unfold houseStart
  try lift_lets
  repeat' first
    | with_reducible assumption
    | (intro x; first
        | (have hx : Keeps false σ x := ?_); clear_value x | (have hx : Keeps false σ x.2 := ?_); clear_value x
        | (have hx : Keeps false σ x.2.2 := ?_); clear_value x | clear_value x)
    | with_reducible apply roomSt_keeps | with_reducible apply measFrom_keeps | with_reducible apply stage_keeps
    | with_reducible apply houseCores_keeps | with_reducible apply copySegments_keeps
    | with_reducible apply payOwed_keeps | with_reducible apply tokenBack_keeps | with_reducible apply pwrNote_keeps
    | with_reducible apply Keeps.ite | split | simp only [Keeps.update] | lift_lets | subst x | dsimp only

theorem porterStart_keeps {σ s : State} (h : Keeps false σ s) :
    Keeps false σ (porterStart s) := by
  unfold porterStart
  try lift_lets
  repeat' first
    | with_reducible assumption
    | (intro x; first
        | (have hx : Keeps false σ x := ?_); clear_value x | (have hx : Keeps false σ x.2 := ?_); clear_value x
        | (have hx : Keeps false σ x.2.2 := ?_); clear_value x | clear_value x)
    | with_reducible apply drawFree_keeps | with_reducible apply planStart_keeps | with_reducible apply stage_keeps
    | with_reducible apply porterFlash_keeps | with_reducible apply houseStart_keeps
    | with_reducible apply porterRooms_keeps | with_reducible apply Keeps.ite | split | lift_lets | subst x
    | dsimp only

theorem execVbatPowerOn_keeps {β : Bool} {σ s : State} (h : Keeps β σ s) (voutMode : Option (BitVec 8)) :
    KeepsOut β σ (execVbatPowerOn voutMode s) := by
  unfold execVbatPowerOn
  repeat' first
    | with_reducible assumption | with_reducible apply KeepsOut.next | with_reducible apply vbatPowerOn_keeps
    | dsimp only | split

theorem execRomStart_keeps {β : Bool} {σ s : State} (h : Keeps β σ s) :
    KeepsOut β σ (execRomStart s) := by
  unfold execRomStart
  repeat' first
    | with_reducible assumption | with_reducible apply KeepsOut.next | with_reducible apply romStart_keeps
    | dsimp only | split

theorem execPorterStart_keeps {σ s : State} (h : Keeps false σ s) :
    KeepsOut false σ (execPorterStart s) := by
  unfold execPorterStart
  repeat' first
    | with_reducible assumption | with_reducible apply KeepsOut.next | with_reducible apply porterStart_keeps
    | dsimp only | split

end Sys2Proof.Machine
end

