-- ==== Sys2Proof/Laws/KeepsBus.lean ====
section
/-!
SUPPORT. The operations of the files imported here keep the queue and the canonical forms, and those that store
nothing keep the memories: one lemma per operation, by the operations it calls.
-/

namespace Sys2Proof.Machine

open Reg

theorem readClear_keeps {β : Bool} {σ s : State} (h : Keeps β σ s) (a : Nat) :
    Keeps β σ (readClear a s) := by
  unfold readClear
  repeat' first
    | with_reducible assumption | with_reducible apply wr_keeps | with_reducible apply Keeps.ite | split
    | dsimp only

theorem counterTake_keeps {β : Bool} {σ s : State} (h : Keeps β σ s) (i : Init) (a : Nat) (live : Word64) (air :
    Word64) :
    Keeps β σ (counterTake i a live air s).2 := by
  unfold counterTake
  try lift_lets
  repeat' first
    | with_reducible assumption
    | (intro x; first
        | (have hx : Keeps β σ x := ?_); clear_value x | (have hx : Keeps β σ x.2 := ?_); clear_value x
        | (have hx : Keeps β σ x.2.2 := ?_); clear_value x | clear_value x)
    | with_reducible apply shadowPut_keeps | with_reducible apply Keeps.ite | split | lift_lets | subst x
    | dsimp only

theorem blockTake_keeps {β : Bool} {σ s : State} (h : Keeps β σ s) (i : Init) (b off : Nat) {r : Word × State}
    (e : blockTake i b off s = some r) : Keeps β σ r.2 := by
  unfold blockTake at e
  repeat' first
    | (injection e with e; subst e) | with_reducible assumption | with_reducible apply evtClaim_keeps
    | with_reducible apply phLockRead_keeps | with_reducible apply phRecv_keeps
    | with_reducible apply rngDataRead_keeps | with_reducible apply supPop_keeps
    | with_reducible apply hostInHdr_keeps | with_reducible apply hostInData_keeps
    | with_reducible apply uartRead_keeps | with_reducible apply i2cRead_keeps | contradiction | split at e

theorem specialTake_keeps {β : Bool} {σ s : State} (h : Keeps β σ s) (i : Init) (a : Nat) {r : Word × State}
    (e : specialTake i a s = some r) : Keeps β σ r.2 := by
  unfold specialTake at e
  split at e
  · exact blockTake_keeps h _ _ _ e
  · split at e
    · injection e with e; subst e; exact cipLockRead_keeps h _
    · contradiction
  · contradiction

theorem regTake_keeps {β : Bool} {σ s : State} (h : Keeps β σ s) (i : Init) (a : Nat) (live air : Word64) :
    Keeps β σ (regTake i a live air s).2 := by
  unfold regTake
  split
  · rename_i e; exact specialTake_keeps h _ _ e
  · repeat' first
      | with_reducible assumption
      | with_reducible apply counterTake_keeps
      | with_reducible apply readClear_keeps
      | split

theorem snapCapture_keeps {β : Bool} {σ s : State} (h : Keeps β σ s) (i : Init) (l : List Nat) :
    Keeps β σ (snapCapture i l s) := by
  unfold snapCapture
  repeat' first
    | with_reducible assumption | with_reducible apply capturePut_keeps
    | (with_reducible apply Keeps.foldl; intro u y hu) | dsimp only | split

theorem regLoad_keeps {β : Bool} {σ s : State} (h : Keeps β σ s) (i : Init) (a : Nat) (live : Word64) (air : Word64) :
    Keeps β σ (regLoad i a live air s).2 := by
  unfold regLoad
  try lift_lets
  repeat' first
    | with_reducible assumption
    | (intro x; first
        | (have hx : Keeps β σ x := ?_); clear_value x | (have hx : Keeps β σ x.2 := ?_); clear_value x
        | (have hx : Keeps β σ x.2.2 := ?_); clear_value x | clear_value x)
    | with_reducible apply regTake_keeps | with_reducible apply snapCapture_keeps
    | with_reducible apply drawFree_keeps | with_reducible apply Keeps.ite | split | simp only [Keeps.update]
    | lift_lets | subst x | dsimp only

theorem plainStore_keeps {β : Bool} {σ s : State} (h : Keeps β σ s) (a : Nat) (data : Word) :
    Keeps β σ (plainStore a data s) := by
  unfold plainStore
  try lift_lets
  repeat' first
    | with_reducible assumption
    | (intro x; first
        | (have hx : Keeps β σ x := ?_); clear_value x | (have hx : Keeps β σ x.2 := ?_); clear_value x
        | (have hx : Keeps β σ x.2.2 := ?_); clear_value x
        | (have hf : ∀ u, Keeps β σ u → Keeps β σ (x u) := ?_); clear_value x
        | (have hf : ∀ a u, Keeps β σ u → Keeps β σ (x a u) := ?_); clear_value x
        | (have hf : ∀ a b u, Keeps β σ u → Keeps β σ (x a b u) := ?_); clear_value x | clear_value x)
    | with_reducible apply hf | (intro u; intros) | with_reducible apply wr_keeps | split | simp only [Keeps.update]
    | lift_lets | subst x | (refine Keeps.of_pair (by assumption) ?_) | dsimp only

theorem checkedStore_keeps {β : Bool} {σ s : State} (h : Keeps β σ s) (bad : Bool) (refusal : State → State) (a :
    Nat) (data : Word) (hrefusal : ∀ u, Keeps β σ u → Keeps β σ (refusal u)) :
    Keeps β σ (checkedStore bad refusal a data s) := by
  unfold checkedStore
  repeat' first
    | with_reducible assumption | apply hrefusal | with_reducible apply plainStore_keeps
    | with_reducible apply Keeps.ite | split | dsimp only

theorem feStore_keeps {β : Bool} {σ s : State} (h : Keeps β σ s) (i : Init) (fe : Fe) (off : Nat) (data : Word)
    (free : Nat) :
    Keeps β σ (feStore i fe off data free s) := by
  unfold feStore
  try lift_lets
  repeat' first
    | with_reducible assumption
    | (intro x; first
        | (have hx : Keeps β σ x := ?_); clear_value x | (have hx : Keeps β σ x.2 := ?_); clear_value x
        | (have hx : Keeps β σ x.2.2 := ?_); clear_value x
        | (have hf : ∀ u, Keeps β σ u → Keeps β σ (x u) := ?_); clear_value x
        | (have hf : ∀ a u, Keeps β σ u → Keeps β σ (x a u) := ?_); clear_value x
        | (have hf : ∀ a b u, Keeps β σ u → Keeps β σ (x a b u) := ?_); clear_value x | clear_value x)
    | with_reducible apply hf | (intro u; intros) | with_reducible apply licTableWrite_keeps
    | with_reducible apply feCtrlWrite_keeps | with_reducible apply feCmdWrite_keeps
    | with_reducible apply feCentreWrite_keeps | with_reducible apply feCtlmapWrite_keeps
    | with_reducible apply checkedStore_keeps | with_reducible apply fset_keeps
    | with_reducible apply plainStore_keeps | with_reducible apply feTuneWrite_keeps
    | with_reducible apply radioReclaim_keeps | with_reducible apply licCmd_keeps
    | with_reducible apply fdxCfgWrite_keeps | with_reducible apply fdxErrWrite_keeps
    | with_reducible apply Keeps.ite | (intro u; intros) | split | simp only [Keeps.update] | lift_lets | subst x
    | dsimp only

theorem chzStore_keeps {β : Bool} {σ s : State} (h : Keeps β σ s) (off : Nat) (data : Word) (free : Nat) :
    Keeps β σ (chzStore off data free s) := by
  unfold chzStore
  try lift_lets
  repeat' first
    | with_reducible assumption
    | (intro x; first
        | (have hx : Keeps β σ x := ?_); clear_value x | (have hx : Keeps β σ x.2 := ?_); clear_value x
        | (have hx : Keeps β σ x.2.2 := ?_); clear_value x
        | (have hf : ∀ u, Keeps β σ u → Keeps β σ (x u) := ?_); clear_value x
        | (have hf : ∀ a u, Keeps β σ u → Keeps β σ (x a u) := ?_); clear_value x
        | (have hf : ∀ a b u, Keeps β σ u → Keeps β σ (x a b u) := ?_); clear_value x | clear_value x)
    | with_reducible apply hf | (intro u; intros) | with_reducible apply laneGainWrite_keeps
    | with_reducible apply plainStore_keeps | with_reducible apply lanesManual_keeps
    | with_reducible apply chzCtrlWrite_keeps | with_reducible apply checkedStore_keeps
    | with_reducible apply fset_keeps | with_reducible apply Keeps.ite | (intro u; intros) | split
    | simp only [Keeps.update] | lift_lets | subst x | dsimp only

theorem nbrWindowWrite_keeps {β : Bool} {σ s : State} (h : Keeps β σ s) (off : Nat) (data : Word) :
    Keeps β σ (nbrWindowWrite off data s) := by
  unfold nbrWindowWrite
  try lift_lets
  repeat' first
    | with_reducible assumption
    | (intro x; first
        | (have hx : Keeps β σ x := ?_); clear_value x | (have hx : Keeps β σ x.2 := ?_); clear_value x
        | (have hx : Keeps β σ x.2.2 := ?_); clear_value x
        | (have hf : ∀ u, Keeps β σ u → Keeps β σ (x u) := ?_); clear_value x
        | (have hf : ∀ a u, Keeps β σ u → Keeps β σ (x a u) := ?_); clear_value x
        | (have hf : ∀ a b u, Keeps β σ u → Keeps β σ (x a b u) := ?_); clear_value x | clear_value x)
    | with_reducible apply hf | (intro u; intros) | with_reducible apply wr_keeps
    | with_reducible apply nbrPut_keeps | with_reducible apply Keeps.ite | split | simp only [Keeps.update]
    | lift_lets | subst x | dsimp only

theorem linkStore_keeps {β : Bool} {σ s : State} (h : Keeps β σ s) (off : Nat) (data : Word) (free : Nat) :
    Keeps β σ (linkStore off data free s) := by
  unfold linkStore
  try lift_lets
  repeat' first
    | with_reducible assumption
    | (intro x; first
        | (have hx : Keeps β σ x := ?_); clear_value x | (have hx : Keeps β σ x.2 := ?_); clear_value x
        | (have hx : Keeps β σ x.2.2 := ?_); clear_value x
        | (have hf : ∀ u, Keeps β σ u → Keeps β σ (x u) := ?_); clear_value x
        | (have hf : ∀ a u, Keeps β σ u → Keeps β σ (x a u) := ?_); clear_value x
        | (have hf : ∀ a b u, Keeps β σ u → Keeps β σ (x a b u) := ?_); clear_value x | clear_value x)
    | with_reducible apply hf | (intro u; intros) | with_reducible apply linkErr_keeps
    | with_reducible apply jobPostWrite_keeps | with_reducible apply checkedStore_keeps
    | with_reducible apply fset_keeps | with_reducible apply plainStore_keeps
    | with_reducible apply nbrWindowWrite_keeps | with_reducible apply nbrCmd_keeps | with_reducible apply Keeps.ite
    | (intro u; intros) | split | simp only [Keeps.update] | lift_lets | subst x | dsimp only

theorem laneStore_keeps {β : Bool} {σ s : State} (h : Keeps β σ s) (n : Nat) (off : Nat) (data : Word) :
    Keeps β σ (laneStore n off data s) := by
  unfold laneStore
  try lift_lets
  repeat' first
    | with_reducible assumption
    | (intro x; first
        | (have hx : Keeps β σ x := ?_); clear_value x | (have hx : Keeps β σ x.2 := ?_); clear_value x
        | (have hx : Keeps β σ x.2.2 := ?_); clear_value x
        | (have hf : ∀ u, Keeps β σ u → Keeps β σ (x u) := ?_); clear_value x
        | (have hf : ∀ a u, Keeps β σ u → Keeps β σ (x a u) := ?_); clear_value x
        | (have hf : ∀ a b u, Keeps β σ u → Keeps β σ (x a b u) := ?_); clear_value x | clear_value x)
    | with_reducible apply hf | (intro u; intros) | with_reducible apply laneFlag_keeps
    | with_reducible apply checkedStore_keeps | with_reducible apply laneCmd_keeps
    | with_reducible apply tuneChWrite_keeps | with_reducible apply moveSubmit_keeps
    | with_reducible apply plainStore_keeps | with_reducible apply Keeps.ite | (intro u; intros) | split
    | simp only [Keeps.update] | lift_lets | subst x | (refine Keeps.of_pair (by assumption) ?_) | dsimp only

theorem queStore32_keeps {β : Bool} {σ s : State} (h : Keeps β σ s) (q : Nat) (off : Nat) (data : Word) :
    Keeps β σ (queStore32 q off data s) := by
  unfold queStore32
  repeat' first
    | with_reducible assumption | with_reducible apply queCmd_keeps | with_reducible apply plainStore_keeps
    | with_reducible apply Keeps.ite | split | dsimp only

theorem timeStore_keeps {β : Bool} {σ s : State} (h : Keeps β σ s) (off : Nat) (data : Word) (free : Nat) :
    Keeps β σ (timeStore off data free s) := by
  unfold timeStore
  try lift_lets
  repeat' first
    | with_reducible assumption
    | (intro x; first
        | (have hx : Keeps β σ x := ?_); clear_value x | (have hx : Keeps β σ x.2 := ?_); clear_value x
        | (have hx : Keeps β σ x.2.2 := ?_); clear_value x
        | (have hf : ∀ u, Keeps β σ u → Keeps β σ (x u) := ?_); clear_value x
        | (have hf : ∀ a u, Keeps β σ u → Keeps β σ (x a u) := ?_); clear_value x
        | (have hf : ∀ a b u, Keeps β σ u → Keeps β σ (x a b u) := ?_); clear_value x | clear_value x)
    | with_reducible apply hf | (intro u; intros) | with_reducible apply timeErrf_keeps
    | with_reducible apply timeSources_keeps | with_reducible apply plainStore_keeps
    | with_reducible apply checkedStore_keeps | with_reducible apply timeCmd_keeps
    | with_reducible apply timePut_keeps | with_reducible apply imCmd_keeps | with_reducible apply Keeps.ite
    | (intro u; intros) | split | simp only [Keeps.update] | lift_lets | subst x | dsimp only

theorem tmrStore_keeps {β : Bool} {σ s : State} (h : Keeps β σ s) (off : Nat) (data : Word) (free : Nat) :
    Keeps β σ (tmrStore off data free s) := by
  unfold tmrStore
  try lift_lets
  repeat' first
    | with_reducible assumption
    | (intro x; first
        | (have hx : Keeps β σ x := ?_); clear_value x | (have hx : Keeps β σ x.2 := ?_); clear_value x
        | (have hx : Keeps β σ x.2.2 := ?_); clear_value x
        | (have hf : ∀ u, Keeps β σ u → Keeps β σ (x u) := ?_); clear_value x
        | (have hf : ∀ a u, Keeps β σ u → Keeps β σ (x a u) := ?_); clear_value x
        | (have hf : ∀ a b u, Keeps β σ u → Keeps β σ (x a b u) := ?_); clear_value x | clear_value x)
    | with_reducible apply hf | (intro u; intros) | with_reducible apply tmrCtrl_keeps
    | with_reducible apply tmrReloadCommit_keeps | with_reducible apply tmrCmpCommit_keeps
    | with_reducible apply tmrCmd_keeps | with_reducible apply plainStore_keeps | with_reducible apply Keeps.ite
    | split | simp only [Keeps.update] | lift_lets | subst x | dsimp only

theorem ledgStore_keeps {σ s : State} (h : Keeps false σ s) (off : Nat) (data : Word) :
    Keeps false σ (ledgStore off data s) := by
  unfold ledgStore
  try lift_lets
  repeat' first
    | with_reducible assumption
    | (intro x; first
        | (have hx : Keeps false σ x := ?_); clear_value x | (have hx : Keeps false σ x.2 := ?_); clear_value x
        | (have hx : Keeps false σ x.2.2 := ?_); clear_value x
        | (have hf : ∀ u, Keeps false σ u → Keeps false σ (x u) := ?_); clear_value x
        | (have hf : ∀ a u, Keeps false σ u → Keeps false σ (x a u) := ?_); clear_value x
        | (have hf : ∀ a b u, Keeps false σ u → Keeps false σ (x a b u) := ?_); clear_value x | clear_value x)
    | with_reducible apply hf | (intro u; intros) | with_reducible apply fset_keeps
    | with_reducible apply ledgCmd_keeps | with_reducible apply roomCommand_keeps
    | with_reducible apply waysWrite_keeps | with_reducible apply wdogKick_keeps
    | with_reducible apply wdogCfg_keeps | with_reducible apply plainStore_keeps | with_reducible apply Keeps.ite
    | (intro u; intros) | split | lift_lets | subst x | dsimp only

theorem evtStore_keeps {β : Bool} {σ s : State} (h : Keeps β σ s) (i : Init) (off : Nat) (data : Word) :
    Keeps β σ (evtStore i off data s) := by
  unfold evtStore
  repeat' first
    | with_reducible assumption | with_reducible apply evtDone_keeps | with_reducible apply evtThresh_keeps
    | with_reducible apply evtErrWrite_keeps | with_reducible apply Keeps.ite | split | simp only [Keeps.update]
    | dsimp only

theorem phStore_keeps {β : Bool} {σ s : State} (h : Keeps β σ s) (i : Init) (off : Nat) (data : Word) :
    Keeps β σ (phStore i off data s) := by
  unfold phStore
  try lift_lets
  repeat' first
    | with_reducible assumption
    | (intro x; first
        | (have hx : Keeps β σ x := ?_); clear_value x | (have hx : Keeps β σ x.2 := ?_); clear_value x
        | (have hx : Keeps β σ x.2.2 := ?_); clear_value x
        | (have hf : ∀ u, Keeps β σ u → Keeps β σ (x u) := ?_); clear_value x
        | (have hf : ∀ a u, Keeps β σ u → Keeps β σ (x a u) := ?_); clear_value x
        | (have hf : ∀ a b u, Keeps β σ u → Keeps β σ (x a b u) := ?_); clear_value x | clear_value x)
    | with_reducible apply hf | (intro u; intros) | with_reducible apply phForce_keeps
    | with_reducible apply phReleaseWrite_keeps | with_reducible apply phRetWrite_keeps
    | with_reducible apply phSend_keeps | with_reducible apply plainStore_keeps | with_reducible apply Keeps.ite
    | split | simp only [Keeps.update] | lift_lets | subst x | dsimp only

theorem cipCtlStore_keeps {σ s : State} (h : Keeps false σ s) (off : Nat) (data : Word) :
    Keeps false σ (cipCtlStore off data s) := by
  unfold cipCtlStore
  repeat' first
    | with_reducible assumption | with_reducible apply plainStore_keeps | with_reducible apply cipForce_keeps
    | with_reducible apply Keeps.ite | split | dsimp only

theorem cipherStore_keeps {σ s : State} (h : Keeps false σ s) (i : Init) (n : Nat) (off : Nat) (data : Word) :
    Keeps false σ (cipherStore i n off data s) := by
  unfold cipherStore
  try lift_lets
  repeat' first
    | with_reducible assumption
    | (intro x; first
        | (have hx : Keeps false σ x := ?_); clear_value x | (have hx : Keeps false σ x.2 := ?_); clear_value x
        | (have hx : Keeps false σ x.2.2 := ?_); clear_value x
        | (have hf : ∀ u, Keeps false σ u → Keeps false σ (x u) := ?_); clear_value x
        | (have hf : ∀ a u, Keeps false σ u → Keeps false σ (x a u) := ?_); clear_value x
        | (have hf : ∀ a b u, Keeps false σ u → Keeps false σ (x a b u) := ?_); clear_value x | clear_value x)
    | with_reducible apply hf | (intro u; intros) | with_reducible apply cipCmdAs_keeps
    | with_reducible apply cipLockRelease_keeps | with_reducible apply cipWrite_keeps
    | with_reducible apply Keeps.ite | split | lift_lets | subst x | dsimp only

theorem keyStore_keeps {β : Bool} {σ s : State} (h : Keeps β σ s) (off : Nat) (data : Word) :
    Keeps β σ (keyStore off data s) := by
  unfold keyStore
  try lift_lets
  repeat' first
    | with_reducible assumption
    | (intro x; first
        | (have hx : Keeps β σ x := ?_); clear_value x | (have hx : Keeps β σ x.2 := ?_); clear_value x
        | (have hx : Keeps β σ x.2.2 := ?_); clear_value x
        | (have hf : ∀ u, Keeps β σ u → Keeps β σ (x u) := ?_); clear_value x
        | (have hf : ∀ a u, Keeps β σ u → Keeps β σ (x a u) := ?_); clear_value x
        | (have hf : ∀ a b u, Keeps β σ u → Keeps β σ (x a b u) := ?_); clear_value x | clear_value x)
    | with_reducible apply hf | (intro u; intros) | with_reducible apply lifeCmd_keeps
    | with_reducible apply pkCmd_keeps | with_reducible apply kpCmd_keeps | with_reducible apply wr_keeps
    | with_reducible apply plainStore_keeps | with_reducible apply Keeps.ite | split | lift_lets | subst x
    | dsimp only

theorem flcStore_keeps {β : Bool} {σ s : State} (h : Keeps β σ s) (i : Init) (off : Nat) (data : Word) :
    Keeps β σ (flcStore i off data s) := by
  unfold flcStore
  repeat' first
    | with_reducible assumption | with_reducible apply flcCfgWrite_keeps | with_reducible apply flcSusp_keeps
    | with_reducible apply fpCmd_keeps | with_reducible apply plainStore_keeps | with_reducible apply Keeps.ite
    | split | dsimp only

theorem updStore_keeps {σ s : State} (h : Keeps false σ s) (off : Nat) (data : Word) :
    Keeps false σ (updStore off data s) := by
  unfold updStore
  try lift_lets
  repeat' first
    | with_reducible assumption
    | (intro x; first
        | (have hx : Keeps false σ x := ?_); clear_value x | (have hx : Keeps false σ x.2 := ?_); clear_value x
        | (have hx : Keeps false σ x.2.2 := ?_); clear_value x
        | (have hf : ∀ u, Keeps false σ u → Keeps false σ (x u) := ?_); clear_value x
        | (have hf : ∀ a u, Keeps false σ u → Keeps false σ (x a u) := ?_); clear_value x
        | (have hf : ∀ a b u, Keeps false σ u → Keeps false σ (x a b u) := ?_); clear_value x | clear_value x)
    | with_reducible apply hf | (intro u; intros) | with_reducible apply updCmd_keeps
    | with_reducible apply stgWrite_keeps | with_reducible apply rcfgWrite_keeps
    | with_reducible apply rfreqWrite_keeps | with_reducible apply plainStore_keeps | with_reducible apply Keeps.ite
    | split | lift_lets | subst x | dsimp only

theorem pwrStore_keeps {σ s : State} (h : Keeps false σ s) (i : Init) (off : Nat) (data : Word) :
    Keeps false σ (pwrStore i off data s) := by
  unfold pwrStore
  try lift_lets
  repeat' first
    | with_reducible assumption
    | (intro x; first
        | (have hx : Keeps false σ x := ?_); clear_value x | (have hx : Keeps false σ x.2 := ?_); clear_value x
        | (have hx : Keeps false σ x.2.2 := ?_); clear_value x
        | (have hf : ∀ u, Keeps false σ u → Keeps false σ (x u) := ?_); clear_value x
        | (have hf : ∀ a u, Keeps false σ u → Keeps false σ (x a u) := ?_); clear_value x
        | (have hf : ∀ a b u, Keeps false σ u → Keeps false σ (x a b u) := ?_); clear_value x | clear_value x)
    | with_reducible apply hf | (intro u; intros) | with_reducible apply pwrModeWrite_keeps
    | with_reducible apply checkedStore_keeps | with_reducible apply pwrErr_keeps
    | with_reducible apply pwrGateWrite_keeps | with_reducible apply pwrVcfgWrite_keeps
    | with_reducible apply pwrLcack_keeps | with_reducible apply plainStore_keeps
    | with_reducible apply vfailCleared_keeps | with_reducible apply Keeps.ite | (intro u; intros) | split
    | simp only [Keeps.update] | lift_lets | subst x | dsimp only

theorem supStore_keeps {β : Bool} {σ s : State} (h : Keeps β σ s) (off : Nat) (data : Word) :
    Keeps β σ (supStore off data s) := by
  unfold supStore
  try lift_lets
  repeat' first
    | with_reducible assumption
    | (intro x; first
        | (have hx : Keeps β σ x := ?_); clear_value x | (have hx : Keeps β σ x.2 := ?_); clear_value x
        | (have hx : Keeps β σ x.2.2 := ?_); clear_value x
        | (have hf : ∀ u, Keeps β σ u → Keeps β σ (x u) := ?_); clear_value x
        | (have hf : ∀ a u, Keeps β σ u → Keeps β σ (x a u) := ?_); clear_value x
        | (have hf : ∀ a b u, Keeps β σ u → Keeps β σ (x a b u) := ?_); clear_value x | clear_value x)
    | with_reducible apply hf | (intro u; intros) | with_reducible apply supErr_keeps
    | with_reducible apply plainStore_keeps | with_reducible apply checkedStore_keeps
    | with_reducible apply Keeps.ite | (intro u; intros) | split | simp only [Keeps.update] | lift_lets | subst x
    | dsimp only

theorem hostStore_keeps {β : Bool} {σ s : State} (h : Keeps β σ s) (off : Nat) (data : Word) :
    Keeps β σ (hostStore off data s) := by
  unfold hostStore
  repeat' first
    | with_reducible assumption | with_reducible apply hostCtrlWrite_keeps | with_reducible apply hostOutData_keeps
    | with_reducible apply hostOutCmd_keeps | with_reducible apply plainStore_keeps | split
    | simp only [Keeps.update] | dsimp only

theorem uartStore_keeps {β : Bool} {σ s : State} (h : Keeps β σ s) (off : Nat) (data : Word) :
    Keeps β σ (uartStore off data s) := by
  unfold uartStore
  repeat' first
    | with_reducible assumption | with_reducible apply serialOwn_keeps | with_reducible apply uartPut_keeps
    | with_reducible apply uartCfgWrite_keeps | with_reducible apply uartWrite_keeps
    | with_reducible apply uartThWrite_keeps | with_reducible apply plainStore_keeps
    | with_reducible apply Keeps.ite | (intro u; intros) | split | simp only [Keeps.update] | dsimp only

theorem i2cStore_keeps {β : Bool} {σ s : State} (h : Keeps β σ s) (off : Nat) (data : Word) :
    Keeps β σ (i2cStore off data s) := by
  unfold i2cStore
  repeat' first
    | with_reducible assumption | with_reducible apply serialOwn_keeps | with_reducible apply i2cPut_keeps
    | with_reducible apply i2cCfgWrite_keeps | with_reducible apply i2cPush_keeps
    | with_reducible apply plainStore_keeps | with_reducible apply Keeps.ite | (intro u; intros) | split
    | simp only [Keeps.update] | dsimp only

theorem gpioStore_keeps {β : Bool} {σ s : State} (h : Keeps β σ s) (i : Init) (off : Nat) (data : Word) :
    Keeps β σ (gpioStore i off data s) := by
  unfold gpioStore
  try lift_lets
  repeat' first
    | with_reducible assumption
    | (intro x; first
        | (have hx : Keeps β σ x := ?_); clear_value x | (have hx : Keeps β σ x.2 := ?_); clear_value x
        | (have hx : Keeps β σ x.2.2 := ?_); clear_value x
        | (have hf : ∀ u, Keeps β σ u → Keeps β σ (x u) := ?_); clear_value x
        | (have hf : ∀ a u, Keeps β σ u → Keeps β σ (x a u) := ?_); clear_value x
        | (have hf : ∀ a b u, Keeps β σ u → Keeps β σ (x a b u) := ?_); clear_value x | clear_value x)
    | with_reducible apply hf | (intro u; intros) | with_reducible apply gpioOwn_keeps
    | with_reducible apply gpioHold_keeps | with_reducible apply gpioPinWrite_keeps
    | with_reducible apply gpioOut_keeps | with_reducible apply plainStore_keeps | with_reducible apply Keeps.ite
    | split | simp only [Keeps.update] | lift_lets | subst x | dsimp only

theorem hartsResume_keeps {β : Bool} {σ s : State} (h : Keeps β σ s) :
    Keeps β σ (hartsResume s) := by
  unfold hartsResume
  repeat' first
    | with_reducible assumption | with_reducible apply coreSet_keeps
    | (with_reducible apply Keeps.foldl; intro u y hu) | simp only [Keeps.update] | dsimp only | split

theorem dbgRelock_keeps {β : Bool} {σ s : State} (h : Keeps β σ s) (key : Nat) :
    Keeps β σ (dbgRelock key s) := by
  unfold dbgRelock
  repeat' first
    | with_reducible assumption | with_reducible apply hartsResume_keeps | with_reducible apply fset_keeps
    | with_reducible apply Keeps.ite | split | dsimp only

theorem blockStore_keeps {σ s : State} (h : Keeps false σ s) (i : Init) (b : Nat) (off : Nat) (data : Word) (free :
    Nat) :
    Keeps false σ (blockStore i b off data free s) := by
  unfold blockStore
  repeat' first
    | with_reducible assumption | with_reducible apply feStore_keeps | with_reducible apply chzStore_keeps
    | with_reducible apply linkStore_keeps | with_reducible apply qcFlush_keeps
    | with_reducible apply plainStore_keeps | with_reducible apply timeStore_keeps
    | with_reducible apply tmrStore_keeps | with_reducible apply ledgStore_keeps
    | with_reducible apply evtStore_keeps | with_reducible apply phStore_keeps
    | with_reducible apply cipCtlStore_keeps | with_reducible apply keyStore_keeps
    | with_reducible apply rngCmd_keeps | with_reducible apply flcStore_keeps | with_reducible apply updStore_keeps
    | with_reducible apply pwrStore_keeps | with_reducible apply supStore_keeps
    | with_reducible apply hostStore_keeps | with_reducible apply uartStore_keeps
    | with_reducible apply i2cStore_keeps | with_reducible apply gpioStore_keeps
    | with_reducible apply dbgRelock_keeps | with_reducible apply fabCmd_keeps | with_reducible apply Keeps.ite
    | split | simp only [Keeps.update] | dsimp only

theorem pairCommit_keeps {β : Bool} {σ s : State} (h : Keeps β σ s) (a : Nat) (v : Word64) :
    Keeps β σ (pairCommit a v s) := by
  unfold pairCommit
  try lift_lets
  repeat' first
    | with_reducible assumption
    | (intro x; first
        | (have hx : Keeps β σ x := ?_); clear_value x | (have hx : Keeps β σ x.2 := ?_); clear_value x
        | (have hx : Keeps β σ x.2.2 := ?_); clear_value x
        | (have hf : ∀ u, Keeps β σ u → Keeps β σ (x u) := ?_); clear_value x
        | (have hf : ∀ a u, Keeps β σ u → Keeps β σ (x a u) := ?_); clear_value x
        | (have hf : ∀ a b u, Keeps β σ u → Keeps β σ (x a b u) := ?_); clear_value x | clear_value x)
    | with_reducible apply hf | (intro u; intros) | with_reducible apply tmrReloadCommit_keeps
    | with_reducible apply tmrCmpCommit_keeps | with_reducible apply wr48_keeps | with_reducible apply wr64_keeps
    | with_reducible apply Keeps.ite | split | lift_lets | subst x | dsimp only

theorem highCommit_keeps {β : Bool} {σ s : State} (h : Keeps β σ s) (i : Init) (a : Nat) (data : Word) :
    Keeps β σ (highCommit i a data s) := by
  unfold highCommit
  try lift_lets
  repeat' first
    | with_reducible assumption
    | (intro x; first
        | (have hx : Keeps β σ x := ?_); clear_value x | (have hx : Keeps β σ x.2 := ?_); clear_value x
        | (have hx : Keeps β σ x.2.2 := ?_); clear_value x
        | (have hf : ∀ u, Keeps β σ u → Keeps β σ (x u) := ?_); clear_value x
        | (have hf : ∀ a u, Keeps β σ u → Keeps β σ (x a u) := ?_); clear_value x
        | (have hf : ∀ a b u, Keeps β σ u → Keeps β σ (x a b u) := ?_); clear_value x | clear_value x)
    | with_reducible apply hf | (intro u; intros) | with_reducible apply stagedTake_keeps
    | with_reducible apply pairCommit_keeps | lift_lets | subst x | dsimp only | split

theorem lanternEffect_keeps {β : Bool} {σ s : State} (h : Keeps β σ s) (i : Init) (a : Nat) (data : Word) :
    Keeps β σ (lanternEffect i a data s) := by
  unfold lanternEffect
  repeat' first
    | with_reducible assumption | with_reducible apply stagedPut_keeps | with_reducible apply highCommit_keeps
    | with_reducible apply calCmd_keeps | with_reducible apply calCfgWrite_keeps
    | with_reducible apply almTWrite_keeps | with_reducible apply almCWrite_keeps
    | with_reducible apply pwrOnWrite_keeps | with_reducible apply knkCtrlWrite_keeps
    | with_reducible apply knkConfigWrite_keeps | with_reducible apply knkAddrWrite_keeps
    | with_reducible apply tampCfgWrite_keeps | with_reducible apply tampLoopWrite_keeps
    | with_reducible apply checkedStore_keeps | with_reducible apply lanternRange_keeps
    | with_reducible apply rstCmd_keeps | with_reducible apply plainStore_keeps | with_reducible apply Keeps.ite
    | (intro u; intros) | split | simp only [Keeps.update] | dsimp only

theorem heldPut_keeps {β : Bool} {σ s : State} (h : Keeps β σ s) (a : Nat) (v : Option (Nat × Word)) :
    Keeps β σ (heldPut a v s) := by
  unfold heldPut
  repeat' first
    | with_reducible assumption | simp only [Keeps.update] | dsimp only | split

theorem stall_keeps {β : Bool} {σ s : State} (h : Keeps β σ s) :
    Keeps β σ (stall s) := by
  unfold stall
  repeat' first
    | with_reducible assumption | simp only [Keeps.update] | dsimp only | split

theorem lanternStore_keeps {β : Bool} {σ s : State} (h : Keeps β σ s) (i : Init) (a : Nat) (data : Word) :
    Keeps β σ (lanternStore i a data s) := by
  unfold lanternStore
  repeat' first
    | with_reducible assumption | with_reducible apply stall_keeps | with_reducible apply acknowledge_keeps
    | with_reducible apply heldPut_keeps | split | simp only [Keeps.update] | dsimp only

theorem lanternTake_keeps {β : Bool} {σ s : State} (h : Keeps β σ s) (a : Nat) :
    Keeps β σ (lanternTake a s) := by
  unfold lanternTake
  repeat' first
    | with_reducible assumption | with_reducible apply lanternEffect_keeps | with_reducible apply heldPut_keeps
    | split | simp only [Keeps.update] | dsimp only

theorem targetStore_keeps {σ s : State} (h : Keeps false σ s) (i : Init) (a : Nat) (data : Word) :
    Keeps false σ (targetStore i a data s) := by
  unfold targetStore
  try lift_lets
  repeat' first
    | with_reducible assumption
    | (intro x; first
        | (have hx : Keeps false σ x := ?_); clear_value x | (have hx : Keeps false σ x.2 := ?_); clear_value x
        | (have hx : Keeps false σ x.2.2 := ?_); clear_value x
        | (have hf : ∀ u, Keeps false σ u → Keeps false σ (x u) := ?_); clear_value x
        | (have hf : ∀ a u, Keeps false σ u → Keeps false σ (x a u) := ?_); clear_value x
        | (have hf : ∀ a b u, Keeps false σ u → Keeps false σ (x a b u) := ?_); clear_value x | clear_value x)
    | with_reducible apply hf | (intro u; intros) | with_reducible apply stagedPut_keeps
    | with_reducible apply highCommit_keeps | with_reducible apply laneStore_keeps | with_reducible apply fset_keeps
    | with_reducible apply queStore32_keeps | with_reducible apply cipherStore_keeps
    | with_reducible apply blockStore_keeps | with_reducible apply drawFree_keeps | with_reducible apply Keeps.ite
    | split | simp only [Keeps.update] | lift_lets | subst x | dsimp only

theorem regStore_keeps {σ s : State} (h : Keeps false σ s) (i : Init) (a : Nat) (data : Word) :
    Keeps false σ (regStore i a data s) := by
  unfold regStore
  repeat' first
    | with_reducible assumption | with_reducible apply lanternStore_keeps | with_reducible apply acknowledge_keeps
    | with_reducible apply targetStore_keeps | split | simp only [Keeps.update] | dsimp only

theorem regLoadFree_keeps {β : Bool} {σ s : State} (h : Keeps β σ s) (i : Init) (a : Nat) :
    Keeps β σ (regLoadFree i a s).2 := by
  unfold regLoadFree
  repeat' first
    | with_reducible assumption | with_reducible apply regLoad_keeps | with_reducible apply drawFree_keeps
    | dsimp only | split

theorem busLoad_keeps {β : Bool} {σ s : State} (h : Keeps β σ s) (i : Init) (a : Nat) (f : State → Word × State) (hf
    : ∀ u, Keeps β σ u → Keeps β σ (f u).2) :
    Keeps β σ (busLoad i a f s) := by
  unfold busLoad
  repeat' first
    | with_reducible assumption | apply hf | with_reducible apply doorLoad_keeps | with_reducible apply Keeps.ite
    | (intro u; intros) | split | dsimp only

theorem busStore_keeps {σ s : State} (h : Keeps false σ s) (i : Init) (a : Nat) (data : Word) :
    Keeps false σ (busStore i a data s) := by
  unfold busStore
  repeat' first
    | with_reducible assumption | with_reducible apply doorAccess_keeps | with_reducible apply regStore_keeps
    | with_reducible apply Keeps.ite | (intro u; intros) | split | dsimp only

theorem memRead_keeps {β : Bool} {σ s : State} (h : Keeps β σ s) (a : Nat) (n : Nat) (ecc : EccSeen) :
    Keeps β σ (memRead a n ecc s).2 := by
  unfold memRead
  try lift_lets
  repeat' first
    | with_reducible assumption
    | (intro x; first
        | (have hx : Keeps β σ x := ?_); clear_value x | (have hx : Keeps β σ x.2 := ?_); clear_value x
        | (have hx : Keeps β σ x.2.2 := ?_); clear_value x | clear_value x)
    | with_reducible apply flashRead_keeps | with_reducible apply flashEcc_keeps
    | with_reducible apply drawFree_keeps | with_reducible apply flashBuffer_keeps
    | with_reducible apply queEcc_keeps | with_reducible apply Keeps.ite | split | simp only [Keeps.update]
    | lift_lets | subst x | dsimp only

theorem readChecked_keeps {β : Bool} {σ s : State} (h : Keeps β σ s) (i : Init) (a : Nat) (n : Nat) (k : Access)
    (parityOk : Bool) (ecc : EccSeen) :
    Keeps β σ (readChecked i a n k parityOk ecc s).2 := by
  unfold readChecked
  try lift_lets
  repeat' first
    | with_reducible assumption
    | (intro x; first
        | (have hx : Keeps β σ x := ?_); clear_value x | (have hx : Keeps β σ x.2 := ?_); clear_value x
        | (have hx : Keeps β σ x.2.2 := ?_); clear_value x | clear_value x)
    | with_reducible apply memRead_keeps | split | simp only [Keeps.update] | lift_lets | subst x | dsimp only

theorem reservesEnd_keeps {β : Bool} {σ s : State} (h : Keeps β σ s) (k : Nat) (a : Nat) (n : Nat) :
    Keeps β σ (reservesEnd k a n s) := by
  unfold reservesEnd
  repeat' first
    | with_reducible assumption | with_reducible apply coreSet_keeps | with_reducible apply Keeps.ite
    | (with_reducible apply Keeps.foldl; intro u y hu) | split | simp only [Keeps.update] | dsimp only

theorem memStore_keeps {σ s : State} (h : Keeps false σ s) (i : Init) (a : Nat) (l : List Byte) :
    Keeps false σ (memStore i a l s) := by
  unfold memStore
  repeat' first
    | with_reducible assumption | with_reducible apply reservesEnd_keeps | with_reducible apply storeBytes_keeps
    | dsimp only | split

theorem linePatch_keeps {β : Bool} {σ s : State} (h : Keeps β σ s) (l : CacheLine) (a : Nat) (bytes : List Byte) :
    Keeps β σ (linePatch l a bytes s) := by
  unfold linePatch
  try lift_lets
  repeat' first
    | with_reducible assumption
    | (intro x; first
        | (have hx : Keeps β σ x := ?_); clear_value x | (have hx : Keeps β σ x.2 := ?_); clear_value x
        | (have hx : Keeps β σ x.2.2 := ?_); clear_value x | clear_value x)
    | with_reducible apply Keeps.ite | split | simp only [Keeps.update] | lift_lets | subst x | dsimp only

theorem lineInsert_keeps {σ s : State} (h : Keeps false σ s) (c : Nat) (r : Nat) (code : Bool) (base : Nat) (bytes :
    List Byte) :
    Keeps false σ (lineInsert c r code base bytes s) := by
  unfold lineInsert
  try lift_lets
  repeat' first
    | with_reducible assumption
    | (intro x; first
        | (have hx : Keeps false σ x := ?_); clear_value x | (have hx : Keeps false σ x.2 := ?_); clear_value x
        | (have hx : Keeps false σ x.2.2 := ?_); clear_value x | clear_value x)
    | with_reducible apply dropLines_keeps | with_reducible apply cleanLines_keeps
    | with_reducible apply drawFree_keeps | simp only [Keeps.update] | lift_lets | subst x | dsimp only | split

theorem cacheRead_keeps {σ s : State} (h : Keeps false σ s) (c : Nat) (r : Nat) (k : Access) (a : Nat) (n : Nat)
    (parityOk : Bool) (ecc : EccSeen) :
    Keeps false σ (cacheRead c r k a n parityOk ecc s).2 := by
  unfold cacheRead
  try lift_lets
  repeat' first
    | with_reducible assumption
    | (intro x; first
        | (have hx : Keeps false σ x := ?_); clear_value x | (have hx : Keeps false σ x.2 := ?_); clear_value x
        | (have hx : Keeps false σ x.2.2 := ?_); clear_value x | clear_value x)
    | with_reducible apply readChecked_keeps | with_reducible apply lineInsert_keeps
    | with_reducible apply Keeps.ite | split | simp only [Keeps.update] | lift_lets | subst x | dsimp only

theorem cacheWrite_keeps {σ s : State} (h : Keeps false σ s) (c : Nat) (r : Nat) (a : Nat) (l : List Byte) (parityOk
    : Bool) (ecc : EccSeen) :
    Keeps false σ (cacheWrite c r a l parityOk ecc s).2 := by
  unfold cacheWrite
  try lift_lets
  repeat' first
    | with_reducible assumption
    | (intro x; first
        | (have hx : Keeps false σ x := ?_); clear_value x | (have hx : Keeps false σ x.2 := ?_); clear_value x
        | (have hx : Keeps false σ x.2.2 := ?_); clear_value x | clear_value x)
    | with_reducible apply cacheRead_keeps | with_reducible apply linePatch_keeps | split | simp only [Keeps.update]
    | lift_lets | subst x | dsimp only

theorem readAccess_keeps {σ s : State} (h : Keeps false σ s) (i : Init) (k : Access) (a : Nat) (n : Nat) (parityOk :
    Bool) (ecc : EccSeen) :
    Keeps false σ (readAccess i k a n parityOk ecc s).2 := by
  unfold readAccess
  try lift_lets
  repeat' first
    | with_reducible assumption
    | (intro x; first
        | (have hx : Keeps false σ x := ?_); clear_value x | (have hx : Keeps false σ x.2 := ?_); clear_value x
        | (have hx : Keeps false σ x.2.2 := ?_); clear_value x | clear_value x)
    | with_reducible apply readChecked_keeps | with_reducible apply cacheRead_keeps | with_reducible apply Keeps.ite
    | split | simp only [Keeps.update] | lift_lets | subst x | dsimp only

theorem writeAccess_keeps {σ s : State} (h : Keeps false σ s) (i : Init) (a : Nat) (l : List Byte) (parityOk : Bool)
    (ecc : EccSeen) :
    Keeps false σ (writeAccess i a l parityOk ecc s).2 := by
  unfold writeAccess
  try lift_lets
  repeat' first
    | with_reducible assumption
    | (intro x; first
        | (have hx : Keeps false σ x := ?_); clear_value x | (have hx : Keeps false σ x.2 := ?_); clear_value x
        | (have hx : Keeps false σ x.2.2 := ?_); clear_value x | clear_value x)
    | with_reducible apply memStore_keeps | with_reducible apply cacheWrite_keeps | with_reducible apply Keeps.ite
    | split | simp only [Keeps.update] | lift_lets | subst x | dsimp only

theorem answerRead_keeps {β : Bool} {σ : State} {r : MemRead × State} (h : Keeps β σ r.2) (i : Init) (k : Access) (a
    : Nat) :
    Keeps β σ (answerRead i k a r) := by
  unfold answerRead
  repeat' first
    | with_reducible assumption | with_reducible apply stall_keeps | with_reducible apply refuse_keeps
    | with_reducible apply respond_keeps | split

theorem answerWrite_keeps {β : Bool} {σ : State} {r : MemRead × State} (h : Keeps β σ r.2) (i : Init) (a : Nat) :
    Keeps β σ (answerWrite i a r) := by
  unfold answerWrite
  repeat' first
    | with_reducible assumption | with_reducible apply stall_keeps | with_reducible apply refuse_keeps
    | with_reducible apply acknowledge_keeps | split

theorem regRead_keeps {β : Bool} {σ s : State} (h : Keeps β σ s) (i : Init) (a : Nat) (n : Nat) (parityOk : Bool)
    (ecc : EccSeen) :
    Keeps β σ (regRead i a n parityOk ecc s) := by
  unfold regRead
  try lift_lets
  repeat' first
    | with_reducible assumption
    | (intro x; first
        | (have hx : Keeps β σ x := ?_); clear_value x | (have hx : Keeps β σ x.2 := ?_); clear_value x
        | (have hx : Keeps β σ x.2.2 := ?_); clear_value x | clear_value x)
    | with_reducible apply refuse_keeps | with_reducible apply quePop_keeps | with_reducible apply regLoadFree_keeps
    | with_reducible apply respond_keeps | with_reducible apply Keeps.ite | split | simp only [Keeps.update]
    | lift_lets | subst x | dsimp only

theorem stagingBad_keeps {β : Bool} {σ s : State} (h : Keeps β σ s) (a : Nat) :
    Keeps β σ (stagingBad a s) := by
  unfold stagingBad
  repeat' first
    | with_reducible assumption | with_reducible apply fset_keeps | with_reducible apply Keeps.ite | split
    | dsimp only

theorem regWriteAccess_keeps {σ s : State} (h : Keeps false σ s) (i : Init) (a : Nat) (n : Nat) (data : Word64)
    (parityOk : Bool) :
    Keeps false σ (regWriteAccess i a n data parityOk s) := by
  unfold regWriteAccess
  repeat' first
    | with_reducible assumption | with_reducible apply refuse_keeps | with_reducible apply acknowledge_keeps
    | with_reducible apply quePush_keeps | with_reducible apply regStore_keeps
    | with_reducible apply stagingBad_keeps | with_reducible apply Keeps.ite | split | simp only [Keeps.update]
    | dsimp only

theorem loadAccess_keeps {σ s : State} (h : Keeps false σ s) (i : Init) (a : Nat) (n : Nat) (parityOk : Bool) (ecc :
    EccSeen) :
    Keeps false σ (loadAccess i a n parityOk ecc s) := by
  unfold loadAccess
  repeat' first
    | with_reducible assumption | with_reducible apply regRead_keeps | with_reducible apply answerRead_keeps
    | with_reducible apply readAccess_keeps | with_reducible apply Keeps.ite | split | dsimp only

theorem storeAccess_keeps {σ s : State} (h : Keeps false σ s) (i : Init) (a : Nat) (n : Nat) (data : Word64)
    (parityOk : Bool) (ecc : EccSeen) :
    Keeps false σ (storeAccess i a n data parityOk ecc s) := by
  unfold storeAccess
  repeat' first
    | with_reducible assumption | with_reducible apply regWriteAccess_keeps | with_reducible apply answerWrite_keeps
    | with_reducible apply writeAccess_keeps | with_reducible apply Keeps.ite | split | dsimp only

theorem fetchAccess_keeps {σ s : State} (h : Keeps false σ s) (i : Init) (a : Nat) (n : Nat) (parityOk : Bool) (ecc
    : EccSeen) :
    Keeps false σ (fetchAccess i a n parityOk ecc s) := by
  unfold fetchAccess
  repeat' first
    | with_reducible assumption | with_reducible apply refuse_keeps | with_reducible apply answerRead_keeps
    | with_reducible apply readAccess_keeps | with_reducible apply Keeps.ite | split | dsimp only

theorem coreTrap_keeps {β : Bool} {σ s : State} (h : Keeps β σ s) (i : Init) (cause : Nat) (tval : Nat) :
    Keeps β σ (coreTrap i cause tval s) := by
  unfold coreTrap
  repeat' first
    | with_reducible assumption | with_reducible apply coreSet_keeps | split | simp only [Keeps.update] | dsimp only

theorem atomicAccess_keeps {σ s : State} (h : Keeps false σ s) (i : Init) (a : Nat) (n : Nat) (misaligned : Nat)
    (parityOk : Bool) (ecc : EccSeen) (f : Nat → State → State) (hf : ∀ y0 u, Keeps false σ u → Keeps false σ (f y0
    u)) :
    Keeps false σ (atomicAccess i a n misaligned parityOk ecc f s) := by
  unfold atomicAccess
  try lift_lets
  repeat' first
    | with_reducible assumption
    | (intro x; first
        | (have hx : Keeps false σ x := ?_); clear_value x | (have hx : Keeps false σ x.2 := ?_); clear_value x
        | (have hx : Keeps false σ x.2.2 := ?_); clear_value x | clear_value x)
    | apply hf | with_reducible apply coreTrap_keeps | with_reducible apply refuse_keeps
    | with_reducible apply readAccess_keeps | with_reducible apply stall_keeps | with_reducible apply drawFree_keeps
    | with_reducible apply Keeps.ite | split | simp only [Keeps.update] | lift_lets | subst x | dsimp only

theorem reserve_keeps {β : Bool} {σ s : State} (h : Keeps β σ s) (i : Init) (v : Option Nat) :
    Keeps β σ (reserve i v s) := by
  unfold reserve
  repeat' first
    | with_reducible assumption | with_reducible apply coreSet_keeps | simp only [Keeps.update] | dsimp only | split

theorem lrAccess_keeps {σ s : State} (h : Keeps false σ s) (i : Init) (a : Nat) (n : Nat) (parityOk : Bool) (ecc :
    EccSeen) :
    Keeps false σ (lrAccess i a n parityOk ecc s) := by
  unfold lrAccess
  repeat' first
    | with_reducible assumption | with_reducible apply atomicAccess_keeps | with_reducible apply respond_keeps
    | with_reducible apply reserve_keeps | (intro u; intros) | dsimp only | split

theorem scAccess_keeps {σ s : State} (h : Keeps false σ s) (i : Init) (a : Nat) (n : Nat) (data : Word64) (parityOk
    : Bool) (ecc : EccSeen) :
    Keeps false σ (scAccess i a n data parityOk ecc s) := by
  unfold scAccess
  try lift_lets
  repeat' first
    | with_reducible assumption
    | (intro x; first
        | (have hx : Keeps false σ x := ?_); clear_value x | (have hx : Keeps false σ x.2 := ?_); clear_value x
        | (have hx : Keeps false σ x.2.2 := ?_); clear_value x | clear_value x)
    | with_reducible apply atomicAccess_keeps | with_reducible apply writeAccess_keeps
    | with_reducible apply reserve_keeps | with_reducible apply respond_keeps
    | with_reducible apply answerWrite_keeps | with_reducible apply Keeps.ite | (intro u; intros) | split
    | simp only [Keeps.update] | lift_lets | subst x | dsimp only

theorem amoAccess_keeps {σ s : State} (h : Keeps false σ s) (i : Init) (a : Nat) (n : Nat) (op : AmoOp) (data :
    Word64) (parityOk : Bool) (ecc : EccSeen) :
    Keeps false σ (amoAccess i a n op data parityOk ecc s) := by
  unfold amoAccess
  try lift_lets
  repeat' first
    | with_reducible assumption
    | (intro x; first
        | (have hx : Keeps false σ x := ?_); clear_value x | (have hx : Keeps false σ x.2 := ?_); clear_value x
        | (have hx : Keeps false σ x.2.2 := ?_); clear_value x | clear_value x)
    | with_reducible apply atomicAccess_keeps | with_reducible apply writeAccess_keeps
    | with_reducible apply respond_keeps | with_reducible apply answerWrite_keeps | (intro u; intros) | split
    | simp only [Keeps.update] | lift_lets | subst x | dsimp only

theorem memAccess_keeps {σ s : State} (h : Keeps false σ s) (i : Init) (op : MemOp) (a : Nat) (parityOk : Bool) (ecc
    : EccSeen) :
    Keeps false σ (memAccess i op a parityOk ecc s) := by
  unfold memAccess
  repeat' first
    | with_reducible assumption | with_reducible apply loadAccess_keeps | with_reducible apply storeAccess_keeps
    | with_reducible apply lrAccess_keeps | with_reducible apply scAccess_keeps
    | with_reducible apply amoAccess_keeps | with_reducible apply fetchAccess_keeps | with_reducible apply Keeps.ite
    | split | simp only [Keeps.update] | dsimp only

theorem execRegisterWrite_keeps {σ s : State} (h : Keeps false σ s) (i : Init) (addr : Nat) (data : Word) :
    KeepsOut false σ (execRegisterWrite i addr data s) := by
  unfold execRegisterWrite
  repeat' first
    | with_reducible assumption | with_reducible apply KeepsOut.next | with_reducible apply busStore_keeps
    | dsimp only | split

theorem execMemoryAccess_keeps {σ s : State} (h : Keeps false σ s) (i : Init) (op : MemOp) (addr : Nat) (parityOk :
    Bool) (ecc : EccSeen) :
    KeepsOut false σ (execMemoryAccess i op addr parityOk ecc s) := by
  unfold execMemoryAccess
  repeat' first
    | with_reducible assumption | with_reducible apply KeepsOut.next | with_reducible apply memAccess_keeps
    | with_reducible apply Keeps.ite | split | dsimp only

theorem execCounterLowRead_keeps {β : Bool} {σ s : State} (h : Keeps β σ s) (i : Init) (addr : Nat) (live : Word64)
    (air : Word64) :
    KeepsOut β σ (execCounterLowRead i addr live air s) := by
  unfold execCounterLowRead
  repeat' first
    | with_reducible assumption | with_reducible apply KeepsOut.next | with_reducible apply busLoad_keeps
    | with_reducible apply regLoad_keeps | (intro u; intros) | dsimp only | split

theorem execSnapshotCapture_keeps {β : Bool} {σ s : State} (h : Keeps β σ s) (i : Init) (addr : Nat) :
    KeepsOut β σ (execSnapshotCapture i addr s) := by
  unfold execSnapshotCapture
  repeat' first
    | with_reducible assumption | with_reducible apply KeepsOut.next | with_reducible apply busLoad_keeps
    | with_reducible apply regLoadFree_keeps | (intro u; intros) | dsimp only | split

theorem execStagedLowWrite_keeps {σ s : State} (h : Keeps false σ s) (i : Init) (addr : Nat) (data : Word) :
    KeepsOut false σ (execStagedLowWrite i addr data s) := by
  unfold execStagedLowWrite
  repeat' first
    | with_reducible assumption | with_reducible apply KeepsOut.next | with_reducible apply busStore_keeps
    | dsimp only | split

theorem execHighHalfCommit_keeps {σ s : State} (h : Keeps false σ s) (i : Init) (addr : Nat) (data : Word) :
    KeepsOut false σ (execHighHalfCommit i addr data s) := by
  unfold execHighHalfCommit
  repeat' first
    | with_reducible assumption | with_reducible apply KeepsOut.next | with_reducible apply busStore_keeps
    | dsimp only | split

theorem execReadToClear_keeps {β : Bool} {σ s : State} (h : Keeps β σ s) (i : Init) (addr : Nat) :
    KeepsOut β σ (execReadToClear i addr s) := by
  unfold execReadToClear
  repeat' first
    | with_reducible assumption | with_reducible apply KeepsOut.next | with_reducible apply busLoad_keeps
    | with_reducible apply regLoadFree_keeps | (intro u; intros) | dsimp only | split

theorem execLanternWriteEffect_keeps {β : Bool} {σ s : State} (h : Keeps β σ s) (addr : Nat) :
    KeepsOut β σ (execLanternWriteEffect addr s) := by
  unfold execLanternWriteEffect
  repeat' first
    | with_reducible assumption | with_reducible apply KeepsOut.next | with_reducible apply lanternTake_keeps
    | dsimp only | split

theorem irUpdate_keeps {β : Bool} {σ s : State} (h : Keeps β σ s) (code : Nat) (tapReset : Bool) :
    Keeps β σ (irUpdate code tapReset s) := by
  unfold irUpdate
  repeat' first
    | with_reducible assumption | with_reducible apply Keeps.ite | split | simp only [Keeps.update] | dsimp only

theorem chalWant_keeps {β : Bool} {σ s : State} (h : Keeps β σ s) :
    Keeps β σ (chalWant s) := by
  unfold chalWant
  repeat' first
    | with_reducible assumption | with_reducible apply rngRun_keeps | with_reducible apply Keeps.ite | split
    | simp only [Keeps.update] | dsimp only

theorem chalCapture_keeps {β : Bool} {σ s : State} (h : Keeps β σ s) :
    Keeps β σ (chalCapture s) := by
  unfold chalCapture
  try lift_lets
  repeat' first
    | with_reducible assumption
    | (intro x; first
        | (have hx : Keeps β σ x := ?_); clear_value x | (have hx : Keeps β σ x.2 := ?_); clear_value x
        | (have hx : Keeps β σ x.2.2 := ?_); clear_value x | clear_value x)
    | with_reducible apply chalWant_keeps | with_reducible apply drawFree_keeps | with_reducible apply Keeps.ite
    | split | simp only [Keeps.update] | lift_lets | subst x | dsimp only

theorem chalUpdate_keeps {β : Bool} {σ s : State} (h : Keeps β σ s) (scope : Word) (r : Nat) (sig : Nat) :
    Keeps β σ (chalUpdate scope r sig s) := by
  unfold chalUpdate
  repeat' first
    | with_reducible assumption | with_reducible apply fset_keeps | with_reducible apply Keeps.ite | split
    | simp only [Keeps.update] | dsimp only

theorem chalDone_keeps {β : Bool} {σ s : State} (h : Keeps β σ s) :
    Keeps β σ (chalDone s) := by
  unfold chalDone
  try lift_lets
  repeat' first
    | with_reducible assumption
    | (intro x; first
        | (have hx : Keeps β σ x := ?_); clear_value x | (have hx : Keeps β σ x.2 := ?_); clear_value x
        | (have hx : Keeps β σ x.2.2 := ?_); clear_value x | clear_value x)
    | with_reducible apply raiseEvt_keeps | with_reducible apply fset_keeps | with_reducible apply Keeps.ite | split
    | simp only [Keeps.update] | lift_lets | subst x | dsimp only

theorem dmPut_keeps {β : Bool} {σ s : State} (h : Keeps β σ s) (k : Nat) (v : Word) :
    Keeps β σ (dmPut k v s) := by
  unfold dmPut
  repeat' first
    | with_reducible assumption | simp only [Keeps.update] | dsimp only | split

theorem hartHalt_keeps {β : Bool} {σ s : State} (h : Keeps β σ s) (h : Nat) (cause : Nat) :
    Keeps β σ (hartHalt h cause s) := by
  unfold hartHalt
  repeat' first
    | with_reducible assumption | with_reducible apply dmPut_keeps | with_reducible apply coreSet_keeps
    | simp only [Keeps.update] | dsimp only | split

theorem hartResume_keeps {β : Bool} {σ s : State} (h : Keeps β σ s) (h : Nat) :
    Keeps β σ (hartResume h s) := by
  unfold hartResume
  try lift_lets
  repeat' first
    | with_reducible assumption
    | (intro x; first
        | (have hx : Keeps β σ x := ?_); clear_value x | (have hx : Keeps β σ x.2 := ?_); clear_value x
        | (have hx : Keeps β σ x.2.2 := ?_); clear_value x | clear_value x)
    | with_reducible apply dmPut_keeps | with_reducible apply hartHalt_keeps | with_reducible apply coreSet_keeps
    | with_reducible apply drawFree_keeps | with_reducible apply Keeps.ite | split | simp only [Keeps.update]
    | lift_lets | subst x | dsimp only

theorem dmClear_keeps {β : Bool} {σ s : State} (h : Keeps β σ s) :
    Keeps β σ (dmClear s) := by
  unfold dmClear
  repeat' first
    | with_reducible assumption | simp only [Keeps.update] | dsimp only | split

theorem dmControl_keeps {β : Bool} {σ s : State} (h : Keeps β σ s) (v : Word) :
    Keeps β σ (dmControl v s) := by
  unfold dmControl
  try lift_lets
  repeat' first
    | with_reducible assumption
    | (intro x; first
        | (have hx : Keeps β σ x := ?_); clear_value x | (have hx : Keeps β σ x.2 := ?_); clear_value x
        | (have hx : Keeps β σ x.2.2 := ?_); clear_value x | clear_value x)
    | with_reducible apply dmClear_keeps | with_reducible apply dmPut_keeps | with_reducible apply hartHalt_keeps
    | with_reducible apply hartResume_keeps | with_reducible apply hallRestart_keeps
    | with_reducible apply Keeps.ite | split | lift_lets | subst x | dsimp only

theorem cmdErr_keeps {β : Bool} {σ s : State} (h : Keeps β σ s) (e : Nat) :
    Keeps β σ (cmdErr e s) := by
  unfold cmdErr
  repeat' first
    | with_reducible assumption | with_reducible apply dmPut_keeps | with_reducible apply Keeps.ite | split
    | dsimp only

theorem hartPut_keeps {β : Bool} {σ s : State} (h : Keeps β σ s) (h : Nat) (n : Nat) (v : Word64) :
    Keeps β σ (hartPut h n v s) := by
  unfold hartPut
  try lift_lets
  repeat' first
    | with_reducible assumption
    | (intro x; first
        | (have hx : Keeps β σ x := ?_); clear_value x | (have hx : Keeps β σ x.2 := ?_); clear_value x
        | (have hx : Keeps β σ x.2.2 := ?_); clear_value x | clear_value x)
    | with_reducible apply coreSet_keeps | with_reducible apply dmPut_keeps | with_reducible apply Keeps.ite | split
    | simp only [Keeps.update] | lift_lets | subst x | (refine Keeps.of_pair (by assumption) ?_) | dsimp only

theorem progRun_keeps {β : Bool} {σ s : State} (h : Keeps β σ s) (h : Nat) :
    Keeps β σ (progRun h s) := by
  unfold progRun
  try lift_lets
  repeat' first
    | with_reducible assumption
    | (intro x; first
        | (have hx : Keeps β σ x := ?_); clear_value x | (have hx : Keeps β σ x.2 := ?_); clear_value x
        | (have hx : Keeps β σ x.2.2 := ?_); clear_value x | clear_value x)
    | with_reducible apply coreSet_keeps | with_reducible apply cmdErr_keeps | with_reducible apply Keeps.ite
    | (with_reducible apply Keeps.foldl; intro u y hu) | split | simp only [Keeps.update] | lift_lets | subst x
    | dsimp only

theorem accessRegister_keeps {β : Bool} {σ s : State} (h : Keeps β σ s) (v : Word) (h : Nat) :
    Keeps β σ (accessRegister v h s) := by
  unfold accessRegister
  try lift_lets
  repeat' first
    | with_reducible assumption
    | (intro x; first
        | (have hx : Keeps β σ x := ?_); clear_value x | (have hx : Keeps β σ x.2 := ?_); clear_value x
        | (have hx : Keeps β σ x.2.2 := ?_); clear_value x | clear_value x)
    | with_reducible apply progRun_keeps | with_reducible apply cmdErr_keeps | with_reducible apply hartPut_keeps
    | with_reducible apply drawFree_keeps | with_reducible apply dmPut_keeps | with_reducible apply Keeps.ite
    | split | simp only [Keeps.update] | lift_lets | subst x | dsimp only

theorem dmCommand_keeps {β : Bool} {σ s : State} (h : Keeps β σ s) (v : Word) :
    Keeps β σ (dmCommand v s) := by
  unfold dmCommand
  repeat' first
    | with_reducible assumption | with_reducible apply cmdErr_keeps | with_reducible apply accessRegister_keeps
    | with_reducible apply Keeps.ite | split | dsimp only

theorem sbError_keeps {β : Bool} {σ s : State} (h : Keeps β σ s) (e : Nat) :
    Keeps β σ (sbError e s) := by
  unfold sbError
  repeat' first
    | with_reducible assumption | with_reducible apply dmPut_keeps | dsimp only | split

theorem sbNext_keeps {β : Bool} {σ s : State} (h : Keeps β σ s) :
    Keeps β σ (sbNext s) := by
  unfold sbNext
  repeat' first
    | with_reducible assumption | with_reducible apply dmPut_keeps | with_reducible apply Keeps.ite | split
    | dsimp only

theorem sbIssue_keeps {σ s : State} (h : Keeps false σ s) (store : Bool) :
    Keeps false σ (sbIssue store s) := by
  unfold sbIssue
  try lift_lets
  repeat' first
    | with_reducible assumption
    | (intro x; first
        | (have hx : Keeps false σ x := ?_); clear_value x | (have hx : Keeps false σ x.2 := ?_); clear_value x
        | (have hx : Keeps false σ x.2.2 := ?_); clear_value x | clear_value x)
    | with_reducible apply storeAccess_keeps | with_reducible apply loadAccess_keeps
    | with_reducible apply Keeps.ite | split | lift_lets | subst x | dsimp only

theorem sbFinish_keeps {β : Bool} {σ s : State} (h : Keeps β σ s) : Keeps β σ (sbFinish s) := by
  unfold sbFinish
  generalize s.bus.resp = r
  cases r
  · exact h
  · exact sbNext_keeps h
  · exact sbNext_keeps (Keeps.ite (dmPut_keeps (dmPut_keeps h _ _) _ _) (dmPut_keeps h _ _))
  · exact h
  · exact sbError_keeps h _

theorem sbAccess_keeps {σ s : State} (h : Keeps false σ s) (store : Bool) : Keeps false σ (sbAccess store s) := by
  unfold sbAccess
  with_reducible apply Keeps.ite h
  generalize sbDeny s = d
  cases d
  · exact sbFinish_keeps (sbIssue_keeps h _)
  · exact sbError_keeps h _

theorem sbcsWrite_keeps {β : Bool} {σ s : State} (h : Keeps β σ s) (v : Word) :
    Keeps β σ (sbcsWrite v s) := by
  unfold sbcsWrite
  repeat' first
    | with_reducible assumption | with_reducible apply dmPut_keeps | (refine Keeps.of_pair (by assumption) ?_)
    | dsimp only | split

theorem dmWrite_keeps {σ s : State} (h : Keeps false σ s) (a : Nat) (v : Word) :
    Keeps false σ (dmWrite a v s) := by
  unfold dmWrite
  try lift_lets
  repeat' first
    | with_reducible assumption
    | (intro x; first
        | (have hx : Keeps false σ x := ?_); clear_value x | (have hx : Keeps false σ x.2 := ?_); clear_value x
        | (have hx : Keeps false σ x.2.2 := ?_); clear_value x | clear_value x)
    | with_reducible apply dmControl_keeps | with_reducible apply dmPut_keeps | with_reducible apply dmCommand_keeps
    | with_reducible apply sbcsWrite_keeps | with_reducible apply sbAccess_keeps | with_reducible apply Keeps.ite
    | split | simp only [Keeps.update] | lift_lets | subst x | dsimp only

theorem dmAnswer_keeps {β : Bool} {σ s : State} (h : Keeps β σ s) (op : Nat) (v : Word) :
    Keeps β σ (dmAnswer op v s) := by
  unfold dmAnswer
  repeat' first
    | with_reducible assumption | simp only [Keeps.update] | dsimp only | split

theorem dmiDo_keeps {σ s : State} (h : Keeps false σ s) (op : Nat) (a : Nat) (v : Word) :
    Keeps false σ (dmiDo op a v s) := by
  unfold dmiDo
  try lift_lets
  repeat' first
    | with_reducible assumption
    | (intro x; first
        | (have hx : Keeps false σ x := ?_); clear_value x | (have hx : Keeps false σ x.2 := ?_); clear_value x
        | (have hx : Keeps false σ x.2.2 := ?_); clear_value x | clear_value x)
    | with_reducible apply dmAnswer_keeps | with_reducible apply sbAccess_keeps | with_reducible apply dmPut_keeps
    | with_reducible apply dmWrite_keeps | with_reducible apply Keeps.ite | split | simp only [Keeps.update]
    | lift_lets | subst x | (refine Keeps.of_pair (by assumption) ?_) | dsimp only

theorem execJtagIrUpdate_keeps {β : Bool} {σ s : State} (h : Keeps β σ s) (code : BitVec 5) (tapReset : Bool) :
    KeepsOut β σ (execJtagIrUpdate code tapReset s) := by
  unfold execJtagIrUpdate
  repeat' first
    | with_reducible assumption | with_reducible apply KeepsOut.next | with_reducible apply irUpdate_keeps
    | dsimp only | split

theorem execDmiAccess_keeps {σ s : State} (h : Keeps false σ s) (op : BitVec 2) (addr : BitVec 7) (data : Word) :
    KeepsOut false σ (execDmiAccess op addr data s) := by
  unfold execDmiAccess
  repeat' first
    | with_reducible assumption | with_reducible apply KeepsOut.next | with_reducible apply dmiDo_keeps
    | with_reducible apply Keeps.ite | split | dsimp only

theorem execDbgchalCapture_keeps {β : Bool} {σ s : State} (h : Keeps β σ s) :
    KeepsOut β σ (execDbgchalCapture s) := by
  unfold execDbgchalCapture
  repeat' first
    | with_reducible assumption | with_reducible apply KeepsOut.next | with_reducible apply chalCapture_keeps
    | with_reducible apply Keeps.ite | split | dsimp only

theorem execDbgchalUpdate_keeps {β : Bool} {σ s : State} (h : Keeps β σ s) (scope : Word) (r : BitVec 256) (sig :
    BitVec 256) :
    KeepsOut β σ (execDbgchalUpdate scope r sig s) := by
  unfold execDbgchalUpdate
  repeat' first
    | with_reducible assumption | with_reducible apply KeepsOut.next | with_reducible apply chalUpdate_keeps
    | with_reducible apply Keeps.ite | split | dsimp only

theorem execDbgCheckDone_keeps {β : Bool} {σ s : State} (h : Keeps β σ s) :
    KeepsOut β σ (execDbgCheckDone s) := by
  unfold execDbgCheckDone
  repeat' first
    | with_reducible assumption | with_reducible apply KeepsOut.next | with_reducible apply chalDone_keeps
    | dsimp only | split

theorem execDbgDenyHoldoffEnd_keeps {β : Bool} {σ s : State} (h : Keeps β σ s) :
    KeepsOut β σ (execDbgDenyHoldoffEnd s) := by
  unfold execDbgDenyHoldoffEnd
  repeat' first
    | with_reducible assumption | with_reducible apply KeepsOut.next | simp only [Keeps.update] | dsimp only | split

theorem execDbgLock_keeps {β : Bool} {σ s : State} (h : Keeps β σ s) (i : Init) (key : BitVec 16) :
    KeepsOut β σ (execDbgLock i key s) := by
  unfold execDbgLock
  repeat' first
    | with_reducible assumption | with_reducible apply KeepsOut.next | with_reducible apply doorStore_keeps
    | with_reducible apply dbgRelock_keeps | (intro u; intros) | dsimp only | split

end Sys2Proof.Machine
end

