-- ==== Sys2Proof/WellFormed.lean ====
section
/-!
DEFINITION. Well-formed commands: the ranges the spec gives an operand whose type does not say them.
-/

namespace Sys2Proof

/-- A command is well formed: a bus address has 32 bits and a core of RV64 may name
a wider one (R40), a survey block has 1,024 bins at most (R276), a frame has at
most 2,047 octets (R265), and recovery messages carry 256 octets of header or 1 to 1,024 octets of data (R576). -/
def Instr.wf : Instr → Bool
  | .registerWrite _ addr _ => decide (addr < 2 ^ 32)
  | .memoryAccess _ _ addr _ _ => decide (addr < 2 ^ 64)
  | .counterLowRead _ addr _ _ => decide (addr < 2 ^ 32)
  | .snapshotCapture _ addr => decide (addr < 2 ^ 32)
  | .stagedLowWrite _ addr _ => decide (addr < 2 ^ 32)
  | .highHalfCommit _ addr _ => decide (addr < 2 ^ 32)
  | .readToClear _ addr => decide (addr < 2 ^ 32)
  | .lanternWriteEffect addr => decide (addr < 2 ^ 32)
  | .laneVerdict _ octets _ _ => decide (octets.length ≤ 2047)
  | .surveyBlockEnd _ _ means => decide (means.length ≤ 1024)
  | .recoveryHeader _ header => decide (header.length = 256)
  | .recoveryData _ _ octets => decide (1 ≤ octets.length ∧ octets.length ≤ 1024)
  | .eventSourceRaise .. | .interruptTaken .. | .evtClaim .. | .evtDone .. | .feCmdTarget .. | .feCmdCal ..
  | .feCtrlWrite .. | .feCentreWrite .. | .feTransitionDone .. | .calibrationSetEnd .. | .feLockLost ..
  | .feLockFail .. | .feXrefFail .. | .dieTempSample .. | .feTuneWrite .. | .feMismatchMeasure ..
  | .radioReclaim .. | .licTableWrite .. | .licCheck .. | .licBurn .. | .licBurnDone .. | .binSampleWrite ..
  | .gainEvaluation .. | .gainChange .. | .chzCtrlWrite .. | .overloadDetect .. | .overloadDrop ..
  | .overloadEpisodeEnd .. | .ovlHoldEnd .. | .fabActivate .. | .fabCheck .. | .fabReload .. | .planCheckDone ..
  | .planSwitch .. | .domainLoadDone .. | .scrubTileRead .. | .laneStart .. | .laneStop .. | .laneTuneGo ..
  | .laneTuneApply .. | .laneMove .. | .laneMoveEffective .. | .laneDrainRelease .. | .preambleDetection ..
  | .sfdFound .. | .sfdTimeout .. | .phrDecoded .. | .modeSwitchPpdu .. | .frameEnd .. | .laneTimeout ..
  | .resyncCollision .. | .cancellerTrainingEnd .. | .fdxMeasurement .. | .gainCapReturn .. | .jobPost ..
  | .jobCancel .. | .jobPreparation .. | .jobFillTick .. | .ccaDecision .. | .txTransitionStart ..
  | .txRampUp .. | .underrun .. | .txFrameEnd .. | .noAck .. | .rxWinClose .. | .ackCut .. | .ackTransmit ..
  | .lastGaspStore .. | .dutyBucketAdvance .. | .nbrInsert .. | .nbrDelete .. | .nbrRead .. | .nbrLookup ..
  | .queuePop .. | .queuePush .. | .queueDrop .. | .queueFlush .. | .qcFlush .. | .knkEnWrite ..
  | .knkConfigWrite .. | .knkListenStart .. | .knkPreambleDetect .. | .knkWordMatch .. | .knkWordTimeout ..
  | .knkEndOfPattern .. | .ppsInEdge .. | .ppsLost .. | .timeMeas .. | .timeSet .. | .meshLost .. | .timeSec ..
  | .ppsPulseEnd .. | .refEstimateUpdate .. | .imArm .. | .imCancel .. | .imEdge .. | .imWindowExpire ..
  | .timerEnable .. | .timerZero .. | .timerCmpCommit .. | .timerReloadCommit .. | .timerCmpEffect ..
  | .timerWrap .. | .timerMatch .. | .timerCapture .. | .calSecond .. | .calOscStop .. | .calSet ..
  | .calSync .. | .calSyncApply .. | .pwrOnSet .. | .pwrOnClr .. | .ledgCommit .. | .ledgSuspend ..
  | .ledgResume .. | .ledgReset .. | .ledgSwitch .. | .ledgPark .. | .ledgRemove .. | .ledgWaysWrite ..
  | .wdogKick .. | .roomWdog .. | .phLockRead .. | .phRelease .. | .phForce .. | .phSend .. | .phSendEnd ..
  | .phRecv .. | .phRetWrite .. | .cipStart .. | .cipAbort .. | .cipClear .. | .cipOperationDone ..
  | .cipLockRead .. | .cipLockRelease .. | .cipCforce .. | .cipLockExpired .. | .enroll .. | .rotate ..
  | .rngStartupDone .. | .rngBlockRelease .. | .rngTestFail .. | .rngRestart .. | .rngDataRead .. | .kpLoad ..
  | .kpDerive .. | .kpUnwrap .. | .kpUnload .. | .kpDelete .. | .kpFind .. | .kpCommandDone ..
  | .shelfCompaction .. | .pkVerify .. | .pkEcdh .. | .pkDone .. | .tamperTrip .. | .vaultEraseDone ..
  | .flashProgram .. | .flashErase .. | .flashProgramDone .. | .flashEraseDone .. | .flashSuspend ..
  | .flashResume .. | .flashAutoResume .. | .flcCfgWrite .. | .updHeader .. | .updLoad .. | .updFinish ..
  | .updActivate .. | .updAbort .. | .updCheck .. | .floorClr .. | .recover .. | .updHeaderChecked ..
  | .updWriteDone .. | .houseRestart .. | .houseRewriteDone .. | .recoveryInfo .. | .recoveryCommit ..
  | .recoveryAbort .. | .recoveryRestart .. | .recoverySessionTimeout .. | .recoveryAutoRestart ..
  | .pwrModeWrite .. | .entryWfi .. | .participantAnswer .. | .pwrLcackWrite .. | .handshakeTimeout ..
  | .modeReached .. | .wake .. | .modeExit .. | .hallStartRetry .. | .pwrGateWrite .. | .vcoreAck ..
  | .vcoreFail .. | .vcoreDownHold .. | .pmbAlert .. | .supZeroCrossing .. | .supRmsRefresh ..
  | .supFastOutage .. | .supDisturbEnd .. | .supOverrun .. | .supRecordPop .. | .lgAttempt .. | .lgCca ..
  | .lgCut .. | .lgFrameEnd .. | .lgAckWindow .. | .hostResync .. | .hostMsg .. | .hostPing .. | .readFrame ..
  | .reread .. | .readStatus .. | .hostSessionExpire .. | .hostInHdrRead .. | .hostInDataRead ..
  | .hostOutDataWrite .. | .hostOutCommit .. | .hostOutDiscard .. | .uartCharReceived .. | .uartCharSent ..
  | .uartDataWrite .. | .uartDataRead .. | .uartOwnWrite .. | .i2cStart .. | .i2cWrite .. | .i2cRead ..
  | .i2cStop .. | .i2cNack .. | .i2cArbLost .. | .i2cSclTimeout .. | .i2cRxRead .. | .i2cOwnWrite ..
  | .gpioOwnWrite .. | .gpioSet .. | .gpioClr .. | .gpioEdge .. | .gpioHoldRelease .. | .dbgchalCapture ..
  | .dbgchalUpdate .. | .dbgCheckDone .. | .dbgDenyHoldoffEnd .. | .dbgLock .. | .dmiAccess .. | .vbatPowerOn ..
  | .brownout .. | .sysRstPin .. | .rstCmdHall .. | .lfFirstEdge .. | .lfStartTimeout .. | .hallRelease ..
  | .romStart .. | .porterStart .. | .ckRefRunning .. | .ckLfResume .. | .modeSwitchTimeout ..
  | .supOverRange .. | .shelfClearingDone .. | .markProgrammed .. | .shelfCompactionDone .. | .minimumRunEnd ..
  | .jtagIrUpdate .. => true

end Sys2Proof
end

