-- ==== Sys2Proof/Laws/PerInstr.lean ====
section
/-!
SUPPORT. One lemma per command about the bus transaction it is: the address of a well-formed command's transaction is
an address of the bus, and the transaction moves 4 or 8 octets.
-/

set_option Elab.async false

namespace Sys2Proof.Laws

open Sys2Proof.Machine

/-- A well-formed command's transaction lies at an address below 2^32 (R40) and is a register access of 32 bits (R65)
or a queue-data access of 64 bits (R355). -/
def F.Statement (i : Instr) : Prop :=
  i.wf = true → ∀ p, i.port = some p → p.addr < 2 ^ 32 ∧ (p.size = 4 ∨ p.size = 8)

/-- A command that is no transaction. -/
theorem F.Statement.of_none {i : Instr} (h : i.port = none) : F.Statement i := by
  intro _ p hp
  rw [h] at hp
  cases hp

/-- A command whose transaction stands at a named register. -/
theorem F.Statement.of_some {i : Instr} {j : Init} {a n : Nat} {k : Access} (h : i.port = some ⟨j, a, n, k⟩)
    (ha : a < 2 ^ 32) (hn : n = 4 ∨ n = 8 := by decide) : F.Statement i := by
  intro _ p hp
  rw [h] at hp
  cases hp
  exact ⟨ha, hn⟩

/-- A register command at an address that it names itself. -/
theorem F.Statement.of_register {i : Instr} {j : Init} {a : Nat} {k : Access} (hw : i.wf = true → a < 2 ^ 32)
    (h : i.port = if registerAt a then some ⟨j, a, 4, k⟩ else none) : F.Statement i := by
  intro w p hp
  rw [h] at hp
  split at hp
  · cases hp
    exact ⟨hw w, .inl rfl⟩
  · cases hp

theorem F.registerWrite (i : Init) (addr : Nat) (data : Word) : F.Statement (.registerWrite i addr data) :=
    .of_register (fun h => of_decide_eq_true h) rfl

theorem F.memoryAccess (i : Init) (op : MemOp) (addr : Nat) (parityOk : Bool) (ecc : EccSeen) : F.Statement
      (.memoryAccess i op addr parityOk ecc) :=
    .of_none rfl

theorem F.counterLowRead (i : Init) (addr : Nat) (live : Word64) (air : Word64) : F.Statement (.counterLowRead i addr
      live air) :=
    .of_register (fun h => of_decide_eq_true h) rfl

theorem F.snapshotCapture (i : Init) (addr : Nat) : F.Statement (.snapshotCapture i addr) :=
    .of_register (fun h => of_decide_eq_true h) rfl

theorem F.stagedLowWrite (i : Init) (addr : Nat) (data : Word) : F.Statement (.stagedLowWrite i addr data) :=
    .of_register (fun h => of_decide_eq_true h) rfl

theorem F.highHalfCommit (i : Init) (addr : Nat) (data : Word) : F.Statement (.highHalfCommit i addr data) :=
    .of_register (fun h => of_decide_eq_true h) rfl

theorem F.readToClear (i : Init) (addr : Nat) : F.Statement (.readToClear i addr) :=
    .of_register (fun h => of_decide_eq_true h) rfl

theorem F.lanternWriteEffect (addr : Nat) : F.Statement (.lanternWriteEffect addr) := .of_none rfl

theorem F.eventSourceRaise (event : BitVec 10) : F.Statement (.eventSourceRaise event) := .of_none rfl

theorem F.interruptTaken (core : Fin 7) : F.Statement (.interruptTaken core) := .of_none rfl

theorem F.evtClaim (i : Init) : F.Statement (.evtClaim i) := .of_some rfl (by decide)

theorem F.evtDone (i : Init) (data : Word) : F.Statement (.evtDone i data) := .of_some rfl (by decide)

theorem F.feCmdTarget (i : Init) (fe : Fe) (data : Word) (temp : BitVec 16) : F.Statement (.feCmdTarget i fe data
      temp) :=
    .of_some rfl (by cases fe <;> decide)

theorem F.feCmdCal (i : Init) (fe : Fe) : F.Statement (.feCmdCal i fe) := .of_some rfl (by cases fe <;> decide)

theorem F.feCtrlWrite (i : Init) (fe : Fe) (data : Word) : F.Statement (.feCtrlWrite i fe data) :=
    .of_some rfl (by cases fe <;> decide)

theorem F.feCentreWrite (i : Init) (fe : Fe) (data : Word) : F.Statement (.feCentreWrite i fe data) :=
    .of_some rfl (by cases fe <;> decide)

theorem F.feTransitionDone (fe : Fe) (temp : BitVec 16) (rxt0 : Word64) : F.Statement (.feTransitionDone fe temp
      rxt0) :=
    .of_none rfl

theorem F.calibrationSetEnd (fe : Fe) (temp : BitVec 16) (fail : BitVec 5) (band : BitVec 6) (irr : Word) (dc : Word)
      (lol : Word) (bw : Word) : F.Statement (.calibrationSetEnd fe temp fail band irr dc lol bw) :=
    .of_none rfl

theorem F.feLockLost (fe : Fe) : F.Statement (.feLockLost fe) := .of_none rfl

theorem F.feLockFail (fe : Fe) : F.Statement (.feLockFail fe) := .of_none rfl

theorem F.feXrefFail : F.Statement .feXrefFail := .of_none rfl

theorem F.dieTempSample (fe : Fe) (temp : BitVec 16) : F.Statement (.dieTempSample fe temp) := .of_none rfl

theorem F.feTuneWrite (i : Init) (fe : Fe) (data : Word) : F.Statement (.feTuneWrite i fe data) :=
    .of_some rfl (by cases fe <;> decide)

theorem F.feMismatchMeasure (fe : Fe) (mag : BitVec 8) (phase : BitVec 6) (fwd : BitVec 8) (strong : Bool) :
      F.Statement (.feMismatchMeasure fe mag phase fwd strong) :=
    .of_none rfl

theorem F.radioReclaim (i : Init) : F.Statement (.radioReclaim i) := .of_some rfl (by decide)

theorem F.licTableWrite (i : Init) (offset : BitVec 9) (data : Word) : F.Statement (.licTableWrite i offset data) :=
    .of_some rfl (by have := offset.isLt; omega)

theorem F.licCheck (i : Init) (key : BitVec 16) : F.Statement (.licCheck i key) := .of_some rfl (by decide)

theorem F.licBurn (i : Init) (key : BitVec 16) (check : Bool) : F.Statement (.licBurn i key check) :=
    .of_some rfl (by decide)

theorem F.licBurnDone (readBack : Bool) : F.Statement (.licBurnDone readBack) := .of_none rfl

theorem F.binSampleWrite (lane : BitVec 8) (index : BitVec 48) (fill : Fin 65) (peakQ : BitVec 16) (edQ : BitVec 16)
      : F.Statement (.binSampleWrite lane index fill peakQ edQ) :=
    .of_none rfl

theorem F.gainEvaluation (fe : Fe) (m : BitVec 44) (peakQ : BitVec 16) (meanQ : BitVec 16) : F.Statement
      (.gainEvaluation fe m peakQ meanQ) :=
    .of_none rfl

theorem F.gainChange (fe : Fe) : F.Statement (.gainChange fe) := .of_none rfl

theorem F.chzCtrlWrite (i : Init) (fe : Fe) (data : Word) (period : BitVec 48) : F.Statement (.chzCtrlWrite i fe data
      period) :=
    .of_some rfl (by cases fe <;> decide)

theorem F.overloadDetect (fe : Fe) (start : BitVec 48) : F.Statement (.overloadDetect fe start) := .of_none rfl

theorem F.overloadDrop (fe : Fe) (period : BitVec 48) : F.Statement (.overloadDrop fe period) := .of_none rfl

theorem F.overloadEpisodeEnd (fe : Fe) (period : BitVec 48) : F.Statement (.overloadEpisodeEnd fe period) :=
    .of_none rfl

theorem F.ovlHoldEnd (fe : Fe) (period : BitVec 48) : F.Statement (.ovlHoldEnd fe period) := .of_none rfl

theorem F.fabActivate (i : Init) (key : BitVec 16) (slot : BitVec 1) : F.Statement (.fabActivate i key slot) :=
    .of_some rfl (by decide)

theorem F.fabCheck (i : Init) (key : BitVec 16) (slot : BitVec 1) : F.Statement (.fabCheck i key slot) :=
    .of_some rfl (by decide)

theorem F.fabReload (i : Init) (key : BitVec 16) (domain : BitVec 5) : F.Statement (.fabReload i key domain) :=
    .of_some rfl (by decide)

theorem F.planCheckDone : F.Statement .planCheckDone := .of_none rfl

theorem F.planSwitch : F.Statement .planSwitch := .of_none rfl

theorem F.domainLoadDone : F.Statement .domainLoadDone := .of_none rfl

theorem F.scrubTileRead (upset : Bool) : F.Statement (.scrubTileRead upset) := .of_none rfl

theorem F.laneStart (i : Init) (lane : BitVec 8) (key : BitVec 16) : F.Statement (.laneStart i lane key) :=
    .of_some rfl (by have := lane.isLt; simp only [laneP]; omega)

theorem F.laneStop (i : Init) (lane : BitVec 8) (key : BitVec 16) : F.Statement (.laneStop i lane key) :=
    .of_some rfl (by have := lane.isLt; simp only [laneP]; omega)

theorem F.laneTuneGo (i : Init) (lane : BitVec 8) (data : Word) : F.Statement (.laneTuneGo i lane data) :=
    .of_some rfl (by have := lane.isLt; simp only [laneP]; omega)

theorem F.laneTuneApply (lane : BitVec 8) (index : BitVec 48) : F.Statement (.laneTuneApply lane index) :=
    .of_none rfl

theorem F.laneMove (i : Init) (lane : BitVec 8) (key : BitVec 16) (dest : BitVec 8) : F.Statement (.laneMove i lane
      key dest) :=
    .of_some rfl (by have := lane.isLt; simp only [laneP]; omega)

theorem F.laneMoveEffective (lane : BitVec 8) : F.Statement (.laneMoveEffective lane) := .of_none rfl

theorem F.laneDrainRelease (lane : BitVec 8) (index : BitVec 48) : F.Statement (.laneDrainRelease lane index) :=
    .of_none rfl

theorem F.preambleDetection (lane : BitVec 8) (index : BitVec 48) : F.Statement (.preambleDetection lane index) :=
    .of_none rfl

theorem F.sfdFound (lane : BitVec 8) (index : BitVec 48) (frac : BitVec 12) (coded : Bool) (mseQ : BitVec 16) :
      F.Statement (.sfdFound lane index frac coded mseQ) :=
    .of_none rfl

theorem F.sfdTimeout (lane : BitVec 8) : F.Statement (.sfdTimeout lane) := .of_none rfl

theorem F.phrDecoded (lane : BitVec 8) (index : BitVec 48) (len : BitVec 11) (fcs2 : Bool) (mcs : BitVec 3) (hcsOk :
      Bool) : F.Statement (.phrDecoded lane index len fcs2 mcs hcsOk) :=
    .of_none rfl

theorem F.modeSwitchPpdu (lane : BitVec 8) (phy : BitVec 8) (hQ : BitVec 8) : F.Statement (.modeSwitchPpdu lane phy
      hQ) :=
    .of_none rfl

theorem F.frameEnd (lane : BitVec 8) (index : BitVec 48) (fcsOk : Bool) (sat : Bool) (qual : Quality) : F.Statement
      (.frameEnd lane index fcsOk sat qual) :=
    .of_none rfl

theorem F.laneTimeout (lane : BitVec 8) : F.Statement (.laneTimeout lane) := .of_none rfl

theorem F.resyncCollision (lane : BitVec 8) (index : BitVec 48) : F.Statement (.resyncCollision lane index) :=
    .of_none rfl

theorem F.laneVerdict (lane : BitVec 8) (octets : List Byte) (intact : Bool) (now : Word64) : F.Statement
      (.laneVerdict lane octets intact now) :=
    .of_none rfl

theorem F.surveyBlockEnd (fe : Fe) (block : BitVec 40) (means : List Int) : F.Statement (.surveyBlockEnd fe block
      means) :=
    .of_none rfl

theorem F.cancellerTrainingEnd (fe : Fe) (deep : Bool) : F.Statement (.cancellerTrainingEnd fe deep) := .of_none rfl

theorem F.fdxMeasurement (fe : Fe) (iso : BitVec 8) (cancel : BitVec 8) : F.Statement (.fdxMeasurement fe iso cancel)
      :=
    .of_none rfl

theorem F.gainCapReturn (fe : Fe) (period : BitVec 48) : F.Statement (.gainCapReturn fe period) := .of_none rfl

theorem F.jobPost (i : Init) (room : BitVec 6) (data : Word) (now : Word64) : F.Statement (.jobPost i room data now)
      :=
    .of_some rfl (by have := room.isLt; simp only [jobB]; omega)

theorem F.jobCancel (i : Init) (room : BitVec 6) (key : BitVec 16) (slot : BitVec 2) : F.Statement (.jobCancel i room
      key slot) :=
    .of_some rfl (by have := room.isLt; simp only [jobB]; omega)

theorem F.jobPreparation (room : BitVec 6) (slot : BitVec 2) (agrees : Bool) : F.Statement (.jobPreparation room slot
      agrees) :=
    .of_none rfl

theorem F.jobFillTick (room : BitVec 6) (slot : BitVec 2) : F.Statement (.jobFillTick room slot) := .of_none rfl

theorem F.ccaDecision (fe : Fe) (found : List Decision) : F.Statement (.ccaDecision fe found) := .of_none rfl

theorem F.txTransitionStart (who : Sender) (tick : Word64) (temp : BitVec 16) (vpa : BitVec 12) : F.Statement
      (.txTransitionStart who tick temp vpa) :=
    .of_none rfl

theorem F.txRampUp (fe : Fe) (tick : Word64) (fill : Nat) : F.Statement (.txRampUp fe tick fill) := .of_none rfl

theorem F.underrun (fe : Fe) : F.Statement (.underrun fe) := .of_none rfl

theorem F.txFrameEnd (fe : Fe) (tick : Word64) (radiated : Word64) (temp : BitVec 16) : F.Statement (.txFrameEnd fe
      tick radiated temp) :=
    .of_none rfl

theorem F.noAck (room : BitVec 6) (slot : BitVec 2) : F.Statement (.noAck room slot) := .of_none rfl

theorem F.rxWinClose (room : BitVec 6) (slot : BitVec 2) : F.Statement (.rxWinClose room slot) := .of_none rfl

theorem F.ackCut (fe : Fe) (late : Bool) : F.Statement (.ackCut fe late) := .of_none rfl

theorem F.ackTransmit (fe : Fe) : F.Statement (.ackTransmit fe) := .of_none rfl

theorem F.lastGaspStore (slot : BitVec 2) (agrees : Bool) : F.Statement (.lastGaspStore slot agrees) := .of_none rfl

theorem F.dutyBucketAdvance (group : BitVec 4) : F.Statement (.dutyBucketAdvance group) := .of_none rfl

theorem F.nbrInsert (i : Init) (index : BitVec 12) : F.Statement (.nbrInsert i index) := .of_some rfl (by decide)

theorem F.nbrDelete (i : Init) (index : BitVec 12) : F.Statement (.nbrDelete i index) := .of_some rfl (by decide)

theorem F.nbrRead (i : Init) (index : BitVec 12) : F.Statement (.nbrRead i index) := .of_some rfl (by decide)

theorem F.nbrLookup (i : Init) (index : BitVec 12) : F.Statement (.nbrLookup i index) := .of_some rfl (by decide)

theorem F.queuePop (i : Init) (queue : Fin 320) (ecc : EccSeen) : F.Statement (.queuePop i queue ecc) :=
    .of_some rfl (by have := queue.isLt; simp only [quePage]; omega)

theorem F.queuePush (i : Init) (queue : Fin 320) (data : Word64) : F.Statement (.queuePush i queue data) :=
    .of_some rfl (by have := queue.isLt; simp only [quePage]; omega)

theorem F.queueDrop (i : Init) (queue : Fin 320) (key : BitVec 16) : F.Statement (.queueDrop i queue key) :=
    .of_some rfl (by have := queue.isLt; simp only [quePage]; omega)

theorem F.queueFlush (i : Init) (queue : Fin 320) (key : BitVec 16) : F.Statement (.queueFlush i queue key) :=
    .of_some rfl (by have := queue.isLt; simp only [quePage]; omega)

theorem F.qcFlush (i : Init) (key : BitVec 16) (queue : BitVec 9) : F.Statement (.qcFlush i key queue) :=
    .of_some rfl (by decide)

theorem F.knkEnWrite (i : Init) (data : Word) : F.Statement (.knkEnWrite i data) := .of_some rfl (by decide)

theorem F.knkConfigWrite (i : Init) (isWord : Bool) (data : Word) : F.Statement (.knkConfigWrite i isWord data) :=
    .of_some rfl (by cases isWord <;> decide)

theorem F.knkListenStart : F.Statement .knkListenStart := .of_none rfl

theorem F.knkPreambleDetect : F.Statement .knkPreambleDetect := .of_none rfl

theorem F.knkWordMatch : F.Statement .knkWordMatch := .of_none rfl

theorem F.knkWordTimeout : F.Statement .knkWordTimeout := .of_none rfl

theorem F.knkEndOfPattern (target : BitVec 16) (crc : BitVec 8) (level : BitVec 8) (now : Nat) : F.Statement
      (.knkEndOfPattern target crc level now) :=
    .of_none rfl

theorem F.ppsInEdge (edge : Word64) (nt : Word64) : F.Statement (.ppsInEdge edge nt) := .of_none rfl

theorem F.ppsLost : F.Statement .ppsLost := .of_none rfl

theorem F.timeMeas (i : Init) (data : Word) (now : Word64) : F.Statement (.timeMeas i data now) :=
    .of_some rfl (by decide)

theorem F.timeSet (i : Init) (data : Word) (now : Word64) : F.Statement (.timeSet i data now) :=
    .of_some rfl (by decide)

theorem F.meshLost : F.Statement .meshLost := .of_none rfl

theorem F.timeSec (sec : Word64) (tick : Word64) (f10 : BitVec 24) : F.Statement (.timeSec sec tick f10) :=
    .of_none rfl

theorem F.ppsPulseEnd : F.Statement .ppsPulseEnd := .of_none rfl

theorem F.refEstimateUpdate (n : BitVec 32) (mean : Int) : F.Statement (.refEstimateUpdate n mean) := .of_none rfl

theorem F.imArm (i : Init) (data : Word) (now : Word64) : F.Statement (.imArm i data now) := .of_some rfl (by decide)

theorem F.imCancel (i : Init) (data : Word) (now : Word64) : F.Statement (.imCancel i data now) :=
    .of_some rfl (by decide)

theorem F.imEdge (src : BitVec 7) (falling : Bool) (at_ : Word64) : F.Statement (.imEdge src falling at_) :=
    .of_none rfl

theorem F.imWindowExpire : F.Statement .imWindowExpire := .of_none rfl

theorem F.timerEnable (i : Init) (timer : Fin 20) (data : Word) (count : Word64) : F.Statement (.timerEnable i timer
      data count) :=
    .of_some rfl (by have := timer.isLt; simp only [tmrB]; omega)

theorem F.timerZero (i : Init) (timer : Fin 20) (key : BitVec 16) : F.Statement (.timerZero i timer key) :=
    .of_some rfl (by have := timer.isLt; simp only [tmrB]; omega)

theorem F.timerCmpCommit (i : Init) (timer : Fin 20) (data : Word) : F.Statement (.timerCmpCommit i timer data) :=
    .of_some rfl (by have := timer.isLt; simp only [tmrB, tmrCommitAt, tmrLong, decide_eq_true_eq]; split <;> omega)

theorem F.timerReloadCommit (i : Init) (timer : Fin 20) (data : Word) : F.Statement (.timerReloadCommit i timer data)
      :=
    .of_some rfl (by have := timer.isLt; simp only [tmrB, tmrCommitAt, tmrLong, decide_eq_true_eq]; split <;> omega)

theorem F.timerCmpEffect (timer : Fin 20) (count : Word64) : F.Statement (.timerCmpEffect timer count) := .of_none rfl

theorem F.timerWrap (timer : Fin 20) (count : Word64) : F.Statement (.timerWrap timer count) := .of_none rfl

theorem F.timerMatch (timer : Fin 20) (count : Word64) : F.Statement (.timerMatch timer count) := .of_none rfl

theorem F.timerCapture (timer : Fin 20) (count : Word64) (falling : Bool) : F.Statement (.timerCapture timer count
      falling) :=
    .of_none rfl

theorem F.calSecond : F.Statement .calSecond := .of_none rfl

theorem F.calOscStop : F.Statement .calOscStop := .of_none rfl

theorem F.calSet (i : Init) (key : BitVec 16) (sync : Bool) : F.Statement (.calSet i key sync) :=
    .of_some rfl (by decide)

theorem F.calSync (i : Init) (key : BitVec 16) : F.Statement (.calSync i key) := .of_some rfl (by decide)

theorem F.calSyncApply (snt : Word64) : F.Statement (.calSyncApply snt) := .of_none rfl

theorem F.pwrOnSet (i : Init) (data : Word) : F.Statement (.pwrOnSet i data) := .of_some rfl (by decide)

theorem F.pwrOnClr (i : Init) (data : Word) : F.Statement (.pwrOnClr i data) := .of_some rfl (by decide)

theorem F.ledgCommit (i : Init) (key : BitVec 16) (room : BitVec 6) : F.Statement (.ledgCommit i key room) :=
    .of_some rfl (by decide)

theorem F.ledgSuspend (i : Init) (key : BitVec 16) (room : BitVec 6) : F.Statement (.ledgSuspend i key room) :=
    .of_some rfl (by decide)

theorem F.ledgResume (i : Init) (key : BitVec 16) (room : BitVec 6) : F.Statement (.ledgResume i key room) :=
    .of_some rfl (by decide)

theorem F.ledgReset (i : Init) (key : BitVec 16) (room : BitVec 6) : F.Statement (.ledgReset i key room) :=
    .of_some rfl (by decide)

theorem F.ledgSwitch (i : Init) (key : BitVec 16) (core : BitVec 2) (room : BitVec 6) : F.Statement (.ledgSwitch i
      key core room) :=
    .of_some rfl (by decide)

theorem F.ledgPark (i : Init) (key : BitVec 16) (core : BitVec 2) : F.Statement (.ledgPark i key core) :=
    .of_some rfl (by decide)

theorem F.ledgRemove (i : Init) (key : BitVec 16) (room : BitVec 6) : F.Statement (.ledgRemove i key room) :=
    .of_some rfl (by decide)

theorem F.ledgWaysWrite (i : Init) (core : BitVec 2) (high : Bool) (data : Word) : F.Statement (.ledgWaysWrite i core
      high data) :=
    .of_some rfl (by have := core.isLt; have : ofBool high ≤ 1 := (by cases high <;> decide); omega)

theorem F.wdogKick (i : Init) (room : BitVec 6) (key : BitVec 16) : F.Statement (.wdogKick i room key) :=
    .of_some rfl (by have := room.isLt; simp only [wdogPage]; omega)

theorem F.roomWdog (room : BitVec 6) : F.Statement (.roomWdog room) := .of_none rfl

theorem F.phLockRead (i : Init) (chan : BitVec 6) : F.Statement (.phLockRead i chan) :=
    .of_some rfl (by have := chan.isLt; simp only [phPage]; omega)

theorem F.phRelease (i : Init) (chan : BitVec 6) : F.Statement (.phRelease i chan) :=
    .of_some rfl (by have := chan.isLt; simp only [phPage]; omega)

theorem F.phForce (i : Init) (key : BitVec 16) (chan : BitVec 6) : F.Statement (.phForce i key chan) :=
    .of_some rfl (by decide)

theorem F.phSend (i : Init) (chan : BitVec 6) (data : Word) : F.Statement (.phSend i chan data) :=
    .of_some rfl (by have := chan.isLt; simp only [phPage]; omega)

theorem F.phSendEnd (i : Init) (chan : BitVec 6) (data : Word) : F.Statement (.phSendEnd i chan data) :=
    .of_some rfl (by have := chan.isLt; simp only [phPage]; omega)

theorem F.phRecv (i : Init) (chan : BitVec 6) : F.Statement (.phRecv i chan) :=
    .of_some rfl (by have := chan.isLt; simp only [phPage]; omega)

theorem F.phRetWrite (i : Init) (chan : BitVec 6) (data : Word) : F.Statement (.phRetWrite i chan data) :=
    .of_some rfl (by have := chan.isLt; simp only [phPage]; omega)

theorem F.cipStart (i : Init) (ctx : Fin 65) (key : BitVec 16) (first : Bool) (last : Bool) (abort : Bool) (clear :
      Bool) : F.Statement (.cipStart i ctx key first last abort clear) :=
    .of_some rfl (by have := ctx.isLt; simp only [cipPage]; omega)

theorem F.cipAbort (i : Init) (ctx : Fin 65) (key : BitVec 16) (clear : Bool) : F.Statement (.cipAbort i ctx key
      clear) :=
    .of_some rfl (by have := ctx.isLt; simp only [cipPage]; omega)

theorem F.cipClear (i : Init) (ctx : Fin 65) (key : BitVec 16) : F.Statement (.cipClear i ctx key) :=
    .of_some rfl (by have := ctx.isLt; simp only [cipPage]; omega)

theorem F.cipOperationDone (ctx : Fin 65) : F.Statement (.cipOperationDone ctx) := .of_none rfl

theorem F.cipLockRead (i : Init) : F.Statement (.cipLockRead i) := .of_some rfl (by decide)

theorem F.cipLockRelease (i : Init) : F.Statement (.cipLockRelease i) := .of_some rfl (by decide)

theorem F.cipCforce (i : Init) (key : BitVec 16) : F.Statement (.cipCforce i key) := .of_some rfl (by decide)

theorem F.cipLockExpired : F.Statement .cipLockExpired := .of_none rfl

theorem F.enroll (i : Init) (key : BitVec 16) : F.Statement (.enroll i key) := .of_some rfl (by decide)

theorem F.rotate (i : Init) (key : BitVec 16) : F.Statement (.rotate i key) := .of_some rfl (by decide)

theorem F.rngStartupDone : F.Statement .rngStartupDone := .of_none rfl

theorem F.rngBlockRelease (raw : BitVec 512) : F.Statement (.rngBlockRelease raw) := .of_none rfl

theorem F.rngTestFail (rct : Bool) (rawBit : Word64) : F.Statement (.rngTestFail rct rawBit) := .of_none rfl

theorem F.rngRestart (i : Init) (key : BitVec 16) : F.Statement (.rngRestart i key) := .of_some rfl (by decide)

theorem F.rngDataRead (i : Init) : F.Statement (.rngDataRead i) := .of_some rfl (by decide)

theorem F.kpLoad (i : Init) (room : BitVec 6) (key : BitVec 16) (cls : BitVec 2) (sel : BitVec 2) (klen : BitVec 2) :
      F.Statement (.kpLoad i room key cls sel klen) :=
    .of_some rfl (by have := room.isLt; simp only [kpPage]; omega)

theorem F.kpDerive (i : Init) (room : BitVec 6) (key : BitVec 16) (cls : BitVec 2) (sel : BitVec 2) (klen : BitVec 2)
      : F.Statement (.kpDerive i room key cls sel klen) :=
    .of_some rfl (by have := room.isLt; simp only [kpPage]; omega)

theorem F.kpUnwrap (i : Init) (room : BitVec 6) (key : BitVec 16) (cls : BitVec 2) (sel : BitVec 2) (klen : BitVec 2)
      : F.Statement (.kpUnwrap i room key cls sel klen) :=
    .of_some rfl (by have := room.isLt; simp only [kpPage]; omega)

theorem F.kpUnload (i : Init) (room : BitVec 6) (key : BitVec 16) (cls : BitVec 2) (sel : BitVec 2) (klen : BitVec 2)
      : F.Statement (.kpUnload i room key cls sel klen) :=
    .of_some rfl (by have := room.isLt; simp only [kpPage]; omega)

theorem F.kpDelete (i : Init) (room : BitVec 6) (key : BitVec 16) (cls : BitVec 2) (sel : BitVec 2) (klen : BitVec 2)
      : F.Statement (.kpDelete i room key cls sel klen) :=
    .of_some rfl (by have := room.isLt; simp only [kpPage]; omega)

theorem F.kpFind (i : Init) (room : BitVec 6) (key : BitVec 16) (cls : BitVec 2) (sel : BitVec 2) (klen : BitVec 2) :
      F.Statement (.kpFind i room key cls sel klen) :=
    .of_some rfl (by have := room.isLt; simp only [kpPage]; omega)

theorem F.kpCommandDone (room : BitVec 6) (slot : BitVec 7) (entry : BitVec 9) (bad : Bool) : F.Statement
      (.kpCommandDone room slot entry bad) :=
    .of_none rfl

theorem F.shelfCompaction (due : Bool) : F.Statement (.shelfCompaction due) := .of_none rfl

theorem F.pkVerify (i : Init) (key : BitVec 16) : F.Statement (.pkVerify i key) := .of_some rfl (by decide)

theorem F.pkEcdh (i : Init) (key : BitVec 16) : F.Statement (.pkEcdh i key) := .of_some rfl (by decide)

theorem F.pkDone (slot : BitVec 7) (entry : BitVec 9) : F.Statement (.pkDone slot entry) := .of_none rfl

theorem F.tamperTrip (src : BitVec 3) : F.Statement (.tamperTrip src) := .of_none rfl

theorem F.vaultEraseDone : F.Statement .vaultEraseDone := .of_none rfl

theorem F.flashProgram (i : Init) (port : BitVec 6) (key : BitVec 16) : F.Statement (.flashProgram i port key) :=
    .of_some rfl (by have := port.isLt; simp only [fpPage]; omega)

theorem F.flashErase (i : Init) (port : BitVec 6) (key : BitVec 16) : F.Statement (.flashErase i port key) :=
    .of_some rfl (by have := port.isLt; simp only [fpPage]; omega)

theorem F.flashProgramDone (bank : BitVec 1) (readBack : BitVec 256) : F.Statement (.flashProgramDone bank readBack)
      :=
    .of_none rfl

theorem F.flashEraseDone (bank : BitVec 1) (blank : Bool) : F.Statement (.flashEraseDone bank blank) := .of_none rfl

theorem F.flashSuspend (i : Init) (key : BitVec 16) (bank : BitVec 1) : F.Statement (.flashSuspend i key bank) :=
    .of_some rfl (by decide)

theorem F.flashResume (i : Init) (key : BitVec 16) (bank : BitVec 1) : F.Statement (.flashResume i key bank) :=
    .of_some rfl (by decide)

theorem F.flashAutoResume (bank : BitVec 1) : F.Statement (.flashAutoResume bank) := .of_none rfl

theorem F.flcCfgWrite (i : Init) (data : Word) : F.Statement (.flcCfgWrite i data) := .of_some rfl (by decide)

theorem F.updHeader (i : Init) (key : BitVec 16) : F.Statement (.updHeader i key) := .of_some rfl (by decide)

theorem F.updLoad (i : Init) (key : BitVec 16) : F.Statement (.updLoad i key) := .of_some rfl (by decide)

theorem F.updFinish (i : Init) (key : BitVec 16) : F.Statement (.updFinish i key) := .of_some rfl (by decide)

theorem F.updActivate (i : Init) (key : BitVec 16) : F.Statement (.updActivate i key) := .of_some rfl (by decide)

theorem F.updAbort (i : Init) (key : BitVec 16) : F.Statement (.updAbort i key) := .of_some rfl (by decide)

theorem F.updCheck (i : Init) (key : BitVec 16) (room : BitVec 6) : F.Statement (.updCheck i key room) :=
    .of_some rfl (by decide)

theorem F.floorClr (i : Init) (key : BitVec 16) (room : BitVec 6) : F.Statement (.floorClr i key room) :=
    .of_some rfl (by decide)

theorem F.recover (i : Init) (key : BitVec 16) : F.Statement (.recover i key) := .of_some rfl (by decide)

theorem F.updHeaderChecked : F.Statement .updHeaderChecked := .of_none rfl

theorem F.updWriteDone (ok : Bool) : F.Statement (.updWriteDone ok) := .of_none rfl

theorem F.houseRestart : F.Statement .houseRestart := .of_none rfl

theorem F.houseRewriteDone (ok : Bool) : F.Statement (.houseRewriteDone ok) := .of_none rfl

theorem F.recoveryInfo (src : RecSource) : F.Statement (.recoveryInfo src) := .of_none rfl

theorem F.recoveryHeader (src : RecSource) (header : List (BitVec 8)) : F.Statement (.recoveryHeader src header) :=
    .of_none rfl

theorem F.recoveryData (src : RecSource) (offset : Word) (octets : List (BitVec 8)) : F.Statement (.recoveryData src
      offset octets) :=
    .of_none rfl

theorem F.recoveryCommit (src : RecSource) (ok : Bool) : F.Statement (.recoveryCommit src ok) := .of_none rfl

theorem F.recoveryAbort (src : RecSource) : F.Statement (.recoveryAbort src) := .of_none rfl

theorem F.recoveryRestart (src : RecSource) : F.Statement (.recoveryRestart src) := .of_none rfl

theorem F.recoverySessionTimeout : F.Statement .recoverySessionTimeout := .of_none rfl

theorem F.recoveryAutoRestart : F.Statement .recoveryAutoRestart := .of_none rfl

theorem F.pwrModeWrite (i : Init) (data : Word) : F.Statement (.pwrModeWrite i data) := .of_some rfl (by decide)

theorem F.entryWfi : F.Statement .entryWfi := .of_none rfl

theorem F.participantAnswer (participant : Fin 12) : F.Statement (.participantAnswer participant) := .of_none rfl

theorem F.pwrLcackWrite (i : Init) (data : Word) : F.Statement (.pwrLcackWrite i data) := .of_some rfl (by decide)

theorem F.handshakeTimeout : F.Statement .handshakeTimeout := .of_none rfl

theorem F.modeReached (nt : Word64) (air : Word64) : F.Statement (.modeReached nt air) := .of_none rfl

theorem F.wake (src : BitVec 3) (event : BitVec 10) : F.Statement (.wake src event) := .of_none rfl

theorem F.modeExit (lfCycles : Nat) : F.Statement (.modeExit lfCycles) := .of_none rfl

theorem F.hallStartRetry (voutMode : Option (BitVec 8)) : F.Statement (.hallStartRetry voutMode) := .of_none rfl

theorem F.pwrGateWrite (i : Init) (data : Word) : F.Statement (.pwrGateWrite i data) := .of_some rfl (by decide)

theorem F.vcoreAck : F.Statement .vcoreAck := .of_none rfl

theorem F.vcoreFail (why : RegFail) : F.Statement (.vcoreFail why) := .of_none rfl

theorem F.vcoreDownHold : F.Statement .vcoreDownHold := .of_none rfl

theorem F.pmbAlert (status : BitVec 16) (vout : BitVec 8) : F.Statement (.pmbAlert status vout) := .of_none rfl

theorem F.supZeroCrossing (chan : BitVec 2) (nt : Word64) (freq : BitVec 24) : F.Statement (.supZeroCrossing chan nt
      freq) :=
    .of_none rfl

theorem F.supRmsRefresh (chan : BitVec 2) (rms : BitVec 24) (nt : Word64) (sample : Nat) (above : Bool) (dist : Bool)
      (lost : Bool) : F.Statement (.supRmsRefresh chan rms nt sample above dist lost) :=
    .of_none rfl

theorem F.supFastOutage (chan : BitVec 2) (nt : Word64) (flag : Bool) : F.Statement (.supFastOutage chan nt flag) :=
    .of_none rfl

theorem F.supDisturbEnd (chan : BitVec 2) : F.Statement (.supDisturbEnd chan) := .of_none rfl

theorem F.supOverrun : F.Statement .supOverrun := .of_none rfl

theorem F.supRecordPop (i : Init) : F.Statement (.supRecordPop i) := .of_some rfl (by decide)

theorem F.lgAttempt (nt : Word64) (tick : Word64) (vhold : BitVec 11) (temp : BitVec 16) (vpa : BitVec 12) :
      F.Statement (.lgAttempt nt tick vhold temp vpa) :=
    .of_none rfl

theorem F.lgCca (level : BitVec 16) : F.Statement (.lgCca level) := .of_none rfl

theorem F.lgCut : F.Statement .lgCut := .of_none rfl

theorem F.lgFrameEnd (tick : Word64) (radiated : Word64) (temp : BitVec 16) : F.Statement (.lgFrameEnd tick radiated
      temp) :=
    .of_none rfl

theorem F.lgAckWindow (level : BitVec 16) : F.Statement (.lgAckWindow level) := .of_none rfl

theorem F.hostResync (octets : List (BitVec 8)) : F.Statement (.hostResync octets) := .of_none rfl

theorem F.hostMsg (octets : List (BitVec 8)) : F.Statement (.hostMsg octets) := .of_none rfl

theorem F.hostPing (octets : List (BitVec 8)) : F.Statement (.hostPing octets) := .of_none rfl

theorem F.readFrame : F.Statement .readFrame := .of_none rfl

theorem F.reread : F.Statement .reread := .of_none rfl

theorem F.readStatus : F.Statement .readStatus := .of_none rfl

theorem F.hostSessionExpire : F.Statement .hostSessionExpire := .of_none rfl

theorem F.hostInHdrRead (i : Init) : F.Statement (.hostInHdrRead i) := .of_some rfl (by decide)

theorem F.hostInDataRead (i : Init) : F.Statement (.hostInDataRead i) := .of_some rfl (by decide)

theorem F.hostOutDataWrite (i : Init) (data : Word) : F.Statement (.hostOutDataWrite i data) :=
    .of_some rfl (by decide)

theorem F.hostOutCommit (i : Init) (data : Word) : F.Statement (.hostOutCommit i data) := .of_some rfl (by decide)

theorem F.hostOutDiscard (i : Init) (data : Word) : F.Statement (.hostOutDiscard i data) := .of_some rfl (by decide)

theorem F.uartCharReceived (u : BitVec 1) (char : BitVec 8) (par : Bool) (frm : Bool) (brk : Bool) : F.Statement
      (.uartCharReceived u char par frm brk) :=
    .of_none rfl

theorem F.uartCharSent (u : BitVec 1) : F.Statement (.uartCharSent u) := .of_none rfl

theorem F.uartDataWrite (i : Init) (u : BitVec 1) (data : Word) : F.Statement (.uartDataWrite i u data) :=
    .of_some rfl (by have := u.isLt; simp only [uartP]; omega)

theorem F.uartDataRead (i : Init) (u : BitVec 1) : F.Statement (.uartDataRead i u) :=
    .of_some rfl (by have := u.isLt; simp only [uartP]; omega)

theorem F.uartOwnWrite (i : Init) (data : Word) : F.Statement (.uartOwnWrite i data) := .of_some rfl (by decide)

theorem F.i2cStart (u : BitVec 1) : F.Statement (.i2cStart u) := .of_none rfl

theorem F.i2cWrite (u : BitVec 1) : F.Statement (.i2cWrite u) := .of_none rfl

theorem F.i2cRead (u : BitVec 1) (data : BitVec 8) : F.Statement (.i2cRead u data) := .of_none rfl

theorem F.i2cStop (u : BitVec 1) : F.Statement (.i2cStop u) := .of_none rfl

theorem F.i2cNack (u : BitVec 1) : F.Statement (.i2cNack u) := .of_none rfl

theorem F.i2cArbLost (u : BitVec 1) : F.Statement (.i2cArbLost u) := .of_none rfl

theorem F.i2cSclTimeout (u : BitVec 1) : F.Statement (.i2cSclTimeout u) := .of_none rfl

theorem F.i2cRxRead (i : Init) (u : BitVec 1) : F.Statement (.i2cRxRead i u) :=
    .of_some rfl (by have := u.isLt; simp only [i2cP]; omega)

theorem F.i2cOwnWrite (i : Init) (data : Word) : F.Statement (.i2cOwnWrite i data) := .of_some rfl (by decide)

theorem F.gpioOwnWrite (i : Init) (j : BitVec 3) (data : Word) : F.Statement (.gpioOwnWrite i j data) :=
    .of_some rfl (by have := j.isLt; omega)

theorem F.gpioSet (i : Init) (bank : BitVec 2) (data : Word) : F.Statement (.gpioSet i bank data) :=
    .of_some rfl (by have := bank.isLt; omega)

theorem F.gpioClr (i : Init) (bank : BitVec 2) (data : Word) : F.Statement (.gpioClr i bank data) :=
    .of_some rfl (by have := bank.isLt; omega)

theorem F.gpioEdge (pin : BitVec 6) (level : Bool) : F.Statement (.gpioEdge pin level) := .of_none rfl

theorem F.gpioHoldRelease (i : Init) (data : Word) : F.Statement (.gpioHoldRelease i data) := .of_some rfl (by decide)

theorem F.dbgchalCapture : F.Statement .dbgchalCapture := .of_none rfl

theorem F.dbgchalUpdate (scope : Word) (r : BitVec 256) (sig : BitVec 256) : F.Statement (.dbgchalUpdate scope r sig)
      :=
    .of_none rfl

theorem F.dbgCheckDone : F.Statement .dbgCheckDone := .of_none rfl

theorem F.dbgDenyHoldoffEnd : F.Statement .dbgDenyHoldoffEnd := .of_none rfl

theorem F.dbgLock (i : Init) (key : BitVec 16) : F.Statement (.dbgLock i key) := .of_some rfl (by decide)

theorem F.dmiAccess (op : BitVec 2) (addr : BitVec 7) (data : Word) : F.Statement (.dmiAccess op addr data) :=
    .of_none rfl

theorem F.vbatPowerOn (voutMode : Option (BitVec 8)) : F.Statement (.vbatPowerOn voutMode) := .of_none rfl

theorem F.brownout (voutMode : Option (BitVec 8)) : F.Statement (.brownout voutMode) := .of_none rfl

theorem F.sysRstPin (low : Bool) : F.Statement (.sysRstPin low) := .of_none rfl

theorem F.rstCmdHall (i : Init) (key : BitVec 16) : F.Statement (.rstCmdHall i key) := .of_some rfl (by decide)

theorem F.lfFirstEdge : F.Statement .lfFirstEdge := .of_none rfl

theorem F.lfStartTimeout : F.Statement .lfStartTimeout := .of_none rfl

theorem F.hallRelease (nt : Word64) (air : Word64) (lfCycles : Nat) : F.Statement (.hallRelease nt air lfCycles) :=
    .of_none rfl

theorem F.romStart : F.Statement .romStart := .of_none rfl

theorem F.porterStart : F.Statement .porterStart := .of_none rfl

theorem F.ckRefRunning : F.Statement .ckRefRunning := .of_none rfl

theorem F.ckLfResume : F.Statement .ckLfResume := .of_none rfl

theorem F.modeSwitchTimeout (lane : BitVec 8) : F.Statement (.modeSwitchTimeout lane) := .of_none rfl

theorem F.supOverRange (chan : BitVec 2) (negative : Bool) : F.Statement (.supOverRange chan negative) := .of_none rfl

theorem F.shelfClearingDone : F.Statement .shelfClearingDone := .of_none rfl

theorem F.markProgrammed (slot : BitVec 7) (ok : Bool) : F.Statement (.markProgrammed slot ok) := .of_none rfl

theorem F.shelfCompactionDone : F.Statement .shelfCompactionDone := .of_none rfl

theorem F.minimumRunEnd (bank : BitVec 1) : F.Statement (.minimumRunEnd bank) := .of_none rfl

theorem F.jtagIrUpdate (code : BitVec 5) (tapReset : Bool) : F.Statement (.jtagIrUpdate code tapReset) := .of_none rfl

end Sys2Proof.Laws
end

