-- ==== Sys2Proof/Laws/State.lean ====
section
/-!
SUPPORT. What each primitive update leaves as it was, field by field.
-/

namespace Sys2Proof.Machine

variable (s : State)

/-! ### wr -/

@[simp] theorem wr_pending (a : Nat) (v : Word) : (wr a v s).pending = s.pending := rfl
@[simp] theorem wr_mem (a : Nat) (v : Word) : (wr a v s).mem = s.mem := rfl
@[simp] theorem wr_bus (a : Nat) (v : Word) : (wr a v s).bus = s.bus := rfl
@[simp] theorem wr_rooms (a : Nat) (v : Word) : (wr a v s).rooms = s.rooms := rfl
@[simp] theorem wr_plan (a : Nat) (v : Word) : (wr a v s).plan = s.plan := rfl
@[simp] theorem wr_ph (a : Nat) (v : Word) : (wr a v s).ph = s.ph := rfl
@[simp] theorem wr_feA (a : Nat) (v : Word) : (wr a v s).feA = s.feA := rfl
@[simp] theorem wr_feB (a : Nat) (v : Word) : (wr a v s).feB = s.feB := rfl
@[simp] theorem wr_lic (a : Nat) (v : Word) : (wr a v s).lic = s.lic := rfl
@[simp] theorem wr_queues (a : Nat) (v : Word) : (wr a v s).queues = s.queues := rfl
@[simp] theorem wr_chzA (a : Nat) (v : Word) : (wr a v s).chzA = s.chzA := rfl
@[simp] theorem wr_chzB (a : Nat) (v : Word) : (wr a v s).chzB = s.chzB := rfl
@[simp] theorem wr_lanes (a : Nat) (v : Word) : (wr a v s).lanes = s.lanes := rfl
@[simp] theorem wr_verdicts (a : Nat) (v : Word) : (wr a v s).verdicts = s.verdicts := rfl
@[simp] theorem wr_survey (a : Nat) (v : Word) : (wr a v s).survey = s.survey := rfl
@[simp] theorem wr_fdxA (a : Nat) (v : Word) : (wr a v s).fdxA = s.fdxA := rfl
@[simp] theorem wr_fdxB (a : Nat) (v : Word) : (wr a v s).fdxB = s.fdxB := rfl
@[simp] theorem wr_pow (a : Nat) (v : Word) : (wr a v s).pow = s.pow := rfl
@[simp] theorem wr_flash (a : Nat) (v : Word) : (wr a v s).flash = s.flash := rfl
@[simp] theorem wr_cip (a : Nat) (v : Word) : (wr a v s).cip = s.cip := rfl
@[simp] theorem wr_keys (a : Nat) (v : Word) : (wr a v s).keys = s.keys := rfl
@[simp] theorem wr_link (a : Nat) (v : Word) : (wr a v s).link = s.link := rfl
@[simp] theorem wr_knk (a : Nat) (v : Word) : (wr a v s).knk = s.knk := rfl
@[simp] theorem wr_time (a : Nat) (v : Word) : (wr a v s).time = s.time := rfl
@[simp] theorem wr_timers (a : Nat) (v : Word) : (wr a v s).timers = s.timers := rfl
@[simp] theorem wr_cal (a : Nat) (v : Word) : (wr a v s).cal = s.cal := rfl
@[simp] theorem wr_sup (a : Nat) (v : Word) : (wr a v s).sup = s.sup := rfl
@[simp] theorem wr_host (a : Nat) (v : Word) : (wr a v s).host = s.host := rfl
@[simp] theorem wr_uarts (a : Nat) (v : Word) : (wr a v s).uarts = s.uarts := rfl
@[simp] theorem wr_i2cs (a : Nat) (v : Word) : (wr a v s).i2cs = s.i2cs := rfl
@[simp] theorem wr_gpio (a : Nat) (v : Word) : (wr a v s).gpio = s.gpio := rfl
@[simp] theorem wr_dbg (a : Nat) (v : Word) : (wr a v s).dbg = s.dbg := rfl
@[simp] theorem wr_upd (a : Nat) (v : Word) : (wr a v s).upd = s.upd := rfl
@[simp] theorem wr_noise (a : Nat) (v : Word) : (wr a v s).noise = s.noise := rfl
@[simp] theorem wr_freeCtr (a : Nat) (v : Word) : (wr a v s).freeCtr = s.freeCtr := rfl

/-! ### memPut -/

@[simp] theorem memPut_pending (a : Nat) (v : Byte) : (memPut a v s).pending = s.pending := rfl
@[simp] theorem memPut_regs (a : Nat) (v : Byte) : (memPut a v s).regs = s.regs := rfl
@[simp] theorem memPut_bus (a : Nat) (v : Byte) : (memPut a v s).bus = s.bus := rfl
@[simp] theorem memPut_rooms (a : Nat) (v : Byte) : (memPut a v s).rooms = s.rooms := rfl
@[simp] theorem memPut_plan (a : Nat) (v : Byte) : (memPut a v s).plan = s.plan := rfl
@[simp] theorem memPut_ph (a : Nat) (v : Byte) : (memPut a v s).ph = s.ph := rfl
@[simp] theorem memPut_feA (a : Nat) (v : Byte) : (memPut a v s).feA = s.feA := rfl
@[simp] theorem memPut_feB (a : Nat) (v : Byte) : (memPut a v s).feB = s.feB := rfl
@[simp] theorem memPut_lic (a : Nat) (v : Byte) : (memPut a v s).lic = s.lic := rfl
@[simp] theorem memPut_queues (a : Nat) (v : Byte) : (memPut a v s).queues = s.queues := rfl
@[simp] theorem memPut_chzA (a : Nat) (v : Byte) : (memPut a v s).chzA = s.chzA := rfl
@[simp] theorem memPut_chzB (a : Nat) (v : Byte) : (memPut a v s).chzB = s.chzB := rfl
@[simp] theorem memPut_lanes (a : Nat) (v : Byte) : (memPut a v s).lanes = s.lanes := rfl
@[simp] theorem memPut_verdicts (a : Nat) (v : Byte) : (memPut a v s).verdicts = s.verdicts := rfl
@[simp] theorem memPut_survey (a : Nat) (v : Byte) : (memPut a v s).survey = s.survey := rfl
@[simp] theorem memPut_fdxA (a : Nat) (v : Byte) : (memPut a v s).fdxA = s.fdxA := rfl
@[simp] theorem memPut_fdxB (a : Nat) (v : Byte) : (memPut a v s).fdxB = s.fdxB := rfl
@[simp] theorem memPut_pow (a : Nat) (v : Byte) : (memPut a v s).pow = s.pow := rfl
@[simp] theorem memPut_flash (a : Nat) (v : Byte) : (memPut a v s).flash = s.flash := rfl
@[simp] theorem memPut_cip (a : Nat) (v : Byte) : (memPut a v s).cip = s.cip := rfl
@[simp] theorem memPut_keys (a : Nat) (v : Byte) : (memPut a v s).keys = s.keys := rfl
@[simp] theorem memPut_link (a : Nat) (v : Byte) : (memPut a v s).link = s.link := rfl
@[simp] theorem memPut_knk (a : Nat) (v : Byte) : (memPut a v s).knk = s.knk := rfl
@[simp] theorem memPut_time (a : Nat) (v : Byte) : (memPut a v s).time = s.time := rfl
@[simp] theorem memPut_timers (a : Nat) (v : Byte) : (memPut a v s).timers = s.timers := rfl
@[simp] theorem memPut_cal (a : Nat) (v : Byte) : (memPut a v s).cal = s.cal := rfl
@[simp] theorem memPut_sup (a : Nat) (v : Byte) : (memPut a v s).sup = s.sup := rfl
@[simp] theorem memPut_host (a : Nat) (v : Byte) : (memPut a v s).host = s.host := rfl
@[simp] theorem memPut_uarts (a : Nat) (v : Byte) : (memPut a v s).uarts = s.uarts := rfl
@[simp] theorem memPut_i2cs (a : Nat) (v : Byte) : (memPut a v s).i2cs = s.i2cs := rfl
@[simp] theorem memPut_gpio (a : Nat) (v : Byte) : (memPut a v s).gpio = s.gpio := rfl
@[simp] theorem memPut_dbg (a : Nat) (v : Byte) : (memPut a v s).dbg = s.dbg := rfl
@[simp] theorem memPut_upd (a : Nat) (v : Byte) : (memPut a v s).upd = s.upd := rfl
@[simp] theorem memPut_noise (a : Nat) (v : Byte) : (memPut a v s).noise = s.noise := rfl
@[simp] theorem memPut_freeCtr (a : Nat) (v : Byte) : (memPut a v s).freeCtr = s.freeCtr := rfl

/-! ### fset -/

@[simp] theorem fset_pending (b : Nat) (f : Fld) (v : Nat) : (fset b f v s).pending = s.pending := rfl
@[simp] theorem fset_mem (b : Nat) (f : Fld) (v : Nat) : (fset b f v s).mem = s.mem := rfl
@[simp] theorem fset_bus (b : Nat) (f : Fld) (v : Nat) : (fset b f v s).bus = s.bus := rfl
@[simp] theorem fset_rooms (b : Nat) (f : Fld) (v : Nat) : (fset b f v s).rooms = s.rooms := rfl
@[simp] theorem fset_plan (b : Nat) (f : Fld) (v : Nat) : (fset b f v s).plan = s.plan := rfl
@[simp] theorem fset_ph (b : Nat) (f : Fld) (v : Nat) : (fset b f v s).ph = s.ph := rfl
@[simp] theorem fset_feA (b : Nat) (f : Fld) (v : Nat) : (fset b f v s).feA = s.feA := rfl
@[simp] theorem fset_feB (b : Nat) (f : Fld) (v : Nat) : (fset b f v s).feB = s.feB := rfl
@[simp] theorem fset_lic (b : Nat) (f : Fld) (v : Nat) : (fset b f v s).lic = s.lic := rfl
@[simp] theorem fset_queues (b : Nat) (f : Fld) (v : Nat) : (fset b f v s).queues = s.queues := rfl
@[simp] theorem fset_chzA (b : Nat) (f : Fld) (v : Nat) : (fset b f v s).chzA = s.chzA := rfl
@[simp] theorem fset_chzB (b : Nat) (f : Fld) (v : Nat) : (fset b f v s).chzB = s.chzB := rfl
@[simp] theorem fset_lanes (b : Nat) (f : Fld) (v : Nat) : (fset b f v s).lanes = s.lanes := rfl
@[simp] theorem fset_verdicts (b : Nat) (f : Fld) (v : Nat) : (fset b f v s).verdicts = s.verdicts := rfl
@[simp] theorem fset_survey (b : Nat) (f : Fld) (v : Nat) : (fset b f v s).survey = s.survey := rfl
@[simp] theorem fset_fdxA (b : Nat) (f : Fld) (v : Nat) : (fset b f v s).fdxA = s.fdxA := rfl
@[simp] theorem fset_fdxB (b : Nat) (f : Fld) (v : Nat) : (fset b f v s).fdxB = s.fdxB := rfl
@[simp] theorem fset_pow (b : Nat) (f : Fld) (v : Nat) : (fset b f v s).pow = s.pow := rfl
@[simp] theorem fset_flash (b : Nat) (f : Fld) (v : Nat) : (fset b f v s).flash = s.flash := rfl
@[simp] theorem fset_cip (b : Nat) (f : Fld) (v : Nat) : (fset b f v s).cip = s.cip := rfl
@[simp] theorem fset_keys (b : Nat) (f : Fld) (v : Nat) : (fset b f v s).keys = s.keys := rfl
@[simp] theorem fset_link (b : Nat) (f : Fld) (v : Nat) : (fset b f v s).link = s.link := rfl
@[simp] theorem fset_knk (b : Nat) (f : Fld) (v : Nat) : (fset b f v s).knk = s.knk := rfl
@[simp] theorem fset_time (b : Nat) (f : Fld) (v : Nat) : (fset b f v s).time = s.time := rfl
@[simp] theorem fset_timers (b : Nat) (f : Fld) (v : Nat) : (fset b f v s).timers = s.timers := rfl
@[simp] theorem fset_cal (b : Nat) (f : Fld) (v : Nat) : (fset b f v s).cal = s.cal := rfl
@[simp] theorem fset_sup (b : Nat) (f : Fld) (v : Nat) : (fset b f v s).sup = s.sup := rfl
@[simp] theorem fset_host (b : Nat) (f : Fld) (v : Nat) : (fset b f v s).host = s.host := rfl
@[simp] theorem fset_uarts (b : Nat) (f : Fld) (v : Nat) : (fset b f v s).uarts = s.uarts := rfl
@[simp] theorem fset_i2cs (b : Nat) (f : Fld) (v : Nat) : (fset b f v s).i2cs = s.i2cs := rfl
@[simp] theorem fset_gpio (b : Nat) (f : Fld) (v : Nat) : (fset b f v s).gpio = s.gpio := rfl
@[simp] theorem fset_dbg (b : Nat) (f : Fld) (v : Nat) : (fset b f v s).dbg = s.dbg := rfl
@[simp] theorem fset_upd (b : Nat) (f : Fld) (v : Nat) : (fset b f v s).upd = s.upd := rfl
@[simp] theorem fset_noise (b : Nat) (f : Fld) (v : Nat) : (fset b f v s).noise = s.noise := rfl
@[simp] theorem fset_freeCtr (b : Nat) (f : Fld) (v : Nat) : (fset b f v s).freeCtr = s.freeCtr := rfl

/-! ### coreSet -/

@[simp] theorem coreSet_pending (k : Nat) (c : CoreCtx) : (coreSet k c s).pending = s.pending := rfl
@[simp] theorem coreSet_regs (k : Nat) (c : CoreCtx) : (coreSet k c s).regs = s.regs := rfl
@[simp] theorem coreSet_mem (k : Nat) (c : CoreCtx) : (coreSet k c s).mem = s.mem := rfl
@[simp] theorem coreSet_bus (k : Nat) (c : CoreCtx) : (coreSet k c s).bus = s.bus := rfl
@[simp] theorem coreSet_plan (k : Nat) (c : CoreCtx) : (coreSet k c s).plan = s.plan := rfl
@[simp] theorem coreSet_ph (k : Nat) (c : CoreCtx) : (coreSet k c s).ph = s.ph := rfl
@[simp] theorem coreSet_feA (k : Nat) (c : CoreCtx) : (coreSet k c s).feA = s.feA := rfl
@[simp] theorem coreSet_feB (k : Nat) (c : CoreCtx) : (coreSet k c s).feB = s.feB := rfl
@[simp] theorem coreSet_lic (k : Nat) (c : CoreCtx) : (coreSet k c s).lic = s.lic := rfl
@[simp] theorem coreSet_queues (k : Nat) (c : CoreCtx) : (coreSet k c s).queues = s.queues := rfl
@[simp] theorem coreSet_chzA (k : Nat) (c : CoreCtx) : (coreSet k c s).chzA = s.chzA := rfl
@[simp] theorem coreSet_chzB (k : Nat) (c : CoreCtx) : (coreSet k c s).chzB = s.chzB := rfl
@[simp] theorem coreSet_lanes (k : Nat) (c : CoreCtx) : (coreSet k c s).lanes = s.lanes := rfl
@[simp] theorem coreSet_verdicts (k : Nat) (c : CoreCtx) : (coreSet k c s).verdicts = s.verdicts := rfl
@[simp] theorem coreSet_survey (k : Nat) (c : CoreCtx) : (coreSet k c s).survey = s.survey := rfl
@[simp] theorem coreSet_fdxA (k : Nat) (c : CoreCtx) : (coreSet k c s).fdxA = s.fdxA := rfl
@[simp] theorem coreSet_fdxB (k : Nat) (c : CoreCtx) : (coreSet k c s).fdxB = s.fdxB := rfl
@[simp] theorem coreSet_pow (k : Nat) (c : CoreCtx) : (coreSet k c s).pow = s.pow := rfl
@[simp] theorem coreSet_flash (k : Nat) (c : CoreCtx) : (coreSet k c s).flash = s.flash := rfl
@[simp] theorem coreSet_cip (k : Nat) (c : CoreCtx) : (coreSet k c s).cip = s.cip := rfl
@[simp] theorem coreSet_keys (k : Nat) (c : CoreCtx) : (coreSet k c s).keys = s.keys := rfl
@[simp] theorem coreSet_link (k : Nat) (c : CoreCtx) : (coreSet k c s).link = s.link := rfl
@[simp] theorem coreSet_knk (k : Nat) (c : CoreCtx) : (coreSet k c s).knk = s.knk := rfl
@[simp] theorem coreSet_time (k : Nat) (c : CoreCtx) : (coreSet k c s).time = s.time := rfl
@[simp] theorem coreSet_timers (k : Nat) (c : CoreCtx) : (coreSet k c s).timers = s.timers := rfl
@[simp] theorem coreSet_cal (k : Nat) (c : CoreCtx) : (coreSet k c s).cal = s.cal := rfl
@[simp] theorem coreSet_sup (k : Nat) (c : CoreCtx) : (coreSet k c s).sup = s.sup := rfl
@[simp] theorem coreSet_host (k : Nat) (c : CoreCtx) : (coreSet k c s).host = s.host := rfl
@[simp] theorem coreSet_uarts (k : Nat) (c : CoreCtx) : (coreSet k c s).uarts = s.uarts := rfl
@[simp] theorem coreSet_i2cs (k : Nat) (c : CoreCtx) : (coreSet k c s).i2cs = s.i2cs := rfl
@[simp] theorem coreSet_gpio (k : Nat) (c : CoreCtx) : (coreSet k c s).gpio = s.gpio := rfl
@[simp] theorem coreSet_dbg (k : Nat) (c : CoreCtx) : (coreSet k c s).dbg = s.dbg := rfl
@[simp] theorem coreSet_upd (k : Nat) (c : CoreCtx) : (coreSet k c s).upd = s.upd := rfl
@[simp] theorem coreSet_noise (k : Nat) (c : CoreCtx) : (coreSet k c s).noise = s.noise := rfl
@[simp] theorem coreSet_freeCtr (k : Nat) (c : CoreCtx) : (coreSet k c s).freeCtr = s.freeCtr := rfl

/-! ### ledgerSet -/

@[simp] theorem ledgerSet_pending (r : Nat) (e : Option LedgerEntry) : (ledgerSet r e s).pending = s.pending := rfl
@[simp] theorem ledgerSet_regs (r : Nat) (e : Option LedgerEntry) : (ledgerSet r e s).regs = s.regs := rfl
@[simp] theorem ledgerSet_mem (r : Nat) (e : Option LedgerEntry) : (ledgerSet r e s).mem = s.mem := rfl
@[simp] theorem ledgerSet_bus (r : Nat) (e : Option LedgerEntry) : (ledgerSet r e s).bus = s.bus := rfl
@[simp] theorem ledgerSet_plan (r : Nat) (e : Option LedgerEntry) : (ledgerSet r e s).plan = s.plan := rfl
@[simp] theorem ledgerSet_ph (r : Nat) (e : Option LedgerEntry) : (ledgerSet r e s).ph = s.ph := rfl
@[simp] theorem ledgerSet_feA (r : Nat) (e : Option LedgerEntry) : (ledgerSet r e s).feA = s.feA := rfl
@[simp] theorem ledgerSet_feB (r : Nat) (e : Option LedgerEntry) : (ledgerSet r e s).feB = s.feB := rfl
@[simp] theorem ledgerSet_lic (r : Nat) (e : Option LedgerEntry) : (ledgerSet r e s).lic = s.lic := rfl
@[simp] theorem ledgerSet_queues (r : Nat) (e : Option LedgerEntry) : (ledgerSet r e s).queues = s.queues := rfl
@[simp] theorem ledgerSet_chzA (r : Nat) (e : Option LedgerEntry) : (ledgerSet r e s).chzA = s.chzA := rfl
@[simp] theorem ledgerSet_chzB (r : Nat) (e : Option LedgerEntry) : (ledgerSet r e s).chzB = s.chzB := rfl
@[simp] theorem ledgerSet_lanes (r : Nat) (e : Option LedgerEntry) : (ledgerSet r e s).lanes = s.lanes := rfl
@[simp] theorem ledgerSet_verdicts (r : Nat) (e : Option LedgerEntry) : (ledgerSet r e s).verdicts = s.verdicts := rfl
@[simp] theorem ledgerSet_survey (r : Nat) (e : Option LedgerEntry) : (ledgerSet r e s).survey = s.survey := rfl
@[simp] theorem ledgerSet_fdxA (r : Nat) (e : Option LedgerEntry) : (ledgerSet r e s).fdxA = s.fdxA := rfl
@[simp] theorem ledgerSet_fdxB (r : Nat) (e : Option LedgerEntry) : (ledgerSet r e s).fdxB = s.fdxB := rfl
@[simp] theorem ledgerSet_pow (r : Nat) (e : Option LedgerEntry) : (ledgerSet r e s).pow = s.pow := rfl
@[simp] theorem ledgerSet_flash (r : Nat) (e : Option LedgerEntry) : (ledgerSet r e s).flash = s.flash := rfl
@[simp] theorem ledgerSet_cip (r : Nat) (e : Option LedgerEntry) : (ledgerSet r e s).cip = s.cip := rfl
@[simp] theorem ledgerSet_keys (r : Nat) (e : Option LedgerEntry) : (ledgerSet r e s).keys = s.keys := rfl
@[simp] theorem ledgerSet_link (r : Nat) (e : Option LedgerEntry) : (ledgerSet r e s).link = s.link := rfl
@[simp] theorem ledgerSet_knk (r : Nat) (e : Option LedgerEntry) : (ledgerSet r e s).knk = s.knk := rfl
@[simp] theorem ledgerSet_time (r : Nat) (e : Option LedgerEntry) : (ledgerSet r e s).time = s.time := rfl
@[simp] theorem ledgerSet_timers (r : Nat) (e : Option LedgerEntry) : (ledgerSet r e s).timers = s.timers := rfl
@[simp] theorem ledgerSet_cal (r : Nat) (e : Option LedgerEntry) : (ledgerSet r e s).cal = s.cal := rfl
@[simp] theorem ledgerSet_sup (r : Nat) (e : Option LedgerEntry) : (ledgerSet r e s).sup = s.sup := rfl
@[simp] theorem ledgerSet_host (r : Nat) (e : Option LedgerEntry) : (ledgerSet r e s).host = s.host := rfl
@[simp] theorem ledgerSet_uarts (r : Nat) (e : Option LedgerEntry) : (ledgerSet r e s).uarts = s.uarts := rfl
@[simp] theorem ledgerSet_i2cs (r : Nat) (e : Option LedgerEntry) : (ledgerSet r e s).i2cs = s.i2cs := rfl
@[simp] theorem ledgerSet_gpio (r : Nat) (e : Option LedgerEntry) : (ledgerSet r e s).gpio = s.gpio := rfl
@[simp] theorem ledgerSet_dbg (r : Nat) (e : Option LedgerEntry) : (ledgerSet r e s).dbg = s.dbg := rfl
@[simp] theorem ledgerSet_upd (r : Nat) (e : Option LedgerEntry) : (ledgerSet r e s).upd = s.upd := rfl
@[simp] theorem ledgerSet_noise (r : Nat) (e : Option LedgerEntry) : (ledgerSet r e s).noise = s.noise := rfl
@[simp] theorem ledgerSet_freeCtr (r : Nat) (e : Option LedgerEntry) : (ledgerSet r e s).freeCtr = s.freeCtr := rfl

/-! ### destSet -/

@[simp] theorem destSet_pending (d : Nat) (v : Dest) : (destSet d v s).pending = s.pending := rfl
@[simp] theorem destSet_regs (d : Nat) (v : Dest) : (destSet d v s).regs = s.regs := rfl
@[simp] theorem destSet_mem (d : Nat) (v : Dest) : (destSet d v s).mem = s.mem := rfl
@[simp] theorem destSet_bus (d : Nat) (v : Dest) : (destSet d v s).bus = s.bus := rfl
@[simp] theorem destSet_plan (d : Nat) (v : Dest) : (destSet d v s).plan = s.plan := rfl
@[simp] theorem destSet_ph (d : Nat) (v : Dest) : (destSet d v s).ph = s.ph := rfl
@[simp] theorem destSet_feA (d : Nat) (v : Dest) : (destSet d v s).feA = s.feA := rfl
@[simp] theorem destSet_feB (d : Nat) (v : Dest) : (destSet d v s).feB = s.feB := rfl
@[simp] theorem destSet_lic (d : Nat) (v : Dest) : (destSet d v s).lic = s.lic := rfl
@[simp] theorem destSet_queues (d : Nat) (v : Dest) : (destSet d v s).queues = s.queues := rfl
@[simp] theorem destSet_chzA (d : Nat) (v : Dest) : (destSet d v s).chzA = s.chzA := rfl
@[simp] theorem destSet_chzB (d : Nat) (v : Dest) : (destSet d v s).chzB = s.chzB := rfl
@[simp] theorem destSet_lanes (d : Nat) (v : Dest) : (destSet d v s).lanes = s.lanes := rfl
@[simp] theorem destSet_verdicts (d : Nat) (v : Dest) : (destSet d v s).verdicts = s.verdicts := rfl
@[simp] theorem destSet_survey (d : Nat) (v : Dest) : (destSet d v s).survey = s.survey := rfl
@[simp] theorem destSet_fdxA (d : Nat) (v : Dest) : (destSet d v s).fdxA = s.fdxA := rfl
@[simp] theorem destSet_fdxB (d : Nat) (v : Dest) : (destSet d v s).fdxB = s.fdxB := rfl
@[simp] theorem destSet_pow (d : Nat) (v : Dest) : (destSet d v s).pow = s.pow := rfl
@[simp] theorem destSet_flash (d : Nat) (v : Dest) : (destSet d v s).flash = s.flash := rfl
@[simp] theorem destSet_cip (d : Nat) (v : Dest) : (destSet d v s).cip = s.cip := rfl
@[simp] theorem destSet_keys (d : Nat) (v : Dest) : (destSet d v s).keys = s.keys := rfl
@[simp] theorem destSet_link (d : Nat) (v : Dest) : (destSet d v s).link = s.link := rfl
@[simp] theorem destSet_knk (d : Nat) (v : Dest) : (destSet d v s).knk = s.knk := rfl
@[simp] theorem destSet_time (d : Nat) (v : Dest) : (destSet d v s).time = s.time := rfl
@[simp] theorem destSet_timers (d : Nat) (v : Dest) : (destSet d v s).timers = s.timers := rfl
@[simp] theorem destSet_cal (d : Nat) (v : Dest) : (destSet d v s).cal = s.cal := rfl
@[simp] theorem destSet_sup (d : Nat) (v : Dest) : (destSet d v s).sup = s.sup := rfl
@[simp] theorem destSet_host (d : Nat) (v : Dest) : (destSet d v s).host = s.host := rfl
@[simp] theorem destSet_uarts (d : Nat) (v : Dest) : (destSet d v s).uarts = s.uarts := rfl
@[simp] theorem destSet_i2cs (d : Nat) (v : Dest) : (destSet d v s).i2cs = s.i2cs := rfl
@[simp] theorem destSet_gpio (d : Nat) (v : Dest) : (destSet d v s).gpio = s.gpio := rfl
@[simp] theorem destSet_dbg (d : Nat) (v : Dest) : (destSet d v s).dbg = s.dbg := rfl
@[simp] theorem destSet_upd (d : Nat) (v : Dest) : (destSet d v s).upd = s.upd := rfl
@[simp] theorem destSet_noise (d : Nat) (v : Dest) : (destSet d v s).noise = s.noise := rfl
@[simp] theorem destSet_freeCtr (d : Nat) (v : Dest) : (destSet d v s).freeCtr = s.freeCtr := rfl

/-! ### drawFree -/

@[simp] theorem drawFree_pending : (drawFree s).pending = s.pending := rfl
@[simp] theorem drawFree_regs : (drawFree s).regs = s.regs := rfl
@[simp] theorem drawFree_mem : (drawFree s).mem = s.mem := rfl
@[simp] theorem drawFree_bus : (drawFree s).bus = s.bus := rfl
@[simp] theorem drawFree_rooms : (drawFree s).rooms = s.rooms := rfl
@[simp] theorem drawFree_plan : (drawFree s).plan = s.plan := rfl
@[simp] theorem drawFree_ph : (drawFree s).ph = s.ph := rfl
@[simp] theorem drawFree_feA : (drawFree s).feA = s.feA := rfl
@[simp] theorem drawFree_feB : (drawFree s).feB = s.feB := rfl
@[simp] theorem drawFree_lic : (drawFree s).lic = s.lic := rfl
@[simp] theorem drawFree_queues : (drawFree s).queues = s.queues := rfl
@[simp] theorem drawFree_chzA : (drawFree s).chzA = s.chzA := rfl
@[simp] theorem drawFree_chzB : (drawFree s).chzB = s.chzB := rfl
@[simp] theorem drawFree_lanes : (drawFree s).lanes = s.lanes := rfl
@[simp] theorem drawFree_verdicts : (drawFree s).verdicts = s.verdicts := rfl
@[simp] theorem drawFree_survey : (drawFree s).survey = s.survey := rfl
@[simp] theorem drawFree_fdxA : (drawFree s).fdxA = s.fdxA := rfl
@[simp] theorem drawFree_fdxB : (drawFree s).fdxB = s.fdxB := rfl
@[simp] theorem drawFree_pow : (drawFree s).pow = s.pow := rfl
@[simp] theorem drawFree_flash : (drawFree s).flash = s.flash := rfl
@[simp] theorem drawFree_cip : (drawFree s).cip = s.cip := rfl
@[simp] theorem drawFree_keys : (drawFree s).keys = s.keys := rfl
@[simp] theorem drawFree_link : (drawFree s).link = s.link := rfl
@[simp] theorem drawFree_knk : (drawFree s).knk = s.knk := rfl
@[simp] theorem drawFree_time : (drawFree s).time = s.time := rfl
@[simp] theorem drawFree_timers : (drawFree s).timers = s.timers := rfl
@[simp] theorem drawFree_cal : (drawFree s).cal = s.cal := rfl
@[simp] theorem drawFree_sup : (drawFree s).sup = s.sup := rfl
@[simp] theorem drawFree_host : (drawFree s).host = s.host := rfl
@[simp] theorem drawFree_uarts : (drawFree s).uarts = s.uarts := rfl
@[simp] theorem drawFree_i2cs : (drawFree s).i2cs = s.i2cs := rfl
@[simp] theorem drawFree_gpio : (drawFree s).gpio = s.gpio := rfl
@[simp] theorem drawFree_dbg : (drawFree s).dbg = s.dbg := rfl
@[simp] theorem drawFree_upd : (drawFree s).upd = s.upd := rfl
@[simp] theorem drawFree_noise : (drawFree s).noise = s.noise := rfl

/-! ### respond -/

@[simp] theorem respond_pending (w : Word64) : (respond w s).pending = s.pending := rfl
@[simp] theorem respond_regs (w : Word64) : (respond w s).regs = s.regs := rfl
@[simp] theorem respond_mem (w : Word64) : (respond w s).mem = s.mem := rfl
@[simp] theorem respond_rooms (w : Word64) : (respond w s).rooms = s.rooms := rfl
@[simp] theorem respond_plan (w : Word64) : (respond w s).plan = s.plan := rfl
@[simp] theorem respond_ph (w : Word64) : (respond w s).ph = s.ph := rfl
@[simp] theorem respond_feA (w : Word64) : (respond w s).feA = s.feA := rfl
@[simp] theorem respond_feB (w : Word64) : (respond w s).feB = s.feB := rfl
@[simp] theorem respond_lic (w : Word64) : (respond w s).lic = s.lic := rfl
@[simp] theorem respond_queues (w : Word64) : (respond w s).queues = s.queues := rfl
@[simp] theorem respond_chzA (w : Word64) : (respond w s).chzA = s.chzA := rfl
@[simp] theorem respond_chzB (w : Word64) : (respond w s).chzB = s.chzB := rfl
@[simp] theorem respond_lanes (w : Word64) : (respond w s).lanes = s.lanes := rfl
@[simp] theorem respond_verdicts (w : Word64) : (respond w s).verdicts = s.verdicts := rfl
@[simp] theorem respond_survey (w : Word64) : (respond w s).survey = s.survey := rfl
@[simp] theorem respond_fdxA (w : Word64) : (respond w s).fdxA = s.fdxA := rfl
@[simp] theorem respond_fdxB (w : Word64) : (respond w s).fdxB = s.fdxB := rfl
@[simp] theorem respond_pow (w : Word64) : (respond w s).pow = s.pow := rfl
@[simp] theorem respond_flash (w : Word64) : (respond w s).flash = s.flash := rfl
@[simp] theorem respond_cip (w : Word64) : (respond w s).cip = s.cip := rfl
@[simp] theorem respond_keys (w : Word64) : (respond w s).keys = s.keys := rfl
@[simp] theorem respond_link (w : Word64) : (respond w s).link = s.link := rfl
@[simp] theorem respond_knk (w : Word64) : (respond w s).knk = s.knk := rfl
@[simp] theorem respond_time (w : Word64) : (respond w s).time = s.time := rfl
@[simp] theorem respond_timers (w : Word64) : (respond w s).timers = s.timers := rfl
@[simp] theorem respond_cal (w : Word64) : (respond w s).cal = s.cal := rfl
@[simp] theorem respond_sup (w : Word64) : (respond w s).sup = s.sup := rfl
@[simp] theorem respond_host (w : Word64) : (respond w s).host = s.host := rfl
@[simp] theorem respond_uarts (w : Word64) : (respond w s).uarts = s.uarts := rfl
@[simp] theorem respond_i2cs (w : Word64) : (respond w s).i2cs = s.i2cs := rfl
@[simp] theorem respond_gpio (w : Word64) : (respond w s).gpio = s.gpio := rfl
@[simp] theorem respond_dbg (w : Word64) : (respond w s).dbg = s.dbg := rfl
@[simp] theorem respond_upd (w : Word64) : (respond w s).upd = s.upd := rfl
@[simp] theorem respond_noise (w : Word64) : (respond w s).noise = s.noise := rfl
@[simp] theorem respond_freeCtr (w : Word64) : (respond w s).freeCtr = s.freeCtr := rfl

/-! ### acknowledge -/

@[simp] theorem acknowledge_pending : (acknowledge s).pending = s.pending := rfl
@[simp] theorem acknowledge_regs : (acknowledge s).regs = s.regs := rfl
@[simp] theorem acknowledge_mem : (acknowledge s).mem = s.mem := rfl
@[simp] theorem acknowledge_rooms : (acknowledge s).rooms = s.rooms := rfl
@[simp] theorem acknowledge_plan : (acknowledge s).plan = s.plan := rfl
@[simp] theorem acknowledge_ph : (acknowledge s).ph = s.ph := rfl
@[simp] theorem acknowledge_feA : (acknowledge s).feA = s.feA := rfl
@[simp] theorem acknowledge_feB : (acknowledge s).feB = s.feB := rfl
@[simp] theorem acknowledge_lic : (acknowledge s).lic = s.lic := rfl
@[simp] theorem acknowledge_queues : (acknowledge s).queues = s.queues := rfl
@[simp] theorem acknowledge_chzA : (acknowledge s).chzA = s.chzA := rfl
@[simp] theorem acknowledge_chzB : (acknowledge s).chzB = s.chzB := rfl
@[simp] theorem acknowledge_lanes : (acknowledge s).lanes = s.lanes := rfl
@[simp] theorem acknowledge_verdicts : (acknowledge s).verdicts = s.verdicts := rfl
@[simp] theorem acknowledge_survey : (acknowledge s).survey = s.survey := rfl
@[simp] theorem acknowledge_fdxA : (acknowledge s).fdxA = s.fdxA := rfl
@[simp] theorem acknowledge_fdxB : (acknowledge s).fdxB = s.fdxB := rfl
@[simp] theorem acknowledge_pow : (acknowledge s).pow = s.pow := rfl
@[simp] theorem acknowledge_flash : (acknowledge s).flash = s.flash := rfl
@[simp] theorem acknowledge_cip : (acknowledge s).cip = s.cip := rfl
@[simp] theorem acknowledge_keys : (acknowledge s).keys = s.keys := rfl
@[simp] theorem acknowledge_link : (acknowledge s).link = s.link := rfl
@[simp] theorem acknowledge_knk : (acknowledge s).knk = s.knk := rfl
@[simp] theorem acknowledge_time : (acknowledge s).time = s.time := rfl
@[simp] theorem acknowledge_timers : (acknowledge s).timers = s.timers := rfl
@[simp] theorem acknowledge_cal : (acknowledge s).cal = s.cal := rfl
@[simp] theorem acknowledge_sup : (acknowledge s).sup = s.sup := rfl
@[simp] theorem acknowledge_host : (acknowledge s).host = s.host := rfl
@[simp] theorem acknowledge_uarts : (acknowledge s).uarts = s.uarts := rfl
@[simp] theorem acknowledge_i2cs : (acknowledge s).i2cs = s.i2cs := rfl
@[simp] theorem acknowledge_gpio : (acknowledge s).gpio = s.gpio := rfl
@[simp] theorem acknowledge_dbg : (acknowledge s).dbg = s.dbg := rfl
@[simp] theorem acknowledge_upd : (acknowledge s).upd = s.upd := rfl
@[simp] theorem acknowledge_noise : (acknowledge s).noise = s.noise := rfl
@[simp] theorem acknowledge_freeCtr : (acknowledge s).freeCtr = s.freeCtr := rfl

end Sys2Proof.Machine
end

