-- ==== Sys2Proof/Tests/Slice0.lean ====
section
/-!
SUPPORT. Tests: ill-formed commands are refused by `Instr.wf`, single steps give what the manual prints, and for each
obligation with hypotheses a theorem `test_hyps_…` whose conjuncts are states and operands that meet each group of
its hypotheses together.
-/

set_option maxRecDepth 100000
set_option Elab.async false

namespace Sys2Proof.Tests

open Sys2Proof.Machine

/-! ### Ill-formed commands -/

theorem test_wf_registerWrite : (Instr.registerWrite .steward (2 ^ 32) 0).wf = false := by decide

theorem test_wf_memoryAccess : (Instr.memoryAccess .steward (.load 0) (2 ^ 64) true .clean).wf = false := by decide

theorem test_wf_counterLowRead : (Instr.counterLowRead .steward (2 ^ 32) 0 0).wf = false := by decide

theorem test_wf_snapshotCapture : (Instr.snapshotCapture .steward (2 ^ 32)).wf = false := by decide

theorem test_wf_stagedLowWrite : (Instr.stagedLowWrite .steward (2 ^ 32) 0).wf = false := by decide

theorem test_wf_highHalfCommit : (Instr.highHalfCommit .steward (2 ^ 32) 0).wf = false := by decide

theorem test_wf_readToClear : (Instr.readToClear .steward (2 ^ 32)).wf = false := by decide

theorem test_wf_lanternWriteEffect : (Instr.lanternWriteEffect (2 ^ 32)).wf = false := by decide

theorem test_wf_laneVerdict (lane : BitVec 8) (now : Word64) :
    (Instr.laneVerdict lane (List.replicate 2048 0) true now).wf = false := by
  simp [Instr.wf]

theorem test_wf_surveyBlockEnd (block : BitVec 40) :
    (Instr.surveyBlockEnd .a block (List.replicate 1025 0)).wf = false := by
  simp [Instr.wf]

theorem test_wf_recoveryHeader : (Instr.recoveryHeader .host (List.replicate 255 0)).wf = false := by
  simp [Instr.wf]

theorem test_wf_recoveryData_none : (Instr.recoveryData .host 0 []).wf = false := by decide

theorem test_wf_recoveryData_long : (Instr.recoveryData .host 0 (List.replicate 1025 0)).wf = false := by
  simp [Instr.wf]

/-- Boundary values that are well formed. -/
theorem test_wf_accepts : (Instr.registerWrite .steward (2 ^ 32 - 1) 0).wf = true ∧
    (Instr.recoveryData .host 0 [0]).wf = true ∧ (Instr.laneVerdict 255 [] true 0).wf = true := by decide

/-! ### States the witnesses are made from -/

/-- The registers at the addresses hold the words. -/
def regs (l : List (Nat × Word)) (s : State) : State := l.foldl (fun t p => wr p.1 p.2 t) s

/-- The hall runs and every power domain is on. -/
def up : State :=
  regs [(0x400F0028, 0xFFFFFFFF#32), (0x400F002C, 0xFFFFFFFF#32), (0x400F0030, 0xFFFF#32)]
    { State.reset with pow := { State.reset.pow with hall := .run } }

/-- A ledger entry that grants every block, timers 3 to 19, eight lanes, eight receive queues, one flash and one SRAM
window. -/
def entry : LedgerEntry :=
  { timers := 0xFFFF8, blocks := 0x37FFFFF, lanes := 0xFF, rxq := 0xFF,
    windows := [⟨0x08400000, 0x100000, 7⟩, ⟨0x20000000, 0xC00000, 7⟩] }

/-- A lane of one bin. -/
def desc (n : Nat) : LaneDesc :=
  { fe := n % 2, binFirst := 8 * n, nBins := 1, phy := 3, opts := 0, domain := 1, firstTile := 32, nTiles := 1,
    codeTile := 0xFF, codeSlot := 0, nSlots := 0, queue := n % 2, fine := 0 }

/-- A small plan: rooms 0 and 1, three lanes, two receive rings and a transmit ring. -/
def house : State :=
  regs [(0x40040400, 0x88000000#32), (0x40040800, 0x88000100#32), (0x40040804, 0x88000200#32)]
    (ledgerSet 0 (some entry) (ledgerSet 1 (some { entry with timers := 3 })
      { up with plan := { up.plan with lanes := [(0, some (desc 0)), (1, some (desc 1)), (2, some (desc 2))] } }))

end Sys2Proof.Tests
end

section
/-!
SUPPORT. What a write and a read of register space do once the door admits them (R4, R6, R42, R59, R68–R71, R73): one
lemma per operation of the write path and of the read path, which the statements of this family are assembled from.
-/

namespace Sys2Proof.Machine

/-! ### The address map -/

/-- A peripheral block's place and offset give back the address. -/
theorem targetOf_block {a b off : Nat} (h : targetOf a = some (.block b off)) :
    a = 0x40000000 + 0x10000 * b + off ∧ off < 0x10000 := by
  simp only [targetOf, ite_eq_iff, Option.some.injEq, Target.block.injEq, reduceCtorEq, and_false, false_or,
    or_false] at h
  omega

/-- A peripheral block is register space. -/
theorem registerAt_block {a b off : Nat} (h : targetOf a = some (.block b off)) : registerAt a = true := by
  simp [registerAt, h, Target.isRegister]

/-- A lantern block is register space. -/
theorem registerAt_lantern {a b off : Nat} (h : targetOf a = some (.lantern b off)) : registerAt a = true := by
  simp [registerAt, h, Target.isRegister]

/-- QUE control, and the register before it, stage no low half. -/
theorem isStagedLow_nearQueControl {x : Nat} (hlo : 0x4003FFFC ≤ x) (hhi : x < 0x40050000) :
    isStagedLow x = false := by
  simp only [isStagedLow, Bool.or_eq_false_iff, Bool.and_eq_false_iff, beq_eq_false_iff_ne, decide_eq_false_iff_not]
  omega

/-! ### Admitted transactions -/

/-- An admitted store of register space. -/
theorem busStore_admits {i : Init} {a : Nat} {data : Word} {s : State} (hr : registerAt a = true)
    (h : Admits i a .store s) : busStore i a data s = regStore i a data s := by
  rw [busStore, if_pos hr, doorAccess_admitted h.1 h.2]

/-- An admitted load of register space. -/
theorem busLoad_admits {i : Init} {a : Nat} {f : State → Word × State} {s : State} (hr : registerAt a = true)
    (h : Admits i a .load s) : busLoad i a f s = respondWord (f s).1 (f s).2 := by
  rw [busLoad, if_pos hr, doorLoad_admits h]

/-! ### Writes -/

/-- The value a register of row `r` holds after a write of `data`, by the access codes of R4. -/
def accessCodes (r : RegRow) (data old : Word) : Word :=
  ((old &&& ~~~ BitVec.ofNat 32 r.rw) ||| (data &&& BitVec.ofNat 32 r.rw)) &&& ~~~ (data &&& BitVec.ofNat 32 r.w1c) |||
    (data &&& BitVec.ofNat 32 r.w1s)

theorem plainStore_register {a k : Nat} {r : RegRow} (h : rowAt a = some (r, k)) (data : Word) (s : State) :
    plainStore a data s = wr a (accessCodes r data (rd a s)) s := by
  simp only [plainStore, h, accessCodes]

theorem plainStore_noRegister {a : Nat} (h : rowAt a = none) (data : Word) (s : State) : plainStore a data s = s := by
  simp only [plainStore, h]

/-- One bit of a written register: W1S before W1C before RW, and the old bit elsewhere. -/
theorem accessCodes_getLsbD (r : RegRow) (data old : Word) {j : Nat} (hj : j < 32) :
    (accessCodes r data old).getLsbD j =
      if (r.w1s.testBit j && data.getLsbD j) = true then true
      else if (r.w1c.testBit j && data.getLsbD j) = true then false
      else if r.rw.testBit j = true then data.getLsbD j else old.getLsbD j := by
  simp only [accessCodes, BitVec.getLsbD_or, BitVec.getLsbD_and, BitVec.getLsbD_not, BitVec.getLsbD_ofNat, hj,
    decide_true, Bool.true_and, Bool.and_comm (data.getLsbD j)]
  split_ifs with hset hclear hrw
  · simp [hset]
  · simp [hset, hclear]
  · simp [hset, hclear, hrw]
  · simp [hset, hclear, hrw]

/-- A write outside the lantern domain is acknowledged with its effect. -/
theorem regStore_block {i : Init} {a b off : Nat} {data : Word} {s : State} (h : targetOf a = some (.block b off)) :
    regStore i a data s = acknowledge (targetStore i a data s) := by
  simp only [regStore, h]

/-- A write of a lantern register goes to its holding register. -/
theorem regStore_lantern {i : Init} {a b off : Nat} {data : Word} {s : State}
    (h : targetOf a = some (.lantern b off)) : regStore i a data s = lanternStore i a data s := by
  simp only [regStore, h]

theorem lanternStore_empty {i : Init} {a : Nat} {data : Word} {s : State} (h : heldGet a s = none) :
    lanternStore i a data s = acknowledge (heldPut a (some (i.num, data)) s) := by
  simp only [lanternStore, h]

theorem lanternStore_full {i : Init} {a : Nat} {data : Word} {s : State} {w : Nat × Word} (h : heldGet a s = some w) :
    lanternStore i a data s = stall s := by
  simp only [lanternStore, h]

theorem lanternTake_held {i : Init} {a : Nat} {data : Word} {s : State} (h : heldGet a s = some (i.num, data)) :
    lanternTake a s = lanternEffect i a data (heldPut a none s) := by
  simp only [lanternTake, h, initAt_num]

theorem lanternTake_empty {a : Nat} {s : State} (h : heldGet a s = none) : lanternTake a s = s := by
  simp only [lanternTake, h]

/-- A write of the low half of a staged pair (R71). -/
theorem targetStore_stagedLow {a : Nat} (h : isStagedLow a = true) (i : Init) (data : Word) (s : State) :
    targetStore i a data s = stagedPut i a data s := by
  rw [targetStore, if_pos h]

/-- A write of the high half of a staged pair (R71). -/
theorem targetStore_stagedHigh {a : Nat} (hl : isStagedLow a = false) (ha : 4 ≤ a) (hh : isStagedLow (a - 4) = true)
    (i : Init) (data : Word) (s : State) : targetStore i a data s = highCommit i a data s := by
  rw [targetStore, hl, if_neg Bool.false_ne_true, if_pos ⟨ha, hh⟩]

/-- A write of a block's register that is no half of a staged pair; it draws the free value its rule may use. -/
theorem targetStore_block {a b off : Nat} (h : targetOf a = some (.block b off)) (hl : isStagedLow a = false)
    (hh : isStagedLow (a - 4) = false) (i : Init) (data : Word) (s : State) :
    targetStore i a data s = blockStore i b off data (freeNat s) (drawFree s) := by
  simp only [targetStore, hl, hh, h, Bool.false_eq_true, and_false, if_false]

/-- QUE control: every register but QC_FLUSH takes the access codes. -/
theorem targetStore_queControl {a off : Nat} (h : targetOf a = some (.block 4 off)) (hoff : off ≠ 8) (i : Init)
    (data : Word) (s : State) : targetStore i a data s = plainStore a data (drawFree s) := by
  obtain ⟨ha, hlt⟩ := targetOf_block h
  have hl : isStagedLow a = false := isStagedLow_nearQueControl (by omega) (by omega)
  have hh : isStagedLow (a - 4) = false := isStagedLow_nearQueControl (by omega) (by omega)
  rw [targetStore_block h hl hh, ha]
  exact if_neg hoff

/-- LINK_EXT: the high half commits both halves, and the staging register is left at 0. -/
theorem highCommit_linkExt (i : Init) (data : Word) (s : State) :
    highCommit i 0x4003000C data s =
      wr64 0x40030008 (Word64.ofHalves (stagedGet i 0x40030008 s) data) (stagedPut i 0x40030008 0 s) := rfl

/-! ### 64-bit quantities (R3) -/

theorem Word64.ofHalves_low_high (v : Word64) : Word64.ofHalves v.low v.high = v := by
  apply BitVec.eq_of_getLsbD_eq
  intro j hj
  simp only [Word64.ofHalves, Word64.low, Word64.high, BitVec.getLsbD_append, BitVec.getLsbD_setWidth,
    BitVec.getLsbD_ushiftRight]
  by_cases h : j < 32
  · simp [h]
  · have : j - 32 < 32 := by omega
    simp [h, this, show 32 + (j - 32) = j by omega]

/-- A 64-bit quantity read back after it is written. -/
theorem rd64_wr64_self {s : State} (h : Registers.wf s = true) (a : Nat) (v : Word64) : rd64 a (wr64 a v s) = v := by
  have hlow : rd a (wr64 a v s) = v.low := by
    rw [wr64, rd_wr_ne (Registers.wf_wr h _ _) _ (by omega), rd_wr_self h]
  have hhigh : rd (a + 4) (wr64 a v s) = v.high := rd_wr_self (Registers.wf_wr h _ _) _ _
  rw [rd64, hlow, hhigh, Word64.ofHalves_low_high]

/-! ### Reads -/

/-- A captured register outside the common cipher context returns its capture (R68). -/
theorem regLoad_captured {i : Init} {a : Nat} {v : Word} {s : State} (h : captureGet i a s = some v)
    (ha : a / 0x1000 ≠ 0x60040) (live air : Word64) : regLoad i a live air s = (v, s) := by
  simp only [regLoad, h, ha, false_and, if_false]

/-- A register that leads no snapshot group and has no open bits. -/
theorem regLoad_alone {i : Init} {a : Nat} {s : State} (hc : captureGet i a s = none) (hl : snapLed a = none)
    (ho : openBits a s = 0) (live air : Word64) : regLoad i a live air s = regTake i a live air s := by
  simp only [regLoad, hc, hl, ho, if_true]

/-- The lowest register of a snapshot group other than the supply watch's, whose pop captures by itself (R624): the
read captures the others first. -/
theorem regLoad_leader {i : Init} {a : Nat} {l : List Nat} {s : State} (hc : captureGet i a s = none)
    (hl : snapLed a = some l) (ha : a ≠ 0x40100010) (live air : Word64) :
    regLoad i a live air s =
      ((regTake i a live air (snapCapture i l s)).1, drawFree (regTake i a live air (snapCapture i l s)).2) := by
  simp only [regLoad, hc, hl, ha, if_false]

/-- A read of a counter's low half. -/
theorem regTake_counter {i : Init} {a : Nat} {s : State} (hs : specialTake i a s = none) (hc : isCounter a = true)
    (live air : Word64) : regTake i a live air s = counterTake i a live air s := by
  simp only [regTake, hs, hc, if_true]

/-- A read of a register that is neither a counter nor read with an effect of its own. -/
theorem regTake_register {i : Init} {a : Nat} {s : State} (hs : specialTake i a s = none) (hc : isCounter a = false)
    (hl : isLive a s = false) (live air : Word64) : regTake i a live air s = (regView i a s, readClear a s) := by
  simp only [regTake, hs, hc, hl, Bool.false_eq_true, if_false]

/-- A register without open bits shows its shown value. -/
theorem regView_closed {i : Init} {a : Nat} {s : State} (h : openBits a s = 0) : regView i a s = shownView i a s := by
  have hm : ~~~(0 : Word) = BitVec.allOnes 32 := rfl
  rw [regView, h, hm, BitVec.and_allOnes]
  simp

/-- A register whose row has no write-only bit shows what it holds. -/
theorem plainView_readable {a : Nat} (h : (rowAt a).map (fun p => p.1.wo) = some 0) (s : State) :
    plainView a s = rd a s := by
  obtain ⟨⟨r, k⟩, hr, hwo⟩ := Option.map_eq_some_iff.1 h
  simp only at hwo
  simp only [plainView, hr, hwo]
  exact BitVec.and_allOnes

/-- A register of the LEDG block below the room states shows what it holds when its row has no write-only bit: it has
no open bit and no view of its own (R460). -/
theorem regView_ledger {i : Init} {a off : Nat} (h : targetOf a = some (.block 7 off)) (hoff : off < 0xC00)
    (hwo : (rowAt a).map (fun p => p.1.wo) = some 0) (s : State) : regView i a s = rd a s := by
  obtain ⟨ha, -⟩ := targetOf_block h
  have hopen : openBits a s = 0 := by
    rw [openBits, if_neg (by omega), if_neg (by omega), if_neg (by omega), if_neg (by omega)]
  have hledg : shownView i a s = ledgView off s := by simp only [shownView, h]; rfl
  have hplain : ledgView off s = plainView a s := by
    rw [ledgView, if_neg (by omega), if_neg (by omega), ha]
    rfl
  rw [regView_closed hopen, hledg, hplain, plainView_readable hwo]

/-- A read clears nothing where no bit is read-to-clear. -/
theorem readClear_none {a : Nat} (h : readClears a = 0) (s : State) : readClear a s = s := by
  rw [readClear, if_pos h]

/-- A read of a register whose bits are all read-to-clear leaves 0 (R73). -/
theorem readClear_all {a : Nat} (h : readClears a = 0xFFFFFFFF) (s : State) : readClear a s = wr a 0 s := by
  have hm : rd a s &&& ~~~ readClears a = 0 := by rw [h]; exact BitVec.and_zero
  rw [readClear, if_neg (by rw [h]; decide), hm]

/-- A capture just made is what its reader holds. -/
theorem captureGet_capturePut (i : Init) (a : Nat) (v : Word) (s : State) :
    captureGet i a (capturePut i a v s) = some v := by
  simp only [captureGet, capturePut, tset, reduceCtorEq, if_false]
  rw [tget_tput, if_pos rfl]

/-! ### The commands of register space -/

/-- COUNTER_LOW_READ of TIME_AIR or TIME_NT, the counters of TIME that always run. -/
theorem exec_counterLowRead_time {i : Init} {a : Nat} {s : State} (ha : a = 0x40050010 ∨ a = 0x40050020)
    (h : Admits i a .load s) (hc : captureGet i a s = none) (live air : Word64) :
    exec (.counterLowRead i a live air) s =
      .next (respondWord (counterTake i a live air s).1 (counterTake i a live air s).2) := by
  have hload : regLoad i a live air s = counterTake i a live air s := by
    obtain rfl | rfl := ha
    · exact (regLoad_alone hc (by decide) rfl live air).trans (regTake_counter rfl (by decide) live air)
    · exact (regLoad_alone hc (by decide) rfl live air).trans (regTake_counter rfl (by decide) live air)
  have hr : registerAt a = true := by obtain rfl | rfl := ha <;> decide
  show Host.Outcome.next (busLoad i a (regLoad i a live air) s) = _
  rw [busLoad_admits hr h, hload]

/-- A read of LEDG_REFUSE_ST has no effect of its own. -/
theorem regTake_refuseSt (i : Init) (live air : Word64) (s : State) :
    regTake i 0x4007000C live air s = (rd 0x4007000C s, s) := by
  rw [regTake_register rfl (by decide) rfl, regView_ledger (off := 0xC) (by decide) (by decide) (by decide),
    readClear_none (by decide)]

/-- SNAPSHOT_CAPTURE of LEDG_REFUSE_ST: the address of the refusal is captured, and no register changes. -/
theorem regLoadFree_refuseSt {i : Init} {s : State} (hc : captureGet i 0x4007000C s = none) :
    ∃ t, regLoadFree i 0x4007000C s = (rd 0x4007000C s, t) ∧ t.regs = s.regs ∧
      t.bus = (capturePut i 0x40070010 (rd 0x40070010 s) s).bus := by
  have hfree : captureGet i 0x4007000C (drawFree (drawFree s)) = none := hc
  have hcap : captureView i 0x40070010 (drawFree (drawFree s)) = rd 0x40070010 s :=
    regView_ledger (off := 0x10) (by decide) (by decide) (by decide) _
  refine ⟨drawFree (snapCapture i [0x40070010] (drawFree (drawFree s))), ?_, rfl, ?_⟩
  · rw [regLoadFree, regLoad_leader hfree (l := [0x40070010]) (by decide) (by decide), regTake_refuseSt]
    rfl
  · show (capturePut i 0x40070010 (captureView i 0x40070010 (drawFree (drawFree s))) s).bus = _
    rw [hcap]

/-- READ_TO_CLEAR of LEDG_REFUSE_CNT returns the count and leaves it at 0. -/
theorem regLoadFree_refuseCnt {i : Init} {s : State} (hc : captureGet i 0x40070014 s = none) :
    regLoadFree i 0x40070014 s = (rd 0x40070014 s, wr 0x40070014 0 (drawFree (drawFree s))) := by
  have hfree : captureGet i 0x40070014 (drawFree (drawFree s)) = none := hc
  have hview : regView i 0x40070014 (drawFree (drawFree s)) = rd 0x40070014 s :=
    regView_ledger (off := 0x14) (by decide) (by decide) (by decide) _
  rw [regLoadFree, regLoad_alone hfree (by decide) rfl, regTake_register rfl (by decide) rfl, hview,
    readClear_all (by decide)]

/-! ### The access codes and REGISTER_WRITE -/

/-- The access codes at one register: every bit by its code, and every other register as it was. -/
theorem plainStore_accessCodes {a k : Nat} {r : RegRow} {s : State} (h : rowAt a = some (r, k))
    (hw : Registers.wf s = true) (data : Word) :
    (∀ j < 32, (rd a (plainStore a data s)).getLsbD j =
      if (r.w1s.testBit j && data.getLsbD j) = true then true
      else if (r.w1c.testBit j && data.getLsbD j) = true then false
      else if r.rw.testBit j = true then data.getLsbD j else (rd a s).getLsbD j) ∧
    ∀ b, b ≠ a → rd b (plainStore a data s) = rd b s := by
  rw [plainStore_register h]
  refine ⟨fun j hj => ?_, fun b hb => rd_wr_ne hw _ hb⟩
  rw [rd_wr_self hw, accessCodes_getLsbD r data _ hj]

/-- Settles O7: the access codes bit by bit, then REGISTER_WRITE by its path through the door (R4, R42, R59). -/
theorem registerSpace : Obligations.RegisterSpace := by
  refine ⟨⟨fun a data s r k h hw => plainStore_accessCodes h hw data, fun a data s h => plainStore_noRegister h data s⟩,
    ?_, ?_, ?_, ?_, ?_⟩
  · intro i a off data s ht hoff h
    show Host.Outcome.next (busStore i a data s) = _
    rw [busStore_admits (registerAt_block ht) h, regStore_block ht, targetStore_queControl ht hoff]
  · intro i a b off data s ht h hheld
    show Host.Outcome.next (busStore i a data s) = _
    rw [busStore_admits (registerAt_lantern ht) h, regStore_lantern ht, lanternStore_empty hheld]
  · intro i a b off data s w ht h hheld
    show Host.Outcome.next (busStore i a data s) = .next (stall s)
    rw [busStore_admits (registerAt_lantern ht) h, regStore_lantern ht, lanternStore_full hheld]
  · intro a i data s hheld
    exact congrArg Host.Outcome.next (lanternTake_held hheld)
  · intro a s hheld
    exact congrArg Host.Outcome.next (lanternTake_empty hheld)

/-! ### Pairs, counters, snapshot groups and read-to-clear fields -/

/-- STAGED_LOW_WRITE of any staged pair of a peripheral block (R71). -/
theorem exec_stagedLowWrite {i : Init} {a b off : Nat} {s : State} (ht : targetOf a = some (.block b off))
    (hl : isStagedLow a = true) (h : Admits i a .store s) (data : Word) :
    exec (.stagedLowWrite i a data) s = .next (acknowledge (stagedPut i a data s)) := by
  show Host.Outcome.next (busStore i a data s) = _
  rw [busStore_admits (registerAt_block ht) h, regStore_block ht, targetStore_stagedLow hl]

/-- HIGH_HALF_COMMIT of LINK_EXT (R71). -/
theorem exec_highHalfCommit_linkExt {i : Init} {s : State} (h : Admits i 0x4003000C .store s) (data : Word) :
    exec (.highHalfCommit i 0x4003000C data) s =
      .next (acknowledge (wr64 0x40030008 (Word64.ofHalves (stagedGet i 0x40030008 s) data)
        (stagedPut i 0x40030008 0 s))) := by
  have ht : targetOf 0x4003000C = some (.block 3 0xC) := by decide
  show Host.Outcome.next (busStore i 0x4003000C data s) = _
  rw [busStore_admits (registerAt_block ht) h, regStore_block ht,
    targetStore_stagedHigh (by decide) (by decide) (by decide), highCommit_linkExt]

/-- SNAPSHOT_CAPTURE of the refusal record (R68). -/
theorem exec_snapshotCapture_refuseSt {i : Init} {s : State} (h : Admits i 0x4007000C .load s)
    (hc : captureGet i 0x4007000C s = none) :
    ∃ t, exec (.snapshotCapture i 0x4007000C) s = .next (respondWord (rd 0x4007000C s) t) ∧
      t.regs = s.regs ∧ t.bus = (capturePut i 0x40070010 (rd 0x40070010 s) s).bus := by
  obtain ⟨t, hload, hregs, hbus⟩ := regLoadFree_refuseSt hc
  refine ⟨t, ?_, hregs, hbus⟩
  show Host.Outcome.next (busLoad i 0x4007000C (regLoadFree i 0x4007000C) s) = _
  rw [busLoad_admits (by decide) h, hload]

/-- READ_TO_CLEAR of the count of refusals (R73). -/
theorem exec_readToClear_refuseCnt {i : Init} {s : State} (h : Admits i 0x40070014 .load s)
    (hc : captureGet i 0x40070014 s = none) (hw : Registers.wf s = true) :
    ∃ t, exec (.readToClear i 0x40070014) s = .next (respondWord (rd 0x40070014 s) t) ∧ rd 0x40070014 t = 0 ∧
      ∀ a, a ≠ 0x40070014 → rd a t = rd a s := by
  refine ⟨wr 0x40070014 0 (drawFree (drawFree s)), ?_, rd_wr_self hw _ _, fun a ha => rd_wr_ne hw _ ha⟩
  show Host.Outcome.next (busLoad i 0x40070014 (regLoadFree i 0x40070014) s) = _
  rw [busLoad_admits (by decide) h, regLoadFree_refuseCnt hc]

/-- Settles O8: each form of a read or write that latches, by the lemma of its command. -/
theorem pairedAndCapturedReads : Obligations.PairedAndCapturedReads := by
  refine ⟨⟨?_, ?_, ?_⟩, ⟨?_, ?_, ?_⟩, ⟨?_, ?_, ?_⟩, ?_⟩
  · exact fun i a b off data s ht hl h => exec_stagedLowWrite ht hl h data
  · exact fun i data s h => exec_highHalfCommit_linkExt h data
  · exact fun v a s hw => rd64_wr64_self hw a v
  · exact fun i live air s h hc => exec_counterLowRead_time (.inr rfl) h hc live air
  · exact fun i live air s h hc => exec_counterLowRead_time (.inl rfl) h hc live air
  · exact fun i s => rfl
  · exact fun i s h hc => exec_snapshotCapture_refuseSt h hc
  · exact fun i a v s hc ha live air => regLoad_captured hc ha live air
  · exact fun i a v s => captureGet_capturePut i a v s
  · exact fun i s h hc hw => exec_readToClear_refuseCnt h hc hw

end Sys2Proof.Machine

/-! ### States and operands that meet the hypotheses -/

namespace Sys2Proof.Tests

open Sys2Proof.Machine

set_option maxRecDepth 100000

/-- Every domain of PWR_DOM0 and PWR_DOM1 is on, and room 0 holds every block. -/
def roomZeroOpen : State :=
  wr 0x400F0028 0xFFFFFFFF (wr 0x400F002C 0xFFFFFFFF
    (ledgerSet 0 (some { timers := 0, blocks := 0x37FFFFF, lanes := 0, rxq := 0, windows := [] }) State.reset))

/-- WDOG_CFG and a place that holds none, an admitted write of QC_ECC, and one of CAL_CMD with its holding
register empty and full. -/
theorem test_hyps_registerSpace :
    ((rowAt 0x40074004).isSome = true ∧ (rowAt 0x4004000C).isNone = true ∧ Registers.wf roomZeroOpen = true) ∧
    (targetOf 0x40040000 = some (.block 4 0) ∧ Admits .steward 0x40040000 .store roomZeroOpen) ∧
    (targetOf 0x70000020 = some (.lantern 0 0x20) ∧ Admits .steward 0x70000020 .store roomZeroOpen ∧
      heldGet 0x70000020 roomZeroOpen = none) ∧
    (Admits .steward 0x70000020 .store (heldPut 0x70000020 (some (0, 5)) roomZeroOpen) ∧
      heldGet 0x70000020 (heldPut 0x70000020 (some (0, 5)) roomZeroOpen) = some (Init.steward.num, 5)) := by decide

/-- An admitted write of each half of LINK_EXT, and an admitted read of each register named with nothing captured. -/
theorem test_hyps_pairedAndCapturedReads :
    (targetOf 0x40030008 = some (.block 3 8) ∧ isStagedLow 0x40030008 = true ∧
      Admits .steward 0x40030008 .store roomZeroOpen ∧ Admits .steward 0x4003000C .store roomZeroOpen) ∧
    (∀ a ∈ [0x40050020, 0x40050010, 0x4007000C, 0x40070014],
      Admits .steward a .load roomZeroOpen ∧ captureGet .steward a roomZeroOpen = none) ∧
    captureGet .steward 0x40070010 (capturePut .steward 0x40070010 1 roomZeroOpen) = some 1 ∧
    Registers.wf roomZeroOpen = true := by decide

end Sys2Proof.Tests
end

section
/-!
SUPPORT. The frame over the memories, by what each command's meaning keeps, and what a refused transaction does (R33,
R447, R448): the record of a refusal, and the one door access that a command with a port is.
-/

namespace Sys2Proof.Machine

open Reg

/-! ### What every command keeps -/

/-- Every command keeps the queue and the canonical forms, and one outside `mayStore` the memories too: each by the
lemma of its meaning. -/
theorem exec_keeps (s : State) : ∀ c : Instr, KeepsOut (!c.mayStore) s (exec c s)
  | .registerWrite who addr data => execRegisterWrite_keeps .rfl who addr data
  | .memoryAccess who op addr parityOk ecc => execMemoryAccess_keeps .rfl who op addr parityOk ecc
  | .counterLowRead who addr live air => execCounterLowRead_keeps .rfl who addr live air
  | .snapshotCapture who addr => execSnapshotCapture_keeps .rfl who addr
  | .stagedLowWrite who addr data => execStagedLowWrite_keeps .rfl who addr data
  | .highHalfCommit who addr data => execHighHalfCommit_keeps .rfl who addr data
  | .readToClear who addr => execReadToClear_keeps .rfl who addr
  | .lanternWriteEffect addr => execLanternWriteEffect_keeps .rfl addr
  | .eventSourceRaise event => execEventSourceRaise_keeps .rfl event
  | .interruptTaken core => execInterruptTaken_keeps .rfl core
  | .evtClaim who => execEvtClaim_keeps .rfl who
  | .evtDone who data => execEvtDone_keeps .rfl who data
  | .feCmdTarget who fe data temp => execFeCmdTarget_keeps .rfl who fe data temp
  | .feCmdCal who fe => execFeCmdCal_keeps .rfl who fe
  | .feCtrlWrite who fe data => execFeCtrlWrite_keeps .rfl who fe data
  | .feCentreWrite who fe data => execFeCentreWrite_keeps .rfl who fe data
  | .feTransitionDone fe temp rxt0 => execFeTransitionDone_keeps .rfl fe temp rxt0
  | .calibrationSetEnd fe temp fail band irr dc lol bw =>
    execCalibrationSetEnd_keeps .rfl fe temp fail band irr dc lol bw
  | .feLockLost fe => execFeLockLost_keeps .rfl fe
  | .feLockFail fe => execFeLockFail_keeps .rfl fe
  | .feXrefFail => execFeXrefFail_keeps .rfl
  | .dieTempSample fe temp => execDieTempSample_keeps .rfl fe temp
  | .feTuneWrite who fe data => execFeTuneWrite_keeps .rfl who fe data
  | .feMismatchMeasure fe mag phase fwd strong => execFeMismatchMeasure_keeps .rfl fe mag phase fwd strong
  | .radioReclaim who => execRadioReclaim_keeps .rfl who
  | .licTableWrite who offset data => execLicTableWrite_keeps .rfl who offset data
  | .licCheck who key => execLicCheck_keeps .rfl who key
  | .licBurn who key check => execLicBurn_keeps .rfl who key check
  | .licBurnDone readBack => execLicBurnDone_keeps .rfl readBack
  | .binSampleWrite lane index fill peakQ edQ => execBinSampleWrite_keeps .rfl lane index fill peakQ edQ
  | .gainEvaluation fe m peakQ meanQ => execGainEvaluation_keeps .rfl fe m peakQ meanQ
  | .gainChange fe => execGainChange_keeps .rfl fe
  | .chzCtrlWrite who fe data period => execChzCtrlWrite_keeps .rfl who fe data period
  | .overloadDetect fe start => execOverloadDetect_keeps .rfl fe start
  | .overloadDrop fe period => execOverloadDrop_keeps .rfl fe period
  | .overloadEpisodeEnd fe period => execOverloadEpisodeEnd_keeps .rfl fe period
  | .ovlHoldEnd fe period => execOvlHoldEnd_keeps .rfl fe period
  | .fabActivate who key slot => execFabActivate_keeps .rfl who key slot
  | .fabCheck who key slot => execFabCheck_keeps .rfl who key slot
  | .fabReload who key domain => execFabReload_keeps .rfl who key domain
  | .planCheckDone => execPlanCheckDone_keeps .rfl
  | .planSwitch => execPlanSwitch_keeps .rfl
  | .domainLoadDone => execDomainLoadDone_keeps .rfl
  | .scrubTileRead upset => execScrubTileRead_keeps .rfl upset
  | .laneStart who lane key => execLaneStart_keeps .rfl who lane key
  | .laneStop who lane key => execLaneStop_keeps .rfl who lane key
  | .laneTuneGo who lane data => execLaneTuneGo_keeps .rfl who lane data
  | .laneTuneApply lane index => execLaneTuneApply_keeps .rfl lane index
  | .laneMove who lane key dest => execLaneMove_keeps .rfl who lane key dest
  | .laneMoveEffective lane => execLaneMoveEffective_keeps .rfl lane
  | .laneDrainRelease lane index => execLaneDrainRelease_keeps .rfl lane index
  | .preambleDetection lane index => execPreambleDetection_keeps .rfl lane index
  | .sfdFound lane index frac coded mseQ => execSfdFound_keeps .rfl lane index frac coded mseQ
  | .sfdTimeout lane => execSfdTimeout_keeps .rfl lane
  | .phrDecoded lane index len fcs2 mcs hcsOk => execPhrDecoded_keeps .rfl lane index len fcs2 mcs hcsOk
  | .modeSwitchPpdu lane phy hQ => execModeSwitchPpdu_keeps .rfl lane phy hQ
  | .frameEnd lane index fcsOk sat qual => execFrameEnd_keeps .rfl lane index fcsOk sat qual
  | .laneTimeout lane => execLaneTimeout_keeps .rfl lane
  | .resyncCollision lane index => execResyncCollision_keeps .rfl lane index
  | .laneVerdict lane octets intact now => execLaneVerdict_keeps .rfl lane octets intact now
  | .surveyBlockEnd fe block means => execSurveyBlockEnd_keeps .rfl fe block means
  | .cancellerTrainingEnd fe deep => execCancellerTrainingEnd_keeps .rfl fe deep
  | .fdxMeasurement fe iso cancel => execFdxMeasurement_keeps .rfl fe iso cancel
  | .gainCapReturn fe period => execGainCapReturn_keeps .rfl fe period
  | .jobPost who room data now => execJobPost_keeps .rfl who room data now
  | .jobCancel who room key slot => execJobCancel_keeps .rfl who room key slot
  | .jobPreparation room slot agrees => execJobPreparation_keeps .rfl room slot agrees
  | .jobFillTick room slot => execJobFillTick_keeps .rfl room slot
  | .ccaDecision fe found => execCcaDecision_keeps .rfl fe found
  | .txTransitionStart who tick temp vpa => execTxTransitionStart_keeps .rfl who tick temp vpa
  | .txRampUp fe tick fill => execTxRampUp_keeps .rfl fe tick fill
  | .underrun fe => execUnderrun_keeps .rfl fe
  | .txFrameEnd fe tick radiated temp => execTxFrameEnd_keeps .rfl fe tick radiated temp
  | .noAck room slot => execNoAck_keeps .rfl room slot
  | .rxWinClose room slot => execRxWinClose_keeps .rfl room slot
  | .ackCut fe late => execAckCut_keeps .rfl fe late
  | .ackTransmit fe => execAckTransmit_keeps .rfl fe
  | .lastGaspStore slot agrees => execLastGaspStore_keeps .rfl slot agrees
  | .dutyBucketAdvance group => execDutyBucketAdvance_keeps .rfl group
  | .nbrInsert who index => execNbrInsert_keeps .rfl who index
  | .nbrDelete who index => execNbrDelete_keeps .rfl who index
  | .nbrRead who index => execNbrRead_keeps .rfl who index
  | .nbrLookup who index => execNbrLookup_keeps .rfl who index
  | .queuePop who queue ecc => execQueuePop_keeps .rfl who queue ecc
  | .queuePush who queue data => execQueuePush_keeps .rfl who queue data
  | .queueDrop who queue key => execQueueDrop_keeps .rfl who queue key
  | .queueFlush who queue key => execQueueFlush_keeps .rfl who queue key
  | .qcFlush who key queue => execQcFlush_keeps .rfl who key queue
  | .knkEnWrite who data => execKnkEnWrite_keeps .rfl who data
  | .knkConfigWrite who isWord data => execKnkConfigWrite_keeps .rfl who isWord data
  | .knkListenStart => execKnkListenStart_keeps .rfl
  | .knkPreambleDetect => execKnkPreambleDetect_keeps .rfl
  | .knkWordMatch => execKnkWordMatch_keeps .rfl
  | .knkWordTimeout => execKnkWordTimeout_keeps .rfl
  | .knkEndOfPattern target crc level now => execKnkEndOfPattern_keeps .rfl target crc level now
  | .ppsInEdge edge nt => execPpsInEdge_keeps .rfl edge nt
  | .ppsLost => execPpsLost_keeps .rfl
  | .timeMeas who data now => execTimeMeas_keeps .rfl who data now
  | .timeSet who data now => execTimeSet_keeps .rfl who data now
  | .meshLost => execMeshLost_keeps .rfl
  | .timeSec sec tick f10 => execTimeSec_keeps .rfl sec tick f10
  | .ppsPulseEnd => execPpsPulseEnd_keeps .rfl
  | .refEstimateUpdate n mean => execRefEstimateUpdate_keeps .rfl n mean
  | .imArm who data now => execImArm_keeps .rfl who data now
  | .imCancel who data now => execImCancel_keeps .rfl who data now
  | .imEdge src falling at_ => execImEdge_keeps .rfl src falling at_
  | .imWindowExpire => execImWindowExpire_keeps .rfl
  | .timerEnable who timer data count => execTimerEnable_keeps .rfl who timer data count
  | .timerZero who timer key => execTimerZero_keeps .rfl who timer key
  | .timerCmpCommit who timer data => execTimerCmpCommit_keeps .rfl who timer data
  | .timerReloadCommit who timer data => execTimerReloadCommit_keeps .rfl who timer data
  | .timerCmpEffect timer count => execTimerCmpEffect_keeps .rfl timer count
  | .timerWrap timer count => execTimerWrap_keeps .rfl timer count
  | .timerMatch timer count => execTimerMatch_keeps .rfl timer count
  | .timerCapture timer count falling => execTimerCapture_keeps .rfl timer count falling
  | .calSecond => execCalSecond_keeps .rfl
  | .calOscStop => execCalOscStop_keeps .rfl
  | .calSet who key sync => execCalSet_keeps .rfl who key sync
  | .calSync who key => execCalSync_keeps .rfl who key
  | .calSyncApply snt => execCalSyncApply_keeps .rfl snt
  | .pwrOnSet who data => execPwrOnSet_keeps .rfl who data
  | .pwrOnClr who data => execPwrOnClr_keeps .rfl who data
  | .ledgCommit who key room => execLedgCommit_keeps .rfl who key room
  | .ledgSuspend who key room => execLedgSuspend_keeps .rfl who key room
  | .ledgResume who key room => execLedgResume_keeps .rfl who key room
  | .ledgReset who key room => execLedgReset_keeps .rfl who key room
  | .ledgSwitch who key core room => execLedgSwitch_keeps .rfl who key core room
  | .ledgPark who key core => execLedgPark_keeps .rfl who key core
  | .ledgRemove who key room => execLedgRemove_keeps .rfl who key room
  | .ledgWaysWrite who core high data => execLedgWaysWrite_keeps .rfl who core high data
  | .wdogKick who room key => execWdogKick_keeps .rfl who room key
  | .roomWdog room => execRoomWdog_keeps .rfl room
  | .phLockRead who chan => execPhLockRead_keeps .rfl who chan
  | .phRelease who chan => execPhRelease_keeps .rfl who chan
  | .phForce who key chan => execPhForce_keeps .rfl who key chan
  | .phSend who chan data => execPhSend_keeps .rfl who chan data
  | .phSendEnd who chan data => execPhSendEnd_keeps .rfl who chan data
  | .phRecv who chan => execPhRecv_keeps .rfl who chan
  | .phRetWrite who chan data => execPhRetWrite_keeps .rfl who chan data
  | .cipStart who ctx key first last abort clear => execCipStart_keeps .rfl who ctx key first last abort clear
  | .cipAbort who ctx key clear => execCipAbort_keeps .rfl who ctx key clear
  | .cipClear who ctx key => execCipClear_keeps .rfl who ctx key
  | .cipOperationDone ctx => execCipOperationDone_keeps .rfl ctx
  | .cipLockRead who => execCipLockRead_keeps .rfl who
  | .cipLockRelease who => execCipLockRelease_keeps .rfl who
  | .cipCforce who key => execCipCforce_keeps .rfl who key
  | .cipLockExpired => execCipLockExpired_keeps .rfl
  | .enroll who key => execEnroll_keeps .rfl who key
  | .rotate who key => execRotate_keeps .rfl who key
  | .rngStartupDone => execRngStartupDone_keeps .rfl
  | .rngBlockRelease raw => execRngBlockRelease_keeps .rfl raw
  | .rngTestFail rct rawBit => execRngTestFail_keeps .rfl rct rawBit
  | .rngRestart who key => execRngRestart_keeps .rfl who key
  | .rngDataRead who => execRngDataRead_keeps .rfl who
  | .kpLoad who room key cls sel klen => execKpLoad_keeps .rfl who room key cls sel klen
  | .kpDerive who room key cls sel klen => execKpDerive_keeps .rfl who room key cls sel klen
  | .kpUnwrap who room key cls sel klen => execKpUnwrap_keeps .rfl who room key cls sel klen
  | .kpUnload who room key cls sel klen => execKpUnload_keeps .rfl who room key cls sel klen
  | .kpDelete who room key cls sel klen => execKpDelete_keeps .rfl who room key cls sel klen
  | .kpFind who room key cls sel klen => execKpFind_keeps .rfl who room key cls sel klen
  | .kpCommandDone room slot entry bad => execKpCommandDone_keeps .rfl room slot entry bad
  | .shelfCompaction due => execShelfCompaction_keeps .rfl due
  | .pkVerify who key => execPkVerify_keeps .rfl who key
  | .pkEcdh who key => execPkEcdh_keeps .rfl who key
  | .pkDone slot entry => execPkDone_keeps .rfl slot entry
  | .tamperTrip src => execTamperTrip_keeps .rfl src
  | .vaultEraseDone => execVaultEraseDone_keeps .rfl
  | .flashProgram who port key => execFlashProgram_keeps .rfl who port key
  | .flashErase who port key => execFlashErase_keeps .rfl who port key
  | .flashProgramDone bank readBack => execFlashProgramDone_keeps .rfl bank readBack
  | .flashEraseDone bank blank => execFlashEraseDone_keeps .rfl bank blank
  | .flashSuspend who key bank => execFlashSuspend_keeps .rfl who key bank
  | .flashResume who key bank => execFlashResume_keeps .rfl who key bank
  | .flashAutoResume bank => execFlashAutoResume_keeps .rfl bank
  | .flcCfgWrite who data => execFlcCfgWrite_keeps .rfl who data
  | .updHeader who key => execUpdHeader_keeps .rfl who key
  | .updLoad who key => execUpdLoad_keeps .rfl who key
  | .updFinish who key => execUpdFinish_keeps .rfl who key
  | .updActivate who key => execUpdActivate_keeps .rfl who key
  | .updAbort who key => execUpdAbort_keeps .rfl who key
  | .updCheck who key room => execUpdCheck_keeps .rfl who key room
  | .floorClr who key room => execFloorClr_keeps .rfl who key room
  | .recover who key => execRecover_keeps .rfl who key
  | .updHeaderChecked => execUpdHeaderChecked_keeps .rfl
  | .updWriteDone ok => execUpdWriteDone_keeps .rfl ok
  | .houseRestart => execHouseRestart_keeps .rfl
  | .houseRewriteDone ok => execHouseRewriteDone_keeps .rfl ok
  | .recoveryInfo src => execRecoveryInfo_keeps .rfl src
  | .recoveryHeader src header => execRecoveryHeader_keeps .rfl src header
  | .recoveryData src offset octets => execRecoveryData_keeps .rfl src offset octets
  | .recoveryCommit src ok => execRecoveryCommit_keeps .rfl src ok
  | .recoveryAbort src => execRecoveryAbort_keeps .rfl src
  | .recoveryRestart src => execRecoveryRestart_keeps .rfl src
  | .recoverySessionTimeout => execRecoverySessionTimeout_keeps .rfl
  | .recoveryAutoRestart => execRecoveryAutoRestart_keeps .rfl
  | .pwrModeWrite who data => execPwrModeWrite_keeps .rfl who data
  | .entryWfi => execEntryWfi_keeps .rfl
  | .participantAnswer participant => execParticipantAnswer_keeps .rfl participant
  | .pwrLcackWrite who data => execPwrLcackWrite_keeps .rfl who data
  | .handshakeTimeout => execHandshakeTimeout_keeps .rfl
  | .modeReached nt air => execModeReached_keeps .rfl nt air
  | .wake src event => execWake_keeps .rfl src event
  | .modeExit lfCycles => execModeExit_keeps .rfl lfCycles
  | .hallStartRetry voutMode => execHallStartRetry_keeps .rfl voutMode
  | .pwrGateWrite who data => execPwrGateWrite_keeps .rfl who data
  | .vcoreAck => execVcoreAck_keeps .rfl
  | .vcoreFail why => execVcoreFail_keeps .rfl why
  | .vcoreDownHold => execVcoreDownHold_keeps .rfl
  | .pmbAlert status vout => execPmbAlert_keeps .rfl status vout
  | .supZeroCrossing chan nt freq => execSupZeroCrossing_keeps .rfl chan nt freq
  | .supRmsRefresh chan rms nt sample above dist lost => execSupRmsRefresh_keeps .rfl chan rms nt sample above dist lost
  | .supFastOutage chan nt flag => execSupFastOutage_keeps .rfl chan nt flag
  | .supDisturbEnd chan => execSupDisturbEnd_keeps .rfl chan
  | .supOverrun => execSupOverrun_keeps .rfl
  | .supRecordPop who => execSupRecordPop_keeps .rfl who
  | .lgAttempt nt tick vhold temp vpa => execLgAttempt_keeps .rfl nt tick vhold temp vpa
  | .lgCca level => execLgCca_keeps .rfl level
  | .lgCut => execLgCut_keeps .rfl
  | .lgFrameEnd tick radiated temp => execLgFrameEnd_keeps .rfl tick radiated temp
  | .lgAckWindow level => execLgAckWindow_keeps .rfl level
  | .hostResync octets => execHostResync_keeps .rfl octets
  | .hostMsg octets => execHostMsg_keeps .rfl octets
  | .hostPing octets => execHostPing_keeps .rfl octets
  | .readFrame => execReadFrame_keeps .rfl
  | .reread => execReread_keeps .rfl
  | .readStatus => execReadStatus_keeps .rfl
  | .hostSessionExpire => execHostSessionExpire_keeps .rfl
  | .hostInHdrRead who => execHostInHdrRead_keeps .rfl who
  | .hostInDataRead who => execHostInDataRead_keeps .rfl who
  | .hostOutDataWrite who data => execHostOutDataWrite_keeps .rfl who data
  | .hostOutCommit who data => execHostOutCommit_keeps .rfl who data
  | .hostOutDiscard who data => execHostOutDiscard_keeps .rfl who data
  | .uartCharReceived u char par frm brk => execUartCharReceived_keeps .rfl u char par frm brk
  | .uartCharSent u => execUartCharSent_keeps .rfl u
  | .uartDataWrite who u data => execUartDataWrite_keeps .rfl who u data
  | .uartDataRead who u => execUartDataRead_keeps .rfl who u
  | .uartOwnWrite who data => execUartOwnWrite_keeps .rfl who data
  | .i2cStart u => execI2cStart_keeps .rfl u
  | .i2cWrite u => execI2cWrite_keeps .rfl u
  | .i2cRead u data => execI2cRead_keeps .rfl u data
  | .i2cStop u => execI2cStop_keeps .rfl u
  | .i2cNack u => execI2cNack_keeps .rfl u
  | .i2cArbLost u => execI2cArbLost_keeps .rfl u
  | .i2cSclTimeout u => execI2cSclTimeout_keeps .rfl u
  | .i2cRxRead who u => execI2cRxRead_keeps .rfl who u
  | .i2cOwnWrite who data => execI2cOwnWrite_keeps .rfl who data
  | .gpioOwnWrite who j data => execGpioOwnWrite_keeps .rfl who j data
  | .gpioSet who bank data => execGpioSet_keeps .rfl who bank data
  | .gpioClr who bank data => execGpioClr_keeps .rfl who bank data
  | .gpioEdge pin level => execGpioEdge_keeps .rfl pin level
  | .gpioHoldRelease who data => execGpioHoldRelease_keeps .rfl who data
  | .dbgchalCapture => execDbgchalCapture_keeps .rfl
  | .dbgchalUpdate scope r sig => execDbgchalUpdate_keeps .rfl scope r sig
  | .dbgCheckDone => execDbgCheckDone_keeps .rfl
  | .dbgDenyHoldoffEnd => execDbgDenyHoldoffEnd_keeps .rfl
  | .dbgLock who key => execDbgLock_keeps .rfl who key
  | .dmiAccess op addr data => execDmiAccess_keeps .rfl op addr data
  | .vbatPowerOn voutMode => execVbatPowerOn_keeps .rfl voutMode
  | .brownout voutMode => execBrownout_keeps .rfl voutMode
  | .sysRstPin low => execSysRstPin_keeps .rfl low
  | .rstCmdHall who key => execRstCmdHall_keeps .rfl who key
  | .lfFirstEdge => execLfFirstEdge_keeps .rfl
  | .lfStartTimeout => execLfStartTimeout_keeps .rfl
  | .hallRelease nt air lfCycles => execHallRelease_keeps .rfl nt air lfCycles
  | .romStart => execRomStart_keeps .rfl
  | .porterStart => execPorterStart_keeps .rfl
  | .ckRefRunning => execCkRefRunning_keeps .rfl
  | .ckLfResume => execCkLfResume_keeps .rfl
  | .modeSwitchTimeout lane => execModeSwitchTimeout_keeps .rfl lane
  | .supOverRange chan negative => execSupOverRange_keeps .rfl chan negative
  | .shelfClearingDone => execShelfClearingDone_keeps .rfl
  | .markProgrammed slot ok => execMarkProgrammed_keeps .rfl slot ok
  | .shelfCompactionDone => execShelfCompactionDone_keeps .rfl
  | .minimumRunEnd bank => execMinimumRunEnd_keeps .rfl bank
  | .jtagIrUpdate code tapReset => execJtagIrUpdate_keeps .rfl code tapReset

/-- Settles O5: a command outside `mayStore` keeps the memories whole, so every octet reads as before. -/
theorem memoryFrame : Obligations.MemoryFrame := by
  intro c s t hc h a
  have hk : Keeps (!c.mayStore) s t := exec_keeps s c t h
  rw [hc] at hk
  exact Keeps.memGet hk a

/-! ### What a raised event leaves as it was -/

@[simp] theorem raiseEvt_mem (e : Nat) (s : State) : (raiseEvt e s).mem = s.mem := by
  obtain ⟨d, h⟩ := raiseEvt_dests e s
  rw [h]

@[simp] theorem raiseEvt_link (e : Nat) (s : State) : (raiseEvt e s).link = s.link := by
  obtain ⟨d, h⟩ := raiseEvt_dests e s
  rw [h]

@[simp] theorem raiseEvt_lanes (e : Nat) (s : State) : (raiseEvt e s).lanes = s.lanes := by
  obtain ⟨d, h⟩ := raiseEvt_dests e s
  rw [h]

@[simp] theorem raiseEvt_queues (e : Nat) (s : State) : (raiseEvt e s).queues = s.queues := by
  obtain ⟨d, h⟩ := raiseEvt_dests e s
  rw [h]

/-! ### The transaction a command is -/

/-- A register command has a port at an address of register space alone. -/
theorem port_of_register {b : Bool} {q p : Port} (h : (if b then some q else none) = some p) : b = true ∧ q = p := by
  simpa only [Option.ite_none_right_eq_some, Option.some.injEq] using h

theorem busStore_door {a : Nat} (hr : registerAt a = true) (i : Init) (data : Word) (s : State) :
    busStore i a data s = doorAccess i a 4 .store (regStore i a data) s := if_pos hr

theorem busLoad_door {a : Nat} (hr : registerAt a = true) (i : Init) (f : State → Word × State) (s : State) :
    busLoad i a f s = doorAccess i a 4 .load (fun t => respondWord (f t).1 (f t).2) s := if_pos hr

/-- A command with a port is one door access there, by its meaning's own definition. -/
theorem exec_port {c : Instr} {p : Port} (h : c.port = some p) (s : State) :
    ∃ f, exec c s = .next (doorAccess p.init p.addr p.size p.kind f s) := by
  cases c
  case registerWrite i addr data | stagedLowWrite i addr data | highHalfCommit i addr data =>
    obtain ⟨hr, rfl⟩ := port_of_register h
    exact ⟨_, congrArg Host.Outcome.next (busStore_door hr i data s)⟩
  case counterLowRead i addr _ _ | snapshotCapture i addr | readToClear i addr =>
    obtain ⟨hr, rfl⟩ := port_of_register h
    exact ⟨_, congrArg Host.Outcome.next (busLoad_door hr i _ s)⟩
  all_goals cases h <;> exact ⟨_, rfl⟩

/-! ### Fields and counters -/

/-- Another field of the register whose field is written. -/
theorem fget_fset_apart {s : State} (h : Registers.wf s = true) {b : Nat} {f g : Fld} {v : Nat}
    (hfg : g.off = f.off ∧ g.lo + g.w ≤ 32 ∧ (g.lo + g.w ≤ f.lo ∨ f.lo + f.w ≤ g.lo)) :
    fget b g (fset b f v s) = fget b g s :=
  fget_fset_fld h f g v (by rw [hfg.1]) hfg.2.1 hfg.2.2

/-- A saturating counter's value after it counts one up. -/
theorem fget_fcount {s : State} (h : Registers.wf s = true) (b : Nat) {f : Fld} (hf : f.lo + f.w ≤ 32) :
    fget b f (fcount b f s) = min f.top (fget b f s + 1) := by
  have hlt : min f.top (fget b f s + 1) < 2 ^ f.w := by
    have := Nat.two_pow_pos f.w
    simp only [Fld.top]
    omega
  rw [fcount, fget_fset_self h _ _ _ hf]
  exact Nat.mod_eq_of_lt hlt

/-! ### The record of a refusal (R448) -/

/-- The fields of LEDG_REFUSE_ST that tell of a refusal. -/
def putRefusal (i : Init) (room : Nat) (k : Access) (cause : Nat) (s : State) : State :=
  fset ledgB LEDG_REFUSE_ST.V 1 (fset ledgB LEDG_REFUSE_ST.INIT i.num (fset ledgB LEDG_REFUSE_ST.ROOM room
    (fset ledgB LEDG_REFUSE_ST.KIND k.code (fset ledgB LEDG_REFUSE_ST.CAUSE cause s))))

/-- A refusal is counted, and where it is recorded as well REFUSED is raised. -/
theorem recordRefusal_cases (i : Init) (room a : Nat) (k : Access) (cause : Nat) (s : State) :
    recordRefusal i room a k cause s = fcount ledgB LEDG_REFUSE_CNT.CNT s ∨
    recordRefusal i room a k cause s = raiseEvt 1016 (wr 0x40070010 (BitVec.ofNat 32 a)
      (putRefusal i room k cause (fcount ledgB LEDG_REFUSE_CNT.CNT s))) := ite_eq_or_eq _ _ _

/-- Counting and recording a refusal leave the memories, the link controller, the lanes, the queues and the cores. -/
theorem recordRefusal_frame (i : Init) (room a : Nat) (k : Access) (cause : Nat) (s : State) :
    let t := recordRefusal i room a k cause s
    t.mem = s.mem ∧ t.link = s.link ∧ t.lanes = s.lanes ∧ t.queues = s.queues ∧ t.rooms.cores = s.rooms.cores := by
  intro t
  obtain h | h := recordRefusal_cases i room a k cause s
  · simp [t, h, fcount]
  · simp [t, h, putRefusal, fcount]

/-- Counting a refusal leaves V as it was. -/
theorem fis_refuseV_fcount {s : State} (h : Registers.wf s = true) :
    fis ledgB LEDG_REFUSE_ST.V (fcount ledgB LEDG_REFUSE_CNT.CNT s) = fis ledgB LEDG_REFUSE_ST.V s := by
  unfold fis fcount
  rw [fget_fset_reg h _ _ _ (by decide)]

/-- While V stands a refusal is counted and not recorded. -/
theorem recordRefusal_held {s : State} (h : Registers.wf s = true) (hv : fis ledgB LEDG_REFUSE_ST.V s = true)
    (i : Init) (room a : Nat) (k : Access) (cause : Nat) :
    recordRefusal i room a k cause s = fcount ledgB LEDG_REFUSE_CNT.CNT s :=
  if_pos ((fis_refuseV_fcount h).trans hv)

/-- While V is 0 a refusal is counted and recorded. -/
theorem recordRefusal_free {s : State} (h : Registers.wf s = true) (hv : fis ledgB LEDG_REFUSE_ST.V s = false)
    (i : Init) (room a : Nat) (k : Access) (cause : Nat) :
    recordRefusal i room a k cause s = raiseEvt 1016 (wr 0x40070010 (BitVec.ofNat 32 a)
      (putRefusal i room k cause (fcount ledgB LEDG_REFUSE_CNT.CNT s))) :=
  if_neg (by rw [show (0x40070000 : Nat) = ledgB from rfl, fis_refuseV_fcount h, hv]; exact Bool.false_ne_true)

@[simp] theorem Registers.wf_fcount {s : State} (h : Registers.wf s = true) (b : Nat) (f : Fld) :
    Registers.wf (fcount b f s) = true := Registers.wf_fset h b f _

@[simp] theorem Registers.wf_putRefusal {s : State} (h : Registers.wf s = true) (i : Init) (room : Nat) (k : Access)
    (cause : Nat) : Registers.wf (putRefusal i room k cause s) = true := by
  unfold putRefusal
  iterate 5 apply Registers.wf_fset
  exact h

/-- The record's fields stand in LEDG_REFUSE_ST alone. -/
theorem rd_putRefusal_ne {s : State} (h : Registers.wf s = true) {x : Nat} (hx : x ≠ 0x4007000C) (i : Init)
    (room : Nat) (k : Access) (cause : Nat) : rd x (putRefusal i room k cause s) = rd x s := by
  simp only [putRefusal]
  have hcause := Registers.wf_fset h ledgB LEDG_REFUSE_ST.CAUSE cause
  have hkind := Registers.wf_fset hcause ledgB LEDG_REFUSE_ST.KIND k.code
  have hroom := Registers.wf_fset hkind ledgB LEDG_REFUSE_ST.ROOM room
  have hinit := Registers.wf_fset hroom ledgB LEDG_REFUSE_ST.INIT i.num
  rw [rd_fset_ne hinit _ _ hx, rd_fset_ne hroom _ _ hx, rd_fset_ne hkind _ _ hx, rd_fset_ne hcause _ _ hx,
    rd_fset_ne h _ _ hx]

/-- The record's fields, read back. -/
theorem fget_putRefusal {s : State} (h : Registers.wf s = true) (i : Init) (room : Nat) (k : Access) {cause : Nat}
    (hc : cause < 16) :
    let t := putRefusal i room k cause s
    fget ledgB LEDG_REFUSE_ST.V t = 1 ∧ fget ledgB LEDG_REFUSE_ST.CAUSE t = cause ∧
      fget ledgB LEDG_REFUSE_ST.KIND t = k.code ∧ fget ledgB LEDG_REFUSE_ST.INIT t = i.num ∧
      fget ledgB LEDG_REFUSE_ST.ROOM t = room % 64 := by
  have hk : k.code < 4 := by cases k <;> decide
  have hi : i.num < 8 := by cases i <;> simp only [Init.num] <;> omega
  have hcause := Registers.wf_fset h ledgB LEDG_REFUSE_ST.CAUSE cause
  have hkind := Registers.wf_fset hcause ledgB LEDG_REFUSE_ST.KIND k.code
  have hroom := Registers.wf_fset hkind ledgB LEDG_REFUSE_ST.ROOM room
  have hinit := Registers.wf_fset hroom ledgB LEDG_REFUSE_ST.INIT i.num
  simp (disch := decide) only [putRefusal, fget_fset_self h, fget_fset_self hcause, fget_fset_self hkind,
    fget_fset_self hroom, fget_fset_self hinit, fget_fset_apart hcause, fget_fset_apart hkind, fget_fset_apart hroom,
    fget_fset_apart hinit]
  exact ⟨rfl, Nat.mod_eq_of_lt hc, Nat.mod_eq_of_lt hk, Nat.mod_eq_of_lt hi, rfl⟩

/-! ### A refusal (R447) -/

/-- A refusal without a parity mismatch leaves the registers as its record does. -/
theorem refuse_regs {cause : Nat} (hc : cause ≠ causeParity) (i : Init) (a : Nat) (k : Access) (s : State) :
    (refuse i a k cause s).regs = (recordRefusal i (roomOf i s) a k cause s).regs := by
  simp only [refuse, hc, if_false]
  split <;> rfl

/-- A refusal without a parity mismatch answers the refusal and leaves the memories, the link controller, the lanes
and the queues as they were. -/
theorem refuse_frame {cause : Nat} (hc : cause ≠ causeParity) (i : Init) (a : Nat) (k : Access) (s : State) :
    let t := refuse i a k cause s
    t.bus.resp = .refused cause ∧ t.mem = s.mem ∧ t.link = s.link ∧ t.lanes = s.lanes ∧ t.queues = s.queues := by
  obtain ⟨hmem, hlink, hlanes, hqueues, -⟩ := recordRefusal_frame i (roomOf i s) a k cause s
  simp only [refuse, hc, if_false]
  split <;> exact ⟨rfl, hmem, hlink, hlanes, hqueues⟩

/-- A refused core takes its access fault, and no other core does anything. -/
theorem refuse_cores_core {cause n : Nat} {i : Init} (hc : cause ≠ causeParity) (hn : initCore i = some n) (a : Nat)
    (k : Access) (s : State) : (refuse i a k cause s).rooms.cores =
      tset coreReset s.rooms.cores n (trapEntry (trapCause k) false a (coreGet n s)) := by
  obtain ⟨-, -, -, -, hcores⟩ := recordRefusal_frame i (roomOf i s) a k cause s
  simp only [refuse, hc, if_false, hn, coreSet, coreGet, hcores]

/-- A refused transaction of the debug module, which has no core, touches no core. -/
theorem refuse_cores_none {cause : Nat} {i : Init} (hc : cause ≠ causeParity) (hn : initCore i = none) (a : Nat)
    (k : Access) (s : State) : (refuse i a k cause s).rooms.cores = s.rooms.cores := by
  obtain ⟨-, -, -, -, hcores⟩ := recordRefusal_frame i (roomOf i s) a k cause s
  simp only [refuse, hc, if_false, hn, hcores]

/-- What the record of a refusal holds after it (R448). -/
theorem recordRefusal_record {s : State} (h : Registers.wf s = true) (i : Init) (room a : Nat) (k : Access)
    {cause : Nat} (hc : cause < 16) :
    let t := recordRefusal i room a k cause s
    (∀ x, x ≠ 0x4007000C → x ≠ 0x40070010 → x ≠ 0x40070014 → rd x t = rd x s) ∧
    fget ledgB LEDG_REFUSE_CNT.CNT t = min (2 ^ 32 - 1) (fget ledgB LEDG_REFUSE_CNT.CNT s + 1) ∧
    (fis ledgB LEDG_REFUSE_ST.V s = true → rd 0x4007000C t = rd 0x4007000C s ∧ rd 0x40070010 t = rd 0x40070010 s) ∧
    (fis ledgB LEDG_REFUSE_ST.V s = false →
      fget ledgB LEDG_REFUSE_ST.V t = 1 ∧ fget ledgB LEDG_REFUSE_ST.CAUSE t = cause ∧
      fget ledgB LEDG_REFUSE_ST.KIND t = k.code ∧ fget ledgB LEDG_REFUSE_ST.INIT t = i.num ∧
      fget ledgB LEDG_REFUSE_ST.ROOM t = room % 64 ∧ rd 0x40070010 t = BitVec.ofNat 32 a) := by
  intro t
  have hcnt := Registers.wf_fcount h ledgB LEDG_REFUSE_CNT.CNT
  have hput := Registers.wf_putRefusal hcnt i room k cause
  by_cases hv : fis ledgB LEDG_REFUSE_ST.V s = true
  · have ht : t = fcount ledgB LEDG_REFUSE_CNT.CNT s := recordRefusal_held h hv i room a k cause
    rw [ht]
    refine ⟨fun x _ _ hx => rd_fset_ne h _ _ hx, fget_fcount h _ (by decide), fun _ => ⟨?_, ?_⟩, fun hf => ?_⟩
    · exact rd_fset_ne h _ _ (by decide)
    · exact rd_fset_ne h _ _ (by decide)
    · exact absurd hv (by rw [hf]; exact Bool.false_ne_true)
  · have hf : fis ledgB LEDG_REFUSE_ST.V s = false := Bool.eq_false_iff.2 hv
    have ht : t = raiseEvt 1016 (wr 0x40070010 (BitVec.ofNat 32 a)
        (putRefusal i room k cause (fcount ledgB LEDG_REFUSE_CNT.CNT s))) := recordRefusal_free h hf i room a k cause
    obtain ⟨hV, hCause, hKind, hInit, hRoom⟩ := fget_putRefusal hcnt i room k hc
    rw [ht]
    simp only [rd_raiseEvt, fget_raiseEvt]
    refine ⟨fun x hst haddr hx => ?_, ?_, fun hv' => absurd hv' hv, fun _ => ?_⟩
    · rw [rd_wr_ne hput _ haddr, rd_putRefusal_ne hcnt hst]
      exact rd_fset_ne h _ _ hx
    · rw [fget_wr_ne hput _ _ (by decide)]
      have hreg := rd_putRefusal_ne (x := 0x40070014) hcnt (by decide) i room k cause
      exact (congrArg (bitsOf · 0 32) hreg).trans (fget_fcount h ledgB (f := LEDG_REFUSE_CNT.CNT) (by decide))
    · simp (disch := decide) only [fget_wr_ne hput]
      exact ⟨hV, hCause, hKind, hInit, hRoom, rd_wr_self hput _ _⟩

/-- Settles O6: every command with a port is one door access, which refuses as `refuse` does (R33, R447); and what
`refuse` does is what its record does (R448) with the response and the fault of the core. -/
theorem refusals : Obligations.Refusals := by
  refine ⟨⟨fun c p cause s hp hi hd => ?_, fun c p s hp hi => ?_⟩, fun i a cause k s hw hlt hne => ?_⟩
  · obtain ⟨f, hf⟩ := exec_port hp s
    rw [hf, doorAccess_refused hi hd]
  · obtain ⟨f, hf⟩ := exec_port hp s
    rw [hf, doorAccess_silent hi]
  · intro t
    obtain ⟨hresp, hmem, hlink, hlanes, hqueues⟩ := refuse_frame hne i a k s
    obtain ⟨hregs, hcnt, hheld, hfree⟩ := recordRefusal_record hw i (roomOf i s) a k hlt
    have hrd (x : Nat) : rd x t = rd x (recordRefusal i (roomOf i s) a k cause s) := by
      simp only [rd, t, refuse_regs hne]
    have hfget (f : Fld) : fget ledgB f t = fget ledgB f (recordRefusal i (roomOf i s) a k cause s) := by
      simp only [fget, hrd]
    simp only [hrd, hfget]
    exact ⟨hresp, hmem, hlink, hlanes, hqueues, hregs, hcnt, hheld, hfree, fun n hn => refuse_cores_core hne hn a k s,
      fun hn => refuse_cores_none hne hn a k s⟩

end Sys2Proof.Machine

namespace Sys2Proof.Tests

open Sys2Proof.Machine

set_option maxRecDepth 100000

/-- A raised event: a command outside `mayStore`, and the state it answers. -/
theorem test_hyps_memoryFrame : (Instr.eventSourceRaise 1016).mayStore = false ∧
    ∃ t, exec (.eventSourceRaise 1016) roomZeroOpen = .next t := ⟨rfl, _, rfl⟩

/-- A command of the Steward's sent by a link core, one of an application core on which no room is resident, a record
held and one not held, and initiators with and without a core. -/
theorem test_hyps_refusals :
    ((Instr.ledgCommit (.linkCore 0) 0 1).port = some ⟨.linkCore 0, 0x40070000, 4, .store⟩ ∧
      issues (.linkCore 0) roomZeroOpen = true ∧ doorCheck (.linkCore 0) 0x40070000 4 .store roomZeroOpen = some 5) ∧
    ((Instr.ledgCommit (.appCore 3) 0 1).port = some ⟨.appCore 3, 0x40070000, 4, .store⟩ ∧
      issues (.appCore 3) roomZeroOpen = false) ∧
    (Registers.wf roomZeroOpen = true ∧ fis ledgB Reg.LEDG_REFUSE_ST.V roomZeroOpen = false ∧
      fis ledgB Reg.LEDG_REFUSE_ST.V (fset ledgB Reg.LEDG_REFUSE_ST.V 1 roomZeroOpen) = true) ∧
    (initCore (.appCore 3) = some 6 ∧ initCore .debug = none) := by
  refine ⟨⟨rfl, ?_⟩, ⟨rfl, ?_⟩, ?_⟩
  all_goals decide

end Sys2Proof.Tests
end

section
/-!
SUPPORT. A frame on its way out (R27, R58, R83, R321, R336), acknowledgements at their cut tick (R328), and the
verdicts of received frames (R284, R325, R330, R331, R333): one lemma per operation and case.
-/

namespace Sys2Proof.Machine

open Reg

/-! ### What a front end's frame and acknowledgement read as -/

@[simp] theorem airGet_airPut_self (fe : Fe) (v : Option AirFrame) (s : State) : airGet fe (airPut fe v s) = v := by
  cases fe <;> rfl

@[simp] theorem airGet_fePut (fe : Fe) (v : FeState) (s : State) : airGet fe (fePut fe v s) = airGet fe s := by
  cases fe <;> rfl

@[simp] theorem airPut_regs (fe : Fe) (v : Option AirFrame) (s : State) : (airPut fe v s).regs = s.regs := by
  cases fe <;> rfl

@[simp] theorem fePut_regs (fe : Fe) (v : FeState) (s : State) : (fePut fe v s).regs = s.regs := by
  cases fe <;> rfl

@[simp] theorem ackGet_ackPut_self (fe : Fe) (v : Option AckPlan) (s : State) : ackGet fe (ackPut fe v s) = v := by
  cases fe <;> rfl

@[simp] theorem ackPut_regs (fe : Fe) (v : Option AckPlan) (s : State) : (ackPut fe v s).regs = s.regs := by
  cases fe <;> rfl

/-- What is planned to be acknowledged is held by the link controller alone. -/
theorem ackGet_of_link {s t : State} (h : t.link = s.link) (fe : Fe) : ackGet fe t = ackGet fe s := by
  cases fe <;> simp only [ackGet, h]

@[simp] theorem note_link (b : Nat) (f : Fld) (e : Nat) (s : State) : (note b f e s).link = s.link := by
  unfold note
  split
  · rfl
  · rw [raiseEvt_link, fset_link]

/-- A noted flag is set. -/
theorem fis_note {s : State} (h : Registers.wf s = true) (b : Nat) {f : Fld} (hw : f.w = 1) (hf : f.lo + f.w ≤ 32)
    (e : Nat) : fis b f (note b f e s) = true := by
  unfold note
  split
  · assumption
  · rw [fis_raiseEvt, fis, fget_fset_self h _ _ _ hf, hw]
    rfl

/-- A flag noted leaves the other registers as they were. -/
theorem fget_note_reg {s : State} (h : Registers.wf s = true) {b b' : Nat} (f g : Fld) (e : Nat)
    (hr : b' + g.off ≠ b + f.off) : fget b' g (note b f e s) = fget b' g s := by
  unfold note
  split
  · rfl
  · rw [fget_raiseEvt, fget_fset_reg h f g 1 hr]

/-! ### A frame on its way out -/

/-- At the ramp-up's first tick a frame with 64 samples behind it radiates (R83, R321). -/
theorem txRampUp_radiates {fe : Fe} {s : State} {f : AirFrame} (hf : airGet fe s = some f) (hr : f.ramp = none)
    (ha : f.abort = none) {fill : Nat} (hfill : 64 ≤ fill) (tick : Nat) :
    airGet fe (txRampUp fe tick fill s) = some { f with ramp := some tick } ∧
      (feGet fe (txRampUp fe tick fill s)).onAir = true ∧ (txRampUp fe tick fill s).regs = s.regs := by
  have hgo : ¬ (f.abort.isSome = true ∨ fill < 64) := by simp [ha, hfill]
  simp only [txRampUp, hf, hr, Option.isSome_none, Bool.false_eq_true, if_false, if_neg hgo]
  simp

/-- Only a frame that radiates runs under (R27, R58). -/
theorem exec_underrun_onAir {fe : Fe} {s : State} {f : AirFrame} {x : Nat} (hf : airGet fe s = some f)
    (hr : f.ramp = some x) : exec (.underrun fe) s = .next (fePut fe { feGet fe s with muted := true }
      (airPut fe (some { f with abort := some (f.abort.getD 3) }) s)) := by
  have hon : (airGet fe s).any (fun f => f.ramp.isSome) = true := by simp [hf, hr]
  show Host.Outcome.next (if _ then airAbort fe 3 s else s) = _
  rw [if_pos hon, airAbort, hf]

/-- Without a frame on the front end nothing that happens to one does anything. -/
theorem exec_noFrame {fe : Fe} {s : State} (h : airGet fe s = none) (tick radiated : Word64) (temp : BitVec 16)
    (fill : Nat) : exec (.txRampUp fe tick fill) s = .next s ∧ exec (.underrun fe) s = .next s ∧
      exec (.txFrameEnd fe tick radiated temp) s = .next s ∧ exec (.ackTransmit fe) s = .next s := by
  refine ⟨?_, ?_, ?_, ?_⟩
  · show Host.Outcome.next (txRampUp fe tick.toNat fill s) = _
    rw [txRampUp, h]
  · show Host.Outcome.next (if (airGet fe s).any _ then airAbort fe 3 s else s) = _
    rw [h]
    rfl
  · show Host.Outcome.next (txFrameEnd fe tick.toNat radiated.toNat temp s) = _
    rw [txFrameEnd, h]
  · show execAckTransmit fe s = _
    rw [execAckTransmit, h]

/-- An acknowledgement on air is counted (R326). -/
theorem exec_ackTransmit_onAir {fe : Fe} {s : State} {f : AirFrame} {x : Nat} (hf : airGet fe s = some f)
    (hw : f.who = .ack fe) (hr : f.ramp = some x) :
    exec (.ackTransmit fe) s = .next (fcount linkB LINK_CNT2.ACK_SENT s) := by
  show execAckTransmit fe s = _
  simp [execAckTransmit, hf, hw, hr]

/-- The end of an acknowledgement on air charges its account (R336). -/
theorem txFrameEnd_ack {fe : Fe} {s : State} {f : AirFrame} {r0 : Nat} (hf : airGet fe s = some f)
    (hr : f.ramp = some r0) (hw : f.who = .ack fe) (tick radiated : Nat) (temp : BitVec 16) :
    txFrameEnd fe tick radiated temp s = dutyCharge (licGet f.entry 0x10 1 (txRelease fe tick temp s))
      (((radiated - r0) * 10 + 767) / 768) (ackPut fe none (txRelease fe tick temp s)) := by
  simp only [txFrameEnd, hf, hr, hw]

/-! ### Acknowledgements at their cut tick (R328) -/

/-- A missed acknowledgement is gone and counted, and the first one is noted. -/
theorem ackMiss_counts {s : State} (h : Registers.wf s = true) (fe : Fe) :
    ackGet fe (ackMiss fe s) = none ∧
    fget linkB LINK_CNT2.ACK_MISS (ackMiss fe s) = min 255 (fget linkB LINK_CNT2.ACK_MISS s + 1) ∧
    (fget linkB LINK_CNT2.ACK_MISS s = 0 → fis linkB LINK_NOTE.ACK_MISS (ackMiss fe s) = true) := by
  have hput : Registers.wf (ackPut fe none s) = true := by rwa [Registers.wf, ackPut_regs]
  have hold (f : Fld) : fget linkB f (ackPut fe none s) = fget linkB f s := by simp only [fget, rd, ackPut_regs]
  have hgone : ackGet fe (fcount linkB LINK_CNT2.ACK_MISS (ackPut fe none s)) = none :=
    (ackGet_of_link (fset_link ..) fe).trans (ackGet_ackPut_self fe none s)
  have hcount := (fget_fcount hput linkB (f := LINK_CNT2.ACK_MISS) (by decide)).trans (by rw [hold])
  by_cases hfirst : fget linkB LINK_CNT2.ACK_MISS s = 0
  · have hmiss : ackMiss fe s = linkNote LINK_NOTE.ACK_MISS (fcount linkB LINK_CNT2.ACK_MISS (ackPut fe none s)) :=
      if_pos hfirst
    rw [hmiss]
    refine ⟨?_, ?_, fun _ => fis_note (Registers.wf_fcount hput _ _) _ rfl (by decide) _⟩
    · exact (ackGet_of_link (note_link ..) fe).trans hgone
    · exact (fget_note_reg (Registers.wf_fcount hput _ _) _ _ _ (by decide)).trans hcount
  · have hmiss : ackMiss fe s = fcount linkB LINK_CNT2.ACK_MISS (ackPut fe none s) := if_neg hfirst
    rw [hmiss]
    exact ⟨hgone, hcount, fun h => absurd h hfirst⟩

theorem ackCut_none {fe : Fe} {s : State} (h : ackGet fe s = none) (late : Bool) : ackCut fe late s = s := by
  rw [ackCut, h]

/-- An acknowledgement that is late at its cut tick is missed. -/
theorem ackCut_late {fe : Fe} {s : State} {a : AckPlan} (h : ackGet fe s = some a) (hr : a.ready = false) :
    ackCut fe true s = ackMiss fe s := by
  simp [ackCut, h, hr]

/-! ### The verdicts of received frames (R284, R325, R330, R333) -/

/-- The verdict of a lane whose frame does not wait first. -/
theorem laneVerdict_notFirst {n : Nat} {s : State} (h : ∀ c, s.verdicts.head? = some c → c.lane ≠ n)
    (octets : List Byte) (intact : Bool) (now : Nat) : laneVerdict n octets intact now s = s := by
  cases hv : s.verdicts with
  | nil => simp only [laneVerdict, hv]
  | cons c rest =>
    have hc : c.lane ≠ n := h c (by rw [hv]; rfl)
    simp only [laneVerdict, hv, if_pos hc]

/-- With no job in a slot no verdict meets one. -/
theorem jobsMeet_noJob {s : State} (h : jobList s = []) (c : ClosedFrame) (octets : List Byte) (f : Option MacFrame)
    (now : Nat) : jobsMeet c octets f now s = (false, s) := by
  rw [jobsMeet, h]
  rfl

/-- With no job in a slot the verdict of the frame that waits first takes it from its place and delivers it. -/
theorem laneVerdict_noJob {s : State} {c : ClosedFrame} {rest : List ClosedFrame} (hv : s.verdicts = c :: rest)
    (hj : jobList s = []) (octets : List Byte) (intact : Bool) (now : Nat) :
    laneVerdict c.lane octets intact now s =
      rxFrame c (octets.take (c.len - c.fcsLen))
        (if c.code = 0 then macParse (octets.take (c.len - c.fcsLen)) else none) intact (rxWinAt c s)
        { s with verdicts := rest } := by
  have hj' : jobList { s with verdicts := rest } = [] := hj
  simp only [laneVerdict, hv, ne_eq, not_true_eq_false, if_false, jobsMeet_noJob hj', Bool.false_eq_true]

/-- A frame whose outcome is not OK goes to its lane's queue as RAW. -/
theorem rxFrame_raw {c : ClosedFrame} (hc : c.code ≠ 0) (octets : List Byte) (f : Option MacFrame) (intact : Bool)
    (tcAt : Option Nat) (s : State) : rxFrame c octets f intact tcAt s =
      rxCommit c false octets (rxRecord c false 0 5 none octets.length) s := if_pos hc

/-- A frame that does not parse goes to the house queue as UNPARSED. -/
theorem rxFrame_unparsed {c : ClosedFrame} (hc : c.code = 0) (octets : List Byte) (intact : Bool)
    (tcAt : Option Nat) (s : State) : rxFrame c octets none intact tcAt s =
      rxCommit c true octets (rxRecord c false 0 3 none octets.length) s := by
  simp only [rxFrame, hc, ne_eq, not_true_eq_false, if_false]

/-- An acknowledgement that no job waits for is dropped and counted. -/
theorem rxFrame_stray {c : ClosedFrame} {f : MacFrame} (hc : c.code = 0) (hf : f.ftype = 2) (octets : List Byte)
    (intact : Bool) (tcAt : Option Nat) (s : State) :
    rxFrame c octets (some f) intact tcAt s = fcount linkB LINK_CNT2.ACK_STRAY s := by
  simp only [rxFrame, hc, ne_eq, not_true_eq_false, if_false, hf, if_true]

/-! ### Received security (R331) -/

/-- A frame without security is delivered as it is. -/
theorem unsecure_plain {f : MacFrame} (h : f.secured = false) (octets : List Byte) (nb : Option Nat) (s : State) :
    unsecure f octets nb s = ⟨0, some octets, none, 0⟩ := by
  rw [unsecure, if_pos (.inl h)]

/-- A slot number with FC_V: its flag, and the slot. -/
theorem fcSlot_fields {v k : Nat} (hv : v = 2 ^ 16 + k) (h : k < 128) : v.testBit 16 = true ∧ v % 128 = k := by
  subst hv
  refine ⟨?_, by omega⟩
  rw [Nat.testBit_two_pow_add_eq, Nat.testBit_lt_two_pow (by omega)]
  rfl

/-- A frame whose counter does not exceed the one its source last passed with is dropped as a replay. -/
theorem unsecure_replayed {f : MacFrame} {n k fc : Nat} {e : Neighbour} {s : State} (hs : f.secured = true)
    (hl : f.level ≠ 0) (hn : nbrGet n s = some e) (hk : rxKeySlot f (some e) s = some k)
    (hkey : (slotKey k s).isSome = true) (hsrc : f.srcMode = 3) (hfc : f.fc = some fc) (hslot : e.fcSlot = 2 ^ 16 + k)
    (hlt : k < 128) (hle : fc ≤ e.rxFc) (octets : List Byte) : (unsecure f octets (some n) s).octets = none := by
  obtain ⟨key, hkey⟩ := Option.isSome_iff_exists.1 hkey
  obtain ⟨hv, hmod⟩ := fcSlot_fields hslot hlt
  have hsec : ¬ (f.secured = false ∨ f.level = 0) := by simp [hs, hl]
  simp [unsecure, hsec, hn, hk, hkey, hsrc, hfc, hv, hmod, hle]

/-- Settles O24: the frame on its way out by what each of its events does (R83, R321, R336), the cut tick by what a
missed acknowledgement counts (R328), and the verdicts by the delivery of a frame that meets no job (R325, R330,
R333). -/
theorem framesSentAndVerdicts : Obligations.FramesSentAndVerdicts := by
  refine ⟨⟨?_, ?_, ?_, ?_, ?_, ?_⟩, ?_, ?_, ?_, ?_⟩
  · exact fun fe tick radiated temp fill s h => exec_noFrame h tick radiated temp fill
  · exact fun fe tick fill s f hf hr ha hfill => ⟨_, rfl, txRampUp_radiates hf hr ha hfill tick.toNat⟩
  · exact fun fe s f x hf hr => exec_underrun_onAir hf hr
  · exact fun fe s f x hf hw hr => exec_ackTransmit_onAir hf hw hr
  · exact fun fe tick radiated temp s f r0 hf hr hw =>
      congrArg Host.Outcome.next (txFrameEnd_ack hf hr hw tick.toNat radiated.toNat temp)
  · refine fun fe late s => ⟨fun h => congrArg Host.Outcome.next (ackCut_none h late), fun a h hr hw => ?_⟩
    exact ⟨ackMiss fe s, congrArg Host.Outcome.next (ackCut_late h hr), ackMiss_counts hw fe⟩
  · exact fun lane octets intact now s h =>
      congrArg Host.Outcome.next (laneVerdict_notFirst h octets intact now.toNat)
  · intro lane octets intact now s c rest hv hlane hj body t
    have hexec : exec (.laneVerdict lane octets intact now) s = .next (rxFrame c body
        (if c.code = 0 then macParse body else none) intact (rxWinAt c s) t) := by
      show Host.Outcome.next (laneVerdict lane.toNat octets intact now.toNat s) = _
      rw [← hlane, laneVerdict_noJob hv hj]
    refine ⟨fun hc => ?_, fun hc hp => ?_, fun f hc hp hf => ?_⟩
    · rw [hexec, rxFrame_raw hc]
    · rw [hexec, if_pos hc, hp, rxFrame_unparsed hc]
    · rw [hexec, if_pos hc, hp, rxFrame_stray hc hf]
  · exact fun f octets nb s h => by rw [unsecure_plain h]; exact ⟨rfl, rfl⟩
  · exact fun f octets n e k fc s hs hl hn hk hkey hsrc hfc hslot hlt hle =>
      unsecure_replayed hs hl hn hk hkey hsrc hfc hslot hlt hle octets

end Sys2Proof.Machine

namespace Sys2Proof.Tests

open Sys2Proof.Machine

set_option maxRecDepth 100000

/-- An acknowledgement's frame on front end A, before its ramp-up. -/
def ackFrame : AirFrame := { who := .ack .a, entry := 0, length := 320, carrier := 868300000, psdu := [2, 0, 9] }

/-- An acknowledgement planned and not yet cut. -/
def ackWaiting : AckPlan :=
  { lane := 1, phy := 3, mcs := 0, coded := false, fcsLen := 2, centre := 868300000, preamble := 4096
    plain := [2, 0, 9], sec := none }

/-- A frame of lane 1 that closed with outcome `code`. -/
def closedFrame (code : Nat) : ClosedFrame :=
  { lane := 1, fe := 0, queue := 0, phy := 3, code := code, marks := 0, epoch := 0, len := 5, mcs := 0, fcsLen := 2,
    sidx := 0, frac := 0, e := 0, qual := ⟨0, 0, 0⟩, margin := none, floor := none, rxt0 := 0, dcap := 0, dlane := 0,
    against := none }

/-- A secured frame with counter 7 that names key 1, and the neighbour who last passed with that counter in slot 3. -/
def securedFrame : MacFrame :=
  { ftype := 1, version := 2, secured := true, pending := false, ar := false, seq := none, dstMode := 0
    dstPan := none, dst := 0, srcMode := 3, srcPan := none, src := 5, level := 5, keyMode := 1, keyId := [1]
    fc := some 7 }
def replayedFrom : Neighbour := { ext := 5, pan := 0, short := 0, flags := 2 ^ 8, rxFc := 7, fcSlot := 2 ^ 16 + 3 }

/-- Key 1 of the link controller names live slot 3, backed by entry 0 of the shelf. -/
def keyed : State :=
  nbrPut 2 (some replayedFrom) (fset (linkB + 4) Reg.LINK_KEYMAP.SLOT 3 (fset (linkB + 4) Reg.LINK_KEYMAP.V 1
    (fset (slotB 3) Reg.KEY_SLOT.V 1 (shelfPut 0
      (some { key := [], owner := 0, cls := 0, sel := 0, meas := [], gen := 0, ident := 0 }) State.reset))))

/-- A front end with no frame, with one before its ramp-up and with one that radiates; no acknowledgement and one not
cut; a frame that waits first and another lane's, with each outcome; a plain frame and a replayed one. -/
theorem test_hyps_framesSentAndVerdicts :
    (airGet .a State.reset = none ∧ airGet .a (airPut .a (some ackFrame) State.reset) = some ackFrame ∧
      ackFrame.ramp = none ∧ ackFrame.abort = none ∧ ackFrame.who = .ack .a ∧
      airGet .b (airPut .b (some { ackFrame with ramp := some 7 }) State.reset) =
        some { ackFrame with ramp := some 7 }) ∧
    (ackGet .a State.reset = none ∧ ackGet .a (ackPut .a (some ackWaiting) State.reset) = some ackWaiting ∧
      ackWaiting.ready = false ∧ Registers.wf (ackPut .a (some ackWaiting) State.reset) = true) ∧
    ((closedFrame 0).lane ≠ (0#8).toNat ∧ (closedFrame 0).lane = (1#8).toNat ∧ (closedFrame 3).code ≠ 0 ∧
      jobList { State.reset with verdicts := [closedFrame 0] } = [] ∧ macParse [] = none ∧
      (macParse [2, 0, 9]).map (·.ftype) = some 2) ∧
    ({ securedFrame with secured := false }.secured = false ∧ securedFrame.secured = true ∧
      securedFrame.level ≠ 0 ∧ nbrGet 2 keyed = some replayedFrom ∧
      rxKeySlot securedFrame (some replayedFrom) keyed = some 3 ∧ (slotKey 3 keyed).isSome = true ∧
      securedFrame.srcMode = 3 ∧ securedFrame.fc = some 7 ∧ replayedFrom.fcSlot = 2 ^ 16 + 3 ∧
      7 ≤ replayedFrom.rxFc) := by
  refine ⟨⟨?_, ?_⟩, ⟨?_, ?_⟩, ?_, ?_⟩
  all_goals decide

end Sys2Proof.Tests
end

section
/-!
SUPPORT. LANE_CMD (R250, R287), a bin sample's way through a lane (R56, R57, R275) and the noise-floor survey (R276,
R278): one lemma per operation and case.
-/

namespace Sys2Proof.Machine

open Reg

/-! ### LANE_CMD (R250, R287) -/

/-- A key operand and its number name the same key. -/
theorem laneKey_iff (key : BitVec 16) : key.toNat = 0x4C4E ↔ key = 0x4C4E :=
  BitVec.toNat_inj (y := (0x4C4E : BitVec 16))

theorem exec_laneStart_admits {i : Init} {lane : BitVec 8} {s : State} (h : Admits i (laneP lane.toNat + 8) .store s)
    (key : BitVec 16) :
    exec (.laneStart i lane key) s = .next (acknowledge (laneCmd lane.toNat key.toNat true false s)) :=
  congrArg Host.Outcome.next (doorStore_admits h)

theorem exec_laneStop_admits {i : Init} {lane : BitVec 8} {s : State} (h : Admits i (laneP lane.toNat + 8) .store s)
    (key : BitVec 16) :
    exec (.laneStop i lane key) s = .next (acknowledge (laneCmd lane.toNat key.toNat false true s)) :=
  congrArg Host.Outcome.next (doorStore_admits h)

theorem laneCmd_undefined {n : Nat} {s : State} (h : laneDefined n s = false) (key : Nat) (start stop : Bool) :
    laneCmd n key start stop s = s := if_pos h

theorem laneCmd_wrongKey {n key : Nat} {s : State} (h : laneDefined n s = true) (hk : key ≠ 0x4C4E)
    (start stop : Bool) : laneCmd n key start stop s = laneFlag n LANE_ERR.CMD s := by
  simp [laneCmd, h, hk]

/-- START with its key makes an IDLE lane ACTIVE and is an error in every other state. -/
theorem laneCmd_start {n : Nat} {s : State} (h : laneDefined n s = true) :
    laneCmd n 0x4C4E true false s =
      if laneState n s = 1 then laneSetState n 2 s else laneFlag n LANE_ERR.CMD s := by
  simp [laneCmd, h]

/-- STOP with its key cuts the frame of an ACTIVE lane and makes it IDLE, and is an error in every other state. -/
theorem laneCmd_stop {n : Nat} {s : State} (h : laneDefined n s = true) :
    laneCmd n 0x4C4E false true s =
      if laneState n s = 2 then laneSetState n 1 (laneCut n 3 (sidx (laneFe n s) s + 1) s)
      else laneFlag n LANE_ERR.CMD s := by
  simp [laneCmd, h]

/-- An error in every state but `st` with its key is an error with any other key. -/
theorem laneCmd_refused {n st : Nat} {start stop : Bool} {s : State} (h : laneDefined n s = true)
    (hs : laneState n s ≠ st → laneCmd n 0x4C4E start stop s = laneFlag n LANE_ERR.CMD s) {key : BitVec 16}
    (hr : key ≠ 0x4C4E ∨ laneState n s ≠ st) :
    laneCmd n key.toNat start stop s = laneFlag n LANE_ERR.CMD s := by
  by_cases hk : key = 0x4C4E
  · rw [(laneKey_iff key).2 hk, hs (hr.resolve_left (not_not_intro hk))]
  · exact laneCmd_wrongKey h (mt (laneKey_iff key).1 hk) ..

/-! ### 48-bit indices -/

theorem rd48_lt (a : Nat) (s : State) : rd48 a s < 2 ^ 48 := by
  have hlow := (rd a s).isLt
  have hhigh := bitsOf_lt (rd (a + 4) s) 0 16
  simp only [rd48]
  omega

/-- A 48-bit index read back after it is written. -/
theorem rd48_wr48_self {s : State} (h : Registers.wf s = true) (a : Nat) {v : Nat} (hv : v < 2 ^ 48) :
    rd48 a (wr48 a v s) = v := by
  have hlow : rd a (wr48 a v s) = BitVec.ofNat 32 v := by
    rw [wr48, rd_wr_ne (Registers.wf_wr h _ _) _ (by omega), rd_wr_self h]
  have hhigh : bitsOf (rd (a + 4) (wr48 a v s)) 0 16 = v / 2 ^ 32 % 2 ^ 16 := by
    rw [wr48, rd_wr_self (Registers.wf_wr h _ _), bitsOf_bitsPut _ _ _ _ (by decide)]
  rw [rd48, hlow, hhigh, BitVec.toNat_ofNat]
  omega

@[simp] theorem Registers.wf_wr48 {s : State} (h : Registers.wf s = true) (a v : Nat) :
    Registers.wf (wr48 a v s) = true := Registers.wf_wr (Registers.wf_wr h _ _) _ _

/-! ### What the reports of a sample spare

The slack reports (R234), the request for more core voltage that they may make (R30) and the hunting gain (R179) write
registers between the front ends' blocks and the lane pages alone. -/

/-- From `s` to `t` what the lanes hold stays, and every register of the front ends and of the lane pages reads as
before. -/
structure SparesLanes (s t : State) : Prop where
  lanes : t.lanes = s.lanes
  wf : Registers.wf t = true
  rd : ∀ a, a < 0x40020000 ∨ 0x50000000 ≤ a → rd a t = rd a s

namespace SparesLanes

variable {s t : State}

theorem refl (h : Registers.wf s = true) : SparesLanes s s := ⟨rfl, h, fun _ _ => rfl⟩

theorem fget (h : SparesLanes s t) {b : Nat} {f : Fld} (hb : b + f.off < 0x40020000 ∨ 0x50000000 ≤ b + f.off) :
    fget b f t = fget b f s := by
  simp only [Machine.fget, h.rd _ hb]

theorem rd48 (h : SparesLanes s t) {a : Nat} (ha : a + 4 < 0x40020000) : rd48 a t = rd48 a s := by
  simp only [Machine.rd48, h.rd a (by omega), h.rd (a + 4) (by omega)]

theorem laneGet (h : SparesLanes s t) (n : Nat) : laneGet n t = laneGet n s := by
  simp only [Machine.laneGet, h.lanes]

theorem fset (h : SparesLanes s t) {b : Nat} {f : Fld} (hb : 0x40020000 ≤ b + f.off ∧ b + f.off < 0x50000000)
    (v : Nat) : SparesLanes s (fset b f v t) :=
  ⟨h.lanes, Registers.wf_fset h.wf _ _ _, fun a ha => (rd_fset_ne h.wf f v (by omega)).trans (h.rd a ha)⟩

theorem raiseEvt (h : SparesLanes s t) (e : Nat) : SparesLanes s (raiseEvt e t) :=
  ⟨(raiseEvt_lanes e t).trans h.lanes, (Registers.wf_raiseEvt e).trans h.wf,
    fun a ha => (rd_raiseEvt e t a).trans (h.rd a ha)⟩

theorem note (h : SparesLanes s t) {b : Nat} {f : Fld} (hb : 0x40020000 ≤ b + f.off ∧ b + f.off < 0x50000000)
    (e : Nat) : SparesLanes s (note b f e t) := by
  unfold Machine.note
  split
  · exact h
  · exact (h.fset hb 1).raiseEvt e

/-- A command on the PMBus touches no register. -/
theorem pmbWrite (h : SparesLanes s t) (cmd data : Nat) : SparesLanes s (pmbWrite cmd data t) :=
  ⟨h.lanes, h.wf, h.rd⟩

theorem flcWs (h : SparesLanes s t) : SparesLanes s (flcWs t) := by
  have heff := h.fset (b := flcB) (f := FLC_STAT.WS_EFF) (by decide) (wsEff t)
  simp only [Machine.flcWs]
  split
  · split
    · exact heff
    · exact (heff.fset (by decide) 1).note (by decide) _
  · exact heff.fset (by decide) 0

theorem vRequest (h : SparesLanes s t) (code : Nat) : SparesLanes s (vRequest code t) := by
  unfold Machine.vRequest
  split
  · exact h
  · exact ((((h.fset (by decide) _).fset (by decide) _).fset (by decide) _).pmbWrite _ _).flcWs

theorem slackLow (h : SparesLanes s t) : SparesLanes s (slackLow t) := by
  have hlow := (h.fset (b := fabB) (f := FAB_SLACK.LOW) (by decide) 1).raiseEvt 792
  simp only [Machine.slackLow]
  split
  · exact hlow.fset (by decide) 1
  · exact hlow.vRequest _

theorem slackUpdate (h : SparesLanes s t) (n : Nat) : SparesLanes s (slackUpdate n t) := by
  unfold Machine.slackUpdate
  extract_lets fill u v
  have hu : SparesLanes s u := h.fset (by decide) _
  have hv : SparesLanes s v := by
    simp only [v]
    split
    · exact hu.fset (by decide) _
    · exact hu
  split
  · split
    · exact hv.fset (by decide) 0
    · exact hv
  · split
    · exact hv.slackLow
    · exact hv

theorem huntGain (h : SparesLanes s t) {n : Nat} (hn : n < 256) (peak : Int) : SparesLanes s (huntGain n peak t) := by
  refine h.fset ?_ _
  simp only [laneGainB, LANE_GAIN.NOW]
  omega

end SparesLanes

/-! ### Bin samples (R56, R57, R275) -/

theorem binSample_notTaken {n : Nat} {s : State}
    (h : laneReads n s = false ∨ (feGet (laneFe n s) s).residence = false) (index fill : Nat)
    (peakQ edQ : BitVec 16) : binSample n index fill peakQ edQ s = s := if_pos (.inr h)

@[simp] theorem wr48_plan (a v : Nat) (s : State) : (wr48 a v s).plan = s.plan := rfl

@[simp] theorem fdxPut_plan (fe : Fe) (v : FdxState) (s : State) : (fdxPut fe v s).plan = s.plan := by
  cases fe <;> rfl

@[simp] theorem fdxPut_regs (fe : Fe) (v : FdxState) (s : State) : (fdxPut fe v s).regs = s.regs := by
  cases fe <;> rfl

@[simp] theorem fdxGet_fdxPut_self (fe : Fe) (v : FdxState) (s : State) : fdxGet fe (fdxPut fe v s) = v := by
  cases fe <;> rfl

@[simp] theorem fdxGet_wr (fe : Fe) (a : Nat) (v : Word) (s : State) : fdxGet fe (wr a v s) = fdxGet fe s := by
  cases fe <;> rfl

@[simp] theorem fdxGet_fset (fe : Fe) (b : Nat) (f : Fld) (v : Nat) (s : State) :
    fdxGet fe (fset b f v s) = fdxGet fe s := fdxGet_wr ..

@[simp] theorem fdxGet_wr48 (fe : Fe) (a v : Nat) (s : State) : fdxGet fe (wr48 a v s) = fdxGet fe s := by
  simp only [wr48, fdxGet_wr]

/-- The front end of a lane is a matter of the plan alone. -/
theorem laneFe_of_plan {s t : State} (h : t.plan = s.plan) (n : Nat) : laneFe n t = laneFe n s := by
  simp only [laneFe, laneDesc, h]

@[simp] theorem blankUpdate_plan (fe : Fe) (i : Nat) (s : State) : (blankUpdate fe i s).plan = s.plan :=
  fdxPut_plan ..

/-- FDX_STAT is the one register that the update of FDX_STAT.BLANKING writes. -/
theorem rd_blankUpdate {s : State} (h : Registers.wf s = true) {fe : Fe} {a : Nat} (ha : a ≠ feB fe + 0x104)
    (i : Nat) : rd a (blankUpdate fe i s) = rd a s := by
  have hput (v : FdxState) : Registers.wf (fdxPut fe v s) = true := by rwa [Registers.wf, fdxPut_regs]
  rw [blankUpdate, rd_fset_ne (hput _) _ _ ha, rd, fdxPut_regs, rd]

theorem Registers.wf_blankUpdate {s : State} (h : Registers.wf s = true) (fe : Fe) (i : Nat) :
    Registers.wf (blankUpdate fe i s) = true := by
  refine Registers.wf_fset ?_ _ _ _
  rwa [Registers.wf, fdxPut_regs]

/-- Without blanking intervals the update of FDX_STAT.BLANKING leaves none. -/
theorem blankUpdate_unblanked {fe : Fe} {s : State} (h : (fdxGet fe s).blanks = []) (i : Nat) :
    (fdxGet fe (blankUpdate fe i s)).blanks = [] := by
  simp [blankUpdate, h]

/-- Without blanking intervals on its front end a lane is blanked at no sample. -/
theorem laneBlanked_unblanked {n : Nat} {s : State} (h : (fdxGet (laneFe n s) s).blanks = []) (i : Nat) :
    laneBlanked n i s = false := by
  simp [laneBlanked, h]

/-- A sample's index on its front end, with FDX_STAT.BLANKING at it. -/
def sampleIndexed (n index : Nat) (s : State) : State :=
  blankUpdate (laneFe n s) index (wr48 (feB (laneFe n s) + 0x18) (max index (sidx (laneFe n s) s)) s)

/-- A sample that no interval blanks, as LANE_ED shows it. -/
def sampleShown (n index : Nat) (edQ : BitVec 16) (s : State) : State :=
  fset (laneP n) LANE_ED.BLANKED 0 (fset (laneP n) LANE_ED.ED_Q edQ.toNat (sampleIndexed n index s))

/-- One more entry stands behind a lane. -/
def sampleHeld (n fill : Nat) (s : State) : State := lanePut n { laneGet n s with fill := fill + 1 } s

theorem laneBlanked_sampleIndexed {n : Nat} {s : State} (h : (fdxGet (laneFe n s) s).blanks = []) (index i : Nat) :
    laneBlanked n i (sampleIndexed n index s) = false := by
  have hplan : (sampleIndexed n index s).plan = s.plan := (blankUpdate_plan ..).trans (wr48_plan ..)
  refine laneBlanked_unblanked ?_ i
  rw [laneFe_of_plan hplan]
  exact blankUpdate_unblanked ((congrArg FdxState.blanks (fdxGet_wr48 ..)).trans h) index

theorem wf_sampleIndexed {s : State} (h : Registers.wf s = true) (n index : Nat) :
    Registers.wf (sampleIndexed n index s) = true :=
  Registers.wf_blankUpdate (Registers.wf_wr48 h _ _) _ _

theorem wf_sampleShown {s : State} (h : Registers.wf s = true) (n index : Nat) (edQ : BitVec 16) :
    Registers.wf (sampleShown n index edQ s) = true :=
  Registers.wf_fset (Registers.wf_fset (wf_sampleIndexed h n index) _ _ _) _ _ _

/-- The front end's latest index goes on to the sample's. -/
theorem rd48_sampleIndexed {s : State} (h : Registers.wf s = true) (n : Nat) {index : Nat} (hi : index < 2 ^ 48) :
    rd48 (feB (laneFe n s) + 0x18) (sampleIndexed n index s) = max index (rd48 (feB (laneFe n s) + 0x18) s) := by
  have hmax : max index (sidx (laneFe n s) s) < 2 ^ 48 := max_lt hi (rd48_lt _ s)
  have hput := Registers.wf_wr48 h (feB (laneFe n s) + 0x18) (max index (sidx (laneFe n s) s))
  rw [sampleIndexed, rd48, rd_blankUpdate hput (by omega), rd_blankUpdate hput (by omega)]
  exact rd48_wr48_self h _ hmax

/-- A lane page stands above the blocks of the front ends. -/
theorem rd48_sampleShown {s : State} (h : Registers.wf s = true) (n index : Nat) (edQ : BitVec 16) {a : Nat}
    (ha : a + 4 < 0x50000000) : rd48 a (sampleShown n index edQ s) = rd48 a (sampleIndexed n index s) := by
  have hindexed := wf_sampleIndexed h n index
  have hpage {x : Nat} (hx : x < 0x50000000) (f : Fld) : x ≠ laneP n + f.off := by
    simp only [laneP]
    omega
  have hrd {x : Nat} (hx : x < 0x50000000) :
      rd x (sampleShown n index edQ s) = rd x (sampleIndexed n index s) := by
    rw [sampleShown, rd_fset_ne (Registers.wf_fset hindexed _ _ _) _ _ (hpage hx _),
      rd_fset_ne hindexed _ _ (hpage hx _)]
  rw [rd48, hrd (by omega), hrd ha, rd48]

/-- LANE_ED reads the sample's energy, not blanked. -/
theorem laneEd_sampleShown {s : State} (h : Registers.wf s = true) (n index : Nat) (edQ : BitVec 16) :
    fget (laneP n) LANE_ED.ED_Q (sampleShown n index edQ s) = edQ.toNat ∧
      fget (laneP n) LANE_ED.BLANKED (sampleShown n index edQ s) = 0 := by
  have hindexed := wf_sampleIndexed h n index
  have hed := Registers.wf_fset hindexed (laneP n) LANE_ED.ED_Q edQ.toNat
  refine ⟨?_, fget_fset_self hed _ _ _ (by decide)⟩
  rw [sampleShown, fget_fset_apart hed (by decide), fget_fset_self hindexed _ _ _ (by decide)]
  exact Nat.mod_eq_of_lt edQ.isLt

/-- What a lane holds, read after it is set to something other than a lane's first state. -/
theorem laneGet_lanePut_self {n : Nat} {v : LaneState} (hv : v ≠ {}) (s : State) : laneGet n (lanePut n v s) = v := by
  simp only [laneGet, lanePut, tset, if_neg hv, tget_tput, if_true]

@[simp] theorem rd_sampleHeld (n fill : Nat) (s : State) (a : Nat) : rd a (sampleHeld n fill s) = rd a s := rfl

@[simp] theorem rd48_sampleHeld (n fill : Nat) (s : State) (a : Nat) : rd48 a (sampleHeld n fill s) = rd48 a s := rfl

@[simp] theorem fget_sampleHeld (n fill : Nat) (s : State) (b : Nat) (f : Fld) :
    fget b f (sampleHeld n fill s) = fget b f s := rfl

@[simp] theorem laneGet_sampleHeld (n fill : Nat) (s : State) : (laneGet n (sampleHeld n fill s)).fill = fill + 1 := by
  have hne : { laneGet n s with fill := fill + 1 } ≠ ({} : LaneState) := fun h =>
    Nat.succ_ne_zero fill (congrArg LaneState.fill h)
  rw [sampleHeld, laneGet_lanePut_self hne]

/-- A sample that is taken, with no blanking and room in the buffer: it is shown and held, the slack is reported, and
the gain hunts unless the lane is mid-frame or its front end's gain is manual. -/
theorem binSample_taken {n fill : Nat} {s : State} (hd : laneDefined n s = true) (hr : laneReads n s = true)
    (hres : (feGet (laneFe n s) s).residence = true) (hb : (fdxGet (laneFe n s) s).blanks = []) (hfill : fill < 64)
    (index : Nat) (peakQ edQ : BitVec 16) :
    let u := slackUpdate n (sampleHeld n fill (sampleShown n index edQ s))
    binSample n index fill peakQ edQ s =
      if laneMid n u = true ∨ chzManual (laneFe n s) u = true then u else huntGain n peakQ.toInt u := by
  have hclear (i : Nat) : laneBlanked n i (sampleIndexed n index s) = false := laneBlanked_sampleIndexed hb index i
  have hroom : min 64 (fill + 1) = fill + 1 := by omega
  unfold sampleIndexed at hclear
  simp only [binSample, hd, hr, hres, hclear, hroom, hfill.ne, Bool.true_eq_false, Bool.false_eq_true, or_self,
    false_or, if_false]
  rfl

/-- The reports of a sample that is taken spare the lanes. -/
theorem binSample_sparesLanes {n fill : Nat} {s : State} (hn : n < 256) (hw : Registers.wf s = true)
    (hd : laneDefined n s = true) (hr : laneReads n s = true) (hres : (feGet (laneFe n s) s).residence = true)
    (hb : (fdxGet (laneFe n s) s).blanks = []) (hfill : fill < 64) (index : Nat) (peakQ edQ : BitVec 16) :
    SparesLanes (sampleHeld n fill (sampleShown n index edQ s)) (binSample n index fill peakQ edQ s) := by
  have hheld : Registers.wf (sampleHeld n fill (sampleShown n index edQ s)) = true := wf_sampleShown hw n index edQ
  have hslack := (SparesLanes.refl hheld).slackUpdate n
  rw [binSample_taken hd hr hres hb hfill]
  split
  · exact hslack
  · exact hslack.huntGain hn _

/-- BIN_SAMPLE_WRITE of a sample that is taken: its entry, its energy, and the latest index. -/
theorem exec_binSampleWrite_taken {lane : BitVec 8} {index : BitVec 48} {fill : Fin 65} {s : State}
    (hd : laneDefined lane.toNat s = true) (hr : laneReads lane.toNat s = true)
    (hres : (feGet (laneFe lane.toNat s) s).residence = true) (hw : Registers.wf s = true)
    (hb : (fdxGet (laneFe lane.toNat s) s).blanks = []) (hfill : fill.val < 64) (peakQ edQ : BitVec 16) :
    let n := lane.toNat
    ∃ t, exec (.binSampleWrite lane index fill peakQ edQ) s = .next t ∧ (laneGet n t).fill = fill.val + 1 ∧
      fget (laneP n) LANE_ED.ED_Q t = edQ.toNat ∧ fis (laneP n) LANE_ED.BLANKED t = false ∧
      rd48 (feB (laneFe n s) + 0x18) t = max index.toNat (rd48 (feB (laneFe n s) + 0x18) s) := by
  intro n
  have hspares := binSample_sparesLanes lane.isLt hw hd hr hres hb hfill index.toNat peakQ edQ
  obtain ⟨hed, hblanked⟩ := laneEd_sampleShown hw n index.toNat edQ
  have hlow : feB (laneFe n s) + 0x18 + 4 < 0x40020000 := by cases laneFe n s <;> decide
  have hpage (f : Fld) : laneP n + f.off < 0x40020000 ∨ 0x50000000 ≤ laneP n + f.off :=
    .inr (by simp only [laneP]; omega)
  refine ⟨_, rfl, ?_, ?_, ?_, ?_⟩
  · rw [hspares.laneGet, laneGet_sampleHeld]
  · rw [hspares.fget (hpage _), fget_sampleHeld, hed]
  · rw [fis, hspares.fget (hpage _), fget_sampleHeld, hblanked]
    rfl
  · rw [hspares.rd48 hlow, rd48_sampleHeld, rd48_sampleShown hw n _ edQ (by omega), rd48_sampleIndexed hw n index.isLt]

/-! ### The survey (R276, R278) -/

theorem surveyBlock_none {fe : Fe} {s : State} (h : hasUnit 3 fe s = false ∨ (feGet fe s).residence = false)
    (block : Nat) (means : List Int) : surveyBlock fe block means s = s := if_pos h

theorem surveyBin_plan (fe : Fe) (block : Nat) (means : List Int) (k : Nat) (s : State) :
    (surveyBin fe block means k s).plan = s.plan := by
  simp only [surveyBin]
  split
  · split <;> rfl
  · rfl

/-- The bins of a block leave the plan as it was. -/
theorem surveyBins_plan (fe : Fe) (block : Nat) (means : List Int) (l : List Nat) (s : State) :
    (l.foldl (fun t k => surveyBin fe block means k t) s).plan = s.plan := by
  induction l generalizing s with
  | nil => rfl
  | cons k l ih => exact (ih _).trans (surveyBin_plan ..)

/-- The lanes of a front end are a matter of the plan alone. -/
theorem lanesOf_of_plan {s t : State} (h : t.plan = s.plan) (fe : Fe) : lanesOf fe t = lanesOf fe s := by
  simp only [lanesOf, laneDesc, h]

/-- A block that ends: each bin, then each lane of the front end, and then what the next block starts with. -/
theorem surveyBlock_ends {fe : Fe} {s : State} (hu : hasUnit 3 fe s = true) (hr : (feGet fe s).residence = true)
    (block : Nat) (means : List Int) :
    ∃ v, surveyBlock fe block means s = chzPut fe v ((lanesOf fe s).foldl (fun t n => surveyLane fe n t)
      ((List.range 1024).foldl (fun t k => surveyBin fe block means k t) s)) := by
  have hgo : ¬ (hasUnit 3 fe s = false ∨ (feGet fe s).residence = false) := by simp [hu, hr]
  simp only [surveyBlock, if_neg hgo, lanesOf_of_plan (surveyBins_plan fe block means _ s)]
  exact ⟨_, rfl⟩

/-- A bin with a spoilt or blanked sample ages, and nothing else of it changes. -/
theorem surveyBin_spoilt {fe : Fe} {block k : Nat} {means : List Int} {m : Int} {s : State} (hm : means[k]? = some m)
    (h : (chzGet fe s).spoiltAll = true ∨ (chzGet fe s).spoilt.getLsbD k = true ∨ blockBlanked fe block k s = true) :
    surveyBin fe block means k s = fcount (0x40020000 + 0x1000 * fe.num + 4 * k) SURVEY.AGE s := by
  simp only [surveyBin, hm, if_pos h]

/-- The survey's history of a bin with `m` as its newest mean. -/
def surveyKept (fe : Fe) (k : Nat) (m : Int) (s : State) : State :=
  let key := fe.num * 1024 + k
  { s with survey := tset (fun _ => []) s.survey key ((m :: tget (fun _ => []) s.survey key).take 16) }

theorem tget_surveyKept (fe : Fe) (k : Nat) (m : Int) (s : State) :
    tget (fun _ => []) (surveyKept fe k m s).survey (fe.num * 1024 + k) =
      (m :: tget (fun _ => []) s.survey (fe.num * 1024 + k)).take 16 := by
  simp only [surveyKept, tset, List.take_succ_cons, reduceCtorEq, if_false, tget_tput, if_true]

/-- A bin whose block counts keeps its mean, shows its new floor, is valid from four means on, and is fresh. -/
theorem surveyBin_counts {fe : Fe} {block k : Nat} {means : List Int} {m : Int} {s : State} (hm : means[k]? = some m)
    (ha : (chzGet fe s).spoiltAll = false) (hk : (chzGet fe s).spoilt.getLsbD k = false)
    (hb : blockBlanked fe block k s = false) :
    let b := 0x40020000 + 0x1000 * fe.num + 4 * k
    let h := (m :: tget (fun _ => []) s.survey (fe.num * 1024 + k)).take 16
    surveyBin fe block means k s = fset b SURVEY.AGE 0 (fset b SURVEY.VALID (ofBool (decide (4 ≤ h.length)))
      (fsetS b SURVEY.FLOOR_H (roundDiv (floorOf h) 500) (surveyKept fe k m s))) := by
  simp only [surveyBin, hm, ha, hk, hb, Bool.false_eq_true, or_self, if_false]
  rfl

/-- The fields of a bin that ages. -/
theorem surveyBin_spoilt_fields {fe : Fe} {block k : Nat} {means : List Int} {m : Int} {s : State}
    (hw : Registers.wf s = true) (hm : means[k]? = some m)
    (h : (chzGet fe s).spoiltAll = true ∨ (chzGet fe s).spoilt.getLsbD k = true ∨ blockBlanked fe block k s = true) :
    let b := 0x40020000 + 0x1000 * fe.num + 4 * k
    let t := surveyBin fe block means k s
    fget b SURVEY.AGE t = min 255 (fget b SURVEY.AGE s + 1) ∧ fget b SURVEY.FLOOR_H t = fget b SURVEY.FLOOR_H s ∧
      t.survey = s.survey := by
  intro b t
  have ht : t = fcount b SURVEY.AGE s := surveyBin_spoilt hm h
  rw [ht]
  exact ⟨fget_fcount hw b (by decide), fget_fset_apart hw (by decide), rfl⟩

/-- The fields and the history of a bin whose block counts. -/
theorem surveyBin_counts_fields {fe : Fe} {block k : Nat} {means : List Int} {m : Int} {s : State}
    (hw : Registers.wf s = true) (hm : means[k]? = some m) (ha : (chzGet fe s).spoiltAll = false)
    (hk : (chzGet fe s).spoilt.getLsbD k = false) (hb : blockBlanked fe block k s = false) :
    let b := 0x40020000 + 0x1000 * fe.num + 4 * k
    let t := surveyBin fe block means k s
    let h := tget (fun _ => []) s.survey (fe.num * 1024 + k)
    fget b SURVEY.AGE t = 0 ∧ fis b SURVEY.VALID t = decide (3 ≤ h.length) ∧
      tget (fun _ => []) t.survey (fe.num * 1024 + k) = (m :: h).take 16 := by
  intro b t h
  have hfloor : Registers.wf (fsetS b SURVEY.FLOOR_H (roundDiv (floorOf ((m :: h).take 16)) 500)
      (surveyKept fe k m s)) = true := Registers.wf_fset hw _ _ _
  have hvalid := Registers.wf_fset hfloor b SURVEY.VALID (ofBool (decide (4 ≤ ((m :: h).take 16).length)))
  have hfour : 4 ≤ ((m :: h).take 16).length ↔ 3 ≤ h.length := by
    rw [List.length_take, List.length_cons]
    omega
  have ht := surveyBin_counts hm ha hk hb
  refine ⟨?_, ?_, ?_⟩
  · exact (congrArg (fget b SURVEY.AGE) ht).trans (fget_fset_self hvalid _ _ _ (by decide))
  · have hbit : fget b SURVEY.VALID t = ofBool (decide (3 ≤ h.length)) % 2 := by
      rw [← decide_eq_decide.2 hfour]
      exact (congrArg (fget b SURVEY.VALID) ht).trans
        ((fget_fset_apart hvalid (by decide)).trans (fget_fset_self hfloor _ _ _ (by decide)))
    rw [fis, hbit]
    cases decide (3 ≤ h.length) <;> rfl
  · exact (congrArg (fun u => tget (fun _ => []) u.survey (fe.num * 1024 + k)) ht).trans (tget_surveyKept fe k m s)

/-- Settles O19: LANE_CMD by key and state (R250, R287), the bin sample by what its reports spare (R56, R57, R275), and
the survey by the two cases of a bin (R276, R278). -/
theorem laneCommandsAndSamples : Obligations.LaneCommandsAndSamples := by
  refine ⟨?_, ⟨?_, ?_⟩, ?_, ?_, ?_⟩
  · intro i lane key s h n
    rw [exec_laneStart_admits h, exec_laneStop_admits h]
    refine ⟨fun hd => ?_, fun hd => ⟨fun hr => ?_, fun hr => ?_, fun hk h1 => ?_, fun hk h2 => ?_⟩, fun hw => ?_⟩
    · rw [laneCmd_undefined hd, laneCmd_undefined hd]
      exact ⟨rfl, rfl⟩
    · rw [laneCmd_refused hd (fun hs => (laneCmd_start hd).trans (if_neg hs)) hr]
    · rw [laneCmd_refused hd (fun hs => (laneCmd_stop hd).trans (if_neg hs)) hr]
    · rw [(laneKey_iff key).2 hk, laneCmd_start hd, if_pos h1]
      rfl
    · rw [(laneKey_iff key).2 hk, laneCmd_stop hd, if_pos h2]
      rfl
    · exact fis_note hw _ rfl (by decide) _
  · exact fun lane index fill peakQ edQ s h =>
      congrArg Host.Outcome.next (binSample_notTaken h index.toNat fill.val peakQ edQ)
  · exact fun lane index fill peakQ edQ s hd hr hres hw hb hfill =>
      exec_binSampleWrite_taken hd hr hres hw hb hfill peakQ edQ
  · exact fun fe block means s h => congrArg Host.Outcome.next (surveyBlock_none h block.toNat means)
  · intro fe block means s hu hr
    obtain ⟨v, hv⟩ := surveyBlock_ends hu hr block.toNat means
    exact ⟨v, congrArg Host.Outcome.next hv⟩
  · exact fun fe block k means m s hw _ hm =>
      ⟨fun h => surveyBin_spoilt_fields hw hm h, fun ha hk hb => surveyBin_counts_fields hw hm ha hk hb⟩

end Sys2Proof.Machine

namespace Sys2Proof.Tests

open Sys2Proof.Machine

set_option maxRecDepth 100000

/-- A lane of two bins on front end A. -/
def laneOnA : LaneDesc :=
  { fe := 0, binFirst := 8, nBins := 2, phy := 3, opts := 0, domain := 1, firstTile := 32, nTiles := 1
    codeTile := 0xFF, codeSlot := 0, nSlots := 0, queue := 0, fine := 0 }

/-- A plan with lanes 0 and 2 and survey tiles on front end A, whose residence is under way; lane 0 is IDLE and lane 2
ACTIVE. -/
def listening : State :=
  fset (laneP 0) Reg.LANE_STAT.STATE 1 (fset (laneP 2) Reg.LANE_STAT.STATE 2
    (fePut .a { roomZeroOpen.feA with residence := true } { roomZeroOpen with
      plan := { lanes := [(0, some laneOnA), (2, some laneOnA)], units := [(3, 0, 1)] } }))

/-- A lane of no plan, an IDLE and an ACTIVE one; a lane that takes no sample and one that does; a front end without
survey tiles and one with them; a bin with a mean whose block counts, and one whose block is spoilt. -/
theorem test_hyps_laneCommandsAndSamples :
    (Admits .steward (laneP 9 + 8) .store listening ∧ laneDefined 9 listening = false ∧
      Admits .steward (laneP 0 + 8) .store listening ∧ laneDefined 0 listening = true ∧ laneState 0 listening = 1 ∧
      Admits .steward (laneP 2 + 8) .store listening ∧ laneDefined 2 listening = true ∧ laneState 2 listening = 2) ∧
    (laneReads 0 listening = false ∧ laneReads 2 listening = true ∧ laneFe 2 listening = .a ∧
      (feGet .a listening).residence = true ∧ (fdxGet .a listening).blanks = [] ∧ Registers.wf listening = true ∧
      (63 : Fin 65).val < 64) ∧
    (hasUnit 3 .b listening = false ∧ hasUnit 3 .a listening = true) ∧
    (([-90000] : List Int)[0]? = some (-90000) ∧ (chzGet .a listening).spoiltAll = false ∧
      (chzGet .a listening).spoilt.getLsbD 0 = false ∧ blockBlanked .a 0 0 listening = false ∧
      (chzGet .a (chzPut .a { listening.chzA with spoiltAll := true } listening)).spoiltAll = true) := by
  refine ⟨?_, ?_, ?_, rfl, rfl, BitVec.getLsbD_zero, ?_, ?_⟩
  all_goals decide

end Sys2Proof.Tests
end

section
/-!
SUPPORT. How a front end goes on (R87, R90, R92, R93, R98) and what the writes of FE_CMD, FE_CTRL and FE_CENTRE do (R74,
R92–R95, R98, R118): one lemma per operation and case.
-/

namespace Sys2Proof.Machine

open Reg

/-! ### What leaves the front ends' own state as it was -/

@[simp] theorem fePut_feGet (fe : Fe) (s : State) : fePut fe (feGet fe s) s = s := by cases fe <;> rfl

@[simp] theorem feState_fePut (g fe : Fe) (v : FeState) (s : State) : feState g (fePut fe v s) = feState g s :=
  fget_fePut ..

/-- What a front end holds is set before or after a register's field alike. -/
theorem fePut_fset (fe : Fe) (v : FeState) (b : Nat) (f : Fld) (x : Nat) (s : State) :
    fePut fe v (fset b f x s) = fset b f x (fePut fe v s) := by cases fe <;> rfl

@[simp] theorem feGet_fcount (g : Fe) (b : Nat) (f : Fld) (s : State) : feGet g (fcount b f s) = feGet g s :=
  feGet_fset ..

@[simp] theorem feGet_fsetS (g : Fe) (b : Nat) (f : Fld) (v : Int) (s : State) :
    feGet g (fsetS b f v s) = feGet g s := feGet_fset ..

@[simp] theorem feGet_wr48 (g : Fe) (a v : Nat) (s : State) : feGet g (wr48 a v s) = feGet g s := by
  simp only [wr48, feGet_wr]

@[simp] theorem feGet_note (g : Fe) (b : Nat) (f : Fld) (e : Nat) (s : State) :
    feGet g (note b f e s) = feGet g s := by
  unfold note
  split
  · rfl
  · rw [feGet_raiseEvt, feGet_fset]

@[simp] theorem feGet_drawFree (g : Fe) (s : State) : feGet g (drawFree s) = feGet g s := by cases g <;> rfl

@[simp] theorem feGet_acknowledge (g : Fe) (s : State) : feGet g (acknowledge s) = feGet g s := by cases g <;> rfl

@[simp] theorem feGet_verdicts (g : Fe) (l : List ClosedFrame) (s : State) :
    feGet g { s with verdicts := l } = feGet g s := by cases g <;> rfl

@[simp] theorem feGet_lanePut (g : Fe) (n : Nat) (v : LaneState) (s : State) :
    feGet g (lanePut n v s) = feGet g s := by cases g <;> rfl

@[simp] theorem feGet_chzPut (g fe : Fe) (v : ChzState) (s : State) : feGet g (chzPut fe v s) = feGet g s := by
  cases g <;> cases fe <;> rfl

@[simp] theorem feGet_fdxPut (g fe : Fe) (v : FdxState) (s : State) : feGet g (fdxPut fe v s) = feGet g s := by
  cases g <;> cases fe <;> rfl

@[simp] theorem feGet_feLock (g fe : Fe) (on : Bool) (s : State) : feGet g (feLock fe on s) = feGet g s := by
  simp only [feLock, feGet_fset]

/-! ### The end of a residence (R99) leaves the front ends all but the residence -/

@[simp] theorem feGet_laneSetState (g : Fe) (n v : Nat) (s : State) : feGet g (laneSetState n v s) = feGet g s :=
  feGet_fset ..

@[simp] theorem feGet_laneFlag (g : Fe) (n : Nat) (f : Fld) (s : State) : feGet g (laneFlag n f s) = feGet g s :=
  feGet_note ..

@[simp] theorem feGet_laneRelease (g : Fe) (n : Nat) (s : State) : feGet g (laneRelease n s) = feGet g s := by
  unfold laneRelease
  extract_lets fe b s1 s2 s3
  have hs : feGet g s3 = feGet g s := by simp [s3, s2, s1]
  split
  · exact (feGet_fset ..).trans hs
  · exact hs

@[simp] theorem feGet_laneLast (g : Fe) (n : Nat) (c : ClosedFrame) (f : LaneFrame) (deliv : Bool) (s : State) :
    feGet g (laneLast n c f deliv s) = feGet g s := by
  simp only [laneLast, feGet_drawFree, feGet_fset, feGet_wr]
  split <;> simp

@[simp] theorem feGet_laneCount (g : Fe) (n code : Nat) (s : State) : feGet g (laneCount n code s) = feGet g s := by
  simp only [laneCount, apply_ite (feGet g), feGet_fcount, ite_self]

@[simp] theorem feGet_laneHand (g : Fe) (c : ClosedFrame) (s : State) : feGet g (laneHand c s) = feGet g s := by
  unfold laneHand
  split
  · split
    · split <;> simp
    · simp
  · simp

@[simp] theorem feGet_laneDeliver (g : Fe) (c : ClosedFrame) (s : State) :
    feGet g (laneDeliver c s) = feGet g s := by
  unfold laneDeliver
  split
  · split <;> simp
  · simp

@[simp] theorem feGet_laneClose (g : Fe) (n code e : Nat) (q : Quality) (s : State) :
    feGet g (laneClose n code e q s) = feGet g s := by
  unfold laneClose
  split
  · rfl
  · simp only [apply_ite (feGet g), feGet_laneDeliver, feGet_laneRelease, feGet_lanePut, feGet_laneLast,
      feGet_laneCount, ite_self]

@[simp] theorem feGet_laneCut (g : Fe) (n code e : Nat) (s : State) : feGet g (laneCut n code e s) = feGet g s := by
  simp only [laneCut, apply_ite (feGet g), feGet_laneClose, ite_self]

@[simp] theorem feGet_moveForget (g : Fe) (n : Nat) (s : State) : feGet g (moveForget n s) = feGet g s := by
  simp only [moveForget, feGet_fset, feGet_lanePut]

@[simp] theorem feGet_moveCancel (g : Fe) (n : Nat) (s : State) : feGet g (moveCancel n s) = feGet g s := by
  unfold moveCancel
  split
  · split <;> simp
  · rfl

/-- A fold of operations that each leave the front ends' own state leaves it. -/
theorem feGet_foldl {α : Type} (g : Fe) {f : State → α → State} (h : ∀ t x, feGet g (f t x) = feGet g t)
    (l : List α) (s : State) : feGet g (l.foldl f s) = feGet g s := by
  induction l generalizing s with
  | nil => rfl
  | cons x l ih => exact (ih _).trans (h s x)

@[simp] theorem feGet_moveSettle (g : Fe) (n : Nat) (s : State) : feGet g (moveSettle n s) = feGet g s :=
  (feGet_foldl g (fun t c => feGet_laneHand g c t) _ _).trans (feGet_lanePut ..)

@[simp] theorem feGet_drainRelease (g : Fe) (n : Nat) (s : State) : feGet g (drainRelease n s) = feGet g s := by
  unfold drainRelease
  split
  · split <;> simp
  · rfl

@[simp] theorem feGet_tuneNow (g : Fe) (n : Nat) (s : State) : feGet g (tuneNow n s) = feGet g s := by
  unfold tuneNow
  split
  · simp [tuneTake]
  · rfl

@[simp] theorem feGet_lanesResidenceEnd (g fe : Fe) (s : State) : feGet g (lanesResidenceEnd fe s) = feGet g s := by
  refine feGet_foldl g (fun t n => ?_) _ _
  simp only [laneResidenceEnd, apply_ite (feGet g), feGet_lanePut, feGet_tuneNow, feGet_moveCancel,
    feGet_drainRelease, feGet_laneCut, ite_self]

@[simp] theorem feGet_blankDrop (g fe : Fe) (s : State) : feGet g (blankDrop fe s) = feGet g s := by
  simp only [blankDrop, apply_ite (feGet g), feGet_fset, feGet_fdxPut, feGet_wr48, ite_self]

@[simp] theorem feGet_chzEnd (g fe : Fe) (s : State) : feGet g (chzEnd fe s) = feGet g s := by
  simp only [chzEnd, cancelGain, apply_ite (feGet g), feGet_fset, feGet_chzPut, ite_self]

theorem feGet_residenceEnd (fe : Fe) (s : State) :
    feGet fe (residenceEnd fe s) = { feGet fe s with residence := false } := by
  unfold residenceEnd
  split
  case isTrue => simp
  case isFalse h => simp [← Bool.eq_false_iff.2 h]

/-! ### A transition begins (R87, R90) -/

@[simp] theorem announce_calRequest (fe : Fe) (s : State) :
    (feGet fe (calRequest fe s)).announce = (feGet fe s).announce := by
  simp only [calRequest, feGet_fset]
  split
  · split <;> simp
  · rfl

@[simp] theorem announce_tempSample (fe : Fe) (temp : BitVec 16) (s : State) :
    (feGet fe (tempSample fe temp s)).announce = (feGet fe s).announce := by
  simp only [tempSample]
  split <;> simp

theorem announce_feBegin (fe : Fe) (src dst : Nat) (temp : BitVec 16) (s : State) :
    (feGet fe (feBegin fe src dst temp s)).announce = (feGet fe s).announce := by
  simp only [feBegin, feCtlPins, feGet_fePut_self, feGet_fset]
  split_ifs <;> simp [feGet_residenceEnd]

theorem trans_feBegin (fe : Fe) (src dst : Nat) (temp : BitVec 16) (s : State) :
    (feGet fe (feBegin fe src dst temp s)).trans.map (fun x => (x.src, x.dst)) = some (src, dst) := by
  simp only [feBegin, feCtlPins, feGet_fePut_self, feGet_fset, Option.map_some]

/-- A one-bit field that is set reads 1. -/
theorem fis_fset_one {s : State} (h : Registers.wf s = true) (b : Nat) {f : Fld} (hf : f.w = 1 ∧ f.lo + f.w ≤ 32) :
    fis b f (fset b f 1 s) = true := by
  rw [fis, fget_fset_self h b f 1 hf.2, hf.1]
  rfl

/-- A front end is busy from the transition's first tick. -/
theorem busy_feBegin {s : State} (h : Registers.wf s = true) (fe : Fe) (src dst : Nat) (temp : BitVec 16) :
    fis (feB fe) FE_STAT.BUSY (feBegin fe src dst temp s) = true := by
  simp only [feBegin, feCtlPins, fis_fePut]
  refine fis_fset_one ?_ _ (by decide)
  rw [Registers.wf_fePut]
  have hend : Keeps true s (if src = 3 ∧ dst = 2 then residenceEnd fe s else s) :=
    .ite (residenceEnd_keeps .rfl fe) .rfl
  have htemp := Keeps.ite (c := src = 0) (tempSample_keeps hend fe temp) hend
  exact (Keeps.ite (feLock_keeps htemp fe false) htemp).regs h

/-! ### Going on with no transition in progress (R92, R93, R98) -/

/-- A front end without a stored centre. -/
theorem FeState.centrePend_cleared {f : FeState} (h : f.centrePend = false) : { f with centrePend := false } = f :=
  congrArg (fun b => { f with centrePend := b }) h.symm

/-- With nothing held the front end goes on to its target, forgetting a stored centre, which counts from SYNTH on. -/
theorem feNext_target {fe : Fe} {f : FeState} {s : State} (hst : feState fe s < 4)
    (hf : { feGet fe s with centrePend := false } = f) (hc : (feGet fe s).centrePend = true → feState fe s ≤ 1)
    (hr : (feGet fe s).needRelock = false) (hp : fis (feB fe) FE_STAT.PEND s = false) (temp : BitVec 16) :
    feNext fe temp s =
      if feState fe s ≠ fget (feB fe) FE_STAT.TARGET s then
        feBegin fe (feState fe s) (feStep (feState fe s) (fget (feB fe) FE_STAT.TARGET s)) temp (fePut fe f s)
      else if f.announce then raiseEvt (feEv fe) (fePut fe { f with announce := false } s)
      else fePut fe f s := by
  have hrx : ¬ ((feGet fe s).centrePend = true ∧ feState fe s = 3) := fun ⟨h, h3⟩ => by have := hc h; omega
  have hsynth : ¬ (((feGet fe s).centrePend = true ∨ False) ∧ feState fe s = 2) := fun ⟨h, h2⟩ => by
    have := hc (h.resolve_right id); omega
  have hput : { feGet fe s with centrePend := false, needRelock := false } = f :=
    (congrArg (fun b => { feGet fe s with centrePend := false, needRelock := b }) hr.symm).trans hf
  simp only [feNext, Nat.not_le.2 hst, if_false, hrx, hr, Bool.false_eq_true, hsynth, false_and, feTakeHeld,
    fis_fePut, hp, fget_fePut, feGet_fePut_self, fePut_fePut, hput]

/-- With a centre stored, a front end in RX hops. -/
theorem feNext_hop {fe : Fe} {s : State} (hst : feState fe s = 3) (hc : (feGet fe s).centrePend = true)
    (temp : BitVec 16) :
    feNext fe temp s = feHop fe temp (fePut fe { feGet fe s with centrePend := false } s) := by
  simp [feNext, hst, hc]

/-! ### FE_CMD (R92–R94, R118) -/

theorem exec_feCmdTarget_admits {i : Init} {fe : Fe} {s : State} (h : Admits i (feB fe + 8) .store s) (data : Word)
    (temp : BitVec 16) : exec (.feCmdTarget i fe data temp) s = .next (acknowledge (feCmdWrite fe data temp s)) :=
  congrArg Host.Outcome.next (doorStore_admits h)

theorem exec_feCmdCal_admits {i : Init} {fe : Fe} {s : State} (h : Admits i (feB fe + 8) .store s) :
    exec (.feCmdCal i fe) s = .next (acknowledge (feCmdWrite fe 8 0 s)) :=
  congrArg Host.Outcome.next (doorStore_admits h)

/-- OWNER alone when both reasons hold. -/
theorem feRefused_owner {fe : Fe} {s : State} (h : fis (feB fe) FE_STAT.OWNER s = true) :
    feRefused fe s = some FE_ERR.OWNER := if_pos h

theorem feRefused_armed {fe : Fe} {s : State} (ho : fis (feB fe) FE_STAT.OWNER s = false)
    (ha : fis (feB fe) FE_STAT.ARMED s = true) : feRefused fe s = some FE_ERR.BUSY := by
  simp [feRefused, ho, ha]

theorem feCmdWrite_refused {fe : Fe} {f : Fld} {s : State} (h : feRefused fe s = some f) (data : Word)
    (temp : BitVec 16) : feCmdWrite fe data temp s = feReject fe f s := by
  simp only [feCmdWrite, h]

theorem feCmdWrite_noState {fe : Fe} {data : Word} {s : State} (h : feRefused fe s = none) (ht : 5 ≤ bitsOf data 0 3)
    (temp : BitVec 16) : feCmdWrite fe data temp s = fset (feB fe) FE_ERR.CMD 1 s := by
  simp only [feCmdWrite, h, ht, if_true]

/-- A TARGET of 1–4 without CAL is a target alone. -/
theorem feCmdWrite_target {fe : Fe} {data : Word} {s : State} (h : feRefused fe s = none) (h1 : 1 ≤ bitsOf data 0 3)
    (h4 : bitsOf data 0 3 ≤ 4) (hc : bitOf data 3 = false) (temp : BitVec 16) :
    feCmdWrite fe data temp s = feTarget fe (bitsOf data 0 3) temp s := by
  have h5 : ¬ 5 ≤ bitsOf data 0 3 := by omega
  have h0 : bitsOf data 0 3 ≠ 0 := by omega
  simp only [feCmdWrite, h, h5, hc, h0, if_false, Bool.false_eq_true]

/-- Outside a calibration set, a request for calibration sets CAL_PEND alone. -/
theorem calRequest_outside {fe : Fe} {s : State} (h : ∀ t, (feGet fe s).trans = some t → t.cal = false) :
    calRequest fe s = fset (feB fe) FE_STAT.CAL_PEND 1 s := by
  cases ht : (feGet fe s).trans with
  | none => simp [calRequest, ht]
  | some t => simp [calRequest, ht, h t ht]

/-- CAL = 1 with TARGET 0 requests calibration alone (R100). -/
theorem feCmdWrite_cal {fe : Fe} {s : State} (h : feRefused fe s = none) (temp : BitVec 16) :
    feCmdWrite fe 8 temp s = calRequest fe s := by
  simp only [feCmdWrite, h, show bitsOf 8 0 3 = 0 from rfl, show bitOf 8 3 = true from rfl, if_true]
  exact if_neg (by decide)

/-- During a transition a target is held (R93). -/
theorem feTarget_held {fe : Fe} {s : State} (h : (feGet fe s).trans.isSome = true) (t : Nat) (temp : BitVec 16) :
    feTarget fe t temp s = fset (feB fe) FE_STAT.PEND 1 (fset (feB fe) FE_STAT.PEND_TARGET t
      (fePut fe { feGet fe s with announce := true } s)) := by
  simp only [feTarget, feGet_fePut_self, h, true_or, if_true]

/-- The front end as a new target finds it: FE_STATE asked for, and the target shown. -/
def feAimed (fe : Fe) (t : Nat) (s : State) : State :=
  fset (feB fe) FE_STAT.TARGET (t - 1) (fePut fe { feGet fe s with announce := true } s)

theorem feGet_feAimed (fe : Fe) (t : Nat) (s : State) :
    feGet fe (feAimed fe t s) = { feGet fe s with announce := true } := by
  simp only [feAimed, feGet_fset, feGet_fePut_self]

/-- Of FE_STAT a new target changes TARGET alone. -/
theorem fget_feAimed {s : State} (h : Registers.wf s = true) (fe : Fe) (t : Nat) {f : Fld}
    (hf : f.off = FE_STAT.TARGET.off ∧ f.lo + f.w ≤ 32 ∧
      (f.lo + f.w ≤ FE_STAT.TARGET.lo ∨ FE_STAT.TARGET.lo + FE_STAT.TARGET.w ≤ f.lo)) :
    fget (feB fe) f (feAimed fe t s) = fget (feB fe) f s := by
  rw [feAimed, fget_fset_apart ((Registers.wf_fePut ..).trans h) hf, fget_fePut]

theorem wf_feAimed {s : State} (h : Registers.wf s = true) (fe : Fe) (t : Nat) :
    Registers.wf (feAimed fe t s) = true := Registers.wf_fset ((Registers.wf_fePut ..).trans h) _ _ _

/-- With no transition and nothing held, the front end goes on to a new target at once (R92). -/
theorem feTarget_goes {fe : Fe} {t : Nat} {s : State} (hw : Registers.wf s = true) (ht : t ≤ 4)
    (htr : (feGet fe s).trans = none) (hc : (feGet fe s).centrePend = false) (hr : (feGet fe s).needRelock = false)
    (hp : fis (feB fe) FE_STAT.PEND s = false) (hst : feState fe s < 4) (temp : BitVec 16) :
    feTarget fe t temp s =
      if feState fe s ≠ t - 1 then
        feBegin fe (feState fe s) (feStep (feState fe s) (t - 1)) temp (feAimed fe t s)
      else raiseEvt (feEv fe) (fePut fe { feGet fe s with announce := false } (feAimed fe t s)) := by
  have hstate : feState fe (feAimed fe t s) = feState fe s := fget_feAimed hw fe t (by decide)
  have hpend : fis (feB fe) FE_STAT.PEND (feAimed fe t s) = false :=
    (congrArg (· == 1) (fget_feAimed hw fe t (by decide))).trans hp
  have htarget : fget (feB fe) FE_STAT.TARGET (feAimed fe t s) = t - 1 := by
    rw [feAimed, fget_fset_self ((Registers.wf_fePut ..).trans hw) _ _ _ (by decide)]
    exact Nat.mod_eq_of_lt (by simp only [FE_STAT.TARGET]; omega)
  have hget := feGet_feAimed fe t s
  have hgo : feTarget fe t temp s = feNext fe temp (feAimed fe t s) := by
    refine if_neg ?_
    rw [feGet_fePut_self, feState_fePut, htr]
    exact not_or_intro Bool.false_ne_true (Nat.not_le.2 hst)
  have hann : (feGet fe (feAimed fe t s)).announce = true := by rw [hget]
  rw [hgo, feNext_target (hstate ▸ hst) (FeState.centrePend_cleared (by rw [hget, hc])) (by simp [hget, hc])
    (by simp [hget, hr]) hpend, hstate, htarget, fePut_feGet, if_pos hann, hget]

/-- A new target that is not the state: the transition to the walk's next state begins, with FE_STATE asked for. -/
theorem feTarget_begins {fe : Fe} {s : State} (h : Registers.wf s = true) (st dst t : Nat) (temp : BitVec 16) :
    let u := acknowledge (feBegin fe st dst temp (feAimed fe t s))
    (feGet fe u).trans.map (fun x => (x.src, x.dst)) = some (st, dst) ∧ (feGet fe u).announce = true ∧
      fis (feB fe) FE_STAT.BUSY u = true := by
  intro u
  rw [feGet_acknowledge, announce_feBegin, feGet_feAimed]
  exact ⟨trans_feBegin .., rfl, busy_feBegin (wf_feAimed h fe t) fe st dst temp⟩

/-! ### FE_CTRL (R95, R117) -/

theorem exec_feCtrlWrite_admits {i : Init} {fe : Fe} {s : State} (h : Admits i (feB fe + 4) .store s) (data : Word) :
    exec (.feCtrlWrite i fe data) s = .next (acknowledge (feCtrlWrite fe data s)) :=
  congrArg Host.Outcome.next (doorStore_admits h)

/-- A change of ARR or EXTPA_EN. -/
abbrev changesPa (fe : Fe) (data : Word) (s : State) : Prop :=
  bitsOf data 0 2 ≠ bitsOf (rd (feB fe + 4) s) 0 2 ∨ bitOf data 4 ≠ bitOf (rd (feB fe + 4) s) 4

/-- A change of WIDTH. -/
abbrev changesWidth (fe : Fe) (data : Word) (s : State) : Prop :=
  bitsOf data 2 2 ≠ bitsOf (rd (feB fe + 4) s) 2 2

/-- A write of FE_CTRL in range that no other reason refuses: by the state of the front end alone (R95). -/
theorem feCtrlWrite_inRange {fe : Fe} {data : Word} {s : State} (h : feRefused fe s = none)
    (harr : bitsOf data 0 2 ≤ 1) (hext : fe = .b → bitOf data 4 = false) :
    feCtrlWrite fe data s =
      if (changesPa fe data s ∧ feArrAllowed fe s = false) ∨
          (changesWidth fe data s ∧ (feStates fe s).all (fun x => decide (x ≤ 2)) = false) then
        fset (feB fe) FE_ERR.BUSY 1 s
      else
        let u := wr (feB fe + 4) (data &&& 0xBF#32) s
        if bitOf data 5 = true ∧ bitOf (rd (feB fe + 4) s) 5 = false then autoTuneBegin fe u else u := by
  have hrange : ¬ (2 ≤ bitsOf data 0 2 ∨ (fe = .b ∧ bitOf data 4 = true)) := by
    rintro (h2 | ⟨hb, h4⟩)
    · omega
    · exact Bool.false_ne_true ((hext hb).symm.trans h4)
  simp only [feCtrlWrite, h, if_neg hrange]

theorem feCtrlWrite_takes {fe : Fe} {data : Word} {s : State} (h : feRefused fe s = none)
    (harr : bitsOf data 0 2 ≤ 1) (hext : fe = .b → bitOf data 4 = false)
    (hst : (feStates fe s).all (fun x => decide (x ≤ 1)) = true) (hauto : bitOf data 5 = false) :
    feCtrlWrite fe data s = wr (feB fe + 4) (data &&& 0xBF#32) s := by
  have hwidth : (feStates fe s).all (fun x => decide (x ≤ 2)) = true := by
    simp only [List.all_eq_true, decide_eq_true_eq] at hst ⊢
    exact fun x hx => (hst x hx).trans (by decide)
  rw [feCtrlWrite_inRange h harr hext]
  simp only [feArrAllowed, hst, hwidth, hauto, Bool.true_eq_false, Bool.false_eq_true, and_false, false_and, or_self,
    if_false]

/-- A state above `n` is one where not all states lie at or below it. -/
theorem feStates_above {fe : Fe} {n : Nat} {s : State} (h : ∃ x ∈ feStates fe s, n < x) :
    (feStates fe s).all (fun x => decide (x ≤ n)) = false := by
  obtain ⟨x, hx, hlt⟩ := h
  exact List.all_eq_false.2 ⟨x, hx, by simpa using hlt⟩

/-! ### FE_CENTRE (R74, R98) -/

theorem exec_feCentreWrite_admits {i : Init} {fe : Fe} {s : State} (h : Admits i (feB fe + 0x10) .store s)
    (data : Word) : exec (.feCentreWrite i fe data) s = .next (acknowledge (feCentreWrite fe data s)) :=
  congrArg Host.Outcome.next (doorStore_admits h)

/-- A centre the front end may take, stored. -/
def centreStored (fe : Fe) (data : Word) (s : State) : State :=
  fePut fe { feGet fe s with centrePend := true } (wr (feB fe + 0x10) data s)

/-- A write of FE_CENTRE that the state does not refuse (R94): by its range and by the transition in progress. -/
theorem feCentreWrite_admitted {fe : Fe} {s : State} (h : feRefused fe s = none)
    (hst : (feGet fe s).trans.isSome = true ∨ feState fe s < 4) (data : Word) :
    feCentreWrite fe data s =
      if centreOk fe data.toNat = false then fset (feB fe) FE_ERR.RANGE 1 s
      else if (feGet fe s).trans.isSome then centreStored fe data s
      else feNext fe 0 (centreStored fe data s) := by
  have hgo : ¬ ((feGet fe s).trans.isNone = true ∧ 4 ≤ feState fe s) := by
    rintro ⟨hnone, h4⟩
    rw [Option.isNone_iff_eq_none] at hnone
    rw [hnone] at hst
    exact absurd (hst.resolve_left Bool.false_ne_true) (Nat.not_lt.2 h4)
  simp only [feCentreWrite, h, if_neg hgo, Bool.not_eq_true', feGet_wr]
  rfl

theorem feGet_centreStored (fe : Fe) (data : Word) (s : State) :
    feGet fe (centreStored fe data s) = { feGet fe s with centrePend := true } := feGet_fePut_self ..

/-- FE_STAT stands apart from FE_CENTRE. -/
theorem fget_centreStored {s : State} (h : Registers.wf s = true) (fe : Fe) (data : Word) {f : Fld}
    (hf : f.off ≠ 0x10) : fget (feB fe) f (centreStored fe data s) = fget (feB fe) f s := by
  rw [centreStored, fget_fePut, fget_wr_ne h _ _ (by omega)]

/-- A stored centre that has been acted on. -/
theorem fePut_centreStored (fe : Fe) (data : Word) (s : State) :
    fePut fe { feGet fe (centreStored fe data s) with centrePend := false } (centreStored fe data s) =
      fePut fe { feGet fe s with centrePend := false } (wr (feB fe + 0x10) data s) := by
  rw [feGet_centreStored, centreStored, fePut_fePut]

/-- In SLEEP or STANDBY, at its target and with nothing held, a centre is stored and nothing begins. -/
theorem feNext_centre_standby {fe : Fe} {s : State} (hw : Registers.wf s = true) (hst : feState fe s ≤ 1)
    (ht : fget (feB fe) FE_STAT.TARGET s = feState fe s) (hp : fis (feB fe) FE_STAT.PEND s = false)
    (ha : (feGet fe s).announce = false) (hr : (feGet fe s).needRelock = false) (data : Word) (temp : BitVec 16) :
    feNext fe temp (centreStored fe data s) =
      fePut fe { feGet fe s with centrePend := false } (wr (feB fe + 0x10) data s) := by
  have hget := feGet_centreStored fe data s
  have hstate : feState fe (centreStored fe data s) = feState fe s := fget_centreStored hw fe data (by decide)
  have htarget := (fget_centreStored hw fe data (f := FE_STAT.TARGET) (by decide)).trans ht
  have hpend : fis (feB fe) FE_STAT.PEND (centreStored fe data s) = false :=
    (congrArg (· == 1) (fget_centreStored hw fe data (by decide))).trans hp
  have hann : ¬ ({ feGet fe (centreStored fe data s) with centrePend := false } : FeState).announce = true := by
    simp [hget, ha]
  rw [feNext_target (by omega) rfl (fun _ => by omega) (by simp [hget, hr]) hpend, fePut_centreStored, hstate,
    htarget, if_neg (not_not_intro rfl), if_neg hann]

theorem feNext_centre_rx {fe : Fe} {s : State} (hw : Registers.wf s = true) (hst : feState fe s = 3) (data : Word)
    (temp : BitVec 16) :
    feNext fe temp (centreStored fe data s) =
      feHop fe temp (fePut fe { feGet fe s with centrePend := false } (wr (feB fe + 0x10) data s)) := by
  have hstate : feState fe (centreStored fe data s) = 3 := (fget_centreStored hw fe data (by decide)).trans hst
  rw [feNext_hop hstate (by rw [feGet_centreStored]), fePut_centreStored]

/-- The ranges of R74 in Hz. -/
theorem centreOk_iff (fe : Fe) (hz : Nat) :
    centreOk fe hz = true ↔ (feRange fe).1 ≤ hz ∧ hz ≤ (feRange fe).1 + (feRange fe).2 := decide_eq_true_iff

/-- Settles O10: FE_CMD by its refusals and by where a target finds the front end (R92–R94, R118), FE_CTRL by the
states it may change in (R95), and FE_CENTRE by its range and by how the front end goes on (R74, R98). -/
theorem frontEndWrites : Obligations.FrontEndWrites := by
  refine ⟨⟨?_, ?_, ?_⟩, ?_, ?_, ?_, ?_⟩
  · intro i fe data temp s h
    rw [exec_feCmdTarget_admits h]
    refine ⟨fun ho => ?_, fun ho ha => ?_, fun hr ht => ?_⟩
    · rw [feCmdWrite_refused (feRefused_owner ho), feReject]
    · rw [feCmdWrite_refused (feRefused_armed ho ha), feReject]
    · rw [feCmdWrite_noState hr ht]
  · intro i fe s h hr ht
    rw [exec_feCmdCal_admits h, feCmdWrite_cal hr, calRequest_outside ht]
  · rintro i fe _ data temp s h hr rfl h1 h4 hcal hw
    rw [exec_feCmdTarget_admits h, feCmdWrite_target hr h1 h4 hcal]
    refine ⟨fun ht => ?_, fun htr hc hl hp hst => ?_⟩
    · rw [feTarget_held ht]
    · rw [feTarget_goes hw h4 htr hc hl hp hst]
      refine ⟨fun he => ?_, fun hne => ?_⟩
      · rw [if_neg (not_not_intro he), feAimed, fePut_fset, fePut_fePut, fePut_fset]
      · rw [if_pos hne]
        exact ⟨_, rfl, feTarget_begins hw ..⟩
  · intro i fe data s h hr harr hext
    rw [exec_feCtrlWrite_admits h]
    refine ⟨fun hst hauto => ?_, fun hst hne => ?_, fun hst hne => ?_⟩
    · rw [feCtrlWrite_takes hr harr hext hst hauto]
    · rw [feCtrlWrite_inRange hr harr hext, if_pos (.inr ⟨hne, feStates_above hst⟩)]
    · rw [feCtrlWrite_inRange hr harr hext, if_pos (.inl ⟨.inl hne, feStates_above hst⟩)]
  · intro i fe data s h hr hst
    rw [exec_feCentreWrite_admits h, feCentreWrite_admitted hr hst]
    refine ⟨fun hc => ?_, fun hc ht => ?_, fun hc ht hw h1 htarget hp ha hl => ?_, fun hc ht hw h3 => ?_⟩
    · rw [if_pos hc]
    · simp only [hc, ht, Bool.true_eq_false, if_true, if_false]
      rfl
    · simp only [hc, ht, Bool.true_eq_false, Option.isSome_none, Bool.false_eq_true, if_false,
        feNext_centre_standby hw h1 htarget hp ha hl]
    · simp only [hc, ht, Bool.true_eq_false, Option.isSome_none, Bool.false_eq_true, if_false,
        feNext_centre_rx hw h3]
  · exact fun fe temp s => trans_feBegin ..
  · exact fun hz => ⟨centreOk_iff .a hz, centreOk_iff .b hz⟩

end Sys2Proof.Machine

namespace Sys2Proof.Tests

open Sys2Proof.Machine

set_option maxRecDepth 100000

/-- Front end A from STANDBY up to SYNTH, without a calibration set. -/
def walking : State := fePut .a { roomZeroOpen.feA with trans := some ⟨1, 2, false⟩ } roomZeroOpen

/-- Front end A in state `st`, its target. -/
def standing (st : Nat) : State :=
  fset (feB .a) Reg.FE_STAT.TARGET st (fset (feB .a) Reg.FE_STAT.STATE st roomZeroOpen)

/-- Admitted writes of FE_CMD while the lantern holds the token, while a job is armed and with neither, in and out of a
transition; of FE_CTRL in SLEEP, RX and SYNTH; of FE_CENTRE out of range, in a transition, in STANDBY and in RX. -/
theorem test_hyps_frontEndWrites :
    ((∀ f ∈ [Reg.FE_STAT.OWNER, Reg.FE_STAT.ARMED],
        Admits .steward (feB .a + 8) .store (fset (feB .a) f 1 roomZeroOpen) ∧
        fis (feB .a) f (fset (feB .a) f 1 roomZeroOpen) = true) ∧
      fis (feB .a) Reg.FE_STAT.OWNER (fset (feB .a) Reg.FE_STAT.ARMED 1 roomZeroOpen) = false ∧
      ∀ s ∈ [roomZeroOpen, walking, standing 1, standing 2, standing 3], feRefused .a s = none ∧
        Registers.wf s = true ∧ ∀ off ∈ [4, 8, 0x10], Admits .steward (feB .a + off) .store s) ∧
    (bitsOf 5 0 3 = 5 ∧ bitsOf 2 0 3 = 2 ∧ bitOf 2 3 = false ∧ walking.feA.trans = some ⟨1, 2, false⟩) ∧
    (∀ s ∈ [standing 1, standing 2], s.feA.trans = none ∧ s.feA.centrePend = false ∧ s.feA.needRelock = false ∧
      fis (feB .a) Reg.FE_STAT.PEND s = false ∧ feState .a s < 4) ∧
    (feState .a (standing 1) = 2 - 1 ∧ feState .a (standing 2) ≠ 2 - 1) ∧
    ((bitsOf 0 0 2 ≤ 1 ∧ bitOf 0 4 = false ∧ bitOf 0 5 = false) ∧ feStates .a (standing 1) = [1] ∧
      (feStates .a (standing 3) = [3] ∧ bitsOf 0 2 2 ≠ bitsOf (rd (feB .a + 4) (standing 3)) 2 2) ∧
      (feStates .a walking = [1, 2] ∧ bitsOf 1 0 2 ≠ bitsOf (rd (feB .a + 4) walking) 0 2)) ∧
    (centreOk .a 409999999 = false ∧ centreOk .a (868000000 : Word).toNat = true ∧ feState .a (standing 3) = 3 ∧
      (standing 3).feA.trans = none) ∧
    (feState .a (standing 1) ≤ 1 ∧ fget (feB .a) Reg.FE_STAT.TARGET (standing 1) = feState .a (standing 1) ∧
      (standing 1).feA.announce = false) := by decide

end Sys2Proof.Tests
end

section
/-!
SUPPORT. The upkeep of the radio: die temperature (R134), tuner (R106), mismatch (R107–R109), the token's return (R113) and
the output power (R140): one lemma per operation and case.
-/

namespace Sys2Proof.Machine

open Reg

/-! ### Die temperature (R134) -/

/-- A sample is recorded, and its distance from the last calibration's decides on a request. -/
theorem tempSample_recorded {fe : Fe} {s : State} (h : Registers.wf s = true) (temp : BitVec 16) :
    let u := fset (feB fe) CAL_CFG.TEMP_NOW temp.toNat s
    tempSample fe temp s =
      if fget (feB fe) CAL_CFG.TEMP_DELTA s ≠ 0 ∧ 4 * fget (feB fe) CAL_CFG.TEMP_DELTA s <
          (temp.toInt - fgetS (feB fe) CAL_STAT.TEMP_AT_CAL s).natAbs then calRequest fe u else u := by
  intro u
  have hdelta : fget (feB fe) CAL_CFG.TEMP_DELTA u = fget (feB fe) CAL_CFG.TEMP_DELTA s :=
    fget_fset_apart h (by decide)
  have hcal : fgetS (feB fe) CAL_STAT.TEMP_AT_CAL u = fgetS (feB fe) CAL_STAT.TEMP_AT_CAL s :=
    congrArg (signedOf 16) (fget_fset_reg h _ _ _ (by simp only [CAL_STAT.TEMP_AT_CAL, CAL_CFG.TEMP_NOW]; omega))
  rw [← hdelta, ← hcal]
  rfl

/-- Outside SLEEP a sample is taken. -/
theorem exec_dieTempSample_awake {fe : Fe} {s : State} (h : feState fe s ≠ 0) (temp : BitVec 16) :
    exec (.dieTempSample fe temp) s = .next (tempSample fe temp s) :=
  congrArg Host.Outcome.next (if_neg fun ⟨h0, _⟩ => h h0)

/-! ### The antenna tuner (R106) -/

/-- C_SER, C_SH1 and C_SH2 of FE_TUNE as one field. -/
def tuneFld : Fld := ⟨0x34, 0, 17⟩

theorem tuneSetting_eq (fe : Fe) (s : State) : tuneSetting fe s = fget (feB fe) tuneFld s := rfl

/-- FE_TUNE with a new setting. -/
abbrev tuneShown (fe : Fe) (setting : Nat) (s : State) : State := fset (feB fe) tuneFld setting s

theorem tuneGive_eq (fe : Fe) (setting : Nat) (s : State) :
    tuneGive fe setting s =
      if feState fe (tuneShown fe setting s) ≤ 2 then
        fset (feB fe) FE_TUNE.PENDING 0 (fePut fe { feGet fe s with tuneNow := setting } (tuneShown fe setting s))
      else fset (feB fe) FE_TUNE.PENDING 1 (tuneShown fe setting s) := by
  rw [← feGet_fset fe (feB fe) tuneFld setting s]
  rfl

@[simp] theorem fdxRetrain_regs (fe : Fe) (s : State) : (fdxRetrain fe s).regs = s.regs := fdxPut_regs ..

@[simp] theorem feGet_fdxRetrain (g fe : Fe) (s : State) : feGet g (fdxRetrain fe s) = feGet g s := feGet_fdxPut ..

/-- A register outside FE_TUNE reads as before a setting is given. -/
theorem rd_tuneGive {s : State} (h : Registers.wf s = true) (fe : Fe) (setting : Nat) {a : Nat}
    (ha : a ≠ feB fe + 0x34) : rd a (tuneGive fe setting s) = rd a s := by
  have hshown := Registers.wf_fset h (feB fe) tuneFld setting
  rw [tuneGive_eq]
  split
  · rw [rd_fset_ne ((Registers.wf_fePut ..).trans hshown) _ _ ha, rd_fePut, rd_fset_ne h _ _ ha]
  · rw [rd_fset_ne hshown _ _ ha, rd_fset_ne h _ _ ha]

/-- A write of FE_TUNE without the automatic search gives the setting, and may ask for a training (R297). -/
theorem feTuneWrite_manual {fe : Fe} {s : State} (h : Registers.wf s = true)
    (hauto : fis (feB fe) FE_CTRL.AUTO_TUNE s = false) (data : Word) :
    (feTuneWrite fe data s).regs = (tuneGive fe (bitsOf data 0 17) s).regs ∧
      feGet fe (feTuneWrite fe data s) = feGet fe (tuneGive fe (bitsOf data 0 17) s) := by
  unfold feTuneWrite
  extract_lets u v
  have hregs : v.regs = u.regs := by
    simp only [v]
    split <;> simp
  have hfe : feGet fe v = feGet fe u := by
    simp only [v]
    split <;> simp
  have hctrl : rd (feB fe + FE_CTRL.AUTO_TUNE.off) v = rd (feB fe + FE_CTRL.AUTO_TUNE.off) s :=
    (congrArg (fun r => tget regReset r _) hregs).trans
      (rd_tuneGive h fe _ (by simp only [FE_CTRL.AUTO_TUNE]; omega))
  have hoff : fis (feB fe) FE_CTRL.AUTO_TUNE v = false := by rw [fis, fget, hctrl, ← fget, ← fis, hauto]
  rw [if_neg (by rw [hoff]; exact Bool.false_ne_true)]
  exact ⟨hregs, hfe⟩

/-- A setting given stands in FE_TUNE; it is in force at once in SLEEP, STANDBY and SYNTH, and else held. -/
theorem tuneGive_given {s : State} (h : Registers.wf s = true) (fe : Fe) {setting : Nat} (hlt : setting < 2 ^ 17) :
    let u := tuneGive fe setting s
    tuneSetting fe u = setting ∧
      (feState fe s ≤ 2 → (feGet fe u).tuneNow = setting ∧ fis (feB fe) FE_TUNE.PENDING u = false) ∧
      (2 < feState fe s → (feGet fe u).tuneNow = (feGet fe s).tuneNow ∧ fis (feB fe) FE_TUNE.PENDING u = true) := by
  intro u
  have hshown := Registers.wf_fset h (feB fe) tuneFld setting
  have hself : fget (feB fe) tuneFld (tuneShown fe setting s) = setting :=
    (fget_fset_self h _ _ _ (by decide)).trans (Nat.mod_eq_of_lt hlt)
  have hstate : feState fe (tuneShown fe setting s) = feState fe s :=
    fget_fset_reg h _ _ _ (by simp only [FE_STAT.STATE, tuneFld]; omega)
  have hu : u = _ := tuneGive_eq fe setting s
  rw [hstate] at hu
  by_cases hst : feState fe s ≤ 2
  · rw [if_pos hst] at hu
    have hput := (Registers.wf_fePut fe { feGet fe s with tuneNow := setting } _).trans hshown
    rw [hu, tuneSetting_eq, fget_fset_apart hput (by decide), fget_fePut, hself, feGet_fset, feGet_fePut_self, fis,
      fget_fset_self hput _ _ _ (by decide)]
    exact ⟨rfl, fun _ => ⟨rfl, rfl⟩, fun h3 => absurd hst (Nat.not_le.2 h3)⟩
  · rw [if_neg hst] at hu
    rw [hu, tuneSetting_eq, fget_fset_apart hshown (by decide), hself, feGet_fset, feGet_fset]
    exact ⟨rfl, fun h2 => absurd h2 hst, fun _ => ⟨rfl, fis_fset_one hshown _ (by decide)⟩⟩

/-! ### The mismatch window (R107–R109) -/

/-- FE_MISMATCH with a measurement. -/
def mismatchShown (fe : Fe) (mag phase fwd : Nat) (strong : Bool) (s : State) : State :=
  fset (feB fe) FE_MISMATCH.GAMMA_MAG mag (fset (feB fe) FE_MISMATCH.GAMMA_PH phase
    (fset (feB fe) FE_MISMATCH.VALID (ofBool strong) (fset (feB fe) FE_MISMATCH.FWD_QDBM fwd
      (fnext (feB fe) FE_MISMATCH.SEQ s))))

@[simp] theorem feGet_mismatchShown (g fe : Fe) (mag phase fwd : Nat) (strong : Bool) (s : State) :
    feGet g (mismatchShown fe mag phase fwd strong s) = feGet g s := by
  simp only [mismatchShown, fnext, feGet_fset]

theorem wf_mismatchShown {s : State} (h : Registers.wf s = true) (fe : Fe) (mag phase fwd : Nat) (strong : Bool) :
    Registers.wf (mismatchShown fe mag phase fwd strong s) = true := by
  unfold mismatchShown fnext
  iterate 5 apply Registers.wf_fset
  exact h

/-- A measurement stands in FE_MISMATCH alone. -/
theorem fget_mismatchShown_ne {s : State} (h : Registers.wf s = true) (fe : Fe) (mag phase fwd : Nat) (strong : Bool)
    {f : Fld} (hf : f.off ≠ 0x3C) :
    fget (feB fe) f (mismatchShown fe mag phase fwd strong s) = fget (feB fe) f s := by
  have ha : feB fe + f.off ≠ feB fe + 0x3C := by omega
  have hseq := Registers.wf_fset h (feB fe) FE_MISMATCH.SEQ (fget (feB fe) FE_MISMATCH.SEQ s + 1)
  have hfwd := Registers.wf_fset hseq (feB fe) FE_MISMATCH.FWD_QDBM fwd
  have hvalid := Registers.wf_fset hfwd (feB fe) FE_MISMATCH.VALID (ofBool strong)
  have hph := Registers.wf_fset hvalid (feB fe) FE_MISMATCH.GAMMA_PH phase
  rw [mismatchShown, fnext, fget_fset_reg hph _ _ _ ha, fget_fset_reg hvalid _ _ _ ha, fget_fset_reg hfwd _ _ _ ha,
    fget_fset_reg hseq _ _ _ ha, fget_fset_reg h _ _ _ ha]

/-- A measurement's fields, read back. -/
theorem fget_mismatchShown {s : State} (h : Registers.wf s = true) (fe : Fe) (mag fwd : BitVec 8) (phase : BitVec 6)
    (strong : Bool) :
    let u := mismatchShown fe mag.toNat phase.toNat fwd.toNat strong s
    fget (feB fe) FE_MISMATCH.GAMMA_MAG u = mag.toNat ∧ fget (feB fe) FE_MISMATCH.GAMMA_PH u = phase.toNat ∧
      fget (feB fe) FE_MISMATCH.FWD_QDBM u = fwd.toNat ∧ fis (feB fe) FE_MISMATCH.VALID u = strong ∧
      fget (feB fe) FE_MISMATCH.SEQ u = (fget (feB fe) FE_MISMATCH.SEQ s + 1) % 256 := by
  have hseq := Registers.wf_fset h (feB fe) FE_MISMATCH.SEQ (fget (feB fe) FE_MISMATCH.SEQ s + 1)
  have hfwd := Registers.wf_fset hseq (feB fe) FE_MISMATCH.FWD_QDBM fwd.toNat
  have hvalid := Registers.wf_fset hfwd (feB fe) FE_MISMATCH.VALID (ofBool strong)
  have hph := Registers.wf_fset hvalid (feB fe) FE_MISMATCH.GAMMA_PH phase.toNat
  simp (disch := decide) only [mismatchShown, fnext, fis, fget_fset_self h, fget_fset_self hseq, fget_fset_self hfwd,
    fget_fset_self hvalid, fget_fset_self hph, fget_fset_apart hseq, fget_fset_apart hfwd, fget_fset_apart hvalid,
    fget_fset_apart hph]
  refine ⟨Nat.mod_eq_of_lt mag.isLt, Nat.mod_eq_of_lt phase.isLt, Nat.mod_eq_of_lt fwd.isLt, ?_, rfl⟩
  cases strong <;> rfl

/-- The alarm of R108 writes FE_ERR alone. -/
theorem fget_mismatchAlarm_ne {s : State} (h : Registers.wf s = true) (fe : Fe) (mag : Nat) {f : Fld}
    (hf : f.off ≠ 0x40) : fget (feB fe) f (mismatchAlarm fe mag s) = fget (feB fe) f s := by
  have hput (v : FeState) := (Registers.wf_fePut fe v s).trans h
  have ha : feB fe + f.off ≠ feB fe + FE_ERR.TUNE_ALARM.off := by simp only [FE_ERR.TUNE_ALARM]; omega
  unfold mismatchAlarm
  extract_lets b n run
  split
  · rw [fget_raiseEvt, fget_fset_reg (hput _) _ _ _ ha, fget_fePut]
  · rw [fget_fePut]

theorem wf_mismatchAlarm {s : State} (h : Registers.wf s = true) (fe : Fe) (mag : Nat) :
    Registers.wf (mismatchAlarm fe mag s) = true := (mismatchAlarm_keeps (β := true) .rfl fe mag).regs h

/-- The last of ALARM_N consecutive measurements above ALARM_TH sets TUNE_ALARM, and the count restarts. -/
theorem mismatchAlarm_fires {fe : Fe} {mag : Nat} {s : State} (h : Registers.wf s = true)
    (hth : fget (feB fe) FE_TUNE_CFG.ALARM_TH s < mag) (h0 : fget (feB fe) FE_TUNE_CFG.ALARM_N s ≠ 0)
    (hrun : fget (feB fe) FE_TUNE_CFG.ALARM_N s ≤ (feGet fe s).alarmRun + 1) :
    let u := mismatchAlarm fe mag s
    fis (feB fe) FE_ERR.TUNE_ALARM u = true ∧ (feGet fe u).alarmRun = 0 := by
  intro u
  have hu : u = raiseEvt (feEv fe + 5) (fset (feB fe) FE_ERR.TUNE_ALARM 1
      (fePut fe { feGet fe s with alarmRun := 0 } s)) := by
    simp only [u, mismatchAlarm, if_pos hth]
    exact if_pos ⟨h0, hrun⟩
  rw [hu, fis_raiseEvt, feGet_raiseEvt, feGet_fset, feGet_fePut_self]
  exact ⟨fis_fset_one ((Registers.wf_fePut ..).trans h) _ (by decide), rfl⟩

/-- What a valid measurement does (R108, R109): the alarm, and PROT above PROT_TH. -/
def mismatchActs (fe : Fe) (mag : Nat) (s : State) : State :=
  let u := mismatchAlarm fe mag s
  if fget (feB fe) FE_TUNE_CFG.PROT_TH u < mag then fset (feB fe) FE_ERR.PROT 1 u else u

theorem fget_mismatchActs_ne {s : State} (h : Registers.wf s = true) (fe : Fe) (mag : Nat) {f : Fld}
    (hf : f.off ≠ 0x40) : fget (feB fe) f (mismatchActs fe mag s) = fget (feB fe) f s := by
  have ha : feB fe + f.off ≠ feB fe + FE_ERR.PROT.off := by simp only [FE_ERR.PROT]; omega
  simp only [mismatchActs]
  split
  · rw [fget_fset_reg (wf_mismatchAlarm h fe mag) _ _ _ ha, fget_mismatchAlarm_ne h fe mag hf]
  · exact fget_mismatchAlarm_ne h fe mag hf

/-- PROT stands apart from what the alarm leaves. -/
theorem mismatchActs_alarm {s : State} (h : Registers.wf s = true) (fe : Fe) (mag : Nat) :
    fis (feB fe) FE_ERR.TUNE_ALARM (mismatchActs fe mag s) = fis (feB fe) FE_ERR.TUNE_ALARM (mismatchAlarm fe mag s) ∧
      feGet fe (mismatchActs fe mag s) = feGet fe (mismatchAlarm fe mag s) := by
  simp only [mismatchActs]
  split
  · exact ⟨congrArg (· == 1) (fget_fset_apart (wf_mismatchAlarm h fe mag) (by decide)), feGet_fset ..⟩
  · exact ⟨rfl, rfl⟩

theorem mismatchActs_prot {fe : Fe} {mag : Nat} {s : State} (h : Registers.wf s = true)
    (hth : fget (feB fe) FE_TUNE_CFG.PROT_TH s < mag) :
    fis (feB fe) FE_ERR.PROT (mismatchActs fe mag s) = true := by
  have hset : mismatchActs fe mag s = fset (feB fe) FE_ERR.PROT 1 (mismatchAlarm fe mag s) :=
    if_pos (by rwa [fget_mismatchAlarm_ne h fe mag (by decide)])
  rw [hset]
  exact fis_fset_one (wf_mismatchAlarm h fe mag) _ (by decide)

/-- The end of a mismatch window without the automatic search: it is measured with MEAS_EN 1 in TX and DUPLEX alone,
and acts when it is valid. -/
theorem mismatch_manual {fe : Fe} {s : State} (h : Registers.wf s = true)
    (hen : fis (feB fe) FE_CTRL.MEAS_EN s = true) (hst : 4 ≤ feState fe s)
    (hauto : fis (feB fe) FE_CTRL.AUTO_TUNE s = false) (mag phase fwd : Nat) (strong : Bool) :
    let u := mismatchShown fe mag phase fwd strong s
    mismatch fe mag phase fwd strong s = if strong then mismatchActs fe mag u else u := by
  intro u
  have hgo : ¬ (fis (feB fe) FE_CTRL.MEAS_EN s = false ∨ feState fe s < 4) := by
    rw [hen]
    exact not_or_intro (fun h => Bool.false_ne_true h.symm) (Nat.not_lt.2 hst)
  have hoff : fis (feB fe) FE_CTRL.AUTO_TUNE (mismatchActs fe mag u) = false := by
    rw [fis, fget_mismatchActs_ne (wf_mismatchShown h ..) _ _ (by decide),
      fget_mismatchShown_ne h _ _ _ _ _ (by decide)]
    exact hauto
  have hacts : (if fis (feB fe) FE_CTRL.AUTO_TUNE (mismatchActs fe mag u) then
      autoTuneStep fe mag (mismatchActs fe mag u) else mismatchActs fe mag u) = mismatchActs fe mag u :=
    if_neg (by rw [hoff]; exact Bool.false_ne_true)
  rw [mismatch, if_neg hgo]
  cases strong
  · rfl
  · exact hacts

theorem mismatch_off {fe : Fe} {s : State} (h : fis (feB fe) FE_CTRL.MEAS_EN s = false) (mag phase fwd : Nat)
    (strong : Bool) : mismatch fe mag phase fwd strong s = s := if_pos (.inl h)

/-- A valid measurement leaves FE_MISMATCH as it shows it. -/
theorem fget_mismatch_shown {fe : Fe} {s u : State} (h : Registers.wf s = true) {mag phase fwd : Nat} {strong : Bool}
    (hu : u = if strong then mismatchActs fe mag (mismatchShown fe mag phase fwd strong s)
      else mismatchShown fe mag phase fwd strong s) {f : Fld} (hf : f.off ≠ 0x40) :
    fget (feB fe) f u = fget (feB fe) f (mismatchShown fe mag phase fwd strong s) := by
  rw [hu]
  split
  · exact fget_mismatchActs_ne (wf_mismatchShown h ..) fe mag hf
  · rfl

/-! ### The radio token (R113) -/

@[simp] theorem fis_acknowledge (b : Nat) (f : Fld) (s : State) : fis b f (acknowledge s) = fis b f s := rfl

theorem exec_radioReclaim_admits {i : Init} {s : State} (h : Admits i 0x40000044 .store s) :
    exec (.radioReclaim i) s = .next (acknowledge (radioReclaim s)) := congrArg Host.Outcome.next (doorStore_admits h)

/-- The token with the hall or with the lantern, in FE_OWNER and in both mirrors of it (R111). -/
theorem fis_radioOwner {s : State} (h : Registers.wf s = true) (lantern : Bool) :
    let u := radioOwner lantern s
    fis (feB .a) FE_OWNER.OWNER u = lantern ∧ fis (feB .a) FE_STAT.OWNER u = lantern ∧
      fis (feB .b) FE_STAT.OWNER u = lantern := by
  have hown := Registers.wf_fset h (feB .a) FE_OWNER.OWNER (ofBool lantern)
  have hstat := Registers.wf_fset hown (feB .a) FE_STAT.OWNER (ofBool lantern)
  simp (disch := decide) only [radioOwner, fis, fget_fset_self hstat, fget_fset_reg hstat, fget_fset_self hown,
    fget_fset_reg hown, fget_fset_self h]
  cases lantern <;> exact ⟨rfl, rfl, rfl⟩

/-! ### The output power (R140) -/

/-- The least of a request and its caps, in 0.25 dBm. -/
def powerLeast (fe : Fe) (req plic : Int) (v : Nat) (s : State) : Int :=
  min (min req (fgetS (feB fe) FE_PA.MAX_QDBM s)) (min plic (headFloor fe v))

theorem powerSet_eq (fe : Fe) (req plic : Int) (v : Nat) (s : State) :
    powerSet fe req plic v s =
      max (-80) (powerLeast fe req plic v s - (if fis (feB fe) FE_ERR.PROT s then 24 else 0)) := rfl

theorem powerSet_unprotected {fe : Fe} {s : State} (h : fis (feB fe) FE_ERR.PROT s = false) (req plic : Int)
    (v : Nat) : powerSet fe req plic v s = max (-80) (powerLeast fe req plic v s) := by
  rw [powerSet_eq, h, if_neg Bool.false_ne_true, Int.sub_zero]

theorem powerSet_protected {fe : Fe} {s : State} (h : fis (feB fe) FE_ERR.PROT s = true) (req plic : Int) (v : Nat) :
    powerSet fe req plic v s = max (-80) (powerLeast fe req plic v s - 24) := by
  rw [powerSet_eq, h, if_pos rfl]

/-- P_set is at its floor, or at most the request and each cap. -/
theorem powerSet_bounds (fe : Fe) (req plic : Int) (v : Nat) (s : State) :
    -80 ≤ powerSet fe req plic v s ∧ (powerSet fe req plic v s = -80 ∨
      powerSet fe req plic v s ≤ powerLeast fe req plic v s) := by
  have hprot : (0 : Int) ≤ if fis (feB fe) FE_ERR.PROT s then 24 else 0 := by split <;> decide
  rw [powerSet_eq]
  omega

/-- Settles O12: the die temperature by a sample's distance (R134), the tuner by the state a setting finds (R106), the
mismatch window by what is shown and what acts (R107–R109), the token by SEQ (R113), and P_set by its bounds (R140). -/
theorem radioUpkeep : Obligations.RadioUpkeep := by
  refine ⟨⟨?_, ?_⟩, ⟨?_, ?_⟩, ?_, ?_⟩
  · intro fe temp s hst hw
    rw [exec_dieTempSample_awake hst, tempSample_recorded hw]
    refine ⟨fun h0 => ?_, fun h0 htr => ?_⟩
    · rw [if_neg fun h => h.1 h0]
    · rw [calRequest_outside (by simp [htr])]
      simp only [h0, ne_eq, not_false_eq_true, true_and]
  · intro i fe data s h hw hauto
    have hgiven := tuneGive_given hw fe (bitsOf_lt data 0 17)
    refine ⟨_, congrArg Host.Outcome.next (doorStore_admits h), ?_⟩
    obtain ⟨hregs, hfe⟩ := feTuneWrite_manual hw hauto data
    simp only [tuneSetting, fis, fget, rd] at hgiven
    simp only [tuneSetting, fis, fget, rd, acknowledge_regs, feGet_acknowledge, hregs, hfe]
    exact hgiven
  · exact fun fe mag fwd phase strong s h => congrArg Host.Outcome.next (mismatch_off h ..)
  · intro fe mag fwd phase strong s hw hen hst hauto
    have hu := mismatch_manual hw hen hst hauto mag.toNat phase.toNat fwd.toNat strong
    have hshown := wf_mismatchShown hw fe mag.toNat phase.toNat fwd.toNat strong
    have hfield {f : Fld} (hf : f.off ≠ 0x40) := fget_mismatch_shown hw hu hf
    obtain ⟨hmag, hph, hfwd, hvalid, hseq⟩ := fget_mismatchShown hw fe mag fwd phase strong
    have hkept {f : Fld} (hf : f.off ≠ 0x3C) :=
      fget_mismatchShown_ne hw fe mag.toNat phase.toNat fwd.toNat strong hf
    refine ⟨_, rfl, (hfield (by decide)).trans hmag, (hfield (by decide)).trans hph,
      (hfield (by decide)).trans hfwd, (congrArg (· == 1) (hfield (by decide))).trans hvalid,
      (hfield (by decide)).trans hseq, fun hs => ?_, fun hs hth => ?_, fun hs hth h0 hrun => ?_⟩
    · rw [hu, hs]
      exact ⟨fget_mismatchShown_ne hw fe _ _ _ _ (by decide), feGet_mismatchShown ..⟩
    · rw [hu, if_pos hs]
      exact mismatchActs_prot hshown (by rwa [hkept (by decide)])
    · obtain ⟨halarm, hfe⟩ := mismatchActs_alarm hshown fe mag.toNat
      rw [hu, if_pos hs, halarm, hfe]
      refine mismatchAlarm_fires hshown ?_ ?_ ?_
      · rwa [hkept (by decide)]
      · rwa [hkept (by decide)]
      · rwa [hkept (by decide), feGet_mismatchShown]
  · intro i s h hw
    rw [exec_radioReclaim_admits h]
    refine ⟨fun hseq => ?_, fun hseq => ⟨_, rfl, ?_⟩⟩
    · rw [radioReclaim, if_neg hseq]
    · rw [radioReclaim, if_pos hseq]
      simp only [fis_acknowledge]
      exact fis_radioOwner (Registers.wf_fset hw _ _ _) false
  · intro fe req plic v s
    obtain ⟨hfloor, hleast⟩ := powerSet_bounds fe req plic v s
    refine ⟨hfloor, hleast.imp_right fun h => ?_, fun t hmax hs ht => ?_⟩
    · simp only [powerLeast] at h
      omega
    · have hsame : powerLeast fe req plic v t = powerLeast fe req plic v s := by simp only [powerLeast, fgetS, hmax]
      rw [powerSet_unprotected hs, powerSet_protected ht, hsame]
      omega

end Sys2Proof.Machine

namespace Sys2Proof.Tests

open Sys2Proof.Machine

set_option maxRecDepth 100000

/-- Front end A in TX, measuring every frame, with one alarm left to its count of two. -/
def measuring : State :=
  fset (feB .a) Reg.FE_TUNE_CFG.ALARM_N 2 (fset (feB .a) Reg.FE_CTRL.MEAS_EN 1 (fset (feB .a) Reg.FE_STAT.STATE 4
    (fePut .a { roomZeroOpen.feA with alarmRun := 1 } roomZeroOpen)))

/-- A sample with TEMP_DELTA 0 and another, outside SLEEP; admitted settings in STANDBY and in RX; a window with and
without MEAS_EN, and a strong measurement above both thresholds; admitted reclaims with SEQ IDLE and not; and PROT clear
and set with one cap. -/
theorem test_hyps_radioUpkeep :
    (feState .a (standing 1) ≠ 0 ∧ fget (feB .a) Reg.CAL_CFG.TEMP_DELTA (standing 1) ≠ 0 ∧
      (standing 1).feA.trans = none ∧
      fget (feB .a) Reg.CAL_CFG.TEMP_DELTA (fset (feB .a) Reg.CAL_CFG.TEMP_DELTA 0 (standing 1)) = 0 ∧
      feState .a (fset (feB .a) Reg.CAL_CFG.TEMP_DELTA 0 (standing 1)) ≠ 0) ∧
    (∀ s ∈ [standing 1, standing 3], Admits .steward (feB .a + 0x34) .store s ∧ Registers.wf s = true ∧
      fis (feB .a) Reg.FE_CTRL.AUTO_TUNE s = false) ∧
    (feState .a (standing 1) ≤ 2 ∧ 2 < feState .a (standing 3)) ∧
    (fis (feB .a) Reg.FE_CTRL.MEAS_EN (fset (feB .a) Reg.FE_CTRL.MEAS_EN 0 measuring) = false ∧
      fis (feB .a) Reg.FE_CTRL.MEAS_EN measuring = true ∧ 4 ≤ feState .a measuring ∧
      Registers.wf measuring = true ∧ fis (feB .a) Reg.FE_CTRL.AUTO_TUNE measuring = false) ∧
    (fget (feB .a) Reg.FE_TUNE_CFG.PROT_TH measuring < (255#8).toNat ∧
      fget (feB .a) Reg.FE_TUNE_CFG.ALARM_TH measuring < (255#8).toNat ∧
      fget (feB .a) Reg.FE_TUNE_CFG.ALARM_N measuring ≠ 0 ∧
      fget (feB .a) Reg.FE_TUNE_CFG.ALARM_N measuring ≤ measuring.feA.alarmRun + 1) ∧
    (∀ k ∈ [0, 1], Admits .steward 0x40000044 .store (fset (feB .a) Reg.FE_OWNER.SEQ k roomZeroOpen) ∧
      fget (feB .a) Reg.FE_OWNER.SEQ (fset (feB .a) Reg.FE_OWNER.SEQ k roomZeroOpen) = k) ∧
    (fget (feB .a) Reg.FE_PA.MAX_QDBM (fset (feB .a) Reg.FE_ERR.PROT 1 measuring) =
        fget (feB .a) Reg.FE_PA.MAX_QDBM measuring ∧
      fis (feB .a) Reg.FE_ERR.PROT measuring = false ∧
      fis (feB .a) Reg.FE_ERR.PROT (fset (feB .a) Reg.FE_ERR.PROT 1 measuring) = true) := by decide

end Sys2Proof.Tests
end

section
/-!
SUPPORT. The licence table written once (R147, R148): what the door says of its window, a write of LIC_CMD by its case,
and the end of a burn.
-/

namespace Sys2Proof.Machine

open Reg

/-! ### The window of the table at the door (R147, R693) -/

/-- A list of causes in which one holds names a cause. -/
theorem firstCause_ne_none {c : Nat} {l : List (Bool × Nat)} (h : (true, c) ∈ l) : firstCause l ≠ none := by
  induction l with
  | nil => exact absurd h List.not_mem_nil
  | cons x r ih =>
    obtain ⟨b, d⟩ := x
    cases b with
    | true => exact Option.some_ne_none d
    | false => exact ih (by simpa using h)

/-- What the rule of its target refuses, the door refuses, with this cause or an earlier one of R693's order. -/
theorem doorCheck_denied {i : Init} {a n : Nat} {k : Access} {t : Target} {s : State} (ht : targetOfAccess a n = some t)
    (h : targetDeny t a n k i (roomOf i s) s ≠ none) : doorCheck i a n k s ≠ none := by
  obtain ⟨c, hc⟩ := Option.ne_none_iff_exists'.1 h
  simp only [doorCheck, doorCheckAs, ht, hc]
  split_ifs <;> exact Option.some_ne_none _

/-- An octet of front end A's block. -/
theorem targetOf_frontEndA {off : Nat} (h : off < 0x10000) : targetOf (0x40000000 + off) = some (.block 0 off) := by
  have hblock : (0x40000000 + off - 0x40000000) / 0x10000 = 0 := by omega
  have hoff : (0x40000000 + off) % 0x10000 = off := by omega
  rw [targetOf, hblock, hoff]
  repeat rw [if_neg (by omega)]
  exact if_pos (by omega)

/-- A word of LIC_TABLE lies in front end A's block, from offset 0x800. -/
theorem targetOfAccess_licTable (offset : BitVec 9) :
    targetOfAccess (0x40000800 + 4 * offset.toNat) 4 = some (.block 0 (0x800 + 4 * offset.toNat)) := by
  have hlt := offset.isLt
  have hfirst : targetOf (0x40000800 + 4 * offset.toNat) = some (.block 0 (0x800 + 4 * offset.toNat)) := by
    rw [← targetOf_frontEndA (by omega), ← Nat.add_assoc]
  have hlast : targetOf (0x40000800 + 4 * offset.toNat + 4 - 1) = some (.block 0 (0x800 + 4 * offset.toNat + 3)) := by
    rw [← targetOf_frontEndA (by omega)]
    congr 1
    omega
  simp only [targetOfAccess, hfirst, hlast]

/-- The window is closed to writes outside BLANK and PARTIAL. -/
theorem blockDeny_licTable {off : Nat} (hlo : 0x800 ≤ off) (hhi : off < 0x1000) {s : State} (h0 : licState s ≠ 0)
    (h3 : licState s ≠ 3) (i : Init) (room : Nat) : blockDeny 0 off true i room s ≠ none := by
  have hclosed : (!(licState s == 0 || licState s == 3)) = true := by simp [h0, h3]
  have hrule : blockDeny 0 off true i room s = firstCause [(notSteward i, causeStewardOnly),
      (!granted 0 room s, causeNoGrant), (!(licState s == 0 || licState s == 3), causeRights)] := by
    have hoff : off ≠ 0x44 := by omega
    simp only [blockDeny, if_neg hoff, if_pos (And.intro hlo hhi), Bool.true_and]
    rfl
  rw [hrule, hclosed]
  exact firstCause_ne_none (c := causeRights) (by simp)

/-- LIC_TABLE_WRITE goes to the staging RAM. -/
theorem exec_licTableWrite_admits {offset : BitVec 9} {s : State}
    (h : Admits .steward (0x40000800 + 4 * offset.toNat) .store s) (data : Word) :
    exec (.licTableWrite .steward offset data) s =
      .next (acknowledge (licTableWrite (4 * offset.toNat) data s)) := congrArg Host.Outcome.next (doorStore_admits h)

/-! ### The octets past an image's last -/

theorem tget_above {α : Type} {d : Nat → α} {t : Tbl α} {k : Nat} (h : ∀ p ∈ t, p.1 < k) : tget d t k = d k := by
  induction t with
  | nil => rfl
  | cons p r ih =>
    obtain ⟨i, v⟩ := p
    have hi : i < k := h _ List.mem_cons_self
    rw [tget_cons, if_neg hi.ne', if_neg hi.not_gt, ih fun q hq => h q (List.mem_cons_of_mem _ hq)]

/-- A table reads 0 from past its last octet on. -/
theorem licZero_above {t : Tbl Byte} {k : Nat} (h : ∀ p ∈ t, p.1 < k) (n : Nat) : licZero t k n = true := by
  simp only [licZero, licBytes, List.all_map, List.all_eq_true, Function.comp, beq_iff_eq]
  exact fun j _ => tget_above fun p hp => Nat.lt_add_right j (h p hp)

/-! ### LIC_CMD (R147, R148, R162) -/

theorem exec_licCheck_admits {i : Init} {s : State} (h : Admits i 0x400000C4 .store s) (key : BitVec 16) :
    exec (.licCheck i key) s = .next (acknowledge (licCmd i key.toNat true false s)) :=
  congrArg Host.Outcome.next (doorStore_admits h)

theorem exec_licBurn_admits {i : Init} {s : State} (h : Admits i 0x400000C4 .store s) (key : BitVec 16)
    (check : Bool) : exec (.licBurn i key check) s = .next (acknowledge (licCmd i key.toNat check true s)) :=
  congrArg Host.Outcome.next (doorStore_admits h)

/-- A write of LIC_CMD by another initiator, or with another key, is ignored. -/
theorem licCmd_ignored {i : Init} {key : BitVec 16} (h : i ≠ .steward ∨ key ≠ 0x4C43) (check burn : Bool) (s : State) :
    licCmd i key.toNat check burn s = s := by
  have hkey : i ≠ .steward ∨ key.toNat ≠ 0x4C43 := h.imp_right fun hne he => hne (BitVec.eq_of_toNat_eq he)
  exact if_pos (hkey.imp_right .inl)

/-- CHECK and BURN in one write are ignored. -/
theorem licCmd_both (s : State) : licCmd .steward (0x4C43 : BitVec 16).toNat true true s = s := rfl

/-- In BLANK and PARTIAL a CHECK shows what R145 says of the staged image. -/
theorem licCmd_check {s : State} (h : licState s = 0 ∨ licState s = 3) :
    licCmd .steward (0x4C43 : BitVec 16).toNat true false s =
      fset (feB .a) LIC_STAT.STAGE_OK (if licValid s.lic.stage then 1 else 0) s := if_pos h

theorem licCmd_burn {s : State} (h : burnRefused s = 0) :
    licCmd .steward (0x4C43 : BitVec 16).toNat false true s = fset (feB .a) LIC_STAT.STATE 1 s := if_pos h

theorem licCmd_burnRefused {s : State} (h : burnRefused s ≠ 0) :
    licCmd .steward (0x4C43 : BitVec 16).toNat false true s = fset (feB .a) LIC_STAT.BURN_ERR (burnRefused s) s :=
  if_neg h

/-! ### The digest leaves the licence memory and LIC_STAT (R232) -/

@[simp] theorem raiseEvt_lic (e : Nat) (s : State) : (raiseEvt e s).lic = s.lic := by
  obtain ⟨d, h⟩ := raiseEvt_dests e s
  rw [h]

@[simp] theorem wrList_lic (a : Nat) (l : List Word) (s : State) : (wrList a l s).lic = s.lic := by
  induction l generalizing a s with
  | nil => rfl
  | cons w r ih => exact (ih ..).trans (wr_lic ..)

/-- A field below a range of registers written. -/
theorem fget_wrList_below {s : State} (h : Registers.wf s = true) {b a : Nat} {f : Fld} (hlt : b + f.off < a)
    (l : List Word) : fget b f (wrList a l s) = fget b f s := by
  induction l generalizing a s with
  | nil => rfl
  | cons w r ih => exact (ih (Registers.wf_wr h a w) (by omega)).trans (fget_wr_ne h f w (by omega))

@[simp] theorem digestChange_lic (s : State) : (digestChange s).lic = s.lic := by
  simp only [digestChange, raiseEvt_lic, wrList_lic]

/-- PLAN_DIGEST and the fingerprint stand above every front end's registers. -/
theorem fget_digestChange {s : State} (h : Registers.wf s = true) {b : Nat} {f : Fld} (hlt : b + f.off < fabB + 0x40) :
    fget b f (digestChange s) = fget b f s := by
  have hws := (wrList_keeps (β := true) .rfl (fabB + 0x40) (wordsOfBytes (digestOf s))).regs h
  rw [digestChange, fget_raiseEvt, fget_wrList_below hws (by omega), fget_wrList_below h hlt]

/-! ### The end of a burn (R148, R161, R232) -/

/-- What the end of a burn leaves before the digest takes its new value. -/
def burnEnded (readBack : Bool) (s : State) : State :=
  if readBack then fset (feB .a) LIC_STAT.N_ENTRIES (licByte s.lic.stage 5)
    (fset (feB .a) LIC_STAT.STATE 2 { s with lic := { s.lic with otp := s.lic.stage } })
  else fset (feB .a) LIC_STAT.BURN_ERR 5 (fset (feB .a) LIC_STAT.STATE 4
    (drawFree { s with lic := { s.lic with otp := burnGarbled s } }))

/-- The end of a burn in progress; with a plan active the digest follows. -/
theorem licBurnDone_burning {s : State} (h : licState s = 1) (readBack : Bool) :
    licBurnDone readBack s =
      if planActive (burnEnded readBack s) then digestChange (burnEnded readBack s) else burnEnded readBack s :=
  if_pos h

/-- The registers keep their form whatever the licence memory holds. -/
theorem Registers.wf_licence {s : State} (h : Registers.wf s = true) (l : LicState) :
    Registers.wf { s with lic := l } = true := h

theorem Registers.wf_drawFree {s : State} (h : Registers.wf s = true) : Registers.wf (drawFree s) = true := h

theorem wf_burnEnded {s : State} (h : Registers.wf s = true) (readBack : Bool) :
    Registers.wf (burnEnded readBack s) = true := by
  cases readBack with
  | true => exact Registers.wf_fset (Registers.wf_fset (Registers.wf_licence h _) _ _ _) _ _ _
  | false => exact Registers.wf_fset (Registers.wf_fset (Registers.wf_drawFree (Registers.wf_licence h _)) _ _ _) _ _ _

/-- With a plan active or without, the end of a burn leaves LIC_STAT and the licence memory as `burnEnded` does. -/
theorem licBurnDone_shows {s : State} (h : licState s = 1) (hw : Registers.wf s = true) (readBack : Bool) :
    (licBurnDone readBack s).lic = (burnEnded readBack s).lic ∧
      ∀ f : Fld, f.off = 0xC0 →
        fget (feB .a) f (licBurnDone readBack s) = fget (feB .a) f (burnEnded readBack s) := by
  rw [licBurnDone_burning h]
  split
  · refine ⟨digestChange_lic _, fun f hf => fget_digestChange (wf_burnEnded hw readBack) ?_⟩
    rw [hf]
    decide
  · exact ⟨rfl, fun _ _ => rfl⟩

/-- A burn that reads back: LOCKED. -/
theorem licState_burnEnded_locked {s : State} (h : Registers.wf s = true) : licState (burnEnded true s) = 2 := by
  have hlic := Registers.wf_licence h { s.lic with otp := s.lic.stage }
  exact (fget_fset_apart (Registers.wf_fset hlic _ _ _) (by decide)).trans (fget_fset_self hlic _ _ _ (by decide))

/-- A burn that does not: FAULT with BURN_ERR 5. -/
theorem burnEnded_fault {s : State} (h : Registers.wf s = true) :
    licState (burnEnded false s) = 4 ∧ fget (feB .a) LIC_STAT.BURN_ERR (burnEnded false s) = 5 := by
  have hlic := Registers.wf_drawFree (Registers.wf_licence h { s.lic with otp := burnGarbled s })
  have hstate := Registers.wf_fset hlic (feB .a) LIC_STAT.STATE 4
  exact ⟨(fget_fset_apart hstate (by decide)).trans (fget_fset_self hlic _ _ _ (by decide)),
    fget_fset_self hstate _ _ _ (by decide)⟩

/-- Settles O13: a write of the table by what the door says of its window (R147), LIC_CMD by its case (R147, R148), and
the end of a burn by what it leaves before the digest, which spares LIC_STAT and the licence memory (R232). -/
theorem licenceTable : Obligations.LicenceTable := by
  refine ⟨?_, ?_, ?_, ?_, ?_, ?_⟩
  · exact fun offset data s h => exec_licTableWrite_admits h data
  · intro offset s h
    have hlt := offset.isLt
    exact doorCheck_denied (targetOfAccess_licTable offset)
      (blockDeny_licTable (by omega) (by omega) (by omega) (by omega) .steward _)
  · intro s h hst
    rw [exec_licCheck_admits h, licCmd_check hst]
  · intro s h
    simp only [exec_licBurn_admits h]
    refine ⟨fun h0 => ?_, fun h0 => ?_, ?_⟩
    · rw [licCmd_burn h0]
    · rw [licCmd_burnRefused h0]
    · rw [licCmd_both]
  · intro i key check s h hother
    rw [exec_licBurn_admits h, exec_licCheck_admits h, licCmd_ignored hother, licCmd_ignored hother]
    exact ⟨rfl, rfl⟩
  · intro s h hw
    obtain ⟨hlocked, hshown⟩ := licBurnDone_shows h hw true
    obtain ⟨-, hfault⟩ := licBurnDone_shows h hw false
    obtain ⟨hstate, herr⟩ := burnEnded_fault hw
    exact ⟨_, _, rfl, congrArg LicState.otp hlocked, (hshown _ rfl).trans (licState_burnEnded_locked hw),
      rfl, (hfault _ rfl).trans hstate, (hfault _ rfl).trans herr⟩

end Sys2Proof.Machine

namespace Sys2Proof.Tests

open Sys2Proof.Machine

set_option maxRecDepth 100000

/-- A table of one entry, 868.0–868.6 MHz at 14 dBm, with its CRC (R144). -/
def licImage : Tbl Byte :=
  [(0, 0x51), (1, 0x4C), (2, 0x49), (3, 0x43), (4, 1), (5, 1), (0xC, 40), (0x1C, 129), (0x1D, 199), (0x1E, 12),
    (0x1F, 69), (0x21, 0xA1), (0x22, 0xBC), (0x23, 0x33), (0x24, 0xC0), (0x25, 0xC8), (0x26, 0xC5), (0x27, 0x33),
    (0x28, 56)]

/-- The lifecycle state `life`, LIC_STAT.STATE `st`, an image staged and what is programmed. -/
def licensing (life st : Nat) (stage otp : Tbl Byte) : State :=
  fset 0x400B0000 Reg.KEY_LIFE.STATE life (fset (feB .a) Reg.LIC_STAT.STATE st
    { roomZeroOpen with lic := { stage := stage, otp := otp } })

/-- The image above passes R145; past its entry it is zero. -/
theorem licValid_licImage : licValid licImage = true := by
  have hrest : licZero licImage (licEntry (licByte licImage 5)) (2048 - licEntry (licByte licImage 5)) = true :=
    licZero_above (by decide) _
  simp only [licValid, hrest, Bool.and_true]
  decide

/-- With the image staged a burn turns on the lifecycle state, on LIC_STAT.STATE and on what is programmed. -/
theorem burnRefused_licensing (life st : Nat) (otp : Tbl Byte) :
    let s := licensing life st licImage otp
    burnRefused s = if fget 0x400B0000 Reg.KEY_LIFE.STATE s ≠ 1 then 1
      else if licState s ≠ 0 ∧ licState s ≠ 3 then 2
      else if licState s = 3 ∧ licCovers s = false then 4 else 0 := by
  intro s
  have hv : licValid s.lic.stage = true := licValid_licImage
  simp only [burnRefused, hv, Bool.not_true, Bool.false_eq_true, if_false]

/-- An admitted write of the window's first and last word in BLANK and PARTIAL; each state that refuses it; an admitted
write of LIC_CMD in BLANK and PARTIAL; a burn that is carried out in each, and one refused for each reason; an admitted
write by another initiator, and another key; and a burn in progress without and with a plan active. -/
theorem test_hyps_licenceTable :
    (∀ st ∈ [0, 3], ∀ offset ∈ [0, 511],
      Admits .steward (0x40000800 + 4 * offset) .store (licensing 1 st licImage [])) ∧
    (∀ st ∈ [1, 2, 4], licState (licensing 1 st licImage []) = st) ∧
    (∀ st ∈ [0, 3], Admits .steward 0x400000C4 .store (licensing 1 st licImage []) ∧
      licState (licensing 1 st licImage []) = st) ∧
    (burnRefused (licensing 1 0 licImage []) = 0 ∧ burnRefused (licensing 1 3 licImage [(0, 0x11)]) = 0) ∧
    (burnRefused (licensing 2 0 licImage []) = 1 ∧ burnRefused (licensing 1 2 licImage []) = 2 ∧
      burnRefused (licensing 1 0 [] []) = 3 ∧ burnRefused (licensing 1 3 licImage [(0, 0x02)]) = 4) ∧
    (Admits (.linkCore 0) 0x400000C4 .store (licensing 1 0 licImage []) ∧ Init.linkCore 0 ≠ .steward) ∧
    (0x4C42 : BitVec 16) ≠ 0x4C43 ∧
    (Registers.wf (licensing 1 1 licImage []) = true ∧ planActive (licensing 1 1 licImage []) = false ∧
      planActive (fset fabB Reg.FAB_PLAN_STAT.ACTIVE 1 (licensing 1 1 licImage [])) = true) := by
  simp only [burnRefused_licensing]
  decide

end Sys2Proof.Tests
end

section
/-!
SUPPORT. The gain loop, manual gain and the cap of DUPLEX (R172, R174–R176, R180, R192, R301): what a channelizer bank
reads after each operation on it, and each command by its cases.
-/

namespace Sys2Proof.Machine

open Reg

/-! ### Fields and indices of one page -/

/-- A field lies within its register, and outside another field of the same page. -/
abbrev Fld.Apart (g f : Fld) : Prop :=
  g.lo + g.w ≤ 32 ∧ (g.off ≠ f.off ∨ g.lo + g.w ≤ f.lo ∨ f.lo + f.w ≤ g.lo)

/-- A field of a page after another field of the page is written. -/
theorem fget_fset_of_apart {s : State} (h : Registers.wf s = true) (b : Nat) {f g : Fld} (v : Nat) (hg : g.Apart f) :
    fget b g (fset b f v s) = fget b g s := by
  obtain ⟨hw, hapart⟩ := hg
  by_cases ho : g.off = f.off
  · exact fget_fset_apart h ⟨ho, hw, hapart.resolve_left (not_not_intro ho)⟩
  · exact fget_fset_reg h f g v (by omega)

theorem fis_fset_of_apart {s : State} (h : Registers.wf s = true) (b : Nat) {f g : Fld} (v : Nat) (hg : g.Apart f) :
    fis b g (fset b f v s) = fis b g s := congrArg (· == 1) (fget_fset_of_apart h b v hg)

/-- A one-bit field that is cleared reads 0. -/
theorem fis_fset_zero {s : State} (h : Registers.wf s = true) (b : Nat) {f : Fld} (hf : f.lo + f.w ≤ 32) :
    fis b f (fset b f 0 s) = false := by
  rw [fis, fget_fset_self h b f 0 hf, Nat.zero_mod]
  rfl

/-- A field that holds the value written. -/
theorem fget_fset_lt {s : State} (h : Registers.wf s = true) (b : Nat) {f : Fld} {v : Nat} (hv : v < 2 ^ f.w)
    (hf : f.lo + f.w ≤ 32) : fget b f (fset b f v s) = v := by
  rw [fget_fset_self h b f v hf, Nat.mod_eq_of_lt hv]

/-- A field of a page after an index of the page is written. -/
theorem fget_wr48_of_ne {s : State} (h : Registers.wf s = true) (b : Nat) {o : Nat} {g : Fld} (v : Nat)
    (hg : g.off ≠ o ∧ g.off ≠ o + 4) : fget b g (wr48 (b + o) v s) = fget b g s := by
  rw [wr48, fget_wr_ne (Registers.wf_wr h _ _) _ _ (by omega), fget_wr_ne h _ _ (by omega)]

/-- An index of a page after a field of the page is written. -/
theorem rd48_fset_of_ne {s : State} (h : Registers.wf s = true) (b : Nat) {o : Nat} {f : Fld} (v : Nat)
    (hf : f.off ≠ o ∧ f.off ≠ o + 4) : rd48 (b + o) (fset b f v s) = rd48 (b + o) s := by
  rw [rd48, rd_fset_ne h _ _ (by omega), rd_fset_ne h _ _ (by omega), rd48]

/-- A mask that covers a field leaves it. -/
theorem bitsOf_and {x m : Word} {lo w : Nat} (h : ∀ i < w, m.getLsbD (lo + i) = true) :
    bitsOf (x &&& m) lo w = bitsOf x lo w := by
  refine Nat.eq_of_testBit_eq fun i => ?_
  rw [bitsOf_testBit, bitsOf_testBit, BitVec.getLsbD_and]
  by_cases hi : i < w
  · rw [h i hi, Bool.and_true]
  · simp [hi]

/-- A field of one bit. -/
theorem bitsOf_one (x : Word) (i : Nat) : (bitsOf x i 1 == 1) = bitOf x i := by
  have hlt := bitsOf_lt x i 1
  have hbit : decide (bitsOf x i 1 % 2 = 1) = x.getLsbD i := by
    simpa [Nat.testBit_zero] using bitsOf_testBit x i 1 0
  rw [bitOf, ← hbit, Nat.mod_eq_of_lt (b := 2) hlt]
  rfl

/-! ### What a bank holds beside its registers -/

@[simp] theorem chzGet_chzPut_self (fe : Fe) (v : ChzState) (s : State) : chzGet fe (chzPut fe v s) = v := by
  cases fe <;> rfl

@[simp] theorem chzPut_regs (fe : Fe) (v : ChzState) (s : State) : (chzPut fe v s).regs = s.regs := by
  cases fe <;> rfl

@[simp] theorem chzGet_wr (fe : Fe) (a : Nat) (v : Word) (s : State) : chzGet fe (wr a v s) = chzGet fe s := by
  cases fe <;> rfl

@[simp] theorem chzGet_fset (fe : Fe) (b : Nat) (f : Fld) (v : Nat) (s : State) :
    chzGet fe (fset b f v s) = chzGet fe s := chzGet_wr ..

@[simp] theorem chzGet_fcount (fe : Fe) (b : Nat) (f : Fld) (s : State) : chzGet fe (fcount b f s) = chzGet fe s :=
  chzGet_fset ..

@[simp] theorem rd_chzPut (fe : Fe) (v : ChzState) (s : State) (a : Nat) : rd a (chzPut fe v s) = rd a s := by
  rw [rd, chzPut_regs, rd]

@[simp] theorem rd48_chzPut (fe : Fe) (v : ChzState) (s : State) (a : Nat) : rd48 a (chzPut fe v s) = rd48 a s := by
  simp only [rd48, rd_chzPut]

@[simp] theorem fget_chzPut (fe : Fe) (v : ChzState) (s : State) (b : Nat) (f : Fld) :
    fget b f (chzPut fe v s) = fget b f s := by
  simp only [fget, rd_chzPut]

@[simp] theorem Registers.wf_chzPut (fe : Fe) (v : ChzState) (s : State) :
    Registers.wf (chzPut fe v s) = Registers.wf s := by
  simp only [Registers.wf, chzPut_regs]

/-! ### A change scheduled, cancelled and taken (R172, R176) -/

theorem Registers.wf_cancelGain {s : State} (h : Registers.wf s = true) (fe : Fe) :
    Registers.wf (cancelGain fe s) = true := (cancelGain_keeps (β := true) .rfl fe).regs h

theorem chzGet_cancelGain (fe : Fe) (s : State) :
    chzGet fe (cancelGain fe s) = { chzGet fe s with sched := none } := by
  simp only [cancelGain, chzGet_fset, chzGet_chzPut_self]

/-- Of a bank's registers a cancellation changes PEND alone. -/
theorem fget_cancelGain {s : State} (h : Registers.wf s = true) (fe : Fe) {f : Fld}
    (hf : f.Apart CHZ_GAIN_STAT.PEND) : fget (chzB fe) f (cancelGain fe s) = fget (chzB fe) f s := by
  rw [cancelGain, fget_fset_of_apart ((Registers.wf_chzPut ..).trans h) _ _ hf, fget_chzPut]

theorem fis_cancelGain {s : State} (h : Registers.wf s = true) (fe : Fe) {f : Fld}
    (hf : f.Apart CHZ_GAIN_STAT.PEND) : fis (chzB fe) f (cancelGain fe s) = fis (chzB fe) f s :=
  congrArg (· == 1) (fget_cancelGain h fe hf)

theorem pend_cancelGain {s : State} (h : Registers.wf s = true) (fe : Fe) :
    fis (chzB fe) CHZ_GAIN_STAT.PEND (cancelGain fe s) = false :=
  fis_fset_zero ((Registers.wf_chzPut ..).trans h) _ (by decide)

/-- An index of a bank stands apart from PEND. -/
theorem rd48_cancelGain {s : State} (h : Registers.wf s = true) (fe : Fe) {o : Nat} (ho : 8 ≠ o ∧ 8 ≠ o + 4) :
    rd48 (chzB fe + o) (cancelGain fe s) = rd48 (chzB fe + o) s := by
  rw [cancelGain, rd48_fset_of_ne ((Registers.wf_chzPut ..).trans h) _ _ ho, rd48_chzPut]

theorem chzGet_schedGain (fe : Fe) (g : GainChange) (s : State) :
    chzGet fe (schedGain fe g s) = { chzGet fe s with sched := some g } := by
  simp only [schedGain, chzGet_fset, chzGet_chzPut_self]

/-- A scheduled change as CHZ_GAIN_STAT shows it; GAIN stays. -/
theorem schedGain_shows {s : State} (h : Registers.wf s = true) (fe : Fe) {g : GainChange} (hg : g.code < 32) :
    let t := schedGain fe g s
    fis (chzB fe) CHZ_GAIN_STAT.PEND t = true ∧ fget (chzB fe) CHZ_GAIN_STAT.PEND_CODE t = g.code ∧
      chzGain fe t = chzGain fe s := by
  have hput := (Registers.wf_chzPut fe { chzGet fe s with sched := some g } s).trans h
  have hcode := Registers.wf_fset hput (chzB fe) CHZ_GAIN_STAT.PEND_CODE g.code
  refine ⟨fis_fset_one hcode _ (by decide), ?_, ?_⟩
  · rw [schedGain, fget_fset_of_apart hcode _ _ (by decide), fget_fset_lt hput _ hg (by decide)]
  · rw [chzGain, schedGain, fget_fset_of_apart hcode _ _ (by decide), fget_fset_of_apart hput _ _ (by decide),
      fget_chzPut, chzGain]

/-- Without a cap GAIN takes the code. -/
theorem setGain_uncapped {fe : Fe} {s : State} (h : (chzGet fe s).cap = none) (code period cause : Nat) :
    setGain fe code period cause s = wr48 (chzB fe + 0xC) period
      (fset (chzB fe) CHZ_GAIN_STAT.CAUSE cause (fset (chzB fe) CHZ_GAIN_STAT.GAIN code s)) := by
  simp only [setGain, h]

theorem Registers.wf_setGain {s : State} (h : Registers.wf s = true) (fe : Fe) (code period cause : Nat) :
    Registers.wf (setGain fe code period cause s) = true := (setGain_keeps (β := true) .rfl fe code period cause).regs h

/-- A change of GAIN with its period and its cause. -/
theorem setGain_shows {fe : Fe} {s : State} (h : Registers.wf s = true) (hc : (chzGet fe s).cap = none)
    {code period cause : Nat} (hcode : code < 32) (hperiod : period < 2 ^ 48) (hcause : cause < 4) :
    let t := setGain fe code period cause s
    chzGain fe t = code ∧ rd48 (chzB fe + 0xC) t = period ∧ fget (chzB fe) CHZ_GAIN_STAT.CAUSE t = cause := by
  have hgain := Registers.wf_fset h (chzB fe) CHZ_GAIN_STAT.GAIN code
  have hset := Registers.wf_fset hgain (chzB fe) CHZ_GAIN_STAT.CAUSE cause
  simp only [setGain_uncapped hc, chzGain]
  refine ⟨?_, rd48_wr48_self hset _ hperiod, ?_⟩
  · rw [fget_wr48_of_ne hset _ _ (by decide), fget_fset_of_apart hgain _ _ (by decide),
      fget_fset_lt h _ hcode (by decide)]
  · rw [fget_wr48_of_ne hset _ _ (by decide), fget_fset_lt hgain _ hcause (by decide)]

theorem gainTake_none {fe : Fe} {s : State} (h : (chzGet fe s).sched = none) : gainTake fe s = s := by
  simp only [gainTake, h]

theorem gainTake_some {fe : Fe} {s : State} {g : GainChange} (h : (chzGet fe s).sched = some g) :
    gainTake fe s = cancelGain fe (setGain fe g.code g.period g.cause s) := by
  simp only [gainTake, h]

/-- A scheduled change takes effect with its period and its cause, and nothing is scheduled then. -/
theorem gainTake_shows {fe : Fe} {s : State} {g : GainChange} (hg : (chzGet fe s).sched = some g)
    (hc : (chzGet fe s).cap = none) (hw : Registers.wf s = true) (hcode : g.code < 32) (hperiod : g.period < 2 ^ 48)
    (hcause : g.cause < 4) :
    let t := gainTake fe s
    chzGain fe t = g.code ∧ rd48 (chzB fe + 0xC) t = g.period ∧ fget (chzB fe) CHZ_GAIN_STAT.CAUSE t = g.cause ∧
      fis (chzB fe) CHZ_GAIN_STAT.PEND t = false ∧ (chzGet fe t).sched = none := by
  have hset := Registers.wf_setGain hw fe g.code g.period g.cause
  obtain ⟨hgain, hat, hwhy⟩ := setGain_shows hw hc hcode hperiod hcause
  simp only [gainTake_some hg, chzGet_cancelGain]
  exact ⟨(fget_cancelGain hset fe (by decide)).trans hgain, (rd48_cancelGain hset fe (by decide)).trans hat,
    (fget_cancelGain hset fe (by decide)).trans hwhy, pend_cancelGain hset fe, trivial⟩

/-! ### The gain wanted (R175) -/

/-- The gain wanted is the gain in force or less, or a raise that leaves TARGET of headroom while no hold runs. -/
theorem gainWanted_cases (fe : Fe) (peak : Int) (s : State) :
    gainWanted fe peak s ≤ chzGain fe s ∨
      (4 * (fget (chzB fe) CHZ_GAIN_CFG.TARGET s : Int) ≤
          -peak - 8 * (gainWanted fe peak s - chzGain fe s : Int) ∧
        fis (chzB fe) CHZ_OVL_STAT.HOLD s = false) := by
  simp only [gainWanted, clampInt]
  split_ifs with hlow hhigh
  · exact .inl (by omega)
  · obtain ⟨-, hhold⟩ := hhigh
    rw [or_iff_not_imp_left]
    exact fun hraise => ⟨by omega, hhold⟩
  · exact .inl (by omega)

theorem gainWanted_le (fe : Fe) (peak : Int) (s : State) : gainWanted fe peak s ≤ 31 := by
  simp only [gainWanted, clampInt]
  omega

/-! ### An evaluation of the loop (R174–R176, R192, R194) -/

theorem gainEvaluate_suppressed {fe : Fe} {m : Nat} {s : State} (h : evalSuppressed fe m s = true)
    (peakQ meanQ : BitVec 16) : gainEvaluate fe m peakQ meanQ s = s := if_pos h

/-- CHZ_LEVEL with an evaluation's levels. -/
def levelShown (fe : Fe) (peakQ meanQ : BitVec 16) (s : State) : State :=
  fset (chzB fe) CHZ_LEVEL.MEAN_Q meanQ.toNat (fset (chzB fe) CHZ_LEVEL.PEAK_Q peakQ.toNat s)

theorem Registers.wf_levelShown {s : State} (h : Registers.wf s = true) (fe : Fe) (peakQ meanQ : BitVec 16) :
    Registers.wf (levelShown fe peakQ meanQ s) = true := Registers.wf_fset (Registers.wf_fset h _ _ _) _ _ _

@[simp] theorem chzGet_levelShown (fe : Fe) (peakQ meanQ : BitVec 16) (s : State) :
    chzGet fe (levelShown fe peakQ meanQ s) = chzGet fe s := by
  simp only [levelShown, chzGet_fset]

/-- The levels stand in CHZ_LEVEL alone. -/
theorem fget_levelShown {s : State} (h : Registers.wf s = true) (fe : Fe) (peakQ meanQ : BitVec 16) {f : Fld}
    (hf : f.off ≠ 0x14) : fget (chzB fe) f (levelShown fe peakQ meanQ s) = fget (chzB fe) f s := by
  have ha : chzB fe + f.off ≠ chzB fe + 0x14 := by omega
  rw [levelShown, fget_fset_reg (Registers.wf_fset h _ _ _) _ _ _ ha, fget_fset_reg h _ _ _ ha]

/-- With its bank's fields outside CHZ_LEVEL alike, an evaluation wants the same gain. -/
theorem gainWanted_congr {fe : Fe} {s t : State} (h : ∀ f : Fld, f.off ≠ 0x14 → fget (chzB fe) f t = fget (chzB fe) f s)
    (peak : Int) : gainWanted fe peak t = gainWanted fe peak s := by
  rw [gainWanted, chzGain, fis, h CHZ_GAIN_CFG.TARGET (by decide), h CHZ_GAIN_CFG.HYST (by decide),
    h CHZ_GAIN_CFG.MAX_UP (by decide), h CHZ_GAIN_STAT.GAIN (by decide), h CHZ_OVL_STAT.HOLD (by decide)]
  rfl

/-- An evaluation at which no window opens, neither by MIDFRAME nor by the time since the last, shows its levels. -/
theorem gainEvaluate_closed {fe : Fe} {m : Nat} {s : State} (hs : evalSuppressed fe m s = false)
    (hw : Registers.wf s = true)
    (hmid : fget (chzB fe) CHZ_WIN.BUDGET s ≤ fget (chzB fe) CHZ_GAIN_STAT.MIDFRAME s)
    (hlast : 16 * (m + 1) < (chzGet fe s).lastWindow + 9375) (peakQ meanQ : BitVec 16) :
    gainEvaluate fe m peakQ meanQ s = levelShown fe peakQ meanQ s := by
  have hno : ¬ (decide (fget (chzB fe) CHZ_GAIN_STAT.MIDFRAME (levelShown fe peakQ meanQ s) <
      fget (chzB fe) CHZ_WIN.BUDGET (levelShown fe peakQ meanQ s)) = true ∨
      (chzGet fe (levelShown fe peakQ meanQ s)).lastWindow + 9375 ≤ 16 * (m + 1)) := by
    rw [fget_levelShown hw _ _ _ (by decide), fget_levelShown hw _ _ _ (by decide), chzGet_levelShown,
      decide_eq_true_iff]
    omega
  simp only [gainEvaluate, hs, Bool.false_eq_true, if_false]
  exact if_neg hno

/-- A window opened by an evaluation that ends at sample `now`. -/
def windowOpened (fe : Fe) (now : Nat) (peakQ meanQ : BitVec 16) (s : State) : State :=
  chzPut fe { chzGet fe s with lastWindow := now } (levelShown fe peakQ meanQ s)

/-- In a window that MIDFRAME opens, a gain that differs is scheduled with cause 0. -/
theorem gainEvaluate_schedules {fe : Fe} {m : Nat} {peakQ : BitVec 16} {s : State}
    (hs : evalSuppressed fe m s = false) (hw : Registers.wf s = true)
    (hmid : fget (chzB fe) CHZ_GAIN_STAT.MIDFRAME s < fget (chzB fe) CHZ_WIN.BUDGET s)
    (hwant : gainWanted fe peakQ.toInt s ≠ chzGain fe s) (meanQ : BitVec 16) :
    gainEvaluate fe m peakQ meanQ s =
      schedGain fe ⟨gainWanted fe peakQ.toInt s, 16 * m + 18, 0⟩ (windowOpened fe (16 * (m + 1)) peakQ meanQ s) := by
  have hlevel {f : Fld} (hf : f.off ≠ 0x14) := fget_levelShown hw fe peakQ meanQ hf
  have hopened (f : Fld) (hf : f.off ≠ 0x14) :
      fget (chzB fe) f (windowOpened fe (16 * (m + 1)) peakQ meanQ s) = fget (chzB fe) f s :=
    (fget_chzPut ..).trans (hlevel hf)
  rw [gainEvaluate, if_neg (by rw [hs]; exact Bool.false_ne_true)]
  extract_lets u now natural c v w want
  have hu : u = levelShown fe peakQ meanQ s := rfl
  have hnat : natural = true :=
    decide_eq_true (by rwa [hu, hlevel (by decide), hlevel (by decide)])
  have hv : v = windowOpened fe (16 * (m + 1)) peakQ meanQ s :=
    congrArg (fun c => chzPut fe { c with lastWindow := now } u) (chzGet_levelShown fe peakQ meanQ s)
  have hopen : w = windowOpened fe (16 * (m + 1)) peakQ meanQ s := (if_pos hnat).trans hv
  have hwanted : want = gainWanted fe peakQ.toInt s :=
    (congrArg (gainWanted fe peakQ.toInt) hopen).trans (gainWanted_congr hopened _)
  have hgain : chzGain fe w = chzGain fe s := (congrArg (chzGain fe) hopen).trans (hopened _ (by decide))
  rw [if_pos (.inl hnat), if_pos (by rwa [hwanted, hgain]), hwanted, hopen, hnat]
  rfl

/-- GAIN_EVALUATION in a window: what is scheduled and shown, and the window's end. -/
theorem gainEvaluate_shows {fe : Fe} {m : Nat} {peakQ : BitVec 16} {s : State}
    (hs : evalSuppressed fe m s = false) (hw : Registers.wf s = true)
    (hmid : fget (chzB fe) CHZ_GAIN_STAT.MIDFRAME s < fget (chzB fe) CHZ_WIN.BUDGET s)
    (hwant : gainWanted fe peakQ.toInt s ≠ chzGain fe s) (meanQ : BitVec 16) :
    let t := gainEvaluate fe m peakQ meanQ s
    (chzGet fe t).sched = some ⟨gainWanted fe peakQ.toInt s, 16 * m + 18, 0⟩ ∧
      (chzGet fe t).lastWindow = 16 * (m + 1) ∧ fis (chzB fe) CHZ_GAIN_STAT.PEND t = true ∧
      fget (chzB fe) CHZ_GAIN_STAT.PEND_CODE t = gainWanted fe peakQ.toInt s ∧ chzGain fe t = chzGain fe s := by
  have hopened : Registers.wf (windowOpened fe (16 * (m + 1)) peakQ meanQ s) = true :=
    (Registers.wf_chzPut ..).trans (Registers.wf_levelShown hw ..)
  have hkept : chzGain fe (windowOpened fe (16 * (m + 1)) peakQ meanQ s) = chzGain fe s :=
    (fget_chzPut ..).trans (fget_levelShown hw fe _ _ (by decide))
  obtain ⟨hpend, hcode, hgain⟩ := schedGain_shows hopened fe
    (g := ⟨gainWanted fe peakQ.toInt s, 16 * m + 18, 0⟩) (Nat.lt_succ_of_le (gainWanted_le ..))
  intro t
  have ht : t = _ := gainEvaluate_schedules hs hw hmid hwant meanQ
  rw [ht, chzGet_schedGain]
  exact ⟨rfl, congrArg ChzState.lastWindow (chzGet_chzPut_self ..), hpend, hcode, hgain.trans hkept⟩

/-! ### CHZ_CTRL (R176, R180) -/

theorem exec_chzCtrlWrite_admits {i : Init} {fe : Fe} {s : State} (h : Admits i (chzB fe) .store s) (data : Word)
    (period : BitVec 48) : exec (.chzCtrlWrite i fe data period) s =
      .next (acknowledge (lanesManual fe (chzCtrlWrite fe data period.toNat s))) :=
  congrArg Host.Outcome.next (doorStore_admits h)

/-- CHZ_CTRL as written, with the scheduled change cancelled. -/
abbrev ctrlWritten (fe : Fe) (data : Word) (s : State) : State := wr (chzB fe) (data &&& 0x31F#32) (cancelGain fe s)

theorem rd_ctrlWritten {s : State} (h : Registers.wf s = true) (fe : Fe) (data : Word) :
    rd (chzB fe) (ctrlWritten fe data s) = data &&& 0x31F#32 := rd_wr_self (Registers.wf_cancelGain h fe) _ _

theorem fget_ctrlWritten {s : State} (h : Registers.wf s = true) (fe : Fe) (data : Word) {f : Fld} (h0 : f.off = 0) :
    fget (chzB fe) f (ctrlWritten fe data s) = bitsOf (data &&& 0x31F#32) f.lo f.w := by
  rw [fget, h0, Nat.add_zero, rd_ctrlWritten h]

/-- A write of CHZ_CTRL leaves the other registers of its bank but for PEND. -/
theorem fis_ctrlWritten {s : State} (h : Registers.wf s = true) (fe : Fe) (data : Word) {f : Fld}
    (h0 : f.off ≠ 0) (hf : f.Apart CHZ_GAIN_STAT.PEND) :
    fis (chzB fe) f (ctrlWritten fe data s) = fis (chzB fe) f s := by
  rw [fis, fget_wr_ne (Registers.wf_cancelGain h fe) _ _ (by omega), ← fis, fis_cancelGain h fe hf]

theorem residence_ctrlWritten (fe : Fe) (data : Word) (s : State) :
    (feGet fe (ctrlWritten fe data s)).residence = (feGet fe s).residence := by
  simp only [ctrlWritten, cancelGain, feGet_wr, feGet_fset, feGet_chzPut]

/-- A write that changes neither MODE nor MGAIN, or that comes outside a residence, cancels and no more. -/
theorem chzCtrlWrite_cancels {fe : Fe} {data : Word} {s : State} (hw : Registers.wf s = true)
    (h : bitsOf (rd (chzB fe) s) 0 9 = bitsOf (data &&& 0x31F#32) 0 9 ∨ (feGet fe s).residence = false)
    (period : Nat) : chzCtrlWrite fe data period s = ctrlWritten fe data s := by
  rw [← rd_ctrlWritten hw fe data, ← residence_ctrlWritten fe data s] at h
  exact if_pos h

/-- A write that sets MANUAL schedules MGAIN two input periods on while no episode's reduced gain holds. -/
theorem chzCtrlWrite_manual {fe : Fe} {data : Word} {s : State} (hw : Registers.wf s = true)
    (hnew : bitsOf (rd (chzB fe) s) 0 9 ≠ bitsOf (data &&& 0x31F#32) 0 9) (hres : (feGet fe s).residence = true)
    (hman : bitOf data 8 = true) (hact : ovlActive fe s = false)
    (hhold : fis (chzB fe) CHZ_OVL_STAT.HOLD s = false) (period : Nat) :
    chzCtrlWrite fe data period s =
      schedGain fe ⟨bitsOf data 0 5, period + 2, 3⟩ (ctrlWritten fe data s) := by
  have hgo : ¬ (bitsOf (rd (chzB fe) s) 0 9 = bitsOf (rd (chzB fe) (ctrlWritten fe data s)) 0 9 ∨
      (feGet fe (ctrlWritten fe data s)).residence = false) := by
    rw [rd_ctrlWritten hw, residence_ctrlWritten, hres]
    exact not_or_intro hnew (by decide)
  have hmode : chzManual fe (ctrlWritten fe data s) = true := by
    rw [chzManual, fis, fget_ctrlWritten hw fe data rfl, bitsOf_and (by decide)]
    exact (bitsOf_one data 8).trans hman
  have hfree : ¬ (fis (chzB fe) CHZ_CTRL.OVL_DROP (ctrlWritten fe data s) = true ∧
      (ovlActive fe (ctrlWritten fe data s) ||
        fis (chzB fe) CHZ_OVL_STAT.HOLD (ctrlWritten fe data s)) = true) := by
    have hactive : ovlActive fe (ctrlWritten fe data s) = false :=
      (fis_ctrlWritten hw fe data (by decide) (by decide)).trans hact
    have hholds := (fis_ctrlWritten hw fe data (f := CHZ_OVL_STAT.HOLD) (by decide) (by decide)).trans hhold
    simp [hactive, hholds]
  have hmgain : fget (chzB fe) CHZ_CTRL.MGAIN (ctrlWritten fe data s) = bitsOf data 0 5 :=
    (fget_ctrlWritten hw fe data rfl).trans (bitsOf_and (by decide))
  rw [← hmgain]
  exact (if_neg hgo).trans ((if_pos hmode).trans (if_neg hfree))

/-- Outside MANUAL the lanes' gain stays. -/
theorem lanesManual_auto {fe : Fe} {s : State} (h : chzManual fe s = false) : lanesManual fe s = s :=
  if_neg (by rw [h]; exact Bool.false_ne_true)

/-! ### The cap of DUPLEX (R301) -/

theorem gainCapReturn_none {fe : Fe} {s : State} (h : (chzGet fe s).capRet = none) (period : Nat) :
    gainCapReturn fe period s = s := by
  simp only [gainCapReturn, h]

/-- A gain that has left the cap stays as it is when the return is due. -/
theorem gainCapReturn_left {fe : Fe} {s : State} {cap : Nat} (h : (chzGet fe s).capRet = some cap)
    (hg : chzGain fe s ≠ cap) (period : Nat) :
    gainCapReturn fe period s = chzPut fe { chzGet fe s with capRet := none } s := by
  have hput (v : ChzState) : chzGain fe (chzPut fe v s) = chzGain fe s := fget_chzPut ..
  simp only [gainCapReturn, h, hput, hg, false_and, if_false]

/-- Settles O14: the loop by its evaluation's cases and the gain it wants (R174–R176), CHZ_CTRL by what the write leaves
(R176, R180), and the cap's return by the gain it finds (R301). -/
theorem captureGain : Obligations.CaptureGain := by
  refine ⟨⟨?_, ?_, ?_, ?_⟩, ?_, ?_, ?_, ?_, ?_⟩
  · intro fe m peakQ meanQ s b level
    refine ⟨fun hs => congrArg Host.Outcome.next (gainEvaluate_suppressed hs ..), fun hs hw => ⟨?_, ?_⟩⟩
    · exact fun hmid hlast => congrArg Host.Outcome.next (gainEvaluate_closed hs hw hmid hlast ..)
    · exact fun hmid hwant => ⟨_, rfl, gainEvaluate_shows hs hw hmid hwant meanQ⟩
  · exact fun fe peak s => ⟨gainWanted_le .., fun hraise => (gainWanted_cases fe peak s).resolve_left (by omega)⟩
  · exact fun fe s h => congrArg Host.Outcome.next (gainTake_none h)
  · exact fun fe s g hg hc hw hcode hperiod hcause =>
      ⟨_, rfl, gainTake_shows hg hc hw hcode hperiod hcause⟩
  · intro i fe data period s h hsame hw
    rw [exec_chzCtrlWrite_admits h, chzCtrlWrite_cancels hw hsame]
  · intro i fe data period s h hnew hres hw hman hact hhold
    rw [exec_chzCtrlWrite_admits h, chzCtrlWrite_manual hw hnew hres hman hact hhold]
  · exact fun fe s h => lanesManual_auto h
  · exact fun fe period s h => congrArg Host.Outcome.next (gainCapReturn_none h _)
  · exact fun fe period s cap h hg => congrArg Host.Outcome.next (gainCapReturn_left h hg _)

end Sys2Proof.Machine

namespace Sys2Proof.Tests

open Sys2Proof.Machine

set_option maxRecDepth 100000

/-- Front end A in a residence at gain code 4, with `n` lanes mid-frame of a budget of one. -/
def gaining (n : Nat) : State :=
  fset (chzB .a) Reg.CHZ_GAIN_STAT.MIDFRAME n (fset (chzB .a) Reg.CHZ_WIN.BUDGET 1
    (fset (chzB .a) Reg.CHZ_GAIN_STAT.GAIN 4 (fePut .a { roomZeroOpen.feA with residence := true } roomZeroOpen)))

/-- An evaluation in MANUAL and one that is not suppressed, with the last sample before a forced window and in a window
that MIDFRAME opens; a peak that wants a raise; nothing scheduled, and the largest change that can be; an admitted write
that leaves MODE and MGAIN, one outside a residence and one that sets MANUAL with the largest MGAIN; and a cap's return
that is not due, and one that finds another gain. -/
theorem test_hyps_captureGain :
    (evalSuppressed .a 0 (fset (chzB .a) Reg.CHZ_CTRL.MODE 1 (gaining 0)) = true ∧
      (∀ n ∈ [0, 1], evalSuppressed .a (584 : BitVec 44).toNat (gaining n) = false ∧
        Registers.wf (gaining n) = true) ∧
      fget (chzB .a) Reg.CHZ_WIN.BUDGET (gaining 1) ≤ fget (chzB .a) Reg.CHZ_GAIN_STAT.MIDFRAME (gaining 1) ∧
      16 * ((584 : BitVec 44).toNat + 1) < (chzGet .a (gaining 1)).lastWindow + 9375 ∧
      fget (chzB .a) Reg.CHZ_GAIN_STAT.MIDFRAME (gaining 0) < fget (chzB .a) Reg.CHZ_WIN.BUDGET (gaining 0) ∧
      gainWanted .a (-400 : BitVec 16).toInt (gaining 0) ≠ chzGain .a (gaining 0)) ∧
    chzGain .a (gaining 0) < gainWanted .a (-400) (gaining 0) ∧
    ((chzGet .a (gaining 0)).sched = none ∧ (chzGet .a (gaining 0)).cap = none ∧
      (⟨31, 2 ^ 48 - 1, 3⟩ : GainChange).code < 32 ∧ (⟨31, 2 ^ 48 - 1, 3⟩ : GainChange).period < 2 ^ 48 ∧
      (⟨31, 2 ^ 48 - 1, 3⟩ : GainChange).cause < 4) ∧
    (Admits .steward (chzB .a) .store (gaining 0) ∧ Admits .steward (chzB .a) .store roomZeroOpen ∧
      bitsOf (rd (chzB .a) (gaining 0)) 0 9 = bitsOf (0x014 &&& 0x31F#32) 0 9 ∧
      (feGet .a roomZeroOpen).residence = false) ∧
    (bitsOf (rd (chzB .a) (gaining 0)) 0 9 ≠ bitsOf (0x31F &&& 0x31F#32) 0 9 ∧
      (feGet .a (gaining 0)).residence = true ∧ bitOf 0x31F 8 = true ∧ ovlActive .a (gaining 0) = false ∧
      fis (chzB .a) Reg.CHZ_OVL_STAT.HOLD (gaining 0) = false ∧ chzManual .a (gaining 0) = false) ∧
    ((chzGet .a (gaining 0)).capRet = none ∧
      (chzGet .a (chzPut .a { capRet := some 3 } (gaining 0))).capRet = some 3 ∧
      chzGain .a (chzPut .a { capRet := some 3 } (gaining 0)) ≠ 3) := by decide

end Sys2Proof.Tests
end

section
/-!
SUPPORT. Overload episodes (R181–R185) and the canceller (R297, R299, R306): each command by its cases, and what a bank
or a front end reads after it.
-/

namespace Sys2Proof.Machine

open Reg

/-! ### The marks of an overload on the lanes (R184) -/

/-- Marking lanes changes what the lanes hold, and nothing else. -/
theorem laneMarks_lanes (l : List Nat) (m : Nat) (s : State) :
    ∃ v, l.foldl (fun t n => laneMark n m t) s = { s with lanes := v } := by
  induction l generalizing s with
  | nil => exact ⟨s.lanes, rfl⟩
  | cons n l ih =>
    obtain ⟨v, hv⟩ : ∃ v, laneMark n m s = { s with lanes := v } := by
      cases hf : (laneGet n s).frame with
      | none => exact ⟨s.lanes, by simp only [laneMark, hf]⟩
      | some f => exact ⟨_, by simp only [laneMark, hf]; rfl⟩
    obtain ⟨w, hw⟩ := ih (laneMark n m s)
    exact ⟨w, by rw [List.foldl_cons, hw, hv]⟩

/-! ### An episode opens (R183) -/

theorem Registers.wf_episodeOpen {s : State} (h : Registers.wf s = true) (fe : Fe) (start : Nat) :
    Registers.wf (episodeOpen fe start s) = true := (episodeOpen_keeps (β := true) .rfl fe start).regs h

/-- An open episode goes on. -/
theorem episodeOpen_active {fe : Fe} {s : State} (h : ovlActive fe s = true) (start : Nat) :
    episodeOpen fe start s = s := if_pos h

/-- CHZ_OVL_STAT and what the bank holds as an episode begins, before its start is recorded. -/
def episodeCounted (fe : Fe) (s : State) : State :=
  fset (chzB fe) CHZ_OVL_STAT.ACTIVE 1 (fset (chzB fe) CHZ_OVL_STAT.CLEAN_VALID 0
    (fset (chzB fe) CHZ_OVL_STAT.DROP_CNT 0 (fcount (chzB fe) CHZ_OVL_STAT.OVL_CNT
      (chzPut fe { chzGet fe s with spoiltAll := true } s))))

theorem episodeOpen_begins {fe : Fe} {s : State} (h : ovlActive fe s = false) (start : Nat) :
    episodeOpen fe start s = wr48 (chzB fe + 0x1C) start (episodeCounted fe s) :=
  if_neg (by rw [h]; exact Bool.false_ne_true)

/-- An episode that begins: its start, no drop yet, and the other registers of its bank as they were. -/
theorem episodeCounted_shows {s : State} (h : Registers.wf s = true) (fe : Fe) :
    let t := episodeCounted fe s
    Registers.wf t = true ∧ fis (chzB fe) CHZ_OVL_STAT.ACTIVE t = true ∧
      fget (chzB fe) CHZ_OVL_STAT.DROP_CNT t = 0 ∧
      ∀ f : Fld, f.off ≠ 0x18 → fget (chzB fe) f t = fget (chzB fe) f s := by
  have hput := (Registers.wf_chzPut fe { chzGet fe s with spoiltAll := true } s).trans h
  have hcnt := Registers.wf_fcount hput (chzB fe) CHZ_OVL_STAT.OVL_CNT
  have hdrop := Registers.wf_fset hcnt (chzB fe) CHZ_OVL_STAT.DROP_CNT 0
  have hclean := Registers.wf_fset hdrop (chzB fe) CHZ_OVL_STAT.CLEAN_VALID 0
  refine ⟨Registers.wf_fset hclean _ _ _, fis_fset_one hclean _ (by decide), ?_, fun f hf => ?_⟩
  · rw [episodeCounted, fget_fset_of_apart hclean _ _ (by decide), fget_fset_of_apart hdrop _ _ (by decide),
      fget_fset_lt hcnt _ (by decide) (by decide)]
  · have ha : chzB fe + f.off ≠ chzB fe + 0x18 := by omega
    rw [episodeCounted, fget_fset_reg hclean _ _ _ ha, fget_fset_reg hdrop _ _ _ ha, fget_fset_reg hcnt _ _ _ ha,
      fcount, fget_fset_reg hput _ _ _ ha, fget_chzPut]

/-- After a detection an episode is open, with the start of the first detection; the gain and CHZ_CTRL stay. -/
theorem episodeOpen_shows {s : State} (h : Registers.wf s = true) (fe : Fe) {start : Nat} (hstart : start < 2 ^ 48) :
    let t := episodeOpen fe start s
    ovlActive fe t = true ∧ ovlStart fe t = (if ovlActive fe s then ovlStart fe s else start) ∧
      fget (chzB fe) CHZ_OVL_STAT.DROP_CNT t =
        (if ovlActive fe s then fget (chzB fe) CHZ_OVL_STAT.DROP_CNT s else 0) ∧
      chzGain fe t = chzGain fe s ∧ fis (chzB fe) CHZ_CTRL.OVL_DROP t = fis (chzB fe) CHZ_CTRL.OVL_DROP s := by
  cases hact : ovlActive fe s with
  | true =>
    rw [episodeOpen_active hact]
    exact ⟨hact, rfl, rfl, rfl, rfl⟩
  | false =>
    obtain ⟨hw, hopen, hnone, hrest⟩ := episodeCounted_shows h fe
    have hkept {f : Fld} (hf : f.off ≠ 0x1C ∧ f.off ≠ 0x1C + 4) := fget_wr48_of_ne hw (chzB fe) start hf
    rw [episodeOpen_begins hact]
    refine ⟨(congrArg (· == 1) (hkept (by decide))).trans hopen, rd48_wr48_self hw _ hstart,
      (hkept (by decide)).trans hnone, (hkept (by decide)).trans (hrest _ (by decide)),
      congrArg (· == 1) ((hkept (by decide)).trans (hrest _ (by decide)))⟩

/-! ### A detection of overload (R178, R181, R184) -/

/-- What a detection leaves before its drop: an open episode, and no scheduled change. -/
abbrev overloadFound (fe : Fe) (start : Nat) (s : State) : State := cancelGain fe (episodeOpen fe start s)

/-- With OVL_DROP a detection above 0 dB makes a drop of six codes, or to 0 dB, due and counts it. -/
theorem overloadDetect_drops {fe : Fe} {start : Nat} {s : State}
    (hd : fis (chzB fe) CHZ_CTRL.OVL_DROP (overloadFound fe start s) = true)
    (hg : chzGain fe (overloadFound fe start s) ≠ 0) :
    overloadDetect fe start s = fcount (chzB fe) CHZ_OVL_STAT.DROP_CNT
      (chzPut fe { chzGet fe (overloadFound fe start s) with drop := some (chzGain fe (overloadFound fe start s) - 6) }
        (overloadFound fe start s)) := (if_pos hd).trans (if_neg hg)

/-- A detection with OVL_DROP above 0 dB. -/
theorem overloadDetect_shows {fe : Fe} {s : State} (h : Registers.wf s = true)
    (hd : fis (chzB fe) CHZ_CTRL.OVL_DROP s = true) (hg : chzGain fe s ≠ 0) {start : Nat} (hstart : start < 2 ^ 48) :
    let t := overloadDetect fe start s
    (chzGet fe t).sched = none ∧ (chzGet fe t).drop = some (chzGain fe s - 6) ∧ ovlActive fe t = true ∧
      chzGain fe t = chzGain fe s ∧ ovlStart fe t = (if ovlActive fe s then ovlStart fe s else start) ∧
      fget (chzB fe) CHZ_OVL_STAT.DROP_CNT t =
        (if ovlActive fe s then min 255 (fget (chzB fe) CHZ_OVL_STAT.DROP_CNT s + 1) else 1) := by
  have hopened := Registers.wf_episodeOpen h fe start
  have hfound := Registers.wf_cancelGain hopened fe
  obtain ⟨hact, hfirst, hcount, hgain, hctrl⟩ := episodeOpen_shows h fe hstart
  have hfoundGain : chzGain fe (overloadFound fe start s) = chzGain fe s :=
    (fget_cancelGain hopened fe (by decide)).trans hgain
  have hfoundDrop : fis (chzB fe) CHZ_CTRL.OVL_DROP (overloadFound fe start s) = true :=
    ((fis_cancelGain hopened fe (by decide)).trans hctrl).trans hd
  have hput (v : ChzState) := (Registers.wf_chzPut fe v (overloadFound fe start s)).trans hfound
  intro t
  have ht : t = _ := overloadDetect_drops hfoundDrop (by rwa [hfoundGain])
  have hkept {f : Fld} (hf : f.Apart CHZ_OVL_STAT.DROP_CNT ∧ f.Apart CHZ_GAIN_STAT.PEND) :
      fget (chzB fe) f t = fget (chzB fe) f (episodeOpen fe start s) := by
    rw [ht, fcount, fget_fset_of_apart (hput _) _ _ hf.1, fget_chzPut, fget_cancelGain hopened fe hf.2]
  refine ⟨?_, ?_, (congrArg (· == 1) (hkept (by decide))).trans hact, (hkept (by decide)).trans hgain, ?_, ?_⟩
  · rw [ht, chzGet_fcount, chzGet_chzPut_self, chzGet_cancelGain]
  · rw [ht, chzGet_fcount, chzGet_chzPut_self, hfoundGain]
  · rw [ht, ovlStart, fcount, rd48_fset_of_ne (hput _) _ _ (by decide), rd48_chzPut,
      rd48_cancelGain hopened fe (by decide)]
    exact hfirst
  · rw [ht, fget_fcount (hput _) _ (by decide), fget_chzPut, fget_cancelGain hopened fe (by decide), hcount]
    split <;> rfl

/-- Outside a residence, or deaf, nothing is detected. -/
theorem exec_overloadDetect_none {fe : Fe} {s : State} (h : (feGet fe s).residence = false ∨ chzDeaf fe s = true)
    (start : BitVec 48) : exec (.overloadDetect fe start) s = .next s := by
  refine congrArg Host.Outcome.next (if_neg fun ⟨hres, hdeaf⟩ => ?_)
  obtain h | h := h
  · exact Bool.false_ne_true (h.symm.trans hres)
  · exact Bool.false_ne_true (hdeaf.symm.trans h)

/-- A detection marks the frames of the lanes and acts on the bank. -/
theorem exec_overloadDetect_found {fe : Fe} {s : State} (hres : (feGet fe s).residence = true)
    (hdeaf : chzDeaf fe s = false) (start : BitVec 48) :
    ∃ v, exec (.overloadDetect fe start) s = .next (overloadDetect fe start.toNat { s with lanes := v }) := by
  obtain ⟨v, hv⟩ := laneMarks_lanes (lanesOf fe s) markOvl s
  exact ⟨v, congrArg Host.Outcome.next ((if_pos ⟨hres, hdeaf⟩).trans (congrArg _ hv))⟩

/-! ### The drop (R181, R184) -/

theorem overloadDrop_none {fe : Fe} {s : State} (h : (chzGet fe s).drop = none) (period : Nat) :
    overloadDrop fe period s = s := by
  simp only [overloadDrop, h]

/-- A drop takes effect with cause 2, and FE_OVL. -/
theorem overloadDrop_some {fe : Fe} {s : State} {c : Nat} (h : (chzGet fe s).drop = some c)
    (hc : (chzGet fe s).cap = none) (period : Nat) :
    overloadDrop fe period s = raiseEvt (feEv fe + 4) (wr48 (chzB fe + 0xC) period
      (fset (chzB fe) CHZ_GAIN_STAT.CAUSE 2 (fset (chzB fe) CHZ_GAIN_STAT.GAIN c
        (chzPut fe { chzGet fe s with drop := none } s)))) := by
  have hcap : (chzGet fe (chzPut fe { chzGet fe s with drop := none } s)).cap = none :=
    (congrArg ChzState.cap (chzGet_chzPut_self ..)).trans hc
  simp only [overloadDrop, h]
  rw [setGain_uncapped hcap]

/-! ### The end of an episode and of its hold (R183, R185) -/

theorem episodeEnd_none {fe : Fe} {s : State} (h : ovlActive fe s = false) (e : Nat) : episodeEnd fe e s = s :=
  if_neg (by rw [h]; exact Bool.false_ne_true)

/-- An episode's end with its clean index. -/
def episodeClosed (fe : Fe) (e : Nat) (s : State) : State :=
  wr48 (chzB fe + 0x24) (e + 24) (fset (chzB fe) CHZ_OVL_STAT.CLEAN_VALID 1 (fset (chzB fe) CHZ_OVL_STAT.ACTIVE 0 s))

/-- The fields after an episode's end. -/
theorem episodeClosed_shows {s : State} (h : Registers.wf s = true) (fe : Fe) {e : Nat} (he : e + 24 < 2 ^ 48) :
    let t := episodeClosed fe e s
    Registers.wf t = true ∧ ovlClean fe t = e + 24 ∧ ovlActive fe t = false ∧
      fis (chzB fe) CHZ_OVL_STAT.CLEAN_VALID t = true ∧
      ∀ f : Fld, f.off ≠ 0x18 ∧ f.off ≠ 0x24 ∧ f.off ≠ 0x28 → fget (chzB fe) f t = fget (chzB fe) f s := by
  have hact := Registers.wf_fset h (chzB fe) CHZ_OVL_STAT.ACTIVE 0
  have hclean := Registers.wf_fset hact (chzB fe) CHZ_OVL_STAT.CLEAN_VALID 1
  have hkept {f : Fld} (hf : f.off ≠ 0x24 ∧ f.off ≠ 0x24 + 4) := fget_wr48_of_ne hclean (chzB fe) (e + 24) hf
  refine ⟨Registers.wf_wr48 hclean _ _, rd48_wr48_self hclean _ he, ?_, ?_, fun f hf => ?_⟩
  · exact (congrArg (· == 1) (hkept (by decide))).trans
      ((fis_fset_of_apart hact _ _ (by decide)).trans (fis_fset_zero h _ (by decide)))
  · exact (congrArg (· == 1) (hkept (by decide))).trans (fis_fset_one hact _ (by decide))
  · obtain ⟨hstat, hclc⟩ := hf
    have ha : chzB fe + f.off ≠ chzB fe + 0x18 := by omega
    rw [episodeClosed, hkept hclc, fget_fset_reg hact _ _ _ ha, fget_fset_reg h _ _ _ ha]

/-- An episode's end starts the hold when OVL_HOLD is not 0. -/
theorem episodeEnd_shows {fe : Fe} {s : State} (h : Registers.wf s = true) (ha : ovlActive fe s = true) {e : Nat}
    (he : e + 24 < 2 ^ 48) (hh : fget (chzB fe) CHZ_GAIN_CFG.OVL_HOLD s ≠ 0) :
    let t := episodeEnd fe e s
    ovlClean fe t = e + 24 ∧ ovlActive fe t = false ∧ fis (chzB fe) CHZ_OVL_STAT.CLEAN_VALID t = true ∧
      fis (chzB fe) CHZ_OVL_STAT.HOLD t = true ∧ chzGain fe t = chzGain fe s := by
  obtain ⟨hw, hclean, hact, hvalid, hrest⟩ := episodeClosed_shows h fe he
  intro t
  have ht : t = fset (chzB fe) CHZ_OVL_STAT.HOLD 1 (episodeClosed fe e s) :=
    (if_pos ha).trans (if_neg (by rwa [← hrest _ (by decide)] at hh))
  rw [ht]
  refine ⟨(rd48_fset_of_ne hw _ _ (by decide)).trans hclean, (fis_fset_of_apart hw _ _ (by decide)).trans hact,
    (fis_fset_of_apart hw _ _ (by decide)).trans hvalid, fis_fset_one hw _ (by decide),
    (fget_fset_of_apart hw _ _ (by decide)).trans (hrest _ (by decide))⟩

theorem holdEnd_none {fe : Fe} {s : State} (h : fis (chzB fe) CHZ_OVL_STAT.HOLD s = false) (period : Nat) :
    holdEnd fe period s = s := if_neg (by rw [h]; exact Bool.false_ne_true)

/-- Outside MANUAL the hold's end clears HOLD alone. -/
theorem holdEnd_auto {fe : Fe} {s : State} (h : Registers.wf s = true)
    (hh : fis (chzB fe) CHZ_OVL_STAT.HOLD s = true) (hm : chzManual fe s = false) (period : Nat) :
    holdEnd fe period s = fset (chzB fe) CHZ_OVL_STAT.HOLD 0 s := by
  have hauto : chzManual fe (fset (chzB fe) CHZ_OVL_STAT.HOLD 0 s) = false :=
    (fis_fset_of_apart h _ _ (by decide)).trans hm
  exact (if_pos hh).trans (if_neg fun hman => Bool.false_ne_true (hauto.symm.trans hman.1))

/-! ### Training (R297) -/

theorem rd_fdxPut (fe : Fe) (v : FdxState) (s : State) (a : Nat) : rd a (fdxPut fe v s) = rd a s := by
  rw [rd, fdxPut_regs, rd]

@[simp] theorem fis_fdxPut (fe : Fe) (v : FdxState) (s : State) (b : Nat) (f : Fld) :
    fis b f (fdxPut fe v s) = fis b f s := by
  simp only [fis, fget, rd_fdxPut]

@[simp] theorem Registers.wf_fdxPut (fe : Fe) (v : FdxState) (s : State) :
    Registers.wf (fdxPut fe v s) = Registers.wf s := by
  simp only [Registers.wf, fdxPut_regs]

theorem trainingEnd_none {fe : Fe} {s : State} (h : fis (feB fe) FDX_STAT.TRAINING s = false) (deep : Bool) :
    trainingEnd fe deep s = s := if_neg (by rw [h]; exact Bool.false_ne_true)

/-- The canceller trained at the frame on air, to its depth or not. -/
def trained (fe : Fe) (deep : Bool) (s : State) : State :=
  fset (feB fe) FDX_STAT.TRAINING 0
    (fdxPut fe { fdxGet fe s with trained := some (fdxGet fe s).now, retrain := !deep, trains := false } s)

/-- A training that reaches its depth takes the margin to 1 MHz; one that misses it sets CONV_FAIL. -/
theorem trainingEnd_ends {fe : Fe} {s : State} (h : fis (feB fe) FDX_STAT.TRAINING s = true) (deep : Bool) :
    trainingEnd fe deep s = if deep then fset (feB fe) FDX_STAT.WIDE 0 (trained fe deep s)
      else fset (feB fe) FDX_ERR.CONV_FAIL 1 (trained fe deep s) := if_pos h

/-- The fields after a training. -/
theorem trainingEnd_shows {fe : Fe} {s : State} (hw : Registers.wf s = true)
    (h : fis (feB fe) FDX_STAT.TRAINING s = true) (deep : Bool) :
    let t := trainingEnd fe deep s
    fis (feB fe) FDX_STAT.TRAINING t = false ∧ (fdxGet fe t).retrain = !deep ∧
      (fdxGet fe t).trained = some (fdxGet fe s).now ∧
      fis (feB fe) FDX_STAT.WIDE t = (!deep && fis (feB fe) FDX_STAT.WIDE s) ∧
      fis (feB fe) FDX_ERR.CONV_FAIL t = (!deep || fis (feB fe) FDX_ERR.CONV_FAIL s) := by
  have hput (v : FdxState) := (Registers.wf_fdxPut fe v s).trans hw
  have hend : Registers.wf (trained fe deep s) = true := Registers.wf_fset (hput _) _ _ _
  have hoff : fis (feB fe) FDX_STAT.TRAINING (trained fe deep s) = false := fis_fset_zero (hput _) _ (by decide)
  have hkept {f : Fld} (hf : f.Apart FDX_STAT.TRAINING) :
      fis (feB fe) f (trained fe deep s) = fis (feB fe) f s :=
    (fis_fset_of_apart (hput _) _ _ hf).trans (fis_fdxPut ..)
  have hnow : fdxGet fe (trained fe deep s) =
      { fdxGet fe s with trained := some (fdxGet fe s).now, retrain := !deep, trains := false } := by
    rw [trained, fdxGet_fset, fdxGet_fdxPut_self]
  intro t
  have ht : t = _ := trainingEnd_ends h deep
  cases deep with
  | true =>
    rw [ht, if_pos rfl, fdxGet_fset, hnow]
    exact ⟨(fis_fset_of_apart hend _ _ (by decide)).trans hoff, rfl, rfl, fis_fset_zero hend _ (by decide),
      (fis_fset_of_apart hend _ _ (by decide)).trans (hkept (by decide))⟩
  | false =>
    rw [ht, if_neg Bool.false_ne_true, fdxGet_fset, hnow]
    exact ⟨(fis_fset_of_apart hend _ _ (by decide)).trans hoff, rfl, rfl,
      (fis_fset_of_apart hend _ _ (by decide)).trans (hkept (by decide)), fis_fset_one hend _ (by decide)⟩

/-! ### The measurement (R299, R306) -/

/-- A span of another mode, or below 0 dBm, is not measured. -/
theorem fdxMeasure_none {fe : Fe} {s : State} (h : fget (feB fe) FDX_STAT.MODE s ≠ 2 ∨ (fdxGet fe s).pset < 0)
    (iso cancel : Nat) : fdxMeasure fe iso cancel s = s := by
  refine if_neg fun ⟨hmode, _, hpset⟩ => ?_
  obtain h | h := h
  · exact h hmode
  · omega

/-- FDX_MEAS with a measurement. -/
def isolationShown (fe : Fe) (iso cancel : Nat) (s : State) : State :=
  fset (feB fe) FDX_MEAS.ISO_MEAS iso (fset (feB fe) FDX_MEAS.CANCEL cancel (fset (feB fe) FDX_MEAS.VALID 1
    (fnext (feB fe) FDX_MEAS.SEQ s)))

/-- A measurement's fields, read back; FDX_ERR stays. -/
theorem fget_isolationShown {s : State} (h : Registers.wf s = true) (fe : Fe) (iso cancel : BitVec 8) :
    let t := isolationShown fe iso.toNat cancel.toNat s
    Registers.wf t = true ∧ fget (feB fe) FDX_MEAS.ISO_MEAS t = iso.toNat ∧
      fget (feB fe) FDX_MEAS.CANCEL t = cancel.toNat ∧ fget (feB fe) FDX_MEAS.VALID t = 1 ∧
      fget (feB fe) FDX_MEAS.SEQ t = (fget (feB fe) FDX_MEAS.SEQ s + 1) % 256 ∧
      fget (feB fe) FDX_ERR.ISO_LOW t = fget (feB fe) FDX_ERR.ISO_LOW s := by
  have hseq := Registers.wf_fset h (feB fe) FDX_MEAS.SEQ (fget (feB fe) FDX_MEAS.SEQ s + 1)
  have hvalid := Registers.wf_fset hseq (feB fe) FDX_MEAS.VALID 1
  have hcancel := Registers.wf_fset hvalid (feB fe) FDX_MEAS.CANCEL cancel.toNat
  simp (disch := decide) only [isolationShown, fnext, fget_fset_self h, fget_fset_self hseq, fget_fset_self hvalid,
    fget_fset_self hcancel, fget_fset_of_apart h, fget_fset_of_apart hseq, fget_fset_of_apart hvalid,
    fget_fset_of_apart hcancel]
  exact ⟨Registers.wf_fset hcancel _ _ _, Nat.mod_eq_of_lt iso.isLt, Nat.mod_eq_of_lt cancel.isLt, rfl, rfl, trivial⟩

/-- The end of a span of a DUPLEX frame at 0 dBm or more. -/
theorem fdxMeasure_measures {fe : Fe} {s : State} (hmode : fget (feB fe) FDX_STAT.MODE s = 2)
    (htrain : fis (feB fe) FDX_STAT.TRAINING s = false) (hpset : 0 ≤ (fdxGet fe s).pset) (iso cancel : Nat) :
    fdxMeasure fe iso cancel s = if iso < 25 then fset (feB fe) FDX_ERR.ISO_LOW 1 (isolationShown fe iso cancel s)
      else isolationShown fe iso cancel s := if_pos ⟨hmode, htrain, hpset⟩

/-- A measurement as FDX_MEAS and FDX_ERR show it. -/
theorem fdxMeasure_shows {fe : Fe} {s : State} (hw : Registers.wf s = true)
    (hmode : fget (feB fe) FDX_STAT.MODE s = 2) (htrain : fis (feB fe) FDX_STAT.TRAINING s = false)
    (hpset : 0 ≤ (fdxGet fe s).pset) (iso cancel : BitVec 8) :
    let t := fdxMeasure fe iso.toNat cancel.toNat s
    fget (feB fe) FDX_MEAS.ISO_MEAS t = iso.toNat ∧ fget (feB fe) FDX_MEAS.CANCEL t = cancel.toNat ∧
      fis (feB fe) FDX_MEAS.VALID t = true ∧
      fget (feB fe) FDX_MEAS.SEQ t = (fget (feB fe) FDX_MEAS.SEQ s + 1) % 256 ∧
      fis (feB fe) FDX_ERR.ISO_LOW t = (decide (iso.toNat < 25) || fis (feB fe) FDX_ERR.ISO_LOW s) := by
  obtain ⟨hshown, hiso, hcancel, hvalid, hseq, hlow⟩ := fget_isolationShown hw fe iso cancel
  intro t
  have ht : t = _ := fdxMeasure_measures hmode htrain hpset iso.toNat cancel.toNat
  by_cases hless : iso.toNat < 25
  · have hkept {f : Fld} (hf : f.Apart FDX_ERR.ISO_LOW) := fget_fset_of_apart hshown (feB fe) 1 hf
    rw [ht, if_pos hless, decide_eq_true hless]
    exact ⟨(hkept (by decide)).trans hiso, (hkept (by decide)).trans hcancel,
      congrArg (· == 1) ((hkept (by decide)).trans hvalid), (hkept (by decide)).trans hseq,
      fis_fset_one hshown _ (by decide)⟩
  · rw [ht, if_neg hless, decide_eq_false hless]
    exact ⟨hiso, hcancel, congrArg (· == 1) hvalid, hseq, congrArg (· == 1) hlow⟩

/-- Settles O15: a detection by the episode it finds or opens (R181–R184), the drop, the episode's end and the hold's by
what is due (R181, R183, R185), and the canceller by what its end and its measurement show (R297, R299, R306). -/
theorem overloadAndCanceller : Obligations.OverloadAndCanceller := by
  refine ⟨⟨?_, ?_, ?_, ?_, ?_, ?_⟩, ?_, ?_⟩
  · exact fun fe start s h => exec_overloadDetect_none h start
  · intro fe start s hres hdeaf hw hd hg
    obtain ⟨v, hv⟩ := exec_overloadDetect_found hres hdeaf start
    exact ⟨_, hv, overloadDetect_shows (s := { s with lanes := v }) hw hd hg start.isLt⟩
  · exact fun fe period s h => congrArg Host.Outcome.next (overloadDrop_none h _)
  · exact fun fe period s c h hc => congrArg Host.Outcome.next (overloadDrop_some h hc _)
  · exact fun fe e s hw => ⟨fun h => congrArg Host.Outcome.next (episodeEnd_none h _),
      fun ha he hh => ⟨_, rfl, episodeEnd_shows hw ha he hh⟩⟩
  · exact fun fe period s => ⟨fun h => congrArg Host.Outcome.next (holdEnd_none h _),
      fun hh hm hw => congrArg Host.Outcome.next (holdEnd_auto hw hh hm _)⟩
  · exact fun fe deep s hw => ⟨fun h => congrArg Host.Outcome.next (trainingEnd_none h deep),
      fun h => ⟨_, rfl, trainingEnd_shows hw h deep⟩⟩
  · exact fun fe iso cancel s hw => ⟨fun h => congrArg Host.Outcome.next (fdxMeasure_none h ..),
      fun hmode htrain hpset => ⟨_, rfl, fdxMeasure_shows hw hmode htrain hpset iso cancel⟩⟩

end Sys2Proof.Machine

namespace Sys2Proof.Tests

open Sys2Proof.Machine

set_option maxRecDepth 100000

/-- `gaining` with an episode open, its drop to 0 dB due, the hold running and an OVL_HOLD of 1. -/
def overloaded : State :=
  fset (chzB .a) Reg.CHZ_GAIN_CFG.OVL_HOLD 1 (fset (chzB .a) Reg.CHZ_OVL_STAT.HOLD 1
    (fset (chzB .a) Reg.CHZ_OVL_STAT.ACTIVE 1 (chzPut .a { drop := some 0 } (gaining 0))))

/-- Front end A in transmit mode `mode` at `pset`, with FDX_STAT.TRAINING `training`. -/
def duplexing (mode training : Nat) (pset : Int) : State :=
  fset (feB .a) Reg.FDX_STAT.TRAINING training (fset (feB .a) Reg.FDX_STAT.MODE mode
    (fdxPut .a { pset := pset } roomZeroOpen))

/-- A front end outside a residence, a deaf one, and one that detects without an episode and with one; no drop due, and
a drop to 0 dB; no episode, and one whose clean index is the largest; no hold, and one that ends outside MANUAL; no
training, and one under way; and a span in HALF, one below 0 dBm, and one in DUPLEX at 0 dBm. -/
theorem test_hyps_overloadAndCanceller :
    ((feGet .a roomZeroOpen).residence = false ∧ chzDeaf .a (duplexing 1 0 0) = true) ∧
    (∀ s ∈ [gaining 0, overloaded], (feGet .a s).residence = true ∧ chzDeaf .a s = false ∧
      Registers.wf s = true ∧ fis (chzB .a) Reg.CHZ_CTRL.OVL_DROP s = true ∧ chzGain .a s ≠ 0) ∧
    ((chzGet .a (gaining 0)).drop = none ∧ (chzGet .a overloaded).drop = some 0 ∧
      (chzGet .a overloaded).cap = none) ∧
    (ovlActive .a (gaining 0) = false ∧ ovlActive .a overloaded = true ∧
      (0xFFFFFFFFFFE7 : BitVec 48).toNat + 24 < 2 ^ 48 ∧
      fget (chzB .a) Reg.CHZ_GAIN_CFG.OVL_HOLD overloaded ≠ 0) ∧
    (fis (chzB .a) Reg.CHZ_OVL_STAT.HOLD (gaining 0) = false ∧
      fis (chzB .a) Reg.CHZ_OVL_STAT.HOLD overloaded = true ∧ chzManual .a overloaded = false) ∧
    (Registers.wf (duplexing 2 1 0) = true ∧ fis (feB .a) Reg.FDX_STAT.TRAINING (duplexing 2 0 0) = false ∧
      fis (feB .a) Reg.FDX_STAT.TRAINING (duplexing 2 1 0) = true) ∧
    (fget (feB .a) Reg.FDX_STAT.MODE (duplexing 1 0 0) ≠ 2 ∧ (fdxGet .a (duplexing 2 0 (-1))).pset < 0 ∧
      fget (feB .a) Reg.FDX_STAT.MODE (duplexing 2 0 0) = 2 ∧ 0 ≤ (fdxGet .a (duplexing 2 0 0)).pset ∧
      Registers.wf (duplexing 2 0 0) = true) := by decide

end Sys2Proof.Tests
end

section
/-!
SUPPORT. The order of plan versions (R219), FAB_CMD by its cases (R221, R227), the checks of a slot in their order
(R217), and what the end of a slot's check shows (R217, R218, R221, R241).
-/

namespace Sys2Proof.Machine

open Reg

/-! ### The order of versions (R219) -/

/-- Newer, for sequences of 32 bits: the difference lies in 1 to 2^31 − 1. -/
theorem seqNewer_iff {b : Nat} (h : b < 2 ^ 32) (a : Nat) :
    seqNewer a b = true ↔ 1 ≤ (a + 2 ^ 32 - b) % 2 ^ 32 ∧ (a + 2 ^ 32 - b) % 2 ^ 32 < 2 ^ 31 := by
  rw [seqNewer, Nat.mod_eq_of_lt h, Bool.and_eq_true, decide_eq_true_iff, decide_eq_true_iff]
  omega

/-- Settles O17: by what newer means on 32 bits (R219), each claim is about one difference and its negative. -/
theorem sequenceOrder : Obligations.SequenceOrder := by
  intro a b ha hb
  have hab := seqNewer_iff hb a
  have hba := seqNewer_iff ha b
  simp only [← Bool.not_eq_true, hab, hba, true_and]
  exact ⟨by omega, by omega, by omega⟩

/-! ### FAB_CMD (R221, R227, R239) -/

/-- A FAB_CMD word's fields: KEY, the operation, the slot and the domain. -/
theorem fabWord_fields {key d k ops : Nat} (hkey : key < 2 ^ 16) (hd : d < 2 ^ 5) (hk : k < 2 ^ 1)
    (hops : ops < 2 ^ 3) :
    bitsOf (fabWord key d k ops) 16 16 = key ∧ bitsOf (fabWord key d k ops) 0 3 = ops ∧
      bitsOf (fabWord key d k ops) 4 1 = k ∧ bitsOf (fabWord key d k ops) 8 5 = d := by
  simp only [bitsOf, fabWord, BitVec.toNat_ofNat, Nat.shiftRight_eq_div_pow]
  omega

/-- ACTIVATE through the door, by what its word does. -/
theorem exec_fabActivate_admits {i : Init} {key : BitVec 16} {slot : BitVec 1} {s t : State}
    (h : Admits i (fabB + 4) .store s) (ht : fabCmd (fabWord key.toNat 0 slot.toNat 1) s = t) :
    exec (.fabActivate i key slot) s = .next (acknowledge t) :=
  ht ▸ congrArg Host.Outcome.next (doorStore_admits h)

theorem exec_fabCheck_admits {i : Init} {key : BitVec 16} {slot : BitVec 1} {s t : State}
    (h : Admits i (fabB + 4) .store s) (ht : fabCmd (fabWord key.toNat 0 slot.toNat 2) s = t) :
    exec (.fabCheck i key slot) s = .next (acknowledge t) :=
  ht ▸ congrArg Host.Outcome.next (doorStore_admits h)

theorem exec_fabReload_admits {i : Init} {key : BitVec 16} {d : BitVec 5} {s t : State}
    (h : Admits i (fabB + 4) .store s) (ht : fabCmd (fabWord key.toNat d.toNat 0 4) s = t) :
    exec (.fabReload i key d) s = .next (acknowledge t) :=
  ht ▸ congrArg Host.Outcome.next (doorStore_admits h)

/-- Another key is refused, whatever the operation. -/
theorem fabCmd_otherKey {key : BitVec 16} (h : key ≠ 0x4641) {d k ops : Nat} (hd : d < 2 ^ 5) (hk : k < 2 ^ 1)
    (hops : ops < 2 ^ 3) (s : State) : fabCmd (fabWord key.toNat d k ops) s = fset fabB FAB_ERR.CMD 1 s := by
  obtain ⟨hkey, -, -, -⟩ := fabWord_fields key.isLt hd hk hops
  have hne : key.toNat ≠ 0x4641 := fun he => h (BitVec.eq_of_toNat_eq he)
  exact if_pos (.inl (by rwa [hkey]))

/-- With the key each operation is refused while the loader works. -/
theorem fabCmd_busy {d k ops : Nat} (hd : d < 2 ^ 5) (hk : k < 2 ^ 1) (hops : ops = 1 ∨ ops = 2 ∨ ops = 4) {s : State}
    (h : s.plan.work ≠ .idle) : fabCmd (fabWord 0x4641 d k ops) s = fabRefuse 15 s := by
  obtain ⟨hkey, hop, -, -⟩ := fabWord_fields (key := 0x4641) (by decide) hd hk (ops := ops) (by omega)
  simp only [fabCmd, hkey, hop]
  rw [if_neg (by omega), if_neg (by omega), if_pos h]

theorem fabCmd_check (slot : BitVec 1) {s : State} (h : s.plan.work = .idle) :
    fabCmd (fabWord 0x4641 0 slot.toNat 2) s = planWork (.checking slot.toNat false) s := by
  obtain ⟨hkey, hop, hslot, -⟩ := fabWord_fields (key := 0x4641) (d := 0) (ops := 2) (by decide) (by decide) slot.isLt
    (by decide)
  simp only [fabCmd, hkey, hop, hslot, h]
  rfl

/-- ACTIVATE with an idle loader: NOT_NEWER, or the slot's check. -/
theorem fabCmd_activate (slot : BitVec 1) {s : State} (h : s.plan.work = .idle) :
    fabCmd (fabWord 0x4641 0 slot.toNat 1) s =
      if planActive s ∧ (activeSlot s = slot.toNat ∨
          (slotEmpty slot.toNat s = false ∧ seqNewer (slotSeq slot.toNat s) s.plan.seq = false))
      then fabRefuse 14 s else planWork (.checking slot.toNat true) s := by
  obtain ⟨hkey, hop, hslot, -⟩ := fabWord_fields (key := 0x4641) (d := 0) (ops := 1) (by decide) (by decide) slot.isLt
    (by decide)
  simp only [fabCmd, hkey, hop, hslot, h]
  rfl

/-- ACTIVATE of the slot in use, or of a sequence that is not newer. -/
theorem fabCmd_activate_refused {slot : BitVec 1} {s : State} (h : s.plan.work = .idle) (ha : planActive s = true)
    (hold : activeSlot s = slot.toNat ∨
      (slotEmpty slot.toNat s = false ∧ seqNewer (slotSeq slot.toNat s) s.plan.seq = false)) :
    fabCmd (fabWord 0x4641 0 slot.toNat 1) s = fabRefuse 14 s :=
  (fabCmd_activate slot h).trans (if_pos ⟨ha, hold⟩)

/-- ACTIVATE with no plan in use, or of a newer sequence in the other slot. -/
theorem fabCmd_activate_newer {slot : BitVec 1} {s : State} (h : s.plan.work = .idle)
    (hnew : planActive s = false ∨
      (activeSlot s ≠ slot.toNat ∧ seqNewer (slotSeq slot.toNat s) s.plan.seq = true)) :
    fabCmd (fabWord 0x4641 0 slot.toNat 1) s = planWork (.checking slot.toNat true) s := by
  refine (fabCmd_activate slot h).trans (if_neg ?_)
  obtain hnone | ⟨hother, hseq⟩ := hnew
  · simp [hnone]
  · simp [hother, hseq]

/-- RELOAD with an idle loader and no plan. -/
theorem fabCmd_reload_noPlan (d : BitVec 5) {s : State} (h : s.plan.work = .idle) (hp : activePlan s = none) :
    fabCmd (fabWord 0x4641 d.toNat 0 4) s = fabRefuse 6 s := by
  obtain ⟨hkey, hop, -, -⟩ := fabWord_fields (key := 0x4641) (k := 0) (ops := 4) (by decide) d.isLt (by decide)
    (by decide)
  simp only [fabCmd, hkey, hop, h, hp]
  rfl

/-- RELOAD with an idle loader of a domain that the plan in use has. -/
theorem fabCmd_reload_section (d : BitVec 5) {s : State} {p : Plan} (h : s.plan.work = .idle)
    (hp : activePlan s = some p) (hd : (p.tileSection d.toNat).isSome = true) :
    fabCmd (fabWord 0x4641 d.toNat 0 4) s =
      planWork (.loading [d.toNat] false false) (domainStop (fun _ => true) d.toNat s) := by
  obtain ⟨hkey, hop, -, hdom⟩ := fabWord_fields (key := 0x4641) (k := 0) (ops := 4) (by decide) d.isLt (by decide)
    (by decide)
  have hsome : ¬(p.tileSection d.toNat).isNone = true := by
    rw [Option.isNone_iff_eq_none]
    exact Option.isSome_iff_ne_none.1 hd
  simp only [fabCmd, hkey, hop, hdom, h, hp]
  exact if_neg hsome

/-! ### The checks of a body (R217) -/

/-- Whether each check of a body fails, in their order, with its code. -/
def bodyFaults (b : List Byte) : List (Bool × Nat) :=
  let p := planRead b
  [(!planHeaderOk b, 3), (!planDirOk b p.sections, 4), (!(p.sections.all fun x => crc32c x.bytes == x.crc), 5),
    (!planFieldsOk b p, 6), (!planTilesOk p, 7), (!planSlotsOk p, 8), (!planCarveOk p, 9), (!planLedgerOk p, 10),
    (!planEventsOk p, 11), (decide (p.floor ≤ 16 ∧ stepTop p.floor < p.stepMax), 12),
    (decide ¬(p.floor ≤ p.ceil ∧ p.ceil ≤ 16), 13)]

theorem firstCause_cons (b : Bool) (c : Nat) (l : List (Bool × Nat)) :
    (firstCause ((b, c) :: l)).getD 0 = if b then c else (firstCause l).getD 0 := by
  cases b <;> rfl

/-- The first cause is one of the list's that hold. -/
theorem mem_of_firstCause {l : List (Bool × Nat)} {c : Nat} (h : firstCause l = some c) : (true, c) ∈ l := by
  induction l with
  | nil => exact absurd h.symm (Option.some_ne_none c)
  | cons x r ih =>
    obtain ⟨b, d⟩ := x
    cases b with
    | true => exact Option.some.inj h ▸ List.mem_cons_self
    | false => exact List.mem_cons_of_mem _ (ih h)

/-- A body's code is that of its first fault. -/
theorem bodyCheck_eq_firstFault (b : List Byte) : bodyCheck b = (firstCause (bodyFaults b)).getD 0 := by
  simp only [bodyCheck, bodyFaults, firstCause_cons, decide_eq_true_eq]
  rfl

/-- The codes of a body's checks are 3 to 13. -/
theorem bodyFaults_code {b : List Byte} {x : Bool × Nat} (h : x ∈ bodyFaults b) : 3 ≤ x.2 ∧ x.2 ≤ 13 := by
  have hcode : x.2 ∈ (bodyFaults b).map Prod.snd := List.mem_map_of_mem h
  have hcodes : (bodyFaults b).map Prod.snd = [3, 4, 5, 6, 7, 8, 9, 10, 11, 12, 13] := rfl
  simp only [hcodes, List.mem_cons, List.not_mem_nil, or_false] at hcode
  omega

/-- The code of a body names a check that fails. -/
theorem fault_of_bodyCheck {b : List Byte} {c : Nat} (h : bodyCheck b = c) (hc : c ≠ 0) : (true, c) ∈ bodyFaults b := by
  rw [bodyCheck_eq_firstFault] at h
  cases hf : firstCause (bodyFaults b) with
  | none => exact absurd (by rw [← h, hf]; rfl) hc
  | some d =>
    have hd : d = c := by rw [← h, hf]; rfl
    exact hd ▸ mem_of_firstCause hf

/-- A body with a fault does not pass. -/
theorem bodyCheck_ne_zero {b : List Byte} {c : Nat} (h : (true, c) ∈ bodyFaults b) : bodyCheck b ≠ 0 := by
  obtain ⟨d, hd⟩ := Option.ne_none_iff_exists'.1 (firstCause_ne_none h)
  have hcode := bodyFaults_code (mem_of_firstCause hd)
  have hbody : bodyCheck b = d := by rw [bodyCheck_eq_firstFault, hd]; rfl
  omega

theorem bodyCheck_range (b : List Byte) : bodyCheck b = 0 ∨ (3 ≤ bodyCheck b ∧ bodyCheck b ≤ 13) := by
  by_cases h : bodyCheck b = 0
  · exact .inl h
  · exact .inr (bodyFaults_code (fault_of_bodyCheck rfl h))

theorem bodyCheck_badHeader {b : List Byte} (h : planHeaderOk b = false) : bodyCheck b = 3 := by
  rw [bodyCheck_eq_firstFault, bodyFaults, firstCause_cons, h]
  rfl

theorem bodyCheck_badDirectory {b : List Byte} (h : planHeaderOk b = true)
    (hd : planDirOk b (planRead b).sections = false) : bodyCheck b = 4 := by
  rw [bodyCheck_eq_firstFault, bodyFaults, firstCause_cons, firstCause_cons, h, hd]
  rfl

/-- Code 3 is a header that fails. -/
theorem bodyCheck_eq_three_iff (b : List Byte) : bodyCheck b = 3 ↔ planHeaderOk b = false :=
  ⟨fun h => by simpa [bodyFaults] using fault_of_bodyCheck h (by decide), bodyCheck_badHeader⟩

/-- Code 4 is a directory that fails behind a header that passes. -/
theorem bodyCheck_eq_four_iff (b : List Byte) :
    bodyCheck b = 4 ↔ planHeaderOk b = true ∧ planDirOk b (planRead b).sections = false := by
  refine ⟨fun h => ⟨?_, by simpa [bodyFaults] using fault_of_bodyCheck h (by decide)⟩,
    fun ⟨hhead, hdir⟩ => bodyCheck_badDirectory hhead hdir⟩
  by_contra hhead
  have hthree := bodyCheck_badHeader (Bool.eq_false_of_not_eq_true hhead)
  omega

/-- Limits that break R206's table or its order are a fault, of check 12 or 13. -/
theorem bodyCheck_badLimits {b : List Byte} (h : (planRead b).ceil < (planRead b).floor ∨ 16 < (planRead b).ceil ∨
    stepTop (planRead b).floor < (planRead b).stepMax) : bodyCheck b ≠ 0 := by
  by_cases hlim : (planRead b).floor ≤ (planRead b).ceil ∧ (planRead b).ceil ≤ 16
  · have hstep : (planRead b).floor ≤ 16 ∧ stepTop (planRead b).floor < (planRead b).stepMax := by omega
    exact bodyCheck_ne_zero (c := 12) (by simp [bodyFaults, hstep])
  · exact bodyCheck_ne_zero (c := 13) (by simp [bodyFaults, hlim])

/-! ### The end of a slot's check (R217, R218, R221, R241) -/

/-- A slot's code is 0 to 13. -/
theorem slotCheck_le (k : Nat) (s : State) : slotCheck k s ≤ 13 := by
  have hbody := bodyCheck_range (slotBody k s)
  unfold slotCheck
  split_ifs <;> omega

/-- An empty slot fails check 1. -/
theorem slotCheck_empty {k : Nat} {s : State} (h : slotEmpty k s = true) : slotCheck k s = 1 := if_pos h

/-- The state a check gives its slot. -/
def slotVerdict (k : Nat) (s : State) : Nat :=
  if slotEmpty k s then 0 else if slotCheck k s ≠ 0 then 2
  else if planActive s = true ∧ activeSlot s = k then 4 else 3

/-- A slot that fails shows its state with sequence 0, and its code in LAST_ERR. -/
theorem slotJudge_failed {k : Nat} {s : State} (h : slotCheck k s ≠ 0) :
    (slotJudge k s).2 = lastErr (slotCheck k s) (slotSet k (slotVerdict k s) 0 s) := by
  by_cases hempty : slotEmpty k s = true
  · simp only [slotJudge, slotVerdict, if_pos hempty]
  · simp only [slotJudge, slotVerdict, if_neg hempty, if_pos h]

/-- A slot that passes shows its state with its sequence. -/
theorem slotJudge_passed {k : Nat} {s : State} (h : slotCheck k s = 0) :
    (slotJudge k s).2 = slotSet k (slotVerdict k s) (slotSeq k s) s := by
  have hempty : ¬slotEmpty k s = true := fun he => absurd (h.symm.trans (slotCheck_empty he)) (by decide)
  have hcode : ¬slotCheck k s ≠ 0 := not_not.2 h
  simp only [slotJudge, slotVerdict, if_neg hempty, if_neg hcode]

/-- A slot's state field lies apart from LAST_ERR. -/
theorem slotState_apart (k : Nat) :
    (slotState k).lo + (slotState k).w ≤ 32 ∧ 2 ^ (slotState k).w = 8 ∧ (slotState k).off = 8 ∧
      (slotState k).Apart FAB_PLAN_STAT.LAST_ERR ∧ FAB_PLAN_STAT.LAST_ERR.Apart (slotState k) := by
  unfold slotState
  split <;> decide

/-- A slot's state and sequence read back; LAST_ERR stays. -/
theorem slotSet_shows {s : State} (h : Registers.wf s = true) {k st : Nat} (hst : st < 8) (seq : Nat) :
    let t := slotSet k st seq s
    Registers.wf t = true ∧ fget fabB (slotState k) t = st ∧ fget (fabB + 4 * k) FAB_SEQ.SEQ t = seq % 2 ^ 32 ∧
      fget fabB FAB_PLAN_STAT.LAST_ERR t = fget fabB FAB_PLAN_STAT.LAST_ERR s := by
  obtain ⟨hin, htop, hoff, -, hapart⟩ := slotState_apart k
  have hstate := Registers.wf_fset h fabB (slotState k) st
  have hseq {f : Fld} (hf : f.off = 8) : fabB + f.off ≠ fabB + 4 * k + FAB_SEQ.SEQ.off := by
    rw [hf, show FAB_SEQ.SEQ.off = 12 from rfl]
    omega
  refine ⟨Registers.wf_fset hstate _ _ _, ?_, fget_fset_self hstate _ _ _ (by decide), ?_⟩
  · rw [slotSet, fget_fset_reg hstate _ _ _ (hseq hoff), fget_fset_lt h _ (by rwa [htop]) hin]
  · rw [slotSet, fget_fset_reg hstate _ _ _ (hseq rfl), fget_fset_of_apart h _ _ hapart]

theorem slotVerdict_lt (k : Nat) (s : State) : slotVerdict k s < 8 := by
  unfold slotVerdict
  split_ifs <;> decide

/-- A judged slot: its state, LAST_ERR and its sequence. -/
theorem slotJudge_shows {s : State} (h : Registers.wf s = true) (k : Nat) :
    let t := (slotJudge k s).2
    fget fabB (slotState k) t = slotVerdict k s ∧
      fget fabB FAB_PLAN_STAT.LAST_ERR t =
        (if slotCheck k s ≠ 0 then slotCheck k s else fget fabB FAB_PLAN_STAT.LAST_ERR s) ∧
      fget (fabB + 4 * k) FAB_SEQ.SEQ t = if slotCheck k s ≠ 0 then 0 else slotSeq k s % 2 ^ 32 := by
  by_cases hcode : slotCheck k s = 0
  · obtain ⟨-, hstate, hseq, hlast⟩ := slotSet_shows h (k := k) (slotVerdict_lt k s) (slotSeq k s)
    rw [slotJudge_passed hcode, if_neg (not_not.2 hcode), if_neg (not_not.2 hcode)]
    exact ⟨hstate, hlast, hseq⟩
  · obtain ⟨hw, hstate, hseq, -⟩ := slotSet_shows h (k := k) (slotVerdict_lt k s) 0
    obtain ⟨-, -, -, hapart, -⟩ := slotState_apart k
    have hle := slotCheck_le k s
    rw [slotJudge_failed hcode, if_pos hcode, if_pos hcode]
    refine ⟨(fget_fset_of_apart hw _ _ hapart).trans hstate, fget_fset_lt hw _ ?_ (by decide),
      (fget_fset_reg hw _ _ _ ?_).trans hseq⟩
    · exact Nat.lt_of_le_of_lt hle (by decide)
    · rw [show FAB_SEQ.SEQ.off = 12 from rfl, show FAB_PLAN_STAT.LAST_ERR.off = 8 from rfl]
      omega

/-- With no check under way PLAN_CHECK_DONE does nothing. -/
theorem planChecked_none {s : State} (h : ∀ k a, s.plan.work ≠ .checking k a) : planChecked s = s := by
  cases hw : s.plan.work with
  | checking k a => exact absurd hw (h k a)
  | idle | raising _ _ | waitAir _ | loading _ _ _ | scrubReload _ => simp only [planChecked, hw]

/-- The end of a CHECK. -/
theorem planChecked_check {k : Nat} {s : State} (h : s.plan.work = .checking k false) :
    planChecked s = planWork .idle (raiseEvt 798 (slotJudge k s).2) := by
  simp only [planChecked, h]
  rfl

/-- The end of an activation's check that fails. -/
theorem planChecked_fails {k : Nat} {s : State} (h : s.plan.work = .checking k true) (hc : (slotJudge k s).1 ≠ 0) :
    planChecked s = planWork .idle (loadFail (slotJudge k s).1 (slotJudge k s).2) := by
  simp only [planChecked, h, if_true, if_neg hc]

/-- The end of an activation's check that passes, with VCORE at or above the plan's floor. -/
theorem planChecked_passes {k : Nat} {s : State} (h : s.plan.work = .checking k true) (hc : (slotJudge k s).1 = 0)
    (hv : (slotPlan k (slotJudge k s).2).floor ≤ vNow (slotJudge k s).2) :
    planChecked s = planWork (.waitAir k)
      { (slotJudge k s).2 with pow := { (slotJudge k s).2.pow with goal := none } } := by
  simp only [planChecked, h, if_true, if_pos hc, planRaise, if_pos hv]
  rfl

/-- Settles O16: FAB_CMD by the fields of its word (R221, R227), the end of a slot's check by what it shows (R217, R218,
R241), and the code of a body as that of its first fault (R217). -/
theorem planCommandsAndChecks : Obligations.PlanCommandsAndChecks := by
  refine ⟨⟨?_, ?_, ?_, ?_⟩, ⟨?_, ?_, ?_, ?_⟩, ?_, ?_, ?_, ?_⟩
  · intro i key slot d s h hkey
    exact ⟨exec_fabActivate_admits h (fabCmd_otherKey hkey (by decide) slot.isLt (by decide) s),
      exec_fabCheck_admits h (fabCmd_otherKey hkey (by decide) slot.isLt (by decide) s),
      exec_fabReload_admits h (fabCmd_otherKey hkey d.isLt (by decide) (by decide) s)⟩
  · intro i slot d s h hbusy
    exact ⟨exec_fabActivate_admits h (fabCmd_busy (by decide) slot.isLt (by decide) hbusy),
      exec_fabCheck_admits h (fabCmd_busy (by decide) slot.isLt (by decide) hbusy),
      exec_fabReload_admits h (fabCmd_busy d.isLt (by decide) (by decide) hbusy)⟩
  · intro i slot s h hidle
    exact ⟨exec_fabCheck_admits h (fabCmd_check slot hidle),
      fun hact hslot => exec_fabActivate_admits h (fabCmd_activate_refused hidle hact (.inl hslot)),
      fun hnew => exec_fabActivate_admits h (fabCmd_activate_newer hidle hnew)⟩
  · intro i d s h hidle
    exact ⟨fun hp => exec_fabReload_admits h (fabCmd_reload_noPlan d hidle hp),
      fun p hp hd => exec_fabReload_admits h (fabCmd_reload_section d hidle hp hd)⟩
  · exact fun k s h => congrArg Host.Outcome.next (planChecked_check h)
  · exact fun k s h => ⟨planChecked s, rfl, fun hc => planChecked_fails h hc, fun hc hv => planChecked_passes h hc hv⟩
  · exact fun s h => congrArg Host.Outcome.next (planChecked_none h)
  · intro k s _ hw
    obtain ⟨hstate, hlast, hseq⟩ := slotJudge_shows hw k
    have hfailed : (slotEmpty k s = true ∨ slotCheck k s ≠ 0) ↔ slotCheck k s ≠ 0 :=
      or_iff_right_of_imp fun he => by rw [slotCheck_empty he]; decide
    simp only [hfailed]
    exact ⟨hstate, hlast, hseq, slotCheck_empty⟩
  · exact bodyCheck_eq_three_iff
  · exact bodyCheck_eq_four_iff
  · rintro b (h | h | h | h | h | h)
    · exact bodyCheck_badLimits (.inl h)
    · exact bodyCheck_badLimits (.inr (.inl h))
    · exact bodyCheck_badLimits (.inr (.inr h))
    · exact bodyCheck_ne_zero (c := 3) (by simp [bodyFaults, h])
    · exact bodyCheck_ne_zero (c := 6) (by simp [bodyFaults, h])
    · exact bodyCheck_ne_zero (c := 10) (by simp [bodyFaults, h])
  · exact bodyCheck_range

end Sys2Proof.Machine

namespace Sys2Proof.Tests

open Sys2Proof.Machine

set_option maxRecDepth 100000

/-- Differences of 1, 2^31 − 1, 2^31 and 0. -/
theorem test_hyps_sequenceOrder :
    seqNewer 0 (2 ^ 32 - 1) = true ∧ seqNewer (2 ^ 31 - 1) 0 = true ∧
    (2 ^ 31 + 2 ^ 32 - 0) % 2 ^ 32 = 2 ^ 31 ∧ (7 + 2 ^ 32 - 7) % 2 ^ 32 = 0 := by decide

/-- Slot A is empty. Slot B holds an image of another FORMAT, whose body of 48 octets has one directory row: a TILE
section of domain 31. -/
def planStored : State :=
  memWrite 0x0B800100 (leBytes 32 (2 ^ 48) ++ leBytes 4 0x1F0001) (memWrite 0x0B800020 (leBytes 4 48)
    (memWrite 0x0B800000 (leBytes 4 0x494D5459) roomZeroOpen))

/-- `planStored` with FAB_PLAN_STAT.ACTIVE `active`, a plan of sequence `seq` in use and the loader at `work`. -/
def loader (active seq : Nat) (work : PlanWork) : State :=
  fset fabB Reg.FAB_PLAN_STAT.ACTIVE active
    { planStored with plan := { planStored.plan with seq := seq, work := work } }

/-- A plan's body whose one section of 8 octets is VCORE: floor, ceiling and STEP_MAX. -/
def vcoreBody (floor ceil stepMax : Nat) : List Byte :=
  leBytes 32 (2 ^ 48) ++ leBytes 4 9 ++ leBytes 4 48 ++ leBytes 4 8 ++ leBytes 4 0 ++
    leBytes 4 (floor + 2 ^ 8 * ceil) ++ leBytes 4 stepMax

/-- An admitted write of FAB_CMD, and another key; the loader at work; the active slot, no plan in use, and the other
slot's sequence, the largest, newer than the plan's; a reload with no plan in use, and of a domain that it has; a check
and an activation under way, with an empty slot and one whose image fails; and bodies that break each rule named. A slot
that passes needs a signed image and is not evaluated here. -/
theorem test_hyps_planCommandsAndChecks :
    (∀ s ∈ [loader 0 0 .idle, loader 1 0 .idle, loader 2 0 .idle, loader 0 0 (.checking 0 false)],
      Admits .steward (fabB + 4) .store s ∧ Registers.wf s = true) ∧
    (0x4642 : BitVec 16) ≠ 0x4641 ∧ (loader 0 0 (.checking 0 false)).plan.work ≠ .idle ∧
    (planActive (loader 2 0 .idle) = true ∧ activeSlot (loader 2 0 .idle) = (1 : BitVec 1).toNat ∧
      planActive (loader 0 0 .idle) = false) ∧
    (activeSlot (loader 1 (2 ^ 32 - 2) .idle) ≠ (1 : BitVec 1).toNat ∧
      seqNewer (slotSeq (1 : BitVec 1).toNat (loader 1 (2 ^ 32 - 2) .idle))
        (loader 1 (2 ^ 32 - 2) .idle).plan.seq = true) ∧
    ((activePlan (loader 0 0 .idle)).isNone = true ∧
      (activePlan (loader 2 0 .idle)).any (fun p => (p.tileSection (31 : BitVec 5).toNat).isSome) = true) ∧
    ((∀ a ∈ [false, true], (loader 0 0 (.checking 0 a)).plan.work = .checking 0 a) ∧
      slotEmpty 0 (loader 0 0 .idle) = true ∧ slotCheck 0 (loader 0 0 .idle) = 1 ∧
      slotEmpty 1 (loader 0 0 .idle) = false ∧ slotCheck 1 (loader 0 0 .idle) = 1) ∧
    (planHeaderOk [] = false ∧ planFieldsOk [] (planRead []) = false ∧ planLedgerOk (planRead []) = false ∧
      planHeaderOk (leBytes 4 0x4E4C5051 ++ leBytes 28 (1 + 2 ^ 16 * 8)) = true ∧
      planDirOk (leBytes 4 0x4E4C5051 ++ leBytes 28 (1 + 2 ^ 16 * 8))
        (planRead (leBytes 4 0x4E4C5051 ++ leBytes 28 (1 + 2 ^ 16 * 8))).sections = false) ∧
    ((planRead (vcoreBody 16 15 0)).ceil < (planRead (vcoreBody 16 15 0)).floor ∧
      16 < (planRead (vcoreBody 16 17 0)).ceil ∧
      stepTop (planRead (vcoreBody 16 16 7556)).floor < (planRead (vcoreBody 16 16 7556)).stepMax) := by
  decide

end Sys2Proof.Tests
end

section
/-!
SUPPORT. A frame at a lane (R262–R269): how it begins, goes on and closes, one lemma per operation and case.
-/

namespace Sys2Proof.Machine

open Reg

/-! ### What a lane holds, and its page -/

/-- What a lane holds stands beside the registers. -/
@[simp] theorem fget_lanePut (n : Nat) (v : LaneState) (s : State) (b : Nat) (f : Fld) :
    fget b f (lanePut n v s) = fget b f s := rfl

@[simp] theorem Registers.wf_lanePut (n : Nat) (v : LaneState) (s : State) :
    Registers.wf (lanePut n v s) = Registers.wf s := rfl

/-- What a lane holds is set before or after a register's field alike. -/
theorem fset_lanePut (n : Nat) (v : LaneState) (b : Nat) (f : Fld) (x : Nat) (s : State) :
    fset b f x (lanePut n v s) = lanePut n v (fset b f x s) := rfl

/-- A lane in a frame, read back. -/
theorem laneGet_lanePut_frame {v : LaneState} {f : LaneFrame} (hv : v.frame = some f) (n : Nat) (s : State) :
    laneGet n (lanePut n v s) = v :=
  laneGet_lanePut_self (fun h => Option.some_ne_none f (hv.symm.trans (congrArg LaneState.frame h))) s

theorem laneGet_of_lanes {s t : State} (h : t.lanes = s.lanes) (n : Nat) : laneGet n t = laneGet n s := by
  simp only [laneGet, h]

@[simp] theorem chzPut_lanes (fe : Fe) (v : ChzState) (s : State) : (chzPut fe v s).lanes = s.lanes := by
  cases fe <;> rfl

/-- The lane pages stand above the blocks of the front ends. -/
theorem fget_laneP_fset_below {s : State} (h : Registers.wf s = true) (n : Nat) {b : Nat} {f : Fld}
    (hb : b + f.off < 0x50000000) (g : Fld) (v : Nat) : fget (laneP n) g (fset b f v s) = fget (laneP n) g s :=
  fget_fset_reg h f g v (by simp only [laneP]; omega)

theorem laneGainB_below {n : Nat} (hn : n < 256) {f : Fld} (hf : f.off = 0x800) :
    laneGainB n + f.off < 0x50000000 := by
  simp only [laneGainB, hf]
  omega

theorem chzB_midframe_below (fe : Fe) : chzB fe + CHZ_GAIN_STAT.MIDFRAME.off < 0x50000000 := by
  cases fe <;> decide

theorem laneMid_of_frame {n : Nat} {s : State} {f : LaneFrame} (h : (laneGet n s).frame = some f) :
    laneMid n s = true := by
  simp only [laneMid, h, Option.isSome_some]

theorem laneCut_frame {n : Nat} {s : State} {f : LaneFrame} (h : (laneGet n s).frame = some f) (code e : Nat) :
    laneCut n code e s = laneClose n code e (freeQuality s) s := if_pos (laneMid_of_frame h)

/-! ### A frame begins (R262, R263, R294) -/

/-- What the beginning of a frame writes. -/
theorem frameBegin_writes (n p : Nat) (s : State) : ∃ (c : ChzState) (v : LaneState),
    frameBegin n p s = midframeAdd (laneFe n s) (fset (laneGainB n) LANE_GAIN.FROZEN 1 (fset (laneP n) LANE_STAT.PHASE 1
      (fset (laneP n) LANE_STAT.MIDFRAME 1 (chzPut (laneFe n s) c (lanePut n v s))))) ∧
    ∃ f, v.frame = some f ∧ f.p = p :=
  ⟨_, _, rfl, _, rfl, rfl⟩

theorem frameBegin_shows {n : Nat} {s : State} (hn : n < 256) (h : Registers.wf s = true) (p : Nat) :
    let t := frameBegin n p s
    (laneGet n t).frame.map (fun f => f.p) = some p ∧ fis (laneP n) LANE_STAT.MIDFRAME t = true ∧
      fget (laneP n) LANE_STAT.PHASE t = 1 ∧ fis (laneGainB n) LANE_GAIN.FROZEN t = true ∧
      fget (chzB (laneFe n s)) CHZ_GAIN_STAT.MIDFRAME t =
        min 511 (fget (chzB (laneFe n s)) CHZ_GAIN_STAT.MIDFRAME s + 1) := by
  obtain ⟨c, v, ht, f, hv, hp⟩ := frameBegin_writes n p s
  have hput : Registers.wf (chzPut (laneFe n s) c (lanePut n v s)) = true :=
    (Registers.wf_chzPut ..).trans h
  have hmid := Registers.wf_fset hput (laneP n) LANE_STAT.MIDFRAME 1
  have hphase := Registers.wf_fset hmid (laneP n) LANE_STAT.PHASE 1
  have hfrozen := Registers.wf_fset hphase (laneGainB n) LANE_GAIN.FROZEN 1
  have hbelow := chzB_midframe_below (laneFe n s)
  have hgain : laneGainB n + LANE_GAIN.FROZEN.off < 0x50000000 := laneGainB_below hn rfl
  have hapart : laneGainB n + LANE_GAIN.FROZEN.off ≠ chzB (laneFe n s) + CHZ_GAIN_STAT.MIDFRAME.off := by
    cases laneFe n s <;> simp only [laneGainB, LANE_GAIN.FROZEN, chzB, Fe.num, CHZ_GAIN_STAT.MIDFRAME] <;> omega
  have hpage : chzB (laneFe n s) + CHZ_GAIN_STAT.MIDFRAME.off < laneP n := by
    simp only [laneP]
    omega
  simp only [ht, midframeAdd, fis]
  refine ⟨?_, ?_, ?_, ?_, ?_⟩
  · rw [laneGet_of_lanes (s := lanePut n v s) (by simp [fcount]), laneGet_lanePut_frame hv, hv, Option.map_some,
      hp]
  · rw [fcount, fget_laneP_fset_below hfrozen n hbelow, fget_laneP_fset_below hphase n hgain,
      fget_fset_of_apart hmid _ _ (by decide)]
    exact fis_fset_one hput _ (by decide)
  · rw [fcount, fget_laneP_fset_below hfrozen n hbelow, fget_laneP_fset_below hphase n hgain]
    exact fget_fset_lt hmid _ (by decide) (by decide)
  · rw [fcount, fget_fset_reg hfrozen _ _ _ hapart]
    exact fis_fset_one hphase _ (by decide)
  · rw [fget_fcount hfrozen _ (by decide), fget_fset_reg hphase _ _ _ hapart.symm,
      fget_fset_reg hmid _ _ _ (by omega), fget_fset_reg hput _ _ _ (by omega), fget_chzPut, fget_lanePut]
    rfl

theorem exec_preambleDetection_none {lane : BitVec 8} {index : BitVec 48} {s : State}
    (h : laneState lane.toNat s ≠ 2 ∨ laneMid lane.toNat s = true ∨
      index.toNat < (laneGet lane.toNat s).detectsFrom ∨ laneBlanked lane.toNat index.toNat s = true) :
    exec (.preambleDetection lane index) s = .next s := by
  refine congrArg Host.Outcome.next (if_neg ?_)
  rintro ⟨hstate, hmid, -, hfrom, hclear⟩
  rcases h with h | h | h | h
  · exact h hstate
  · exact Bool.false_ne_true (hmid.symm.trans h)
  · omega
  · exact Bool.false_ne_true (hclear.symm.trans h)

/-! ### SFD and PHR (R262, R264–R266) -/

theorem sfdFound_none {n : Nat} {coded : Bool} {s : State}
    (h : ∀ f, (laneGet n s).frame = some f → f.sfd.isSome = true ∨ (coded = true ∧ laneFec n s = false))
    (sfd frac : Nat) (mse : Int) : sfdFound n sfd frac coded mse s = s := by
  cases hf : (laneGet n s).frame with
  | none => simp only [sfdFound, hf]
  | some f => simp only [sfdFound, hf, if_pos (h f hf)]

/-- The SFD is found: Header begins, and the frame holds S and FRAC. -/
theorem sfdFound_header {n : Nat} {coded : Bool} {s : State} {f : LaneFrame} (hf : (laneGet n s).frame = some f)
    (hsfd : f.sfd = none) (hc : coded = true → laneFec n s = true) (sfd frac : Nat) (mse : Int) :
    ∃ m fl, sfdFound n sfd frac coded mse s = fset (laneP n) LANE_STAT.PHASE 2
      (lanePut n { laneGet n s with frame := some { f with sfd := some (sfd, frac), marks := m, floor := fl } } s) := by
  have hgo : ¬ (f.sfd.isSome = true ∨ (coded = true ∧ laneFec n s = false)) := by
    rintro (h | ⟨hcoded, hno⟩)
    · simp [hsfd] at h
    · exact Bool.false_ne_true (hno.symm.trans (hc hcoded))
  simp only [sfdFound, hf, if_neg hgo]
  exact ⟨_, _, rfl⟩

theorem sfdFound_shows {n : Nat} {coded : Bool} {s : State} {f : LaneFrame} (hf : (laneGet n s).frame = some f)
    (hsfd : f.sfd = none) (hc : coded = true → laneFec n s = true) (hw : Registers.wf s = true) (sfd frac : Nat)
    (mse : Int) :
    let t := sfdFound n sfd frac coded mse s
    fget (laneP n) LANE_STAT.PHASE t = 2 ∧
      (laneGet n t).frame.map (fun g => (g.p, g.sfd)) = some (f.p, some (sfd, frac)) := by
  obtain ⟨m, fl, ht⟩ := sfdFound_header hf hsfd hc sfd frac mse
  simp only [ht]
  refine ⟨fget_fset_lt hw _ (by decide) (by decide), ?_⟩
  rw [laneGet_of_lanes (fset_lanes ..), laneGet_lanePut_frame rfl]
  rfl

theorem exec_sfdTimeout_frame {lane : BitVec 8} {s : State} {f : LaneFrame}
    (h : (laneGet lane.toNat s).frame = some f) :
    exec (.sfdTimeout lane) s = .next (if f.sfd.isNone then laneRelease lane.toNat s else s) := by
  show execSfdTimeout lane s = _
  simp only [execSfdTimeout, h]

/-- The frame with what its PHR says. -/
abbrev phrTaken (n : Nat) (f : LaneFrame) (len : Nat) (fcs2 : Bool) (mcs : Nat) (s : State) : State :=
  lanePut n { laneGet n s with
    frame := some { f with
      len := len
      mcs := if phyOfdm f.phy then mcs else 0
      fcsLen := fcsLenOf f.phy fcs2 (fis (laneP n) LANE_CTRL.FCS2 s) } } s

theorem phrDecoded_noSfd {n : Nat} {s : State} {f : LaneFrame} (hf : (laneGet n s).frame = some f)
    (hsfd : f.sfd = none) (e len : Nat) (fcs2 : Bool) (mcs : Nat) (hcsOk : Bool) :
    phrDecoded n e len fcs2 mcs hcsOk s = s := by
  simp [phrDecoded, hf, hsfd]

theorem phrDecoded_header {n : Nat} {s : State} {f : LaneFrame} (hf : (laneGet n s).frame = some f)
    (hsfd : f.sfd.isSome = true) (e len : Nat) (fcs2 : Bool) (mcs : Nat) (hcsOk : Bool) :
    let s1 := phrTaken n f len fcs2 mcs s
    phrDecoded n e len fcs2 mcs hcsOk s =
      if phrBad f.phy len mcs (fcsLenOf f.phy fcs2 (fis (laneP n) LANE_CTRL.FCS2 s)) hcsOk
      then laneClose n 2 e (freeQuality s1) s1 else fset (laneP n) LANE_STAT.PHASE 3 s1 := by
  have hnone : ¬ f.sfd.isNone = true := by simpa [← Option.isSome_iff_ne_none] using hsfd
  simp only [phrDecoded, hf, if_neg hnone]

/-! ### The end of a frame (R264, R267–R269) -/

theorem exec_frameEnd_none {lane : BitVec 8} {s : State}
    (h : ∀ f, (laneGet lane.toNat s).frame = some f → f.fcsLen = 0) (index : BitVec 48) (fcsOk sat : Bool)
    (qual : Quality) : exec (.frameEnd lane index fcsOk sat qual) s = .next s := by
  show execFrameEnd lane index fcsOk sat qual s = _
  cases hf : (laneGet lane.toNat s).frame with
  | none => simp only [execFrameEnd, hf]
  | some f => simp only [execFrameEnd, hf, if_pos (h f hf)]

theorem exec_frameEnd_closes {lane : BitVec 8} {s : State} {f : LaneFrame}
    (hf : (laneGet lane.toNat s).frame = some f) (hfcs : f.fcsLen ≠ 0) (index : BitVec 48) (fcsOk sat : Bool)
    (qual : Quality) :
    exec (.frameEnd lane index fcsOk sat qual) s = .next (laneClose lane.toNat (if fcsOk then 0 else 1) index.toNat
      qual (if sat then laneMark lane.toNat markSat s else s)) := by
  show execFrameEnd lane index fcsOk sat qual s = _
  simp only [execFrameEnd, hf, if_neg hfcs]

theorem exec_laneTimeout_frame {lane : BitVec 8} {s : State} {f : LaneFrame}
    (h : (laneGet lane.toNat s).frame = some f) :
    exec (.laneTimeout lane) s = .next (laneClose lane.toNat 4 (f.p + fget (laneP lane.toNat) LANE_TMAX.TMAX s)
      (freeQuality s) s) := by
  show execLaneTimeout lane s = _
  simp only [execLaneTimeout, h, laneCut_frame h]

theorem exec_resyncCollision_frame {lane : BitVec 8} {s : State} {f : LaneFrame}
    (h : (laneGet lane.toNat s).frame = some f) (index : BitVec 48) :
    exec (.resyncCollision lane index) s = .next
      (if f.sfd.isSome = true ∧ fis (laneP lane.toNat) LANE_CTRL.RESYNC s = true ∧ laneState lane.toNat s = 2
        then frameBegin lane.toNat index.toNat (laneClose lane.toNat 5 index.toNat (freeQuality s) s) else s) := by
  show execResyncCollision lane index s = _
  simp only [execResyncCollision, h, laneCut_frame h]

/-- A mode switch PPDU releases the lane; with MS_EN it then waits in the announced mode, or says that it cannot. -/
theorem modeSwitch_releases {n : Nat} {s : State} {f : LaneFrame} (hf : (laneGet n s).frame = some f)
    (hsfd : f.sfd.isSome = true) (hfsk : phyFsk f.phy = true) (phy hq : Nat) :
    let s1 := laneRelease n s
    modeSwitch n phy hq s = if !fis (laneP n) LANE_MODE.MS_EN s1 then s1
      else if modeServed n phy hq s1 then lanePut n { laneGet n s1 with ms := some phy } s1
      else laneFlag n LANE_ERR.MS_UNSUP s1 := by
  simp only [modeSwitch, hf, if_pos (And.intro hsfd hfsk)]

/-! ### What a close shows (R264, R269, R287) -/

/-- On its page a release writes PHASE and MIDFRAME alone. -/
theorem fget_laneRelease {n : Nat} {s : State} (hn : n < 256) (h : Registers.wf s = true) (g : Fld) :
    fget (laneP n) g (laneRelease n s) =
      fget (laneP n) g (fset (laneP n) LANE_STAT.PHASE 0 (fset (laneP n) LANE_STAT.MIDFRAME 0 s)) := by
  have hgain {f : Fld} (hf : f.off = 0x800) := laneGainB_below hn hf
  unfold laneRelease
  extract_lets fe b l s1 s2 s3
  have hs2 : s2 = lanePut n { l with frame := none, ms := none }
      (fset (laneP n) LANE_STAT.PHASE 0 (fset (laneP n) LANE_STAT.MIDFRAME 0 s)) := by
    rw [← fset_lanePut, ← fset_lanePut]
  have h2 : Registers.wf s2 = true := by
    rw [hs2, Registers.wf_lanePut]
    exact Registers.wf_fset (Registers.wf_fset h _ _ _) _ _ _
  have hfrozen : Registers.wf (fset b LANE_GAIN.FROZEN 0 s2) = true := Registers.wf_fset h2 _ _ _
  have hpage : fget (laneP n) g s3 = fget (laneP n) g s2 :=
    (fget_laneP_fset_below hfrozen n (chzB_midframe_below fe) g _).trans
      (fget_laneP_fset_below h2 n (hgain rfl) g _)
  rw [hs2, fget_lanePut] at hpage
  split
  · exact (fget_laneP_fset_below (Registers.wf_fset hfrozen _ _ _) n (hgain rfl) g _).trans hpage
  · exact hpage

theorem midframe_laneRelease {n : Nat} {s : State} (hn : n < 256) (h : Registers.wf s = true) :
    fis (laneP n) LANE_STAT.MIDFRAME (laneRelease n s) = false := by
  rw [fis, fget_laneRelease hn h, fget_fset_of_apart (Registers.wf_fset h _ _ _) _ _ (by decide)]
  exact fis_fset_zero h _ (by decide)

theorem fget_laneRelease_of_apart {n : Nat} {s : State} (hn : n < 256) (h : Registers.wf s = true) {g : Fld}
    (hp : g.Apart LANE_STAT.PHASE) (hm : g.Apart LANE_STAT.MIDFRAME) :
    fget (laneP n) g (laneRelease n s) = fget (laneP n) g s := by
  rw [fget_laneRelease hn h, fget_fset_of_apart (Registers.wf_fset h _ _ _) _ _ hp, fget_fset_of_apart h _ _ hm]

/-- From `s` to `t` no register of lane `n`'s page changes but those from LAST_ST to LAST_SFD_HI. -/
structure ShowsLast (n : Nat) (s t : State) : Prop where
  wf : Registers.wf t = true
  fget : ∀ g : Fld, g.off < 0x48 ∨ 0x5C < g.off → fget (laneP n) g t = fget (laneP n) g s

namespace ShowsLast

variable {n : Nat} {s t : State}

theorem refl (n : Nat) (h : Registers.wf s = true) : ShowsLast n s s := ⟨h, fun _ _ => rfl⟩

theorem wr (h : ShowsLast n s t) {a : Nat} (ha : laneP n + 0x48 ≤ a ∧ a ≤ laneP n + 0x5C) (v : Word) :
    ShowsLast n s (wr a v t) :=
  ⟨Registers.wf_wr h.wf _ _, fun g hg => (fget_wr_ne h.wf g v (by omega)).trans (h.fget g hg)⟩

theorem fset (h : ShowsLast n s t) {f : Fld} (hf : 0x48 ≤ f.off ∧ f.off ≤ 0x5C) (v : Nat) :
    ShowsLast n s (fset (laneP n) f v t) := h.wr (by omega) _

theorem drawFree (h : ShowsLast n s t) : ShowsLast n s (drawFree t) := ⟨h.wf, h.fget⟩

theorem lanePut (h : ShowsLast n s t) (v : LaneState) : ShowsLast n s (lanePut n v t) := ⟨h.wf, h.fget⟩

theorem laneLast (h : ShowsLast n s t) (c : ClosedFrame) (f : LaneFrame) (deliv : Bool) :
    ShowsLast n s (laneLast n c f deliv t) := by
  unfold Machine.laneLast
  extract_lets b i s1 s2 s3 s4
  have h1 : ShowsLast n s s1 :=
    ((((h.fset (by decide) _).fset (by decide) _).fset (by decide) _).fset (by decide) _).fset (by decide) _
  have h2 : ShowsLast n s s2 := ((h1.fset (by decide) _).fset (by decide) _).fset (by decide) _
  have h3 : ShowsLast n s s3 := by
    refine fset ?_ (by decide) _
    split
    · exact h2.fset (by decide) _
    · exact h2.fset (by decide) _
  have h4 : ShowsLast n s s4 := h3.wr (by omega) _
  exact (((h4.fset (by decide) _).fset (by decide) _).fset (by decide) _).drawFree

end ShowsLast

/-- On the page of a closed frame's lane its delivery writes DUP alone. -/
theorem fget_laneDeliver {c : ClosedFrame} {s : State} (h : Registers.wf s = true) {g : Fld}
    (hg : g.Apart LANE_CNT1.DUP) : fget (laneP c.lane) g (laneDeliver c s) = fget (laneP c.lane) g s := by
  have hhand : fget (laneP c.lane) g (laneHand c s) = fget (laneP c.lane) g s := by
    unfold laneHand
    split
    · split
      · split
        · exact fget_fset_of_apart h _ _ hg
        · rfl
      · rfl
    · rfl
  unfold laneDeliver
  split
  · split
    · rfl
    · exact hhand
  · exact hhand

/-- A counter counts one up or stays. -/
abbrev countedIf (p : Prop) [Decidable p] (k : Nat) : Nat := if p then min 65535 (k + 1) else k

/-- A closed frame counts by its code. -/
theorem laneCount_shows {s : State} (h : Registers.wf s = true) (n code : Nat) :
    let t := laneCount n code s
    fget (laneP n) LANE_CNT0.OK t = countedIf (code = 0) (fget (laneP n) LANE_CNT0.OK s) ∧
      fget (laneP n) LANE_CNT0.BAD t = countedIf (code = 1 ∨ code = 2) (fget (laneP n) LANE_CNT0.BAD s) ∧
      fget (laneP n) LANE_CNT1.LOSS t = countedIf (3 ≤ code) (fget (laneP n) LANE_CNT1.LOSS s) := by
  have hself {f : Fld} (hf : f.lo + f.w ≤ 32) := fget_fcount h (laneP n) hf
  have hother {f g : Fld} (hg : g.Apart f) : fget (laneP n) g (fcount (laneP n) f s) = fget (laneP n) g s :=
    fget_fset_of_apart h _ _ hg
  intro t
  unfold countedIf
  by_cases hok : code = 0
  · have ht : t = fcount (laneP n) LANE_CNT0.OK s := if_pos hok
    rw [ht, if_pos hok, if_neg (by omega), if_neg (by omega)]
    exact ⟨hself (by decide), hother (by decide), hother (by decide)⟩
  · by_cases hbad : code ≤ 2
    · have ht : t = fcount (laneP n) LANE_CNT0.BAD s := (if_neg hok).trans (if_pos hbad)
      rw [ht, if_neg hok, if_pos (by omega), if_neg (by omega)]
      exact ⟨hother (by decide), hself (by decide), hother (by decide)⟩
    · have ht : t = fcount (laneP n) LANE_CNT1.LOSS s := (if_neg hok).trans (if_neg hbad)
      rw [ht, if_neg hok, if_neg (by omega), if_pos (by omega)]
      exact ⟨hother (by decide), hother (by decide), hself (by decide)⟩

/-- A close counts the frame, shows it in the LAST registers or not, releases the lane, and delivers the frame or
not. -/
theorem laneClose_stages {n : Nat} {s : State} (h : Registers.wf s = true) (hm : laneMid n s = true) (code e : Nat)
    (q : Quality) : ∃ u, ShowsLast n (laneCount n code s) u ∧
      (laneClose n code e q s = laneRelease n u ∨
        ∃ c : ClosedFrame, c.lane = n ∧ laneClose n code e q s = laneDeliver c (laneRelease n u)) := by
  have hcounted : Registers.wf (laneCount n code s) = true := (laneCount_keeps (β := true) .rfl n code).regs h
  unfold laneClose
  split
  next hf => simp [laneMid, hf] at hm
  next f hf =>
    extract_lets deliv c s1 s2 l s3 s4
    have h2 : ShowsLast n s1 s2 := by
      simp only [s2]
      split
      · exact .refl n hcounted
      · exact (ShowsLast.refl n hcounted).laneLast c f deliv
    have h3 : ShowsLast n s1 s3 := by
      simp only [s3]
      split
      · exact h2.lanePut _
      · exact h2
    refine ⟨s3, h3, ?_⟩
    split
    · exact .inr ⟨c, rfl, rfl⟩
    · exact .inl rfl

theorem laneClose_shows {n : Nat} {s : State} (hn : n < 256) (h : Registers.wf s = true) (hm : laneMid n s = true)
    (code e : Nat) (q : Quality) :
    let t := laneClose n code e q s
    fis (laneP n) LANE_STAT.MIDFRAME t = false ∧
      fget (laneP n) LANE_CNT0.OK t = countedIf (code = 0) (fget (laneP n) LANE_CNT0.OK s) ∧
      fget (laneP n) LANE_CNT0.BAD t = countedIf (code = 1 ∨ code = 2) (fget (laneP n) LANE_CNT0.BAD s) ∧
      fget (laneP n) LANE_CNT1.LOSS t = countedIf (3 ≤ code) (fget (laneP n) LANE_CNT1.LOSS s) := by
  obtain ⟨u, hlast, ht⟩ := laneClose_stages h hm code e q
  obtain ⟨hok, hbad, hloss⟩ := laneCount_shows h n code
  have hreleased : Registers.wf (laneRelease n u) = true := (laneRelease_keeps (β := true) .rfl n).regs hlast.wf
  have hpage {g : Fld} (hg : g.Apart LANE_CNT1.DUP) :
      fget (laneP n) g (laneClose n code e q s) = fget (laneP n) g (laneRelease n u) := by
    rcases ht with ht | ⟨c, rfl, ht⟩
    · rw [ht]
    · rw [ht, fget_laneDeliver hreleased hg]
  have hcounter {g : Fld} (hd : g.Apart LANE_CNT1.DUP) (hp : g.Apart LANE_STAT.PHASE)
      (hf : g.Apart LANE_STAT.MIDFRAME) (hl : g.off < 0x48 ∨ 0x5C < g.off) :
      fget (laneP n) g (laneClose n code e q s) = fget (laneP n) g (laneCount n code s) := by
    rw [hpage hd, fget_laneRelease_of_apart hn hlast.wf hp hf, hlast.fget g hl]
  refine ⟨?_, ?_, ?_, ?_⟩
  · rw [fis, hpage (by decide)]
    exact midframe_laneRelease hn hlast.wf
  · rw [← hok]
    exact hcounter (by decide) (by decide) (by decide) (by decide)
  · rw [← hbad]
    exact hcounter (by decide) (by decide) (by decide) (by decide)
  · rw [← hloss]
    exact hcounter (by decide) (by decide) (by decide) (by decide)

/-- Settles O21: the beginning of a frame by what each of its events finds and writes (R262–R266), its end by the close
or release that each event asks for (R264, R267, R268), and a close by its stages (R269, R287). -/
theorem framesReceived : Obligations.FramesReceived := by
  refine ⟨⟨?_, ?_, ?_, ?_, ?_⟩, ?_, ?_, ?_, ?_, ?_, ?_⟩
  · exact fun lane index s h => exec_preambleDetection_none h
  · intro lane index s n hstate hmid hres hfrom hclear hw
    exact ⟨_, congrArg Host.Outcome.next (if_pos ⟨hstate, hmid, hres, hfrom, hclear⟩),
      frameBegin_shows lane.isLt hw index.toNat⟩
  · intro lane index frac coded mseQ s n
    exact ⟨fun h => congrArg Host.Outcome.next (sfdFound_none h ..),
      fun f hf hsfd hc hw => ⟨_, rfl, sfdFound_shows hf hsfd hc hw ..⟩⟩
  · intro lane s f hf
    rw [exec_sfdTimeout_frame hf]
    exact ⟨fun hsfd => by simp [Option.isNone_eq_false_iff.2 hsfd], fun hsfd => by simp [hsfd]⟩
  · intro lane index len fcs2 mcs hcsOk s f hf
    refine ⟨fun hsfd => congrArg Host.Outcome.next (phrDecoded_noSfd hf hsfd ..), ?_⟩
    intro hsfd fcs s1
    have hheader := phrDecoded_header hf hsfd index.toNat len.toNat fcs2 mcs.toNat hcsOk
    exact ⟨fun hgood => congrArg Host.Outcome.next (hheader.trans (if_neg (ne_true_of_eq_false hgood))),
      fun hbad => congrArg Host.Outcome.next (hheader.trans (if_pos hbad))⟩
  · intro lane index fcsOk sat qual s n
    exact ⟨fun h => exec_frameEnd_none h .., fun f hf hfcs => exec_frameEnd_closes hf hfcs ..⟩
  · exact fun lane s f hf => exec_laneTimeout_frame hf
  · intro lane index s f hf
    rw [exec_resyncCollision_frame hf]
    refine ⟨fun hno => congrArg Host.Outcome.next (if_neg ?_),
      fun hsfd hres hstate => congrArg Host.Outcome.next (if_pos ⟨hsfd, hres, hstate⟩)⟩
    rintro ⟨hsfd, hres, -⟩
    rcases hno with hno | hno
    · simp [hno] at hsfd
    · exact Bool.false_ne_true (hno.symm.trans hres)
  · intro lane phy hQ s f hf hsfd hfsk s1
    have hswitch := modeSwitch_releases hf hsfd hfsk phy.toNat hQ.toNat
    exact ⟨fun hoff => congrArg Host.Outcome.next (hswitch.trans (if_pos (by rw [hoff]; rfl))),
      fun hon => congrArg Host.Outcome.next (hswitch.trans (if_neg (by rw [hon]; decide)))⟩
  · exact fun lane s => rfl
  · exact fun n code e q s hn hw hm => laneClose_shows hn hw hm code e q

end Sys2Proof.Machine

namespace Sys2Proof.Tests

open Sys2Proof.Machine

set_option maxRecDepth 100000

/-- `listening` with lane `n` in a frame of SUN FSK that began at sample 100. -/
def receiving (n : Nat) (sfd : Option (Nat × Nat)) (fcsLen : Nat) : State :=
  lanePut n { frame := some { p := 100, phy := 0x10, sfd := sfd, fcsLen := fcsLen } } listening

/-- Lane 2 past its SFD, with RESYNC and MS_EN as given. -/
def inHeader (resync msEn : Nat) : State :=
  fset (laneP 2) Reg.LANE_CTRL.RESYNC resync (fset (laneP 2) Reg.LANE_MODE.MS_EN msEn (receiving 2 (some (160, 0)) 0))

/-- `listening` with lane 2 on one bin and every bin of front end A blanked from sample 5 on. -/
def blanked : State :=
  fset (laneP 2) Reg.LANE_CHAN.N_BINS 1
    (fdxPut .a { blanks := [{ all := true, lo := 0, hi := 0, own := true, first := 5, last := none }] } listening)

/-- An IDLE lane, one that is mid-frame, an index just before the first and one just blanked, and a lane that detects
at its first; no frame, a second SFD, a coded one with FEC and without, and an SFD to be found; the shortest PSDU and
one too short; a frame before its PHR and after it; a stronger frame in Preamble, without RESYNC and with it; a mode
switch without MS_EN and with it; and the last lane mid-frame. -/
theorem test_hyps_framesReceived :
    (laneState 0 listening ≠ 2 ∧ laneMid 2 (receiving 2 none 0) = true ∧
      (4 : BitVec 48).toNat < (laneGet 2 (lanePut 2 { detectsFrom := 5 } listening)).detectsFrom ∧
      laneBlanked 2 5 blanked = true ∧ laneState 2 blanked = 2 ∧ laneMid 2 blanked = false ∧
      (feGet (laneFe 2 blanked) blanked).residence = true ∧ (laneGet 2 blanked).detectsFrom ≤ 0 ∧
      laneBlanked 2 4 blanked = false ∧ Registers.wf blanked = true) ∧
    ((laneGet 2 listening).frame = none ∧ laneFec 2 (receiving 2 none 0) = false ∧
      laneFec 2 (fset (laneP 2) Reg.LANE_ID.FEC 1 (receiving 2 none 0)) = true ∧
      (∀ s ∈ [receiving 2 none 0, fset (laneP 2) Reg.LANE_ID.FEC 1 (receiving 2 none 0)],
        (laneGet 2 s).frame.map (fun f => f.sfd) = some none ∧ Registers.wf s = true) ∧
      (laneGet 2 (inHeader 0 0)).frame.map (fun f => (f.sfd, f.fcsLen)) = some (some (160, 0), 0)) ∧
    (phrBad 0x10 (4 : BitVec 11).toNat 0 4 true = false ∧ phrBad 0x10 (3 : BitVec 11).toNat 0 4 true = true ∧
      (laneGet 2 (receiving 2 (some (160, 0)) 2)).frame.map (fun f => f.fcsLen) = some 2) ∧
    (fis (laneP 2) Reg.LANE_CTRL.RESYNC (inHeader 0 0) = false ∧
      fis (laneP 2) Reg.LANE_CTRL.RESYNC (inHeader 1 0) = true ∧ laneState 2 (inHeader 1 0) = 2) ∧
    (phyFsk 0x10 = true ∧ fis (laneP 2) Reg.LANE_MODE.MS_EN (laneRelease 2 (inHeader 0 0)) = false ∧
      fis (laneP 2) Reg.LANE_MODE.MS_EN (laneRelease 2 (inHeader 0 1)) = true) ∧
    (laneMid 255 (receiving 255 none 0) = true ∧ Registers.wf (receiving 255 none 0) = true) := by
  decide

end Sys2Proof.Tests
end

section
/-!
SUPPORT. The duty accounts by their buckets (R335, R336), the neighbour table's operations by their cases (R332, R342,
R343), and the state on which a last gasp's end loses its result.
-/

namespace Sys2Proof.Machine

open Reg

/-! ### Duty accounts (R335, R336) -/

theorem dutyGet_dutyPut_self {l : List Nat} (h : l ≠ []) (g : Nat) (s : State) : dutyGet g (dutyPut g l s) = l := by
  simp only [dutyGet, dutyPut, linkPut, tset, if_neg h]
  rw [tget_tput, if_pos rfl]

theorem dutyUsed_eq_sum (g : Nat) (s : State) : dutyUsed g s = ((dutyGet g s).take 65).sum :=
  List.sum_eq_foldl.symm

/-- A new bucket is empty, and the oldest of 65 leaves the account. -/
theorem dutyUsed_advance (g : Nat) (s : State) :
    dutyUsed g (dutyPut g (((0 : Nat) :: dutyGet g s).take 65) s) = ((dutyGet g s).take 64).foldl (· + ·) 0 := by
  rw [dutyUsed, List.take_succ_cons, dutyGet_dutyPut_self (List.cons_ne_nil _ _), List.take_succ_cons, List.take_take,
    Nat.min_self, List.foldl_cons]

/-- What is added to the current bucket is used. -/
theorem dutyUsed_dutyAdd (g us : Nat) (s : State) : dutyUsed g (dutyAdd g us s) = dutyUsed g s + us := by
  simp only [dutyUsed_eq_sum, dutyAdd]
  cases h : dutyGet g s with
  | nil => simp [dutyGet_dutyPut_self]
  | cons b r =>
    simp only [dutyGet_dutyPut_self (List.cons_ne_nil _ _), List.take_succ_cons, List.sum_cons]
    omega

theorem dutyOk_limited {g d w : Nat} {s : State} (h : dutyLimit g s = some (d, w)) (a : Nat) (but : Option Nat) :
    dutyOk g a but s = true ↔ dutyUsed g s + dutyHeld g but s + a ≤ d * w * 100 := by
  simp only [dutyOk, h, decide_eq_true_iff]

theorem dutyOk_unlimited {g : Nat} {s : State} (h : dutyLimit g s = none) (a : Nat) (but : Option Nat) :
    dutyOk g a but s = true := by
  simp only [dutyOk, h]

/-! ### NBR_CMD (R342, R343) -/

/-- An NBR_CMD word's fields: OP and INDEX. -/
theorem nbrWord_fields {op : Nat} (hop : op < 2 ^ 4) (index : BitVec 12) :
    bitsOf (nbrWord op index) 28 4 = op ∧ bitsOf (nbrWord op index) 16 12 = index.toNat := by
  have hindex := index.isLt
  simp only [bitsOf, nbrWord, BitVec.toNat_ofNat, Nat.shiftRight_eq_div_pow]
  omega

/-- The link controller holds the index that a write of NBR_CMD names. -/
def nbrNamed (n : Nat) (s : State) : State := linkPut { s.link with nbrIndex := n } s

/-- The operations of NBR_CMD, each on the state with the named index. -/
theorem nbrCmd_operations (index : BitVec 12) (s : State) :
    let t := nbrNamed index.toNat s
    nbrCmd (nbrWord 1 index) s = nbrInsert t ∧ nbrCmd (nbrWord 2 index) s = nbrDelete index.toNat t ∧
      nbrCmd (nbrWord 3 index) s = nbrShow index.toNat t ∧ nbrCmd (nbrWord 4 index) s = nbrLookup t := by
  have hop {op : Nat} (h : op < 2 ^ 4) := (nbrWord_fields h index).1
  have hindex {op : Nat} (h : op < 2 ^ 4) := (nbrWord_fields h index).2
  simp (disch := decide) only [nbrCmd, hop, hindex, nbrNamed, and_self]

/-- The four commands through the door. -/
theorem exec_nbr_admits {i : Init} {s : State} (h : Admits i (linkB + 0x20) .store s) (index : BitVec 12) :
    let t := nbrNamed index.toNat s
    exec (.nbrInsert i index) s = .next (acknowledge (nbrInsert t)) ∧
    exec (.nbrDelete i index) s = .next (acknowledge (nbrDelete index.toNat t)) ∧
    exec (.nbrRead i index) s = .next (acknowledge (nbrShow index.toNat t)) ∧
    exec (.nbrLookup i index) s = .next (acknowledge (nbrLookup t)) := by
  obtain ⟨hinsert, hdelete, hread, hlookup⟩ := nbrCmd_operations index s
  have hdoor {f : State → State} {u : State} (hu : f s = u) :
      Host.Outcome.next (doorStore i (linkB + 0x20) f s) = (.next (acknowledge u) : Host.Outcome State Fault Refusal) :=
    congrArg Host.Outcome.next ((doorStore_admits h).trans (congrArg acknowledge hu))
  exact ⟨hdoor hinsert, hdoor hdelete, hdoor hread, hdoor hlookup⟩

/-! ### The operations by their cases (R332, R343) -/

theorem nbrInsert_noAddress {s : State} (hext : (nbrStaged s).hasExt = false)
    (hshort : (nbrStaged s).hasShort = false) : nbrInsert s = linkErr LINK_ERR.RANGE s := by
  simp [nbrInsert, hext, hshort]

theorem nbrInsert_exists {s : State} {m : Nat} (hext : (nbrStaged s).hasExt = true)
    (hm : nbrByExt (nbrStaged s).ext s = some m) : nbrInsert s = nbrResult 2 (some m) s := by
  simp [nbrInsert, hext, hm]

/-- An entry with a new extended address alone, with a place for it and with none. -/
theorem nbrInsert_placed {s : State} {m : Nat} (hext : (nbrStaged s).hasExt = true)
    (hnew : nbrByExt (nbrStaged s).ext s = none) (hshort : (nbrStaged s).hasShort = false)
    (hm : nbrPlace (nbrStaged s) s = some m) :
    nbrInsert s = nbrResult 0 (some m) (nbrPut m (some (nbrStaged s)) s) := by
  simp [nbrInsert, hext, hnew, hshort, hm]

theorem nbrInsert_noPlace {s : State} (hext : (nbrStaged s).hasExt = true)
    (hnew : nbrByExt (nbrStaged s).ext s = none) (hshort : (nbrStaged s).hasShort = false)
    (hfull : nbrPlace (nbrStaged s) s = none) : nbrInsert s = nbrFull (nbrResult 1 none s) := by
  simp [nbrInsert, hext, hnew, hshort, hfull]

theorem nbrDelete_entry {n : Nat} {s : State} (h : (nbrGet n s).isSome = true) :
    nbrDelete n s = nbrResult 0 (some n) (fset linkB NBR_STAT.FULL 0 (nbrPut n none s)) := if_pos h

theorem nbrDelete_none {n : Nat} {s : State} (h : nbrGet n s = none) : nbrDelete n s = nbrResult 3 none s := by
  simp [nbrDelete, h]

theorem nbrShow_none {n : Nat} {s : State} (h : nbrGet n s = none) : nbrShow n s = nbrResult 3 none s := by
  simp only [nbrShow, h]

/-- LOOKUP with an extended address in NBR_D0 and NBR_D1 goes by it alone. -/
theorem nbrLookup_byExt {s : State} (h : rd64 (linkB + 0x24) s ≠ 0) :
    (∀ m, nbrByExt (rd64 (linkB + 0x24) s).toNat s = some m → nbrLookup s = nbrShow m s) ∧
      (nbrByExt (rd64 (linkB + 0x24) s).toNat s = none → nbrLookup s = nbrResult 3 none s) := by
  have hext : (rd64 (linkB + 0x24) s).toNat ≠ 0 := fun h0 => h (BitVec.eq_of_toNat_eq h0)
  exact ⟨fun m hm => by simp only [nbrLookup, if_pos hext, hm],
    fun hnone => by simp only [nbrLookup, if_pos hext, hnone]⟩

/-- A result with the index found, read back; it stands in NBR_STAT alone. -/
theorem nbrResult_found {s : State} (h : Registers.wf s = true) {res n : Nat} (hres : res < 2 ^ 3) (hn : n < 2 ^ 12) :
    fget linkB NBR_STAT.RESULT (nbrResult res (some n) s) = res ∧
      fget linkB NBR_STAT.FOUND (nbrResult res (some n) s) = n ∧
      ∀ a, a ≠ linkB + 0x30 → rd a (nbrResult res (some n) s) = rd a s := by
  have hshown := Registers.wf_fset h linkB NBR_STAT.RESULT res
  refine ⟨?_, ?_, fun a ha => ?_⟩
  · rw [nbrResult, fget_fset_apart hshown (by decide), fget_fset_self h _ _ _ (by decide)]
    exact Nat.mod_eq_of_lt hres
  · rw [nbrResult, fget_fset_self hshown _ _ _ (by decide)]
    exact Nat.mod_eq_of_lt hn
  · rw [nbrResult, rd_fset_ne hshown _ _ ha, rd_fset_ne h _ _ ha]

/-- READ of an entry with an extended address shows it in NBR_D0 and NBR_D1. -/
theorem nbrShow_byExt {n : Nat} {s : State} {x : Neighbour} (hw : Registers.wf s = true) (hn : n < 2 ^ 12)
    (hx : nbrGet n s = some x) (hlt : x.ext < 2 ^ 64) (hext : x.hasExt = true) :
    (rd64 (linkB + 0x24) (nbrShow n s)).toNat = x.ext ∧ fget linkB NBR_STAT.RESULT (nbrShow n s) = 0 ∧
      fget linkB NBR_STAT.FOUND (nbrShow n s) = n := by
  have hw1 : Registers.wf (wr64 (linkB + 0x24) (BitVec.ofNat 64 x.ext) s) = true :=
    Registers.wf_wr (Registers.wf_wr hw _ _) _ _
  have hw2 := Registers.wf_fset hw1 linkB NBR_D2.PAN_ID (if x.hasShort then x.pan else 0)
  have hw3 := Registers.wf_fset hw2 linkB NBR_D2.SHORT (if x.hasShort then x.short else 0)
  obtain ⟨hres, hfound, hrest⟩ := nbrResult_found hw3 (res := 0) (by decide) hn
  simp only [nbrShow, hx, hext, if_true]
  have hkept {a : Nat} (h2C : a ≠ linkB + 0x2C) (h30 : a ≠ linkB + 0x30) :=
    (hrest a h30).trans ((rd_fset_ne hw2 NBR_D2.SHORT _ h2C).trans (rd_fset_ne hw1 NBR_D2.PAN_ID _ h2C))
  refine ⟨?_, hres, hfound⟩
  rw [rd64, hkept (by decide) (by decide), hkept (by decide) (by decide), ← rd64, rd64_wr64_self hw,
    BitVec.toNat_ofNat, Nat.mod_eq_of_lt hlt]

/-- Settles O25: the accounts by their sums (R335, R336), and each operation of NBR_CMD through the door by its cases
(R332, R342, R343). -/
theorem dutyAndNeighbours : Obligations.DutyAndNeighbours := by
  refine ⟨⟨fun group s => rfl, dutyUsed_advance, dutyUsed_dutyAdd, fun g a d w but s h => dutyOk_limited h a but,
    fun g a but s h => dutyOk_unlimited h a but⟩, ?_⟩
  intro i index s h n s1 e
  obtain ⟨hinsert, hdelete, hread, hlookup⟩ := exec_nbr_admits h index
  rw [hinsert, hdelete, hread, hlookup]
  refine ⟨fun hext hshort => ?_, fun m hext hm => ?_, fun hext hnew hshort => ?_, fun hn => ?_, fun hn => ?_,
    fun x hx hw hlt hext => ⟨_, rfl, nbrShow_byExt hw index.isLt hx hlt hext⟩, fun hne => ?_⟩
  · exact congrArg _ (congrArg _ (nbrInsert_noAddress hext hshort))
  · exact congrArg _ (congrArg _ (nbrInsert_exists hext hm))
  · exact ⟨fun m hm => congrArg _ (congrArg _ (nbrInsert_placed hext hnew hshort hm)),
      fun hfull => congrArg _ (congrArg _ (nbrInsert_noPlace hext hnew hshort hfull))⟩
  · exact congrArg _ (congrArg _ (nbrDelete_entry hn))
  · exact ⟨congrArg _ (congrArg _ (nbrDelete_none hn)), congrArg _ (congrArg _ (nbrShow_none hn))⟩
  · obtain ⟨hfound, habsent⟩ := nbrLookup_byExt (s := nbrNamed index.toNat s) hne
    cases hm : nbrByExt (rd64 (linkB + 0x24) s).toNat s with
    | some m => exact congrArg _ (congrArg _ (hfound m hm))
    | none => exact congrArg _ (congrArg _ (habsent hm))

/-! ### A last gasp's end with a domain past PWR_DOM0–2 (R600, R620) -/

/-- The number whose bit, counted on from PWR_DOM0, is the lowest of LG_STAT.RESULT. -/
def lgResultDomain : Nat := 32 * ((pmbB + LG_STAT.RESULT.off - 0x400F0028) / 4) + LG_STAT.RESULT.lo

/-- Turning "domain" `lgResultDomain` on or off writes the lowest bit of LG_STAT.RESULT. -/
theorem pdSet_lgResultDomain (on : Bool) (s : State) :
    pdSet lgResultDomain on s = fset pmbB ⟨LG_STAT.RESULT.off, LG_STAT.RESULT.lo, 1⟩ (ofBool on) s := rfl

/-- A last gasp that holds `lgResultDomain` for a domain it powered. -/
def strayRun : GaspRun := { fromHall := true, ownBlock := true, feWas := 0, powered := [lgResultDomain] }

/-- The reset state with the hall off and `strayRun` in progress. -/
def strayGasp : State :=
  { State.reset with
    sup := { State.reset.sup with gasp := some strayRun }
    pow := { State.reset.pow with hall := .off } }

/-- Its end turns off what it powered after it has written LG_STAT.RESULT and put front end A to sleep (R620). -/
theorem gaspEnd_strayGasp (res : Nat) : gaspEnd res strayGasp = supNote 7 (pdSet lgResultDomain false (feSleepNow .a
    (gaspSeq 0 (fset pmbB LG_STAT.RESULT res (supPut { strayGasp.sup with gasp := none } strayGasp))))) := rfl

set_option maxRecDepth 100000 in
/-- Of result 1 nothing is left. -/
theorem result_gaspEnd_strayGasp : fget pmbB LG_STAT.RESULT (gaspEnd 1 strayGasp) = 0 := by
  rw [gaspEnd_strayGasp, pdSet_lgResultDomain]
  decide

/-- Refutes O54: its last clause claims LG_STAT.RESULT of an end for every run, and the domains a run holds as powered
are any numbers. With the hall off `gaspEnd` turns each off after it has written the result, and the bit of a number far
past the last domain is a bit of the result itself: `strayGasp` ends with result 1 and reads 0. (A run that `gaspBegin`
began holds domains of `gaspDomains` alone.) -/
theorem not_lastGasp : ¬ Obligations.LastGasp := by
  rintro ⟨-, -, -, -, -, hend⟩
  obtain ⟨-, hresult, -⟩ := hend 1 strayRun strayGasp rfl (by decide) (by decide)
  exact absurd (result_gaspEnd_strayGasp.symm.trans hresult) (by decide)

end Sys2Proof.Machine

namespace Sys2Proof.Tests

open Sys2Proof.Machine

set_option maxRecDepth 100000

/-- The link controller, open to the Steward, with NBR_D0 and the staged flags as given. -/
def staging (ext flags : Nat) : State :=
  wr (linkB + 0x100) (BitVec.ofNat 32 flags) (wr (linkB + 0x24) (BitVec.ofNat 32 ext) roomZeroOpen)

/-- The neighbour with extended address `ext`. -/
def extNeighbour (ext : Nat) : Neighbour := { ext := ext, pan := 0, short := 0, flags := 2 ^ 8, rxFc := 0, fcSlot := 0 }

/-- A programmed table whose one entry allows group 0 a duty of 10 in a window of 36, locked and not. -/
def dutyLimited (st : Nat) : State :=
  fset (feB .a) Reg.LIC_STAT.STATE st
    { roomZeroOpen with lic := { stage := [], otp := [(5, 1), (licEntry 0 + 0xA, 10), (licEntry 0 + 0xC, 36)] } }

/-- The four places of the bucket of address 5, taken. -/
def bucketTaken (s : State) : State :=
  (List.range 4).foldl (fun t w => nbrPut (4 * nbrExtBucket 5 + w) (some (extNeighbour (100 + w))) t) s

/-- A group with a limit and one without; an admitted write of NBR_CMD; no address staged, an address that is there, a
new one with a place for it and with none; an entry that is there and one that is not; and an address to look up. -/
theorem test_hyps_dutyAndNeighbours :
    (dutyLimit 0 (dutyLimited 2) = some (10, 36) ∧ dutyLimit 0 (dutyLimited 0) = none) ∧
    (∀ s ∈ [staging 5 0, staging 5 256, nbrPut 7 (some (extNeighbour 5)) (staging 5 256),
        bucketTaken (staging 5 256)],
      Admits .steward (linkB + 0x20) .store s ∧ Registers.wf s = true) ∧
    ((nbrStaged (staging 5 0)).hasExt = false ∧ (nbrStaged (staging 5 0)).hasShort = false) ∧
    ((nbrStaged (staging 5 256)).hasExt = true ∧ (nbrStaged (staging 5 256)).hasShort = false ∧
      nbrByExt 5 (nbrPut 7 (some (extNeighbour 5)) (staging 5 256)) = some 7 ∧
      nbrByExt 5 (staging 5 256) = none ∧ nbrPlace (extNeighbour 5) (staging 5 256) = some (4 * nbrExtBucket 5) ∧
      nbrByExt 5 (bucketTaken (staging 5 256)) = none ∧
      nbrPlace (extNeighbour 5) (bucketTaken (staging 5 256)) = none) ∧
    (nbrGet (7 : BitVec 12).toNat (nbrPut 7 (some (extNeighbour 5)) (staging 5 256)) = some (extNeighbour 5) ∧
      (extNeighbour 5).hasExt = true ∧ nbrGet (7 : BitVec 12).toNat (staging 5 256) = none) ∧
    rd64 (linkB + 0x24) (staging 5 0) ≠ 0 := by decide

end Sys2Proof.Tests
end

section
/-!
SUPPORT. The frame queues (R346–R364): a queue's page beside its ring and what it holds, one equation per case of each
operation, and what a pop, a push, a commit and a command show.
-/

namespace Sys2Proof.Machine

open Reg

/-! ### What a queue holds, its page and its ring -/

/-- What a queue holds stands beside the registers. -/
@[simp] theorem fget_quePut (q : Nat) (v : QueueState) (s : State) (b : Nat) (f : Fld) :
    fget b f (quePut q v s) = fget b f s := rfl

@[simp] theorem Registers.wf_quePut (q : Nat) (v : QueueState) (s : State) :
    Registers.wf (quePut q v s) = Registers.wf s := rfl

/-- What a queue holds, read back: a value other than an empty queue's is listed. -/
theorem queGet_quePut_self {v : QueueState} (hv : v ≠ {}) (q : Nat) (s : State) : queGet q (quePut q v s) = v := by
  simp only [queGet, quePut, tset, if_neg hv]
  rw [tget_tput, if_pos rfl]

@[simp] theorem queGet_fset (q b : Nat) (f : Fld) (v : Nat) (s : State) : queGet q (fset b f v s) = queGet q s := rfl

/-- Another field of a queue's page after a counter of the page. -/
theorem fget_fcount_of_apart {s : State} (h : Registers.wf s = true) (b : Nat) {f g : Fld} (hg : g.Apart f) :
    fget b g (fcount b f s) = fget b g s := fget_fset_of_apart h b _ hg

/-- A pointer moved on fits in PTR while LOG2 is within its range (R345, R346). -/
theorem queMod_lt {q : Nat} {s : State} (h : queLog2 q s ≤ 16) (p : Nat) : queMod q p s < 2 ^ 17 := by
  have hsize : queSize q s ≤ 2 ^ 16 := Nat.pow_le_pow_right (by decide) h
  have hpos : 0 < queSize q s := Nat.two_pow_pos _
  exact (Nat.mod_lt p (by omega)).trans_le (by omega)

theorem fget_of_regs {s t : State} (h : t.regs = s.regs) (b : Nat) (f : Fld) : fget b f t = fget b f s := by
  simp only [fget, rd, h]

theorem Registers.wf_of_regs {s t : State} (h : t.regs = s.regs) : Registers.wf t = Registers.wf s := by
  simp only [Registers.wf, h]

/-! ### Words stored in a ring -/

theorem memWrite_regs_queues (a : Nat) (l : List Byte) (s : State) :
    (memWrite a l s).regs = s.regs ∧ (memWrite a l s).queues = s.queues := by
  induction l generalizing a s with
  | nil => exact ⟨rfl, rfl⟩
  | cons b r ih => exact ih (a + 1) (memPut a b s)

/-- Words stored in a ring leave the registers and what the queues hold. -/
theorem queStore_regs_queues (q p : Nat) (l : List Word64) (s : State) :
    (queStore q p l s).regs = s.regs ∧ (queStore q p l s).queues = s.queues := by
  induction l generalizing p s with
  | nil => exact ⟨rfl, rfl⟩
  | cons w r ih =>
    obtain ⟨hregs, hqueues⟩ := ih (p + 1) (memWrite (queAddr q p s) (leBytes 8 w.toNat) s)
    obtain ⟨hregs', hqueues'⟩ := memWrite_regs_queues (queAddr q p s) (leBytes 8 w.toNat) s
    exact ⟨hregs.trans hregs', hqueues.trans hqueues'⟩

/-! ### Pops (R354, R361) -/

theorem exec_queuePop_admitted {i : Init} {q : Fin 320} {s : State} (h : issues i s = true)
    (hd : doorCheck i (quePage q.val) 8 .load s = none) (ecc : EccSeen) :
    exec (.queuePop i q ecc) s = .next (respond (quePop q.val ecc s).1 (quePop q.val ecc s).2) :=
  congrArg Host.Outcome.next (doorAccess_admitted h hd)

theorem quePop_transmit {q : Nat} (hq : 256 ≤ q) (ecc : EccSeen) (s : State) :
    quePop q ecc s = (0, fset (quePage q) QUE_ERR.DIR 1 s) := if_pos hq

theorem quePop_empty {q : Nat} {s : State} (hq : q < 256) (he : queW q s = queR q s) (ecc : EccSeen) :
    quePop q ecc s = queEmptyRead q s := by
  rw [quePop, if_neg (Nat.not_le.2 hq), if_pos he]

/-- A pop of a word that reads clean. -/
theorem quePop_word {q : Nat} {s : State} (hq : q < 256) (hne : queW q s ≠ queR q s) :
    quePop q .clean s = (queWord q (queR q s) s,
      quePopped q (fset (quePage q) QUE_RPTR.PTR (queMod q (queR q s + 1) s) s)) := by
  rw [quePop, if_neg (Nat.not_le.2 hq), if_neg hne]
  rfl

/-- A packet that is done with is told in PKTS alone. -/
theorem fget_quePopped {s : State} (h : Registers.wf s = true) (q : Nat) {f : Fld} (hf : f.Apart QUE_STAT.PKTS) :
    fget (quePage q) f (quePopped q s) = fget (quePage q) f s := by
  rw [quePopped]
  cases (queGet q s).packets with
  | nil => rfl
  | cons p r =>
    dsimp only
    split
    · exact fget_fset_of_apart h _ _ hf
    · rfl

/-- After a pop of a word RPTR names the next; WPTR and the memories are as they were. -/
theorem quePop_word_shows {q : Nat} {s : State} (h : Registers.wf s = true) (hq : q < 256)
    (hne : queW q s ≠ queR q s) (hlog : queLog2 q s ≤ 16) :
    queR q (quePop q .clean s).2 = (queR q s + 1) % (2 * 2 ^ queLog2 q s) ∧
      queW q (quePop q .clean s).2 = queW q s ∧ (quePop q .clean s).2.mem = s.mem := by
  refine ⟨?_, ?_, ((quePop_keeps (β := true) .rfl q .clean).memSame rfl).1⟩ <;> rw [quePop_word hq hne]
  · exact (fget_quePopped (Registers.wf_fset h _ _ _) q (by decide)).trans
      (fget_fset_lt h _ (queMod_lt hlog _) (by decide))
  · exact (fget_quePopped (Registers.wf_fset h _ _ _) q (by decide)).trans (fget_fset_of_apart h _ _ (by decide))

theorem queEmptyRead_flushed {q : Nat} {s : State} (h : (queGet q s).flushed = true) :
    queEmptyRead q s = (BitVec.ofNat 64 (2 ^ 49),
      quePut q { queGet q s with flushed := false, dropped := false } s) := if_pos h

theorem queEmptyRead_dropped {q : Nat} {s : State} (hf : (queGet q s).flushed = false)
    (hd : (queGet q s).dropped = true) :
    queEmptyRead q s = (BitVec.ofNat 64 (2 ^ 48), quePut q { queGet q s with dropped := false } s) := by
  simp only [queEmptyRead, hf, hd, if_true, Bool.false_eq_true, if_false]

theorem queEmptyRead_empty {q : Nat} {s : State} (hf : (queGet q s).flushed = false)
    (hd : (queGet q s).dropped = false) : queEmptyRead q s = (0, s) := by
  simp only [queEmptyRead, hf, hd, Bool.false_eq_true, if_false]

/-- An empty read, whatever it tells, leaves the registers. -/
theorem queEmptyRead_regs (q : Nat) (s : State) : (queEmptyRead q s).2.regs = s.regs := by
  cases hf : (queGet q s).flushed with
  | true => rw [queEmptyRead_flushed hf]; rfl
  | false =>
    cases hd : (queGet q s).dropped with
    | true => rw [queEmptyRead_dropped hf hd]; rfl
    | false => rw [queEmptyRead_empty hf hd]

/-! ### Pushes (R357, R361) -/

theorem exec_queuePush_admitted {i : Init} {q : Fin 320} {s : State} (h : issues i s = true)
    (hd : doorCheck i (quePage q.val) 8 .store s = none) (data : Word64) :
    exec (.queuePush i q data) s = .next (acknowledge (quePush q.val data s)) :=
  congrArg Host.Outcome.next (doorAccess_admitted h hd)

theorem quePush_receive {q : Nat} (hq : q < 256) (w : Word64) (s : State) :
    quePush q w s = fset (quePage q) QUE_ERR.DIR 1 s := if_pos hq

theorem quePush_orphan {q : Nat} {w : Word64} {s : State} (hq : 256 ≤ q) (hsop : w.getLsbD 62 = false)
    (ho : (queGet q s).opened = none) : quePush q w s = fset (quePage q) QUE_ERR.ORPHAN 1 s := by
  rw [quePush, if_neg (Nat.not_lt.2 hq), hsop, ho]

theorem quePush_first {q : Nat} {w : Word64} {s : State} (hq : 256 ≤ q) (hsop : w.getLsbD 62 = true)
    (ho : (queGet q s).opened = none) : quePush q w s = quePushInto q w ⟨0, 0, false⟩ s := by
  rw [quePush, if_neg (Nat.not_lt.2 hq), hsop, ho]

theorem quePush_next {q : Nat} {w : Word64} {s : State} {o : QOpen} (hq : 256 ≤ q) (hsop : w.getLsbD 62 = false)
    (ho : (queGet q s).opened = some o) : quePush q w s = quePushInto q w o s := by
  rw [quePush, if_neg (Nat.not_lt.2 hq), hsop, ho]

/-- A data word after the EOP word, or a trailer before it, withdraws the packet. -/
theorem quePushInto_format {w : Word64} {o : QOpen} (h : w.getLsbD 58 ≠ o.eop) (q : Nat) (s : State) :
    quePushInto q w o s = queWithdraw q QUE_ERR.FORMAT QUE_DROPS.DISCARD s := if_pos (.inl h)

/-- A word has at most four octets (R347). -/
theorem qwordBc_le (w : Word64) : qwordBc w ≤ 4 := by
  rw [qwordBc]
  split <;> omega

/-- The first data word of a packet, with room for it, is stored at WPTR and opens the packet. -/
theorem quePushInto_opens {q : Nat} {w : Word64} {s : State} (htrl : w.getLsbD 58 = false) (hfree : queFree q s ≠ 0) :
    ∃ (l : List Word64) (o : QOpen), o.words = 1 ∧ quePushInto q w ⟨0, 0, false⟩ s =
      fset (quePage q) QUE_STAT.OPEN 1 (quePut q { queGet q s with opened := some o } (queStore q (queW q s) l s)) := by
  have hbc := qwordBc_le w
  have hlen : ¬ 2047 < 0 + qwordBc w := by omega
  have hkept (l : List Word64) : queGet q (queStore q (queW q s) l s) = queGet q s := by
    rw [queGet, (queStore_regs_queues q _ l s).2, queGet]
  refine ⟨[qword (qwordData w) (qwordBc w) (w.getLsbD 62) (w.getLsbD 61) 0
    (if w.getLsbD 61 then qwordCrc w else 0)], ⟨1, 0 + qwordBc w, w.getLsbD 61 && true⟩, rfl, ?_⟩
  simp only [quePushInto, htrl, ne_eq, not_true_eq_false, false_or, Bool.false_eq_true, if_false, hlen, hfree,
    Nat.add_zero, hkept]
  rfl

/-- The packet just opened holds one word and is not committed: the pointers and the packets are as they were. -/
theorem quePush_first_shows {q : Nat} {w : Word64} {s : State} (h : Registers.wf s = true) (hq : 256 ≤ q)
    (hsop : w.getLsbD 62 = true) (htrl : w.getLsbD 58 = false) (ho : (queGet q s).opened = none)
    (hfree : queFree q s ≠ 0) :
    let t := quePush q w s
    ((queGet q t).opened.map fun o => o.words) = some 1 ∧ queW q t = queW q s ∧ queR q t = queR q s ∧
      fis (quePage q) QUE_STAT.OPEN t = true ∧ (queGet q t).packets = (queGet q s).packets := by
  intro t
  obtain ⟨l, o, hwords, hopens⟩ := quePushInto_opens (w := w) htrl hfree
  obtain ⟨hregs, -⟩ := queStore_regs_queues q (queW q s) l s
  have hw : Registers.wf (quePut q { queGet q s with opened := some o } (queStore q (queW q s) l s)) = true := by
    rw [Registers.wf_quePut, Registers.wf_of_regs hregs, h]
  have hholds : queGet q t = { queGet q s with opened := some o } := by
    rw [show t = _ from (quePush_first hq hsop ho).trans hopens, queGet_fset]
    exact queGet_quePut_self (fun hv => Option.some_ne_none o (congrArg QueueState.opened hv)) q _
  rw [hholds, show t = _ from (quePush_first hq hsop ho).trans hopens]
  have hpage {f : Fld} (hf : f.Apart QUE_STAT.OPEN) := (fget_fset_of_apart hw (quePage q) 1 hf).trans
    ((fget_quePut q _ _ _ f).trans (fget_of_regs hregs (quePage q) f))
  exact ⟨congrArg some hwords, hpage (by decide), hpage (by decide), fis_fset_one hw _ (by decide), rfl⟩

/-- Settles O26: a pop by what it finds (R354, R361), an empty read by what it tells, and a push by its word and the
packet it finds open (R357, R361). -/
theorem queuePopsAndPushes : Obligations.QueuePopsAndPushes := by
  refine ⟨⟨fun i q ecc s h hd => ?_, fun q s => ⟨fun hf => ?_, fun hf hp => ?_, queEmptyRead_empty,
    queEmptyRead_regs q s⟩⟩, fun i q data s h hd => ?_⟩
  · simp only [exec_queuePop_admitted h hd]
    refine ⟨fun hq => ?_, fun hq he => ?_, fun hq hne hw _ hlog => ⟨_, rfl, ?_, quePop_word_shows hw hq hne hlog⟩⟩
    · rw [quePop_transmit hq]
    · rw [quePop_empty hq he]
    · rw [quePop_word hq hne]
      rfl
  · rw [queEmptyRead_flushed hf]
  · rw [queEmptyRead_dropped hf hp]
  · rw [exec_queuePush_admitted h hd]
    refine ⟨fun hq => ?_, fun hq hsop ho => ?_,
      fun hq hsop htrl ho hfree hw => ⟨_, rfl, quePush_first_shows hw hq hsop htrl ho hfree⟩,
      fun hq o ho hsop htrl => ?_⟩
    · rw [quePush_receive hq]
    · rw [quePush_orphan hq hsop ho]
    · rw [quePush_next hq hsop ho, quePushInto_format htrl]

/-! ### Receive commits (R352, R353) -/

theorem chunk4_length : ∀ l : List Byte, (chunk4 l).length = (l.length + 3) / 4
  | _ :: _ :: _ :: _ :: r => by
    simp only [chunk4, List.length_cons, chunk4_length r]
    omega
  | [] | [_] | [_, _] | [_, _, _] => by simp [chunk4]

/-- A packet's words: four octets each, the record's words and the trailer. -/
theorem rxWords_length (psdu : List Byte) (record : List Word) (epoch : Nat) :
    (rxWords psdu record epoch).length = (psdu.length + 3) / 4 + record.length + 1 := by
  simp only [rxWords, List.length_append, List.length_map, List.length_zipIdx, List.length_cons, List.length_nil,
    chunk4_length]

@[simp] theorem fget_queNotice (q : Nat) (s : State) (b : Nat) (f : Fld) :
    fget b f (queNotice q s) = fget b f s := by
  rw [queNotice]
  split
  · exact fget_raiseEvt _ s b f
  · rfl

/-- A packet that does not fit is dropped whole. -/
theorem queCommitRx_dropped {q : Nat} {s : State} (hc : queueCarved q s = true) {psdu : List Byte} {record : List Word}
    {epoch : Nat} (h : queFree q s < (rxWords psdu record epoch).length) :
    queCommitRx q psdu record epoch s = quePut q { queGet q s with dropped := true }
      (fset (quePage q) QUE_ERR.NOCREDIT 1 (fcount (quePage q) QUE_DROPS.NOCREDIT s)) := by
  simp only [queCommitRx, hc, Bool.not_true, Bool.false_eq_true, if_false, if_pos h]

/-- A packet that fits: beside its words and what the queue holds, WPTR and PKTS change, and the notice is raised. -/
theorem queCommitRx_fits {q : Nat} {s : State} (hw : Registers.wf s = true) (hc : queueCarved q s = true)
    {psdu : List Byte} {record : List Word} {epoch : Nat} (h : (rxWords psdu record epoch).length ≤ queFree q s) :
    ∃ u : State, u.regs = s.regs ∧ queCommitRx q psdu record epoch s = queNotice q
      (fset (quePage q) QUE_STAT.PKTS (fget (quePage q) QUE_STAT.PKTS s + 1)
        (fset (quePage q) QUE_WPTR.PTR (queMod q (queW q s + (rxWords psdu record epoch).length) s) u)) := by
  obtain ⟨hregs, -⟩ := queStore_regs_queues q (queW q s) (rxWords psdu record epoch) s
  simp only [queCommitRx, hc, Bool.not_true, Bool.false_eq_true, if_false, if_neg (Nat.not_lt.2 h)]
  generalize queStore q (queW q s) (rxWords psdu record epoch) s = stored at hregs
  have hmod (p : Nat) (v : QueueState) : queMod q p (quePut q v stored) = queMod q p s := by
    simp only [queMod, queSize, queLog2, fget_quePut, fget_of_regs hregs]
  refine ⟨quePut q { queGet q stored with packets := (queGet q stored).packets ++
    [⟨queW q s, (rxWords psdu record epoch).length, psdu.length, 0, false, false⟩] } stored, hregs, ?_⟩
  rw [fget_fset_of_apart (by rw [Registers.wf_quePut, Registers.wf_of_regs hregs, hw]) _ _ (by decide), fget_quePut,
    fget_of_regs hregs, hmod]

/-- What a packet that fits shows of its queue. -/
theorem queCommitRx_fits_shows {q : Nat} {s : State} (hw : Registers.wf s = true) (hc : queueCarved q s = true)
    {psdu : List Byte} {record : List Word} {epoch : Nat} (h : (rxWords psdu record epoch).length ≤ queFree q s)
    (hlog : queLog2 q s ≤ 16) :
    let t := queCommitRx q psdu record epoch s
    queW q t = (queW q s + (rxWords psdu record epoch).length) % (2 * 2 ^ queLog2 q s) ∧ queR q t = queR q s ∧
      fget (quePage q) QUE_STAT.PKTS t = (fget (quePage q) QUE_STAT.PKTS s + 1) % 2 ^ 16 := by
  obtain ⟨u, hregs, hcommit⟩ := queCommitRx_fits hw hc h
  have hu : Registers.wf u = true := (Registers.wf_of_regs hregs).trans hw
  have hmoved {v : Nat} : Registers.wf (fset (quePage q) QUE_WPTR.PTR v u) = true := Registers.wf_fset hu _ _ _
  simp only [hcommit, queW, queR, fget_queNotice]
  refine ⟨?_, ?_, fget_fset_self hmoved _ _ _ (by decide)⟩
  · rw [fget_fset_of_apart hmoved _ _ (by decide)]
    exact fget_fset_lt hu _ (queMod_lt hlog _) (by decide)
  · rw [fget_fset_of_apart hmoved _ _ (by decide), fget_fset_of_apart hu _ _ (by decide), fget_of_regs hregs]

/-! ### QUE_CMD and QC_FLUSH (R356, R359, R364) -/

theorem exec_queueDrop_admits {i : Init} {q : Fin 320} {s : State} (h : Admits i (quePage q.val + 0x20) .store s)
    (key : BitVec 16) :
    exec (.queueDrop i q key) s = .next (acknowledge (queCmd q.val key.toNat false true s)) :=
  congrArg Host.Outcome.next (doorStore_admits h)

theorem exec_queueFlush_admits {i : Init} {q : Fin 320} {s : State} (h : Admits i (quePage q.val + 0x20) .store s)
    (key : BitVec 16) :
    exec (.queueFlush i q key) s = .next (acknowledge (queCmd q.val key.toNat true false s)) :=
  congrArg Host.Outcome.next (doorStore_admits h)

theorem exec_qcFlush_admits {i : Init} {s : State} (h : Admits i 0x40040008 .store s) (key : BitVec 16)
    (q : BitVec 9) : exec (.qcFlush i key q) s = .next (acknowledge (qcFlush key.toNat q.toNat s)) :=
  congrArg Host.Outcome.next (doorStore_admits h)

theorem queCmd_otherKey {key : BitVec 16} (h : key ≠ 0x5143) (q : Nat) (flush drop : Bool) (s : State) :
    queCmd q key.toNat flush drop s = fset (quePage q) QUE_ERR.CMD 1 s :=
  if_pos (.inl fun hk => h (BitVec.eq_of_toNat_eq hk))

theorem queCmd_dropTransmit {q : Nat} (hq : 256 ≤ q) (key : Nat) (flush : Bool) (s : State) :
    queCmd q key flush true s = fset (quePage q) QUE_ERR.CMD 1 s := if_pos (.inr (.inr ⟨rfl, hq⟩))

theorem queCmd_dropReceive {q : Nat} (hq : q < 256) (s : State) : queCmd q 0x5143 false true s = queDropRx q s := by
  simp [queCmd, hq]

theorem queCmd_flush (q : Nat) (s : State) : queCmd q 0x5143 true false s = queFlush q s := by
  simp [queCmd]

theorem queDropRx_none {q : Nat} {s : State} (h : (queGet q s).packets = []) : queDropRx q s = s := by
  rw [queDropRx, h]

/-- DROP moves RPTR past the packet at or under it and counts it. -/
theorem queDropRx_shows {q : Nat} {s : State} {p : QPacket} {r : List QPacket} (hp : (queGet q s).packets = p :: r)
    (h : Registers.wf s = true) (hlog : queLog2 q s ≤ 16) :
    queR q (queDropRx q s) = (p.start + p.words) % (2 * 2 ^ queLog2 q s) ∧
      fget (quePage q) QUE_DROPS.DISCARD (queDropRx q s) =
        min 65535 (fget (quePage q) QUE_DROPS.DISCARD s + 1) := by
  simp only [queDropRx, hp]
  generalize hu : quePut q { queGet q s with packets := r } s = u
  have hw : Registers.wf u = true := by rw [← hu, Registers.wf_quePut, h]
  have hmoved {v : Nat} : Registers.wf (fset (quePage q) QUE_RPTR.PTR v u) = true := Registers.wf_fset hw _ _ _
  have hcounted {v w : Nat} :
      Registers.wf (fset (quePage q) QUE_STAT.PKTS w (fset (quePage q) QUE_RPTR.PTR v u)) = true :=
    Registers.wf_fset hmoved _ _ _
  constructor
  · rw [queR, fget_fcount_of_apart hcounted _ (by decide), fget_fset_of_apart hmoved _ _ (by decide)]
    exact fget_fset_lt hw _ (queMod_lt hlog _) (by decide)
  · rw [fget_fcount hcounted _ (by decide), fget_fset_of_apart hmoved _ _ (by decide),
      fget_fset_of_apart hw _ _ (by decide), ← hu, fget_quePut]
    rfl

/-- A flush of a receive queue leaves it with no word and no packet, and marked. -/
theorem queFlush_receive_shows {q : Nat} {s : State} (hq : q < 256) (h : Registers.wf s = true) :
    queR q (queFlush q s) = queW q s ∧ queW q (queFlush q s) = queW q s ∧
      fget (quePage q) QUE_STAT.PKTS (queFlush q s) = 0 ∧ (queGet q (queFlush q s)).flushed = true := by
  have hflush : queFlush q s = fset (quePage q) QUE_STAT.PKTS 0 (fset (quePage q) QUE_RPTR.PTR (queW q s)
      (quePut q { queGet q s with packets := [], flushed := true } s)) := if_pos hq
  have hheld : Registers.wf (quePut q { queGet q s with packets := [], flushed := true } s) = true := h
  have hmoved := Registers.wf_fset hheld (quePage q) QUE_RPTR.PTR (queW q s)
  rw [hflush]
  refine ⟨?_, ?_, fget_fset_self hmoved _ _ _ (by decide), ?_⟩
  · rw [queR, fget_fset_of_apart hmoved _ _ (by decide)]
    exact fget_fset_lt hheld _ (bitsOf_lt _ _ _) (by decide)
  · rw [queW, fget_fset_of_apart hmoved _ _ (by decide), fget_fset_of_apart hheld _ _ (by decide), fget_quePut]
    rfl
  · rw [queGet_fset, queGet_fset,
      queGet_quePut_self fun hv => Bool.false_ne_true (congrArg QueueState.flushed hv).symm]

/-- QC_FLUSH with another key, of no queue, or of a queue without a ring. -/
theorem qcFlush_nothing {key : BitVec 16} {q : Nat} {s : State}
    (h : key ≠ 0x5146 ∨ 320 ≤ q ∨ queueCarved q s = false) : qcFlush key.toNat q s = s := by
  refine if_neg fun ⟨hkey, hq, hc⟩ => ?_
  obtain hne | hge | hnone := h
  · exact hne (BitVec.eq_of_toNat_eq hkey)
  · exact absurd hq (Nat.not_lt.2 hge)
  · exact Bool.false_ne_true (hnone.symm.trans hc)

theorem qcFlush_flushes {q : Nat} {s : State} (hq : q < 320) (hc : queueCarved q s = true) :
    qcFlush 0x5146 q s = queFlush q s := if_pos ⟨rfl, hq, hc⟩

/-- Settles O27: a commit by whether the packet fits (R352, R353), QUE_CMD by its key and queue (R356, R359), and
QC_FLUSH by whether it names a queue with a ring (R364). -/
theorem queueCommitsAndCommands : Obligations.QueueCommitsAndCommands := by
  refine ⟨⟨fun psdu record epoch hrec => ?_, fun q psdu record epoch s _ hw hc =>
    ⟨queCommitRx_dropped hc, queCommitRx_fits_shows hw hc⟩⟩, fun i q key s h => ?_, fun i key q s h => ?_⟩
  · rw [rxWords_length, hrec]
  · rw [exec_queueDrop_admits h, exec_queueFlush_admits h]
    refine ⟨fun hne => ?_, fun _ hq => ?_, fun hkey hq hp => ?_, fun hkey hq p r hp hw hlog => ⟨_, rfl, ?_⟩,
      fun hkey hq hw => ⟨_, rfl, ?_⟩⟩
    · rw [queCmd_otherKey hne, queCmd_otherKey hne]
      exact ⟨rfl, rfl⟩
    · rw [queCmd_dropTransmit hq]
    · subst hkey
      exact congrArg _ (congrArg _ ((queCmd_dropReceive hq s).trans (queDropRx_none hp)))
    · subst hkey
      exact queCmd_dropReceive hq s ▸ queDropRx_shows hp hw hlog
    · subst hkey
      exact queCmd_flush q.val s ▸ queFlush_receive_shows hq hw
  · rw [exec_qcFlush_admits h]
    refine ⟨fun hnot => by rw [qcFlush_nothing hnot], fun hkey hq hc => ?_⟩
    subst hkey
    exact congrArg _ (congrArg _ (qcFlush_flushes hq hc))

end Sys2Proof.Machine

namespace Sys2Proof.Tests

open Sys2Proof.Machine

set_option maxRecDepth 100000

/-- `house` with the ring word of queue `q`, and WPTR at `w`. -/
def ringed (q : Nat) (ring : Word) (w : Nat) : State :=
  fset (quePage q) Reg.QUE_WPTR.PTR w (wr (0x40040400 + 4 * q) ring house)

/-- `house` with queue `q` holding `v`. -/
def holding (q : Nat) (v : QueueState) : State := quePut q v house

/-- An admitted pop and push of a receive and of a transmit queue; a receive queue without words and, of the smallest
and the largest ring, with one; an empty queue with each indication and with none; a word without SOP, an SOP word with
room, and a trailer before the EOP word of an open packet. -/
theorem test_hyps_queuePopsAndPushes :
    (∀ s ∈ [house, ringed 0 0x88000000 1, ringed 0 0x90000000 1, holding 256 { opened := some ⟨1, 4, false⟩ }],
      issues .steward s = true ∧ Registers.wf s = true ∧ ∀ q ∈ [0, 256],
        doorCheck .steward (quePage q) 8 .load s = none ∧ doorCheck .steward (quePage q) 8 .store s = none) ∧
    (queW 0 house = queR 0 house ∧ queW 0 (ringed 0 0x88000000 1) ≠ queR 0 (ringed 0 0x88000000 1) ∧
      queLog2 0 (ringed 0 0x88000000 1) = 8 ∧
      queW 0 (ringed 0 0x90000000 1) ≠ queR 0 (ringed 0 0x90000000 1) ∧ queLog2 0 (ringed 0 0x90000000 1) = 16) ∧
    ((queGet 0 (holding 0 { flushed := true, dropped := true })).flushed = true ∧
      (queGet 0 (holding 0 { dropped := true })).flushed = false ∧
      (queGet 0 (holding 0 { dropped := true })).dropped = true ∧
      (queGet 0 house).flushed = false ∧ (queGet 0 house).dropped = false) ∧
    ((0 : Word64).getLsbD 62 = false ∧ (queGet 256 house).opened = none) ∧
    ((0x4000000000000000 : Word64).getLsbD 62 = true ∧ (0x4000000000000000 : Word64).getLsbD 58 = false ∧
      queFree 256 house ≠ 0) ∧
    ((queGet 256 (holding 256 { opened := some ⟨1, 4, false⟩ })).opened = some ⟨1, 4, false⟩ ∧
      (0x0400000000000000 : Word64).getLsbD 62 = false ∧ (0x0400000000000000 : Word64).getLsbD 58 ≠ false) := by
  decide

/-- The least packet, with one word of room too few and with just enough, at the last receive queue; an admitted write
of QUE_CMD of a receive and of a transmit queue, with the key and another, without a packet and with one; and an
admitted write of QC_FLUSH, of a queue with a ring, one without, and none. -/
theorem test_hyps_queueCommitsAndCommands :
    ((List.replicate 5 (0 : Word)).length = 5 ∧ (rxWords [] (List.replicate 5 0) 0).length = 6) ∧
    (∀ w ∈ [250, 251], Registers.wf (ringed 255 0x88000000 w) = true ∧
      queueCarved 255 (ringed 255 0x88000000 w) = true ∧ queLog2 255 (ringed 255 0x88000000 w) ≤ 16 ∧
      queFree 255 (ringed 255 0x88000000 w) = 256 - w) ∧
    (∀ s ∈ [house, ringed 0 0x90000000 6, holding 0 { packets := [⟨0, 6, 0, 0, false, false⟩] }],
      Registers.wf s = true ∧ queLog2 0 s ≤ 16 ∧
      Admits .steward (quePage 0 + 0x20) .store s ∧ Admits .steward (quePage 256 + 0x20) .store s) ∧
    ((0x5142 : BitVec 16) ≠ 0x5143 ∧ (queGet 0 house).packets = [] ∧
      (queGet 0 (holding 0 { packets := [⟨0, 6, 0, 0, false, false⟩] })).packets = [⟨0, 6, 0, 0, false, false⟩]) ∧
    (Admits .steward 0x40040008 .store house ∧ (0x5147 : BitVec 16) ≠ 0x5146 ∧ 320 ≤ (320 : BitVec 9).toNat ∧
      queueCarved (2 : BitVec 9).toNat house = false ∧ queueCarved (0 : BitVec 9).toNat house = true) := by
  decide

end Sys2Proof.Tests
end

section
/-!
SUPPORT. The Knocker (R365–R377): its block beside the other registers, one equation per case of each command, and what
an enable, a refused commissioning write and a recorded match show.
-/

namespace Sys2Proof.Machine

open Reg

/-! ### One-bit fields, power domains and raised events -/

/-- A field of one bit is that bit of its register. -/
theorem fis_eq_bitOf (b : Nat) {f : Fld} (hf : f.w = 1) (s : State) : fis b f s = bitOf (rd (b + f.off) s) f.lo := by
  rw [fis, fget, hf, bitsOf_one]

/-- A power domain just set. -/
theorem pdOn_pdSet_self {s : State} (h : Registers.wf s = true) (p : Nat) (on : Bool) : pdOn p (pdSet p on s) = on := by
  rw [pdOn, pdSet, rd_wr_self h, ← bitsOf_one, bitsOf_bitsPut _ _ _ _ (by omega)]
  cases on <;> rfl

@[simp] theorem raiseEvt_knk (e : Nat) (s : State) : (raiseEvt e s).knk = s.knk := by
  obtain ⟨d, h⟩ := raiseEvt_dests e s
  rw [h]

theorem pendAt_rooms_congr {s t : State} (h : t.rooms = s.rooms) (e d : Nat) :
    (pendAt e d t).rooms = (pendAt e d s).rooms := by
  simp only [pendAt, destSet, destGet, h]

/-- What a raised event does to its destinations depends on what they hold and on its route alone (R456). -/
theorem raiseEvt_rooms_congr {e : Nat} {s t : State} (h : t.rooms = s.rooms) (hr : evtRoute e t = evtRoute e s) :
    (raiseEvt e t).rooms = (raiseEvt e s).rooms := by
  rw [raiseEvt, raiseEvt, hr]
  generalize routeDests (evtRoute e s) = l
  clear hr
  induction l generalizing s t with
  | nil => exact h
  | cons d r ih => exact ih (pendAt_rooms_congr h e d)

/-! ### The state of the receiver -/

theorem Registers.wf_knkGo {s : State} (h : Registers.wf s = true) (st : Nat) : Registers.wf (knkGo st s) = true :=
  Registers.wf_fset (s := { s with knk := { s.knk with matched := false } }) h _ _ _

theorem rd_knkGo_ne {s : State} (h : Registers.wf s = true) {a : Nat} (ha : a ≠ knkB + 0x14) (st : Nat) :
    rd a (knkGo st s) = rd a s :=
  rd_fset_ne (s := { s with knk := { s.knk with matched := false } }) h _ _ ha

theorem knkState_knkGo {s : State} (h : Registers.wf s = true) {st : Nat} (hst : st < 4) : knkState (knkGo st s) = st :=
  fget_fset_lt (s := { s with knk := { s.knk with matched := false } }) h _ hst (by decide)

/-! ### KNK_CTRL -/

/-- KNK_CTRL as a write leaves it: LOCK is set only (R377). -/
def knkCtrlWord (data old : Word) : Word := (data &&& 0x7#32) ||| ((data ||| old) &&& 0x8#32)

/-- The fields of KNK_CTRL, where it holds what a write leaves. -/
theorem fis_knkCtrl {data : Word} {s t : State} (h : rd knkB t = knkCtrlWord data (rd knkB s)) :
    fis knkB KNK_CTRL.EN t = data.getLsbD 0 ∧ fis knkB KNK_CTRL.WAKE_EN t = data.getLsbD 1 ∧
      fis knkB KNK_CTRL.BCAST_EN t = data.getLsbD 2 ∧
      fis knkB KNK_CTRL.LOCK t = (fis knkB KNK_CTRL.LOCK s || data.getLsbD 3) := by
  have hbit {i : Nat} : fis knkB ⟨0, i, 1⟩ t = bitOf (knkCtrlWord data (rd knkB s)) i := by
    rw [fis_eq_bitOf knkB rfl, Nat.add_zero, h]
  have hlock : fis knkB KNK_CTRL.LOCK s = bitOf (rd knkB s) 3 := fis_eq_bitOf knkB rfl s
  refine ⟨hbit.trans ?_, hbit.trans ?_, hbit.trans ?_, hlock ▸ hbit.trans ?_⟩
  all_goals simp [knkCtrlWord, bitOf, Bool.or_comm]

theorem exec_knkEnWrite_admits {i : Init} {s : State} (h : Admits i 0x70010000 .store s) (data : Word) :
    exec (.knkEnWrite i data) s = .next (acknowledge (knkCtrlWrite data s)) :=
  congrArg Host.Outcome.next (doorStore_admits h)

/-- EN = 1 without a wake word (R376). -/
theorem knkCtrlWrite_noWord {data : Word} {s : State} (hen : data.getLsbD 0 = true) (hword : rd 0x70010008 s = 0) :
    knkCtrlWrite data s = knkErr KNK_ERR.RANGE s := if_pos ⟨hen, hword⟩

/-- EN = 1 with a wake word gives a tune code (R366, R368). -/
theorem knkCtrlWrite_enable {data : Word} {s : State} (hen : data.getLsbD 0 = true) (hword : rd 0x70010008 s ≠ 0) :
    ∃ tune, knkCtrlWrite data s =
      drawFree (fset knkB KNK_STAT.TUNE tune (pdSet 1 true (wr knkB (knkCtrlWord data (rd knkB s)) s))) :=
  ⟨_, (if_neg fun hc => hword hc.2).trans (if_pos hen)⟩

/-- EN = 0 ends listening (R366). -/
theorem knkCtrlWrite_disable {data : Word} {s : State} (hen : data.getLsbD 0 = false) :
    knkCtrlWrite data s = pdSet 1 false (knkGo 0 (wr knkB (knkCtrlWord data (rd knkB s)) s)) :=
  (if_neg fun hc => Bool.false_ne_true (hen.symm.trans hc.1)).trans (if_neg (Bool.eq_false_iff.1 hen))

/-- An enable stores KNK_CTRL, powers PD01 and leaves the receiver's state. -/
theorem knkCtrlWrite_enable_shows {data : Word} {s : State} (hen : data.getLsbD 0 = true)
    (hword : rd 0x70010008 s ≠ 0) (h : Registers.wf s = true) :
    rd knkB (knkCtrlWrite data s) = knkCtrlWord data (rd knkB s) ∧ pdOn 1 (knkCtrlWrite data s) = true ∧
      knkState (knkCtrlWrite data s) = knkState s ∧ (knkCtrlWrite data s).mem = s.mem := by
  obtain ⟨tune, heq⟩ := knkCtrlWrite_enable hen hword
  rw [heq]
  generalize knkCtrlWord data (rd knkB s) = w
  have hstored : Registers.wf (wr knkB w s) = true := Registers.wf_wr h _ _
  have hpower : Registers.wf (pdSet 1 true (wr knkB w s)) = true := Registers.wf_wr hstored _ _
  refine ⟨?_, ?_, ?_, rfl⟩
  · calc rd knkB (fset knkB KNK_STAT.TUNE tune (pdSet 1 true (wr knkB w s)))
      _ = rd knkB (pdSet 1 true (wr knkB w s)) := rd_fset_ne hpower _ _ (by decide)
      _ = rd knkB (wr knkB w s) := rd_wr_ne hstored _ (by decide)
      _ = w := rd_wr_self h _ _
  · calc pdOn 1 (fset knkB KNK_STAT.TUNE tune (pdSet 1 true (wr knkB w s)))
      _ = pdOn 1 (pdSet 1 true (wr knkB w s)) := congrArg (bitOf · 1) (rd_fset_ne hpower _ _ (by decide))
      _ = true := pdOn_pdSet_self hstored _ _
  · calc knkState (fset knkB KNK_STAT.TUNE tune (pdSet 1 true (wr knkB w s)))
      _ = knkState (pdSet 1 true (wr knkB w s)) := fget_fset_of_apart hpower _ _ (by decide)
      _ = knkState (wr knkB w s) := fget_wr_ne hstored _ _ (by decide)
      _ = knkState s := fget_wr_ne h _ _ (by decide)

/-- A disable stores KNK_CTRL, takes PD01's power, forgets the frame in progress and leaves KNK_LAST. -/
theorem knkCtrlWrite_disable_shows {data : Word} {s : State} (hen : data.getLsbD 0 = false)
    (h : Registers.wf s = true) :
    rd knkB (knkCtrlWrite data s) = knkCtrlWord data (rd knkB s) ∧ pdOn 1 (knkCtrlWrite data s) = false ∧
      knkState (knkCtrlWrite data s) = 0 ∧ (knkCtrlWrite data s).knk.matched = false ∧
      rd 0x70010018 (knkCtrlWrite data s) = rd 0x70010018 s ∧ (knkCtrlWrite data s).mem = s.mem := by
  rw [knkCtrlWrite_disable hen]
  generalize knkCtrlWord data (rd knkB s) = w
  have hstored : Registers.wf (wr knkB w s) = true := Registers.wf_wr h _ _
  have hgone : Registers.wf (knkGo 0 (wr knkB w s)) = true := Registers.wf_knkGo hstored 0
  have hread {a : Nat} (hpd : a ≠ 0x400F0028) (hstat : a ≠ knkB + 0x14) :
      rd a (pdSet 1 false (knkGo 0 (wr knkB w s))) = rd a (wr knkB w s) :=
    (rd_wr_ne hgone _ hpd).trans (rd_knkGo_ne hstored hstat 0)
  refine ⟨(hread (by decide) (by decide)).trans (rd_wr_self h _ _), pdOn_pdSet_self hgone _ _, ?_, rfl,
    (hread (by decide) (by decide)).trans (rd_wr_ne h _ (by decide)), rfl⟩
  exact (fget_wr_ne hgone _ _ (by decide)).trans (knkState_knkGo hstored (by decide))

/-! ### KNK_FREQ and KNK_WORD -/

/-- A flag of KNK_ERR, where its reason holds (R376). -/
def knkFlag (reason : Bool) (f : Fld) (s : State) : State := if reason then knkErr f s else s

theorem knkErr_regs (f : Fld) (s : State) :
    (knkErr f s).regs = if fis knkB f s then s.regs else (fset knkB f 1 s).regs := by
  rw [knkErr, lanternNote]
  split_ifs
  · rfl
  · exact raiseEvt_regs _ _
  · rfl

/-- A flag's reason either leaves the registers or sets the flag. -/
theorem knkFlag_regs (reason : Bool) (f : Fld) (s : State) :
    ((knkFlag reason f s).regs = s.regs ∧ (fis knkB f s || reason) = fis knkB f s) ∨
      ((knkFlag reason f s).regs = (fset knkB f 1 s).regs ∧ reason = true) := by
  cases reason with
  | false => exact .inl ⟨rfl, Bool.or_false _⟩
  | true =>
    have hregs : (knkFlag true f s).regs = _ := knkErr_regs f s
    cases hf : fis knkB f s with
    | true => exact .inl ⟨by rw [hregs, hf, if_pos rfl], rfl⟩
    | false => exact .inr ⟨by rw [hregs, hf, if_neg Bool.false_ne_true], rfl⟩

theorem Registers.wf_knkFlag {s : State} (h : Registers.wf s = true) (reason : Bool) (f : Fld) :
    Registers.wf (knkFlag reason f s) = true := by
  obtain ⟨hr, -⟩ | ⟨hr, -⟩ := knkFlag_regs reason f s
  · rw [Registers.wf_of_regs hr, h]
  · rw [Registers.wf_of_regs hr, Registers.wf_fset h]

theorem rd_knkFlag_ne {s : State} (h : Registers.wf s = true) (reason : Bool) {f : Fld} {a : Nat}
    (ha : a ≠ knkB + f.off) : rd a (knkFlag reason f s) = rd a s := by
  obtain ⟨hr, -⟩ | ⟨hr, -⟩ := knkFlag_regs reason f s
  · rw [rd, hr, rd]
  · rw [rd, hr, ← rd, rd_fset_ne h _ _ ha]

theorem fis_knkFlag_self {s : State} (h : Registers.wf s = true) (reason : Bool) {f : Fld}
    (hf : f.w = 1 ∧ f.lo + f.w ≤ 32) : fis knkB f (knkFlag reason f s) = (fis knkB f s || reason) := by
  obtain ⟨hr, hkept⟩ | ⟨hr, hset⟩ := knkFlag_regs reason f s
  · rw [hkept, fis, fget_of_regs hr, fis]
  · rw [fis, fget_of_regs hr, ← fis, fis_fset_one h _ hf, hset, Bool.or_true]

theorem fis_knkFlag_of_apart {s : State} (h : Registers.wf s = true) (reason : Bool) {f g : Fld} (hg : g.Apart f) :
    fis knkB g (knkFlag reason f s) = fis knkB g s := by
  obtain ⟨hr, -⟩ | ⟨hr, -⟩ := knkFlag_regs reason f s
  · rw [fis, fget_of_regs hr, fis]
  · rw [fis, fget_of_regs hr, ← fis, fis_fset_of_apart h _ _ hg]

theorem exec_knkConfigWrite_admits {i : Init} {isWord : Bool} {s : State}
    (h : Admits i (knkB + (if isWord then 8 else 4)) .store s) (data : Word) :
    exec (.knkConfigWrite i isWord data) s = .next (acknowledge (knkConfigWrite isWord data s)) :=
  congrArg Host.Outcome.next (doorStore_admits h)

/-- KNK_FREQ or KNK_WORD written unlocked, disabled and in range. -/
theorem knkConfigWrite_takes {isWord : Bool} {data : Word} {s : State} (hl : fis knkB KNK_CTRL.LOCK s = false)
    (he : fis knkB KNK_CTRL.EN s = false) (hb : knkOutOfRange isWord data = false) :
    knkConfigWrite isWord data s = wr (knkB + (if isWord then 8 else 4)) data s := by
  simp only [knkConfigWrite, hl, he, hb, Bool.or_self, Bool.false_eq_true, if_false]

/-- KNK_FREQ or KNK_WORD refused: a flag for each reason (R376). -/
theorem knkConfigWrite_refused {isWord : Bool} {data : Word} {s : State} (h : fis knkB KNK_CTRL.LOCK s = true ∨
      fis knkB KNK_CTRL.EN s = true ∨ knkOutOfRange isWord data = true) :
    knkConfigWrite isWord data s = knkFlag (knkOutOfRange isWord data) KNK_ERR.RANGE
      (knkFlag (fis knkB KNK_CTRL.EN s) KNK_ERR.BUSY (knkFlag (fis knkB KNK_CTRL.LOCK s) KNK_ERR.LOCKED s)) := by
  refine if_pos ?_
  rwa [Bool.or_eq_true, Bool.or_eq_true, or_assoc]

/-- The reasons of a refusal leave every register but KNK_ERR, and there each sets its own flag. -/
theorem knkFlags_show {s : State} (h : Registers.wf s = true) (locked busy range : Bool) {a : Nat}
    (ha : a ≠ knkB + 0x28) :
    let t := knkFlag range KNK_ERR.RANGE (knkFlag busy KNK_ERR.BUSY (knkFlag locked KNK_ERR.LOCKED s))
    rd a t = rd a s ∧ fis knkB KNK_ERR.LOCKED t = (fis knkB KNK_ERR.LOCKED s || locked) ∧
      fis knkB KNK_ERR.BUSY t = (fis knkB KNK_ERR.BUSY s || busy) ∧
      fis knkB KNK_ERR.RANGE t = (fis knkB KNK_ERR.RANGE s || range) := by
  have hl := Registers.wf_knkFlag h locked KNK_ERR.LOCKED
  have hb := Registers.wf_knkFlag hl busy KNK_ERR.BUSY
  refine ⟨?_, ?_, ?_, ?_⟩
  · rw [rd_knkFlag_ne hb _ ha, rd_knkFlag_ne hl _ ha, rd_knkFlag_ne h _ ha]
  · rw [fis_knkFlag_of_apart hb _ (by decide), fis_knkFlag_of_apart hl _ (by decide),
      fis_knkFlag_self h _ (by decide)]
  · rw [fis_knkFlag_of_apart hb _ (by decide), fis_knkFlag_self hl _ (by decide),
      fis_knkFlag_of_apart h _ (by decide)]
  · rw [fis_knkFlag_self hb _ (by decide), fis_knkFlag_of_apart hl _ (by decide),
      fis_knkFlag_of_apart h _ (by decide)]

theorem knkOutOfRange_word (data : Word) : knkOutOfRange true data = true ↔ data = 0 := beq_iff_eq

theorem knkOutOfRange_freq (data : Word) :
    knkOutOfRange false data = true ↔ data.toNat < 863000 ∨ 928000 < data.toNat := decide_eq_true_iff

/-! ### Listening and the steps of matching -/

theorem exec_knkListenStart_starts {s : State} (he : fis knkB KNK_CTRL.EN s = true) (hs : knkState s = 0)
    (hp : pdOn 1 s = true) : exec .knkListenStart s = .next (knkGo (if knkMuffled s then 3 else 1) s) :=
  congrArg Host.Outcome.next (if_pos ⟨he, hs, hp⟩)

theorem exec_knkListenStart_nothing {s : State}
    (h : fis knkB KNK_CTRL.EN s = false ∨ knkState s ≠ 0 ∨ pdOn 1 s = false) : exec .knkListenStart s = .next s := by
  refine congrArg Host.Outcome.next (if_neg fun ⟨he, hs, hp⟩ => ?_)
  obtain hoff | hbusy | hdown := h
  · exact Bool.false_ne_true (hoff.symm.trans he)
  · exact hbusy hs
  · exact Bool.false_ne_true (hdown.symm.trans hp)

theorem exec_knkPreambleDetect_listening {s : State} (h : knkState s = 1) :
    exec .knkPreambleDetect s = .next (knkGo 2 (fcount knkB KNK_CNT0.PRE s)) := congrArg Host.Outcome.next (if_pos h)

theorem exec_knkPreambleDetect_nothing {s : State} (h : knkState s ≠ 1) : exec .knkPreambleDetect s = .next s :=
  congrArg Host.Outcome.next (if_neg h)

/-- In a frame whose wake word is awaited, the word is counted or the frame abandoned (R372). -/
theorem exec_knkWord_awaited {s : State} (hs : knkState s = 2) (hm : s.knk.matched = false) :
    exec .knkWordMatch s = .next (fcount knkB KNK_CNT0.WORD { s with knk := { s.knk with matched := true } }) ∧
      exec .knkWordTimeout s = .next (knkGo 1 s) :=
  ⟨congrArg Host.Outcome.next (if_pos ⟨hs, hm⟩), congrArg Host.Outcome.next (if_pos ⟨hs, hm⟩)⟩

theorem exec_knkWord_nothing {s : State} (h : knkState s ≠ 2 ∨ s.knk.matched = true) :
    exec .knkWordMatch s = .next s ∧ exec .knkWordTimeout s = .next s := by
  have hnot : ¬(knkState s = 2 ∧ s.knk.matched = false) := fun ⟨hs, hm⟩ =>
    h.elim (· hs) fun hm' => Bool.false_ne_true (hm.symm.trans hm')
  exact ⟨congrArg Host.Outcome.next (if_neg hnot), congrArg Host.Outcome.next (if_neg hnot)⟩

/-! ### The target -/

theorem knkMatches_none (s : State) : knkMatches 0xFFFE s = false := rfl

theorem knkMatches_broadcast (s : State) : knkMatches 0xFFFF s = fis knkB KNK_CTRL.BCAST_EN s := rfl

theorem knkMatches_group {g : Nat} (hg : g < 16) (s : State) :
    knkMatches (0xFE00 + g) s = (fget knkB KNK_ADDR.GROUPS s).testBit g := by
  rw [knkMatches, if_neg (by omega), if_pos (by omega), Nat.add_sub_cancel_left]

theorem knkMatches_unit {target : Nat} (h : target < 0xFE00) (s : State) :
    knkMatches target s = (target == fget knkB KNK_ADDR.ADDR s) := by
  have hne : (target != 0xFFFE) = true := bne_iff_ne.2 (by omega)
  rw [knkMatches, if_neg (by omega), if_neg (by omega), hne, Bool.true_and]

/-! ### The end of pattern -/

/-- A match as it is counted and recorded (R373). -/
def knkRecord (target level : Nat) (s : State) : State :=
  fset knkB KNK_LAST.TARGET target (fset knkB KNK_LAST.LEVEL level (fnext knkB KNK_LAST.SEQ
    (fcount knkB KNK_CNT2.MATCH s)))

/-- An earlier wake lies within the hold-off (R373). -/
def knkHeld (now : Nat) (s : State) : Bool :=
  match s.knk.lastWake with
  | some w => decide (now - w ≤ 10000 * fget knkB KNK_CFG.HOLDOFF s) && decide (0 < fget knkB KNK_CFG.HOLDOFF s)
  | none => false

/-- A match outside the hold-off, as the last wake (R373). -/
def knkWoken (now : Nat) (s : State) : State := { s with knk := { s.knk with lastWake := some now } }

theorem exec_knkEndOfPattern (target : BitVec 16) (crc level : BitVec 8) (now : Nat) (s : State) :
    exec (.knkEndOfPattern target crc level now) s =
      .next (knkEnd target.toNat crc.toNat level.toNat now s) := rfl

theorem knkEnd_noFrame {s : State} (h : knkState s ≠ 2 ∨ s.knk.matched = false) (target crc level now : Nat) :
    knkEnd target crc level now s = s := if_pos h

section
variable {s : State} (hs : knkState s = 2) (hm : s.knk.matched = true)
include hs hm

theorem knkEnd_frame_iff : ¬(knkState s ≠ 2 ∨ s.knk.matched = false) := by
  simp [hs, hm]

theorem knkEnd_wrongCrc {target crc : Nat} (hc : crc ≠ knkCrc (rd 0x70010008 s).toNat target) (level now : Nat) :
    knkEnd target crc level now s = fcount knkB KNK_CNT1.CRC_BAD (knkGo 1 s) :=
  (if_neg (knkEnd_frame_iff hs hm)).trans (if_pos hc)

theorem knkEnd_otherTarget {target crc : Nat} (hc : crc = knkCrc (rd 0x70010008 s).toNat target)
    (ht : knkMatches target s = false) (level now : Nat) :
    knkEnd target crc level now s = fcount knkB KNK_CNT1.NOT_ME (knkGo 1 s) :=
  (if_neg (knkEnd_frame_iff hs hm)).trans ((if_neg (not_not_intro hc)).trans (if_pos ht))

theorem knkEnd_match {target crc : Nat} (hc : crc = knkCrc (rd 0x70010008 s).toNat target)
    (ht : knkMatches target s = true) (level now : Nat) :
    knkEnd target crc level now s = if knkHeld now (knkRecord target level (knkGo 1 s)) then
      knkRecord target level (knkGo 1 s) else knkWake (knkWoken now (knkRecord target level (knkGo 1 s))) :=
  (if_neg (knkEnd_frame_iff hs hm)).trans ((if_neg (not_not_intro hc)).trans (if_neg (by simp [ht])))

end

/-- A record leaves every register but KNK_CNT2 and KNK_LAST. -/
theorem rd_knkRecord_ne {s : State} (h : Registers.wf s = true) (target level : Nat) {a : Nat}
    (hcnt : a ≠ knkB + 0x24) (hlast : a ≠ knkB + 0x18) : rd a (knkRecord target level s) = rd a s := by
  have hcount := Registers.wf_fcount h knkB KNK_CNT2.MATCH
  have hseq {v : Nat} := Registers.wf_fset hcount knkB KNK_LAST.SEQ v
  have hlevel {v w : Nat} := Registers.wf_fset (hseq (v := v)) knkB KNK_LAST.LEVEL w
  calc rd a (knkRecord target level s)
    _ = rd a (fset knkB KNK_LAST.LEVEL level (fnext knkB KNK_LAST.SEQ (fcount knkB KNK_CNT2.MATCH s))) :=
      rd_fset_ne hlevel _ _ hlast
    _ = rd a (fnext knkB KNK_LAST.SEQ (fcount knkB KNK_CNT2.MATCH s)) := rd_fset_ne hseq _ _ hlast
    _ = rd a (fcount knkB KNK_CNT2.MATCH s) := rd_fset_ne hcount _ _ hlast
    _ = rd a s := rd_fset_ne h _ _ hcnt

theorem knkRecord_shows {s : State} (h : Registers.wf s = true) {target level : Nat} (ht : target < 2 ^ 16)
    (hl : level < 2 ^ 8) :
    fget knkB KNK_LAST.TARGET (knkRecord target level s) = target ∧
      fget knkB KNK_LAST.LEVEL (knkRecord target level s) = level ∧
      fget knkB KNK_LAST.SEQ (knkRecord target level s) = (fget knkB KNK_LAST.SEQ s + 1) % 256 ∧
      fget knkB KNK_CNT2.MATCH (knkRecord target level s) = min 65535 (fget knkB KNK_CNT2.MATCH s + 1) := by
  have hcount := Registers.wf_fcount h knkB KNK_CNT2.MATCH
  have hseq {v : Nat} := Registers.wf_fset hcount knkB KNK_LAST.SEQ v
  have hlevel {v w : Nat} := Registers.wf_fset (hseq (v := v)) knkB KNK_LAST.LEVEL w
  rw [knkRecord, fnext]
  refine ⟨fget_fset_lt hlevel _ ht (by decide), ?_, ?_, ?_⟩
  · rw [fget_fset_of_apart hlevel _ _ (by decide), fget_fset_lt hseq _ hl (by decide)]
  · rw [fget_fset_of_apart hlevel _ _ (by decide), fget_fset_of_apart hseq _ _ (by decide),
      fget_fset_self hcount _ _ _ (by decide), fget_fcount_of_apart h _ (by decide)]
    rfl
  · rw [fget_fset_of_apart hlevel _ _ (by decide), fget_fset_of_apart hseq _ _ (by decide),
      fget_fset_of_apart hcount _ _ (by decide), fget_fcount h _ (by decide)]
    rfl

/-- What stands outside KNK_STAT, KNK_CNT2 and KNK_LAST as the end of a matched frame leaves it. -/
theorem rd_knkRecord_knkGo {s : State} (h : Registers.wf s = true) (target level : Nat) {a : Nat}
    (hstat : a ≠ knkB + 0x14) (hcnt : a ≠ knkB + 0x24) (hlast : a ≠ knkB + 0x18) :
    rd a (knkRecord target level (knkGo 1 s)) = rd a s := by
  rw [rd_knkRecord_ne (Registers.wf_knkGo h 1) _ _ hcnt hlast, rd_knkGo_ne h hstat]

/-- A matched frame's end leaves the receiver listening and the match recorded. -/
theorem knkRecord_knkGo_shows {s : State} (h : Registers.wf s = true) {target level : Nat} (ht : target < 2 ^ 16)
    (hl : level < 2 ^ 8) :
    let t := knkRecord target level (knkGo 1 s)
    fget knkB KNK_LAST.TARGET t = target ∧ fget knkB KNK_LAST.LEVEL t = level ∧
      fget knkB KNK_LAST.SEQ t = (fget knkB KNK_LAST.SEQ s + 1) % 256 ∧
      fget knkB KNK_CNT2.MATCH t = min 65535 (fget knkB KNK_CNT2.MATCH s + 1) ∧ knkState t = 1 := by
  have hgo := Registers.wf_knkGo h 1
  have hkept {f : Fld} (hf : knkB + f.off ≠ knkB + 0x14) : fget knkB f (knkGo 1 s) = fget knkB f s :=
    congrArg (bitsOf · f.lo f.w) (rd_knkGo_ne h hf 1)
  have hstate : knkState (knkRecord target level (knkGo 1 s)) = knkState (knkGo 1 s) :=
    congrArg (bitsOf · _ _) (rd_knkRecord_ne hgo target level (by decide) (by decide))
  obtain ⟨htarget, hlevel, hseq, hmatch⟩ := knkRecord_shows hgo ht hl
  exact ⟨htarget, hlevel, by rw [hseq, hkept (by decide)], by rw [hmatch, hkept (by decide)],
    hstate.trans (knkState_knkGo h (by decide))⟩

section
variable (target level : Nat) (s : State)

@[simp] theorem knkRecord_knkGo_rooms : (knkRecord target level (knkGo 1 s)).rooms = s.rooms := rfl
@[simp] theorem knkRecord_knkGo_pow : (knkRecord target level (knkGo 1 s)).pow = s.pow := rfl
@[simp] theorem knkRecord_knkGo_lastWake : (knkRecord target level (knkGo 1 s)).knk.lastWake = s.knk.lastWake := rfl

end

section
variable (now : Nat) (s : State)

@[simp] theorem knkWoken_rooms : (knkWoken now s).rooms = s.rooms := rfl
@[simp] theorem knkWoken_pow : (knkWoken now s).pow = s.pow := rfl
@[simp] theorem knkWoken_lastWake : (knkWoken now s).knk.lastWake = some now := rfl
@[simp] theorem rd_knkWoken (a : Nat) : rd a (knkWoken now s) = rd a s := rfl
@[simp] theorem fget_knkWoken (b : Nat) (f : Fld) : fget b f (knkWoken now s) = fget b f s := rfl

end

/-- Within the hold-off of the last wake. -/
theorem knkHeld_recent {s : State} {w now : Nat} (hw : s.knk.lastWake = some w)
    (hn : now - w ≤ 10000 * fget knkB KNK_CFG.HOLDOFF s) (hh : 0 < fget knkB KNK_CFG.HOLDOFF s) :
    knkHeld now s = true := by
  simp only [knkHeld, hw, hn, hh, decide_true, Bool.and_self]

theorem knkHeld_never {s : State} (hw : s.knk.lastWake = none) (now : Nat) : knkHeld now s = false := by
  simp only [knkHeld, hw]

/-- In RUN with no entry in progress a wake raises KNK_WAKE (R374). -/
theorem knkWake_run {s : State} (hr : s.pow.hall = .run) (hp : phase s = 0) : knkWake s = raiseEvt 848 s := by
  have hphase : fget pwrB PWR_STAT.PHASE s = 0 := hp
  have hup : hallUp s = true := by
    rw [hallUp, hr, hphase]
    rfl
  simp [knkWake, hr, hp, hup]

/-- KNK_WAKE of a recorded match reaches the destinations it reached before the record. -/
theorem raiseEvt_knkWoken_rooms {s : State} (h : Registers.wf s = true) (target level now : Nat) :
    (raiseEvt 848 (knkWoken now (knkRecord target level (knkGo 1 s)))).rooms = (raiseEvt 848 s).rooms := by
  refine raiseEvt_rooms_congr (by rw [knkWoken_rooms, knkRecord_knkGo_rooms]) ?_
  rw [evtRoute, rd_knkWoken, rd_knkRecord_knkGo h _ _ (by decide) (by decide) (by decide), evtRoute]

/-- Inside the hold-off a match is recorded and no more (R373). -/
theorem knkEnd_heldOff {s : State} (hs : knkState s = 2) (hm : s.knk.matched = true) {target crc : Nat}
    (hc : crc = knkCrc (rd 0x70010008 s).toNat target) (ht : knkMatches target s = true) (h : Registers.wf s = true)
    {w now : Nat} (hw : s.knk.lastWake = some w) (hn : now - w ≤ 10000 * fget knkB KNK_CFG.HOLDOFF s)
    (hh : 0 < fget knkB KNK_CFG.HOLDOFF s) (level : Nat) :
    knkEnd target crc level now s = knkRecord target level (knkGo 1 s) := by
  have hoff : fget knkB KNK_CFG.HOLDOFF (knkRecord target level (knkGo 1 s)) = fget knkB KNK_CFG.HOLDOFF s :=
    congrArg (bitsOf · _ _) (rd_knkRecord_knkGo h target level (by decide) (by decide) (by decide))
  have hlast : (knkRecord target level (knkGo 1 s)).knk.lastWake = some w :=
    (knkRecord_knkGo_lastWake target level s).trans hw
  rw [knkEnd_match hs hm hc ht, if_pos (knkHeld_recent hlast (hoff.symm ▸ hn) (hoff.symm ▸ hh))]

/-- A first match in RUN with no entry in progress is recorded and raises KNK_WAKE (R373, R374). -/
theorem knkEnd_firstWake {s : State} (hs : knkState s = 2) (hm : s.knk.matched = true) {target crc : Nat}
    (hc : crc = knkCrc (rd 0x70010008 s).toNat target) (ht : knkMatches target s = true) (h : Registers.wf s = true)
    (hw : s.knk.lastWake = none) (hr : s.pow.hall = .run) (hp : phase s = 0) (level now : Nat) :
    knkEnd target crc level now s = raiseEvt 848 (knkWoken now (knkRecord target level (knkGo 1 s))) := by
  have hlast := (knkRecord_knkGo_lastWake target level s).trans hw
  have hrun : (knkWoken now (knkRecord target level (knkGo 1 s))).pow.hall = .run := by
    rw [knkWoken_pow, knkRecord_knkGo_pow, hr]
  have hphase : phase (knkWoken now (knkRecord target level (knkGo 1 s))) = 0 := by
    rw [phase, fget_knkWoken, fget, rd_knkRecord_knkGo h _ _ (by decide) (by decide) (by decide), ← fget, ← phase, hp]
  rw [knkEnd_match hs hm hc ht, knkHeld_never hlast, if_neg Bool.false_ne_true, knkWake_run hrun hphase]

/-- Settles O28: KNK_CTRL by EN and the wake word (R366, R376), KNK_FREQ and KNK_WORD by the reasons that refuse them
(R376), the steps by the receiver's state (R366, R372), and the end of pattern by the CRC, the target and the last wake
(R371–R374). -/
theorem knocker : Obligations.Knocker := by
  refine ⟨⟨fun i data s h => ?_, fun i isWord data s => ?_, fun data =>
    ⟨knkOutOfRange_word data, knkOutOfRange_freq data⟩, fun s =>
    ⟨exec_knkListenStart_starts, exec_knkListenStart_nothing⟩⟩, fun s => ⟨exec_knkPreambleDetect_listening,
    exec_knkPreambleDetect_nothing, exec_knkWord_awaited, exec_knkWord_nothing⟩,
    fun target crc level now s => ?_, fun target s => ⟨knkMatches_none s, knkMatches_broadcast s,
    fun g hg => knkMatches_group hg s, fun ht => knkMatches_unit ht s⟩⟩
  · rw [exec_knkEnWrite_admits h]
    refine ⟨fun hen hword => by rw [knkCtrlWrite_noWord hen hword], fun hen hword hw => ⟨_, rfl, ?_⟩,
      fun hen hw => ⟨_, rfl, ?_⟩⟩
    · obtain ⟨hctrl, hpd, hstate, hmem⟩ := knkCtrlWrite_enable_shows hen hword hw
      obtain ⟨hEn, hWake, hBcast, hLock⟩ := fis_knkCtrl hctrl
      exact ⟨hEn.trans hen, hpd, hLock, hWake, hBcast, hstate, hmem⟩
    · obtain ⟨hctrl, hpd, hrest⟩ := knkCtrlWrite_disable_shows hen hw
      obtain ⟨hEn, -, -, hLock⟩ := fis_knkCtrl hctrl
      exact ⟨hEn.trans hen, hpd, hLock, hrest⟩
  · intro a bad h
    rw [exec_knkConfigWrite_admits h]
    refine ⟨fun hl he hb => by rw [knkConfigWrite_takes hl he hb]; rfl, fun hany hw => ⟨_, rfl, ?_⟩⟩
    rw [knkConfigWrite_refused hany]
    exact knkFlags_show hw _ _ _ (by cases isWord <;> decide)
  · rw [exec_knkEndOfPattern]
    refine ⟨fun h => by rw [knkEnd_noFrame h], fun hs hm => ⟨fun hc => by rw [knkEnd_wrongCrc hs hm hc],
      fun hc ht => by rw [knkEnd_otherTarget hs hm hc ht], fun hc ht hw => ⟨_, rfl, ?_, ?_⟩⟩⟩
    · intro w hlast hn hh
      rw [knkEnd_heldOff hs hm hc ht hw hlast hn hh, knkRecord_knkGo_rooms, knkRecord_knkGo_pow,
        knkRecord_knkGo_lastWake]
      exact ⟨rfl, rfl, hlast, knkRecord_knkGo_shows hw target.isLt level.isLt⟩
    · intro hlast hr hp
      rw [knkEnd_firstWake hs hm hc ht hw hlast hr hp]
      obtain ⟨htarget, hlevel, hseq, -, hstate⟩ := knkRecord_knkGo_shows hw target.isLt level.isLt
      simp only [knkState, fget_raiseEvt, fget_knkWoken, raiseEvt_knk]
      exact ⟨hstate, htarget, hlevel, hseq, knkWoken_lastWake .., raiseEvt_knkWoken_rooms hw _ _ _⟩

end Sys2Proof.Machine

namespace Sys2Proof.Tests

open Sys2Proof.Machine

set_option maxRecDepth 100000

/-- `house` with KNK_CTRL, KNK_WORD and KNK_STAT, what the Knocker holds beside them, and unit address 5. -/
def knocking (ctrl word stat : Word) (k : KnkState) : State :=
  regs [(0x70010000, ctrl), (0x70010008, word), (0x7001000C, 5), (0x70010014, stat)] { house with knk := k }

/-- The bounds of KNK_FREQ's range and the frequencies next to them, and the least word and none. -/
theorem test_hyps_knkOutOfRange :
    ((∀ f ∈ [863000#32, 928000#32], knkOutOfRange false f = false) ∧
      (∀ f ∈ [862999#32, 928001#32], knkOutOfRange false f = true)) ∧
    knkOutOfRange true 1 = false ∧ knkOutOfRange true 0 = true := by
  simp [knkOutOfRange]

/-- An admitted write of KNK_CTRL without a wake word and with one, and of KNK_FREQ and KNK_WORD free, enabled and
locked; a start of listening off, enabled and unpowered; each state of the receiver, with the wake word awaited and
matched; and a matched frame's end with the right CRC and a wrong one, for the unit and for another, inside the
hold-off of the last wake at its last µs and with no last wake. -/
theorem test_hyps_knocker :
    (∀ s ∈ [knocking 6 0 0 {}, knocking 6 1 0 {}, knocking 7 1 0 {}, knocking 0xE 1 0 {}],
      Registers.wf s = true ∧ Admits .steward 0x70010000 .store s ∧ Admits .steward 0x70010004 .store s ∧
        Admits .steward 0x70010008 .store s) ∧
    (rd 0x70010008 (knocking 6 0 0 {}) = 0 ∧ rd 0x70010008 (knocking 6 1 0 {}) ≠ 0 ∧
      (1 : Word).getLsbD 0 = true ∧ (0xE : Word).getLsbD 0 = false) ∧
    (fis knkB Reg.KNK_CTRL.LOCK (knocking 6 1 0 {}) = false ∧ fis knkB Reg.KNK_CTRL.EN (knocking 6 1 0 {}) = false ∧
      fis knkB Reg.KNK_CTRL.EN (knocking 7 1 0 {}) = true ∧ fis knkB Reg.KNK_CTRL.LOCK (knocking 0xE 1 0 {}) = true) ∧
    (knkState (knocking 7 1 0 {}) = 0 ∧ pdOn 1 (knocking 7 1 0 {}) = true ∧
      pdOn 1 (pdSet 1 false (knocking 7 1 0 {})) = false ∧ knkState (knocking 7 1 1 {}) = 1 ∧
      knkState (knocking 7 1 2 {}) = 2 ∧ (knocking 7 1 2 {}).knk.matched = false) ∧
    (∀ s ∈ [knocking 7 1 2 { matched := true }, knocking 7 1 2 { matched := true, lastWake := some 7 }],
      knkState s = 2 ∧ s.knk.matched = true ∧ Registers.wf s = true ∧ s.pow.hall = .run ∧ phase s = 0 ∧
        rd 0x70010008 s = 1 ∧ knkMatches 5 s = true ∧ knkMatches 6 s = false ∧
        fget knkB Reg.KNK_CFG.HOLDOFF s = 10) ∧
    ((knocking 7 1 2 { matched := true }).knk.lastWake = none ∧
      (knocking 7 1 2 { matched := true, lastWake := some 7 }).knk.lastWake = some 7 ∧ 100007 - 7 ≤ 10000 * 10) ∧
    ((0xDF : BitVec 8).toNat = knkCrc (1 : Word).toNat 5 ∧ (0 : BitVec 8).toNat ≠ knkCrc (1 : Word).toNat 5) := by
  decide

end Sys2Proof.Tests
end

section
/-!
SUPPORT. A step of the block: it runs the front command on the queue's rest, every command answers a next state, and
what each command keeps carries over to the step.
-/

namespace Sys2Proof.Machine

theorem step_idle {s : State} (h : s.pending = []) : step s = .next s := by rw [step, h]

theorem step_front {c : Instr} {rest : List Instr} {s : State} (h : s.pending = c :: rest) :
    step s = exec c { s with pending := rest } := by rw [step, h]

/-- No command stops the machine: each meaning is a next state. -/
theorem exec_next (c : Instr) (s : State) : ∃ t, exec c s = .next t := by
  cases c <;> exact ⟨_, rfl⟩

/-- Settles O1: the step's own equation at a queue with a command in front. -/
theorem stepRunsFrontCommand : Obligations.StepRunsFrontCommand := fun _ _ _ => step_front rfl

/-- Settles O2: a step that takes the front command hands it the queue's rest, which no command changes. -/
theorem queueAndIdling : Obligations.QueueAndIdling := by
  refine ⟨fun s => step_idle, fun c rest s t hs ht => ?_, fun s => ?_⟩
  · rw [step_front hs] at ht
    exact (exec_keeps _ c t ht).pending
  · cases hs : s.pending with
    | nil => exact ⟨s, step_idle hs⟩
    | cons c rest =>
      rw [step_front hs]
      exact exec_next c _

/-- Settles O4: nothing is written at reset, and nothing unwritten is listed. -/
theorem resetCanonical : Obligations.ResetCanonical := rfl

/-- Settles O3: an empty queue changes nothing, and each command keeps both canonical forms. -/
theorem canonicalKept : Obligations.CanonicalKept := by
  intro s t hs ht
  cases hp : s.pending with
  | nil =>
    rw [step_idle hp] at ht
    cases ht
    exact hs
  | cons c rest =>
    rw [step_front hp] at ht
    have hk := exec_keeps _ c t ht
    obtain ⟨hregs, hmem⟩ := Bool.and_eq_true_iff.1 hs
    exact Bool.and_eq_true_iff.2 ⟨hk.regs hregs, hk.mem hmem⟩

end Sys2Proof.Machine

/-! WITNESSES. States and commands that meet the hypotheses of the statements above. -/

namespace Sys2Proof.Tests

open Sys2Proof.Machine

theorem test_hyps_queueAndIdling :
    (∃ s : State, s.pending = []) ∧
    ∃ t, step { State.reset with pending := [.ppsLost, .meshLost] } = .next t ∧ t.pending = [.meshLost] :=
  ⟨⟨State.reset, rfl⟩, _, rfl, rfl⟩

theorem test_hyps_canonicalKept : ∃ s t : State, s.canonical = true ∧ step s = .next t :=
  ⟨{ State.reset with pending := [.ppsPulseEnd] }, _, rfl, rfl⟩

end Sys2Proof.Tests
end

section
/-!
SUPPORT. What this family's statements share: the fields that a change of the registers leaves alone, and the parts of
the state that a raised event and a flag do not touch.
-/

namespace Sys2Proof.Machine

/-! ### Changes of named fields alone -/

/-- A field with the page or block it stands in. -/
abbrev Place := Nat × Fld

/-- A field within its register that shares no bit with another. -/
abbrev Place.Apart (g f : Place) : Prop :=
  g.2.lo + g.2.w ≤ 32 ∧ (g.1 + g.2.off ≠ f.1 + f.2.off ∨ g.2.lo + g.2.w ≤ f.2.lo ∨ f.2.lo + f.2.w ≤ g.2.lo)

/-- The whole register at an address. -/
abbrev regAt (a : Nat) : Place := (a, ⟨0, 0, 32⟩)

/-- From `s` to `t` the registers change in the fields of `l` alone, and stay canonical. -/
structure Only (l : List Place) (s t : State) : Prop where
  wf : Registers.wf t = true
  fget : ∀ g : Place, (∀ f ∈ l, g.Apart f) → fget g.1 g.2 t = fget g.1 g.2 s

namespace Only

variable {l : List Place} {s t u : State}

theorem refl (h : Registers.wf s = true) : Only l s s := ⟨h, fun _ _ => rfl⟩

theorem field (h : Only l s t) {b : Nat} {g : Fld} (hg : ∀ f ∈ l, Place.Apart (b, g) f) :
    Machine.fget b g t = Machine.fget b g s := h.fget (b, g) hg

theorem flag (h : Only l s t) {b : Nat} {g : Fld} (hg : ∀ f ∈ l, Place.Apart (b, g) f) : fis b g t = fis b g s :=
  congrArg (· == 1) (h.field hg)

theorem trans (h : Only l s t) (h' : Only l t u) : Only l s u := ⟨h'.wf, fun g hg => (h'.fget g hg).trans (h.fget g hg)⟩

theorem mono (h : Only l s t) {m : List Place} (hm : l ⊆ m) : Only m s t :=
  ⟨h.wf, fun g hg => h.fget g fun f hf => hg f (hm hf)⟩

theorem of_regs (h : Only l s t) (e : u.regs = t.regs) : Only l s u :=
  ⟨(Registers.wf_of_regs e).trans h.wf, fun g hg => (fget_of_regs e g.1 g.2).trans (h.fget g hg)⟩

theorem fset (h : Only l s t) {b : Nat} {f : Fld} (hf : (b, f) ∈ l) (v : Nat) : Only l s (fset b f v t) := by
  refine ⟨Registers.wf_fset h.wf _ _ _, fun g hg => Eq.trans ?_ (h.fget g hg)⟩
  obtain ⟨hw, hr⟩ := hg _ hf
  by_cases ho : g.1 + g.2.off = b + f.off
  · exact fget_fset_fld h.wf f g.2 v ho hw (hr.resolve_left (not_not_intro ho))
  · exact fget_fset_reg h.wf f g.2 v ho

theorem wr (h : Only l s t) {a : Nat} (ha : regAt a ∈ l) (v : Word) : Only l s (wr a v t) := by
  refine ⟨Registers.wf_wr h.wf _ _, fun g hg => Eq.trans ?_ (h.fget g hg)⟩
  obtain ⟨hw, hr⟩ := hg _ ha
  by_cases ho : g.1 + g.2.off = a
  · have hempty : g.2.w = 0 := by simp only at hr; omega
    simp only [Machine.fget, bitsOf, hempty, Nat.pow_zero, Nat.mod_one]
  · exact fget_wr_ne h.wf _ _ ho

theorem wr64 (h : Only l s t) {a : Nat} (ha : regAt a ∈ l) (ha' : regAt (a + 4) ∈ l) (v : Word64) :
    Only l s (wr64 a v t) := (h.wr ha _).wr ha' _

theorem raiseEvt (h : Only l s t) (e : Nat) : Only l s (raiseEvt e t) := h.of_regs (raiseEvt_regs e t)

theorem note (h : Only l s t) {b : Nat} {f : Fld} (hf : (b, f) ∈ l) (e : Nat) : Only l s (note b f e t) := by
  unfold Machine.note
  split
  · exact h
  · exact (h.fset hf 1).raiseEvt e

theorem ite {c : Prop} [Decidable c] (ht : Only l s t) (hu : Only l s u) : Only l s (if c then t else u) := by
  split <;> assumption

theorem foldl {α : Type} (f : State → α → State) (H : ∀ u x, Only l s u → Only l s (f u x)) :
    ∀ (r : List α) {t : State}, Only l s t → Only l s (r.foldl f t)
  | [], _, h => h
  | x :: r, _, h => foldl f H r (H _ x h)

theorem rd (h : Only l s t) {a : Nat} (ha : ∀ f ∈ l, a ≠ f.1 + f.2.off) : rd a t = rd a s := by
  have hw (x : Word) : bitsOf x 0 32 = x.toNat := by
    simp only [bitsOf, Nat.shiftRight_zero]
    exact Nat.mod_eq_of_lt x.isLt
  have := h.fget (regAt a) fun f hf => ⟨Nat.le_refl _, .inl (ha f hf)⟩
  simp only [Machine.fget, hw] at this
  exact BitVec.eq_of_toNat_eq this

theorem rd64 (h : Only l s t) {a : Nat} (ha : ∀ f ∈ l, a ≠ f.1 + f.2.off ∧ a + 4 ≠ f.1 + f.2.off) :
    rd64 a t = rd64 a s := by
  rw [Machine.rd64, h.rd fun f hf => (ha f hf).1, h.rd fun f hf => (ha f hf).2, Machine.rd64]

end Only

/-! ### Changes within one page -/

/-- Fields of the page at `b`. -/
abbrev page (b : Nat) (fs : List Fld) : List Place := fs.map fun f => (b, f)

/-- The whole register at an offset of a page. -/
abbrev regOff (off : Nat) : Fld := ⟨off, 0, 32⟩

namespace Only

variable {b : Nat} {fs : List Fld} {s t : State}

theorem apartIn {g : Fld} (hg : ∀ f ∈ fs, g.Apart f) : ∀ f ∈ page b fs, Place.Apart (b, g) f := by
  intro x hx
  obtain ⟨f, hf, rfl⟩ := List.mem_map.1 hx
  obtain ⟨hw, h⟩ := hg f hf
  exact ⟨hw, h.imp_left fun h => by show b + g.off ≠ b + f.off; omega⟩

theorem fieldIn (h : Only (page b fs) s t) {g : Fld} (hg : ∀ f ∈ fs, g.Apart f) :
    Machine.fget b g t = Machine.fget b g s := h.field (apartIn hg)

theorem flagIn (h : Only (page b fs) s t) {g : Fld} (hg : ∀ f ∈ fs, g.Apart f) : fis b g t = fis b g s :=
  h.flag (apartIn hg)

theorem rdIn (h : Only (page b fs) s t) {off : Nat} (hoff : ∀ f ∈ fs, off ≠ f.off) :
    Machine.rd (b + off) t = Machine.rd (b + off) s := by
  refine h.rd fun x hx => ?_
  obtain ⟨f, hf, rfl⟩ := List.mem_map.1 hx
  have := hoff f hf
  show b + off ≠ b + f.off
  omega

theorem rd64In (h : Only (page b fs) s t) {off : Nat} (hoff : ∀ f ∈ fs, off ≠ f.off ∧ off + 4 ≠ f.off) :
    Machine.rd64 (b + off) t = Machine.rd64 (b + off) s := by
  rw [Machine.rd64, h.rdIn fun f hf => (hoff f hf).1, Nat.add_assoc, h.rdIn fun f hf => (hoff f hf).2, Machine.rd64,
    Nat.add_assoc]

theorem fsetIn (h : Only (page b fs) s t) {f : Fld} (hf : f ∈ fs) (v : Nat) : Only (page b fs) s (Machine.fset b f v t) :=
  h.fset (List.mem_map.2 ⟨f, hf, Eq.refl _⟩) v

theorem noteIn (h : Only (page b fs) s t) {f : Fld} (hf : f ∈ fs) (e : Nat) :
    Only (page b fs) s (Machine.note b f e t) := h.note (List.mem_map.2 ⟨f, hf, Eq.refl _⟩) e

theorem wrIn (h : Only (page b fs) s t) {off : Nat} (hf : regOff off ∈ fs) (v : Word) :
    Only (page b fs) s (Machine.wr (b + off) v t) := by
  refine ⟨Registers.wf_wr h.wf _ _, fun g hg => Eq.trans ?_ (h.fget g hg)⟩
  obtain ⟨hw, hr⟩ := hg (b, regOff off) (List.mem_map.2 ⟨_, hf, Eq.refl _⟩)
  by_cases ho : g.1 + g.2.off = b + off
  · have hempty : g.2.w = 0 := by simp only at hr; omega
    simp only [Machine.fget, bitsOf, hempty, Nat.pow_zero, Nat.mod_one]
  · exact fget_wr_ne h.wf _ _ ho

theorem wr64In (h : Only (page b fs) s t) {off : Nat} (hf : regOff off ∈ fs) (hf' : regOff (off + 4) ∈ fs) (v : Word64) :
    Only (page b fs) s (Machine.wr64 (b + off) v t) := by
  rw [Machine.wr64, Nat.add_assoc]
  exact (h.wrIn hf _).wrIn hf' _

end Only

/-- A register read as its one field. -/
theorem toNat_rd_eq_fget (a : Nat) (s : State) : (rd a s).toNat = fget a ⟨0, 0, 32⟩ s := by
  simp only [fget, bitsOf, Nat.shiftRight_zero, Nat.add_zero]
  exact (Nat.mod_eq_of_lt (rd a s).isLt).symm

theorem fget_lt (b : Nat) (f : Fld) (s : State) : fget b f s < 2 ^ f.w := bitsOf_lt _ _ _

/-- A flag written with a truth. -/
theorem fis_fset_ofBool {s : State} (h : Registers.wf s = true) (b : Nat) {f : Fld} (hw : f.w = 1 ∧ f.lo + f.w ≤ 32)
    (v : Bool) : fis b f (fset b f (ofBool v) s) = v := by
  rw [fis, fget_fset_self h _ _ _ hw.2, hw.1]
  cases v <;> rfl

/-! ### What a raised event and a flag leave as it was -/

theorem raiseEvt_same {α : Type} (p : State → α) (e : Nat) (s : State)
    (h : ∀ d, p { s with rooms := { s.rooms with dests := d } } = p s) : p (raiseEvt e s) = p s := by
  obtain ⟨d, hd⟩ := raiseEvt_dests e s
  rw [hd, h]

@[simp] theorem raiseEvt_time (e : Nat) (s : State) : (raiseEvt e s).time = s.time := raiseEvt_same (·.time) e s fun _ => rfl
@[simp] theorem raiseEvt_timers (e : Nat) (s : State) : (raiseEvt e s).timers = s.timers :=
  raiseEvt_same (·.timers) e s fun _ => rfl
@[simp] theorem raiseEvt_cal (e : Nat) (s : State) : (raiseEvt e s).cal = s.cal := raiseEvt_same (·.cal) e s fun _ => rfl
@[simp] theorem raiseEvt_keys (e : Nat) (s : State) : (raiseEvt e s).keys = s.keys :=
  raiseEvt_same (·.keys) e s fun _ => rfl
@[simp] theorem raiseEvt_pow (e : Nat) (s : State) : (raiseEvt e s).pow = s.pow := raiseEvt_same (·.pow) e s fun _ => rfl
@[simp] theorem raiseEvt_sup (e : Nat) (s : State) : (raiseEvt e s).sup = s.sup := raiseEvt_same (·.sup) e s fun _ => rfl
@[simp] theorem raiseEvt_host (e : Nat) (s : State) : (raiseEvt e s).host = s.host :=
  raiseEvt_same (·.host) e s fun _ => rfl
@[simp] theorem raiseEvt_uarts (e : Nat) (s : State) : (raiseEvt e s).uarts = s.uarts :=
  raiseEvt_same (·.uarts) e s fun _ => rfl
@[simp] theorem raiseEvt_i2cs (e : Nat) (s : State) : (raiseEvt e s).i2cs = s.i2cs :=
  raiseEvt_same (·.i2cs) e s fun _ => rfl
@[simp] theorem raiseEvt_gpio (e : Nat) (s : State) : (raiseEvt e s).gpio = s.gpio :=
  raiseEvt_same (·.gpio) e s fun _ => rfl
@[simp] theorem raiseEvt_dbg (e : Nat) (s : State) : (raiseEvt e s).dbg = s.dbg := raiseEvt_same (·.dbg) e s fun _ => rfl
@[simp] theorem raiseEvt_upd (e : Nat) (s : State) : (raiseEvt e s).upd = s.upd := raiseEvt_same (·.upd) e s fun _ => rfl
@[simp] theorem raiseEvt_cip (e : Nat) (s : State) : (raiseEvt e s).cip = s.cip := raiseEvt_same (·.cip) e s fun _ => rfl
@[simp] theorem raiseEvt_flash (e : Nat) (s : State) : (raiseEvt e s).flash = s.flash :=
  raiseEvt_same (·.flash) e s fun _ => rfl
@[simp] theorem raiseEvt_plan (e : Nat) (s : State) : (raiseEvt e s).plan = s.plan :=
  raiseEvt_same (·.plan) e s fun _ => rfl
@[simp] theorem raiseEvt_ph (e : Nat) (s : State) : (raiseEvt e s).ph = s.ph := raiseEvt_same (·.ph) e s fun _ => rfl
@[simp] theorem raiseEvt_noise (e : Nat) (s : State) : (raiseEvt e s).noise = s.noise :=
  raiseEvt_same (·.noise) e s fun _ => rfl

/-- A part of the state that neither a register write nor a raised event changes, after a flag is noted. -/
theorem note_same {α : Type} (p : State → α) (b : Nat) (f : Fld) (e : Nat) (s : State)
    (hr : ∀ t, p (raiseEvt e t) = p t) (hw : ∀ a v t, p (wr a v t) = p t) : p (note b f e s) = p s := by
  unfold note
  split
  · rfl
  · exact (hr _).trans (hw _ _ _)

@[simp] theorem note_time (b : Nat) (f : Fld) (e : Nat) (s : State) : (note b f e s).time = s.time :=
  note_same (·.time) b f e s (raiseEvt_time e) fun _ _ _ => rfl
@[simp] theorem note_timers (b : Nat) (f : Fld) (e : Nat) (s : State) : (note b f e s).timers = s.timers :=
  note_same (·.timers) b f e s (raiseEvt_timers e) fun _ _ _ => rfl
@[simp] theorem note_cal (b : Nat) (f : Fld) (e : Nat) (s : State) : (note b f e s).cal = s.cal :=
  note_same (·.cal) b f e s (raiseEvt_cal e) fun _ _ _ => rfl
@[simp] theorem note_keys (b : Nat) (f : Fld) (e : Nat) (s : State) : (note b f e s).keys = s.keys :=
  note_same (·.keys) b f e s (raiseEvt_keys e) fun _ _ _ => rfl
@[simp] theorem note_pow (b : Nat) (f : Fld) (e : Nat) (s : State) : (note b f e s).pow = s.pow :=
  note_same (·.pow) b f e s (raiseEvt_pow e) fun _ _ _ => rfl
@[simp] theorem note_sup (b : Nat) (f : Fld) (e : Nat) (s : State) : (note b f e s).sup = s.sup :=
  note_same (·.sup) b f e s (raiseEvt_sup e) fun _ _ _ => rfl
@[simp] theorem note_host (b : Nat) (f : Fld) (e : Nat) (s : State) : (note b f e s).host = s.host :=
  note_same (·.host) b f e s (raiseEvt_host e) fun _ _ _ => rfl
@[simp] theorem note_uarts (b : Nat) (f : Fld) (e : Nat) (s : State) : (note b f e s).uarts = s.uarts :=
  note_same (·.uarts) b f e s (raiseEvt_uarts e) fun _ _ _ => rfl
@[simp] theorem note_i2cs (b : Nat) (f : Fld) (e : Nat) (s : State) : (note b f e s).i2cs = s.i2cs :=
  note_same (·.i2cs) b f e s (raiseEvt_i2cs e) fun _ _ _ => rfl
@[simp] theorem note_gpio (b : Nat) (f : Fld) (e : Nat) (s : State) : (note b f e s).gpio = s.gpio :=
  note_same (·.gpio) b f e s (raiseEvt_gpio e) fun _ _ _ => rfl
@[simp] theorem note_dbg (b : Nat) (f : Fld) (e : Nat) (s : State) : (note b f e s).dbg = s.dbg :=
  note_same (·.dbg) b f e s (raiseEvt_dbg e) fun _ _ _ => rfl
@[simp] theorem note_upd (b : Nat) (f : Fld) (e : Nat) (s : State) : (note b f e s).upd = s.upd :=
  note_same (·.upd) b f e s (raiseEvt_upd e) fun _ _ _ => rfl
@[simp] theorem note_cip (b : Nat) (f : Fld) (e : Nat) (s : State) : (note b f e s).cip = s.cip :=
  note_same (·.cip) b f e s (raiseEvt_cip e) fun _ _ _ => rfl
@[simp] theorem note_flash (b : Nat) (f : Fld) (e : Nat) (s : State) : (note b f e s).flash = s.flash :=
  note_same (·.flash) b f e s (raiseEvt_flash e) fun _ _ _ => rfl
@[simp] theorem note_plan (b : Nat) (f : Fld) (e : Nat) (s : State) : (note b f e s).plan = s.plan :=
  note_same (·.plan) b f e s (raiseEvt_plan e) fun _ _ _ => rfl
@[simp] theorem note_ph (b : Nat) (f : Fld) (e : Nat) (s : State) : (note b f e s).ph = s.ph :=
  note_same (·.ph) b f e s (raiseEvt_ph e) fun _ _ _ => rfl
@[simp] theorem note_mem (b : Nat) (f : Fld) (e : Nat) (s : State) : (note b f e s).mem = s.mem :=
  note_same (·.mem) b f e s (raiseEvt_mem e) fun _ _ _ => rfl
@[simp] theorem note_lanes (b : Nat) (f : Fld) (e : Nat) (s : State) : (note b f e s).lanes = s.lanes :=
  note_same (·.lanes) b f e s (raiseEvt_lanes e) fun _ _ _ => rfl
@[simp] theorem note_queues (b : Nat) (f : Fld) (e : Nat) (s : State) : (note b f e s).queues = s.queues :=
  note_same (·.queues) b f e s (raiseEvt_queues e) fun _ _ _ => rfl

end Sys2Proof.Machine
end

section
/-!
SUPPORT. Network time (R384–R391): its fields beside those each operation writes, what a measurement, an edge of PPS_IN
and TIME_CMD do, by their cases.
-/

namespace Sys2Proof.Machine

open Reg

/-! ### The fields that each operation writes -/

/-- TIME_QUAL.STATE and the note that a change of it leaves. -/
abbrev qualPlaces : List Place := [(timeB, TIME_QUAL.STATE), (timeB, ⟨0x64, 0, 1⟩)]

/-- What a measurement writes. -/
abbrev measurePlaces : List Place :=
  qualPlaces ++ [regAt (timeB + 0x2C), (timeB, TIME_OFS.OFS), (timeB, TIME_FREQ.FREQ), (timeB, TIME_QUAL.SLEWING),
    (timeB, TIME_QUAL.STEP_PEND)]

theorem Only.timePut {l : List Place} {s t : State} (h : Only l s t) (v : TimeState) : Only l s (timePut v t) :=
  h.of_regs rfl

@[simp] theorem Registers.wf_timePut (v : TimeState) (s : State) : Registers.wf (timePut v s) = Registers.wf s := rfl

@[simp] theorem fget_timePut (b : Nat) (f : Fld) (v : TimeState) (s : State) : fget b f (timePut v s) = fget b f s := rfl

@[simp] theorem timePut_time (v : TimeState) (s : State) : (timePut v s).time = v := rfl

@[simp] theorem rd_timePut (a : Nat) (v : TimeState) (s : State) : rd a (timePut v s) = rd a s := rfl

theorem timeQual_only {s : State} (h : Registers.wf s = true) (st : Nat) : Only qualPlaces s (timeQual st s) := by
  unfold timeQual
  refine .ite (.refl h) (.note (.fset ?_ (by decide) _) (by decide) _)
  exact .ite (.refl h) (.timePut (.refl h) _)

theorem timeErr_only {s : State} (h : Registers.wf s = true) (v : Option Nat) :
    Only [regAt (timeB + 0x2C)] s (timeErr v s) :=
  ((Only.refl h).timePut _).wr (by decide) _

theorem timeState_timeQual {s : State} (h : Registers.wf s = true) {st : Nat} (hst : st < 4) :
    timeState (timeQual st s) = st := by
  unfold timeQual
  split
  · assumption
  · have hput : Registers.wf (if st = 2 then s else timePut { s.time with lockedAll := false } s) = true := by
      split <;> exact h
    rw [timeNote, timeState, fget_note_reg (Registers.wf_fset hput _ _ _) _ _ _ (by decide),
      fget_fset_lt hput _ hst (by decide)]

/-- What the time unit holds after a change of STATE. -/
theorem timeQual_time (st : Nat) (s : State) : (timeQual st s).time =
    { s.time with lockedAll := s.time.lockedAll && (decide (timeState s = st) || decide (st = 2)) } := by
  unfold timeQual
  split
  · next he => simp [he]
  · next he =>
    rw [timeNote, note_time, fset_time]
    by_cases h2 : st = 2
    · simp [h2]
    · simp [he, h2, timePut]

theorem timeErr_time (v : Option Nat) (s : State) : (timeErr v s).time = { s.time with err0 := v, errSecs := 0 } := rfl

/-! ### A measurement (R387, R388, R391) -/

/-- The offset is shown and the instant taken. -/
def measureTaken (src : Nat) (ofs : Int) (tick : Nat) (s : State) : State :=
  fsetS timeB TIME_OFS.OFS (clampInt (-2147483648) 2147483647 ofs)
    (timePut (if src = 1 then { s.time with lastPps := some tick, absOfs := ofs.natAbs }
      else { s.time with lastMesh := some tick, absOfs := ofs.natAbs }) s)

/-- The slew or the pending step that the offset gives. -/
def measureSteered (last : Option Nat) (ofs : Int) (tick : Nat) (s : State) : State :=
  if ofs.natAbs ≤ 250000 then timeFreq (s.time.freq + freqShare ofs last tick s) (timeRem ofs (timeStep none s))
  else timeStep (some ofs) s

/-- The quality that the offset gives. -/
def measureJudged (ofs : Int) (th acc : Nat) (s : State) : State :=
  if ofs.natAbs ≤ 250000 ∧ ofs.natAbs ≤ th then timeQual 2 (timeErr (some acc) s)
  else if timeState s = 2 ∧ th < ofs.natAbs then timeQual 1 (timeErr (some acc) s)
  else s

/-- The last measurement of a source. -/
def lastMeasured (src : Nat) (s : State) : Option Nat := if src = 1 then s.time.lastPps else s.time.lastMesh

theorem measureTaken_only {s : State} (h : Registers.wf s = true) (src : Nat) (ofs : Int) (tick : Nat) :
    Only [(timeB, TIME_OFS.OFS)] s (measureTaken src ofs tick s) :=
  ((Only.refl h).timePut _).fset (by decide) _

theorem timeMeasure_stages {s : State} (h : Registers.wf s = true) (src : Nat) (ofs : Int) (tick : Nat) :
    timeMeasure src ofs tick s = measureJudged ofs (1000 * fget timeB TIME_LIMITS.LOCK_TH s)
      (ofs.natAbs + timeAccuracy src s) (measureSteered (lastMeasured src s) ofs tick (measureTaken src ofs tick s)) := by
  rw [← (measureTaken_only h src ofs tick).field (b := timeB) (g := TIME_LIMITS.LOCK_TH) (by decide)]
  rfl

theorem measureSteered_only {s : State} (h : Registers.wf s = true) (last : Option Nat) (ofs : Int) (tick : Nat) :
    Only measurePlaces s (measureSteered last ofs tick s) := by
  have hs : Only measurePlaces s s := .refl h
  unfold measureSteered
  have hstep (d : Option Int) : Only measurePlaces s (timeStep d s) := (hs.timePut _).fset (by decide) _
  exact .ite (((((hstep none).timePut _).fset (by decide) _).timePut _).fset (by decide) _) (hstep _)

theorem measureJudged_only {s : State} (h : Registers.wf s = true) (ofs : Int) (th acc : Nat) :
    Only measurePlaces s (measureJudged ofs th acc s) := by
  have hq (st : Nat) : Only measurePlaces s (timeQual st (timeErr (some acc) s)) :=
    .trans ((timeErr_only h _).mono (by decide)) ((timeQual_only (timeErr_only h _).wf st).mono (by decide))
  unfold measureJudged
  exact .ite (hq 2) (.ite (hq 1) (.refl h))

/-- A measurement's instant and offset beside the rest. -/
theorem measureTaken_time (src : Nat) (ofs : Int) (tick : Nat) (s : State) : ∃ p m,
    (measureTaken src ofs tick s).time = { s.time with lastPps := p, lastMesh := m, absOfs := ofs.natAbs } := by
  by_cases hsrc : src = 1
  · exact ⟨some tick, s.time.lastMesh, by simp only [measureTaken, hsrc, if_true]; rfl⟩
  · exact ⟨s.time.lastPps, some tick, by simp only [measureTaken, hsrc, if_false]; rfl⟩

theorem measureSteered_slews {ofs : Int} (hofs : ofs.natAbs ≤ 250000) (last : Option Nat) (tick : Nat) (s : State) :
    measureSteered last ofs tick s = timeFreq (s.time.freq + freqShare ofs last tick s) (timeRem ofs (timeStep none s)) :=
  if_pos hofs

theorem measureSteered_steps {ofs : Int} (hofs : 250000 < ofs.natAbs) (last : Option Nat) (tick : Nat) (s : State) :
    measureSteered last ofs tick s = timeStep (some ofs) s := if_neg (Nat.not_le.2 hofs)

/-- The quality beside what the time unit holds. -/
theorem measureJudged_time (ofs : Int) (th acc : Nat) (s : State) : ∃ e n b,
    (measureJudged ofs th acc s).time = { s.time with err0 := e, errSecs := n, lockedAll := b } := by
  have hq (st : Nat) : ∃ e n b, (timeQual st (timeErr (some acc) s)).time =
      { s.time with err0 := e, errSecs := n, lockedAll := b } := ⟨_, _, _, timeQual_time st _⟩
  unfold measureJudged
  split
  · exact hq 2
  · split
    · exact hq 1
    · exact ⟨_, _, _, rfl⟩

/-- What PPS_IN's row, its last edge and its validity are after a measurement. -/
theorem timeMeasure_row (src : Nat) (ofs : Int) (tick : Nat) (s : State) :
    (timeMeasure src ofs tick s).time.goods = s.time.goods ∧
      (timeMeasure src ofs tick s).time.ppsValid = s.time.ppsValid ∧
      (timeMeasure src ofs tick s).time.lastEdge = s.time.lastEdge := by
  have hsteered : ∃ f r d, (measureSteered (lastMeasured src s) ofs tick (measureTaken src ofs tick s)).time =
      { (measureTaken src ofs tick s).time with freq := f, rem := r, step := d } := by
    unfold measureSteered
    split
    · exact ⟨_, _, _, rfl⟩
    · exact ⟨_, _, _, rfl⟩
  obtain ⟨f, r, d, hd⟩ := hsteered
  obtain ⟨p, m, htaken⟩ := measureTaken_time src ofs tick s
  obtain ⟨e, n, b, hjudged⟩ := measureJudged_time ofs
    (1000 * fget timeB TIME_LIMITS.LOCK_TH (measureTaken src ofs tick s)) (ofs.natAbs + timeAccuracy src s)
    (measureSteered (lastMeasured src s) ofs tick (measureTaken src ofs tick s))
  rw [hd, htaken] at hjudged
  have htime : (timeMeasure src ofs tick s).time = _ := hjudged
  rw [htime]
  exact ⟨rfl, rfl, rfl⟩

/-- The pending flag is beside what the quality writes. -/
theorem fis_stepPend_measureJudged {s : State} (h : Registers.wf s = true) (ofs : Int) (th acc : Nat) :
    fis timeB TIME_QUAL.STEP_PEND (measureJudged ofs th acc s) = fis timeB TIME_QUAL.STEP_PEND s := by
  have hq (st : Nat) : fis timeB TIME_QUAL.STEP_PEND (timeQual st (timeErr (some acc) s)) =
      fis timeB TIME_QUAL.STEP_PEND s := by
    rw [(timeQual_only (timeErr_only h _).wf st).flag (by decide), (timeErr_only h _).flag (by decide)]
  unfold measureJudged
  split
  · exact hq 2
  · split
    · exact hq 1
    · rfl

theorem fis_stepPend_measureSteered {s : State} (h : Registers.wf s = true) (last : Option Nat) (ofs : Int)
    (tick : Nat) :
    fis timeB TIME_QUAL.STEP_PEND (measureSteered last ofs tick s) = decide (250000 < ofs.natAbs) := by
  have hput (d : Option Int) : Registers.wf (timePut { s.time with step := d } s) = true := h
  have hstep (d : Option Int) : Registers.wf (timeStep d s) = true := Registers.wf_fset (hput d) _ _ _
  by_cases hofs : ofs.natAbs ≤ 250000
  · have hslew : Only [(timeB, TIME_FREQ.FREQ), (timeB, TIME_QUAL.SLEWING)] (timeStep none s)
        (measureSteered last ofs tick s) := by
      rw [measureSteered_slews hofs]
      exact ((((Only.refl (hstep none)).timePut _).fset (by decide) _).timePut _).fset (by decide) _
    rw [hslew.flag (by decide), decide_eq_false (Nat.not_lt.2 hofs)]
    exact fis_fset_ofBool (hput none) _ (by decide) false
  · rw [measureSteered_steps (Nat.not_le.1 hofs), decide_eq_true (Nat.not_le.1 hofs)]
    exact fis_fset_ofBool (hput _) _ (by decide) true

/-- A measurement that slews. -/
theorem timeMeasure_slews {s : State} (h : Registers.wf s = true) {ofs : Int} (hofs : ofs.natAbs ≤ 250000)
    (src tick : Nat) :
    (timeMeasure src ofs tick s).time.rem = ofs ∧ (timeMeasure src ofs tick s).time.step = none ∧
      fis timeB TIME_QUAL.STEP_PEND (timeMeasure src ofs tick s) = false ∧
      (timeMeasure src ofs tick s).time.freq =
        ratClamp 200000 (s.time.freq + freqShare ofs (lastMeasured src s) tick s) := by
  have htaken := measureTaken_only h src ofs tick
  have hshare : freqShare ofs (lastMeasured src s) tick (measureTaken src ofs tick s) =
      freqShare ofs (lastMeasured src s) tick s := by
    simp only [freqShare, htaken.field (b := timeB) (g := TIME_CFG.LOOP_K) (by decide)]
  obtain ⟨p, m, htime⟩ := measureTaken_time src ofs tick s
  have hpend := (fis_stepPend_measureJudged (measureSteered_only htaken.wf (lastMeasured src s) ofs tick).wf ofs
    (1000 * fget timeB TIME_LIMITS.LOCK_TH s) (ofs.natAbs + timeAccuracy src s)).trans
    (fis_stepPend_measureSteered htaken.wf _ ofs tick)
  rw [timeMeasure_stages h]
  obtain ⟨e, n, b, hjudged⟩ := measureJudged_time ofs (1000 * fget timeB TIME_LIMITS.LOCK_TH s)
    (ofs.natAbs + timeAccuracy src s) (measureSteered (lastMeasured src s) ofs tick (measureTaken src ofs tick s))
  rw [hpend, hjudged, measureSteered_slews hofs, hshare, htime]
  exact ⟨rfl, rfl, decide_eq_false (Nat.not_lt.2 hofs), rfl⟩

/-- A measurement too large to slew. -/
theorem timeMeasure_steps {s : State} (h : Registers.wf s = true) {ofs : Int} (hofs : 250000 < ofs.natAbs)
    (src tick : Nat) :
    (timeMeasure src ofs tick s).time.step = some ofs ∧
      fis timeB TIME_QUAL.STEP_PEND (timeMeasure src ofs tick s) = true ∧
      (timeMeasure src ofs tick s).time.freq = s.time.freq ∧ (timeMeasure src ofs tick s).time.rem = s.time.rem := by
  have htaken := measureTaken_only h src ofs tick
  obtain ⟨p, m, htime⟩ := measureTaken_time src ofs tick s
  have hpend := (fis_stepPend_measureJudged (measureSteered_only htaken.wf (lastMeasured src s) ofs tick).wf ofs
    (1000 * fget timeB TIME_LIMITS.LOCK_TH s) (ofs.natAbs + timeAccuracy src s)).trans
    (fis_stepPend_measureSteered htaken.wf _ ofs tick)
  rw [timeMeasure_stages h]
  obtain ⟨e, n, b, hjudged⟩ := measureJudged_time ofs (1000 * fget timeB TIME_LIMITS.LOCK_TH s)
    (ofs.natAbs + timeAccuracy src s) (measureSteered (lastMeasured src s) ofs tick (measureTaken src ofs tick s))
  rw [hpend, hjudged, measureSteered_steps hofs]
  refine ⟨rfl, decide_eq_true hofs, ?_, ?_⟩
  · show (measureTaken src ofs tick s).time.freq = s.time.freq
    rw [htime]
  · show (measureTaken src ofs tick s).time.rem = s.time.rem
    rw [htime]

/-- A source's accuracy is below 1 ms. -/
theorem timeAccuracy_lt (src : Nat) (s : State) : timeAccuracy src s < 1000000 := by
  have hpps := fget_lt timeB TIME_SRCCFG.PPS_ACC s
  have hmesh := fget_lt timeB TIME_SRCCFG.MESH_ACC s
  simp only [TIME_SRCCFG.PPS_ACC, TIME_SRCCFG.MESH_ACC] at hpps hmesh
  simp only [timeAccuracy, TIME_SRCCFG.PPS_ACC, TIME_SRCCFG.MESH_ACC]
  split <;> omega

/-- The STATE that a measurement is judged in is the one before it. -/
theorem timeState_measureSteered {s : State} (h : Registers.wf s = true) (src : Nat) (last : Option Nat) (ofs : Int)
    (tick : Nat) : timeState (measureSteered last ofs tick (measureTaken src ofs tick s)) = timeState s := by
  have htaken := measureTaken_only h src ofs tick
  have hstep (d : Option Int) : Only [(timeB, TIME_QUAL.STEP_PEND)] (measureTaken src ofs tick s)
      (timeStep d (measureTaken src ofs tick s)) := ((Only.refl htaken.wf).timePut _).fset (by decide) _
  refine Eq.trans ?_ (htaken.field (b := timeB) (g := TIME_QUAL.STATE) (by decide))
  by_cases hofs : ofs.natAbs ≤ 250000
  · rw [measureSteered_slews hofs]
    refine Eq.trans ?_ ((hstep none).field (b := timeB) (g := TIME_QUAL.STATE) (by decide))
    have hslew : Only [(timeB, TIME_FREQ.FREQ), (timeB, TIME_QUAL.SLEWING)]
        (timeStep none (measureTaken src ofs tick s)) (timeFreq ((measureTaken src ofs tick s).time.freq +
          freqShare ofs last tick (measureTaken src ofs tick s))
          (timeRem ofs (timeStep none (measureTaken src ofs tick s)))) :=
      ((((Only.refl (hstep none).wf).timePut _).fset (by decide) _).timePut _).fset (by decide) _
    exact hslew.field (by decide)
  · rw [measureSteered_steps (Nat.not_le.1 hofs)]
    exact (hstep _).field (by decide)

/-- A measurement within LOCK_TH locks, and TIME_ERR shows the offset and the accuracy. -/
theorem timeMeasure_locks {s : State} (h : Registers.wf s = true) {ofs : Int} (hofs : ofs.natAbs ≤ 250000)
    (src tick : Nat) (hth : ofs.natAbs ≤ 1000 * fget timeB TIME_LIMITS.LOCK_TH s) :
    timeState (timeMeasure src ofs tick s) = 2 ∧
      (rd (timeB + 0x2C) (timeMeasure src ofs tick s)).toNat = ofs.natAbs + timeAccuracy src s := by
  have hsteered := (measureSteered_only (measureTaken_only h src ofs tick).wf (lastMeasured src s) ofs tick).wf
  rw [timeMeasure_stages h, measureJudged, if_pos ⟨hofs, hth⟩]
  generalize measureSteered (lastMeasured src s) ofs tick (measureTaken src ofs tick s) = u at hsteered ⊢
  have herr := (timeErr_only hsteered (some (ofs.natAbs + timeAccuracy src s))).wf
  refine ⟨timeState_timeQual herr (by decide), ?_⟩
  rw [(timeQual_only herr 2).rd (by decide), timeErr, rd_wr_self ((Registers.wf_timePut _ u).trans hsteered)]
  have hacc := timeAccuracy_lt src s
  simp only [BitVec.toNat_ofNat]
  omega

/-- A measurement above LOCK_TH takes LOCKED to HOLDOVER. -/
theorem timeMeasure_unlocks {s : State} (h : Registers.wf s = true) {ofs : Int} (src tick : Nat)
    (hth : 1000 * fget timeB TIME_LIMITS.LOCK_TH s < ofs.natAbs) :
    timeState (timeMeasure src ofs tick s) = if timeState s = 2 then 1 else timeState s := by
  have hsteered := (measureSteered_only (measureTaken_only h src ofs tick).wf (lastMeasured src s) ofs tick).wf
  rw [timeMeasure_stages h, measureJudged, if_neg fun hc => Nat.not_le.2 hth hc.2,
    ← timeState_measureSteered h src (lastMeasured src s) ofs tick]
  generalize measureSteered (lastMeasured src s) ofs tick (measureTaken src ofs tick s) = u at hsteered ⊢
  by_cases hlocked : timeState u = 2
  · rw [if_pos ⟨hlocked, hth⟩, if_pos hlocked]
    exact timeState_timeQual (timeErr_only hsteered _).wf (by decide)
  · rw [if_neg fun hc => hlocked hc.1, if_neg hlocked]

/-! ### The sources (R384–R386, R391) -/

/-- What a change of the sources writes. -/
abbrev sourcePlaces : List Place := qualPlaces ++ [regAt (timeB + 0x2C), (timeB, TIME_QUAL.SRC_V)]

/-- The source shown, before the quality. -/
def sourceShown (s : State) : State :=
  fset timeB TIME_QUAL.SRC_V (timeSource s) (if timeSource s = 2 then s else timePut { s.time with lastMesh := none } s)

theorem timeSources_eq (s : State) : timeSources s =
    if timeSource s = 0 ∧ timeState (sourceShown s) = 2 then timeQual 1 (timeErr (timeErrNow (sourceShown s)) (sourceShown s))
    else sourceShown s := rfl

theorem sourceShown_only {s : State} (h : Registers.wf s = true) : Only [(timeB, TIME_QUAL.SRC_V)] s (sourceShown s) :=
  .fset (.ite (.refl h) ((Only.refl h).timePut _)) (by decide) _

theorem timeSources_only {s : State} (h : Registers.wf s = true) : Only sourcePlaces s (timeSources s) := by
  have hshown := sourceShown_only h
  have herr := timeErr_only hshown.wf (timeErrNow (sourceShown s))
  rw [timeSources_eq]
  exact .ite (.trans (hshown.mono (by decide)) (.trans (herr.mono (by decide)) ((timeQual_only herr.wf 1).mono (by decide))))
    (hshown.mono (by decide))

theorem sourceShown_time (s : State) : ∃ m, (sourceShown s).time = { s.time with lastMesh := m } := by
  unfold sourceShown
  split
  · exact ⟨_, rfl⟩
  · exact ⟨_, rfl⟩

/-- The sources beside what the time unit holds. -/
theorem timeSources_time (s : State) : ∃ m e n b,
    (timeSources s).time = { s.time with lastMesh := m, err0 := e, errSecs := n, lockedAll := b } := by
  obtain ⟨m, hm⟩ := sourceShown_time s
  rw [timeSources_eq]
  split
  · rw [timeQual_time, timeErr_time, hm]
    exact ⟨_, _, _, _, rfl⟩
  · exact ⟨_, _, _, _, hm⟩

/-- Without a source LOCKED becomes HOLDOVER. -/
theorem timeState_timeSources {s : State} (h : Registers.wf s = true) (hsrc : timeSource s = 0)
    (hlocked : timeState s = 2) : timeState (timeSources s) = 1 := by
  have hshown := sourceShown_only h
  have hstate : timeState (sourceShown s) = 2 := (hshown.field (by decide)).trans hlocked
  rw [timeSources_eq, if_pos ⟨hsrc, hstate⟩]
  exact timeState_timeQual (timeErr_only hshown.wf _).wf (by decide)

/-- The source in use by SRC and the sources that are valid. -/
theorem timeSource_of {s t : State} (hcfg : fget timeB TIME_CFG.SRC t = fget timeB TIME_CFG.SRC s)
    (hp : t.time.ppsValid = s.time.ppsValid) (hm : t.time.meshValid = s.time.meshValid) :
    timeSource t = timeSource s := by
  simp only [timeSource, hcfg, hp, hm]

theorem timeSource_timeSources {s : State} (h : Registers.wf s = true) : timeSource (timeSources s) = timeSource s := by
  obtain ⟨m, e, n, b, ht⟩ := timeSources_time s
  exact timeSource_of ((timeSources_only h).field (by decide)) (by rw [ht]) (by rw [ht])

/-! ### PPS_IN (R385) -/

theorem ppsEdge_off {s : State} (h : fis timeB TIME_PPS.IN_EN s = false) (edge nt : Nat) : ppsEdge edge nt s = s := by
  rw [ppsEdge, h, Bool.not_false, if_pos rfl]

theorem ppsEdge_first {s : State} (h : fis timeB TIME_PPS.IN_EN s = true) (hlast : s.time.lastEdge = none)
    (edge nt : Nat) : ppsEdge edge nt s = timePut { s.time with lastEdge := some edge } s := by
  simp only [ppsEdge, h, hlast, Bool.not_true, Bool.false_eq_true, if_false]

/-- A bad edge is counted and flagged, and ends the row of good ones. -/
theorem ppsEdge_bad {s : State} (h : fis timeB TIME_PPS.IN_EN s = true) {p edge : Nat}
    (hlast : s.time.lastEdge = some p) (hbad : 153600 < (((edge - p : Nat) : Int) - 1536000000).natAbs) (nt : Nat) :
    ppsEdge edge nt s = timeErrf TIME_ERRF.PPS_BAD (fcount timeB TIME_CNT.PPS_BAD
      (timePut { s.time with lastEdge := some edge, goods := 0 } s)) := by
  simp only [ppsEdge, h, hlast, Bool.not_true, Bool.false_eq_true, if_false, if_neg (Nat.not_le.2 hbad)]
  rfl

/-- The second good edge in a row makes PPS_IN valid; what follows from it changes neither the row nor the validity. -/
theorem ppsEdge_good {s : State} (h : fis timeB TIME_PPS.IN_EN s = true) {p edge : Nat}
    (hlast : s.time.lastEdge = some p) (hgood : (((edge - p : Nat) : Int) - 1536000000).natAbs ≤ 153600) (nt : Nat) :
    (ppsEdge edge nt s).time.goods = s.time.goods + 1 ∧
      (ppsEdge edge nt s).time.ppsValid = (s.time.ppsValid || decide (1 ≤ s.time.goods)) ∧
      (ppsEdge edge nt s).time.lastEdge = some edge := by
  simp only [ppsEdge, h, hlast, Bool.not_true, Bool.false_eq_true, if_false, if_pos hgood]
  generalize hu : timePut _ (timePut { s.time with lastEdge := some edge } s) = u
  have hrow : u.time.goods = s.time.goods + 1 ∧ u.time.ppsValid = (s.time.ppsValid || decide (1 ≤ s.time.goods)) ∧
      u.time.lastEdge = some edge := by
    rw [← hu]
    refine ⟨rfl, congrArg (s.time.ppsValid || ·) (decide_eq_decide.2 ?_), rfl⟩
    show 2 ≤ s.time.goods + 1 ↔ _
    omega
  obtain ⟨m, e, n, b, ht⟩ := timeSources_time u
  split
  · have hmeasured := timeMeasure_row 1 (nearestSecond (nt - fgetS timeB TIME_PPS_DLY.DLY (timeSources u)) -
      (nt - fgetS timeB TIME_PPS_DLY.DLY (timeSources u))) (edge / 20) (timeSources u)
    rw [ht] at hmeasured
    obtain ⟨hg, hv, he⟩ := hmeasured
    exact ⟨hg.trans hrow.1, hv.trans hrow.2.1, he.trans hrow.2.2⟩
  · rw [ht]
    exact hrow

theorem exec_ppsInEdge_bad {edge nt : Word64} {s : State} (h : Registers.wf s = true)
    (hen : fis timeB TIME_PPS.IN_EN s = true) {p : Nat} (hlast : s.time.lastEdge = some p)
    (hbad : p + 1536153600 < edge.toNat) :
    ∃ t, exec (.ppsInEdge edge nt) s = .next t ∧ t.time.goods = 0 ∧ t.time.ppsValid = s.time.ppsValid ∧
      fis timeB TIME_ERRF.PPS_BAD t = true ∧
      fget timeB TIME_CNT.PPS_BAD t = min 65535 (fget timeB TIME_CNT.PPS_BAD s + 1) ∧ timeState t = timeState s := by
  refine ⟨_, congrArg Host.Outcome.next (ppsEdge_bad hen hlast (by omega) nt.toNat), ?_⟩
  generalize hu : timePut { s.time with lastEdge := some edge.toNat, goods := 0 } s = u
  have hw : Registers.wf u = true := by rw [← hu]; exact h
  have hcount : Only [(timeB, TIME_CNT.PPS_BAD)] u (fcount timeB TIME_CNT.PPS_BAD u) := .fset (.refl hw) (by decide) _
  have hflag : Only [(timeB, TIME_ERRF.PPS_BAD)] (fcount timeB TIME_CNT.PPS_BAD u)
      (timeErrf TIME_ERRF.PPS_BAD (fcount timeB TIME_CNT.PPS_BAD u)) := .note (.refl hcount.wf) (by decide) _
  have htime : (timeErrf TIME_ERRF.PPS_BAD (fcount timeB TIME_CNT.PPS_BAD u)).time = u.time := note_time ..
  rw [htime]
  refine ⟨?_, ?_, fis_note hcount.wf _ rfl (by decide) _, ?_, ?_⟩
  · rw [← hu]; rfl
  · rw [← hu]; rfl
  · rw [hflag.field (by decide), fget_fcount hw _ (by decide), ← hu]
    rfl
  · refine (hflag.field (b := timeB) (g := TIME_QUAL.STATE) (by decide)).trans ((hcount.field (by decide)).trans ?_)
    rw [← hu]
    rfl

/-! ### TIME_CMD (R386, R390) -/

theorem exec_timeMeas_admits {i : Init} {s : State} (h : Admits i 0x4005004C .store s) (data : Word) (now : Word64) :
    exec (.timeMeas i data now) s = .next (acknowledge (timeCmd (data ||| 1#32) now.toNat s)) :=
  congrArg Host.Outcome.next (doorStore_admits h)

theorem exec_timeSet_admits {i : Init} {s : State} (h : Admits i 0x4005004C .store s) (data : Word) (now : Word64) :
    exec (.timeSet i data now) s = .next (acknowledge (timeCmd (data ||| 2#32) now.toNat s)) :=
  congrArg Host.Outcome.next (doorStore_admits h)

/-- The key is beside the command bits. -/
theorem bitsOf_key_or (data : Word) {m : Word} (hm : ∀ i < 16, m.getLsbD (16 + i) = false) :
    bitsOf (data ||| m) 16 16 = bitsOf data 16 16 := by
  refine Nat.eq_of_testBit_eq fun i => ?_
  rw [bitsOf_testBit, bitsOf_testBit, BitVec.getLsbD_or]
  by_cases hi : i < 16
  · rw [hm i hi, Bool.or_false]
  · simp [hi]

/-- The bits of a command word that names one command. -/
theorem commandBits (data : Word) :
    (bitsOf (data ||| 1#32) 16 16 = bitsOf data 16 16 ∧ bitOf (data ||| 1#32) 0 = true ∧
      bitOf (data ||| 1#32) 1 = data.getLsbD 1) ∧
    (bitsOf (data ||| 2#32) 16 16 = bitsOf data 16 16 ∧ bitOf (data ||| 2#32) 1 = true ∧
      bitOf (data ||| 2#32) 0 = data.getLsbD 0) := by
  refine ⟨⟨bitsOf_key_or data (by decide), ?_, ?_⟩, bitsOf_key_or data (by decide), ?_, ?_⟩
  all_goals simp [bitOf]

theorem timeCmd_refused {data : Word} {s : State}
    (h : bitsOf data 16 16 ≠ 0x544D ∨ (bitOf data 0 = true ∧ bitOf data 1 = true)) (now : Nat) :
    timeCmd data now s = timeErrf TIME_ERRF.CMD s :=
  if_pos (h.imp_right fun hb => Bool.and_eq_true_iff.2 hb)

theorem timeCmd_measures {data : Word} {s : State} (hk : bitsOf data 16 16 = 0x544D) (hm : bitOf data 0 = true)
    (hs : bitOf data 1 = false) (now : Nat) : timeCmd data now s = timeMeas now s := by
  simp only [timeCmd, hk, hm, hs, Bool.and_false, Bool.false_eq_true, ne_eq, not_true_eq_false, or_self, if_false, if_true]

theorem timeCmd_sets {data : Word} {s : State} (hk : bitsOf data 16 16 = 0x544D) (hm : bitOf data 0 = false)
    (hs : bitOf data 1 = true) (now : Nat) : timeCmd data now s = timeSet s := by
  simp only [timeCmd, hk, hm, hs, Bool.false_and, Bool.false_eq_true, ne_eq, not_true_eq_false, or_self, if_false, if_true]

/-- MESH becomes valid with an accepted measurement. -/
def meshTaken (s : State) : State := timeSources (timePut { s.time with meshValid := true } s)

theorem meshTaken_only {s : State} (h : Registers.wf s = true) : Only sourcePlaces s (meshTaken s) :=
  .trans ((Only.refl h).timePut _) (timeSources_only h)

theorem timeMeas_late {now : Nat} {s : State}
    (h : now < (rd64 0x4005003C s).toNat ∨ (rd64 0x4005003C s).toNat + 153600000 < now) :
    timeMeas now s = timeErrf TIME_ERRF.MEAS_LATE s := if_pos h

theorem timeSource_meshTaken {s : State} (h : Registers.wf s = true) : timeSource (meshTaken s) =
    timeSource (timePut { s.time with meshValid := true } s) := timeSource_timeSources h

/-- An accepted measurement with MESH in use. -/
theorem timeMeas_mesh {now : Nat} {s : State} (h : Registers.wf s = true) (hlo : (rd64 0x4005003C s).toNat ≤ now)
    (hhi : now ≤ (rd64 0x4005003C s).toNat + 153600000)
    (hsrc : fget timeB TIME_CFG.SRC s = 2 ∨ (fget timeB TIME_CFG.SRC s = 3 ∧ s.time.ppsValid = false)) :
    timeMeas now s = timeMeasure 2 (fgetS timeB TIME_MEAS_OFS.OFS s) (rd64 0x4005003C s).toNat (meshTaken s) := by
  have huse : timeSource (meshTaken s) = 2 := by
    rw [timeSource_meshTaken h]
    rcases hsrc with hc | ⟨hc, hp⟩
    · simp only [timeSource, fget_timePut, hc]; rfl
    · simp only [timeSource, fget_timePut, hc, timePut_time, hp]; rfl
  have hofs : fgetS timeB TIME_MEAS_OFS.OFS (meshTaken s) = fgetS timeB TIME_MEAS_OFS.OFS s := by
    rw [fgetS, (meshTaken_only h).field (by decide), fgetS]
  rw [← hofs]
  exact (if_neg fun hc => hc.elim (Nat.not_lt.2 hlo) (Nat.not_lt.2 hhi)).trans (if_pos huse)

/-- An accepted measurement with another source in use. -/
theorem timeMeas_other {now : Nat} {s : State} (h : Registers.wf s = true) (hlo : (rd64 0x4005003C s).toNat ≤ now)
    (hhi : now ≤ (rd64 0x4005003C s).toNat + 153600000)
    (hsrc : fget timeB TIME_CFG.SRC s < 2 ∨ (fget timeB TIME_CFG.SRC s = 3 ∧ s.time.ppsValid = true)) :
    timeMeas now s = meshTaken s := by
  have huse : timeSource (meshTaken s) ≠ 2 := by
    rw [timeSource_meshTaken h]
    rcases hsrc with hc | ⟨hc, hp⟩
    · have hcases : fget timeB TIME_CFG.SRC s = 0 ∨ fget timeB TIME_CFG.SRC s = 1 := by omega
      rcases hcases with hc | hc
      · simp [timeSource, hc]
      · simp only [timeSource, fget_timePut, hc]
        split <;> decide
    · simp only [timeSource, fget_timePut, hc, timePut_time, hp]
      simp
  exact (if_neg fun hc => hc.elim (Nat.not_lt.2 hlo) (Nat.not_lt.2 hhi)).trans (if_neg huse)

/-- SET takes the staged value and leaves FREE, with TIME_ERR unknown (R390). -/
theorem timeSet_shows {s : State} (h : Registers.wf s = true) :
    rd64 0x40050010 (timeSet s) = rd64 0x40050044 s ∧ rd 0x4005002C (timeSet s) = 0xFFFFFFFF#32 ∧
      timeState (timeSet s) = 0 ∧ (timeSet s).time.step = none ∧ (timeSet s).time.rem = 0 ∧
      (timeSet s).time.freq = s.time.freq ∧ fis timeB ⟨0x64, 1, 1⟩ (timeSet s) = true ∧
      fget timeB TIME_CNT.STEPS (timeSet s) = min 255 (fget timeB TIME_CNT.STEPS s + 1) := by
  let s1 := timePut { s.time with nt := (rd64 (timeB + 0x44) s).toNat } s
  let s2 := timeRem 0 (timeStep none s1)
  let s3 := timeQual 0 s2
  let s4 := timeErr none s3
  let s5 := wr64 (timeB + 0x10) (BitVec.ofNat 64 s4.time.nt) s4
  let s6 := fcount timeB TIME_CNT.STEPS s5
  have h2 : Only [(timeB, TIME_QUAL.STEP_PEND), (timeB, TIME_QUAL.SLEWING)] s s2 :=
    (((((Only.refl h).timePut _).timePut _).fset (by decide) _).timePut _).fset (by decide) _
  have h3 : Only qualPlaces s2 s3 := timeQual_only h2.wf 0
  have h4 : Only [regAt (timeB + 0x2C)] s3 s4 := timeErr_only h3.wf none
  have h5 : Only [regAt (timeB + 0x10), regAt (timeB + 0x14)] s4 s5 := .wr64 (.refl h4.wf) (by decide) (by decide) _
  have h6 : Only [(timeB, TIME_CNT.STEPS)] s5 s6 := .fset (.refl h5.wf) (by decide) _
  have h7 : Only [(timeB, ⟨0x64, 1, 1⟩)] s6 (timeSet s) := .note (.refl h6.wf) (by decide) _
  have htime : (timeSet s).time = { s2.time with lockedAll := s3.time.lockedAll, err0 := none, errSecs := 0 } := by
    rw [show (timeSet s).time = s6.time from note_time .., show s6.time = s4.time from rfl,
      show s4.time = { s3.time with err0 := none, errSecs := 0 } from rfl]
    simp only [s3, timeQual_time]
  refine ⟨?_, ?_, ?_, ?_, ?_, ?_, fis_note h6.wf _ rfl (by decide) _, ?_⟩
  · have hnt : s4.time.nt = (rd64 (timeB + 0x44) s).toNat := by
      rw [show s4.time.nt = s3.time.nt from rfl, show s3.time = _ from timeQual_time 0 s2]
      rfl
    rw [h7.rd64 (by decide), h6.rd64 (by decide), show rd64 0x40050010 s5 = _ from rd64_wr64_self h4.wf _ _, hnt,
      BitVec.ofNat_toNat]
    exact BitVec.setWidth_eq _
  · rw [h7.rd (by decide), h6.rd (by decide), h5.rd (by decide)]
    exact rd_wr_self ((Registers.wf_timePut _ s3).trans h3.wf) _ _
  · have hstate : timeState s3 = 0 := timeState_timeQual h2.wf (by decide)
    calc timeState (timeSet s)
      _ = timeState s6 := h7.field (by decide)
      _ = timeState s5 := h6.field (by decide)
      _ = timeState s4 := h5.field (by decide)
      _ = timeState s3 := h4.field (by decide)
      _ = 0 := hstate
  · rw [htime]
    rfl
  · rw [htime]
    rfl
  · rw [htime]
    rfl
  · rw [h7.field (by decide), fget_fcount h5.wf _ (by decide), h5.field (by decide), h4.field (by decide),
      h3.field (by decide), h2.field (by decide)]
    rfl

/-- Settles O29: a measurement by what it steers and judges (R387, R388, R391), PPS_IN by its edges (R385), and TIME_CMD
by the command its word names (R386, R390). -/
theorem networkTime : Obligations.NetworkTime := by
  refine ⟨fun src ofs tick s h => ?_, fun edge nt s => ?_, fun s => ?_, fun s h => timeState_timeSources h,
    fun i data now s ha => ?_⟩
  · exact ⟨fun hofs => timeMeasure_slews h hofs src tick, fun hofs => timeMeasure_steps h hofs src tick,
      fun hofs hth => timeMeasure_locks h hofs src tick hth, fun hth => timeMeasure_unlocks h src tick hth⟩
  · refine ⟨fun hoff => congrArg Host.Outcome.next (ppsEdge_off hoff _ _),
      fun hon hlast => congrArg Host.Outcome.next (ppsEdge_first hon hlast _ _), fun p hon hlast => ⟨fun hbad h => ?_, ?_⟩⟩
    · exact exec_ppsInEdge_bad h hon hlast hbad
    · intro hlo hhi
      exact ⟨_, rfl, ppsEdge_good hon hlast (by omega) _⟩
  · refine ⟨fun hp => ?_, fun hm => ?_, fun hp => ?_, fun hm => ?_⟩
    · exact congrArg Host.Outcome.next (if_neg (Bool.eq_false_iff.1 hp))
    · exact congrArg Host.Outcome.next (if_neg (Bool.eq_false_iff.1 hm))
    · exact congrArg Host.Outcome.next (if_pos hp)
    · exact congrArg Host.Outcome.next (if_pos hm)
  · obtain ⟨⟨hkm, hm0, hm1⟩, hks, hs1, hs0⟩ := commandBits data
    rw [exec_timeMeas_admits ha, exec_timeSet_admits ha]
    refine ⟨fun hc => ?_, fun hc => ?_, fun hk hset => ⟨fun hlate => ?_, fun hlo hhi h => ⟨fun hsrc => ?_, fun hsrc => ?_⟩⟩,
      fun hk hmeas h => ?_⟩
    · rw [timeCmd_refused (hc.imp (fun hk => by rwa [hkm]) fun hb => ⟨hm0, hm1.trans hb⟩)]
    · rw [timeCmd_refused (hc.imp (fun hk => by rwa [hks]) fun hb => ⟨hs0.trans hb, hs1⟩)]
    · rw [timeCmd_measures (hkm.trans hk) hm0 (hm1.trans hset), timeMeas_late hlate]
    · rw [timeCmd_measures (hkm.trans hk) hm0 (hm1.trans hset), timeMeas_mesh h hlo hhi hsrc]
      rfl
    · rw [timeCmd_measures (hkm.trans hk) hm0 (hm1.trans hset), timeMeas_other h hlo hhi hsrc]
      rfl
    · refine ⟨_, rfl, ?_⟩
      rw [timeCmd_sets (hks.trans hk) (hs0.trans hmeas) hs1]
      exact timeSet_shows h

end Sys2Proof.Machine

namespace Sys2Proof.Tests

open Sys2Proof.Machine

set_option maxRecDepth 100000

/-- Network time with a configuration, a quality and what the unit holds. -/
def keepingTime (cfg pps qual : Word) (v : TimeState) : State :=
  regs [(0x40050000, cfg), (0x40050058, pps), (0x40050028, qual)] { roomZeroOpen with time := v }

/-- A measurement of 250 µs and one of 1 ns more; an edge before PPS_IN is enabled, the first one, a bad and a good
one; each source present and lost; a late measurement and one in time, with MESH and with PPS in use. -/
theorem test_hyps_networkTime :
    (Registers.wf (keepingTime 0 0 2 {}) = true ∧ (250000 : Int).natAbs ≤ 250000 ∧ 250000 < (-250001 : Int).natAbs) ∧
    (fis timeB Reg.TIME_PPS.IN_EN (keepingTime 0 0 0 {}) = false ∧ fis timeB Reg.TIME_PPS.IN_EN (keepingTime 0 2 0 {}) = true ∧
      (keepingTime 0 2 0 { lastEdge := some 5 }).time.lastEdge = some 5 ∧ 5 + 1536153600 < 1536153606 ∧
      5 + 1535846400 ≤ 1536000000 ∧ 1536000000 ≤ 5 + 1536153600) ∧
    (timeSource (keepingTime 3 0 2 {}) = 0 ∧ timeState (keepingTime 3 0 2 {}) = 2) ∧
    (Admits .steward 0x4005004C .store (keepingTime 2 0 0 {}) ∧ bitsOf (0x544D0001 : Word) 16 16 = 0x544D ∧
      (rd64 0x4005003C (keepingTime 2 0 0 {})).toNat ≤ 153600000 ∧ 153600000 < 153600001 ∧
      fget timeB Reg.TIME_CFG.SRC (keepingTime 2 0 0 {}) = 2 ∧
      fget timeB Reg.TIME_CFG.SRC (keepingTime 3 0 0 { ppsValid := true }) = 3) := by
  refine ⟨?_, ?_, ?_, ?_⟩
  all_goals decide

end Sys2Proof.Tests
end

section
/-!
SUPPORT. Whole seconds (R389, R392–R394), the reference estimate (R395–R397) and the interval meter (R400–R402): what
each writes, by its cases.
-/

namespace Sys2Proof.Machine

open Reg

/-! ### Two's complement fields -/

/-- A number that a two's complement field holds comes back from it. -/
theorem signedOf_fieldOfInt {w : Nat} (hw : 1 ≤ w) {i : Int} (hlo : -(2 ^ (w - 1) : Nat) ≤ i) (hhi : i < (2 ^ (w - 1) : Nat)) :
    signedOf w (fieldOfInt w i) = i := by
  have hpow : (2 ^ w : Nat) = 2 * 2 ^ (w - 1) := by rw [← Nat.pow_succ', Nat.succ_eq_add_one, Nat.sub_add_cancel hw]
  simp only [signedOf, fieldOfInt, hpow]
  generalize 2 ^ (w - 1) = m at hlo hhi ⊢
  rcases Int.le_total 0 i with hi | hi
  · rw [Int.emod_eq_of_lt hi (by omega), if_pos (by omega)]
    omega
  · by_cases hz : i = 0
    · simp [hz, show 0 < m by omega]
    · have hmod : i % ((2 * m : Nat) : Int) = i + 2 * m := by
        rw [← Int.add_emod_right, Int.emod_eq_of_lt (by omega) (by omega)]
        push_cast
        rfl
      rw [hmod, if_neg (by omega)]
      omega

theorem fieldOfInt_lt (w : Nat) (i : Int) : fieldOfInt w i < 2 ^ w := by
  have := Int.emod_lt_of_pos i (show (0 : Int) < (2 ^ w : Nat) by exact_mod_cast Nat.two_pow_pos w)
  have := Int.emod_nonneg i (show ((2 ^ w : Nat) : Int) ≠ 0 by exact_mod_cast (Nat.two_pow_pos w).ne')
  simp only [fieldOfInt]
  omega

/-- A two's complement field just written with a number that it holds. -/
theorem fgetS_fsetS {s : State} (h : Registers.wf s = true) (b : Nat) {f : Fld} (hf : 1 ≤ f.w ∧ f.lo + f.w ≤ 32) {i : Int}
    (hlo : -(2 ^ (f.w - 1) : Nat) ≤ i) (hhi : i < (2 ^ (f.w - 1) : Nat)) : fgetS b f (fsetS b f i s) = i := by
  rw [fgetS, fsetS, fget_fset_lt h b (fieldOfInt_lt _ _) hf.2, signedOf_fieldOfInt hf.1 hlo hhi]

theorem Only.fieldS {l : List Place} {s t : State} (h : Only l s t) {b : Nat} {g : Fld}
    (hg : ∀ f ∈ l, Place.Apart (b, g) f) : fgetS b g t = fgetS b g s := by
  rw [fgetS, h.field hg, fgetS]

/-! ### A pending step and the quality (R389, R391, R392) -/

/-- A pending step as it takes place. -/
def stepTaken (nt : Nat) (s : State) : State := timeStep none (timeRem 0 (timePut { s.time with nt := nt } s))

theorem secStep_some {s : State} {d : Int} (hd : s.time.step = some d) (sec : Nat) :
    secStep sec s = timeNote 1 (fcount timeB TIME_CNT.STEPS
      (wr64 (timeB + 0x10) (BitVec.ofNat 64 ((sec : Int) * 1000000000 + d).toNat)
        (stepTaken ((sec : Int) * 1000000000 + d).toNat s))) := by
  unfold secStep
  split
  · next h => exact absurd (h.symm.trans hd) (by simp)
  · next d' h =>
    obtain rfl : d' = d := Option.some.inj (h.symm.trans hd)
    rfl

theorem stepTaken_only {s : State} (h : Registers.wf s = true) (nt : Nat) :
    Only [(timeB, TIME_QUAL.STEP_PEND), (timeB, TIME_QUAL.SLEWING)] s (stepTaken nt s) :=
  (((((Only.refl h).timePut _).timePut _).fset (by decide) _).timePut _).fset (by decide) _

theorem secStep_takes {s : State} (h : Registers.wf s = true) {d : Int} (hd : s.time.step = some d) (sec : Nat) :
    (secStep sec s).time.nt = ((sec : Int) * 1000000000 + d).toNat ∧ (secStep sec s).time.step = none ∧
      (secStep sec s).time.rem = 0 ∧
      fget timeB TIME_CNT.STEPS (secStep sec s) = min 255 (fget timeB TIME_CNT.STEPS s + 1) ∧
      fis timeB ⟨0x64, 1, 1⟩ (secStep sec s) = true := by
  rw [secStep_some hd]
  generalize ((sec : Int) * 1000000000 + d).toNat = nt
  have h1 := stepTaken_only h nt
  have h2 : Only [regAt (timeB + 0x10), regAt (timeB + 0x14)] (stepTaken nt s)
      (wr64 (timeB + 0x10) (BitVec.ofNat 64 nt) (stepTaken nt s)) := .wr64 (.refl h1.wf) (by decide) (by decide) _
  have hcount := fget_fcount h2.wf timeB (f := TIME_CNT.STEPS) (by decide)
  have h3 := Registers.wf_fcount h2.wf timeB TIME_CNT.STEPS
  rw [h2.field (by decide), h1.field (by decide)] at hcount
  generalize hu : fcount timeB TIME_CNT.STEPS (wr64 (timeB + 0x10) (BitVec.ofNat 64 nt) (stepTaken nt s)) = u
    at hcount h3 ⊢
  have hnote : Only [(timeB, ⟨0x64, 1, 1⟩)] u (timeNote 1 u) := .note (.refl h3) (by decide) _
  have htime : (timeNote 1 u).time = (stepTaken nt s).time := by rw [timeNote, note_time, ← hu]; rfl
  rw [htime]
  exact ⟨rfl, rfl, rfl, (hnote.field (by decide)).trans hcount, fis_note h3 _ rfl (by decide) _⟩

/-- TIME_ERR while it grows. -/
def errGrown (v : Nat) (s : State) : State :=
  wr (timeB + 0x2C) (BitVec.ofNat 32 v) (timePut { s.time with errSecs := s.time.errSecs + 1 } s)

theorem errGrown_only {s : State} (h : Registers.wf s = true) (v : Nat) : Only [regAt (timeB + 0x2C)] s (errGrown v s) :=
  ((Only.refl h).timePut _).wr (by decide) _

/-- One more whole second since TIME_ERR was set. -/
def errTick (s : State) : State := timePut { s.time with errSecs := s.time.errSecs + 1 } s

/-- TIME_ERR of a known error (R392). -/
def errGrows (e0 : Nat) (s : State) : State :=
  if timeState s = 2 then s
  else
    let grown := e0 + fget timeB REF_STAB.STAB s * s.time.errSecs
    let v := min 0xFFFFFFFE
      (if timeSource s = 0 then grown else max grown (s.time.absOfs + timeAccuracy (timeSource s) s))
    let t := wr (timeB + 0x2C) (BitVec.ofNat 32 v) s
    if timeState t = 1 ∧ 1000 * fget timeB TIME_LIMITS.FREE_LIMIT t < v then timeQual 0 t else t

/-- The error as grown, and the end of HOLDOVER above the limit. -/
def errJudged (v : Nat) (s : State) : State :=
  if timeState (errGrown v s) = 1 ∧ 1000 * fget timeB TIME_LIMITS.FREE_LIMIT (errGrown v s) < v then
    timeQual 0 (errGrown v s)
  else errGrown v s

/-- Outside LOCKED and without a source, the error grows by the stability. -/
theorem secQuality_grows {s : State} {e0 : Nat} (he : s.time.err0 = some e0) (hstate : timeState s ≠ 2)
    (hsrc : timeSource s = 0) :
    secQuality s = errJudged (min 0xFFFFFFFE (e0 + fget timeB REF_STAB.STAB s * (s.time.errSecs + 1))) s := by
  have hgrows : secQuality s = errGrows e0 (errTick s) := by
    change (match s.time.err0 with | none => errTick s | some e0 => errGrows e0 (errTick s)) = _
    rw [he]
  have hzero : timeSource (errTick s) = 0 := hsrc
  have hoff : timeState (errTick s) ≠ 2 := hstate
  simp only [hgrows, errGrows, if_neg hoff, hzero, if_true]
  rfl

theorem secQuality_shows {s : State} (h : Registers.wf s = true) {e0 : Nat} (he : s.time.err0 = some e0)
    (hstate : timeState s ≠ 2) (hsrc : timeSource s = 0) :
    let v := min 0xFFFFFFFE (e0 + fget timeB REF_STAB.STAB s * (s.time.errSecs + 1))
    (rd (timeB + 0x2C) (secQuality s)).toNat = v ∧
      timeState (secQuality s) =
        if timeState s = 1 ∧ 1000 * fget timeB TIME_LIMITS.FREE_LIMIT s < v then 0 else timeState s := by
  rw [secQuality_grows he hstate hsrc]
  have hv : min 0xFFFFFFFE (e0 + fget timeB REF_STAB.STAB s * (s.time.errSecs + 1)) ≤ 0xFFFFFFFE := Nat.min_le_left _ _
  generalize min 0xFFFFFFFE (e0 + fget timeB REF_STAB.STAB s * (s.time.errSecs + 1)) = v at hv ⊢
  dsimp only
  have hgrown := errGrown_only h v
  have hread : (rd (timeB + 0x2C) (errGrown v s)).toNat = v := by
    rw [errGrown, rd_wr_self ((Registers.wf_timePut _ s).trans h), BitVec.toNat_ofNat]
    omega
  have hst : timeState (errGrown v s) = timeState s := hgrown.field (by decide)
  rw [errJudged, hst, hgrown.field (by decide)]
  by_cases hc : timeState s = 1 ∧ 1000 * fget timeB TIME_LIMITS.FREE_LIMIT s < v
  · rw [if_pos hc, if_pos hc, (timeQual_only hgrown.wf 0).rd (by decide)]
    exact ⟨hread, timeState_timeQual hgrown.wf (by decide)⟩
  · rw [if_neg hc, if_neg hc]
    exact ⟨hread, hst⟩

/-! ### PPS_OUT (R393, R394) -/

theorem secPulse_none {s : State} (h : fis timeB TIME_PPS.OUT_EN s = false ∨
    timeState s < fget timeB TIME_PPS.OUT_MIN s) (tick : Nat) : secPulse tick s = s := if_pos h

theorem secPulse_suppressed {s : State} (hen : fis timeB TIME_PPS.OUT_EN s = true)
    (hmin : fget timeB TIME_PPS.OUT_MIN s ≤ timeState s) {p tick : Nat} (hp : s.time.lastPulse = some p)
    (hlo : p ≤ tick) (hhi : tick < p + 38400000) : secPulse tick s = fcount timeB TIME_CNT.SUPPR s := by
  rw [secPulse, if_neg (by simp [hen, Nat.not_lt.2 hmin])]
  simp only [hp]
  exact if_pos (by omega)

theorem secPulse_begins {s : State} (hen : fis timeB TIME_PPS.OUT_EN s = true)
    (hmin : fget timeB TIME_PPS.OUT_MIN s ≤ timeState s) {tick : Nat}
    (hp : ∀ p, s.time.lastPulse = some p → p + 38400000 ≤ tick) :
    secPulse tick s = timePut { s.time with ppsOut := true, lastPulse := some tick } s := by
  rw [secPulse, if_neg (by simp [hen, Nat.not_lt.2 hmin])]
  cases hlast : s.time.lastPulse with
  | none => rfl
  | some p => exact if_neg (by have := hp p hlast; omega)

/-! ### The reference estimate (R395–R397) -/

/-- What the thresholds write. -/
abbrev thresholdPlaces : List Place :=
  [(0x40030000, LINK_GUARD.WIDENING), (timeB, REF_STAT.STATE), (timeB, ⟨0x64, 2, 1⟩), (timeB, ⟨0x64, 3, 1⟩),
    (timeB, ⟨0x64, 4, 1⟩), (timeB, REF_STAT.BLOCK)]

theorem refThresholds_only {s : State} (h : Registers.wf s = true) : Only thresholdPlaces s (refThresholds s) := by
  have hfirst : Only thresholdPlaces s (fset 0x40030000 LINK_GUARD.WIDENING
      (ofBool (refState (fget timeB REF_STAT.STATE s) s == 2))
      (fset timeB REF_STAT.STATE (refState (fget timeB REF_STAT.STATE s) s) s)) :=
    ((Only.refl h).fset (by decide) _).fset (by decide) _
  have hnote {u : State} (hu : Only thresholdPlaces s u) {k : Nat} (hk : k = 2 ∨ k = 3 ∨ k = 4) :
      Only thresholdPlaces s (timeNote k u) := hu.note (by rcases hk with rfl | rfl | rfl <;> decide) _
  have hsecond := Only.ite (c := fget timeB REF_STAT.STATE s = 0 ∧ 1 ≤ refState (fget timeB REF_STAT.STATE s) s)
    (hnote hfirst (.inl rfl)) hfirst
  have hthird := Only.ite (c := fget timeB REF_STAT.STATE s ≠ 2 ∧ refState (fget timeB REF_STAT.STATE s) s = 2)
    (hnote hsecond (.inr (.inl rfl))) hsecond
  exact (Only.ite (hnote hthird (.inr (.inr rfl))) hthird).fset (by decide) _

/-- A part of the state that both branches leave as it was. -/
theorem ite_same {α : Type} {p : State → α} {c : Prop} [Decidable c] {t u : State} {x : α} (ht : p t = x)
    (hu : p u = x) : p (if c then t else u) = x := by
  split <;> assumption

theorem refThresholds_time (s : State) : (refThresholds s).time = s.time := by
  have hnote (k : Nat) {u : State} (hu : u.time = s.time) : (timeNote k u).time = s.time := (note_time ..).trans hu
  have hfirst : (fset 0x40030000 LINK_GUARD.WIDENING (ofBool (refState (fget timeB REF_STAT.STATE s) s == 2))
    (fset timeB REF_STAT.STATE (refState (fget timeB REF_STAT.STATE s) s) s)).time = s.time := rfl
  have hsecond := ite_same (p := (·.time)) (c := fget timeB REF_STAT.STATE s = 0 ∧
    1 ≤ refState (fget timeB REF_STAT.STATE s) s) (hnote 2 hfirst) hfirst
  have hthird := ite_same (p := (·.time)) (c := fget timeB REF_STAT.STATE s ≠ 2 ∧
    refState (fget timeB REF_STAT.STATE s) s = 2) (hnote 3 hsecond) hsecond
  exact ite_same (p := (·.time)) (hnote 4 hthird) hthird

theorem refLearn_only {s : State} (h : Registers.wf s = true) (elf e : Rat) :
    Only [(timeB, TIME_QUAL.LF_CAL), (timeB, REF_STAB.STAB), (timeB, REF_STAB.LF_OFS)] s (refLearn elf e s) :=
  ((((Only.refl h).timePut _).fset (by decide) _).fset (by decide) _).fset (by decide) _

/-- The interval's source is the discipline: LOCKED throughout. -/
def refLocked (s : State) : Bool := s.time.lockedAll && timeState s == 2

/-- What CK_LF alone gives for E. -/
def refByLf (n : Nat) : Rat := ((n : Rat) / 614400000 - 1) * 1000000

/-- The basis of an update (R395). -/
def refBasis (s : State) : Nat := if refLocked s then 3 else if fis timeB TIME_QUAL.LF_CAL s then 2 else 1

/-- E of an update (R395). -/
def refValue (n : Nat) (mean : Int) (s : State) : Rat :=
  if refLocked s then -(mean : Rat) / 1000000 else if refBasis s = 2 then refByLf n - s.time.lfOfs else refByLf n

/-- E is taken, and what a SOURCE update teaches. -/
def refTaken (n : Nat) (mean : Int) (s : State) : State :=
  let s1 := timePut { s.time with e := refValue n mean s, lockedAll := timeState s == 2 } s
  if refLocked s then refLearn (refByLf n) (refValue n mean s) s1 else s1

/-- REF_STAT of an update, before its thresholds, and the lantern's copy of the estimate. -/
def refShown (basis : Nat) (e : Rat) (s : State) : State :=
  fset 0x70030000 LG_E.BASIS basis (fsetS 0x70030000 LG_E.EST (refRounded e)
    (fnext timeB REF_STAT.UPD (fset timeB REF_STAT.BASIS basis (fsetS timeB REF_STAT.EST (refRounded e) s))))

theorem refUpdate_counts {s : State} (h : s.time.counts = true) (n : Nat) (mean : Int) :
    refUpdate n mean s = refThresholds (refShown (refBasis s) (refValue n mean s) (refTaken n mean s)) :=
  if_neg (by rw [h]; decide)

theorem refTaken_only {s : State} (h : Registers.wf s = true) (n : Nat) (mean : Int) :
    Only [(timeB, TIME_QUAL.LF_CAL), (timeB, REF_STAB.STAB), (timeB, REF_STAB.LF_OFS)] s (refTaken n mean s) := by
  have hput : Only [(timeB, TIME_QUAL.LF_CAL), (timeB, REF_STAB.STAB), (timeB, REF_STAB.LF_OFS)] s
    (timePut { s.time with e := refValue n mean s, lockedAll := timeState s == 2 } s) := (Only.refl h).timePut _
  exact .ite (hput.trans (refLearn_only hput.wf _ _)) hput

theorem refTaken_e (n : Nat) (mean : Int) (s : State) : (refTaken n mean s).time.e = refValue n mean s := by
  unfold refTaken
  split <;> rfl

/-- What an update shows in REF_STAT. -/
theorem refShown_shows {s : State} (h : Registers.wf s = true) {basis : Nat} (hb : basis < 4) (e : Rat) :
    fget timeB REF_STAT.UPD (refShown basis e s) = (fget timeB REF_STAT.UPD s + 1) % 256 ∧
      fget timeB REF_STAT.BASIS (refShown basis e s) = basis ∧
      fgetS timeB REF_STAT.EST (refShown basis e s) = refRounded e ∧ timeState (refShown basis e s) = timeState s ∧
      Registers.wf (refShown basis e s) = true := by
  let s1 := fsetS timeB REF_STAT.EST (refRounded e) s
  let s2 := fset timeB REF_STAT.BASIS basis s1
  let s3 := fnext timeB REF_STAT.UPD s2
  have h1 : Only [(timeB, REF_STAT.EST)] s s1 := .fset (.refl h) (by decide) _
  have h2 : Only [(timeB, REF_STAT.BASIS)] s1 s2 := .fset (.refl h1.wf) (by decide) _
  have h3 : Only [(timeB, REF_STAT.UPD)] s2 s3 := .fset (.refl h2.wf) (by decide) _
  have h4 : Only [(0x70030000, LG_E.EST), (0x70030000, LG_E.BASIS)] s3 (refShown basis e s) :=
    ((Only.refl h3.wf).fset (by decide) _).fset (by decide) _
  have hest : fgetS timeB REF_STAT.EST s1 = refRounded e := by
    have hrange : -32768 ≤ refRounded e ∧ refRounded e < 32768 := by
      unfold refRounded clampInt
      omega
    exact fgetS_fsetS h _ (by decide) hrange.1 hrange.2
  have hstate : timeState s3 = timeState s :=
    (h3.field (by decide)).trans ((h2.field (by decide)).trans (h1.field (by decide)))
  refine ⟨?_, ?_, ?_, (h4.field (by decide)).trans hstate, h4.wf⟩
  · rw [h4.field (by decide), show fget timeB REF_STAT.UPD s3 = _ from fget_fset_self h2.wf _ _ _ (by decide),
      h2.field (by decide), h1.field (by decide)]
    rfl
  · rw [h4.field (by decide), h3.field (by decide)]
    exact fget_fset_lt h1.wf _ hb (by decide)
  · rw [h4.fieldS (by decide), h3.fieldS (by decide), h2.fieldS (by decide), hest]

theorem refBasis_lt (s : State) : refBasis s < 4 := by
  unfold refBasis
  split
  · decide
  · split <;> decide

/-- An update: its count, its basis and its estimate. -/
theorem refUpdate_shows {s : State} (h : Registers.wf s = true) (hc : s.time.counts = true) (n : Nat) (mean : Int) :
    fget timeB REF_STAT.UPD (refUpdate n mean s) = (fget timeB REF_STAT.UPD s + 1) % 256 ∧
      fget timeB REF_STAT.BASIS (refUpdate n mean s) = refBasis s ∧ (refUpdate n mean s).time.e = refValue n mean s ∧
      fgetS timeB REF_STAT.EST (refUpdate n mean s) = refRounded (refUpdate n mean s).time.e ∧
      timeState (refUpdate n mean s) = timeState s := by
  have htaken := refTaken_only h n mean
  obtain ⟨hupd, hbasis, hest, hstate, hw⟩ := refShown_shows htaken.wf (refBasis_lt s) (refValue n mean s)
  have hthr := refThresholds_only hw
  have he : (refUpdate n mean s).time.e = refValue n mean s := by
    rw [refUpdate_counts hc, refThresholds_time]
    exact refTaken_e n mean s
  rw [he, refUpdate_counts hc]
  refine ⟨?_, ?_, rfl, ?_, ?_⟩
  · rw [hthr.field (by decide), hupd, htaken.field (by decide)]
  · rw [hthr.field (by decide), hbasis]
  · rw [hthr.fieldS (by decide), hest]
  · exact (hthr.field (by decide)).trans (hstate.trans (htaken.field (by decide)))

theorem refLocked_false {s : State} (h : timeState s ≠ 2) : refLocked s = false := by simp [refLocked, h]

/-- The thresholds of R397: WARN above 10 ppm, SUSPECT above 25 ppm, left at 9 and 24. -/
theorem refState_cases (was : Nat) (s : State) :
    (25 < s.time.e ∨ s.time.e < -25 → refState was s = 2) ∧
    (s.time.e ≤ 24 → -24 ≤ s.time.e → 10 < s.time.e ∨ s.time.e < -10 → refState was s = 1) ∧
    (s.time.e ≤ 9 → -9 ≤ s.time.e → refState was s = 0) ∧
    (9 < s.time.e → s.time.e ≤ 10 → refState was s = if was = 0 then 0 else 1) ∧
    (24 < s.time.e → s.time.e ≤ 25 → refState was s = if was = 2 then 2 else 1) := by
  have hbeyond (ppm : Nat) : refBeyond ppm s = true ↔ (ppm : Rat) < s.time.e ∨ s.time.e < -(ppm : Rat) := by
    simp [refBeyond]
  have h25 := hbeyond 25
  have h24 := hbeyond 24
  have h10 := hbeyond 10
  have h9 := hbeyond 9
  push_cast at h25 h24 h10 h9
  have hin {ppm : Nat} (hle : s.time.e ≤ ppm) (hge : -(ppm : Rat) ≤ s.time.e) : refBeyond ppm s = false := by
    rw [← Bool.not_eq_true, hbeyond]
    exact fun hc => hc.elim (not_lt.2 hle) (not_lt.2 hge)
  refine ⟨fun h => ?_, fun hle hge h => ?_, fun hle hge => ?_, fun hlt hle => ?_, fun hlt hle => ?_⟩
  · exact if_pos (.inl (h25.2 h))
  · have hno25 : refBeyond 25 s = false := hin (by push_cast; linarith) (by push_cast; linarith)
    have hno24 : refBeyond 24 s = false := hin (by push_cast; linarith) (by push_cast; linarith)
    simp [refState, hno25, hno24, h10.2 h]
  · have hno25 : refBeyond 25 s = false := hin (by push_cast; linarith) (by push_cast; linarith)
    have hno24 : refBeyond 24 s = false := hin (by push_cast; linarith) (by push_cast; linarith)
    have hno10 : refBeyond 10 s = false := hin (by push_cast; linarith) (by push_cast; linarith)
    have hno9 : refBeyond 9 s = false := hin (by push_cast; linarith) (by push_cast; linarith)
    simp [refState, hno25, hno24, hno10, hno9]
  · have hno25 : refBeyond 25 s = false := hin (by push_cast; linarith) (by push_cast; linarith)
    have hno24 : refBeyond 24 s = false := hin (by push_cast; linarith) (by push_cast; linarith)
    have hno10 : refBeyond 10 s = false := hin (by push_cast; linarith) (by push_cast; linarith)
    by_cases hwas : was = 0
    · simp [refState, hno25, hno24, hno10, hwas]
    · simp [refState, hno25, hno24, hno10, hwas, h9.2 (.inl hlt)]
  · have hno25 : refBeyond 25 s = false := hin (by push_cast; linarith) (by push_cast; linarith)
    have hyes10 : refBeyond 10 s = true := h10.2 (.inl (by linarith))
    by_cases hwas : was = 2
    · simp [refState, hwas, h24.2 (.inl hlt)]
    · simp [refState, hno25, hwas, hyes10]

/-- CK_REF runs again: a new series of intervals begins while PD31 is on. -/
theorem exec_ckRefRunning_shows {s : State} (h : Registers.wf s = true) :
    ∃ t, exec .ckRefRunning s = .next t ∧ fis (feB .a) FE_STAT.XREF_RUN t = true ∧
      fis (feB .b) FE_STAT.XREF_RUN t = true ∧ t.time.counts = (s.time.counts || pdOn 31 s) := by
  let s0 := fset (feB .a) FE_STAT.XREF_RUN 1 s
  let s1 := fset (feB .b) FE_STAT.XREF_RUN 1 s0
  have h0 : Only [(feB .a, FE_STAT.XREF_RUN)] s s0 := .fset (.refl h) (by decide) _
  have h1 : Only [(feB .b, FE_STAT.XREF_RUN)] s0 s1 := .fset (.refl h0.wf) (by decide) _
  have ha : fis (feB .a) FE_STAT.XREF_RUN s1 = true := by
    rw [h1.flag (by decide)]
    exact fis_fset_one h _ (by decide)
  have hb : fis (feB .b) FE_STAT.XREF_RUN s1 = true := fis_fset_one h0.wf _ (by decide)
  have hpd : pdOn 31 s1 = pdOn 31 s := by rw [pdOn, h1.rd (by decide), h0.rd (by decide), pdOn]
  refine ⟨_, rfl, ?_⟩
  change fis _ _ (if pdOn 31 s1 then refStart s1 else s1) = true ∧ fis _ _ (if pdOn 31 s1 then refStart s1 else s1) = true ∧
    (if pdOn 31 s1 then refStart s1 else s1).time.counts = _
  rw [hpd]
  by_cases hon : pdOn 31 s = true
  · rw [if_pos hon]
    exact ⟨ha, hb, by rw [hon, Bool.or_true]; rfl⟩
  · rw [if_neg hon]
    exact ⟨ha, hb, by rw [Bool.eq_false_iff.2 hon, Bool.or_false]; rfl⟩

/-! ### The interval meter (R401, R402) -/

theorem exec_imArm_admits {i : Init} {s : State} (h : Admits i 0x40050084 .store s) (data : Word) (now : Word64) :
    exec (.imArm i data now) s = .next (acknowledge (imCmd (data ||| 1#32) now.toNat s)) :=
  congrArg Host.Outcome.next (doorStore_admits h)

theorem exec_imCancel_admits {i : Init} {s : State} (h : Admits i 0x40050084 .store s) (data : Word) (now : Word64) :
    exec (.imCancel i data now) s = .next (acknowledge (imCmd (data ||| 2#32) now.toNat s)) :=
  congrArg Host.Outcome.next (doorStore_admits h)

theorem imCmd_refused {data : Word} {s : State}
    (h : bitsOf data 16 16 ≠ 0x494D ∨ (bitOf data 0 = true ∧ bitOf data 1 = true)) (now : Nat) :
    imCmd data now s = timeErrf TIME_ERRF.CMD s :=
  if_pos (h.imp_right fun hb => Bool.and_eq_true_iff.2 hb)

/-- The window that ARM opens at air tick `now`. -/
def imOpened (now : Nat) (s : State) : ImWindow := { last := (now + fget timeB IM_CFG.WINDOW s * 76800) * 20 + 19 }

theorem imCmd_arms {data : Word} {s : State} (hk : bitsOf data 16 16 = 0x494D) (ha : bitOf data 0 = true)
    (hc : bitOf data 1 = false) (now : Nat) :
    imCmd data now s = fset timeB IM_STAT.DONE 0 (fset timeB IM_STAT.ARMED 1
      (timePut { s.time with im := some (imOpened now s) } s)) := by
  rw [imCmd, if_neg (by simp [hk, hc]), if_pos ha]
  rfl

theorem imCmd_cancels {data : Word} {s : State} (hk : bitsOf data 16 16 = 0x494D) (ha : bitOf data 0 = false)
    (hc : bitOf data 1 = true) (now : Nat) :
    imCmd data now s = fset timeB IM_STAT.ARMED 0 (timePut { s.time with im := none } s) := by
  rw [imCmd, if_neg (by simp [hk, ha]), if_neg (by simp [ha]), if_pos hc]

theorem imCmd_arms_shows {s : State} (h : Registers.wf s = true) (v : TimeState) :
    let t := fset timeB IM_STAT.DONE 0 (fset timeB IM_STAT.ARMED 1 (timePut v s))
    t.time = v ∧ fis timeB IM_STAT.ARMED t = true ∧ fis timeB IM_STAT.DONE t = false ∧
      rd64 0x4005008C t = rd64 0x4005008C s := by
  have hput : Only [(timeB, IM_STAT.ARMED)] s (fset timeB IM_STAT.ARMED 1 (timePut v s)) :=
    ((Only.refl h).timePut v).fset (by decide) _
  have hdone : Only [(timeB, IM_STAT.DONE)] (fset timeB IM_STAT.ARMED 1 (timePut v s))
    (fset timeB IM_STAT.DONE 0 (fset timeB IM_STAT.ARMED 1 (timePut v s))) := .fset (.refl hput.wf) (by decide) _
  refine ⟨rfl, ?_, fis_fset_zero hput.wf _ (by decide), ?_⟩
  · rw [hdone.flag (by decide), fis_fset_one ((Registers.wf_timePut v s).trans h) _ (by decide)]
  · rw [hdone.rd64 (by decide), hput.rd64 (by decide)]

/-- What an edge that matches the start, the stop or both leaves captured. -/
def imTake (isStart isStop : Bool) (at_ : Nat) (w : ImWindow) : ImWindow :=
  if isStart && isStop then
    if w.start.isNone then { w with start := some at_ } else { w with stop := some at_ }
  else if isStart && w.start.isNone then { w with start := some at_ }
  else if isStop && w.stop.isNone then { w with stop := some at_ }
  else w

theorem imTake_start {isStop : Bool} {w : ImWindow} (h : w.start = none) (at_ : Nat) :
    imTake true isStop at_ w = { w with start := some at_ } := by
  cases isStop <;> simp [imTake, h]

theorem imTake_stop {isStart : Bool} {w : ImWindow} (h : isStart = false ∨ w.start.isNone = false)
    (hb : w.stop = none) (at_ : Nat) : imTake isStart true at_ w = { w with stop := some at_ } := by
  rcases h with rfl | h
  · simp [imTake, hb]
  · cases isStart <;> simp [imTake, h, hb]

/-- A window that has captured both closes, and another stays open. -/
def imKept (w : ImWindow) (s : State) : State :=
  if w.start.isSome && w.stop.isSome then imClose w s else timePut { s.time with im := some w } s

/-- The edge is the one that IM_CFG names at bit `lo`. -/
def imNamed (lo src : Nat) (falling : Bool) (s : State) : Bool :=
  src == bitsOf (rd (timeB + 0x80) s) lo 7 && falling == bitOf (rd (timeB + 0x80) s) (lo + 7)

theorem imNamed_iff {lo src : Nat} {falling : Bool} {s : State} : imNamed lo src falling s = true ↔
    src = bitsOf (rd 0x40050080 s) lo 7 ∧ falling = bitOf (rd 0x40050080 s) (lo + 7) := by
  rw [imNamed, Bool.and_eq_true, beq_iff_eq, beq_iff_eq]
  rfl

theorem imEdge_closed {s : State} (h : s.time.im = none) (src : Nat) (falling : Bool) (at_ : Nat) :
    imEdge src falling at_ s = s := by
  rw [imEdge, h]

/-- An edge in an open window. -/
theorem imEdge_open {s : State} {w : ImWindow} (hw : s.time.im = some w) (src : Nat) (falling : Bool) (at_ : Nat) :
    imEdge src falling at_ s = if w.last < at_ then s
      else imKept (imTake (imNamed 0 src falling s) (imNamed 8 src falling s) at_ w) s := by
  unfold imEdge
  split
  · next h => exact absurd (h.symm.trans hw) (by simp)
  · next w' h =>
    obtain rfl : w' = w := Option.some.inj (h.symm.trans hw)
    rfl

theorem imKept_open {w : ImWindow} (h : w.start = none ∨ w.stop = none) (s : State) :
    imKept w s = timePut { s.time with im := some w } s :=
  if_neg (by rcases h with h | h <;> simp [h])

theorem imKept_closes {w : ImWindow} {a b : Nat} (ha : w.start = some a) (hb : w.stop = some b) (s : State) :
    imKept w s = imClose w s := if_pos (by simp [ha, hb])

/-- The difference of the captured edges (R402). -/
def imDifference (w : ImWindow) : Int :=
  match w.start, w.stop with
  | some a, some b => (b : Int) - (a : Int)
  | _, _ => 0

/-- Both edges within one unit. -/
def imNear (w : ImWindow) : Bool := w.start.isSome && w.stop.isSome && decide ((imDifference w).natAbs ≤ 1)

/-- The result that a closing window shows. -/
def imResult (w : ImWindow) : Int := if imNear w then 0 else imDifference w

/-- The instant that a closing window shows. -/
def imInstant (w : ImWindow) : Nat :=
  (match w.start with
    | some a => a
    | none => w.stop.getD 0) / 20

/-- IM_RES and IM_T0 of a closing window. -/
def imShown (w : ImWindow) (s : State) : State :=
  wr64 (timeB + 0x94) (BitVec.ofNat 64 (imInstant w))
    (wr64 (timeB + 0x8C) (BitVec.ofNat 64 (fieldOfInt 64 (imResult w))) (timePut { s.time with im := none } s))

/-- IM_STAT's findings of a closing window. -/
def imJudged (w : ImWindow) (s : State) : State :=
  fset timeB IM_STAT.NO_STOP (ofBool w.stop.isNone) (fset timeB IM_STAT.NO_START (ofBool w.start.isNone)
    (fset timeB IM_STAT.ORDER (ofBool (decide (imResult w < 0))) (fset timeB IM_STAT.NEAR (ofBool (imNear w)) s)))

theorem imClose_stages (w : ImWindow) (s : State) :
    imClose w s = raiseEvt 727 (fset timeB IM_STAT.DONE 1 (fset timeB IM_STAT.ARMED 0 (imJudged w (imShown w s)))) := rfl

theorem imShown_only {s : State} (h : Registers.wf s = true) (w : ImWindow) :
    Only [regAt (timeB + 0x8C), regAt (timeB + 0x90), regAt (timeB + 0x94), regAt (timeB + 0x98)] s (imShown w s) :=
  (((Only.refl h).timePut _).wr64 (by decide) (by decide) _).wr64 (by decide) (by decide) _

theorem imJudged_only {s : State} (h : Registers.wf s = true) (w : ImWindow) :
    Only [(timeB, IM_STAT.NO_STOP), (timeB, IM_STAT.NO_START), (timeB, IM_STAT.ORDER), (timeB, IM_STAT.NEAR)] s
      (imJudged w s) :=
  ((((Only.refl h).fset (by decide) _).fset (by decide) _).fset (by decide) _).fset (by decide) _

theorem imJudged_shows {s : State} (h : Registers.wf s = true) (w : ImWindow) :
    fis timeB IM_STAT.NO_STOP (imJudged w s) = w.stop.isNone ∧ fis timeB IM_STAT.NO_START (imJudged w s) = w.start.isNone ∧
      fis timeB IM_STAT.ORDER (imJudged w s) = decide (imResult w < 0) ∧ fis timeB IM_STAT.NEAR (imJudged w s) = imNear w := by
  have h1 := Registers.wf_fset h timeB IM_STAT.NEAR (ofBool (imNear w))
  have h2 := Registers.wf_fset h1 timeB IM_STAT.ORDER (ofBool (decide (imResult w < 0)))
  have h3 := Registers.wf_fset h2 timeB IM_STAT.NO_START (ofBool w.start.isNone)
  refine ⟨fis_fset_ofBool h3 _ (by decide) _, ?_, ?_, ?_⟩
  · rw [imJudged, fis_fset_of_apart h3 _ _ (by decide), fis_fset_ofBool h2 _ (by decide)]
  · rw [imJudged, fis_fset_of_apart h3 _ _ (by decide), fis_fset_of_apart h2 _ _ (by decide),
      fis_fset_ofBool h1 _ (by decide)]
  · rw [imJudged, fis_fset_of_apart h3 _ _ (by decide), fis_fset_of_apart h2 _ _ (by decide),
      fis_fset_of_apart h1 _ _ (by decide), fis_fset_ofBool h _ (by decide)]

/-- A closed window: its flags, its findings, its result and its instant. -/
theorem imClose_shows {s : State} (h : Registers.wf s = true) (w : ImWindow) :
    (imClose w s).time.im = none ∧ fis timeB IM_STAT.DONE (imClose w s) = true ∧
      fis timeB IM_STAT.ARMED (imClose w s) = false ∧ (imClose w s).rooms = (raiseEvt 727 s).rooms ∧
      fis timeB IM_STAT.NO_STOP (imClose w s) = w.stop.isNone ∧ fis timeB IM_STAT.NO_START (imClose w s) = w.start.isNone ∧
      fis timeB IM_STAT.ORDER (imClose w s) = decide (imResult w < 0) ∧ fis timeB IM_STAT.NEAR (imClose w s) = imNear w ∧
      rd64 0x4005008C (imClose w s) = BitVec.ofNat 64 (fieldOfInt 64 (imResult w)) ∧
      rd64 0x40050094 (imClose w s) = BitVec.ofNat 64 (imInstant w) := by
  have hshown := imShown_only h w
  have hjudged := imJudged_only hshown.wf w
  obtain ⟨hstop, hstart, horder, hnear⟩ := imJudged_shows hshown.wf w
  have harmed := Registers.wf_fset hjudged.wf timeB IM_STAT.ARMED 0
  have hdone : Only [(timeB, IM_STAT.ARMED), (timeB, IM_STAT.DONE)] (imJudged w (imShown w s)) (imClose w s) :=
    (((Only.refl hjudged.wf).fset (by decide) _).fset (by decide) _).raiseEvt _
  have hres : rd64 0x4005008C (imShown w s) = BitVec.ofNat 64 (fieldOfInt 64 (imResult w)) := by
    have hput : Only [regAt (timeB + 0x8C), regAt (timeB + 0x90)] s (wr64 (timeB + 0x8C)
        (BitVec.ofNat 64 (fieldOfInt 64 (imResult w))) (timePut { s.time with im := none } s)) :=
      ((Only.refl h).timePut _).wr64 (by decide) (by decide) _
    have hlast : Only [regAt (timeB + 0x94), regAt (timeB + 0x98)] (wr64 (timeB + 0x8C)
        (BitVec.ofNat 64 (fieldOfInt 64 (imResult w))) (timePut { s.time with im := none } s)) (imShown w s) :=
      .wr64 (.refl hput.wf) (by decide) (by decide) _
    rw [hlast.rd64 (by decide)]
    exact rd64_wr64_self ((Registers.wf_timePut _ s).trans h) _ _
  have hinstant : rd64 0x40050094 (imShown w s) = BitVec.ofNat 64 (imInstant w) :=
    rd64_wr64_self (((Only.refl h).timePut _).wr64 (l := [regAt (timeB + 0x8C), regAt (timeB + 0x90)]) (by decide)
      (by decide) _).wf _ _
  refine ⟨?_, ?_, ?_, ?_, ?_, ?_, ?_, ?_, ?_, ?_⟩
  · rw [imClose_stages, raiseEvt_time]
    rfl
  · rw [imClose_stages, fis_raiseEvt, fis_fset_one harmed _ (by decide)]
  · rw [imClose_stages, fis_raiseEvt, fis_fset_of_apart harmed _ _ (by decide), fis_fset_zero hjudged.wf _ (by decide)]
  · rw [imClose_stages]
    refine raiseEvt_rooms_congr rfl ?_
    have hroute : Only [(timeB, IM_STAT.ARMED), (timeB, IM_STAT.DONE)] (imJudged w (imShown w s))
        (fset timeB IM_STAT.DONE 1 (fset timeB IM_STAT.ARMED 0 (imJudged w (imShown w s)))) :=
      ((Only.refl hjudged.wf).fset (by decide) _).fset (by decide) _
    rw [evtRoute, hroute.rd (by decide), hjudged.rd (by decide), hshown.rd (by decide), evtRoute]
  · rw [hdone.flag (by decide), hstop]
  · rw [hdone.flag (by decide), hstart]
  · rw [hdone.flag (by decide), horder]
  · rw [hdone.flag (by decide), hnear]
  · rw [hdone.rd64 (by decide), hjudged.rd64 (by decide), hres]
  · rw [hdone.rd64 (by decide), hjudged.rd64 (by decide), hinstant]

/-- The difference of two captured edges. -/
theorem imResult_both {w : ImWindow} {a b : Nat} (ha : w.start = some a) (hb : w.stop = some b) :
    imResult w = (if ((b : Int) - a).natAbs ≤ 1 then 0 else (b : Int) - a) ∧
      imNear w = decide (((b : Int) - a).natAbs ≤ 1) ∧ decide (imResult w < 0) = decide ((b : Int) - a < -1) ∧
      imInstant w = a / 20 := by
  have hd : imDifference w = (b : Int) - a := by rw [imDifference, ha, hb]
  have hnear : imNear w = decide (((b : Int) - a).natAbs ≤ 1) := by rw [imNear, ha, hb, hd]; rfl
  have hres : imResult w = if ((b : Int) - a).natAbs ≤ 1 then 0 else (b : Int) - a := by
    simp only [imResult, hnear, hd, decide_eq_true_eq]
  refine ⟨hres, hnear, ?_, by rw [imInstant, ha]⟩
  rw [hres, decide_eq_decide]
  split <;> omega

/-- A number of 64 bits comes back from its two's complement. -/
theorem toInt_ofNat_fieldOfInt {i : Int} (hlo : -(2 ^ 63) ≤ i) (hhi : i < 2 ^ 63) :
    (BitVec.ofNat 64 (fieldOfInt 64 i)).toInt = i := by
  have hlt := fieldOfInt_lt 64 i
  have hsigned := signedOf_fieldOfInt (w := 64) (by decide) (i := i) (by simpa using hlo) (by simpa using hhi)
  rw [BitVec.toInt_eq_toNat_cond, BitVec.toNat_ofNat, Nat.mod_eq_of_lt hlt]
  simp only [signedOf] at hsigned
  omega

/-- Settles O30: a whole second by its stages (R389, R392–R394), an update of the estimate by its basis and thresholds
(R395–R397), and the interval meter by its window and what is captured (R401, R402). -/
theorem secondsReferenceAndIntervals : Obligations.SecondsReferenceAndIntervals := by
  refine ⟨⟨fun sec tick f10 s h => ?_, fun sec tick f10 s haway hpd => ?_, fun sec d s hd h => secStep_takes h hd sec,
    fun tick s hen hmin => ⟨fun p hp hhi hlo => secPulse_suppressed hen hmin hp hlo hhi, secPulse_begins hen hmin⟩,
    fun tick s h => secPulse_none h tick, fun s e0 he hstate hsrc h => secQuality_shows h he hstate hsrc, fun s => rfl⟩,
    ⟨fun n mean s hc => ?_, fun n mean s hc h => ⟨_, rfl, ?_⟩, refState_cases, fun s h => exec_ckRefRunning_shows h⟩,
    fun i data now s ha => ?_, fun src falling at_ s him => ⟨?_, ?_⟩, fun src falling at_ s w hw => ?_, fun w s h => ?_⟩
  · exact congrArg Host.Outcome.next (if_pos h)
  · exact congrArg Host.Outcome.next (if_neg (by simp [haway, hpd]))
  · exact congrArg Host.Outcome.next (if_pos hc)
  · obtain ⟨hupd, hbasis, he, hest, hstate⟩ := refUpdate_shows h hc n.toNat mean
    refine ⟨hupd, fun hall hlocked => ?_, fun hunlocked hcal => ?_, fun hunlocked hcal => ?_, hest, hstate⟩
    · have hsrc : refLocked s = true := by simp [refLocked, hall, hlocked]
      exact ⟨hbasis.trans (if_pos hsrc), he.trans (if_pos hsrc)⟩
    · have hb : refBasis s = 2 := by simp [refBasis, refLocked_false hunlocked, hcal]
      exact ⟨hbasis.trans hb, he.trans (by simp [refValue, refLocked_false hunlocked, hb, refByLf])⟩
    · have hb : refBasis s = 1 := by simp [refBasis, refLocked_false hunlocked, hcal]
      exact ⟨hbasis.trans hb, he.trans (by simp [refValue, refLocked_false hunlocked, hb, refByLf])⟩
  · obtain ⟨⟨hka, ha0, ha1⟩, hkc, hc1, hc0⟩ := commandBits data
    rw [exec_imArm_admits ha, exec_imCancel_admits ha]
    refine ⟨fun hc => ?_, fun hc => ?_, fun hk harm h => ⟨_, rfl, ?_⟩, fun hk harm hcancel h => ⟨_, rfl, ?_⟩⟩
    · rw [imCmd_refused (hc.imp (fun hk => by rwa [hka]) fun hb => ⟨ha0, ha1.trans hb⟩)]
    · rw [imCmd_refused (hc.imp (fun hk => by rwa [hkc]) fun hb => ⟨hc0.trans hb, hc1⟩)]
    · rw [imCmd_arms (hka.trans hk) ha0 (ha1.trans harm)]
      obtain ⟨htime, harmed, hdone, hres⟩ :=
        imCmd_arms_shows h { s.time with im := some (imOpened now.toNat s) }
      exact ⟨congrArg TimeState.im htime, harmed, hdone, hres⟩
    · rw [imCmd_cancels (hkc.trans hk) (hc0.trans harm) hc1]
      have hput : Registers.wf (timePut { s.time with im := none } s) = true := h
      exact ⟨rfl, fis_fset_zero hput _ (by decide), fis_fset_of_apart hput _ _ (by decide), rfl⟩
  · exact congrArg Host.Outcome.next (imEdge_closed him _ _ _)
  · change Host.Outcome.next (match s.time.im with | some w => imClose w s | none => s) = _
    rw [him]
  · have hexpire : exec .imWindowExpire s = .next (imClose w s) := by
      change Host.Outcome.next (match s.time.im with | some w => imClose w s | none => s) = _
      rw [hw]
    have hedge (hle : at_.toNat ≤ w.last) : exec (.imEdge src falling at_) s = .next (imKept (imTake
        (imNamed 0 src.toNat falling s) (imNamed 8 src.toNat falling s) at_.toNat w) s) :=
      congrArg Host.Outcome.next ((imEdge_open hw _ _ _).trans (if_neg (Nat.not_lt.2 hle)))
    refine ⟨hexpire, fun hlt => congrArg Host.Outcome.next ((imEdge_open hw _ _ _).trans (if_pos hlt)),
      fun hle hstart ha hb => ?_, fun hle hstart hstop ha hb => ?_, fun a hle hstop ha hb => ?_,
      fun b hle hstart ha hb hstop => ?_⟩
    · rw [hedge hle, imNamed_iff.2 hstart, imTake_start ha]
      exact congrArg _ (imKept_open (w := { w with start := some at_.toNat }) (.inr hb) s)
    · rw [hedge hle, Bool.eq_false_iff.2 (mt imNamed_iff.1 hstart), imNamed_iff.2 hstop, imTake_stop (.inl rfl) hb]
      exact congrArg _ (imKept_open (w := { w with stop := some at_.toNat }) (.inl ha) s)
    · rw [hedge hle, imNamed_iff.2 hstop, imTake_stop (.inr (by simp [ha])) hb]
      exact congrArg _ (imKept_closes (w := { w with stop := some at_.toNat }) ha rfl s)
    · rw [hedge hle, imNamed_iff.2 hstart, imTake_start ha]
      exact congrArg _ (imKept_closes (w := { w with start := some at_.toNat }) rfl hb s)
  · obtain ⟨him, hdone, harmed, hrooms, hstop, hstart, horder, hnear, hres, hinstant⟩ := imClose_shows h w
    refine ⟨him, hdone, harmed, hrooms, hstop, hstart, fun a b ha hb hla hlb => ?_⟩
    obtain ⟨hvalue, hclose, hneg, hat⟩ := imResult_both ha hb
    have hrange : -(2 ^ 63) ≤ imResult w ∧ imResult w < 2 ^ 63 := by
      rw [hvalue]
      split <;> omega
    refine ⟨?_, hnear.trans hclose, horder.trans hneg, ?_⟩
    · rw [hres, toInt_ofNat_fieldOfInt hrange.1 hrange.2, hvalue]
    · rw [hinstant, hat, BitVec.toNat_ofNat]
      omega

end Sys2Proof.Machine

namespace Sys2Proof.Tests

open Sys2Proof.Machine

set_option maxRecDepth 100000

/-- A pending step; a pulse that is too early and one that is not; an error that grows; an update on each basis; an
open window with nothing, the start or the stop captured, and IM_CFG that names an edge as start and another as stop. -/
theorem test_hyps_secondsReferenceAndIntervals :
    ((keepingTime 0 0 0 { away := true }).time.away = true ∧ pdOn 31 roomZeroOpen = true ∧
      (keepingTime 0 0 0 { step := some 7 }).time.step = some 7 ∧ Registers.wf (keepingTime 0 0 0 {}) = true) ∧
    (fis timeB Reg.TIME_PPS.OUT_EN (keepingTime 0 0x11 1 { lastPulse := some 3 }) = true ∧
      fget timeB Reg.TIME_PPS.OUT_MIN (keepingTime 0 0x11 1 {}) ≤ timeState (keepingTime 0 0x11 1 {}) ∧
      timeState (keepingTime 0 0x11 0 {}) < fget timeB Reg.TIME_PPS.OUT_MIN (keepingTime 0 0x11 0 {})) ∧
    ((keepingTime 0 0 1 { err0 := some 9 }).time.err0 = some 9 ∧ timeState (keepingTime 0 0 1 {}) ≠ 2 ∧
      timeSource (keepingTime 0 0 1 {}) = 0) ∧
    (timeState (keepingTime 0 0 2 { lockedAll := true }) = 2 ∧
      fis timeB Reg.TIME_QUAL.LF_CAL (keepingTime 0 0 0x401 {}) = true ∧
      fis timeB Reg.TIME_QUAL.LF_CAL (keepingTime 0 0 1 {}) = false) ∧
    (Admits .steward 0x40050084 .store roomZeroOpen ∧ bitsOf (0x494D0001 : Word) 16 16 = 0x494D) ∧
    (let w : ImWindow := { last := 100, start := some 3 }
     (keepingTime 0 0 0 { im := some w }).time.im = some w ∧
       imNamed 0 5 false (regs [(0x40050080, 0x0605)] roomZeroOpen) = true ∧
       imNamed 8 6 false (regs [(0x40050080, 0x0605)] roomZeroOpen) = true) := by
  refine ⟨?_, ?_, ?_, ?_, ?_, ?_⟩
  all_goals decide

end Sys2Proof.Tests
end

section
/-!
SUPPORT. The frame of the commands of timers, pigeonholes, supply samples, host port, serial interfaces and pins: an
over-range sample while the hall is down owes its event to RUN, in the power state (R604, R620).
-/

namespace Sys2Proof.Machine

open Reg

/-- SHUTTER: the hall is off, the supply watch is powered and its channel 0 is enabled. -/
def watchedShutter : State :=
  wr 0x400F0030 0xFFFF (fset supB SUP_CTRL.EN 1
    { State.reset with pow := { State.reset.pow with hall := .off, mode := 3 } })

/-- While the hall is down an over-range sample's note is owed. -/
theorem owed_overRange : (supOverRange 0 false watchedShutter).pow.owed = [(supB + 0x24, 4, 860)] := by decide

/-- Refutes O60: SUP_OVER_RANGE while the hall is off adds to what the power state owes at RUN. -/
theorem not_registerFrames : ¬ Obligations.RegisterFrames := by
  intro h
  obtain ⟨-, -, -, -, -, -, -, -, hpow⟩ := h .steward 0 0 0 0 0 0 0 0 0 0 0 false false false [] watchedShutter _ (0x4010, .supOverRange 0 false)
    (by simp) (by decide) rfl
  have howed := congrArg PowState.owed (a₁ := (supOverRange 0 false watchedShutter).pow) hpow
  rw [owed_overRange] at howed
  exact absurd howed (by decide)

end Sys2Proof.Machine
end

section
/-!
SUPPORT. The Gregorian calendar from 2000 to 2199 (R420, R421): each day number lies in one month of one year, which the
year and the month that a second shows are.
-/

namespace Sys2Proof.Machine

open Reg

/-! ### Years and months by their days -/

/-- The days before a year. -/
def yearStart (y : Nat) : Nat := ((List.range y).map yearDays).foldl (· + ·) 0

/-- The days of a year before a month of it. -/
def monthStart (y m : Nat) : Nat := ((List.range (m - 1)).map fun k => monthDays y (k + 1)).foldl (· + ·) 0

theorem daysBefore_eq (y m : Nat) : daysBefore y m = yearStart y + monthStart y m := rfl

theorem foldl_range_succ (f : Nat → Nat) (n : Nat) :
    ((List.range (n + 1)).map f).foldl (· + ·) 0 = ((List.range n).map f).foldl (· + ·) 0 + f n := by
  rw [List.range_succ, List.map_append, List.foldl_append]
  rfl

theorem yearStart_succ (y : Nat) : yearStart (y + 1) = yearStart y + yearDays y := foldl_range_succ yearDays y

theorem monthStart_one (y : Nat) : monthStart y 1 = 0 := rfl

theorem monthStart_succ {m : Nat} (h : 1 ≤ m) (y : Nat) : monthStart y (m + 1) = monthStart y m + monthDays y m := by
  obtain ⟨k, rfl⟩ := Nat.exists_eq_add_of_le' h
  exact foldl_range_succ (fun k => monthDays y (k + 1)) k

theorem yearDays_cases (y : Nat) : yearDays y = 365 ∨ yearDays y = 366 := by
  unfold yearDays
  split
  · exact .inr rfl
  · exact .inl rfl

/-- The months of a year make the year. -/
theorem monthStart_year (y : Nat) : monthStart y 13 = yearDays y := by
  rcases yearDays_cases y with h | h <;> simp [monthStart, List.range_succ, monthDays, h]

theorem monthDays_pos (y m : Nat) : 28 ≤ monthDays y m := by
  unfold monthDays
  rcases yearDays_cases y with h | h <;> split_ifs <;> omega

theorem monthStart_mono (y : Nat) {m n : Nat} (hm : 1 ≤ m) (h : m ≤ n) : monthStart y m ≤ monthStart y n := by
  induction n, h using Nat.le_induction with
  | base => exact Nat.le_refl _
  | succ n hn ih => rw [monthStart_succ (by omega)]; omega

theorem yearStart_mono {y z : Nat} (h : y ≤ z) : yearStart y ≤ yearStart z := by
  induction z, h using Nat.le_induction with
  | base => exact Nat.le_refl _
  | succ z _ ih => rw [yearStart_succ]; omega

set_option maxRecDepth 4000 in
/-- The days of 2000 to 2199. -/
theorem yearStart_last : yearStart 200 = 73049 := by decide

/-! ### The year and the month of a day -/

/-- How many starts a day has reached: the starts up to `k` and no later one. -/
theorem length_filter_starts {f : Nat → Nat} {d k n : Nat} (hk : k ≤ n) (hle : ∀ x < k, f x ≤ d)
    (hgt : ∀ x, k ≤ x → x < n → d < f x) : ((List.range n).filter fun x => decide (f x ≤ d)).length = k := by
  induction n, hk using Nat.le_induction with
  | base =>
    rw [List.filter_eq_self.2 fun x hx => decide_eq_true (hle x (List.mem_range.1 hx)), List.length_range]
  | succ n hn ih =>
    have hlast : decide (f n ≤ d) = false := decide_eq_false (Nat.not_le.2 (hgt n hn (Nat.lt_succ_self n)))
    rw [List.range_succ, List.filter_append, List.length_append, ih fun x hx hlt => hgt x hx (by omega)]
    simp [hlast]

/-- A day number lies in a month of a year. -/
structure DayIn (d y m : Nat) : Prop where
  year : y < 200
  first : 1 ≤ m
  last : m ≤ 12
  from_ : daysBefore y m ≤ d
  before : d < daysBefore y m + monthDays y m

theorem DayIn.yearBounds {d y m : Nat} (h : DayIn d y m) : yearStart y ≤ d ∧ d < yearStart (y + 1) := by
  obtain ⟨-, hfirst, hlast, hfrom, hbefore⟩ := h
  rw [daysBefore_eq] at hfrom hbefore
  have hmono := monthStart_mono y (show 1 ≤ m + 1 by omega) (show m + 1 ≤ 13 by omega)
  rw [monthStart_year, monthStart_succ hfirst] at hmono
  rw [yearStart_succ]
  omega

theorem DayIn.dayYear {d y m : Nat} (h : DayIn d y m) : dayYear d = y := by
  obtain ⟨hlo, hhi⟩ := h.yearBounds
  have hlen : ((List.range 200).filter fun y => decide (daysBefore y 1 ≤ d)).length = y + 1 := by
    refine length_filter_starts h.year (fun x hx => ?_) fun x hx _ => ?_
    · exact Nat.le_trans (yearStart_mono (Nat.lt_succ_iff.1 hx)) hlo
    · exact Nat.lt_of_lt_of_le hhi (yearStart_mono hx)
  rw [Machine.dayYear, hlen, Nat.add_sub_cancel]

theorem DayIn.dayMonth {d y m : Nat} (h : DayIn d y m) : dayMonth y d = m := by
  obtain ⟨-, hfirst, hlast, hfrom, hbefore⟩ := h
  rw [daysBefore_eq] at hfrom hbefore
  refine length_filter_starts hlast (fun x hx => ?_) fun x hx _ => ?_
  · have := monthStart_mono y (show 1 ≤ x + 1 by omega) (show x + 1 ≤ m by omega)
    rw [daysBefore_eq]
    omega
  · have := monthStart_mono y (show 1 ≤ m + 1 by omega) (show m + 1 ≤ x + 1 by omega)
    rw [monthStart_succ hfirst] at this
    rw [daysBefore_eq]
    omega

/-- A number between the first start and the last lies between two that follow. -/
theorem exists_between_starts {f : Nat → Nat} {a d : Nat} (n : Nat) (hlo : f a ≤ d) (hhi : d < f (a + n)) :
    ∃ x, a ≤ x ∧ x < a + n ∧ f x ≤ d ∧ d < f (x + 1) := by
  induction n with
  | zero => exact absurd hhi (Nat.not_lt.2 hlo)
  | succ n ih =>
    rcases Nat.lt_or_ge d (f (a + n)) with h | h
    · obtain ⟨x, hax, hxn, hx⟩ := ih h
      exact ⟨x, hax, by omega, hx⟩
    · exact ⟨a + n, by omega, by omega, h, hhi⟩

theorem exists_dayIn {d : Nat} (h : d < 73049) : ∃ y m, DayIn d y m := by
  obtain ⟨y, -, hy, hlo, hhi⟩ := exists_between_starts (f := yearStart) (a := 0) 200 (Nat.zero_le d)
    (by rw [Nat.zero_add, yearStart_last]; exact h)
  obtain ⟨m, hfirst, hlast, hfrom, hbefore⟩ := exists_between_starts (f := daysBefore y) (a := 1) (d := d) 12
    (by rw [daysBefore_eq, monthStart_one]; exact hlo)
    (by rw [daysBefore_eq, monthStart_year, ← yearStart_succ]; exact hhi)
  refine ⟨y, m, by omega, hfirst, by omega, hfrom, ?_⟩
  rw [daysBefore_eq, monthStart_succ hfirst] at hbefore
  rw [daysBefore_eq]
  omega

/-! ### The fields of a second -/

theorem CalTime.real_iff {c : CalTime} : c.real = true ↔ c.year ≤ 199 ∧ 1 ≤ c.month ∧ c.month ≤ 12 ∧ 1 ≤ c.day ∧
    c.day ≤ monthDays c.year c.month ∧ c.hour ≤ 23 ∧ c.min ≤ 59 ∧ c.sec ≤ 59 := decide_eq_true_iff

/-- The day of a real date lies in its month. -/
theorem CalTime.dayIn {c : CalTime} (h : c.real = true) : DayIn (daysBefore c.year c.month + c.day - 1) c.year c.month := by
  obtain ⟨hyear, hfirst, hlast, hday, hdays, -⟩ := real_iff.1 h
  exact ⟨by omega, hfirst, hlast, by omega, by omega⟩

/-- The day and the second of the day of a real date and time. -/
theorem CalTime.seconds_split {c : CalTime} (h : c.real = true) :
    c.seconds / 86400 = daysBefore c.year c.month + c.day - 1 ∧
      c.seconds % 86400 = c.hour * 3600 + c.min * 60 + c.sec := by
  obtain ⟨-, -, -, -, -, hhour, hmin, hsec⟩ := real_iff.1 h
  unfold seconds
  omega

theorem calFields_seconds {c : CalTime} (h : c.real = true) : calFields c.seconds = c := by
  obtain ⟨hday, hrest⟩ := CalTime.seconds_split h
  have hin := CalTime.dayIn h
  obtain ⟨-, -, -, hfirst, -, hhour, hmin, hsec⟩ := CalTime.real_iff.1 h
  obtain ⟨y, m, d, hh, mm, ss⟩ := c
  dsimp only at hday hrest hin hfirst hhour hmin hsec
  simp only [calFields, hday, hrest, hin.dayYear, hin.dayMonth, CalTime.mk.injEq, true_and]
  omega

theorem seconds_le_calLast {c : CalTime} (h : c.real = true) : c.seconds ≤ calLast := by
  obtain ⟨hday, hrest⟩ := CalTime.seconds_split h
  have hin := CalTime.dayIn h
  have hlast := Nat.lt_of_lt_of_le hin.yearBounds.2 (yearStart_mono (show c.year + 1 ≤ 200 from hin.year))
  rw [yearStart_last] at hlast
  unfold calLast
  omega

/-- The fields of a second up to the last. -/
theorem calFields_real {t : Nat} (h : t ≤ calLast) : (calFields t).real = true ∧ (calFields t).seconds = t := by
  obtain ⟨y, m, hin⟩ := exists_dayIn (d := t / 86400) (by unfold calLast at h; omega)
  have hyear := hin.year
  have hfrom := hin.from_
  have hbefore := hin.before
  have hfields : calFields t = ⟨y, m, t / 86400 - daysBefore y m + 1, t % 86400 / 3600, t % 86400 / 60 % 60, t % 86400 % 60⟩ := by
    simp only [calFields, hin.dayYear, hin.dayMonth]
  rw [hfields]
  refine ⟨CalTime.real_iff.2 ⟨Nat.le_of_lt_succ hyear, hin.first, hin.last, Nat.succ_pos _, ?_, ?_, ?_, ?_⟩, ?_⟩
  · show t / 86400 - daysBefore y m + 1 ≤ monthDays y m
    omega
  · show t % 86400 / 3600 ≤ 23
    omega
  · show t % 86400 / 60 % 60 ≤ 59
    omega
  · show t % 86400 % 60 ≤ 59
    omega
  · show (daysBefore y m + (t / 86400 - daysBefore y m + 1) - 1) * 86400 + t % 86400 / 3600 * 3600 +
      t % 86400 / 60 % 60 * 60 + t % 86400 % 60 = t
    omega

/-- Settles O33: each second lies in one day of one month, so fields and seconds give each other back (R420, R421). -/
theorem calendarFields : Obligations.CalendarFields := by
  refine ⟨fun c h => ⟨calFields_seconds h, seconds_le_calLast h⟩, fun t h => calFields_real h, rfl, rfl, rfl, rfl,
    fun t => ?_⟩
  unfold calWday
  omega

end Sys2Proof.Machine

namespace Sys2Proof.Tests

open Sys2Proof.Machine

set_option maxRecDepth 100000

/-- The leap day of 2000, and the last second of 2199. -/
theorem test_hyps_calendarFields :
    (CalTime.mk 0 2 29 23 59 59).real = true ∧ (CalTime.mk 199 12 31 23 59 59).seconds = calLast := by decide

end Sys2Proof.Tests
end

section
/-!
SUPPORT. Timers (R408–R416, R434): a timer's quantities and flags as each operation leaves them, a tick edge by its
stages, and the writes of a timer page by their cases.
-/

namespace Sys2Proof.Machine

open Reg

/-! ### A timer's quantities and flags -/

theorem tmrPut_only {s : State} (h : Registers.wf s = true) (t off v : Nat) :
    Only (page (tmrB t) [regOff off, regOff (off + 4)]) s (tmrPut t off v s) :=
  .ite (.wr64In (.refl h) (by simp) (by simp) _) (.wrIn (.refl h) (by simp) _)

theorem tmrGet_of_only {t off : Nat} {fs : List Fld} {s u : State} (h : Only (page (tmrB t) fs) s u)
    (hoff : ∀ f ∈ fs, off ≠ f.off ∧ off + 4 ≠ f.off) : tmrGet t off u = tmrGet t off s := by
  rw [tmrGet, h.rd64In hoff, h.rdIn fun f hf => (hoff f hf).1, tmrGet]

theorem tmrGet_tmrPut_self {s : State} (h : Registers.wf s = true) {t v : Nat} (hv : v < tmrTop t) (off : Nat) :
    tmrGet t off (tmrPut t off v s) = v := by
  unfold tmrTop at hv
  unfold tmrGet tmrPut
  split at hv
  · next hlong =>
    rw [if_pos hlong, if_pos hlong, rd64_wr64_self h, BitVec.toNat_ofNat, Nat.mod_eq_of_lt hv]
  · next hshort =>
    rw [if_neg hshort, if_neg hshort, rd_wr_self h, BitVec.toNat_ofNat, Nat.mod_eq_of_lt hv]

theorem tmrGet_lt (t off : Nat) (s : State) : tmrGet t off s < tmrTop t := by
  unfold tmrGet tmrTop
  split
  · exact (rd64 _ s).isLt
  · exact (rd _ s).isLt

theorem tmrNote_only {s : State} (h : Registers.wf s = true) (t : Nat) (f : Fld) :
    Only (page (tmrB t) [f]) s (tmrNote t f s) :=
  .ite (.fsetIn (.refl h) (by simp) _) (.noteIn (.refl h) (by simp) _)

theorem fis_tmrNote {s : State} (h : Registers.wf s = true) (t : Nat) {f : Fld} (hf : f.w = 1 ∧ f.lo + f.w ≤ 32) :
    fis (tmrB t) f (tmrNote t f s) = true := by
  unfold tmrNote
  split
  · exact fis_fset_one h _ hf
  · exact fis_note h _ hf.1 hf.2 _

/-- A flag that is noted on a condition. -/
theorem fis_tmrNote_if {s : State} (h : Registers.wf s = true) (t : Nat) {f : Fld} (hf : f.w = 1 ∧ f.lo + f.w ≤ 32)
    (c : Prop) [Decidable c] : fis (tmrB t) f (if c then tmrNote t f s else s) = (fis (tmrB t) f s || decide c) := by
  by_cases hc : c
  · rw [if_pos hc, fis_tmrNote h t hf, decide_eq_true hc, Bool.or_true]
  · rw [if_neg hc, decide_eq_false hc, Bool.or_false]

theorem tmrPendPut_only {s : State} (h : Registers.wf s = true) (t : Nat) (p : TimerPend) :
    Only (page (tmrB t) [TMR_STAT.PEND]) s (tmrPendPut t p s) :=
  Only.fsetIn (b := tmrB t) (t := { s with timers := tset (fun _ => ({} : TimerPend)) s.timers t p })
    ((Only.refl h).of_regs (Eq.refl s.regs)) (List.mem_singleton.2 (Eq.refl _)) _

theorem tmrPend_tmrPendPut {p : TimerPend} (hp : p ≠ {}) (t : Nat) (s : State) : tmrPend t (tmrPendPut t p s) = p := by
  show tget (fun _ => ({} : TimerPend)) (tset (fun _ => ({} : TimerPend)) s.timers t p) t = p
  rw [tset, if_neg hp, tget_tput, if_pos rfl]

theorem fis_pend_tmrPendPut {s : State} (h : Registers.wf s = true) (t : Nat) (p : TimerPend) :
    fis (tmrB t) TMR_STAT.PEND (tmrPendPut t p s) = (p.cmp.isSome || p.reload.isSome) :=
  fis_fset_ofBool (s := { s with timers := tset (fun _ => ({} : TimerPend)) s.timers t p }) h _ (by decide) _

theorem tmrRange_only {s : State} (h : Registers.wf s = true) (t : Nat) :
    Only (page (tmrB t) [TMR_NOTE.CMP_RANGE]) s (tmrRange t s) := .ite (tmrNote_only h _ _) (.refl h)

theorem fis_range_tmrRange {s : State} (h : Registers.wf s = true) (t : Nat) :
    fis (tmrB t) TMR_NOTE.CMP_RANGE (tmrRange t s) =
      (fis (tmrB t) TMR_NOTE.CMP_RANGE s || decide (tmrReload t s < tmrCmp t s)) := fis_tmrNote_if h t (by decide) _

theorem tmrFire_only {s : State} (h : Registers.wf s = true) (t : Nat) :
    Only (page (tmrB t) [TMR_CTRL.CMP_EN, TMR_NOTE.MATCH]) s (tmrFire t s) := by
  have honce : Only (page (tmrB t) [TMR_CTRL.CMP_EN, TMR_NOTE.MATCH]) s
      (if fis (tmrB t) TMR_CTRL.ONCE s then fset (tmrB t) TMR_CTRL.CMP_EN 0 s else s) :=
    .ite (.fsetIn (.refl h) (by decide) _) (.refl h)
  exact honce.trans ((tmrNote_only honce.wf _ _).mono (by simp))

/-- A compare that fires: MATCH, and with ONCE no CMP_EN (R415). -/
theorem tmrFire_shows {s : State} (h : Registers.wf s = true) (t : Nat) :
    fis (tmrB t) TMR_NOTE.MATCH (tmrFire t s) = true ∧
      fis (tmrB t) TMR_CTRL.CMP_EN (tmrFire t s) =
        (fis (tmrB t) TMR_CTRL.CMP_EN s && !fis (tmrB t) TMR_CTRL.ONCE s) := by
  have honce : Only (page (tmrB t) [TMR_CTRL.CMP_EN]) s
      (if fis (tmrB t) TMR_CTRL.ONCE s then fset (tmrB t) TMR_CTRL.CMP_EN 0 s else s) :=
    .ite (.fsetIn (.refl h) (by decide) _) (.refl h)
  refine ⟨fis_tmrNote honce.wf t (by decide), ?_⟩
  refine ((tmrNote_only honce.wf t TMR_NOTE.MATCH).flagIn (by decide)).trans ?_
  cases ho : fis (tmrB t) TMR_CTRL.ONCE s
  · rw [if_neg Bool.false_ne_true, Bool.not_false, Bool.and_true]
  · rw [if_pos rfl, fis_fset_zero h _ (by decide), Bool.not_true, Bool.and_false]

/-! ### A tick edge (R408, R410, R411, R413–R415) -/

/-- A quantity takes the value that waits for it, if one does. -/
def tmrTake (t off : Nat) (o : Option Nat) (s : State) : State :=
  match o with
  | some v => tmrPut t off v s
  | none => s

theorem tmrTake_only {s : State} (h : Registers.wf s = true) (t off : Nat) (o : Option Nat) :
    Only (page (tmrB t) [regOff off, regOff (off + 4)]) s (tmrTake t off o s) := by
  cases o with
  | none => exact .refl h
  | some v => exact tmrPut_only h t off v

theorem tmrGet_tmrTake {s : State} (h : Registers.wf s = true) {t off : Nat} {o : Option Nat}
    (hv : o.getD (tmrGet t off s) < tmrTop t) : tmrGet t off (tmrTake t off o s) = o.getD (tmrGet t off s) := by
  cases o with
  | none => rfl
  | some v => exact tmrGet_tmrPut_self h hv off

/-- The count after an edge. -/
def tmrNext (reload c : Nat) : Nat := if reload ≤ c then 0 else c + 1

/-- An edge up to the waiting CMP: the waiting RELOAD, the count with nothing waiting, WRAP, and the waiting CMP. -/
def tmrStepped (t c : Nat) (s : State) : State :=
  let s1 := tmrTake t 8 (tmrPend t s).reload s
  let s2 := tmrPut t 0x10 (tmrNext (tmrReload t s1) c) (tmrPendPut t {} s1)
  tmrTake t 0x18 (tmrPend t s).cmp (if tmrReload t s1 ≤ c then tmrNote t TMR_NOTE.WRAP s2 else s2)

/-- The compare fires after an edge. -/
def tmrFires (t c new : Nat) (p : TimerPend) (s : State) : Bool :=
  fis (tmrB t) TMR_CTRL.CMP_EN s && decide (tmrCmp t s ≤ tmrReload t s) &&
    (decide (tmrCmp t s = new) || (p.cmp.isSome && decide (tmrCmp t s ≤ c)))

/-- An edge up to the compare. -/
def tmrJudged (t c : Nat) (s : State) : State :=
  if (tmrPend t s).cmp.isSome || (tmrPend t s).reload.isSome then tmrRange t (tmrStepped t c s) else tmrStepped t c s

theorem tmrJudged_only {t c : Nat} {s : State} (h : Registers.wf (tmrStepped t c s) = true) :
    Only (page (tmrB t) [TMR_NOTE.CMP_RANGE]) (tmrStepped t c s) (tmrJudged t c s) := by
  unfold tmrJudged
  split
  · exact tmrRange_only h t
  · exact .refl h

theorem fis_range_tmrJudged {t c : Nat} {s : State} (h : Registers.wf (tmrStepped t c s) = true) :
    fis (tmrB t) TMR_NOTE.CMP_RANGE (tmrJudged t c s) = (fis (tmrB t) TMR_NOTE.CMP_RANGE (tmrStepped t c s) ||
      (((tmrPend t s).cmp.isSome || (tmrPend t s).reload.isSome) &&
        decide (tmrReload t (tmrStepped t c s) < tmrCmp t (tmrStepped t c s)))) := by
  unfold tmrJudged
  cases (tmrPend t s).cmp.isSome || (tmrPend t s).reload.isSome
  · rw [if_neg Bool.false_ne_true, Bool.false_and, Bool.or_false]
  · rw [if_pos rfl, fis_range_tmrRange h, Bool.true_and]

theorem tmrEdge_stages (t c : Nat) (s : State) : tmrEdge t c s =
    if tmrFires t c (tmrNext (tmrReload t (tmrTake t 8 (tmrPend t s).reload s)) c) (tmrPend t s) (tmrJudged t c s) then
      tmrFire t (tmrJudged t c s)
    else tmrJudged t c s := by
  unfold tmrJudged tmrStepped tmrEdge tmrNext
  simp only [decide_eq_true_eq]
  rfl

/-- What an edge up to the waiting CMP leaves. -/
theorem tmrStepped_shows {t c reload cmp : Nat} {s : State} (h : Registers.wf s = true)
    (hreload : (tmrPend t s).reload.getD (tmrReload t s) = reload) (hcmp : (tmrPend t s).cmp.getD (tmrCmp t s) = cmp)
    (hr : reload < tmrTop t) (hc : cmp < tmrTop t) :
    let u := tmrStepped t c s
    tmrReload t (tmrTake t 8 (tmrPend t s).reload s) = reload ∧
    Registers.wf u = true ∧ tmrCount t u = tmrNext reload c ∧ tmrReload t u = reload ∧ tmrCmp t u = cmp ∧
      fis (tmrB t) TMR_STAT.PEND u = false ∧
      fis (tmrB t) TMR_NOTE.WRAP u = (fis (tmrB t) TMR_NOTE.WRAP s || decide (reload ≤ c)) ∧
      ∀ g ∈ [TMR_CTRL.CMP_EN, TMR_CTRL.ONCE, TMR_NOTE.MATCH, TMR_NOTE.CMP_RANGE], fis (tmrB t) g u = fis (tmrB t) g s := by
  intro u
  let s1 := tmrTake t 8 (tmrPend t s).reload s
  let s2 := tmrPendPut t {} s1
  let s3 := tmrPut t 0x10 (tmrNext (tmrReload t s1) c) s2
  let s4 := if tmrReload t s1 ≤ c then tmrNote t TMR_NOTE.WRAP s3 else s3
  have h1 : Only (page (tmrB t) [regOff 8, regOff 0xC]) s s1 := tmrTake_only h t 8 _
  have h2 : Only (page (tmrB t) [TMR_STAT.PEND]) s1 s2 := tmrPendPut_only h1.wf t {}
  have h3 : Only (page (tmrB t) [regOff 0x10, regOff 0x14]) s2 s3 := tmrPut_only h2.wf t _ _
  have h4 : Only (page (tmrB t) [TMR_NOTE.WRAP]) s3 s4 := .ite (tmrNote_only h3.wf _ _) (.refl h3.wf)
  have h5 : Only (page (tmrB t) [regOff 0x18, regOff 0x1C]) s4 u := tmrTake_only h4.wf t 0x18 _
  have hreload1 : tmrReload t s1 = reload := (tmrGet_tmrTake h (off := 8) (by rw [← hreload] at hr; exact hr)).trans hreload
  have hnext : tmrNext (tmrReload t s1) c < tmrTop t := by
    rw [hreload1, tmrNext]
    split <;> omega
  have hcmp4 : tmrCmp t s4 = tmrCmp t s :=
    calc tmrGet t 0x18 s4
      _ = tmrGet t 0x18 s3 := tmrGet_of_only h4 (by decide)
      _ = tmrGet t 0x18 s2 := tmrGet_of_only h3 (by decide)
      _ = tmrGet t 0x18 s1 := tmrGet_of_only h2 (by decide)
      _ = tmrGet t 0x18 s := tmrGet_of_only h1 (by decide)
  refine ⟨hreload1, h5.wf, ?_, ?_, ?_, ?_, ?_, ?_⟩
  · calc tmrGet t 0x10 u
      _ = tmrGet t 0x10 s4 := tmrGet_of_only h5 (by decide)
      _ = tmrGet t 0x10 s3 := tmrGet_of_only h4 (by decide)
      _ = tmrNext (tmrReload t s1) c := tmrGet_tmrPut_self h2.wf hnext _
      _ = tmrNext reload c := by rw [hreload1]
  · calc tmrGet t 8 u
      _ = tmrGet t 8 s4 := tmrGet_of_only h5 (by decide)
      _ = tmrGet t 8 s3 := tmrGet_of_only h4 (by decide)
      _ = tmrGet t 8 s2 := tmrGet_of_only h3 (by decide)
      _ = tmrGet t 8 s1 := tmrGet_of_only h2 (by decide)
      _ = reload := hreload1
  · refine (tmrGet_tmrTake h4.wf (off := 0x18) ?_).trans ?_
    · rw [show tmrGet t 0x18 s4 = tmrCmp t s from hcmp4, hcmp]
      exact hc
    · rw [show tmrGet t 0x18 s4 = tmrCmp t s from hcmp4, hcmp]
  · rw [h5.flagIn (by decide), h4.flagIn (by decide), h3.flagIn (by decide)]
    exact fis_pend_tmrPendPut h1.wf t {}
  · rw [h5.flagIn (by decide), show fis (tmrB t) TMR_NOTE.WRAP s4 = _ from fis_tmrNote_if h3.wf t (by decide) _, hreload1,
      h3.flagIn (by decide), h2.flagIn (by decide), h1.flagIn (by decide)]
  · intro g hg
    have hall : ∀ g ∈ [TMR_CTRL.CMP_EN, TMR_CTRL.ONCE, TMR_NOTE.MATCH, TMR_NOTE.CMP_RANGE],
        ∀ f ∈ [regOff 8, regOff 0xC, TMR_STAT.PEND, regOff 0x10, regOff 0x14, TMR_NOTE.WRAP, regOff 0x18, regOff 0x1C],
          g.Apart f := by decide
    rw [h5.flagIn fun f hf => hall g hg f (by simp at hf ⊢; tauto), h4.flagIn fun f hf => hall g hg f (by simp at hf ⊢; tauto),
      h3.flagIn fun f hf => hall g hg f (by simp at hf ⊢; tauto), h2.flagIn fun f hf => hall g hg f (by simp at hf ⊢; tauto),
      h1.flagIn fun f hf => hall g hg f (by simp at hf ⊢; tauto)]

/-- A tick edge (R408, R410, R411, R413–R415). -/
theorem tmrEdge_shows {t c : Nat} {s : State} (h : Registers.wf s = true) {reload cmp : Nat}
    (hreload : (tmrPend t s).reload.getD (tmrReload t s) = reload) (hcmp : (tmrPend t s).cmp.getD (tmrCmp t s) = cmp)
    (hr : reload < tmrTop t) (hc : cmp < tmrTop t) {fires : Bool}
    (hf : (fis (tmrB t) TMR_CTRL.CMP_EN s && decide (cmp ≤ reload) &&
      (decide (cmp = tmrNext reload c) || ((tmrPend t s).cmp.isSome && decide (cmp ≤ c)))) = fires) :
    let u := tmrEdge t c s
    tmrCount t u = tmrNext reload c ∧ tmrReload t u = reload ∧ tmrCmp t u = cmp ∧
      fis (tmrB t) TMR_STAT.PEND u = false ∧
      fis (tmrB t) TMR_NOTE.WRAP u = (fis (tmrB t) TMR_NOTE.WRAP s || decide (reload ≤ c)) ∧
      fis (tmrB t) TMR_NOTE.MATCH u = (fis (tmrB t) TMR_NOTE.MATCH s || fires) ∧
      fis (tmrB t) TMR_CTRL.CMP_EN u =
        (fis (tmrB t) TMR_CTRL.CMP_EN s && !(fires && fis (tmrB t) TMR_CTRL.ONCE s)) ∧
      fis (tmrB t) TMR_NOTE.CMP_RANGE u = (fis (tmrB t) TMR_NOTE.CMP_RANGE s ||
        (((tmrPend t s).cmp.isSome || (tmrPend t s).reload.isSome) && decide (reload < cmp))) := by
  intro u
  obtain ⟨htake, hwf, hcount, hreload4, hcmp4, hpend, hwrap, hother⟩ := tmrStepped_shows (c := c) h hreload hcmp hr hc
  let s5 := tmrJudged t c s
  have h5 : Only (page (tmrB t) [TMR_NOTE.CMP_RANGE]) (tmrStepped t c s) s5 := tmrJudged_only hwf
  have hcount5 : tmrCount t s5 = tmrNext reload c := (tmrGet_of_only h5 (off := 0x10) (by decide)).trans hcount
  have hreload5 : tmrReload t s5 = reload := (tmrGet_of_only h5 (off := 8) (by decide)).trans hreload4
  have hcmp5 : tmrCmp t s5 = cmp := (tmrGet_of_only h5 (off := 0x18) (by decide)).trans hcmp4
  have hrange5 : fis (tmrB t) TMR_NOTE.CMP_RANGE s5 = (fis (tmrB t) TMR_NOTE.CMP_RANGE s ||
      (((tmrPend t s).cmp.isSome || (tmrPend t s).reload.isSome) && decide (reload < cmp))) := by
    rw [fis_range_tmrJudged hwf, hreload4, hcmp4, hother _ (by simp)]
  have hen5 : fis (tmrB t) TMR_CTRL.CMP_EN s5 = fis (tmrB t) TMR_CTRL.CMP_EN s :=
    (h5.flagIn (by decide)).trans (hother _ (by simp))
  have honce5 : fis (tmrB t) TMR_CTRL.ONCE s5 = fis (tmrB t) TMR_CTRL.ONCE s :=
    (h5.flagIn (by decide)).trans (hother _ (by simp))
  have hmatch5 : fis (tmrB t) TMR_NOTE.MATCH s5 = fis (tmrB t) TMR_NOTE.MATCH s :=
    (h5.flagIn (by decide)).trans (hother _ (by simp))
  have hfires : tmrFires t c (tmrNext (tmrReload t (tmrTake t 8 (tmrPend t s).reload s)) c) (tmrPend t s) s5 = fires := by
    rw [tmrFires, hen5, hcmp5, hreload5, htake, hf]
  have hu : u = if fires then tmrFire t s5 else s5 := by rw [← hfires]; exact tmrEdge_stages t c s
  have h6 : Only (page (tmrB t) [TMR_CTRL.CMP_EN, TMR_NOTE.MATCH]) s5 u := by
    rw [hu]; exact .ite (tmrFire_only h5.wf t) (.refl h5.wf)
  refine ⟨(tmrGet_of_only h6 (off := 0x10) (by decide)).trans hcount5, (tmrGet_of_only h6 (off := 8) (by decide)).trans hreload5,
    (tmrGet_of_only h6 (off := 0x18) (by decide)).trans hcmp5,
    (h6.flagIn (by decide)).trans ((h5.flagIn (by decide)).trans hpend),
    (h6.flagIn (by decide)).trans ((h5.flagIn (by decide)).trans hwrap), ?_, ?_, (h6.flagIn (by decide)).trans hrange5⟩
  all_goals rw [hu, ← hmatch5, ← hen5, ← honce5] at *
  · cases fires
    · rw [if_neg Bool.false_ne_true, Bool.or_false]
    · rw [if_pos rfl, (tmrFire_shows h5.wf t).1, Bool.or_true]
  · cases fires
    · rw [if_neg Bool.false_ne_true, Bool.false_and, Bool.not_false, Bool.and_true]
    · rw [if_pos rfl, (tmrFire_shows h5.wf t).2, Bool.true_and]

theorem tmrEdge_when (timer : Fin 20) (count : Word64) (s : State) :
    let c := count.toNat % tmrTop timer.val
    (tmrRuns timer.val s = false → exec (.timerMatch timer count) s = .next s ∧ exec (.timerWrap timer count) s = .next s ∧
      exec (.timerCmpEffect timer count) s = .next s) ∧
    (tmrRuns timer.val s = true → exec (.timerMatch timer count) s = .next (tmrEdge timer.val c s) ∧
      (tmrReload timer.val s ≤ c → exec (.timerWrap timer count) s = .next (tmrEdge timer.val c s)) ∧
      ((tmrPend timer.val s).cmp.isSome = true →
        exec (.timerCmpEffect timer count) s = .next (tmrEdge timer.val c s))) := by
  refine ⟨fun hr => ?_, fun hr => ⟨congrArg _ (if_pos hr), fun hw => congrArg _ (if_pos ?_), fun hp => congrArg _ (if_pos ?_)⟩⟩
  · refine ⟨congrArg _ (if_neg ?_), congrArg _ (if_neg ?_), congrArg _ (if_neg ?_)⟩ <;> simp [hr]
  · rw [hr, decide_eq_true hw]; rfl
  · rw [hr, hp]; rfl

/-! ### Writes of a timer page (R409, R411, R412, R414, R434) -/

theorem timerEnable_shows {i : Init} {timer : Fin 20} {data : Word} (count : Word64) {s : State}
    (hp : Admits i (tmrB timer.val) .store s) :
    let t := timer.val
    let old := rd (tmrB t) s
    let bad := bitsOf data 8 7 < 64 ∨ bitsOf data 6 2 = 3
    let moved := bitsOf data 16 16 ≠ bitsOf old 16 16 ∨ bitOf data 2 ≠ bitOf old 2
    (bad → exec (.timerEnable i timer data count) s =
      .next (acknowledge (tmrNote t TMR_NOTE.ERR (fset (tmrB t) TMR_STAT.RANGE 1 s)))) ∧
    (¬ bad → bitOf old 0 = true → moved → exec (.timerEnable i timer data count) s =
      .next (acknowledge (tmrNote t TMR_NOTE.ERR (fset (tmrB t) TMR_STAT.BUSY 1 s)))) ∧
    (¬ bad → bitOf old 0 = false → exec (.timerEnable i timer data count) s =
      .next (acknowledge (wr (tmrB t) (data &&& 0xFFFF7FFF#32) s))) ∧
    (¬ bad → bitOf old 0 = true → ¬ moved → bitOf data 0 = false → exec (.timerEnable i timer data count) s =
      .next (acknowledge (tmrPut t 0x10 (count.toNat % tmrTop t) (wr (tmrB t) (data &&& 0xFFFF7FFF#32) s)))) := by
  intro t old bad moved
  have hrun : exec (.timerEnable i timer data count) s = .next (acknowledge (tmrCtrl t data count.toNat s)) :=
    congrArg _ (doorStore_admits hp)
  rw [hrun]
  have hmoved : (bitsOf data 16 16 != bitsOf old 16 16 || bitOf data 2 != bitOf old 2) = decide moved := by
    simp only [moved, Bool.decide_or, bne, beq_eq_decide, decide_not]
  have hctrl : tmrCtrl t data count.toNat s = if bad then tmrNote t TMR_NOTE.ERR (fset (tmrB t) TMR_STAT.RANGE 1 s)
      else if bitOf old 0 && decide moved then tmrNote t TMR_NOTE.ERR (fset (tmrB t) TMR_STAT.BUSY 1 s)
      else if bitOf old 0 && !bitOf data 0 then
        tmrPut t 0x10 (count.toNat % tmrTop t) (wr (tmrB t) (data &&& 0xFFFF7FFF#32) s)
      else wr (tmrB t) (data &&& 0xFFFF7FFF#32) s := by
    rw [← hmoved]
    rfl
  rw [hctrl]
  refine ⟨fun hb => ?_, fun hb hon hm => ?_, fun hb hon => ?_, fun hb hon hm hen => ?_⟩
  · rw [if_pos hb]
  · rw [if_neg hb, hon, decide_eq_true hm, if_pos (by rfl)]
  · rw [if_neg hb, hon, if_neg (by simp), if_neg (by simp)]
  · rw [if_neg hb, hon, decide_eq_false hm, hen, if_neg (by simp), if_pos (by rfl)]

/-- A timer that a write of TMR_CTRL stops: EN is 0, the count stays, and RELOAD and CMP too. -/
theorem tmrCtrl_stops {s : State} (h : Registers.wf s = true) {t : Nat} {data : Word} (hen : bitOf data 0 = false)
    (count : Nat) :
    let u := tmrPut t 0x10 (count % tmrTop t) (wr (tmrB t) (data &&& 0xFFFF7FFF#32) s)
    tmrCount t u = count % tmrTop t ∧ fis (tmrB t) TMR_CTRL.EN u = false ∧ tmrReload t u = tmrReload t s ∧
      tmrCmp t u = tmrCmp t s := by
  intro u
  have h1 : Only (page (tmrB t) [regOff 0]) s (wr (tmrB t) (data &&& 0xFFFF7FFF#32) s) :=
    Only.wrIn (off := 0) (.refl h) (by decide) _
  have h2 := tmrPut_only h1.wf t 0x10 (count % tmrTop t)
  have htop : 0 < tmrTop t := by unfold tmrTop; split <;> decide
  refine ⟨tmrGet_tmrPut_self h1.wf (Nat.mod_lt _ htop) _, ?_, ?_, ?_⟩
  · refine (h2.flagIn (by decide)).trans ?_
    rw [fis_eq_bitOf _ (by rfl), show tmrB t + TMR_CTRL.EN.off = tmrB t from rfl, rd_wr_self h]
    rw [bitOf, BitVec.getLsbD_and, show data.getLsbD TMR_CTRL.EN.lo = false from hen, Bool.false_and]
  · exact (tmrGet_of_only h2 (by decide)).trans (tmrGet_of_only h1 (by decide))
  · exact (tmrGet_of_only h2 (by decide)).trans (tmrGet_of_only h1 (by decide))

theorem timerZero_shows {i : Init} {timer : Fin 20} (key : BitVec 16) {s : State}
    (hp : Admits i (tmrB timer.val + 0x28) .store s) :
    (key ≠ 0x544D → exec (.timerZero i timer key) s = .next (acknowledge (tmrNote timer.val TMR_NOTE.ERR s))) ∧
    (key = 0x544D → exec (.timerZero i timer key) s = .next (acknowledge (tmrPut timer.val 0x10 0 s))) := by
  have hrun : exec (.timerZero i timer key) s =
      .next (acknowledge (tmrCmd timer.val (BitVec.ofNat 32 (key.toNat * 65536 + 1)) s)) :=
    congrArg _ (doorStore_admits hp)
  have hword := key.isLt
  have hkey : bitsOf (BitVec.ofNat 32 (key.toNat * 65536 + 1)) 16 16 = key.toNat := by
    simp only [bitsOf, BitVec.toNat_ofNat, Nat.shiftRight_eq_div_pow]
    omega
  rw [hrun, tmrCmd, hkey]
  refine ⟨fun hk => ?_, fun hk => ?_⟩
  · rw [if_pos fun hn : key.toNat = 0x544D => hk (BitVec.eq_of_toNat_eq hn)]
  · subst hk
    rw [if_neg (by decide), if_pos (by decide)]

/-- The value that a write of a committing register commits. -/
def tmrValue (i : Init) (t off : Nat) (data : Word) (s : State) : Nat :=
  if tmrLong t then (Word64.ofHalves (stagedGet i (tmrB t + off) s) data).toNat else data.toNat

theorem tmrValue_lt (i : Init) (t off : Nat) (data : Word) (s : State) : tmrValue i t off data s < tmrTop t := by
  unfold tmrValue tmrTop
  split
  · exact BitVec.isLt _
  · exact BitVec.isLt _

/-- A commit is of its value, on a state that differs in the staged halves alone. -/
theorem tmrCommitWrite_eq (i : Init) (t off : Nat) (commit : Nat → Nat → State → State) (data : Word) (s : State) :
    ∃ s', s'.regs = s.regs ∧ s'.timers = s.timers ∧
      tmrCommitWrite i t off commit data s = commit t (tmrValue i t off data s) s' := by
  unfold tmrCommitWrite tmrValue
  split
  · exact ⟨stagedPut i (tmrB t + off) 0 s, rfl, rfl, rfl⟩
  · exact ⟨s, rfl, rfl, rfl⟩

theorem timerCommit_run (i : Init) (timer : Fin 20) (data : Word) {s : State} (h : Registers.wf s = true) :
    (Admits i (tmrCommitAt timer.val 0x18) .store s → ∃ s', Only [] s s' ∧ tmrPend timer.val s' = tmrPend timer.val s ∧
      exec (.timerCmpCommit i timer data) s =
        .next (acknowledge (tmrCmpCommit timer.val (tmrValue i timer.val 0x18 data s) s'))) ∧
    (Admits i (tmrCommitAt timer.val 8) .store s → ∃ s', Only [] s s' ∧ tmrPend timer.val s' = tmrPend timer.val s ∧
      exec (.timerReloadCommit i timer data) s =
        .next (acknowledge (tmrReloadCommit timer.val (tmrValue i timer.val 8 data s) s'))) := by
  refine ⟨fun hp => ?_, fun hp => ?_⟩
  · obtain ⟨s', hr, ht, he⟩ := tmrCommitWrite_eq i timer.val 0x18 tmrCmpCommit data s
    refine ⟨s', (Only.refl h).of_regs hr, by rw [tmrPend, ht, tmrPend], ?_⟩
    rw [← he]
    exact congrArg _ (doorStore_admits hp)
  · obtain ⟨s', hr, ht, he⟩ := tmrCommitWrite_eq i timer.val 8 tmrReloadCommit data s
    refine ⟨s', (Only.refl h).of_regs hr, by rw [tmrPend, ht, tmrPend], ?_⟩
    rw [← he]
    exact congrArg _ (doorStore_admits hp)

/-- A commit while EN is 1 waits (R411, R414). -/
theorem tmrPendPut_shows {s : State} (h : Registers.wf s = true) (t : Nat) {p : TimerPend}
    (hp : (p.cmp.isSome || p.reload.isSome) = true) :
    let u := tmrPendPut t p s
    tmrPend t u = p ∧ fis (tmrB t) TMR_STAT.PEND u = true ∧ tmrCmp t u = tmrCmp t s ∧ tmrReload t u = tmrReload t s := by
  refine ⟨tmrPend_tmrPendPut ?_ t s, (fis_pend_tmrPendPut h t p).trans hp, tmrGet_of_only (tmrPendPut_only h t p) (by decide),
    tmrGet_of_only (tmrPendPut_only h t p) (by decide)⟩
  rintro rfl
  exact absurd hp (by decide)

/-- A commit of CMP while EN is 0 takes effect at once and fires nothing (R412, R413). -/
theorem tmrCmpSet_shows {s : State} (h : Registers.wf s = true) {t v : Nat} (hv : v < tmrTop t) :
    let u := tmrCmpSet t v s
    tmrCmp t u = v ∧ fis (tmrB t) TMR_NOTE.MATCH u = fis (tmrB t) TMR_NOTE.MATCH s ∧
      fis (tmrB t) TMR_NOTE.CMP_RANGE u = (fis (tmrB t) TMR_NOTE.CMP_RANGE s || decide (tmrReload t s < v)) := by
  have h1 := tmrPut_only h t 0x18 v
  have h2 := tmrRange_only h1.wf t
  have hcmp : tmrCmp t (tmrPut t 0x18 v s) = v := tmrGet_tmrPut_self h hv _
  refine ⟨(tmrGet_of_only h2 (by decide)).trans hcmp, (h2.flagIn (by decide)).trans (h1.flagIn (by decide)), ?_⟩
  refine (fis_range_tmrRange h1.wf t).trans ?_
  rw [hcmp, h1.flagIn (by decide), show tmrReload t (tmrPut t 0x18 v s) = tmrReload t s from tmrGet_of_only h1 (by decide)]

/-- A commit of RELOAD while EN is 0 takes effect at once (R413, R414). -/
theorem tmrReloadSet_shows {s : State} (h : Registers.wf s = true) {t v : Nat} (hv : v < tmrTop t) :
    let u := tmrReloadSet t v s
    tmrReload t u = v ∧ tmrCmp t u = tmrCmp t s ∧
      fis (tmrB t) TMR_NOTE.CMP_RANGE u = (fis (tmrB t) TMR_NOTE.CMP_RANGE s || decide (v < tmrCmp t s)) := by
  have h1 := tmrPut_only h t 8 v
  have h2 := tmrRange_only h1.wf t
  have hreload : tmrReload t (tmrPut t 8 v s) = v := tmrGet_tmrPut_self h hv _
  have hcmp : tmrCmp t (tmrPut t 8 v s) = tmrCmp t s := tmrGet_of_only h1 (by decide)
  refine ⟨(tmrGet_of_only h2 (by decide)).trans hreload, (tmrGet_of_only h2 (by decide)).trans hcmp, ?_⟩
  refine (fis_range_tmrRange h1.wf t).trans ?_
  rw [hcmp, hreload, h1.flagIn (by decide)]

theorem timerCommit_shows {i : Init} {timer : Fin 20} {data : Word} {s : State} (h : Registers.wf s = true) :
    let t := timer.val
    let v (off : Nat) := if tmrLong t then (Word64.ofHalves (stagedGet i (tmrB t + off) s) data).toNat else data.toNat
    (Admits i (tmrCommitAt t 0x18) .store s → fis (tmrB t) TMR_CTRL.EN s = true →
      ∃ u, exec (.timerCmpCommit i timer data) s = .next u ∧ (tmrPend t u).cmp = some (v 0x18) ∧
        (tmrPend t u).reload = (tmrPend t s).reload ∧ fis (tmrB t) TMR_STAT.PEND u = true ∧
        tmrCmp t u = tmrCmp t s ∧ tmrReload t u = tmrReload t s) ∧
    (Admits i (tmrCommitAt t 0x18) .store s → fis (tmrB t) TMR_CTRL.EN s = false →
      ∃ u, exec (.timerCmpCommit i timer data) s = .next u ∧ tmrCmp t u = v 0x18 ∧
        fis (tmrB t) TMR_NOTE.MATCH u = fis (tmrB t) TMR_NOTE.MATCH s ∧
        fis (tmrB t) TMR_NOTE.CMP_RANGE u =
          (fis (tmrB t) TMR_NOTE.CMP_RANGE s || decide (tmrReload t s < v 0x18))) ∧
    (Admits i (tmrCommitAt t 8) .store s → fis (tmrB t) TMR_CTRL.EN s = true →
      ∃ u, exec (.timerReloadCommit i timer data) s = .next u ∧ (tmrPend t u).reload = some (v 8) ∧
        (tmrPend t u).cmp = (tmrPend t s).cmp ∧ fis (tmrB t) TMR_STAT.PEND u = true ∧
        tmrCmp t u = tmrCmp t s ∧ tmrReload t u = tmrReload t s) ∧
    (Admits i (tmrCommitAt t 8) .store s → fis (tmrB t) TMR_CTRL.EN s = false →
      ∃ u, exec (.timerReloadCommit i timer data) s = .next u ∧ tmrReload t u = v 8 ∧ tmrCmp t u = tmrCmp t s ∧
        fis (tmrB t) TMR_NOTE.CMP_RANGE u =
          (fis (tmrB t) TMR_NOTE.CMP_RANGE s || decide (v 8 < tmrCmp t s))) := by
  intro t v
  obtain ⟨hcmpRun, hreloadRun⟩ := timerCommit_run i timer data h
  have hsame {s' : State} (h' : Only [] s s') : (∀ f, fis (tmrB t) f s' = fis (tmrB t) f s) ∧
      tmrCmp t s' = tmrCmp t s ∧ tmrReload t s' = tmrReload t s :=
    ⟨fun f => h'.flag (by simp), tmrGet_of_only (fs := []) h' (by simp), tmrGet_of_only (fs := []) h' (by simp)⟩
  refine ⟨fun hp hen => ?_, fun hp hen => ?_, fun hp hen => ?_, fun hp hen => ?_⟩
  · obtain ⟨s', h', hpend, he⟩ := hcmpRun hp
    obtain ⟨hflag, hc, hr⟩ := hsame h'
    rw [tmrCmpCommit, if_pos ((hflag _).trans hen)] at he
    obtain ⟨hwaits, hshown, hcmp, hreload⟩ := tmrPendPut_shows h'.wf t
      (p := { tmrPend t s' with cmp := some (v 0x18) }) (by rfl)
    exact ⟨_, he, congrArg _ hwaits, (congrArg TimerPend.reload hwaits).trans (congrArg (·.reload) hpend), hshown, hcmp.trans hc, hreload.trans hr⟩
  · obtain ⟨s', h', -, he⟩ := hcmpRun hp
    obtain ⟨hflag, hc, hr⟩ := hsame h'
    rw [tmrCmpCommit, if_neg (by rw [hflag, hen]; decide)] at he
    obtain ⟨hcmp, hmatch, hrange⟩ := tmrCmpSet_shows h'.wf (tmrValue_lt i t 0x18 data s)
    exact ⟨_, he, hcmp, hmatch.trans (hflag _), hrange.trans (by rw [hflag, hr]; rfl)⟩
  · obtain ⟨s', h', hpend, he⟩ := hreloadRun hp
    obtain ⟨hflag, hc, hr⟩ := hsame h'
    rw [tmrReloadCommit, if_pos ((hflag _).trans hen)] at he
    obtain ⟨hwaits, hshown, hcmp, hreload⟩ := tmrPendPut_shows h'.wf t
      (p := { tmrPend t s' with reload := some (v 8) }) (Bool.or_true _)
    exact ⟨_, he, congrArg _ hwaits, (congrArg TimerPend.cmp hwaits).trans (congrArg (·.cmp) hpend), hshown, hcmp.trans hc, hreload.trans hr⟩
  · obtain ⟨s', h', -, he⟩ := hreloadRun hp
    obtain ⟨hflag, hc, hr⟩ := hsame h'
    rw [tmrReloadCommit, if_neg (by rw [hflag, hen]; decide)] at he
    obtain ⟨hreload, hcmp, hrange⟩ := tmrReloadSet_shows h'.wf (tmrValue_lt i t 8 data s)
    exact ⟨_, he, hreload, hcmp.trans hc, hrange.trans (by rw [hflag, hc]; rfl)⟩

/-! ### Captures (R416) -/

theorem timerCapture_shows (timer : Fin 20) (count : Word64) (falling : Bool) (s : State) :
    let t := timer.val
    let e := fget (tmrB t) TMR_CTRL.CAP_EDGE s
    (pdOn 78 s = false ∨ fis (tmrB t) TMR_CTRL.CAP_EN s = false →
      exec (.timerCapture timer count falling) s = .next s) ∧
    (pdOn 78 s = true → fis (tmrB t) TMR_CTRL.CAP_EN s = true →
      e = 2 ∨ (e = 0 ∧ falling = false) ∨ (e = 1 ∧ falling = true) → Registers.wf s = true →
      ∃ u, exec (.timerCapture timer count falling) s = .next u ∧ tmrGet t 0x20 u = count.toNat % tmrTop t ∧
        fis (tmrB t) TMR_NOTE.CAP u = true ∧
        fis (tmrB t) TMR_NOTE.CAP_OVR u =
          (fis (tmrB t) TMR_NOTE.CAP_OVR s || fis (tmrB t) TMR_NOTE.CAP s)) := by
  intro t e
  have hrun : exec (.timerCapture timer count falling) s =
      .next (if pdOn 78 s then tmrCapture t count.toNat falling s else s) := rfl
  refine ⟨fun hoff => ?_, fun hon hen hedge h => ?_⟩
  · rw [hrun, tmrCapture]
    rcases hoff with hoff | hoff <;> simp [hoff]
  · let s1 := tmrPut t 0x20 (count.toNat % tmrTop t) s
    have hsel : (e == 2 || (e == 1) == falling) = true := by
      rcases hedge with he | ⟨he, rfl⟩ | ⟨he, rfl⟩ <;> rw [he] <;> rfl
    have htop : 0 < tmrTop t := by unfold tmrTop; split <;> decide
    have h1 : Only (page (tmrB t) [regOff 0x20, regOff 0x24]) s s1 := tmrPut_only h t 0x20 _
    have hcap : tmrGet t 0x20 s1 = count.toNat % tmrTop t := tmrGet_tmrPut_self h (Nat.mod_lt _ htop) _
    have hnote (f : Fld) := tmrNote_only h1.wf t f
    rw [hrun, if_pos hon, tmrCapture, hen]
    show ∃ u, Host.Outcome.next (if (e == 2 || (e == 1) == falling) = true then _ else _) = _ ∧ _
    rw [if_pos hsel]
    cases hc : fis (tmrB t) TMR_NOTE.CAP s
    · refine ⟨_, congrArg _ (if_neg Bool.false_ne_true), (tmrGet_of_only (hnote _) (by decide)).trans hcap,
        fis_tmrNote h1.wf t (by decide), ?_⟩
      rw [Bool.or_false]
      exact ((hnote _).flagIn (by decide)).trans (h1.flagIn (by decide))
    · refine ⟨_, congrArg _ (if_pos rfl), (tmrGet_of_only (hnote _) (by decide)).trans hcap, ?_,
        (fis_tmrNote h1.wf t (by decide)).trans (Bool.or_true _).symm⟩
      exact ((hnote _).flagIn (by decide)).trans ((h1.flagIn (by decide)).trans hc)

/-- Settles O31. -/
theorem timers : Obligations.Timers := by
  unfold Obligations.Timers
  refine ⟨⟨fun i timer data count s hp => ?_, fun i timer key s hp => timerZero_shows key hp,
    fun i timer data s h => timerCommit_shows h⟩,
    fun timer count s => tmrEdge_when timer count s, fun t c s => ?_,
    fun timer count falling s => timerCapture_shows timer count falling s⟩
  · obtain ⟨hbad, hmoved, hoff, hstop⟩ := timerEnable_shows (data := data) count hp
    refine ⟨hbad, hmoved, hoff, fun hb hon hm hen h => ⟨_, hstop hb hon hm hen, tmrCtrl_stops h hen _⟩⟩
  · intro p reload cmp new fires u ht h hr hc
    exact tmrEdge_shows h rfl rfl hr hc rfl

end Sys2Proof.Machine

namespace Sys2Proof.Tests
open Sys2Proof.Machine

set_option maxRecDepth 8000

/-- Timer 0 stands at its RELOAD of 9 with CMP 0 and its compare enabled. -/
def wrappingTimer : State := wr 0x40060008 9 (wr 0x40060000 0x00000008 house)

/-- A tick edge of a timer at its RELOAD: the count is 0, which its compare matches. -/
theorem test_hyps_timers :
    let u := tmrEdge 0 9 wrappingTimer
    fis (tmrB 0) Reg.TMR_NOTE.WRAP u = true ∧ fis (tmrB 0) Reg.TMR_NOTE.MATCH u = true := by
  obtain ⟨-, -, -, -, hwrap, hmatch, -⟩ := timers.2.2.1 0 9 wrappingTimer (by decide) (by decide) (by decide) (by decide)
  exact ⟨hwrap.trans (by decide), hmatch.trans (by decide)⟩

end Sys2Proof.Tests
end

section
/-!
SUPPORT. Events (R455–R457): what a claim returns, by the recursion that finds it. Watchdogs and ways (R442, R453, R454,
R460).
-/

namespace Sys2Proof.Machine

/-! ### Events (R455–R457) -/

theorem routeDests_of_no_cores {w : Word} (h : bitsOf w 0 7 = 0) : routeDests w = [] := by
  have hbit (k : Nat) (hk : k < 7) : bitOf w k = false := by
    have := bitsOf_testBit w 0 7 k
    rw [h, Nat.zero_testBit, decide_eq_true hk, Bool.true_and, Nat.zero_add] at this
    exact this.symm
  have hrooms : bitsOf w 3 4 = 0 := by
    simp only [bitsOf, Nat.shiftRight_eq_div_pow] at h ⊢
    omega
  rw [routeDests, hrooms, if_pos rfl, List.append_nil, List.filter_eq_nil_iff]
  intro k hk
  rw [hbit k (by have := List.mem_range.1 hk; omega)]
  exact Bool.false_ne_true

/-- The event found in a list is of the highest PRIO, and the lowest such number where the list rises. -/
theorem bestEvt_shows {s : State} {e : Nat} : ∀ {l : List Nat}, bestEvt s l = some e →
    e ∈ l ∧ ∀ f ∈ l, evtPrio f s ≤ evtPrio e s ∧ (l.Pairwise (· < ·) → evtPrio f s = evtPrio e s → e ≤ f)
  | [], h => by cases h
  | x :: r, h => by
    unfold bestEvt at h
    cases hb : bestEvt s r with
    | none =>
      have hr : r = [] := by
        cases r with
        | nil => rfl
        | cons y r =>
          rw [bestEvt] at hb
          split at hb
          · cases hb
          · split at hb <;> cases hb
      rw [hb] at h
      obtain rfl := Option.some.inj h
      subst hr
      simp
    | some b =>
      obtain ⟨hmem, hbest⟩ := bestEvt_shows hb
      rw [hb] at h
      dsimp only at h
      split at h
      · next hlt =>
        obtain rfl := Option.some.inj h
        refine ⟨List.mem_cons_of_mem _ hmem, fun f hf => ?_⟩
        rcases List.mem_cons.1 hf with rfl | hf
        · exact ⟨by omega, fun _ he => by omega⟩
        · exact ⟨(hbest f hf).1, fun hl => (hbest f hf).2 (List.pairwise_cons.1 hl).2⟩
      · next hge =>
        obtain rfl := Option.some.inj h
        refine ⟨List.mem_cons_self, fun f hf => ?_⟩
        rcases List.mem_cons.1 hf with rfl | hf
        · exact ⟨Nat.le_refl _, fun _ _ => Nat.le_refl _⟩
        · exact ⟨by have := (hbest f hf).1; omega, fun hl _ => Nat.le_of_lt ((List.pairwise_cons.1 hl).1 f hf)⟩

theorem claimable_shows {k e : Nat} {s : State} (h : claimable k s = some e) :
    ∃ d, destOfCore k s = some d ∧ e ∈ (destGet d s).pend ∧ evtDeliverable k e (destGet d s) s = true ∧
      ∀ f ∈ (destGet d s).pend, evtDeliverable k f (destGet d s) s = true →
        evtPrio f s ≤ evtPrio e s ∧
          ((destGet d s).pend.Pairwise (· < ·) → evtPrio f s = evtPrio e s → e ≤ f) := by
  unfold claimable at h
  split at h
  · cases h
  · next d hd =>
    obtain ⟨hmem, hbest⟩ := bestEvt_shows h
    obtain ⟨hpend, hdel⟩ := List.mem_filter.1 hmem
    refine ⟨d, hd, hpend, hdel, fun f hf hfd => ?_⟩
    obtain ⟨hprio, hlow⟩ := hbest f (List.mem_filter.2 ⟨hf, hfd⟩)
    exact ⟨hprio, fun hp => hlow (hp.sublist List.filter_sublist)⟩

theorem evtClaim_some {k d e : Nat} {s : State} (hd : destOfCore k s = some d) (he : claimable k s = some e) :
    evtClaim k s = (BitVec.ofNat 32 (2 ^ 31 + evtPrio e s * 2 ^ 16 + e),
      destSet d { destGet d s with
        pend := (destGet d s).pend.erase e
        levels := (e, evtPrio e s) :: (destGet d s).levels } s) := by
  unfold evtClaim
  rw [hd, he]

theorem evtClaim_none {k : Nat} {s : State} (he : claimable k s = none) : evtClaim k s = (0, s) := by
  unfold evtClaim
  rw [he]
  cases destOfCore k s <;> rfl

theorem evtDone_latest {k d e p : Nat} {r : List (Nat × Nat)} {s : State} (hd : destOfCore k s = some d)
    (hl : (destGet d s).levels = (e, p) :: r) : evtDone k e s = destSet d { destGet d s with levels := r } s := by
  unfold evtDone
  rw [hd]
  dsimp only
  rw [hl]
  exact if_pos rfl

theorem evtDone_other {k d e : Nat} {s : State} (hd : destOfCore k s = some d)
    (hl : (destGet d s).levels.head?.map Prod.fst ≠ some e) :
    evtDone k e s = destSet d { destGet d s with errDone := true } s := by
  unfold evtDone
  rw [hd]
  dsimp only
  cases hv : (destGet d s).levels with
  | nil => rfl
  | cons x r =>
    rw [hv] at hl
    exact if_neg fun he => hl (by rw [List.head?_cons, Option.map_some, he])

theorem interruptTaken_run {core : Fin 7} {s : State} {e : Nat} (he : claimable core.val s = some e)
    (hr : coreRuns core.val s = true) :
    exec (.interruptTaken core) s = .next (coreSet core.val (trapEntry 11 true 0 (coreGet core.val s)) s) := by
  show execInterruptTaken core s = _
  unfold execInterruptTaken
  rw [he, hr]

/-- Settles O45. -/
theorem events : Obligations.Events := by
  unfold Obligations.Events
  refine ⟨⟨fun e s he => congrArg _ (if_pos he), fun e s he hc => ?_, fun e s he => ?_⟩, fun k e s h => claimable_shows h,
    fun i s d e hp hd he => ?_, fun i s hp he => ?_, fun i s data d p r hp hd hl => ?_, fun i s data d hp hd hl => ?_,
    fun core s e he hr => interruptTaken_run he hr⟩
  · refine congrArg Host.Outcome.next ((if_pos he).trans ?_)
    rw [raiseEvt, routeDests_of_no_cores hc, List.foldl_nil]
  · exact congrArg _ (if_neg (by rw [he]; exact Bool.false_ne_true))
  · refine congrArg Host.Outcome.next ((doorLoad_admits hp).trans ?_)
    rw [evtCore, evtClaim_some hd he]
  · refine congrArg Host.Outcome.next ((doorLoad_admits hp).trans ?_)
    rw [evtCore, evtClaim_none he]
  · refine congrArg Host.Outcome.next ((doorStore_admits hp).trans ?_)
    rw [evtCore, evtDone_latest hd hl]
  · refine congrArg Host.Outcome.next ((doorStore_admits hp).trans ?_)
    rw [evtCore, evtDone_other hd hl]

/-! ### Watchdogs and ways (R442, R453, R454, R460) -/

theorem wdogExpire_without_action {r : Nat} {s : State} (hc : wdogCounts r s = true)
    (ha : fis (wdogPage r) Reg.WDOG_CFG.ACTION s = false) (h : Registers.wf s = true) :
    wdogExpire r s = raiseEvt 1018 (fset (wdogPage r) Reg.WDOG_STAT.EXPIRED 1
      (fset (wdogPage r) Reg.WDOG_STAT.COUNT (fget (wdogPage r) Reg.WDOG_CFG.TIMEOUT s) s)) := by
  have hs : Only (page (wdogPage r) [Reg.WDOG_STAT.COUNT, Reg.WDOG_STAT.EXPIRED]) s
      (raiseEvt 1018 (fset (wdogPage r) Reg.WDOG_STAT.EXPIRED 1
        (fset (wdogPage r) Reg.WDOG_STAT.COUNT (fget (wdogPage r) Reg.WDOG_CFG.TIMEOUT s) s))) :=
    (((Only.refl h).fsetIn (by decide) _).fsetIn (by decide) _).raiseEvt _
  have ha' := (hs.flagIn (g := Reg.WDOG_CFG.ACTION) (by decide)).trans ha
  unfold wdogExpire
  rw [if_neg (by rw [hc]; decide)]
  dsimp only
  rw [if_neg (by rw [ha']; decide)]

theorem bitsOf_mod (x : Word) (lo : Nat) {w v : Nat} (h : v ≤ w) : bitsOf x lo w % 2 ^ v = bitsOf x lo v :=
  Nat.mod_mod_of_dvd _ (Nat.pow_dvd_pow 2 h)

/-- An octet of LEDG_WAYS names owner 0 for an owned way. -/
theorem waysByte (data : Word) (k : Nat) :
    ((bitsOf data (8 * k) 8).testBit 7 && bitsOf data (8 * k) 8 % 64 == 0) =
      (bitOf data (8 * k + 7) && decide (bitsOf data (8 * k) 6 = 0)) := by
  have hown : (bitsOf data (8 * k) 8).testBit 7 = bitOf data (8 * k + 7) :=
    (bitsOf_testBit data (8 * k) 8 7).trans (Bool.true_and _)
  have hroom : bitsOf data (8 * k) 8 % 64 = bitsOf data (8 * k) 6 := bitsOf_mod data (8 * k) (v := 6) (by decide)
  rw [hown, hroom, beq_eq_decide]

theorem waysWrite_range {c : Nat} {high : Bool} {data : Word} {s : State}
    (h : ∃ k < 4, bitOf data (8 * k + 7) = true ∧ bitsOf data (8 * k) 6 = 0) :
    waysWrite c high data s = fset ledgB Reg.LEDG_ERR.RANGE 1 s := by
  obtain ⟨k, hk, hown, hzero⟩ := h
  refine if_pos (List.any_eq_true.2 ⟨k, List.mem_range.2 hk, ?_⟩)
  rw [waysByte, hown, decide_eq_true hzero]
  rfl

theorem waysWrite_no_lines {c : Nat} {high : Bool} {data : Word} {s : State} (hl : s.rooms.lines = [])
    (h : ∀ k < 4, bitOf data (8 * k + 7) = true → bitsOf data (8 * k) 6 ≠ 0) :
    waysWrite c high data s = wr (ledgB + 0x40 + 8 * c + 4 * ofBool high) (data &&& 0xBFBFBFBF#32) s := by
  have hset (ls : List CacheLine) (h : ls = s.rooms.lines) : { s with rooms := { s.rooms with lines := ls } } = s := by
    rw [h]
  have hclean (p : CacheLine → Bool) : cleanLines p s = s := by
    unfold cleanLines
    rw [hl, List.filter_nil, List.foldl_nil]
    exact hset _ (by rw [hl, List.map_nil])
  have hdrop (p : CacheLine → Bool) : dropLines p s = s := hset _ (by rw [hl, List.filter_nil])
  refine (if_neg fun hany => ?_).trans (congrArg _ ((congrArg _ (hclean _)).trans (hdrop _)))
  obtain ⟨k, hk, hbad⟩ := List.any_eq_true.1 hany
  rw [waysByte, Bool.and_eq_true, decide_eq_true_eq] at hbad
  exact h k (List.mem_range.1 hk) hbad.1 hbad.2

/-- Settles O49. -/
theorem watchdogsAndWays : Obligations.WatchdogsAndWays := by
  unfold Obligations.WatchdogsAndWays
  refine ⟨fun i r key s hp => ?_, fun r s hc ha h => congrArg _ (wdogExpire_without_action hc ha h),
    fun i c high data s hp => ⟨fun h => ?_, fun hl h => ?_⟩⟩
  · refine congrArg Host.Outcome.next ((doorStore_admits hp).trans (congrArg acknowledge ?_))
    unfold wdogKick
    exact if_congr (BitVec.toNat_inj (y := 0x5744#16)) rfl rfl
  · exact congrArg Host.Outcome.next ((doorStore_admits hp).trans (congrArg acknowledge (waysWrite_range h)))
  · exact congrArg Host.Outcome.next ((doorStore_admits hp).trans (congrArg acknowledge (waysWrite_no_lines hl h)))

end Sys2Proof.Machine

namespace Sys2Proof.Tests
open Sys2Proof.Machine

/-- Two events of one PRIO are pending at the Steward: the lower number is claimed. -/
def twoPending : State := destSet 0 { pend := [704, 705] } (regs [(0x40081B00, 0x00020001), (0x40081B04, 0x00020001)] house)

theorem test_hyps_events : claimable 0 twoPending = some 704 ∧
    exec (.interruptTaken 0) twoPending = .next (coreSet 0 (trapEntry 11 true 0 (coreGet 0 twoPending)) twoPending) := by
  have h : claimable 0 twoPending = some 704 := by decide
  obtain ⟨-, -, -, -, -, -, htaken⟩ := events
  exact ⟨h, htaken 0 twoPending 704 h (by decide)⟩

end Sys2Proof.Tests
end

section
/-!
SUPPORT. Pigeonholes (R463–R475): the lock, the words and the doorbells of a channel, each operation by the part the
accessing room plays at the channel.
-/

namespace Sys2Proof.Machine

open Reg

theorem isHolder_iff {c room : Nat} {s : State} : isHolder c room s = true ↔ (phGet c s).holder = some room := beq_iff_eq

theorem isHome_iff {c room : Nat} {s : State} : isHome c room s = true ↔ phHome c s = room := beq_iff_eq

/-! ### The lock (R466, R467) -/

theorem phLockRead_free {c room : Nat} {s : State} (h : (phGet c s).holder = none) :
    phLockRead c room s = (0, phSet c { phGet c s with
      holder := some room, gen := if (phGet c s).gen = 255 then 1 else (phGet c s).gen + 1 } s) := by
  unfold phLockRead
  rw [h]

theorem phLockRead_held {c room r : Nat} {s : State} (h : (phGet c s).holder = some r) :
    phLockRead c room s = (if r = room then 0 else BitVec.ofNat 32 (r + 1), s) := by
  unfold phLockRead
  rw [h]

theorem phReleaseWrite_holder {c room : Nat} {s : State} (h : (phGet c s).holder = some room) :
    phReleaseWrite c room s = phRelease c s := if_pos (isHolder_iff.2 h)

theorem phReleaseWrite_home {c room : Nat} {s : State} (h : (phGet c s).holder ≠ some room) (hh : phHome c s = room) :
    phReleaseWrite c room s = fset (phPage c) PH_ERR.NOT_HOLDER 1 s :=
  (if_neg fun hn => h (isHolder_iff.1 hn)).trans (if_pos (isHome_iff.2 hh))

theorem phReleaseWrite_other {c room : Nat} {s : State} (h : (phGet c s).holder ≠ some room) (hh : phHome c s ≠ room) :
    phReleaseWrite c room s = s :=
  (if_neg fun hn => h (isHolder_iff.1 hn)).trans (if_neg fun hn => hh (isHome_iff.1 hn))

theorem phForce_without {key c : Nat} {s : State} (h : key ≠ 0x5046 ∨ (phGet c s).holder = none) :
    phForce key c s = s := by
  unfold phForce
  split
  · next hk =>
    rw [h.resolve_left (not_not_intro hk)]
  · rfl

theorem phForce_held {c : Nat} {s : State} (h : (phGet c s).holder.isSome = true) :
    phForce 0x5046 c s = phRelease c s := by
  obtain ⟨r, hr⟩ := Option.isSome_iff_exists.1 h
  unfold phForce
  rw [if_pos rfl, hr]

/-- A released channel with a word in IN or a GEN (R467). -/
theorem phRelease_shows {c : Nat} {s : State} (h : Registers.wf s = true)
    (hkept : (phGet c s).inq ≠ [] ∨ (phGet c s).gen ≠ 0) :
    phGet c (phRelease c s) = { phGet c s with holder := none, outq := [] } ∧ rd (phPage c + 4) (phRelease c s) = 0 := by
  let v : PhChan := { phGet c s with holder := none, outq := [] }
  have hv : v ≠ {} := by
    intro hd
    rcases hkept with hi | hg
    · exact hi (congrArg PhChan.inq hd)
    · exact hg (congrArg PhChan.gen hd)
  have hset : Registers.wf (phSet c v s) = true := (Registers.wf_of_regs rfl).trans h
  refine ⟨?_, rd_wr_self hset _ _⟩
  show tget (fun _ => ({} : PhChan)) (tset (fun _ => ({} : PhChan)) s.ph.chans c v) c = v
  rw [tset, if_neg hv, tget_tput, if_pos rfl]

/-! ### Words and doorbells (R469, R471, R472) -/

/-- The word a room writes. -/
def phWord (i : Init) (c : Nat) (data : Word) (last : Bool) (s : State) : PhWord := ⟨data, roomOf i s, (phGet c s).gen, last⟩

theorem phSend_holder {i : Init} {c : Nat} {data : Word} {last : Bool} {s : State}
    (h : (phGet c s).holder = some (roomOf i s)) :
    (8 ≤ (phGet c s).inq.length → phSend i c data last s = fset (phPage c) PH_ERR.FULL 1 s) ∧
    ((phGet c s).inq.length < 8 →
      let t := phSet c { phGet c s with inq := (phGet c s).inq ++ [phWord i c data last s] } s
      phSend i c data last s = if last then raiseEvt (576 + c) t else t) := by
  unfold phSend
  rw [if_pos (isHolder_iff.2 h)]
  exact ⟨fun hf => if_pos hf, fun hf => if_neg (Nat.not_le.2 hf)⟩

theorem phSend_home {i : Init} {c : Nat} {data : Word} {last : Bool} {s : State}
    (h : (phGet c s).holder ≠ some (roomOf i s)) (hh : phHome c s = roomOf i s) :
    (8 ≤ (phGet c s).outq.length → phSend i c data last s = fset (phPage c) PH_ERR.FULL 1 s) ∧
    ((phGet c s).outq.length < 8 → (phGet c s).holder = none ∨ (latchGet i c s).latched ≠ some (phGet c s).gen →
      phSend i c data last s = fset (phPage c) PH_ERR.STALE 1 s) ∧
    ((phGet c s).outq.length < 8 → (phGet c s).holder ≠ none → (latchGet i c s).latched = some (phGet c s).gen →
      let t := phSet c { phGet c s with outq := (phGet c s).outq ++ [phWord i c data last s] } s
      phSend i c data last s = if last then phOutBell c t else t) := by
  unfold phSend
  rw [if_neg fun hn => h (isHolder_iff.1 hn), if_pos (isHome_iff.2 hh)]
  refine ⟨fun hf => if_pos hf, fun hf hs => (if_neg (Nat.not_le.2 hf)).trans (if_pos hs), fun hf hn hl => ?_⟩
  exact (if_neg (Nat.not_le.2 hf)).trans (if_neg (not_or.2 ⟨hn, not_not_intro hl⟩))

theorem phSend_other {i : Init} {c : Nat} {data : Word} {last : Bool} {s : State}
    (h : (phGet c s).holder ≠ some (roomOf i s)) (hh : phHome c s ≠ roomOf i s) : phSend i c data last s = s := by
  unfold phSend
  rw [if_neg fun hn => h (isHolder_iff.1 hn), if_neg fun hn => hh (isHome_iff.1 hn)]

theorem phSend_run {i : Init} {chan : BitVec 6} {data : Word} {last : Bool} {s : State}
    (hp : Admits i (phPage chan.toNat + (if last then 0xC else 8)) .store s) :
    exec (if last then .phSendEnd i chan data else .phSend i chan data) s =
      .next (acknowledge (phSend i chan.toNat data last s)) := by
  cases last
  · exact congrArg Host.Outcome.next (doorStore_admits hp)
  · exact congrArg Host.Outcome.next (doorStore_admits hp)

/-! ### Pops (R470, R471) and PH_RET (R473) -/

theorem phRecv_home {i : Init} {c : Nat} {s : State} (h : phHome c s = roomOf i s) :
    ((phGet c s).inq = [] → phRecv i c s = (0, latchSet i c (phFromEmpty (latchGet i c s)) s)) ∧
    ∀ w r, (phGet c s).inq = w :: r →
      phRecv i c s = (w.data, latchSet i c ⟨phFromWord w, some w.gen⟩ (phSet c { phGet c s with inq := r } s)) := by
  unfold phRecv
  rw [if_pos (isHome_iff.2 h)]
  exact ⟨fun he => by rw [he], fun w r he => by rw [he]⟩

theorem phRecv_holder {i : Init} {c : Nat} {s : State} (h : phHome c s ≠ roomOf i s)
    (hh : (phGet c s).holder = some (roomOf i s)) {w : PhWord} {r : List PhWord} (he : (phGet c s).outq = w :: r) :
    phRecv i c s = (w.data, latchSet i c { latchGet i c s with from_ := phFromWord w }
      (phSet c { phGet c s with outq := r } s)) := by
  unfold phRecv
  rw [if_neg fun hn => h (isHome_iff.1 hn), if_pos (isHolder_iff.2 hh)]
  dsimp only
  rw [he]

theorem phRecv_other {i : Init} {c : Nat} {s : State} (h : phHome c s ≠ roomOf i s)
    (hh : (phGet c s).holder ≠ some (roomOf i s)) : phRecv i c s = (0, s) := by
  unfold phRecv
  rw [if_neg fun hn => h (isHome_iff.1 hn), if_neg fun hn => hh (isHolder_iff.1 hn)]

/-- What PH_FROM shows of a popped word, and after an empty pop. -/
theorem phFrom_shows (w : PhWord) (l : PhLatch) (hroom : w.room < 64) (hgen : w.gen < 256) :
    bitsOf (phFromWord w) 16 1 = 1 ∧ bitsOf (phFromWord w) 8 8 = w.gen ∧ bitsOf (phFromWord w) 0 6 = w.room ∧
    bitsOf (phFromWord w) 7 1 = ofBool w.last ∧ bitsOf (phFromEmpty l).from_ 16 1 = 0 ∧
    bitsOf (phFromEmpty l).from_ 0 16 = bitsOf l.from_ 0 16 ∧ (phFromEmpty l).latched = l.latched := by
  have hlast : ofBool w.last < 2 := by cases w.last <;> decide
  have hword : (phFromWord w).toNat = 2 ^ 16 + w.gen * 256 + ofBool w.last * 128 + w.room := by
    unfold phFromWord
    rw [BitVec.toNat_ofNat]
    omega
  refine ⟨?_, ?_, ?_, ?_, bitsOf_bitsPut _ _ _ _ (by decide), bitsOf_bitsPut_ne _ _ _ _ _ _ (by decide) (by decide), rfl⟩
  all_goals
    simp only [bitsOf, hword, Nat.shiftRight_eq_div_pow]
    omega

theorem phRetWrite_holder {i : Init} {c : Nat} {data : Word} {s : State} (h : (phGet c s).holder = some (roomOf i s)) :
    phRetWrite i c data s = if bitOf data 6 = true ∧ phHome (bitsOf data 0 6) s ≠ roomOf i s then
      fset (phPage c) PH_ERR.RANGE 1 s else wr (phPage c + 4) (data &&& 0x7F#32) s := if_pos (isHolder_iff.2 h)

theorem phRetWrite_other {i : Init} {c : Nat} {data : Word} {s : State} (h : (phGet c s).holder ≠ some (roomOf i s)) :
    phRetWrite i c data s = s := if_neg fun hn => h (isHolder_iff.1 hn)

/-! ### The statement -/

theorem phLock_shows :
    (∀ (i : Init) (chan : BitVec 6) (s : State), Admits i (phPage chan.toNat) .load s →
      let c := chan.toNat
      let ch := phGet c s
      (ch.holder = none → exec (.phLockRead i chan) s = .next (respondWord 0 (phSet c { ch with
        holder := some (roomOf i s), gen := if ch.gen = 255 then 1 else ch.gen + 1 } s))) ∧
      (ch.holder = some (roomOf i s) → exec (.phLockRead i chan) s = .next (respondWord 0 s)) ∧
      (∀ r, ch.holder = some r → r ≠ roomOf i s →
        exec (.phLockRead i chan) s = .next (respondWord (BitVec.ofNat 32 (r + 1)) s))) ∧
    (∀ (i : Init) (chan : BitVec 6) (s : State), Admits i (phPage chan.toNat) .store s →
      let c := chan.toNat
      ((phGet c s).holder = some (roomOf i s) →
        exec (.phRelease i chan) s = .next (acknowledge (phRelease c s))) ∧
      ((phGet c s).holder ≠ some (roomOf i s) → phHome c s = roomOf i s →
        exec (.phRelease i chan) s = .next (acknowledge (fset (phPage c) PH_ERR.NOT_HOLDER 1 s))) ∧
      ((phGet c s).holder ≠ some (roomOf i s) → phHome c s ≠ roomOf i s →
        exec (.phRelease i chan) s = .next (acknowledge s))) ∧
    (∀ (i : Init) (key : BitVec 16) (chan : BitVec 6) (s : State), Admits i 0x40090000 .store s →
      (key ≠ 0x5046 ∨ (phGet chan.toNat s).holder = none → exec (.phForce i key chan) s = .next (acknowledge s)) ∧
      (key = 0x5046 → (phGet chan.toNat s).holder.isSome = true →
        exec (.phForce i key chan) s = .next (acknowledge (phRelease chan.toNat s)))) := by
  refine ⟨fun i chan s hp => ?_, fun i chan s hp => ?_, fun i key chan s hp => ?_⟩
  · have hrun : exec (.phLockRead i chan) s = .next (respondWord (phLockRead chan.toNat (roomOf i s) s).1
        (phLockRead chan.toNat (roomOf i s) s).2) := congrArg _ (doorLoad_admits hp)
    rw [hrun]
    refine ⟨fun h => ?_, fun h => ?_, fun r h hr => ?_⟩
    · rw [phLockRead_free h]
    · rw [phLockRead_held h, if_pos rfl]
    · rw [phLockRead_held h, if_neg hr]
  · have hrun : exec (.phRelease i chan) s = .next (acknowledge (phReleaseWrite chan.toNat (roomOf i s) s)) :=
      congrArg _ (doorStore_admits hp)
    rw [hrun]
    refine ⟨fun h => ?_, fun h hh => ?_, fun h hh => ?_⟩
    · rw [phReleaseWrite_holder h]
    · rw [phReleaseWrite_home h hh]
    · rw [phReleaseWrite_other h hh]
  · have hrun : exec (.phForce i key chan) s = .next (acknowledge (phForce key.toNat chan.toNat s)) :=
      congrArg _ (doorStore_admits hp)
    rw [hrun]
    refine ⟨fun h => ?_, fun hk h => ?_⟩
    · rw [phForce_without (h.imp_left fun hk hn => hk (BitVec.eq_of_toNat_eq hn))]
    · subst hk
      exact congrArg _ (congrArg acknowledge (phForce_held h))

theorem phSend_shows (i : Init) (chan : BitVec 6) (data : Word) (last : Bool) (s : State)
    (hp : Admits i (phPage chan.toNat + (if last then 0xC else 8)) .store s) :
    let c := chan.toNat
    let ch := phGet c s
    let word : PhWord := ⟨data, roomOf i s, ch.gen, last⟩
    let cmd : Instr := if last then .phSendEnd i chan data else .phSend i chan data
    (ch.holder = some (roomOf i s) → 8 ≤ ch.inq.length →
      exec cmd s = .next (acknowledge (fset (phPage c) PH_ERR.FULL 1 s))) ∧
    (ch.holder = some (roomOf i s) → ch.inq.length < 8 →
      let t := phSet c { ch with inq := ch.inq ++ [word] } s
      exec cmd s = .next (acknowledge (if last then raiseEvt (576 + c) t else t))) ∧
    (ch.holder ≠ some (roomOf i s) → phHome c s = roomOf i s → ch.outq.length < 8 →
      (ch.holder = none ∨ (latchGet i c s).latched ≠ some ch.gen →
        exec cmd s = .next (acknowledge (fset (phPage c) PH_ERR.STALE 1 s))) ∧
      (ch.holder ≠ none → (latchGet i c s).latched = some ch.gen →
        let t := phSet c { ch with outq := ch.outq ++ [word] } s
        exec cmd s = .next (acknowledge (if last ∧ fis (phPage c) PH_RET.V s = true
          then raiseEvt (576 + fget (phPage c) PH_RET.CHAN s) t else t)))) ∧
    (ch.holder ≠ some (roomOf i s) → phHome c s = roomOf i s → 8 ≤ ch.outq.length →
      exec cmd s = .next (acknowledge (fset (phPage c) PH_ERR.FULL 1 s))) ∧
    (ch.holder ≠ some (roomOf i s) → phHome c s ≠ roomOf i s → exec cmd s = .next (acknowledge s)) := by
  intro c ch word cmd
  have hrun : exec cmd s = .next (acknowledge (phSend i c data last s)) := phSend_run hp
  rw [hrun]
  refine ⟨fun h hf => ?_, fun h hf => ?_, fun h hh hf => ⟨fun hs => ?_, fun hn hl => ?_⟩, fun h hh hf => ?_, fun h hh => ?_⟩
  · rw [(phSend_holder h).1 hf]
  · rw [(phSend_holder h).2 hf]
    rfl
  · rw [(phSend_home h hh).2.1 hf hs]
  · rw [(phSend_home h hh).2.2 hf hn hl]
    cases last
    · exact congrArg _ (congrArg _ (if_neg fun hlast => Bool.false_ne_true hlast.1).symm)
    · refine congrArg Host.Outcome.next (congrArg acknowledge ((if_pos rfl).trans (if_congr ?_ rfl rfl)))
      exact (and_iff_right (Eq.refl true)).symm
  · rw [(phSend_home h hh).1 hf]
  · rw [phSend_other h hh]

theorem phRecv_shows (i : Init) (chan : BitVec 6) (s : State) (hp : Admits i (phPage chan.toNat + 0x10) .load s) :
    let c := chan.toNat
    let ch := phGet c s
    let l := latchGet i c s
    (phHome c s = roomOf i s → ch.inq = [] → exec (.phRecv i chan) s =
      .next (respondWord 0 (latchSet i c (phFromEmpty l) s))) ∧
    (∀ w r, phHome c s = roomOf i s → ch.inq = w :: r → exec (.phRecv i chan) s =
      .next (respondWord w.data (latchSet i c ⟨phFromWord w, some w.gen⟩ (phSet c { ch with inq := r } s)))) ∧
    (∀ w r, phHome c s ≠ roomOf i s → ch.holder = some (roomOf i s) → ch.outq = w :: r → exec (.phRecv i chan) s =
      .next (respondWord w.data (latchSet i c { l with from_ := phFromWord w } (phSet c { ch with outq := r } s)))) ∧
    (phHome c s ≠ roomOf i s → ch.holder ≠ some (roomOf i s) →
      exec (.phRecv i chan) s = .next (respondWord 0 s)) := by
  intro c ch l
  have hrun : exec (.phRecv i chan) s = .next (respondWord (phRecv i c s).1 (phRecv i c s).2) :=
    congrArg _ (doorLoad_admits hp)
  rw [hrun]
  refine ⟨fun h he => ?_, fun w r h he => ?_, fun w r h hh he => ?_, fun h hh => ?_⟩
  · rw [(phRecv_home h).1 he]
  · rw [(phRecv_home h).2 w r he]
  · rw [phRecv_holder h hh he]
  · rw [phRecv_other h hh]

theorem phRetWrite_shows (i : Init) (chan : BitVec 6) (data : Word) (s : State)
    (hp : Admits i (phPage chan.toNat + 4) .store s) :
    let c := chan.toNat
    ((phGet c s).holder = some (roomOf i s) → data.getLsbD 6 = true → phHome (bitsOf data 0 6) s ≠ roomOf i s →
      exec (.phRetWrite i chan data) s = .next (acknowledge (fset (phPage c) PH_ERR.RANGE 1 s))) ∧
    ((phGet c s).holder = some (roomOf i s) → data.getLsbD 6 = false ∨ phHome (bitsOf data 0 6) s = roomOf i s →
      exec (.phRetWrite i chan data) s = .next (acknowledge (wr (phPage c + 4) (data &&& 0x7F#32) s))) ∧
    ((phGet c s).holder ≠ some (roomOf i s) → exec (.phRetWrite i chan data) s = .next (acknowledge s)) := by
  intro c
  have hrun : exec (.phRetWrite i chan data) s = .next (acknowledge (phRetWrite i c data s)) :=
    congrArg _ (doorStore_admits hp)
  rw [hrun]
  refine ⟨fun h hv hn => ?_, fun h hok => ?_, fun h => ?_⟩
  · rw [phRetWrite_holder h, if_pos ⟨hv, hn⟩]
  · rw [phRetWrite_holder h, if_neg]
    rintro ⟨hv, hn⟩
    exact hok.elim (fun hf => Bool.false_ne_true (hf.symm.trans hv)) hn
  · rw [phRetWrite_other h]

/-- Settles O34. -/
theorem pigeonholes : Obligations.Pigeonholes := by
  unfold Obligations.Pigeonholes
  obtain ⟨hread, hrelease, hforce⟩ := phLock_shows
  refine ⟨⟨hread, hrelease, hforce, fun c s h hkept => ?_⟩, phSend_shows, phRecv_shows, phFrom_shows, phRetWrite_shows⟩
  · obtain ⟨hget, hret⟩ := phRelease_shows h hkept
    rw [hget]
    exact ⟨rfl, rfl, rfl, rfl, hret⟩

end Sys2Proof.Machine

namespace Sys2Proof.Tests
open Sys2Proof.Machine

set_option maxRecDepth 8000

/-- Channel 0 is held by room 1 with a word in IN. -/
def heldChannel : State := phSet 0 { holder := some 1, gen := 7, inq := [⟨5, 1, 7, true⟩] } house

/-- The home pops the word; a release keeps what stands in IN. -/
theorem test_hyps_pigeonholes :
    exec (.phRecv .steward 0) heldChannel = .next (respondWord 5 (latchSet .steward 0 ⟨phFromWord ⟨5, 1, 7, true⟩, some 7⟩
      (phSet 0 { holder := some 1, gen := 7 } heldChannel))) ∧
    (phGet 0 (phRelease 0 heldChannel)).inq = [⟨5, 1, 7, true⟩] := by
  have hpop := (phRecv_shows .steward 0 heldChannel (by decide)).2.1 ⟨5, 1, 7, true⟩ [] (by decide) (by decide)
  have hrel := pigeonholes.1.2.2.2 0 heldChannel (by decide) (by decide)
  exact ⟨hpop, hrel.2.2.1⟩

end Sys2Proof.Tests
end

section
/-!
SUPPORT. Lists of registers, memory ranges and table entries as later parts read them; START of a cipher context
(R479, R481, R486, R494, R499).
-/

namespace Sys2Proof.Machine

open Reg

/-! ### Counters, lists of registers and table entries -/

theorem Only.fcount {l : List Place} {s t : State} (h : Only l s t) {b : Nat} {f : Fld} (hf : (b, f) ∈ l) :
    Only l s (fcount b f t) := h.fset hf _

theorem Only.wrListIn {b : Nat} {fs : List Fld} {s : State} (ws : List Word) :
    ∀ {off : Nat} {t : State}, Only (page b fs) s t → (∀ k < ws.length, regOff (off + 4 * k) ∈ fs) →
      Only (page b fs) s (wrList (b + off) ws t) := by
  induction ws with
  | nil => exact fun h _ => h
  | cons w r ih =>
    intro off t h hfs
    rw [wrList, Nat.add_assoc]
    refine ih (h.wrIn (hfs 0 (Nat.succ_pos _)) w) fun k hk => ?_
    rw [show off + 4 + 4 * k = off + 4 * (k + 1) by omega]
    exact hfs (k + 1) (Nat.succ_lt_succ hk)

theorem Only.rdList {l : List Place} {s t : State} (h : Only l s t) {a n : Nat}
    (ha : ∀ k < n, ∀ f ∈ l, a + 4 * k ≠ f.1 + f.2.off) : rdList a n t = rdList a n s :=
  List.map_congr_left fun k hk => h.rd (ha k (List.mem_range.1 hk))

theorem Only.rdListIn {b : Nat} {fs : List Fld} {s t : State} (h : Only (page b fs) s t) {off n : Nat}
    (hoff : ∀ k < n, ∀ f ∈ fs, off + 4 * k ≠ f.off) : Machine.rdList (b + off) n t = Machine.rdList (b + off) n s :=
  List.map_congr_left fun k hk => by
    have := h.rdIn (hoff k (List.mem_range.1 hk))
    rwa [← Nat.add_assoc] at this

theorem rd_wrList_below {s : State} (h : Registers.wf s = true) (ws : List Word) {a b : Nat} (hlt : b < a) :
    rd b (wrList a ws s) = rd b s := by
  induction ws generalizing a s with
  | nil => rfl
  | cons w r ih => exact (ih (Registers.wf_wr h a w) (by omega)).trans (rd_wr_ne h _ (by omega))

theorem rdList_succ (a n : Nat) (s : State) : rdList a (n + 1) s = rd a s :: rdList (a + 4) n s := by
  rw [rdList, List.range_succ_eq_map, List.map_cons, List.map_map, rdList]
  refine congrArg _ (List.map_congr_left fun k _ => ?_)
  show rd (a + 4 * (k + 1)) s = rd (a + 4 + 4 * k) s
  rw [Nat.mul_succ, Nat.add_comm (4 * k), Nat.add_assoc]

theorem rdList_wrList_self {s : State} (h : Registers.wf s = true) (a : Nat) (ws : List Word) :
    rdList a ws.length (wrList a ws s) = ws := by
  induction ws generalizing a s with
  | nil => rfl
  | cons w r ih =>
    rw [List.length_cons, rdList_succ, wrList, ih (Registers.wf_wr h a w), rd_wrList_below (Registers.wf_wr h a w) r (by omega),
      rd_wr_self h]

/-- An entry just written that is not the default. -/
theorem tget_tset_of_ne {α : Type} [DecidableEq α] {d : Nat → α} {k : Nat} {v : α} (hv : v ≠ d k) (t : Tbl α) :
    tget d (tset d t k v) k = v := by
  rw [tset, if_neg hv, tget_tput, if_pos rfl]

/-! ### Memory ranges -/

/-- A part of the state that no octet of memory changes, after a range is written. -/
theorem memWrite_same {α : Type} (p : State → α) (hp : ∀ m u, p { u with mem := m } = p u) (a : Nat) (l : List Byte)
    (s : State) : p (memWrite a l s) = p s := by
  induction l generalizing a s with
  | nil => rfl
  | cons b r ih => exact (ih (a + 1) (memPut a b s)).trans (hp _ _)

theorem Only.memWrite {l : List Place} {s t : State} (h : Only l s t) (a : Nat) (bs : List Byte) :
    Only l s (memWrite a bs t) := h.of_regs (memWrite_same (·.regs) (fun _ _ => rfl) a bs t)

theorem wf_memWrite {s : State} (h : Memory.wf s = true) (a : Nat) (l : List Byte) :
    Memory.wf (memWrite a l s) = true := by
  induction l generalizing a s with
  | nil => exact h
  | cons b r ih => exact ih (Memory.wf_memPut h a b) (a + 1)

theorem memBytes_memWrite_self {s : State} (h : Memory.wf s = true) (a : Nat) (l : List Byte) :
    memBytes a l.length (memWrite a l s) = l := by
  refine List.ext_getElem (by rw [memBytes, List.length_map, List.length_range]) fun k _ hk => ?_
  simp only [memBytes, List.getElem_map, List.getElem_range]
  exact memGet_memWrite h a l k hk

theorem memBytes_memWrite_apart {s : State} (h : Memory.wf s = true) (a : Nat) (l : List Byte) {b n : Nat}
    (hb : b + n ≤ a ∨ a + l.length ≤ b) : memBytes b n (memWrite a l s) = memBytes b n s :=
  List.map_congr_left fun k hk => memGet_memWrite_ne h a l (b + k) (by have := List.mem_range.1 hk; omega)

/-- Octets read alike where the memories and their losses are the same. -/
theorem memBytes_of_mem {s t : State} (hm : t.mem = s.mem) (hn : t.noise = s.noise) (a n : Nat) :
    memBytes a n t = memBytes a n s := by
  simp only [memBytes, memGet, hm, hn]

/-! ### Cipher pages -/

theorem cipPage_apart {n r : Nat} {g f : Fld} (hw : g.lo + g.w ≤ 32)
    (h : g.off ≠ f.off ∧ g.off < 0x1000 ∧ f.off < 0x1000) : Place.Apart (cipPage n, g) (cipPage r, f) := by
  refine ⟨hw, .inl ?_⟩
  show cipPage n + g.off ≠ cipPage r + f.off
  unfold cipPage
  omega

/-- The fields of context `n` that its operations change, and COMMON of the page of the common context's holder. -/
abbrev cipPlaces (n r : Nat) (fs : List Fld) : List Place := page (cipPage n) fs ++ [(cipPage r, CIP_NOTE.COMMON)]

theorem Only.common {n : Nat} {fs : List Fld} {s t : State} (h : Only (page (cipPage n) fs) s t) (r : Nat) :
    Only (cipPlaces n r fs) s t := h.mono (List.subset_append_left _ _)

theorem cipPlaces_apart {n r : Nat} {fs : List Fld} {g : Fld} (hg : ∀ f ∈ fs, g.Apart f)
    (hn : g.lo + g.w ≤ 32 ∧ (g.off ≠ 0x80 ∨ g.lo + g.w ≤ 1) ∧ g.off < 0x1000) :
    ∀ f ∈ cipPlaces n r fs, Place.Apart (cipPage n, g) f := by
  obtain ⟨hw, hoff, hlt⟩ := hn
  refine List.forall_mem_append.2 ⟨Only.apartIn hg, List.forall_mem_singleton.2 ?_⟩
  rcases hoff with hoff | hlo
  · exact cipPage_apart hw ⟨hoff, hlt, by decide⟩
  · exact ⟨hw, .inr (.inl hlo)⟩

theorem Only.cipField {n r : Nat} {fs : List Fld} {s t : State} (h : Only (cipPlaces n r fs) s t) {g : Fld}
    (hg : ∀ f ∈ fs, g.Apart f) (hn : g.lo + g.w ≤ 32 ∧ (g.off ≠ 0x80 ∨ g.lo + g.w ≤ 1) ∧ g.off < 0x1000) :
    Machine.fget (cipPage n) g t = Machine.fget (cipPage n) g s := h.field (cipPlaces_apart hg hn)

theorem Only.cipFlag {n r : Nat} {fs : List Fld} {s t : State} (h : Only (cipPlaces n r fs) s t) {g : Fld}
    (hg : ∀ f ∈ fs, g.Apart f) (hn : g.lo + g.w ≤ 32 ∧ (g.off ≠ 0x80 ∨ g.lo + g.w ≤ 1) ∧ g.off < 0x1000) :
    fis (cipPage n) g t = fis (cipPage n) g s := h.flag (cipPlaces_apart hg hn)

theorem Only.cipRdList {n r : Nat} {fs : List Fld} {s t : State} (h : Only (cipPlaces n r fs) s t) {off k : Nat}
    (hoff : ∀ j < k, (∀ f ∈ fs, off + 4 * j ≠ f.off) ∧ off + 4 * j ≠ 0x80 ∧ off + 4 * j < 0x1000) :
    Machine.rdList (cipPage n + off) k t = Machine.rdList (cipPage n + off) k s := by
  refine h.rdList fun j hj => ?_
  obtain ⟨hfs, hne, hlt⟩ := hoff j hj
  refine List.forall_mem_append.2 ⟨fun f hf => ?_, List.forall_mem_singleton.2 ?_⟩
  · obtain ⟨g, hg, rfl⟩ := List.mem_map.1 hf
    have := hfs g hg
    show cipPage n + off + 4 * j ≠ cipPage n + g.off
    omega
  · show cipPage n + off + 4 * j ≠ cipPage r + 0x80
    unfold cipPage
    omega

/-! ### Ends of operations (R487) -/

theorem pageNote_only {s : State} (h : Registers.wf s = true) (n : Nat) (f : Fld) :
    Only (page (cipPage n) [f]) s (pageNote n f s) := .noteIn (.refl h) (List.mem_singleton.2 (Eq.refl _)) _

/-- The fields of an operation's end. -/
abbrev endFields : List Fld := [CIP_STAT.STATE, CIP_STAT.RESULT, CIP_NOTE.DONE]

/-- The status that an operation's end writes. -/
def cipEnded (n res : Nat) (s : State) : State :=
  fset (cipPage n) CIP_STAT.STATE 2 (fset (cipPage n) CIP_STAT.RESULT res s)

theorem cipEnded_only {s : State} (h : Registers.wf s = true) (n res : Nat) :
    Only (page (cipPage n) endFields) s (cipEnded n res s) :=
  ((Only.refl h).fsetIn (f := CIP_STAT.RESULT) (by decide) _).fsetIn (f := CIP_STAT.STATE) (by decide) _

/-- What an end writes last: DONE of a page, or DONE of the common context and COMMON of its holder's page. -/
theorem cipEnd_cases (n res : Nat) (s : State) : cipEnd n res s = pageNote n CIP_NOTE.DONE (cipEnded n res s) ∨
    cipEnd n res s = fset (cipPage n) CIP_NOTE.DONE 1 (cipEnded n res s) ∨
    ∃ r, cipEnd n res s = pageNote r CIP_NOTE.COMMON (fset (cipPage n) CIP_NOTE.DONE 1 (cipEnded n res s)) := by
  unfold cipEnd
  dsimp only
  split
  · exact .inl rfl
  · split
    · exact .inr (.inr ⟨_, rfl⟩)
    · exact .inr (.inl rfl)

theorem cipEnd_only {s : State} (h : Registers.wf s = true) (n res : Nat) :
    ∃ r, Only (cipPlaces n r endFields) s (cipEnd n res s) := by
  have hend := cipEnded_only h n res
  rcases cipEnd_cases n res s with he | he | ⟨r, he⟩ <;> rw [he]
  · exact ⟨0, (hend.noteIn (by decide) _).common 0⟩
  · exact ⟨0, (hend.fsetIn (by decide) _).common 0⟩
  · exact ⟨r, ((hend.fsetIn (f := CIP_NOTE.DONE) (by decide) 1).common r).note (by simp) _⟩

theorem cipEnd_shows {s : State} (h : Registers.wf s = true) (n : Nat) {res : Nat} (hres : res < 16) :
    fget (cipPage n) CIP_STAT.STATE (cipEnd n res s) = 2 ∧ fget (cipPage n) CIP_STAT.RESULT (cipEnd n res s) = res ∧
      fis (cipPage n) CIP_NOTE.DONE (cipEnd n res s) = true := by
  have h1 := (cipEnded_only h n res).wf
  have hresult := Registers.wf_fset h (cipPage n) CIP_STAT.RESULT res
  have hstate : fget (cipPage n) CIP_STAT.STATE (cipEnded n res s) = 2 := fget_fset_lt hresult _ (by decide) (by decide)
  have hres1 : fget (cipPage n) CIP_STAT.RESULT (cipEnded n res s) = res :=
    (fget_fset_of_apart hresult _ _ (by decide)).trans (fget_fset_lt h _ hres (by decide))
  have hset : Only (page (cipPage n) [CIP_NOTE.DONE]) (cipEnded n res s) (fset (cipPage n) CIP_NOTE.DONE 1 (cipEnded n res s)) :=
    .fsetIn (.refl h1) (by decide) _
  rcases cipEnd_cases n res s with he | he | ⟨r, he⟩ <;> rw [he]
  · have hnote := pageNote_only h1 n CIP_NOTE.DONE
    exact ⟨(hnote.fieldIn (by decide)).trans hstate, (hnote.fieldIn (by decide)).trans hres1,
      fis_note h1 _ (by decide) (by decide) _⟩
  · exact ⟨(hset.fieldIn (by decide)).trans hstate, (hset.fieldIn (by decide)).trans hres1, fis_fset_one h1 _ (by decide)⟩
  · have hnote : Only (cipPlaces n r [CIP_NOTE.DONE]) _ (pageNote r CIP_NOTE.COMMON _) :=
      (hset.common r).note (by simp) _
    have hdone : Place.Apart (cipPage n, CIP_NOTE.DONE) (cipPage r, CIP_NOTE.COMMON) :=
      ⟨show CIP_NOTE.DONE.lo + CIP_NOTE.DONE.w ≤ 32 by decide,
        .inr (.inl (show CIP_NOTE.DONE.lo + CIP_NOTE.DONE.w ≤ CIP_NOTE.COMMON.lo by decide))⟩
    have hcommon := (Only.refl (Registers.wf_fset h1 (cipPage n) CIP_NOTE.DONE 1)).note
      (l := [(cipPage r, CIP_NOTE.COMMON)]) (List.mem_singleton.2 (Eq.refl _)) (640 + r)
    exact ⟨(hnote.cipField (by decide) (by decide)).trans hstate, (hnote.cipField (by decide) (by decide)).trans hres1,
      (hcommon.flag (List.forall_mem_singleton.2 hdone)).trans (fis_fset_one h1 _ (by decide))⟩

/-- A part of the state that neither a register nor a raised event changes, after an end. -/
theorem cipEnd_same {α : Type} (p : State → α) (n res : Nat) (s : State) (hr : ∀ e t, p (raiseEvt e t) = p t)
    (hw : ∀ a v t, p (wr a v t) = p t) : p (cipEnd n res s) = p s := by
  have hend : p (cipEnded n res s) = p s := (hw _ _ _).trans (hw _ _ _)
  rcases cipEnd_cases n res s with he | he | ⟨r, he⟩ <;> rw [he]
  · exact (note_same p _ _ _ _ (hr _) hw).trans hend
  · exact (hw _ _ _).trans hend
  · exact (note_same p _ _ _ _ (hr _) hw).trans ((hw _ _ _).trans hend)

theorem cipForget_only {s : State} (h : Registers.wf s = true) (n : Nat) :
    Only (page (cipPage n) [CIP_STAT.CHAIN]) s (cipForget n s) := by
  have hput : Only (page (cipPage n) [CIP_STAT.CHAIN]) s
      (cipPut n {} { s with cip := { s.cip with waiting := s.cip.waiting.filter fun k => k != n } }) :=
    (Only.refl h).of_regs (Eq.refl s.regs)
  exact hput.fsetIn (by decide) _

theorem fis_chain_cipForget {s : State} (h : Registers.wf s = true) (n : Nat) :
    fis (cipPage n) CIP_STAT.CHAIN (cipForget n s) = false :=
  fis_fset_zero ((Registers.wf_of_regs (Eq.refl s.regs)).trans h) _ (by decide)

/-- A refused START (R481). -/
theorem cipRefuse_shows {s : State} (h : Registers.wf s = true) (n : Nat) {res : Nat} (hres : res < 16) :
    let t := cipRefuse n res s
    fget (cipPage n) CIP_STAT.STATE t = 2 ∧ fget (cipPage n) CIP_STAT.RESULT t = res ∧
      fis (cipPage n) CIP_STAT.CHAIN t = false ∧ t.mem = s.mem ∧ t.keys = s.keys ∧
      rdList (cipPage n + 0x60) 8 t = rdList (cipPage n + 0x60) 8 s := by
  have hforget := cipForget_only h n
  obtain ⟨r, hend⟩ := cipEnd_only hforget.wf n res
  obtain ⟨hstate, hresult, -⟩ := cipEnd_shows hforget.wf n hres
  exact ⟨hstate, hresult, (hend.cipFlag (by decide) (by decide)).trans (fis_chain_cipForget h n),
    cipEnd_same (·.mem) n res _ raiseEvt_mem fun _ _ _ => rfl, cipEnd_same (·.keys) n res _ raiseEvt_keys fun _ _ _ => rfl,
    (hend.cipRdList (by decide)).trans (hforget.rdListIn (by decide))⟩

/-! ### A START's checks (R479, R481, R486) -/

theorem cipModeOk_iff {n : Nat} {first last : Bool} {s : State} : cipModeOk n first last s = true →
    1 ≤ cipMode n s ∧ cipMode n s ≤ 7 ∧ (cipMode n s = 1 → first = true ∧ last = true) ∧
      (first = true ∨ cipChain n s = true) := by
  intro h
  simp only [cipModeOk, Bool.and_eq_true, decide_eq_true_eq, Bool.or_eq_true, Bool.not_eq_true'] at h
  obtain ⟨⟨⟨⟨⟨⟨hmode, -⟩, -⟩, -⟩, -⟩, hccm⟩, hchain⟩ := h
  refine ⟨hmode.1, hmode.2, fun hm => ?_, hchain⟩
  rw [hm] at hccm
  simpa using hccm

theorem cipLenOk_le {n : Nat} {first last : Bool} {s : State} (h : cipLenOk n first last s = true) :
    cipAlen n s + cipMlen n s ≤ 2048 := by
  simp only [cipLenOk, Bool.and_eq_true, decide_eq_true_eq] at h
  exact h.1.1.1.1

theorem cipCmdAs_shows {room n : Nat} (s : State) {key : Nat} {start first last abort clear : Bool} :
    (n = 64 → cipHeld room s = false → cipCmdAs room n key start first last abort clear s = s) ∧
    (n < 64 ∨ cipHeld room s = true →
      cipCmdAs room n key start first last abort clear s = cipCmd n key start first last abort clear s) := by
  refine ⟨fun hn hh => if_pos ⟨hn, hh⟩, fun h => if_neg ?_⟩
  rintro ⟨hn, hh⟩
  rcases h with h | h
  · omega
  · exact Bool.false_ne_true (hh.symm.trans h)

theorem cipCmd_start_refused {n key : Nat} {first last abort clear : Bool} {s : State}
    (h : key ≠ 0x4350 ∨ cipBusy n s = true ∨ abort = true ∨ clear = true) :
    cipCmd n key true first last abort clear s = fset (cipPage n) CIP_ERR.CMD 1 s :=
  if_pos (h.imp_right fun h => ⟨Eq.refl true, h⟩)

theorem cipCmd_start {n : Nat} {first last : Bool} {s : State} (h : cipBusy n s = false) :
    cipCmd n 0x4350 true first last false false s = cipStart n first last s := by
  unfold cipCmd
  rw [if_neg (by simp [h]), if_pos rfl]

theorem cipStart_shows (n : Nat) (first last : Bool) (s : State) :
    (cipModeOk n first last s = false → cipStart n first last s = cipRefuse n 7 s) ∧
    (cipModeOk n first last s = true → cipLenOk n first last s = false → cipStart n first last s = cipRefuse n 8 s) ∧
    (cipModeOk n first last s = true → cipLenOk n first last s = true → cipKeyOk n s = false →
      cipStart n first last s = cipRefuse n 5 s) ∧
    (cipModeOk n first last s = true → cipLenOk n first last s = true → cipKeyOk n s = true →
      first = true → cipSend n s = true → slotSpent (cipSlot n s) s = true →
      cipStart n first last s = cipRefuse n 6 s) ∧
    (cipModeOk n first last s = true → cipLenOk n first last s = true → cipKeyOk n s = true →
      cipSend n s = false ∨ slotSpent (cipSlot n s) s = false → cipStart n first last s = cipAccept n first last s) := by
  unfold cipStart
  refine ⟨fun hm => ?_, fun hm hl => ?_, fun hm hl hk => ?_, fun hm hl hk hf hs hsp => ?_, fun hm hl hk h => ?_⟩
  · rw [hm, if_pos (by rfl)]
  · rw [hm, hl, if_neg (by decide), if_pos (by rfl)]
  · rw [hm, hl, hk, if_neg (by decide), if_neg (by decide), if_pos (by rfl)]
  · rw [hm, hl, hk, hf, hs, hsp, if_neg (by decide), if_neg (by decide), if_neg (by decide), if_pos (by rfl)]
  · rw [hm, hl, hk, if_neg (by decide), if_neg (by decide), if_neg (by decide), if_neg]
    rcases h with h | h <;> simp [h]

/-! ### The counter of a send (R494, R495, R524) -/

theorem shelfGet_shelfPut_some (e : Nat) (v : ShelfEntry) (s : State) (j : Nat) :
    shelfGet j (shelfPut e (some v) s) = if j = e then some v else shelfGet j s := by
  show tget (fun _ => none) (tset (fun _ => none) s.keys.shelf e (some v)) j = _
  rw [tset, if_neg (Option.some_ne_none v), tget_tput, shelfGet]

/-- The marks of an entry. -/
def entryMarks (e : Nat) (s : State) : Option (Nat × Nat) := (shelfGet e s).map fun w => (w.fcMark, w.gcMark)

theorem entryMarks_shelfLog (e : Nat) (r : ShelfRec) (s : State) : entryMarks e (shelfLog r s) = entryMarks e s := rfl

theorem entryMarks_shelfPut (e : Nat) (v : ShelfEntry) (s : State) (j : Nat) :
    entryMarks j (shelfPut e (some v) s) = if j = e then some (v.fcMark, v.gcMark) else entryMarks j s := by
  rw [entryMarks, shelfGet_shelfPut_some]
  split <;> rfl

theorem spend_cases (k : Nat) (s : State) : (slotSpent k s = true ∧ spend k s = s) ∨
    ∃ u, u.keys.slots = s.keys.slots ∧ u.regs = (fset (slotB k) KEY_SLOT.SPENT 1 s).regs ∧ u.cip = s.cip ∧
      (∀ e, entryMarks e u = entryMarks e s) ∧ spend k s = pageNote (slotOwner k s) CIP_NOTE.KEY_SPENT u := by
  unfold spend
  split
  · next h => exact .inl ⟨h, rfl⟩
  · refine .inr ?_
    dsimp only
    split
    · next v hv =>
      refine ⟨shelfLog (.mark v.serial) (shelfPut (slotEntryNo k s) (some { v with spent := true })
        (fset (slotB k) KEY_SLOT.SPENT 1 s)), rfl, rfl, rfl, fun e => ?_, rfl⟩
      rw [entryMarks_shelfLog, entryMarks_shelfPut]
      split
      · next he => rw [he, entryMarks, show shelfGet (slotEntryNo k s) s = some v from hv, Option.map_some]
      · rfl
    · exact ⟨fset (slotB k) KEY_SLOT.SPENT 1 s, rfl, rfl, rfl, fun _ => rfl, rfl⟩

/-- The registers that a slot's exhaustion writes. -/
abbrev spendPlaces (k r : Nat) : List Place := [(slotB k, KEY_SLOT.SPENT), (cipPage r, CIP_NOTE.KEY_SPENT)]

theorem spendIfOut_shows {s : State} (h : Registers.wf s = true) (k : Nat) :
    (∃ r, Only (spendPlaces k r) s (spendIfOut k s)) ∧ (spendIfOut k s).keys.slots = s.keys.slots ∧
      (spendIfOut k s).cip = s.cip := by
  have hself : (∃ r, Only (spendPlaces k r) s s) ∧ s.keys.slots = s.keys.slots ∧ s.cip = s.cip := ⟨⟨0, .refl h⟩, rfl, rfl⟩
  unfold spendIfOut
  split
  · rcases spend_cases k s with ⟨-, he⟩ | ⟨u, hslots, hregs, hcip, -, he⟩ <;> rw [he]
    · exact hself
    · refine ⟨⟨slotOwner k s, ?_⟩, (congrArg _ (note_keys _ _ _ _)).trans hslots, (note_cip _ _ _ _).trans hcip⟩
      have hset : Only (spendPlaces k (slotOwner k s)) s (fset (slotB k) KEY_SLOT.SPENT 1 s) :=
        (Only.refl h).fset (List.mem_cons_self ..) 1
      exact (hset.of_regs hregs).note (List.mem_cons_of_mem _ (List.mem_singleton.2 (Eq.refl _))) _
  · exact hself

theorem markNear_cases (k v : Nat) (gcm : Bool) (s : State) : markNear k v gcm s = s ∨
    ∃ m, markNear k v gcm s = slotPut k { slotGet k s with marking := some m } s := by
  unfold markNear
  split
  · next e _ _ =>
    dsimp only
    generalize (if gcm = true then (e.fcMark, min gcTop (e.gcMark + 4096)) else (min fcTop (e.fcMark + 4096), e.gcMark)) = m
    split_ifs
    · exact .inr ⟨m, rfl⟩
    · exact .inl rfl
    · exact .inr ⟨m, rfl⟩
    · exact .inl rfl
  · exact .inl rfl

theorem slotGet_slotPut {k : Nat} {v : KeySlot} (hv : v ≠ {}) (s : State) : slotGet k (slotPut k v s) = v :=
  tget_tset_of_ne hv s.keys.slots

theorem slotGet_of_slots {s t : State} (h : t.keys.slots = s.keys.slots) (k : Nat) : slotGet k t = slotGet k s := by
  rw [slotGet, h, slotGet]

/-- A frame counter value drawn: the counter is one higher, and the registers of an exhausted slot alone change. -/
theorem fcDraw_shows {s : State} (h : Registers.wf s = true) (k : Nat) :
    (fcDraw k s).1 = (slotGet k s).fc ∧ (slotGet k (fcDraw k s).2).fc = (slotGet k s).fc + 1 ∧
      (fcDraw k s).2.cip = s.cip ∧ ∃ r, Only (spendPlaces k r) s (fcDraw k s).2 := by
  let next : KeySlot := { slotGet k s with fc := (slotGet k s).fc + 1 }
  have hnext : next ≠ {} := fun hd => Nat.succ_ne_zero _ (congrArg KeySlot.fc hd)
  let s1 := slotPut k next s
  have hget1 : slotGet k s1 = next := slotGet_slotPut hnext s
  let s2 := markNear k (slotGet k s).fc false s1
  have h2 : s2.regs = s.regs ∧ s2.cip = s.cip ∧ (slotGet k s2).fc = (slotGet k s).fc + 1 := by
    rcases markNear_cases k (slotGet k s).fc false s1 with he | ⟨m, he⟩ <;> simp only [s2, he]
    · exact ⟨rfl, rfl, congrArg KeySlot.fc hget1⟩
    · refine ⟨rfl, rfl, (congrArg KeySlot.fc (slotGet_slotPut ?_ s1)).trans (congrArg KeySlot.fc hget1)⟩
      exact fun hd => nomatch congrArg KeySlot.marking hd
  obtain ⟨hregs, hcip, hfc⟩ := h2
  obtain ⟨⟨r, honly⟩, hslots, hcip3⟩ := spendIfOut_shows ((Registers.wf_of_regs hregs).trans h) k
  exact ⟨rfl, (congrArg KeySlot.fc (slotGet_of_slots hslots k)).trans hfc, hcip3.trans hcip, r,
    ((Only.refl h).of_regs hregs).trans honly⟩

theorem spendPlaces_apart {n k r : Nat} (hk : k < 128) {g : Fld} (hg : g.lo + g.w ≤ 32 ∧ g.off ≠ 0x80 ∧ g.off < 0x1000) :
    ∀ f ∈ spendPlaces k r, Place.Apart (cipPage n, g) f := by
  obtain ⟨hw, hoff, hlt⟩ := hg
  refine List.forall_mem_cons.2 ⟨⟨hw, .inl ?_⟩, List.forall_mem_singleton.2 (cipPage_apart hw ⟨hoff, hlt, by decide⟩)⟩
  show cipPage n + g.off ≠ slotB k + 0x400
  unfold cipPage slotB keyB
  omega

theorem cipGet_cipPut {n : Nat} {v : CipCtx} (hv : v ≠ {}) (s : State) : cipGet n (cipPut n v s) = v :=
  tget_tset_of_ne hv s.cip.ctxs

/-- A CCM* context draws its counter (R494). -/
theorem cipDraw_shows {n k : Nat} {s : State} (h : Registers.wf s = true) (hk : k < 128) (hm : cipMode n s = 1)
    (hfirst : (cipGet n s).first = true) :
    let t := cipDraw n k s
    rd (cipPage n + 0x14) t = BitVec.ofNat 32 (slotGet k s).fc ∧ (slotGet k t).fc = (slotGet k s).fc + 1 ∧
      cipBusy n t = cipBusy n s ∧ (cipGet n t).wants = none := by
  obtain ⟨hval, hnext, hcip, r, honly⟩ := fcDraw_shows h k
  let c := cipGet n (fcDraw k s).2
  let v : CipCtx := { c with iv := nonceWith c.iv (fcDraw k s).1, wants := none }
  let u := cipPut n v (fcDraw k s).2
  let s1 := wr (cipPage n + 0x14) (BitVec.ofNat 32 (fcDraw k s).1) u
  have hc : c = cipGet n s := by
    show tget _ (fcDraw k s).2.cip.ctxs n = tget _ s.cip.ctxs n
    rw [hcip]
  have hv : v ≠ {} := fun hd => by
    have hf : c.first = false := congrArg CipCtx.first hd
    rw [hc, hfirst] at hf
    exact Bool.false_ne_true hf.symm
  have hu : Only (page (cipPage n) [regOff 0x14]) u u := .refl honly.wf
  have hwr : Only (page (cipPage n) [regOff 0x14]) u s1 := hu.wrIn (off := 0x14) (by decide) _
  have hs1 : rd (cipPage n + 0x14) s1 = BitVec.ofNat 32 (slotGet k s).fc ∧ (slotGet k s1).fc = (slotGet k s).fc + 1 ∧
      cipBusy n s1 = cipBusy n s ∧ (cipGet n s1).wants = none := by
    refine ⟨(rd_wr_self honly.wf _ _).trans (by rw [hval]), hnext, ?_, congrArg CipCtx.wants (cipGet_cipPut hv _)⟩
    show (fget (cipPage n) CIP_STAT.STATE s1 == 1) = (fget (cipPage n) CIP_STAT.STATE s == 1)
    rw [hwr.fieldIn (by decide), show fget (cipPage n) CIP_STAT.STATE u = fget (cipPage n) CIP_STAT.STATE s from
      honly.field (spendPlaces_apart hk (by decide))]
  unfold cipDraw
  rw [if_pos hm]
  dsimp only
  split
  · obtain ⟨hrd, hfc, hbusy, hwants⟩ := hs1
    refine ⟨(memWrite_same (rd (cipPage n + 0x14)) (fun _ _ => rfl) _ _ _).trans hrd,
      (memWrite_same (fun t => (slotGet k t).fc) (fun _ _ => rfl) _ _ _).trans hfc,
      (memWrite_same (cipBusy n) (fun _ _ => rfl) _ _ _).trans hbusy,
      (memWrite_same (fun t => (cipGet n t).wants) (fun _ _ => rfl) _ _ _).trans hwants⟩
  · exact hs1

theorem cipServe_one {n k : Nat} {s : State} (hw : (cipGet n s).wants = some k) (hr : cipReady n k s = true) :
    cipServe [n] s =
      cipDraw n k { s with cip := { s.cip with waiting := s.cip.waiting.filter fun x => x != n } } := by
  rw [cipServe, hw]
  dsimp only
  rw [if_pos hr, cipServe]

/-! ### An accepted START (R478, R486, R494) -/

/-- What a context holds from an accepted START on. -/
def cipBegun (n : Nat) (first last send : Bool) (s : State) : CipCtx :=
  { key := cipKey n s, iv := if first then rdBytes (cipPage n + 0x20) 4 s else (cipGet n s).iv, first := first, last := last
    wants := if send then some (cipSlot n s) else none
    aad := if first then [] else (cipGet n s).aad, text := if first then [] else (cipGet n s).text }

/-- A context BUSY with an accepted START. -/
def cipStarted (n : Nat) (first last send : Bool) (s : State) : State :=
  fset (cipPage n) CIP_STAT.STATE 1 (cipPut n (cipBegun n first last send s) s)

theorem cipAccept_plain {n : Nat} {first last : Bool} {s : State} (h : first = false ∨ cipSend n s = false) :
    cipAccept n first last s = cipStarted n first last false s := by
  have hsend : (first && cipSend n s) = false := by rcases h with h | h <;> simp [h]
  unfold cipAccept
  rw [hsend]
  rfl

theorem cipAccept_send {n : Nat} {last : Bool} {s : State} (h : cipSend n s = true) :
    cipAccept n true last s =
      cipServe [n] { cipStarted n true last true s with
        cip := { (cipStarted n true last true s).cip with
          waiting := (cipStarted n true last true s).cip.waiting ++ [n] } } := by
  unfold cipAccept
  rw [h]
  rfl

theorem cipStarted_busy {s : State} (h : Registers.wf s = true) (n : Nat) (first last send : Bool) :
    cipBusy n (cipStarted n first last send s) = true :=
  beq_iff_eq.2 (fget_fset_lt ((Registers.wf_of_regs (Eq.refl s.regs)).trans h) _ (by decide) (by decide))

theorem cipAccept_send_shows {n : Nat} {last : Bool} {s : State} (h : Registers.wf s = true) (hs : cipSend n s = true)
    (hm : cipMode n s = 1) (hr : fcReady (cipSlot n s) s = true) :
    let k := cipSlot n s
    let t := cipAccept n true last s
    rd (cipPage n + 0x14) t = BitVec.ofNat 32 (slotGet k s).fc ∧ (slotGet k t).fc = (slotGet k s).fc + 1 ∧
      cipBusy n t = true ∧ (cipGet n t).wants = none := by
  intro k t
  let c := cipBegun n true last true s
  have hc : c ≠ {} := fun hd => Bool.false_ne_true (congrArg CipCtx.first hd).symm
  let u := cipStarted n true last true s
  have hput : Only (page (cipPage n) [CIP_STAT.STATE]) s (cipPut n c s) := (Only.refl h).of_regs (Eq.refl s.regs)
  have hu : Only (page (cipPage n) [CIP_STAT.STATE]) s u := hput.fsetIn (by decide) _
  let w : State := { u with cip := { u.cip with waiting := (u.cip.waiting ++ [n]).filter fun x => x != n } }
  have hmode : cipMode n u = 1 := (hu.fieldIn (by decide)).trans hm
  have hget : cipGet n u = c := cipGet_cipPut hc s
  have hready : cipReady n k u = true := by
    rw [cipReady, if_pos hmode]
    refine Eq.trans ?_ hr
    unfold fcReady
    rw [show slotEntryNo k u = slotEntryNo k s from hu.field fun f hf => ?_]
    · rfl
    · rw [List.mem_singleton.1 hf]
      refine ⟨show KEY_SLOT.ENTRY.lo + KEY_SLOT.ENTRY.w ≤ 32 by decide, .inl ?_⟩
      have := fget_lt (cipPage n) CIP_CTRL.SLOT s
      have hk : k < 128 := this
      show slotB k + 0x400 ≠ cipPage n + 8
      unfold slotB keyB cipPage
      omega
  have ht : t = cipDraw n k w := (cipAccept_send hs).trans (cipServe_one (congrArg CipCtx.wants hget) hready)
  obtain ⟨hrd, hfc, hbusy, hwants⟩ := cipDraw_shows (n := n) (s := w) ((Registers.wf_of_regs (Eq.refl u.regs)).trans hu.wf)
    (fget_lt (cipPage n) CIP_CTRL.SLOT s) hmode (congrArg CipCtx.first hget)
  rw [ht]
  exact ⟨hrd, hfc, hbusy.trans (cipStarted_busy h n true last true), hwants⟩

/-- Settles O35. -/
theorem cipherStart : Obligations.CipherStart := by
  unfold Obligations.CipherStart
  refine ⟨fun i ctx key first last abort clear s hp => ?_, fun n res s _ hres h => cipRefuse_shows h n hres,
    fun n first last s _ h => ⟨?_, ?_, ?_, ?_, ?_, ?_⟩⟩
  · have hrun : exec (.cipStart i ctx key first last abort clear) s =
        .next (acknowledge (cipCmdAs (roomOf i s) ctx.val key.toNat true first last abort clear s)) :=
      congrArg _ (doorStore_admits hp)
    obtain ⟨hout, hin⟩ := cipCmdAs_shows (room := roomOf i s) (n := ctx.val) s (key := key.toNat) (start := true)
      (first := first) (last := last) (abort := abort) (clear := clear)
    rw [hrun]
    refine ⟨fun hn hh => by rw [hout hn hh], fun hn => ?_⟩
    rw [hin hn]
    refine ⟨fun hc => ?_, fun hkey hb ha hc => ?_⟩
    · rw [cipCmd_start_refused (hc.imp_left fun hk hn => hk (BitVec.eq_of_toNat_eq hn))]
    · subst hkey ha hc
      have hstart : cipCmd ctx.val (0x4350 : BitVec 16).toNat true first last false false s = cipStart ctx.val first last s :=
        cipCmd_start hb
      rw [hstart]
      obtain ⟨hmode, hlen, hkeyref, hspent, hok⟩ := cipStart_shows ctx.val first last s
      exact ⟨fun hm => by rw [hmode hm], fun hm hl => by rw [hlen hm hl], fun hm hl hk => by rw [hkeyref hm hl hk],
        fun hm hl hk hf hs hsp => by rw [hspent hm hl hk hf hs hsp], fun hm hl hk ho => by rw [hok hm hl hk ho]⟩
  · intro hm
    refine Bool.eq_false_iff.2 fun hok => ?_
    obtain ⟨hlo, hhi, -⟩ := cipModeOk_iff hok
    omega
  · intro hf hc
    refine Bool.eq_false_iff.2 fun hok => ?_
    obtain ⟨-, -, -, hchain⟩ := cipModeOk_iff hok
    rw [hf, hc] at hchain
    simp at hchain
  · intro hm hfl
    refine Bool.eq_false_iff.2 fun hok => ?_
    obtain ⟨-, -, hccm, -⟩ := cipModeOk_iff hok
    obtain ⟨hf, hl⟩ := hccm hm
    rw [hf, hl] at hfl
    simp at hfl
  · intro hlen
    exact Bool.eq_false_iff.2 fun hok => absurd (cipLenOk_le hok) (Nat.not_le.2 hlen)
  · intro hp
    rw [cipAccept_plain hp]
    refine ⟨cipStarted_busy h n first last false, fun hf => congrArg CipCtx.key (cipGet_cipPut (fun hd => ?_) s), rfl, rfl⟩
    exact Bool.false_ne_true ((congrArg CipCtx.first hd).symm.trans hf)
  · intro hf hs hm hr
    subst hf
    exact cipAccept_send_shows h hs hm hr

end Sys2Proof.Machine

namespace Sys2Proof.Tests
open Sys2Proof.Machine

set_option maxRecDepth 8000

/-- A send of 4 octets under slot 0, whose frame counter stands at 9 below its mark. -/
def sendingContext : State :=
  let s := regs [(0x60000000, 0x81#32), (0x6000000C, 0x00040000#32), (0x400B0400, 0x80000000#32)] house
  { s with keys := { s.keys with
      slots := [(0, { fc := 9 })]
      shelf := [(0, some { key := List.replicate 16 1, owner := 0, cls := 0, fcMark := 20, gcMark := 20, ident := 1
                           gen := 0, sel := 0, meas := [], spent := false, serial := 1 })] } }

/-- The send takes the value 9, once. -/
theorem test_hyps_cipherStart :
    rd 0x60000014 (cipAccept 0 true true sendingContext) = 9 ∧
      (slotGet 0 (cipAccept 0 true true sendingContext)).fc = 10 := by
  obtain ⟨-, -, -, -, -, hsend⟩ := cipherStart.2.2 0 true true sendingContext (by decide) (by decide)
  obtain ⟨hrd, hfc, -⟩ := hsend rfl (by decide) (by decide) (by decide)
  exact ⟨hrd, hfc⟩

end Sys2Proof.Tests
end

section
/-!
SUPPORT. The lengths of AES and CCM* results; what giving entropy changes; ends of cipher operations and the common
context's lock (R487–R505).
-/

namespace Sys2Proof.Machine

open Reg

/-! ### Lengths (FIPS 197, CCM*) -/

theorem length_of_getD {l : List (List Nat)} {m : Nat} (h : ∀ w ∈ l, w.length = m) {i : Nat} (hi : i < l.length) :
    (l.getD i []).length = m := by
  rw [List.getD_eq_getElem _ _ hi]
  exact h _ (List.getElem_mem hi)

theorem aesKeyWord_length {nk i rcon : Nat} {ws : List (List Nat)} (h : ∀ w ∈ ws, w.length = 4) (hnk : 0 < nk)
    (hi : nk ≤ i) (hl : ws.length = i) : (aesKeyWord nk i rcon ws).length = 4 := by
  have hprev : (ws.getD (i - 1) []).length = 4 := length_of_getD h (by omega)
  have hback : (ws.getD (i - nk) []).length = 4 := length_of_getD h (by omega)
  unfold aesKeyWord
  dsimp only
  rw [List.length_zipWith, hback]
  have ht : ∀ t : List Nat, t.length = 4 → min 4 t.length = 4 := fun t ht => by rw [ht]; rfl
  apply ht
  split
  · split
    · next a r he =>
      rw [he] at hprev
      simp only [List.length_map, List.length_zipIdx, List.length_append, List.length_cons, List.length_nil] at hprev ⊢
      exact hprev
    · next he =>
      rw [he] at hprev
      exact hprev
  · split
    · rw [List.length_map, hprev]
    · exact hprev

theorem aesExpand_words (nk : Nat) (hnk : 0 < nk) : ∀ (n i rcon : Nat) (ws : List (List Nat)),
    (∀ w ∈ ws, w.length = 4) → nk ≤ i → ws.length = i →
      (∀ w ∈ aesExpand nk n i rcon ws, w.length = 4) ∧ (aesExpand nk n i rcon ws).length = i + n
  | 0, _, _, _, h, _, hl => ⟨h, hl⟩
  | n + 1, i, rcon, ws, h, hi, hl => by
    have hword : (aesKeyWord nk i rcon ws).length = 4 := aesKeyWord_length h hnk hi hl
    obtain ⟨hall, hlen⟩ := aesExpand_words nk hnk n (i + 1) (if i % nk = 0 then xtime rcon else rcon)
      (ws ++ [aesKeyWord nk i rcon ws]) (List.forall_mem_append.2 ⟨h, List.forall_mem_singleton.2 hword⟩) (by omega)
      (by rw [List.length_append, hl, List.length_singleton])
    exact ⟨hall, by rw [aesExpand, hlen]; omega⟩

theorem length_flatten_four {l : List (List Nat)} (h : ∀ w ∈ l, w.length = 4) : l.flatten.length = 4 * l.length := by
  induction l with
  | nil => rfl
  | cons w r ih =>
    rw [List.flatten_cons, List.length_append, h w (List.mem_cons_self ..), ih fun v hv => h v (List.mem_cons_of_mem _ hv),
      List.length_cons]
    omega

theorem aesAdd_length {ws : List (List Nat)} (h : ∀ w ∈ ws, w.length = 4) {r : Nat} (hr : 4 * r + 4 ≤ ws.length)
    {x : List Nat} (hx : x.length = 16) : (aesAdd ws r x).length = 16 := by
  have hkey : (((ws.drop (4 * r)).take 4).flatten).length = 16 := by
    rw [length_flatten_four fun w hw => h w (List.mem_of_mem_drop (List.mem_of_mem_take hw)), List.length_take, List.length_drop]
    omega
  rw [aesAdd, List.length_zipWith, hx, hkey]
  rfl

theorem aesSubShift_length (x : List Nat) : (aesSubShift x).length = 16 := by
  rw [aesSubShift, List.length_map, List.length_range]

theorem aesMix_length (x : List Nat) : (aesMix x).length = 16 := by
  simp only [aesMix, aesMixCol, List.length_flatMap, List.length_map, List.length_range]
  rfl

theorem aesRounds_length {ws : List (List Nat)} (h : ∀ w ∈ ws, w.length = 4) : ∀ (n r : Nat) (x : List Nat),
    4 * (r + n) ≤ ws.length → x.length = 16 → (aesRounds ws n r x).length = 16
  | 0, _, _, _, hx => hx
  | 1, _, _, hr, _ => aesAdd_length h (by omega) (aesSubShift_length _)
  | n + 2, r, x, hr, _ =>
    aesRounds_length h (n + 1) (r + 1) _ (by omega) (aesAdd_length h (by omega) (aesMix_length _))

theorem length_fit (n : Nat) (l : List Byte) : (fit n l).length = n := by
  rw [fit, List.length_take, List.length_append, List.length_replicate]
  omega

theorem aes_length {key : List Byte} (hkey : 4 ≤ key.length) (block : List Byte) : (aes key block).length = 16 := by
  have hnk : 0 < key.length / 4 := by omega
  have hk0 : ∀ w ∈ (List.range (key.length / 4)).map fun i => ((key.drop (4 * i)).take 4).map fun b => b.toNat,
      w.length = 4 := by
    intro w hw
    obtain ⟨i, hi, rfl⟩ := List.mem_map.1 hw
    have := List.mem_range.1 hi
    rw [List.length_map, List.length_take, List.length_drop]
    omega
  obtain ⟨hall, hlen⟩ := aesExpand_words _ hnk (4 * (key.length / 4 + 7) - key.length / 4) (key.length / 4) 1 _ hk0
    (Nat.le_refl _) (by rw [List.length_map, List.length_range])
  unfold aes
  dsimp only
  rw [List.length_map]
  refine aesRounds_length hall _ _ _ (by omega) (aesAdd_length hall (by omega) ?_)
  rw [List.length_map, length_fit]

theorem aesExpand_empty : ∀ (n i rcon : Nat) (ws : List (List Nat)), (∀ w ∈ ws, w = []) →
    ∀ w ∈ aesExpand 0 n i rcon ws, w = []
  | 0, _, _, _, h => h
  | n + 1, i, rcon, ws, h => by
    refine aesExpand_empty n (i + 1) _ _ (List.forall_mem_append.2 ⟨h, List.forall_mem_singleton.2 ?_⟩)
    have hback : ws.getD (i - 0) [] = [] := by
      by_cases hi : i - 0 < ws.length
      · rw [List.getD_eq_getElem _ _ hi]
        exact h _ (List.getElem_mem hi)
      · exact List.getD_eq_default _ _ (by omega)
    unfold aesKeyWord
    dsimp only
    rw [hback, List.zipWith_nil_left]

theorem aesAdd_empty {ws : List (List Nat)} (h : ∀ w ∈ ws, w = []) (r : Nat) (x : List Nat) : aesAdd ws r x = [] := by
  have : ((ws.drop (4 * r)).take 4).flatten = [] :=
    List.flatten_eq_nil_iff.2 fun w hw => h w (List.mem_of_mem_drop (List.mem_of_mem_take hw))
  rw [aesAdd, this, List.zipWith_nil_right]

theorem aesRounds_empty {ws : List (List Nat)} (h : ∀ w ∈ ws, w = []) : ∀ (n r : Nat) (x : List Nat),
    aesRounds ws (n + 1) r x = []
  | 0, r, _ => aesAdd_empty h r _
  | n + 1, r, _ => aesRounds_empty h n (r + 1) _

/-- A key too short for one word encrypts to nothing. -/
theorem aes_short {key : List Byte} (hkey : key.length < 4) (block : List Byte) : aes key block = [] := by
  have hnk : key.length / 4 = 0 := by omega
  unfold aes
  dsimp only
  rw [hnk, aesRounds_empty (aesExpand_empty _ _ _ _ (by simp)), List.map_nil]

theorem ctrCrypt_length {key : List Byte} (hkey : 4 ≤ key.length) (c : Nat) (m : List Byte) :
    (ctrCrypt key c m).length = m.length := by
  have hstream : ∀ n c, (ctrStream key n c).length = 16 * n := by
    intro n
    induction n with
    | zero => exact fun _ => rfl
    | succ n ih =>
      intro c
      rw [ctrStream, List.length_append, aes_length hkey, ih]
      omega
  rw [ctrCrypt, xorBytes, List.length_zipWith, hstream]
  omega

theorem length_flatMap_leBytes (ws : List Word) : (ws.flatMap fun w => leBytes 4 w.toNat).length = 4 * ws.length := by
  induction ws with
  | nil => rfl
  | cons w r ih =>
    rw [List.flatMap_cons, List.length_append, leBytes_length, ih, List.length_cons]
    omega

theorem rdBytes_length (a n : Nat) (s : State) : (rdBytes a n s).length = 4 * n := by
  rw [rdBytes, length_flatMap_leBytes, rdList, List.length_map, List.length_range]

/-- A tag of registers that agrees was made under a key of at least one word. -/
theorem key_of_good_tag {a t : Nat} {s : State} {key iv x y : List Byte} (h0 : t ≠ 0) (ht : t ≤ 32)
    (hgood : (rdBytes a 8 s).take t = ccmTag key iv x y t) : 4 ≤ key.length := by
  refine Nat.le_of_not_lt fun hshort => ?_
  have hlen := congrArg List.length hgood
  rw [ccmTag, if_neg h0, aes_short hshort, xorBytes, List.zipWith_nil_right, List.length_take, rdBytes_length,
    List.length_nil] at hlen
  omega

/-! ### What giving entropy changes (R513, R515) -/

/-- The fields that entropy given to its consumers writes. -/
abbrev rngPlaces : List Place :=
  [(keyB, KEY_LIFE.ROOT_GEN), (keyB, KEY_LIFE.ROOT_V), (keyB, KEY_LIFE.STATE), (keyB, KEY_STAT.CLEARING),
   (rngB, RNG_STAT.BLOCKS)]

/-- From `s` to `t` entropy went to its consumers, at most: memory stays, and the registers but for `rngPlaces`. -/
structure Gave (s t : State) : Prop where
  only : Only rngPlaces s t
  mem : t.mem = s.mem
  noise : t.noise = s.noise

theorem Gave.trans {s t u : State} (h : Gave s t) (h' : Gave t u) : Gave s u :=
  ⟨h.only.trans h'.only, h'.mem.trans h.mem, h'.noise.trans h.noise⟩

theorem Gave.fset {s t : State} (h : Gave s t) {b : Nat} {f : Fld} (hf : (b, f) ∈ rngPlaces) (v : Nat) :
    Gave s (fset b f v t) := ⟨h.only.fset hf v, h.mem, h.noise⟩

theorem Gave.ite {c : Prop} [Decidable c] {s t u : State} (ht : Gave s t) (hu : Gave s u) :
    Gave s (if c then t else u) := by
  split <;> assumption

theorem rootMade_gave {s : State} (h : Registers.wf s = true) (bits : List Byte) : Gave s (rootMade bits s) := by
  let s1 : State := { s with keys := { s.keys with root := some (sha256 bits), rooting := none } }
  have h1 : Gave s s1 := ⟨(Only.refl h).of_regs (Eq.refl s.regs), rfl, rfl⟩
  let s2 := fset keyB KEY_LIFE.ROOT_V 1 (fcount keyB KEY_LIFE.ROOT_GEN s1)
  have h2 : Gave s s2 := (h1.fset (b := keyB) (f := KEY_LIFE.ROOT_GEN) (by decide) _).fset (by decide) 1
  let s3 := if fget keyB KEY_LIFE.STATE s2 = 0 then fset keyB KEY_LIFE.STATE 1 s2 else s2
  have h3 : Gave s s3 := .ite (h2.fset (by decide) 1) h2
  exact .ite (h3.fset (by decide) 1) h3

theorem rngGive_gave {s t : State} {b : List Byte} (h : Registers.wf s = true) (ht : rngGive b s = some t) : Gave s t := by
  have hsame {u : State} (hr : u.regs = s.regs) (hm : u.mem = s.mem) (hn : u.noise = s.noise) : Gave s u :=
    ⟨(Only.refl h).of_regs hr, hm, hn⟩
  unfold rngGive at ht
  split at ht
  · split at ht
    · obtain rfl := Option.some.inj ht
      exact rootMade_gave h _
    · obtain rfl := Option.some.inj ht
      exact hsame rfl rfl rfl
  · split at ht
    · obtain rfl := Option.some.inj ht
      exact hsame rfl rfl rfl
    · split at ht
      · obtain rfl := Option.some.inj ht
        exact hsame rfl rfl rfl
      · split at ht
        · obtain rfl := Option.some.inj ht
          exact hsame rfl rfl rfl
        · split at ht
          · obtain rfl := Option.some.inj ht
            exact hsame rfl rfl rfl
          · cases ht

theorem rngServe_gave : ∀ (n : Nat) {s : State}, Registers.wf s = true → Gave s (rngServe n s)
  | 0, _, h => ⟨.refl h, rfl, rfl⟩
  | n + 1, s, h => by
    rw [rngServe]
    split
    · next b r _ =>
      split
      · next t ht =>
        let u : State := { s with keys := { s.keys with blocks := r } }
        have hu : Gave s u := ⟨(Only.refl h).of_regs (Eq.refl s.regs), rfl, rfl⟩
        have hgave : Gave u t := rngGive_gave hu.only.wf ht
        exact (hu.trans hgave).trans (rngServe_gave n hgave.only.wf)
      · exact ⟨.refl h, rfl, rfl⟩
    · exact ⟨.refl h, rfl, rfl⟩

theorem rngRun_gave {s : State} (h : Registers.wf s = true) : Gave s (rngRun s) := by
  obtain ⟨honly, hmem, hnoise⟩ := rngServe_gave 32 h
  exact ⟨honly.fset (b := rngB) (f := RNG_STAT.BLOCKS) (by decide) _, hmem, hnoise⟩

/-- Giving entropy leaves a cipher page as it was. -/
theorem Gave.cipField {s t : State} (h : Gave s t) (n : Nat) {g : Fld} (hg : g.lo + g.w ≤ 32) :
    fget (cipPage n) g t = fget (cipPage n) g s := by
  refine h.only.field fun f hf => ⟨hg, .inl ?_⟩
  have hlow : ∀ f ∈ rngPlaces, f.1 + f.2.off < 0x60000000 := by decide
  have := hlow f hf
  show cipPage n + g.off ≠ _
  unfold cipPage
  omega

end Sys2Proof.Machine
end

section
/-!
SUPPORT. Ends of cipher operations and the common context's lock (R487, R489, R490, R493, R498, R500, R501, R505).
-/

namespace Sys2Proof.Machine

open Reg

theorem canonical_iff {s : State} : s.canonical = true ↔ Registers.wf s = true ∧ Memory.wf s = true := by
  rw [State.canonical, Bool.and_eq_true]

theorem Only.weakenIn {b : Nat} {fs gs : List Fld} {s t : State} (h : Only (page b fs) s t) (hm : ∀ f ∈ fs, f ∈ gs) :
    Only (page b gs) s t := h.mono (List.map_subset _ hm)

/-- A part of the state that no register changes, after a list of registers is written. -/
theorem wrList_same {α : Type} (p : State → α) (hp : ∀ a v u, p (wr a v u) = p u) (a : Nat) (l : List Word) (s : State) :
    p (wrList a l s) = p s := by
  induction l generalizing a s with
  | nil => rfl
  | cons w r ih => exact (ih (a + 4) (wr a w s)).trans (hp _ _ _)

theorem memBytes_length (a n : Nat) (s : State) : (memBytes a n s).length = n := by
  rw [memBytes, List.length_map, List.length_range]

theorem memWrite_noise (a : Nat) (l : List Byte) (s : State) : (memWrite a l s).noise = s.noise :=
  memWrite_same (·.noise) (fun _ _ => rfl) a l s

theorem cipEnd_mem (n res : Nat) (s : State) : (cipEnd n res s).mem = s.mem :=
  cipEnd_same (·.mem) n res s raiseEvt_mem fun _ _ _ => rfl

theorem cipEnd_noise (n res : Nat) (s : State) : (cipEnd n res s).noise = s.noise :=
  cipEnd_same (·.noise) n res s raiseEvt_noise fun _ _ _ => rfl

/-! ### A CCM* verification (R489) -/

/-- The end of a CCM* verification that leaves the octets `out`. -/
def cipVerified (n : Nat) (bad : Bool) (out : List Byte) (s : State) : State :=
  cipEnd n (ofBool bad) (cipForget n (memWrite (cipBuf n + cipAlen n s) out
    { s with cip := { s.cip with
      services := s.cip.services + cipServices n (cipGet n s).first (cipGet n s).last s } }))

theorem cipComplete_verify {n : Nat} {s : State} (hlast : (cipGet n s).last = true) (hmode : cipMode n s = 1)
    (hdir : cipDir n s = true) (htlen : cipTlen n s ≠ 0) (hfirst : (cipGet n s).first = true) {a out : List Byte}
    (ha : memBytes (cipBuf n) (cipAlen n s) s = a)
    (hout : ccmCrypt (cipGet n s).key (cipGet n s).iv (memBytes (cipBuf n + cipAlen n s) (cipMlen n s) s) = out) {bad : Bool}
    (hbad : ((rdBytes (cipPage n + 0x60) 8 s).take (cipTlen n s) !=
      ccmTag (cipGet n s).key (cipGet n s).iv a out (cipTlen n s)) = bad) :
    cipComplete n s =
      rngRun (cipVerified n bad (if bad then List.replicate (cipMlen n s) 0 else out) s) := by
  unfold cipComplete cipVerified
  dsimp only
  rw [hfirst, hlast, hmode, hdir, if_pos rfl, ha]
  simp only [cipCompute, hout, if_pos]
  have hguard : (true && true && cipTlen n s != 0 && (1 : Nat) != 3 &&
      (rdBytes (cipPage n + 0x60) 8 s).take (cipTlen n s) !=
        ccmTag (cipGet n s).key (cipGet n s).iv a out (cipTlen n s)) = bad := by
    rw [hbad, bne_iff_ne.2 htlen]
    rfl
  rw [hguard]
  rfl

theorem cipVerified_shows {n : Nat} {s : State} (h : Registers.wf s = true) (hm : Memory.wf s = true) (bad : Bool)
    {out : List Byte} (hout : out.length = cipMlen n s) :
    let t := rngRun (cipVerified n bad out s)
    fget (cipPage n) CIP_STAT.STATE t = 2 ∧ fis (cipPage n) CIP_NOTE.DONE t = true ∧
      fget (cipPage n) CIP_STAT.RESULT t = ofBool bad ∧
      memBytes (cipBuf n + cipAlen n s) (cipMlen n s) t = out ∧
      memBytes (cipBuf n) (cipAlen n s) t = memBytes (cipBuf n) (cipAlen n s) s := by
  intro t
  let s0 : State := { s with cip := { s.cip with
    services := s.cip.services + cipServices n (cipGet n s).first (cipGet n s).last s } }
  let s1 := memWrite (cipBuf n + cipAlen n s) out s0
  let s2 := cipForget n s1
  have h1 : Registers.wf s1 = true := (((Only.refl (l := []) h).of_regs (u := s0) (Eq.refl s.regs)).memWrite _ out).wf
  have h2 : Registers.wf s2 = true := (cipForget_only h1 n).wf
  obtain ⟨r, hend⟩ := cipEnd_only h2 n (ofBool bad)
  obtain ⟨hstate, hresult, hdone⟩ := cipEnd_shows h2 n (res := ofBool bad) (by cases bad <;> decide)
  have hgave : Gave (cipVerified n bad out s) t := rngRun_gave hend.wf
  have hmem : t.mem = s1.mem := hgave.mem.trans (cipEnd_mem n _ s2)
  have hnoise : t.noise = s1.noise := hgave.noise.trans (cipEnd_noise n _ s2)
  refine ⟨(hgave.cipField n (by decide)).trans hstate, (congrArg (· == 1) (hgave.cipField n (by decide))).trans hdone,
    (hgave.cipField n (by decide)).trans hresult, ?_, ?_⟩
  · rw [memBytes_of_mem hmem hnoise, ← hout]
    exact memBytes_memWrite_self (s := s0) hm _ out
  · rw [memBytes_of_mem hmem hnoise]
    exact memBytes_memWrite_apart (s := s0) hm _ out (.inl (Nat.le_refl _))

/-- A CCM* verification by whether the tag agrees. -/
theorem cipComplete_shows {n : Nat} {s : State} (h : s.canonical = true) (hlast : (cipGet n s).last = true)
    (hmode : cipMode n s = 1) (hdir : cipDir n s = true) (htlen : cipTlen n s ≠ 0) (htle : cipTlen n s ≤ 32)
    (hfirst : (cipGet n s).first = true) :
    let c := cipGet n s
    let a := memBytes (cipBuf n) (cipAlen n s) s
    let m := memBytes (cipBuf n + cipAlen n s) (cipMlen n s) s
    let out := ccmCrypt c.key c.iv m
    let good := (rdBytes (cipPage n + 0x60) 8 s).take (cipTlen n s) = ccmTag c.key c.iv a out (cipTlen n s)
    let t := cipComplete n s
    fget (cipPage n) CIP_STAT.STATE t = 2 ∧ fis (cipPage n) CIP_NOTE.DONE t = true ∧
    (good → fget (cipPage n) CIP_STAT.RESULT t = 0 ∧ out.length = cipMlen n s ∧
      memBytes (cipBuf n + cipAlen n s) (cipMlen n s) t = out) ∧
    (¬ good → fget (cipPage n) CIP_STAT.RESULT t = 1 ∧
      memBytes (cipBuf n + cipAlen n s) (cipMlen n s) t = List.replicate (cipMlen n s) 0) ∧
    memBytes (cipBuf n) (cipAlen n s) t = a := by
  obtain ⟨hreg, hmem⟩ := canonical_iff.1 h
  intro c a m out good t
  by_cases hgood : good
  · have hlen : out.length = cipMlen n s :=
      (ctrCrypt_length (key_of_good_tag htlen htle hgood) _ m).trans (memBytes_length _ _ s)
    have ht : t = rngRun (cipVerified n false out s) :=
      cipComplete_verify hlast hmode hdir htlen hfirst rfl rfl (bne_eq_false_iff_eq.2 hgood)
    obtain ⟨hstate, hdone, hresult, hout, haad⟩ := cipVerified_shows hreg hmem false hlen
    rw [ht]
    exact ⟨hstate, hdone, fun _ => ⟨hresult, hlen, hout⟩, fun hn => absurd hgood hn, haad⟩
  · have ht : t = rngRun (cipVerified n true (List.replicate (cipMlen n s) 0) s) :=
      cipComplete_verify hlast hmode hdir htlen hfirst rfl rfl (bne_iff_ne.2 hgood)
    obtain ⟨hstate, hdone, hresult, hout, haad⟩ :=
      cipVerified_shows hreg hmem true (out := List.replicate (cipMlen n s) 0) List.length_replicate
    rw [ht]
    exact ⟨hstate, hdone, fun hg => absurd hg hgood, fun _ => ⟨hresult, hout⟩, haad⟩

/-! ### ABORT and CLEAR (R490, R505) -/

/-- CIP_TAG. -/
abbrev tagFields : List Fld := (List.range 8).map fun k => regOff (0x60 + 4 * k)

/-- The message region and the tag of an operation given up. -/
theorem cipWipe_shows {s : State} (h : s.canonical = true) (n : Nat) :
    Registers.wf (cipWipe n s) = true ∧
      memBytes (cipBuf n + cipAlen n s) (cipMlen n s) (cipWipe n s) = List.replicate (cipMlen n s) 0 ∧
      rdList (cipPage n + 0x60) 8 (cipWipe n s) = List.replicate 8 0 := by
  obtain ⟨hreg, hmem⟩ := canonical_iff.1 h
  let zeros : List Byte := List.replicate (cipMlen n s) 0
  let s1 := memWrite (cipBuf n + cipAlen n s) zeros s
  have h1 : Registers.wf s1 = true := ((Only.refl (l := []) hreg).memWrite _ zeros).wf
  have h2 : Only (page (cipPage n) tagFields) s1 (cipWipe n s) :=
    Only.wrListIn (List.replicate 8 0) (.refl h1) (by decide)
  refine ⟨h2.wf, ?_, rdList_wrList_self h1 _ (List.replicate 8 0)⟩
  have hself := memBytes_memWrite_self hmem (cipBuf n + cipAlen n s) zeros
  rw [List.length_replicate] at hself
  exact (memBytes_of_mem (wrList_same (·.mem) (fun _ _ _ => rfl) _ (List.replicate 8 0) s1)
    (wrList_same (·.noise) (fun _ _ _ => rfl) _ (List.replicate 8 0) s1) _ _).trans hself

theorem cipAbort_shows {n : Nat} {s : State} (h : s.canonical = true) (hb : cipBusy n s = true) :
    let t := cipAbort n s
    fget (cipPage n) CIP_STAT.STATE t = 2 ∧ fget (cipPage n) CIP_STAT.RESULT t = 2 ∧
      memBytes (cipBuf n + cipAlen n s) (cipMlen n s) t = List.replicate (cipMlen n s) 0 ∧
      rdList (cipPage n + 0x60) 8 t = List.replicate 8 0 := by
  intro t
  obtain ⟨hwf, hbuf, htag⟩ := cipWipe_shows h n
  have ht : t = cipEnd n 2 (cipForget n (cipWipe n s)) := if_pos hb
  generalize cipWipe n s = u at hwf hbuf htag ht
  have hforget := cipForget_only hwf n
  obtain ⟨r, hend⟩ := cipEnd_only hforget.wf n 2
  obtain ⟨hstate, hresult, -⟩ := cipEnd_shows hforget.wf n (res := 2) (by decide)
  rw [ht]
  refine ⟨hstate, hresult, ?_, ?_⟩
  · exact (memBytes_of_mem (cipEnd_mem n 2 (cipForget n u)) (cipEnd_noise n 2 (cipForget n u)) _ _).trans hbuf
  · exact (hend.cipRdList (by decide)).trans ((hforget.rdListIn (by decide)).trans htag)

/-- CIP_NONCE. -/
abbrev nonceFields : List Fld := (List.range 4).map fun k => regOff (0x20 + 4 * k)
/-- CIP_KEY and CIP_AUX. -/
abbrev keyFields : List Fld := (List.range 16).map fun k => regOff (0x40 + 4 * k)

/-- The fields that a clear writes. -/
abbrev clearFields : List Fld :=
  [CIP_STAT.CHAIN, CIP_STAT.STATE, regOff 0, regOff 0xC, regOff 0x10, regOff 0x14, regOff 0x18, regOff 0x1C] ++
    nonceFields ++ keyFields

/-- The buffer and the lists of a cleared context. -/
def cipEmptied (n : Nat) (s : State) : State :=
  wrList (cipPage n + 0x40) (List.replicate 16 0) (wrList (cipPage n + 0x20) (List.replicate 4 0)
    (memClear (fun a => decide (cipBuf n ≤ a) && decide (a < cipBuf n + 0x800)) (cipForget n s)))

/-- The counters of a cleared context. -/
def cipUncounted (n : Nat) (s : State) : State :=
  wr (cipPage n + 0x14) 0 (wr (cipPage n + 0x18) 0 (wr (cipPage n + 0x1C) 0 s))

theorem cipClear_stages (n : Nat) (s : State) : cipClear n s = fset (cipPage n) CIP_STAT.STATE 0
    (wr (cipPage n) 0 (wr (cipPage n + 0xC) 0 (wr (cipPage n + 0x10) 0 (cipUncounted n (cipEmptied n s))))) := rfl

theorem cipUncounted_only {s : State} (h : Registers.wf s = true) (n : Nat) :
    Only (page (cipPage n) [regOff 0x14, regOff 0x18, regOff 0x1C]) s (cipUncounted n s) :=
  ((Only.wrIn (off := 0x1C) (.refl h) (by decide) 0).wrIn (off := 0x18) (by decide) 0).wrIn (off := 0x14) (by decide) 0

theorem cipEmptied_only {s : State} (h : Registers.wf s = true) (n : Nat) :
    Only (page (cipPage n) ([CIP_STAT.CHAIN] ++ nonceFields ++ keyFields)) s (cipEmptied n s) := by
  have h1 : Only (page (cipPage n) ([CIP_STAT.CHAIN] ++ nonceFields ++ keyFields)) s
      (memClear (fun a => decide (cipBuf n ≤ a) && decide (a < cipBuf n + 0x800)) (cipForget n s)) :=
    ((cipForget_only h n).mono (by simp)).of_regs (Eq.refl (cipForget n s).regs)
  exact Only.wrListIn (List.replicate 16 0) (Only.wrListIn (List.replicate 4 0) h1 (by decide)) (by decide)

theorem cipClear_only {s : State} (h : Registers.wf s = true) (n : Nat) :
    Only (page (cipPage n) clearFields) s (cipClear n s) := by
  rw [cipClear_stages]
  have h1 := (cipEmptied_only h n).weakenIn (gs := clearFields) (by decide)
  have h2 := h1.trans ((cipUncounted_only h1.wf n).weakenIn (by decide))
  exact (((h2.wrIn (off := 0x10) (by decide) 0).wrIn (off := 0xC) (by decide) 0).wrIn (off := 0) (by decide) 0).fsetIn
    (by decide) 0

/-- A cleared context's registers. -/
theorem cipClear_shows {s : State} (h : Registers.wf s = true) (n : Nat) :
    let t := cipClear n s
    fget (cipPage n) CIP_STAT.STATE t = 0 ∧ fis (cipPage n) CIP_STAT.CHAIN t = false ∧ rd (cipPage n) t = 0 ∧
      rd (cipPage n + 0xC) t = 0 ∧ rdList (cipPage n + 0x20) 4 t = List.replicate 4 0 ∧
      rdList (cipPage n + 0x40) 16 t = List.replicate 16 0 ∧ rd (cipPage n + 0x14) t = 0 := by
  let s1 := memClear (fun a => decide (cipBuf n ≤ a) && decide (a < cipBuf n + 0x800)) (cipForget n s)
  let s2 := wrList (cipPage n + 0x20) (List.replicate 4 0) s1
  let s3 := cipEmptied n s
  let s4 := cipUncounted n s3
  let s5 := wr (cipPage n + 0x10) 0 s4
  let s6 := wr (cipPage n + 0xC) 0 s5
  let s7 := wr (cipPage n) 0 s6
  have hf := cipForget_only h n
  have h1 : Registers.wf s1 = true := (Registers.wf_of_regs (Eq.refl (cipForget n s).regs)).trans hf.wf
  have h2 : Only (page (cipPage n) nonceFields) s1 s2 := Only.wrListIn (List.replicate 4 0) (.refl h1) (by decide)
  have h3 : Only (page (cipPage n) keyFields) s2 s3 := Only.wrListIn (List.replicate 16 0) (.refl h2.wf) (by decide)
  have h4 : Only (page (cipPage n) [regOff 0x14, regOff 0x18, regOff 0x1C]) s3 s4 := cipUncounted_only h3.wf n
  have h5 : Only (page (cipPage n) [regOff 0x10]) s4 s5 := Only.wrIn (off := 0x10) (.refl h4.wf) (by decide) 0
  have h6 : Only (page (cipPage n) [regOff 0xC]) s5 s6 := Only.wrIn (off := 0xC) (.refl h5.wf) (by decide) 0
  have h7 : Only (page (cipPage n) [regOff 0]) s6 s7 := Only.wrIn (off := 0) (.refl h6.wf) (by decide) 0
  have h8 : Only (page (cipPage n) [CIP_STAT.STATE]) s7 (cipClear n s) := Only.fsetIn (.refl h7.wf) (by decide) 0
  have htail : Only (page (cipPage n) [regOff 0x10, regOff 0xC, regOff 0, CIP_STAT.STATE]) s4 (cipClear n s) :=
    (((h5.weakenIn (by decide)).trans (h6.weakenIn (by decide))).trans (h7.weakenIn (by decide))).trans
      (h8.weakenIn (by decide))
  refine ⟨fget_fset_lt h7.wf _ (by decide) (by decide), ?_, ?_, ?_, ?_, ?_, ?_⟩
  · calc fis (cipPage n) CIP_STAT.CHAIN (cipClear n s)
      _ = fis (cipPage n) CIP_STAT.CHAIN s4 := htail.flagIn (by decide)
      _ = fis (cipPage n) CIP_STAT.CHAIN s3 := h4.flagIn (by decide)
      _ = fis (cipPage n) CIP_STAT.CHAIN s2 := h3.flagIn (by decide)
      _ = fis (cipPage n) CIP_STAT.CHAIN s1 := h2.flagIn (by decide)
      _ = false := fis_chain_cipForget h n
  · exact (h8.rdIn (off := 0) (by decide)).trans (rd_wr_self h6.wf _ _)
  · exact (h8.rdIn (off := 0xC) (by decide)).trans ((h7.rdIn (off := 0xC) (by decide)).trans (rd_wr_self h5.wf _ _))
  · calc rdList (cipPage n + 0x20) 4 (cipClear n s)
      _ = rdList (cipPage n + 0x20) 4 s4 := htail.rdListIn (by decide)
      _ = rdList (cipPage n + 0x20) 4 s3 := h4.rdListIn (by decide)
      _ = rdList (cipPage n + 0x20) 4 s2 := h3.rdListIn (by decide)
      _ = List.replicate 4 0 := rdList_wrList_self h1 _ (List.replicate 4 0)
  · calc rdList (cipPage n + 0x40) 16 (cipClear n s)
      _ = rdList (cipPage n + 0x40) 16 s4 := htail.rdListIn (by decide)
      _ = rdList (cipPage n + 0x40) 16 s3 := h4.rdListIn (by decide)
      _ = List.replicate 16 0 := rdList_wrList_self h2.wf _ (List.replicate 16 0)
  · refine (htail.rdIn (off := 0x14) (by decide)).trans (rd_wr_self ?_ _ _)
    exact Registers.wf_wr (Registers.wf_wr h3.wf _ _) _ _

/-- A cleared context's buffer, where no RAM has lost its content. -/
theorem cipClear_buffer {s : State} (h : Memory.wf s = true) (hn : s.noise = []) (n : Nat) :
    memBytes (cipBuf n) 2048 (cipClear n s) = List.replicate 2048 0 := by
  let p (a : Nat) : Bool := decide (cipBuf n ≤ a) && decide (a < cipBuf n + 0x800)
  have hmem : (cipClear n s).mem = tkeep (fun a => !p a) s.mem :=
    (wrList_same (·.mem) (fun _ _ _ => rfl) _ _ _).trans (wrList_same (·.mem) (fun _ _ _ => rfl) _ _ _)
  have hnoise : (cipClear n s).noise = s.noise :=
    (wrList_same (·.noise) (fun _ _ _ => rfl) _ _ _).trans (wrList_same (·.noise) (fun _ _ _ => rfl) _ _ _)
  rw [Memory.wf, Bool.and_eq_true] at h
  have hzero (a : Nat) (ha : 0x60000000 ≤ a) : memInit [] a = 0 := by
    unfold memInit
    rw [if_neg (by omega), if_neg (by omega)]
    rfl
  refine List.eq_replicate_iff.2 ⟨memBytes_length _ _ _, fun b hb => ?_⟩
  obtain ⟨k, hk, rfl⟩ := List.mem_map.1 hb
  have hin : (!p (cipBuf n + k)) = false := by
    have := List.mem_range.1 hk
    simp only [p, Nat.le_add_right, decide_true, Bool.true_and, Bool.not_eq_false']
    exact decide_eq_true (by omega)
  rw [memGet, hmem, hnoise, tget_tkeep h.2, if_neg (by rw [hin]; exact Bool.false_ne_true), hn]
  exact hzero _ (by unfold cipBuf cipPage; omega)

theorem cipCmd_keyed {n : Nat} {abort clear : Bool} (s : State) :
    cipCmd n 0x4350 false false false abort clear s =
      (let s1 := if abort then cipAbort n s else s
       if clear then (if cipBusy n s then fset (cipPage n) CIP_ERR.CMD 1 s1 else cipClear n s1) else s1) := by
  unfold cipCmd
  rw [if_neg (by simp), if_neg Bool.false_ne_true]

theorem cipCmd_wrong_key {n key : Nat} (hk : key ≠ 0x4350) (start first last abort clear : Bool) (s : State) :
    cipCmd n key start first last abort clear s = fset (cipPage n) CIP_ERR.CMD 1 s := if_pos (.inl hk)

/-! ### The common context's lock (R498, R500, R501) -/

/-- The common context as a clear finds it when its hold ends. -/
def cipStopped (res : Nat) (s : State) : State := if cipBusy 64 s then cipEnd 64 res (cipForget 64 s) else s

theorem cipLockFree_stages (res : Nat) (s : State) :
    cipLockFree res s = fset cipCtl CIP_CSTAT.HOLDER 0 (cipClear 64 (cipStopped res s)) := rfl

theorem cipStopped_only {s : State} (h : Registers.wf s = true) (res : Nat) :
    ∃ r, Only (cipPlaces 64 r (endFields ++ clearFields)) s (cipStopped res s) := by
  unfold cipStopped
  split
  · have hf := cipForget_only h 64
    obtain ⟨r, hend⟩ := cipEnd_only hf.wf 64 res
    refine ⟨r, ((hf.weakenIn (by decide)).common r).trans (hend.mono ?_)⟩
    intro x hx
    simp only [cipPlaces, page, List.map_append, List.mem_append] at hx ⊢
    tauto
  · exact ⟨0, .refl h⟩

/-- The fields that the end of a hold writes. -/
abbrev lockPlaces (r : Nat) : List Place := (cipCtl, CIP_CSTAT.HOLDER) :: cipPlaces 64 r (endFields ++ clearFields)

theorem cipLockFree_only {s : State} (h : Registers.wf s = true) (res : Nat) :
    ∃ r, Only (lockPlaces r) s (cipLockFree res s) := by
  obtain ⟨r, hstop⟩ := cipStopped_only h res
  have hclear := (cipClear_only hstop.wf 64).common r
  have hm : cipPlaces 64 r clearFields ⊆ lockPlaces r := by
    intro x hx
    simp only [cipPlaces, page, List.map_append, List.mem_append, List.mem_cons, lockPlaces] at hx ⊢
    tauto
  refine ⟨r, ((hstop.mono (List.subset_cons_self ..)).trans (hclear.mono hm)).fset (List.mem_cons_self ..) 0⟩

/-- The control block's registers stand apart from every page. -/
theorem cipCtl_apart (n : Nat) {g f : Fld} (hw : g.lo + g.w ≤ 32) (hf : f.off < 0x1000) :
    Place.Apart (cipPage n, g) (cipCtl, f) := by
  refine ⟨hw, .inl ?_⟩
  show cipPage n + g.off ≠ cipCtl + f.off
  unfold cipPage cipCtl
  omega

theorem cipLockFree_shows {s : State} (h : Registers.wf s = true) {res : Nat} (hres : res < 16) :
    let t := cipLockFree res s
    cipHolder t = none ∧ fget (cipPage 64) CIP_STAT.STATE t = 0 ∧ rd (cipPage 64) t = 0 ∧
      (cipBusy 64 s = true → fget (cipPage 64) CIP_STAT.RESULT t = res) := by
  intro t
  obtain ⟨r, hstop⟩ := cipStopped_only h res
  obtain ⟨hstate, -, hctrl, -⟩ := cipClear_shows hstop.wf 64
  have hclear := cipClear_only hstop.wf 64
  have hlast : Only [(cipCtl, CIP_CSTAT.HOLDER)] (cipClear 64 (cipStopped res s)) t :=
    (Only.refl hclear.wf).fset (List.mem_singleton.2 (Eq.refl _)) 0
  refine ⟨?_, ?_, ?_, fun hb => ?_⟩
  · rw [cipHolder, show fget cipCtl CIP_CSTAT.HOLDER t = 0 from fget_fset_lt hclear.wf _ (by decide) (by decide), if_pos rfl]
  · exact (hlast.field (by decide)).trans hstate
  · exact (hlast.rd (by decide)).trans hctrl
  · refine (hlast.field (by decide)).trans ((hclear.fieldIn (by decide)).trans ?_)
    have hend : cipStopped res s = cipEnd 64 res (cipForget 64 s) := if_pos hb
    rw [hend]
    exact (cipEnd_shows (cipForget_only h 64).wf 64 hres).2.1

/-- An expiry of the hold (R500). -/
theorem cipExpire_shows {s : State} (h : Registers.wf s = true) {r : Nat} (hh : cipHolder s = some r) (hr : r < 64) :
    let t := cipExpire s
    cipHolder t = none ∧ fget cipCtl CIP_CSTAT.LAST_EXP t = r + 1 ∧ fis (cipPage r) CIP_NOTE.LOCK_EXPIRED t = true ∧
      fget cipCtl CIP_CSTAT.EXP_CNT t = min 255 (fget cipCtl CIP_CSTAT.EXP_CNT s + 1) ∧
      fget (cipPage 64) CIP_STAT.STATE t = 0 := by
  let s1 := cipLockFree 3 s
  let s2 := pageNote r CIP_NOTE.LOCK_EXPIRED s1
  let s3 := fset cipCtl CIP_CSTAT.LAST_EXP (r + 1) s2
  have ht : cipExpire s = fcount cipCtl CIP_CSTAT.EXP_CNT s3 := by
    unfold cipExpire
    rw [hh]
  obtain ⟨q, h1⟩ := cipLockFree_only h 3
  obtain ⟨hnone, hstate, -⟩ := cipLockFree_shows h (res := 3) (by decide)
  have h2 : Only (page (cipPage r) [CIP_NOTE.LOCK_EXPIRED]) s1 s2 := pageNote_only h1.wf r _
  have h3 : Only (page cipCtl [CIP_CSTAT.LAST_EXP]) s2 s3 := Only.fsetIn (.refl h2.wf) (by decide) _
  have h4 : Only (page cipCtl [CIP_CSTAT.EXP_CNT]) s3 (fcount cipCtl CIP_CSTAT.EXP_CNT s3) :=
    Only.fsetIn (.refl h3.wf) (by decide) _
  have hctl {g : Fld} (hw : g.lo + g.w ≤ 32) (ho : g.off < 0x1000) (n : Nat) (f : Fld) :
      Place.Apart (cipCtl, g) (cipPage n, f) := by
    refine ⟨hw, .inl ?_⟩
    show cipCtl + g.off ≠ cipPage n + f.off
    unfold cipPage cipCtl
    omega
  have hcount : fget cipCtl CIP_CSTAT.EXP_CNT s3 = fget cipCtl CIP_CSTAT.EXP_CNT s := by
    rw [h3.fieldIn (by decide), h2.field (List.forall_mem_singleton.2 (hctl (by decide) (by decide) r _)),
      h1.field (List.forall_mem_cons.2 ⟨by decide, List.forall_mem_append.2 ⟨fun f hf => ?_,
        List.forall_mem_singleton.2 (hctl (by decide) (by decide) q _)⟩⟩)]
    obtain ⟨g, -, rfl⟩ := List.mem_map.1 hf
    exact hctl (by decide) (by decide) 64 g
  rw [ht]
  refine ⟨?_, ?_, ?_, ?_, ?_⟩
  · have hzero : fget cipCtl CIP_CSTAT.HOLDER s1 = 0 := by
      unfold cipHolder at hnone
      split at hnone
      · assumption
      · cases hnone
    rw [cipHolder, h4.fieldIn (by decide), h3.fieldIn (by decide),
      h2.field (List.forall_mem_singleton.2 (hctl (by decide) (by decide) r _)), hzero, if_pos rfl]
  · exact (h4.fieldIn (by decide)).trans (fget_fset_lt h2.wf _ (show r + 1 < 2 ^ 7 by omega) (by decide))
  · refine (h4.flag (List.forall_mem_singleton.2 (cipCtl_apart r (by decide) (by decide)))).trans ?_
    refine (h3.flag (List.forall_mem_singleton.2 (cipCtl_apart r (by decide) (by decide)))).trans ?_
    exact fis_note h1.wf _ (by decide) (by decide) _
  · exact (fget_fcount h3.wf _ (by decide)).trans (by rw [hcount]; rfl)
  · calc fget (cipPage 64) CIP_STAT.STATE (fcount cipCtl CIP_CSTAT.EXP_CNT s3)
      _ = fget (cipPage 64) CIP_STAT.STATE s3 := h4.field (by decide)
      _ = fget (cipPage 64) CIP_STAT.STATE s2 := h3.field (by decide)
      _ = fget (cipPage 64) CIP_STAT.STATE s1 :=
        h2.field (List.forall_mem_singleton.2 (cipPage_apart (by decide) (by decide)))
      _ = 0 := hstate

theorem cipLockRead_none {room : Nat} {s : State} (h : cipHolder s = none) :
    cipLockRead room s = (0, fset cipCtl CIP_CSTAT.HOLDER (room + 1) s) := by
  unfold cipLockRead
  rw [h]

theorem cipLockRead_some {room r : Nat} {s : State} (h : cipHolder s = some r) :
    cipLockRead room s = (if r = room then 0 else BitVec.ofNat 32 (r + 1), s) := by
  unfold cipLockRead
  rw [h]

theorem cipLock_shows :
    (∀ (i : Init) (s : State), Admits i 0x600400FC .load s →
      (cipHolder s = none → exec (.cipLockRead i) s =
        .next (respondWord 0 (fset cipCtl CIP_CSTAT.HOLDER (roomOf i s + 1) s))) ∧
      (cipHolder s = some (roomOf i s) → exec (.cipLockRead i) s = .next (respondWord 0 s)) ∧
      (∀ r, cipHolder s = some r → r ≠ roomOf i s →
        exec (.cipLockRead i) s = .next (respondWord (BitVec.ofNat 32 (r + 1)) s))) ∧
    (∀ (i : Init) (s : State), Admits i 0x600400FC .store s →
      (cipHolder s = some (roomOf i s) → exec (.cipLockRelease i) s = .next (acknowledge (cipLockFree 2 s))) ∧
      (cipHolder s ≠ some (roomOf i s) → exec (.cipLockRelease i) s = .next (acknowledge s))) ∧
    (∀ (i : Init) (key : BitVec 16) (s : State), Admits i 0x400A0008 .store s →
      (key = 0x4346 → (cipHolder s).isSome = true → exec (.cipCforce i key) s =
        .next (acknowledge (cipLockFree 4 s))) ∧
      (key ≠ 0x4346 ∨ cipHolder s = none → exec (.cipCforce i key) s = .next (acknowledge s))) := by
  refine ⟨fun i s hp => ?_, fun i s hp => ?_, fun i key s hp => ?_⟩
  · have hrun : exec (.cipLockRead i) s = .next (respondWord (cipLockRead (roomOf i s) s).1
        (cipLockRead (roomOf i s) s).2) := congrArg _ (doorLoad_admits hp)
    rw [hrun]
    refine ⟨fun h => ?_, fun h => ?_, fun r h hr => ?_⟩
    · rw [cipLockRead_none h]
    · rw [cipLockRead_some h, if_pos rfl]
    · rw [cipLockRead_some h, if_neg hr]
  · have hrun : exec (.cipLockRelease i) s = .next (acknowledge (cipLockRelease (roomOf i s) true s)) :=
      congrArg _ (doorStore_admits hp)
    rw [hrun]
    exact ⟨fun h => congrArg _ (congrArg _ (if_pos (by rw [h]; simp))),
      fun h => congrArg _ (congrArg _ (if_neg (by simpa using h)))⟩
  · have hrun : exec (.cipCforce i key) s = .next (acknowledge (cipForce key.toNat true s)) :=
      congrArg _ (doorStore_admits hp)
    rw [hrun]
    refine ⟨fun hk h => congrArg _ (congrArg _ (if_pos ⟨congrArg BitVec.toNat hk, rfl, h⟩)),
      fun h => congrArg _ (congrArg _ (if_neg ?_))⟩
    rintro ⟨hk, -, hsome⟩
    rcases h with h | h
    · exact h (BitVec.eq_of_toNat_eq hk)
    · rw [h] at hsome
      exact Bool.false_ne_true hsome

/-- Settles O36. -/
theorem cipherEndsAndLock : Obligations.CipherEndsAndLock := by
  unfold Obligations.CipherEndsAndLock
  obtain ⟨hread, hrelease, hforce⟩ := cipLock_shows
  refine ⟨⟨fun ctx s h => ?_, fun ctx s hb hs hw => ?_, fun n s _ h hl hm hd ht htle hf _ =>
    cipComplete_shows h hl hm hd ht htle hf, ?_, fun i ctx key clear s hp hk hn => ?_,
    fun n s _ h _ hb => cipAbort_shows h hb, fun n s _ h => ?_⟩,
    hread, hrelease, hforce, fun s h => ?_, fun r s h hr hwf => ⟨_, rfl, cipExpire_shows hwf h hr⟩,
    fun res s hres h => cipLockFree_shows h hres⟩
  · refine congrArg _ (if_neg ?_)
    rcases h with h | h | h
    · simp [h]
    · simp [h]
    · obtain ⟨k, hk⟩ := Option.isSome_iff_exists.1 h
      simp [hk]
  · exact congrArg _ (if_pos (by rw [hb, hs, hw]; rfl))
  · intro i ctx s hp n hn
    have habort : exec (.cipAbort i ctx 0x4350 false) s = .next (acknowledge (cipAbort n s)) := by
      refine congrArg Host.Outcome.next ((doorStore_admits hp).trans (congrArg acknowledge ?_))
      exact ((cipCmdAs_shows s).2 hn).trans (cipCmd_keyed s)
    have hclear : exec (.cipClear i ctx 0x4350) s =
        .next (acknowledge (if cipBusy n s then fset (cipPage n) CIP_ERR.CMD 1 s else cipClear n s)) := by
      refine congrArg Host.Outcome.next ((doorStore_admits hp).trans (congrArg acknowledge ?_))
      exact ((cipCmdAs_shows s).2 hn).trans (cipCmd_keyed s)
    rw [habort, hclear]
    refine ⟨fun hb => ⟨?_, ?_⟩, fun hb => ⟨rfl, ?_⟩⟩
    · rw [cipAbort, hb, if_neg Bool.false_ne_true]
    · rw [hb, if_neg Bool.false_ne_true]
    · rw [hb, if_pos rfl]
  · have hkey : key.toNat ≠ 0x4350 := fun he => hk (BitVec.eq_of_toNat_eq he)
    exact ⟨congrArg Host.Outcome.next ((doorStore_admits hp).trans (congrArg acknowledge
        (((cipCmdAs_shows s).2 hn).trans (cipCmd_wrong_key hkey ..)))),
      congrArg Host.Outcome.next ((doorStore_admits hp).trans (congrArg acknowledge
        (((cipCmdAs_shows s).2 hn).trans (cipCmd_wrong_key hkey ..))))⟩
  · obtain ⟨hreg, hmem⟩ := canonical_iff.1 h
    obtain ⟨hstate, hchain, hctrl, hlen, hnonce, hkeys, hfc⟩ := cipClear_shows hreg n
    exact ⟨hstate, hchain, hctrl, hlen, hnonce, hkeys, hfc, fun hn => cipClear_buffer hmem hn n⟩
  · have : cipExpire s = s := by
      unfold cipExpire
      rw [h]
    exact congrArg _ this

end Sys2Proof.Machine

namespace Sys2Proof.Tests
open Sys2Proof.Machine

set_option maxRecDepth 8000

/-- The common context is BUSY and held by room 3. -/
def heldCommon : State := regs [(0x400A0004, 4#32), (0x60040008, 1#32)] house

/-- The hold of room 3 expires. -/
theorem test_hyps_cipherEndsAndLock :
    fget (cipPage 64) Reg.CIP_STAT.RESULT (cipLockFree 3 heldCommon) = 3 ∧
    ∃ t, exec .cipLockExpired heldCommon = .next t ∧ cipHolder t = none ∧
      fget cipCtl Reg.CIP_CSTAT.LAST_EXP t = 4 := by
  obtain ⟨-, -, -, hresult⟩ := cipherEndsAndLock.2.2.2.2.2.2 3 heldCommon (by decide) (by decide)
  obtain ⟨t, ht, hnone, hlast, -⟩ := cipherEndsAndLock.2.2.2.2.2.1 3 heldCommon (by decide) (by decide) (by decide)
  exact ⟨hresult (by decide), t, ht, hnone, hlast⟩

end Sys2Proof.Tests
end

section
/-!
SUPPORT. A slot's counters, its marks, and the shelf's upkeep (R495, R497, R524, R525, R531).
-/

namespace Sys2Proof.Machine

open Reg

/-! ### Draws (R494–R497) -/

/-- A drawn slot before its exhaustion is judged: what `markNear` may add is marks being programmed. -/
theorem slotMarked_shows (k v : Nat) (gcm : Bool) (s : State) {w : KeySlot} (hw : w ≠ {}) :
    let u := markNear k v gcm (slotPut k w s)
    u.regs = s.regs ∧ (slotGet k u).fc = w.fc ∧ (slotGet k u).gc = w.gc := by
  intro u
  have hget := slotGet_slotPut (k := k) hw s
  rcases markNear_cases k v gcm (slotPut k w s) with he | ⟨m, he⟩
  · rw [show u = slotPut k w s from he, hget]
    exact ⟨rfl, rfl, rfl⟩
  · let x : KeySlot := { slotGet k (slotPut k w s) with marking := some m }
    have hx : slotGet k (slotPut k x (slotPut k w s)) = x :=
      slotGet_slotPut (fun hd => absurd (congrArg KeySlot.marking hd) (Option.some_ne_none m)) _
    rw [show u = slotPut k x (slotPut k w s) from he, hx]
    exact ⟨rfl, congrArg (·.fc) hget, congrArg (·.gc) hget⟩

theorem slotB_apart {k r : Nat} (hk : k < 128) {g f : Fld} (hg : g.lo + g.w ≤ 32 ∧ g.off < 0x1000) :
    Place.Apart (slotB k, g) (cipPage r, f) := by
  refine ⟨hg.1, .inl ?_⟩
  show slotB k + g.off ≠ cipPage r + f.off
  unfold slotB keyB cipPage
  omega

/-- What the exhaustion of a slot leaves of the slot's register, its counters and the marks of the shelf. -/
theorem spend_shows {k : Nat} (hk : k < 128) {s : State} (h : Registers.wf s = true) :
    slotSpent k (spend k s) = true ∧ slotLive k (spend k s) = slotLive k s ∧
      slotEntryNo k (spend k s) = slotEntryNo k s ∧ (spend k s).keys.slots = s.keys.slots ∧
      ∀ e, entryMarks e (spend k s) = entryMarks e s := by
  rcases spend_cases k s with ⟨hs, he⟩ | ⟨u, hslots, hregs, -, hmarks, he⟩ <;> rw [he]
  · exact ⟨hs, rfl, rfl, rfl, fun _ => rfl⟩
  · let s1 := fset (slotB k) KEY_SLOT.SPENT 1 s
    have h1 : Only (page (slotB k) [KEY_SLOT.SPENT]) s s1 := .fsetIn (.refl h) (by decide) 1
    have hu : Registers.wf u = true := (Registers.wf_of_regs hregs).trans h1.wf
    have h2 := pageNote_only hu (slotOwner k s) CIP_NOTE.KEY_SPENT
    have hnote {g : Fld} (hg : g.lo + g.w ≤ 32 ∧ g.off < 0x1000) :
        fget (slotB k) g (pageNote (slotOwner k s) CIP_NOTE.KEY_SPENT u) = fget (slotB k) g s1 :=
      (h2.field (List.forall_mem_singleton.2 (slotB_apart hk hg))).trans (fget_of_regs hregs _ _)
    have hkeys : (pageNote (slotOwner k s) CIP_NOTE.KEY_SPENT u).keys = u.keys := note_keys _ _ _ _
    refine ⟨?_, ?_, ?_, by rw [hkeys, hslots], fun e => ?_⟩
    · rw [slotSpent, fis, hnote (by decide)]
      exact fis_fset_one h _ (by decide)
    · rw [slotLive, fis, hnote (by decide), h1.fieldIn (by decide), slotLive, fis]
    · rw [slotEntryNo, hnote (by decide), h1.fieldIn (by decide), slotEntryNo]
    · rw [← hmarks e, entryMarks, shelfGet, hkeys, entryMarks, shelfGet]

/-- The slot's counters have run out. -/
abbrev slotOut (k : Nat) (s : State) : Prop := fcTop ≤ (slotGet k s).fc ∨ gcTop ≤ (slotGet k s).gc

theorem spendIfOut_keeps_slot {k : Nat} (hk : k < 128) {s : State} (h : Registers.wf s = true) :
    slotSpent k (spendIfOut k s) = (slotSpent k s || decide (slotOut k s)) ∧
      slotLive k (spendIfOut k s) = slotLive k s ∧ slotEntryNo k (spendIfOut k s) = slotEntryNo k s ∧
      (spendIfOut k s).keys.slots = s.keys.slots ∧ ∀ e, entryMarks e (spendIfOut k s) = entryMarks e s := by
  obtain ⟨hspent, hlive, hno, hslots, hmarks⟩ := spend_shows hk h
  by_cases ho : slotOut k s
  · rw [spendIfOut, if_pos ho, decide_eq_true ho, Bool.or_true]
    exact ⟨hspent, hlive, hno, hslots, hmarks⟩
  · rw [spendIfOut, if_neg ho, decide_eq_false ho, Bool.or_false]
    exact ⟨rfl, rfl, rfl, rfl, fun _ => rfl⟩

theorem fcDraw_slot {k : Nat} (hk : k < 128) {s : State} (h : Registers.wf s = true) (hs : slotSpent k s = false) :
    (fcDraw k s).1 = (slotGet k s).fc ∧ (slotGet k (fcDraw k s).2).fc = (slotGet k s).fc + 1 ∧
      (slotGet k (fcDraw k s).2).gc = (slotGet k s).gc ∧
      slotSpent k (fcDraw k s).2 = decide (0xFFFFFFFE ≤ (slotGet k s).fc ∨ 2 ^ 64 - 1 ≤ (slotGet k s).gc) := by
  let w : KeySlot := { slotGet k s with fc := (slotGet k s).fc + 1 }
  obtain ⟨hregs, hfc, hgc⟩ := slotMarked_shows k (slotGet k s).fc false s (w := w)
    (fun hd => Nat.succ_ne_zero _ (congrArg KeySlot.fc hd))
  obtain ⟨hspent, -, -, hslots, -⟩ := spendIfOut_keeps_slot hk ((Registers.wf_of_regs hregs).trans h)
  have hget := slotGet_of_slots hslots k
  refine ⟨rfl, (congrArg KeySlot.fc hget).trans hfc, (congrArg KeySlot.gc hget).trans hgc, hspent.trans ?_⟩
  rw [slotSpent, fis, fget_of_regs hregs, ← fis, ← slotSpent, hs, Bool.false_or]
  refine decide_eq_decide.2 (or_congr ?_ ?_)
  · rw [hfc]
    show fcTop ≤ (slotGet k s).fc + 1 ↔ _
    unfold fcTop
    omega
  · rw [hgc, gcTop]

theorem gcDraw_slot {k : Nat} (hk : k < 128) {s : State} (h : Registers.wf s = true) :
    (gcDraw k s).1 = (slotGet k s).gc ∧ (slotGet k (gcDraw k s).2).gc = (slotGet k s).gc + 1 := by
  let w : KeySlot := { slotGet k s with gc := (slotGet k s).gc + 1 }
  obtain ⟨hregs, -, hgc⟩ := slotMarked_shows k (slotGet k s).gc true s (w := w)
    (fun hd => Nat.succ_ne_zero _ (congrArg KeySlot.gc hd))
  obtain ⟨-, -, -, hslots, -⟩ := spendIfOut_keeps_slot hk ((Registers.wf_of_regs hregs).trans h)
  exact ⟨rfl, (congrArg KeySlot.gc (slotGet_of_slots hslots k)).trans hgc⟩

/-! ### Loads and marks (R523, R524) -/

/-- KEY_SLOT of a slot that a key is loaded into. -/
def slotWord (e : Nat) (v : ShelfEntry) : Nat :=
  2 ^ 31 + ofBool v.spent * 2 ^ 30 + (v.key.length / 8 - 2) % 4 * 2 ^ 28 + v.cls % 2 * 2 ^ 24 +
    v.owner % 64 * 2 ^ 16 + e % 512

theorem slotWord_fields {e : Nat} (he : e < 512) (v : ShelfEntry) :
    bitsOf (BitVec.ofNat 32 (slotWord e v)) 31 1 = 1 ∧ bitsOf (BitVec.ofNat 32 (slotWord e v)) 0 9 = e := by
  have hspent : ofBool v.spent < 2 := by cases v.spent <;> decide
  have hlt : slotWord e v < 2 ^ 32 := by unfold slotWord; omega
  simp only [bitsOf, BitVec.toNat_ofNat, Nat.mod_eq_of_lt hlt, Nat.shiftRight_eq_div_pow]
  unfold slotWord
  omega

/-- A slot with a key loaded, before its exhaustion is judged: its register, its counters and its entry. -/
def slotPlaced (k e serial : Nat) (word : Word) (w : KeySlot) (x : ShelfEntry) (s : State) : State :=
  shelfLog (.mark serial) (shelfPut e (some x) (slotPut k w (wr (slotB k + 0x400) word s)))

theorem slotLoad_eq (k e : Nat) (v : ShelfEntry) (s : State) :
    slotLoad k e v s = spendIfOut k (slotPlaced k e v.serial (BitVec.ofNat 32 (slotWord e v))
      { fc := v.fcMark, gc := v.gcMark }
      { v with fcMark := min fcTop (v.fcMark + 4096), gcMark := min gcTop (v.gcMark + 4096) } s) := by
  unfold slotLoad slotPlaced slotWord
  rfl

theorem slotPlaced_shows {k : Nat} {w : KeySlot} {s : State} (h : Registers.wf s = true) (hw : w ≠ {}) (e serial : Nat)
    (word : Word) (x : ShelfEntry) :
    let t := slotPlaced k e serial word w x s
    Registers.wf t = true ∧ rd (slotB k + 0x400) t = word ∧ slotGet k t = w ∧ entryMarks e t = some (x.fcMark, x.gcMark) :=
  ⟨Registers.wf_wr h _ _, rd_wr_self h _ _, slotGet_slotPut hw _, (entryMarks_shelfPut e x _ e).trans (if_pos rfl)⟩

/-- A slot with a key loaded: it is live with its entry, unless exhausted, and its counters and marks stand. -/
theorem spendIfOut_slotPlaced {k e serial : Nat} (hk : k < 128) {word : Word} (hlive : bitsOf word 31 1 = 1)
    (hentry : bitsOf word 0 9 = e) {w : KeySlot} (hw : w ≠ {}) (x : ShelfEntry) {s : State} (h : Registers.wf s = true) :
    let t := spendIfOut k (slotPlaced k e serial word w x s)
    slotLive k t = true ∧ slotEntryNo k t = e ∧ slotGet k t = w ∧ entryMarks e t = some (x.fcMark, x.gcMark) := by
  obtain ⟨hwf, hrd, hget, hmarks⟩ := slotPlaced_shows (k := k) h hw e serial word x
  generalize slotPlaced k e serial word w x s = u at *
  obtain ⟨-, hlive', hno, hslots, hmarks'⟩ := spendIfOut_keeps_slot hk hwf
  refine ⟨hlive'.trans ?_, hno.trans ?_, (slotGet_of_slots hslots k).trans hget, (hmarks' e).trans hmarks⟩
  · show (bitsOf (rd (slotB k + 0x400) u) 31 1 == 1) = true
    rw [hrd, hlive]
    rfl
  · show bitsOf (rd (slotB k + 0x400) u) 0 9 = e
    rw [hrd, hentry]

theorem slotLoad_shows {k e : Nat} (hk : k < 128) (he : e < 512) (v : ShelfEntry) {s : State}
    (h : Registers.wf s = true) (hv : v.fcMark ≠ 0) :
    let t := slotLoad k e v s
    slotLive k t = true ∧ slotEntryNo k t = e ∧ (slotGet k t).fc = v.fcMark ∧ (slotGet k t).gc = v.gcMark ∧
      entryMarks e t = some (min (2 ^ 32 - 1) (v.fcMark + 4096), min (2 ^ 64 - 1) (v.gcMark + 4096)) := by
  obtain ⟨hlive, hentry⟩ := slotWord_fields he v
  have hw : ({ fc := v.fcMark, gc := v.gcMark } : KeySlot) ≠ {} := fun hd => hv (congrArg KeySlot.fc hd)
  obtain ⟨hlive', hno, hget, hmarks⟩ := spendIfOut_slotPlaced hk (serial := v.serial) hlive hentry hw
    { v with fcMark := min fcTop (v.fcMark + 4096), gcMark := min gcTop (v.gcMark + 4096) } h
  rw [← slotLoad_eq] at hlive' hno hget hmarks
  rw [fcTop, gcTop] at hmarks
  exact ⟨hlive', hno, congrArg KeySlot.fc hget, congrArg KeySlot.gc hget, hmarks⟩

theorem markDone_none {k : Nat} {ok : Bool} {s : State} (h : (slotGet k s).marking = none) : markDone k ok s = s := by
  unfold markDone
  rw [h]

/-- A slot whose marks are programmed no more. -/
def slotUnmarked (k : Nat) (s : State) : State := slotPut k { slotGet k s with marking := none } s

theorem markDone_ok {k f g : Nat} {v : ShelfEntry} {s : State} (h : (slotGet k s).marking = some (f, g))
    (hv : shelfGet (slotEntryNo k s) s = some v) (hw : s.cip.waiting = []) :
    markDone k true s = shelfLog (.mark v.serial)
      (shelfPut (slotEntryNo k s) (some { v with fcMark := f, gcMark := g }) (slotUnmarked k s)) := by
  unfold markDone
  rw [h, hv]
  dsimp only
  rw [if_pos rfl]
  show cipServe s.cip.waiting _ = _
  rw [hw]
  rfl

theorem markDone_failed {k f g : Nat} {v : ShelfEntry} {s : State} (h : (slotGet k s).marking = some (f, g))
    (hv : shelfGet (slotEntryNo k s) s = some v) (hw : s.cip.waiting = []) :
    markDone k false s = spend k (keyErr KEY_ERR.MARK_FAIL (slotUnmarked k s)) := by
  let u := spend k (keyErr KEY_ERR.MARK_FAIL (slotUnmarked k s))
  have hcip : u.cip = s.cip := by
    have hnote : (keyErr KEY_ERR.MARK_FAIL (slotUnmarked k s)).cip = s.cip := note_cip _ _ _ _
    rcases spend_cases k (keyErr KEY_ERR.MARK_FAIL (slotUnmarked k s)) with ⟨-, he⟩ | ⟨x, -, -, hx, -, he⟩
    · exact (congrArg State.cip he).trans hnote
    · exact (congrArg State.cip he).trans ((note_cip _ _ _ _).trans (hx.trans hnote))
  unfold markDone
  rw [h, hv]
  dsimp only
  rw [if_neg Bool.false_ne_true]
  show u.cip.waiting.foldl _ u = u
  rw [hcip, hw, List.foldl_nil]

theorem markFailed_shows {k : Nat} (hk : k < 128) {s : State} (h : Registers.wf s = true) :
    let t := spend k (keyErr KEY_ERR.MARK_FAIL (slotUnmarked k s))
    slotSpent k t = true ∧ fis keyB KEY_ERR.MARK_FAIL t = true := by
  have h0 : Registers.wf (slotUnmarked k s) = true := (Registers.wf_of_regs (Eq.refl s.regs)).trans h
  let s1 := keyErr KEY_ERR.MARK_FAIL (slotUnmarked k s)
  have h1 : Only (page keyB [KEY_ERR.MARK_FAIL]) (slotUnmarked k s) s1 := .noteIn (.refl h0) (by decide) _
  have hflag : fis keyB KEY_ERR.MARK_FAIL s1 = true := fis_note h0 _ (by decide) (by decide) _
  refine ⟨(spend_shows hk h1.wf).1, ?_⟩
  rcases spend_cases k s1 with ⟨-, he⟩ | ⟨u, -, hregs, -, -, he⟩
  · rw [show spend k (keyErr KEY_ERR.MARK_FAIL (slotUnmarked k s)) = s1 from he, hflag]
  · have h2 : Only [(slotB k, KEY_SLOT.SPENT)] s1 (fset (slotB k) KEY_SLOT.SPENT 1 s1) :=
      (Only.refl h1.wf).fset (List.mem_singleton.2 (Eq.refl _)) 1
    have h3 := pageNote_only ((h2.of_regs hregs).wf) (slotOwner k s1) CIP_NOTE.KEY_SPENT
    rw [show spend k (keyErr KEY_ERR.MARK_FAIL (slotUnmarked k s)) = _ from he]
    refine (h3.flag (List.forall_mem_singleton.2 ⟨by decide, .inl ?_⟩)).trans
      (((h2.of_regs hregs).flag (List.forall_mem_singleton.2 ⟨by decide, .inl ?_⟩)).trans hflag)
    · show keyB + 8 ≠ cipPage (slotOwner k s1) + 0x80
      unfold keyB cipPage
      omega
    · show keyB + 8 ≠ keyB + 4 * k + 0x400
      omega

/-! ### Compaction and clearing (R525, R531) -/

theorem eraseCount_keys (b : Nat) (s : State) : (eraseCount b s).keys = s.keys := by
  unfold eraseCount
  dsimp only
  split
  · exact note_keys _ _ _ _
  · rfl

theorem eraseCount_wf {s : State} (h : Registers.wf s = true) (b : Nat) : Registers.wf (eraseCount b s) = true :=
  (eraseCount_keeps (β := true) .rfl b).regs h

theorem compactDone_shows {s : State} (h : Registers.wf s = true) (hc : fis keyB KEY_STAT.COMPACT s = true) :
    let t := compactDone s
    fis keyB KEY_STAT.COMPACT t = false ∧ t.keys.shelf = s.keys.shelf ∧ t.keys.slots = s.keys.slots := by
  unfold compactDone
  rw [hc, if_neg (by decide)]
  split
  · exact ⟨fis_fset_zero h _ (by decide), rfl, rfl⟩
  · next b recs rest _ =>
    dsimp only
    generalize List.drop 1 _ = log
    let u : State := { s with keys := { s.keys with log := log } }
    have hu : Registers.wf u = true := (Registers.wf_of_regs (Eq.refl s.regs)).trans h
    exact ⟨fis_fset_zero (eraseCount_wf hu _) _ (by decide), congrArg (·.shelf) (eraseCount_keys (752 + b) u),
      congrArg (·.slots) (eraseCount_keys (752 + b) u)⟩

/-- The entries of earlier roots erased from a list of entries. -/
def clearEntries (gen : Nat) (l : List (Nat × ShelfEntry)) (s : State) : State :=
  l.foldl (fun t p => if p.2.gen = gen then t else shelfPut p.1 none t) s

theorem clearEntries_same (gen : Nat) (l : List (Nat × ShelfEntry)) (s : State) :
    (clearEntries gen l s).regs = s.regs ∧ (clearEntries gen l s).keys.slots = s.keys.slots := by
  induction l generalizing s with
  | nil => exact ⟨rfl, rfl⟩
  | cons p r ih =>
    rw [clearEntries, List.foldl_cons]
    split
    · exact ih s
    · exact ih (shelfPut p.1 none s)

theorem clearEntries_present {gen : Nat} {l : List (Nat × ShelfEntry)} (h : ∀ p ∈ l, p.2.gen = gen) (s : State) :
    clearEntries gen l s = s := by
  induction l with
  | nil => rfl
  | cons p r ih =>
    rw [clearEntries, List.foldl_cons, if_pos (h p (List.mem_cons_self ..))]
    exact ih fun q hq => h q (List.mem_cons_of_mem _ hq)

theorem clearingDone_shows {s : State} (h : Registers.wf s = true) (hc : fis keyB KEY_STAT.CLEARING s = true) :
    let t := clearingDone s
    fis keyB KEY_STAT.CLEARING t = false ∧ t.keys.slots = s.keys.slots ∧
      ((∀ p ∈ shelfEntries s, p.2.gen = rootGen s) → t.keys.shelf = s.keys.shelf) ∧
      (∀ e v, s.keys.shelf = [(e, some v)] → v.gen ≠ rootGen s → t.keys.shelf = []) := by
  have ht : clearingDone s = fset keyB KEY_STAT.CLEARING 0 (clearEntries (rootGen s) (shelfEntries s) s) :=
    if_neg (by rw [hc]; decide)
  obtain ⟨hregs, hslots⟩ := clearEntries_same (rootGen s) (shelfEntries s) s
  rw [ht]
  refine ⟨fis_fset_zero ((Registers.wf_of_regs hregs).trans h) _ (by decide), hslots, fun hall => ?_, fun e v hs hv => ?_⟩
  · show (clearEntries (rootGen s) (shelfEntries s) s).keys.shelf = s.keys.shelf
    rw [clearEntries_present hall s]
  · have hl : shelfEntries s = [(e, v)] := by
      rw [shelfEntries, hs]
      rfl
    show (clearEntries (rootGen s) (shelfEntries s) s).keys.shelf = []
    rw [hl, clearEntries, List.foldl_cons, if_neg hv, List.foldl_nil]
    show tset (fun _ => none) s.keys.shelf e none = []
    rw [hs, tset, if_pos rfl, tdel, if_pos rfl]

/-- Settles O38. -/
theorem countersAndShelf : Obligations.CountersAndShelf := by
  unfold Obligations.CountersAndShelf
  refine ⟨fun k s hk h hs => ?_, fun k e v s hk he h hv => slotLoad_shows hk he v h hv, fun slot ok s => ⟨fun hm => ?_, ?_⟩,
    fun due s => ⟨fun hn => ?_, fun hc hl hd => ?_, fun hc => ?_, fun hc h => ⟨_, rfl, compactDone_shows h hc⟩, fun hc => ?_,
      fun hc h => ⟨_, rfl, clearingDone_shows h hc⟩⟩⟩
  · obtain ⟨hval, hfc, hgc, hspent⟩ := fcDraw_slot hk h hs
    obtain ⟨hval', hgc'⟩ := gcDraw_slot hk h
    exact ⟨hval, hfc, hgc, hspent, hval', hgc'⟩
  · exact congrArg _ (markDone_none hm)
  · intro f g v hm hv hw h
    refine ⟨⟨_, congrArg Host.Outcome.next (markDone_ok hm hv hw), ?_, rfl⟩, _, congrArg Host.Outcome.next (markDone_failed hm hv hw),
      markFailed_shows slot.isLt h⟩
    exact (entryMarks_shelfPut _ _ _ _).trans (if_pos rfl)
  · exact congrArg _ (if_pos hn)
  · refine congrArg _ (if_neg ?_)
    rintro (hc' | hl' | ⟨hd', hlen⟩)
    · exact Bool.false_ne_true (hc.symm.trans hc')
    · exact hl hl'
    · rcases hd with hd | hd
      · exact Bool.false_ne_true (hd'.symm.trans hd)
      · omega
  · exact congrArg _ (if_pos (by rw [hc]; rfl))
  · exact congrArg _ (if_pos (by rw [hc]; rfl))

end Sys2Proof.Machine

namespace Sys2Proof.Tests
open Sys2Proof.Machine

set_option maxRecDepth 8000

/-- Slot 0 is one draw from its last value, and its marks are being programmed. -/
def lastDraw : State :=
  { sendingContext with keys := { sendingContext.keys with
      slots := [(0, { fc := 0xFFFFFFFE, gc := 0, marking := some (30, 40) })] } }

/-- The last value is drawn once and the slot is SPENT; the programmed marks stand. -/
theorem test_hyps_countersAndShelf : slotSpent 0 (fcDraw 0 lastDraw).2 = true ∧
    ∃ t, exec (.markProgrammed 0 true) lastDraw = .next t ∧ entryMarks 0 t = some (30, 40) := by
  obtain ⟨-, -, -, hspent, -⟩ := countersAndShelf.1 0 lastDraw (by decide) (by decide) (by decide)
  obtain ⟨⟨t, ht, hmarks, -⟩, -⟩ := (countersAndShelf.2.2.1 0 true lastDraw).2 30 40 _ (by decide) rfl (by decide) (by decide)
  exact ⟨hspent.trans (by decide), t, ht, hmarks⟩

end Sys2Proof.Tests
end

section
/-!
SUPPORT. The flash controller (R541–R554): its banks, the ports' commands and ends, programs and erases of the array,
suspension and the read settings.
-/

namespace Sys2Proof.Machine

open Reg

/-! ### Banks and ports -/

/-- The fields of FLC_STAT that tell of the banks. -/
abbrev bankFields : List Fld := [FLC_STAT.B0_STATE, FLC_STAT.B0_BLOCK, FLC_STAT.B1_STATE, FLC_STAT.B1_BLOCK]

theorem bankCode_lt (b : FlashBank) (suspended : Bool) : bankCode b suspended < 4 := by
  unfold bankCode
  split
  · decide
  · split <;> decide
  · decide

theorem bankPut_only {s : State} (h : Registers.wf s = true) (k : Nat) (b : FlashBank) (suspended : Bool) :
    Only (page flcB bankFields) s (bankPut k b suspended s) := by
  have hflash : Only (page flcB bankFields) s
      { s with flash := if k = 0 then { s.flash with bank0 := b } else { s.flash with bank1 := b } } :=
    (Only.refl h).of_regs (Eq.refl s.regs)
  unfold bankPut
  by_cases hk : k = 0
  · simp only [if_pos hk] at hflash ⊢
    exact (hflash.fsetIn (by decide) _).fsetIn (by decide) _
  · simp only [if_neg hk] at hflash ⊢
    exact (hflash.fsetIn (by decide) _).fsetIn (by decide) _

/-- A bank that takes what it does. -/
theorem bankPut_shows {s : State} (h : Registers.wf s = true) (k : Nat) (b : FlashBank) (suspended : Bool) :
    bankState k (bankPut k b suspended s) = bankCode b suspended ∧ bankGet k (bankPut k b suspended s) = b := by
  have hflash : Registers.wf
      { s with flash := if k = 0 then { s.flash with bank0 := b } else { s.flash with bank1 := b } } = true :=
    (Registers.wf_of_regs (Eq.refl s.regs)).trans h
  have hset (f : Fld) := Registers.wf_fset hflash flcB f (bankCode b suspended)
  by_cases hk : k = 0
  · subst hk
    exact ⟨(fget_fset_of_apart (hset _) _ _ (by decide)).trans (fget_fset_lt hflash _ (bankCode_lt b suspended) (by decide)), rfl⟩
  · unfold bankState bankGet bankPut
    simp only [if_neg hk] at hflash hset ⊢
    exact ⟨(fget_fset_of_apart (hset _) _ _ (by decide)).trans (fget_fset_lt hflash _ (bankCode_lt b suspended) (by decide)), rfl⟩

theorem fpPage_apart {r : Nat} {g f : Fld} (hg : g.lo + g.w ≤ 32) (hf : f.off < 0x8000) :
    Place.Apart (fpPage r, g) (flcB, f) := by
  refine ⟨hg, .inl ?_⟩
  show fpPage r + g.off ≠ flcB + f.off
  unfold fpPage flcB
  omega

theorem apart_fpPage {r : Nat} {g f : Fld} (hg : g.lo + g.w ≤ 32 ∧ g.off < 0x8000) : Place.Apart (flcB, g) (fpPage r, f) := by
  refine ⟨hg.1, .inl ?_⟩
  show flcB + g.off ≠ fpPage r + f.off
  unfold fpPage flcB
  omega

/-- A port's field after registers of the controller's block change. -/
theorem Only.fpField {fs : List Fld} {s t : State} (h : Only (page flcB fs) s t) (r : Nat) {g : Fld} (hg : g.lo + g.w ≤ 32)
    (hfs : ∀ f ∈ fs, f.off < 0x8000) : Machine.fget (fpPage r) g t = Machine.fget (fpPage r) g s :=
  h.field fun x hx => by
    obtain ⟨f, hf, rfl⟩ := List.mem_map.1 hx
    exact fpPage_apart hg (hfs f hf)

/-- A field of the controller's block after a port's registers change. -/
theorem Only.flcField {r : Nat} {fs : List Fld} {s t : State} (h : Only (page (fpPage r) fs) s t) {g : Fld}
    (hg : g.lo + g.w ≤ 32 ∧ g.off < 0x8000) : Machine.fget flcB g t = Machine.fget flcB g s :=
  h.field fun x hx => by
    obtain ⟨f, -, rfl⟩ := List.mem_map.1 hx
    exact apart_fpPage hg

theorem bankState_of_fields {s t : State} (h : ∀ g ∈ bankFields, fget flcB g t = fget flcB g s) (k : Nat) :
    bankState k t = bankState k s := by
  unfold bankState
  split
  · exact h _ (by decide)
  · exact h _ (by decide)

/-- The fields of a port's end. -/
abbrev portFields : List Fld := [FP_STAT.STATE, FP_STAT.RESULT, FP_STAT.STG_BAD]

theorem fpEnd_only {s : State} (h : Registers.wf s = true) (r res : Nat) : Only (page (fpPage r) portFields) s (fpEnd r res s) :=
  ((Only.refl h).fsetIn (b := fpPage r) (f := FP_STAT.RESULT) (by decide) _).fsetIn (f := FP_STAT.STATE) (by decide) _

theorem fpEnd_shows {s : State} (h : Registers.wf s = true) (r : Nat) {res : Nat} (hres : res < 16) :
    fget (fpPage r) FP_STAT.STATE (fpEnd r res s) = 2 ∧ fget (fpPage r) FP_STAT.RESULT (fpEnd r res s) = res := by
  have hresult := Registers.wf_fset h (fpPage r) FP_STAT.RESULT res
  exact ⟨fget_fset_lt hresult _ (by decide) (by decide),
    (fget_fset_of_apart hresult _ _ (by decide)).trans (fget_fset_lt h _ hres (by decide))⟩

theorem fpProgEnd_eq {r res : Nat} (h : res ≠ 7) (s : State) :
    fpProgEnd r res s = fset (fpPage r) FP_STAT.STG_BAD 0 (fpEnd r res s) := if_neg h

theorem fpProgEnd_only {s : State} (h : Registers.wf s = true) (r : Nat) {res : Nat} (hres : res ≠ 7) :
    Only (page (fpPage r) portFields) s (fpProgEnd r res s) := by
  rw [fpProgEnd_eq hres]
  exact (fpEnd_only h r res).fsetIn (by decide) _

theorem fpProgEnd_shows {s : State} (h : Registers.wf s = true) (r : Nat) {res : Nat} (hres : res ≠ 7) (hlt : res < 16) :
    fget (fpPage r) FP_STAT.STATE (fpProgEnd r res s) = 2 ∧ fget (fpPage r) FP_STAT.RESULT (fpProgEnd r res s) = res ∧
      fis (fpPage r) FP_STAT.STG_BAD (fpProgEnd r res s) = false := by
  obtain ⟨hstate, hresult⟩ := fpEnd_shows h r hlt
  have hend := (fpEnd_only h r res).wf
  rw [fpProgEnd_eq hres]
  exact ⟨(fget_fset_of_apart hend _ _ (by decide)).trans hstate, (fget_fset_of_apart hend _ _ (by decide)).trans hresult,
    fis_fset_zero hend _ (by decide)⟩

/-! ### The checks of a target (R548) -/

theorem fpCheck_lt (i : Init) (r a n : Nat) (s : State) : fpCheck i r a n s < 16 := by
  unfold fpCheck
  dsimp only
  split_ifs <;> decide

theorem fpCheck_range {i : Init} {r a n : Nat} {s : State} (h : fpCheck i r a n s = 0) :
    0x08000000 ≤ a ∧ a < 0x0C000000 := by
  by_contra hr
  have : fpCheck i r a n s = 2 := if_pos (by omega)
  omega

theorem stewardFlash_iff {a : Nat} : stewardFlash a = true ↔
    (0x08000000 ≤ a ∧ a < 0x08400000) ∨ (0x0B000000 ≤ a ∧ a < 0x0C000000) := by
  simp only [stewardFlash, Bool.or_eq_true, decide_eq_true_eq]

theorem inKeyShelf_iff {a : Nat} : inKeyShelf a = true ↔ 0x0AF00000 ≤ a ∧ a < 0x0B000000 := by
  simp only [inKeyShelf, Bool.and_eq_true, decide_eq_true_eq]

/-- The first checks of R548 on an aligned target of the flash: 3 for a reserved range, 4 without a window. -/
theorem fpCheck_ranges {i : Init} {r a n : Nat} {s : State} (ha : a % n = 0) (hlo : 0x08000000 ≤ a) (hhi : a < 0x0C000000) :
    ((0x0AF00000 ≤ a ∧ a < 0x0B000000) ∨ (0x0B000000 ≤ a ∧ i ≠ .steward) → fpCheck i r a n s = 3) ∧
    (0x08400000 ≤ a → a < 0x0AF00000 → windowsOf r s = [] → fpCheck i r a n s = 4) ∧
    (0x0B000000 ≤ a → i = .steward → pdOn 27 s = false → fpCheck i r a n s = 5) ∧
    (0x0B000000 ≤ a → i = .steward → pdOn 27 s = true → bankState 1 s = 2 → fpCheck i r a n s = 1) := by
  have haligned : ¬ (a % n ≠ 0 ∨ a < 0x08000000 ∨ 0x0C000000 ≤ a) := by omega
  have hreserved : fpCheck i r a n s = 3 ∨
      ¬ (inKeyShelf a = true ∨ (a < 0x08040000 ∧ fis flcB FLC_LOCK.PORTER s) ∨ (stewardFlash a ∧ i ≠ .steward)) := by
    by_cases hc : inKeyShelf a = true ∨ (a < 0x08040000 ∧ fis flcB FLC_LOCK.PORTER s) ∨ (stewardFlash a ∧ i ≠ .steward)
    · exact .inl ((if_neg haligned).trans (if_pos hc))
    · exact .inr hc
  have hopen (h1 : ¬ (0x0AF00000 ≤ a ∧ a < 0x0B000000)) (h2 : ¬ a < 0x08040000) (h3 : ¬ (stewardFlash a = true ∧ i ≠ .steward)) :
      ¬ (inKeyShelf a = true ∨ (a < 0x08040000 ∧ fis flcB FLC_LOCK.PORTER s) ∨ (stewardFlash a ∧ i ≠ .steward)) := by
    rintro (hc | ⟨hc, -⟩ | hc)
    · exact h1 (inKeyShelf_iff.1 hc)
    · exact h2 hc
    · exact h3 hc
  have hbank1 (h : 0x0B000000 ≤ a) : bankOf a = 1 := if_neg (by omega)
  refine ⟨fun h => hreserved.resolve_right fun hc => hc ?_, fun h1 h2 hw => ?_, fun h1 hi hp => ?_, fun h1 hi hp hb => ?_⟩
  · rcases h with h | ⟨h, hi⟩
    · exact .inl (inKeyShelf_iff.2 h)
    · exact .inr (.inr ⟨stewardFlash_iff.2 (.inr ⟨h, hhi⟩), hi⟩)
  · have hsf : stewardFlash a = false := Bool.eq_false_iff.2 fun hc => by have := stewardFlash_iff.1 hc; omega
    refine (if_neg haligned).trans ((if_neg (hopen (by omega) (by omega) fun hc => ?_)).trans (if_pos ?_))
    · exact Bool.false_ne_true (hsf.symm.trans hc.1)
    · rw [hsf, hw]
      rfl
  all_goals
    have hsf : stewardFlash a = true := stewardFlash_iff.2 (.inr ⟨h1, hhi⟩)
    refine (if_neg haligned).trans ((if_neg (hopen (by omega) (by omega) fun hc => hc.2 hi)).trans
      ((if_neg (by rw [hsf]; exact Bool.false_ne_true)).trans ?_))
  · exact if_pos (by rw [hbank1 h1, hp]; rfl)
  · refine (if_neg (by rw [hbank1 h1, hp]; exact Bool.false_ne_true)).trans (if_pos ?_)
    rw [hbank1 h1, hb]
    simp

/-! ### Commands on a port (R546, R548) -/

theorem fpCmd_refused {i : Init} {r key op : Nat} {s : State}
    (h : key ≠ 0x464C ∨ fget (fpPage r) FP_STAT.STATE s = 1) :
    fpCmd i r key op s = fset (fpPage r) FP_STAT.CMD_ERR 1 s :=
  if_pos (h.imp_right fun h => .inr (.inr h))

theorem fpCmd_runs {i : Init} {r : Nat} {s : State} (h : fget (fpPage r) FP_STAT.STATE s ≠ 1) :
    fpCmd i r 0x464C 1 s = fpProgram i r s ∧ fpCmd i r 0x464C 2 s = fpErase i r s := by
  unfold fpCmd
  refine ⟨?_, ?_⟩
  · rw [if_neg (by simp [h]), if_pos rfl]
  · rw [if_neg (by simp [h]), if_neg (by decide)]

theorem fpProgram_accepted {i : Init} {r : Nat} {s : State} (h : Registers.wf s = true)
    (hc : fpCheck i r (fget (fpPage r) FP_ADDR.ADDR s) 32 s = 0) :
    let a := fget (fpPage r) FP_ADDR.ADDR s
    let t := fpProgram i r s
    fget (fpPage r) FP_STAT.STATE t = 1 ∧ bankState (bankOf a) t = 1 ∧ t.mem = s.mem ∧
      (bankGet (bankOf a) t).prog = some ⟨r, a, rdBytes (fpPage r + 0x20) 8 s⟩ := by
  intro a t
  let s1 := fset (fpPage r) FP_STAT.STATE 1 s
  let b : FlashBank := { bankGet (bankOf a) s with prog := some ⟨r, a, rdBytes (fpPage r + 0x20) 8 s⟩ }
  have ht : t = bankPut (bankOf a) b (bankSuspended (bankOf a) s) s1 := if_pos hc
  have h1 : Registers.wf s1 = true := Registers.wf_fset h _ _ _
  obtain ⟨hstate, hget⟩ := bankPut_shows h1 (bankOf a) b (bankSuspended (bankOf a) s)
  rw [ht]
  refine ⟨?_, hstate, rfl, congrArg FlashBank.prog hget⟩
  exact ((bankPut_only h1 _ _ _).fpField r (by decide) (by decide)).trans (fget_fset_lt h _ (by decide) (by decide))

theorem eraseCount_only {s : State} (h : Registers.wf s = true) (b : Nat) :
    Only ((flcB + 4 * b, FLC_ECNT.COUNT) :: page flcB [FLC_WEAR_LAST.BLOCK, FLC_NOTE.WEAR]) s (eraseCount b s) := by
  have h1 : Only ((flcB + 4 * b, FLC_ECNT.COUNT) :: page flcB [FLC_WEAR_LAST.BLOCK, FLC_NOTE.WEAR]) s
      (fcount (flcB + 4 * b) FLC_ECNT.COUNT s) := (Only.refl h).fcount (List.mem_cons_self ..)
  exact .ite ((h1.fset (List.mem_cons_of_mem _ (by decide)) b).note (List.mem_cons_of_mem _ (by decide)) _) h1

theorem eraseCount_mem (b : Nat) (s : State) : (eraseCount b s).mem = s.mem := by
  unfold eraseCount
  dsimp only
  split
  · exact note_mem _ _ _ _
  · rfl

/-- A bank that takes what it does, and the lines of a range that are invalidated. -/
theorem flashInvalidate_bankPut {u : State} (h : Registers.wf u = true) (a n k : Nat) (b : FlashBank) (suspended : Bool) :
    let t := flashInvalidate a n (bankPut k b suspended u)
    bankState k t = bankCode b suspended ∧ bankGet k t = b ∧ t.mem = u.mem ∧ t.noise = u.noise ∧ Registers.wf t = true ∧
      ∀ r, fget (fpPage r) FP_STAT.STATE t = fget (fpPage r) FP_STAT.STATE u := by
  obtain ⟨hstate, hget⟩ := bankPut_shows h k b suspended
  have hput := bankPut_only h k b suspended
  refine ⟨hstate, Eq.trans ?_ hget, rfl, rfl, hput.wf, fun r => hput.fpField r (by decide) (by decide)⟩
  unfold bankGet
  rfl

theorem fpErase_eq {i : Init} {r : Nat} {s : State} (hc : fpCheck i r (fget (fpPage r) FP_ADDR.ADDR s) 0x10000 s = 0) :
    ∃ n < 1024, fpErase i r s = flashInvalidate (fget (fpPage r) FP_ADDR.ADDR s) 0x10000
      (bankPut (bankOf (fget (fpPage r) FP_ADDR.ADDR s))
        { erase := some ⟨r, fget (fpPage r) FP_ADDR.ADDR s, []⟩, minRun := true } false
        (eraseCount n (fset (fpPage r) FP_STAT.STATE 1 s))) := by
  refine ⟨(fget (fpPage r) FP_ADDR.ADDR s - 0x08000000) / 0x10000, ?_, if_pos hc⟩
  have := fpCheck_range hc
  omega

theorem fpErase_accepted {i : Init} {r : Nat} {s : State} (h : Registers.wf s = true)
    (hc : fpCheck i r (fget (fpPage r) FP_ADDR.ADDR s) 0x10000 s = 0) :
    let a := fget (fpPage r) FP_ADDR.ADDR s
    let t := fpErase i r s
    fget (fpPage r) FP_STAT.STATE t = 1 ∧ bankState (bankOf a) t = 2 ∧ t.mem = s.mem ∧
      (bankGet (bankOf a) t).erase = some ⟨r, a, []⟩ ∧ (bankGet (bankOf a) t).minRun = true := by
  obtain ⟨n, hn, ht⟩ := fpErase_eq hc
  intro a t
  let s1 := fset (fpPage r) FP_STAT.STATE 1 s
  have h2 := eraseCount_only (Registers.wf_fset h (fpPage r) FP_STAT.STATE 1) n
  obtain ⟨hstate, hget, hmem, -, -, hport⟩ := flashInvalidate_bankPut h2.wf a 0x10000 (bankOf a)
    { erase := some ⟨r, a, []⟩, minRun := true } false
  rw [← ht] at hstate hget hmem hport
  refine ⟨(hport r).trans ?_, hstate, hmem.trans (eraseCount_mem n s1), congrArg FlashBank.erase hget,
    congrArg FlashBank.minRun hget⟩
  refine (h2.field (List.forall_mem_cons.2 ⟨⟨show FP_STAT.STATE.lo + FP_STAT.STATE.w ≤ 32 by decide, .inl ?_⟩,
    fun x hx => ?_⟩)).trans (fget_fset_lt h _ (by decide) (by decide))
  · show fpPage r + 0x44 ≠ flcB + 4 * n + 0x4000
    unfold fpPage flcB
    omega
  · obtain ⟨f, hf, rfl⟩ := List.mem_map.1 hx
    exact fpPage_apart (by decide) ((by decide : ∀ f ∈ [FLC_WEAR_LAST.BLOCK, FLC_NOTE.WEAR], f.off < 0x8000) f hf)

/-! ### Ends of programs and erases (R549, R550) -/

theorem flashDone_eq {who : Nat} (hw : who < 64) (k res : Nat) (prog : Bool) (s : State) : flashDone k who res prog s =
    flcNote (if k = 0 then FLC_NOTE.DONE0 else FLC_NOTE.DONE1) (if prog then fpProgEnd who res s else fpEnd who res s) := by
  have hr : who % 128 = who := Nat.mod_eq_of_lt (by omega)
  have hport : who < 128 := by omega
  unfold flashDone
  rw [hr]
  dsimp only
  rw [if_pos hport]

theorem flashDone_shows {who : Nat} (hw : who < 64) (k : Nat) {res : Nat} (hres : res ≠ 7) (hlt : res < 16) (prog : Bool)
    {s : State} (h : Registers.wf s = true) :
    let t := flashDone k who res prog s
    fget (fpPage who) FP_STAT.STATE t = 2 ∧ fget (fpPage who) FP_STAT.RESULT t = res ∧
      fis flcB (if k = 0 then FLC_NOTE.DONE0 else FLC_NOTE.DONE1) t = true ∧ t.mem = s.mem ∧ t.noise = s.noise ∧
      ∀ j, bankState j t = bankState j s := by
  let s1 := if prog then fpProgEnd who res s else fpEnd who res s
  have h1 : Only (page (fpPage who) portFields) s s1 := .ite (fpProgEnd_only h who hres) (fpEnd_only h who res)
  have hs1 : fget (fpPage who) FP_STAT.STATE s1 = 2 ∧ fget (fpPage who) FP_STAT.RESULT s1 = res := by
    cases prog
    · exact fpEnd_shows h who hlt
    · exact ⟨(fpProgEnd_shows h who hres hlt).1, (fpProgEnd_shows h who hres hlt).2.1⟩
  have hmem : s1.mem = s.mem ∧ s1.noise = s.noise := by
    cases prog
    · exact ⟨rfl, rfl⟩
    · simp only [s1, if_pos, fpProgEnd_eq hres]
      exact ⟨rfl, rfl⟩
  rw [flashDone_eq hw]
  have hf : (if k = 0 then FLC_NOTE.DONE0 else FLC_NOTE.DONE1) ∈ [FLC_NOTE.DONE0, FLC_NOTE.DONE1] := by
    split <;> decide
  generalize (if k = 0 then FLC_NOTE.DONE0 else FLC_NOTE.DONE1) = f at hf
  have h2 : Only (page flcB [f]) s1 (flcNote f s1) := .noteIn (.refl h1.wf) (List.mem_singleton.2 (Eq.refl _)) _
  have hone : ∀ f ∈ [FLC_NOTE.DONE0, FLC_NOTE.DONE1], f.off < 0x8000 ∧ f.w = 1 ∧ f.lo + f.w ≤ 32 ∧
      ∀ g ∈ bankFields, ∀ x ∈ [f], g.Apart x := by decide
  obtain ⟨hoff, hwidth, hfit, hapart⟩ := hone f hf
  have hport : ∀ g ∈ [f], g.off < 0x8000 := List.forall_mem_singleton.2 hoff
  have hbanks : ∀ g ∈ bankFields, g.lo + g.w ≤ 32 ∧ g.off < 0x8000 := by decide
  exact ⟨(h2.fpField who (by decide) hport).trans hs1.1, (h2.fpField who (by decide) hport).trans hs1.2,
    fis_note h1.wf _ hwidth hfit _, (note_mem _ _ _ _).trans hmem.1,
    (note_same (·.noise) _ _ _ _ (raiseEvt_noise _) fun _ _ _ => rfl).trans hmem.2, fun j =>
      (bankState_of_fields (fun g hg => h2.fieldIn (hapart g hg)) j).trans
        (bankState_of_fields (fun g hg => h1.flcField (hbanks g hg)) j)⟩

/-- A range of flash erased reads 0xFF, and every other octet as before. -/
theorem memGet_eraseRange {s : State} (h : Memory.wf s = true) {a n : Nat} (hlo : 0x08000000 ≤ a) (hhi : a + n ≤ 0x0C000000) :
    Memory.wf (eraseRange a n s) = true ∧ (∀ x, a ≤ x → x < a + n → memGet x (eraseRange a n s) = 0xFF) ∧
      ∀ x, x < a ∨ a + n ≤ x → memGet x (eraseRange a n s) = memGet x s := by
  rw [Memory.wf, Bool.and_eq_true] at h
  obtain ⟨hnoise, hmem⟩ := h
  have hget (x : Nat) : memGet x (eraseRange a n s) =
      if !(decide (a ≤ x) && decide (x < a + n)) then memGet x s else memInit s.noise x :=
    tget_tkeep hmem (fun x => !(decide (a ≤ x) && decide (x < a + n))) x
  refine ⟨?_, fun x hx hx' => ?_, fun x hx => ?_⟩
  · exact Bool.and_eq_true_iff.2 ⟨hnoise, twf_tkeep hmem fun x => !(decide (a ≤ x) && decide (x < a + n))⟩
  · rw [hget, decide_eq_true hx, decide_eq_true hx', if_neg (by decide)]
    exact (if_neg (by omega)).trans (if_pos (by omega))
  · rw [hget, if_pos]
    simp only [Bool.not_eq_true', Bool.and_eq_false_iff, decide_eq_false_iff_not]
    omega

theorem memGet_of_mem {s t : State} (hm : t.mem = s.mem) (hn : t.noise = s.noise) (x : Nat) : memGet x t = memGet x s := by
  rw [memGet, hm, hn, memGet]

theorem blank_iff {a : Nat} {s : State} : ((memBytes a 32 s).all fun b => b == 0xFF) = true ↔
    memBytes a 32 s = List.replicate 32 0xFF := by
  rw [List.all_eq_true, List.eq_replicate_iff, memBytes_length]
  simp only [beq_iff_eq, true_and]

/-- The array after a program that finds the line blank, or not. -/
def lineAfter (a : Nat) (blank : Bool) (readBack : List Byte) (s : State) : State :=
  if blank then memWrite a readBack (eraseRange a 32 s) else s

theorem lineAfter_shows {s : State} (h : s.canonical = true) {a : Nat} (hlo : 0x08000000 ≤ a) (hhi : a + 32 ≤ 0x0C000000)
    {readBack : List Byte} (hr : readBack.length = 32) (blank : Bool) :
    let t := lineAfter a blank readBack s
    Registers.wf t = true ∧ (∀ x, x < a ∨ a + 32 ≤ x → memGet x t = memGet x s) ∧ (blank = false → t = s) ∧
      (blank = true → memBytes a 32 t = readBack) := by
  obtain ⟨hreg, hmem⟩ := canonical_iff.1 h
  obtain ⟨hwf, -, hout⟩ := memGet_eraseRange hmem hlo hhi
  cases blank with
  | false => exact ⟨hreg, fun _ _ => rfl, fun _ => rfl, fun hn => absurd hn Bool.false_ne_true⟩
  | true =>
    have herase : Registers.wf (eraseRange a 32 s) = true := (Registers.wf_of_regs (Eq.refl s.regs)).trans hreg
    refine ⟨((Only.refl (l := []) herase).memWrite a readBack).wf, fun x hx => ?_, fun hn => absurd hn.symm Bool.false_ne_true,
      fun _ => ?_⟩
    · exact (memGet_memWrite_ne hwf a readBack x (by rw [hr]; exact hx)).trans (hout x hx)
    · have := memBytes_memWrite_self hwf a readBack
      rwa [hr] at this

/-- RESULT of a line program. -/
def programResult (blank : Bool) (readBack data : List Byte) : Nat := if !blank then 8 else if readBack = data then 0 else 9

theorem programDone_some {k : Nat} {readBack : List Byte} {j : FlashJob} {s : State} (hj : (bankGet k s).prog = some j)
    (hg : garbledAt j.addr s = false) {blank : Bool} (hb : ((memBytes j.addr 32 s).all fun b => b == 0xFF) = blank) :
    let u := lineAfter j.addr blank readBack s
    programDone k readBack s = flashDone k j.who (programResult blank readBack j.data) true
      (flashInvalidate j.addr 32 (bankPut k { bankGet k u with prog := none } (bankSuspended k u) u)) := by
  unfold programDone
  rw [hj]
  dsimp only
  rw [hg, if_neg Bool.false_ne_true, if_neg Bool.false_ne_true, hb]
  rfl

theorem programDone_shows {k : Nat} {readBack : List Byte} (hr : readBack.length = 32) {j : FlashJob} {s : State}
    (hj : (bankGet k s).prog = some j) (hw : j.who < 64) (hg : garbledAt j.addr s = false) (hlo : 0x08000000 ≤ j.addr)
    (hhi : j.addr + 32 ≤ 0x0C000000) (h : s.canonical = true) :
    let t := programDone k readBack s
    let blank := memBytes j.addr 32 s = List.replicate 32 0xFF
    fget (fpPage j.who) FP_STAT.STATE t = 2 ∧ fis flcB (if k = 0 then FLC_NOTE.DONE0 else FLC_NOTE.DONE1) t = true ∧
      (∀ x, x < j.addr ∨ j.addr + 32 ≤ x → memGet x t = memGet x s) ∧
      (¬ blank → fget (fpPage j.who) FP_STAT.RESULT t = 8 ∧ t.mem = s.mem) ∧
      (blank → memBytes j.addr 32 t = readBack ∧
        fget (fpPage j.who) FP_STAT.RESULT t = if readBack = j.data then 0 else 9) := by
  intro t blank
  obtain ⟨bl, hbl⟩ : ∃ bl, ((memBytes j.addr 32 s).all fun b => b == 0xFF) = bl := ⟨_, rfl⟩
  let u := lineAfter j.addr bl readBack s
  obtain ⟨hwf, hout, hkept, hwritten⟩ := lineAfter_shows h hlo hhi hr bl
  have hbank := bankPut_only hwf k { bankGet k u with prog := none } (bankSuspended k u)
  have hres : programResult bl readBack j.data ≠ 7 ∧ programResult bl readBack j.data < 16 := by
    unfold programResult
    split_ifs <;> decide
  obtain ⟨hstate, hresult, hdone, hmem, hnoise, -⟩ := flashDone_shows hw k hres.1 hres.2 true
    (s := flashInvalidate j.addr 32 (bankPut k { bankGet k u with prog := none } (bankSuspended k u) u)) hbank.wf
  rw [show t = _ from programDone_some hj hg hbl]
  refine ⟨hstate, hdone, fun x hx => (memGet_of_mem hmem hnoise x).trans (hout x hx), fun hn => ?_, fun hb => ?_⟩
  · have hf : bl = false := Bool.eq_false_iff.2 fun ht => hn (blank_iff.1 (hbl.trans ht))
    exact ⟨hresult.trans (by rw [hf]; rfl), hmem.trans (congrArg (·.mem) (hkept hf))⟩
  · have ht : bl = true := hbl.symm.trans (blank_iff.2 hb)
    exact ⟨(memBytes_of_mem hmem hnoise _ _).trans (hwritten ht), hresult.trans (by rw [ht]; rfl)⟩

/-- A bank idle after an erase, and the range garbled if it did not come out blank. -/
def erasedBank (k a : Nat) (blank : Bool) (s : State) : State :=
  if blank then bankPut k {} false (eraseRange a 0x10000 s)
  else garble a 0x10000 (bankPut k {} false (eraseRange a 0x10000 s))

theorem eraseDone_some {k : Nat} {blank : Bool} {j : FlashJob} {s : State} (hj : (bankGet k s).erase = some j)
    (hb : bankState k s = 2) (hw : j.who < 64) :
    eraseDone k blank s = flashDone k j.who (if blank then 0 else 10) false (erasedBank k j.addr blank s) := by
  unfold eraseDone
  rw [hj]
  dsimp only
  rw [if_neg (by omega)]
  rfl

theorem eraseDone_shows {k : Nat} {blank : Bool} {j : FlashJob} {s : State} (hj : (bankGet k s).erase = some j)
    (hb : bankState k s = 2) (hw : j.who < 64) (hlo : 0x08000000 ≤ j.addr) (hhi : j.addr + 0x10000 ≤ 0x0C000000)
    (h : s.canonical = true) :
    let t := eraseDone k blank s
    fget (fpPage j.who) FP_STAT.STATE t = 2 ∧ fget (fpPage j.who) FP_STAT.RESULT t = (if blank then 0 else 10) ∧
      bankState k t = 0 ∧ (∀ x, j.addr ≤ x → x < j.addr + 0x10000 → memGet x t = 0xFF) ∧
      (∀ x, x < j.addr ∨ j.addr + 0x10000 ≤ x → memGet x t = memGet x s) := by
  obtain ⟨hreg, hmem⟩ := canonical_iff.1 h
  obtain ⟨-, hin, hout⟩ := memGet_eraseRange hmem hlo hhi
  have herase : Registers.wf (eraseRange j.addr 0x10000 s) = true := (Registers.wf_of_regs (Eq.refl s.regs)).trans hreg
  obtain ⟨hidle, -⟩ := bankPut_shows herase k {} false
  have hput := (bankPut_only herase k {} false).wf
  have hbank : Registers.wf (erasedBank k j.addr blank s) = true ∧ bankState k (erasedBank k j.addr blank s) = 0 ∧
      (erasedBank k j.addr blank s).mem = (eraseRange j.addr 0x10000 s).mem ∧
      (erasedBank k j.addr blank s).noise = (eraseRange j.addr 0x10000 s).noise := by
    cases blank
    · exact ⟨hput, hidle, rfl, rfl⟩
    · exact ⟨hput, hidle, rfl, rfl⟩
  obtain ⟨hwf, hzero, hm, hn⟩ := hbank
  obtain ⟨hstate, hresult, -, hmem', hnoise', hbanks⟩ := flashDone_shows hw k (res := if blank then 0 else 10)
    (by split <;> decide) (by split <;> decide) false hwf
  have hall (x : Nat) : memGet x (flashDone k j.who (if blank then 0 else 10) false (erasedBank k j.addr blank s)) =
      memGet x (eraseRange j.addr 0x10000 s) := memGet_of_mem (hmem'.trans hm) (hnoise'.trans hn) x
  rw [eraseDone_some hj hb hw]
  exact ⟨hstate, hresult, (hbanks k).trans hzero, fun x hx hx' => (hall x).trans (hin x hx hx'),
    fun x hx => (hall x).trans (hout x hx)⟩

/-! ### Suspension (R551, R552) -/

theorem bankCode_erase {b : FlashBank} {j : FlashJob} (hp : b.prog = none) (he : b.erase = some j) (suspended : Bool) :
    bankCode b suspended = if suspended then 3 else 2 := by
  unfold bankCode
  rw [hp, he]

theorem bankSuspend_shows {k : Nat} {s : State} (h : Registers.wf s = true) {j : FlashJob} (hp : (bankGet k s).prog = none)
    (he : (bankGet k s).erase = some j) :
    let t := bankSuspend k false s
    t.mem = s.mem ∧ ((bankGet k s).minRun = false → bankState k t = 3 ∧ (bankGet k t).byRead = false) ∧
      ((bankGet k s).minRun = true → bankState k t = 2 ∧ (bankGet k t).held = true) := by
  have hmem : (bankSuspend k false s).mem = s.mem := by
    unfold bankSuspend
    dsimp only
    split <;> rfl
  refine ⟨hmem, fun hm => ?_, fun hm => ?_⟩
  · have ht : bankSuspend k false s = bankPut k { bankGet k s with byRead := false } true s := if_neg (by simp [hm])
    obtain ⟨hstate, hget⟩ := bankPut_shows h k { bankGet k s with byRead := false } true
    rw [ht]
    exact ⟨hstate.trans (bankCode_erase hp he true), congrArg FlashBank.byRead hget⟩
  · let b : FlashBank :=
      { bankGet k s with held := true, byRead := false && ((bankGet k s).byRead || !(bankGet k s).held) }
    have ht : bankSuspend k false s = bankPut k b false s := if_pos hm
    obtain ⟨hstate, hget⟩ := bankPut_shows h k b false
    rw [ht]
    exact ⟨hstate.trans (bankCode_erase hp he false), congrArg FlashBank.held hget⟩

theorem bankResume_shows {k : Nat} {s : State} (h : Registers.wf s = true) {j : FlashJob} (hp : (bankGet k s).prog = none)
    (he : (bankGet k s).erase = some j) :
    let t := bankResume k s
    bankState k t = 2 ∧ (bankGet k t).minRun = true ∧ (bankGet k t).byRead = false ∧ t.mem = s.mem := by
  obtain ⟨hstate, hget⟩ := bankPut_shows h k { bankGet k s with byRead := false, minRun := true } false
  exact ⟨hstate.trans (bankCode_erase hp he false), congrArg (·.minRun) hget, congrArg (·.byRead) hget, rfl⟩

theorem minRunEnd_shows {k : Nat} {s : State} (h : Registers.wf s = true) {j : FlashJob} (hp : (bankGet k s).prog = none)
    (he : (bankGet k s).erase = some j) (hs : bankState k s = 2) (hm : (bankGet k s).minRun = true) :
    let t := minRunEnd k s
    bankState k t = (if (bankGet k s).held then 3 else 2) ∧ (bankGet k t).minRun = false := by
  have ht : minRunEnd k s = bankPut k { bankGet k s with minRun := false, held := false } (bankGet k s).held s :=
    if_neg (by simp [hs, hm])
  obtain ⟨hstate, hget⟩ := bankPut_shows h k { bankGet k s with minRun := false, held := false } (bankGet k s).held
  rw [ht]
  exact ⟨hstate.trans (bankCode_erase hp he _), congrArg (·.minRun) hget⟩

theorem flcSusp_key {key k : Nat} {susp resume : Bool} {s : State} (h : key ≠ 0x5355) :
    flcSusp key k susp resume s = s := if_pos h

theorem flcSusp_suspend (k : Nat) (s : State) :
    flcSusp 0x5355 k true false s = if bankState k s = 2 then bankSuspend k false s else flcErr FLC_ERR.CMD s := rfl

theorem flcSusp_resume (k : Nat) (s : State) :
    flcSusp 0x5355 k false true s = if bankState k s = 3 then bankResume k s else flcErr FLC_ERR.CMD s := rfl

/-! ### Read settings (R541–R544) -/

theorem flcWs_only {s : State} (h : Registers.wf s = true) :
    Only (page flcB [FLC_STAT.WS_LOW, FLC_NOTE.WS_LOW]) (fset flcB FLC_STAT.WS_EFF (wsEff s) s) (flcWs s) := by
  have h1 : Only (page flcB [FLC_STAT.WS_LOW, FLC_NOTE.WS_LOW]) (fset flcB FLC_STAT.WS_EFF (wsEff s) s)
      (fset flcB FLC_STAT.WS_EFF (wsEff s) s) := .refl (Registers.wf_fset h _ _ _)
  exact .ite (.ite h1 ((h1.fsetIn (by decide) 1).noteIn (by decide) _)) (h1.fsetIn (by decide) 0)

theorem wsMin_le (code clk : Nat) : wsMin code clk ≤ 5 := by
  have hall (l : List Nat) (hl : ∀ x ∈ l, x ≤ 5) : l.getD clk 5 ≤ 5 := by
    by_cases hc : clk < l.length
    · rw [List.getD_eq_getElem _ _ hc]
      exact hl _ (List.getElem_mem hc)
    · rw [List.getD_eq_default _ _ (by omega)]
  unfold wsMin
  exact hall _ (by split_ifs <;> decide)

theorem flcWs_shows {s : State} (h : Registers.wf s = true) :
    rd flcB (flcWs s) = rd flcB s ∧ fget flcB FLC_STAT.WS_EFF (flcWs s) = wsEff s := by
  have hws := flcWs_only h
  have hset : Only (page flcB [FLC_STAT.WS_EFF]) s (fset flcB FLC_STAT.WS_EFF (wsEff s) s) := .fsetIn (.refl h) (by decide) _
  have hlt : wsEff s < 16 := by
    unfold wsEff
    have h1 : fget flcB FLC_CFG.WS s < 16 := fget_lt _ _ _
    have h2 := wsMin_le (fget 0x400F0000 PWR_VSTAT.LOW s) (fget flcB FLC_CFG.CLK s)
    split <;> omega
  exact ⟨(hws.rdIn (off := 0) (by decide)).trans (hset.rdIn (off := 0) (by decide)),
    (hws.fieldIn (by decide)).trans (fget_fset_lt h _ hlt (by decide))⟩

theorem flcCfgWrite_shows {data : Word} {s : State} (h : Registers.wf s = true) (hr : bitsOf data 2 2 ≠ 3)
    (hc : bitsOf data 2 2 = fget flcB FLC_CFG.CLK s ∨ (bankState 0 s = 0 ∧ bankState 1 s = 0)) :
    let t := flcCfgWrite data s
    rd flcB t = data &&& 0xF1D#32 ∧ fget flcB FLC_STAT.WS_EFF t = (if data.getLsbD 0 then
      max (bitsOf data 8 4) (wsMin (fget 0x400F0000 PWR_VSTAT.LOW s) (bitsOf data 2 2)) else 8) := by
  let s1 : State := if bitsOf data 0 1 = fget flcB FLC_CFG.MODE s then s
    else { s with flash := { s.flash with last := none, branch := [] } }
  have h1 : s1.regs = s.regs := by
    show State.regs (if _ then _ else _) = _
    split <;> rfl
  have hs1 : Registers.wf s1 = true := (Registers.wf_of_regs h1).trans h
  let s2 := wr flcB (data &&& 0xF1D#32) s1
  have ht : flcCfgWrite data s = flcWs s2 := (if_neg hr).trans (if_neg (by omega))
  have hwr : Only [regAt flcB] s1 s2 := (Only.refl hs1).wr (List.mem_singleton.2 (Eq.refl _)) _
  obtain ⟨hrd, heff⟩ := flcWs_shows hwr.wf
  have hcfg : rd flcB s2 = data &&& 0xF1D#32 := rd_wr_self hs1 _ _
  have hlow : fget 0x400F0000 PWR_VSTAT.LOW s2 = fget 0x400F0000 PWR_VSTAT.LOW s :=
    (hwr.field (by decide)).trans (fget_of_regs h1 _ _)
  have hbits {lo w : Nat} (hm : ∀ i < w, (0xF1D#32).getLsbD (lo + i) = true) :
      bitsOf (rd flcB s2) lo w = bitsOf data lo w := by rw [hcfg, bitsOf_and hm]
  have hmode : fis flcB FLC_CFG.MODE s2 = data.getLsbD 0 := by
    show (bitsOf (rd flcB s2) 0 1 == 1) = _
    rw [hbits (by decide), bitsOf_one, bitOf]
  have hws : fget flcB FLC_CFG.WS s2 = bitsOf data 8 4 := hbits (lo := 8) (w := 4) (by decide)
  have hclk : fget flcB FLC_CFG.CLK s2 = bitsOf data 2 2 := hbits (lo := 2) (w := 2) (by decide)
  rw [ht]
  refine ⟨hrd.trans hcfg, heff.trans ?_⟩
  rw [wsEff, hmode, hws, hclk, hlow]

end Sys2Proof.Machine
end

section
/-!
THEOREMS. Flash port commands, their ends, suspension and the read settings (R541–R554).
-/

namespace Sys2Proof.Machine

open Reg

theorem flashCommand_shows (i : Init) (port : BitVec 6) (key : BitVec 16) (s : State)
    (hp : Admits i (fpPage port.toNat + 0x40) .store s) :
    let r := port.toNat
    let b := fpPage r
    let a := fget b FP_ADDR.ADDR s
    (key ≠ 0x464C ∨ fget b FP_STAT.STATE s = 1 →
      exec (.flashProgram i port key) s = .next (acknowledge (fset b FP_STAT.CMD_ERR 1 s)) ∧
      exec (.flashErase i port key) s = .next (acknowledge (fset b FP_STAT.CMD_ERR 1 s))) ∧
    (key = 0x464C → fget b FP_STAT.STATE s ≠ 1 → Registers.wf s = true →
      (fpCheck i r a 32 s ≠ 0 → fpCheck i r a 32 s ≠ 7 → ∃ t, exec (.flashProgram i port key) s = .next t ∧
        fget b FP_STAT.STATE t = 2 ∧ fget b FP_STAT.RESULT t = fpCheck i r a 32 s ∧
        fis b FP_STAT.STG_BAD t = false ∧ t.mem = s.mem ∧ t.flash = s.flash) ∧
      (fpCheck i r a 32 s = 0 → ∃ t, exec (.flashProgram i port key) s = .next t ∧
        fget b FP_STAT.STATE t = 1 ∧ bankState (bankOf a) t = 1 ∧ t.mem = s.mem ∧
        (bankGet (bankOf a) t).prog = some ⟨r, a, rdBytes (b + 0x20) 8 s⟩) ∧
      (fpCheck i r a 0x10000 s ≠ 0 → ∃ t, exec (.flashErase i port key) s = .next t ∧
        fget b FP_STAT.STATE t = 2 ∧ fget b FP_STAT.RESULT t = fpCheck i r a 0x10000 s ∧ t.mem = s.mem ∧
        t.flash = s.flash) ∧
      (fpCheck i r a 0x10000 s = 0 → ∃ t, exec (.flashErase i port key) s = .next t ∧
        fget b FP_STAT.STATE t = 1 ∧ bankState (bankOf a) t = 2 ∧ t.mem = s.mem ∧
        (bankGet (bankOf a) t).erase = some ⟨r, a, []⟩ ∧ (bankGet (bankOf a) t).minRun = true)) := by
  intro r b a
  have hprog : exec (.flashProgram i port key) s = .next (acknowledge (fpCmd i r key.toNat 1 s)) :=
    congrArg _ (doorStore_admits hp)
  have herase : exec (.flashErase i port key) s = .next (acknowledge (fpCmd i r key.toNat 2 s)) :=
    congrArg _ (doorStore_admits hp)
  refine ⟨fun h => ?_, fun hk hbusy h => ?_⟩
  · have hne : key.toNat ≠ 0x464C ∨ fget b FP_STAT.STATE s = 1 := h.imp_left fun hk hn => hk (BitVec.eq_of_toNat_eq hn)
    rw [hprog, herase, fpCmd_refused hne, fpCmd_refused hne]
    exact ⟨rfl, rfl⟩
  · subst hk
    obtain ⟨hrunProg, hrunErase⟩ := fpCmd_runs (i := i) hbusy
    replace hprog := hprog.trans (congrArg Host.Outcome.next (congrArg acknowledge hrunProg))
    replace herase := herase.trans (congrArg Host.Outcome.next (congrArg acknowledge hrunErase))
    refine ⟨fun hc hc7 => ⟨_, hprog, ?_⟩, fun hc => ⟨_, hprog, fpProgram_accepted h hc⟩, fun hc => ⟨_, herase, ?_⟩,
      fun hc => ⟨_, herase, fpErase_accepted h hc⟩⟩
    · obtain ⟨hstate, hresult, hbad⟩ := fpProgEnd_shows h r hc7 (fpCheck_lt i r a 32 s)
      have ht : fpProgram i r s = fpProgEnd r (fpCheck i r a 32 s) s := if_neg hc
      rw [ht]
      refine ⟨hstate, hresult, hbad, ?_, ?_⟩ <;> rw [fpProgEnd_eq hc7] <;> rfl
    · obtain ⟨hstate, hresult⟩ := fpEnd_shows h r (fpCheck_lt i r a 0x10000 s)
      have ht : fpErase i r s = fpEnd r (fpCheck i r a 0x10000 s) s := if_neg hc
      rw [ht]
      exact ⟨hstate, hresult, rfl, rfl⟩

theorem fpCheck_shows (i : Init) (r a n : Nat) (s : State) :
    (a % n ≠ 0 ∨ a < 0x08000000 ∨ 0x0C000000 ≤ a → fpCheck i r a n s = 2) ∧
    (a % n = 0 → 0x0AF00000 ≤ a → a < 0x0B000000 → fpCheck i r a n s = 3) ∧
    (a % n = 0 → 0x0B000000 ≤ a → a < 0x0C000000 → i ≠ .steward → fpCheck i r a n s = 3) ∧
    (a % n = 0 → 0x08400000 ≤ a → a < 0x0AF00000 → windowsOf r s = [] → fpCheck i r a n s = 4) ∧
    (a % n = 0 → 0x0B000000 ≤ a → a < 0x0C000000 → i = .steward → pdOn 27 s = false → fpCheck i r a n s = 5) ∧
    (a % n = 0 → 0x0B000000 ≤ a → a < 0x0C000000 → i = .steward → pdOn 27 s = true → bankState 1 s = 2 →
      fpCheck i r a n s = 1) := by
  refine ⟨fun h => if_pos h, fun ha h1 h2 => ?_, fun ha h1 h2 hi => ?_, fun ha h1 h2 hw => ?_, fun ha h1 h2 hi hp => ?_,
    fun ha h1 h2 hi hp hb => ?_⟩
  all_goals obtain ⟨hreserved, hwindow, hdown, hbusy⟩ :=
    fpCheck_ranges (i := i) (r := r) (s := s) ha (by omega) (by omega)
  · exact hreserved (.inl ⟨h1, h2⟩)
  · exact hreserved (.inr ⟨h1, hi⟩)
  · exact hwindow h1 h2 hw
  · exact hdown h1 hi hp
  · exact hbusy h1 hi hp hb

theorem flashSuspension_shows (i : Init) (key : BitVec 16) (bank : BitVec 1) (s : State)
    (hp : Admits i 0x400D0020 .store s) :
    let k := bank.toNat
    (key ≠ 0x5355 → exec (.flashSuspend i key bank) s = .next (acknowledge s) ∧
      exec (.flashResume i key bank) s = .next (acknowledge s)) ∧
    (key = 0x5355 → bankState k s ≠ 2 →
      exec (.flashSuspend i key bank) s = .next (acknowledge (flcErr FLC_ERR.CMD s))) ∧
    (key = 0x5355 → bankState k s ≠ 3 →
      exec (.flashResume i key bank) s = .next (acknowledge (flcErr FLC_ERR.CMD s))) ∧
    (key = 0x5355 → Registers.wf s = true → ∀ j, (bankGet k s).prog = none → (bankGet k s).erase = some j →
      (bankState k s = 2 → (bankGet k s).minRun = false → ∃ t, exec (.flashSuspend i key bank) s = .next t ∧
        bankState k t = 3 ∧ (bankGet k t).byRead = false ∧ t.mem = s.mem) ∧
      (bankState k s = 2 → (bankGet k s).minRun = true → ∃ t, exec (.flashSuspend i key bank) s = .next t ∧
        bankState k t = 2 ∧ (bankGet k t).held = true ∧ t.mem = s.mem) ∧
      (bankState k s = 3 → ∃ t, exec (.flashResume i key bank) s = .next t ∧
        bankState k t = 2 ∧ (bankGet k t).minRun = true ∧ t.mem = s.mem)) := by
  intro k
  have hsusp : exec (.flashSuspend i key bank) s = .next (acknowledge (flcSusp key.toNat k true false s)) :=
    congrArg _ (doorStore_admits hp)
  have hresume : exec (.flashResume i key bank) s = .next (acknowledge (flcSusp key.toNat k false true s)) :=
    congrArg _ (doorStore_admits hp)
  refine ⟨fun hk => ?_, fun hk hs => ?_, fun hk hs => ?_, fun hk h j hpn he => ?_⟩
  · have hne : key.toNat ≠ 0x5355 := fun hn => hk (BitVec.eq_of_toNat_eq hn)
    rw [hsusp, hresume, flcSusp_key hne, flcSusp_key hne]
    exact ⟨rfl, rfl⟩
  · subst hk
    exact hsusp.trans (congrArg Host.Outcome.next (congrArg acknowledge ((flcSusp_suspend k s).trans (if_neg hs))))
  · subst hk
    exact hresume.trans (congrArg Host.Outcome.next (congrArg acknowledge ((flcSusp_resume k s).trans (if_neg hs))))
  · subst hk
    obtain ⟨hmem, hfree, hheld⟩ := bankSuspend_shows h hpn he
    refine ⟨fun hs hm => ?_, fun hs hm => ?_, fun hs => ?_⟩
    · obtain ⟨hstate, hread⟩ := hfree hm
      exact ⟨_, hsusp.trans (congrArg Host.Outcome.next (congrArg acknowledge ((flcSusp_suspend k s).trans (if_pos hs)))),
        hstate, hread, hmem⟩
    · obtain ⟨hstate, hwaits⟩ := hheld hm
      exact ⟨_, hsusp.trans (congrArg Host.Outcome.next (congrArg acknowledge ((flcSusp_suspend k s).trans (if_pos hs)))),
        hstate, hwaits, hmem⟩
    · obtain ⟨hstate, hrun, -, hsame⟩ := bankResume_shows h hpn he
      exact ⟨_, hresume.trans (congrArg Host.Outcome.next (congrArg acknowledge ((flcSusp_resume k s).trans (if_pos hs)))),
        hstate, hrun, hsame⟩

theorem bankTimers_shows (bank : BitVec 1) (s : State) :
    let k := bank.toNat
    (bankState k s ≠ 3 ∨ (bankGet k s).byRead = false → exec (.flashAutoResume bank) s = .next s) ∧
    (bankState k s ≠ 2 ∨ (bankGet k s).minRun = false → exec (.minimumRunEnd bank) s = .next s) ∧
    (∀ j, (bankGet k s).prog = none → (bankGet k s).erase = some j → Registers.wf s = true →
      (bankState k s = 3 → (bankGet k s).byRead = true → ∃ t, exec (.flashAutoResume bank) s = .next t ∧
        bankState k t = 2 ∧ (bankGet k t).byRead = false) ∧
      (bankState k s = 2 → (bankGet k s).minRun = true → ∃ t, exec (.minimumRunEnd bank) s = .next t ∧
        bankState k t = (if (bankGet k s).held then 3 else 2) ∧ (bankGet k t).minRun = false)) := by
  intro k
  refine ⟨fun h => congrArg Host.Outcome.next (if_neg ?_), fun h => congrArg Host.Outcome.next (if_pos h), fun j hpn he h => ⟨fun hs hr => ?_, fun hs hm => ?_⟩⟩
  · rintro ⟨hs, hr⟩
    rcases h with h | h
    · exact h hs
    · exact Bool.false_ne_true (h.symm.trans hr)
  · obtain ⟨hstate, -, hread, -⟩ := bankResume_shows h hpn he
    exact ⟨_, congrArg Host.Outcome.next (if_pos ⟨hs, hr⟩), hstate, hread⟩
  · exact ⟨_, rfl, minRunEnd_shows h hpn he hs hm⟩

theorem flcCfg_shows (i : Init) (data : Word) (s : State) (hp : Admits i 0x400D0000 .store s) :
    (bitsOf data 2 2 = 3 → exec (.flcCfgWrite i data) s = .next (acknowledge (flcErr FLC_ERR.RANGE s))) ∧
    (bitsOf data 2 2 ≠ 3 → bitsOf data 2 2 ≠ fget flcB FLC_CFG.CLK s → bankState 0 s ≠ 0 ∨ bankState 1 s ≠ 0 →
      exec (.flcCfgWrite i data) s = .next (acknowledge (flcErr FLC_ERR.CMD s))) ∧
    (bitsOf data 2 2 ≠ 3 → bitsOf data 2 2 = fget flcB FLC_CFG.CLK s ∨ (bankState 0 s = 0 ∧ bankState 1 s = 0) →
      Registers.wf s = true → ∃ t, exec (.flcCfgWrite i data) s = .next t ∧ rd flcB t = data &&& 0xF1D#32 ∧
        fget flcB FLC_STAT.WS_EFF t = (if data.getLsbD 0 then
          max (bitsOf data 8 4) (wsMin (fget 0x400F0000 PWR_VSTAT.LOW s) (bitsOf data 2 2)) else 8)) := by
  have hrun : exec (.flcCfgWrite i data) s = .next (acknowledge (flcCfgWrite data s)) := congrArg _ (doorStore_admits hp)
  refine ⟨fun hr => ?_, fun hr hc hb => ?_, fun hr hc h => ⟨_, hrun, flcCfgWrite_shows h hr hc⟩⟩
  · exact hrun.trans (congrArg Host.Outcome.next (congrArg acknowledge (if_pos hr)))
  · exact hrun.trans (congrArg Host.Outcome.next (congrArg acknowledge ((if_neg hr).trans (if_pos ⟨hc, hb⟩))))

/-- Settles O41. -/
theorem flash : Obligations.Flash := by
  unfold Obligations.Flash
  refine ⟨⟨flashCommand_shows, fun i r a n s _ => fpCheck_shows i r a n s, fun bank readBack s => ⟨fun hn => ?_, ?_⟩,
    fun bank blank s => ⟨fun hn => ?_, ?_⟩⟩, flashSuspension_shows, bankTimers_shows, flcCfg_shows, fun code clk _ hclk => ?_⟩
  · refine congrArg Host.Outcome.next ?_
    unfold programDone
    rw [hn]
  · intro j hj hw hg hlo hhi h t blank
    obtain ⟨hstate, hdone, hout, hnot, hyes⟩ := programDone_shows (leBytes_length 32 _) hj hw hg hlo hhi h
    exact ⟨rfl, hstate, hdone, hout, hnot, hyes⟩
  · refine congrArg Host.Outcome.next ?_
    unfold eraseDone
    split
    · rfl
    · next j hj =>
      rcases hn with hn | hn
      · rw [hn] at hj
        cases hj
      · exact if_pos (.inl hn)
  · intro j hj hb hw hlo hhi h t
    exact ⟨rfl, eraseDone_shows hj hb hw hlo hhi h⟩
  · have hcases : clk = 0 ∨ clk = 1 ∨ clk = 2 := by omega
    unfold wsMin
    rcases hcases with rfl | rfl | rfl <;> split_ifs <;> rfl

end Sys2Proof.Machine

namespace Sys2Proof.Tests
open Sys2Proof.Machine

set_option maxRecDepth 8000

/-- Bank 1 erases the block at 0x0B000000 for the port of room 0. -/
def erasingBank : State :=
  bankPut 1 { erase := some ⟨0, 0x0B000000, []⟩ } false house

/-- The block's erase is suspended at once. -/
theorem test_hyps_flash : ∃ t, exec (.flashSuspend .steward 0x5355 1) erasingBank = .next t ∧ bankState 1 t = 3 := by
  obtain ⟨-, -, -, hrun⟩ := flashSuspension_shows .steward 0x5355 1 erasingBank (by decide)
  obtain ⟨hsusp, -⟩ := hrun rfl (by decide) ⟨0, 0x0B000000, []⟩ (by decide) (by decide)
  obtain ⟨t, ht, hstate, -⟩ := hsusp (by decide) (by decide)
  exact ⟨t, ht, hstate⟩

end Sys2Proof.Tests
end

section
/-!
SUPPORT. Sessions of the update block: the writes of UPD_CMD, the header's checks, and the ends of a session
(R562, R565, R566, R572, R577).
-/

namespace Sys2Proof.Machine

open Reg

/-! ### Writes of UPD_CMD -/

theorem updCmd_wrong_key {key : BitVec 16} (hk : key ≠ 0x5550) (op room : Nat) (s : State) :
    updCmd key.toNat op room s = updErr UPD_ERR.CMD s := if_pos fun h => hk (BitVec.eq_of_toNat_eq h)

/-- The answer to a write of UPD_CMD that the door admits. -/
theorem updWrite_admits {i : Init} {s : State} (hp : Admits i updB .store s) {key op room : Nat} {u : State}
    (hu : updCmd key op room s = u) : Host.Outcome.next (doorStore i updB (updCmd key op room) s) =
      (.next (acknowledge u) : Host.Outcome State Fault Refusal) := by
  rw [doorStore_admits hp, hu]

theorem updHeader_busy {source : Nat} {s : State} (h : (updState s ≠ 0 ∧ updState s ≠ 5) ∨ fis keyB PK_STAT.BUSY s = true) :
    updHeader source s = updErr UPD_ERR.BUSY s := if_pos (h.imp_left fun ⟨h0, h5⟩ h => h.elim h0 h5)

/-- The fields of the update block that a HEADER takes. -/
abbrev headerFields : List Fld := [UPD_STAT.ROOM, UPD_STAT.KIND, UPD_STAT.RESULT, UPD_STAT.STATE]

/-- The checks of a header begin. -/
def headerBegun (source : Nat) (s : State) : State :=
  updMove 6 (fset updB UPD_STAT.RESULT 0 (fset updB UPD_STAT.KIND 0 (fset updB UPD_STAT.ROOM 0
    { s with
      upd := { s.upd with source := source }
      keys := { s.keys with pk := .header } })))

theorem updHeader_begins {source : Nat} {s : State} (hi : updState s = 0 ∨ updState s = 5)
    (hb : fis keyB PK_STAT.BUSY s = false) : updHeader source s = fset keyB PK_STAT.BUSY 1 (headerBegun source s) :=
  if_neg fun h => h.elim (fun h => h hi) fun h => Bool.false_ne_true (hb.symm.trans h)

theorem headerBegun_only {s : State} (h : Registers.wf s = true) (source : Nat) :
    Only (page updB headerFields) s (headerBegun source s) := by
  have hput : Only (page updB headerFields) s
      { s with upd := { s.upd with source := source }, keys := { s.keys with pk := .header } } :=
    (Only.refl h).of_regs (Eq.refl s.regs)
  exact (((hput.fsetIn (by decide) _).fsetIn (by decide) _).fsetIn (by decide) _).fsetIn (by decide) _

theorem headerBegun_state {s : State} (h : Registers.wf s = true) (source : Nat) : updState (headerBegun source s) = 6 := by
  have hput : Registers.wf
      { s with upd := { s.upd with source := source }, keys := { s.keys with pk := .header } } = true :=
    (Registers.wf_of_regs (Eq.refl s.regs)).trans h
  exact fget_fset_lt (Registers.wf_fset (Registers.wf_fset (Registers.wf_fset hput _ _ _) _ _ _) _ _ _) _ (by decide)
    (by decide)

theorem updHeader_shows {source : Nat} {s : State} (h : Registers.wf s = true) (hi : updState s = 0 ∨ updState s = 5)
    (hb : fis keyB PK_STAT.BUSY s = false) : updState (updHeader source s) = 6 ∧
      fis keyB PK_STAT.BUSY (updHeader source s) = true ∧ (updHeader source s).upd.source = source ∧
      (updHeader source s).mem = s.mem := by
  have hbegun := (headerBegun_only h source).wf
  rw [updHeader_begins hi hb]
  refine ⟨?_, fis_fset_one hbegun _ (by decide), rfl, rfl⟩
  exact (((Only.refl hbegun).fset (l := [(keyB, PK_STAT.BUSY)]) (by decide) 1).field (by decide)).trans
    (headerBegun_state h source)

/-! ### A session's end (R566) -/

/-- The fields that a session's end takes. -/
abbrev sessionFields : List Fld := [UPD_STAT.LOCK, UPD_STAT.RESULT, UPD_STAT.STATE]

/-- A session ended, before what waited for it is carried out. -/
def sessionEnded (res : Nat) (s : State) : State :=
  updMove 5 (fset updB UPD_STAT.RESULT res (fset updB UPD_STAT.LOCK 0
    (updPut { s.upd with got := [], owner := 0 } s)))

theorem updEnd_none {s : State} (h : s.upd.waits = none) (res : Nat) : updEnd res s = sessionEnded res s := by
  show (match s.upd.waits with | some w => _ | none => sessionEnded res s) = _
  rw [h]

theorem sessionEnded_only {s : State} (h : Registers.wf s = true) (res : Nat) :
    Only (page updB sessionFields) s (sessionEnded res s) := by
  have hput : Only (page updB sessionFields) s (updPut { s.upd with got := [], owner := 0 } s) :=
    (Only.refl h).of_regs (Eq.refl s.regs)
  exact ((hput.fsetIn (by decide) _).fsetIn (by decide) _).fsetIn (by decide) _

theorem sessionEnded_shows {s : State} (h : Registers.wf s = true) {res : Nat} (hres : res < 16) :
    updState (sessionEnded res s) = 5 ∧ fget updB UPD_STAT.RESULT (sessionEnded res s) = res ∧
      fis updB UPD_STAT.LOCK (sessionEnded res s) = false := by
  have hput : Registers.wf (updPut { s.upd with got := [], owner := 0 } s) = true :=
    (Registers.wf_of_regs (Eq.refl s.regs)).trans h
  have hlock := Registers.wf_fset hput updB UPD_STAT.LOCK 0
  have hresult := Registers.wf_fset hlock updB UPD_STAT.RESULT res
  refine ⟨fget_fset_lt hresult _ (by decide) (by decide),
    (fget_fset_of_apart hresult _ _ (by decide)).trans (fget_fset_lt hlock _ hres (by decide)), ?_⟩
  exact congrArg (· == 1) ((fget_fset_of_apart hresult _ _ (by decide)).trans
    ((fget_fset_of_apart hlock _ _ (by decide)).trans (fget_fset_lt hput _ (by decide) (by decide))))

/-! ### The checks of a header (R562) -/

theorem headerCheck_le (h : List Byte) (kinds : List Nat) (s : State) : headerCheck h kinds s ≤ 8 := by
  unfold headerCheck
  split_ifs <;> decide

theorem updJudge_lt (h : List Byte) (s : State) : updJudge h s < 16 := by
  have hle := headerCheck_le h (if s.upd.source = 0 then [1, 2, 3] else [1, 3, 4]) s
  unfold updJudge
  generalize headerCheck h _ s = r at hle ⊢
  dsimp only
  split_ifs <;> omega

/-- A header passes only when its kind is allowed and its signer and signature are good. -/
theorem headerCheck_zero {h : List Byte} {kinds : List Nat} {s : State} (h0 : headerCheck h kinds s = 0) :
    kinds.contains (imgKind h) = true ∧ signerOk h s = true ∧ signatureOk h = true := by
  unfold headerCheck at h0
  split_ifs at h0
  simp_all

theorem headerCheck_layout {h : List Byte} {kinds : List Nat} {s : State} (hh : headerOk h = true)
    (hl : layoutOk h s = false) : headerCheck h kinds s = 2 := by
  simp [headerCheck, hh, hl]

theorem headerCheck_target {h : List Byte} {kinds : List Nat} {s : State} (hh : headerOk h = true)
    (hl : layoutOk h s = true) (ht : leAt h 8 2 ≠ 0x9256) : headerCheck h kinds s = 3 := by
  simp [headerCheck, hh, hl, ht]

/-! ### The session opens (R565) -/

/-- The fields that the opening of a session takes. -/
abbrev openFields : List Fld := [UPD_STAT.LOCK, UPD_STAT.KIND, UPD_STAT.ROOM, UPD_LOADED.LOADED, UPD_STAT.STATE]

/-- The header stands in staging under LOCK. -/
def headerStaged (h : List Byte) (s : State) : State := memWrite (stgBase s) h (fset updB UPD_STAT.LOCK 1 s)

/-- The session's kind and room are told. -/
def headerTold (h : List Byte) (s : State) : State :=
  fset updB UPD_STAT.ROOM (imgRoom h) (fset updB UPD_STAT.KIND (imgKind h) (headerStaged h s))

/-- The session has its owner and no octets. -/
def headerOwned (h : List Byte) (s : State) : State :=
  updPut { (headerTold h s).upd with got := [], owner := (headerTold h s).upd.source } (headerTold h s)

theorem updOpen_stages (h : List Byte) (s : State) :
    updOpen h s = updMove 1 (fset updB UPD_LOADED.LOADED 0 (headerOwned h s)) := rfl

theorem headerStaged_only {s : State} (hw : Registers.wf s = true) (h : List Byte) :
    Only (page updB openFields) s (headerStaged h s) :=
  ((Only.refl hw).fsetIn (by decide) _).memWrite _ _

theorem headerOwned_only {s : State} (hw : Registers.wf s = true) (h : List Byte) :
    Only (page updB openFields) s (headerOwned h s) :=
  (((headerStaged_only hw h).fsetIn (by decide) _).fsetIn (by decide) _).of_regs (Eq.refl (headerTold h s).regs)

theorem headerStaged_lock {s : State} (hw : Registers.wf s = true) (h : List Byte) :
    fis updB UPD_STAT.LOCK (headerStaged h s) = true :=
  (congrArg (· == 1) (fget_of_regs (memWrite_same (·.regs) (fun _ _ => rfl) _ _ _) _ _)).trans
    (fis_fset_one hw _ (by decide))

theorem updOpen_shows {s : State} (hc : s.canonical = true) (h : List Byte) :
    Only (page updB openFields) s (updOpen h s) ∧ updState (updOpen h s) = 1 ∧ fis updB UPD_STAT.LOCK (updOpen h s) = true ∧
      memBytes (stgBase s) h.length (updOpen h s) = h ∧ fget updB UPD_LOADED.LOADED (updOpen h s) = 0 := by
  obtain ⟨hw, hm⟩ := canonical_iff.1 hc
  have howned := headerOwned_only hw h
  have hloaded := howned.fsetIn (f := UPD_LOADED.LOADED) (by decide) 0
  rw [updOpen_stages]
  refine ⟨hloaded.fsetIn (by decide) 1, fget_fset_lt hloaded.wf _ (by decide) (by decide), ?_, ?_, ?_⟩
  · have hstaged := (headerStaged_only hw h).wf
    refine (congrArg (· == 1) ?_).trans (headerStaged_lock hw h)
    exact (fget_fset_of_apart hloaded.wf _ _ (by decide)).trans ((fget_fset_of_apart howned.wf _ _ (by decide)).trans
      ((fget_of_regs (Eq.refl (headerTold h s).regs) _ _).trans ((fget_fset_of_apart (Registers.wf_fset hstaged _ _ _) _ _
        (by decide)).trans (fget_fset_of_apart hstaged _ _ (by decide)))))
  · exact memBytes_memWrite_self (s := fset updB UPD_STAT.LOCK 1 s) hm (stgBase s) h
  · exact (fget_fset_of_apart hloaded.wf _ _ (by decide)).trans (fget_fset_lt howned.wf _ (by decide) (by decide))

/-! ### The header checks finish -/

/-- The processor of public keys is free again. -/
def headerFreed (s : State) : State := fset keyB PK_STAT.BUSY 0 { s with keys := { s.keys with pk := .idle } }

theorem headerFreed_only {s : State} (h : Registers.wf s = true) : Only (page keyB [PK_STAT.BUSY]) s (headerFreed s) :=
  Only.fsetIn (t := { s with keys := { s.keys with pk := .idle } }) ((Only.refl h).of_regs (Eq.refl s.regs)) (by decide) 0

theorem headerFreed_shows {s : State} (h : Registers.wf s = true) : fis keyB PK_STAT.BUSY (headerFreed s) = false ∧
    stgBase (headerFreed s) = stgBase s :=
  ⟨fis_fset_zero ((Registers.wf_of_regs (Eq.refl s.regs)).trans h) _ (by decide),
    congrArg (· * 0x1000) ((headerFreed_only h).field (by decide))⟩

theorem updHeaderChecked_idle {s : State} (h : updState s ≠ 6) : updHeaderChecked s = s := if_pos h

theorem updHeaderChecked_service {s : State} (h : updState s = 6) (hsrc : s.upd.source = 0)
    (hwaits : s.upd.waits = none) : updHeaderChecked s =
      if updJudge (updHdr s) s = 0 then updOpen (updHdr s) (headerFreed s)
      else sessionEnded (updJudge (updHdr s) s) (headerFreed s) := by
  have hend := updEnd_none (s := headerFreed s) hwaits (updJudge (updHdr s) s)
  rw [← hend]
  refine (if_neg (not_not_intro h)).trans ?_
  show (match recSource s.upd.source with | some src => _ | none => _) = _
  rw [hsrc]
  rfl

theorem updHeaderChecked_shows {s : State} (h : updState s = 6) (hsrc : s.upd.source = 0) (hc : s.canonical = true)
    (hwaits : s.upd.waits = none) :
    let t := updHeaderChecked s
    fis keyB PK_STAT.BUSY t = false ∧
      (updJudge (updHdr s) s = 0 → updState t = 1 ∧ fis updB UPD_STAT.LOCK t = true ∧
        memBytes (stgBase s) 256 t = updHdr s ∧ fget updB UPD_LOADED.LOADED t = 0) ∧
      (updJudge (updHdr s) s ≠ 0 → updState t = 5 ∧ fis updB UPD_STAT.LOCK t = false ∧
        fget updB UPD_STAT.RESULT t = updJudge (updHdr s) s ∧ t.mem = s.mem) := by
  intro t
  obtain ⟨hw, hm⟩ := canonical_iff.1 hc
  obtain ⟨hbusy, hbase⟩ := headerFreed_shows hw
  have hfreed := (headerFreed_only hw).wf
  have ht : t = _ := updHeaderChecked_service h hsrc hwaits
  by_cases hres : updJudge (updHdr s) s = 0
  · obtain ⟨honly, hstate, hlock, hmem, hloaded⟩ := updOpen_shows (canonical_iff.2 ⟨hfreed, hm⟩) (updHdr s)
    rw [if_pos hres] at ht
    rw [hbase, show (updHdr s).length = 256 from rdBytes_length _ 64 s] at hmem
    rw [ht]
    exact ⟨(honly.flag (by decide)).trans hbusy, fun _ => ⟨hstate, hlock, hmem, hloaded⟩, fun hn => absurd hres hn⟩
  · obtain ⟨hstate, hresult, hlock⟩ := sessionEnded_shows hfreed (updJudge_lt (updHdr s) s)
    rw [if_neg hres] at ht
    rw [ht]
    exact ⟨((sessionEnded_only hfreed _).flag (by decide)).trans hbusy, fun h0 => absurd h0 hres,
      fun _ => ⟨hstate, hlock, hresult, rfl⟩⟩

/-! ### LOAD, FINISH and ABORT -/

theorem updAbort_refused {s : State} (h1 : updState s ≠ 1) (h2 : updState s ≠ 2) : updAbort s = updErr UPD_ERR.CMD s :=
  if_neg fun h => h.elim h1 h2

theorem updAbort_ends {s : State} (h : updState s = 1 ∨ updState s = 2) : updAbort s = updEnd 13 s := if_pos h

theorem updLoad_runs {s : State} (h : updState s = 1) :
    (fget updB UPD_LEN.LEN s = 0 → updLoad s = updErr UPD_ERR.RANGE s) ∧
    (fget updB UPD_LEN.LEN s ≠ 0 → imgLength (stgHeader s) < fget updB UPD_LOADED.LOADED s + fget updB UPD_LEN.LEN s →
      updLoad s = updEnd 9 s) ∧
    (∀ l t, fget updB UPD_LEN.LEN s ≠ 0 →
      fget updB UPD_LOADED.LOADED s + fget updB UPD_LEN.LEN s ≤ imgLength (stgHeader s) →
      loadRead (fget updB UPD_SRC.SRC s * 4) ((fget updB UPD_LEN.LEN s + 63) / 64) (fget updB UPD_LEN.LEN s) s = (some l, t) →
      updLoad s = drawFree (stgAppend l t)) := by
  have hrun {u : State} (hu : _ = u) : updLoad s = u := (if_neg (not_not_intro h)).trans hu
  refine ⟨fun h0 => hrun (if_pos h0), fun h0 hl => hrun ((if_neg h0).trans (if_pos hl)), fun l t h0 hl hr =>
    hrun ((if_neg h0).trans ((if_neg (Nat.not_lt.2 hl)).trans ?_))⟩
  rw [hr]

theorem updFinish_runs {s : State} (h : updState s = 1) : updFinish s =
    if fget updB UPD_LOADED.LOADED s < imgLength (stgHeader s) then updEnd 9 s
    else if sha256 s.upd.got = imgHash (stgHeader s) then updMove 2 s else updEnd 10 s := by
  refine (if_neg (not_not_intro h)).trans ?_
  unfold finishResult
  split_ifs <;> simp_all

/-- Settles O42. -/
theorem updateSession : Obligations.UpdateSession := by
  unfold Obligations.UpdateSession
  refine ⟨fun i key room s hp hk c hc => ?_, fun i s hp => ?_, fun s hn => congrArg Host.Outcome.next (updHeaderChecked_idle hn),
    fun s h hsrc hcan hwaits => ⟨_, rfl, updHeaderChecked_shows h hsrc hcan hwaits⟩, fun h s => ⟨fun hh => ?_,
      headerCheck_layout, headerCheck_target, headerCheck_le h _ s, fun hbad h0 => ?_⟩⟩
  · have hcmd (op r : Nat) := updWrite_admits hp (updCmd_wrong_key hk op r s)
    simp only [List.mem_cons, List.not_mem_nil, or_false] at hc
    rcases hc with rfl | rfl | rfl | rfl | rfl | rfl | rfl | rfl
    · exact hcmd 1 0
    · exact hcmd 2 0
    · exact hcmd 3 0
    · exact hcmd 4 0
    · exact hcmd 5 0
    · exact hcmd 6 room.toNat
    · exact hcmd 7 room.toNat
    · exact hcmd 8 0
  · intro st bad
    have hcmd {op : Nat} {u : State} (hu : updCmd 0x5550 op 0 s = u) := updWrite_admits hp hu
    exact ⟨fun h => hcmd (op := 1) (updHeader_busy h), fun hi hb hw => ⟨_, hcmd (op := 1) rfl, updHeader_shows hw hi hb⟩,
      fun h => ⟨hcmd (op := 2) (if_pos h), hcmd (op := 3) (if_pos h)⟩, fun h => hcmd (op := 4) (if_pos h),
      fun h1 h2 => hcmd (op := 5) (updAbort_refused h1 h2), fun h => hcmd (op := 5) (updAbort_ends h),
      fun h => hcmd (op := 3) (updFinish_runs h), fun h h0 => hcmd (op := 2) ((updLoad_runs h).1 h0),
      fun h h0 hl => hcmd (op := 2) ((updLoad_runs h).2.1 h0 hl),
      fun l t h h0 hl hr => hcmd (op := 2) ((updLoad_runs h).2.2 l t h0 hl hr)⟩
  · exact if_pos (congrArg (!·) hh)
  · obtain ⟨hkind, hsigner, hsig⟩ := headerCheck_zero h0
    rcases hbad with hbad | hbad | hbad
    · exact Bool.false_ne_true (hbad.symm.trans hsig)
    · exact Bool.false_ne_true (hbad.symm.trans hsigner)
    · rw [hbad] at hkind
      exact absurd hkind (by decide)

end Sys2Proof.Machine

namespace Sys2Proof.Tests
open Sys2Proof.Machine

set_option maxRecDepth 8000

/-- The Steward asks for the checks of a header. -/
theorem test_hyps_updateSession : ∃ t, exec (.updHeader .steward 0x5550) house = .next t ∧ updState t = 6 := by
  obtain ⟨-, hcmd, -⟩ := updateSession
  obtain ⟨-, hheader, -⟩ := hcmd .steward house (by decide)
  obtain ⟨t, ht, hstate, -⟩ := hheader (by decide) (by decide) (by decide)
  exact ⟨t, ht, hstate⟩

end Sys2Proof.Tests
end

section
/-!
SUPPORT. Activation (R564–R571): the restart of the house when the header in staging is no longer that of a house image.
The erases of its write are then counted beyond the counters of the flash's 1,024 blocks, in the update block.
-/

namespace Sys2Proof.Machine

open Reg

/-! ### Registers above a range that is written -/

theorem rd_wrList_above {s : State} (h : Registers.wf s = true) (ws : List Word) {a b : Nat}
    (hb : a + 4 * ws.length ≤ b) : rd b (wrList a ws s) = rd b s := by
  induction ws generalizing a s with
  | nil => rfl
  | cons w r ih =>
    rw [List.length_cons] at hb
    exact (ih (Registers.wf_wr h a w) (by omega)).trans (rd_wr_ne h _ (by omega))

theorem wordsOfBytes_length_le (l : List Byte) : (wordsOfBytes l).length ≤ l.length := by
  induction l using wordsOfBytes.induct with
  | case1 => exact Nat.le_refl 0
  | case2 a b c d r ih =>
    simp only [wordsOfBytes, List.length_cons]
    omega
  | case3 l hnil hcons =>
    rw [wordsOfBytes.eq_3 l hnil hcons, List.length_singleton]
    exact List.length_pos_iff.2 hnil

theorem shaBlocks_length_le (l : List (List Byte)) (h : List Nat) : (l.foldl shaBlock h).length ≤ h.length := by
  induction l generalizing h with
  | nil => exact Nat.le_refl _
  | cons b r ih =>
    refine (ih (shaBlock h b)).trans ?_
    rw [shaBlock, List.length_zipWith]
    exact Nat.min_le_left _ _

theorem sha256_length_le (m : List Byte) : (sha256 m).length ≤ 32 := by
  have hbytes (l : List Nat) : (l.flatMap (beBytes 4)).length = 4 * l.length := by
    induction l with
    | nil => rfl
    | cons x r ih =>
      rw [List.flatMap_cons, List.length_append, ih, List.length_cons, beBytes, List.length_reverse, leBytes_length]
      omega
  have := shaBlocks_length_le (pieces 64 ((m ++ [0x80] ++ List.replicate ((119 - m.length % 64) % 64) 0 ++
    beBytes 8 (8 * m.length)).length / 64) (m ++ [0x80] ++ List.replicate ((119 - m.length % 64) % 64) 0 ++
    beBytes 8 (8 * m.length))) shaInit
  rw [sha256, hbytes]
  exact Nat.mul_le_mul_left 4 (this.trans (by decide : shaInit.length ≤ 8))

/-- Room 0's measurements stand below every register from 0x400C0000 on. -/
theorem rd_measFrom_above {s : State} (h : Registers.wf s = true) (l : List Byte) {b : Nat} (hb : 0x400C0000 ≤ b) :
    rd b (measFrom 0 l s) = rd b s := by
  have himage := wordsOfBytes_length_le (imgHash l)
  have hsigner := wordsOfBytes_length_le (sha256 (imgSigner l))
  have hsha := sha256_length_le (imgSigner l)
  have hhash : (imgHash l).length ≤ 32 := List.length_take_le _ _
  have hw := (wrList_keeps (β := true) .rfl (kpPage 0 + 0x60) (wordsOfBytes (imgHash l))).regs h
  have hpage : kpPage 0 = 0x400B8000 := rfl
  exact (rd_wrList_above hw _ (by omega)).trans (rd_wrList_above h _ (by omega))

/-! ### The write of an image for a destination beyond the flash -/

/-- A counter of erases at the place of UPD_STAT. -/
theorem rd_eraseCount_stray {u : State} (h : Registers.wf u = true) (hth : fget flcB FLC_WEAR.TH u ≠ 0x405)
    (hstat : rd 0x400E0004 u = 0x404#32) : rd 0x400E0004 (eraseCount 12289 u) = 0x405#32 := by
  have hcount : fcount (flcB + 4 * 12289) FLC_ECNT.COUNT u =
      wr 0x400E0004 (bitsPut (rd 0x400E0004 u) 0 24 (satAdd FLC_ECNT.COUNT.top (bitsOf (rd 0x400E0004 u) 0 24) 1)) u := rfl
  have hafter : rd 0x400E0004 (fcount (flcB + 4 * 12289) FLC_ECNT.COUNT u) = 0x405#32 := by
    rw [hcount, rd_wr_self h, hstat]
    decide
  have hth' : fget flcB FLC_WEAR.TH (fcount (flcB + 4 * 12289) FLC_ECNT.COUNT u) ≠ 0x405 := by
    rw [hcount]
    exact fun hn => hth ((fget_wr_ne h _ _ (by decide)).symm.trans hn)
  have hread : fget (flcB + 4 * 12289) FLC_ECNT.COUNT (fcount (flcB + 4 * 12289) FLC_ECNT.COUNT u) = 0x405 := by
    show bitsOf (rd 0x400E0004 _) 0 24 = 0x405
    rw [hafter]
    decide
  have herase : eraseCount 12289 u = fcount (flcB + 4 * 12289) FLC_ECNT.COUNT u := if_neg fun hn => by
    obtain ⟨-, -, hmeets⟩ := hn
    exact hth' (hmeets.symm.trans hread)
  rw [herase]
  exact hafter

/-- The write of an image that goes to the block at 0x38010000 begins. -/
theorem stagedBegin_stray {u : State} (h : Registers.wf u = true) (hth : fget flcB FLC_WEAR.TH u ≠ 0x405)
    (hstat : rd 0x400E0004 u = 0x404#32) (hrange : writeRange u = (0x38010000, 0x10000, 0x38010000)) :
    updState (stagedBegin u) = 5 := by
  have hbegin : ∃ v, v.regs = (eraseCount 12289 u).regs ∧
      stagedBegin u = (if bankState 1 v = 0 ∧ pdOn 27 v = true then
        bankPut 1 { erase := some ⟨64, 0x38010000, []⟩, minRun := true } false v else v) := by
    refine ⟨flashInvalidate 0x38010000 0x10000 (garble 0x38010000 0x10000 (eraseCount 12289 u)), rfl, ?_⟩
    unfold stagedBegin
    rw [hrange]
    rfl
  obtain ⟨v, hv, hbegin⟩ := hbegin
  have hwv : Registers.wf v = true := (Registers.wf_of_regs hv).trans (eraseCount_wf h _)
  have hrd : rd 0x400E0004 v = 0x405#32 := by
    rw [show rd 0x400E0004 v = rd 0x400E0004 (eraseCount 12289 u) by simp only [rd, hv]]
    exact rd_eraseCount_stray h hth hstat
  have honly : Only (page flcB bankFields) v (stagedBegin u) := by
    rw [hbegin]
    exact .ite (bankPut_only hwv _ _ _) (.refl hwv)
  have hstate : rd 0x400E0004 (stagedBegin u) = 0x405#32 := (honly.rd (by decide)).trans hrd
  show bitsOf (rd 0x400E0004 (stagedBegin u)) 0 3 = 5
  rw [hstate]
  decide

/-! ### The restart -/

/-- A house image is activated, and the header in staging, at 0x20000000, is by now that of a room's image for
0x38010000. -/
def strayHouse : State :=
  memWrite 0x2000002C [0, 0, 0x01, 0x38] (memWrite 0x20000006 [2]
    (wr 0x400E000C 0x20000000#32 (wr 0x400E0004 0x403#32 State.reset)))

theorem strayHouse_wf : Registers.wf strayHouse = true := by decide

/-- The house restarted with an image of no segments, before its write begins. -/
def restarted (h : List Byte) (s : State) : State := levelsClear (houseCores h (updMove 4 (measFrom 0 h s)))

theorem measFrom_keeps_memory (h : List Byte) (s : State) : Keeps true s (measFrom 0 h s) := measSet_keeps .rfl 0 _ _

theorem restarted_regs (h : List Byte) (s : State) : (restarted h s).regs = (updMove 4 (measFrom 0 h s)).regs := by
  unfold restarted houseCores
  rfl

theorem restarted_mem (h : List Byte) (s : State) : (restarted h s).mem = s.mem ∧ (restarted h s).noise = s.noise := by
  have hkeep := (measFrom_keeps_memory h s).memSame rfl
  unfold restarted houseCores
  exact hkeep

/-- A register above the measurements, but for UPD_STAT. -/
theorem restarted_rd {s : State} (hw : Registers.wf s = true) (h : List Byte) {b : Nat} (hb : 0x400C0000 ≤ b)
    (hne : b ≠ 0x400E0004) : rd b (restarted h s) = rd b s := by
  have hmeas := (measFrom_keeps_memory h s).regs hw
  rw [show rd b (restarted h s) = rd b (updMove 4 (measFrom 0 h s)) by simp only [rd, restarted_regs]]
  exact (rd_fset_ne hmeas _ _ hne).trans (rd_measFrom_above hw h hb)

theorem restarted_stat {s : State} (hw : Registers.wf s = true) (h : List Byte) :
    rd 0x400E0004 (restarted h s) = bitsPut (rd 0x400E0004 s) 0 3 4 := by
  have hmeas := (measFrom_keeps_memory h s).regs hw
  rw [show rd 0x400E0004 (restarted h s) = rd 0x400E0004 (updMove 4 (measFrom 0 h s)) by simp only [rd, restarted_regs],
    ← rd_measFrom_above hw h (by decide)]
  exact rd_wr_self hmeas 0x400E0004 _

theorem restarted_wf {s : State} (hw : Registers.wf s = true) (h : List Byte) : Registers.wf (restarted h s) = true :=
  (Registers.wf_of_regs (restarted_regs h s)).trans
    (Registers.wf_fset ((measFrom_keeps_memory h s).regs hw) updB UPD_STAT.STATE 4)

theorem stgHeader_restarted {s : State} (hw : Registers.wf s = true) (h : List Byte) :
    stgHeader (restarted h s) = stgHeader s := by
  have hbase : stgBase (restarted h s) = stgBase s :=
    congrArg (fun w => bitsOf w 12 20 * 0x1000) (restarted_rd hw h (b := 0x400E000C) (by decide) (by decide))
  obtain ⟨hmem, hnoise⟩ := restarted_mem h s
  rw [stgHeader, hbase]
  exact memBytes_of_mem hmem hnoise _ _

theorem planActive_measFrom {s : State} (hw : Registers.wf s = true) (h : List Byte) :
    planActive (measFrom 0 h s) = planActive s :=
  congrArg (fun w => bitsOf w FAB_PLAN_STAT.ACTIVE.lo FAB_PLAN_STAT.ACTIVE.w != 0)
    (rd_measFrom_above hw h (b := fabB + FAB_PLAN_STAT.ACTIVE.off) (by decide))

/-- The restart by an image of no segments, with no plan active. -/
theorem houseRestart_eq {s : State} (hstate : updState s = 3) (hkind : fget updB UPD_STAT.KIND s = 1)
    (hsegs : imgSegments (stgHeader s) = []) (hw : Registers.wf s = true) (hplan : planActive s = false) :
    houseRestart s = stagedBegin (restarted (stgHeader s) s) := by
  have hcopy (body : List Byte) : copySegments (stgHeader s) body s = s := by
    rw [copySegments, hsegs]
    rfl
  have hrun : houseRestart s = stagedBegin (levelsClear (houseCores (stgHeader s) (updMove 4
      (if planActive (measFrom 0 (stgHeader s) (copySegments (stgHeader s)
          (memBytes (stgBase s + 256) (imgLength (stgHeader s)) s) s)) = true then
        digestChange (measFrom 0 (stgHeader s) (copySegments (stgHeader s)
          (memBytes (stgBase s + 256) (imgLength (stgHeader s)) s) s))
      else measFrom 0 (stgHeader s) (copySegments (stgHeader s)
          (memBytes (stgBase s + 256) (imgLength (stgHeader s)) s) s))))) :=
    if_neg fun hn => hn.elim (fun hn => hn hstate) fun hn => hn hkind
  rw [hrun, hcopy, planActive_measFrom hw, hplan]
  rfl

theorem writeRange_roomImage {s : State} (hkind : imgKind (stgHeader s) = 2) : writeRange s =
    let b := blocksOf (imgSeg (stgHeader s) 0).dest (256 + imgLength (stgHeader s))
    (b.1, b.2 * 0x10000, (imgSeg (stgHeader s) 0).dest) := by
  unfold writeRange
  dsimp only
  rw [hkind]
  rfl

theorem strayHouse_header : imgKind (stgHeader strayHouse) = 2 ∧ imgSegments (stgHeader strayHouse) = [] ∧
    blocksOf (imgSeg (stgHeader strayHouse) 0).dest (256 + imgLength (stgHeader strayHouse)) = (0x38010000, 1) ∧
    (imgSeg (stgHeader strayHouse) 0).dest = 0x38010000 := by decide

/-- The house restarts and STATE reads 5. -/
theorem updState_strayHouse : updState (houseRestart strayHouse) = 5 := by
  obtain ⟨hkind, hsegs, hblocks, hdest⟩ := strayHouse_header
  have hheader := stgHeader_restarted strayHouse_wf (stgHeader strayHouse)
  have hrange : writeRange (restarted (stgHeader strayHouse) strayHouse) = (0x38010000, 0x10000, 0x38010000) := by
    rw [writeRange_roomImage ((congrArg imgKind hheader).trans hkind), hheader, hblocks, hdest]
    rfl
  have hstat : rd 0x400E0004 (restarted (stgHeader strayHouse) strayHouse) = 0x404#32 := by
    have hread : rd 0x400E0004 strayHouse = 0x403#32 := by decide
    rw [restarted_stat strayHouse_wf, hread]
    decide
  have hth : fget flcB FLC_WEAR.TH (restarted (stgHeader strayHouse) strayHouse) ≠ 0x405 := by
    have hread : fget flcB FLC_WEAR.TH strayHouse ≠ 0x405 := by decide
    exact fun hn => hread ((congrArg (fun w => bitsOf w 0 24)
      (restarted_rd strayHouse_wf _ (b := 0x400D0024) (by decide) (by decide))).symm.trans hn)
  rw [houseRestart_eq (by decide) (by decide) hsegs strayHouse_wf (by decide)]
  exact stagedBegin_stray (restarted_wf strayHouse_wf _) hth hstat hrange

/-- Refutes O43: HOUSE_RESTART of a session whose header in staging is that of a room's image for 0x38010000 leaves STATE
5, since the write counts an erase of block 12289. -/
theorem not_updateActivation : ¬ Obligations.UpdateActivation := by
  intro h
  obtain ⟨-, -, hrestart, -⟩ := h
  obtain ⟨t, ht, hstate, -⟩ := (hrestart strayHouse).2 (by decide) (by decide) strayHouse_wf
  have hrun : houseRestart strayHouse = t := Host.Outcome.next.inj ht
  exact absurd (updState_strayHouse.symm.trans ((congrArg updState hrun).trans hstate)) (by decide)

end Sys2Proof.Machine
end

section
/-!
SUPPORT. The hall's start (R660, R666): a release ends a residence, and with it a lane's move, whose partner is any
number in the model's state.
-/

namespace Sys2Proof.Machine

open Reg

/-- The number whose lane page would stand at RST_STAT, and whose LANE_STAT would be RST_STAGE. -/
def rstPage : Nat := (0x70030300 - 0x50000000) / 0x100

/-- A lane of front end A. -/
def strayLane : LaneDesc :=
  { fe := 0, binFirst := 0, nBins := 1, phy := 0x30, opts := 0, domain := 0, firstTile := 0, nTiles := 3, codeTile := 0,
    codeSlot := 0, nSlots := 0, queue := 0, fine := 0 }

/-- A start that is acknowledged with STAGE 7, while a residence of front end A stands and its lane 0 is the source of a
move to `rstPage`. -/
def strayStart : State :=
  wr 0x7003030C 7#32 (wr 0x5000000C 0x80#32
    { State.reset with
      feA := { State.reset.feA with residence := true }
      plan := { State.reset.plan with lanes := [(0, some strayLane)] }
      lanes := [(0, { move := some { partner := rstPage, index := 0, source := true } })]
      pow := { State.reset.pow with hall := .acked, porReset := true } })

set_option maxRecDepth 100000 in
/-- The end of the residence cancels the move, and the page of its destination is set IDLE before PREV takes STAGE. -/
theorem prev_strayStart : fget pmbB RST_STAGE.PREV (hallRelease 0 0 0 strayStart) = 1 := by decide

/-- Refutes O59: PREV takes what STAGE reads once the registers are at reset, and the end of the residence has by then set
the state of `strayStart`'s destination, whose page is that of RST_STAGE: STAGE 7 becomes PREV 1. (The plan's moves have
lanes below 256 for partners.) -/
theorem not_hallStarts : ¬ Obligations.HallStarts := by
  rintro ⟨hrelease, -⟩
  obtain ⟨t, ht, -, -, hprev, -⟩ := (hrelease 0 0 0 strayStart).2 rfl (by decide)
  have hrun : hallRelease 0 0 0 strayStart = t := Host.Outcome.next.inj ht
  have hstage : fget pmbB RST_STAGE.STAGE strayStart = 7 := by decide
  rw [← hrun, prev_strayStart, hstage] at hprev
  exact absurd hprev (by decide)

end Sys2Proof.Machine
end

section
/-!
SUPPORT. What the walk of a front end and a lane's stop leave as it was: the PWR block, the ledger block, the SUP block, and
of the lantern's blocks every register that is at no offset a lane's partner may be written at; the power state, the duty
accounts and what the supply watch holds as well. The loss of a domain's power leaves all of it but the SUP block.
-/

namespace Sys2Proof.Machine

open Reg

/-- The registers that the loss of a domain's power leaves. -/
abbrev Spared (a : Nat) : Prop :=
  a / 0x10000 = 0x400F ∨ a / 0x10000 = 0x4007 ∨
    (0x70000000 ≤ a ∧ a % 0x100 ≠ 0xC ∧ a % 0x100 ≠ 0x64 ∧ a % 0x100 ≠ 0x6C ∧ a % 0x100 ≠ 0x70)

/-- The SUP block's registers. -/
abbrev InSup (a : Nat) : Prop := a / 0x10000 = 0x4010

/-- The registers that a walk and a stop leave. -/
abbrev Quiet (a : Nat) : Prop := Spared a ∨ InSup a

/-- From `s` to `t` the registers of `R`, the power state and the duty accounts stay, and what the supply watch holds where
`R` has its block; the registers stay canonical. -/
structure SparesOn (R : Nat → Prop) (s t : State) : Prop where
  quiet : ∀ a, R a → Quiet a
  wf : Registers.wf t = true
  rd : ∀ a, R a → rd a t = rd a s
  pow : t.pow = s.pow
  duty : t.link.duty = s.link.duty
  sup : R 0x40100000 → t.sup = s.sup

/-- The same of the registers that the loss of a domain's power leaves. -/
abbrev Spares (s t : State) : Prop := SparesOn Spared s t

theorem not_quiet {a : Nat} (h : a < 0x70000000) (hp : a / 0x10000 ≠ 0x400F) (hl : a / 0x10000 ≠ 0x4007)
    (hs : a / 0x10000 ≠ 0x4010) : ¬ Quiet a := by
  omega

namespace SparesOn

variable {R : Nat → Prop} {s t u : State}

theorem refl (hR : ∀ a, R a → Quiet a) (h : Registers.wf s = true) : SparesOn R s s :=
  ⟨hR, h, fun _ _ => rfl, rfl, rfl, fun _ => rfl⟩

theorem trans (h : SparesOn R s t) (h' : SparesOn R t u) : SparesOn R s u :=
  ⟨h.quiet, h'.wf, fun a ha => (h'.rd a ha).trans (h.rd a ha), h'.pow.trans h.pow, h'.duty.trans h.duty,
    fun hs => (h'.sup hs).trans (h.sup hs)⟩

theorem field (h : SparesOn R s t) {b : Nat} {f : Fld} (ha : R (b + f.off)) : Machine.fget b f t = Machine.fget b f s :=
  congrArg (bitsOf · f.lo f.w) (h.rd _ ha)

theorem same (h : SparesOn R s t) (hr : u.regs = t.regs) (hp : u.pow = t.pow) (hd : u.link.duty = t.link.duty)
    (hs : R 0x40100000 → u.sup = t.sup := by exact fun _ => rfl) : SparesOn R s u :=
  ⟨h.quiet, (Registers.wf_of_regs hr).trans h.wf, fun a ha => (congrArg (fun r => tget regReset r a) hr).trans (h.rd a ha),
    hp.trans h.pow, hd.trans h.duty, fun ha => (hs ha).trans (h.sup ha)⟩

/-- A register that is none of `R`. -/
theorem wrBeside (h : SparesOn R s t) {a : Nat} (ha : ¬ R a) (v : Word) : SparesOn R s (Machine.wr a v t) :=
  ⟨h.quiet, Registers.wf_wr h.wf _ _, fun x hx => (rd_wr_ne h.wf _ fun e : x = a => ha (e ▸ hx)).trans (h.rd x hx),
    h.pow, h.duty, h.sup⟩

theorem wr (h : SparesOn R s t) {a : Nat} (ha : ¬ Quiet a) (v : Word) : SparesOn R s (Machine.wr a v t) :=
  h.wrBeside (fun hr => ha (h.quiet a hr)) v

theorem fset (h : SparesOn R s t) {b : Nat} {f : Fld} (ha : ¬ Quiet (b + f.off)) (v : Nat) : SparesOn R s (fset b f v t) := h.wr ha _

theorem wr48 (h : SparesOn R s t) {a : Nat} (ha : ¬ Quiet a) (ha' : ¬ Quiet (a + 4)) (v : Nat) : SparesOn R s (wr48 a v t) :=
  (h.wr ha _).wr ha' _

theorem raiseEvt (h : SparesOn R s t) (e : Nat) : SparesOn R s (raiseEvt e t) :=
  h.same (raiseEvt_regs e t) (raiseEvt_pow e t) (raiseEvt_same (·.link.duty) e t fun _ => rfl) fun _ => raiseEvt_sup e t

theorem note (h : SparesOn R s t) {b : Nat} {f : Fld} (ha : ¬ Quiet (b + f.off)) (e : Nat) : SparesOn R s (note b f e t) := by
  unfold Machine.note
  split
  · exact h
  · exact (h.fset ha 1).raiseEvt e

theorem ite {c : Prop} [Decidable c] (ht : SparesOn R s t) (hu : SparesOn R s u) : SparesOn R s (if c then t else u) := by
  split <;> assumption

theorem foldl {α : Type} (f : State → α → State) :
    ∀ (r : List α), (∀ x ∈ r, ∀ {u}, SparesOn R s u → SparesOn R s (f u x)) → ∀ {t : State}, SparesOn R s t → SparesOn R s (r.foldl f t)
  | [], _, _, h => h
  | x :: r, H, _, h => foldl f r (fun y hy => H y (List.mem_cons_of_mem _ hy)) (H x (List.mem_cons_self ..) h)

theorem only (h : SparesOn R s t) {l : List Place} (ho : Only l t u) (hl : ∀ f ∈ l, ¬ Quiet (f.1 + f.2.off))
    (hp : u.pow = t.pow) (hd : u.link.duty = t.link.duty) (hs : u.sup = t.sup) : SparesOn R s u :=
  ⟨h.quiet, ho.wf, fun a ha => (ho.rd fun f hf e => hl f hf (by rw [← e]; exact h.quiet a ha)).trans (h.rd a ha),
    hp.trans h.pow, hd.trans h.duty, fun ha => hs.trans (h.sup ha)⟩

/-! ### Writes of the front ends' blocks and of lane pages -/

theorem fePut (h : SparesOn R s t) (fe : Fe) (v : FeState) : SparesOn R s (fePut fe v t) := by
  cases fe <;> exact h.same rfl rfl rfl

theorem chzPut (h : SparesOn R s t) (fe : Fe) (v : ChzState) : SparesOn R s (chzPut fe v t) := by
  cases fe <;> exact h.same rfl rfl rfl

theorem fdxPut (h : SparesOn R s t) (fe : Fe) (v : FdxState) : SparesOn R s (fdxPut fe v t) := by
  cases fe <;> exact h.same rfl rfl rfl

theorem lanePut (h : SparesOn R s t) (n : Nat) (v : LaneState) : SparesOn R s (lanePut n v t) := h.same rfl rfl rfl

theorem not_quiet_fe (fe : Fe) {k : Nat} (hk : k < 0x10000) : ¬ Quiet (feB fe + k) := by
  cases fe <;> refine not_quiet ?_ ?_ ?_ ?_ <;> simp only [feB, Fe.num] <;> omega

theorem fe (h : SparesOn R s t) (fe : Fe) {f : Fld} (hf : f.off < 0x10000) (v : Nat) : SparesOn R s (Machine.fset (feB fe) f v t) :=
  h.fset (not_quiet_fe fe hf) v

theorem chz (h : SparesOn R s t) (fe : Fe) {f : Fld} (hf : f.off < 0x1000) (v : Nat) : SparesOn R s (Machine.fset (chzB fe) f v t) := by
  refine h.fset ?_ v
  cases fe <;> refine not_quiet ?_ ?_ ?_ ?_ <;> simp only [chzB, Fe.num] <;> omega

/-- Any lane's page, which a partner's number places: the registers at these offsets alone. -/
theorem not_quiet_lane (n : Nat) {k : Nat} (hk : k ∈ [0xC, 0x64, 0x6C, 0x70]) : ¬ Quiet (laneP n + k) := by
  have hk' : k = 0xC ∨ k = 0x64 ∨ k = 0x6C ∨ k = 0x70 := by simpa using hk
  unfold laneP Quiet Spared
  omega

theorem lane (h : SparesOn R s t) (n : Nat) {f : Fld} (hf : f.off ∈ [0xC, 0x64, 0x6C, 0x70]) (v : Nat) :
    SparesOn R s (Machine.fset (laneP n) f v t) := h.fset (not_quiet_lane n hf) v

theorem laneFlag (h : SparesOn R s t) (n : Nat) {f : Fld} (hf : f.off ∈ [0xC, 0x64, 0x6C, 0x70]) : SparesOn R s (laneFlag n f t) :=
  h.note (not_quiet_lane n hf) n

/-- A page of a lane that exists. -/
theorem not_quiet_laneIn {n k : Nat} (hn : n < 256) (hk : k < 0x100) : ¬ Quiet (laneP n + k) := by
  refine not_quiet ?_ ?_ ?_ ?_ <;> unfold laneP <;> omega

theorem laneIn (h : SparesOn R s t) {n : Nat} (hn : n < 256) {f : Fld} (hf : f.off < 0x100) (v : Nat) :
    SparesOn R s (Machine.fset (laneP n) f v t) := h.fset (not_quiet_laneIn hn hf) v

theorem laneGain (h : SparesOn R s t) {n : Nat} (hn : n < 256) {f : Fld} (hf : f.off < 0x1000) (v : Nat) :
    SparesOn R s (Machine.fset (laneGainB n) f v t) := by
  refine h.fset ?_ v
  refine not_quiet ?_ ?_ ?_ ?_ <;> unfold laneGainB <;> omega

/-! ### A frame's closing, and a lane's release -/

theorem laneCount (h : SparesOn R s t) {n : Nat} (hn : n < 256) (code : Nat) : SparesOn R s (laneCount n code t) :=
  .ite (h.laneIn hn (by decide) _) (.ite (h.laneIn hn (by decide) _) (h.laneIn hn (by decide) _))

theorem drawFree (h : SparesOn R s t) : SparesOn R s (drawFree t) := h.same rfl rfl rfl

theorem laneLast (h : SparesOn R s t) {n : Nat} (hn : n < 256) (c : ClosedFrame) (f : LaneFrame) (deliv : Bool) :
    SparesOn R s (laneLast n c f deliv t) := by
  have hst {u : State} (hu : SparesOn R s u) (v w x y z : Nat) : SparesOn R s (Machine.fset (laneP n) LAST_ST.LEN z
      (Machine.fset (laneP n) LAST_ST.DELIV y (Machine.fset (laneP n) LAST_ST.EPOCH x (Machine.fset (laneP n) LAST_ST.MARKS w
        (Machine.fset (laneP n) LAST_ST.CODE v u))))) :=
    laneIn (laneIn (laneIn (laneIn (laneIn hu hn (by decide) _) hn (by decide) _) hn (by decide) _) hn (by decide) _) hn
      (by decide) _
  have hq {u : State} (hu : SparesOn R s u) (v w x : Nat) : SparesOn R s (Machine.fset (laneP n) LAST_Q.MCS x
      (Machine.fset (laneP n) LAST_Q.LQI w (Machine.fset (laneP n) LAST_Q.RSSI_Q v u))) :=
    laneIn (laneIn (laneIn hu hn (by decide) _) hn (by decide) _) hn (by decide) _
  have hend {u : State} (hu : SparesOn R s u) (v w x y : Nat) (fofs : Word) : SparesOn R s (Machine.fset (laneP n) LAST_SFD_HI.FRAC y
      (Machine.fset (laneP n) LAST_SFD_HI.SFD_HI x (Machine.fset (laneP n) LAST_SFD_LO.SFD_LO w (Machine.wr (laneP n + 0x54) fofs
        (Machine.fset (laneP n) LAST_Q2.EVM_Q v u))))) :=
    laneIn (laneIn (laneIn (wr (laneIn hu hn (by decide) _) (not_quiet_laneIn hn (by decide)) _) hn (by decide) _) hn
      (by decide) _) hn (by decide) _
  refine drawFree (hend ?_ _ _ _ _ _)
  have h2 := hq (hst h c.code c.marks c.epoch (ofBool deliv) (if f.fcsLen = 0 then freeNat t else c.len))
    c.qual.rssiQ.toNat (lqiOf c.qual.evmQ.toInt) c.mcs
  split
  · exact h2.laneIn hn (by decide) _
  · exact h2.laneIn hn (by decide) _

theorem laneRelease (h : SparesOn R s t) {n : Nat} (hn : n < 256) : SparesOn R s (laneRelease n t) := by
  have h2 := ((h.lanePut n { laneGet n t with frame := none, ms := none }).lane n (f := LANE_STAT.MIDFRAME) (by decide) 0).lane n
    (f := LANE_STAT.PHASE) (by decide) 0
  have h3 := (h2.laneGain hn (f := LANE_GAIN.FROZEN) (by decide) 0).chz (laneFe n t) (f := CHZ_GAIN_STAT.MIDFRAME) (by decide)
    (fget (chzB (laneFe n t)) CHZ_GAIN_STAT.MIDFRAME (Machine.fset (laneGainB n) LANE_GAIN.FROZEN 0 (Machine.fset (laneP n) LANE_STAT.PHASE 0
      (Machine.fset (laneP n) LANE_STAT.MIDFRAME 0 (Machine.lanePut n { laneGet n t with frame := none, ms := none } t)))) - 1)
  exact .ite (h3.laneGain hn (by decide) _) h3

theorem laneHand (h : SparesOn R s t) (c : ClosedFrame) : SparesOn R s (laneHand c t) := by
  have hput : SparesOn R s { t with verdicts := t.verdicts ++ [c] } := h.same rfl rfl rfl
  unfold Machine.laneHand
  split
  · split
    · exact .ite (h.lane c.lane (by decide) _) hput
    · exact hput
  · exact hput

theorem laneDeliver (h : SparesOn R s t) (c : ClosedFrame) : SparesOn R s (laneDeliver c t) := by
  unfold Machine.laneDeliver
  split
  · exact .ite (h.lanePut _ _) (h.laneHand c)
  · exact h.laneHand c

theorem laneClose (h : SparesOn R s t) {n : Nat} (hn : n < 256) (code e : Nat) (q : Quality) : SparesOn R s (laneClose n code e q t) := by
  unfold Machine.laneClose
  split
  · exact h
  · have h1 := h.laneCount hn code
    have hdeliver {u : State} (hu : SparesOn R s u) (deliv : Bool) (c : ClosedFrame) :
        SparesOn R s (if deliv = true then Machine.laneDeliver c u else u) := .ite (hu.laneDeliver c) hu
    have hrest {u : State} (hu : SparesOn R s u) (deliv : Bool) (c : ClosedFrame) (p : Prop) [Decidable p] (v : LaneState) :
        SparesOn R s (if deliv = true then Machine.laneDeliver c (Machine.laneRelease n (if p then Machine.lanePut n v u else u))
          else Machine.laneRelease n (if p then Machine.lanePut n v u else u)) :=
      hdeliver ((SparesOn.ite (hu.lanePut n v) hu).laneRelease hn) deliv c
    exact hrest (.ite h1 (h1.laneLast hn _ _ _)) _ _ _ _

theorem laneCut (h : SparesOn R s t) {n : Nat} (hn : n < 256) (code e : Nat) : SparesOn R s (laneCut n code e t) :=
  .ite (h.laneClose hn code e _) h

/-! ### Moves and tunes -/

theorem moveForget (h : SparesOn R s t) (n : Nat) : SparesOn R s (moveForget n t) := (h.lanePut n _).lane n (by decide) 0

theorem moveCancel (h : SparesOn R s t) (n : Nat) : SparesOn R s (moveCancel n t) := by
  unfold Machine.moveCancel
  split
  · next m _ =>
    exact .ite (((((h.lane _ (by decide) 1).moveForget m.partner).moveForget n).laneFlag m.partner (by decide)).laneFlag n
      (by decide)) h
  · exact h

theorem moveSettle (h : SparesOn R s t) (dst : Nat) : SparesOn R s (moveSettle dst t) :=
  foldl _ _ (fun c _ _ hu => hu.laneHand c) (h.lanePut dst _)

theorem drainRelease (h : SparesOn R s t) (n : Nat) : SparesOn R s (drainRelease n t) := by
  unfold Machine.drainRelease
  split
  · next m _ =>
    exact .ite ((((((h.lane n (f := LANE_STAT.STATE) (by decide) 1).moveSettle m.partner).moveForget m.partner).moveForget n).laneFlag m.partner
      (by decide)).laneFlag n (by decide)) h
  · exact h

theorem tuneNow (h : SparesOn R s t) {n : Nat} (hn : n < 256) : SparesOn R s (tuneNow n t) := by
  unfold Machine.tuneNow
  split
  · next x _ =>
    exact ((((h.lanePut n { laneGet n t with tune := none, detectsFrom := x.index + 1 }).laneIn hn (f := LANE_CHAN.BIN_FIRST)
      (by decide) _).laneIn hn (f := LANE_FINE.FINE_HZ) (by decide) _).lane n (by decide) 0).laneFlag n (by decide)
  · exact h

/-! ### Residences, reloads and the walk -/

theorem lanesOf_lt {fe : Fe} {n : Nat} (h : n ∈ lanesOf fe t) : n < 256 := List.mem_range.1 (List.mem_filter.1 h).1

theorem domainLanes_lt {d n : Nat} (h : n ∈ domainLanes d t) : n < 256 := List.mem_range.1 (List.mem_filter.1 h).1

theorem laneResidenceEnd (h : SparesOn R s t) (e : Nat) {n : Nat} (hn : n < 256) : SparesOn R s (laneResidenceEnd e n t) := by
  have h1 := h.laneCut hn 3 e
  have h2 := SparesOn.ite (c := laneState n (Machine.laneCut n 3 e t) = 4) (h1.drainRelease n) h1
  exact ((h2.moveCancel n).tuneNow hn).lanePut n _

theorem laneDomainStart (h : SparesOn R s t) (newEpoch : Bool) (n : Nat) : SparesOn R s (laneDomainStart newEpoch n t) := by
  have h1 := (h.lanePut n { laneGet n t with detectsFrom := 0, ms := none }).lane n (f := LANE_STAT.STATE) (by decide)
    (laneGet n t).before
  exact .ite (h1.lane n (f := LANE_STAT.EPOCH) (by decide) _) h1

theorem blankDrop (h : SparesOn R s t) (fe : Fe) : SparesOn R s (blankDrop fe t) := by
  have hput {u : State} (hu : SparesOn R s u) (v : FdxState) := (hu.fdxPut fe v).fe fe (f := FDX_STAT.BLANKING) (by decide) 0
  refine hput (.ite (h.wr48 (not_quiet_fe fe (k := 0x114) (by decide)) ?_ _) h) _
  rw [Nat.add_assoc]
  exact not_quiet_fe fe (by decide)

theorem cancelGain (h : SparesOn R s t) (fe : Fe) : SparesOn R s (cancelGain fe t) := (h.chzPut fe _).chz fe (by decide) 0

theorem chzEnd (h : SparesOn R s t) (fe : Fe) : SparesOn R s (chzEnd fe t) := by
  have h1 := SparesOn.ite (c := ovlActive fe t = true) (h.chz fe (f := CHZ_OVL_STAT.CLEAN_VALID) (by decide) 0) h
  exact (((h1.cancelGain fe).chzPut fe {}).chz fe (f := CHZ_OVL_STAT.HOLD) (by decide) 0).chz fe (by decide) 0

theorem residenceEnd (h : SparesOn R s t) (fe : Fe) : SparesOn R s (residenceEnd fe t) := by
  have hlanes : SparesOn R s (lanesResidenceEnd fe t) := foldl _ _ (fun n hn _ hu => hu.laneResidenceEnd _ (lanesOf_lt hn)) h
  exact .ite (((hlanes.blankDrop fe).fePut fe _).chzEnd fe) h

theorem feLock (h : SparesOn R s t) (fe : Fe) (on : Bool) : SparesOn R s (feLock fe on t) :=
  (h.fe fe (f := FE_STAT.LOCK) (by decide) _).fe fe (by decide) _

theorem calRequest (h : SparesOn R s t) (fe : Fe) : SparesOn R s (calRequest fe t) := by
  have hset {u : State} (hu : SparesOn R s u) := hu.fe fe (f := FE_STAT.CAL_PEND) (by decide) 1
  unfold Machine.calRequest
  dsimp only
  split
  · exact hset (.ite (h.fePut fe _) h)
  · exact hset h

theorem tempSample (h : SparesOn R s t) (fe : Fe) (temp : BitVec 16) : SparesOn R s (tempSample fe temp t) := by
  have h1 := h.fe fe (f := CAL_CFG.TEMP_NOW) (by decide) temp.toNat
  exact .ite (h1.calRequest fe) h1

theorem feCtlPins (h : SparesOn R s t) (fe : Fe) (st : Nat) : SparesOn R s (feCtlPins fe st t) := h.fePut fe _

theorem feBegin (h : SparesOn R s t) (fe : Fe) (src dst : Nat) (temp : BitVec 16) : SparesOn R s (feBegin fe src dst temp t) := by
  have h1 := SparesOn.ite (c := src = 3 ∧ dst = 2) (h.residenceEnd fe) h
  have h2 := SparesOn.ite (c := src = 0) (h1.tempSample fe temp) h1
  have h3 := SparesOn.ite (c := dst ≤ 1 ∨ (src = 2 ∧ dst = 2)) (h2.feLock fe false) h2
  exact ((h3.fePut fe _).fe fe (by decide) 1).feCtlPins fe dst

theorem feTakeHeld (h : SparesOn R s t) (fe : Fe) : SparesOn R s (feTakeHeld fe t) :=
  .ite (((h.fe fe (f := FE_STAT.TARGET) (by decide) _).fe fe (f := FE_STAT.PEND) (by decide) 0).fe fe (by decide) 0) h

theorem feNext (h : SparesOn R s t) (fe : Fe) (temp : BitVec 16) : SparesOn R s (feNext fe temp t) := by
  have h1 := (h.fePut fe { feGet fe t with centrePend := false, needRelock := false }).feTakeHeld fe
  exact .ite h (.ite (((h.fePut fe _).fePut fe _).feBegin fe 3 2 temp) (.ite ((h.fePut fe _).feBegin fe 2 2 temp)
    (.ite (h.feBegin fe 3 2 temp) (.ite (h1.feBegin fe _ _ temp) (.ite ((h1.fePut fe _).raiseEvt _) h1)))))

theorem feWalk (h : SparesOn R s t) (fe : Fe) (target : Nat) : SparesOn R s (feWalk fe target t) := by
  have h1 := ((h.fe fe (f := FE_STAT.TARGET) (by decide) target).fe fe (f := FE_STAT.PEND) (by decide) 0).fe fe
    (f := FE_STAT.PEND_TARGET) (by decide) 0
  exact .ite h1 (h1.feNext fe 0)

/-- The tile domains that FAB stopped restart, once they are forgotten. -/
theorem fabRestart (h : Registers.wf s = true) :
    Spares (powPut { s.pow with lanesWere := [] } s) (fabRestart s) := by
  refine foldl _ _ (fun d _ _ hu => ?_) (refl (fun _ => .inl) ((Registers.wf_of_regs (Eq.refl s.regs)).trans h))
  refine foldl _ _ (fun n _ _ hv => hv.laneDomainStart true n) (hu.wr ?_ _)
  decide

end SparesOn

theorem Spares.refl {s : State} (h : Registers.wf s = true) : Spares s s := SparesOn.refl (fun _ => .inl) h

end Sys2Proof.Machine
end

section
/-!
SUPPORT. The power of domains (R578, R579): what a domain that powers off or on leaves of the PWR block, the ledger block
and the lantern's registers, and which domains are on after it; the reset of the hall as the lantern sees it (R656).
-/

namespace Sys2Proof.Machine

open Reg

/-! ### Registers that return to their reset values -/

theorem tget_of_not_listed {α : Type} (d : Nat → α) {a : Nat} : ∀ {t : Tbl α}, (∀ e ∈ t, e.1 ≠ a) → tget d t a = d a
  | [], _ => rfl
  | (i, v) :: r, h => by
    have hi : ¬ a = i := fun e => h (i, v) (List.mem_cons_self ..) e.symm
    rw [tget, if_neg hi]
    split
    · rfl
    · exact tget_of_not_listed d fun e he => h e (List.mem_cons_of_mem _ he)

/-- One entry of the register file kept in the bits of `keep`, its others as at reset. -/
def keptWord (keep : Nat → Word) (a : Nat) (v : Word) : Word := (v &&& keep a) ||| (regReset a &&& ~~~ keep a)

theorem keptWord_all {keep : Nat → Word} {a : Nat} (h : keep a = 0xFFFFFFFF#32) (v : Word) : keptWord keep a v = v := by
  have hand : v &&& 0xFFFFFFFF#32 = v := BitVec.and_allOnes
  have hzero : ~~~ 0xFFFFFFFF#32 = 0#32 := rfl
  rw [keptWord, h, hand, hzero, BitVec.and_zero, BitVec.or_zero]

theorem keptWord_none {keep : Nat → Word} {a : Nat} (h : keep a = 0#32) (v : Word) : keptWord keep a v = regReset a := by
  have hones : ~~~ 0#32 = BitVec.allOnes 32 := rfl
  rw [keptWord, h, BitVec.and_zero, BitVec.zero_or, hones, BitVec.and_allOnes]

theorem keptWord_reset (keep : Nat → Word) (a : Nat) : keptWord keep a (regReset a) = regReset a := by
  unfold keptWord
  generalize regReset a = v
  generalize keep a = k
  ext i hi
  simp only [BitVec.getElem_or, BitVec.getElem_and, BitVec.getElem_not]
  cases v[i] <;> cases k[i] <;> rfl

/-- The register file after the entries of `l` are put back. -/
def putBack (p : Nat → Bool) (keep : Nat → Word) (l t : Tbl Word) : Tbl Word :=
  l.foldl (fun t e => if p e.1 then tset regReset t e.1 (keptWord keep e.1 e.2) else t) t

theorem tget_putBack (p : Nat → Bool) (keep : Nat → Word) (a : Nat) : ∀ {l t : Tbl Word}, twf regReset l = true →
    twf regReset t = true → tget regReset (putBack p keep l t) a =
      if p a = true ∧ ∃ e ∈ l, e.1 = a then keptWord keep a (tget regReset l a) else tget regReset t a
  | [], t, _, _ => (if_neg fun ⟨_, _, he, _⟩ => List.not_mem_nil he).symm
  | (i, v) :: r, t, hl, ht => by
    obtain ⟨-, habove, hr⟩ := twf_cons.1 hl
    rw [tabove_mem] at habove
    have hput := ht
    replace hput : twf regReset (if p i then tset regReset t i (keptWord keep i v) else t) = true := by
      split
      · exact twf_tset ht _ _
      · exact ht
    refine (tget_putBack p keep a hr hput).trans ?_
    by_cases hi : a = i
    · subst hi
      have hnot : ¬ ∃ e ∈ r, e.1 = a := fun ⟨e, he, hea⟩ => by
        have := habove e he
        omega
      have hlisted : ∃ e ∈ (a, v) :: r, e.1 = a := ⟨_, List.mem_cons_self .., rfl⟩
      have hself : tget regReset ((a, v) :: r) a = v := if_pos rfl
      rw [if_neg fun h => hnot h.2, hself]
      by_cases hp : p a = true
      · rw [if_pos hp, if_pos ⟨hp, hlisted⟩, tget_tset ht, if_pos rfl]
      · rw [if_neg hp, if_neg fun h => hp h.1]
    · have htail : (∃ e ∈ (i, v) :: r, e.1 = a) ↔ ∃ e ∈ r, e.1 = a := by
        refine ⟨fun ⟨e, he, hea⟩ => ?_, fun ⟨e, he, hea⟩ => ⟨e, List.mem_cons_of_mem _ he, hea⟩⟩
        rcases List.mem_cons.1 he with rfl | he
        · exact absurd hea.symm hi
        · exact ⟨e, he, hea⟩
      have hrest : tget regReset (if p i then tset regReset t i (keptWord keep i v) else t) a = tget regReset t a := by
        split
        · rw [tget_tset ht, if_neg hi]
        · rfl
      rw [hrest]
      by_cases h : p a = true ∧ ∃ e ∈ r, e.1 = a
      · obtain ⟨hp, e, he, hea⟩ := h
        have hlt := habove e he
        rw [if_pos ⟨hp, e, he, hea⟩, if_pos ⟨hp, htail.2 ⟨e, he, hea⟩⟩, tget, if_neg hi, if_neg (by omega)]
      · rw [if_neg h, if_neg fun hn => h ⟨hn.1, htail.1 hn.2⟩]

theorem rd_resetKeeping {s : State} (h : Registers.wf s = true) (p : Nat → Bool) (keep : Nat → Word) (a : Nat) :
    rd a (resetKeeping p keep s) = if p a = true then keptWord keep a (rd a s) else rd a s := by
  refine (tget_putBack p keep a h h).trans ?_
  by_cases hp : p a = true
  · by_cases hl : ∃ e ∈ s.regs, e.1 = a
    · rw [if_pos ⟨hp, hl⟩, if_pos hp]
      rfl
    · have hreset : rd a s = regReset a := tget_of_not_listed _ fun e he hea => hl ⟨e, he, hea⟩
      rw [if_neg fun h => hl h.2, if_pos hp, hreset, keptWord_reset]
      exact hreset
  · rw [if_neg fun h => hp h.1, if_neg hp]
    rfl

/-! ### Domains -/

theorem SparesOn.airAbort {R : Nat → Prop} {s t : State} (h : SparesOn R s t) (fe : Fe) (code : Nat) : SparesOn R s (airAbort fe code t) := by
  unfold Machine.airAbort
  split
  · refine fePut ?_ fe _
    cases fe <;> exact h.same rfl rfl rfl
  · exact h

theorem SparesOn.feSleepNow {R : Nat → Prop} {s t : State} (h : SparesOn R s t) (fe : Fe) : SparesOn R s (feSleepNow fe t) := by
  have h2 := (h.residenceEnd fe).fePut fe { feGet fe (Machine.residenceEnd fe t) with
    trans := none, announce := false, hop := false, centrePend := false, needRelock := false
    muted := (feGet fe (Machine.residenceEnd fe t)).muted || (feGet fe (Machine.residenceEnd fe t)).onAir }
  have h3 := (h2.feLock fe false).fe fe (f := FE_STAT.BUSY) (by decide) 0
  exact ((((h3.fe fe (f := FE_STAT.STATE) (by decide) 0).fe fe (f := FE_STAT.TARGET) (by decide) 0).fe fe (f := FE_STAT.PEND)
    (by decide) 0).fe fe (f := FE_STAT.PEND_TARGET) (by decide) 0).feCtlPins fe 0

theorem SparesOn.feReset {R : Nat → Prop} {s t : State} (h : SparesOn R s t) (fe : Fe) : SparesOn R s (feReset fe t) :=
  .ite h ((((((h.airAbort fe 7).feSleepNow fe).chzPut fe {}).fdxPut fe {})).fePut fe _)

theorem SparesOn.bankReset {R : Nat → Prop} {s t : State} (h : SparesOn R s t) (k : Nat) : SparesOn R s (bankReset k t) := by
  have hgarble {u : State} (hu : SparesOn R s u) (a n : Nat) : SparesOn R s (garble a n u) := hu.same rfl rfl rfl
  have hput {u : State} (hu : SparesOn R s u) : SparesOn R s (bankPut k {} false u) := by
    refine hu.only (bankPut_only hu.wf k {} false) (by decide) ?_ ?_ ?_ <;> unfold bankPut <;>
      by_cases hk : k = 0 <;> simp only [hk, if_true, if_false] <;> rfl
  unfold Machine.bankReset
  refine hput ?_
  have h1 : SparesOn R s (match (bankGet k t).prog with | some j => garble j.addr 32 t | none => t) := by
    split
    · exact hgarble h _ _
    · exact h
  split
  · exact .ite h1 (hgarble h1 _ _)
  · exact h1

theorem SparesOn.padsHold {R : Nat → Prop} {s t : State} (h : SparesOn R s t) (hi : Bool) : SparesOn R s (padsHold hi t) := by
  have hput (v : GpioState) : SparesOn R s { t with gpio := v } := h.same rfl rfl rfl
  exact .ite ((hput _).wr (by decide) _) h

theorem Spares.domainForget {s t : State} (h : Spares s t) (d : Nat) : Spares s (domainForget d t) := by
  unfold Machine.domainForget
  have hflash : Spares s { t with flash := { t.flash with last := none, branch := [] } } := h.same rfl rfl rfl
  have htime : Spares s { t with time := timeKept t.time } := h.same rfl rfl rfl
  refine .ite ?_ (.ite ?_ (.ite ?_ (.ite ?_ (.ite ?_ (.ite ?_ (.ite ?_ (.ite ?_ (.ite ?_ (.ite ?_ (.ite ?_ (.ite ?_ (.ite ?_
    (.ite ?_ (.ite ?_ (.ite ?_ (.ite ?_ (.ite ?_ h)))))))))))))))))
  · exact h.same rfl rfl rfl
  · exact h.same rfl rfl rfl
  · exact h.same rfl rfl rfl
  · exact hflash.bankReset _
  · exact h.same rfl rfl rfl
  · exact h.same rfl rfl rfl
  · exact h.same rfl rfl rfl
  · exact htime.wrBeside (by decide) _
  · exact h.feReset .a
  · exact h.feReset .b
  · exact h.same rfl rfl rfl
  · exact h.same rfl rfl rfl
  · exact h.same rfl rfl rfl fun hs => absurd hs (by decide)
  · exact h.same rfl rfl rfl
  · exact h.padsHold false
  · exact h.padsHold true
  · exact h.same rfl rfl rfl
  · exact h.same rfl rfl rfl

/-- The PWR and ledger blocks stand in the hall spine. -/
theorem regDomain_spine {a : Nat} (h : a / 0x10000 = 0x400F ∨ a / 0x10000 = 0x4007) : regDomain a = some 3 := by
  have hoff : (a - 0x40000000) / 0x10000 = 15 ∨ (a - 0x40000000) / 0x10000 = 7 := by omega
  unfold regDomain targetOf
  rw [if_neg (by omega), if_neg (by omega), if_neg (by omega), if_neg (by omega), if_neg (by omega), if_neg (by omega),
    if_neg (by omega), if_pos (by omega)]
  rcases hoff with hoff | hoff <;> rw [hoff] <;> rfl

theorem hallKeep_lantern {a : Nat} (h : 0x70000000 ≤ a) : hallKeep a = 0xFFFFFFFF#32 := by
  unfold hallKeep
  rw [if_neg (by omega), if_neg (by omega)]
  exact if_pos h

/-- Registers that the loss of a domain's power leaves. -/
theorem domainOff_spares {s : State} (h : Registers.wf s = true) {d : Nat} (hd : d ≠ 3) :
    ∃ u, Spares s u ∧ domainOff d s = pdSet d false u := by
  refine ⟨_, ?_, rfl⟩
  have hforget := (Spares.refl h).domainForget d
  have hregs : Spares s (resetKeeping (fun a => regDomain a == some d) hallKeep (domainForget d s)) := by
    refine ⟨hforget.quiet, (resetKeeping_keeps (β := true) .rfl _ _).regs hforget.wf, fun a ha => ?_, hforget.pow, hforget.duty,
      hforget.sup⟩
    refine ((rd_resetKeeping hforget.wf _ _ a).trans ?_).trans (hforget.rd a ha)
    split
    · next hp =>
      rcases ha with ha | ha | ha
      · rw [regDomain_spine (.inl ha)] at hp
        exact absurd (Option.some.inj (eq_of_beq hp)).symm hd
      · rw [regDomain_spine (.inr ha)] at hp
        exact absurd (Option.some.inj (eq_of_beq hp)).symm hd
      · exact keptWord_all (hallKeep_lantern ha.1) _
    · rfl
  have hdbg {u : State} (hu : Spares s u) : Spares s (dbgStart u) := by
    have hput : Spares s { u with dbg := { ir := u.dbg.ir, holdoff := u.dbg.holdoff } } := hu.same rfl rfl rfl
    exact hput.fset (by decide) _
  exact (SparesOn.ite (hdbg hregs) hregs).same rfl rfl rfl

/-- The word of PWR_DOM that holds a domain. -/
def pdWord (d : Nat) : Nat := 0x400F0028 + 4 * (d / 32)

theorem rd_pdSet {s : State} (h : Registers.wf s = true) {d a : Nat} (on : Bool) (ha : a ≠ pdWord d) :
    rd a (pdSet d on s) = rd a s := rd_wr_ne h _ ha

theorem pdOn_pdSet_of_ne {s : State} (h : Registers.wf s = true) {d k : Nat} (on : Bool) (hk : k ≠ d) :
    pdOn k (pdSet d on s) = pdOn k s := by
  by_cases hw : k / 32 = d / 32
  · unfold pdOn pdSet
    rw [hw, rd_wr_self h, bitOf_bitsPut_ne _ _ _ _ _ (Nat.mod_lt _ (by decide)) (by omega)]
  · refine congrArg (bitOf · (k % 32)) (rd_pdSet h on ?_)
    unfold pdWord
    omega

theorem pdWord_spared {d : Nat} (hd : d < 80) : Spared (pdWord d) := by
  unfold pdWord Spared
  omega

theorem pdOn_of_rd {s t : State} {k : Nat} (h : rd (pdWord k) t = rd (pdWord k) s) : pdOn k t = pdOn k s :=
  congrArg (bitOf · (k % 32)) h

theorem Spares.pdOn {s t : State} (h : Spares s t) {k : Nat} (hk : k < 80) : pdOn k t = pdOn k s :=
  pdOn_of_rd (h.rd _ (pdWord_spared hk))

/-- A domain that powers off: the registers spared, but for its own bit. -/
theorem domainOff_shows {s : State} (h : Registers.wf s = true) {d : Nat} (hd : d ≠ 3) :
    Registers.wf (domainOff d s) = true ∧ (∀ a, Spared a → a ≠ pdWord d → rd a (domainOff d s) = rd a s) ∧
      (∀ k < 80, pdOn k (domainOff d s) = if k = d then false else pdOn k s) := by
  obtain ⟨u, hu, heq⟩ := domainOff_spares h hd
  rw [heq]
  refine ⟨Registers.wf_wr hu.wf _ _, fun a ha hne => (rd_pdSet hu.wf false hne).trans (hu.rd a ha), fun k hk => ?_⟩
  split
  · next hkd =>
    subst hkd
    exact pdOn_pdSet_self hu.wf _ false
  · next hkd => exact (pdOn_pdSet_of_ne hu.wf false hkd).trans (hu.pdOn hk)

theorem radioOwner_only {s : State} (h : Registers.wf s = true) (lantern : Bool) :
    Only [(feB .a, FE_OWNER.OWNER), (feB .a, FE_STAT.OWNER), (feB .b, FE_STAT.OWNER)] s (radioOwner lantern s) :=
  (((Only.refl h).fset (by decide) _).fset (by decide) _).fset (by decide) _

theorem licStart_only {s : State} (h : Registers.wf s = true) :
    Only [(0x40000000, LIC_STAT.N_ENTRIES), (0x40000000, LIC_STAT.STATE)] s (licStart s) := by
  have hput : Only [(0x40000000, LIC_STAT.N_ENTRIES), (0x40000000, LIC_STAT.STATE)] s
      { s with lic := { s.lic with stage := s.lic.otp } } := (Only.refl h).of_regs (Eq.refl s.regs)
  exact (hput.fset (by decide) _).fset (by decide) _

theorem rngPowerUp_only {s : State} (h : Registers.wf s = true) :
    Only [(rngB, RNG_STAT.STATE), (rngB, RNG_STAT.BLOCKS)] s (rngPowerUp s) := by
  have hput : Only [(rngB, RNG_STAT.STATE), (rngB, RNG_STAT.BLOCKS)] s
      { s with keys := { s.keys with blocks := [], part := [], fails := [] } } := (Only.refl h).of_regs (Eq.refl s.regs)
  exact (hput.fset (by decide) _).fset (by decide) _

/-- What a domain that powers on restarts. -/
theorem domainOn_only {s : State} (h : Registers.wf s = true) (d : Nat) : ∃ l : List Place, (∀ f ∈ l, ¬ Spared (f.1 + f.2.off)) ∧
    Only l (pdSet d true s) (domainOn d s) := by
  have h1 : Registers.wf (pdSet d true s) = true := Registers.wf_wr h _ _
  unfold domainOn
  dsimp only
  split
  · have hlic := licStart_only h1
    have hown := radioOwner_only hlic.wf (fis (feB .a) FE_OWNER.OWNER (pdSet d true s))
    exact ⟨_ ++ _, by decide, (hlic.mono (List.subset_append_left _ _)).trans (hown.mono (List.subset_append_right _ _))⟩
  · split
    · exact ⟨_, by decide, radioOwner_only h1 _⟩
    · split
      · exact ⟨_, by decide, (rngRun_gave h1).only⟩
      · split
        · exact ⟨_, by decide, rngPowerUp_only h1⟩
        · exact ⟨[], by decide, .refl h1⟩

/-- A domain that powers on: the registers spared, but for its own bit. -/
theorem domainOn_shows {s : State} (h : Registers.wf s = true) (d : Nat) :
    Registers.wf (domainOn d s) = true ∧ (∀ a, Spared a → a ≠ pdWord d → rd a (domainOn d s) = rd a s) ∧
      (∀ k < 80, pdOn k (domainOn d s) = if k = d then true else pdOn k s) := by
  obtain ⟨l, hl, honly⟩ := domainOn_only h d
  have hrd (a : Nat) (ha : Spared a) : rd a (domainOn d s) = rd a (pdSet d true s) :=
    honly.rd fun f hf e => hl f hf (by rwa [← e])
  refine ⟨honly.wf, fun a ha hne => (hrd a ha).trans (rd_pdSet h true hne), fun k hk => ?_⟩
  refine (pdOn_of_rd (hrd _ (pdWord_spared hk))).trans ?_
  split
  · next hkd =>
    subst hkd
    exact pdOn_pdSet_self h _ true
  · next hkd => exact pdOn_pdSet_of_ne h true hkd

/-! ### The hall's reset (R656) -/

/-- The blocks at rest, before the registers go. -/
def hallRested (s : State) : State :=
  bankReset 1 (bankReset 0 (padsHold true (padsHold false (feReset .b (feReset .a s)))))

theorem hallRested_spares {s : State} (h : Registers.wf s = true) : Spares s (hallRested s) :=
  ((((((Spares.refl h).feReset .a).feReset .b).padsHold false).padsHold true).bankReset 0).bankReset 1

theorem hallClear_stages (por : Bool) (keep : Nat → Word) (s : State) : ∃ u : State, u.regs = (hallRested s).regs ∧
    u.link = linkKept (hallRested s).link ∧ (por = true → u.time.nt = 0 ∧ u.time.air = 0) ∧ hallClear por keep s =
      rngPowerUp (radioOwner (fis (feB .a) FE_OWNER.OWNER s) (dbgStart (licStart (resetKeeping (fun _ => true) keep u)))) := by
  refine ⟨_, ?_, ?_, ?_, rfl⟩
  · rfl
  · rfl
  · rintro rfl
    exact ⟨rfl, rfl⟩

theorem dbgStart_only {s : State} (h : Registers.wf s = true) : Only [(0x40150000, DBG_STAT.STATE)] s (dbgStart s) := by
  have hput : Only [(0x40150000, DBG_STAT.STATE)] s { s with dbg := { ir := s.dbg.ir, holdoff := s.dbg.holdoff } } :=
    (Only.refl h).of_regs (Eq.refl s.regs)
  exact hput.fset (by decide) _

/-- The places that the start of the hall's blocks writes. -/
abbrev startPlaces : List Place :=
  [(0x40000000, LIC_STAT.N_ENTRIES), (0x40000000, LIC_STAT.STATE), (0x40150000, DBG_STAT.STATE), (feB .a, FE_OWNER.OWNER),
    (feB .a, FE_STAT.OWNER), (feB .b, FE_STAT.OWNER), (rngB, RNG_STAT.STATE), (rngB, RNG_STAT.BLOCKS)]

theorem blocksStarted_only {s : State} (h : Registers.wf s = true) (owner : Bool) :
    Only startPlaces s (rngPowerUp (radioOwner owner (dbgStart (licStart s)))) := by
  have hlic := licStart_only h
  have hdbg := dbgStart_only hlic.wf
  have hown := radioOwner_only hdbg.wf owner
  exact (((hlic.mono (by decide)).trans (hdbg.mono (by decide))).trans (hown.mono (by decide))).trans
    ((rngPowerUp_only hown.wf).mono (by decide))

/-- The lantern's registers, the duty accounts and both times after the hall's reset. -/
theorem hallClear_shows {s : State} (h : Registers.wf s = true) (por : Bool) (keep : Nat → Word) :
    Registers.wf (hallClear por keep s) = true ∧
      (∀ a, 0x70000000 ≤ a → Spared a → rd a (hallClear por keep s) = keptWord keep a (rd a s)) ∧
      (hallClear por keep s).link.duty = s.link.duty ∧
      (por = true → (hallClear por keep s).time.nt = 0 ∧ (hallClear por keep s).time.air = 0) := by
  obtain ⟨u, hregs, hlink, htime, heq⟩ := hallClear_stages por keep s
  have hrest := hallRested_spares h
  have hu : Registers.wf u = true := (Registers.wf_of_regs hregs).trans hrest.wf
  have hreset : Registers.wf (resetKeeping (fun _ => true) keep u) = true :=
    (resetKeeping_keeps (β := true) .rfl _ _).regs hu
  have honly := blocksStarted_only hreset (fis (feB .a) FE_OWNER.OWNER s)
  rw [heq]
  refine ⟨honly.wf, fun a hlo ha => ?_, ?_, htime⟩
  · have hstart : ∀ f ∈ startPlaces, f.1 + f.2.off < 0x70000000 := by decide
    have hread : rd a u = rd a s := (congrArg (fun r => tget regReset r a) hregs).trans (hrest.rd a ha)
    refine (honly.rd fun f hf => ?_).trans ((rd_resetKeeping hu _ _ a).trans ?_)
    · have := hstart f hf
      omega
    · rw [if_pos rfl, hread]
  · exact (congrArg LinkState.duty hlink).trans hrest.duty

end Sys2Proof.Machine
end

section
/-!
SUPPORT. The entry to a power mode (R582–R585): its aborts, the answers that are taken, and the commit point.
-/

namespace Sys2Proof.Machine

open Reg

/-! ### The answers of PWR_HS -/

theorem hsReg_reset : regReset 0x400F0008 = 0#32 := by decide

/-- The register of the answers after an answer that is not "none". -/
theorem rd_hsAns {p v : Nat} (hp : p ≤ 11) (hv : 0 < v ∧ v < 4) (s : State) :
    rd 0x400F0008 (hsAns p v s) = bitsPut (rd 0x400F0008 s) (2 * p) 2 v := by
  refine tget_tset_of_ne (fun e => ?_) s.regs
  have hzero : bitsOf 0#32 (2 * p) 2 = 0 := by simp [bitsOf]
  have hself := bitsOf_bitsPut (rd 0x400F0008 s) (2 * p) 2 v (by omega)
  have hmod : v % 2 ^ 2 = v := Nat.mod_eq_of_lt hv.2
  rw [show bitsPut (rd 0x400F0008 s) (2 * p) 2 v = 0#32 from e.trans hsReg_reset, hzero] at hself
  omega

theorem hsGet_hsAns_self {p v : Nat} (hp : p ≤ 11) (hv : 0 < v ∧ v < 4) (s : State) : hsGet p (hsAns p v s) = v := by
  show bitsOf (rd 0x400F0008 (hsAns p v s)) (2 * p) 2 = v
  rw [rd_hsAns hp hv, bitsOf_bitsPut _ _ _ _ (by omega)]
  exact Nat.mod_eq_of_lt hv.2

theorem hsGet_hsAns_ne {p q v : Nat} (hp : p ≤ 11) (hq : q ≤ 11) (hne : q ≠ p) (hv : 0 < v ∧ v < 4) (s : State) :
    hsGet q (hsAns p v s) = hsGet q s := by
  show bitsOf (rd 0x400F0008 (hsAns p v s)) (2 * q) 2 = _
  rw [rd_hsAns hp hv, bitsOf_bitsPut_ne _ _ _ _ _ _ (by omega) (by omega)]
  rfl

theorem hsAns_only {s : State} (h : Registers.wf s = true) (p v : Nat) : Only (page pwrB [regOff 8]) s (hsAns p v s) :=
  (Only.refl h).wrIn (by decide) _

/-! ### An entry's end (R585) -/

/-- The fields of an abort. -/
abbrev abortFields : List Fld := [PWR_STAT.ABORT_WHY, PWR_STAT.PHASE, PWR_NOTE.ENTRY_ABORT]

/-- The front ends and the fabric go back. -/
def entryBack (s : State) : State :=
  let back (fe : Fe) (p : Nat) (t : State) : State :=
    if s.pow.asked.contains p then feWalk fe (s.pow.feWere.getD p 0) t else t
  fabRestart (back .b 1 (back .a 0 s))

theorem entryBack_shows {s : State} (h : Registers.wf s = true) :
    Registers.wf (entryBack s) = true ∧ ∀ a, Spared a → rd a (entryBack s) = rd a s := by
  have hback {t : State} (ht : Spares s t) (fe : Fe) (p : Nat) :
      Spares s (if s.pow.asked.contains p then feWalk fe (s.pow.feWere.getD p 0) t else t) := .ite (ht.feWalk fe _) ht
  have hboth := hback (hback (.refl h) .a 0) .b 1
  have hfab := SparesOn.fabRestart hboth.wf
  exact ⟨hfab.wf, fun a ha => (hfab.rd a ha).trans (hboth.rd a ha)⟩

/-- The power manager returns to RUN, and the Steward and the link cores go on. -/
def entryEnded (why : Nat) (s : State) : State :=
  wfiEnd 0 (wfiEnd 1 (wfiEnd 2 (fset pwrB PWR_STAT.PHASE 0 (fset pwrB PWR_STAT.ABORT_WHY why (askEnd s)))))

theorem entryAbort_stages (why : Nat) (s : State) :
    entryAbort why s = pwrNote PWR_NOTE.ENTRY_ABORT (entryEnded why (entryBack s)) := rfl

theorem entryEnded_shows {why : Nat} (hwhy : why < 16) {s : State} (h : Registers.wf s = true) :
    Only (page pwrB [PWR_STAT.ABORT_WHY, PWR_STAT.PHASE]) s (entryEnded why s) ∧ phase (entryEnded why s) = 0 ∧
      fget pwrB PWR_STAT.ABORT_WHY (entryEnded why s) = why := by
  have h1 : Only (page pwrB [PWR_STAT.ABORT_WHY, PWR_STAT.PHASE]) s (askEnd s) := (Only.refl h).of_regs (Eq.refl s.regs)
  have h2 := h1.fsetIn (f := PWR_STAT.ABORT_WHY) (by decide) why
  have hregs : (entryEnded why s).regs =
      (fset pwrB PWR_STAT.PHASE 0 (fset pwrB PWR_STAT.ABORT_WHY why (askEnd s))).regs := rfl
  exact ⟨(h2.fsetIn (by decide) 0).of_regs hregs,
    (fget_of_regs hregs _ _).trans (fget_fset_lt h2.wf _ (by decide) (by decide)),
    (fget_of_regs hregs _ _).trans ((fget_fset_of_apart h2.wf _ _ (by decide)).trans (fget_fset_lt h1.wf _ hwhy (by decide)))⟩

theorem noted_abort {s : State} (h : Registers.wf s = true) :
    Only (page pwrB [PWR_NOTE.ENTRY_ABORT]) s (pwrNote PWR_NOTE.ENTRY_ABORT s) := (Only.refl h).noteIn (by decide) _

/-- An abort as the PWR block and the power manager show it. -/
theorem entryAbort_shows {why : Nat} (hwhy : why < 16) {s : State} (h : Registers.wf s = true) :
    let t := entryAbort why s
    phase t = 0 ∧ fget pwrB PWR_STAT.ABORT_WHY t = why ∧ fis pwrB PWR_NOTE.ENTRY_ABORT t = true ∧
      t.pow.asked = [] ∧ t.pow.lcAns0 = 0 ∧ t.pow.lcAns1 = 0 ∧ t.mem = s.mem := by
  intro t
  obtain ⟨honly, hphase, habort⟩ := entryEnded_shows hwhy (entryBack_shows h).1
  have hnote := noted_abort honly.wf
  have hpow : (pwrNote PWR_NOTE.ENTRY_ABORT (entryEnded why (entryBack s))).pow = (askEnd (entryBack s)).pow :=
    note_pow _ _ _ _
  have hmem : t.mem = s.mem := ((entryAbort_keeps (β := true) .rfl why).memSame rfl).1
  refine ⟨?_, ?_, ?_, ?_, ?_, ?_, hmem⟩ <;> show _ = _ <;> rw [show t = _ from entryAbort_stages why s]
  · exact (hnote.fieldIn (by decide)).trans hphase
  · exact (hnote.fieldIn (by decide)).trans habort
  · exact fis_note honly.wf _ (by decide) (by decide) _
  all_goals
    rw [hpow]
    rfl

theorem rd_entryAbort {why : Nat} (hwhy : why < 16) {s : State} (h : Registers.wf s = true) :
    rd 0x400F0008 (entryAbort why s) = rd 0x400F0008 s := by
  obtain ⟨hback, hrd⟩ := entryBack_shows h
  have honly := (entryEnded_shows hwhy hback).1
  rw [entryAbort_stages]
  exact ((noted_abort honly.wf).rd (by decide)).trans ((honly.rd (by decide)).trans (hrd 0x400F0008 (by decide)))

theorem hsGet_entryAbort {why : Nat} (hwhy : why < 16) {s : State} (h : Registers.wf s = true) (p : Nat) :
    hsGet p (entryAbort why s) = hsGet p s :=
  congrArg (bitsOf · (2 * p) 2) (rd_entryAbort hwhy h)

/-! ### Registers of the PWR block below the domains' -/

/-- The registers stay canonical, and those of the PWR block below PWR_DOM0 stay. -/
structure Steady (s t : State) : Prop where
  wf : Registers.wf t = true
  rd : ∀ a, 0x400F0000 ≤ a → a < 0x400F0028 → rd a t = rd a s

namespace Steady

variable {s t u : State}

theorem refl (h : Registers.wf s = true) : Steady s s := ⟨h, fun _ _ _ => rfl⟩

theorem of_regs (h : Steady s t) (e : u.regs = t.regs) : Steady s u :=
  ⟨(Registers.wf_of_regs e).trans h.wf, fun a hlo hhi => (congrArg (fun r => tget regReset r a) e).trans (h.rd a hlo hhi)⟩

theorem wr (h : Steady s t) {a : Nat} (ha : a < 0x400F0000 ∨ 0x400F0028 ≤ a) (v : Word) : Steady s (wr a v t) :=
  ⟨Registers.wf_wr h.wf _ _, fun x hlo hhi => (rd_wr_ne h.wf _ (by omega)).trans (h.rd x hlo hhi)⟩

theorem fset (h : Steady s t) {b : Nat} {f : Fld} (ha : b + f.off < 0x400F0000 ∨ 0x400F0028 ≤ b + f.off) (v : Nat) :
    Steady s (fset b f v t) := h.wr ha _

theorem ite {c : Prop} [Decidable c] (ht : Steady s t) (hu : Steady s u) : Steady s (if c then t else u) := by
  split <;> assumption

theorem pdSet (h : Steady s t) (d : Nat) (on : Bool) : Steady s (pdSet d on t) := h.wr (.inr (Nat.le_add_right _ _)) _

theorem domainOff (h : Steady s t) {d : Nat} (hd : d ≠ 3) : Steady s (domainOff d t) := by
  obtain ⟨hwf, hrd, -⟩ := domainOff_shows h.wf hd
  refine ⟨hwf, fun a hlo hhi => (hrd a (.inl (by omega)) ?_).trans (h.rd a hlo hhi)⟩
  unfold pdWord
  omega

theorem radioOwner (h : Steady s t) (lantern : Bool) : Steady s (radioOwner lantern t) :=
  ((h.fset (b := feB .a) (f := FE_OWNER.OWNER) (by decide) _).fset (b := feB .a) (f := FE_STAT.OWNER) (by decide) _).fset
    (by decide) _

theorem foldl {α : Type} (f : State → α → State) :
    ∀ (r : List α), (∀ x ∈ r, ∀ {u}, Steady s u → Steady s (f u x)) → ∀ {t : State}, Steady s t → Steady s (r.foldl f t)
  | [], _, _, h => h
  | x :: r, H, _, h => foldl f r (fun y hy => H y (List.mem_cons_of_mem _ hy)) (H x (List.mem_cons_self ..) h)

end Steady

/-! ### The commit point (R582, R586) -/

theorem memLose_regs (d : Nat) (s : State) : (memLose d s).regs = s.regs := rfl

/-- PHASE is set first, and what the commit point does then leaves the PWR block below the domains. -/
theorem entryCommit_steady {s : State} (h : Registers.wf s = true) :
    Steady (fset pwrB PWR_STAT.PHASE 3 (askEnd s)) (entryCommit s) := by
  have h1 : Steady (fset pwrB PWR_STAT.PHASE 3 (askEnd s)) (fset pwrB PWR_STAT.PHASE 3 (askEnd s)) :=
    .refl (Registers.wf_fset ((Registers.wf_of_regs (Eq.refl s.regs)).trans h) _ _ _)
  unfold entryCommit
  extract_lets target held were off s1 src s2 s3 s4 s5
  have h2 : Steady s1 s2 := h1.of_regs rfl
  have h3 : Steady s1 s3 := .ite ((h2.radioOwner true).fset (by decide) 0) h2
  have h4 : Steady s1 s4 := .ite (h3.fset (by decide) _) h3
  have hknk : Steady s1 (knkMode target s4) := by
    have hput : Steady s1 { s4 with knk := { s4.knk with matched := false } } := h4.of_regs rfl
    exact .ite ((hput.fset (b := knkB) (f := KNK_STAT.STATE) (by decide) 0).pdSet 1 false) h4
  have h5 : Steady s1 s5 := by
    refine Steady.foldl _ _ (fun d _ u hu => ?_) hknk
    have hlose : Steady s1 (if d = 2 then memLose 2 u else u) := .ite (hu.of_regs (memLose_regs 2 u)) hu
    by_cases hd : d = 2 ∨ d = 3
    · rw [if_pos hd]
      exact hlose.pdSet d false
    · rw [if_neg hd]
      exact hu.domainOff fun e => hd (.inr e)
  exact .ite h5 (h5.of_regs rfl)

theorem entryCommit_shows {s : State} (h : Registers.wf s = true) :
    phase (entryCommit s) = 3 ∧ ∀ p, hsGet p (entryCommit s) = hsGet p s := by
  have hask : Registers.wf (askEnd s) = true := (Registers.wf_of_regs (Eq.refl s.regs)).trans h
  have hsteady := entryCommit_steady h
  refine ⟨?_, fun p => ?_⟩
  · refine (congrArg (bitsOf · PWR_STAT.PHASE.lo PWR_STAT.PHASE.w) (hsteady.rd 0x400F0004 (by decide) (by decide))).trans ?_
    exact fget_fset_lt hask _ (by decide) (by decide)
  · refine congrArg (bitsOf · (2 * p) 2) ((hsteady.rd 0x400F0008 (by decide) (by decide)).trans ?_)
    exact rd_fset_ne hask _ _ (by decide)

/-! ### An answer is taken (R583) -/

/-- What one participant's answer does. -/
theorem entryTake_one (k : Nat) (s : State) : entryTake [k] s =
    let s1 := hsAns k (partAnswer k s) s
    let s2 := if [k].contains 4 = true ∧ hsGet 4 s1 = 1 then fabAccept s1 else s1
    if ([k].any fun p => hsGet p s2 == 3) = true then entryAbort 1 s2
    else if (s2.pow.asked.all fun p => hsGet p s2 == 1) = true then entryCommit s2 else s2 := rfl

/-- The fabric is not told of an answer that is not its acceptance. -/
theorem contains_four {k v : Nat} (hk : k ≤ 11) (hv : 0 < v ∧ v < 4) (hne : k ≠ 4 ∨ v ≠ 1) (s : State) :
    ¬ ([k].contains 4 = true ∧ hsGet 4 (hsAns k v s) = 1) := by
  rintro ⟨h4, h1⟩
  have hk4 : k = 4 := by
    rw [List.contains_iff_mem] at h4
    exact (List.mem_singleton.1 h4).symm
  subst hk4
  rw [hsGet_hsAns_self hk hv] at h1
  rcases hne with hne | hne
  · exact hne rfl
  · exact hne h1

theorem entryTake_of_answer {k v : Nat} {s : State} (hk : k ≤ 11) (hv : 0 < v ∧ v < 4) (hne : k ≠ 4 ∨ v ≠ 1)
    (hans : partAnswer k s = v) : entryTake [k] s =
      if v = 3 then entryAbort 1 (hsAns k 3 s)
      else if ∀ p ∈ s.pow.asked, hsGet p (hsAns k v s) = 1 then entryCommit (hsAns k v s) else hsAns k v s := by
  have hself := hsGet_hsAns_self hk hv s
  rw [entryTake_one, hans]
  dsimp only
  rw [if_neg (contains_four hk hv hne s), List.any_cons, hself]
  by_cases h3 : v = 3
  · subst h3
    rfl
  · have hall : (((hsAns k v s).pow.asked.all fun p => hsGet p (hsAns k v s) == 1) = true) ↔
        ∀ p ∈ s.pow.asked, hsGet p (hsAns k v s) = 1 := by
      simp only [List.all_eq_true, beq_iff_eq]
      exact Iff.rfl
    rw [if_neg h3, if_neg (by simpa using h3)]
    exact if_congr hall rfl rfl

theorem entryTake_refusal {k : Nat} {s : State} (hk : k ≤ 11) (hans : partAnswer k s = 3) :
    entryTake [k] s = entryAbort 1 (hsAns k 3 s) :=
  (entryTake_of_answer hk (by decide) (.inr (by decide)) hans).trans (if_pos rfl)

theorem entryTake_delay {k : Nat} {s : State} (hk : k ≤ 11) (hasked : k ∈ s.pow.asked) (hans : partAnswer k s = 2) :
    entryTake [k] s = hsAns k 2 s := by
  refine (entryTake_of_answer hk (by decide) (.inr (by decide)) hans).trans ((if_neg (by decide)).trans (if_neg fun h => ?_))
  have := h k hasked
  rw [hsGet_hsAns_self hk (by decide)] at this
  exact absurd this (by decide)

theorem entryTake_open {k q : Nat} {s : State} (hk : k ≤ 11) (hk4 : k ≠ 4) (hans : partAnswer k s = 1) (hasked : q ∈ s.pow.asked)
    (hq : q ≤ 11) (hne : q ≠ k) (hopen : hsGet q s ≠ 1) : entryTake [k] s = hsAns k 1 s := by
  refine (entryTake_of_answer hk (by decide) (.inl hk4) hans).trans ((if_neg (by decide)).trans (if_neg fun h => hopen ?_))
  rw [← hsGet_hsAns_ne hk hq hne (v := 1) (by decide)]
  exact h q hasked

theorem entryTake_last {k : Nat} {s : State} (hk : k ≤ 11) (hk4 : k ≠ 4) (hans : partAnswer k s = 1)
    (hrest : ∀ q ∈ s.pow.asked, q ≤ 11 ∧ (q ≠ k → hsGet q s = 1)) : entryTake [k] s = entryCommit (hsAns k 1 s) := by
  refine (entryTake_of_answer hk (by decide) (.inl hk4) hans).trans ((if_neg (by decide)).trans (if_pos fun q hmem => ?_))
  obtain ⟨hq, hothers⟩ := hrest q hmem
  by_cases hqk : q = k
  · subst hqk
    exact hsGet_hsAns_self hk (by decide) s
  · rw [hsGet_hsAns_ne hk hq hqk (by decide)]
    exact hothers hqk

end Sys2Proof.Machine
end

section
/-!
THEOREMS. PWR_MODE, the link cores' answers, asking and the commit point (R582–R585, R600).
-/

namespace Sys2Proof.Machine

open Reg

/-! ### PWR_MODE (R582, R600) -/

/-- A write of PWR_MODE with its key and a listed target. -/
theorem pwrModeWrite_listed {data : Word} {s : State} (hk : bitsOf data 16 16 = 0x5057) (ht : bitsOf data 0 3 < 5) :
    pwrModeWrite data s =
      let t := bitsOf data 0 3
      let s1 := fset pwrB PWR_MODE.TARGET t s
      if phase s = 0 then (if t = 0 then s1 else fset pwrB PWR_STAT.PHASE 1 (powPut { s1.pow with target := t } s1))
      else if phase s = 1 ∨ phase s = 2 then
        (if t = 0 then entryAbort 5 s1 else if phase s = 1 then powPut { s1.pow with target := t } s1 else s1)
      else s1 := (if_neg (not_not_intro hk)).trans (if_neg (Nat.not_le.2 ht))

theorem pwrModeWrite_arms {data : Word} {s : State} (hk : bitsOf data 16 16 = 0x5057) (h1 : 1 ≤ bitsOf data 0 3)
    (ht : bitsOf data 0 3 < 5) (hphase : phase s = 0) (h : Registers.wf s = true) :
    let t := pwrModeWrite data s
    phase t = 1 ∧ t.pow.target = bitsOf data 0 3 ∧ fget pwrB PWR_MODE.TARGET t = bitsOf data 0 3 ∧ t.mem = s.mem := by
  have hrun := (pwrModeWrite_listed hk ht).trans ((if_pos hphase).trans (if_neg (Nat.ne_of_gt h1)))
  intro t
  have hset := Registers.wf_fset h pwrB PWR_MODE.TARGET (bitsOf data 0 3)
  have hput : Registers.wf (powPut { s.pow with target := bitsOf data 0 3 } (fset pwrB PWR_MODE.TARGET (bitsOf data 0 3) s)) =
      true := (Registers.wf_of_regs (Eq.refl (fset pwrB PWR_MODE.TARGET (bitsOf data 0 3) s).regs)).trans hset
  rw [show t = _ from hrun]
  refine ⟨fget_fset_lt hput _ (by decide) (by decide), rfl, ?_, rfl⟩
  exact (fget_fset_of_apart hput _ _ (by decide)).trans (fget_fset_lt h _ (bitsOf_lt _ _ _) (by decide))

theorem pwrModeWrite_shows (i : Init) (data : Word) (s : State) (hp : Admits i 0x400F0000 .store s) :
    let target := bitsOf data 0 3
    let s1 := fset pwrB PWR_MODE.TARGET target s
    (bitsOf data 16 16 ≠ 0x5057 →
      exec (.pwrModeWrite i data) s = .next (acknowledge (pwrErr PWR_ERR.CMD s))) ∧
    (bitsOf data 16 16 = 0x5057 → 5 ≤ target →
      exec (.pwrModeWrite i data) s = .next (acknowledge (pwrErr PWR_ERR.RANGE s))) ∧
    (bitsOf data 16 16 = 0x5057 → 1 ≤ target → target < 5 → phase s = 0 → Registers.wf s = true →
      ∃ t, exec (.pwrModeWrite i data) s = .next t ∧ phase t = 1 ∧ t.pow.target = target ∧
        fget pwrB PWR_MODE.TARGET t = target ∧ t.mem = s.mem) ∧
    (bitsOf data 16 16 = 0x5057 → target = 0 → phase s = 0 → exec (.pwrModeWrite i data) s = .next (acknowledge s1)) ∧
    (bitsOf data 16 16 = 0x5057 → target = 0 → phase s = 1 ∨ phase s = 2 → Registers.wf s = true →
      ∃ t, exec (.pwrModeWrite i data) s = .next t ∧ phase t = 0 ∧ fget pwrB PWR_STAT.ABORT_WHY t = 5 ∧
        fis pwrB PWR_NOTE.ENTRY_ABORT t = true) ∧
    (bitsOf data 16 16 = 0x5057 → target < 5 → 3 ≤ phase s →
      exec (.pwrModeWrite i data) s = .next (acknowledge s1)) := by
  intro target s1
  have hrun : exec (.pwrModeWrite i data) s = .next (acknowledge (pwrModeWrite data s)) := congrArg _ (doorStore_admits hp)
  have hto {u : State} (hu : pwrModeWrite data s = u) : exec (.pwrModeWrite i data) s = .next (acknowledge u) :=
    hrun.trans (congrArg Host.Outcome.next (congrArg acknowledge hu))
  refine ⟨fun hk => hto (if_pos hk), fun hk ht => hto ((if_neg (not_not_intro hk)).trans (if_pos ht)),
    fun hk h1 ht hphase h => ⟨_, hrun, pwrModeWrite_arms hk h1 ht hphase h⟩, fun hk ht hphase => ?_, fun hk ht hphase h => ?_,
    fun hk ht hphase => ?_⟩
  · exact hto ((pwrModeWrite_listed hk (show target < 5 by omega)).trans ((if_pos hphase).trans (if_pos ht)))
  · have habort : pwrModeWrite data s = entryAbort 5 s1 := (pwrModeWrite_listed hk (show target < 5 by omega)).trans
      ((if_neg (by omega)).trans ((if_pos hphase).trans (if_pos ht)))
    obtain ⟨hzero, hwhy, hnote, -⟩ := entryAbort_shows (why := 5) (by decide)
      (Registers.wf_fset h pwrB PWR_MODE.TARGET target)
    exact ⟨_, hto habort, hzero, hwhy, hnote⟩
  · exact hto ((pwrModeWrite_listed hk ht).trans ((if_neg (by omega)).trans (if_neg (by omega))))

/-! ### PWR_LCACK and the limit (R583, R600) -/

/-- A link core's answer stands for the participant it is. -/
theorem partAnswer_linkCore {n : Nat} (hn : n < 2) {s : State} (h : lcAns n s = 3) : partAnswer (8 + n) s = 3 := by
  have hcases : n = 0 ∨ n = 1 := by omega
  rcases hcases with rfl | rfl <;> exact if_pos h

/-- The answer a link core has written. -/
def lcWritten (n : BitVec 1) (v : Nat) (s : State) : State :=
  powPut (if n = 0 then { s.pow with lcAns0 := v } else { s.pow with lcAns1 := v }) s

theorem lcWritten_pow (n : BitVec 1) (v : Nat) (s : State) : (lcWritten n v s).pow.asked = s.pow.asked ∧
    lcAns n.toNat (lcWritten n v s) = v := by
  have hn : n = 0 ∨ n = 1 := by
    have : n.toNat < 2 := n.isLt
    have hcases : n.toNat = 0 ∨ n.toNat = 1 := by omega
    exact hcases.imp (fun h => BitVec.eq_of_toNat_eq h) fun h => BitVec.eq_of_toNat_eq h
  rcases hn with rfl | rfl <;> exact ⟨rfl, rfl⟩

theorem pwrLcack_runs {n : BitVec 1} {data : Word} {s : State} (hk : bitsOf data 16 16 = 0x4C41) (hv : bitsOf data 0 2 ≠ 0) :
    pwrLcack (.linkCore n) data s =
      if phase s = 2 ∧ s.pow.asked.contains (8 + n.toNat) = true ∧ hsGet (8 + n.toNat) s ≠ 1 ∧ bitsOf data 0 2 ≠ 1 then
        entryTake [8 + n.toNat] (lcWritten n (bitsOf data 0 2) s)
      else lcWritten n (bitsOf data 0 2) s := by
  have hasked := (lcWritten_pow n (bitsOf data 0 2) s).1
  refine (if_neg fun h => h.elim (fun h => h hk) hv).trans ?_
  have hiff : (phase (lcWritten n (bitsOf data 0 2) s) = 2 ∧
      (lcWritten n (bitsOf data 0 2) s).pow.asked.contains (8 + n.toNat) = true ∧
      hsGet (8 + n.toNat) (lcWritten n (bitsOf data 0 2) s) ≠ 1 ∧ bitsOf data 0 2 ≠ 1) ↔
      (phase s = 2 ∧ s.pow.asked.contains (8 + n.toNat) = true ∧ hsGet (8 + n.toNat) s ≠ 1 ∧ bitsOf data 0 2 ≠ 1) := by
    rw [hasked]
    rfl
  exact if_congr hiff rfl rfl

theorem pwrLcack_shows (n : BitVec 1) (data : Word) (s : State) (hp : Admits (.linkCore n) 0x400F001C .store s) :
    let v := bitsOf data 0 2
    let kept := powPut (if n = 0 then { s.pow with lcAns0 := v } else { s.pow with lcAns1 := v }) s
    (bitsOf data 16 16 ≠ 0x4C41 ∨ v = 0 → exec (.pwrLcackWrite (.linkCore n) data) s = .next (acknowledge s)) ∧
    (bitsOf data 16 16 = 0x4C41 → v ≠ 0 → v = 1 ∨ phase s ≠ 2 →
      exec (.pwrLcackWrite (.linkCore n) data) s = .next (acknowledge kept)) ∧
    (bitsOf data 16 16 = 0x4C41 → v = 3 → phase s = 2 → s.pow.asked.contains (8 + n.toNat) = true →
      hsGet (8 + n.toNat) s ≠ 1 → Registers.wf s = true →
      ∃ t, exec (.pwrLcackWrite (.linkCore n) data) s = .next t ∧ phase t = 0 ∧
        fget pwrB PWR_STAT.ABORT_WHY t = 1 ∧ hsGet (8 + n.toNat) t = 3) := by
  intro v kept
  have hto {u : State} (hu : pwrLcack (.linkCore n) data s = u) :
      exec (.pwrLcackWrite (.linkCore n) data) s = .next (acknowledge u) :=
    congrArg Host.Outcome.next ((doorStore_admits hp).trans (congrArg acknowledge hu))
  refine ⟨fun h => hto (if_pos h), fun hk hv h => hto ((pwrLcack_runs hk hv).trans (if_neg ?_)),
    fun hk hv hphase hasked hopen h => ?_⟩
  · rintro ⟨hphase, -, -, hne⟩
    exact h.elim hne fun h => h hphase
  · have hn : n.toNat < 2 := n.isLt
    have hans : partAnswer (8 + n.toNat) (lcWritten n v s) = 3 :=
      partAnswer_linkCore hn ((lcWritten_pow n v s).2.trans hv)
    have hrun : pwrLcack (.linkCore n) data s = entryAbort 1 (hsAns (8 + n.toNat) 3 (lcWritten n v s)) :=
      ((pwrLcack_runs hk (show v ≠ 0 by omega)).trans (if_pos ⟨hphase, hasked, hopen, show v ≠ 1 by omega⟩)).trans
        (entryTake_refusal (by omega) hans)
    have hwritten : Registers.wf (lcWritten n v s) = true := (Registers.wf_of_regs (Eq.refl s.regs)).trans h
    have hanswered := (hsAns_only hwritten (8 + n.toNat) 3).wf
    obtain ⟨hzero, hwhy, -⟩ := entryAbort_shows (why := 1) (by decide) hanswered
    exact ⟨_, hto hrun, hzero, hwhy, (hsGet_entryAbort (by decide) hanswered _).trans
      (hsGet_hsAns_self (by omega) (by decide) _)⟩

theorem hsTimeout_shows (s : State) :
    (phase s ≠ 2 ∨ (∀ p ∈ s.pow.asked, hsGet p s = 1) → hsTimeout s = s) ∧
    (phase s = 2 → (∃ p ∈ s.pow.asked, hsGet p s ≠ 1) → hsTimeout s = entryAbort 2 s) := by
  refine ⟨fun h => if_neg ?_, fun hphase ⟨p, hp, hopen⟩ => if_pos ⟨hphase, List.any_eq_true.2 ⟨p, hp, bne_iff_ne.2 hopen⟩⟩⟩
  rintro ⟨hphase, hany⟩
  obtain ⟨p, hp, hopen⟩ := List.any_eq_true.1 hany
  exact h.elim (fun h => h hphase) fun h => bne_iff_ne.1 hopen (h p hp)

/-! ### Asking (R582, R583) -/

/-- The Steward waits, and the answers are cleared. -/
def askingBegun (s : State) : State :=
  fset pwrB PWR_STAT.PHASE 2 (coreSet 0 { coreGet 0 s with waiting := true } (wr (pwrB + 8) 0 s))

/-- The power manager alone is asked. -/
def askingAlone (s : State) : State :=
  powPut { s.pow with asked := [11], feWere := [feHeld .a s, feHeld .b s], lanesWere := [] } (askingBegun s)

theorem askingBegun_only {s : State} (h : Registers.wf s = true) :
    Only (page pwrB [regOff 8, PWR_STAT.PHASE]) s (askingBegun s) ∧ phase (askingBegun s) = 2 := by
  have h1 : Only (page pwrB [regOff 8, PWR_STAT.PHASE]) s
      (coreSet 0 { coreGet 0 s with waiting := true } (wr (pwrB + 8) 0 s)) :=
    ((Only.refl h).wrIn (off := 8) (by decide) 0).of_regs (coreSet_regs _ 0 _)
  exact ⟨h1.fsetIn (by decide) 2, fget_fset_lt h1.wf _ (by decide) (by decide)⟩

theorem entryWfi_asks {s : State} (hphase : phase s = 1) (hnone : claimable 0 s = none) : entryWfi s =
    if ((List.range 4).any fun c => powersOff s.pow.target (6 + c) s && !fis (coreReg c) LEDG_CORE.PARKED s) = true then
      entryAbort 4 (askingBegun s)
    else
      let ps := partsAsked s.pow.target s
      let s2 := powPut { (askingBegun s).pow with asked := ps, feWere := [feHeld .a s, feHeld .b s], lanesWere := [] } (askingBegun s)
      let s3 := if ps.contains 8 || ps.contains 9 then raiseEvt 829 s2 else s2
      let s4 := if ps.contains 0 then feAsk .a s3 else s3
      entryTake ps (if ps.contains 1 then feAsk .b s4 else s4) :=
  if_neg fun h => h.elim (fun h => h hphase) fun h => by
    rw [hnone] at h
    cases h

theorem entryWfi_alone {s : State} (hphase : phase s = 1) (hnone : claimable 0 s = none)
    (hparts : partsAsked s.pow.target s = [11])
    (hcores : ∀ c < 4, powersOff s.pow.target (6 + c) s = true → fis (coreReg c) LEDG_CORE.PARKED s = true) :
    entryWfi s = entryTake [11] (askingAlone s) := by
  refine (entryWfi_asks hphase hnone).trans ((if_neg fun h => ?_).trans ?_)
  · obtain ⟨c, hc, hoff⟩ := List.any_eq_true.1 h
    obtain ⟨hpower, hparked⟩ := (Bool.and_eq_true _ _).mp hoff
    rw [hcores c (List.mem_range.1 hc) hpower] at hparked
    cases hparked
  · rw [hparts]
    rfl

theorem entryWfi_shows (s : State) :
    (phase s ≠ 1 ∨ (claimable 0 s).isSome = true → exec .entryWfi s = .next s) ∧
    (phase s = 1 → claimable 0 s = none → Registers.wf s = true →
      (∃ c < 4, powersOff s.pow.target (6 + c) s = true ∧ fis (coreReg c) LEDG_CORE.PARKED s = false) →
      ∃ t, exec .entryWfi s = .next t ∧ phase t = 0 ∧ fget pwrB PWR_STAT.ABORT_WHY t = 4) ∧
    (phase s = 1 → claimable 0 s = none → Registers.wf s = true → partsAsked s.pow.target s = [11] →
      (∀ c < 4, powersOff s.pow.target (6 + c) s = true → fis (coreReg c) LEDG_CORE.PARKED s = true) →
      (fis pwrB PWR_VSTAT.PEND s = true → ∃ t, exec .entryWfi s = .next t ∧ phase t = 2 ∧ hsGet 11 t = 2 ∧
        (coreGet 0 t).waiting = true) ∧
      (fis pwrB PWR_VSTAT.PEND s = false → ∃ t, exec .entryWfi s = .next t ∧ phase t = 3 ∧ hsGet 11 t = 1)) := by
  refine ⟨fun h => congrArg Host.Outcome.next (if_pos h), fun hphase hnone h ⟨c, hc, hoff, hparked⟩ => ?_,
    fun hphase hnone h hparts hcores => ?_⟩
  · have hrun : entryWfi s = entryAbort 4 (askingBegun s) :=
      (entryWfi_asks hphase hnone).trans (if_pos (List.any_eq_true.2 ⟨c, List.mem_range.2 hc, by rw [hoff, hparked]; rfl⟩))
    obtain ⟨hzero, hwhy, -⟩ := entryAbort_shows (why := 4) (by decide) (askingBegun_only h).1.wf
    exact ⟨_, congrArg Host.Outcome.next hrun, hzero, hwhy⟩
  · obtain ⟨honly, hasking⟩ := askingBegun_only h
    have hrun := entryWfi_alone hphase hnone hparts hcores
    have halone : Registers.wf (askingAlone s) = true := (Registers.wf_of_regs (Eq.refl (askingBegun s).regs)).trans honly.wf
    have hpend : fis pwrB PWR_VSTAT.PEND (askingAlone s) = fis pwrB PWR_VSTAT.PEND s := honly.flagIn (by decide)
    refine ⟨fun hp => ⟨_, congrArg Host.Outcome.next (hrun.trans (entryTake_delay (by decide) (List.mem_singleton.2 rfl) ?_)),
        ?_, hsGet_hsAns_self (by decide) (by decide) _, ?_⟩,
      fun hp => ⟨_, congrArg Host.Outcome.next (hrun.trans (entryTake_last (by decide) (by decide) ?_ ?_)), ?_, ?_⟩⟩
    · exact if_pos (hpend.trans hp)
    · exact ((hsAns_only halone 11 2).fieldIn (by decide)).trans hasking
    · have hcore : coreGet 0 (hsAns 11 2 (askingAlone s)) = { coreGet 0 s with waiting := true } :=
        tget_tset_of_ne (fun e => by cases congrArg CoreCtx.waiting e) s.rooms.cores
      rw [hcore]
    · exact if_neg (by rw [hpend, hp]; decide)
    · intro q hq
      rw [List.mem_singleton.1 hq]
      exact ⟨by decide, fun hne => absurd rfl hne⟩
    · exact (entryCommit_shows (hsAns_only halone 11 1).wf).1
    · exact ((entryCommit_shows (hsAns_only halone 11 1).wf).2 11).trans (hsGet_hsAns_self (by decide) (by decide) _)

theorem participantAnswer_shows (p : Fin 12) (s : State) :
    let k := p.val
    (phase s ≠ 2 ∨ s.pow.asked.contains k = false ∨ hsGet k s = 1 → exec (.participantAnswer p) s = .next s) ∧
    (phase s = 2 → s.pow.asked.contains k = true → hsGet k s ≠ 1 → 2 ≤ k → k ≠ 8 → k ≠ 9 →
      (partAnswer k s = 3 → exec (.participantAnswer p) s = .next (entryAbort 1 (hsAns k 3 s))) ∧
      (partAnswer k s = 2 → exec (.participantAnswer p) s = .next (hsAns k 2 s)) ∧
      (partAnswer k s = 1 → k ≠ 4 → (∃ q ∈ s.pow.asked, q ≤ 11 ∧ q ≠ k ∧ hsGet q s ≠ 1) →
        exec (.participantAnswer p) s = .next (hsAns k 1 s)) ∧
      (partAnswer k s = 1 → k ≠ 4 → (∀ q ∈ s.pow.asked, q ≤ 11 ∧ (q ≠ k → hsGet q s = 1)) →
        exec (.participantAnswer p) s = .next (entryCommit (hsAns k 1 s)))) := by
  intro k
  have hk : k ≤ 11 := by
    have := p.isLt
    omega
  refine ⟨fun h => congrArg Host.Outcome.next (if_pos h), fun hphase hasked hopen h2 h8 h9 => ?_⟩
  have hrun : partAnswers k s = entryTake [k] s := by
    refine (if_neg ?_).trans (congrArg (entryTake [k]) ?_)
    · rintro (h | h | h)
      · exact h hphase
      · exact Bool.false_ne_true (h.symm.trans hasked)
      · exact hopen h
    · exact (if_neg (by omega)).trans ((if_neg (by omega)).trans (if_neg fun h => h.1.elim h8 h9))
  have hmem : k ∈ s.pow.asked := List.contains_iff_mem.1 hasked
  refine ⟨fun hans => congrArg Host.Outcome.next (hrun.trans (entryTake_refusal hk hans)),
    fun hans => congrArg Host.Outcome.next (hrun.trans (entryTake_delay hk hmem hans)),
    fun hans hk4 ⟨q, hq, hle, hne, hwaits⟩ => congrArg Host.Outcome.next (hrun.trans (entryTake_open hk hk4 hans hq hle hne hwaits)),
    fun hans hk4 hrest => congrArg Host.Outcome.next (hrun.trans (entryTake_last hk hk4 hans hrest))⟩

theorem partAnswer_shows (s : State) :
    (fis (feB .a) FE_STAT.ARMED s = true → partAnswer 0 s = 3) ∧
    (fis (feB .b) FE_STAT.ARMED s = true → partAnswer 1 s = 3) ∧
    (partAnswer 2 s = if (feGet .a s).residence then 2 else 1) ∧
    (partAnswer 3 s = if (feGet .b s).residence then 2 else 1) ∧
    (partAnswer 4 s = if s.plan.work = .idle then 1 else 3) ∧
    (∀ k < 2, partAnswer (5 + k) s = if bankState k s = 0 then 1 else if bankState k s = 1 then 2 else 3) ∧
    (jobsArmed s = true → partAnswer 7 s = 3) ∧
    (∀ n < 2, lcAns n s = 3 → partAnswer (8 + n) s = 3) ∧
    (∀ n < 2, lcAns n s = 1 → (coreGet (1 + n) s).waiting = true → partAnswer (8 + n) s = 1) ∧
    (updState s = 0 ∨ updState s = 5 → partAnswer 10 s = 1) ∧
    (updState s = 1 ∨ updState s = 2 ∨ updState s = 3 ∨ updState s = 4 → partAnswer 10 s = 3) ∧
    (partAnswer 11 s = if fis pwrB PWR_VSTAT.PEND s then 2 else 1) := by
  have hflash (k : Nat) : (match bankState k s with | 0 => 1 | 1 => 2 | _ => 3) =
      if bankState k s = 0 then 1 else if bankState k s = 1 then 2 else 3 := by
    rcases bankState k s with _ | _ | _ <;> rfl
  refine ⟨fun h => if_pos h, fun h => if_pos h, rfl, rfl, rfl, fun k hk => ?_, fun h => if_pos h,
    fun n hn h => partAnswer_linkCore hn h, fun n hn h1 hw => ?_, fun h => if_pos h, fun h => ?_, rfl⟩
  · have hcases : k = 0 ∨ k = 1 := by omega
    rcases hcases with rfl | rfl
    · exact hflash 0
    · exact hflash 1
  · have hcases : n = 0 ∨ n = 1 := by omega
    rcases hcases with rfl | rfl <;> exact (if_neg (by rw [h1]; decide)).trans (if_pos ⟨h1, hw⟩)
  · have hst : fget 0x400E0000 UPD_STAT.STATE s = updState s := rfl
    show (if fget 0x400E0000 UPD_STAT.STATE s = 0 ∨ _ then 1 else if _ then 2 else 3) = 3
    rw [hst, if_neg (by omega), if_neg (by omega)]

/-- Settles O50. -/
theorem modeEntry : Obligations.ModeEntry := by
  unfold Obligations.ModeEntry
  refine ⟨⟨pwrModeWrite_shows, pwrLcack_shows, fun s => ?_, fun why s hwhy h => entryAbort_shows hwhy h⟩, entryWfi_shows,
    participantAnswer_shows, partAnswer_shows, fun target s => ?_⟩
  · obtain ⟨hidle, habort⟩ := hsTimeout_shows s
    exact ⟨fun h => congrArg Host.Outcome.next (hidle h), fun hphase h => congrArg Host.Outcome.next (habort hphase h)⟩
  · exact List.mem_filter.2 ⟨by decide, rfl⟩

end Sys2Proof.Machine

namespace Sys2Proof.Tests
open Sys2Proof.Machine

set_option maxRecDepth 8000

/-- The Steward arms an entry to DOZE. -/
theorem test_hyps_modeEntry : ∃ t, exec (.pwrModeWrite .steward 0x50570001#32) house = .next t ∧ phase t = 1 ∧
    t.pow.target = 1 := by
  obtain ⟨-, -, harm, -⟩ := pwrModeWrite_shows .steward 0x50570001#32 house (by decide)
  obtain ⟨t, ht, hphase, htarget, -⟩ := harm (by decide) (by decide) (by decide) (by decide) (by decide)
  exact ⟨t, ht, hphase, htarget⟩

end Sys2Proof.Tests
end

section
/-!
SUPPORT. Wakes and the ends of modes (R587, R588, R595–R597): the wake record, a hall reset, and what follows a mode's end.
-/

namespace Sys2Proof.Machine

open Reg

/-! ### The wake record (R596) -/

/-- The first word of a wake record. -/
def wakeWord (seq src ev mode : Nat) (entry fail : Bool) : Nat :=
  seq * 2 ^ 24 + ev * 2 ^ 10 + ofBool fail * 2 ^ 8 + ofBool entry * 2 ^ 7 + mode * 2 ^ 4 + src

theorem ofBool_lt (x : Bool) : ofBool x < 2 := by cases x <;> decide

theorem wakeWord_fields (seq ev : Nat) {src mode : Nat} (entry fail : Bool) (hsrc : src < 16) (hmode : mode < 8) :
    let w : Word := BitVec.ofNat 32 (wakeWord seq src ev mode entry fail)
    bitsOf w 0 4 = src ∧ bitsOf w 4 3 = mode ∧ bitsOf w 7 1 = ofBool entry ∧ bitsOf w 8 1 = ofBool fail := by
  have hfail := ofBool_lt fail
  have hentry := ofBool_lt entry
  simp only [wakeWord, bitsOf, BitVec.toNat_ofNat, Nat.shiftRight_eq_div_pow]
  generalize ofBool fail = f at hfail ⊢
  generalize ofBool entry = e at hentry ⊢
  refine ⟨?_, ?_, ?_, ?_⟩ <;> omega

/-- The registers of the wake record and its history. -/
abbrev wakeRegs : List Nat := [0x14, 0x18, 0x40, 0x44, 0x48, 0x4C, 0x50, 0x54, 0x58, 0x5C, 0x60, 0x64, 0x68, 0x6C, 0x70, 0x74, 0x78, 0x7C]

/-- The history moves one place on. -/
def wakeShifted (s : State) : State := [7, 6, 5, 4, 3, 2, 1].foldl
  (fun t k => wr (pmbB + 0x44 + 8 * k) (rd (pmbB + 0x3C + 8 * k) t) (wr (pmbB + 0x40 + 8 * k) (rd (pmbB + 0x38 + 8 * k) t) t)) s

theorem wakeShifted_only {s : State} (h : Registers.wf s = true) :
    Only (wakeRegs.map fun o => regAt (pmbB + o)) s (wakeShifted s) := by
  have hstep (k : Nat) (hk : regAt (pmbB + 0x44 + 8 * k) ∈ wakeRegs.map fun o => regAt (pmbB + o))
      (hk' : regAt (pmbB + 0x40 + 8 * k) ∈ wakeRegs.map fun o => regAt (pmbB + o)) (v w : Word) {t : State}
      (ht : Only (wakeRegs.map fun o => regAt (pmbB + o)) s t) :
      Only (wakeRegs.map fun o => regAt (pmbB + o)) s (wr (pmbB + 0x44 + 8 * k) v (wr (pmbB + 0x40 + 8 * k) w t)) :=
    (ht.wr hk' w).wr hk v
  unfold wakeShifted
  simp only [List.foldl_cons, List.foldl_nil]
  exact hstep 1 (by decide) (by decide) _ _ (hstep 2 (by decide) (by decide) _ _ (hstep 3 (by decide) (by decide) _ _
    (hstep 4 (by decide) (by decide) _ _ (hstep 5 (by decide) (by decide) _ _ (hstep 6 (by decide) (by decide) _ _
      (hstep 7 (by decide) (by decide) _ _ (.refl h)))))))

theorem wakeRecord_stages (src ev mode : Nat) (entry fail : Bool) (s : State) : wakeRecord src ev mode entry fail s =
    let a : Word := BitVec.ofNat 32 (wakeWord ((fget pmbB WAKE_LAST_A.SEQ s + 1) % 256) src (if src = 7 then ev else 0) mode
      entry fail)
    wr 0x70030018 (rd 0x70000000 s) (wr 0x70030014 a (wr 0x70030044 (rd 0x70000000 s) (wr 0x70030040 a (wakeShifted s)))) := rfl

/-- A record as the registers show it. -/
theorem wakeRecord_shows {src mode : Nat} (ev : Nat) (entry fail : Bool) (hsrc : src < 16) (hmode : mode < 8)
    {s : State} (h : Registers.wf s = true) :
    let t := wakeRecord src ev mode entry fail s
    Only (wakeRegs.map fun o => regAt (pmbB + o)) s t ∧ fget pmbB WAKE_LAST_A.SRC t = src ∧ fget pmbB WAKE_LAST_A.MODE t = mode ∧
      fget pmbB WAKE_LAST_A.ENTRY t = ofBool entry ∧ fget pmbB WAKE_LAST_A.FAIL t = ofBool fail ∧
      rd 0x70030018 t = rd 0x70000000 s ∧ rd 0x70030040 t = rd 0x70030014 t := by
  intro t
  have hshift := wakeShifted_only h
  have hfields := wakeWord_fields ((fget pmbB WAKE_LAST_A.SEQ s + 1) % 256) (if src = 7 then ev else 0) entry fail hsrc hmode
  have ht : t = _ := wakeRecord_stages src ev mode entry fail s
  generalize (BitVec.ofNat 32 (wakeWord ((fget pmbB WAKE_LAST_A.SEQ s + 1) % 256) src (if src = 7 then ev else 0) mode
    entry fail) : Word) = a at hfields ht
  generalize rd 0x70000000 s = b at ht ⊢
  have h1 : Only (wakeRegs.map fun o => regAt (pmbB + o)) s (wr 0x70030040 a (wakeShifted s)) := hshift.wr (by decide) a
  have h2 : Only (wakeRegs.map fun o => regAt (pmbB + o)) s (wr 0x70030044 b (wr 0x70030040 a (wakeShifted s))) :=
    h1.wr (by decide) b
  have h3 := h2.wr (a := 0x70030014) (by decide) a
  have hlast : rd 0x70030014 t = a := by
    rw [ht]
    exact (rd_wr_ne h3.wf _ (by decide)).trans (rd_wr_self h2.wf _ _)
  obtain ⟨hs, hm, he, hf⟩ := hfields
  refine ⟨by rw [ht]; exact h3.wr (by decide) b, ?_, ?_, ?_, ?_, by rw [ht]; exact rd_wr_self h3.wf _ _, ?_⟩
  · exact (congrArg (bitsOf · 0 4) hlast).trans hs
  · exact (congrArg (bitsOf · 4 3) hlast).trans hm
  · exact (congrArg (bitsOf · 7 1) hlast).trans he
  · exact (congrArg (bitsOf · 8 1) hlast).trans hf
  · rw [hlast, ht]
    exact (rd_wr_ne h3.wf _ (by decide)).trans ((rd_wr_ne h2.wf _ (by decide)).trans ((rd_wr_ne h1.wf _ (by decide)).trans
      (rd_wr_self hshift.wf _ _)))

theorem wakeRecord_same {α : Type} (p : State → α) (hp : ∀ a v u, p (wr a v u) = p u) (src ev mode : Nat) (entry fail : Bool)
    (s : State) : p (wakeRecord src ev mode entry fail s) = p s := by
  rw [wakeRecord_stages]
  simp only [hp, wakeShifted, List.foldl_cons, List.foldl_nil]

/-! ### A hall reset (R654–R656) -/

/-- The places a cause is recorded at. -/
abbrev causePlaces : List Place := [(pmbB, RST_STAT.CAUSE), regAt (pmbB + 0x304)]

theorem causeSeen_only {s : State} (h : Registers.wf s = true) (cause : Nat) : Only causePlaces s (causeSeen cause s) :=
  ((Only.refl h).wr (a := pmbB + 0x304) (by decide) _).fset (by decide) _

theorem causeSeen_pow (cause : Nat) (s : State) : (causeSeen cause s).pow = s.pow := rfl

theorem lanternKeep_lantern {a : Nat} (h : 0x70000000 ≤ a) : lanternKeep a = 0xFFFFFFFF#32 := by
  unfold lanternKeep
  exact if_pos h

theorem keep_lantern (por : Bool) {a : Nat} (h : 0x70000000 ≤ a) :
    (if por then lanternKeep else hallKeep) a = 0xFFFFFFFF#32 := by
  cases por
  · exact hallKeep_lantern h
  · exact lanternKeep_lantern h

/-- The hall as it stands after its reset. -/
def hallFresh (por : Bool) (s : State) : State :=
  powPut { pmb := s.pow.pmb, hall := s.pow.hall, porReset := por, owed := s.pow.owed }
    (hallClear por (if por then lanternKeep else hallKeep) s)

/-- A part of the state beside the power state, as the blocks' reset leaves it. -/
theorem hallFresh_same {α : Type} (p : State → α) (hp : ∀ v u, p (powPut v u) = p u) (por : Bool) (s : State) :
    p (hallFresh por s) = p (hallClear por (if por then lanternKeep else hallKeep) s) := hp _ _

/-- The lantern's registers, the duty accounts and the times of a hall that was reset. -/
theorem hallFresh_shows {s : State} (h : Registers.wf s = true) (por : Bool) :
    Registers.wf (hallFresh por s) = true ∧ (∀ a, 0x70000000 ≤ a → Spared a → rd a (hallFresh por s) = rd a s) ∧
      (hallFresh por s).link.duty = s.link.duty ∧
      (por = true → (hallFresh por s).time.nt = 0 ∧ (hallFresh por s).time.air = 0) := by
  obtain ⟨hwf, hrd, hduty, htime⟩ := hallClear_shows h por (if por then lanternKeep else hallKeep)
  refine ⟨(hallFresh_same Registers.wf (fun _ _ => rfl) por s).trans hwf, fun a hlo ha => ?_,
    (hallFresh_same (·.link.duty) (fun _ _ => rfl) por s).trans hduty, fun hp => ?_⟩
  · exact (hallFresh_same (rd a) (fun _ _ => rfl) por s).trans ((hrd a hlo ha).trans (keptWord_all (keep_lantern por hlo) _))
  · obtain ⟨hnt, hair⟩ := htime hp
    exact ⟨(hallFresh_same (·.time.nt) (fun _ _ => rfl) por s).trans hnt,
      (hallFresh_same (·.time.air) (fun _ _ => rfl) por s).trans hair⟩

theorem hallReset_stages (cause : Nat) (por : Bool) (f : State → State) (s : State) : hallReset cause por f s =
    match s.pow.hall with
    | .pinLow => hallFresh (s.pow.porReset || por) (causeSeen cause s)
    | .erasing _ => hallPut (.erasing true) (hallFresh (s.pow.porReset || por) (causeSeen cause s))
    | _ => f (hallFresh (s.pow.porReset || por) (causeSeen cause s)) := rfl

/-- A start attempt changes no register. -/
theorem startAttempt_shows (s : State) : (startAttempt s).regs = s.regs ∧ (startAttempt s).pow.hall = .waitAck ∧
    (startAttempt s).pow.starts = s.pow.starts + 1 ∧ (startAttempt s).pow.pmb = some (1, 0x80) ∧
    (startAttempt s).link = s.link ∧ (startAttempt s).time = s.time ∧ (startAttempt s).pow.porReset = s.pow.porReset := by
  unfold startAttempt
  by_cases hv : fis pmbB PMB_STAT.VALID s = true
  · simp only [if_pos hv]
    exact ⟨rfl, rfl, rfl, rfl, rfl, rfl, rfl⟩
  · simp only [if_neg hv]
    exact ⟨rfl, rfl, rfl, rfl, rfl, rfl, rfl⟩

/-- A cause recorded while no start is under way. -/
theorem causeSeen_settled {s : State} (h : Registers.wf s = true) (hhall : s.pow.hall = .run ∨ s.pow.hall = .off) {cause : Nat}
    (hc : cause < 16) : fget pmbB RST_STAT.CAUSE (causeSeen cause s) = cause := by
  have hset : causeSeen cause s =
      fset pmbB RST_STAT.CAUSE cause (wr (pmbB + 0x304) (bitsPut (rd (pmbB + 0x304) s) cause 1 1) s) := by
    unfold causeSeen
    rcases hhall with hhall | hhall <;> rw [hhall] <;> rfl
  rw [hset]
  exact fget_fset_lt (Registers.wf_wr h _ _) _ hc (by decide)

/-! ### Queues that are carved anew, and the times that PD31 takes back -/

theorem SparesOn.fset_low {R : Nat → Prop} {s t : State} (h : SparesOn R s t) {b : Nat} {f : Fld} (ha : b + f.off < 0x40070000) (v : Nat) :
    SparesOn R s (Machine.fset b f v t) := h.fset (not_quiet (by omega) (by omega) (by omega) (by omega)) v

theorem SparesOn.queAdvance {R : Nat → Prop} {s : State} {q : Nat} (hq : q < 320) : ∀ (l : List QPacket) {t : State}, SparesOn R s t →
    SparesOn R s (queAdvance q l t)
  | [], _, h => h.same rfl rfl rfl
  | p :: r, t, h => by
    have hptr : SparesOn R s (Machine.fset (quePage q) QUE_RPTR.PTR (queMod q (p.start + p.words) t) t) := by
      refine h.fset_low ?_ _
      have : QUE_RPTR.PTR.off < 0x1000 := by decide
      unfold quePage
      omega
    exact .ite (hptr.queAdvance hq r) (h.same rfl rfl rfl)

theorem SparesOn.queRelease {R : Nat → Prop} {s t : State} (h : SparesOn R s t) {q : Nat} (hq : q < 320) (id : Nat) : SparesOn R s (queRelease q id t) := by
  have hpkts : SparesOn R s (Machine.fset (quePage q) QUE_STAT.PKTS (fget (quePage q) QUE_STAT.PKTS t - 1) t) := by
    refine h.fset_low ?_ _
    have : QUE_STAT.PKTS.off < 0x1000 := by decide
    unfold quePage
    omega
  exact .ite (hpkts.queAdvance hq _) h

theorem SparesOn.jobDone {R : Nat → Prop} {s t : State} (h : SparesOn R s t) {r k : Nat} (hr : r < 64) (hk : k < 4) (code : Nat) :
    SparesOn R s (jobDone r k code t) := by
  have hslot {u : State} (hu : SparesOn R s u) {f : Fld} (hf : f.off < 0x1000) (v : Nat) :
      SparesOn R s (Machine.fset (slotRegs r k) f v u) := by
    refine hu.fset_low ?_ v
    unfold slotRegs jobB
    omega
  have hlink {u : State} (hu : SparesOn R s u) {f : Fld} (hf : linkB + f.off < 0x40070000) : SparesOn R s (linkNote f u) :=
    hu.note (not_quiet (by omega) (by omega) (by omega) (by omega)) _
  unfold Machine.jobDone
  split
  · exact h
  · next j _ =>
    have h1 : SparesOn R s (jobPut r k none t) := h.same rfl rfl rfl
    have h2 := hslot (hslot h1 (f := JOB_RES.STATE) (by decide) 3) (f := JOB_RES.CODE) (by decide) code
    extract_lets s1 s2 s3 s4 s5
    have h3 : SparesOn R s s3 := by
      show SparesOn R s (match j.pkt with | some p => Machine.queRelease (256 + r) p s2 | none => s2)
      split
      · exact h2.queRelease (by omega) _
      · exact h2
    have h4 : SparesOn R s s4 := .ite (hlink h3 (by decide)) h3
    have h5 : SparesOn R s s5 := .ite (hlink h4 (by decide)) h4
    have h6 : SparesOn R s (armedShow j.fe s5) := h5.fe j.fe (by decide) _
    exact .ite (h6.raiseEvt _) h6

theorem jobList_slot {s : State} {e : Nat × Nat × Job} (he : e ∈ jobList s) : e.2.1 < 4 := by
  obtain ⟨p, -, hp⟩ := List.mem_filterMap.1 he
  obtain ⟨j, -, hj⟩ := Option.map_eq_some_iff.1 hp
  rw [← hj]
  exact Nat.mod_lt _ (by decide)

/-- The jobs of a transmit queue end. -/
theorem SparesOn.jobsEnd {R : Nat → Prop} {s t : State} (h : SparesOn R s t) {q : Nat} (hq : q < 320) (code : Nat) :
    SparesOn R s (jobsEnd (fun r _ j => q == 256 + r && j.pkt.isSome) code t) := by
  refine foldl _ _ (fun e he u hu => ?_) h
  dsimp only
  split
  · next hsel =>
    have hr := eq_of_beq ((Bool.and_eq_true _ _).mp hsel).1
    exact hu.jobDone (by omega) (jobList_slot he) code
  · exact hu

theorem SparesOn.queCarve {R : Nat → Prop} {s t : State} (h : SparesOn R s t) {q : Nat} (hq : q < 320) (ring : Word) : SparesOn R s (queCarve q ring t) := by
  have hring : SparesOn R s (Machine.wr (0x40040400 + 4 * q) ring t) := h.wr (not_quiet (by omega) (by omega) (by omega) (by omega)) ring
  have hput : SparesOn R s (quePut q { flushed := queueCarved q t && decide (q < 256) } (Machine.wr (0x40040400 + 4 * q) ring t)) :=
    hring.same rfl rfl rfl
  have hpage {u : State} (hu : SparesOn R s u) {f : Fld} (hf : f.off < 0x1000) (v : Nat) : SparesOn R s (Machine.fset (quePage q) f v u) := by
    refine hu.fset_low ?_ v
    unfold quePage
    omega
  refine (hpage (hpage hput (f := QUE_RPTR.PTR) (by decide) 0) (f := QUE_WPTR.PTR) (by decide) 0).wr ?_ _
  refine not_quiet ?_ ?_ ?_ ?_ <;> unfold quePage <;> omega

theorem SparesOn.planQueues {R : Nat → Prop} {s t : State} (h : SparesOn R s t) (p : Plan) : SparesOn R s (planQueues p t) := by
  refine foldl _ _ (fun q hq u hu => .ite hu ?_) h
  have hlt := List.mem_range.1 hq
  exact (hu.jobsEnd hlt 8).queCarve hlt _

theorem SparesOn.timeNote {R : Nat → Prop} {s t : State} (h : SparesOn R s t) (k : Nat) : SparesOn R s (timeNote k t) :=
  h.note (show ¬ Quiet (timeB + 0x64) by decide) _

/-- What PD31 takes back, for the values of its times and of its error. -/
def timeTaken (v : TimeState) (f : State → Nat) (s : State) : State :=
  let s1 := wr64 (timeB + 0x20) (BitVec.ofNat 64 v.air) (wr64 (timeB + 0x10) (BitVec.ofNat 64 v.nt) (timePut v s))
  let s2 := if timeState s1 = 0 then s1 else timeQual 1 (timeErr ((timeErrNow s1).map fun e => e + f s1) s1)
  timeNote 6 (fset timeB TIME_QUAL.RESUMED 1 s2)

theorem timeResume_taken (g : Nat) (s : State) : ∃ v f, timeResume g s = timeTaken v f s :=
  ⟨_, fun t => (fget timeB TIME_SRCCFG.LF_STAB t * g * 30517578125 + (10 ^ 13 - 1)) / 10 ^ 13, rfl⟩

theorem SparesOn.timeErr {R : Nat → Prop} {s t : State} (h : SparesOn R s t) (v : Option Nat) : SparesOn R s (timeErr v t) := by
  have hset : SparesOn R s (timePut { t.time with err0 := v, errSecs := 0 } t) := h.same rfl rfl rfl
  exact hset.wr (by decide) _

theorem SparesOn.timeQual {R : Nat → Prop} {s t : State} (h : SparesOn R s t) (st : Nat) : SparesOn R s (timeQual st t) := by
  have hput : SparesOn R s (timePut { t.time with lockedAll := false } t) := h.same rfl rfl rfl
  exact .ite h (SparesOn.timeNote ((SparesOn.ite h hput).fset (by decide) _) 0)

theorem SparesOn.timeTaken {R : Nat → Prop} {s t : State} (h : SparesOn R s t) (v : TimeState) (f : State → Nat) : SparesOn R s (timeTaken v f t) := by
  have hput : SparesOn R s (timePut v t) := h.same rfl rfl rfl
  have h1 := (((hput.wr (a := timeB + 0x10) (by decide) (Word64.low (BitVec.ofNat 64 v.nt))).wr (a := timeB + 0x10 + 4) (by decide)
    (Word64.high (BitVec.ofNat 64 v.nt))).wr (a := timeB + 0x20) (by decide) (Word64.low (BitVec.ofNat 64 v.air))).wr
    (a := timeB + 0x20 + 4) (by decide) (Word64.high (BitVec.ofNat 64 v.air))
  exact ((SparesOn.ite h1 ((h1.timeErr _).timeQual 1)).fset (by decide) 1).timeNote 6

theorem SparesOn.timeResume {R : Nat → Prop} {s t : State} (h : SparesOn R s t) (g : Nat) : SparesOn R s (timeResume g t) := by
  obtain ⟨v, f, heq⟩ := timeResume_taken g t
  rw [heq]
  exact h.timeTaken v f

end Sys2Proof.Machine
end

section
/-!
THEOREMS. Modes, wakes and exits (R581, R584, R587, R588, R595–R597).
-/

namespace Sys2Proof.Machine

open Reg

/-! ### A mode is reached (R584, R586) -/

/-- PD31 has handed over, when the target powers it off. -/
def handedOver (nt air : Nat) (s : State) : State :=
  if powersOff s.pow.target 31 s then domainOff 31 (timeHandOff nt air s) else s

theorem handedOver_shows {s : State} (h : Registers.wf s = true) (nt air : Nat) :
    Registers.wf (handedOver nt air s) = true ∧ (handedOver nt air s).pow = s.pow := by
  unfold handedOver
  split
  · obtain ⟨u, hu, heq⟩ := domainOff_spares (s := timeHandOff nt air s) ((Registers.wf_of_regs (Eq.refl s.regs)).trans h)
      (show 31 ≠ 3 by decide)
    rw [heq]
    exact ⟨Registers.wf_wr hu.wf _ _, hu.pow⟩
  · exact ⟨h, rfl⟩

/-- The mode is told, with the hall on or off. -/
def modeTold (u : State) : State :=
  let s2 := powPut { u.pow with mode := u.pow.target, hall := if 3 ≤ u.pow.target then .off else .run } u
  if u.pow.target ≤ 2 then fset pwrB PWR_STAT.PHASE (u.pow.target + 3) s2 else s2

theorem modeTold_pow (u : State) : (modeTold u).pow =
    { u.pow with mode := u.pow.target, hall := if 3 ≤ u.pow.target then .off else .run } := by
  unfold modeTold
  dsimp only
  split <;> rfl

theorem modeReached_told {s : State} (h : Registers.wf s = true) (hphase : phase s = 3) (hhall : s.pow.hall = .run)
    (hmode : s.pow.mode = 0) (hlatched : s.pow.latched = none) (nt air : Nat) :
    modeReached nt air s = modeTold (handedOver nt air s) := by
  have hpow := (handedOver_shows h nt air).2
  have htold : modeReached nt air s =
      let s2 := powPut { (handedOver nt air s).pow with
        mode := s.pow.target, hall := if 3 ≤ s.pow.target then .off else .run } (handedOver nt air s)
      let s3 := if s.pow.target ≤ 2 then fset pwrB PWR_STAT.PHASE (s.pow.target + 3) s2 else s2
      match s3.pow.latched with
      | some (src, ev) => wakeServe src ev true (powPut { s3.pow with latched := none } s3)
      | none => s3 := if_neg (by rintro (h | h | h) <;> exact h (by assumption))
  have hnone : (modeTold (handedOver nt air s)).pow.latched = none := by
    rw [modeTold_pow, hpow]
    exact hlatched
  rw [htold, ← hpow]
  show (match (modeTold (handedOver nt air s)).pow.latched with | some (src, ev) => _ | none => modeTold (handedOver nt air s)) = _
  rw [hnone]

theorem modeReached_shows (nt air : Word64) (s : State) :
    (phase s ≠ 3 ∨ s.pow.hall ≠ .run ∨ s.pow.mode ≠ 0 → exec (.modeReached nt air) s = .next s) ∧
    (phase s = 3 → s.pow.hall = .run → s.pow.mode = 0 → s.pow.latched = none → Registers.wf s = true →
      (s.pow.target = 1 ∨ s.pow.target = 2 → ∃ t, exec (.modeReached nt air) s = .next t ∧
        t.pow.mode = s.pow.target ∧ phase t = s.pow.target + 3 ∧ t.pow.hall = .run) ∧
      (s.pow.target = 3 ∨ s.pow.target = 4 → ∃ t, exec (.modeReached nt air) s = .next t ∧
        t.pow.mode = s.pow.target ∧ t.pow.hall = .off)) := by
  refine ⟨fun h => congrArg Host.Outcome.next (if_pos h), fun hphase hhall hmode hlatched h => ?_⟩
  have hrun : exec (.modeReached nt air) s = .next _ :=
    congrArg Host.Outcome.next (modeReached_told h hphase hhall hmode hlatched nt.toNat air.toNat)
  obtain ⟨hwf, hpow⟩ := handedOver_shows h nt.toNat air.toNat
  have htold := modeTold_pow (handedOver nt.toNat air.toNat s)
  rw [hpow] at htold
  refine ⟨fun ht => ⟨_, hrun, congrArg PowState.mode htold, ?_, ?_⟩, fun ht => ⟨_, hrun, congrArg PowState.mode htold, ?_⟩⟩
  · have hset : modeTold (handedOver nt.toNat air.toNat s) = fset pwrB PWR_STAT.PHASE (s.pow.target + 3) (powPut _ _) :=
      (if_pos (show (handedOver nt.toNat air.toNat s).pow.target ≤ 2 by rw [hpow]; omega)).trans (by rw [hpow])
    rw [hset]
    have hlt : s.pow.target + 3 < 2 ^ PWR_STAT.PHASE.w := by
      show s.pow.target + 3 < 8
      omega
    exact fget_fset_lt ((Registers.wf_of_regs (Eq.refl (handedOver nt.toNat air.toNat s).regs)).trans hwf) _ hlt (by decide)
  · exact (congrArg PowState.hall htold).trans (if_neg (show ¬ 3 ≤ s.pow.target by omega))
  · exact (congrArg PowState.hall htold).trans (if_pos (show 3 ≤ s.pow.target by omega))

/-! ### A wake is served (R587, R588) -/

/-- The record is written, and PWR_ON follows WAKE_ON. -/
def wakeShown (src ev mode : Nat) (entry : Bool) (s : State) : State :=
  let s1 := wakeRecord src ev mode entry false s
  if fis calB PWR_ON.WAKE_ON s1 then pwrOn true s1 else s1

theorem wakeShown_shows {src mode : Nat} (ev : Nat) (entry : Bool) (hsrc : src < 16) (hmode : mode < 8) {s : State}
    (h : Registers.wf s = true) :
    let t := wakeShown src ev mode entry s
    Registers.wf t = true ∧ fget pmbB WAKE_LAST_A.SRC t = src ∧ fget pmbB WAKE_LAST_A.MODE t = mode ∧
      fget pmbB WAKE_LAST_A.ENTRY t = ofBool entry ∧ rd 0x70030018 t = rd 0x70000000 s ∧
      rd 0x70030040 t = rd 0x70030014 t ∧ t.mem = s.mem ∧ t.pow = s.pow := by
  intro t
  obtain ⟨honly, hs, hm, he, -, hsec, hhist⟩ := wakeRecord_shows ev entry false hsrc hmode h
  have hon : Only [(calB, PWR_ON.ON)] (wakeRecord src ev mode entry false s) t :=
    .ite ((Only.refl honly.wf).fset (by decide) _) (.refl honly.wf)
  have hsame {α : Type} (p : State → α) (hp : ∀ a v u, p (wr a v u) = p u) : p t = p s := by
    refine Eq.trans ?_ (wakeRecord_same p hp src ev mode entry false s)
    show p (if _ then _ else _) = _
    split
    · exact hp _ _ _
    · rfl
  refine ⟨hon.wf, (hon.field (by decide)).trans hs, (hon.field (by decide)).trans hm, (hon.field (by decide)).trans he,
    (hon.rd (by decide)).trans hsec, ?_, hsame (·.mem) fun _ _ _ => rfl, hsame (·.pow) fun _ _ _ => rfl⟩
  exact (hon.rd (by decide)).trans (hhist.trans (hon.rd (by decide)).symm)

theorem wakeServe_light {src ev : Nat} {entry : Bool} {s : State} (hmode : s.pow.mode = 1 ∨ s.pow.mode = 2) :
    wakeServe src ev entry s = fset pwrB PWR_STAT.PHASE 6 (wakeShown src ev s.pow.mode entry s) := if_pos hmode

/-- A first attempt with what NIGHT kept and the wake that began it. -/
def wakeBegins (kept : List Nat) (waking : Nat × Nat × Nat) (mode : Nat) (s : State) : State :=
  startAttempt (powPut { s.pow with kept := kept, waking := some waking, mode := mode } s)

theorem wakeBegins_shows (kept : List Nat) (waking : Nat × Nat × Nat) (mode : Nat) (s : State) :
    let t := wakeBegins kept waking mode s
    t.regs = s.regs ∧ t.pow.hall = .waitAck ∧ t.pow.starts = s.pow.starts + 1 ∧ t.pow.pmb = some (1, 0x80) := by
  obtain ⟨hregs, hwait, hstarts, hpmb, -, -, -⟩ :=
    startAttempt_shows (powPut { s.pow with kept := kept, waking := some waking, mode := mode } s)
  exact ⟨hregs, hwait, hstarts, hpmb⟩

theorem hallFresh_starts (por : Bool) (s : State) : (hallFresh por s).pow.starts = 0 := rfl

/-- What NIGHT kept is kept for the start; the Knocker is on again after SHUTTER while it is enabled. -/
def wakeStarts (src ev : Nat) (s u : State) : State :=
  hallReset 9 false (wakeBegins (if s.pow.mode = 3 then u.pow.kept else []) (src, ev, s.pow.mode) s.pow.mode)
    (if s.pow.mode = 4 ∧ fis knkB KNK_CTRL.EN u = true then pdSet 1 true u else u)

theorem wakeServe_dark {src ev : Nat} {entry : Bool} {s : State} (hmode : s.pow.mode = 3 ∨ s.pow.mode = 4) :
    wakeServe src ev entry s = wakeStarts src ev s (wakeShown src ev s.pow.mode entry s) := if_neg (by omega)

/-- The start that a wake from NIGHT or SHUTTER begins. -/
theorem wakeStarts_shows {src ev : Nat} {s u : State} (h : Registers.wf u = true) (hhall : u.pow.hall = .off) :
    let t := wakeStarts src ev s u
    t.pow.hall = .waitAck ∧ t.pow.starts = 1 ∧ t.pow.pmb = some (1, 0x80) ∧ fget pmbB RST_STAT.CAUSE t = 9 ∧
      fget pmbB WAKE_LAST_A.SRC t = fget pmbB WAKE_LAST_A.SRC u ∧ fget pmbB WAKE_LAST_A.MODE t = fget pmbB WAKE_LAST_A.MODE u := by
  intro t
  have hknk : ∃ v, Only [regAt (pdWord 1)] u v ∧ v.pow.hall = .off ∧ (if s.pow.mode = 4 ∧ fis knkB KNK_CTRL.EN u = true then
      pdSet 1 true u else u) = v := by
    split
    · exact ⟨_, (Only.refl h).wr (List.mem_singleton.2 rfl) _, hhall, rfl⟩
    · exact ⟨_, .refl h, hhall, rfl⟩
  obtain ⟨v, honly, hoff, hv⟩ := hknk
  have hseen := causeSeen_only honly.wf 9
  obtain ⟨hwf, hrd, -, -⟩ := hallFresh_shows hseen.wf (v.pow.porReset || false)
  have hstart : t = wakeBegins (if s.pow.mode = 3 then u.pow.kept else []) (src, ev, s.pow.mode) s.pow.mode
      (hallFresh (v.pow.porReset || false) (causeSeen 9 v)) := by
    show wakeStarts src ev s u = _
    unfold wakeStarts
    rw [hv, hallReset_stages, hoff]
  obtain ⟨hregs, hwait, hstarts, hpmb⟩ := wakeBegins_shows (if s.pow.mode = 3 then u.pow.kept else []) (src, ev, s.pow.mode)
    s.pow.mode (hallFresh (v.pow.porReset || false) (causeSeen 9 v))
  rw [hallFresh_starts] at hstarts
  rw [← hstart] at hregs hwait hstarts hpmb
  have hread (a : Nat) (hlo : 0x70000000 ≤ a) (ha : Spared a) : rd a t = rd a (causeSeen 9 v) :=
    (congrArg (fun r => tget regReset r a) hregs).trans (hrd a hlo ha)
  refine ⟨hwait, hstarts, hpmb, ?_, ?_, ?_⟩
  · exact (congrArg (bitsOf · 0 4) (hread 0x70030300 (by decide) (by decide))).trans
      (causeSeen_settled honly.wf (.inr hoff) (by decide))
  · exact (congrArg (bitsOf · 0 4) (hread 0x70030014 (by decide) (by decide))).trans
      ((hseen.field (b := pmbB) (g := WAKE_LAST_A.SRC) (by decide)).trans (honly.field (by decide)))
  · exact (congrArg (bitsOf · 4 3) (hread 0x70030014 (by decide) (by decide))).trans
      ((hseen.field (b := pmbB) (g := WAKE_LAST_A.MODE) (by decide)).trans (honly.field (by decide)))

theorem wakeArrive_run {src ev : Nat} {s : State} (hhall : s.pow.hall = .run) : wakeArrive src ev s =
    if s.pow.mode = 0 then
      (if (phase s = 1 ∨ phase s = 2) ∧ wakeEnds src ev s.pow.target s = true then entryAbort 3 s
       else if phase s = 3 ∧ wakeEnds src ev s.pow.target s = true ∧ s.pow.latched.isNone = true then
         powPut { s.pow with latched := some (src, ev) } s
       else s)
    else if phase s = 6 then wakeRecord src ev s.pow.mode false false s
    else if wakeEnds src ev s.pow.mode s then wakeServe src ev false s
    else s := by
  unfold wakeArrive
  rw [hhall]

theorem wakeArrive_off {src ev : Nat} {s : State} (hhall : s.pow.hall = .off) : wakeArrive src ev s =
    if wakeEnds src ev s.pow.mode s then wakeServe src ev false s else s := by
  unfold wakeArrive
  rw [hhall]

theorem wake_shows (src : BitVec 3) (event : BitVec 10) (s : State) :
    let n := src.toNat
    let e := event.toNat
    (wakeArmed n e s = false → exec (.wake src event) s = .next s) ∧
    (s.pow.hall = .run → s.pow.mode = 0 → phase s = 0 → exec (.wake src event) s = .next s) ∧
    (wakeArmed n e s = true → s.pow.hall = .run → s.pow.mode = 0 → wakeEnds n e s.pow.target s = true →
      (phase s = 1 ∨ phase s = 2 → exec (.wake src event) s = .next (entryAbort 3 s)) ∧
      (phase s = 3 → s.pow.latched = none → exec (.wake src event) s =
        .next (powPut { s.pow with latched := some (n, e) } s))) ∧
    (wakeArmed n e s = true → s.pow.hall = .run → s.pow.mode = 1 ∨ s.pow.mode = 2 → phase s ≠ 6 →
      wakeEnds n e s.pow.mode s = true → Registers.wf s = true →
      ∃ t, exec (.wake src event) s = .next t ∧ phase t = 6 ∧ fget pmbB WAKE_LAST_A.SRC t = n ∧
        fget pmbB WAKE_LAST_A.MODE t = s.pow.mode ∧ fis pmbB WAKE_LAST_A.ENTRY t = false ∧
        rd 0x70030018 t = rd 0x70000000 s ∧ rd 0x70030040 t = rd 0x70030014 t ∧ t.mem = s.mem) ∧
    (wakeArmed n e s = true → s.pow.hall = .off → s.pow.mode = 3 ∨ s.pow.mode = 4 →
      wakeEnds n e s.pow.mode s = true → Registers.wf s = true →
      ∃ t, exec (.wake src event) s = .next t ∧ t.pow.hall = .waitAck ∧ t.pow.starts = 1 ∧
        t.pow.pmb = some (1, 0x80) ∧ fget pmbB RST_STAT.CAUSE t = 9 ∧
        fget pmbB WAKE_LAST_A.SRC t = n ∧ fget pmbB WAKE_LAST_A.MODE t = s.pow.mode) := by
  intro n e
  have hn : n < 16 := by
    have : n < 8 := src.isLt
    omega
  have hto {u : State} (harmed : wakeArmed n e s = true) (hu : wakeArrive n e s = u) : exec (.wake src event) s = .next u :=
    congrArg Host.Outcome.next ((if_pos harmed).trans hu)
  refine ⟨fun h => congrArg Host.Outcome.next (if_neg (by rw [h]; decide)), fun hhall hmode hphase => ?_,
    fun harmed hhall hmode hends => ⟨fun hphase => ?_, fun hphase hlatched => ?_⟩,
    fun harmed hhall hmode hphase hends h => ?_, fun harmed hhall hmode hends h => ?_⟩
  · have hstays : wakeArrive n e s = s := (wakeArrive_run hhall).trans ((if_pos hmode).trans ((if_neg (by omega)).trans
      (if_neg (by omega))))
    refine congrArg Host.Outcome.next ?_
    split
    · exact hstays
    · rfl
  · exact hto harmed ((wakeArrive_run hhall).trans ((if_pos hmode).trans (if_pos ⟨hphase, hends⟩)))
  · exact hto harmed ((wakeArrive_run hhall).trans ((if_pos hmode).trans ((if_neg (by omega)).trans
      (if_pos ⟨hphase, hends, by rw [hlatched]; rfl⟩))))
  · obtain ⟨hwf, hs, hm, he, hsec, hhist, hmem, -⟩ := wakeShown_shows e false hn (show s.pow.mode < 8 by omega) h
    have honly : Only (page pwrB [PWR_STAT.PHASE]) (wakeShown n e s.pow.mode false s)
        (fset pwrB PWR_STAT.PHASE 6 (wakeShown n e s.pow.mode false s)) := (Only.refl hwf).fsetIn (by decide) 6
    refine ⟨_, hto harmed ((wakeArrive_run hhall).trans ((if_neg (by omega)).trans ((if_neg hphase).trans ((if_pos hends).trans
      (wakeServe_light hmode))))), fget_fset_lt hwf _ (by decide) (by decide), (honly.field (by decide)).trans hs,
      (honly.field (by decide)).trans hm, (honly.flag (by decide)).trans ?_, (honly.rd (by decide)).trans hsec,
      (honly.rd (by decide)).trans (hhist.trans (honly.rd (by decide)).symm), hmem⟩
    exact congrArg (· == 1) he
  · obtain ⟨hwf, hs, hm, -, -, -, -, hpow⟩ := wakeShown_shows e false hn (show s.pow.mode < 8 by omega) h
    obtain ⟨hwait, hstarts, hpmb, hcause, hsrc, hmd⟩ := wakeStarts_shows (src := n) (ev := e) (s := s) hwf
      ((congrArg PowState.hall hpow).trans hhall)
    exact ⟨_, hto harmed ((wakeArrive_off hhall).trans ((if_pos hends).trans (wakeServe_dark hmode))), hwait, hstarts, hpmb,
      hcause, hsrc.trans hs, hmd.trans hm⟩

/-! ### A mode ends (R587) -/

/-- The domains that the mode's entry powered off. -/
def domainsLost (s : State) : List Nat := (List.range 80).filter fun d => s.pow.domsWere.testBit d && !pdOn d s

/-- All but the tile domains are on again. -/
def domainsBack (s : State) : State :=
  (domainsLost s).foldl (fun t d => if 42 ≤ d ∧ d ≤ 73 then t else domainOn d t) s

/-- A fold that powers domains on turns none off, and leaves those it names on. -/
theorem domainsOn_shows : ∀ (l : List Nat) {s : State}, Registers.wf s = true →
    let t := l.foldl (fun t d => if 42 ≤ d ∧ d ≤ 73 then t else domainOn d t) s
    Registers.wf t = true ∧ ∀ k < 80, (pdOn k s = true ∨ (k ∈ l ∧ k < 42)) → pdOn k t = true
  | [], _, h => ⟨h, fun _ _ hk => hk.elim id fun hk => absurd hk.1 List.not_mem_nil⟩
  | d :: r, s, h => by
    by_cases hd : 42 ≤ d ∧ d ≤ 73
    · obtain ⟨hwf, hon⟩ := domainsOn_shows r h
      rw [List.foldl_cons, if_pos hd]
      refine ⟨hwf, fun k hk hor => hon k hk (hor.imp_right fun ⟨hmem, hlt⟩ => ⟨?_, hlt⟩)⟩
      rcases List.mem_cons.1 hmem with rfl | hmem
      · omega
      · exact hmem
    · obtain ⟨hwf1, -, hpd⟩ := domainOn_shows h d
      obtain ⟨hwf, hon⟩ := domainsOn_shows r hwf1
      rw [List.foldl_cons, if_neg hd]
      refine ⟨hwf, fun k hk hor => hon k hk ?_⟩
      rw [hpd k hk]
      by_cases hkd : k = d
      · exact .inl (if_pos hkd)
      · rw [if_neg hkd]
        exact hor.imp_right fun ⟨hmem, hlt⟩ => ⟨(List.mem_cons.1 hmem).resolve_left hkd, hlt⟩

/-- What the domains that are back take up again. -/
def domainsResumed (g : Nat) (were : List Nat) (s1 : State) : State :=
  let s2 := if were.contains 31 then timeResume g s1 else s1
  let s3 := match activePlan s2 with
    | some p => if were.contains 28 then planQueues p s2 else s2
    | none => s2
  let tiles := (were.filter fun d => decide (42 ≤ d ∧ d ≤ 73)).map (· - 42)
  if tiles.isEmpty then s3 else planWork (.loading tiles false false) s3

theorem domainsResumed_spares {s : State} (h : Registers.wf s = true) (g : Nat) (were : List Nat) :
    Spares s (domainsResumed g were s) := by
  unfold domainsResumed
  extract_lets s2 s3 tiles
  have h2 : Spares s s2 := .ite ((Spares.refl h).timeResume g) (Spares.refl h)
  have h3 : Spares s s3 := by
    show Spares s (match activePlan s2 with | some p => if were.contains 28 then planQueues p s2 else s2 | none => s2)
    split
    · exact .ite (h2.planQueues _) h2
    · exact h2
  have hput : Spares s (planPut { s3.plan with work := .loading tiles false false } s3) := h3.same rfl rfl rfl
  exact .ite h3 (hput.fset (by decide) _)

/-- The mode is RUN again. -/
def modeEnded (mode : Nat) (s : State) : State :=
  wfiEnd 0 (fset pwrB PWR_STAT.PHASE 0 (fset pwrB PWR_STAT.LAST_MODE mode (powPut { s.pow with mode := 0 } s)))

theorem modeExit_stages {g : Nat} {s : State} (h : phase s = 6) : modeExit g s =
    pwrNote PWR_NOTE.WAKE (modeEnded s.pow.mode (domainsResumed g (domainsLost s) (domainsBack s))) :=
  if_neg (not_not_intro h)

theorem modeEnded_shows {mode : Nat} (hmode : mode < 8) {s : State} (h : Registers.wf s = true) :
    let t := pwrNote PWR_NOTE.WAKE (modeEnded mode s)
    phase t = 0 ∧ t.pow.mode = 0 ∧ fget pwrB PWR_STAT.LAST_MODE t = mode ∧ fis pwrB PWR_NOTE.WAKE t = true ∧
      ∀ k < 80, pdOn k t = pdOn k s := by
  intro t
  have hput : Registers.wf (powPut { s.pow with mode := 0 } s) = true := (Registers.wf_of_regs (Eq.refl s.regs)).trans h
  have hlast := Registers.wf_fset hput pwrB PWR_STAT.LAST_MODE mode
  have hregs : (modeEnded mode s).regs =
      (fset pwrB PWR_STAT.PHASE 0 (fset pwrB PWR_STAT.LAST_MODE mode (powPut { s.pow with mode := 0 } s))).regs := rfl
  have hput' : Only (page pwrB [PWR_STAT.LAST_MODE, PWR_STAT.PHASE]) s (powPut { s.pow with mode := 0 } s) :=
    (Only.refl h).of_regs (Eq.refl s.regs)
  have honly : Only (page pwrB [PWR_STAT.LAST_MODE, PWR_STAT.PHASE]) s (modeEnded mode s) :=
    ((hput'.fsetIn (by decide) mode).fsetIn (by decide) 0).of_regs hregs
  have hnote : Only (page pwrB [PWR_NOTE.WAKE]) (modeEnded mode s) t := (Only.refl honly.wf).noteIn (by decide) _
  have hpow : t.pow = (modeEnded mode s).pow := note_pow _ _ _ _
  have hpd : ∀ f ∈ page pwrB [PWR_STAT.LAST_MODE, PWR_STAT.PHASE, PWR_NOTE.WAKE], f.1 + f.2.off < 0x400F0028 := by decide
  have hword (k : Nat) : 0x400F0028 ≤ pdWord k := Nat.le_add_right _ _
  refine ⟨?_, by rw [hpow]; rfl, ?_, fis_note honly.wf _ (by decide) (by decide) _, fun k _ => pdOn_of_rd ?_⟩
  · exact (hnote.fieldIn (by decide)).trans ((fget_of_regs hregs _ _).trans (fget_fset_lt hlast _ (by decide) (by decide)))
  · exact (hnote.fieldIn (by decide)).trans ((fget_of_regs hregs _ _).trans ((fget_fset_of_apart hlast _ _ (by decide)).trans
      (fget_fset_lt hput _ hmode (by decide))))
  · refine (hnote.rd fun f hf => ?_).trans (honly.rd fun f hf => ?_)
    · have := hpd f (by simp only [List.map_cons, List.map_nil, List.mem_cons, List.not_mem_nil, or_false] at hf ⊢; tauto)
      have := hword k
      omega
    · have := hpd f (by simp only [List.map_cons, List.map_nil, List.mem_cons, List.not_mem_nil, or_false] at hf ⊢; tauto)
      have := hword k
      omega

theorem modeExit_shows (g : Nat) (s : State) :
    (phase s ≠ 6 → exec (.modeExit g) s = .next s) ∧
    (phase s = 6 → s.pow.mode < 5 → Registers.wf s = true → ∃ t, exec (.modeExit g) s = .next t ∧ phase t = 0 ∧
      t.pow.mode = 0 ∧ fget pwrB PWR_STAT.LAST_MODE t = s.pow.mode ∧ fis pwrB PWR_NOTE.WAKE t = true ∧
      ∀ d < 42, s.pow.domsWere.testBit d = true → pdOn d t = true) := by
  refine ⟨fun h => congrArg Host.Outcome.next (if_pos h), fun hphase hmode h => ?_⟩
  obtain ⟨hback, hon⟩ := domainsOn_shows (domainsLost s) h
  have hres := domainsResumed_spares hback g (domainsLost s)
  obtain ⟨hzero, hrun, hlast, hnote, hpd⟩ := modeEnded_shows (mode := s.pow.mode) (by omega) hres.wf
  refine ⟨_, congrArg Host.Outcome.next (modeExit_stages hphase), hzero, hrun, hlast, hnote, fun d hd hwas => ?_⟩
  refine (hpd d (by omega)).trans ((hres.pdOn (by omega)).trans (hon d (by omega) ?_))
  by_cases hp : pdOn d s = true
  · exact .inl hp
  · refine .inr ⟨List.mem_filter.2 ⟨List.mem_range.2 (by omega), ?_⟩, hd⟩
    rw [hwas, Bool.eq_false_iff.2 hp]
    rfl

/-- Settles O51. -/
theorem modesAndWakes : Obligations.ModesAndWakes := by
  unfold Obligations.ModesAndWakes
  refine ⟨modeReached_shows, wake_shows, modeExit_shows, fun e mode s => ⟨rfl, rfl, rfl, ?_, fun src hsrc => ?_⟩⟩
  · refine (if_neg (by decide)).trans ((if_pos rfl).trans ?_)
    show (false || (true && _)) = _
    rw [Bool.false_or, Bool.true_and]
  · rcases hsrc with rfl | rfl | rfl | rfl <;> rfl

end Sys2Proof.Machine

namespace Sys2Proof.Tests
open Sys2Proof.Machine

set_option maxRecDepth 8000

/-- SHUTTER, with the pin WK0 armed. -/
def shuttered : State :=
  wr 0x70030010 1 { State.reset with pow := { State.reset.pow with hall := .off, mode := 4 } }

/-- The pin wakes the hall. -/
theorem test_hyps_modesAndWakes : ∃ t, exec (.wake 4 0) shuttered = .next t ∧ t.pow.hall = .waitAck ∧ t.pow.starts = 1 := by
  obtain ⟨-, -, -, -, hdark⟩ := wake_shows 4 0 shuttered
  obtain ⟨t, ht, hwait, hstarts, -⟩ := hdark (by decide) rfl (.inr rfl) (by decide) (by decide)
  exact ⟨t, ht, hwait, hstarts⟩

end Sys2Proof.Tests
end

section
/-!
THEOREMS. The regulator and PWR_GATE (R580, R589, R591–R594, R600).
-/

namespace Sys2Proof.Machine

open Reg

/-! ### The flash controllers' wait states follow VCORE -/

/-- A part of the state beside its registers and its pending events. -/
theorem flcWs_same {α : Type} (p : State → α) (hr : ∀ e t, p (raiseEvt e t) = p t) (hw : ∀ a v t, p (wr a v t) = p t)
    (s : State) : p (flcWs s) = p s := by
  have hset (f : Fld) (v : Nat) (t : State) : p (fset flcB f v t) = p t := hw _ _ _
  have hnote (t : State) : p (flcNote FLC_NOTE.WS_LOW t) = p t := note_same p _ _ _ t (fun u => hr _ u) hw
  unfold flcWs
  dsimp only
  split
  · split
    · exact hset _ _ _
    · exact (hnote _).trans ((hset _ _ _).trans (hset _ _ _))
  · exact (hset _ _ _).trans (hset _ _ _)

theorem flcWs_pow (s : State) : (flcWs s).pow = s.pow := flcWs_same (·.pow) raiseEvt_pow (fun _ _ _ => rfl) s

theorem flcWs_mem (s : State) : (flcWs s).mem = s.mem := flcWs_same (·.mem) raiseEvt_mem (fun _ _ _ => rfl) s

/-- The flash controllers' page alone. -/
theorem flcWs_page {s : State} (h : Registers.wf s = true) :
    Only (page flcB [FLC_STAT.WS_EFF, FLC_STAT.WS_LOW, FLC_NOTE.WS_LOW]) s (flcWs s) :=
  ((Only.refl h).fsetIn (by decide) _).trans ((flcWs_only h).mono (by decide))

/-! ### A request, its acknowledgement and its failure (R591, R592) -/

/-- The code is that of NOW and LOW, with no request outstanding. -/
def vTaken (c : Nat) (s : State) : State := fset pwrB PWR_VSTAT.PEND 0 (fset pwrB PWR_VSTAT.LOW c (fset pwrB PWR_VSTAT.NOW c s))

theorem vTaken_shows {c : Nat} (hc : c < 2 ^ 5) {s : State} (h : Registers.wf s = true) :
    let t := vTaken c s
    Registers.wf t = true ∧ fget pwrB PWR_VSTAT.NOW t = c ∧ fget pwrB PWR_VSTAT.LOW t = c ∧
      fget pwrB PWR_VSTAT.PEND t = 0 ∧ t.mem = s.mem := by
  intro t
  have h1 := Registers.wf_fset h pwrB PWR_VSTAT.NOW c
  have h2 := Registers.wf_fset h1 pwrB PWR_VSTAT.LOW c
  refine ⟨Registers.wf_fset h2 _ _ _, ?_, ?_, fget_fset_lt h2 _ (by decide) (by decide), rfl⟩
  · exact (fget_fset_of_apart h2 _ _ (by decide)).trans ((fget_fset_of_apart h1 _ _ (by decide)).trans
      (fget_fset_lt h _ hc (by decide)))
  · exact (fget_fset_of_apart h2 _ _ (by decide)).trans (fget_fset_lt h1 _ hc (by decide))

theorem vAcknowledge_stages (s : State) : vAcknowledge s =
    pwrNote PWR_NOTE.VSTEP (flcWs (vTaken (fget pwrB PWR_VSTAT.REQ s) s)) := rfl

/-- The wait states follow and VSTEP is set: the core supply's status stays. -/
theorem vstep_shows {s : State} (h : Registers.wf s = true) :
    let t := pwrNote PWR_NOTE.VSTEP (flcWs s)
    Only (page flcB [FLC_STAT.WS_EFF, FLC_STAT.WS_LOW, FLC_NOTE.WS_LOW] ++ page pwrB [PWR_NOTE.VSTEP]) s t ∧
      fis pwrB PWR_NOTE.VSTEP t = true ∧ t.mem = s.mem := by
  intro t
  have hws := flcWs_page h
  exact ⟨(hws.mono (List.subset_append_left _ _)).trans (((Only.refl hws.wf).noteIn (by decide) _).mono
    (List.subset_append_right _ _)), fis_note hws.wf _ (by decide) (by decide) _, (note_mem _ _ _ _).trans (flcWs_mem s)⟩

theorem vAcknowledge_shows {s : State} (h : Registers.wf s = true) :
    let t := vAcknowledge s
    vNow t = fget pwrB PWR_VSTAT.REQ s ∧ fget pwrB PWR_VSTAT.LOW t = fget pwrB PWR_VSTAT.REQ s ∧
      fis pwrB PWR_VSTAT.PEND t = false ∧ fis pwrB PWR_NOTE.VSTEP t = true ∧ t.mem = s.mem := by
  intro t
  obtain ⟨hwf, hnow, hlow, hpend, hmem⟩ := vTaken_shows (fget_lt pwrB PWR_VSTAT.REQ s) h
  have ht : t = _ := vAcknowledge_stages s
  generalize vTaken (fget pwrB PWR_VSTAT.REQ s) s = u at hwf hnow hlow hpend hmem ht
  obtain ⟨honly, hstep, hstepMem⟩ := vstep_shows hwf
  rw [← ht] at honly hstep hstepMem
  exact ⟨(honly.field (by decide)).trans hnow, (honly.field (by decide)).trans hlow,
    congrArg (· == 1) ((honly.field (b := pwrB) (g := PWR_VSTAT.PEND) (by decide)).trans hpend), hstep, hstepMem.trans hmem⟩

/-- No request is outstanding, and none may be made of the plan's own accord. -/
def vHeld (s : State) : State := fset pwrB PWR_VSTAT.HOLD 1 (fset pwrB PWR_VSTAT.PEND 0 s)

theorem vHeld_shows {s : State} (h : Registers.wf s = true) :
    let t := vHeld s
    Only (page pwrB [PWR_VSTAT.PEND, PWR_VSTAT.HOLD]) s t ∧ fis pwrB PWR_VSTAT.HOLD t = true ∧
      fget pwrB PWR_VSTAT.PEND t = 0 ∧ t.pow = s.pow := by
  intro t
  have h1 := Registers.wf_fset h pwrB PWR_VSTAT.PEND 0
  exact ⟨((Only.refl h).fsetIn (by decide) 0).fsetIn (by decide) 1, fis_fset_one h1 _ (by decide),
    (fget_fset_of_apart h1 _ _ (by decide)).trans (fget_fset_lt h _ (by decide) (by decide)), rfl⟩

theorem vFailed_stages (s : State) : vFailed s = pwrErr PWR_ERR.VFAIL (fcount pmbB PMB_CNT.FAIL
    (vHeld (powPut { s.pow with goal := none } s))) := rfl

/-- The failure is counted and flagged. -/
theorem vfail_shows {s : State} (h : Registers.wf s = true) :
    let t := pwrErr PWR_ERR.VFAIL (fcount pmbB PMB_CNT.FAIL s)
    Only [(pmbB, PMB_CNT.FAIL), (pwrB, PWR_ERR.VFAIL)] s t ∧ fis pwrB PWR_ERR.VFAIL t = true ∧
      fget pmbB PMB_CNT.FAIL t = min 255 (fget pmbB PMB_CNT.FAIL s + 1) ∧ t.pow = s.pow := by
  intro t
  have hcount : Only [(pmbB, PMB_CNT.FAIL)] s (fcount pmbB PMB_CNT.FAIL s) := (Only.refl h).fcount (by decide)
  have hnote : Only [(pwrB, PWR_ERR.VFAIL)] (fcount pmbB PMB_CNT.FAIL s) t := (Only.refl hcount.wf).note (by decide) _
  exact ⟨(hcount.mono (by decide)).trans (hnote.mono (by decide)), fis_note hcount.wf _ (by decide) (by decide) _,
    (hnote.field (by decide)).trans (fget_fcount h _ (by decide)), note_pow _ _ _ _⟩

theorem vFailed_shows {s : State} (h : Registers.wf s = true) :
    let t := vFailed s
    fis pwrB PWR_ERR.VFAIL t = true ∧ fis pwrB PWR_VSTAT.HOLD t = true ∧
      fis pwrB PWR_VSTAT.PEND t = false ∧ vNow t = vNow s ∧ vBlocked t = true ∧
      fget pmbB PMB_CNT.FAIL t = min 255 (fget pmbB PMB_CNT.FAIL s + 1) ∧ t.pow.goal = none := by
  intro t
  have hput : Only (page pwrB [PWR_VSTAT.PEND, PWR_VSTAT.HOLD]) s (powPut { s.pow with goal := none } s) :=
    (Only.refl h).of_regs (Eq.refl s.regs)
  have hgoal : (powPut { s.pow with goal := none } s).pow.goal = none := rfl
  have ht : t = _ := vFailed_stages s
  generalize powPut { s.pow with goal := none } s = u at hput hgoal ht
  obtain ⟨hheld, hhold, hpend, hheldPow⟩ := vHeld_shows hput.wf
  have hset := hput.trans hheld
  generalize vHeld u = v at hheld hhold hpend hheldPow hset ht
  obtain ⟨honly, hfail, hcount, hpow⟩ := vfail_shows hset.wf
  rw [← ht] at honly hfail hcount hpow
  refine ⟨hfail, (honly.flag (by decide)).trans hhold, ?_, ?_, ?_, ?_, ?_⟩
  · exact congrArg (· == 1) ((honly.field (b := pwrB) (g := PWR_VSTAT.PEND) (by decide)).trans hpend)
  · exact (honly.field (b := pwrB) (g := PWR_VSTAT.NOW) (by decide)).trans (hset.fieldIn (by decide))
  · show (fis pwrB PWR_VSTAT.PEND t || fis pwrB PWR_ERR.VFAIL t || !fis pmbB PMB_STAT.VALID t) = true
    rw [hfail, Bool.or_true, Bool.true_or]
  · exact hcount.trans (congrArg (fun n => min 255 (n + 1)) (hset.field (by decide)))
  · rw [hpow, hheldPow, hgoal]

theorem vRequest_blocked {code : Nat} {s : State} (h : vBlocked s = true) : vRequest code s = s := if_pos h

/-- A code is requested: LOW is the lower of NOW and the code. -/
def vAsked (code low : Nat) (s : State) : State :=
  fset pwrB PWR_VSTAT.LOW low (fset pwrB PWR_VSTAT.REQ code (fset pwrB PWR_VSTAT.PEND 1 s))

theorem vAsked_shows {code low : Nat} (hcode : code < 2 ^ 5) (hlow : low < 2 ^ 5) {s : State} (h : Registers.wf s = true) :
    let t := vAsked code low s
    Only (page pwrB [PWR_VSTAT.PEND, PWR_VSTAT.REQ, PWR_VSTAT.LOW]) s t ∧ fget pwrB PWR_VSTAT.PEND t = 1 ∧
      fget pwrB PWR_VSTAT.REQ t = code ∧ fget pwrB PWR_VSTAT.LOW t = low := by
  intro t
  have h1 := Registers.wf_fset h pwrB PWR_VSTAT.PEND 1
  have h2 := Registers.wf_fset h1 pwrB PWR_VSTAT.REQ code
  refine ⟨(((Only.refl h).fsetIn (by decide) 1).fsetIn (by decide) code).fsetIn (by decide) low, ?_, ?_,
    fget_fset_lt h2 _ hlow (by decide)⟩
  · exact (fget_fset_of_apart h2 _ _ (by decide)).trans ((fget_fset_of_apart h1 _ _ (by decide)).trans
      (fget_fset_lt h _ (by decide) (by decide)))
  · exact (fget_fset_of_apart h2 _ _ (by decide)).trans (fget_fset_lt h1 _ hcode (by decide))

/-- A PMBus command leaves the registers. -/
theorem pmbWrite_shows (cmd data : Nat) (s : State) :
    (pmbWrite cmd data s).regs = s.regs ∧ (pmbWrite cmd data s).pow.pmb = some (cmd, data) := ⟨rfl, rfl⟩

theorem vRequest_stages {code : Nat} {s : State} (h : vBlocked s = false) : vRequest code s =
    flcWs (pmbWrite 0x21 (voutOf code s) (vAsked code (min (vNow s) code) s)) := if_neg (by rw [h]; decide)

theorem vRequest_shows {code : Nat} (hcode : code < 32) {s : State} (hb : vBlocked s = false) (h : Registers.wf s = true) :
    let t := vRequest code s
    fis pwrB PWR_VSTAT.PEND t = true ∧ fget pwrB PWR_VSTAT.REQ t = code ∧ vNow t = vNow s ∧
      fget pwrB PWR_VSTAT.LOW t = min (vNow s) code ∧ t.pow.pmb = some (0x21, voutOf code s) := by
  intro t
  have ht : t = _ := vRequest_stages hb
  obtain ⟨honly, hpend, hreq, hlow⟩ := vAsked_shows hcode ((Nat.min_le_right (vNow s) code).trans_lt hcode) h
  generalize vAsked code (min (vNow s) code) s = u at ht honly hpend hreq hlow
  obtain ⟨hregs, hpmb⟩ := pmbWrite_shows 0x21 (voutOf code s) u
  generalize pmbWrite 0x21 (voutOf code s) u = v at ht hregs hpmb
  have hws := flcWs_page ((Registers.wf_of_regs hregs).trans honly.wf)
  have hpow := flcWs_pow v
  rw [← ht] at hws hpow
  refine ⟨?_, ?_, ?_, ?_, (congrArg PowState.pmb hpow).trans hpmb⟩
  · exact congrArg (· == 1) ((hws.field (b := pwrB) (g := PWR_VSTAT.PEND) (by decide)).trans
      ((fget_of_regs hregs _ _).trans hpend))
  · exact (hws.field (by decide)).trans ((fget_of_regs hregs _ _).trans hreq)
  · exact (hws.field (b := pwrB) (g := PWR_VSTAT.NOW) (by decide)).trans ((fget_of_regs hregs _ _).trans
      (honly.fieldIn (by decide)))
  · exact (hws.field (by decide)).trans ((fget_of_regs hregs _ _).trans hlow)

/-! ### Hall starts (R589, R591) -/

/-- OPERATION goes off, and another attempt follows while fewer than three were made. -/
def startGivenUp (starts : Nat) (s : State) : State :=
  if starts < 3 then hallPut .retry (pmbWrite 1 0 s)
  else powPut { (pmbWrite 1 0 s).pow with hall := .off, starts := 0, waking := none } (pmbWrite 1 0 s)

theorem startGivenUp_shows (starts : Nat) (s : State) :
    let t := startGivenUp starts s
    t.pow.hall = (if starts < 3 then Hall.retry else Hall.off) ∧ t.pow.pmb = some (1, 0) ∧ t.regs = s.regs ∧ t.mem = s.mem := by
  intro t
  by_cases hlt : starts < 3
  · have ht : t = hallPut .retry (pmbWrite 1 0 s) := if_pos hlt
    rw [ht, if_pos hlt]
    exact ⟨rfl, rfl, rfl, rfl⟩
  · have ht : t = powPut _ (pmbWrite 1 0 s) := if_neg hlt
    rw [ht, if_neg hlt]
    exact ⟨rfl, rfl, rfl, rfl⟩

theorem startFailed_stages (s : State) : startFailed s = startGivenUp s.pow.starts (wakeRecord (s.pow.waking.getD (0, 0, 0)).1
    (s.pow.waking.getD (0, 0, 0)).2.1 (s.pow.waking.getD (0, 0, 0)).2.2 false true s) := rfl

theorem startFailed_shows {s : State} (h : Registers.wf s = true) (hsrc : (s.pow.waking.getD (0, 0, 0)).1 < 16)
    (hmode : (s.pow.waking.getD (0, 0, 0)).2.2 < 8) :
    let t := startFailed s
    t.pow.hall = (if s.pow.starts < 3 then Hall.retry else Hall.off) ∧ t.pow.pmb = some (1, 0) ∧
      fis pmbB WAKE_LAST_A.FAIL t = true ∧ t.mem = s.mem := by
  intro t
  have ht : t = _ := startFailed_stages s
  generalize s.pow.waking.getD (0, 0, 0) = w at hsrc hmode ht
  obtain ⟨-, -, -, -, hfail, -, -⟩ := wakeRecord_shows w.2.1 false true hsrc hmode h
  have hmem := wakeRecord_same (·.mem) (fun _ _ _ => rfl) w.1 w.2.1 w.2.2 false true s
  generalize wakeRecord w.1 w.2.1 w.2.2 false true s = u at ht hfail hmem
  obtain ⟨hhall, hpmb, hregs, hkept⟩ := startGivenUp_shows s.pow.starts u
  rw [← ht] at hhall hpmb hregs hkept
  exact ⟨hhall, hpmb, congrArg (· == 1) ((fget_of_regs hregs _ _).trans hfail), hkept.trans hmem⟩

theorem startRead_settled {s : State} (hset : s.pow.porReset = false ∨ fis pmbB PMB_STAT.VALID s = true)
    (m : Option (BitVec 8)) : startRead m s = startAttempt s := if_pos hset

/-- VOUT_MODE is read. -/
theorem startRead_open {s : State} (hpor : s.pow.porReset = true) (hvalid : fis pmbB PMB_STAT.VALID s = false)
    (m : Option (BitVec 8)) : startRead m s =
    match m with
    | none => startFailed { s with pow := { s.pow with starts := s.pow.starts + 1 } }
    | some v =>
      let n := v.toNat % 32
      if v.toNat / 32 = 0 ∧ 16 ≤ n ∧ n ≤ 25 then
        startAttempt (fset pmbB PMB_STAT.VALID 1 (fset pmbB PMB_STAT.VOUT_N n s))
      else startAttempt s := if_neg (by rw [hpor, hvalid]; decide)

theorem startRead_accepted {v : BitVec 8} {s : State} (hpor : s.pow.porReset = true) (hvalid : fis pmbB PMB_STAT.VALID s = false)
    (h : Registers.wf s = true) (hm : v.toNat / 32 = 0) (hlo : 16 ≤ v.toNat % 32) (hhi : v.toNat % 32 ≤ 25) :
    let t := startRead (some v) s
    t.pow.hall = .waitAck ∧ t.pow.starts = s.pow.starts + 1 ∧
      fis pmbB PMB_STAT.VALID t = true ∧ fget pmbB PMB_STAT.VOUT_N t = v.toNat % 32 := by
  intro t
  have ht : t = startAttempt (fset pmbB PMB_STAT.VALID 1 (fset pmbB PMB_STAT.VOUT_N (v.toNat % 32) s)) :=
    (startRead_open hpor hvalid _).trans (if_pos ⟨hm, hlo, hhi⟩)
  have h1 := Registers.wf_fset h pmbB PMB_STAT.VOUT_N (v.toNat % 32)
  obtain ⟨hregs, hwait, hstarts, -, -, -, -⟩ :=
    startAttempt_shows (fset pmbB PMB_STAT.VALID 1 (fset pmbB PMB_STAT.VOUT_N (v.toNat % 32) s))
  rw [← ht] at hregs hwait hstarts
  refine ⟨hwait, hstarts, ?_, ?_⟩
  · exact congrArg (· == 1) ((fget_of_regs hregs _ _).trans (fget_fset_lt h1 _ (by decide) (by decide)))
  · exact (fget_of_regs hregs _ _).trans ((fget_fset_of_apart h1 _ _ (by decide)).trans
      (fget_fset_lt h _ (by show _ < 32; omega) (by decide)))

theorem startRetry_shows (m : Option (BitVec 8)) (s : State) :
    (s.pow.hall ≠ .retry → exec (.hallStartRetry m) s = .next s) ∧
    (s.pow.hall = .retry → s.pow.porReset = false ∨ fis pmbB PMB_STAT.VALID s = true →
      exec (.hallStartRetry m) s = .next (startAttempt s)) ∧
    (s.pow.hall = .retry → s.pow.porReset = true → fis pmbB PMB_STAT.VALID s = false →
      (m = none → exec (.hallStartRetry m) s =
        .next (startFailed { s with pow := { s.pow with starts := s.pow.starts + 1 } })) ∧
      (∀ v, m = some v → v.toNat / 32 ≠ 0 ∨ v.toNat % 32 < 16 ∨ 25 < v.toNat % 32 →
        exec (.hallStartRetry m) s = .next (startAttempt s)) ∧
      (∀ v, m = some v → v.toNat / 32 = 0 → 16 ≤ v.toNat % 32 → v.toNat % 32 ≤ 25 → Registers.wf s = true →
        ∃ t, exec (.hallStartRetry m) s = .next t ∧ t.pow.hall = .waitAck ∧ t.pow.starts = s.pow.starts + 1 ∧
          fis pmbB PMB_STAT.VALID t = true ∧ fget pmbB PMB_STAT.VOUT_N t = v.toNat % 32)) := by
  have hto (hr : s.pow.hall = .retry) {u : State} (hu : startRead m s = u) : exec (.hallStartRetry m) s = .next u :=
    congrArg Host.Outcome.next ((if_pos hr).trans hu)
  refine ⟨fun hr => congrArg Host.Outcome.next (if_neg hr), fun hr hset => hto hr (startRead_settled hset m),
    fun hr hpor hvalid => ⟨fun hm => ?_, fun v hm hbad => ?_, fun v hm hlin hlo hhi h => ?_⟩⟩
  · subst hm
    exact hto hr (startRead_open hpor hvalid _)
  · subst hm
    exact hto hr ((startRead_open hpor hvalid _).trans (if_neg (by omega)))
  · subst hm
    exact ⟨_, hto hr rfl, startRead_accepted hpor hvalid h hlin hlo hhi⟩

/-! ### A step down, and an alert (R593, R594) -/

theorem vcoreDown_shows (s : State) :
    let quiet : Prop := ∀ n < 256, laneState n s < 2 ∨ (laneGet n s).fill ≤ 16
    (fis pwrB PWR_VCFG.AUTO s = true → s.pow.goal = none → vFloor s < vNow s → quiet →
      exec .vcoreDownHold s = .next (vRequest (vNow s - 1) s)) ∧
    (fis pwrB PWR_VCFG.AUTO s = false ∨ vNow s ≤ vFloor s ∨ ¬ quiet → exec .vcoreDownHold s = .next s) := by
  intro quiet
  have hlow : ((List.range 256).all fun n => laneState n s < 2 || decide ((laneGet n s).fill ≤ 16)) = true ↔ quiet := by
    simp only [List.all_eq_true, List.mem_range, Bool.or_eq_true, decide_eq_true_eq, quiet]
  have hcond : (fis pwrB PWR_VCFG.AUTO s && s.pow.goal.isNone && decide (vFloor s < vNow s) &&
      (List.range 256).all fun n => laneState n s < 2 || decide ((laneGet n s).fill ≤ 16)) = true ↔
      ((fis pwrB PWR_VCFG.AUTO s = true ∧ s.pow.goal.isNone = true) ∧ vFloor s < vNow s) ∧ quiet := by
    rw [Bool.and_eq_true, Bool.and_eq_true, Bool.and_eq_true, decide_eq_true_eq, hlow]
  refine ⟨fun hauto hgoal hfloor hq => congrArg Host.Outcome.next (if_pos (hcond.2 ⟨⟨⟨hauto, ?_⟩, hfloor⟩, hq⟩)),
    fun hor => congrArg Host.Outcome.next (if_neg fun hc => ?_)⟩
  · rw [hgoal]
    rfl
  · obtain ⟨⟨⟨hauto, -⟩, hfloor⟩, hq⟩ := hcond.1 hc
    rcases hor with hno | hle | hnq
    · rw [hno] at hauto
      exact absurd hauto (by decide)
    · omega
    · exact hnq hq

/-- A flag of the PWR block, set or owed. -/
theorem hallNote_shows {s : State} (h : Registers.wf s = true) {f : Fld} (hf : f.w = 1 ∧ f.lo + f.w ≤ 32) (e : Nat) :
    let t := hallNote f e s
    Only [(pwrB, f)] s t ∧ (hallUp s = true → fis pwrB f t = true) ∧ t.mem = s.mem := by
  intro t
  by_cases hup : hallUp s = true
  · have ht : t = note pwrB f e s := if_pos hup
    rw [ht]
    exact ⟨(Only.refl h).note (List.mem_singleton.2 rfl) e, fun _ => fis_note h _ hf.1 hf.2 e, note_mem _ _ _ _⟩
  · have ht : t = owe (pwrB + f.off) f.lo e s := if_neg hup
    rw [ht]
    exact ⟨(Only.refl h).of_regs (Eq.refl s.regs), fun hu => absurd hu hup, rfl⟩

theorem pmbAlert_shows (status : BitVec 16) (vout : BitVec 8) {s : State} (h : Registers.wf s = true) :
    ∃ t, exec (.pmbAlert status vout) s = .next t ∧ fget pmbB PMB_LAST.STATUS_WORD t = status.toNat ∧
      (status.getLsbD 15 = true → fget pmbB PMB_LAST.STATUS_VOUT t = vout.toNat) ∧
      (status.getLsbD 15 = false → fget pmbB PMB_LAST.STATUS_VOUT t = fget pmbB PMB_LAST.STATUS_VOUT s) ∧
      (hallUp s = true → fis pwrB PWR_NOTE.ALERT t = true) ∧ t.mem = s.mem := by
  have h1 := Registers.wf_fset h pmbB PMB_LAST.STATUS_WORD status.toNat
  have hstat : Only (page pmbB [PMB_LAST.STATUS_WORD]) s (fset pmbB PMB_LAST.STATUS_WORD status.toNat s) :=
    (Only.refl h).fsetIn (by decide) _
  have hbit : bitOf (status.setWidth 32) 15 = status.getLsbD 15 := by
    unfold bitOf
    rw [BitVec.getLsbD_setWidth]
    rfl
  obtain ⟨u, hu, honly, hyes, hno, hmem, hup⟩ : ∃ u, (if bitOf (status.setWidth 32) 15 then
      fset pmbB PMB_LAST.STATUS_VOUT vout.toNat (fset pmbB PMB_LAST.STATUS_WORD status.toNat s)
      else fset pmbB PMB_LAST.STATUS_WORD status.toNat s) = u ∧
      Only (page pmbB [PMB_LAST.STATUS_VOUT]) (fset pmbB PMB_LAST.STATUS_WORD status.toNat s) u ∧
      (status.getLsbD 15 = true → fget pmbB PMB_LAST.STATUS_VOUT u = vout.toNat) ∧
      (status.getLsbD 15 = false → fget pmbB PMB_LAST.STATUS_VOUT u = fget pmbB PMB_LAST.STATUS_VOUT s) ∧
      u.mem = s.mem ∧ u.pow = s.pow := by
    rw [hbit]
    by_cases hb : status.getLsbD 15 = true
    · exact ⟨_, if_pos hb, (Only.refl h1).fsetIn (by decide) _, fun _ => fget_fset_lt h1 _ vout.isLt (by decide),
        fun hf => absurd hb (by rw [hf]; decide), rfl, rfl⟩
    · exact ⟨_, if_neg hb, .refl h1, fun ht => absurd ht hb, fun _ => fget_fset_of_apart h _ _ (by decide), rfl, rfl⟩
  obtain ⟨hnote, hset, hnmem⟩ := hallNote_shows honly.wf (f := PWR_NOTE.ALERT) (by decide) 827
  refine ⟨hallNote PWR_NOTE.ALERT 827 u, congrArg (fun x => Host.Outcome.next (hallNote PWR_NOTE.ALERT 827 x)) hu,
    ?_, fun hb => ?_, fun hb => ?_, fun hs => hset ?_, hnmem.trans hmem⟩
  · exact (hnote.field (by decide)).trans ((honly.fieldIn (by decide)).trans (fget_fset_lt h _ status.isLt (by decide)))
  · exact (hnote.field (by decide)).trans (hyes hb)
  · exact (hnote.field (by decide)).trans (hno hb)
  · have hphase : fget pwrB PWR_STAT.PHASE u = fget pwrB PWR_STAT.PHASE s :=
      (honly.field (by decide)).trans (hstat.field (by decide))
    unfold hallUp at hs ⊢
    rwa [hup, hphase]

/-! ### PWR_GATE (R580, R600) -/

theorem gate_shows {s : State} (h : Registers.wf s = true) {d : Nat} (hd : d ≠ 3) (off : Bool) :
    Registers.wf (gate d off s) = true ∧ (∀ a, Spared a → a ≠ pdWord d → rd a (gate d off s) = rd a s) ∧
      ∀ k < 80, pdOn k (gate d off s) = if k = d then !off else pdOn k s := by
  have hstay (hp : pdOn d s = !off) (k : Nat) : pdOn k s = if k = d then !off else pdOn k s := by
    split
    · next hk => rw [hk, hp]
    · rfl
  unfold gate
  cases off
  · by_cases hp : pdOn d s = true
    · rw [if_neg (by decide), if_pos hp]
      exact ⟨h, fun _ _ _ => rfl, fun k _ => hstay hp k⟩
    · rw [if_neg (by decide), if_neg hp]
      exact domainOn_shows h d
  · by_cases hp : pdOn d s = true
    · rw [if_pos rfl, if_pos hp]
      exact domainOff_shows h hd
    · rw [if_pos rfl, if_neg hp]
      exact ⟨h, fun _ _ _ => rfl, fun k _ => hstay (Bool.eq_false_iff.2 hp) k⟩

/-- Gates in a row, each taken while `p` lets it: the domains from `base` on. -/
def gates (base : Nat) (off : Nat → Bool) (p : Nat → Bool) (l : List Nat) (s : State) : State :=
  l.foldl (fun t k => if p k then t else gate (base + k) (off k) t) s

theorem gates_shows {base : Nat} (off p : Nat → Bool) : ∀ (l : List Nat), (∀ k ∈ l, base + k ≠ 3 ∧ base + k < 80) →
    l.Nodup → ∀ {s : State}, Registers.wf s = true →
    let t := gates base off p l s
    Registers.wf t = true ∧ (∀ a, Spared a → (∀ d < 80, a ≠ pdWord d) → rd a t = rd a s) ∧
      (∀ d < 80, (∀ k ∈ l, d ≠ base + k) → pdOn d t = pdOn d s) ∧
      ∀ k ∈ l, pdOn (base + k) t = if p k then pdOn (base + k) s else !off k
  | [], _, _, s, h => ⟨h, fun _ _ _ => rfl, fun _ _ _ => rfl, fun _ hk => absurd hk List.not_mem_nil⟩
  | k :: r, hl, hn, s, h => by
    obtain ⟨hk3, hk80⟩ := hl k List.mem_cons_self
    obtain ⟨hkr, hnr⟩ := List.nodup_cons.1 hn
    have hstep : ∃ u, (if p k then s else gate (base + k) (off k) s) = u ∧ Registers.wf u = true ∧
        (∀ a, Spared a → (∀ d < 80, a ≠ pdWord d) → rd a u = rd a s) ∧
        ∀ d < 80, pdOn d u = if d = base + k then (if p k then pdOn (base + k) s else !off k) else pdOn d s := by
      by_cases hp : p k = true
      · refine ⟨s, if_pos hp, h, fun _ _ _ => rfl, fun d _ => ?_⟩
        rw [if_pos hp]
        split
        · next hd => rw [hd]
        · rfl
      · obtain ⟨hwf, hrd, hon⟩ := gate_shows h hk3 (off k)
        refine ⟨_, if_neg hp, hwf, fun a ha hne => hrd a ha (hne _ hk80), fun d hd => ?_⟩
        rw [if_neg hp]
        exact hon d hd
    obtain ⟨u, hu, huwf, hurd, huon⟩ := hstep
    obtain ⟨hwf, hrd, hother, hon⟩ := gates_shows off p r (fun j hj => hl j (List.mem_cons_of_mem _ hj)) hnr huwf
    have hcons : gates base off p (k :: r) s = gates base off p r u := by
      rw [← hu]
      rfl
    rw [hcons]
    refine ⟨hwf, fun a ha hne => (hrd a ha hne).trans (hurd a ha hne), fun d hd hne => ?_, fun j hj => ?_⟩
    · rw [hother d hd fun j hj => hne j (List.mem_cons_of_mem _ hj), huon d hd, if_neg (hne k List.mem_cons_self)]
    · rcases List.mem_cons.1 hj with rfl | hj
      · rw [hother _ hk80 fun i hi e => hkr (by rwa [Nat.add_left_cancel e]), huon _ hk80, if_pos rfl]
      · have hjk : base + j ≠ base + k := fun e => hkr (by rwa [← Nat.add_left_cancel e])
        obtain ⟨-, hj80⟩ := hl j (List.mem_cons_of_mem _ hj)
        rw [hon j hj, huon _ hj80, if_neg hjk]

theorem pwrGateWrite_refused {data : Word} {s : State} (hw : ∃ k < 16, bitOf data (4 + k) = true ∧ windowInBank k s = true) :
    pwrGateWrite data s = pwrErr PWR_ERR.RANGE s := by
  obtain ⟨k, hk, hbit, hwin⟩ := hw
  exact if_pos (List.any_eq_true.2 ⟨k, List.mem_range.2 hk, by rw [hbit, hwin]; rfl⟩)

/-- The gates in the order of PWR_GATE's fields: application cores, SRAM banks, the domains of PDs 75 to 79. -/
theorem pwrGateWrite_taken {data : Word} {s : State}
    (hw : ∀ k < 16, bitOf data (4 + k) = true → windowInBank k s = false) : pwrGateWrite data s =
    gates 75 (fun k => bitOf data (20 + k)) (fun _ => false) (List.range 5)
      (gates 10 (fun k => bitOf data (4 + k)) (fun _ => false) (List.range 16)
        ((List.range 4).foldl (fun t c => if bitOf data c && !fis (coreReg c) LEDG_CORE.PARKED t then t
          else gate (6 + c) (bitOf data c) t) (wr 0x400F0010 (data &&& 0x01FFFFFF#32) s))) := by
  refine if_neg fun hany => ?_
  obtain ⟨k, hk, hkw⟩ := List.any_eq_true.1 hany
  rw [Bool.and_eq_true] at hkw
  rw [hw k (List.mem_range.1 hk) hkw.1] at hkw
  exact absurd hkw.2 (by decide)

/-- PARKED of an application core lies in a register that the gates spare. -/
theorem parked_spared {c : Nat} (hc : c < 4) : Spared (coreReg c + 0x30) ∧ ∀ d < 80, coreReg c + 0x30 ≠ pdWord d := by
  unfold coreReg pdWord Spared
  exact ⟨by omega, fun d _ => by omega⟩

theorem parked_of_rd {c : Nat} {s t : State} (h : rd (coreReg c + 0x30) t = rd (coreReg c + 0x30) s) :
    fis (coreReg c) LEDG_CORE.PARKED t = fis (coreReg c) LEDG_CORE.PARKED s :=
  congrArg (fun w => bitsOf w LEDG_CORE.PARKED.lo LEDG_CORE.PARKED.w == 1) h

/-- The same over any of those cores, of a state in which PARKED is as it was. -/
theorem coreGates_eq_of_parked (off : Nat → Bool) {s : State} : ∀ (l : List Nat), (∀ c ∈ l, c < 4) → ∀ {t : State},
    Registers.wf t = true → (∀ c < 4, fis (coreReg c) LEDG_CORE.PARKED t = fis (coreReg c) LEDG_CORE.PARKED s) →
    l.foldl (fun t c => if off c && !fis (coreReg c) LEDG_CORE.PARKED t then t else gate (6 + c) (off c) t) t =
      gates 6 off (fun c => off c && !fis (coreReg c) LEDG_CORE.PARKED s) l t
  | [], _, _, _, _ => rfl
  | c :: r, hl, t, h, hpark => by
    have hc := hl c List.mem_cons_self
    obtain ⟨hwf, hrd, -⟩ := gate_shows h (d := 6 + c) (by omega) (off c)
    have hcons {p : Nat → Bool} : gates 6 off p (c :: r) t = gates 6 off p r (if p c then t else gate (6 + c) (off c) t) := rfl
    rw [List.foldl_cons, hcons, hpark c hc]
    refine coreGates_eq_of_parked off r (fun j hj => hl j (List.mem_cons_of_mem _ hj)) ?_ fun j hj => ?_
    · split
      · exact h
      · exact hwf
    · split
      · exact hpark j hj
      · obtain ⟨hsp, hne⟩ := parked_spared hj
        exact (parked_of_rd (hrd _ hsp (hne _ (by omega)))).trans (hpark j hj)

/-- The application cores' gates look at PARKED as it stood before the first of them. -/
theorem coreGates_eq (off : Nat → Bool) {s : State} (h : Registers.wf s = true) :
    (List.range 4).foldl (fun t c => if off c && !fis (coreReg c) LEDG_CORE.PARKED t then t else gate (6 + c) (off c) t) s =
      gates 6 off (fun c => off c && !fis (coreReg c) LEDG_CORE.PARKED s) (List.range 4) s := by
  refine coreGates_eq_of_parked off (List.range 4) (fun c hc => List.mem_range.1 hc) h (fun _ _ => rfl)

theorem pwrGateWrite_shows {data : Word} {s : State} (h : Registers.wf s = true)
    (hw : ∀ k < 16, bitOf data (4 + k) = true → windowInBank k s = false) :
    let t := pwrGateWrite data s
    rd 0x400F0010 t = data &&& 0x01FFFFFF#32 ∧
      (∀ k < 16, pdOn (10 + k) t = !bitOf data (4 + k)) ∧ (∀ k < 5, pdOn (75 + k) t = !bitOf data (20 + k)) ∧
      (∀ c < 4, fis (coreReg c) LEDG_CORE.PARKED s = true → pdOn (6 + c) t = !bitOf data c) ∧
      (∀ c < 4, fis (coreReg c) LEDG_CORE.PARKED s = false → bitOf data c = true → pdOn (6 + c) t = pdOn (6 + c) s) := by
  intro t
  have h1 : Registers.wf (wr 0x400F0010 (data &&& 0x01FFFFFF#32) s) = true := Registers.wf_wr h _ _
  have hset : rd 0x400F0010 (wr 0x400F0010 (data &&& 0x01FFFFFF#32) s) = data &&& 0x01FFFFFF#32 := rd_wr_self h _ _
  have hpd (d : Nat) : pdOn d (wr 0x400F0010 (data &&& 0x01FFFFFF#32) s) = pdOn d s :=
    pdOn_of_rd (rd_wr_ne h _ (by unfold pdWord; omega))
  have hpark (c : Nat) (hc : c < 4) : fis (coreReg c) LEDG_CORE.PARKED (wr 0x400F0010 (data &&& 0x01FFFFFF#32) s) =
      fis (coreReg c) LEDG_CORE.PARKED s := parked_of_rd (rd_wr_ne h _ (by unfold coreReg; omega))
  have ht : t = _ := (pwrGateWrite_taken hw).trans (congrArg (fun u => gates 75 (fun k => bitOf data (20 + k)) (fun _ => false)
    (List.range 5) (gates 10 (fun k => bitOf data (4 + k)) (fun _ => false) (List.range 16) u)) (coreGates_eq (bitOf data) h1))
  generalize wr 0x400F0010 (data &&& 0x01FFFFFF#32) s = u at h1 hset hpd hpark ht
  obtain ⟨hwfC, hrdC, hpdC, honC⟩ := gates_shows (base := 6) (bitOf data)
    (fun c => bitOf data c && !fis (coreReg c) LEDG_CORE.PARKED u) (List.range 4)
    (fun k hk => by have := List.mem_range.1 hk; omega) List.nodup_range h1
  generalize gates 6 (bitOf data) (fun c => bitOf data c && !fis (coreReg c) LEDG_CORE.PARKED u) (List.range 4) u = c at hwfC hrdC hpdC honC ht
  obtain ⟨hwfB, hrdB, hpdB, honB⟩ := gates_shows (base := 10) (fun k => bitOf data (4 + k)) (fun _ => false) (List.range 16)
    (fun k hk => by have := List.mem_range.1 hk; omega) List.nodup_range hwfC
  generalize gates 10 (fun k => bitOf data (4 + k)) (fun _ => false) (List.range 16) c = b at hwfB hrdB hpdB honB ht
  obtain ⟨-, hrdT, hpdT, honT⟩ := gates_shows (base := 75) (fun k => bitOf data (20 + k)) (fun _ => false) (List.range 5)
    (fun k hk => by have := List.mem_range.1 hk; omega) List.nodup_range hwfB
  rw [← ht] at hrdT hpdT honT
  have hfar : ∀ d < 80, 0x400F0010 ≠ pdWord d := fun d _ => by unfold pdWord; omega
  have hcore (k : Nat) (hk : k < 4) : pdOn (6 + k) t = pdOn (6 + k) c :=
    (hpdT _ (by omega) fun j hj => by have := List.mem_range.1 hj; omega).trans
      (hpdB _ (by omega) fun j hj => by have := List.mem_range.1 hj; omega)
  refine ⟨?_, fun k hk => ?_, fun k hk => honT k (List.mem_range.2 hk), fun k hk hp => ?_, fun k hk hp hbit => ?_⟩
  · exact (hrdT _ (by decide) hfar).trans ((hrdB _ (by decide) hfar).trans ((hrdC _ (by decide) hfar).trans hset))
  · exact (hpdT _ (by omega) fun j hj => by have := List.mem_range.1 hj; omega).trans (honB k (List.mem_range.2 hk))
  · have hgo : (bitOf data k && !fis (coreReg k) LEDG_CORE.PARKED u) = false := by
      rw [hpark k hk, hp, Bool.not_true, Bool.and_false]
    exact (hcore k hk).trans ((honC k (List.mem_range.2 hk)).trans (if_neg (by rw [hgo]; decide)))
  · have hstop : (bitOf data k && !fis (coreReg k) LEDG_CORE.PARKED u) = true := by
      rw [hpark k hk, hp, hbit]
      rfl
    exact (hcore k hk).trans ((honC k (List.mem_range.2 hk)).trans ((if_pos hstop).trans (hpd _)))

/-- Settles O52. -/
theorem coreSupplyAndGates : Obligations.CoreSupplyAndGates := by
  unfold Obligations.CoreSupplyAndGates
  refine ⟨⟨fun s => ⟨fun hw => ?_, fun hw hp => ?_, fun hw hp => ?_, vAcknowledge_shows⟩,
    fun f s => ⟨fun hw => ?_, fun hw hp => ?_, fun hw hp => ?_, vFailed_shows, startFailed_shows⟩, startRetry_shows,
    fun s => ?_, fun status vout s h => pmbAlert_shows status vout h⟩, fun i data s hadm => ⟨fun hw => ?_, fun hw h => ?_⟩⟩
  · exact congrArg Host.Outcome.next (if_pos hw)
  · exact congrArg Host.Outcome.next ((if_neg hw).trans (if_neg (by rw [hp]; decide)))
  · exact congrArg Host.Outcome.next ((if_neg hw).trans (if_pos hp))
  · exact congrArg Host.Outcome.next (if_pos hw)
  · exact congrArg Host.Outcome.next ((if_neg hw).trans (if_neg (by rw [hp]; decide)))
  · exact congrArg Host.Outcome.next ((if_neg hw).trans (if_pos hp))
  · obtain ⟨hdown, hstay⟩ := vcoreDown_shows s
    exact ⟨hdown, hstay, fun code hc => ⟨vRequest_blocked, vRequest_shows hc⟩⟩
  · exact congrArg Host.Outcome.next ((doorStore_admits hadm).trans (congrArg acknowledge (pwrGateWrite_refused hw)))
  · exact ⟨_, congrArg Host.Outcome.next (doorStore_admits hadm), pwrGateWrite_shows h hw⟩

end Sys2Proof.Machine

namespace Sys2Proof.Tests
open Sys2Proof.Machine

set_option maxRecDepth 8000

/-- A request that is outstanding is acknowledged. -/
theorem test_hyps_coreSupplyAndGates : vNow (vAcknowledge (regs [(0x400F0018, 0x00000B8A)] up)) = 11 :=
  (vAcknowledge_shows (by decide)).1.trans (by decide)

end Sys2Proof.Tests
end

section
/-!
THEOREMS. Resets by their causes and the start from VBAT (R654–R658, R660, R666).
-/

namespace Sys2Proof.Machine

open Reg

/-! ### A cause is recorded (R666) -/

theorem causeSeen_starting {cause : Nat} {s : State}
    (hhall : s.pow.hall = .waitAck ∨ s.pow.hall = .retry ∨ s.pow.hall = .acked ∨ s.pow.hall = .pinLow) : causeSeen cause s =
    fset pmbB RST_STAT.CAUSE (min (fget pmbB RST_STAT.CAUSE s) cause)
      (wr (pmbB + 0x304) (bitsPut (rd (pmbB + 0x304) s) cause 1 1) s) := by
  unfold causeSeen
  rcases hhall with hhall | hhall | hhall | hhall <;> rw [hhall] <;> rfl

/-- The word of RST_SEEN. -/
theorem causeSeen_seen {s : State} (h : Registers.wf s = true) (cause : Nat) :
    rd 0x70030304 (causeSeen cause s) = bitsPut (rd 0x70030304 s) cause 1 1 :=
  (rd_fset_ne (Registers.wf_wr h _ _) _ _ (by decide)).trans (rd_wr_self h _ _)

theorem causeSeen_bit {s : State} (h : Registers.wf s = true) {cause c : Nat} (hcause : cause < 32) (hc : c < 32) :
    bitOf (rd 0x70030304 (causeSeen cause s)) c = (decide (c = cause) || bitOf (rd 0x70030304 s) c) := by
  rw [causeSeen_seen h]
  by_cases he : c = cause
  · rw [he, ← bitsOf_one, bitsOf_bitsPut _ _ _ _ (by omega), decide_eq_true rfl]
    rfl
  · rw [bitOf_bitsPut_ne _ _ _ _ _ hc (by omega), decide_eq_false he, Bool.false_or]

theorem causeSeen_lower {s : State} (h : Registers.wf s = true) {cause : Nat} (hcause : cause < 16)
    (hhall : s.pow.hall = .waitAck ∨ s.pow.hall = .retry ∨ s.pow.hall = .acked ∨ s.pow.hall = .pinLow) :
    fget pmbB RST_STAT.CAUSE (causeSeen cause s) = min (fget pmbB RST_STAT.CAUSE s) cause := by
  rw [causeSeen_starting hhall]
  exact fget_fset_lt (Registers.wf_wr h _ _) _ ((Nat.min_le_right _ _).trans_lt hcause) (by decide)

/-! ### What follows a reset -/

/-- The places that reading VOUT_MODE, or failing to, writes. -/
abbrev readPlaces : List Place := (wakeRegs.map fun o => regAt (pmbB + o)) ++ page pmbB [PMB_STAT.VOUT_N, PMB_STAT.VALID]

/-- Another attempt follows. -/
theorem startGivenUp_again {starts : Nat} (hlt : starts < 3) (s : State) :
    let t := startGivenUp starts s
    t.regs = s.regs ∧ t.pow.hall = .retry ∧ t.pow.starts = s.pow.starts ∧ t.pow.porReset = s.pow.porReset ∧ t.link = s.link ∧
      t.time = s.time := by
  intro t
  have ht : t = hallPut .retry (pmbWrite 1 0 s) := if_pos hlt
  rw [ht]
  exact ⟨rfl, rfl, rfl, rfl, rfl, rfl⟩

/-- A failed first attempt. -/
theorem startFailed_first {s : State} (h : Registers.wf s = true) (hstarts : s.pow.starts = 0) (hwaking : s.pow.waking = none) :
    let t := startFailed (powPut { s.pow with starts := s.pow.starts + 1 } s)
    Only readPlaces s t ∧ t.pow.hall = .retry ∧ t.pow.starts = 1 ∧ t.pow.porReset = s.pow.porReset ∧ t.link = s.link ∧
      t.time = s.time := by
  intro t
  have hput : Only readPlaces s (powPut { s.pow with starts := s.pow.starts + 1 } s) := (Only.refl h).of_regs (Eq.refl s.regs)
  have hpow : (powPut { s.pow with starts := s.pow.starts + 1 } s).pow.starts = 1 := congrArg (· + 1) hstarts
  have hwake : (powPut { s.pow with starts := s.pow.starts + 1 } s).pow.waking = none := hwaking
  have hpor : (powPut { s.pow with starts := s.pow.starts + 1 } s).pow.porReset = s.pow.porReset := rfl
  have hlink : (powPut { s.pow with starts := s.pow.starts + 1 } s).link = s.link := rfl
  have htime : (powPut { s.pow with starts := s.pow.starts + 1 } s).time = s.time := rfl
  have ht : t = _ := startFailed_stages _
  generalize powPut { s.pow with starts := s.pow.starts + 1 } s = u at hput hpow hwake hpor hlink htime ht
  rw [hwake, hpow] at ht
  obtain ⟨honly, -⟩ := wakeRecord_shows (src := 0) (mode := 0) 0 false true (by decide) (by decide) hput.wf
  have hsame {α : Type} (p : State → α) (hp : ∀ a v u, p (wr a v u) = p u) : p (wakeRecord 0 0 0 false true u) = p u :=
    wakeRecord_same p hp 0 0 0 false true u
  rw [Option.getD_none] at ht
  have hrecPow := hsame (·.pow) fun _ _ _ => rfl
  have hrecLink := hsame (·.link) fun _ _ _ => rfl
  have hrecTime := hsame (·.time) fun _ _ _ => rfl
  have hrec : Only readPlaces s (wakeRecord 0 0 0 false true u) := hput.trans (honly.mono (List.subset_append_left _ _))
  generalize wakeRecord 0 0 0 false true u = v at ht hrecPow hrecLink hrecTime hrec
  obtain ⟨hregs, hhall, hone, hkept, hl, htm⟩ := startGivenUp_again (starts := 1) (by decide) v
  rw [← ht] at hregs hhall hone hkept hl htm
  exact ⟨hrec.of_regs hregs, hhall, hone.trans ((congrArg PowState.starts hrecPow).trans hpow),
    hkept.trans ((congrArg PowState.porReset hrecPow).trans hpor), hl.trans (hrecLink.trans hlink),
    htm.trans (hrecTime.trans htime)⟩

/-- The first attempt after a power-on reset. -/
theorem startRead_first {s : State} (h : Registers.wf s = true) (hpor : s.pow.porReset = true)
    (hvalid : fis pmbB PMB_STAT.VALID s = false) (hstarts : s.pow.starts = 0) (hwaking : s.pow.waking = none)
    (m : Option (BitVec 8)) :
    let t := startRead m s
    Only readPlaces s t ∧ t.pow.hall = (if m = none then Hall.retry else Hall.waitAck) ∧ t.pow.starts = 1 ∧
      t.pow.porReset = true ∧ t.link = s.link ∧ t.time = s.time := by
  intro t
  have ht : t = _ := startRead_open hpor hvalid m
  have hgo {u : State} (hu : t = startAttempt u) (honly : Only readPlaces s u) (hpow : u.pow = s.pow) (hlink : u.link = s.link)
      (htime : u.time = s.time) : Only readPlaces s t ∧ t.pow.hall = .waitAck ∧ t.pow.starts = 1 ∧ t.pow.porReset = true ∧
      t.link = s.link ∧ t.time = s.time := by
    obtain ⟨hregs, hwait, hone, -, hl, htm, hp⟩ := startAttempt_shows u
    rw [hu]
    rw [hpow, hstarts] at hone
    rw [hpow, hpor] at hp
    exact ⟨honly.of_regs hregs, hwait, hone, hp, hl.trans hlink, htm.trans htime⟩
  cases m with
  | none =>
    obtain ⟨honly, hretry, hone, hp, hl, htm⟩ := startFailed_first h hstarts hwaking
    have hfail : t = startFailed (powPut { s.pow with starts := s.pow.starts + 1 } s) := ht
    rw [hfail, if_pos rfl]
    exact ⟨honly, hretry, hone, hp.trans hpor, hl, htm⟩
  | some v =>
    rw [if_neg (by simp)]
    by_cases hlin : v.toNat / 32 = 0 ∧ 16 ≤ v.toNat % 32 ∧ v.toNat % 32 ≤ 25
    · have hset : Only (page pmbB [PMB_STAT.VOUT_N, PMB_STAT.VALID]) s
          (fset pmbB PMB_STAT.VALID 1 (fset pmbB PMB_STAT.VOUT_N (v.toNat % 32) s)) :=
        ((Only.refl h).fsetIn (by decide) _).fsetIn (by decide) _
      exact hgo (ht.trans (if_pos hlin)) (hset.mono (List.subset_append_right _ _)) rfl rfl rfl
    · exact hgo (ht.trans (if_neg hlin)) (.refl h) rfl rfl rfl

/-- The power state of a hall that was reset. -/
theorem hallFresh_pow (por : Bool) (s : State) : (hallFresh por s).pow.porReset = por ∧ (hallFresh por s).pow.starts = 0 ∧
    (hallFresh por s).pow.waking = none ∧ (hallFresh por s).pow.hall = s.pow.hall := ⟨rfl, rfl, rfl, rfl⟩

/-! ### BROWNOUT (R654, R591) -/

theorem brownout_run {m : Option (BitVec 8)} {s : State} (hrun : s.pow.hall = .run)
    (hnot : ¬ (phase s = 3 ∧ 3 ≤ s.pow.target)) : brownout (startRead m) s =
    hallReset 1 true (startRead m) (fset pmbB PMB_STAT.VALID 0 s) := by
  unfold brownout
  dsimp only
  rw [hrun]
  exact if_neg fun hor => hor.elim Bool.false_ne_true hnot

theorem brownout_resets {m : Option (BitVec 8)} {s : State} (hrun : s.pow.hall = .run)
    (hnot : ¬ (phase s = 3 ∧ 3 ≤ s.pow.target)) (h : Registers.wf s = true) :
    let t := brownout (startRead m) s
    t.pow.porReset = true ∧ fget pmbB RST_STAT.CAUSE t = 1 ∧
      bitOf (rd 0x70030304 t) 1 = true ∧ t.pow.hall = (if m = none then Hall.retry else Hall.waitAck) ∧
      t.time.nt = 0 ∧ t.time.air = 0 ∧ t.link.duty = s.link.duty := by
  intro t
  have hvalid : fget pmbB PMB_STAT.VALID (fset pmbB PMB_STAT.VALID 0 s) = 0 := fget_fset_lt h _ (by decide) (by decide)
  have hset := Registers.wf_fset h pmbB PMB_STAT.VALID 0
  have hup : (fset pmbB PMB_STAT.VALID 0 s).pow.hall = .run := hrun
  have hduty : (fset pmbB PMB_STAT.VALID 0 s).link.duty = s.link.duty := rfl
  have ht : t = hallReset 1 true (startRead m) (fset pmbB PMB_STAT.VALID 0 s) := brownout_run hrun hnot
  generalize fset pmbB PMB_STAT.VALID 0 s = u at hvalid hset hup hduty ht
  have hseen := causeSeen_only hset 1
  have hcause := causeSeen_settled hset (.inl hup) (show 1 < 16 by decide)
  have hbit : bitOf (rd 0x70030304 (causeSeen 1 u)) 1 = true :=
    (causeSeen_bit hset (by decide) (by decide)).trans (by rw [decide_eq_true rfl, Bool.true_or])
  have hseenDuty : (causeSeen 1 u).link.duty = u.link.duty := rfl
  have hstart : t = startRead m (hallFresh (u.pow.porReset || true) (causeSeen 1 u)) := by
    rw [ht, hallReset_stages, hup]
  rw [Bool.or_true] at hstart
  have hvalidSeen : fget pmbB PMB_STAT.VALID (causeSeen 1 u) = 0 := (hseen.field (by decide)).trans hvalid
  generalize causeSeen 1 u = v at hseen hcause hbit hseenDuty hstart hvalidSeen
  obtain ⟨hwf, hrd, hfreshDuty, htimes⟩ := hallFresh_shows hseen.wf true
  obtain ⟨hpor, hzero, hnone, -⟩ := hallFresh_pow true v
  obtain ⟨hnt, hair⟩ := htimes rfl
  generalize hallFresh true v = w at hwf hrd hfreshDuty hpor hzero hnone hnt hair hstart
  have hfield {f : Fld} (hf : Spared (pmbB + f.off)) (hlo : 0x70000000 ≤ pmbB + f.off) : fget pmbB f w = fget pmbB f v :=
    congrArg (bitsOf · f.lo f.w) (hrd _ hlo hf)
  have hopen : fis pmbB PMB_STAT.VALID w = false :=
    congrArg (· == 1) ((hfield (f := PMB_STAT.VALID) (by decide) (by decide)).trans hvalidSeen)
  obtain ⟨honly, hhall, -, hreset, hlink, htime⟩ := startRead_first hwf hpor hopen hzero hnone m
  rw [← hstart] at honly hhall hreset hlink htime
  refine ⟨hreset, ?_, ?_, hhall, ?_, ?_, ?_⟩
  · exact (honly.field (by decide)).trans ((hfield (by decide) (by decide)).trans hcause)
  · exact (congrArg (bitOf · 1) ((honly.rd (by decide)).trans (hrd _ (by decide) (by decide)))).trans hbit
  · rw [htime, hnt]
  · rw [htime, hair]
  · rw [hlink, hfreshDuty, hseenDuty, hduty]

/-! ### SYS_RST_N and RST_CMD (R654, R666) -/

/-- Whatever the hall does, a low pin leaves it reset. -/
theorem pinReset_low (s : State) : ∃ u : State, u.regs = (hallFresh (s.pow.porReset || false) (causeSeen 4 s)).regs ∧
    pinReset true s = hallPut .pinLow u := by
  refine ⟨hallReset 4 false (hallPut .pinLow) s, ?_, rfl⟩
  rw [hallReset_stages]
  split <;> rfl

theorem pinReset_low_shows {s : State} (h : Registers.wf s = true) :
    (pinReset true s).pow.hall = .pinLow ∧ bitOf (rd 0x70030304 (pinReset true s)) 4 = true := by
  obtain ⟨u, hregs, heq⟩ := pinReset_low s
  obtain ⟨-, hrd, -, -⟩ := hallFresh_shows (causeSeen_only h 4).wf (s.pow.porReset || false)
  have hseen := causeSeen_bit (cause := 4) (c := 4) h (by decide) (by decide)
  rw [heq]
  refine ⟨rfl, ?_⟩
  have hword : rd 0x70030304 (hallPut .pinLow u) = rd 0x70030304 (causeSeen 4 s) :=
    (congrArg (fun r => tget regReset r 0x70030304) hregs).trans (hrd _ (by decide) (by decide))
  rw [hword, hseen, decide_eq_true rfl, Bool.true_or]

theorem hallRestart_run {cause : Nat} {s : State} (hrun : s.pow.hall = .run) :
    hallRestart cause s = startAttempt (hallFresh (s.pow.porReset || false) (causeSeen cause s)) := by
  unfold hallRestart
  rw [hallReset_stages, hrun]

theorem hallRestart_shows {cause : Nat} (hcause : cause < 16) {s : State} (hrun : s.pow.hall = .run) (h : Registers.wf s = true) :
    let t := hallRestart cause s
    t.pow.hall = .waitAck ∧ t.pow.starts = 1 ∧ fget pmbB RST_STAT.CAUSE t = cause ∧
      bitOf (rd 0x70030304 t) cause = true ∧ fget pmbB RST_STAT.CNT t = fget pmbB RST_STAT.CNT s ∧
      rd 0x70000000 t = rd 0x70000000 s ∧ t.link.duty = s.link.duty := by
  intro t
  have ht : t = _ := hallRestart_run hrun
  have hseen := causeSeen_only h cause
  have hshown := causeSeen_settled h (.inl hrun) hcause
  have hbit : bitOf (rd 0x70030304 (causeSeen cause s)) cause = true :=
    (causeSeen_bit h (by omega) (by omega)).trans (by rw [decide_eq_true rfl, Bool.true_or])
  have hduty : (causeSeen cause s).link.duty = s.link.duty := rfl
  have hcnt : fget pmbB RST_STAT.CNT (causeSeen cause s) = fget pmbB RST_STAT.CNT s := hseen.field (by decide)
  have hsec : rd 0x70000000 (causeSeen cause s) = rd 0x70000000 s := hseen.rd (by decide)
  generalize causeSeen cause s = v at ht hseen hshown hbit hduty hcnt hsec
  generalize (s.pow.porReset || false) = por at ht
  obtain ⟨-, hrd, hfreshDuty, -⟩ := hallFresh_shows hseen.wf por
  obtain ⟨-, hzero, -, -⟩ := hallFresh_pow por v
  generalize hallFresh por v = w at hrd hfreshDuty hzero ht
  obtain ⟨hregs, hwait, hone, -, hlink, -, -⟩ := startAttempt_shows w
  rw [← ht] at hregs hwait hone hlink
  rw [hzero] at hone
  have hread (a : Nat) (hlo : 0x70000000 ≤ a) (ha : Spared a) : rd a t = rd a v :=
    (congrArg (fun r => tget regReset r a) hregs).trans (hrd a hlo ha)
  refine ⟨hwait, hone, ?_, ?_, ?_, (hread _ (by decide) (by decide)).trans hsec, ?_⟩
  · exact (congrArg (bitsOf · 0 4) (hread 0x70030300 (by decide) (by decide))).trans hshown
  · exact (congrArg (bitOf · cause) (hread 0x70030304 (by decide) (by decide))).trans hbit
  · exact (congrArg (bitsOf · 16 16) (hread 0x70030300 (by decide) (by decide))).trans hcnt
  · rw [hlink, hfreshDuty, hduty]

/-- RST_CMD as a store with HALL set carries its key. -/
theorem rstCmd_key (key : BitVec 16) : bitsOf (BitVec.ofNat 32 (key.toNat * 65536 + 1)) 16 16 = key.toNat := by
  have hlt := key.isLt
  unfold bitsOf
  rw [BitVec.toNat_ofNat, Nat.mod_eq_of_lt (by omega)]
  omega

theorem rstCmd_other {key : BitVec 16} {s : State} (hkey : key ≠ 0x5253) :
    rstCmd (BitVec.ofNat 32 (key.toNat * 65536 + 1)) s = s := by
  refine if_neg fun hc => hkey (BitVec.eq_of_toNat_eq ?_)
  rw [rstCmd_key] at hc
  exact hc.1

theorem rstCmd_keyed {s : State} : rstCmd (BitVec.ofNat 32 ((0x5253 : BitVec 16).toNat * 65536 + 1)) s = hallRestart 6 s :=
  if_pos (by decide)

/-! ### The start from VBAT (R656–R658) -/

/-- A lantern register of which nothing is kept. -/
theorem rd_hallClear_reset {s : State} (h : Registers.wf s = true) (por : Bool) {keep : Nat → Word} {a : Nat}
    (hlo : 0x70000000 ≤ a) (hk : keep a = 0#32) : rd a (hallClear por keep s) = regReset a := by
  obtain ⟨u, hregs, -, -, heq⟩ := hallClear_stages por keep s
  have hu : Registers.wf u = true := (Registers.wf_of_regs hregs).trans (hallRested_spares h).wf
  have hreset : Registers.wf (resetKeeping (fun _ => true) keep u) = true := (resetKeeping_keeps (β := true) .rfl _ _).regs hu
  have hstart : ∀ f ∈ startPlaces, f.1 + f.2.off < 0x70000000 := by decide
  rw [heq]
  refine ((blocksStarted_only hreset _).rd fun f hf => ?_).trans ((rd_resetKeeping hu _ _ a).trans ?_)
  · have := hstart f hf
    omega
  · rw [if_pos rfl]
    exact keptWord_none hk _

/-- A part of the state that a loss of VBAT takes from the hall's reset. -/
theorem vbatClear_regs (s : State) :
    (vbatClear s).regs = (hallClear true (vbatKeep (fis tampB TAMP_CFG.LOCK s)) (supPut {} s)).regs := rfl

theorem vbatClear_shows {s : State} (h : Registers.wf s = true) :
    let t := vbatClear s
    Registers.wf t = true ∧ (∀ a, 0x70000000 ≤ a → (∀ locked, vbatKeep locked a = 0#32) → rd a t = regReset a) ∧
      t.link = {} ∧ t.pow.hall = s.pow.hall ∧ t.pow.porReset = true ∧ t.pow.starts = 0 ∧ t.pow.waking = none := by
  intro t
  have hsup : Registers.wf (supPut {} s) = true := (Registers.wf_of_regs (Eq.refl s.regs)).trans h
  have hregs : t.regs = _ := vbatClear_regs s
  refine ⟨?_, fun a hlo hk => ?_, rfl, rfl, rfl, rfl, rfl⟩
  · exact (Registers.wf_of_regs hregs).trans (hallClear_shows hsup true _).1
  · exact (congrArg (fun r => tget regReset r a) hregs).trans (rd_hallClear_reset hsup true hlo (hk _))

/-- The lantern with its store read: the crystal has not started, a pending erase completes, PWR_ON is driven. -/
def vbatReady (s : State) : State :=
  owe (linkB + 0x40) 2 736 (pwrOn true (fset tampB TAMP_STAT.ERASE_PEND 0 (fset calB CAL_STAT.LF_RUN 0 (fset calB CAL_STAT.OSF 1 s))))

abbrev readyPlaces : List Place :=
  [(calB, CAL_STAT.OSF), (calB, CAL_STAT.LF_RUN), (tampB, TAMP_STAT.ERASE_PEND), (calB, PWR_ON.ON)]

theorem vbatReady_shows {s : State} (h : Registers.wf s = true) :
    let t := vbatReady s
    Only readyPlaces s t ∧ fget calB CAL_STAT.OSF t = 1 ∧ fget calB CAL_STAT.LF_RUN t = 0 ∧ fget calB PWR_ON.ON t = 1 ∧
      t.link = s.link ∧ t.pow.hall = s.pow.hall ∧ t.pow.porReset = s.pow.porReset ∧ t.pow.starts = s.pow.starts ∧
      t.pow.waking = s.pow.waking := by
  intro t
  have h1 := Registers.wf_fset h calB CAL_STAT.OSF 1
  have h2 := Registers.wf_fset h1 calB CAL_STAT.LF_RUN 0
  have hpend : Only [(tampB, TAMP_STAT.ERASE_PEND)] (fset calB CAL_STAT.LF_RUN 0 (fset calB CAL_STAT.OSF 1 s)) (fset tampB TAMP_STAT.ERASE_PEND 0
      (fset calB CAL_STAT.LF_RUN 0 (fset calB CAL_STAT.OSF 1 s))) := (Only.refl h2).fset (by decide) _
  have hon : Only [(calB, PWR_ON.ON)] (fset tampB TAMP_STAT.ERASE_PEND 0
      (fset calB CAL_STAT.LF_RUN 0 (fset calB CAL_STAT.OSF 1 s))) (pwrOn true (fset tampB TAMP_STAT.ERASE_PEND 0
      (fset calB CAL_STAT.LF_RUN 0 (fset calB CAL_STAT.OSF 1 s)))) := (Only.refl hpend.wf).fset (by decide) _
  have hall : Only readyPlaces s (pwrOn true (fset tampB TAMP_STAT.ERASE_PEND 0
      (fset calB CAL_STAT.LF_RUN 0 (fset calB CAL_STAT.OSF 1 s)))) :=
    (((((Only.refl h).fset (by decide) _).fset (by decide) _).fset (by decide) _).fset (by decide) _)
  have hregs : t.regs = (pwrOn true (fset tampB TAMP_STAT.ERASE_PEND 0
      (fset calB CAL_STAT.LF_RUN 0 (fset calB CAL_STAT.OSF 1 s)))).regs := rfl
  refine ⟨hall.of_regs hregs, ?_, ?_, ?_, rfl, rfl, rfl, rfl, rfl⟩
  · exact (fget_of_regs hregs _ _).trans ((hon.field (by decide)).trans ((hpend.field (by decide)).trans
      ((fget_fset_of_apart h1 _ _ (by decide)).trans (fget_fset_lt h _ (by decide) (by decide)))))
  · exact (fget_of_regs hregs _ _).trans ((hon.field (by decide)).trans ((hpend.field (by decide)).trans
      (fget_fset_lt h1 _ (by decide) (by decide))))
  · exact (fget_of_regs hregs _ _).trans (fget_fset_lt hpend.wf _ (by decide) (by decide))

theorem vbatPowerOn_stages (m : Option (BitVec 8)) (s : State) : vbatPowerOn m s =
    match (vbatReady (vbatClear s)).pow.hall with
    | .pinLow => vbatReady (vbatClear s)
    | _ => startRead m (vbatReady (vbatClear s)) := rfl

/-- A register beside those written reads its reset value. -/
theorem vbatStarted_shows (m : Option (BitVec 8)) {s : State} (h : Registers.wf s = true) :
    let t := vbatPowerOn m s
    ∃ u, Registers.wf u = true ∧ (∀ a, 0x70000000 ≤ a → (∀ locked, vbatKeep locked a = 0#32) → rd a u = regReset a) ∧
      Only (readyPlaces ++ readPlaces) u t ∧ fget calB CAL_STAT.OSF t = 1 ∧ fget calB CAL_STAT.LF_RUN t = 0 ∧
      fget calB PWR_ON.ON t = 1 ∧ t.link = {} ∧ (s.pow.hall = .pinLow → t.pow.hall = .pinLow) ∧
      (s.pow.hall ≠ .pinLow → t.pow.porReset = true ∧ t.pow.starts = 1 ∧
        t.pow.hall = (if m = none then Hall.retry else Hall.waitAck)) := by
  intro t
  have ht : t = _ := vbatPowerOn_stages m s
  obtain ⟨hwf, hrd, hlink, hhall, hpor, hzero, hnone⟩ := vbatClear_shows h
  generalize vbatClear s = u at ht hwf hrd hlink hhall hpor hzero hnone
  refine ⟨u, hwf, hrd, ?_⟩
  obtain ⟨honly, hosf, hlf, hon, hrlink, hrhall, hrpor, hrzero, hrnone⟩ := vbatReady_shows hwf
  have hvalid : fis pmbB PMB_STAT.VALID (vbatReady u) = false := by
    have hfield : fget pmbB PMB_STAT.VALID (vbatReady u) = 0 := (honly.field (by decide)).trans ((congrArg (bitsOf · PMB_STAT.VALID.lo PMB_STAT.VALID.w) (hrd 0x70030004 (by decide) (by decide))).trans (by decide))
    exact congrArg (· == 1) hfield
  generalize vbatReady u = v at ht honly hosf hlf hon hrlink hrhall hrpor hrzero hrnone hvalid
  by_cases hpin : s.pow.hall = .pinLow
  · have hstay : t = v := by
      rw [ht, hrhall, hhall, hpin]
    rw [hstay]
    exact ⟨honly.mono (List.subset_append_left _ _), hosf, hlf, hon, hrlink.trans hlink,
      fun _ => hrhall.trans (hhall.trans hpin), fun hne => absurd hpin hne⟩
  · obtain ⟨hread, hstate, hone, hreset, hl, -⟩ := startRead_first honly.wf (hrpor.trans hpor) hvalid (hrzero.trans hzero)
      (hrnone.trans hnone) m
    have hgo : t = startRead m v := by
      rw [ht]
      split
      · next hp => exact absurd (hhall.symm.trans (hrhall.symm.trans hp)) hpin
      · rfl
    rw [← hgo] at hread hstate hone hreset hl
    exact ⟨(honly.mono (List.subset_append_left _ _)).trans (hread.mono (List.subset_append_right _ _)),
      (hread.field (by decide)).trans hosf, (hread.field (by decide)).trans hlf, (hread.field (by decide)).trans hon,
      hl.trans (hrlink.trans hlink), fun hp => absurd hp hpin, fun _ => ⟨hreset, hone, hstate⟩⟩

theorem vbatPowerOn_shows (m : Option (BitVec 8)) {s : State} (h : Registers.wf s = true) :
    let t := vbatPowerOn m s
    fget pmbB RST_STAT.CAUSE t = 0 ∧ fget pmbB RST_STAT.CNT t = 0 ∧
      rd 0x70030304 t = 1 ∧ fis calB PWR_ON.ON t = true ∧ fis calB CAL_STAT.LF_RUN t = false ∧
      calSec t = 0 ∧ fget calB CAL_SEC_HI.SUBSEC t = 0 ∧ fis calB CAL_STAT.OSF t = true ∧
      rd 0x70000008 t = (calFields 0).timeWord ∧ rd 0x7000000C t = (calFields 0).dateWord 6 ∧
      t.link.duty = [] ∧ t.link.gasp = none ∧ (s.pow.hall = .pinLow → t.pow.hall = .pinLow) ∧
      (s.pow.hall ≠ .pinLow → t.pow.porReset = true ∧ t.pow.starts = 1 ∧
        t.pow.hall = (if m = none then Hall.retry else Hall.waitAck)) := by
  intro t
  obtain ⟨u, hwf, hrd, honly, hosf, hlf, hon, hlink, hpin, hstart⟩ := vbatStarted_shows m h
  have hread (a : Nat) (hlo : 0x70000000 ≤ a) (hk : ∀ locked, vbatKeep locked a = 0#32)
      (hp : ∀ f ∈ readyPlaces ++ readPlaces, a ≠ f.1 + f.2.off) : rd a t = regReset a :=
    (honly.rd hp).trans (hrd a hlo hk)
  have hstat : rd 0x70030300 t = 0 := (hread _ (by decide) (by decide) (by decide)).trans (by decide)
  have hhi : rd 0x70000004 t = 0 := (hread _ (by decide) (by decide) (by decide)).trans (by decide)
  have hlow : rd 0x70000000 t = 0 := (hread _ (by decide) (by decide) (by decide)).trans (by decide)
  refine ⟨?_, ?_, ?_, congrArg (· == 1) hon, congrArg (· == 1) hlf, ?_, ?_, congrArg (· == 1) hosf, ?_, ?_,
    congrArg LinkState.duty hlink, congrArg LinkState.gasp hlink, hpin, hstart⟩
  · exact congrArg (bitsOf · 0 4) hstat
  · exact congrArg (bitsOf · 16 16) hstat
  · exact (hread _ (by decide) (by decide) (by decide)).trans (by decide)
  · show (rd 0x70000000 t).toNat + 2 ^ 32 * bitsOf (rd 0x70000004 t) _ _ = 0
    rw [hlow, hhi]
    rfl
  · exact congrArg (bitsOf · 16 16) hhi
  · exact (hread _ (by decide) (by decide) (by decide)).trans (by decide)
  · exact (hread _ (by decide) (by decide) (by decide)).trans (by decide)

/-- Settles O58. -/
theorem resetsByCause : Obligations.ResetsByCause := by
  unfold Obligations.ResetsByCause
  refine ⟨fun m s h => ⟨_, rfl, vbatPowerOn_shows m h⟩, rfl, fun m s => ⟨fun hoff => ?_, fun hphase htarget => ?_,
    fun hrun hnot h => ⟨_, rfl, brownout_resets hrun hnot h⟩⟩,
    fun s => ⟨fun h => ⟨_, rfl, pinReset_low_shows h⟩, fun hpin => ?_, fun hpin herase => ?_, fun hpin herase => ?_⟩,
    fun i key s hadm => ⟨fun hkey => ?_, fun hkey hrun h => ?_⟩, fun cause s hcause h => ⟨fun c hc => ?_, fun hhall => ?_,
    causeSeen_lower h (by omega)⟩⟩
  · refine congrArg Host.Outcome.next (if_pos (.inl ?_))
    rcases hoff with hoff | hoff <;> rw [hoff]
  · exact congrArg Host.Outcome.next (if_pos (.inr ⟨hphase, htarget⟩))
  · exact congrArg Host.Outcome.next (if_neg hpin)
  · exact congrArg Host.Outcome.next ((if_pos hpin).trans (if_neg (by rw [herase]; decide)))
  · exact congrArg Host.Outcome.next ((if_pos hpin).trans (if_pos herase))
  · exact congrArg Host.Outcome.next ((doorStore_admits hadm).trans (congrArg acknowledge (rstCmd_other hkey)))
  · subst hkey
    exact ⟨_, congrArg Host.Outcome.next ((doorStore_admits hadm).trans (congrArg acknowledge rstCmd_keyed)),
      hallRestart_shows (by decide) hrun h⟩
  · exact causeSeen_bit h (by omega) (by omega)
  · exact causeSeen_settled h hhall (by omega)

end Sys2Proof.Machine

namespace Sys2Proof.Tests
open Sys2Proof.Machine

set_option maxRecDepth 8000

/-- A hall in RUN is reset by a brownout; the regulator answers −8. -/
theorem test_hyps_resetsByCause : (brownout (startRead (some 0x18)) up).pow.hall = .waitAck :=
  (brownout_resets (m := some 0x18) (by decide) (by decide) (by decide)).2.2.2.1

end Sys2Proof.Tests
end

section
/-!
SUPPORT. The supply watch's registers, records and flags, and what a last gasp that begins leaves of them (R604, R608–R611, R615,
R623).
-/

namespace Sys2Proof.Machine

open Reg

/-! ### The places of the supply watch -/

/-- SUP_NOTE's bit `k`. -/
abbrev supBit (k : Nat) : Fld := ⟨0x24, k, 1⟩

/-- Fields of the SUP block that a record and a note write. -/
abbrev supFlds : List Fld :=
  [SUP_RECST.COUNT, SUP_RECST.LOST, supBit 0, supBit 1, supBit 2, supBit 3, supBit 4, supBit 5, supBit 6, supBit 7]

/-- Those, and fields of a channel's page. -/
abbrev supPlaces (c : Nat) (fs : List Fld) : List Place := page (supP c) fs ++ page supB supFlds

theorem supBit_mem {k : Nat} (hk : k < 8) : [(supB, supBit k)] ⊆ page supB supFlds := by
  interval_cases k <;> decide

/-- A place apart from those of the SUP block, as its address is. -/
theorem apart_supFlds {b : Nat} {g : Fld} (hw : g.lo + g.w ≤ 32) (hb : b + g.off < 0x40100000 ∨ 0x40100100 ≤ b + g.off) :
    ∀ f ∈ page supB supFlds, Place.Apart (b, g) f := by
  intro x hx
  obtain ⟨f, hf, rfl⟩ := List.mem_map.1 hx
  have hoff : ∀ f ∈ supFlds, f.off < 0x100 := by decide
  have := hoff f hf
  refine ⟨hw, .inl ?_⟩
  show b + g.off ≠ supB + f.off
  unfold supB
  omega

namespace Only

variable {c : Nat} {fs : List Fld} {s t : State}

theorem supField (h : Only (supPlaces c fs) s t) {g : Fld} (hg : ∀ f ∈ fs, g.Apart f) (hw : g.lo + g.w ≤ 32) :
    Machine.fget (supP c) g t = Machine.fget (supP c) g s :=
  h.field fun f hf => (List.mem_append.1 hf).elim (apartIn hg f)
    (apart_supFlds hw (.inr (by unfold supP supB; omega)) f)

theorem supFlag (h : Only (supPlaces c fs) s t) {g : Fld} (hg : ∀ f ∈ fs, g.Apart f) (hw : g.lo + g.w ≤ 32) :
    fis (supP c) g t = fis (supP c) g s := congrArg (· == 1) (h.supField hg hw)

/-- A field of a block below the SUP block. -/
theorem supBelow (h : Only (supPlaces c fs) s t) {b : Nat} {g : Fld} (hw : g.lo + g.w ≤ 32) (hb : b + g.off < 0x40100000) :
    Machine.fget b g t = Machine.fget b g s := by
  refine h.field fun f hf => (List.mem_append.1 hf).elim (fun hx => ?_) (apart_supFlds hw (.inl hb) f)
  obtain ⟨f, -, rfl⟩ := List.mem_map.1 hx
  refine ⟨hw, .inl ?_⟩
  show b + g.off ≠ supP c + f.off
  unfold supP supB
  omega

theorem supPhase (h : Only (supPlaces c fs) s t) : phase t = phase s := h.supBelow (by decide) (by decide)

theorem supSet (h : Only (supPlaces c fs) s t) {f : Fld} (hf : f ∈ fs) (v : Nat) :
    Only (supPlaces c fs) s (Machine.fset (supP c) f v t) :=
  h.fset (List.mem_append_left _ (List.mem_map.2 ⟨f, hf, Eq.refl _⟩)) v

theorem ofSup (h : Only (page supB supFlds) s t) : Only (supPlaces c fs) s t := h.mono (List.subset_append_right _ _)

theorem supMono (h : Only (supPlaces c fs) s t) {gs : List Fld} (hm : fs ⊆ gs) : Only (supPlaces c gs) s t :=
  h.mono (List.append_subset.2 ⟨List.Subset.trans (List.map_subset _ hm) (List.subset_append_left _ _), List.subset_append_right _ _⟩)

end Only

/-! ### Notes and records (R610, R620, R623) -/

theorem hallUp_congr {s t : State} (hp : t.pow = s.pow) (hph : phase t = phase s) : hallUp t = hallUp s := by
  unfold phase at hph
  unfold hallUp
  rw [hp, hph]

theorem supNote_eq (k : Nat) (s : State) : ∃ a e, supNote k s = if hallUp s then note supB (supBit k) e s
    else if fis supB (supBit k) s then s else owe a k e (fset supB (supBit k) 1 s) := ⟨_, _, rfl⟩

/-- A flag is set, and its event raised. -/
theorem flagRaised_shows {b e : Nat} {f : Fld} (hf : f.w = 1 ∧ f.lo + f.w ≤ 32) {s : State} (h : Registers.wf s = true) :
    Only [(b, f)] s (note b f e s) ∧ fis b f (note b f e s) = true ∧ (note b f e s).sup = s.sup ∧ (note b f e s).pow = s.pow :=
  ⟨(Only.refl h).note (List.mem_singleton.2 rfl) _, fis_note h _ hf.1 hf.2 _, note_sup _ _ _ _, note_pow _ _ _ _⟩

/-- A flag is set, and its event owed. -/
theorem flagOwed_shows {b a k e : Nat} {f : Fld} (hf : f.w = 1 ∧ f.lo + f.w ≤ 32) {s : State} (h : Registers.wf s = true) :
    let t := owe a k e (fset b f 1 s)
    Only [(b, f)] s t ∧ fis b f t = true ∧ t.sup = s.sup := by
  intro t
  have hregs : t.regs = (fset b f 1 s).regs := rfl
  exact ⟨((Only.refl h).fset (List.mem_singleton.2 rfl) 1).of_regs hregs,
    (congrArg (· == 1) (fget_of_regs hregs _ _)).trans (fis_fset_one h _ hf), rfl⟩

theorem supBit_flag {k : Nat} (hk : k < 8) : (supBit k).w = 1 ∧ (supBit k).lo + (supBit k).w ≤ 32 :=
  ⟨rfl, show k + 1 ≤ 32 by omega⟩

theorem supNote_shows {k : Nat} (hk : k < 8) {s : State} (h : Registers.wf s = true) :
    let t := supNote k s
    Only [(supB, supBit k)] s t ∧ fis supB (supBit k) t = true ∧ t.sup = s.sup ∧ (hallUp s = true → t.pow = s.pow) := by
  obtain ⟨a, e, ht⟩ := supNote_eq k s
  have hb := supBit_flag hk
  rw [ht]
  clear ht
  generalize supBit k = f at hb
  generalize supB = b
  by_cases hup : hallUp s = true
  · rw [if_pos hup]
    obtain ⟨honly, hset, hsup, hpow⟩ := flagRaised_shows (b := b) (e := e) hb h
    exact ⟨honly, hset, hsup, fun _ => hpow⟩
  · rw [if_neg hup]
    by_cases hset : fis b f s = true
    · rw [if_pos hset]
      exact ⟨.refl h, hset, rfl, fun _ => rfl⟩
    · rw [if_neg hset]
      obtain ⟨honly, hset, hsup⟩ := flagOwed_shows (b := b) (a := a) (k := k) (e := e) hb h
      exact ⟨honly, hset, hsup, fun hu => absurd hu hup⟩

theorem supRecord_full {r : SupRecord} {s : State} (hfull : 32 ≤ s.sup.recs.length) : supRecord r s = fcount supB SUP_RECST.LOST s :=
  if_pos hfull

/-- A record that finds room, before its note. -/
def supStored (r : SupRecord) (s : State) : State :=
  fset supB SUP_RECST.COUNT (s.sup.recs.length + 1) (supPut { s.sup with recs := s.sup.recs ++ [r] } s)

theorem supRecord_room {r : SupRecord} {s : State} (hroom : ¬ 32 ≤ s.sup.recs.length) : supRecord r s =
    if s.sup.recs.isEmpty then supNote 5 (supStored r s) else supStored r s := if_neg hroom

theorem supRecord_shows (r : SupRecord) {s : State} (h : Registers.wf s = true) :
    let t := supRecord r s
    Only (page supB supFlds) s t ∧ t.sup.recs = (if 32 ≤ s.sup.recs.length then s.sup.recs else s.sup.recs ++ [r]) ∧
      (hallUp s = true → t.pow = s.pow) := by
  intro t
  by_cases hfull : 32 ≤ s.sup.recs.length
  · have ht : t = _ := supRecord_full hfull
    rw [ht, if_pos hfull]
    exact ⟨(Only.refl h).fcount (by decide), rfl, fun _ => rfl⟩
  · have hput : Only (page supB supFlds) s (supPut { s.sup with recs := s.sup.recs ++ [r] } s) :=
      (Only.refl h).of_regs (Eq.refl s.regs)
    have hstored : Only (page supB supFlds) s (supStored r s) := hput.fsetIn (by decide) _
    have hrecs : (supStored r s).sup.recs = s.sup.recs ++ [r] := rfl
    have hpow : (supStored r s).pow = s.pow := rfl
    have ht : t = _ := supRecord_room hfull
    rw [if_neg hfull]
    generalize supStored r s = u at hstored hrecs hpow ht
    have hup : hallUp u = hallUp s := hallUp_congr hpow (hstored.field (by decide))
    by_cases hfirst : s.sup.recs.isEmpty = true
    · obtain ⟨hnote, -, hsup, hkept⟩ := supNote_shows (k := 5) (by decide) hstored.wf
      rw [ht, if_pos hfirst]
      exact ⟨hstored.trans (hnote.mono (supBit_mem (by decide))), (congrArg SupState.recs hsup).trans hrecs, fun hu => (hkept (hup.trans hu)).trans hpow⟩
    · rw [ht, if_neg hfirst]
      exact ⟨hstored, hrecs, fun _ => hpow⟩

/-! ### What a last gasp leaves of the supply watch (R615, R616, R620) -/

/-- From `s` to `t` the SUP block's registers stay but for SUP_NOTE, whose set bits stay set; the records stay. -/
structure SupStays (s t : State) : Prop where
  wf : Registers.wf t = true
  rd : ∀ a, InSup a → a ≠ 0x40100024 → rd a t = rd a s
  bit : ∀ k < 8, fis supB (supBit k) s = true → fis supB (supBit k) t = true
  recs : t.sup.recs = s.sup.recs

namespace SupStays

variable {s t u : State}

theorem refl (h : Registers.wf s = true) : SupStays s s := ⟨h, fun _ _ _ => rfl, fun _ _ hb => hb, rfl⟩

theorem trans (h : SupStays s t) (h' : SupStays t u) : SupStays s u :=
  ⟨h'.wf, fun a ha hne => (h'.rd a ha hne).trans (h.rd a ha hne), fun k hk hb => h'.bit k hk (h.bit k hk hb),
    h'.recs.trans h.recs⟩

theorem ite {c : Prop} [Decidable c] (ht : SupStays s t) (hu : SupStays s u) : SupStays s (if c then t else u) := by
  split <;> assumption

theorem same (h : SupStays s t) (hr : u.regs = t.regs) (hs : u.sup.recs = t.sup.recs) : SupStays s u :=
  ⟨(Registers.wf_of_regs hr).trans h.wf, fun a ha hne => (congrArg (fun r => tget regReset r a) hr).trans (h.rd a ha hne),
    fun k hk hb => (congrArg (· == 1) (fget_of_regs hr supB (supBit k))).trans (h.bit k hk hb), hs.trans h.recs⟩

theorem spares (h : SupStays s t) (h' : SparesOn InSup t u) : SupStays s u :=
  ⟨h'.wf, fun a ha hne => (h'.rd a ha).trans (h.rd a ha hne),
    fun k hk hb => (congrArg (· == 1) (h'.field (b := supB) (f := supBit k) (show InSup 0x40100024 by decide))).trans (h.bit k hk hb),
    (congrArg SupState.recs (h'.sup (by decide))).trans h.recs⟩

/-- A register of another block. -/
theorem wr (h : SupStays s t) {a : Nat} (ha : ¬ InSup a) (v : Word) : SupStays s (Machine.wr a v t) :=
  h.spares ((SparesOn.refl (fun _ => .inr) h.wf).wrBeside ha v)

theorem fset (h : SupStays s t) {b : Nat} {f : Fld} (ha : ¬ InSup (b + f.off)) (v : Nat) : SupStays s (Machine.fset b f v t) :=
  h.wr ha _

theorem pdSet (h : SupStays s t) {d : Nat} (hd : d < 80) (on : Bool) : SupStays s (pdSet d on t) :=
  h.wr (a := pdWord d) (by unfold pdWord; omega) _

theorem pdSets (on : Bool) : ∀ (l : List Nat), (∀ d ∈ l, d < 80) → ∀ {t : State}, SupStays s t →
    SupStays s (l.foldl (fun u d => Machine.pdSet d on u) t)
  | [], _, _, h => h
  | d :: r, hl, _, h => pdSets on r (fun x hx => hl x (List.mem_cons_of_mem _ hx)) (h.pdSet (hl d List.mem_cons_self) on)

theorem supNote (h : SupStays s t) {k : Nat} (hk : k < 8) : SupStays s (supNote k t) := by
  obtain ⟨honly, hset, hsup, -⟩ := supNote_shows hk h.wf
  refine h.trans ⟨honly.wf, fun a ha hne => honly.rd fun f hf => ?_, fun j hj hb => ?_, congrArg SupState.recs hsup⟩
  · rw [List.mem_singleton.1 hf]
    exact hne
  · by_cases hjk : j = k
    · rw [hjk]
      exact hset
    · refine (honly.flag fun f hf => ?_).trans hb
      rw [List.mem_singleton.1 hf]
      exact ⟨show j + 1 ≤ 32 by omega, .inr (by show j + 1 ≤ k ∨ k + 1 ≤ j; omega)⟩

end SupStays

theorem gaspHop_spares {R : Nat → Prop} {s t : State} (h : SparesOn R s t) : SparesOn R s (gaspHop t) := by
  have h1 := (h.residenceEnd .a).fePut .a { feGet .a (residenceEnd .a t) with
    trans := none, hop := false, centrePend := false, announce := false }
  exact ((((h1.fe .a (f := FE_STAT.STATE) (by decide) 2).fe .a (f := FE_STAT.BUSY) (by decide) 0).fe .a (f := FE_STAT.TARGET)
    (by decide) 2).feLock .a true).feCtlPins .a 2

theorem radioOwner_spares {R : Nat → Prop} {s t : State} (h : SparesOn R s t) (lantern : Bool) :
    SparesOn R s (radioOwner lantern t) :=
  ((h.fe .a (f := FE_OWNER.OWNER) (by decide) _).fe .a (f := FE_STAT.OWNER) (by decide) _).fe .b (f := FE_STAT.OWNER) (by decide) _

theorem licStart_spares {R : Nat → Prop} {s t : State} (h : SparesOn R s t) : SparesOn R s (licStart t) :=
  h.only (licStart_only h.wf) (by decide) rfl rfl rfl

/-- Front end A at a last gasp's end: it walks with the hall, and sleeps without it. -/
def gaspRested (g : GaspRun) (s : State) : State :=
  if hallUp s then feWalk .a (if g.ownBlock then 2 else g.feWas) s
  else if (feSleepNow .a s).pow.hall = .off then g.powered.foldl (fun u d => pdSet d false u) (feSleepNow .a s)
  else feSleepNow .a s

/-- The token and SEQ_DONE at its end. -/
def gaspTold (fromHall : Bool) (s : State) : State :=
  if fromHall then (if hallUp s then raiseEvt 790 s else s)
  else if hallUp s then raiseEvt 790 (fset (feB .a) FE_OWNER.ORIGIN 0 (radioOwner false s))
  else s

theorem gaspEnd_stages (res : Nat) {g : GaspRun} {s : State} (hg : s.sup.gasp = some g) : gaspEnd res s = supNote 7 (gaspTold g.fromHall
    (gaspRested g (gaspSeq 0 (fset pmbB LG_STAT.RESULT res (supPut { s.sup with gasp := none } s))))) := by
  unfold gaspEnd
  rw [hg]
  rfl

namespace SupStays

variable {s t : State}

theorem still (h : SupStays s t) : SparesOn InSup t t := .refl (fun _ => .inr) h.wf

theorem gaspRested (h : SupStays s t) {g : GaspRun} (hp : ∀ d ∈ g.powered, d < 80) : SupStays s (gaspRested g t) := by
  have hsleep : SupStays s (feSleepNow .a t) := h.spares (h.still.feSleepNow .a)
  exact .ite (h.spares (h.still.feWalk .a _)) (.ite (.pdSets false g.powered hp hsleep) hsleep)

theorem gaspTold (h : SupStays s t) (fromHall : Bool) : SupStays s (gaspTold fromHall t) :=
  .ite (.ite (h.spares (h.still.raiseEvt 790)) h)
    (.ite (h.spares (((radioOwner_spares h.still false).fe .a (by decide) 0).raiseEvt 790)) h)

end SupStays

/-- A last gasp that ends, with domains of the hall to power off. -/
theorem gaspEnd_stays {s : State} (h : Registers.wf s = true) (res : Nat)
    (hp : ∀ g, s.sup.gasp = some g → ∀ d ∈ g.powered, d < 80) : SupStays s (gaspEnd res s) := by
  rcases hg : s.sup.gasp with - | g
  · have hstay : gaspEnd res s = s := by
      unfold gaspEnd
      rw [hg]
    rw [hstay]
    exact .refl h
  · have hput : SupStays s (supPut { s.sup with gasp := none } s) := (SupStays.refl h).same rfl rfl
    rw [gaspEnd_stages res hg]
    exact (((((hput.fset (by decide) res).fset (f := FE_OWNER.SEQ) (by decide) 0).gaspRested (hp g hg)).gaspTold _).supNote
      (by decide))

theorem gaspBegin_stays {s : State} (h : Registers.wf s = true) : SupStays s (gaspBegin s) := by
  have hrun : ∀ {t : State}, SupStays s t → SparesOn InSup t t := fun ht => .refl (fun _ => .inr) ht.wf
  unfold gaspBegin
  extract_lets up inBlock stored powered s1 s2 s3 run p4 s4 p5 s5 s6
  have h1 : SupStays s s1 :=
    .ite ((SupStays.refl h).spares ((((SparesOn.refl (fun _ => .inr) h).airAbort .b 7).airAbort .a 7).raiseEvt 791)) (.refl h)
  have h2 : SupStays s s2 :=
    h1.spares (((radioOwner_spares (hrun h1) true).fe .a (f := FE_OWNER.ORIGIN) (by decide) _).fe .a (f := FE_OWNER.SEQ) (by decide) 1)
  have h3 : SupStays s s3 := ((h2.fset (by decide) 0).fset (by decide) 0).supNote (by decide)
  have h4 : SupStays s s4 := h3.same rfl rfl
  have hnone : SupStays s (supPut { s4.sup with gasp := some { run with ownBlock := false, powered := [] } } s4) := h4.same rfl rfl
  have hpow : ∀ d ∈ powered, d < 80 := by
    have hall : ∀ d ∈ gaspDomains, d < 80 := by decide
    intro d hd
    by_cases hup : up = true
    · rw [show powered = [] from if_pos hup] at hd
      exact absurd hd List.not_mem_nil
    · rw [show powered = _ from if_neg hup] at hd
      exact hall d (List.mem_filter.1 hd).1
  have h5 : SupStays s s5 := .pdSets true powered hpow h4
  have h6 : SupStays s s6 := .ite (h5.spares (licStart_spares (hrun h5))) h5
  refine .ite (hnone.trans (gaspEnd_stays hnone.wf 1 fun g hg d hd => ?_)) (.ite h6 (h6.spares (gaspHop_spares (hrun h6))))
  rw [← Option.some.inj hg] at hd
  exact absurd hd List.not_mem_nil

end Sys2Proof.Machine
end

section
/-!
THEOREMS. The supply watch (R603–R606, R608–R611, R624).
-/

namespace Sys2Proof.Machine

open Reg

/-! ### Zero crossings (R605) -/

theorem supCrossing_taken {c nt freq : Nat} {s : State} (hon : supOn c s = true) (hdc : supDc c s = false) : supCrossing c nt freq s =
    fset (supP c) SUP_FREQ.FREQ (if 42500 ≤ freq ∧ freq ≤ 69000 then freq else 0) (fset (supP c) SUP_STAT.ZC_V 1
      (fset (supP c) SUP_STAT.LF_T (ofBool (!pdOn 31 s)) (wr64 (supP c + 0x18) (BitVec.ofNat 64 nt) s))) :=
  if_neg (by rw [hon, hdc]; decide)

theorem supCrossing_shows {c freq : Nat} {nt : Word64} {s : State} (hon : supOn c s = true) (hdc : supDc c s = false)
    (h : Registers.wf s = true) :
    let t := supCrossing c nt.toNat freq s
    fis (supP c) SUP_STAT.ZC_V t = true ∧ rd64 (supP c + 0x18) t = nt ∧
      fget (supP c) SUP_FREQ.FREQ t = (if 42500 ≤ freq ∧ freq ≤ 69000 then freq else 0) ∧ t.sup = s.sup := by
  intro t
  have ht : t = _ := supCrossing_taken hon hdc
  rw [BitVec.ofNat_toNat, BitVec.setWidth_eq] at ht
  have hlt : (if 42500 ≤ freq ∧ freq ≤ 69000 then freq else 0) < 2 ^ SUP_FREQ.FREQ.w := by
    show _ < 16777216
    split <;> omega
  have h1 := (Registers.wf_wr (Registers.wf_wr h (supP c + 0x18) nt.low) (supP c + 0x18 + 4) nt.high)
  have h2 := Registers.wf_fset h1 (supP c) SUP_STAT.LF_T (ofBool (!pdOn 31 s))
  have hset : Only (page (supP c) [SUP_STAT.LF_T, SUP_STAT.ZC_V, SUP_FREQ.FREQ]) (wr64 (supP c + 0x18) nt s) t := by
    rw [ht]
    exact (((Only.refl h1).fsetIn (by decide) _).fsetIn (by decide) 1).fsetIn (by decide) _
  have hfreq : Only (page (supP c) [SUP_FREQ.FREQ]) (fset (supP c) SUP_STAT.ZC_V 1 (fset (supP c) SUP_STAT.LF_T (ofBool (!pdOn 31 s))
      (wr64 (supP c + 0x18) nt s))) t := by
    rw [ht]
    exact (Only.refl (Registers.wf_fset h2 _ _ _)).fsetIn (by decide) _
  refine ⟨(hfreq.flagIn (by decide)).trans (fis_fset_one h2 _ (by decide)),
    (hset.rd64In (by decide)).trans (rd64_wr64_self h _ _), ?_, by rw [ht]; rfl⟩
  rw [ht]
  exact fget_fset_lt (Registers.wf_fset h2 _ _ _) _ hlt (by decide)

/-! ### Conditions at a refresh (R608, R610) -/

/-- The hall is in RUN, and no entry is under way. -/
def Running (s : State) : Prop := s.pow.hall = .run ∧ s.pow.mode = 0 ∧ phase s = 0

theorem Running.hallUp {s : State} (h : Running s) : hallUp s = true := by
  obtain ⟨hrun, -, hphase⟩ := h
  unfold phase at hphase
  unfold Machine.hallUp
  rw [hrun, hphase]
  rfl

theorem Running.kept {s t : State} (h : Running s) (hp : t.pow = s.pow) (hph : phase t = phase s) : Running t := by
  unfold Running
  rwa [hp, hph]

/-- SAG and SWELL, whose flag is `f`: a condition lasts, ends with a record, begins with a record and a note, or stays away. -/
def supTurn (c k : Nat) (f : Fld) (stays starts : Bool) (kept begun : SupChan) (ended began : SupRecord) (s : State) : State :=
  if fis (supP c) f s then (if stays then supChanPut c kept s else supRecord ended (fset (supP c) f 0 s))
  else if starts then supNote k (supRecord began (fset (supP c) f 1 (supChanPut c begun s)))
  else s

theorem supSag_turn (v : SupSeen) (s : State) : ∃ kept begun ended began, supSag v s =
    supTurn v.ch 0 SUP_STAT.SAG (v.below (fget (supP v.ch) SUP_TH.SAG s + fget (supP v.ch) SUP_TH.HYST s) s)
      (v.below (fget (supP v.ch) SUP_TH.SAG s) s) kept begun ended began s := ⟨_, _, _, _, rfl⟩

theorem supSwell_turn (v : SupSeen) (s : State) : ∃ kept begun ended began, supSwell v s =
    supTurn v.ch 1 SUP_STAT.SWELL (v.above (((fget (supP v.ch) SUP_TH.SWELL s : Nat) : Int) - (fget (supP v.ch) SUP_TH.HYST s : Nat)) s)
      (v.above ((fget (supP v.ch) SUP_TH.SWELL s : Nat) : Int) s) kept begun ended began s := ⟨_, _, _, _, rfl⟩

/-- What a channel holds beside its page changes alone. -/
theorem supChanPut_shows (c : Nat) (v : SupChan) (s : State) : (supChanPut c v s).regs = s.regs ∧ (supChanPut c v s).pow = s.pow ∧
    (supChanPut c v s).sup.recs = s.sup.recs := ⟨rfl, rfl, rfl⟩

theorem supTurn_shows {c k : Nat} (hk : k < 8) {f : Fld} (hf : f.w = 1 ∧ f.lo + f.w ≤ 32) (stays starts : Bool)
    (kept begun : SupChan) (ended began : SupRecord) {s : State} (h : Registers.wf s = true) (hup : Running s) :
    let t := supTurn c k f stays starts kept begun ended began s
    Only (supPlaces c [f]) s t ∧ t.pow = s.pow ∧ fis (supP c) f t = (if fis (supP c) f s then stays else starts) ∧
      (fis (supP c) f t = fis (supP c) f s → t.sup.recs = s.sup.recs) := by
  intro t
  have ht : t = supTurn c k f stays starts kept begun ended began s := rfl
  have hmem : f ∈ [f] := List.mem_singleton.2 rfl
  unfold supTurn at ht
  by_cases hflag : fis (supP c) f s = true
  · rw [if_pos hflag] at ht
    rw [if_pos hflag]
    cases stays
    · have hset : Only (supPlaces c [f]) s (fset (supP c) f 0 s) := (Only.refl h).supSet hmem 0
      obtain ⟨honly, -, hpow⟩ := supRecord_shows ended hset.wf
      have hclear : fis (supP c) f t = false := by
        rw [ht]
        refine (Only.supFlag (fs := []) honly.ofSup (by simp) hf.2).trans ?_
        rw [fis, fget_fset_self h _ _ _ hf.2, Nat.zero_mod]
        rfl
      refine ⟨?_, ?_, hclear, fun he => absurd (he.symm.trans hclear) (by rw [hflag]; decide)⟩
      · rw [ht]
        exact hset.trans honly.ofSup
      · rw [ht]
        exact hpow ((hup.kept (t := fset (supP c) f 0 s) (Eq.refl s.pow) hset.supPhase).hallUp)
    · obtain ⟨hregs, hpow, hrecs⟩ := supChanPut_shows c kept s
      have hkept : t = supChanPut c kept s := ht
      rw [hkept]
      exact ⟨(Only.refl h).of_regs hregs, hpow, (congrArg (· == 1) (fget_of_regs hregs _ _)).trans hflag, fun _ => hrecs⟩
  · rw [if_neg hflag] at ht
    rw [if_neg hflag]
    cases starts
    · have hstay : t = s := ht
      rw [hstay]
      exact ⟨.refl h, rfl, Bool.eq_false_iff.2 hflag, fun _ => rfl⟩
    · obtain ⟨hregs, hpow, -⟩ := supChanPut_shows c begun s
      have hput : Only (supPlaces c [f]) s (supChanPut c begun s) := (Only.refl h).of_regs hregs
      have hset := hput.supSet hmem 1
      have hone : fis (supP c) f (fset (supP c) f 1 (supChanPut c begun s)) = true := fis_fset_one hput.wf _ hf
      have hsetPow : (fset (supP c) f 1 (supChanPut c begun s)).pow = s.pow := hpow
      have hgo : t = supNote k (supRecord began (fset (supP c) f 1 (supChanPut c begun s))) := ht
      generalize fset (supP c) f 1 (supChanPut c begun s) = u at hset hone hsetPow hgo
      obtain ⟨hrec, -, hrecPow⟩ := supRecord_shows began hset.wf
      have hupU : hallUp u = true := (hallUp_congr hsetPow hset.supPhase).trans hup.hallUp
      have hpowR := hrecPow hupU
      have hupR : hallUp (supRecord began u) = true := (hallUp_congr hpowR (hrec.field (by decide))).trans hupU
      obtain ⟨hnote, -, -, hnotePow⟩ := supNote_shows hk hrec.wf
      have hlate : Only (supPlaces c []) u t := by
        rw [hgo]
        exact Only.ofSup (hrec.trans (hnote.mono (supBit_mem hk)))
      have hset1 : fis (supP c) f t = true := (hlate.supFlag (by simp) hf.2).trans hone
      refine ⟨hset.trans (hlate.supMono (List.nil_subset _)), ?_, hset1, fun he => absurd (he.symm.trans hset1) hflag⟩
      rw [hgo]
      exact (hnotePow hupR).trans (hpowR.trans hsetPow)

/-! ### Outages (R608, R609, R611) -/

/-- An outage's beginning up to its note. -/
def supOutageSeen (v : SupSeen) (cond : SupCond) (r : SupRecord) (s : State) : State :=
  supNote 2 (supRecord r (fset (supP v.ch) SUP_STAT.OUT 1 (supChanPut v.ch { supGet v.ch s with out := cond, backAt := none } s)))

theorem supOutage_stages (v : SupSeen) (cond : SupCond) (s : State) : ∃ (r : SupRecord) (p : Prop) (_ : Decidable p),
    (r.kind = 4 ∧ r.ch = v.ch ∧ r.nt = v.nt) ∧ supOutage v cond s =
      if p then gaspBegin (supOutageSeen v cond r s) else supOutageSeen v cond r s := ⟨_, _, _, ⟨rfl, rfl, rfl⟩, rfl⟩

theorem supOutageSeen_shows (v : SupSeen) (cond : SupCond) (r : SupRecord) {s : State} (h : Registers.wf s = true) :
    let t := supOutageSeen v cond r s
    Only (supPlaces v.ch [SUP_STAT.OUT]) s t ∧ fis (supP v.ch) SUP_STAT.OUT t = true ∧ fis supB (supBit 2) t = true ∧
      t.sup.recs = (if 32 ≤ s.sup.recs.length then s.sup.recs else s.sup.recs ++ [r]) := by
  intro t
  obtain ⟨hregs, -, hrecs⟩ := supChanPut_shows v.ch { supGet v.ch s with out := cond, backAt := none } s
  have ht : t = supNote 2 (supRecord r (fset (supP v.ch) SUP_STAT.OUT 1 _)) := rfl
  generalize supChanPut v.ch { supGet v.ch s with out := cond, backAt := none } s = w at hregs hrecs ht
  have hput : Only (supPlaces v.ch [SUP_STAT.OUT]) s w := (Only.refl h).of_regs hregs
  have hset := hput.supSet (f := SUP_STAT.OUT) (by decide) 1
  have hone : fis (supP v.ch) SUP_STAT.OUT (fset (supP v.ch) SUP_STAT.OUT 1 w) = true := fis_fset_one hput.wf _ (by decide)
  have hsetRecs : (fset (supP v.ch) SUP_STAT.OUT 1 w).sup.recs = s.sup.recs := hrecs
  generalize fset (supP v.ch) SUP_STAT.OUT 1 w = u at hset hone hsetRecs ht
  obtain ⟨hrec, hrecRecs, -⟩ := supRecord_shows r hset.wf
  obtain ⟨hnote, hbit, hsup, -⟩ := supNote_shows (k := 2) (by decide) hrec.wf
  rw [← ht] at hnote hbit hsup
  have hlate : Only (supPlaces v.ch []) u t := Only.ofSup (hrec.trans (hnote.mono (supBit_mem (by decide))))
  refine ⟨hset.trans (hlate.supMono (List.nil_subset _)), (hlate.supFlag (by simp) (by decide)).trans hone, hbit, ?_⟩
  rw [hsup, hrecRecs, hsetRecs]

/-- An outage begins, and a last gasp with it or not. -/
theorem supOutage_shows (v : SupSeen) (cond : SupCond) {s : State} (h : Registers.wf s = true) :
    ∃ (r : SupRecord) (w : State), (r.kind = 4 ∧ r.ch = v.ch ∧ r.nt = v.nt) ∧ Only (supPlaces v.ch [SUP_STAT.OUT]) s w ∧
      fis (supP v.ch) SUP_STAT.OUT w = true ∧ fis supB (supBit 2) w = true ∧
      w.sup.recs = (if 32 ≤ s.sup.recs.length then s.sup.recs else s.sup.recs ++ [r]) ∧ SupStays w (supOutage v cond s) := by
  obtain ⟨r, p, _, hr, heq⟩ := supOutage_stages v cond s
  obtain ⟨honly, hout, hbit, hrecs⟩ := supOutageSeen_shows v cond r h
  generalize supOutageSeen v cond r s = w at heq honly hout hbit hrecs
  refine ⟨r, w, hr, honly, hout, hbit, hrecs, ?_⟩
  rw [heq]
  exact .ite (gaspBegin_stays honly.wf) (.refl honly.wf)

/-- A field of a channel's page through a last gasp. -/
theorem SupStays.page {s t : State} (h : SupStays s t) {c : Nat} (hc : c < 4) {f : Fld} (hf : f.off < 0x40) :
    fget (supP c) f t = fget (supP c) f s :=
  congrArg (bitsOf · f.lo f.w) (h.rd _ (by unfold supP supB InSup; omega) (by unfold supP supB; omega))

theorem SupStays.pageFlag {s t : State} (h : SupStays s t) {c : Nat} (hc : c < 4) {f : Fld} (hf : f.off < 0x40) :
    fis (supP c) f t = fis (supP c) f s := congrArg (· == 1) (h.page hc hf)

theorem supOut_away {v : SupSeen} {n : Nat} {s : State} (hout : fis (supP v.ch) SUP_STAT.OUT s = false) : supOut v n s =
    if v.below (fget (supP v.ch) SUP_TH.OUT s) s then supOutage v v.begins s else s :=
  if_neg (by rw [hout]; decide)

theorem supOut_low {v : SupSeen} {n : Nat} {s : State} (hout : fis (supP v.ch) SUP_STAT.OUT s = true)
    (hlow : v.below (fget (supP v.ch) SUP_TH.OUT s + fget (supP v.ch) SUP_TH.HYST s) s = true) :
    ∃ kept, supOut v n s = supChanPut v.ch kept s := by
  refine ⟨{ supGet v.ch s with out := v.lasts false (supGet v.ch s).out, backAt := none }, (if_pos hout).trans ?_⟩
  dsimp only
  rw [if_pos hlow]

theorem supOut_high {v : SupSeen} {n : Nat} {s : State} (hout : fis (supP v.ch) SUP_STAT.OUT s = true)
    (hlow : ¬ v.below (fget (supP v.ch) SUP_TH.OUT s + fget (supP v.ch) SUP_TH.HYST s) s = true) :
    ∃ (kept back : SupChan) (r : SupRecord) (p : Prop) (_ : Decidable p), supOut v n s =
      if p then
        (let s2 := supNote 3 (supRecord r (supChanPut v.ch back (fset (supP v.ch) SUP_STAT.OUT 0 s)))
         if wakeArmed 6 0 s2 then wakeArrive 6 0 s2 else s2)
      else supChanPut v.ch kept s := by
  refine ⟨{ supGet v.ch s with out := v.lasts false (supGet v.ch s).out, backAt := some ((supGet v.ch s).backAt.getD n) },
    { supGet v.ch s with backAt := none }, v.rec_ 5 (supGet v.ch s).out s,
    fget (supP v.ch) SUP_CFG.RESTORE s * 2560 ≤ n - (supGet v.ch s).backAt.getD n, inferInstance, (if_pos hout).trans ?_⟩
  dsimp only
  rw [if_neg hlow]

/-- In RUN with no entry under way a wake does nothing. -/
theorem wakeArrive_running {src ev : Nat} {s : State} (h : Running s) : wakeArrive src ev s = s := by
  obtain ⟨hrun, hmode, hphase⟩ := h
  exact (wakeArrive_run hrun).trans ((if_pos hmode).trans ((if_neg (by omega)).trans (if_neg (by omega))))

/-- The end of an outage. -/
theorem supRestored_shows {c : Nat} (back : SupChan) (r : SupRecord) {s : State} (h : Registers.wf s = true) (hup : Running s) :
    let t := supNote 3 (supRecord r (supChanPut c back (fset (supP c) SUP_STAT.OUT 0 s)))
    Only (supPlaces c [SUP_STAT.OUT]) s t ∧ Running t ∧ fis (supP c) SUP_STAT.OUT t = false := by
  intro t
  have hset : Only (supPlaces c [SUP_STAT.OUT]) s (fset (supP c) SUP_STAT.OUT 0 s) := (Only.refl h).supSet (by decide) 0
  have hzero : fget (supP c) SUP_STAT.OUT (fset (supP c) SUP_STAT.OUT 0 s) = 0 := fget_fset_lt h _ (by decide) (by decide)
  have hpow : (fset (supP c) SUP_STAT.OUT 0 s).pow = s.pow := rfl
  have ht : t = supNote 3 (supRecord r (supChanPut c back (fset (supP c) SUP_STAT.OUT 0 s))) := rfl
  generalize fset (supP c) SUP_STAT.OUT 0 s = u at hset hzero hpow ht
  obtain ⟨hregs, hputPow, -⟩ := supChanPut_shows c back u
  have hput : Only (supPlaces c [SUP_STAT.OUT]) u (supChanPut c back u) := (Only.refl hset.wf).of_regs hregs
  have hzero' := (fget_of_regs hregs (supP c) SUP_STAT.OUT).trans hzero
  generalize supChanPut c back u = w at hput hputPow hzero' ht
  have honW := hset.trans hput
  have hupW : Running w := hup.kept (hputPow.trans hpow) honW.supPhase
  obtain ⟨hrec, -, hrecPow⟩ := supRecord_shows r hput.wf
  have hupR : Running (supRecord r w) := hupW.kept (hrecPow hupW.hallUp) (hrec.field (by decide))
  obtain ⟨hnote, -, -, hnotePow⟩ := supNote_shows (k := 3) (by decide) hrec.wf
  rw [← ht] at hnote hnotePow
  have hlate : Only (supPlaces c []) w t := Only.ofSup (hrec.trans (hnote.mono (supBit_mem (by decide))))
  have hphase : phase t = phase (supRecord r w) := hnote.field (by decide)
  exact ⟨honW.trans (hlate.supMono (List.nil_subset _)), hupR.kept (hnotePow hupR.hallUp) hphase,
    congrArg (· == 1) ((hlate.supField (by simp) (by decide)).trans hzero')⟩

theorem supOut_shows (v : SupSeen) (n : Nat) {s : State} (h : Registers.wf s = true) (hup : Running s) :
    ∃ w, Only (supPlaces v.ch [SUP_STAT.OUT]) s w ∧ SupStays w (supOut v n s) ∧
      (fis (supP v.ch) SUP_STAT.OUT s = false → fis (supP v.ch) SUP_STAT.OUT w = v.below (fget (supP v.ch) SUP_TH.OUT s) s) ∧
      (fis (supP v.ch) SUP_STAT.OUT s = true →
        v.below (fget (supP v.ch) SUP_TH.OUT s + fget (supP v.ch) SUP_TH.HYST s) s = true → fis (supP v.ch) SUP_STAT.OUT w = true) ∧
      (fis (supP v.ch) SUP_STAT.OUT w = fis (supP v.ch) SUP_STAT.OUT s → w.sup.recs = s.sup.recs) := by
  by_cases hout : fis (supP v.ch) SUP_STAT.OUT s = true
  · have hnot {p : Prop} (hf : fis (supP v.ch) SUP_STAT.OUT s = false) : p := by
      rw [hout] at hf
      exact absurd hf (by decide)
    have hlasts (kept : SupChan) : Only (supPlaces v.ch [SUP_STAT.OUT]) s (supChanPut v.ch kept s) ∧
        fis (supP v.ch) SUP_STAT.OUT (supChanPut v.ch kept s) = true ∧ (supChanPut v.ch kept s).sup.recs = s.sup.recs := by
      obtain ⟨hregs, -, hrecs⟩ := supChanPut_shows v.ch kept s
      exact ⟨(Only.refl h).of_regs hregs, (congrArg (· == 1) (fget_of_regs hregs _ _)).trans hout, hrecs⟩
    by_cases hlow : v.below (fget (supP v.ch) SUP_TH.OUT s + fget (supP v.ch) SUP_TH.HYST s) s = true
    · obtain ⟨kept, heq⟩ := supOut_low (n := n) hout hlow
      obtain ⟨honly, hstay, hrecs⟩ := hlasts kept
      rw [heq]
      exact ⟨_, honly, .refl honly.wf, hnot, fun _ _ => hstay, fun _ => hrecs⟩
    · obtain ⟨kept, back, r, p, _, heq⟩ := supOut_high (n := n) hout hlow
      by_cases hp : p
      · obtain ⟨honly, hrun, hoff⟩ := supRestored_shows (c := v.ch) back r h hup
        have hend : supOut v n s = supNote 3 (supRecord r (supChanPut v.ch back (fset (supP v.ch) SUP_STAT.OUT 0 s))) := by
          rw [heq, if_pos hp]
          dsimp only
          rw [wakeArrive_running hrun, ite_self]
        rw [hend]
        exact ⟨_, honly, .refl honly.wf, hnot, fun _ hl => absurd hl hlow,
          fun he => absurd (he.symm.trans hoff) (by rw [hout]; decide)⟩
      · obtain ⟨honly, hstay, hrecs⟩ := hlasts kept
        rw [heq, if_neg hp]
        exact ⟨_, honly, .refl honly.wf, hnot, fun _ _ => hstay, fun _ => hrecs⟩
  · have hoff := Bool.eq_false_iff.2 hout
    rw [supOut_away hoff]
    by_cases hb : v.below (fget (supP v.ch) SUP_TH.OUT s) s = true
    · obtain ⟨r, w, -, honly, hset, -, -, hstays⟩ := supOutage_shows v v.begins h
      rw [if_pos hb]
      exact ⟨w, honly, hstays, fun _ => hset.trans hb.symm, fun ht => absurd ht hout,
        fun he => absurd (he.symm.trans hset) (by rw [hoff]; decide)⟩
    · rw [if_neg hb]
      exact ⟨s, .refl h, .refl h, fun hf => hf.trans (Bool.eq_false_iff.2 hb).symm, fun ht _ => ht, fun _ => rfl⟩

/-! ### A refresh (R604, R605, R608) -/

/-- The flags of the window and its RMS. -/
def supWindow (c rms : Nat) (d above lost lft : Bool) (s : State) : State :=
  fset (supP c) SUP_STAT.DIST (ofBool d) (fset (supP c) SUP_STAT.OVR (ofBool above) (fset (supP c) SUP_STAT.LOST (ofBool lost)
    (fset (supP c) SUP_STAT.LF_T (ofBool lft) (fset (supP c) SUP_RMS.RMS rms s))))

theorem supRefresh_stages {c rms nt n : Nat} {above dist lost : Bool} {s : State} (hon : supOn c s = true) :
    ∃ (v : SupSeen) (d lft : Bool), (v.ch = c ∧ v.rms = signedOf 24 rms) ∧ supRefresh c rms nt n above dist lost s =
      supOut v n (supSwell v (supSag v (supWindow c rms d above lost lft s))) :=
  ⟨_, _, _, ⟨rfl, rfl⟩, if_neg (by rw [hon]; decide)⟩

/-- The fields of a channel's page that a refresh writes. -/
abbrev refreshFlds : List Fld :=
  [SUP_RMS.RMS, SUP_STAT.LF_T, SUP_STAT.LOST, SUP_STAT.OVR, SUP_STAT.DIST, SUP_STAT.SAG, SUP_STAT.SWELL, SUP_STAT.OUT]

theorem supWindow_shows {c rms : Nat} (hrms : rms < 2 ^ 24) (d above lost lft : Bool) {s : State} (h : Registers.wf s = true) :
    let t := supWindow c rms d above lost lft s
    Only (page (supP c) [SUP_RMS.RMS, SUP_STAT.LF_T, SUP_STAT.LOST, SUP_STAT.OVR, SUP_STAT.DIST]) s t ∧
      fget (supP c) SUP_RMS.RMS t = rms ∧ t.pow = s.pow ∧ t.sup = s.sup := by
  intro t
  have hrmsSet : fget (supP c) SUP_RMS.RMS (fset (supP c) SUP_RMS.RMS rms s) = rms := fget_fset_lt h _ hrms (by decide)
  have hset : Only (page (supP c) [SUP_RMS.RMS]) s (fset (supP c) SUP_RMS.RMS rms s) := (Only.refl h).fsetIn (by decide) _
  have hstat : Only (page (supP c) [SUP_STAT.LF_T, SUP_STAT.LOST, SUP_STAT.OVR, SUP_STAT.DIST]) (fset (supP c) SUP_RMS.RMS rms s) t :=
    ((((Only.refl hset.wf).fsetIn (by decide) _).fsetIn (by decide) _).fsetIn (by decide) _).fsetIn (by decide) _
  exact ⟨(hset.mono (List.map_subset _ (by decide))).trans (hstat.mono (List.map_subset _ (by decide))),
    (hstat.fieldIn (by decide)).trans hrmsSet, rfl, rfl⟩

theorem SupSeen.below_congr {v : SupSeen} {s t : State} (h : fget (supP v.ch) SUP_NOM.NOM t = fget (supP v.ch) SUP_NOM.NOM s)
    (n : Nat) : v.below n t = v.below n s := by
  unfold SupSeen.below
  rw [h]

theorem SupSeen.above_congr {v : SupSeen} {s t : State} (h : fget (supP v.ch) SUP_NOM.NOM t = fget (supP v.ch) SUP_NOM.NOM s)
    (n : Int) : v.above n t = v.above n s := by
  unfold SupSeen.above
  rw [h]

/-- The page of a channel up to the decision on OUT: what a refresh does to SAG, SWELL and the records. -/
theorem supTurns_shows (v : SupSeen) {s : State} (h : Registers.wf s = true) (hup : Running s) :
    let p := supP v.ch
    let t := supSwell v (supSag v s)
    Only (supPlaces v.ch [SUP_STAT.SAG, SUP_STAT.SWELL]) s t ∧ Running t ∧
      fis p SUP_STAT.SAG t = (if fis p SUP_STAT.SAG s then v.below (fget p SUP_TH.SAG s + fget p SUP_TH.HYST s) s
        else v.below (fget p SUP_TH.SAG s) s) ∧
      fis p SUP_STAT.SWELL t = (if fis p SUP_STAT.SWELL s then
        v.above (((fget p SUP_TH.SWELL s : Nat) : Int) - (fget p SUP_TH.HYST s : Nat)) s
        else v.above ((fget p SUP_TH.SWELL s : Nat) : Int) s) ∧
      (fis p SUP_STAT.SAG t = fis p SUP_STAT.SAG s → fis p SUP_STAT.SWELL t = fis p SUP_STAT.SWELL s →
        t.sup.recs = s.sup.recs) := by
  intro p t
  obtain ⟨kept, begun, ended, began, hsag⟩ := supSag_turn v s
  obtain ⟨honlyA, hpowA, hflagA, hrecsA⟩ := supTurn_shows (k := 0) (f := SUP_STAT.SAG) (c := v.ch) (by decide) (by decide)
    (v.below (fget p SUP_TH.SAG s + fget p SUP_TH.HYST s) s) (v.below (fget p SUP_TH.SAG s) s) kept begun ended began h hup
  rw [← hsag] at honlyA hpowA hflagA hrecsA
  have ht : t = supSwell v (supSag v s) := rfl
  generalize supSag v s = u at honlyA hpowA hflagA hrecsA ht
  have hupU : Running u := hup.kept hpowA honlyA.supPhase
  obtain ⟨kept', begun', ended', began', hswell⟩ := supSwell_turn v u
  obtain ⟨honlyB, hpowB, hflagB, hrecsB⟩ := supTurn_shows (k := 1) (f := SUP_STAT.SWELL) (c := v.ch) (by decide) (by decide)
    (v.above (((fget p SUP_TH.SWELL u : Nat) : Int) - (fget p SUP_TH.HYST u : Nat)) u)
    (v.above ((fget p SUP_TH.SWELL u : Nat) : Int) u) kept' begun' ended' began' honlyA.wf hupU
  rw [← hswell, ← ht] at honlyB hpowB hflagB hrecsB
  have hnom : fget p SUP_NOM.NOM u = fget p SUP_NOM.NOM s := honlyA.supField (by decide) (by decide)
  have hswells : fis p SUP_STAT.SWELL u = fis p SUP_STAT.SWELL s := honlyA.supFlag (by decide) (by decide)
  have hsagT : fis p SUP_STAT.SAG t = fis p SUP_STAT.SAG u := honlyB.supFlag (by decide) (by decide)
  rw [v.above_congr hnom, v.above_congr hnom, show fget p SUP_TH.SWELL u = fget p SUP_TH.SWELL s from
    honlyA.supField (by decide) (by decide), show fget p SUP_TH.HYST u = fget p SUP_TH.HYST s from
    honlyA.supField (by decide) (by decide), hswells] at hflagB
  refine ⟨(honlyA.supMono (by decide)).trans (honlyB.supMono (by decide)), hupU.kept hpowB honlyB.supPhase, hsagT.trans hflagA,
    hflagB, fun hs hw => ?_⟩
  exact (hrecsB (hw.trans hswells.symm)).trans (hrecsA (hsagT.symm.trans hs))

theorem supRefresh_shows {c : Nat} (hc : c < 4) {rms : BitVec 24} {nt n : Nat} {above dist lost : Bool} {s : State}
    (hon : supOn c s = true) (h : Registers.wf s = true) (hup : Running s) :
    let p := supP c
    let v : Int := signedOf 24 rms.toNat * 200
    let nom : Int := (fget p SUP_NOM.NOM s : Nat)
    let sag : Int := (fget p SUP_TH.SAG s : Nat)
    let swell : Int := (fget p SUP_TH.SWELL s : Nat)
    let out : Int := (fget p SUP_TH.OUT s : Nat)
    let hyst : Int := (fget p SUP_TH.HYST s : Nat)
    let t := supRefresh c rms.toNat nt n above dist lost s
    fget p SUP_RMS.RMS t = rms.toNat ∧
      fis p SUP_STAT.SAG t =
        (if fis p SUP_STAT.SAG s then decide (v < (sag + hyst) * nom) else decide (v < sag * nom)) ∧
      fis p SUP_STAT.SWELL t =
        (if fis p SUP_STAT.SWELL s then decide ((swell - hyst) * nom < v) else decide (swell * nom < v)) ∧
      (fis p SUP_STAT.OUT s = false → fis p SUP_STAT.OUT t = decide (v < out * nom)) ∧
      (fis p SUP_STAT.OUT s = true → v < (out + hyst) * nom → fis p SUP_STAT.OUT t = true) ∧
      (fis p SUP_STAT.SAG t = fis p SUP_STAT.SAG s → fis p SUP_STAT.SWELL t = fis p SUP_STAT.SWELL s →
        fis p SUP_STAT.OUT t = fis p SUP_STAT.OUT s → t.sup.recs = s.sup.recs) := by
  intro p v nom sag swell out hyst t
  obtain ⟨w, d, lft, ⟨hch, hrms⟩, ht⟩ := supRefresh_stages (rms := rms.toNat) (nt := nt) (n := n) (above := above) (dist := dist)
    (lost := lost) hon
  change t = _ at ht
  obtain ⟨hwin, hrmsW, hpowW, hsupW⟩ := supWindow_shows (c := c) rms.isLt d above lost lft h
  generalize supWindow c rms.toNat d above lost lft s = x at hwin hrmsW hpowW hsupW ht
  have hplaces : Only (supPlaces c [SUP_RMS.RMS, SUP_STAT.LF_T, SUP_STAT.LOST, SUP_STAT.OVR, SUP_STAT.DIST]) s x :=
    hwin.mono (List.subset_append_left _ _)
  have hupX : Running x := hup.kept hpowW hplaces.supPhase
  obtain ⟨hturn, hupY, hsag, hswell, hrecs⟩ := supTurns_shows w hwin.wf hupX
  generalize supSwell w (supSag w x) = y at hturn hupY hsag hswell hrecs ht
  obtain ⟨z, honly, hstays, haway, hlow, hkept⟩ := supOut_shows w n hturn.wf hupY
  rw [hch] at hturn hsag hswell hrecs honly haway hlow hkept
  rw [← ht] at hstays
  have hth {f : Fld} (hf : ∀ g ∈ [SUP_RMS.RMS, SUP_STAT.LF_T, SUP_STAT.LOST, SUP_STAT.OVR, SUP_STAT.DIST], f.Apart g) :
      fget p f x = fget p f s := hwin.fieldIn hf
  have hthY {f : Fld} (hf : ∀ g ∈ [SUP_RMS.RMS, SUP_STAT.LF_T, SUP_STAT.LOST, SUP_STAT.OVR, SUP_STAT.DIST], f.Apart g)
      (hg : ∀ g ∈ [SUP_STAT.SAG, SUP_STAT.SWELL], f.Apart g) (hw : f.lo + f.w ≤ 32) : fget p f y = fget p f s :=
    (hturn.supField hg hw).trans (hth hf)
  have hbelow (m : Nat) (u : State) (hu : fget p SUP_NOM.NOM u = fget p SUP_NOM.NOM s) :
      w.below m u = decide (v < (m : Int) * nom) := by
    unfold SupSeen.below
    rw [hrms, hch, hu]
  have habove (m : Int) (u : State) (hu : fget p SUP_NOM.NOM u = fget p SUP_NOM.NOM s) :
      w.above m u = decide (m * nom < v) := by
    unfold SupSeen.above
    rw [hrms, hch, hu]
  have hnomX : fget p SUP_NOM.NOM x = fget p SUP_NOM.NOM s := hth (by decide)
  have hnomY : fget p SUP_NOM.NOM y = fget p SUP_NOM.NOM s := hthY (by decide) (by decide) (by decide)
  have hoffT {f : Fld} (hf : f.off < 0x40) : fget p f t = fget p f z := hstays.page hc hf
  have hoffF {f : Fld} (hf : f.off < 0x40) : fis p f t = fis p f z := hstays.pageFlag hc hf
  have hsagT : fis p SUP_STAT.SAG t = fis p SUP_STAT.SAG y := (hoffF (by decide)).trans (honly.supFlag (by decide) (by decide))
  have hswellT : fis p SUP_STAT.SWELL t = fis p SUP_STAT.SWELL y :=
    (hoffF (by decide)).trans (honly.supFlag (by decide) (by decide))
  have hsagX : fis p SUP_STAT.SAG x = fis p SUP_STAT.SAG s := hwin.flagIn (by decide)
  have hswellX : fis p SUP_STAT.SWELL x = fis p SUP_STAT.SWELL s := hwin.flagIn (by decide)
  have houtY : fis p SUP_STAT.OUT y = fis p SUP_STAT.OUT s :=
    (hturn.supFlag (by decide) (by decide)).trans (hwin.flagIn (by decide))
  have houtT : fis p SUP_STAT.OUT t = fis p SUP_STAT.OUT z := hoffF (by decide)
  refine ⟨?_, ?_, ?_, fun hs => ?_, fun hs hv => ?_, fun hs hw ho => ?_⟩
  · exact (hoffT (by decide)).trans ((honly.supField (by decide) (by decide)).trans
      ((hturn.supField (by decide) (by decide)).trans hrmsW))
  · rw [hsagT, hsag, hbelow _ _ hnomX, hbelow _ _ hnomX, hth (by decide), hth (by decide), Nat.cast_add]
    exact congrArg (fun b => if b = true then _ else _) hsagX
  · rw [hswellT, hswell, habove _ _ hnomX, habove _ _ hnomX, hth (by decide), hth (by decide)]
    exact congrArg (fun b => if b = true then _ else _) hswellX
  · rw [houtT, haway (houtY.trans hs), hbelow _ _ hnomY, hthY (by decide) (by decide) (by decide)]
  · rw [houtT]
    refine hlow (houtY.trans hs) ?_
    rw [hbelow _ _ hnomY, hthY (by decide) (by decide) (by decide), hthY (by decide) (by decide) (by decide), Nat.cast_add]
    exact decide_eq_true hv
  · refine hstays.recs.trans ((hkept (houtT.symm.trans (ho.trans houtY.symm))).trans ((hrecs ?_ ?_).trans
      (congrArg SupState.recs hsupW)))
    · exact hsagT.symm.trans (hs.trans hsagX.symm)
    · exact hswellT.symm.trans (hw.trans hswellX.symm)

/-! ### A fast outage (R609) -/

theorem supFast_shows {c : Nat} (hc : c < 4) {nt : Nat} {flag : Bool} {s : State} (hon : supOn c s = true)
    (hfast : fis (supP c) SUP_CFG.FAST_EN s = true) (hout : fis (supP c) SUP_STAT.OUT s = false) (h : Registers.wf s = true) :
    let t := supFast c nt flag s
    fis (supP c) SUP_STAT.OUT t = true ∧ fis supB (supBit 2) t = true ∧
      (s.sup.recs.length < 32 → ∃ r, t.sup.recs = s.sup.recs ++ [r] ∧ r.kind = 4 ∧ r.ch = c ∧ r.nt = nt) ∧
      (32 ≤ s.sup.recs.length → t.sup.recs = s.sup.recs) := by
  intro t
  have ht : t = supOutage ⟨c, nt, flag, signedOf 24 (fget (supP c) SUP_RMS.RMS s)⟩ ⟨fget (supP c) SUP_RMS.RMS s, 0⟩ s :=
    if_neg (by rw [hon, hfast, hout]; decide)
  obtain ⟨r, w, ⟨hkind, hch, hnt⟩, -, hset, hbit, hrecs, hstays⟩ :=
    supOutage_shows ⟨c, nt, flag, signedOf 24 (fget (supP c) SUP_RMS.RMS s)⟩ ⟨fget (supP c) SUP_RMS.RMS s, 0⟩ h
  rw [← ht] at hstays
  refine ⟨(hstays.pageFlag hc (by decide)).trans hset, hstays.bit 2 (by decide) hbit, fun hlt => ⟨r, ?_, hkind, hch, hnt⟩,
    fun hge => hstays.recs.trans (hrecs.trans (if_pos hge))⟩
  exact hstays.recs.trans (hrecs.trans (if_neg (by omega)))

end Sys2Proof.Machine
end

section
/-!
THEOREMS. Over-range samples, overruns and the records' FIFO (R603, R604, R610, R624), and the supply watch as a whole.
-/

namespace Sys2Proof.Machine

open Reg

/-! ### Over-range samples and their neighbours (R604) -/

theorem contains_insertNat (n : Nat) : ∀ l : List Nat, (insertNat n l).contains n = true
  | [] => List.contains_iff_mem.2 (List.mem_singleton.2 rfl)
  | m :: r => by
    unfold insertNat
    rw [List.contains_iff_mem]
    split
    · next h => exact h ▸ List.mem_cons_self
    · split
      · exact List.mem_cons_self
      · exact List.mem_cons_of_mem _ (List.contains_iff_mem.1 (contains_insertNat n r))

/-- A channel is disturbed while a neighbour has had an over-range sample not long ago. -/
def disturbed (near : List Nat) (k : Nat) : Bool := (supNear k).any fun j => near.contains j

theorem disturbed_eq (near : List Nat) {k : Nat} (hk : k < 4) : disturbed near k =
    ((decide (1 ≤ k) && near.contains (k - 1)) || (decide (k < 3) && near.contains (k + 1))) := by
  interval_cases k <;> simp [disturbed, supNear]

theorem disturbed_beside {near : List Nat} {c k : Nat} (hc : near.contains c = true) (hk : k < 4) (hkc : k + 1 = c ∨ k = c + 1)
    (hlt : c < 4) : disturbed near k = true := by
  rw [disturbed_eq near hk]
  rcases hkc with hkc | hkc
  · rw [hkc, hc, decide_eq_true (show k < 3 by omega), Bool.true_and, Bool.or_true]
  · rw [show k - 1 = c by omega, hc, decide_eq_true (show 1 ≤ k by omega), Bool.true_and, Bool.true_or]

/-- DIST of each channel of a list takes what `f` says of it. -/
def supShow (f : Nat → Bool) (l : List Nat) (s : State) : State :=
  l.foldl (fun t c => fset (supP c) SUP_SAMPLE.DIST (ofBool (f c)) t) s

theorem supDisturbed_eq (s : State) : supDisturbed s = supShow (disturbed s.sup.overNear) (List.range 4) s := rfl

/-- A field of one channel's page beside DIST of any. -/
theorem apart_dist {c k : Nat} {g : Fld} (hg : g.Apart SUP_SAMPLE.DIST) (hoff : g.off < 0x40) :
    Place.Apart (supP c, g) (supP k, SUP_SAMPLE.DIST) := by
  obtain ⟨hw, h⟩ := hg
  refine ⟨hw, ?_⟩
  have hd : SUP_SAMPLE.DIST.off = 0x20 := rfl
  by_cases hck : c = k
  · refine h.imp_left fun hne => ?_
    show supP c + g.off ≠ supP k + SUP_SAMPLE.DIST.off
    rw [hck]
    omega
  · left
    show supP c + g.off ≠ supP k + SUP_SAMPLE.DIST.off
    unfold supP
    omega

theorem supShow_shows (f : Nat → Bool) : ∀ (l : List Nat), l.Nodup → ∀ {s : State}, Registers.wf s = true →
    let t := supShow f l s
    Only (l.map fun c => (supP c, SUP_SAMPLE.DIST)) s t ∧ (∀ k ∈ l, fis (supP k) SUP_SAMPLE.DIST t = f k) ∧ t.sup = s.sup
  | [], _, s, h => ⟨.refl h, fun _ hk => absurd hk List.not_mem_nil, rfl⟩
  | c :: r, hn, s, h => by
    obtain ⟨hcr, hnr⟩ := List.nodup_cons.1 hn
    have hset : Only [(supP c, SUP_SAMPLE.DIST)] s (fset (supP c) SUP_SAMPLE.DIST (ofBool (f c)) s) :=
      (Only.refl h).fset (List.mem_singleton.2 rfl) _
    have hone : fis (supP c) SUP_SAMPLE.DIST (fset (supP c) SUP_SAMPLE.DIST (ofBool (f c)) s) = f c :=
      fis_fset_ofBool h _ (by decide) _
    have hsup : (fset (supP c) SUP_SAMPLE.DIST (ofBool (f c)) s).sup = s.sup := rfl
    have hcons : supShow f (c :: r) s = supShow f r (fset (supP c) SUP_SAMPLE.DIST (ofBool (f c)) s) := rfl
    rw [hcons]
    generalize fset (supP c) SUP_SAMPLE.DIST (ofBool (f c)) s = u at hset hone hsup
    obtain ⟨honly, hon, hrest⟩ := supShow_shows f r hnr hset.wf
    refine ⟨(hset.mono ?_).trans (honly.mono (List.subset_cons_self _ _)), fun k hk => ?_, hrest.trans hsup⟩
    · rw [List.map_cons]
      exact List.cons_subset_cons _ (List.nil_subset _)
    · rcases List.mem_cons.1 hk with rfl | hk
      · refine (honly.flag fun p hp => ?_).trans hone
        obtain ⟨j, hj, rfl⟩ := List.mem_map.1 hp
        have hjk : j ≠ k := fun e => hcr (e ▸ hj)
        refine ⟨show 30 + 1 ≤ 32 by decide, .inl ?_⟩
        show supP k + SUP_SAMPLE.DIST.off ≠ supP j + SUP_SAMPLE.DIST.off
        unfold supP
        omega
      · exact hon k hk

/-- DISTURBED of every channel, and the fields beside it. -/
theorem supDisturbed_shows {s : State} (h : Registers.wf s = true) :
    let t := supDisturbed s
    Registers.wf t = true ∧ (∀ k < 4, fis (supP k) SUP_SAMPLE.DIST t = disturbed s.sup.overNear k) ∧ t.sup = s.sup ∧
      ∀ (c : Nat) (g : Fld), g.Apart SUP_SAMPLE.DIST → g.off < 0x40 → fget (supP c) g t = fget (supP c) g s := by
  intro t
  obtain ⟨honly, hon, hsup⟩ := supShow_shows (disturbed s.sup.overNear) (List.range 4) List.nodup_range h
  rw [← supDisturbed_eq] at honly hon hsup
  refine ⟨honly.wf, fun k hk => hon k (List.mem_range.2 hk), hsup, fun c g hg hoff => honly.field fun p hp => ?_⟩
  obtain ⟨j, -, rfl⟩ := List.mem_map.1 hp
  exact apart_dist hg hoff

/-- The sample that is over range, with its marks. -/
def supOver (c v : Nat) (s : State) : State :=
  fset (supP c) SUP_SAMPLE.SAMPLE v (fset (supP c) SUP_SAMPLE.OVR 1 (fset (supP c) SUP_STAT.OVR 1 s))

theorem supOver_shows {c v : Nat} (hv : v < 2 ^ 24) {s : State} (h : Registers.wf s = true) :
    let t := supOver c v s
    Registers.wf t = true ∧ fget (supP c) SUP_SAMPLE.SAMPLE t = v ∧ fis (supP c) SUP_SAMPLE.OVR t = true ∧
      fis (supP c) SUP_STAT.OVR t = true ∧ t.sup = s.sup := by
  intro t
  have h1 := Registers.wf_fset h (supP c) SUP_STAT.OVR 1
  have h2 := Registers.wf_fset h1 (supP c) SUP_SAMPLE.OVR 1
  refine ⟨Registers.wf_fset h2 _ _ _, fget_fset_lt h2 _ hv (by decide), ?_, ?_, rfl⟩
  · exact (congrArg (· == 1) (fget_fset_of_apart h2 _ _ (by decide))).trans (fis_fset_one h1 _ (by decide))
  · exact (congrArg (· == 1) ((fget_fset_of_apart h2 _ _ (by decide)).trans (fget_fset_of_apart h1 _ _ (by decide)))).trans
      (fis_fset_one h _ (by decide))

theorem supOverRange_stages {c : Nat} {negative : Bool} {s : State} (hon : supOn c s = true) : ∃ u : State,
    u.regs = (supOver c (if negative then 0x800000 else 0x7FFFFF) s).regs ∧ u.sup.overNear = insertNat c s.sup.overNear ∧
      supOverRange c negative s = supNote 4 (supDisturbed u) :=
  ⟨supPut { s.sup with overNear := insertNat c s.sup.overNear } (supOver c (if negative then 0x800000 else 0x7FFFFF) s), rfl, rfl,
    if_neg (by rw [hon]; decide)⟩

theorem supOverRange_shows {c : Nat} (hc : c < 4) {negative : Bool} {s : State} (hon : supOn c s = true)
    (h : Registers.wf s = true) :
    let t := supOverRange c negative s
    fget (supP c) SUP_SAMPLE.SAMPLE t = (if negative then 0x800000 else 0x7FFFFF) ∧
      fis (supP c) SUP_SAMPLE.OVR t = true ∧ fis (supP c) SUP_STAT.OVR t = true ∧ fis supB (supBit 4) t = true ∧
      t.sup.overNear.contains c = true ∧ ∀ k < 4, k + 1 = c ∨ k = c + 1 → fis (supP k) SUP_SAMPLE.DIST t = true := by
  intro t
  have hv : (if negative then 0x800000 else 0x7FFFFF) < 2 ^ 24 := by cases negative <;> decide
  obtain ⟨u, hregs, hnear, ht⟩ := supOverRange_stages (negative := negative) hon
  change t = _ at ht
  obtain ⟨hwf, hsample, hovr, hstat, -⟩ := supOver_shows (c := c) hv h
  generalize supOver c (if negative then 0x800000 else 0x7FFFFF) s = o at hregs hwf hsample hovr hstat
  have hu : Registers.wf u = true := (Registers.wf_of_regs hregs).trans hwf
  obtain ⟨hwfD, hdist, hsupD, hkeptD⟩ := supDisturbed_shows hu
  generalize supDisturbed u = d at hwfD hdist hsupD hkeptD ht
  obtain ⟨hnote, hbit, hsupN, -⟩ := supNote_shows (k := 4) (by decide) hwfD
  rw [← ht] at hnote hbit hsupN
  have hlate : Only (supPlaces c []) d t := Only.ofSup (hnote.mono (supBit_mem (by decide)))
  have hback {g : Fld} (hg : g.Apart SUP_SAMPLE.DIST) (hoff : g.off < 0x40) (hw : g.lo + g.w ≤ 32) :
      fget (supP c) g t = fget (supP c) g o :=
    (hlate.supField (by simp) hw).trans ((hkeptD c g hg hoff).trans (fget_of_regs hregs _ _))
  have hcont : u.sup.overNear.contains c = true := by
    rw [hnear]
    exact contains_insertNat _ _
  refine ⟨(hback (by decide) (by decide) (by decide)).trans hsample,
    (congrArg (· == 1) (hback (g := SUP_SAMPLE.OVR) (by decide) (by decide) (by decide))).trans hovr,
    (congrArg (· == 1) (hback (g := SUP_STAT.OVR) (by decide) (by decide) (by decide))).trans hstat, hbit, ?_, fun k hk hkc => ?_⟩
  · rw [hsupN, hsupD]
    exact hcont
  · have hlateK : Only (supPlaces k []) d t := Only.ofSup (hnote.mono (supBit_mem (by decide)))
    exact (hlateK.supFlag (by simp) (by decide)).trans ((hdist k hk).trans (disturbed_beside hcont hk hkc hc))

theorem supDisturbEnd_away {c : Nat} {s : State} (h : s.sup.overNear.contains c = false) : supDisturbEnd c s = s :=
  if_neg (by rw [h]; decide)

theorem contains_filter_ne (c : Nat) (l : List Nat) : (l.filter (· != c)).contains c = false := by
  rw [Bool.eq_false_iff]
  intro h
  obtain ⟨-, hne⟩ := List.mem_filter.1 (List.contains_iff_mem.1 h)
  exact absurd hne (by simp)

theorem supDisturbEnd_stages {c : Nat} {s : State} (h : s.sup.overNear.contains c = true) : ∃ u : State, u.regs = s.regs ∧
    u.sup.overNear = s.sup.overNear.filter (· != c) ∧ supDisturbEnd c s = supDisturbed (fset (supP c) SUP_SAMPLE.OVR 0 u) :=
  ⟨supPut { s.sup with overNear := s.sup.overNear.filter (· != c) } s, rfl, rfl, if_pos h⟩

theorem supDisturbEnd_shows {c : Nat} {s : State} (hnear : s.sup.overNear.contains c = true) (h : Registers.wf s = true) :
    let t := supDisturbEnd c s
    fis (supP c) SUP_SAMPLE.OVR t = false ∧ t.sup.overNear.contains c = false ∧
      ∀ k < 4, fis (supP k) SUP_SAMPLE.DIST t =
        ((decide (1 ≤ k) && t.sup.overNear.contains (k - 1)) || (decide (k < 3) && t.sup.overNear.contains (k + 1))) := by
  intro t
  obtain ⟨u, hregs, hlist, ht⟩ := supDisturbEnd_stages hnear
  change t = _ at ht
  have hu : Registers.wf u = true := (Registers.wf_of_regs hregs).trans h
  have hzero : fget (supP c) SUP_SAMPLE.OVR (fset (supP c) SUP_SAMPLE.OVR 0 u) = 0 := fget_fset_lt hu _ (by decide) (by decide)
  have hset := Registers.wf_fset hu (supP c) SUP_SAMPLE.OVR 0
  have hsup : (fset (supP c) SUP_SAMPLE.OVR 0 u).sup = u.sup := rfl
  generalize fset (supP c) SUP_SAMPLE.OVR 0 u = v at hzero hset hsup ht
  obtain ⟨-, hdist, hsupD, hkept⟩ := supDisturbed_shows hset
  rw [← ht] at hdist hsupD hkept
  refine ⟨congrArg (· == 1) ((hkept c SUP_SAMPLE.OVR (by decide) (by decide)).trans hzero), ?_, fun k hk => ?_⟩
  · rw [hsupD, hsup, hlist]
    exact contains_filter_ne _ _
  · rw [hdist k hk, disturbed_eq _ hk, hsupD]

/-! ### Overruns and the records' FIFO (R603, R610, R624) -/

theorem supOverrun_shows {s : State} (h : Registers.wf s = true) :
    let t := supErr SUP_ERR.OVERRUN s
    fis supB SUP_ERR.OVERRUN t = true ∧ t.sup = s.sup :=
  ⟨fis_note h _ (by decide) (by decide) _, note_sup _ _ _ _⟩

theorem recWords_length (r : Option SupRecord) : (recWords r).length = 4 := by
  cases r <;> rfl

/-- Two halves of a time. -/
theorem ofHalves_ofNat (n : Nat) : Word64.ofHalves (BitVec.ofNat 32 n) (BitVec.ofNat 32 (n / 2 ^ 32)) = BitVec.ofNat 64 n := by
  refine BitVec.eq_of_toNat_eq ?_
  have hshift : (n / 2 ^ 32 % 2 ^ 32) <<< 32 ||| n % 2 ^ 32 = n / 2 ^ 32 % 2 ^ 32 * 2 ^ 32 + n % 2 ^ 32 := by
    rw [Nat.shiftLeft_eq, Nat.mul_comm]
    exact (Nat.two_pow_add_eq_or_of_lt (Nat.mod_lt _ (by decide)) _).symm
  rw [Word64.ofHalves, BitVec.toNat_append, BitVec.toNat_ofNat, BitVec.toNat_ofNat, BitVec.toNat_ofNat, hshift]
  omega

/-- What a pop leaves: the record's words stand in the group, COUNT goes down. -/
theorem supPop_stages (i : Init) (s : State) : ∃ u : State, u.regs = s.regs ∧ u.sup.recs = s.sup.recs.drop 1 ∧
    (supPop i s).1 = (recWords s.sup.recs.head?).getD 0 0 ∧
    (supPop i s).2.regs = (wrList (supB + 0x10) (recWords s.sup.recs.head?)
      (fset supB SUP_RECST.COUNT (s.sup.recs.length - 1) u)).regs ∧ (supPop i s).2.sup = u.sup := by
  refine ⟨supPut { s.sup with recs := s.sup.recs.drop 1 } s, rfl, rfl, rfl, rfl, ?_⟩
  exact wrList_same (·.sup) (fun _ _ _ => rfl) _ _ _

theorem rdList_four (a : Nat) (s : State) : rdList a 4 s = [rd a s, rd (a + 4) s, rd (a + 8) s, rd (a + 12) s] := rfl

theorem supPop_shows (i : Init) {s : State} (hlen : s.sup.recs.length ≤ 32) (h : Registers.wf s = true) :
    let t := (supPop i s).2
    t.sup.recs = s.sup.recs.drop 1 ∧ fget supB SUP_RECST.COUNT t = s.sup.recs.length - 1 ∧
      (s.sup.recs = [] → (supPop i s).1 = 0) ∧
      (∀ r l, s.sup.recs = r :: l → rd 0x40100014 t = BitVec.ofNat 32 r.dur ∧ rd64 0x40100018 t = BitVec.ofNat 64 r.nt) := by
  intro t
  obtain ⟨u, hregs, hrest, hword, hpopped, hsup⟩ := supPop_stages i s
  have hu : Registers.wf u = true := (Registers.wf_of_regs hregs).trans h
  have hcount : fget supB SUP_RECST.COUNT (fset supB SUP_RECST.COUNT (s.sup.recs.length - 1) u) = s.sup.recs.length - 1 :=
    fget_fset_lt hu _ (show _ < 64 by omega) (by decide)
  have hset := Registers.wf_fset hu supB SUP_RECST.COUNT (s.sup.recs.length - 1)
  generalize fset supB SUP_RECST.COUNT (s.sup.recs.length - 1) u = v at hpopped hcount hset
  have hlist : Only (page supB [regOff 0x10, regOff 0x14, regOff 0x18, regOff 0x1C]) v
      (wrList (supB + 0x10) (recWords s.sup.recs.head?) v) := by
    refine Only.wrListIn _ (.refl hset) fun k hk => ?_
    rw [recWords_length] at hk
    interval_cases k <;> decide
  have hread := rdList_wrList_self hset (supB + 0x10) (recWords s.sup.recs.head?)
  rw [recWords_length, rdList_four] at hread
  have hrd (a : Nat) : rd a t = rd a (wrList (supB + 0x10) (recWords s.sup.recs.head?) v) :=
    congrArg (fun r => tget regReset r a) hpopped
  refine ⟨(congrArg SupState.recs hsup).trans hrest, ?_, fun he => ?_, fun r l he => ?_⟩
  · exact (fget_of_regs hpopped _ _).trans ((hlist.fieldIn (by decide)).trans hcount)
  · rw [hword, he]
    rfl
  · rw [he] at hread
    obtain ⟨-, hdur, hlo, hhi, -⟩ : _ ∧ _ ∧ _ ∧ _ ∧ _ := by
      simpa only [recWords, List.head?_cons, List.cons.injEq] using hread
    rw [he] at hrd
    refine ⟨(hrd _).trans hdur, ?_⟩
    rw [rd64, hrd, hrd]
    exact (congrArg₂ Word64.ofHalves hlo hhi).trans (ofHalves_ofNat r.nt)

/-- Settles O53. -/
theorem supplyWatch : Obligations.SupplyWatch := by
  unfold Obligations.SupplyWatch
  refine ⟨fun chan nt freq s => ⟨fun hor => congrArg Host.Outcome.next (if_pos hor),
      fun hon hdc h => ⟨_, rfl, supCrossing_shows hon hdc h⟩⟩,
    fun chan rms nt sample above dist lost s => ⟨fun hoff => congrArg Host.Outcome.next (if_pos hoff),
      fun hon h hrun hmode hphase => ⟨_, rfl, supRefresh_shows chan.isLt hon h ⟨hrun, hmode, hphase⟩⟩⟩,
    fun chan nt flag s => ⟨fun hor => congrArg Host.Outcome.next (if_pos hor),
      fun hon hfast hout h => ⟨_, rfl, supFast_shows chan.isLt hon hfast hout h⟩⟩,
    fun chan negative s => ⟨fun hoff => congrArg Host.Outcome.next (if_pos hoff),
      fun hon h => ⟨_, rfl, supOverRange_shows chan.isLt hon h⟩,
      fun hfar => congrArg Host.Outcome.next (supDisturbEnd_away hfar), fun hnear h => ⟨_, rfl, supDisturbEnd_shows hnear h⟩⟩,
    fun s => ⟨fun hoff => congrArg Host.Outcome.next (if_neg (by rw [hoff]; decide)),
      fun hon h => ⟨_, congrArg Host.Outcome.next (if_pos hon), supOverrun_shows h⟩⟩, fun i s hadm hlen h => ?_⟩
  obtain ⟨hrest, hcount, hempty, hshown⟩ := supPop_shows i hlen h
  refine ⟨_, congrArg Host.Outcome.next (doorLoad_admits hadm), hrest, hcount, fun he => ?_, hshown⟩
  have hzero : (supPop i s).1 = 0 := hempty he
  show Resp.data ((supPop i s).1.setWidth 64) = _
  rw [hzero]
  rfl

end Sys2Proof.Machine

namespace Sys2Proof.Tests
open Sys2Proof.Machine

set_option maxRecDepth 8000

/-- Channel 1 measures, and its fast outage is enabled. -/
theorem test_hyps_supplyWatch :
    fis (supP 1) Reg.SUP_STAT.OUT (supFast 1 7 false (regs [(0x400F0030, 0xFFFFFFFF), (0x40100000, 0xF), (0x40100140, 2)] up)) = true :=
  (supFast_shows (c := 1) (by decide) (by decide) (by decide) (by decide) (by decide)).1

end Sys2Proof.Tests
end

section
/-!
THEOREMS. The host port on both sides (R627–R634, R649, R650).
-/

namespace Sys2Proof.Machine

open Reg

/-! ### Octets of a frame (R628) -/

theorem ofLeBytes_lt : ∀ l : List Byte, ofLeBytes l < 256 ^ l.length
  | [] => by decide
  | b :: r => by
    have hb := b.isLt
    have ih := ofLeBytes_lt r
    rw [ofLeBytes, List.length_cons, Nat.pow_succ]
    omega

theorem frameField_lt (l : List Byte) (o n : Nat) : frameField l o n < 256 ^ n :=
  (ofLeBytes_lt _).trans_le (Nat.pow_le_pow_right (by decide) (List.length_take_le _ _))

/-- The octets before the check sequence. -/
def hostBody (type session seq : Nat) (payload : List Byte) : List Byte :=
  [0xA5#8, BitVec.ofNat 8 type] ++ leBytes 2 session ++ leBytes 2 seq ++ leBytes 2 payload.length ++ payload

theorem hostFrame_eq (type session seq : Nat) (payload : List Byte) : hostFrame type session seq payload =
    0xA5#8 :: BitVec.ofNat 8 type :: (leBytes 2 session ++ (leBytes 2 seq ++ (leBytes 2 payload.length ++
      (payload ++ leBytes 4 (crc32c (hostBody type session seq payload)))))) := by
  show hostBody type session seq payload ++ leBytes 4 (crc32c (hostBody type session seq payload)) = _
  generalize leBytes 4 (crc32c (hostBody type session seq payload)) = e
  unfold hostBody
  simp only [List.append_assoc, List.cons_append, List.nil_append]

theorem hostFrame_length (type session seq : Nat) (payload : List Byte) :
    (hostFrame type session seq payload).length = 12 + payload.length := by
  rw [hostFrame_eq]
  simp only [List.length_cons, List.length_append, leBytes_length]
  omega

theorem hostFrame_take_two (type session seq : Nat) (payload : List Byte) :
    (hostFrame type session seq payload).take 2 = [0xA5#8, BitVec.ofNat 8 type] := by
  rw [hostFrame_eq]
  rfl

theorem hostFrame_payload (type session seq : Nat) (payload : List Byte) :
    ((hostFrame type session seq payload).drop 8).take payload.length = payload := by
  rw [hostFrame_eq]
  exact List.take_left

theorem hostFrame_type {type session seq : Nat} {payload : List Byte} (h : type < 256) :
    frameField (hostFrame type session seq payload) 1 1 = type := by
  rw [hostFrame_eq]
  show (BitVec.ofNat 8 type).toNat + 256 * 0 = type
  rw [BitVec.toNat_ofNat]
  omega

theorem hostFrame_len {type session seq : Nat} {payload : List Byte} (h : payload.length < 65536) :
    frameField (hostFrame type session seq payload) 6 2 = payload.length := by
  rw [hostFrame_eq]
  exact (congrArg ofLeBytes (List.take_left (l₁ := leBytes 2 payload.length))).trans (ofLeBytes_leBytes 2 _ h)

/-! ### Notes, sessions and tearing down (R632, R649) -/

theorem hostNote_shows {f : Fld} (hf : f.w = 1 ∧ f.lo + f.w ≤ 32) {s : State} (h : Registers.wf s = true) :
    let t := hostNote f s
    Only [(hostB, f)] s t ∧ fis hostB f t = true ∧ t.host = s.host := by
  have hraised (e : Nat) : Only [(hostB, f)] s (note hostB f e s) ∧ fis hostB f (note hostB f e s) = true ∧
      (note hostB f e s).host = s.host :=
    ⟨(Only.refl h).note (List.mem_singleton.2 rfl) e, fis_note h _ hf.1 hf.2 e, note_host _ _ _ _⟩
  intro t
  show Only _ s (hostNote f s) ∧ fis hostB f (hostNote f s) = true ∧ (hostNote f s).host = s.host
  unfold hostNote
  split
  · exact hraised 952
  · exact hraised 953
  · exact hraised 954
  · exact hraised 955
  · exact ⟨(Only.refl h).fset (List.mem_singleton.2 rfl) 1, fis_fset_one h _ hf, rfl⟩

/-- What is left of the host port's stores. -/
abbrev hostEmptied (v : HostState) : HostState := { v with msgs := [], frames := [], build := [], last := none }

theorem hostPut_shows (v : HostState) (s : State) : (hostPut v s).regs = s.regs ∧ (hostPut v s).host = v := ⟨rfl, rfl⟩

theorem hostTeardown_eq (s : State) : hostTeardown s =
    if s.host.frames.isEmpty then hostPut (hostEmptied s.host) (fset hostB HOST_STAT.SESSION 0 s)
    else hostNote HOST_NOTE.SPACE (hostPut (hostEmptied s.host) (fset hostB HOST_STAT.SESSION 0 s)) := rfl

theorem hostTeardown_shows {s : State} (h : Registers.wf s = true) :
    let t := hostTeardown s
    Only (page hostB [HOST_STAT.SESSION, HOST_NOTE.SPACE]) s t ∧ hostSession t = 0 ∧ t.host = hostEmptied s.host := by
  intro t
  have ht : t = _ := hostTeardown_eq s
  have hset : Only (page hostB [HOST_STAT.SESSION, HOST_NOTE.SPACE]) s (fset hostB HOST_STAT.SESSION 0 s) :=
    (Only.refl h).fsetIn (by decide) 0
  have hzero : fget hostB HOST_STAT.SESSION (fset hostB HOST_STAT.SESSION 0 s) = 0 := fget_fset_lt h _ (by decide) (by decide)
  generalize fset hostB HOST_STAT.SESSION 0 s = u at hset hzero ht
  obtain ⟨hregs, hhost⟩ := hostPut_shows (hostEmptied s.host) u
  generalize hostPut (hostEmptied s.host) u = w at hregs hhost ht
  have hput := hset.of_regs hregs
  have hzero' : fget hostB HOST_STAT.SESSION w = 0 := (fget_of_regs hregs _ _).trans hzero
  by_cases he : s.host.frames.isEmpty = true
  · rw [ht, if_pos he]
    exact ⟨hput, hzero', hhost⟩
  · obtain ⟨hnote, -, hsame⟩ := hostNote_shows (f := HOST_NOTE.SPACE) (by decide) hput.wf
    rw [ht, if_neg he]
    exact ⟨hput.trans (hnote.mono (by decide)), (hnote.field (b := hostB) (g := HOST_STAT.SESSION) (by decide)).trans hzero',
      hsame.trans hhost⟩

theorem hostExpire_shows {s : State} (hlive : hostSession s ≠ 0) (h : Registers.wf s = true) :
    let t := hostExpire s
    hostSession t = 0 ∧ t.host.msgs = [] ∧ t.host.frames = [] ∧ t.host.build = [] ∧ t.host.taken = s.host.taken ∧
      fis hostB HOST_NOTE.LOST t = true := by
  intro t
  have ht : t = hostNote HOST_NOTE.LOST (hostTeardown s) := if_neg hlive
  obtain ⟨honly, hzero, hhost⟩ := hostTeardown_shows h
  generalize hostTeardown s = u at honly hzero hhost ht
  obtain ⟨hnote, hset, hsame⟩ := hostNote_shows (f := HOST_NOTE.LOST) (by decide) honly.wf
  rw [← ht] at hnote hset hsame
  rw [hhost] at hsame
  exact ⟨(hnote.field (b := hostB) (g := HOST_STAT.SESSION) (by decide)).trans hzero, by rw [hsame],
    by rw [hsame], by rw [hsame], by rw [hsame], hset⟩

/-! ### What an ACK does (R629) -/

/-- A session opens: its number, the next SEQ and the device's counter. -/
def hostOpened (session seq : Nat) (s : State) : State :=
  fset hostB HOST_STAT.EXPECT (seq + 1) (fset hostB HOST_STAT.SESSION session
    (hostPut { s.host with devSeq := 0, last := none } s))

theorem hostOpened_shows {session : Nat} (hses : session < 2 ^ 16) (seq : Nat) {s : State} (h : Registers.wf s = true) :
    let t := hostOpened session seq s
    Only (page hostB [HOST_STAT.SESSION, HOST_STAT.EXPECT]) s t ∧ hostSession t = session ∧
      fget hostB HOST_STAT.EXPECT t = (seq + 1) % 65536 ∧ t.host = { s.host with devSeq := 0, last := none } := by
  intro t
  obtain ⟨hregs, hhost⟩ := hostPut_shows { s.host with devSeq := 0, last := none } s
  have ht : t = fset hostB HOST_STAT.EXPECT (seq + 1) (fset hostB HOST_STAT.SESSION session
    (hostPut { s.host with devSeq := 0, last := none } s)) := rfl
  generalize hostPut { s.host with devSeq := 0, last := none } s = u at hregs hhost ht
  have hput : Only (page hostB [HOST_STAT.SESSION, HOST_STAT.EXPECT]) s u := (Only.refl h).of_regs hregs
  have h1 := Registers.wf_fset hput.wf hostB HOST_STAT.SESSION session
  rw [ht]
  refine ⟨(hput.fsetIn (by decide) session).fsetIn (by decide) _, ?_, fget_fset_self h1 _ _ _ (by decide), hhost⟩
  exact (fget_fset_of_apart h1 _ _ (by decide)).trans (fget_fset_lt hput.wf _ hses (by decide))

theorem hostAccept_opens {l : List Byte} (ht : frameField l 1 1 = 1) (s : State) : hostAccept l s =
    if hostSession s != 0 then
      hostNote HOST_NOTE.REPLACED (hostNote HOST_NOTE.NEW (hostOpened (frameField l 2 2) (frameField l 4 2) (hostTeardown s)))
    else hostNote HOST_NOTE.NEW (hostOpened (frameField l 2 2) (frameField l 4 2) s) := by
  refine (if_pos ht).trans ?_
  dsimp only
  by_cases hl : (hostSession s != 0) = true
  · rw [if_pos hl, if_pos hl, if_pos hl]
    rfl
  · rw [if_neg hl, if_neg hl, if_neg hl]
    rfl

/-- A new session with NEW. -/
theorem hostNew_shows {session : Nat} (hses : session < 2 ^ 16) (seq : Nat) {s : State} (h : Registers.wf s = true) :
    let t := hostNote HOST_NOTE.NEW (hostOpened session seq s)
    Registers.wf t = true ∧ hostSession t = session ∧ fget hostB HOST_STAT.EXPECT t = (seq + 1) % 65536 ∧
      fis hostB HOST_NOTE.NEW t = true ∧ t.host = { s.host with devSeq := 0, last := none } := by
  intro t
  obtain ⟨honly, hs, he, hhost⟩ := hostOpened_shows hses seq h
  have ht : t = hostNote HOST_NOTE.NEW (hostOpened session seq s) := rfl
  generalize hostOpened session seq s = u at honly hs he hhost ht
  obtain ⟨hnote, hset, hsame⟩ := hostNote_shows (f := HOST_NOTE.NEW) (by decide) honly.wf
  rw [← ht] at hnote hset hsame
  exact ⟨hnote.wf, (hnote.field (b := hostB) (g := HOST_STAT.SESSION) (by decide)).trans hs,
    (hnote.field (by decide)).trans he, hset, hsame.trans hhost⟩

theorem hostAccept_opens_shows {l : List Byte} (htype : frameField l 1 1 = 1) {s : State} (h : Registers.wf s = true) :
    let t := hostAccept l s
    t.host.result = s.host.result ∧ fget hostB HOST_STAT.EXPECT t = (frameField l 4 2 + 1) % 65536 ∧
      hostSession t = frameField l 2 2 ∧ t.host.devSeq = 0 ∧ fis hostB HOST_NOTE.NEW t = true ∧
      (hostSession s ≠ 0 → t.host.msgs = [] ∧ t.host.frames = [] ∧ t.host.build = [] ∧ t.host.taken = s.host.taken ∧
        fis hostB HOST_NOTE.REPLACED t = true) := by
  intro t
  have ht : t = _ := hostAccept_opens htype s
  have hses : frameField l 2 2 < 2 ^ 16 := frameField_lt l 2 2
  by_cases hlive : hostSession s = 0
  · obtain ⟨-, hs, he, hnew, hhost⟩ := hostNew_shows hses (frameField l 4 2) h
    rw [if_neg (by rw [hlive]; decide)] at ht
    rw [← ht] at hs he hnew hhost
    exact ⟨by rw [hhost], he, hs, by rw [hhost], hnew, fun hne => absurd hlive hne⟩
  · obtain ⟨hdown, -, hhost1⟩ := hostTeardown_shows h
    rw [if_pos (bne_iff_ne.2 hlive)] at ht
    generalize hostTeardown s = u at hdown hhost1 ht
    obtain ⟨hwf, hs, he, hnew, hhost⟩ := hostNew_shows hses (frameField l 4 2) hdown.wf
    generalize hostNote HOST_NOTE.NEW (hostOpened (frameField l 2 2) (frameField l 4 2) u) = w at hwf hs he hnew hhost ht
    obtain ⟨hnote, hset, hsame⟩ := hostNote_shows (f := HOST_NOTE.REPLACED) (by decide) hwf
    rw [← ht] at hnote hset hsame
    rw [hhost, hhost1] at hsame
    exact ⟨by rw [hsame], (hnote.field (by decide)).trans he,
      (hnote.field (b := hostB) (g := HOST_STAT.SESSION) (by decide)).trans hs, by rw [hsame],
      (hnote.flag (by decide)).trans hnew, fun _ => ⟨by rw [hsame], by rw [hsame],
        by rw [hsame], by rw [hsame], hset⟩⟩

/-- The next SEQ alone. -/
theorem hostExpect_shows (seq : Nat) {s : State} (h : Registers.wf s = true) :
    let t := fset hostB HOST_STAT.EXPECT (seq + 1) s
    Registers.wf t = true ∧ hostSession t = hostSession s ∧ fget hostB HOST_STAT.EXPECT t = (seq + 1) % 65536 ∧ t.host = s.host :=
  ⟨Registers.wf_fset h _ _ _, fget_fset_of_apart h _ _ (by decide), fget_fset_self h _ _ _ (by decide), rfl⟩

/-- A message's store. -/
abbrev hostStored (l : List Byte) (v : HostState) : HostState :=
  { v with msgs := v.msgs ++ [{ seq := frameField l 4 2, octets := (l.drop 8).take (frameField l 6 2) }] }

theorem hostAccept_stores {l : List Byte} (ht : frameField l 1 1 = 2) (s : State) : hostAccept l s =
    hostNote HOST_NOTE.MSG (fset hostB HOST_STAT.EXPECT (frameField l 4 2 + 1) (hostPut (hostStored l s.host) s)) :=
  (if_neg (by rw [ht]; decide)).trans (if_pos ht)

theorem hostAccept_stores_shows {l : List Byte} (htype : frameField l 1 1 = 2) {s : State} (h : Registers.wf s = true) :
    let t := hostAccept l s
    fget hostB HOST_STAT.EXPECT t = (frameField l 4 2 + 1) % 65536 ∧ hostSession t = hostSession s ∧
      fis hostB HOST_NOTE.MSG t = true ∧ t.host = hostStored l s.host := by
  intro t
  have ht : t = _ := hostAccept_stores htype s
  obtain ⟨hregs, hhost⟩ := hostPut_shows (hostStored l s.host) s
  have hput : Only (page hostB [HOST_STAT.EXPECT]) s (hostPut (hostStored l s.host) s) := (Only.refl h).of_regs hregs
  have hlive : hostSession (hostPut (hostStored l s.host) s) = hostSession s := fget_of_regs hregs _ _
  generalize hostPut (hostStored l s.host) s = u at hhost hput hlive ht
  obtain ⟨hwf, hs, he, hsame⟩ := hostExpect_shows (frameField l 4 2) hput.wf
  generalize fset hostB HOST_STAT.EXPECT (frameField l 4 2 + 1) u = w at hwf hs he hsame ht
  obtain ⟨hnote, hset, hlate⟩ := hostNote_shows (f := HOST_NOTE.MSG) (by decide) hwf
  rw [← ht] at hnote hset hlate
  exact ⟨(hnote.field (by decide)).trans he,
    (hnote.field (b := hostB) (g := HOST_STAT.SESSION) (by decide)).trans (hs.trans hlive), hset,
    hlate.trans (hsame.trans hhost)⟩

theorem hostAccept_pings {l : List Byte} (ht : frameField l 1 1 = 3) (s : State) : hostAccept l s =
    fset hostB HOST_STAT.EXPECT (frameField l 4 2 + 1) s :=
  (if_neg (by rw [ht]; decide)).trans (if_neg (by rw [ht]; decide))

/-! ### WRITE_FRAME (R627, R629) -/

section
variable {l : List Byte} {s : State}

theorem hostWrite_unpowered (h : pdOn 75 s = false) : hostWrite l s = s := if_pos h

theorem hostWrite_ignored (hp : pdOn 75 s = true) (h : hostResult l s = none) : hostWrite l s = s := by
  unfold hostWrite
  rw [if_neg (by rw [hp]; decide), h]

theorem hostWrite_refused {r : Nat} (hp : pdOn 75 s = true) (h : hostResult l s = some (r + 2)) :
    hostWrite l s = hostPut { s.host with result := r + 2 } s := by
  unfold hostWrite
  rw [if_neg (by rw [hp]; decide), h]
  rfl

theorem hostWrite_taken (hp : pdOn 75 s = true) (h : hostResult l s = some 1) :
    hostWrite l s = hostAccept l (hostPut { s.host with result := 1 } s) := by
  unfold hostWrite
  rw [if_neg (by rw [hp]; decide), h]
  rfl

end

end Sys2Proof.Machine
end

section
/-!
THEOREMS. The judgement of a written frame, the reads, and the house's side of the host port (R627–R634, R650).
-/

namespace Sys2Proof.Machine

open Reg

/-! ### The judgement (R629) -/

section
variable {l : List Byte} {s : State}

/-- Lengths, magic and the length field agree. -/
abbrev hostShaped (l : List Byte) : Prop :=
  12 ≤ l.length ∧ l.length ≤ 512 ∧ frameField l 0 1 = 0xA5 ∧ frameField l 6 2 ≤ 500 ∧ l.length = 12 + frameField l 6 2

/-- The check sequence agrees. -/
abbrev hostSummed (l : List Byte) : Prop :=
  crc32c (l.take (8 + frameField l 6 2)) = frameField l (8 + frameField l 6 2) 4

/-- The type is listed and has the length it may have. -/
abbrev hostTyped (l : List Byte) : Prop :=
  (frameField l 1 1 = 1 ∧ frameField l 6 2 = 0) ∨ frameField l 1 1 = 2 ∨ (frameField l 1 1 = 3 ∧ frameField l 6 2 = 0)

/-- The session may be opened, or is the live one. -/
abbrev hostNamed (l : List Byte) (s : State) : Prop :=
  (frameField l 1 1 = 1 ∧ frameField l 2 2 ≠ 0 ∧ frameField l 2 2 ≠ hostSession s) ∨
    (frameField l 1 1 ≠ 1 ∧ hostSession s ≠ 0 ∧ frameField l 2 2 = hostSession s)

/-- SEQ is the one expected, where it counts. -/
abbrev hostInOrder (l : List Byte) (s : State) : Prop :=
  frameField l 1 1 = 1 ∨ frameField l 4 2 = fget hostB HOST_STAT.EXPECT s

/-- A message finds room. -/
abbrev hostHeld (l : List Byte) (s : State) : Prop :=
  frameField l 1 1 ≠ 2 ∨ (storeOctets (frameField l 6 2) ≤ hostFree s ∧ s.host.msgs.length < 8)

theorem hostResult_off (hon : ¬ fis hostB HOST_CTRL.EN s = true) : hostResult l s = none := if_pos (Bool.eq_false_iff.2 hon)

theorem hostResult_shape (hon : fis hostB HOST_CTRL.EN s = true) (h : ¬ hostShaped l) : hostResult l s = some 4 :=
  (if_neg (by rw [hon]; decide)).trans (if_pos (by
    unfold hostShaped at h
    omega))

/-- A frame in shape, with the port on. -/
theorem hostResult_shaped (hon : fis hostB HOST_CTRL.EN s = true) (h : hostShaped l) : hostResult l s =
    if crc32c (l.take (8 + frameField l 6 2)) ≠ frameField l (8 + frameField l 6 2) 4 then some 3
    else if ¬(frameField l 1 1 = 1 ∨ frameField l 1 1 = 2 ∨ frameField l 1 1 = 3) ∨ (frameField l 1 1 ≠ 2 ∧ frameField l 6 2 ≠ 0) then some 4
    else if frameField l 1 1 = 1 then (if frameField l 2 2 = 0 ∨ frameField l 2 2 = hostSession s then some 5 else some 1)
    else if hostSession s = 0 ∨ frameField l 2 2 ≠ hostSession s then some 5
    else if frameField l 4 2 ≠ fget hostB HOST_STAT.EXPECT s then some 2
    else if frameField l 1 1 = 2 ∧ (hostFree s < storeOctets (frameField l 6 2) ∨ 8 ≤ s.host.msgs.length) then some 6
    else some 1 :=
  (if_neg (by rw [hon]; decide)).trans (if_neg (by
    obtain ⟨h1, h2, h3, h4, h5⟩ := h
    omega))

theorem hostResult_sum (hon : fis hostB HOST_CTRL.EN s = true) (hs : hostShaped l) (h : ¬ hostSummed l) : hostResult l s = some 3 :=
  (hostResult_shaped hon hs).trans (if_pos h)

theorem hostResult_type (hon : fis hostB HOST_CTRL.EN s = true) (hs : hostShaped l) (hc : hostSummed l) (h : ¬ hostTyped l) :
    hostResult l s = some 4 :=
  (hostResult_shaped hon hs).trans ((if_neg (not_not_intro hc)).trans (if_pos (by
    unfold hostTyped at h
    omega)))

/-- A frame whose octets are in order. -/
theorem hostResult_typed (hon : fis hostB HOST_CTRL.EN s = true) (hs : hostShaped l) (hc : hostSummed l) (h : hostTyped l) :
    hostResult l s =
      if frameField l 1 1 = 1 then (if frameField l 2 2 = 0 ∨ frameField l 2 2 = hostSession s then some 5 else some 1)
      else if hostSession s = 0 ∨ frameField l 2 2 ≠ hostSession s then some 5
      else if frameField l 4 2 ≠ fget hostB HOST_STAT.EXPECT s then some 2
      else if frameField l 1 1 = 2 ∧ (hostFree s < storeOctets (frameField l 6 2) ∨ 8 ≤ s.host.msgs.length) then some 6
      else some 1 :=
  (hostResult_shaped hon hs).trans ((if_neg (not_not_intro hc)).trans (if_neg (by
    unfold hostTyped at h
    omega)))

theorem hostResult_name (hon : fis hostB HOST_CTRL.EN s = true) (hs : hostShaped l) (hc : hostSummed l) (ht : hostTyped l)
    (h : ¬ hostNamed l s) : hostResult l s = some 5 := by
  refine (hostResult_typed hon hs hc ht).trans ?_
  unfold hostNamed at h
  by_cases h1 : frameField l 1 1 = 1
  · exact (if_pos h1).trans (if_pos (by omega))
  · exact (if_neg h1).trans (if_pos (by omega))

theorem hostResult_order (hon : fis hostB HOST_CTRL.EN s = true) (hs : hostShaped l) (hc : hostSummed l) (ht : hostTyped l)
    (hn : hostNamed l s) (h : ¬ hostInOrder l s) : hostResult l s = some 2 := by
  unfold hostInOrder at h
  unfold hostNamed at hn
  exact (hostResult_typed hon hs hc ht).trans ((if_neg (by omega)).trans ((if_neg (by omega)).trans (if_pos (by omega))))

theorem hostResult_full (hon : fis hostB HOST_CTRL.EN s = true) (hs : hostShaped l) (hc : hostSummed l) (ht : hostTyped l)
    (hn : hostNamed l s) (ho : hostInOrder l s) (h : ¬ hostHeld l s) : hostResult l s = some 6 := by
  unfold hostInOrder at ho
  unfold hostNamed at hn
  unfold hostHeld at h
  exact (hostResult_typed hon hs hc ht).trans ((if_neg (by omega)).trans ((if_neg (by omega)).trans ((if_neg (by omega)).trans
    (if_pos (by omega)))))

theorem hostResult_ack (hon : fis hostB HOST_CTRL.EN s = true) (hs : hostShaped l) (hc : hostSummed l) (ht : hostTyped l)
    (hn : hostNamed l s) (ho : hostInOrder l s) (h : hostHeld l s) : hostResult l s = some 1 := by
  refine (hostResult_typed hon hs hc ht).trans ?_
  unfold hostNamed at hn
  by_cases h1 : frameField l 1 1 = 1
  · exact (if_pos h1).trans (if_neg (by omega))
  · unfold hostInOrder at ho
    unfold hostHeld at h
    exact (if_neg h1).trans ((if_neg (by omega)).trans ((if_neg (by omega)).trans (if_neg (by omega))))

end

/-- A frame that is acknowledged, by its type. -/
theorem hostWrite_ack_shows {l : List Byte} {s : State} (hp : pdOn 75 s = true) (hr : hostResult l s = some 1) (htyped : hostTyped l)
    (h : Registers.wf s = true) :
    let t := hostWrite l s
    t.host.result = 1 ∧ fget hostB HOST_STAT.EXPECT t = (frameField l 4 2 + 1) % 65536 ∧
      (frameField l 1 1 = 1 → hostSession t = frameField l 2 2 ∧ t.host.devSeq = 0 ∧ fis hostB HOST_NOTE.NEW t = true ∧
        (hostSession s ≠ 0 → t.host.msgs = [] ∧ t.host.frames = [] ∧ t.host.build = [] ∧ t.host.taken = s.host.taken ∧
          fis hostB HOST_NOTE.REPLACED t = true)) ∧
      (frameField l 1 1 = 2 → hostSession t = hostSession s ∧ t.host.frames = s.host.frames ∧
        t.host.msgs = s.host.msgs ++ [{ seq := frameField l 4 2, octets := (l.drop 8).take (frameField l 6 2) }] ∧
        fis hostB HOST_NOTE.MSG t = true) ∧
      (frameField l 1 1 = 3 → hostSession t = hostSession s ∧ t.host.msgs = s.host.msgs ∧ t.host.frames = s.host.frames) := by
  intro t
  have ht : t = _ := hostWrite_taken hp hr
  obtain ⟨hregs, hhost⟩ := hostPut_shows { s.host with result := 1 } s
  generalize hostPut { s.host with result := 1 } s = u at hregs hhost ht
  have hu : Registers.wf u = true := (Registers.wf_of_regs hregs).trans h
  have hlive : hostSession u = hostSession s := fget_of_regs hregs _ _
  have hone : u.host.result = 1 := by rw [hhost]
  have hmsgs : u.host.msgs = s.host.msgs := by rw [hhost]
  have hframes : u.host.frames = s.host.frames := by rw [hhost]
  have htaken : u.host.taken = s.host.taken := by rw [hhost]
  rcases htyped with ⟨htype, -⟩ | htype | ⟨htype, -⟩
  · obtain ⟨hres, hexp, hses, hdev, hnew, hold⟩ := hostAccept_opens_shows htype hu
    rw [← ht] at hres hexp hses hdev hnew hold
    rw [hlive, htaken] at hold
    exact ⟨hres.trans hone, hexp, fun _ => ⟨hses, hdev, hnew, hold⟩, fun h2 => absurd (htype.symm.trans h2) (by decide),
      fun h3 => absurd (htype.symm.trans h3) (by decide)⟩
  · obtain ⟨hexp, hses, hmsg, hafter⟩ := hostAccept_stores_shows htype hu
    rw [← ht] at hexp hses hmsg hafter
    refine ⟨?_, hexp, fun h1 => absurd (htype.symm.trans h1) (by decide), fun _ => ⟨hses.trans hlive, ?_, ?_, hmsg⟩,
      fun h3 => absurd (htype.symm.trans h3) (by decide)⟩
    · rw [hafter]
      exact hone
    · rw [hafter]
      exact hframes
    · rw [hafter]
      exact congrArg (· ++ _) hmsgs
  · obtain ⟨-, hses, hexp, hafter⟩ := hostExpect_shows (frameField l 4 2) hu
    rw [← hostAccept_pings htype, ← ht] at hses hexp hafter
    exact ⟨by rw [hafter, hone], hexp, fun h1 => absurd (htype.symm.trans h1) (by decide),
      fun h2 => absurd (htype.symm.trans h2) (by decide), fun _ => ⟨hses.trans hlive, by rw [hafter, hmsgs], by rw [hafter, hframes]⟩⟩

/-! ### Reads (R627, R630) -/

/-- The oldest frame goes to the reader. -/
abbrev hostGiven (f : List Byte) (r : List (List Byte)) (v : HostState) : HostState := { v with frames := r, last := some f, reply := f }

theorem hostRead_frame {f : List Byte} {r : List (List Byte)} {s : State} (hp : pdOn 75 s = true) (hf : s.host.frames = f :: r) :
    hostRead s = if r.isEmpty then hostNote HOST_NOTE.SPACE (hostPut (hostGiven f r s.host) s)
      else hostPut (hostGiven f r s.host) s := by
  unfold hostRead
  rw [if_neg (by rw [hp]; decide), hf]

theorem hostRead_frame_shows {f : List Byte} {r : List (List Byte)} {s : State} (hp : pdOn 75 s = true)
    (hf : s.host.frames = f :: r) (h : Registers.wf s = true) :
    let t := hostRead s
    t.host.reply = f ∧ t.host.frames = r ∧ t.host.last = some f ∧ (r = [] → fis hostB HOST_NOTE.SPACE t = true) := by
  intro t
  have ht : t = _ := hostRead_frame hp hf
  obtain ⟨hregs, hhost⟩ := hostPut_shows (hostGiven f r s.host) s
  generalize hostPut (hostGiven f r s.host) s = u at hregs hhost ht
  by_cases he : r.isEmpty = true
  · obtain ⟨-, hset, hsame⟩ := hostNote_shows (f := HOST_NOTE.SPACE) (by decide) ((Registers.wf_of_regs hregs).trans h)
    rw [if_pos he] at ht
    rw [← ht] at hset hsame
    rw [hhost] at hsame
    exact ⟨by rw [hsame], by rw [hsame], by rw [hsame], fun _ => hset⟩
  · rw [if_neg he] at ht
    rw [ht, hhost]
    exact ⟨rfl, rfl, rfl, fun hr => absurd (by rw [hr]; rfl) he⟩

/-- With no frame waiting a NONE frame is the answer. -/
theorem hostRead_none {s : State} (hp : pdOn 75 s = true) (hf : s.host.frames = []) :
    let t := hostRead s
    t.host.frames = [] ∧ t.host.reply.length = 12 ∧ t.host.reply.take 2 = [0xA5, 0x80] ∧ t.host.last = some t.host.reply ∧
      t.regs = s.regs := by
  intro t
  have ht : t = hostPut { s.host with last := some (hostNone s).1, reply := (hostNone s).1 } (hostNone s).2 := by
    show hostRead s = _
    unfold hostRead
    rw [if_neg (by rw [hp]; decide), hf]
    rfl
  rw [ht]
  exact ⟨hf, hostFrame_length _ _ _ _, hostFrame_take_two _ _ _ _, rfl, rfl⟩

theorem hostReread_last {f : List Byte} {s : State} (hp : pdOn 75 s = true) (hl : s.host.last = some f) :
    hostReread s = hostPut { s.host with reply := f } s := by
  unfold hostReread
  rw [if_neg (by rw [hp]; decide), hl]

theorem hostReread_none {s : State} (hp : pdOn 75 s = true) (hl : s.host.last = none) :
    let t := hostReread s
    t.host.reply.take 2 = [0xA5, 0x80] ∧ t.host.frames = s.host.frames ∧ t.host.last = none ∧ t.regs = s.regs := by
  intro t
  have ht : t = hostPut { s.host with reply := (hostNone s).1 } (hostNone s).2 := by
    show hostReread s = _
    unfold hostReread
    rw [if_neg (by rw [hp]; decide), hl]
    rfl
  rw [ht]
  exact ⟨hostFrame_take_two _ _ _ _, rfl, hl, rfl⟩

/-! ### The house's side (R633, R634, R650) -/

theorem hostInHdr_message {m : HostMsg} {r : List HostMsg} {s : State} (hm : s.host.msgs = m :: r) : hostInHdr s =
    (BitVec.ofNat 32 (2 ^ 31 + m.octets.length * 2 ^ 16 + m.seq),
      hostPut { s.host with msgs := r, taken := some (m.octets.length, m.octets) } s) := by
  unfold hostInHdr
  rw [hm]

theorem hostInHdr_none {s : State} (hm : s.host.msgs = []) : hostInHdr s = (0, hostPut { s.host with taken := none } s) := by
  unfold hostInHdr
  rw [hm]

theorem hostInData_some {n : Nat} {l : List Byte} {s : State} (ht : s.host.taken = some (n, l)) : hostInData s =
    (BitVec.ofNat 32 (ofLeBytes (l.take 4)), hostPut { s.host with taken := some (n, l.drop 4) } s) := by
  unfold hostInData
  rw [ht]

theorem hostInData_none {s : State} (ht : s.host.taken = none) : hostInData s = (0, s) := by
  unfold hostInData
  rw [ht]

/-- A command bit set beside the fields it names. -/
theorem commandBit_fields {k : Nat} (hk : k = 14 ∨ k = 15) (data : Word) :
    bitsOf (data ||| BitVec.ofNat 32 (2 ^ k)) 0 9 = bitsOf data 0 9 ∧
      bitsOf (data ||| BitVec.ofNat 32 (2 ^ k)) 16 16 = bitsOf data 16 16 ∧
      ∀ j, j = 14 ∨ j = 15 → bitOf (data ||| BitVec.ofNat 32 (2 ^ k)) j = (bitOf data j || decide (j = k)) := by
  have hbits (j : Nat) (hj : j < 32) : (data ||| BitVec.ofNat 32 (2 ^ k)).getLsbD j = (data.getLsbD j || decide (j = k)) := by
    rw [BitVec.getLsbD_or, BitVec.getLsbD_ofNat, Nat.testBit_two_pow, decide_eq_true hj, Bool.true_and]
    exact congrArg _ (decide_eq_decide.2 eq_comm)
  have hfield {lo w : Nat} (hlo : lo + w ≤ 32) (hoff : lo + w ≤ 14 ∨ 16 ≤ lo) :
      bitsOf (data ||| BitVec.ofNat 32 (2 ^ k)) lo w = bitsOf data lo w := by
    refine Nat.eq_of_testBit_eq fun i => ?_
    rw [bitsOf_testBit, bitsOf_testBit]
    by_cases hi : i < w
    · rw [hbits (lo + i) (by omega), decide_eq_false (show ¬ lo + i = k by omega), Bool.or_false]
    · rw [decide_eq_false hi, Bool.false_and, Bool.false_and]
  exact ⟨hfield (by decide) (by decide), hfield (by decide) (by decide), fun j hj => hbits j (by omega)⟩

/-- The building buffer is emptied. -/
def hostGone (s : State) : State := { s with host := { s.host with build := [] } }

theorem hostOutCmd_both {data : Word} {s : State} (hc : bitOf data 15 = true) (hd : bitOf data 14 = true) :
    hostOutCmd data s = hostErr HOST_ERR.RANGE s := if_pos (by rw [hc, hd]; rfl)

theorem hostOutCmd_discard {data : Word} {s : State} (hc : bitOf data 15 = false) (hd : bitOf data 14 = true) :
    hostOutCmd data s = hostGone s :=
  (if_neg (by rw [hc, hd]; decide)).trans ((if_neg (by rw [hc]; decide)).trans (if_pos hd))

theorem hostOutCmd_commit {data : Word} {s : State} (hc : bitOf data 15 = true) (hd : bitOf data 14 = false) :
    hostOutCmd data s =
      if hostSession s = 0 ∨ bitsOf data 16 16 ≠ hostSession s then hostGone (hostErr HOST_ERR.STALE s)
      else if 500 < bitsOf data 0 9 ∨ s.host.build.length < bitsOf data 0 9 then hostGone (hostErr HOST_ERR.LEN s)
      else if 8 ≤ s.host.frames.length ∨ hostRoom s < storeOctets (bitsOf data 0 9) then hostGone (hostErr HOST_ERR.FULL s)
      else hostGone (hostSend 0x81 (s.host.build.take (bitsOf data 0 9)) s) :=
  (if_neg (by rw [hc, hd]; decide)).trans (if_pos hc)

theorem hostOutCommit_commits {data : Word} (hd : data.getLsbD 14 = false) (s : State) : hostOutCmd (data ||| 0x8000#32) s =
    if hostSession s = 0 ∨ bitsOf data 16 16 ≠ hostSession s then hostGone (hostErr HOST_ERR.STALE s)
    else if 500 < bitsOf data 0 9 ∨ s.host.build.length < bitsOf data 0 9 then hostGone (hostErr HOST_ERR.LEN s)
    else if 8 ≤ s.host.frames.length ∨ hostRoom s < storeOctets (bitsOf data 0 9) then hostGone (hostErr HOST_ERR.FULL s)
    else hostGone (hostSend 0x81 (s.host.build.take (bitsOf data 0 9)) s) := by
  obtain ⟨hlen, hses, hbit⟩ := commandBit_fields (k := 15) (.inr rfl) data
  have hc := (hbit 15 (.inr rfl)).trans (Bool.or_true _)
  have hn := (hbit 14 (.inl rfl)).trans ((Bool.or_false _).trans hd)
  have hrun := hostOutCmd_commit (s := s) hc hn
  rw [hlen, hses] at hrun
  exact hrun

theorem hostOut_both {k : Nat} (hk : k = 14 ∨ k = 15) {data : Word} (hd : data.getLsbD (29 - k) = true) (s : State) :
    hostOutCmd (data ||| BitVec.ofNat 32 (2 ^ k)) s = hostErr HOST_ERR.RANGE s := by
  obtain ⟨-, -, hbit⟩ := commandBit_fields hk data
  have hset (j : Nat) (hj : j = 14 ∨ j = 15) : bitOf (data ||| BitVec.ofNat 32 (2 ^ k)) j = true := by
    rw [hbit j hj, Bool.or_eq_true, decide_eq_true_eq]
    by_cases hjk : j = k
    · exact .inr hjk
    · left
      rwa [show 29 - k = j by omega] at hd
  exact hostOutCmd_both (hset 15 (.inr rfl)) (hset 14 (.inl rfl))

theorem hostOutDiscard_discards {data : Word} (hc : data.getLsbD 15 = false) (s : State) :
    hostOutCmd (data ||| 0x4000#32) s = hostGone s := by
  obtain ⟨-, -, hbit⟩ := commandBit_fields (k := 14) (.inl rfl) data
  exact hostOutCmd_discard ((hbit 15 (.inr rfl)).trans ((Bool.or_false _).trans hc)) ((hbit 14 (.inl rfl)).trans (Bool.or_true _))

/-- WRITE_FRAME as any of its opcodes. -/
theorem exec_hostWrite {l : List Byte} {c : Instr} (hc : c ∈ [Instr.hostResync l, .hostMsg l, .hostPing l]) (s : State) :
    exec c s = .next (hostWrite l s) := by
  simp only [List.mem_cons, List.not_mem_nil, or_false] at hc
  rcases hc with rfl | rfl | rfl <;> rfl

theorem hostRead_unpowered {s : State} (h : pdOn 75 s = false) : hostRead s = s := if_pos h

theorem hostReread_unpowered {s : State} (h : pdOn 75 s = false) : hostReread s = s := if_pos h

/-- Nothing answers while the port's domain is off. -/
theorem exec_host_unpowered {l : List Byte} {s : State} (h : pdOn 75 s = false) {c : Instr}
    (hc : c ∈ [Instr.hostResync l, .hostMsg l, .hostPing l, .readFrame, .reread, .readStatus]) : exec c s = .next s := by
  simp only [List.mem_cons, List.not_mem_nil, or_false] at hc
  rcases hc with rfl | rfl | rfl | rfl | rfl | rfl
  · exact congrArg Host.Outcome.next (hostWrite_unpowered h)
  · exact congrArg Host.Outcome.next (hostWrite_unpowered h)
  · exact congrArg Host.Outcome.next (hostWrite_unpowered h)
  · exact congrArg Host.Outcome.next (hostRead_unpowered h)
  · exact congrArg Host.Outcome.next (hostReread_unpowered h)
  · exact congrArg Host.Outcome.next (if_neg (by rw [h]; decide))

/-- Settles O55. -/
theorem hostPort : Obligations.HostPort := by
  unfold Obligations.HostPort
  refine ⟨⟨fun l s hp => ?_, fun s => ⟨fun h0 => congrArg Host.Outcome.next (if_pos h0),
      fun hlive h => ⟨_, rfl, hostExpire_shows hlive h⟩⟩, fun s hp => ⟨fun f r hf h => ⟨_, rfl, hostRead_frame_shows hp hf h⟩,
      fun hf => ⟨_, rfl, hostRead_none hp hf⟩, fun f hl => congrArg Host.Outcome.next (hostReread_last hp hl),
      fun hl => ⟨_, rfl, hostReread_none hp hl⟩, congrArg Host.Outcome.next (if_pos hp)⟩,
      fun l s hoff c hc => exec_host_unpowered hoff hc⟩,
    fun i s hadm => ⟨fun hm => ?_, fun m r hm => ?_⟩, fun i s hadm => ⟨fun ht => ?_, fun n l ht => ?_⟩,
    fun i data s hadm => ⟨fun hlong => ?_, fun hshort => ?_⟩, fun i data s hadm => ?_,
    fun type session seq payload htype hlen => ⟨hostFrame_length _ _ _ _, hostFrame_payload _ _ _ _, hostFrame_type htype,
      hostFrame_len (by omega)⟩⟩
  · intro type session seq len live expect on shaped crc typed named inOrder held nak c hc
    have hto {u : State} (hu : hostWrite l s = u) : exec c s = .next u := (exec_hostWrite hc s).trans (congrArg _ hu)
    exact ⟨fun hn => hto (hostWrite_ignored hp (hostResult_off hn)),
      fun hn h1 => hto (hostWrite_refused hp (hostResult_shape hn h1)),
      fun hn h1 h2 => hto (hostWrite_refused hp (hostResult_sum hn h1 h2)),
      fun hn h1 h2 h3 => hto (hostWrite_refused hp (hostResult_type hn h1 h2 h3)),
      fun hn h1 h2 h3 h4 => hto (hostWrite_refused hp (hostResult_name hn h1 h2 h3 h4)),
      fun hn h1 h2 h3 h4 h5 => hto (hostWrite_refused hp (hostResult_order hn h1 h2 h3 h4 h5)),
      fun hn h1 h2 h3 h4 h5 h6 => hto (hostWrite_refused hp (hostResult_full hn h1 h2 h3 h4 h5 h6)),
      fun hn h1 h2 h3 h4 h5 h6 h => ⟨_, hto rfl, hostWrite_ack_shows hp (hostResult_ack hn h1 h2 h3 h4 h5 h6) h3 h⟩⟩
  · exact congrArg Host.Outcome.next ((doorLoad_admits hadm).trans (by rw [hostInHdr_none hm]; rfl))
  · exact congrArg Host.Outcome.next ((doorLoad_admits hadm).trans (by rw [hostInHdr_message hm]; rfl))
  · exact congrArg Host.Outcome.next ((doorLoad_admits hadm).trans (by rw [hostInData_none ht]))
  · exact congrArg Host.Outcome.next ((doorLoad_admits hadm).trans (by rw [hostInData_some ht]; rfl))
  · exact congrArg Host.Outcome.next ((doorStore_admits hadm).trans (congrArg acknowledge (if_pos (by omega))))
  · exact congrArg Host.Outcome.next ((doorStore_admits hadm).trans (congrArg acknowledge (if_neg (by omega))))
  · intro len stale long full gone
    have hto {d : Word} {u : State} (hu : hostOutCmd d s = u) : doorStore i 0x40110018 (hostOutCmd d) s = acknowledge u :=
      (doorStore_admits hadm).trans (congrArg acknowledge hu)
    refine ⟨fun hd => congrArg Host.Outcome.next (hto (hostOut_both (k := 15) (.inr rfl) hd s)),
      fun hc => congrArg Host.Outcome.next (hto (hostOut_both (k := 14) (.inl rfl) hc s)),
      fun hc => congrArg Host.Outcome.next (hto (hostOutDiscard_discards hc s)), fun hd => ?_⟩
    have hrun := hostOutCommit_commits hd s
    exact ⟨fun h1 => congrArg Host.Outcome.next (hto (hrun.trans (if_pos h1))),
      fun h1 h2 => congrArg Host.Outcome.next (hto (hrun.trans ((if_neg h1).trans (if_pos h2)))),
      fun h1 h2 h3 => congrArg Host.Outcome.next (hto (hrun.trans ((if_neg h1).trans ((if_neg h2).trans (if_pos h3))))),
      fun h1 h2 h3 => congrArg Host.Outcome.next (hto (hrun.trans ((if_neg h1).trans ((if_neg h2).trans (if_neg h3)))))⟩

end Sys2Proof.Machine

namespace Sys2Proof.Tests
open Sys2Proof.Machine

set_option maxRecDepth 8000

/-- The port is on and listens; session 7 opens with SEQ 3. -/
theorem test_hyps_hostPort :
    hostSession (hostAccept (hostFrame 1 7 3 []) (regs [(0x400F0030, 0xFFFFFFFF), (0x40110000, 0x00010001)] up)) = 7 :=
  (hostAccept_opens_shows (l := hostFrame 1 7 3 []) (by decide) (by decide)).2.2.1.trans (by decide)

end Sys2Proof.Tests
end

section
/-!
THEOREMS. The UARTs and the I²C controllers (R635–R640, R649, R651).
-/

namespace Sys2Proof.Machine

open Reg

/-! ### A UART's FIFOs and notes -/

theorem uartGet_uartPut {k : Nat} {v : UartState} (hv : v ≠ {}) (s : State) : uartGet k (uartPut k v s) = v :=
  tget_tset_of_ne hv s.uarts

/-- A UART that holds a character is not an empty one. -/
theorem uart_ne_of_rx {v : UartState} (h : v.rx ≠ []) : v ≠ {} := fun e => h (by rw [e])

theorem uart_ne_of_tx {v : UartState} (h : v.tx ≠ []) : v ≠ {} := fun e => h (by rw [e])

theorem uartGet_congr {s t : State} (h : t.uarts = s.uarts) (k : Nat) : uartGet k t = uartGet k s := by
  unfold uartGet
  rw [h]

theorem uartNote_shows {k : Nat} {f : Fld} (hf : f.w = 1 ∧ f.lo + f.w ≤ 32) {s : State} (h : Registers.wf s = true) :
    let t := uartNote k f s
    Only (page (uartP k) [f]) s t ∧ fis (uartP k) f t = true ∧ t.uarts = s.uarts :=
  ⟨(Only.refl h).noteIn (List.mem_singleton.2 rfl) _, fis_note h _ hf.1 hf.2 _, note_uarts _ _ _ _⟩

/-- The marks of a character: a break, or its frame and parity errors. -/
def uartMarked (k : Nat) (par frm brk : Bool) (s : State) : State :=
  if brk then uartNote k UART_NOTE.BRK s
  else
    let t := if frm then uartNote k UART_NOTE.FRM s else s
    if par then uartNote k UART_NOTE.PAR t else t

theorem uartMarked_shows (k : Nat) (par frm brk : Bool) {s : State} (h : Registers.wf s = true) :
    let t := uartMarked k par frm brk s
    Only (page (uartP k) [UART_NOTE.BRK, UART_NOTE.FRM, UART_NOTE.PAR]) s t ∧ t.uarts = s.uarts ∧
      (brk = true → fis (uartP k) UART_NOTE.BRK t = true) ∧
      (brk = false → frm = true → fis (uartP k) UART_NOTE.FRM t = true) ∧
      (brk = false → par = true → fis (uartP k) UART_NOTE.PAR t = true) := by
  cases brk
  · obtain ⟨u, hu, honly, hsame, hset⟩ : ∃ u, (if frm = true then uartNote k UART_NOTE.FRM s else s) = u ∧
        Only (page (uartP k) [UART_NOTE.BRK, UART_NOTE.FRM, UART_NOTE.PAR]) s u ∧ u.uarts = s.uarts ∧
        (frm = true → fis (uartP k) UART_NOTE.FRM u = true) := by
      cases frm
      · exact ⟨s, rfl, .refl h, rfl, fun he => absurd he (by decide)⟩
      · obtain ⟨hnote, hflag, hkept⟩ := uartNote_shows (k := k) (f := UART_NOTE.FRM) (by decide) h
        exact ⟨_, rfl, hnote.mono (List.map_subset _ (by decide)), hkept, fun _ => hflag⟩
    have ht : uartMarked k par frm false s = if par = true then uartNote k UART_NOTE.PAR u else u :=
      congrArg (fun x => if par = true then uartNote k UART_NOTE.PAR x else x) hu
    rw [ht]
    cases par
    · exact ⟨honly, hsame, fun he => absurd he (by decide), fun _ => hset, fun _ he => absurd he (by decide)⟩
    · obtain ⟨hnote, hflag, hkept⟩ := uartNote_shows (k := k) (f := UART_NOTE.PAR) (by decide) honly.wf
      exact ⟨honly.trans (hnote.mono (List.map_subset _ (by decide))), hkept.trans hsame, fun he => absurd he (by decide),
        fun _ hf => (hnote.flagIn (by decide)).trans (hset hf), fun _ _ => hflag⟩
  · obtain ⟨hnote, hflag, hkept⟩ := uartNote_shows (k := k) (f := UART_NOTE.BRK) (by decide) h
    exact ⟨hnote.mono (List.map_subset _ (by decide)), hkept, fun _ => hflag, fun he => absurd he (by decide),
      fun he => absurd he (by decide)⟩

/-! ### Characters (R635, R636) -/

section
variable {k : Nat} {s : State}

/-- The UART's domain is on and the UART enabled. -/
abbrev uartRuns (k : Nat) (s : State) : Prop := pdOn 75 s = true ∧ fis (uartP k) UART_CFG.EN s = true

theorem uartRuns_not (h : uartRuns k s) : ¬ (pdOn 75 s = false ∨ fis (uartP k) UART_CFG.EN s = false) := by
  rw [h.1, h.2]
  decide

theorem uartReceive_full {d : Byte} {par frm brk : Bool} (hr : uartRuns k s) (h : 64 ≤ (uartGet k s).rx.length) :
    uartReceive k d par frm brk s = uartNote k UART_NOTE.OVR s := (if_neg (uartRuns_not hr)).trans (if_pos h)

/-- The character as the FIFO holds it. -/
def uartChar (k : Nat) (d : Byte) (par frm brk : Bool) (s : State) : Nat :=
  if brk then 2 ^ 11 else ofBool frm * 2 ^ 10 + ofBool par * 2 ^ 9 + (uartMask k d s).toNat

theorem uartReceive_room {d : Byte} {par frm brk : Bool} (hr : uartRuns k s) (h : (uartGet k s).rx.length < 64) :
    uartReceive k d par frm brk s =
      let s2 := uartMarked k par frm brk (uartPut k { uartGet k s with rx := (uartGet k s).rx ++ [uartChar k d par frm brk s] } s)
      if (uartGet k s).rx.length + 1 = fget (uartP k) UART_TH.RX_TH s2 then uartNote k UART_NOTE.RX s2 else s2 :=
  (if_neg (uartRuns_not hr)).trans (if_neg (by omega))

theorem uartReceive_shows {d : Byte} {par frm brk : Bool} (hr : uartRuns k s) (hlen : (uartGet k s).rx.length < 64)
    (h : Registers.wf s = true) :
    let t := uartReceive k d par frm brk s
    (uartGet k t).rx = (uartGet k s).rx ++ [uartChar k d par frm brk s] ∧ (uartGet k t).tx = (uartGet k s).tx ∧
      (brk = true → fis (uartP k) UART_NOTE.BRK t = true) ∧
      (brk = false → frm = true → fis (uartP k) UART_NOTE.FRM t = true) ∧
      (brk = false → par = true → fis (uartP k) UART_NOTE.PAR t = true) ∧
      ((uartGet k s).rx.length + 1 = fget (uartP k) UART_TH.RX_TH s → fis (uartP k) UART_NOTE.RX t = true) := by
  intro t
  have ht : t = _ := uartReceive_room hr hlen
  have hget := uartGet_uartPut (k := k) (v := { uartGet k s with rx := (uartGet k s).rx ++ [uartChar k d par frm brk s] })
    (uart_ne_of_rx (by simp)) s
  have hregs : (uartPut k { uartGet k s with rx := (uartGet k s).rx ++ [uartChar k d par frm brk s] } s).regs = s.regs := rfl
  generalize uartPut k { uartGet k s with rx := (uartGet k s).rx ++ [uartChar k d par frm brk s] } s = u at hget hregs ht
  have hput : Only (page (uartP k) [UART_NOTE.BRK, UART_NOTE.FRM, UART_NOTE.PAR]) s u := (Only.refl h).of_regs hregs
  obtain ⟨hmark, hsame, hbrk, hfrm, hpar⟩ := uartMarked_shows k par frm brk hput.wf
  dsimp only at ht
  generalize uartMarked k par frm brk u = w at hmark hsame hbrk hfrm hpar ht
  have hgetW := (uartGet_congr hsame k).trans hget
  have hth : fget (uartP k) UART_TH.RX_TH w = fget (uartP k) UART_TH.RX_TH s := (hput.trans hmark).fieldIn (by decide)
  rw [hth] at ht
  by_cases hrx : (uartGet k s).rx.length + 1 = fget (uartP k) UART_TH.RX_TH s
  · obtain ⟨hnote, hflag, hkept⟩ := uartNote_shows (k := k) (f := UART_NOTE.RX) (by decide) hmark.wf
    rw [if_pos hrx] at ht
    rw [← ht] at hnote hflag hkept
    have hgetT := (uartGet_congr hkept k).trans hgetW
    exact ⟨by rw [hgetT], by rw [hgetT], fun hb => (hnote.flagIn (by decide)).trans (hbrk hb),
      fun hb hf => (hnote.flagIn (by decide)).trans (hfrm hb hf), fun hb hp => (hnote.flagIn (by decide)).trans (hpar hb hp),
      fun _ => hflag⟩
  · rw [if_neg hrx] at ht
    rw [ht]
    exact ⟨by rw [hgetW], by rw [hgetW], hbrk, hfrm, hpar, fun he => absurd he hrx⟩

theorem uartSent_none (hr : uartRuns k s) (h : (uartGet k s).tx = []) : uartSent k s = s := by
  refine (if_neg (uartRuns_not hr)).trans ?_
  rw [h]

theorem uartSent_some {b : Byte} {r : List Byte} (hr : uartRuns k s) (h : (uartGet k s).tx = b :: r) : uartSent k s =
    if r.isEmpty then uartNote k UART_NOTE.TX (uartPut k { uartGet k s with tx := r } s)
    else uartPut k { uartGet k s with tx := r } s := by
  refine (if_neg (uartRuns_not hr)).trans ?_
  rw [h]

theorem uartSent_shows {b : Byte} {r : List Byte} (hr : uartRuns k s) (htx : (uartGet k s).tx = b :: r)
    (hleft : (uartGet k s).rx ≠ [] ∨ r ≠ []) (h : Registers.wf s = true) :
    let t := uartSent k s
    (uartGet k t).tx = r ∧ (uartGet k t).rx = (uartGet k s).rx ∧ (r = [] → fis (uartP k) UART_NOTE.TX t = true) := by
  intro t
  have ht : t = _ := uartSent_some hr htx
  have hget := uartGet_uartPut (k := k) (v := { uartGet k s with tx := r }) (hleft.elim (fun hrx => uart_ne_of_rx hrx) fun hr => uart_ne_of_tx hr) s
  have hregs : (uartPut k { uartGet k s with tx := r } s).regs = s.regs := rfl
  generalize uartPut k { uartGet k s with tx := r } s = u at hget hregs ht
  by_cases he : r.isEmpty = true
  · obtain ⟨-, hflag, hkept⟩ := uartNote_shows (k := k) (f := UART_NOTE.TX) (by decide) ((Registers.wf_of_regs hregs).trans h)
    rw [if_pos he] at ht
    rw [← ht] at hflag hkept
    have hgetT := (uartGet_congr hkept k).trans hget
    exact ⟨by rw [hgetT], by rw [hgetT], fun _ => hflag⟩
  · rw [if_neg he] at ht
    rw [ht]
    exact ⟨by rw [hget], by rw [hget], fun hn => absurd (by rw [hn]; rfl) he⟩

theorem uartWrite_full {data : Word} (h : 64 ≤ (uartGet k s).tx.length) : uartWrite k data s = uartNote k UART_NOTE.OVR s := if_pos h

theorem uartWrite_shows {data : Word} (h : (uartGet k s).tx.length < 64) :
    let t := uartWrite k data s
    (uartGet k t).tx = (uartGet k s).tx ++ [uartMask k (BitVec.ofNat 8 (bitsOf data 0 8)) s] ∧
      (uartGet k t).rx = (uartGet k s).rx ∧ t.regs = s.regs := by
  intro t
  have ht : t = uartPut k { uartGet k s with tx := (uartGet k s).tx ++ [uartMask k (BitVec.ofNat 8 (bitsOf data 0 8)) s] } s :=
    if_neg (by omega)
  have hget := uartGet_uartPut (k := k)
    (v := { uartGet k s with tx := (uartGet k s).tx ++ [uartMask k (BitVec.ofNat 8 (bitsOf data 0 8)) s] }) (uart_ne_of_tx (by simp)) s
  rw [← ht] at hget
  exact ⟨by rw [hget], by rw [hget], by rw [ht]; rfl⟩

theorem uartRead_none (h : (uartGet k s).rx = []) : uartRead k s = (0, s) := by
  unfold uartRead
  rw [h]

theorem uartRead_some {c : Nat} {r : List Nat} (h : (uartGet k s).rx = c :: r) : uartRead k s =
    (BitVec.ofNat 32 (2 ^ 31 + c), uartPut k { uartGet k s with rx := r } s) := by
  unfold uartRead
  rw [h]

end

/-! ### Owners (R637, R640) -/

/-- Each interface whose owner changes is cleared, and no other. -/
theorem serialOwn_eq (a : Nat) (clear : Nat → State → State) (data : Word) (s : State) :
    let own := rd a s
    let s1 := wr a (data &&& 0x3F3F#32) s
    serialOwn a clear data s =
      if bitsOf data 0 6 = bitsOf own 0 6 then (if bitsOf data 8 6 = bitsOf own 8 6 then s1 else clear 1 s1)
      else if bitsOf data 8 6 = bitsOf own 8 6 then clear 0 s1 else clear 1 (clear 0 s1) := by
  intro own s1
  have hfold : serialOwn a clear data s = if bitsOf data 8 6 = bitsOf own 8 6 then
      (if bitsOf data 0 6 = bitsOf own 0 6 then s1 else clear 0 s1)
      else clear 1 (if bitsOf data 0 6 = bitsOf own 0 6 then s1 else clear 0 s1) := rfl
  rw [hfold]
  by_cases h0 : bitsOf data 0 6 = bitsOf own 0 6
  · rw [if_pos h0, if_pos h0]
  · rw [if_neg h0, if_neg h0]

/-! ### I²C controllers (R639, R640) -/

section
variable {k : Nat} {s : State}

theorem i2cRun_idle {op : Nat} {d : Byte} (h : pdOn 75 s = false ∨ fis (i2cP k) I2C_CFG.EN s = false ∨ (i2cGet k s).cmds = []) :
    i2cRun k op d s = s := by
  unfold i2cRun
  by_cases hoff : pdOn 75 s = false ∨ fis (i2cP k) I2C_CFG.EN s = false
  · exact if_pos hoff
  · have hnone : (i2cGet k s).cmds = [] := by tauto
    rw [if_neg hoff, hnone]

/-- The front command runs where it is of the kind. -/
theorem i2cRun_front {op : Nat} {d : Byte} {c : I2cCmd} {r : List I2cCmd} (hp : pdOn 75 s = true)
    (he : fis (i2cP k) I2C_CFG.EN s = true) (hc : (i2cGet k s).cmds = c :: r) : i2cRun k op d s =
    if c.op ≠ op then s
    else
      let v := { i2cGet k s with cmds := r, did := some c, busy := op != 3 }
      if op = 2 then
        if 16 ≤ v.rx.length then i2cNote k I2C_NOTE.OVR (i2cPut k v s)
        else i2cPut k { v with rx := v.rx ++ [d] } s
      else if op = 3 ∧ r.isEmpty then i2cNote k I2C_NOTE.DONE (i2cPut k v s)
      else i2cPut k v s := by
  unfold i2cRun
  rw [if_neg (by rw [hp, he]; decide), hc]

theorem i2cNack_stays (h : ∀ c, (i2cGet k s).did = some c → 2 ≤ c.op) : i2cNack k s = s := by
  unfold i2cNack
  split
  · next c hc => exact if_neg (by have := h c hc; omega)
  · rfl

theorem i2cNack_ends {c : I2cCmd} (hc : (i2cGet k s).did = some c) (hop : c.op ≤ 1) : i2cNack k s = i2cEnd k I2C_NOTE.NACK s := by
  unfold i2cNack
  rw [hc]
  exact if_pos hop

theorem i2cRead_none (h : (i2cGet k s).rx = []) : i2cRead k s = (0, s) := by
  unfold i2cRead
  rw [h]

theorem i2cRead_some {b : Byte} {r : List Byte} (h : (i2cGet k s).rx = b :: r) : i2cRead k s =
    (BitVec.ofNat 32 (2 ^ 31 + b.toNat), i2cPut k { i2cGet k s with rx := r } s) := by
  unfold i2cRead
  rw [h]

/-- A controller that holds an octet is not an empty one. -/
theorem i2c_ne_of_rx {v : I2cState} (h : v.rx ≠ []) : v ≠ {} := fun e => h (by rw [e])

theorem i2cGet_i2cPut {v : I2cState} (hv : v ≠ {}) : i2cGet k (i2cPut k v s) = v := tget_tset_of_ne hv s.i2cs

/-- A sequence that ends in error, with octets in the receive FIFO. -/
theorem i2cEnd_shows {f : Fld} (hf : f.w = 1 ∧ f.lo + f.w ≤ 32) (hd : I2C_NOTE.DONE.Apart f) (hrx : (i2cGet k s).rx ≠ [])
    (h : Registers.wf s = true) :
    let t := i2cEnd k f s
    (i2cGet k t).cmds = [] ∧ (i2cGet k t).busy = false ∧ (i2cGet k t).rx = (i2cGet k s).rx ∧ fis (i2cP k) f t = true ∧
      fis (i2cP k) I2C_NOTE.DONE t = fis (i2cP k) I2C_NOTE.DONE s := by
  intro t
  have hget := i2cGet_i2cPut (k := k) (s := s) (v := { i2cGet k s with cmds := [], busy := false, did := none })
    (i2c_ne_of_rx hrx)
  have hregs : (i2cPut k { i2cGet k s with cmds := [], busy := false, did := none } s).regs = s.regs := rfl
  have ht : t = i2cNote k f (i2cPut k { i2cGet k s with cmds := [], busy := false, did := none } s) := rfl
  generalize i2cPut k { i2cGet k s with cmds := [], busy := false, did := none } s = u at hget hregs ht
  have hu : Registers.wf u = true := (Registers.wf_of_regs hregs).trans h
  have hnote : Only (page (i2cP k) [f]) u t := by
    rw [ht]
    exact (Only.refl hu).noteIn (List.mem_singleton.2 rfl) _
  have hkept : i2cGet k t = i2cGet k u := by
    unfold i2cGet
    rw [ht]
    exact congrArg (fun x => tget _ x k) (note_i2cs _ _ _ _)
  rw [hget] at hkept
  refine ⟨by rw [hkept], by rw [hkept], by rw [hkept], ?_, ?_⟩
  · rw [ht]
    exact fis_note hu _ hf.1 hf.2 _
  · refine (hnote.flagIn fun g hg => ?_).trans (congrArg (· == 1) (fget_of_regs hregs _ _))
    rw [List.mem_singleton.1 hg]
    exact hd

end

end Sys2Proof.Machine
end

section
/-!
THEOREMS. The GPIO pins (R641–R644), and the serial interfaces and pins as a whole.
-/

namespace Sys2Proof.Machine

open Reg

/-! ### Masks -/

/-- A number whose bits are those a test names. -/
def bitsNamed (p : Nat → Bool) (n : Nat) : Nat := ((List.range n).filter p).foldl (fun m k => m + 2 ^ k) 0

theorem bitsNamed_succ (p : Nat → Bool) (n : Nat) : bitsNamed p (n + 1) = bitsNamed p n + if p n then 2 ^ n else 0 := by
  unfold bitsNamed
  rw [List.range_succ, List.filter_append, List.foldl_append]
  by_cases h : p n = true
  · rw [List.filter_cons_of_pos h, if_pos h]
    rfl
  · rw [List.filter_cons_of_neg h, if_neg h]
    rfl

theorem bitsNamed_shows (p : Nat → Bool) : ∀ n, bitsNamed p n < 2 ^ n ∧ ∀ k < n, (bitsNamed p n).testBit k = p k
  | 0 => ⟨show 0 < 1 by decide, fun k hk => absurd hk (Nat.not_lt_zero k)⟩
  | n + 1 => by
    obtain ⟨hlt, hbit⟩ := bitsNamed_shows p n
    rw [bitsNamed_succ]
    by_cases h : p n = true
    · rw [if_pos h, Nat.add_comm]
      refine ⟨by rw [Nat.pow_succ]; omega, fun k hk => ?_⟩
      by_cases hkn : k = n
      · rw [hkn, Nat.testBit_two_pow_add_eq, Nat.testBit_lt_two_pow hlt, h]
        rfl
      · rw [Nat.testBit_two_pow_add_gt (by omega), hbit k (by omega)]
    · rw [if_neg h, Nat.add_zero]
      refine ⟨by rw [Nat.pow_succ]; omega, fun k hk => ?_⟩
      by_cases hkn : k = n
      · rw [hkn, Nat.testBit_lt_two_pow hlt, Bool.eq_false_iff.2 h]
      · exact hbit k (by omega)

theorem bitOf_gpioMask (room b : Nat) (s : State) {k : Nat} (hk : k < 16) :
    bitOf (gpioMask room b s) k = gpioMine room (16 * b + k) s := by
  obtain ⟨-, hbit⟩ := bitsNamed_shows (fun j => gpioMine room (16 * b + j) s) 16
  have hmask : gpioMask room b s = BitVec.ofNat 32 (bitsNamed (fun j => gpioMine room (16 * b + j) s) 16) := rfl
  rw [hmask, bitOf, BitVec.getLsbD_ofNat, decide_eq_true (show k < 32 by omega), Bool.true_and]
  exact hbit k hk

/-- A word that takes a value in the bits of a mask. -/
theorem bitOf_masked (w mask v : Word) {k : Nat} (hk : k < 32) :
    bitOf ((w &&& ~~~mask) ||| (v &&& mask)) k = if bitOf mask k then bitOf v k else bitOf w k := by
  unfold bitOf
  rw [BitVec.getLsbD_or, BitVec.getLsbD_and, BitVec.getLsbD_and, BitVec.getLsbD_not, decide_eq_true hk]
  cases mask.getLsbD k <;> simp

/-! ### Outputs (R643) -/

theorem gpioOut_shows (b : Nat) (mask v : Word) {s : State} (h : Registers.wf s = true) :
    let out := 0x40140404 + 0x10 * b
    let t := gpioOut b mask v s
    t.gpio = s.gpio ∧ (∀ k < 32, bitOf (rd out t) k = if bitOf mask k then bitOf v k else bitOf (rd out s) k) ∧
      ∀ a, a ≠ out → rd a t = rd a s := by
  intro out t
  have ht : t = wr out ((rd out s &&& ~~~mask) ||| (v &&& mask)) s := rfl
  rw [ht]
  refine ⟨rfl, fun k hk => ?_, fun a ha => rd_wr_ne h _ ha⟩
  rw [rd_wr_self h]
  exact bitOf_masked _ _ _ hk

/-- The bits written as 1 of the pins a room reaches. -/
theorem bitOf_ownMask (data : Word) (room b : Nat) (s : State) {k : Nat} (hk : k < 16) :
    bitOf (data &&& gpioMask room b s) k = (bitOf data k && gpioMine room (16 * b + k) s) :=
  (BitVec.getLsbD_and).trans (congrArg (bitOf data k && ·) (bitOf_gpioMask room b s hk))

theorem gpioSet_shows (room b : Nat) (data : Word) {s : State} (h : Registers.wf s = true) :
    let out := 0x40140404 + 0x10 * b
    let t := gpioOut b (data &&& gpioMask room b s) 0xFFFF s
    t.gpio = s.gpio ∧
      (∀ k < 16, bitOf (rd out t) k = (bitOf (rd out s) k || (bitOf data k && gpioMine room (16 * b + k) s))) ∧
      ∀ a, a ≠ out → rd a t = rd a s := by
  intro out t
  obtain ⟨hgpio, hbit, hrest⟩ := gpioOut_shows b (data &&& gpioMask room b s) 0xFFFF h
  refine ⟨hgpio, fun k hk => ?_, hrest⟩
  have hone : bitOf (0xFFFF : Word) k = true := by interval_cases k <;> rfl
  rw [hbit k (by omega), bitOf_ownMask data room b s hk, hone]
  cases bitOf data k && gpioMine room (16 * b + k) s <;> simp [out]

theorem gpioClr_shows (room b : Nat) (data : Word) {s : State} (h : Registers.wf s = true) :
    let out := 0x40140404 + 0x10 * b
    let t := gpioOut b (data &&& gpioMask room b s) 0 s
    t.gpio = s.gpio ∧
      (∀ k < 16, bitOf (rd out t) k = (bitOf (rd out s) k && !(bitOf data k && gpioMine room (16 * b + k) s))) ∧
      ∀ a, a ≠ out → rd a t = rd a s := by
  intro out t
  obtain ⟨hgpio, hbit, hrest⟩ := gpioOut_shows b (data &&& gpioMask room b s) 0 h
  refine ⟨hgpio, fun k hk => ?_, hrest⟩
  have hzero : bitOf (0 : Word) k = false := BitVec.getLsbD_zero
  rw [hbit k (by omega), bitOf_ownMask data room b s hk, hzero]
  cases bitOf data k && gpioMine room (16 * b + k) s <;> simp [out]

/-! ### Owners (R642) -/

/-- The output bit of pin `p`. -/
def outBit (p : Nat) (s : State) : Bool := bitOf (rd (0x40140404 + 0x10 * (p / 16)) s) (p % 16)

/-- From `s` to `t` the pins that `r` names return to their reset configuration, and no other. -/
structure PinsReset (r : Nat → Bool) (s t : State) : Prop where
  wf : Registers.wf t = true
  cfg : ∀ p < 64, rd (0x40140100 + 4 * p) t = if r p then 0 else rd (0x40140100 + 4 * p) s
  out : ∀ p < 64, outBit p t = (outBit p s && !r p)

namespace PinsReset

variable {r r' : Nat → Bool} {s t u : State}

theorem none (h : Registers.wf s = true) : PinsReset (fun _ => false) s s :=
  ⟨h, fun _ _ => rfl, fun _ _ => (Bool.and_true _).symm⟩

theorem trans (h : PinsReset r s t) (h' : PinsReset r' t u) : PinsReset (fun p => r p || r' p) s u := by
  refine ⟨h'.wf, fun p hp => ?_, fun p hp => ?_⟩
  · rw [h'.cfg p hp, h.cfg p hp]
    cases r p <;> cases r' p <;> rfl
  · rw [h'.out p hp, h.out p hp]
    cases r p <;> cases r' p <;> simp

theorem congr (h : PinsReset r s t) (hr : ∀ p, r' p = r p) : PinsReset r' s t := by
  rwa [show r' = r from funext hr]

end PinsReset

/-- One bit of an output register. -/
theorem bitOf_pinMask {p k : Nat} (hk : k < 32) : bitOf (BitVec.ofNat 32 (2 ^ (p % 16))) k = decide (p % 16 = k) := by
  rw [bitOf, BitVec.getLsbD_ofNat, decide_eq_true hk, Bool.true_and, Nat.testBit_two_pow]

theorem gpioPinReset_shows {p : Nat} (hp : p < 64) {s : State} (h : Registers.wf s = true) :
    PinsReset (fun q => decide (q = p)) s (gpioPinReset p s) := by
  have h1 : Registers.wf (wr (0x40140100 + 4 * p) 0 s) = true := Registers.wf_wr h _ _
  have hself : rd (0x40140100 + 4 * p) (wr (0x40140100 + 4 * p) 0 s) = 0 := rd_wr_self h _ _
  have hother (a : Nat) (ha : a ≠ 0x40140100 + 4 * p) : rd a (wr (0x40140100 + 4 * p) 0 s) = rd a s := rd_wr_ne h _ ha
  have ht : gpioPinReset p s = gpioOut (p / 16) (BitVec.ofNat 32 (2 ^ (p % 16))) 0 (wr (0x40140100 + 4 * p) 0 s) := rfl
  have hwf : Registers.wf (gpioPinReset p s) = true := Registers.wf_wr h1 _ _
  obtain ⟨-, hbit, hrest⟩ := gpioOut_shows (p / 16) (BitVec.ofNat 32 (2 ^ (p % 16))) 0 h1
  rw [← ht] at hbit hrest
  generalize wr (0x40140100 + 4 * p) 0 s = u at hself hother hbit hrest
  refine ⟨hwf, fun q hq => ?_, fun q hq => ?_⟩
  · rw [hrest _ (by omega)]
    by_cases hqp : q = p
    · rw [hqp, hself, decide_eq_true rfl]
      rfl
    · rw [hother _ (by omega), decide_eq_false hqp]
      rfl
  · unfold outBit
    by_cases hbank : q / 16 = p / 16
    · have hzero : bitOf (0 : Word) (q % 16) = false := BitVec.getLsbD_zero
      rw [hbank, hbit _ (by omega), bitOf_pinMask (by omega), hzero, hother _ (by omega)]
      by_cases hqp : q = p
      · rw [hqp, decide_eq_true rfl, decide_eq_true rfl]
        simp
      · rw [decide_eq_false (show ¬ p % 16 = q % 16 by omega), decide_eq_false hqp]
        simp
    · rw [hrest _ (by omega), hother _ (by omega), decide_eq_false (show ¬ q = p from fun e => hbank (by rw [e]))]
      simp

/-- The pins of the pairs whose owner changes. -/
def pairsLost (j : Nat) (changed : Nat → Bool) (l : List Nat) (p : Nat) : Bool :=
  l.any fun q => changed q && (decide (p = 8 * j + 2 * q) || decide (p = 8 * j + 2 * q + 1))

theorem pairsReset_shows {j : Nat} (hj : j < 8) (changed : Nat → Bool) : ∀ (l : List Nat), (∀ q ∈ l, q < 4) → ∀ {s : State},
    Registers.wf s = true → PinsReset (pairsLost j changed l) s (l.foldl (fun t q =>
      if changed q = false then t else gpioPinReset (8 * j + 2 * q + 1) (gpioPinReset (8 * j + 2 * q) t)) s)
  | [], _, _, h => .none h
  | q :: r, hl, s, h => by
    have hq := hl q List.mem_cons_self
    have hhead : PinsReset (fun p => changed q && (decide (p = 8 * j + 2 * q) || decide (p = 8 * j + 2 * q + 1))) s
        (if changed q = false then s else gpioPinReset (8 * j + 2 * q + 1) (gpioPinReset (8 * j + 2 * q) s)) := by
      cases hc : changed q
      · exact (PinsReset.none h).congr fun _ => Bool.false_and _
      · have h1 := gpioPinReset_shows (p := 8 * j + 2 * q) (by omega) h
        exact (h1.trans (gpioPinReset_shows (p := 8 * j + 2 * q + 1) (by omega) h1.wf)).congr fun _ => Bool.true_and _
    exact (hhead.trans (pairsReset_shows hj changed r (fun x hx => hl x (List.mem_cons_of_mem _ hx)) hhead.wf)).congr
      fun _ => List.any_cons

theorem pairsLost_pin {j q p : Nat} (changed : Nat → Bool) (hq : q < 4) (hp : p = 8 * j + 2 * q ∨ p = 8 * j + 2 * q + 1) :
    pairsLost j changed (List.range 4) p = changed q := by
  rw [Bool.eq_iff_iff, pairsLost, List.any_eq_true]
  constructor
  · rintro ⟨x, -, hx⟩
    rw [Bool.and_eq_true, Bool.or_eq_true, decide_eq_true_eq, decide_eq_true_eq] at hx
    obtain ⟨hc, hpx⟩ := hx
    rwa [show q = x by omega]
  · intro hc
    refine ⟨q, List.mem_range.2 hq, ?_⟩
    rw [hc, Bool.true_and, Bool.or_eq_true, decide_eq_true_eq, decide_eq_true_eq]
    exact hp

/-- The bytes of GPIO_OWN that name another owner. -/
def ownChanged (j : Nat) (new : Word) (s : State) (q : Nat) : Bool := !decide (bitsOf new (8 * q) 8 = pairOwn (4 * j + q) s)

theorem gpioOwn_eq (j : Nat) (data : Word) (s : State) : gpioOwn j data s =
    wr (0x40140000 + 4 * j) (data &&& 0xBFBFBFBF#32) ((List.range 4).foldl (fun t q =>
      if ownChanged j (data &&& 0xBFBFBFBF#32) s q = false then t
      else gpioPinReset (8 * j + 2 * q + 1) (gpioPinReset (8 * j + 2 * q) t)) s) := by
  have hstep (t : State) (q : Nat) : (if bitsOf (data &&& 0xBFBFBFBF#32) (8 * q) 8 = pairOwn (4 * j + q) s then t
      else gpioPinReset (8 * j + 2 * q + 1) (gpioPinReset (8 * j + 2 * q) t)) =
      if ownChanged j (data &&& 0xBFBFBFBF#32) s q = false then t
      else gpioPinReset (8 * j + 2 * q + 1) (gpioPinReset (8 * j + 2 * q) t) := by
    refine if_congr ?_ rfl rfl
    rw [ownChanged, Bool.not_eq_false', decide_eq_true_eq]
  unfold gpioOwn
  exact congrArg (fun f => wr (0x40140000 + 4 * j) (data &&& 0xBFBFBFBF#32) ((List.range 4).foldl f s))
    (funext fun t => funext fun q => hstep t q)

theorem gpioOwn_shows {j : Nat} (hj : j < 8) (data : Word) {s : State} (h : Registers.wf s = true) :
    let t := gpioOwn j data s
    rd (0x40140000 + 4 * j) t = data &&& 0xBFBFBFBF#32 ∧
      ∀ q < 4, ∀ p, p = 8 * j + 2 * q ∨ p = 8 * j + 2 * q + 1 →
        (bitsOf (data &&& 0xBFBFBFBF#32) (8 * q) 8 = pairOwn (4 * j + q) s → rd (0x40140100 + 4 * p) t = rd (0x40140100 + 4 * p) s) ∧
        (bitsOf (data &&& 0xBFBFBFBF#32) (8 * q) 8 ≠ pairOwn (4 * j + q) s →
          rd (0x40140100 + 4 * p) t = 0 ∧ bitOf (rd (0x40140404 + 0x10 * (p / 16)) t) (p % 16) = false) := by
  intro t
  have hpins := pairsReset_shows hj (ownChanged j (data &&& 0xBFBFBFBF#32) s) (List.range 4) (fun _ hq => List.mem_range.1 hq) h
  have ht : t = _ := gpioOwn_eq j data s
  generalize (List.range 4).foldl (fun t q => if ownChanged j (data &&& 0xBFBFBFBF#32) s q = false then t
    else gpioPinReset (8 * j + 2 * q + 1) (gpioPinReset (8 * j + 2 * q) t)) s = u at hpins ht
  have hback (a : Nat) (ha : a ≠ 0x40140000 + 4 * j) : rd a t = rd a u := by
    rw [ht]
    exact rd_wr_ne hpins.wf _ ha
  refine ⟨by rw [ht]; exact rd_wr_self hpins.wf _ _, fun q hq p hp => ⟨fun hsame => ?_, fun hdiff => ?_⟩⟩
  · have hno : ownChanged j (data &&& 0xBFBFBFBF#32) s q = false := by rw [ownChanged, decide_eq_true hsame]; rfl
    rw [hback _ (by omega), hpins.cfg p (by omega), pairsLost_pin _ hq hp, hno]
    rfl
  · have hyes : ownChanged j (data &&& 0xBFBFBFBF#32) s q = true := by rw [ownChanged, decide_eq_false hdiff]; rfl
    refine ⟨?_, ?_⟩
    · rw [hback _ (by omega), hpins.cfg p (by omega), pairsLost_pin _ hq hp, hyes]
      rfl
    · have hout := hpins.out p (by omega)
      rw [pairsLost_pin _ hq hp, hyes, Bool.not_true, Bool.and_false] at hout
      rw [hback _ (by omega)]
      exact hout

/-! ### Edges and pads (R643, R644) -/

/-- The levels after an edge. -/
def levelsTaken (p : Nat) (level : Bool) (v : BitVec 64) : BitVec 64 :=
  if level then v ||| (1#64 <<< p) else v &&& ~~~(1#64 <<< p)

theorem levelsTaken_bit {p q : Nat} (hq : q < 64) (level : Bool) (v : BitVec 64) :
    (levelsTaken p level v).getLsbD q = if q = p then level else v.getLsbD q := by
  have hone : (1#64 <<< p).getLsbD q = decide (q = p) := by
    rw [BitVec.getLsbD_shiftLeft, BitVec.getLsbD_one]
    by_cases hqp : q = p
    · rw [hqp]
      simp
      omega
    · rw [decide_eq_false hqp]
      simp
      omega
  unfold levelsTaken
  cases level
  · rw [if_neg (by decide), BitVec.getLsbD_and, BitVec.getLsbD_not, hone]
    by_cases hqp : q = p <;> simp [hqp, hq]
  · rw [if_pos rfl, BitVec.getLsbD_or, hone]
    by_cases hqp : q = p <;> simp [hqp]

theorem gpioEdge_eq (p : Nat) (level : Bool) (s : State) : ∃ (u : State) (e : Nat), u.regs = s.regs ∧
    u.gpio.levels = levelsTaken p level s.gpio.levels ∧ gpioEdge p level s =
      if (pdOn (if p < 32 then 76 else 77) s && (fget (0x40140000 + 4 * p) GPIO_PIN.IRQ s).testBit (if level then 0 else 1)) = true then
        note (0x40140000 + 4 * (p / 16)) ⟨0x500, p % 16, 1⟩ e u
      else u :=
  ⟨{ s with gpio := { s.gpio with levels := levelsTaken p level s.gpio.levels } }, _, rfl, rfl, rfl⟩

theorem gpioEdge_shows {p : Nat} (hp : p < 64) (level : Bool) {s : State} (h : Registers.wf s = true) :
    let note : Fld := ⟨0x500, p % 16, 1⟩
    let selected := pdOn (if p < 32 then 76 else 77) s = true ∧
      (fget (0x40140000 + 4 * p) GPIO_PIN.IRQ s).testBit (if level then 0 else 1) = true
    let t := gpioEdge p level s
    t.gpio.levels.getLsbD p = level ∧ (∀ q < 64, q ≠ p → t.gpio.levels.getLsbD q = s.gpio.levels.getLsbD q) ∧
      (selected → fis (0x40140000 + 4 * (p / 16)) note t = true) ∧ (¬ selected → t.regs = s.regs) := by
  intro f selected t
  obtain ⟨u, e, hregs, hlevels, ht⟩ := gpioEdge_eq p level s
  change t = _ at ht
  have hlow : f.w = 1 ∧ f.lo + f.w ≤ 32 := ⟨rfl, show p % 16 + 1 ≤ 32 by omega⟩
  have hf : (⟨0x500, p % 16, 1⟩ : Fld) = f := rfl
  rw [hf] at ht
  clear_value f
  have hlev (w : State) (hw : w.gpio = u.gpio) : w.gpio.levels.getLsbD p = level ∧
      ∀ q < 64, q ≠ p → w.gpio.levels.getLsbD q = s.gpio.levels.getLsbD q := by
    rw [hw, hlevels]
    exact ⟨(levelsTaken_bit hp _ _).trans (if_pos rfl), fun q hq hne => (levelsTaken_bit hq _ _).trans (if_neg hne)⟩
  by_cases hsel : selected
  · have hgo : t = note (0x40140000 + 4 * (p / 16)) f e u := ht.trans (if_pos ((Bool.and_eq_true _ _).mpr hsel))
    obtain ⟨hself, hrest⟩ := hlev t (by rw [hgo]; exact note_gpio _ _ _ _)
    refine ⟨hself, hrest, fun _ => ?_, fun hn => absurd hsel hn⟩
    rw [hgo]
    exact fis_note ((Registers.wf_of_regs hregs).trans h) _ hlow.1 hlow.2 _
  · have hstay : t = u := ht.trans (if_neg fun hb => hsel ((Bool.and_eq_true _ _).mp hb))
    obtain ⟨hself, hrest⟩ := hlev t (by rw [hstay])
    exact ⟨hself, hrest, fun hs => absurd hs hsel, fun _ => by rw [hstay]; exact hregs⟩

theorem gpioHold_shows (data : Word) {s : State} (h : Registers.wf s = true) :
    let t := gpioHold data s
    rd 0x40140020 t = (rd 0x40140020 s ||| (data &&& 3#32)) ∧ ∀ a, a ≠ 0x40140020 → rd a t = rd a s :=
  ⟨rd_wr_self h _ _, fun _ ha => rd_wr_ne h _ ha⟩

/-! ### The obligation -/

/-- The four commands of a controller, with the kind each runs. -/
theorem exec_i2cRun (u : BitVec 1) (d : Byte) (s : State) {e : Nat × Instr}
    (he : e ∈ [(0, Instr.i2cStart u), (1, .i2cWrite u), (2, .i2cRead u d), (3, .i2cStop u)]) :
    ∃ b, exec e.2 s = .next (i2cRun u.toNat e.1 b s) := by
  simp only [List.mem_cons, List.not_mem_nil, or_false] at he
  rcases he with rfl | rfl | rfl | rfl <;> exact ⟨_, rfl⟩

/-- The I²C controllers' commands. -/
theorem i2cCommands_shows (u : BitVec 1) (data : Byte) (s : State) :
    let k := u.toNat
    let v := i2cGet k s
    let all := [(0, Instr.i2cStart u), (1, .i2cWrite u), (2, .i2cRead u data), (3, .i2cStop u)]
    (pdOn 75 s = false ∨ fis (i2cP k) I2C_CFG.EN s = false ∨ v.cmds = [] → ∀ e ∈ all, exec e.2 s = .next s) ∧
    (pdOn 75 s = true → fis (i2cP k) I2C_CFG.EN s = true → ∀ c r, v.cmds = c :: r →
      (∀ e ∈ all, e.1 ≠ c.op → exec e.2 s = .next s) ∧
      (c.op = 0 → exec (.i2cStart u) s = .next (i2cPut k { v with cmds := r, did := some c, busy := true } s)) ∧
      (c.op = 1 → exec (.i2cWrite u) s = .next (i2cPut k { v with cmds := r, did := some c, busy := true } s)) ∧
      (c.op = 2 → v.rx.length < 16 → exec (.i2cRead u data) s =
        .next (i2cPut k { v with cmds := r, did := some c, busy := true, rx := v.rx ++ [data] } s)) ∧
      (c.op = 2 → 16 ≤ v.rx.length → exec (.i2cRead u data) s =
        .next (i2cNote k I2C_NOTE.OVR (i2cPut k { v with cmds := r, did := some c, busy := true } s))) ∧
      (c.op = 3 → r ≠ [] → exec (.i2cStop u) s =
        .next (i2cPut k { v with cmds := r, did := some c, busy := false } s)) ∧
      (c.op = 3 → r = [] → exec (.i2cStop u) s =
        .next (i2cNote k I2C_NOTE.DONE (i2cPut k { v with cmds := r, did := some c, busy := false } s)))) := by
  intro k v all
  refine ⟨fun hidle e he => ?_, fun hp hen c r hc => ?_⟩
  · obtain ⟨b, hb⟩ := exec_i2cRun u data s he
    exact hb.trans (congrArg _ (i2cRun_idle hidle))
  · have hrun (op : Nat) (d : Byte) := i2cRun_front (op := op) (d := d) hp hen hc
    refine ⟨fun e he hne => ?_, fun hop => ?_, fun hop => ?_, fun hop hlt => ?_, fun hop hge => ?_, fun hop hr => ?_, fun hop hr => ?_⟩
    · obtain ⟨b, hb⟩ := exec_i2cRun u data s he
      exact hb.trans (congrArg _ ((hrun _ b).trans (if_pos (Ne.symm hne))))
    · exact congrArg Host.Outcome.next ((hrun 0 0).trans (if_neg (not_not_intro hop)))
    · exact congrArg Host.Outcome.next ((hrun 1 0).trans (if_neg (not_not_intro hop)))
    · exact congrArg Host.Outcome.next ((hrun 2 data).trans ((if_neg (not_not_intro hop)).trans ((if_pos rfl).trans
        (if_neg (show ¬ 16 ≤ v.rx.length by omega)))))
    · exact congrArg Host.Outcome.next ((hrun 2 data).trans ((if_neg (not_not_intro hop)).trans ((if_pos rfl).trans (if_pos hge))))
    · exact congrArg Host.Outcome.next ((hrun 3 0).trans ((if_neg (not_not_intro hop)).trans ((if_neg (by decide)).trans
        (if_neg fun h3 => hr (List.isEmpty_iff.1 h3.2)))))
    · exact congrArg Host.Outcome.next ((hrun 3 0).trans ((if_neg (not_not_intro hop)).trans ((if_neg (by decide)).trans
        (if_pos ⟨rfl, List.isEmpty_iff.2 hr⟩))))

/-- Settles O56. -/
theorem serialAndPins : Obligations.SerialAndPins := by
  unfold Obligations.SerialAndPins
  refine ⟨⟨fun u char par frm brk s => ⟨fun hoff => ⟨congrArg Host.Outcome.next (if_pos hoff), congrArg Host.Outcome.next (if_pos hoff)⟩,
      fun hp hen => ⟨fun hfull => congrArg Host.Outcome.next (uartReceive_full ⟨hp, hen⟩ hfull),
        fun hroom h => ⟨_, rfl, uartReceive_shows ⟨hp, hen⟩ hroom h⟩,
        fun hnone => congrArg Host.Outcome.next (uartSent_none ⟨hp, hen⟩ hnone),
        fun b r htx hleft h => ⟨_, rfl, uartSent_shows ⟨hp, hen⟩ htx hleft h⟩⟩⟩,
      fun i u data s hadm => ⟨fun hfull => ?_, fun hroom => ?_⟩, fun i u s hadm => ⟨fun hnone => ?_, fun c r hrx => ?_⟩,
      fun i data s hadm => ?_⟩,
    ⟨fun u data s => ?_, fun f k s _ hf hrx h => ?_, fun i u s hadm => ⟨fun hnone => ?_, fun b r hrx => ?_⟩, fun i data s hadm => ?_⟩,
    fun i bank data s => ⟨fun hadm h => ?_, fun hadm h => ?_⟩, fun i j data s hadm h => ?_,
    fun pin level s h => ⟨_, rfl, gpioEdge_shows pin.isLt level h⟩, fun i data s hadm h => ?_⟩
  · exact congrArg Host.Outcome.next ((doorStore_admits hadm).trans (congrArg acknowledge (uartWrite_full hfull)))
  · exact ⟨_, congrArg Host.Outcome.next (doorStore_admits hadm), uartWrite_shows hroom⟩
  · exact congrArg Host.Outcome.next ((doorLoad_admits hadm).trans (by rw [uartRead_none hnone]))
  · exact congrArg Host.Outcome.next ((doorLoad_admits hadm).trans (by rw [uartRead_some hrx]))
  · exact congrArg Host.Outcome.next ((doorStore_admits hadm).trans (congrArg acknowledge (serialOwn_eq _ _ data s)))
  · obtain ⟨hidle, hfront⟩ := i2cCommands_shows u data s
    refine ⟨hidle, hfront, fun hno => congrArg Host.Outcome.next (i2cNack_stays hno),
      fun c hc hop => congrArg Host.Outcome.next (i2cNack_ends hc hop), fun hfree => ?_, fun hbusy => ?_⟩
    · exact ⟨congrArg Host.Outcome.next (if_neg (by rw [hfree]; decide)), congrArg Host.Outcome.next (if_neg (by rw [hfree]; decide))⟩
    · exact ⟨congrArg Host.Outcome.next (if_pos hbusy), congrArg Host.Outcome.next (if_pos hbusy)⟩
  · have hall : ∀ g ∈ [I2C_NOTE.NACK, I2C_NOTE.ARB, I2C_NOTE.TMO], (g.w = 1 ∧ g.lo + g.w ≤ 32) ∧ I2C_NOTE.DONE.Apart g := by decide
    obtain ⟨hflag, happart⟩ := hall f hf
    exact i2cEnd_shows hflag happart hrx h
  · exact congrArg Host.Outcome.next ((doorLoad_admits hadm).trans (by rw [i2cRead_none hnone]))
  · exact congrArg Host.Outcome.next ((doorLoad_admits hadm).trans (by rw [i2cRead_some hrx]))
  · exact congrArg Host.Outcome.next ((doorStore_admits hadm).trans (congrArg acknowledge (serialOwn_eq _ _ data s)))
  · exact ⟨_, congrArg Host.Outcome.next (doorStore_admits hadm), gpioSet_shows (roomOf i s) bank.toNat data h⟩
  · exact ⟨_, congrArg Host.Outcome.next (doorStore_admits hadm), gpioClr_shows (roomOf i s) bank.toNat data h⟩
  · exact ⟨_, congrArg Host.Outcome.next (doorStore_admits hadm), gpioOwn_shows j.isLt data h⟩
  · exact ⟨_, congrArg Host.Outcome.next (doorStore_admits hadm), gpioHold_shows data h⟩

end Sys2Proof.Machine

namespace Sys2Proof.Tests
open Sys2Proof.Machine

set_option maxRecDepth 8000

/-- UART 0 is enabled; a break is received as one character. -/
theorem test_hyps_serialAndPins :
    (uartGet 0 (uartReceive 0 0 false false true (regs [(0x400F0030, 0xFFFFFFFF), (0x40120000, 1)] up))).rx = [2048] :=
  (uartReceive_shows (k := 0) ⟨by decide, by decide⟩ (by decide) (by decide)).1

end Sys2Proof.Tests
end

section
/-!
THEOREMS. The debug port (R645–R648, R653): the TAP, accesses of the debug module, the challenge and its check.
-/

namespace Sys2Proof.Machine

open Reg

/-! ### The instruction register (R645) -/

/-- The codes of R645 that select themselves. -/
def irNamed (code : Nat) : Prop := code = 0x02 ∨ code = 0x10 ∨ code = 0x11 ∨ code = 0x12

theorem irOf_idcode (s : State) : irOf 1 s = 1 := if_pos rfl

theorem irOf_off {code : Nat} {s : State} (h1 : code ≠ 1) (hoff : pdOn 79 s = false) : irOf code s = 0x1F :=
  (if_neg h1).trans (if_pos hoff)

theorem irOf_extest {s : State} (hon : pdOn 79 s = true) : irOf 0 s = if inScope 14 s then 0 else 0x1F :=
  (if_neg (by decide)).trans ((if_neg (by rw [hon]; decide)).trans (if_pos rfl))

theorem irOf_named {code : Nat} {s : State} (hon : pdOn 79 s = true) (hn : irNamed code) : irOf code s = code := by
  have h1 : code ≠ 1 := by unfold irNamed at hn; omega
  have h0 : code ≠ 0 := by unfold irNamed at hn; omega
  exact (if_neg h1).trans ((if_neg (by rw [hon]; decide)).trans ((if_neg h0).trans (if_pos hn)))

theorem irOf_other {code : Nat} {s : State} (hon : pdOn 79 s = true) (h0 : code ≠ 0) (h1 : code ≠ 1) (hn : ¬ irNamed code) :
    irOf code s = 0x1F :=
  (if_neg h1).trans ((if_neg (by rw [hon]; decide)).trans ((if_neg h0).trans (if_neg hn)))

/-! ### Harts and the debug module (R646) -/

theorem hartView_outOfScope {h : Nat} {s : State} (hout : inScope h s = false) : hartView h s = .nonexistent :=
  if_pos (.inr hout)

theorem hartView_dmPut (h k : Nat) (v : Word) (s : State) : hartView h (dmPut k v s) = hartView h s := rfl

theorem dmGet_dmPut_of_ne {k : Nat} {v : Word} (hv : v ≠ dmReset k) (s : State) : dmGet k (dmPut k v s) = v :=
  tget_tset_of_ne hv _

theorem coreGet_coreSet_of_ne {k : Nat} {c : CoreCtx} (hc : c ≠ {}) (s : State) : coreGet k (coreSet k c s) = c :=
  tget_tset_of_ne hc _

/-- A hart that halts keeps its pc. -/
theorem hartHalt_shows (h cause : Nat) (s : State) :
    (coreGet h (hartHalt h cause s)).halted = true ∧ (coreGet h (hartHalt h cause s)).pc = (coreGet h s).pc ∧
    (hartHalt h cause s).mem = s.mem := by
  have hne : { coreGet h s with halted := true, waiting := false } ≠ ({} : CoreCtx) := fun he =>
    Bool.noConfusion (congrArg CoreCtx.halted he)
  have hcore : coreGet h (hartHalt h cause s) = { coreGet h s with halted := true, waiting := false } :=
    coreGet_coreSet_of_ne hne s
  exact ⟨by rw [hcore], by rw [hcore], rfl⟩

/-- A write of dmcontrol selects the hart its HARTSEL names. -/
theorem dmHart_control {v : Word} (hact : v.getLsbD 0 = true) (s : State) :
    dmHart (dmPut 0x10 (v &&& 0x00070003) s) = bitsOf v 16 3 := by
  have hbit : (v &&& (0x00070003 : Word)).getLsbD 0 = true := by rw [BitVec.getLsbD_and, hact]; decide
  have hne : v &&& 0x00070003 ≠ dmReset 0x10 := fun he => by rw [he] at hbit; revert hbit; decide
  unfold dmHart
  rw [dmGet_dmPut_of_ne hne, bitsOf_and (by decide)]

/-- A halt request alone halts the running hart 0. -/
theorem dmControl_halts {v : Word} {s : State} (hact : v.getLsbD 0 = true) (hsel : bitsOf v 16 3 = 0)
    (hhalt : v.getLsbD 31 = true) (hack : v.getLsbD 28 = false) (hreset : v.getLsbD 1 = false)
    (hrun : hartView 0 s = .running) : dmControl v s = hartHalt 0 3 (dmPut 0x10 (v &&& 0x00070003) s) := by
  have hhart := dmHart_control hact s
  have hview := (hartView_dmPut 0 0x10 (v &&& 0x00070003) s).trans hrun
  unfold dmControl bitOf
  rw [if_neg (by rw [hact]; decide)]
  revert hhart hview
  generalize dmPut 0x10 (v &&& 0x00070003) s = t
  intro hhart hview
  simp only [hhart, hsel, hhalt, hack, hreset, hview, Bool.false_and, if_true, Bool.false_eq_true, if_false]

theorem dmiDo_locked {op a : Nat} {v : Word} {s : State} (h : dbgState s = 1 ∨ dbgState s = 2) :
    dmiDo op a v s = dmAnswer 2 0 s := if_pos h

/-- A read that begins no access of the system bus. -/
theorem dmiDo_read {a : Nat} {v : Word} {s : State} (h : ¬ (dbgState s = 1 ∨ dbgState s = 2)) (ha : a ≠ 0x3C) :
    dmiDo 1 a v s = dmAnswer 0 (dmRead a s) s :=
  (if_neg h).trans ((if_pos rfl).trans (if_neg fun hbus => ha hbus.1))

/-- A write that begins no access of the system bus. -/
theorem dmiDo_write {a : Nat} {v : Word} {s : State} (h : ¬ (dbgState s = 1 ∨ dbgState s = 2)) (h3C : a ≠ 0x3C)
    (h39 : a ≠ 0x39) : dmiDo 2 a v s = dmAnswer 0 0 (dmWrite a v s) := by
  have hno : (dmActive s && (a == 0x3C || (a == 0x39 && bitOf (dmGet 0x38 s) 20))) = false := by
    rw [beq_false_of_ne h3C, beq_false_of_ne h39, Bool.false_and, Bool.false_or, Bool.and_false]
  unfold dmiDo
  rw [if_neg h, if_neg (by decide), if_pos rfl]
  dsimp only
  rw [hno, Bool.false_and]
  exact if_neg Bool.false_ne_true

theorem dmAnswer_frame (op : Nat) (v : Word) (s : State) : (dmAnswer op v s).dbg.resp = (op, v) ∧
    (dmAnswer op v s).mem = s.mem ∧ (dmAnswer op v s).regs = s.regs ∧ (dmAnswer op v s).rooms = s.rooms := ⟨rfl, rfl, rfl, rfl⟩

/-- A halt request through the DMI. -/
theorem dmiDo_halts {v : Word} {s : State} (hopen : ¬ (dbgState s = 1 ∨ dbgState s = 2)) (hact : v.getLsbD 0 = true)
    (hsel : bitsOf v 16 3 = 0) (hhalt : v.getLsbD 31 = true) (hack : v.getLsbD 28 = false) (hreset : v.getLsbD 1 = false)
    (hrun : hartView 0 s = .running) :
    (coreGet 0 (dmiDo 2 0x10 v s)).halted = true ∧ (coreGet 0 (dmiDo 2 0x10 v s)).pc = (coreGet 0 s).pc ∧
    (dmiDo 2 0x10 v s).dbg.resp = (0, 0) ∧ (dmiDo 2 0x10 v s).mem = s.mem := by
  have hwrite : dmWrite 0x10 v s = hartHalt 0 3 (dmPut 0x10 (v &&& 0x00070003) s) :=
    (if_pos rfl).trans (dmControl_halts hact hsel hhalt hack hreset hrun)
  obtain ⟨hhalted, hpc, hmem⟩ := hartHalt_shows 0 3 (dmPut 0x10 (v &&& 0x00070003) s)
  rw [dmiDo_write hopen (by decide) (by decide), hwrite]
  exact ⟨hhalted, hpc, rfl, hmem⟩

/-! ### The challenge (R647, R648) -/

/-- A capture asks for a nonce in LOCKED alone, and only where none is outstanding. -/
theorem chalWant_stays {s : State} (h : ¬ (dbgState s = 1 ∧ s.dbg.nonce = none)) : chalWant s = s := if_neg h

theorem chalCapture_nonce {n : List Byte} {s : State} (h : s.dbg.nonce = some n) :
    chalCapture s = { s with dbg := { s.dbg with chal := unitId s ++ n ++ [BitVec.ofNat 8 (dbgState s)] } } := by
  have hsome : s.dbg.nonce ≠ none := by rw [h]; exact Option.some_ne_none n
  have hwant : chalWant s = s := chalWant_stays fun hno => hsome hno.2
  have hdraw : (if s.dbg.nonce = none then drawFree s else s) = s := if_neg hsome
  have hoctets : chalOctets s = unitId s ++ n ++ [BitVec.ofNat 8 (dbgState s)] := by unfold chalOctets; rw [h]; rfl
  unfold chalCapture
  dsimp only
  rw [hwant, hdraw, hoctets]

/-- A capture outside LOCKED asks for nothing. -/
theorem chalCapture_open {s : State} (h : dbgState s ≠ 1) :
    (chalCapture s).dbg.nonce = s.dbg.nonce ∧ (chalCapture s).dbg.wants = s.dbg.wants ∧ (chalCapture s).regs = s.regs := by
  have hwant : chalWant s = s := chalWant_stays fun hlocked => h hlocked.1
  unfold chalCapture
  dsimp only
  rw [hwant]
  by_cases hnone : s.dbg.nonce = none
  · rw [if_pos hnone]; exact ⟨rfl, rfl, rfl⟩
  · rw [if_neg hnone]; exact ⟨rfl, rfl, rfl⟩

theorem chalUpdate_stays {scope : Word} {r sig : Nat} {s : State}
    (h : dbgState s ≠ 1 ∨ s.dbg.nonce = none ∨ s.dbg.holdoff = true) : chalUpdate scope r sig s = s := by
  unfold chalUpdate
  cases hn : s.dbg.nonce with
  | none => rfl
  | some n =>
    refine if_neg fun ⟨hlocked, hfree⟩ => ?_
    rcases h with hst | hno | hheld
    · exact hst hlocked
    · exact Option.some_ne_none n (hn.symm.trans hno)
    · exact Bool.noConfusion (hfree.symm.trans hheld)

/-- An update in LOCKED spends the nonce and starts the check. -/
theorem chalUpdate_starts {n : List Byte} {s : State} (scope : Word) (r sig : Nat) (hlocked : dbgState s = 1)
    (hn : s.dbg.nonce = some n) (hfree : s.dbg.holdoff = false) (hwf : Registers.wf s = true) :
    dbgState (chalUpdate scope r sig s) = 2 ∧ (chalUpdate scope r sig s).dbg.nonce = none ∧
    (chalUpdate scope r sig s).dbg.check = some (n, scope, r, sig) := by
  have heq : chalUpdate scope r sig s =
      fset dbgB DBG_STAT.STATE 2 { s with dbg := { s.dbg with nonce := none, check := some (n, scope, r, sig) } } := by
    unfold chalUpdate
    rw [hn]
    exact if_pos ⟨hlocked, hfree⟩
  rw [heq]
  exact ⟨fget_fset_lt ((Registers.wf_of_regs (s := s) rfl).trans hwf) dbgB (by decide) (by decide), rfl, rfl⟩

/-! ### The check of a challenge (R648) -/

/-- A check that passes unlocks the port with its scope. -/
def chalUnlock (scope : Word) (t : State) : State :=
  raiseEvt 976 (fset dbgB DBG_STAT.SCOPE (bitsOf scope 0 15) (fset dbgB DBG_STAT.STATE 3 t))

/-- A check that fails leaves the port locked, and updates ignored until the hold-off ends. -/
def chalDeny (t : State) : State :=
  raiseEvt 977 (fset dbgB DBG_STAT.STATE 1 { t with dbg := { t.dbg with holdoff := true } })

theorem chalUnlock_shows (scope : Word) {t : State} (h : Registers.wf t = true) :
    dbgState (chalUnlock scope t) = 3 ∧ fget dbgB DBG_STAT.SCOPE (chalUnlock scope t) = bitsOf scope 0 15 ∧
    (chalUnlock scope t).dbg = t.dbg := by
  have hwf := Registers.wf_fset h dbgB DBG_STAT.STATE 3
  refine ⟨?_, ?_, raiseEvt_dbg _ _⟩
  · exact (fget_raiseEvt _ _ _ _).trans ((fget_fset_of_apart hwf _ _ (by decide)).trans (fget_fset_lt h _ (by decide) (by decide)))
  · exact (fget_raiseEvt _ _ _ _).trans (fget_fset_lt hwf _ (bitsOf_lt _ _ _) (by decide))

theorem chalDeny_shows {t : State} (h : Registers.wf t = true) :
    dbgState (chalDeny t) = 1 ∧ (chalDeny t).dbg = { t.dbg with holdoff := true } := by
  refine ⟨(fget_raiseEvt _ _ _ _).trans (fget_fset_lt ?_ _ (by decide) (by decide)), raiseEvt_dbg _ _⟩
  exact (Registers.wf_of_regs (s := t) rfl).trans h

theorem chalDone_stays {s : State} (h : s.dbg.check = none ∨ dbgState s ≠ 2 ∨ fis keyB PK_STAT.BUSY s = true) :
    chalDone s = s := by
  unfold chalDone
  cases hc : s.dbg.check with
  | none => rfl
  | some c => exact if_pos (h.resolve_left (by rw [hc]; exact Option.some_ne_none c))

theorem chalDone_eq {n : List Byte} {scope : Word} {r sig : Nat} {s : State} (hc : s.dbg.check = some (n, scope, r, sig))
    (hst : dbgState s = 2) (hfree : fis keyB PK_STAT.BUSY s = false) :
    chalDone s = if chalValid n scope r sig s then chalUnlock scope { s with dbg := { s.dbg with check := none } }
      else chalDeny { s with dbg := { s.dbg with check := none } } := by
  unfold chalDone
  rw [hc]
  refine if_neg fun hstop => hstop.elim (fun hne => hne hst) fun hbusy => ?_
  exact Bool.noConfusion (hfree.symm.trans hbusy)

theorem chalDone_shows {n : List Byte} {scope : Word} {r sig : Nat} {s : State} (hc : s.dbg.check = some (n, scope, r, sig))
    (hst : dbgState s = 2) (hfree : fis keyB PK_STAT.BUSY s = false) (hwf : Registers.wf s = true) :
    (chalDone s).dbg.check = none ∧
    (chalValid n scope r sig s = true →
      dbgState (chalDone s) = 3 ∧ fget dbgB DBG_STAT.SCOPE (chalDone s) = bitsOf scope 0 15) ∧
    (chalValid n scope r sig s = false → dbgState (chalDone s) = 1 ∧ (chalDone s).dbg.holdoff = true) := by
  rw [chalDone_eq hc hst hfree]
  have ht : Registers.wf { s with dbg := { s.dbg with check := none } } = true := (Registers.wf_of_regs rfl).trans hwf
  have hcheck : ({ s with dbg := { s.dbg with check := none } } : State).dbg.check = none := rfl
  generalize ({ s with dbg := { s.dbg with check := none } } : State) = t at ht hcheck
  obtain ⟨hopen, hscope, hdbg⟩ := chalUnlock_shows scope ht
  obtain ⟨hlocked, hheld⟩ := chalDeny_shows ht
  cases hvalid : chalValid n scope r sig s with
  | true => exact ⟨by rw [if_pos rfl, hdbg, hcheck], fun _ => by rw [if_pos rfl]; exact ⟨hopen, hscope⟩, fun h => Bool.noConfusion h⟩
  | false =>
    rw [if_neg Bool.false_ne_true]
    exact ⟨by rw [hheld]; exact hcheck, fun h => Bool.noConfusion h, fun _ => ⟨hlocked, by rw [hheld]⟩⟩

/-! ### DBG_LOCK (R648, R653) -/

theorem dbgRelock_stays {key : Nat} {s : State} (h : key ≠ 0x4447 ∨ dbgState s ≠ 3) : dbgRelock key s = s :=
  if_neg fun ⟨hkey, hst⟩ => h.elim (· hkey) (· hst)

/-- Processors set one after another leave the registers and the memories. -/
theorem coreSet_foldl_frame (c : Nat → State → CoreCtx) (l : List Nat) (s : State) :
    (l.foldl (fun t k => coreSet k (c k t) t) s).regs = s.regs ∧ (l.foldl (fun t k => coreSet k (c k t) t) s).mem = s.mem := by
  induction l generalizing s with
  | nil => exact ⟨rfl, rfl⟩
  | cons k l ih => exact ih (coreSet k (c k s) s)

theorem hartsResume_frame (s : State) : (hartsResume s).regs = s.regs ∧ (hartsResume s).mem = s.mem :=
  coreSet_foldl_frame (fun k t => { coreGet k t with halted := false }) (List.range 7) s

theorem dbgRelock_shows {s : State} (hst : dbgState s = 3) (hwf : Registers.wf s = true) :
    dbgState (dbgRelock 0x4447 s) = 1 ∧ fget dbgB DBG_STAT.SCOPE (dbgRelock 0x4447 s) = 0 ∧ (dbgRelock 0x4447 s).mem = s.mem := by
  have heq : dbgRelock 0x4447 s = hartsResume (fset dbgB DBG_STAT.SCOPE 0 (fset dbgB DBG_STAT.STATE 1 s)) := if_pos ⟨rfl, hst⟩
  have hwf' := Registers.wf_fset hwf dbgB DBG_STAT.STATE 1
  rw [heq]
  obtain ⟨hregs, hmem⟩ := hartsResume_frame (fset dbgB DBG_STAT.SCOPE 0 (fset dbgB DBG_STAT.STATE 1 s))
  refine ⟨?_, ?_, hmem⟩
  · exact (fget_of_regs hregs _ _).trans ((fget_fset_of_apart hwf' _ _ (by decide)).trans (fget_fset_lt hwf _ (by decide) (by decide)))
  · exact (fget_of_regs hregs _ _).trans (fget_fset_lt hwf' _ (by decide) (by decide))

/-! ### The debug port as a whole -/

/-- A code of the instruction register that is not `n`. -/
theorem toNat_ne_of_ne {w : Nat} {x : BitVec w} {n : Nat} (hn : n < 2 ^ w) (h : x ≠ BitVec.ofNat w n) : x.toNat ≠ n :=
  fun he => h (BitVec.eq_of_toNat_eq (by rw [he, BitVec.toNat_ofNat, Nat.mod_eq_of_lt hn]))

/-- The instruction register after an update, and nothing else changed. -/
theorem irUpdate_shows (code : BitVec 5) (tapReset : Bool) (s : State) :
    irUpdate code.toNat tapReset s = { s with dbg := { s.dbg with ir := (irUpdate code.toNat tapReset s).dbg.ir } } := rfl

theorem irUpdate_ir (code : Nat) (s : State) : (irUpdate code false s).dbg.ir = irOf code s := rfl

/-- Settles O57: the TAP's codes, accesses of the debug module under their instruction, the challenge, its check and its
hold-off, and DBG_LOCK. -/
theorem debugPort : Obligations.DebugPort := by
  refine ⟨fun code tapReset s => ⟨_, rfl, irUpdate_shows code tapReset s, ?_, ?_, ?_, ?_, ?_, ?_⟩,
    fun op addr data s => ⟨fun hir => congrArg Host.Outcome.next (if_neg (by rw [hir]; decide)), fun hir hlocked => ?_,
      fun hir h1 h2 hop ha => ?_, fun hir h1 h2 hop ha hact hsel hhalt hack hreset hrun => ?_⟩,
    fun h s => hartView_outOfScope,
    fun s => ⟨fun hir => congrArg Host.Outcome.next (if_neg (by rw [hir]; decide)),
      fun hir n hn => congrArg Host.Outcome.next ((if_pos hir).trans (chalCapture_nonce hn)),
      fun hir hst => ⟨_, congrArg Host.Outcome.next (if_pos hir), chalCapture_open hst⟩⟩,
    fun scope r sig s => ⟨fun h => congrArg Host.Outcome.next ?_, fun n hir hst hn hfree hwf =>
      ⟨_, congrArg Host.Outcome.next (if_pos hir), chalUpdate_starts scope r.toNat sig.toNat hst hn hfree hwf⟩⟩,
    fun s => ⟨fun h => congrArg Host.Outcome.next (chalDone_stays h), fun n scope r sig hc hst hfree hwf =>
      ⟨_, rfl, chalDone_shows hc hst hfree hwf⟩, rfl⟩,
    fun i key s hadm => ⟨fun h => ?_, fun hkey hst hwf => ?_⟩⟩
  · rintro rfl; rfl
  · rintro rfl rfl; rfl
  · rintro rfl hne hoff
    exact irOf_off (toNat_ne_of_ne (by decide) hne) hoff
  · rintro rfl hon rfl
    exact irOf_extest hon
  · rintro rfl hon hcode
    refine irOf_named hon ?_
    unfold irNamed
    rcases hcode with rfl | rfl | rfl | rfl <;> decide
  · rintro rfl hon h0 h1 h2 h10 h11 h12
    refine irOf_other hon (toNat_ne_of_ne (by decide) h0) (toNat_ne_of_ne (by decide) h1) ?_
    rintro (h | h | h | h)
    · exact toNat_ne_of_ne (by decide) h2 h
    · exact toNat_ne_of_ne (by decide) h10 h
    · exact toNat_ne_of_ne (by decide) h11 h
    · exact toNat_ne_of_ne (by decide) h12 h
  · exact congrArg Host.Outcome.next ((if_pos hir).trans (dmiDo_locked hlocked))
  · subst hop ha
    exact congrArg Host.Outcome.next ((if_pos hir).trans (dmiDo_read (fun h => h.elim h1 h2) (by decide)))
  · subst hop ha
    exact ⟨_, congrArg Host.Outcome.next (if_pos hir),
      dmiDo_halts (fun h => h.elim h1 h2) hact hsel hhalt hack hreset hrun⟩
  · cases hir : irIs 0x12 s with
    | false => exact if_neg Bool.false_ne_true
    | true => exact (if_pos rfl).trans (chalUpdate_stays (h.resolve_left (by rw [hir]; decide)))
  · refine congrArg Host.Outcome.next ((doorStore_admits hadm).trans (congrArg acknowledge (dbgRelock_stays ?_)))
    exact h.imp_left (toNat_ne_of_ne (by decide))
  · subst hkey
    exact ⟨_, congrArg Host.Outcome.next (doorStore_admits hadm), dbgRelock_shows hst hwf⟩

end Sys2Proof.Machine

namespace Sys2Proof.Tests
open Sys2Proof.Machine

set_option maxRecDepth 8000

/-- The port is LOCKED with a nonce outstanding: an update starts the check and spends the nonce. -/
theorem test_hyps_debugPort :
    dbgState (chalUpdate 3 1 1 { regs [(0x40150000, 1)] up with dbg := { (regs [(0x40150000, 1)] up).dbg with nonce := some [] } }) = 2 :=
  (chalUpdate_starts 3 1 1 (by decide) rfl rfl (by decide)).1

end Sys2Proof.Tests
end
